-- ==== Sys2Proof/Word.lean ====
section
/-! DEFINITION. The word types of the block: 32-bit words (R9) and bytes, and the plainest arithmetic on them. -/

namespace Sys2Proof

/-- A register, packet or ring word (R9, R73, R101). -/
abbrev Word := BitVec 32

/-- A byte of a packet in memory order (R9). -/
abbrev Byte := BitVec 8

/-- Device time and other 64-bit counts of edge ticks (R10). -/
abbrev Tick := BitVec 64

end Sys2Proof
end

