-- ==== Sys2Proof/Config.lean ====
section
/-! DEFINITION. What an implementation fixes and the spec leaves open: constants and functions without a body.
Nothing in Lean can evaluate them, so no statement can rest on a value of theirs. -/

namespace Sys2Proof

/-- A value the spec leaves open, by the number of the reading (State's counter `free`): each use is a fresh one. -/
opaque Config.freeWord : Nat → Word

/-- The ordered grade (R1, R2): true for JV-7224-H, false for JV-7224-G. -/
opaque Config.gradeH : Bool

/-- Square root of the control laws, as the implementation computes it. -/
opaque Config.sqrt : Rat → Rat

/-- Sine of an angle in turns, as the implementation computes it. -/
opaque Config.sin : Rat → Rat

/-- Cosine of an angle in turns, as the implementation computes it. -/
opaque Config.cos : Rat → Rat

/-- atan2(y, x) in turns: the angle of the vector (x, y), as the implementation computes it. -/
opaque Config.atan2 : Rat → Rat → Rat

/-- Rounding of a result to binary32 where the spec does not say how the result is rounded. -/
opaque Config.round32 : Rat → Word

/-- The circle number, as the implementation uses it in conversions between radians and turns. -/
opaque Config.pi : Rat

/-- Rounding of a map entry to binary16 (R212). -/
opaque Config.round16 : Rat → BitVec 16

/-- A value as the binary64 arithmetic of the planner gives it (R253). -/
opaque Config.round64 : Rat → Rat

/-- The whole number of edge ticks an implementation gives a planned duration in ticks (R253). -/
opaque Config.planTicks : Rat → Nat

/-- The torque at |i| = I_MAX (R214): the largest value on that circle of a torque given as a function of id and iq. -/
opaque Config.maxTorque : (Rat → Rat → Rat) → Rat → Rat

/-- The current (id, iq) of least magnitude at which a torque given as a function of id and iq takes a value (R214). -/
opaque Config.leastCurrent : (Rat → Rat → Rat) → Rat → Rat × Rat

/-- The argument at which a function takes a value (R215), as the implementation finds it. -/
opaque Config.solve : (Rat → Rat) → Rat → Rat

/-- The voltage step of frame `n` of the four frames of a grid point of an inductance sweep (R213), in dq: the spec names the steps + and −
and gives neither their size nor their axes. -/
opaque Config.identStep : Nat → Rat × Rat

/-- Position and velocity a stepping winding works with at an instant where its REF is no axis (R196, R219): the spec states none. -/
opaque Config.noAxis : Tick → Rat × Rat

/-- The register value of RATE, in 1/256 ppb, of a rate that is no whole multiple (R386, R391). -/
opaque Config.roundRate : Rat → Int

/-- The ECDSA check of a firmware image against the key of the factory area (R133): the words of the image with its signature. -/
opaque Config.sigOk : List Word → Bool

/-- The RC trim of the factory area, as the boot sequencer loads it (R58, R112). -/
opaque Config.factoryTrim : BitVec 14

/-- The MAC address words of the factory area by register address (R396). -/
opaque Config.factoryMac : Nat → Word

end Sys2Proof
end

