-- ==== Sys2Proof/Syntax.lean ====
section
/-! DEFINITION. The commands of the block: one constructor per row of spec/opcode_table.json, with the row's
operands. An event row carries what was measured at the pins or counted by the clocked parts; an opcode row
carries the request the dispatcher handed over (R83). -/

namespace Sys2Proof

/-- Where a request came from and where its reply goes (R82, R98 to R100). -/
inductive Origin where
  | host
  | udp (mac : Nat) (src : BitVec 48) (ip : Word) (udpPort : Nat) (pcp : Option Nat)
  | sward (node : Nat) (reed : Bool)
  | can
deriving DecidableEq, Repr

/-- A request (R73): its port (R82), two header words, parameter words and check word, and its origin. -/
structure Request where
  port : Fin 8
  h0 : Word
  h1 : Word
  params : List Word
  check : Word
  origin : Origin := .host
deriving DecidableEq, Repr

/-- What happens to a clock source (R56): which one, and whether a falling edge of the clock then active comes within 16 cycles of a
clock the multiplexer is switched to (R64). -/
structure SourceChange where
  src : Fin 3
  edge : Bool
deriving DecidableEq, Repr

/-- Bits of a modulator, oldest first, and the selected edge of the last one (R149, R154). -/
structure BitRun where
  bits : List Bool
  e : Tick
deriving DecidableEq, Repr

/-- A level of a fault input, and how long the input holds it, in units of 2 ns (R184, R194). -/
structure FaultLevel where
  low : Bool
  w : Nat
deriving DecidableEq, Repr

/-- A level of an STO input, and how long the input holds it, in units of 2 ns (R336). -/
structure StoLevel where
  on : Bool
  w : Nat
deriving DecidableEq, Repr

/-- A Sync exchange: the instants at which the master sent it and the slave port received it, in system time, in 2^-16 ns, each with its
corrections (R384, R390). -/
structure PtpSync where
  t1 : Int
  t2 : Int
deriving DecidableEq, Repr

/-- The two ways of a delay measurement, sent and received: Sync and Delay_Req (E2E), or Pdelay_Req and Pdelay_Resp (P2P), in 2^-16 ns
(R389, R390). -/
structure PtpDelay where
  t1 : Int
  t2 : Int
  t3 : Int
  t4 : Int
deriving DecidableEq, Repr

/-- A change of a line: its instant, and how long the line then holds its level, in units of 2 ns (R229, R238). -/
structure LineEdge where
  t : Tick
  w : Nat
deriving DecidableEq, Repr

/-- What an inductance sweep or a flux map run found (R213): the SCALE of maps, and shadow entries as (map, entry, binary16). -/
structure IdentMaps where
  scales : List (Nat × Word)
  cells : List (Nat × Nat × BitVec 16)
deriving DecidableEq, Repr

/-- The commands of the block: the rows of spec/opcode_table.json in its order, those without operands last. -/
inductive Instr where
  /-- RESET_RELEASE, R113. Release of reset at the later rising edge of PGOOD and RESET_N starts the start-up phases. -/
  | resetRelease (straps : BitVec 8)
  /-- SUPPLY_MONITOR_RESET, R465. A logic rail below its reset threshold for 2 µs holds reset, which is released 1 ms after the rails recover, with cause SUPPLY. -/
  | supplyMonitorReset (lost : List (Fin 1024))
  /-- COMMAND_READY, R113. Start-up ends: HRDY goes high, all ports are served and event 0 is raised with the reset causes. -/
  | commandReady (us : Word)
  /-- WAKE, R142. An HSEL_N or WAKE_N falling edge, a CAN wake or an enabled field edge wakes the device from Dormant as a reset with cause WAKE. -/
  | wake (src : Fin 3) (inst : Fin 32) (rising : Bool)
  /-- SOURCE_MISSING_EDGE, R57. No rising edge of a clock source within 120 ns disqualifies it, counts a failure and raises CLK_FAIL. -/
  | sourceMissingEdge (c : SourceChange)
  /-- SOURCE_FREQUENCY_FAIL, R57. A source whose frequency over 1,024 cycles lies outside the window is declared failed and disqualified. -/
  | sourceFrequencyFail (src : Fin 3)
  /-- SOURCE_QUALIFIED, R56. A source completes its qualification count of consecutive good cycles and becomes qualified. -/
  | sourceQualified (c : SourceChange)
  /-- PLL_LOCK, R60. A PLL reports lock after its phase error stays below 1 ns for 256 reference cycles, starting its children's clocks. -/
  | pllLock (pll : Fin 4)
  /-- PLL_LOCK_LOSS, R60. A PLL phase error above 2 ns, a long reference gap or a step beyond 0.5 % clears its lock. -/
  | pllLockLoss (pll : Fin 4)
  /-- RC_TRIM_MEASURE, R58. Every 10 ms the RC error is measured against the trim reference, TRIM moved and TRIM_LOCK updated. -/
  | rcTrimMeasure (err : Word)
  /-- CLOCK_REVERT, R67. With REVERT set, a higher-priority source qualified for 1 s without failure is switched back to. -/
  | clockRevert (src : Fin 3)
  /-- CLK_CTRL_WRITE, R67. A write of CLK.CTRL changes the source enables and REVERT, refused if it would disable the active or every source. -/
  | clkCtrlWrite (w : Word)
  /-- CLK_SEL_WRITE, R67. A write of CLK.SEL.SRC requests a glitch-free manual switch to an enabled qualified source. -/
  | clkSelWrite (w : Word)
  /-- CLK_RCTRIM_WRITE, R58. A write of CLK.RCTRIM sets the trim reference and, only with REF 3, the trim value. -/
  | clkRctrimWrite (w : Word)
  /-- CLK_GATE_WRITE, R69. A write of CLK.GATE gates or ungates clock nodes, checked as a whole against parents and nodes in use. -/
  | clkGateWrite (w : Word)
  /-- PACE_MEASUREMENT, R32. At the end of each 10 µs interval the pace monitor writes the slowest sub-interval pace to LIVE_PS and WORST_PS. -/
  | paceMeasurement (fs : List (BitVec 32))
  /-- ENVELOPE_MEASUREMENT, R35. Every 1 ms VCORE and junction temperature are measured and an excursion raises ENV_EXCURSION. -/
  | envelopeMeasurement (mv tj : BitVec 16)
  /-- FRAME_BOUNDARY, R19. A frame boundary of a timing group falls at a carrier zero or peak: shadowed settings apply, sets load and sensing and feedback windows close. -/
  | frameBoundary (g : Fin 8)
  /-- SENSE_RESULT_POST, R160. The front end posts each channel's window value and point sample within 650 ns of its last overlapping bit. -/
  | senseResultPost (c : Fin 128) (bits : List (Tick × Bool)) (t : Tick)
  /-- WINDING_PASS, R205. A winding pass predicts the current, computes and limits its voltage vector and modulates it into an edge set. -/
  | windingPass (slot : Fin 256)
  /-- CHOPPER_PASS, R220. A chopper pass computes its duty and writes the variable interval of its set. -/
  | chopperPass (slot : Fin 256)
  /-- STEPPING_PASS, R219. A stepping winding pass forms phase voltages from its axis position and velocity. -/
  | steppingPass (slot : Fin 256)
  /-- MACHINE_PASS, R217. A machine pass decomposes its members' currents, limits torque and supplies references and angles to its members. -/
  | machinePass (slot : Fin 256)
  /-- OBSERVER_PASS, R221. An observer pass estimates angle and speed by flux and injection and tracks lock and mismatch. -/
  | observerPass (slot : Fin 256)
  /-- AXIS_PASS, R250. An axis pass updates its actual position, evaluates its plan and computes its effort. -/
  | axisPass (slot : Fin 256)
  /-- GEAR_PASS, R276. A gear pass reads its master and advances the follower reference by ratio, cam or modulation. -/
  | gearPass (slot : Fin 256)
  /-- STROKE_TICK, R287. A stroke group runs intake, look-ahead, path evaluation and member sub-passes for one interpolation tick. -/
  | strokeTick (slot : Fin 256)
  /-- FILTER_PASS, R307. A filter pass runs one biquad section on its input. -/
  | filterPass (slot : Fin 256)
  /-- PROBE_PASS, R308. A probe pass posts two scaled outputs of its inputs. -/
  | probePass (slot : Fin 256)
  /-- PASS_COMMIT, R42. A pass commits its context writes, outputs and edge set as one unit when it ends. -/
  | passCommit (slot : Fin 256)
  /-- LINK_SKIP_INSTANT, R24. At R(k) plus half the window a consumer waiting on an unfinished producer is released with the last output and LINK_SKIP raised. -/
  | linkSkipInstant (g : Fin 8)
  /-- PASS_DEADLINE, R43. A pass not committed by its deadline is abandoned, LATE counted and LATE_PASS raised. -/
  | passDeadline (g : Fin 8)
  /-- PRECHARGE_END, R199. After BOOT_FR frames of PRECHARGE the winding becomes ENABLED. -/
  | prechargeEnd (slot : Fin 256)
  /-- RAMP_END, R199. After RAMP_FR frames of RAMP the winding becomes DISABLED. -/
  | rampEnd (slot : Fin 256)
  /-- MTPA_REBUILD, R214. Reed rebuilds the MTPA table at a flux-map swap or every 1 s while adaptation changed the maps. -/
  | mtpaRebuild (m : Fin 64)
  /-- HOST_SPI_CMD_FRAME, R94. A CMD frame of the host SPI port is written into ring 0 at the rise of HSEL_N, or aborted or discarded. -/
  | hostSpiCmdFrame (hdr : Word) (body : List Word) (tailBits : Nat)
  /-- HOST_SPI_FETCH_FRAME, R95. A FETCH frame shifts out the tail reply of ring 8 and removes it if clocked whole. -/
  | hostSpiFetchFrame (hdr : Word) (clocked : Nat) (late : Option Nat)
  /-- HOST_SPI_STATUS_FRAME, R93. A STATUS frame returns the status word only. -/
  | hostSpiStatusFrame (hdr : Word)
  /-- UDP_COMMAND_DATAGRAM, R98. A UDP datagram on the command port carries one request into the port's command ring. -/
  | udpCommandDatagram (mac : Fin 2) (o : Origin) (bytes : List Byte) (sumOk : Bool)
  /-- SWARD_COMMAND_FRAME, R99. A Sward command-class CMD_REQ frame carries one request into command port 3. -/
  | swardCommandFrame (src : Nat) (bytes : List Byte)
  /-- CAN_COMMAND_FRAME, R100. An FD frame with REQ_ID carries one request into the CAN controller's command port. -/
  | canCommandFrame (c : Fin 4) (fd : Bool) (bytes : List Byte)
  /-- DEFERRED_REPLY_SEND, R78. A reply held under ACK_AT_APPLY is sent once the last affected group's boundary has passed. -/
  | deferredReplySend (p : Fin 8)
  /-- NOP, R87. NOP does nothing and replies OK, showing Reed serves commands. -/
  | nop (r : Request)
  /-- IDENTIFY, R87. IDENTIFY returns part number, grade, revision and running firmware and bank. -/
  | identify (r : Request)
  /-- READ_REG, R88. READ_REG reads a run of registers, optionally at a group boundary with SNAPSHOT. -/
  | readReg (r : Request)
  /-- WRITE_REG, R88. WRITE_REG writes a run of registers in ascending order. -/
  | writeReg (r : Request)
  /-- MODIFY_REG, R90. MODIFY_REG performs one arbitrated read-mask-write and returns the old value. -/
  | modifyReg (r : Request)
  /-- READ_SNAPSHOT, R51. READ_SNAPSHOT takes up to 32 registers at the next boundary of a group. -/
  | readSnapshot (r : Request)
  /-- CTX_CREATE, R195. CTX_CREATE allocates a context slot of a kind in a group as pending. -/
  | ctxCreate (r : Request)
  /-- CTX_DELETE, R40. CTX_DELETE frees a pending context at once or a committed one at its group's next boundary. -/
  | ctxDelete (r : Request)
  /-- CTX_BIND, R196. CTX_BIND attaches resources, producers and links to a context at its group's boundary. -/
  | ctxBind (r : Request)
  /-- CTX_PARAM, R223. CTX_PARAM writes context words that apply together at the group's boundary. -/
  | ctxParam (r : Request)
  /-- ADMIT, R41. ADMIT runs the admission tests and, if passed, sets the envelope, windows and commits pending contexts. -/
  | admitRq (r : Request)
  /-- GROUP_STATE, R182. GROUP_STATE requests OFF, PROVE or RUN for a group at its next carrier zero. -/
  | groupState (r : Request)
  /-- WINDING_ENABLE, R200. WINDING_ENABLE enables a winding, through PRECHARGE if configured, at the next boundary. -/
  | windingEnable (r : Request)
  /-- WINDING_DISABLE, R200. WINDING_DISABLE releases, ramps or shorts a winding at the next boundary. -/
  | windingDisable (r : Request)
  /-- IDENT_RUN, R213. IDENT_RUN starts a resistance, inductance or flux identification run on a kind 2 winding. -/
  | identRun (r : Request)
  /-- IDENT_DONE, R213. The end of an identification run writes its results and raises IDENT_DONE. -/
  | identDone (slot : Fin 256) (res : Word) (maps : IdentMaps)
  /-- MOVE, R258. MOVE plans a profile to a target from standstill. -/
  | move (r : Request)
  /-- MOVE_NEXT, R260. MOVE_NEXT queues a follow-on move or starts one at standstill. -/
  | moveNext (r : Request)
  /-- JOG, R256. JOG runs the axis in velocity towards a signed JOG value. -/
  | jog (r : Request)
  /-- HALT, R262. HALT ramps the axis to rest with D_MAX keeping target and queue. -/
  | halt (r : Request)
  /-- QUICK_STOP, R262. QUICK_STOP ramps the axis to rest with QS_DEC and QS_JERK. -/
  | quickStop (r : Request)
  /-- RESUME, R262. RESUME replans from HALTED or FAULT towards the kept target or JOG value. -/
  | resume (r : Request)
  /-- SET_LIMITS, R258. SET_LIMITS writes motion limits at the next axis boundary, replanning in motion. -/
  | setLimits (r : Request)
  /-- HOME, R265. HOME starts a homing method on an axis. -/
  | home (r : Request)
  /-- SET_POSITION, R258. SET_POSITION shifts x_cmd, x_act and TARGET and sets HOMED. -/
  | setPosition (r : Request)
  /-- ABORT_MOVE, R259. ABORT_MOVE discards target and queue and stops the axis into STANDSTILL. -/
  | abortMove (r : Request)
  /-- HOME_TIMEOUT, R267. Homing not reaching its last step within HOME_TMO fails with cause 2 and a quick stop. -/
  | homeTimeout (slot : Fin 256)
  /-- GEAR_ENGAGE, R281. GEAR_ENGAGE engages a gear immediately, by ramp or at a master position. -/
  | gearEngage (r : Request)
  /-- GEAR_DISENGAGE, R283. GEAR_DISENGAGE ramps, stops or immediately ends the gear's lead. -/
  | gearDisengage (r : Request)
  /-- GEAR_RATIO, R282. GEAR_RATIO stores or changes a gear's ratio, possibly over a ratio ramp. -/
  | gearRatio (r : Request)
  /-- CAM_LOAD_BEGIN, R285. CAM_LOAD BEGIN opens a load of a cam, invalidating it. -/
  | camLoadBegin (r : Request)
  /-- CAM_LOAD_DATA, R285. CAM_LOAD DATA stores points at the next index. -/
  | camLoadData (r : Request)
  /-- CAM_LOAD_END, R285. CAM_LOAD END validates the cam and closes the load. -/
  | camLoadEnd (r : Request)
  /-- STROKE_START, R294. STROKE_START sets a stroke group RUNNING from its members' positions. -/
  | strokeStart (r : Request)
  /-- STROKE_FEED, R292. STROKE_FEED sets the feed override from the next tick. -/
  | strokeFeed (r : Request)
  /-- STROKE_HOLD, R294. STROKE_HOLD holds or releases the path. -/
  | strokeHold (r : Request)
  /-- STROKE_FLUSH, R294. STROKE_FLUSH empties the ring and look-ahead and returns members to STANDSTILL. -/
  | strokeFlush (r : Request)
  /-- INK_ARM, R317. INK_ARM discards a session's records, assigns pages and arms it. -/
  | inkArm (r : Request)
  /-- INK_FORCE, R317. INK_FORCE triggers an armed session at arbitration. -/
  | inkForce (r : Request)
  /-- INK_STOP, R317. INK_STOP stops a session, marking an interrupted record PARTIAL. -/
  | inkStop (r : Request)
  /-- INK_READ, R323. INK_READ starts readout of a record to a ring, UDP or the Sward. -/
  | inkRead (r : Request)
  /-- INK_READ_DONE, R323. The end of a readout raises INK_READ_DONE and may release the record. -/
  | inkReadDone (q : Fin 4) (single double : Nat)
  /-- INK_AUTO_EXPIRY, R316. In AUTO mode no trigger within AUTO_T forces a trigger and marks the record FORCED. -/
  | inkAutoExpiry (q : Fin 4)
  /-- INK_RECORD_COMPLETE, R314. A record completes once every channel has posted at or beyond t_T + POST. -/
  | inkRecordComplete (q : Fin 4)
  /-- TIME_SET, R388. TIME_SET sets system time at its arbitration instant. -/
  | timeSet (r : Request)
  /-- TIME_ADJUST_OFFSET, R388. TIME_ADJUST mode 0 steps or slews system time by an offset. -/
  | timeAdjustOffset (r : Request)
  /-- TIME_ADJUST_RATE, R388. TIME_ADJUST mode 1 sets a new RATE. -/
  | timeAdjustRate (r : Request)
  /-- PULSE_PROGRAM, R393. PULSE_PROGRAM sets or stops a timed pulse output. -/
  | pulseProgram (r : Request)
  /-- PULSE_EDGE_FIX, R394. 10 µs before a pulse edge its DT is fixed from system time, skipping pulses too close after a step. -/
  | pulseEdgeFix (p : Fin 4) (t : Tick)
  /-- FIO_SET, R374. FIO_SET commands one or several field outputs. -/
  | fioSet (r : Request)
  /-- FIO_CONFIG, R375. FIO_CONFIG configures a field channel within 20 µs. -/
  | fioConfig (r : Request)
  /-- KEEP_WRITE, R128. KEEP_WRITE writes a keep word and returns its wear count. -/
  | keepWrite (r : Request)
  /-- KEEP_WORD_REG_WRITE, R129. A register write of KEEP.WORD waits for the word to be free, then writes it. -/
  | keepWordRegWrite (n : Fin 1024) (w : Word)
  /-- KEEP_WRITE_PERSIST, R129. A keep write becomes persistent within 60 µs and the word is no longer busy. -/
  | keepWritePersist (n : Fin 1024) (ecc : Fin 3)
  /-- CFG_SAVE, R126. CFG_SAVE checks and starts saving the image, maps or cams to the NVM die. -/
  | cfgSave (r : Request)
  /-- CFG_SAVED, R126. The save work ends, SAVE_BUSY clears and event 19 reports the outcome. -/
  | cfgSaved (res : Fin 3)
  /-- CFG_LOAD, R127. CFG_LOAD applies selected blocks from a bank or the staging window. -/
  | cfgLoad (r : Request)
  /-- FW_STAGE_BEGIN, R135. FW_STAGE BEGIN starts staging an image into the non-running bank. -/
  | fwStageBegin (r : Request)
  /-- FW_STAGE_DATA, R135. FW_STAGE DATA appends words to the programming buffer. -/
  | fwStageData (r : Request)
  /-- FW_STAGE_END, R135. FW_STAGE END starts verification of the staged bank. -/
  | fwStageEnd (r : Request)
  /-- FW_SWITCH_SWITCH, R136. FW_SWITCH SWITCH stops dispatch to Reed and swaps firmware at the target boundary. -/
  | fwSwitchSwitch (r : Request)
  /-- FW_SWITCH_CONFIRM, R137. FW_SWITCH CONFIRM writes keep word 960 and ends the trial. -/
  | fwSwitchConfirm (r : Request)
  /-- FW_SWITCH_REVERT, R137. FW_SWITCH REVERT returns to the old image at the next boundary. -/
  | fwSwitchRevert (r : Request)
  /-- FW_SWITCH_SCRIBE, R354. FW_SWITCH SCRIBE switches the Scribe section under a single-channel interval. -/
  | fwSwitchScribe (r : Request)
  /-- CAL_SWAP, R139. CAL_SWAP exchanges shadow and active copies of a table at each group's next boundary. -/
  | calSwap (r : Request)
  /-- DORMANT, R141. DORMANT writes keep counters and powers down all but keep memory, wake logic and Husk. -/
  | dormant (r : Request)
  /-- RESET_BLOCK, R118. RESET_BLOCK resets the named block, or the whole module 1 ms after its reply. -/
  | resetBlock (r : Request)
  /-- SAFE_PARAM_STAGE, R352. SAFE_PARAM_STAGE has Scribe and Husk check the staged safety set and return both CRCs. -/
  | safeParamStage (r : Request)
  /-- SAFE_PARAM_CONFIRM, R352. SAFE_PARAM_CONFIRM puts the staged set in force at the next exchange. -/
  | safeParamConfirm (r : Request)
  /-- SAFE_ACK, R355. SAFE_ACK takes LOCKED to STO or arms a manual restart. -/
  | safeAck (r : Request)
  /-- SWARD_ROUTE, R431. SWARD_ROUTE stages a route add, delete or clear for the next epoch boundary. -/
  | swardRoute (r : Request)
  /-- SWARD_JOIN, R433. SWARD_JOIN starts TRAINING on a DOWN port. -/
  | swardJoin (r : Request)
  /-- SWARD_LEAVE, R433. SWARD_LEAVE takes a port down gracefully or at once. -/
  | swardLeave (r : Request)
  /-- SHEAF_ROLE, R438. SHEAF_ROLE sets the module's Sheaf role and base. -/
  | sheafRole (r : Request)
  /-- CAN_TX, R404. CAN_TX places a message in a transmit slot. -/
  | canTx (r : Request)
  /-- CAN_CANCEL, R406. CAN_CANCEL cancels a slot at once or defers the cancellation. -/
  | canCancel (r : Request)
  /-- CAN_SCHEDULE_START, R409. CAN_SCHEDULE START checks and runs the time-triggered matrix. -/
  | canScheduleStart (r : Request)
  /-- CAN_SCHEDULE_STOP, R410. CAN_SCHEDULE STOP stops the matrix so slots arbitrate freely. -/
  | canScheduleStop (r : Request)
  /-- RING_POP, R105. RING_POP removes and returns whole entries from a ring's tail. -/
  | ringPop (r : Request)
  /-- RING_PUSH, R106. RING_PUSH writes whole entries at a ring's head, all or none. -/
  | ringPush (r : Request)
  /-- RING_CONFIG_WRITE, R104. A write of RING.LOC or RING.CTRL changes a ring's layout, enable or threshold, checked as a whole. -/
  | ringConfigWrite (n : Fin 64) (ctrl : Bool) (w : Word)
  /-- RING_OVERFLOW_REPORT, R103. 10 ms after a ring's last event 253, losses since then raise event 253 again. -/
  | ringOverflowReport (n : Fin 64)
  /-- PSPI_TRANSFER_START, R111. Writing GO to SPI.PXFER starts a peripheral SPI transfer. -/
  | pspiTransferStart (n : Fin 2) (w : Word)
  /-- PSPI_TRANSFER_DONE, R111. A peripheral SPI transfer ends, setting DONE and raising event 255 detail 4. -/
  | pspiTransferDone (n : Fin 2) (rx : List Word)
  /-- SPI_IRQCFG_WRITE, R108. A write of SPI.IRQCFG changes IRQ pin drive and polarity within 100 ns. -/
  | spiIrqcfgWrite (w : Word)
  /-- SENSE_MCLK_WRITE, R148. A write of SENSE.MCLK enables, disables or re-times a modulator clock output. -/
  | senseMclkWrite (n : Fin 12) (w : Word)
  /-- SENSE_CAL_SCAN, R161. START with MODE 1 runs an eye scan on a channel. -/
  | senseCalScan (ch : Fin 128)
  /-- SENSE_CAL_OFFSET, R161. START with MODE 2 averages a channel's bits into CALOFS. -/
  | senseCalOffset (ch : Fin 128)
  /-- SENSE_CAL_DONE, R161. A calibration ends, writing its results and raising SENSE_CAL_DONE. -/
  | senseCalDone (rt : Option (Nat × Nat)) (sum : Int)
  /-- OVERCURRENT_TRIP, R154. The sinc1 comparator trips after OC_RUN qualifying bits, releasing the nibs of bound windings when OC_ACT is set. -/
  | overcurrentTrip (c : Fin 128) (run : BitRun)
  /-- MODULATOR_LOST, R163. LOSSRUN equal bits make a channel LOST and act on bound windings when LOSS_ACT is set. -/
  | modulatorLost (c : Fin 128) (bits : List Bool)
  /-- MODULATOR_RECOVERED, R163. 1,024 bits without such a run end LOST and raise SENSE_LOST. -/
  | modulatorRecovered (c : Fin 128)
  /-- NIB_EDGE_COMMIT, R172. A write of NIB.EDGE.SEQ commits the staged offsets of a host set into its shadow. -/
  | nibEdgeCommit (k : Fin 24) (seq : Word)
  /-- NIB_GPER_WRITE, R168. A write of NIB.GPER sets mode, double update and period, applying at a carrier zero or at once from period 0. -/
  | nibGperWrite (g : Fin 8) (w : Word)
  /-- NIB_CLEAR_LATCHES, R187. Writing CLR to NIB.GCTRL clears a group's nib latches unless a source is still active. -/
  | nibClearLatches (g : Fin 8)
  /-- NIB_GADJ_WRITE, R191. A write of NIB.GADJ lengthens or shortens the next carrier period once. -/
  | nibGadjWrite (g : Fin 8) (w : Word)
  /-- FAULT_INPUT_ASSERT, R185. A winding or global fault input that goes low releases and latches nibs in RUN or cuts the period in PROVE. -/
  | faultInputAssert (n : Fin 28) (level : FaultLevel)
  /-- HUSK_ENABLE_CHANGE, R188. A change of the Husk gate buffer enable raises NIB_HUSK and, when low, latches nibs with code 7. -/
  | huskEnableChange (on : Bool)
  /-- ECHO_EDGE, R177. A switch-node edge in its window updates the nib's echo correction. -/
  | echoEdge (n : Fin 72) (high : Bool) (t : Tick)
  /-- ECHO_WINDOW_END, R178. A transition window ending without a node edge is a miss, counted and acting after MISSMAX. -/
  | echoWindowEnd (n : Fin 72)
  /-- CHOPPER_PERIOD_START, R170. A chopper switching period starts where the previous one ends, with the active K and V. -/
  | chopperPeriodStart (n : Fin 72)
  /-- SYNC_IN_EDGE, R192. A SYNC_IN rising edge is timestamped and adjusts the next period of IN_GRP. -/
  | syncInEdge (t : Tick)
  /-- ENCODER_EDGE, R229. An accepted quadrature edge counts, or is an illegal transition making the channel INVALID. -/
  | encoderEdge (n : Fin 16) (a b : Bool) (edge : LineEdge)
  /-- Z_EDGE, R230. A qualified Z edge stores ZCNT and ZDT and raises FB_ZCAPTURE. -/
  | zEdge (n : Fin 16) (edge : LineEdge)
  /-- SSI_TRANSFER, R231. At T(k) minus LEAD the channel clocks in an SSI word and checks it. -/
  | ssiTransfer (n : Fin 16) (idle : Bool) (word trail : List (Tick × Bool))
  /-- FDBK_CLR, R235. Writing CLR to FDBK.CTRL takes an INVALID channel to SETTLING. -/
  | fdbkClr (n : Fin 16)
  /-- FDBK_ZARM, R230. Writing ZARM arms a once-only Z capture. -/
  | fdbkZarm (n : Fin 16)
  /-- LATCH_ARM, R239. Writing ARM to LATCH.CTRL arms a latch unit. -/
  | latchArm (u : Fin 64)
  /-- LATCH_DISARM, R239. Writing DISARM to LATCH.CTRL disarms a latch unit. -/
  | latchDisarm (u : Fin 64)
  /-- LATCH_EDGE, R239. An edge of the latch source in the window is captured, or ignored as chatter. -/
  | latchEdge (pin : Fin 8) (rising : Bool) (edge : LineEdge)
  /-- LATCH_TIME_COMPARE, R239. At WSTART a time-compare unit captures once. -/
  | latchTimeCompare (u : Fin 64)
  /-- LATCH_WINDOW_END, R239. A single-mode unit reaching WEND without capture disarms and raises LATCH_WINDOW_END. -/
  | latchWindowEnd (u : Fin 64)
  /-- LATCH_CAPTURE_COMPLETE, R240. Once every named source has posted its sample at T_b the interpolated result is written and LATCH_CAPTURE raised. -/
  | latchCaptureComplete (u : Fin 64)
  /-- SCRIBE_CYCLE, R332. Every 250 µs Scribe evaluates inputs, safe axes and functions and decides its safe state. -/
  | scribeCycle (t : Tick) (husk : List Int)
  /-- SCRIBE_XCHECK_FRAME, R341. Scribe receives Husk's cross-check frame and compares it with its own values. -/
  | scribeXcheckFrame (ok : Bool)
  /-- HUSK_XCHECK_FRAME, R341. Husk receives Scribe's cross-check frame, compares it and acts on decisions within 3 µs. -/
  | huskXcheckFrame (ok : Bool)
  /-- XCHECK_TIMEOUT, R341. A channel without a valid frame for XC_TMO cycles removes torque and latches the timeout. -/
  | xcheckTimeout (husk : Bool)
  /-- STO_INPUT_CHANGE, R336. A filtered change of STO_A or STO_B requests STO or opens a discrepancy window. -/
  | stoInputChange (view : Fin 3) (a b : StoLevel)
  /-- STO_DISCREPANCY_EXPIRY, R336. Inputs still different at the end of DISC_T latch the discrepancy fault. -/
  | stoDiscrepancyExpiry (husk : Bool)
  /-- SLS_LEVEL_EFFECTIVE, R339. T_SLS after selection a new SLS level comes into force. -/
  | slsLevelEffective (a : Fin 8)
  /-- CONTACTOR_WINDOW_EXPIRY, R344. Feedback not in the commanded state at the end of its window latches FAIL_CLOSE or WELDED. -/
  | contactorWindowExpiry (n : Fin 4) (husk : Bool)
  /-- CONTACTOR_FEEDBACK_CHANGE, R344. A feedback change with no window open is an UNSOLICITED fault. -/
  | contactorFeedbackChange (n : Fin 4) (closed : Bool) (t : Tick)
  /-- SAFE_TEST_PULSE, R347. Once every TP_PER each channel of an on pair is pulsed off for TP_W and its readback checked. -/
  | safeTestPulse (p : Fin 4) (chB : Bool) (offDuring onOutside : Bool)
  /-- HUSK_READBACK_TIMEOUT, R347. An applied pair channel read back on for more than 10 ms is a Husk output fault. -/
  | huskReadbackTimeout (p : Fin 4)
  /-- TELEGRAM_COPY, R349. A safety telegram copy is validated, accepted, compared or discarded. -/
  | telegramCopy (path : Fin 2) (o : Origin) (bytes : List Byte) (t : Tick)
  /-- TELEGRAM_PATH_LOSS, R350. A path with no valid copy for SINGLE_T is lost, setting DEGRADED. -/
  | telegramPathLoss (path : Fin 2)
  /-- HUSK_COUNTER_FAULT, R342. An illegal, too fast or above-H_VMAX count on a Husk counter removes torque and latches. -/
  | huskCounterFault (c : Fin 8) (overspeed : Bool)
  /-- SAFE_STAGE_WRITE, R352. A write to SAFE.STAGE between stage and confirm empties the stage. -/
  | safeStageWrite (w : Fin 138) (v : Word)
  /-- FIELD_INPUT_EDGE, R365. An accepted field input edge is timestamped and counted, possibly raising FIO_EDGE or FIO_CHATTER. -/
  | fieldInputEdge (n : Fin 32) (level : Bool) (t : Tick)
  /-- CHATTER_WINDOW_END, R366. A chatter window ends and the next one starts. -/
  | chatterWindowEnd (n : Fin 32)
  /-- OUTPUT_OVERCURRENT, R369. An output in current limit for 500 µs latches OVERCUR and switches off. -/
  | outputOvercurrent (n : Fin 32)
  /-- OUTPUT_THERMAL, R369. An output junction above 170 °C latches THERMAL and switches off. -/
  | outputThermal (n : Fin 32)
  /-- BANK_OVERCURRENT, R369. A bank above 2.5 A for 20 ms switches its outputs off and latches BANK_FLT. -/
  | bankOvercurrent (b : Fin 4) (mA : BitVec 16)
  /-- VFIELD_MEASUREMENT, R370. Every 100 µs VFIELD is measured and UV or OV entered or left. -/
  | vfieldMeasurement (v : BitVec 16) (banks : List (BitVec 16))
  /-- ETH_FRAME_RECEIVE, R380. A port accepts or filters a received frame and delivers ARP, ICMP, UDP or PTP. -/
  | ethFrameReceive (p : Fin 2) (bytes : List Byte) (room : Bool) (t : Tick)
  /-- ETH_LINK_CHANGE, R379. The RGMII in-band link state changes and raises ETH_LINK. -/
  | ethLinkChange (p : Fin 2) (up slow : Bool)
  /-- ETH_MDIO_ACCESS, R396. Writing GO to ETH.MDIO starts a Clause 22 access. -/
  | ethMdioAccess (p : Fin 2) (w : Word)
  /-- ETH_MDIO_DONE, R396. An MDIO access ends, clearing BUSY. -/
  | ethMdioDone (p : Fin 2) (data : BitVec 16)
  /-- PTP_OFFSET_SAMPLE, R391. Reed forms an offset from a Sync exchange and the servo steps or slews system time. -/
  | ptpOffsetSample (p : Fin 2) (parent : Tick) (o : PtpSync) (mpd : PtpDelay) (utc : Word) (t : Tick)
  /-- PTP_SEND_INTERVAL, R389. At each configured interval Reed sends Sync, Announce, Delay_Req or Pdelay_Req messages. -/
  | ptpSendInterval (p : Fin 2) (kind : Fin 5) (t : Tick)
  /-- TIME_CFG_WRITE, R391. A write of TIME.CFG takes effect at once and returns the servo to FREERUN or HOST. -/
  | timeCfgWrite (w : Word)
  /-- CAN_FRAME_RECEIVE, R407. A received CAN frame goes to the command channel, a filter or the receive ring. -/
  | canFrameReceive (n : Fin 4) (ide fdf brs esi rtr : Bool) (id : BitVec 29) (dlc : Fin 16) (data : List Byte) (t : Tick)
  /-- CAN_TX_DONE, R405. A transmit attempt ends with an outcome and may raise CAN_TX_DONE. -/
  | canTxDone (n : Fin 4) (res : Fin 3) (tdc : List Nat)
  /-- CAN_CTRL_WRITE, R401. A write of CAN.CTRL changes mode, including entry into SLEEP after the current frame. -/
  | canCtrlWrite (n : Fin 4) (w : Word)
  /-- CAN_RECOVER, R402. Writing RECOVER starts bus-off recovery. -/
  | canRecover (n : Fin 4)
  /-- CAN_DOMINANT_TIMEOUT, R403. DOM_TO bits of dominant level set RX_DOM or force its own TX recessive and bus-off. -/
  | canDominantTimeout (n : Fin 4) (own : Bool)
  /-- CAN_CYCLE_START, R411. A master starts a basic cycle and sends the reference message. -/
  | canCycleStart (n : Fin 4) (t : Tick)
  /-- CAN_REFERENCE_RECEIVE, R411. A slave starts a cycle at a received reference message and sets SYNC. -/
  | canReferenceReceive (n : Fin 4) (cnt : BitVec 8) (t : Tick)
  /-- CAN_REFERENCE_TIMEOUT, R411. No reference message within REF_TMO clears SYNC. -/
  | canReferenceTimeout (n : Fin 4)
  /-- CAN_WINDOW_START, R410. A schedule window opens and a due exclusive slot may begin. -/
  | canWindowStart (n : Fin 4) (w : Fin 32)
  /-- CAN_WINDOW_END, R410. A window ends and an unstarted exclusive slot counts as missed. -/
  | canWindowEnd (n : Fin 4) (w : Fin 32)
  /-- CAN_WAKE_DETECT, R412. The wake detector finds a dominant phase or selective frame and wakes the controller or module. -/
  | canWakeDetect (n : Fin 4) (sel : Bool) (dom : BitVec 16) (ide : Bool) (id : BitVec 29) (dlc : Fin 16) (data : List Byte)
  /-- SWARD_FRAME_RECEIVE, R422. A Sward frame header is verified and the frame is delivered, forwarded or dropped. -/
  | swardFrameReceive (p : Fin 4) (ws : List Word) (abort : Bool) (t : Tick)
  /-- SWARD_TRANSMIT, R424. A free output sends the first qualifying frame by class, bucket and credits. -/
  | swardTransmit (p : Fin 4) (t : Tick)
  /-- CRED_RECEIVE, R426. A CRED set returns credits for class 2 or 3. -/
  | credReceive (p : Fin 4) (bulk : Bool) (k : BitVec 8)
  /-- CRED_SEND, R417. A CRED set is sent once 8 credits are owed or 1 µs after the first. -/
  | credSend (p : Fin 4) (t : Tick)
  /-- HELLO_RECEIVE, R418. A HELLO exchange takes a TRAINING port UP and sets credits and neighbour data. -/
  | helloReceive (p : Fin 4) (addr : BitVec 18) (nport : Fin 4) (hops : Fin 16) (c2 c3 : BitVec 16)
  /-- SWARD_TRAINING_DONE, R418. 128 consecutive good IDLE sets complete training and HELLO is sent. -/
  | swardTrainingDone (p : Fin 4)
  /-- LEAVE_RECEIVE, R433. A received LEAVE stops sending on that link at once. -/
  | leaveReceive (p : Fin 4)
  /-- SWARD_LOSS_OF_SIGNAL, R418. Loss of signal takes a port DOWN and drops its queued frames. -/
  | swardLossOfSignal (p : Fin 4)
  /-- SWARD_SYMBOL_ERROR_LIMIT, R418. More than 32 code errors in one epoch take a port DOWN. -/
  | swardSymbolErrorLimit (p : Fin 4) (n : BitVec 16)
  /-- DREQ_SEND, R419. Every 10 ms an UP port sends a DREQ. -/
  | dreqSend (p : Fin 4) (t : Tick)
  /-- DREQ_RECEIVE, R419. A received DREQ is answered with a DRSP carrying the turnaround. -/
  | dreqReceive (p : Fin 4) (tag : BitVec 8) (arr t : Tick)
  /-- DRSP_RECEIVE, R419. A matching DRSP yields a link delay sample for SWARD.DELAY. -/
  | drspReceive (p : Fin 4) (tag : BitVec 8) (turn : BitVec 16) (t : Tick)
  /-- EPOCH_MARK_RECEIVE, R434. An EPOCH set on the upstream port steps or slews fabric time and updates FT_LOCK. -/
  | epochMarkReceive (p : Fin 4) (e late : BitVec 16) (t : Tick)
  /-- SWARD_EPOCH_BOUNDARY, R432. At each whole millisecond of fabric time staged routes and reservations apply and EPOCH sets are sent. -/
  | swardEpochBoundary (t : Tick)
  /-- SWARD_WAIT_DROP, R427. A class 0 or 1 frame waiting 250 µs at a node is dropped. -/
  | swardWaitDrop (p : Fin 4)
  /-- E2E_RETRANSMIT_TIMEOUT, R428. No acknowledgement for 2 ms resends from the oldest unacknowledged frame, failing after 8. -/
  | e2eRetransmitTimeout (peer : BitVec 18) (bulk : Bool)
  /-- E2E_ACK_SEND, R428. A standalone LINK ACK is sent within 100 µs when no reverse frame carries it. -/
  | e2eAckSend (peer : BitVec 18) (bulk : Bool)
  /-- STREAM_FORGET, R428. A stream without traffic for 1 s is forgotten. -/
  | streamForget (peer : BitVec 18) (bulk rx : Bool)
  /-- EVENT_FRAME_RECEIVE, R435. A received EVENT frame gives latch units with SRCK 3 a converted latch instant. -/
  | eventFrameReceive (ev : Fin 256) (ft : Tick)
  /-- SWARD_NODE_WRITE, R429. A write of SWARD.NODE sets the node address or ROOT. -/
  | swardNodeWrite (w : Word)
  /-- SWARD_RES_WRITE, R425. A write of a port reservation is checked against 270,000 bytes and staged for the epoch. -/
  | swardResWrite (p : Fin 4) (c : Fin 3) (w : Word)
  /-- SWARD_HRXTAIL_WRITE, R437. A write of SWARD.HRXTAIL frees host receive buffer space. -/
  | swardHrxtailWrite (w : Word)
  /-- SHEAF_BEACON_RECEIVE, R440. A received beacon gives the master's periods and zeros and any takeover. -/
  | sheafBeaconReceive (src : BitVec 18) (took : Bool) (members : BitVec 16) (answer : Option Bool) (grps : List (Fin 8 × Word × Tick))
  /-- SHEAF_STATUS_RECEIVE, R439. The master receives a status or join frame from a member. -/
  | sheafStatusReceive (slot : Fin 16) (join standby leave : Bool) (links : List (BitVec 16))
  /-- SHEAF_DEPARTURE_TIMEOUT, R442. No status or beacon for 1 ms makes a module's departure a loss. -/
  | sheafDepartureTimeout (slot : Fin 16)
  /-- LINK_DATA_RECEIVE, R441. A LINK_DATA frame delivers a remote producer's output to consumers. -/
  | linkDataReceive (v : BitVec 16) (ft : Tick) (per : Word) (out : List Word) (t : Tick)
  /-- MIRROR_RECEIVE, R443. The standby receives a mirror frame to overwrite its state at the next boundary. -/
  | mirrorReceive (p : Fin 2) (g : Fin 8) (seq : Word) (state : Fin 3) (ctxs : List (Fin 256 × List Word)) (nibs : List (Fin 72 × Word × Word × Word)) (t : Tick)
  /-- TAKEOVER_CHECK, R446. At T(j) + 1 µs the standby takes over when the mirror is absent and PEER_LEAD_N is high. -/
  | takeoverCheck (peerHigh : Bool)
  /-- HOLDOFF_WINDOW_END, R456. A hold-off window ends, writing the last held occurrence as a COALESCED record. -/
  | holdoffWindowEnd (e : Fin 256)
  /-- EVT_STAT_CLEAR, R457. A W1C write of EVT.STAT clears status bits and releases pins no longer pending. -/
  | evtStatClear (k : Fin 8) (w : Word)
  /-- EVT_TEST, R458. Writing GO to EVT.TEST raises the named event as a test occurrence. -/
  | evtTest (w : Word)
  /-- SUPPLY_MEASUREMENT, R452. Every 1 ms the logic rails are measured and a crossing raises SUPPLY_WARN. -/
  | supplyMeasurement (mv : List (BitVec 16))
  /-- CASE_TEMP_MEASUREMENT, R452. Every 100 ms the case temperature is measured and a crossing raises CASE_TEMP. -/
  | caseTempMeasurement (c : BitVec 16)
  /-- REGISTER_WRITE, R11. A write to a register with no row of its own updates its RW, RS or W1C fields under the access codes. -/
  | registerWrite (a : BitVec 24) (w : Word)
  /-- RESET_ASSERT, R113. PGOOD or RESET_N going low asserts reset: outputs go high-impedance, heartbeats and cross-check frames stop, and a keep write in progress ends under R130. -/
  | resetAssert (power : Bool) (lost : List (Fin 1024))
  /-- SINC3_OUTPUT, R151. Every S3_OSR bits a channel's sinc3 filter yields an output, setting SETTLED after 3 × S bits, feeding FILT captures and Inkwell value triggers. -/
  | sinc3Output (c : Fin 128) (bits : List Bool) (e : Tick)
  /-- CAN_TX_START, R405. When the bus becomes idle a pending slot begins its start of frame and enters the attempt-started state. -/
  | canTxStart (n : Fin 4) (t : Tick)
  /-- CAN_BUSOFF_RECOVERY_DONE, R402. The bus-off recovery sequence completes and the controller returns to error-active and rejoins the bus. -/
  | canBusoffRecoveryDone (n : Fin 4)
  /-- CAN_BUS_ERROR, R402. A bus error detected while receiving increments REC and may change the error state, raising CAN_ERRSTATE. -/
  | canBusError (n : Fin 4) (heavy : Bool)
  /-- CRYSTAL_WAIT_EXPIRY, R59. The 20 ms start-up wait for the crystal ends and REF_IN or the RC oscillator is selected. -/
  | crystalWaitExpiry
  /-- FIRMWARE_BANK_LOADED, R134. The chosen firmware bank has been read and verified, or the other bank is used, and Reed starts. -/
  | firmwareBankLoaded
  /-- CONFIG_BLOCKS_APPLY, R123. Reed chooses a configuration source, passes block 15 to Scribe and applies blocks 0 to 14 in order, defaulting failed blocks. -/
  | configBlocksApply
  /-- MAP_CAM_RESTORE, R124. The map and cam stores are restored from their backups, invalid ones being loaded empty and reported. -/
  | mapCamRestore
  /-- MUX_FORCED_SWITCH, R64. With no falling edge of the old clock within 16 cycles of the new one, the multiplexer switches by force and sets FORCED. -/
  | muxForcedSwitch
  /-- DELAY_LINE_CALIBRATED, R61. The first delay-line calibration after lock completes, the timebase becomes valid and TIMEBASE is raised. -/
  | delayLineCalibrated
  /-- DELAY_LINE_SWAP, R61. Every 1 ms the two interpolation lines swap at a 2 ns cycle free of edges. -/
  | delayLineSwap
  /-- SHED_LEVEL_RISE, R46. After two consecutive slow measurements, and after each further slow 1 ms, the shedding level rises by one. -/
  | shedLevelRise
  /-- SHED_LEVEL_FALL, R46. After each 100 ms in which every measurement is 3 % faster than the floor, the shedding level falls by one. -/
  | shedLevelFall
  /-- LOOP_CLR_LATE, R54. Writing 1 to LOOP.CTRL.CLR_LATE clears every LATE counter. -/
  | loopClrLate
  /-- LOOP_CLR_WORST, R54. Writing 1 to LOOP.CTRL.CLR_WORST sets WORST_PS to 0. -/
  | loopClrWorst
  /-- PASS_START, R42. A free Quill takes the first ready pass in deadline order and reads its context and linked inputs. -/
  | passStart
  /-- REQUEST_DISPATCH, R83. The dispatcher takes a request from a command ring with reply space and hands it to the register engine or Reed. -/
  | requestDispatch
  /-- INK_INTERFACE_FAILURE, R322. A failed DRAM interface calibration or PLL lock loss puts sessions in FAULT. -/
  | inkInterfaceFailure
  /-- NIBLOG_TOKEN_REFILL, R304. Every 10 µs one token is added to each nib log bucket, up to four. -/
  | niblogTokenRefill
  /-- TIME_SLEW_DONE, R388. A slewed offset has been absorbed and RATE returns to its previous value. -/
  | timeSlewDone
  /-- KEEP_HOURLY_COUNT, R132. Each full hour after reset keep word 962 POWERED_HOURS is written. -/
  | keepHourlyCount
  /-- KEEP_COUNTER_FLUSH, R132. At most once per 15 min keep words 966 and 967 are written. -/
  | keepCounterFlush
  /-- FW_STAGE_VERIFIED, R135. Verification of the staged bank ends, setting STAGED on success, and raises event 22. -/
  | fwStageVerified
  /-- FW_STAGE_TIMEOUT, R135. A stage receiving no DATA or END for 60 s is abandoned with event 22 detail 5. -/
  | fwStageTimeout
  /-- REED_RESUME, R136. Within 40 µs of the swap boundary Reed resumes under the new firmware with TRIAL set. -/
  | reedResume
  /-- FW_SWITCH_ABANDON, R136. With no target boundary within 40 ms the switch is abandoned with event 24 detail 4. -/
  | fwSwitchAbandon
  /-- TRIAL_EXPIRY, R137. Expiry of the trial time returns to the old image at the next boundary. -/
  | trialExpiry
  /-- MODULE_RESET_DELAY, R118. 1 ms after the reply to a whole-module RESET_BLOCK a full reset follows with cause COMMAND. -/
  | moduleResetDelay
  /-- SYNC_IN_LOSS, R192. No SYNC_IN edge for 4 expected zeros clears LOCK. -/
  | syncInLoss
  /-- SS1_BACKSTOP_EXPIRY, R339. Husk's SS1 backstop expiring without a Scribe STO decision removes torque and latches. -/
  | ss1BackstopExpiry
  /-- BRK_T_EXPIRY, R339. BRK_T after brake application at the end of SS1 Scribe decides STO. -/
  | brkTExpiry
  /-- GEN_SETTLE_EXPIRY, R331. GEN_SETTLE after GEN_A and GEN_B go high Husk drives the buffer enable high. -/
  | genSettleExpiry
  /-- TELEGRAM_WATCHDOG_EXPIRY, R350. No request accepted within TWDG expires the watchdog, reacting with TEL_REACT and latching. -/
  | telegramWatchdogExpiry
  /-- SINGLE_CHANNEL_TIMEOUT, R354. No frame 25 ms after a SINGLE announcement latches the single-channel timeout. -/
  | singleChannelTimeout
  /-- HUSK_SELF_TEST_FAILURE, R343. A failure of Husk's continuous self-test takes Husk to DEAD. -/
  | huskSelfTestFailure
  /-- VHUSK_POWER_UP, R343. VHUSK powers up and Husk enters INIT with enables low. -/
  | vhuskPowerUp
  /-- VHUSK_LOSS, R481. VHUSK below Husk's threshold unpowers Husk and holds the gate buffer enable low. -/
  | vhuskLoss
  /-- LOGIC_HEARTBEAT_SEND, R362. Every 100 µs the logic side sends a heartbeat to the field die. -/
  | logicHeartbeatSend
  /-- FIELD_HEARTBEAT_RECEIVE, R362. The field die receives a heartbeat, answers it and on a new-session mark resets its channels. -/
  | fieldHeartbeatReceive
  /-- LOGIC_HEARTBEAT_RECEIVE, R363. The logic side receives a field heartbeat, restoring LINK after 4. -/
  | logicHeartbeatReceive
  /-- FIELD_LINK_TIMEOUT, R363. No field heartbeat for 1 ms clears LINK and raises FIO_LINK. -/
  | fieldLinkTimeout
  /-- FIELD_SILENCE_EXPIRY, R373. No logic heartbeat within SILENCE sets every output to its SAFEVAL. -/
  | fieldSilenceExpiry
  /-- PTP_HOLDOVER_TIMEOUT, R391. No sample for 4 sync intervals or an announce timeout takes the servo to HOLDOVER. -/
  | ptpHoldoverTimeout
  /-- TIMEBASE_DISCIPLINE, R392. Once per second the timebase PLL ratio moves towards −integ by at most 0.1 ppm. -/
  | timebaseDiscipline
  /-- TIME_SNAP, R387. Writing SNAP to TIME.CTRL captures DT and ST of one instant. -/
  | timeSnap
  /-- SHEAF_EPOCH, R439. At every sixteenth Sward epoch joins and planned departures take effect. -/
  | sheafEpoch
  /-- SHEAF_BEACON_SEND, R439. Every 250 µs a master sends a beacon and others send a status frame. -/
  | sheafBeaconSend
  /-- EVENT_ARBITRATION, R455. An occurrence enters the event arbiter, sets its status bit, writes records and updates IRQ pins. -/
  | eventArbitration
  /-- REED_RESTART_COMPLETE, R118. Reed finishes its restart within 10 ms and serves again: event 22 detail 6 is raised for an abandoned stage, and a trial falls back at the next boundary. -/
  | reedRestartComplete
deriving DecidableEq, Repr

end Sys2Proof
end

