-- ==== Sys2Proof/Decode.lean ====
section
/-! DEFINITION. The words a command is spelled by. The block is commanded from outside: spec/opcode_table.json gives its rows
no bits, so no word spells a command by itself. A request's words are read by the dispatcher (Machine/Command.lean, R73 to R81). -/

namespace Sys2Proof

/-- The command a word spells by the bits of the table: none, because no row has any. -/
def decodeTableWord (_nbits _w : Nat) : Option Instr := none

end Sys2Proof
end

