-- ==== Sys2Proof/Machine/Bits.lean ====
section
/-! DEFINITION. Bit fields of registers, sign extension, saturating counts and byte order (R6, R9, R10). -/

namespace Sys2Proof.Machine

/-- A register field: the register's byte address, its lowest bit and its width (R6). -/
structure RF where
  addr : Nat
  lo : Nat
  w : Nat
deriving DecidableEq, Repr

/-- The word with ones in its `n` lowest bits. -/
def lowMask (n : Nat) : Word := BitVec.ofNat 32 (2 ^ n - 1)

/-- Bits `lo` to `lo + n - 1` of a word, as a number. -/
def bitsOf (x : Word) (lo n : Nat) : Nat := ((x >>> lo) &&& lowMask n).toNat

/-- One bit of a word. -/
def bitOf (x : Word) (i : Nat) : Bool := x.getLsbD i

/-- A word with bits `lo` to `lo + n - 1` replaced by the low `n` bits of `v`. -/
def withBits (x : Word) (lo n v : Nat) : Word :=
  (x &&& ~~~(lowMask n <<< lo)) ||| ((BitVec.ofNat 32 v &&& lowMask n) <<< lo)

/-- Merge: the bits of `new` where `mask` has ones, those of `old` elsewhere. -/
def mergeBits (old new mask : Word) : Word := (old &&& ~~~mask) ||| (new &&& mask)

/-- A word from a number (reduced modulo 2^32). -/
def wd (n : Nat) : Word := BitVec.ofNat 32 n

/-- A word from an integer in two's complement. -/
def wdInt (i : Int) : Word := BitVec.ofInt 32 i

/-- A tick count from a number. -/
def tk (n : Nat) : Tick := BitVec.ofNat 64 n

/-- The low word of a 64-bit quantity (R9). -/
def lo32 (t : Tick) : Word := t.setWidth 32

/-- The high word of a 64-bit quantity (R9). -/
def hi32 (t : Tick) : Word := (t >>> 32).setWidth 32

/-- A 64-bit quantity from its two words, low word first (R9). -/
def join64 (lo hi : Word) : Tick := (hi.setWidth 64 <<< 32) ||| lo.setWidth 64

/-- A number of `n` bits read as two's complement. -/
def sext (n v : Nat) : Int := if v % 2 ^ n < 2 ^ (n - 1) then ((v % 2 ^ n : Nat) : Int) else ((v % 2 ^ n : Nat) : Int) - (2 ^ n : Nat)

/-- Saturating increment of an `n`-bit counter. -/
def satInc (n v : Nat) : Nat := if v + 1 < 2 ^ n then v + 1 else 2 ^ n - 1

/-- Saturating addition to an `n`-bit counter. -/
def satAdd (n v k : Nat) : Nat := if v + k < 2 ^ n then v + k else 2 ^ n - 1

/-- A number limited to the range `lo` to `hi`. -/
def clampI (lo hi x : Int) : Int := max lo (min hi x)

/-- A flag as a bit. -/
def b2n (b : Bool) : Nat := if b then 1 else 0

/-- The bytes of words in little-endian memory order (R9, R75). -/
def wordBytes : List Word → List Byte
  | [] => []
  | x :: xs => x.setWidth 8 :: (x >>> 8).setWidth 8 :: (x >>> 16).setWidth 8 :: (x >>> 24).setWidth 8 :: wordBytes xs

/-- The whole words of a byte string, little-endian; bytes after the last whole word are left out (R75). -/
def bytesWords : List Byte → List Word
  | a :: b :: c :: d :: rest =>
    (a.setWidth 32 ||| (b.setWidth 32 <<< 8) ||| (c.setWidth 32 <<< 16) ||| (d.setWidth 32 <<< 24)) :: bytesWords rest
  | _ => []

/-- The element of a list at an index, with a default beyond its end. -/
def nth {α : Type} (l : List α) (i : Nat) (d : α) : α := l.getD i d

/-- A list with the element at an index replaced (unchanged beyond its end). -/
def setAt {α : Type} (l : List α) (i : Nat) (x : α) : List α := l.set i x

/-- The first whole number `k` below `n` with `p k`. -/
def findNat (n : Nat) (p : Nat → Bool) : Option Nat := (List.range n).find? p

/-- Every whole number below `n` has `p`. -/
def allNat (n : Nat) (p : Nat → Bool) : Bool := (List.range n).all p

/-- How many whole numbers below `n` have `p`. -/
def countNat (n : Nat) (p : Nat → Bool) : Nat := ((List.range n).filter p).length

end Sys2Proof.Machine
end

