-- ==== Sys2Proof/Machine/Crc.lean ====
section
/-! DEFINITION. The check words of the block: CRC-32C of packets (R75) and the shorter CRCs other chapters name. -/

namespace Sys2Proof.Machine

/-- One bit of a reflected 32-bit CRC. -/
def crcBit (poly c : Word) : Word := if c.getLsbD 0 then (c >>> 1) ^^^ poly else c >>> 1

/-- One byte of a reflected 32-bit CRC. -/
def crcByte (poly c : Word) (b : Byte) : Word :=
  let c0 := c ^^^ b.setWidth 32
  crcBit poly (crcBit poly (crcBit poly (crcBit poly (crcBit poly (crcBit poly (crcBit poly (crcBit poly c0)))))))

/-- CRC-32C of bytes (R75): reflected polynomial 0x82F6_3B78, initial value and final XOR all ones. -/
def crc32cBytes (bs : List Byte) : Word := (bs.foldl (crcByte 0x82F63B78#32) 0xFFFFFFFF#32) ^^^ 0xFFFFFFFF#32

/-- CRC-32C over the bytes of words, least significant byte first (R75). -/
def crc32c (ws : List Word) : Word := crc32cBytes (wordBytes ws)

end Sys2Proof.Machine
end

