-- ==== Sys2Proof/Machine/Float.lean ====
section
/-! DEFINITION. IEEE 754 binary32 values and 32.32 positions as exact rationals (R10). -/

namespace Sys2Proof.Machine

/-- A binary32 word is a NaN or an infinity (refused as a parameter, R10). -/
def f32Special (x : Word) : Bool := bitsOf x 23 8 == 255

/-- A binary32 word is a NaN. -/
def f32IsNaN (x : Word) : Bool := bitsOf x 23 8 == 255 && bitsOf x 0 23 != 0

/-- The quiet NaN of `SENSE.MEAN_A` and the other value registers (reset value 0x7FC0_0000). -/
def f32NaN : Word := 0x7FC00000#32

/-- Two to an integer power. -/
def pow2 (e : Int) : Rat := if e < 0 then 1 / ((2 ^ e.natAbs : Nat) : Rat) else ((2 ^ e.natAbs : Nat) : Rat)

/-- The value of a finite binary32 word; a subnormal counts as zero (R10), a NaN or infinity as zero. -/
def ratOf (x : Word) : Rat :=
  let e := bitsOf x 23 8
  if e = 0 ∨ e = 255 then 0
  else
    let m : Rat := ((2 ^ 23 + bitsOf x 0 23 : Nat) : Rat) * pow2 ((e : Int) - 150)
    if bitOf x 31 then -m else m

/-- A parameter as the device keeps it: a subnormal becomes zero of the same sign (R10). -/
def f32Flush (x : Word) : Word := if bitsOf x 23 8 = 0 then x &&& 0x80000000#32 else x

/-- The whole number nearest to a non-negative rational, ties to even. -/
def roundEven (q : Rat) : Nat :=
  let f := q.floor.toNat
  let r := q - (f : Rat)
  if r < 1 / 2 then f else if r > 1 / 2 then f + 1 else if f % 2 = 0 then f else f + 1

/-- The whole number nearest to a rational, ties to even. -/
def roundI (q : Rat) : Int := if q < 0 then -((roundEven (-q) : Nat) : Int) else (roundEven q : Nat)

/-- The exponent `e` with `2^e ≤ q < 2^(e+1)` of a positive rational. -/
def expOf (q : Rat) : Int :=
  let g : Int := (Nat.log2 q.num.natAbs : Int) - (Nat.log2 q.den : Int)
  if pow2 g ≤ q then g else g - 1

/-- A rational rounded once to the nearest binary32, ties to even; beyond the range it is an infinity. -/
def f32 (q : Rat) : Word :=
  if q = 0 then 0#32
  else
    let s : Nat := if q < 0 then 2 ^ 31 else 0
    let a : Rat := if q < 0 then -q else q
    let e := max (expOf a) (-126)
    let m := roundEven (a * pow2 (23 - e))
    let (m, e) := if m = 2 ^ 24 then (2 ^ 23, e + 1) else (m, e)
    if e > 127 then BitVec.ofNat 32 (s + 255 * 2 ^ 23)
    else if m < 2 ^ 23 then BitVec.ofNat 32 (s + m)
    else BitVec.ofNat 32 (s + (e + 127).toNat * 2 ^ 23 + (m - 2 ^ 23))

/-- The sign of a rational as -1, 0 or 1. -/
def sgnR (q : Rat) : Rat := if q < 0 then -1 else if q = 0 then 0 else 1

/-- A rational limited to a range. -/
def clampR (lo hi x : Rat) : Rat := if x < lo then lo else if hi < x then hi else x

/-- The absolute value of a rational. -/
def absR (q : Rat) : Rat := if q < 0 then -q else q

/-- The rational of a 32.32 two's complement position (R10). -/
def posRat (t : Tick) : Rat := (t.toInt : Rat) / ((2 ^ 32 : Nat) : Rat)

/-- A rational as a 32.32 position, rounded down to the grid. -/
def ratPos (q : Rat) : Tick := BitVec.ofInt 64 (q * ((2 ^ 32 : Nat) : Rat)).floor

/-- A rational rounded once, to nearest, into the 32 fraction bits of a position (R228, R240, R253). -/
def posOf (q : Rat) : Tick := BitVec.ofInt 64 (roundI (q * ((2 ^ 32 : Nat) : Rat)))

/-- Truncation towards zero. -/
def truncR (q : Rat) : Int := if q < 0 then -((-q).floor) else q.floor

/-- Edge ticks in a microsecond: 62.5 ps each (R1). -/
def usTicks : Nat := 16000

/-- Edge ticks in a millisecond. -/
def msTicks : Nat := 16000000

/-- The seconds of a number of edge ticks. -/
def ticksSec (n : Nat) : Rat := (n : Rat) / 16000000000

end Sys2Proof.Machine
end

