-- ==== Sys2Proof/Machine/RegMap.lean ====
section
/-! DEFINITION. The register map: one address function per register of spec/ and one field descriptor per
bit field, named as the spec names them (block and register in lower camel case, then the field).
Each definition is read from the register tables of the section file its docstring names. -/

namespace Sys2Proof.Machine

namespace R

/-- `LOOP.ENV`, 02_selftimed_core.md. -/
def loopEnv : Nat := 0x0C0000
def loopEnv_VCORE_MIN : RF := ⟨loopEnv, 16, 12⟩
def loopEnv_TJ_MAX : RF := ⟨loopEnv, 0, 8⟩
/-- `LOOP.FLOOR`, 02_selftimed_core.md. -/
def loopFloor : Nat := 0x0C0004
def loopFloor_FLOOR_PS : RF := ⟨loopFloor, 0, 16⟩
/-- `LOOP.CAP`, 02_selftimed_core.md. -/
def loopCap : Nat := 0x0C0008
def loopCap_CAP : RF := ⟨loopCap, 16, 16⟩
def loopCap_LIMIT : RF := ⟨loopCap, 0, 16⟩
/-- `LOOP.LOAD`, 02_selftimed_core.md. -/
def loopLoad : Nat := 0x0C000C
def loopLoad_LOAD : RF := ⟨loopLoad, 0, 24⟩
/-- `LOOP.PACE`, 02_selftimed_core.md. -/
def loopPace : Nat := 0x0C0010
def loopPace_WORST_PS : RF := ⟨loopPace, 16, 16⟩
def loopPace_LIVE_PS : RF := ⟨loopPace, 0, 16⟩
/-- `LOOP.SHED`, 02_selftimed_core.md. -/
def loopShed : Nat := 0x0C0014
def loopShed_RISES : RF := ⟨loopShed, 16, 16⟩
def loopShed_LEVEL : RF := ⟨loopShed, 0, 3⟩
/-- `LOOP.CTRL`, 02_selftimed_core.md. -/
def loopCtrl : Nat := 0x0C0018
def loopCtrl_CLR_LATE : RF := ⟨loopCtrl, 1, 1⟩
def loopCtrl_CLR_WORST : RF := ⟨loopCtrl, 0, 1⟩
/-- `LOOP.STAT`, 02_selftimed_core.md. -/
def loopStat : Nat := 0x0C001C
def loopStat_ADMIT_BUSY : RF := ⟨loopStat, 2, 1⟩
def loopStat_NOCLOCK_TIMING : RF := ⟨loopStat, 1, 1⟩
def loopStat_PACE_SLOW : RF := ⟨loopStat, 0, 1⟩
/-- `LOOP.WINDOW`, 02_selftimed_core.md. -/
def loopWindow (n : Nat) : Nat := 0x0C0020 + 0x4 * n
def loopWindow_PCT (n : Nat) : RF := ⟨loopWindow n, 0, 7⟩
/-- `LOOP.LATE`, 02_selftimed_core.md. -/
def loopLate (n : Nat) : Nat := 0x0C0040 + 0x4 * n
def loopLate_COUNT (n : Nat) : RF := ⟨loopLate n, 0, 32⟩
/-- `LOOP.USE`, 02_selftimed_core.md. -/
def loopUse (n : Nat) : Nat := 0x0C0060 + 0x4 * n
def loopUse_USE (n : Nat) : RF := ⟨loopUse n, 0, 16⟩
/-- `LOOP.DIR`, 02_selftimed_core.md. -/
def loopDir (n : Nat) : Nat := 0x0C0400 + 0x4 * n
def loopDir_KIND (n : Nat) : RF := ⟨loopDir n, 28, 4⟩
def loopDir_GROUP (n : Nat) : RF := ⟨loopDir n, 25, 3⟩
def loopDir_DIV_LOG2 (n : Nat) : RF := ⟨loopDir n, 22, 3⟩
def loopDir_PHASE (n : Nat) : RF := ⟨loopDir n, 16, 6⟩
def loopDir_ADMITTED (n : Nat) : RF := ⟨loopDir n, 15, 1⟩
def loopDir_COST (n : Nat) : RF := ⟨loopDir n, 0, 15⟩
/-- `CLK.CTRL`, 03_clocks_timebase.md. -/
def clkCtrl : Nat := 0x010000
def clkCtrl_REVERT : RF := ⟨clkCtrl, 3, 1⟩
def clkCtrl_RC_EN : RF := ⟨clkCtrl, 2, 1⟩
def clkCtrl_REF_EN : RF := ⟨clkCtrl, 1, 1⟩
def clkCtrl_XTAL_EN : RF := ⟨clkCtrl, 0, 1⟩
/-- `CLK.SEL`, 03_clocks_timebase.md. -/
def clkSel : Nat := 0x010004
def clkSel_SRC : RF := ⟨clkSel, 0, 2⟩
/-- `CLK.STAT`, 03_clocks_timebase.md. -/
def clkStat : Nat := 0x010008
def clkStat_FORCED : RF := ⟨clkStat, 15, 1⟩
def clkStat_DT_GAP : RF := ⟨clkStat, 14, 1⟩
def clkStat_NOFALLBACK : RF := ⟨clkStat, 13, 1⟩
def clkStat_COAST : RF := ⟨clkStat, 12, 1⟩
def clkStat_TB_VALID : RF := ⟨clkStat, 11, 1⟩
def clkStat_DL_CAL : RF := ⟨clkStat, 10, 1⟩
def clkStat_SPLL_LOCK : RF := ⟨clkStat, 9, 1⟩
def clkStat_EPLL_LOCK : RF := ⟨clkStat, 8, 1⟩
def clkStat_IPLL_LOCK : RF := ⟨clkStat, 7, 1⟩
def clkStat_TPLL_LOCK : RF := ⟨clkStat, 6, 1⟩
def clkStat_RC_TRIM_LOCK : RF := ⟨clkStat, 5, 1⟩
def clkStat_QUAL_RC : RF := ⟨clkStat, 4, 1⟩
def clkStat_QUAL_REF : RF := ⟨clkStat, 3, 1⟩
def clkStat_QUAL_XTAL : RF := ⟨clkStat, 2, 1⟩
def clkStat_ACTIVE : RF := ⟨clkStat, 0, 2⟩
/-- `CLK.FAILS`, 03_clocks_timebase.md. -/
def clkFails : Nat := 0x01000C
def clkFails_TB_LOSSES : RF := ⟨clkFails, 24, 8⟩
def clkFails_RC_FAILS : RF := ⟨clkFails, 16, 8⟩
def clkFails_REF_FAILS : RF := ⟨clkFails, 8, 8⟩
def clkFails_XTAL_FAILS : RF := ⟨clkFails, 0, 8⟩
/-- `CLK.RCTRIM`, 03_clocks_timebase.md. -/
def clkRctrim : Nat := 0x010010
def clkRctrim_REF : RF := ⟨clkRctrim, 30, 2⟩
def clkRctrim_TRIM : RF := ⟨clkRctrim, 0, 14⟩
/-- `CLK.RCERR`, 03_clocks_timebase.md. -/
def clkRcerr : Nat := 0x010014
def clkRcerr_ERR : RF := ⟨clkRcerr, 0, 16⟩
/-- `CLK.GATE`, 03_clocks_timebase.md. -/
def clkGate : Nat := 0x010018
def clkGate_SW : RF := ⟨clkGate, 21, 4⟩
def clkGate_SPLL : RF := ⟨clkGate, 20, 1⟩
def clkGate_ETH : RF := ⟨clkGate, 17, 2⟩
def clkGate_EPLL : RF := ⟨clkGate, 16, 1⟩
def clkGate_INKM : RF := ⟨clkGate, 15, 1⟩
def clkGate_PSPI : RF := ⟨clkGate, 13, 2⟩
def clkGate_CAN : RF := ⟨clkGate, 9, 4⟩
def clkGate_IPLL : RF := ⟨clkGate, 8, 1⟩
def clkGate_TIMEU : RF := ⟨clkGate, 5, 1⟩
def clkGate_FDBK : RF := ⟨clkGate, 4, 1⟩
def clkGate_SENSE : RF := ⟨clkGate, 3, 1⟩
def clkGate_NIB_HI : RF := ⟨clkGate, 2, 1⟩
def clkGate_NIB_LO : RF := ⟨clkGate, 1, 1⟩
def clkGate_TB : RF := ⟨clkGate, 0, 1⟩
/-- `CLK.DT`, 03_clocks_timebase.md. -/
def clkDtLo : Nat := 0x010020
def clkDtLo_VALUE : RF := ⟨clkDtLo, 0, 32⟩
/-- `CLK.DT`, 03_clocks_timebase.md. -/
def clkDtHi : Nat := 0x010024
def clkDtHi_VALUE : RF := ⟨clkDtHi, 0, 32⟩
/-- `RING.LOC`, 04_command_interface.md. -/
def ringLoc (n : Nat) : Nat := 0x300000 + 0x20 * n
def ringLoc_SIZE (n : Nat) : RF := ⟨ringLoc n, 16, 12⟩
def ringLoc_BASE (n : Nat) : RF := ⟨ringLoc n, 0, 12⟩
/-- `RING.CTRL`, 04_command_interface.md. -/
def ringCtrl (n : Nat) : Nat := 0x300004 + 0x20 * n
def ringCtrl_EN (n : Nat) : RF := ⟨ringCtrl n, 31, 1⟩
def ringCtrl_OVF_POL (n : Nat) : RF := ⟨ringCtrl n, 29, 2⟩
def ringCtrl_ESIZE (n : Nat) : RF := ⟨ringCtrl n, 16, 8⟩
def ringCtrl_THRESH (n : Nat) : RF := ⟨ringCtrl n, 0, 16⟩
/-- `RING.HEAD`, 04_command_interface.md. -/
def ringHead (n : Nat) : Nat := 0x300008 + 0x20 * n
def ringHead_HEAD (n : Nat) : RF := ⟨ringHead n, 0, 16⟩
/-- `RING.TAIL`, 04_command_interface.md. -/
def ringTail (n : Nat) : Nat := 0x30000C + 0x20 * n
def ringTail_TAIL (n : Nat) : RF := ⟨ringTail n, 0, 16⟩
/-- `RING.FILL`, 04_command_interface.md. -/
def ringFill (n : Nat) : Nat := 0x300010 + 0x20 * n
def ringFill_ENTRIES (n : Nat) : RF := ⟨ringFill n, 16, 16⟩
def ringFill_WORDS (n : Nat) : RF := ⟨ringFill n, 0, 16⟩
/-- `RING.DROPS`, 04_command_interface.md. -/
def ringDrops (n : Nat) : Nat := 0x300014 + 0x20 * n
def ringDrops_DROPS (n : Nat) : RF := ⟨ringDrops n, 0, 32⟩
/-- `RING.STAT`, 04_command_interface.md. -/
def ringStat (n : Nat) : Nat := 0x300018 + 0x20 * n
def ringStat_OVF (n : Nat) : RF := ⟨ringStat n, 2, 1⟩
def ringStat_ABOVE (n : Nat) : RF := ⟨ringStat n, 1, 1⟩
def ringStat_EMPTY (n : Nat) : RF := ⟨ringStat n, 0, 1⟩
/-- `RING.PORT`, 04_command_interface.md. -/
def ringPort (n : Nat) : Nat := 0x300800 + 0x4 * n
def ringPort_REPEATS (n : Nat) : RF := ⟨ringPort n, 16, 16⟩
def ringPort_BAD_LEN (n : Nat) : RF := ⟨ringPort n, 8, 8⟩
def ringPort_BAD_CRC (n : Nat) : RF := ⟨ringPort n, 0, 8⟩
/-- `SPI.HCFG`, 04_command_interface.md. -/
def spiHcfg : Nat := 0x1E0000
def spiHcfg_MODE : RF := ⟨spiHcfg, 0, 2⟩
/-- `SPI.HSTAT`, 04_command_interface.md. -/
def spiHstat : Nat := 0x1E0004
def spiHstat_HRDY : RF := ⟨spiHstat, 3, 1⟩
def spiHstat_OVERRUN : RF := ⟨spiHstat, 2, 1⟩
def spiHstat_ABORTED : RF := ⟨spiHstat, 1, 1⟩
def spiHstat_UNDERRUN : RF := ⟨spiHstat, 0, 1⟩
/-- `SPI.HCNT`, 04_command_interface.md. -/
def spiHcnt : Nat := 0x1E0008
def spiHcnt_OVERRUNS : RF := ⟨spiHcnt, 24, 8⟩
def spiHcnt_ABORTS : RF := ⟨spiHcnt, 16, 8⟩
def spiHcnt_UNDERRUNS : RF := ⟨spiHcnt, 8, 8⟩
/-- `SPI.IRQCFG`, 04_command_interface.md. -/
def spiIrqcfg : Nat := 0x1E000C
def spiIrqcfg_DRIVE_0 : RF := ⟨spiIrqcfg, 1, 1⟩
def spiIrqcfg_DRIVE_1 : RF := ⟨spiIrqcfg, 3, 1⟩
def spiIrqcfg_DRIVE_2 : RF := ⟨spiIrqcfg, 5, 1⟩
def spiIrqcfg_DRIVE_3 : RF := ⟨spiIrqcfg, 7, 1⟩
def spiIrqcfg_POL_0 : RF := ⟨spiIrqcfg, 0, 1⟩
def spiIrqcfg_POL_1 : RF := ⟨spiIrqcfg, 2, 1⟩
def spiIrqcfg_POL_2 : RF := ⟨spiIrqcfg, 4, 1⟩
def spiIrqcfg_POL_3 : RF := ⟨spiIrqcfg, 6, 1⟩
/-- `SPI.PCFG`, 04_command_interface.md. -/
def spiPcfg (n : Nat) : Nat := 0x1E0100 + 0x100 * n
def spiPcfg_DIV (n : Nat) : RF := ⟨spiPcfg n, 16, 8⟩
def spiPcfg_WLEN (n : Nat) : RF := ⟨spiPcfg n, 8, 2⟩
def spiPcfg_LSB_FIRST (n : Nat) : RF := ⟨spiPcfg n, 5, 1⟩
def spiPcfg_STB_POL (n : Nat) : RF := ⟨spiPcfg n, 4, 1⟩
def spiPcfg_MODE (n : Nat) : RF := ⟨spiPcfg n, 0, 2⟩
/-- `SPI.PXFER`, 04_command_interface.md. -/
def spiPxfer (n : Nat) : Nat := 0x1E0104 + 0x100 * n
def spiPxfer_GO (n : Nat) : RF := ⟨spiPxfer n, 31, 1⟩
def spiPxfer_BUSY (n : Nat) : RF := ⟨spiPxfer n, 30, 1⟩
def spiPxfer_DONE (n : Nat) : RF := ⟨spiPxfer n, 29, 1⟩
def spiPxfer_DEV (n : Nat) : RF := ⟨spiPxfer n, 16, 4⟩
def spiPxfer_COUNT (n : Nat) : RF := ⟨spiPxfer n, 0, 5⟩
/-- `SPI.PDATA`, 04_command_interface.md. -/
def spiPdata (n : Nat) (i : Nat) : Nat := 0x1E0140 + 0x100 * n + 0x4 * i
def spiPdata_DATA (n : Nat) (i : Nat) : RF := ⟨spiPdata n i, 0, 32⟩
/-- `SYS.RSTCAUSE`, 05_startup_config_update.md. -/
def sysRstcause : Nat := 0x000010
def sysRstcause_RECOVERY : RF := ⟨sysRstcause, 5, 1⟩
def sysRstcause_WAKE : RF := ⟨sysRstcause, 4, 1⟩
def sysRstcause_COMMAND : RF := ⟨sysRstcause, 3, 1⟩
def sysRstcause_SUPPLY : RF := ⟨sysRstcause, 2, 1⟩
def sysRstcause_PIN : RF := ⟨sysRstcause, 1, 1⟩
def sysRstcause_POWER_ON : RF := ⟨sysRstcause, 0, 1⟩
/-- `SYS.STRAP`, 05_startup_config_update.md. -/
def sysStrap : Nat := 0x000014
def sysStrap_SLOT : RF := ⟨sysStrap, 4, 4⟩
def sysStrap_TEST : RF := ⟨sysStrap, 3, 1⟩
def sysStrap_RECOV : RF := ⟨sysStrap, 2, 1⟩
def sysStrap_HMODE : RF := ⟨sysStrap, 0, 2⟩
/-- `SYS.READY`, 05_startup_config_update.md. -/
def sysReady : Nat := 0x000018
def sysReady_READY_US : RF := ⟨sysReady, 0, 32⟩
/-- `CFG.STAT`, 05_startup_config_update.md. -/
def cfgStat : Nat := 0x040000
def cfgStat_DEFAULTED : RF := ⟨cfgStat, 16, 16⟩
def cfgStat_LOAD_BUSY : RF := ⟨cfgStat, 4, 1⟩
def cfgStat_SAVE_BUSY : RF := ⟨cfgStat, 3, 1⟩
def cfgStat_SAFE_CFG_FAULT : RF := ⟨cfgStat, 2, 1⟩
def cfgStat_NO_IMAGE : RF := ⟨cfgStat, 1, 1⟩
def cfgStat_BANK : RF := ⟨cfgStat, 0, 1⟩
/-- `CFG.GEN`, 05_startup_config_update.md. -/
def cfgGen : Nat := 0x040004
def cfgGen_GEN : RF := ⟨cfgGen, 0, 32⟩
/-- `CFG.FAULT`, 05_startup_config_update.md. -/
def cfgFault : Nat := 0x040008
def cfgFault_BLOCK : RF := ⟨cfgFault, 28, 4⟩
def cfgFault_STATUS : RF := ⟨cfgFault, 16, 8⟩
def cfgFault_ENTRY : RF := ⟨cfgFault, 0, 16⟩
/-- `FW.STAT`, 05_startup_config_update.md. -/
def fwStat : Nat := 0x040100
def fwStat_RECOVERY : RF := ⟨fwStat, 6, 1⟩
def fwStat_BOOT_FALLBACK : RF := ⟨fwStat, 5, 1⟩
def fwStat_TRIAL : RF := ⟨fwStat, 4, 1⟩
def fwStat_STAGED : RF := ⟨fwStat, 3, 1⟩
def fwStat_STAGE_BUSY : RF := ⟨fwStat, 2, 1⟩
def fwStat_CONFIRMED : RF := ⟨fwStat, 1, 1⟩
def fwStat_RUNNING : RF := ⟨fwStat, 0, 1⟩
/-- `FW.VER`, 05_startup_config_update.md. -/
def fwVer (n : Nat) : Nat := 0x040104 + 0x4 * n
def fwVer_MAJOR (n : Nat) : RF := ⟨fwVer n, 16, 16⟩
def fwVer_MINOR (n : Nat) : RF := ⟨fwVer n, 0, 16⟩
/-- `FW.STAGE`, 05_startup_config_update.md. -/
def fwStage : Nat := 0x04010C
def fwStage_NEXT_WORD : RF := ⟨fwStage, 0, 20⟩
/-- `FW.TRIAL`, 05_startup_config_update.md. -/
def fwTrial : Nat := 0x040110
def fwTrial_REMAIN_S : RF := ⟨fwTrial, 0, 10⟩
/-- `CFG.STAGEWIN`, 05_startup_config_update.md. -/
def cfgStagewin (n : Nat) : Nat := 0x050000 + 0x4 * n
def cfgStagewin_WORD (n : Nat) : RF := ⟨cfgStagewin n, 0, 32⟩
/-- `KEEP.WORD`, 05_startup_config_update.md. -/
def keepWord (n : Nat) : Nat := 0x030000 + 0x4 * n
def keepWord_VALUE (n : Nat) : RF := ⟨keepWord n, 0, 32⟩
/-- `KEEP.WEAR`, 05_startup_config_update.md. -/
def keepWear (n : Nat) : Nat := 0x031000 + 0x4 * n
def keepWear_COUNT (n : Nat) : RF := ⟨keepWear n, 0, 20⟩
/-- `KEEP.STAT`, 05_startup_config_update.md. -/
def keepStat : Nat := 0x032000
def keepStat_LAST : RF := ⟨keepStat, 16, 10⟩
def keepStat_CORRECTED : RF := ⟨keepStat, 8, 8⟩
def keepStat_UNCORR : RF := ⟨keepStat, 2, 1⟩
def keepStat_WORN_SEEN : RF := ⟨keepStat, 1, 1⟩
def keepStat_BUSY : RF := ⟨keepStat, 0, 1⟩
/-- `SENSE.MCLK`, 06_current_sensing.md. -/
def senseMclk (n : Nat) : Nat := 0x0A0000 + 0x4 * n
def senseMclk_EN (n : Nat) : RF := ⟨senseMclk n, 31, 1⟩
def senseMclk_MDIV (n : Nat) : RF := ⟨senseMclk n, 16, 7⟩
def senseMclk_PH (n : Nat) : RF := ⟨senseMclk n, 0, 7⟩
/-- `SENSE.CAL`, 06_current_sensing.md. -/
def senseCal : Nat := 0x0A0040
def senseCal_START : RF := ⟨senseCal, 31, 1⟩
def senseCal_BUSY : RF := ⟨senseCal, 30, 1⟩
def senseCal_FAIL : RF := ⟨senseCal, 29, 1⟩
def senseCal_MODE : RF := ⟨senseCal, 24, 3⟩
def senseCal_CH : RF := ⟨senseCal, 0, 7⟩
/-- `SENSE.CALRES`, 06_current_sensing.md. -/
def senseCalres : Nat := 0x0A0044
def senseCalres_RT_MAX : RF := ⟨senseCalres, 16, 16⟩
def senseCalres_RT_MIN : RF := ⟨senseCalres, 0, 16⟩
/-- `SENSE.CALEYE`, 06_current_sensing.md. -/
def senseCaleye : Nat := 0x0A0048
def senseCaleye_CENTRE : RF := ⟨senseCaleye, 16, 6⟩
def senseCaleye_EYE : RF := ⟨senseCaleye, 0, 16⟩
/-- `SENSE.CALOFS`, 06_current_sensing.md. -/
def senseCalofs : Nat := 0x0A004C
def senseCalofs_MEAN : RF := ⟨senseCalofs, 0, 32⟩
/-- `SENSE.LOST`, 06_current_sensing.md. -/
def senseLost (n : Nat) : Nat := 0x0A0050 + 0x4 * n
def senseLost_LOST (n : Nat) : RF := ⟨senseLost n, 0, 32⟩
/-- `SENSE.CFG`, 06_current_sensing.md. -/
def senseCfg (n : Nat) : Nat := 0x0A0100 + 0x20 * n
def senseCfg_EN (n : Nat) : RF := ⟨senseCfg n, 31, 1⟩
def senseCfg_EDGE (n : Nat) : RF := ⟨senseCfg n, 30, 1⟩
def senseCfg_MSEL (n : Nat) : RF := ⟨senseCfg n, 26, 4⟩
def senseCfg_CAPDLY (n : Nat) : RF := ⟨senseCfg n, 20, 6⟩
def senseCfg_LOSS_ACT (n : Nat) : RF := ⟨senseCfg n, 17, 1⟩
def senseCfg_S3_OSR (n : Nat) : RF := ⟨senseCfg n, 0, 9⟩
/-- `SENSE.OC`, 06_current_sensing.md. -/
def senseOc (n : Nat) : Nat := 0x0A0104 + 0x20 * n
def senseOc_OC_EN (n : Nat) : RF := ⟨senseOc n, 31, 1⟩
def senseOc_OC_ACT (n : Nat) : RF := ⟨senseOc n, 30, 1⟩
def senseOc_OC_RUN (n : Nat) : RF := ⟨senseOc n, 24, 4⟩
def senseOc_OC_OSR (n : Nat) : RF := ⟨senseOc n, 16, 7⟩
def senseOc_OC_HI (n : Nat) : RF := ⟨senseOc n, 8, 8⟩
def senseOc_OC_LO (n : Nat) : RF := ⟨senseOc n, 0, 8⟩
/-- `SENSE.LOSS`, 06_current_sensing.md. -/
def senseLoss (n : Nat) : Nat := 0x0A0108 + 0x20 * n
def senseLoss_LOSSRUN (n : Nat) : RF := ⟨senseLoss n, 0, 8⟩
/-- `SENSE.BIND`, 06_current_sensing.md. -/
def senseBind (n : Nat) : Nat := 0x0A010C + 0x20 * n
def senseBind_A_EN (n : Nat) : RF := ⟨senseBind n, 31, 1⟩
def senseBind_A_GRP (n : Nat) : RF := ⟨senseBind n, 28, 3⟩
def senseBind_B_EN (n : Nat) : RF := ⟨senseBind n, 27, 1⟩
def senseBind_B_GRP (n : Nat) : RF := ⟨senseBind n, 24, 3⟩
def senseBind_USERS (n : Nat) : RF := ⟨senseBind n, 0, 8⟩
/-- `SENSE.STAT`, 06_current_sensing.md. -/
def senseStat (n : Nat) : Nat := 0x0A0110 + 0x20 * n
def senseStat_OC_TRIPS (n : Nat) : RF := ⟨senseStat n, 24, 8⟩
def senseStat_LOSSES (n : Nat) : RF := ⟨senseStat n, 16, 8⟩
def senseStat_SETTLED (n : Nat) : RF := ⟨senseStat n, 4, 1⟩
def senseStat_INVALID (n : Nat) : RF := ⟨senseStat n, 3, 1⟩
def senseStat_OC_TRIP (n : Nat) : RF := ⟨senseStat n, 2, 1⟩
def senseStat_LOST_SEEN (n : Nat) : RF := ⟨senseStat n, 1, 1⟩
def senseStat_LOST (n : Nat) : RF := ⟨senseStat n, 0, 1⟩
/-- `SENSE.MEAN_A`, 06_current_sensing.md. -/
def senseMeanA (n : Nat) : Nat := 0x0A0114 + 0x20 * n
def senseMeanA_VALUE (n : Nat) : RF := ⟨senseMeanA n, 0, 32⟩
/-- `SENSE.MEAN_B`, 06_current_sensing.md. -/
def senseMeanB (n : Nat) : Nat := 0x0A0118 + 0x20 * n
def senseMeanB_VALUE (n : Nat) : RF := ⟨senseMeanB n, 0, 32⟩
/-- `SENSE.POINT`, 06_current_sensing.md. -/
def sensePoint (n : Nat) : Nat := 0x0A011C + 0x20 * n
def sensePoint_VALUE (n : Nat) : RF := ⟨sensePoint n, 0, 32⟩
/-- `SENSE.CALSH.GAIN`, 06_current_sensing.md. -/
def senseCalshGain (n : Nat) : Nat := 0x0A2000 + 0x10 * n
def senseCalshGain_GAIN (n : Nat) : RF := ⟨senseCalshGain n, 0, 32⟩
/-- `SENSE.CALACT.GAIN`, 06_current_sensing.md. -/
def senseCalactGain (n : Nat) : Nat := 0x0A3000 + 0x10 * n
def senseCalactGain_GAIN (n : Nat) : RF := ⟨senseCalactGain n, 0, 32⟩
/-- `SENSE.CALSH.OFFSET`, 06_current_sensing.md. -/
def senseCalshOffset (n : Nat) : Nat := 0x0A2004 + 0x10 * n
def senseCalshOffset_OFFSET (n : Nat) : RF := ⟨senseCalshOffset n, 0, 32⟩
/-- `SENSE.CALACT.OFFSET`, 06_current_sensing.md. -/
def senseCalactOffset (n : Nat) : Nat := 0x0A3004 + 0x10 * n
def senseCalactOffset_OFFSET (n : Nat) : RF := ⟨senseCalactOffset n, 0, 32⟩
/-- `SENSE.CALSH.DELAY`, 06_current_sensing.md. -/
def senseCalshDelay (n : Nat) : Nat := 0x0A2008 + 0x10 * n
def senseCalshDelay_DELAY (n : Nat) : RF := ⟨senseCalshDelay n, 0, 14⟩
/-- `SENSE.CALACT.DELAY`, 06_current_sensing.md. -/
def senseCalactDelay (n : Nat) : Nat := 0x0A3008 + 0x10 * n
def senseCalactDelay_DELAY (n : Nat) : RF := ⟨senseCalactDelay n, 0, 14⟩
/-- `NIB.CFG`, 07_nib_pwm.md. -/
def nibCfg (n : Nat) : Nat := 0x080000 + 0x100 * n
def nibCfg_EN (n : Nat) : RF := ⟨nibCfg n, 31, 1⟩
def nibCfg_GROUP (n : Nat) : RF := ⟨nibCfg n, 28, 3⟩
def nibCfg_SET (n : Nat) : RF := ⟨nibCfg n, 23, 5⟩
def nibCfg_INDEP (n : Nat) : RF := ⟨nibCfg n, 22, 1⟩
def nibCfg_POL_H (n : Nat) : RF := ⟨nibCfg n, 21, 1⟩
def nibCfg_POL_L (n : Nat) : RF := ⟨nibCfg n, 20, 1⟩
def nibCfg_POLICY (n : Nat) : RF := ⟨nibCfg n, 18, 2⟩
def nibCfg_ECHO_EN (n : Nat) : RF := ⟨nibCfg n, 17, 1⟩
def nibCfg_ECHO_POL (n : Nat) : RF := ⟨nibCfg n, 16, 1⟩
def nibCfg_ECHO_GAIN (n : Nat) : RF := ⟨nibCfg n, 14, 2⟩
def nibCfg_ECHO_ACT (n : Nat) : RF := ⟨nibCfg n, 13, 1⟩
def nibCfg_WFSEL (n : Nat) : RF := ⟨nibCfg n, 8, 5⟩
/-- `NIB.DTR`, 07_nib_pwm.md. -/
def nibDtr (n : Nat) : Nat := 0x080004 + 0x100 * n
def nibDtr_DT (n : Nat) : RF := ⟨nibDtr n, 0, 17⟩
/-- `NIB.DTF`, 07_nib_pwm.md. -/
def nibDtf (n : Nat) : Nat := 0x080008 + 0x100 * n
def nibDtf_DT (n : Nat) : RF := ⟨nibDtf n, 0, 17⟩
/-- `NIB.MINP`, 07_nib_pwm.md. -/
def nibMinp (n : Nat) : Nat := 0x08000C + 0x100 * n
def nibMinp_MINP (n : Nat) : RF := ⟨nibMinp n, 0, 18⟩
/-- `NIB.CHOP`, 07_nib_pwm.md. -/
def nibChop (n : Nat) : Nat := 0x080010 + 0x100 * n
def nibChop_K (n : Nat) : RF := ⟨nibChop n, 0, 29⟩
/-- `NIB.ECFG`, 07_nib_pwm.md. -/
def nibEcfg (n : Nat) : Nat := 0x080014 + 0x100 * n
def nibEcfg_EDLY (n : Nat) : RF := ⟨nibEcfg n, 16, 16⟩
def nibEcfg_MISSMAX (n : Nat) : RF := ⟨nibEcfg n, 8, 8⟩
/-- `NIB.EWIN`, 07_nib_pwm.md. -/
def nibEwin (n : Nat) : Nat := 0x080018 + 0x100 * n
def nibEwin_VALUE (n : Nat) : RF := ⟨nibEwin n, 0, 18⟩
/-- `NIB.CLIM`, 07_nib_pwm.md. -/
def nibClim (n : Nat) : Nat := 0x08001C + 0x100 * n
def nibClim_VALUE (n : Nat) : RF := ⟨nibClim n, 0, 18⟩
/-- `NIB.SON`, 07_nib_pwm.md. -/
def nibSon (n : Nat) : Nat := 0x080020 + 0x100 * n
def nibSon_OFS (n : Nat) : RF := ⟨nibSon n, 0, 29⟩
/-- `NIB.SOFF`, 07_nib_pwm.md. -/
def nibSoff (n : Nat) : Nat := 0x080024 + 0x100 * n
def nibSoff_OFS (n : Nat) : RF := ⟨nibSoff n, 0, 29⟩
/-- `NIB.AON`, 07_nib_pwm.md. -/
def nibAon (n : Nat) : Nat := 0x080028 + 0x100 * n
def nibAon_OFS (n : Nat) : RF := ⟨nibAon n, 0, 29⟩
/-- `NIB.AOFF`, 07_nib_pwm.md. -/
def nibAoff (n : Nat) : Nat := 0x08002C + 0x100 * n
def nibAoff_OFS (n : Nat) : RF := ⟨nibAoff n, 0, 29⟩
/-- `NIB.CORR_R`, 07_nib_pwm.md. -/
def nibCorrR (n : Nat) : Nat := 0x080030 + 0x100 * n
def nibCorrR_VALUE (n : Nat) : RF := ⟨nibCorrR n, 0, 32⟩
/-- `NIB.CORR_F`, 07_nib_pwm.md. -/
def nibCorrF (n : Nat) : Nat := 0x080034 + 0x100 * n
def nibCorrF_VALUE (n : Nat) : RF := ⟨nibCorrF n, 0, 32⟩
/-- `NIB.EERR_R`, 07_nib_pwm.md. -/
def nibEerrR (n : Nat) : Nat := 0x080038 + 0x100 * n
def nibEerrR_VALUE (n : Nat) : RF := ⟨nibEerrR n, 0, 32⟩
/-- `NIB.EERR_F`, 07_nib_pwm.md. -/
def nibEerrF (n : Nat) : Nat := 0x08003C + 0x100 * n
def nibEerrF_VALUE (n : Nat) : RF := ⟨nibEerrF n, 0, 32⟩
/-- `NIB.ACC`, 07_nib_pwm.md. -/
def nibAcc (n : Nat) : Nat := 0x080040 + 0x100 * n
def nibAcc_VALUE (n : Nat) : RF := ⟨nibAcc n, 0, 32⟩
/-- `NIB.NSTAT`, 07_nib_pwm.md. -/
def nibNstat (n : Nat) : Nat := 0x080044 + 0x100 * n
def nibNstat_LATCHED (n : Nat) : RF := ⟨nibNstat n, 31, 1⟩
def nibNstat_LATCH_SRC (n : Nat) : RF := ⟨nibNstat n, 27, 4⟩
def nibNstat_CLAMPED (n : Nat) : RF := ⟨nibNstat n, 3, 1⟩
def nibNstat_MISSED (n : Nat) : RF := ⟨nibNstat n, 2, 1⟩
def nibNstat_SHORT (n : Nat) : RF := ⟨nibNstat n, 1, 1⟩
def nibNstat_HIZ (n : Nat) : RF := ⟨nibNstat n, 0, 1⟩
/-- `NIB.NCNT`, 07_nib_pwm.md. -/
def nibNcnt (n : Nat) : Nat := 0x080048 + 0x100 * n
def nibNcnt_SHORTS (n : Nat) : RF := ⟨nibNcnt n, 16, 16⟩
def nibNcnt_MISSES (n : Nat) : RF := ⟨nibNcnt n, 8, 8⟩
def nibNcnt_LATCHES (n : Nat) : RF := ⟨nibNcnt n, 0, 8⟩
/-- `NIB.GPER`, 07_nib_pwm.md. -/
def nibGper (n : Nat) : Nat := 0x090000 + 0x40 * n
def nibGper_DU (n : Nat) : RF := ⟨nibGper n, 31, 1⟩
def nibGper_MODE (n : Nat) : RF := ⟨nibGper n, 29, 2⟩
def nibGper_PERIOD (n : Nat) : RF := ⟨nibGper n, 0, 29⟩
/-- `NIB.GPHASE`, 07_nib_pwm.md. -/
def nibGphase (n : Nat) : Nat := 0x090004 + 0x40 * n
def nibGphase_PHASE (n : Nat) : RF := ⟨nibGphase n, 0, 29⟩
/-- `NIB.GSTATE`, 07_nib_pwm.md. -/
def nibGstate (n : Nat) : Nat := 0x090008 + 0x40 * n
def nibGstate_NLATCHED (n : Nat) : RF := ⟨nibGstate n, 24, 8⟩
def nibGstate_PENDING (n : Nat) : RF := ⟨nibGstate n, 8, 1⟩
def nibGstate_REQ (n : Nat) : RF := ⟨nibGstate n, 4, 2⟩
def nibGstate_STATE (n : Nat) : RF := ⟨nibGstate n, 0, 2⟩
/-- `NIB.GSEQ`, 07_nib_pwm.md. -/
def nibGseq (n : Nat) : Nat := 0x09000C + 0x40 * n
def nibGseq_SEQ (n : Nat) : RF := ⟨nibGseq n, 0, 32⟩
/-- `NIB.GCTRL`, 07_nib_pwm.md. -/
def nibGctrl (n : Nat) : Nat := 0x090010 + 0x40 * n
def nibGctrl_CLR (n : Nat) : RF := ⟨nibGctrl n, 31, 1⟩
/-- `NIB.GADJ`, 07_nib_pwm.md. -/
def nibGadj (n : Nat) : Nat := 0x090014 + 0x40 * n
def nibGadj_ADJ (n : Nat) : RF := ⟨nibGadj n, 0, 32⟩
/-- `NIB.GCNT`, 07_nib_pwm.md. -/
def nibGcnt (n : Nat) : Nat := 0x090018 + 0x40 * n
def nibGcnt_CUTS (n : Nat) : RF := ⟨nibGcnt n, 16, 16⟩
def nibGcnt_LATCHES (n : Nat) : RF := ⟨nibGcnt n, 0, 16⟩
/-- `NIB.FLTSTAT`, 07_nib_pwm.md. -/
def nibFltstat : Nat := 0x091080
def nibFltstat_GF : RF := ⟨nibFltstat, 24, 4⟩
def nibFltstat_WF : RF := ⟨nibFltstat, 0, 24⟩
/-- `NIB.FLTSEEN`, 07_nib_pwm.md. -/
def nibFltseen : Nat := 0x091084
def nibFltseen_GF : RF := ⟨nibFltseen, 24, 4⟩
def nibFltseen_WF : RF := ⟨nibFltseen, 0, 24⟩
/-- `NIB.GLOB`, 07_nib_pwm.md. -/
def nibGlob : Nat := 0x091100
def nibGlob_HUSK_EN : RF := ⟨nibGlob, 0, 1⟩
/-- `NIB.SYNC`, 07_nib_pwm.md. -/
def nibSync : Nat := 0x091200
def nibSync_OUT_EN : RF := ⟨nibSync, 31, 1⟩
def nibSync_OUT_GRP : RF := ⟨nibSync, 28, 3⟩
def nibSync_OUT_DIV : RF := ⟨nibSync, 20, 8⟩
def nibSync_IN_EN : RF := ⟨nibSync, 19, 1⟩
def nibSync_IN_GRP : RF := ⟨nibSync, 16, 3⟩
def nibSync_SLEW : RF := ⟨nibSync, 0, 16⟩
/-- `NIB.SYNCSTAT`, 07_nib_pwm.md. -/
def nibSyncstat : Nat := 0x091204
def nibSyncstat_LOCK : RF := ⟨nibSyncstat, 31, 1⟩
def nibSyncstat_IN_DLY : RF := ⟨nibSyncstat, 0, 31⟩
/-- `NIB.EDGE`, 07_nib_pwm.md. -/
def nibEdge (n : Nat) : Nat := 0x092000 + 0x10 * n
def nibEdge_SEQ (n : Nat) : RF := ⟨nibEdge n, 0, 32⟩
/-- `NIB.STAT`, 07_nib_pwm.md. -/
def nibStat (n : Nat) : Nat := 0x092004 + 0x10 * n
def nibStat_ACTIVE_SEQ (n : Nat) : RF := ⟨nibStat n, 0, 32⟩
/-- `NIB.SETINFO`, 07_nib_pwm.md. -/
def nibSetinfo (n : Nat) : Nat := 0x092008 + 0x10 * n
def nibSetinfo_OWNED (n : Nat) : RF := ⟨nibSetinfo n, 31, 1⟩
def nibSetinfo_GROUP (n : Nat) : RF := ⟨nibSetinfo n, 28, 3⟩
def nibSetinfo_NIBS (n : Nat) : RF := ⟨nibSetinfo n, 24, 4⟩
def nibSetinfo_OWNER (n : Nat) : RF := ⟨nibSetinfo n, 8, 8⟩
def nibSetinfo_OVERWRITES (n : Nat) : RF := ⟨nibSetinfo n, 0, 8⟩
/-- `NIB.SETCNT`, 07_nib_pwm.md. -/
def nibSetcnt (n : Nat) : Nat := 0x09200C + 0x10 * n
def nibSetcnt_REPEATS (n : Nat) : RF := ⟨nibSetcnt n, 16, 16⟩
def nibSetcnt_CLAMPS (n : Nat) : RF := ⟨nibSetcnt n, 0, 16⟩
/-- `MAP.SEL`, 08_winding_control.md. -/
def mapSel : Nat := 0x160000
def mapSel_MAP : RF := ⟨mapSel, 0, 6⟩
/-- `MAP.DIR`, 08_winding_control.md. -/
def mapDir (n : Nat) : Nat := 0x160100 + 0x4 * n
def mapDir_VALID (n : Nat) : RF := ⟨mapDir n, 31, 1⟩
def mapDir_KIND (n : Nat) : RF := ⟨mapDir n, 28, 3⟩
def mapDir_SWAP_PEND (n : Nat) : RF := ⟨mapDir n, 23, 1⟩
def mapDir_USERS (n : Nat) : RF := ⟨mapDir n, 16, 7⟩
def mapDir_ADAPTS (n : Nat) : RF := ⟨mapDir n, 0, 16⟩
/-- `FDBK.CFG`, 09_feedback_latching.md. -/
def fdbkCfg (n : Nat) : Nat := 0x0B0000 + 0x40 * n
def fdbkCfg_EN (n : Nat) : RF := ⟨fdbkCfg n, 31, 1⟩
def fdbkCfg_MODE (n : Nat) : RF := ⟨fdbkCfg n, 28, 3⟩
def fdbkCfg_GROUP (n : Nat) : RF := ⟨fdbkCfg n, 25, 3⟩
def fdbkCfg_DIR (n : Nat) : RF := ⟨fdbkCfg n, 24, 1⟩
def fdbkCfg_FILT (n : Nat) : RF := ⟨fdbkCfg n, 20, 4⟩
def fdbkCfg_ZMODE (n : Nat) : RF := ⟨fdbkCfg n, 18, 2⟩
def fdbkCfg_ZGATE (n : Nat) : RF := ⟨fdbkCfg n, 16, 2⟩
def fdbkCfg_EXCSEL (n : Nat) : RF := ⟨fdbkCfg n, 13, 3⟩
/-- `FDBK.UPT`, 09_feedback_latching.md. -/
def fdbkUpt (n : Nat) : Nat := 0x0B0004 + 0x40 * n
def fdbkUpt_UPT (n : Nat) : RF := ⟨fdbkUpt n, 0, 32⟩
/-- `FDBK.DLY`, 09_feedback_latching.md. -/
def fdbkDly (n : Nat) : Nat := 0x0B0008 + 0x40 * n
def fdbkDly_DLY (n : Nat) : RF := ⟨fdbkDly n, 0, 16⟩
/-- `FDBK.SSI`, 09_feedback_latching.md. -/
def fdbkSsi (n : Nat) : Nat := 0x0B000C + 0x40 * n
def fdbkSsi_CKDIV (n : Nat) : RF := ⟨fdbkSsi n, 24, 8⟩
def fdbkSsi_NBITS (n : Nat) : RF := ⟨fdbkSsi n, 16, 6⟩
def fdbkSsi_PAR (n : Nat) : RF := ⟨fdbkSsi n, 14, 2⟩
def fdbkSsi_GRAY (n : Nat) : RF := ⟨fdbkSsi n, 13, 1⟩
def fdbkSsi_ERRMAX (n : Nat) : RF := ⟨fdbkSsi n, 0, 8⟩
/-- `FDBK.SSIT`, 09_feedback_latching.md. -/
def fdbkSsit (n : Nat) : Nat := 0x0B0010 + 0x40 * n
def fdbkSsit_LEAD (n : Nat) : RF := ⟨fdbkSsit n, 16, 16⟩
def fdbkSsit_RTD (n : Nat) : RF := ⟨fdbkSsit n, 0, 16⟩
/-- `FDBK.SC`, 09_feedback_latching.md. -/
def fdbkSc (n : Nat) : Nat := 0x0B0014 + 0x40 * n
def fdbkSc_AMP_LO (n : Nat) : RF := ⟨fdbkSc n, 16, 16⟩
def fdbkSc_AMP_HI (n : Nat) : RF := ⟨fdbkSc n, 0, 16⟩
/-- `FDBK.RPH`, 09_feedback_latching.md. -/
def fdbkRph (n : Nat) : Nat := 0x0B0018 + 0x40 * n
def fdbkRph_QAMP (n : Nat) : RF := ⟨fdbkRph n, 16, 16⟩
def fdbkRph_RPH (n : Nat) : RF := ⟨fdbkRph n, 0, 12⟩
/-- `FDBK.CTRL`, 09_feedback_latching.md. -/
def fdbkCtrl (n : Nat) : Nat := 0x0B001C + 0x40 * n
def fdbkCtrl_CLR (n : Nat) : RF := ⟨fdbkCtrl n, 31, 1⟩
def fdbkCtrl_ZARM (n : Nat) : RF := ⟨fdbkCtrl n, 30, 1⟩
/-- `FDBK.POS`, 09_feedback_latching.md. -/
def fdbkPosLo (n : Nat) : Nat := 0x0B0020 + 0x40 * n
def fdbkPosLo_VALUE (n : Nat) : RF := ⟨fdbkPosLo n, 0, 32⟩
/-- `FDBK.POS`, 09_feedback_latching.md. -/
def fdbkPosHi (n : Nat) : Nat := 0x0B0024 + 0x40 * n
def fdbkPosHi_VALUE (n : Nat) : RF := ⟨fdbkPosHi n, 0, 32⟩
/-- `FDBK.VEL`, 09_feedback_latching.md. -/
def fdbkVel (n : Nat) : Nat := 0x0B0028 + 0x40 * n
def fdbkVel_VALUE (n : Nat) : RF := ⟨fdbkVel n, 0, 32⟩
/-- `FDBK.TURN`, 09_feedback_latching.md. -/
def fdbkTurn (n : Nat) : Nat := 0x0B002C + 0x40 * n
def fdbkTurn_VALUE (n : Nat) : RF := ⟨fdbkTurn n, 0, 32⟩
/-- `FDBK.STAT`, 09_feedback_latching.md. -/
def fdbkStat (n : Nat) : Nat := 0x0B0030 + 0x40 * n
def fdbkStat_VALID (n : Nat) : RF := ⟨fdbkStat n, 31, 1⟩
def fdbkStat_STATE (n : Nat) : RF := ⟨fdbkStat n, 29, 2⟩
def fdbkStat_ZSEEN (n : Nat) : RF := ⟨fdbkStat n, 28, 1⟩
def fdbkStat_MISMATCH (n : Nat) : RF := ⟨fdbkStat n, 27, 1⟩
def fdbkStat_SSI_ERR (n : Nat) : RF := ⟨fdbkStat n, 26, 1⟩
def fdbkStat_SIGNAL (n : Nat) : RF := ⟨fdbkStat n, 25, 1⟩
def fdbkStat_ILLEGAL (n : Nat) : RF := ⟨fdbkStat n, 24, 1⟩
def fdbkStat_OVERSPEED (n : Nat) : RF := ⟨fdbkStat n, 23, 1⟩
def fdbkStat_AMP (n : Nat) : RF := ⟨fdbkStat n, 0, 16⟩
/-- `FDBK.ZCNT`, 09_feedback_latching.md. -/
def fdbkZcnt (n : Nat) : Nat := 0x0B0034 + 0x40 * n
def fdbkZcnt_VALUE (n : Nat) : RF := ⟨fdbkZcnt n, 0, 32⟩
/-- `FDBK.ZDT`, 09_feedback_latching.md. -/
def fdbkZdt (n : Nat) : Nat := 0x0B0038 + 0x40 * n
def fdbkZdt_VALUE (n : Nat) : RF := ⟨fdbkZdt n, 0, 32⟩
/-- `FDBK.CNT`, 09_feedback_latching.md. -/
def fdbkCnt (n : Nat) : Nat := 0x0B003C + 0x40 * n
def fdbkCnt_ILLEGALS (n : Nat) : RF := ⟨fdbkCnt n, 24, 8⟩
def fdbkCnt_SSI_ERRS (n : Nat) : RF := ⟨fdbkCnt n, 16, 8⟩
def fdbkCnt_ADJS (n : Nat) : RF := ⟨fdbkCnt n, 8, 8⟩
def fdbkCnt_INVALIDS (n : Nat) : RF := ⟨fdbkCnt n, 0, 8⟩
/-- `FDBK.EXC`, 09_feedback_latching.md. -/
def fdbkExc (n : Nat) : Nat := 0x0B0400 + 0x4 * n
def fdbkExc_EN (n : Nat) : RF := ⟨fdbkExc n, 31, 1⟩
def fdbkExc_LOCK (n : Nat) : RF := ⟨fdbkExc n, 30, 1⟩
def fdbkExc_GRP (n : Nat) : RF := ⟨fdbkExc n, 27, 3⟩
def fdbkExc_MUL (n : Nat) : RF := ⟨fdbkExc n, 24, 3⟩
def fdbkExc_FREE_PER (n : Nat) : RF := ⟨fdbkExc n, 0, 18⟩
/-- `LATCH.CFG`, 09_feedback_latching.md. -/
def latchCfg (n : Nat) : Nat := 0x0B1000 + 0x80 * n
def latchCfg_EN (n : Nat) : RF := ⟨latchCfg n, 31, 1⟩
def latchCfg_MODE (n : Nat) : RF := ⟨latchCfg n, 29, 2⟩
def latchCfg_EDGE (n : Nat) : RF := ⟨latchCfg n, 27, 2⟩
def latchCfg_SRCK (n : Nat) : RF := ⟨latchCfg n, 24, 3⟩
def latchCfg_SRC (n : Nat) : RF := ⟨latchCfg n, 16, 8⟩
def latchCfg_NPOS (n : Nat) : RF := ⟨latchCfg n, 13, 3⟩
def latchCfg_FILT (n : Nat) : RF := ⟨latchCfg n, 9, 4⟩
/-- `LATCH.PSRC01`, 09_feedback_latching.md. -/
def latchPsrc01 (n : Nat) : Nat := 0x0B1004 + 0x80 * n
def latchPsrc01_KIND0 (n : Nat) : RF := ⟨latchPsrc01 n, 30, 2⟩
def latchPsrc01_INDEX0 (n : Nat) : RF := ⟨latchPsrc01 n, 16, 8⟩
def latchPsrc01_KIND1 (n : Nat) : RF := ⟨latchPsrc01 n, 14, 2⟩
def latchPsrc01_INDEX1 (n : Nat) : RF := ⟨latchPsrc01 n, 0, 8⟩
/-- `LATCH.PSRC23`, 09_feedback_latching.md. -/
def latchPsrc23 (n : Nat) : Nat := 0x0B1008 + 0x80 * n
def latchPsrc23_KIND0 (n : Nat) : RF := ⟨latchPsrc23 n, 30, 2⟩
def latchPsrc23_INDEX0 (n : Nat) : RF := ⟨latchPsrc23 n, 16, 8⟩
def latchPsrc23_KIND1 (n : Nat) : RF := ⟨latchPsrc23 n, 14, 2⟩
def latchPsrc23_INDEX1 (n : Nat) : RF := ⟨latchPsrc23 n, 0, 8⟩
/-- `LATCH.DLY`, 09_feedback_latching.md. -/
def latchDly (n : Nat) : Nat := 0x0B100C + 0x80 * n
def latchDly_CHAT (n : Nat) : RF := ⟨latchDly n, 16, 16⟩
def latchDly_LDLY (n : Nat) : RF := ⟨latchDly n, 0, 16⟩
/-- `LATCH.WSTART`, 09_feedback_latching.md. -/
def latchWstartLo (n : Nat) : Nat := 0x0B1010 + 0x80 * n
def latchWstartLo_VALUE (n : Nat) : RF := ⟨latchWstartLo n, 0, 32⟩
/-- `LATCH.WSTART`, 09_feedback_latching.md. -/
def latchWstartHi (n : Nat) : Nat := 0x0B1014 + 0x80 * n
def latchWstartHi_VALUE (n : Nat) : RF := ⟨latchWstartHi n, 0, 32⟩
/-- `LATCH.WEND`, 09_feedback_latching.md. -/
def latchWendLo (n : Nat) : Nat := 0x0B1018 + 0x80 * n
def latchWendLo_VALUE (n : Nat) : RF := ⟨latchWendLo n, 0, 32⟩
/-- `LATCH.WEND`, 09_feedback_latching.md. -/
def latchWendHi (n : Nat) : Nat := 0x0B101C + 0x80 * n
def latchWendHi_VALUE (n : Nat) : RF := ⟨latchWendHi n, 0, 32⟩
/-- `LATCH.CTRL`, 09_feedback_latching.md. -/
def latchCtrl (n : Nat) : Nat := 0x0B1020 + 0x80 * n
def latchCtrl_ARM (n : Nat) : RF := ⟨latchCtrl n, 31, 1⟩
def latchCtrl_DISARM (n : Nat) : RF := ⟨latchCtrl n, 30, 1⟩
/-- `LATCH.STAT`, 09_feedback_latching.md. -/
def latchStat (n : Nat) : Nat := 0x0B1024 + 0x80 * n
def latchStat_ARMED (n : Nat) : RF := ⟨latchStat n, 31, 1⟩
def latchStat_OWNED (n : Nat) : RF := ⟨latchStat n, 30, 1⟩
def latchStat_PEND (n : Nat) : RF := ⟨latchStat n, 29, 1⟩
def latchStat_PVALID (n : Nat) : RF := ⟨latchStat n, 24, 4⟩
def latchStat_CHATTERS (n : Nat) : RF := ⟨latchStat n, 16, 8⟩
def latchStat_COUNT (n : Nat) : RF := ⟨latchStat n, 0, 16⟩
/-- `LATCH.RDT`, 09_feedback_latching.md. -/
def latchRdtLo (n : Nat) : Nat := 0x0B1040 + 0x80 * n
def latchRdtLo_VALUE (n : Nat) : RF := ⟨latchRdtLo n, 0, 32⟩
/-- `LATCH.RDT`, 09_feedback_latching.md. -/
def latchRdtHi (n : Nat) : Nat := 0x0B1044 + 0x80 * n
def latchRdtHi_VALUE (n : Nat) : RF := ⟨latchRdtHi n, 0, 32⟩
/-- `LATCH.RPOS`, 09_feedback_latching.md. -/
def latchRposLo (n : Nat) (i : Nat) : Nat := 0x0B1048 + 0x80 * n + 0x8 * i
def latchRposLo_VALUE (n : Nat) (i : Nat) : RF := ⟨latchRposLo n i, 0, 32⟩
/-- `LATCH.RPOS`, 09_feedback_latching.md. -/
def latchRposHi (n : Nat) (i : Nat) : Nat := 0x0B104C + 0x80 * n + 0x8 * i
def latchRposHi_VALUE (n : Nat) (i : Nat) : RF := ⟨latchRposHi n i, 0, 32⟩
/-- `MOTION.AXINFO`, 10_axes_profiles.md. -/
def motionAxinfo (n : Nat) : Nat := 0x140000 + 0x40 * n
def motionAxinfo_USED (n : Nat) : RF := ⟨motionAxinfo n, 31, 1⟩
def motionAxinfo_STATE (n : Nat) : RF := ⟨motionAxinfo n, 27, 4⟩
def motionAxinfo_QUEUED (n : Nat) : RF := ⟨motionAxinfo n, 24, 3⟩
def motionAxinfo_HOMED (n : Nat) : RF := ⟨motionAxinfo n, 23, 1⟩
def motionAxinfo_AT_TARGET (n : Nat) : RF := ⟨motionAxinfo n, 22, 1⟩
def motionAxinfo_DECEL_RAISED (n : Nat) : RF := ⟨motionAxinfo n, 21, 1⟩
def motionAxinfo_OVERSHOOT (n : Nat) : RF := ⟨motionAxinfo n, 20, 1⟩
def motionAxinfo_LIM_POS (n : Nat) : RF := ⟨motionAxinfo n, 19, 1⟩
def motionAxinfo_LIM_NEG (n : Nat) : RF := ⟨motionAxinfo n, 18, 1⟩
def motionAxinfo_SWL_POS (n : Nat) : RF := ⟨motionAxinfo n, 17, 1⟩
def motionAxinfo_SWL_NEG (n : Nat) : RF := ⟨motionAxinfo n, 16, 1⟩
def motionAxinfo_TLIM (n : Nat) : RF := ⟨motionAxinfo n, 15, 1⟩
def motionAxinfo_ABORTING (n : Nat) : RF := ⟨motionAxinfo n, 14, 1⟩
def motionAxinfo_CAUSE (n : Nat) : RF := ⟨motionAxinfo n, 8, 4⟩
def motionAxinfo_SLOT (n : Nat) : RF := ⟨motionAxinfo n, 0, 8⟩
/-- `MOTION.AXHOME`, 10_axes_profiles.md. -/
def motionAxhome (n : Nat) : Nat := 0x140004 + 0x40 * n
def motionAxhome_METHOD (n : Nat) : RF := ⟨motionAxhome n, 28, 4⟩
def motionAxhome_STEP (n : Nat) : RF := ⟨motionAxhome n, 24, 4⟩
def motionAxhome_REVERSALS (n : Nat) : RF := ⟨motionAxhome n, 16, 8⟩
/-- `MOTION.XCMD`, 10_axes_profiles.md. -/
def motionXcmdLo (n : Nat) : Nat := 0x140008 + 0x40 * n
def motionXcmdLo_VALUE (n : Nat) : RF := ⟨motionXcmdLo n, 0, 32⟩
/-- `MOTION.XCMD`, 10_axes_profiles.md. -/
def motionXcmdHi (n : Nat) : Nat := 0x14000C + 0x40 * n
def motionXcmdHi_VALUE (n : Nat) : RF := ⟨motionXcmdHi n, 0, 32⟩
/-- `MOTION.XACT`, 10_axes_profiles.md. -/
def motionXactLo (n : Nat) : Nat := 0x140010 + 0x40 * n
def motionXactLo_VALUE (n : Nat) : RF := ⟨motionXactLo n, 0, 32⟩
/-- `MOTION.XACT`, 10_axes_profiles.md. -/
def motionXactHi (n : Nat) : Nat := 0x140014 + 0x40 * n
def motionXactHi_VALUE (n : Nat) : RF := ⟨motionXactHi n, 0, 32⟩
/-- `MOTION.TARGET`, 10_axes_profiles.md. -/
def motionTargetLo (n : Nat) : Nat := 0x140018 + 0x40 * n
def motionTargetLo_VALUE (n : Nat) : RF := ⟨motionTargetLo n, 0, 32⟩
/-- `MOTION.TARGET`, 10_axes_profiles.md. -/
def motionTargetHi (n : Nat) : Nat := 0x14001C + 0x40 * n
def motionTargetHi_VALUE (n : Nat) : RF := ⟨motionTargetHi n, 0, 32⟩
/-- `MOTION.VCMD`, 10_axes_profiles.md. -/
def motionVcmd (n : Nat) : Nat := 0x140020 + 0x40 * n
def motionVcmd_VALUE (n : Nat) : RF := ⟨motionVcmd n, 0, 32⟩
/-- `MOTION.VACT`, 10_axes_profiles.md. -/
def motionVact (n : Nat) : Nat := 0x140024 + 0x40 * n
def motionVact_VALUE (n : Nat) : RF := ⟨motionVact n, 0, 32⟩
/-- `MOTION.ACMD`, 10_axes_profiles.md. -/
def motionAcmd (n : Nat) : Nat := 0x140028 + 0x40 * n
def motionAcmd_VALUE (n : Nat) : RF := ⟨motionAcmd n, 0, 32⟩
/-- `MOTION.FERR`, 10_axes_profiles.md. -/
def motionFerr (n : Nat) : Nat := 0x14002C + 0x40 * n
def motionFerr_VALUE (n : Nat) : RF := ⟨motionFerr n, 0, 32⟩
/-- `MOTION.EFFORT`, 10_axes_profiles.md. -/
def motionEffort (n : Nat) : Nat := 0x140030 + 0x40 * n
def motionEffort_VALUE (n : Nat) : RF := ⟨motionEffort n, 0, 32⟩
/-- `MOTION.DECEL`, 10_axes_profiles.md. -/
def motionDecel (n : Nat) : Nat := 0x140034 + 0x40 * n
def motionDecel_VALUE (n : Nat) : RF := ⟨motionDecel n, 0, 32⟩
/-- `MOTION.AXCNT`, 10_axes_profiles.md. -/
def motionAxcnt (n : Nat) : Nat := 0x140038 + 0x40 * n
def motionAxcnt_FE_TRIPS (n : Nat) : RF := ⟨motionAxcnt n, 16, 16⟩
def motionAxcnt_LIMIT_TRIPS (n : Nat) : RF := ⟨motionAxcnt n, 8, 8⟩
def motionAxcnt_HOME_FAILS (n : Nat) : RF := ⟨motionAxcnt n, 0, 8⟩
/-- `MOTION.GINFO`, 11_gearing_strokes.md. -/
def motionGinfo (n : Nat) : Nat := 0x141000 + 0x40 * n
def motionGinfo_USED (n : Nat) : RF := ⟨motionGinfo n, 31, 1⟩
def motionGinfo_STATE (n : Nat) : RF := ⟨motionGinfo n, 28, 3⟩
def motionGinfo_GMODE (n : Nat) : RF := ⟨motionGinfo n, 26, 2⟩
def motionGinfo_CAUSE (n : Nat) : RF := ⟨motionGinfo n, 20, 4⟩
def motionGinfo_SLOT (n : Nat) : RF := ⟨motionGinfo n, 0, 8⟩
/-- `MOTION.GNUM`, 11_gearing_strokes.md. -/
def motionGnum (n : Nat) : Nat := 0x141004 + 0x40 * n
def motionGnum_VALUE (n : Nat) : RF := ⟨motionGnum n, 0, 32⟩
/-- `MOTION.GDEN`, 11_gearing_strokes.md. -/
def motionGden (n : Nat) : Nat := 0x141008 + 0x40 * n
def motionGden_VALUE (n : Nat) : RF := ⟨motionGden n, 0, 32⟩
/-- `MOTION.GSIGMA`, 11_gearing_strokes.md. -/
def motionGsigma (n : Nat) : Nat := 0x14100C + 0x40 * n
def motionGsigma_VALUE (n : Nat) : RF := ⟨motionGsigma n, 0, 32⟩
/-- `MOTION.GVF`, 11_gearing_strokes.md. -/
def motionGvf (n : Nat) : Nat := 0x141018 + 0x40 * n
def motionGvf_VALUE (n : Nat) : RF := ⟨motionGvf n, 0, 32⟩
/-- `MOTION.GAF`, 11_gearing_strokes.md. -/
def motionGaf (n : Nat) : Nat := 0x14101C + 0x40 * n
def motionGaf_VALUE (n : Nat) : RF := ⟨motionGaf n, 0, 32⟩
/-- `MOTION.GREFF`, 11_gearing_strokes.md. -/
def motionGreff (n : Nat) : Nat := 0x141020 + 0x40 * n
def motionGreff_VALUE (n : Nat) : RF := ⟨motionGreff n, 0, 32⟩
/-- `MOTION.GMODF`, 11_gearing_strokes.md. -/
def motionGmodf (n : Nat) : Nat := 0x141024 + 0x40 * n
def motionGmodf_VALUE (n : Nat) : RF := ⟨motionGmodf n, 0, 32⟩
/-- `MOTION.GXF`, 11_gearing_strokes.md. -/
def motionGxfLo (n : Nat) : Nat := 0x141010 + 0x40 * n
def motionGxfLo_VALUE (n : Nat) : RF := ⟨motionGxfLo n, 0, 32⟩
/-- `MOTION.GXF`, 11_gearing_strokes.md. -/
def motionGxfHi (n : Nat) : Nat := 0x141014 + 0x40 * n
def motionGxfHi_VALUE (n : Nat) : RF := ⟨motionGxfHi n, 0, 32⟩
/-- `MOTION.GXM`, 11_gearing_strokes.md. -/
def motionGxmLo (n : Nat) : Nat := 0x141028 + 0x40 * n
def motionGxmLo_VALUE (n : Nat) : RF := ⟨motionGxmLo n, 0, 32⟩
/-- `MOTION.GXM`, 11_gearing_strokes.md. -/
def motionGxmHi (n : Nat) : Nat := 0x14102C + 0x40 * n
def motionGxmHi_VALUE (n : Nat) : RF := ⟨motionGxmHi n, 0, 32⟩
/-- `MOTION.GCNT`, 11_gearing_strokes.md. -/
def motionGcnt (n : Nat) : Nat := 0x141030 + 0x40 * n
def motionGcnt_OUTSIDES (n : Nat) : RF := ⟨motionGcnt n, 16, 16⟩
def motionGcnt_FAULTS (n : Nat) : RF := ⟨motionGcnt n, 8, 8⟩
def motionGcnt_ENGAGES (n : Nat) : RF := ⟨motionGcnt n, 0, 8⟩
/-- `MOTION.SINFO`, 11_gearing_strokes.md. -/
def motionSinfo (n : Nat) : Nat := 0x142000 + 0x40 * n
def motionSinfo_USED (n : Nat) : RF := ⟨motionSinfo n, 31, 1⟩
def motionSinfo_STATE (n : Nat) : RF := ⟨motionSinfo n, 28, 3⟩
def motionSinfo_NAXES (n : Nat) : RF := ⟨motionSinfo n, 24, 4⟩
def motionSinfo_LA (n : Nat) : RF := ⟨motionSinfo n, 16, 8⟩
def motionSinfo_SLOT (n : Nat) : RF := ⟨motionSinfo n, 0, 8⟩
/-- `MOTION.STAG`, 11_gearing_strokes.md. -/
def motionStag (n : Nat) : Nat := 0x142004 + 0x40 * n
def motionStag_RUN_TAG (n : Nat) : RF := ⟨motionStag n, 16, 16⟩
def motionStag_IN_TAG (n : Nat) : RF := ⟨motionStag n, 0, 16⟩
/-- `MOTION.SOVR`, 11_gearing_strokes.md. -/
def motionSovr (n : Nat) : Nat := 0x142008 + 0x40 * n
def motionSovr_VALUE (n : Nat) : RF := ⟨motionSovr n, 0, 32⟩
/-- `MOTION.SVPATH`, 11_gearing_strokes.md. -/
def motionSvpath (n : Nat) : Nat := 0x14200C + 0x40 * n
def motionSvpath_VALUE (n : Nat) : RF := ⟨motionSvpath n, 0, 32⟩
/-- `MOTION.SREM`, 11_gearing_strokes.md. -/
def motionSrem (n : Nat) : Nat := 0x142010 + 0x40 * n
def motionSrem_VALUE (n : Nat) : RF := ⟨motionSrem n, 0, 32⟩
/-- `MOTION.SDWELL`, 11_gearing_strokes.md. -/
def motionSdwell (n : Nat) : Nat := 0x142014 + 0x40 * n
def motionSdwell_VALUE (n : Nat) : RF := ⟨motionSdwell n, 0, 32⟩
/-- `MOTION.SDONE`, 11_gearing_strokes.md. -/
def motionSdone (n : Nat) : Nat := 0x142018 + 0x40 * n
def motionSdone_VALUE (n : Nat) : RF := ⟨motionSdone n, 0, 32⟩
/-- `MOTION.SCNT`, 11_gearing_strokes.md. -/
def motionScnt (n : Nat) : Nat := 0x14201C + 0x40 * n
def motionScnt_STARVES (n : Nat) : RF := ⟨motionScnt n, 16, 16⟩
def motionScnt_SEG_ERRS (n : Nat) : RF := ⟨motionScnt n, 8, 8⟩
def motionScnt_LAST_ERR (n : Nat) : RF := ⟨motionScnt n, 0, 8⟩
/-- `CAM.SEL`, 11_gearing_strokes.md. -/
def camSel : Nat := 0x164000
def camSel_CAM : RF := ⟨camSel, 0, 5⟩
/-- `CAM.DIR`, 11_gearing_strokes.md. -/
def camDir (n : Nat) : Nat := 0x164100 + 0x4 * n
def camDir_VALID (n : Nat) : RF := ⟨camDir n, 31, 1⟩
def camDir_CUBIC (n : Nat) : RF := ⟨camDir n, 30, 1⟩
def camDir_PERIODIC (n : Nat) : RF := ⟨camDir n, 29, 1⟩
def camDir_LOADING (n : Nat) : RF := ⟨camDir n, 28, 1⟩
def camDir_USERS (n : Nat) : RF := ⟨camDir n, 16, 8⟩
def camDir_N (n : Nat) : RF := ⟨camDir n, 0, 12⟩
/-- `CAM.X0`, 11_gearing_strokes.md. -/
def camX0 : Nat := 0x164200
def camX0_VALUE : RF := ⟨camX0, 0, 32⟩
/-- `CAM.XSPAN`, 11_gearing_strokes.md. -/
def camXspan : Nat := 0x164204
def camXspan_VALUE : RF := ⟨camXspan, 0, 32⟩
/-- `CAM.YRISE`, 11_gearing_strokes.md. -/
def camYrise : Nat := 0x164208
def camYrise_VALUE : RF := ⟨camYrise, 0, 32⟩
/-- `CAM.LOADST`, 11_gearing_strokes.md. -/
def camLoadst : Nat := 0x16420C
def camLoadst_OPEN : RF := ⟨camLoadst, 31, 1⟩
def camLoadst_TARGET : RF := ⟨camLoadst, 24, 5⟩
def camLoadst_NEXT : RF := ⟨camLoadst, 0, 12⟩
/-- `CAM.PT`, 11_gearing_strokes.md. -/
def camPt (n : Nat) : Nat := 0x166000 + 0x4 * n
def camPt_VALUE (n : Nat) : RF := ⟨camPt n, 0, 32⟩
/-- `INK.SCFG`, 12_inkwell_capture.md. -/
def inkScfg (n : Nat) : Nat := 0x180000 + 0x40 * n
def inkScfg_MODE (n : Nat) : RF := ⟨inkScfg n, 30, 2⟩
def inkScfg_NREC (n : Nat) : RF := ⟨inkScfg n, 26, 4⟩
def inkScfg_AUTO_T (n : Nat) : RF := ⟨inkScfg n, 0, 16⟩
/-- `INK.SMEM`, 12_inkwell_capture.md. -/
def inkSmem (n : Nat) : Nat := 0x180004 + 0x40 * n
def inkSmem_PAGES (n : Nat) : RF := ⟨inkSmem n, 16, 16⟩
def inkSmem_BASE (n : Nat) : RF := ⟨inkSmem n, 0, 16⟩
/-- `INK.PRE`, 12_inkwell_capture.md. -/
def inkPre (n : Nat) : Nat := 0x180008 + 0x40 * n
def inkPre_NS (n : Nat) : RF := ⟨inkPre n, 0, 32⟩
/-- `INK.POST`, 12_inkwell_capture.md. -/
def inkPost (n : Nat) : Nat := 0x18000C + 0x40 * n
def inkPost_NS (n : Nat) : RF := ⟨inkPost n, 0, 32⟩
/-- `INK.TRIG`, 12_inkwell_capture.md. -/
def inkTrig (n : Nat) : Nat := 0x180010 + 0x40 * n
def inkTrig_COND (n : Nat) : RF := ⟨inkTrig n, 28, 4⟩
def inkTrig_SENSE (n : Nat) : RF := ⟨inkTrig n, 26, 2⟩
def inkTrig_SKIND (n : Nat) : RF := ⟨inkTrig n, 24, 2⟩
def inkTrig_SRC (n : Nat) : RF := ⟨inkTrig n, 16, 8⟩
def inkTrig_EVENT (n : Nat) : RF := ⟨inkTrig n, 8, 8⟩
def inkTrig_FAULTMASK (n : Nat) : RF := ⟨inkTrig n, 0, 8⟩
/-- `INK.TLO`, 12_inkwell_capture.md. -/
def inkTlo (n : Nat) : Nat := 0x180014 + 0x40 * n
def inkTlo_VALUE (n : Nat) : RF := ⟨inkTlo n, 0, 32⟩
/-- `INK.THI`, 12_inkwell_capture.md. -/
def inkThi (n : Nat) : Nat := 0x180018 + 0x40 * n
def inkThi_VALUE (n : Nat) : RF := ⟨inkThi n, 0, 32⟩
/-- `INK.TSEQ`, 12_inkwell_capture.md. -/
def inkTseq (n : Nat) : Nat := 0x18001C + 0x40 * n
def inkTseq_VALUE (n : Nat) : RF := ⟨inkTseq n, 0, 32⟩
/-- `INK.SSTAT`, 12_inkwell_capture.md. -/
def inkSstat (n : Nat) : Nat := 0x180020 + 0x40 * n
def inkSstat_STATE (n : Nat) : RF := ⟨inkSstat n, 28, 4⟩
def inkSstat_WREC (n : Nat) : RF := ⟨inkSstat n, 24, 4⟩
def inkSstat_FULL (n : Nat) : RF := ⟨inkSstat n, 8, 16⟩
def inkSstat_MISSED (n : Nat) : RF := ⟨inkSstat n, 0, 8⟩
/-- `INK.SFLAG`, 12_inkwell_capture.md. -/
def inkSflag (n : Nat) : Nat := 0x180024 + 0x40 * n
def inkSflag_FLAGS (n : Nat) : RF := ⟨inkSflag n, 0, 7⟩
/-- `INK.TDT`, 12_inkwell_capture.md. -/
def inkTdtLo (n : Nat) : Nat := 0x180028 + 0x40 * n
def inkTdtLo_VALUE (n : Nat) : RF := ⟨inkTdtLo n, 0, 32⟩
/-- `INK.TDT`, 12_inkwell_capture.md. -/
def inkTdtHi (n : Nat) : Nat := 0x18002C + 0x40 * n
def inkTdtHi_VALUE (n : Nat) : RF := ⟨inkTdtHi n, 0, 32⟩
/-- `INK.CCFG`, 12_inkwell_capture.md. -/
def inkCcfg (n : Nat) : Nat := 0x180400 + 0x10 * n
def inkCcfg_EN (n : Nat) : RF := ⟨inkCcfg n, 31, 1⟩
def inkCcfg_SESSION (n : Nat) : RF := ⟨inkCcfg n, 28, 2⟩
def inkCcfg_KIND (n : Nat) : RF := ⟨inkCcfg n, 24, 4⟩
def inkCcfg_SRC (n : Nat) : RF := ⟨inkCcfg n, 16, 8⟩
/-- `INK.CSTAT`, 12_inkwell_capture.md. -/
def inkCstat (n : Nat) : Nat := 0x180404 + 0x10 * n
def inkCstat_SKIPS (n : Nat) : RF := ⟨inkCstat n, 16, 16⟩
def inkCstat_NEED (n : Nat) : RF := ⟨inkCstat n, 0, 16⟩
/-- `INK.GSTAT`, 12_inkwell_capture.md. -/
def inkGstat : Nat := 0x180800
def inkGstat_IFAULT : RF := ⟨inkGstat, 31, 1⟩
def inkGstat_STAGE_PEAK : RF := ⟨inkGstat, 0, 16⟩
/-- `INK.ECC`, 12_inkwell_capture.md. -/
def inkEcc : Nat := 0x180804
def inkEcc_CORRECTED : RF := ⟨inkEcc, 16, 16⟩
def inkEcc_UNCORR : RF := ⟨inkEcc, 0, 16⟩
/-- `SAFE.STATE`, 13_safety.md. -/
def safeState : Nat := 0x200000
def safeState_MODE : RF := ⟨safeState, 28, 4⟩
def safeState_HSTATE : RF := ⟨safeState, 24, 4⟩
def safeState_ACK_NEEDED : RF := ⟨safeState, 23, 1⟩
def safeState_SINGLE : RF := ⟨safeState, 22, 1⟩
def safeState_DEGRADED : RF := ⟨safeState, 21, 1⟩
def safeState_CAUSE : RF := ⟨safeState, 0, 16⟩
/-- `SAFE.SVIEW`, 13_safety.md. -/
def safeSview : Nat := 0x200004
def safeSview_OUTS : RF := ⟨safeSview, 29, 3⟩
def safeSview_STO : RF := ⟨safeSview, 16, 2⟩
def safeSview_FIO : RF := ⟨safeSview, 0, 8⟩
/-- `SAFE.HVIEW`, 13_safety.md. -/
def safeHview : Nat := 0x200008
def safeHview_OUTS : RF := ⟨safeHview, 29, 3⟩
def safeHview_STO : RF := ⟨safeHview, 16, 2⟩
def safeHview_FIO : RF := ⟨safeHview, 0, 8⟩
/-- `SAFE.XC`, 13_safety.md. -/
def safeXc : Nat := 0x20000C
def safeXc_FRAMES : RF := ⟨safeXc, 16, 16⟩
def safeXc_LOST : RF := ⟨safeXc, 8, 8⟩
def safeXc_DIFFS : RF := ⟨safeXc, 0, 8⟩
/-- `SAFE.TEL`, 13_safety.md. -/
def safeTel : Nat := 0x200010
def safeTel_COUNT : RF := ⟨safeTel, 16, 16⟩
def safeTel_PATH_A : RF := ⟨safeTel, 15, 1⟩
def safeTel_PATH_B : RF := ⟨safeTel, 14, 1⟩
def safeTel_REJECTS : RF := ⟨safeTel, 0, 8⟩
/-- `SAFE.CONT`, 13_safety.md. -/
def safeCont (n : Nat) : Nat := 0x200020 + 0x4 * n
def safeCont_STATE (n : Nat) : RF := ⟨safeCont n, 30, 2⟩
def safeCont_CMD (n : Nat) : RF := ⟨safeCont n, 29, 1⟩
def safeCont_FB (n : Nat) : RF := ⟨safeCont n, 28, 1⟩
def safeCont_FAULT (n : Nat) : RF := ⟨safeCont n, 24, 4⟩
def safeCont_LAST_MS (n : Nat) : RF := ⟨safeCont n, 0, 16⟩
/-- `SAFE.OUT`, 13_safety.md. -/
def safeOut (n : Nat) : Nat := 0x200030 + 0x4 * n
def safeOut_APPLIED (n : Nat) : RF := ⟨safeOut n, 31, 1⟩
def safeOut_FAULT (n : Nat) : RF := ⟨safeOut n, 30, 1⟩
def safeOut_RB (n : Nat) : RF := ⟨safeOut n, 28, 2⟩
def safeOut_PULSES (n : Nat) : RF := ⟨safeOut n, 0, 16⟩
/-- `SAFE.AX`, 13_safety.md. -/
def safeAx (n : Nat) : Nat := 0x200040 + 0x8 * n
def safeAx_ASTATE (n : Nat) : RF := ⟨safeAx n, 28, 4⟩
def safeAx_SLS (n : Nat) : RF := ⟨safeAx n, 26, 2⟩
def safeAx_SDI (n : Nat) : RF := ⟨safeAx n, 24, 2⟩
def safeAx_FUNC (n : Nat) : RF := ⟨safeAx n, 20, 4⟩
/-- `SAFE.AXV`, 13_safety.md. -/
def safeAxv (n : Nat) : Nat := 0x200044 + 0x8 * n
def safeAxv_V (n : Nat) : RF := ⟨safeAxv n, 0, 32⟩
/-- `SAFE.CRC_S`, 13_safety.md. -/
def safeCrcS : Nat := 0x200080
def safeCrcS_CRC : RF := ⟨safeCrcS, 0, 32⟩
/-- `SAFE.CRC_H`, 13_safety.md. -/
def safeCrcH : Nat := 0x200084
def safeCrcH_CRC : RF := ⟨safeCrcH, 0, 32⟩
/-- `SAFE.STG_S`, 13_safety.md. -/
def safeStgS : Nat := 0x200088
def safeStgS_CRC : RF := ⟨safeStgS, 0, 32⟩
/-- `SAFE.STG_H`, 13_safety.md. -/
def safeStgH : Nat := 0x20008C
def safeStgH_CRC : RF := ⟨safeStgH, 0, 32⟩
/-- `SAFE.STAGE`, 13_safety.md. -/
def safeStage (n : Nat) : Nat := 0x201000 + 0x4 * n
def safeStage_WORD (n : Nat) : RF := ⟨safeStage n, 0, 32⟩
/-- `SAFE.RB`, 13_safety.md. -/
def safeRb (n : Nat) : Nat := 0x201400 + 0x4 * n
def safeRb_WORD (n : Nat) : RF := ⟨safeRb n, 0, 32⟩
/-- `SAFE.HRB`, 13_safety.md. -/
def safeHrb (n : Nat) : Nat := 0x201800 + 0x4 * n
def safeHrb_WORD (n : Nat) : RF := ⟨safeHrb n, 0, 32⟩
/-- `FIELD.CFG`, 14_field_io.md. -/
def fieldCfg (n : Nat) : Nat := 0x1F0000 + 0x10 * n
def fieldCfg_OUT (n : Nat) : RF := ⟨fieldCfg n, 31, 1⟩
def fieldCfg_TYPE (n : Nat) : RF := ⟨fieldCfg n, 30, 1⟩
def fieldCfg_SAFEVAL (n : Nat) : RF := ⟨fieldCfg n, 28, 2⟩
def fieldCfg_EDGE_EVT (n : Nat) : RF := ⟨fieldCfg n, 27, 1⟩
def fieldCfg_WAKE (n : Nat) : RF := ⟨fieldCfg n, 25, 2⟩
def fieldCfg_FILT (n : Nat) : RF := ⟨fieldCfg n, 20, 4⟩
/-- `FIELD.CHAT`, 14_field_io.md. -/
def fieldChat (n : Nat) : Nat := 0x1F0004 + 0x10 * n
def fieldChat_CHAT_N (n : Nat) : RF := ⟨fieldChat n, 24, 8⟩
def fieldChat_CHAT_W (n : Nat) : RF := ⟨fieldChat n, 16, 8⟩
def fieldChat_HOLDOFF (n : Nat) : RF := ⟨fieldChat n, 0, 16⟩
/-- `FIELD.CHST`, 14_field_io.md. -/
def fieldChst (n : Nat) : Nat := 0x1F0008 + 0x10 * n
def fieldChst_LEVEL (n : Nat) : RF := ⟨fieldChst n, 31, 1⟩
def fieldChst_CMD (n : Nat) : RF := ⟨fieldChst n, 30, 1⟩
def fieldChst_ON (n : Nat) : RF := ⟨fieldChst n, 29, 1⟩
def fieldChst_OVERCUR (n : Nat) : RF := ⟨fieldChst n, 28, 1⟩
def fieldChst_THERMAL (n : Nat) : RF := ⟨fieldChst n, 27, 1⟩
def fieldChst_SAFE_HELD (n : Nat) : RF := ⟨fieldChst n, 26, 1⟩
def fieldChst_HOLDING (n : Nat) : RF := ⟨fieldChst n, 25, 1⟩
def fieldChst_SEEN (n : Nat) : RF := ⟨fieldChst n, 24, 1⟩
/-- `FIELD.CNT`, 14_field_io.md. -/
def fieldCnt (n : Nat) : Nat := 0x1F000C + 0x10 * n
def fieldCnt_EDGES (n : Nat) : RF := ⟨fieldCnt n, 16, 16⟩
def fieldCnt_CHATTERS (n : Nat) : RF := ⟨fieldCnt n, 8, 8⟩
def fieldCnt_FAULTS (n : Nat) : RF := ⟨fieldCnt n, 0, 8⟩
/-- `FIELD.CTRL`, 14_field_io.md. -/
def fieldCtrl : Nat := 0x1F0200
def fieldCtrl_SILENCE : RF := ⟨fieldCtrl, 0, 8⟩
/-- `FIELD.STAT`, 14_field_io.md. -/
def fieldStat : Nat := 0x1F0204
def fieldStat_LINK : RF := ⟨fieldStat, 31, 1⟩
def fieldStat_UV : RF := ⟨fieldStat, 30, 1⟩
def fieldStat_OV : RF := ⟨fieldStat, 29, 1⟩
def fieldStat_BANK_FLT : RF := ⟨fieldStat, 24, 4⟩
def fieldStat_VFIELD : RF := ⟨fieldStat, 0, 16⟩
/-- `FIELD.IN`, 14_field_io.md. -/
def fieldIn : Nat := 0x1F0208
def fieldIn_VALUE : RF := ⟨fieldIn, 0, 32⟩
/-- `FIELD.OUT`, 14_field_io.md. -/
def fieldOut : Nat := 0x1F020C
def fieldOut_VALUE : RF := ⟨fieldOut, 0, 32⟩
/-- `FIELD.STO`, 14_field_io.md. -/
def fieldSto : Nat := 0x1F0210
def fieldSto_VALUE : RF := ⟨fieldSto, 0, 32⟩
/-- `FIELD.BANK`, 14_field_io.md. -/
def fieldBank (n : Nat) : Nat := 0x1F0220 + 0x4 * n
def fieldBank_CURRENT (n : Nat) : RF := ⟨fieldBank n, 0, 16⟩
/-- `ETH.CFG`, 15_ethernet_time.md. -/
def ethCfg (n : Nat) : Nat := 0x1C0000 + 0x100 * n
def ethCfg_EN (n : Nat) : RF := ⟨ethCfg n, 31, 1⟩
def ethCfg_SPEED (n : Nat) : RF := ⟨ethCfg n, 30, 1⟩
def ethCfg_TXC_DLY (n : Nat) : RF := ⟨ethCfg n, 29, 1⟩
def ethCfg_RXC_DLY (n : Nat) : RF := ⟨ethCfg n, 28, 1⟩
def ethCfg_TAG_TX (n : Nat) : RF := ⟨ethCfg n, 27, 1⟩
def ethCfg_PCP_PTP (n : Nat) : RF := ⟨ethCfg n, 24, 3⟩
def ethCfg_PCP_SAFE (n : Nat) : RF := ⟨ethCfg n, 20, 3⟩
def ethCfg_PCP_INK (n : Nat) : RF := ⟨ethCfg n, 16, 3⟩
def ethCfg_VID (n : Nat) : RF := ⟨ethCfg n, 0, 12⟩
/-- `ETH.MAC_LO`, 15_ethernet_time.md. -/
def ethMacLo (n : Nat) : Nat := 0x1C0004 + 0x100 * n
def ethMacLo_MAC (n : Nat) : RF := ⟨ethMacLo n, 0, 32⟩
/-- `ETH.MAC_HI`, 15_ethernet_time.md. -/
def ethMacHi (n : Nat) : Nat := 0x1C0008 + 0x100 * n
def ethMacHi_MAC (n : Nat) : RF := ⟨ethMacHi n, 0, 16⟩
/-- `ETH.IP`, 15_ethernet_time.md. -/
def ethIp (n : Nat) : Nat := 0x1C000C + 0x100 * n
def ethIp_IP (n : Nat) : RF := ⟨ethIp n, 0, 32⟩
/-- `ETH.UDP`, 15_ethernet_time.md. -/
def ethUdp (n : Nat) : Nat := 0x1C0010 + 0x100 * n
def ethUdp_CMD_PORT (n : Nat) : RF := ⟨ethUdp n, 16, 16⟩
def ethUdp_INK_PORT (n : Nat) : RF := ⟨ethUdp n, 0, 16⟩
/-- `ETH.INK_IP`, 15_ethernet_time.md. -/
def ethInkIp (n : Nat) : Nat := 0x1C0014 + 0x100 * n
def ethInkIp_VALUE (n : Nat) : RF := ⟨ethInkIp n, 0, 32⟩
/-- `ETH.INK_MACLO`, 15_ethernet_time.md. -/
def ethInkMaclo (n : Nat) : Nat := 0x1C0018 + 0x100 * n
def ethInkMaclo_VALUE (n : Nat) : RF := ⟨ethInkMaclo n, 0, 32⟩
/-- `ETH.INK_MACHI`, 15_ethernet_time.md. -/
def ethInkMachi (n : Nat) : Nat := 0x1C001C + 0x100 * n
def ethInkMachi_INK_DPORT (n : Nat) : RF := ⟨ethInkMachi n, 16, 16⟩
def ethInkMachi_MAC (n : Nat) : RF := ⟨ethInkMachi n, 0, 16⟩
/-- `ETH.LAT`, 15_ethernet_time.md. -/
def ethLat (n : Nat) : Nat := 0x1C0020 + 0x100 * n
def ethLat_TX_LAT (n : Nat) : RF := ⟨ethLat n, 16, 16⟩
def ethLat_RX_LAT (n : Nat) : RF := ⟨ethLat n, 0, 16⟩
/-- `ETH.ASYM`, 15_ethernet_time.md. -/
def ethAsym (n : Nat) : Nat := 0x1C0024 + 0x100 * n
def ethAsym_ASYM (n : Nat) : RF := ⟨ethAsym n, 0, 32⟩
/-- `ETH.STAT`, 15_ethernet_time.md. -/
def ethStat (n : Nat) : Nat := 0x1C0028 + 0x100 * n
def ethStat_LINK (n : Nat) : RF := ⟨ethStat n, 31, 1⟩
def ethStat_SPD_SEEN (n : Nat) : RF := ⟨ethStat n, 30, 1⟩
def ethStat_TS_LOST (n : Nat) : RF := ⟨ethStat n, 26, 1⟩
def ethStat_TX_DROP (n : Nat) : RF := ⟨ethStat n, 25, 1⟩
def ethStat_RX_DROP (n : Nat) : RF := ⟨ethStat n, 24, 1⟩
/-- `ETH.CNT`, 15_ethernet_time.md. -/
def ethCnt (n : Nat) : Nat := 0x1C002C + 0x100 * n
def ethCnt_RX_FRAMES (n : Nat) : RF := ⟨ethCnt n, 0, 32⟩
/-- `ETH.DROPS`, 15_ethernet_time.md. -/
def ethDrops (n : Nat) : Nat := 0x1C0030 + 0x100 * n
def ethDrops_RX_DROPS (n : Nat) : RF := ⟨ethDrops n, 16, 16⟩
def ethDrops_TX_DROPS (n : Nat) : RF := ⟨ethDrops n, 8, 8⟩
def ethDrops_FILTERED (n : Nat) : RF := ⟨ethDrops n, 0, 8⟩
/-- `ETH.MDIO`, 15_ethernet_time.md. -/
def ethMdio (n : Nat) : Nat := 0x1C0034 + 0x100 * n
def ethMdio_GO (n : Nat) : RF := ⟨ethMdio n, 31, 1⟩
def ethMdio_BUSY (n : Nat) : RF := ⟨ethMdio n, 30, 1⟩
def ethMdio_READ (n : Nat) : RF := ⟨ethMdio n, 29, 1⟩
def ethMdio_PHYAD (n : Nat) : RF := ⟨ethMdio n, 21, 5⟩
def ethMdio_REGAD (n : Nat) : RF := ⟨ethMdio n, 16, 5⟩
def ethMdio_DATA (n : Nat) : RF := ⟨ethMdio n, 0, 16⟩
/-- `TIME.CFG`, 15_ethernet_time.md. -/
def timeCfg : Nat := 0x1A0000
def timeCfg_SRC : RF := ⟨timeCfg, 30, 2⟩
def timeCfg_DISC : RF := ⟨timeCfg, 29, 1⟩
def timeCfg_PORT_A : RF := ⟨timeCfg, 28, 1⟩
def timeCfg_PORT_B : RF := ⟨timeCfg, 27, 1⟩
def timeCfg_BC : RF := ⟨timeCfg, 26, 1⟩
def timeCfg_TWO_STEP : RF := ⟨timeCfg, 25, 1⟩
def timeCfg_P2P_A : RF := ⟨timeCfg, 24, 1⟩
def timeCfg_P2P_B : RF := ⟨timeCfg, 23, 1⟩
def timeCfg_TRANSPORT : RF := ⟨timeCfg, 22, 1⟩
def timeCfg_DOMAIN : RF := ⟨timeCfg, 15, 7⟩
def timeCfg_LOG_SYNC : RF := ⟨timeCfg, 13, 2⟩
def timeCfg_ANN_TMO : RF := ⟨timeCfg, 9, 4⟩
def timeCfg_DISC_LIM : RF := ⟨timeCfg, 6, 3⟩
/-- `TIME.DS`, 15_ethernet_time.md. -/
def timeDs : Nat := 0x1A0004
def timeDs_PRIORITY1 : RF := ⟨timeDs, 24, 8⟩
def timeDs_PRIORITY2 : RF := ⟨timeDs, 16, 8⟩
def timeDs_CLOCK_CLASS : RF := ⟨timeDs, 8, 8⟩
def timeDs_SLAVE_ONLY : RF := ⟨timeDs, 7, 1⟩
/-- `TIME.KP`, 15_ethernet_time.md. -/
def timeKp : Nat := 0x1A0008
def timeKp_GAIN : RF := ⟨timeKp, 0, 32⟩
/-- `TIME.KI`, 15_ethernet_time.md. -/
def timeKi : Nat := 0x1A000C
def timeKi_GAIN : RF := ⟨timeKi, 0, 32⟩
/-- `TIME.THR`, 15_ethernet_time.md. -/
def timeThr : Nat := 0x1A0010
def timeThr_STEP_THR : RF := ⟨timeThr, 0, 32⟩
/-- `TIME.LIM`, 15_ethernet_time.md. -/
def timeLim : Nat := 0x1A0014
def timeLim_LOCK_THR : RF := ⟨timeLim, 16, 16⟩
def timeLim_SLEW_MAX : RF := ⟨timeLim, 0, 16⟩
/-- `TIME.STAT`, 15_ethernet_time.md. -/
def timeStat : Nat := 0x1A0020
def timeStat_STATE : RF := ⟨timeStat, 29, 3⟩
def timeStat_ST_VALID : RF := ⟨timeStat, 28, 1⟩
def timeStat_DISC_ACT : RF := ⟨timeStat, 27, 1⟩
def timeStat_STEPPED : RF := ⟨timeStat, 26, 1⟩
def timeStat_SLAVE_PORT : RF := ⟨timeStat, 25, 1⟩
def timeStat_STEPS : RF := ⟨timeStat, 0, 16⟩
/-- `TIME.RATE`, 15_ethernet_time.md. -/
def timeRate : Nat := 0x1A0024
def timeRate_VALUE : RF := ⟨timeRate, 0, 32⟩
/-- `TIME.OFFSET`, 15_ethernet_time.md. -/
def timeOffset : Nat := 0x1A0028
def timeOffset_VALUE : RF := ⟨timeOffset, 0, 32⟩
/-- `TIME.MPD`, 15_ethernet_time.md. -/
def timeMpd : Nat := 0x1A002C
def timeMpd_VALUE : RF := ⟨timeMpd, 0, 32⟩
/-- `TIME.PARENT`, 15_ethernet_time.md. -/
def timeParentLo : Nat := 0x1A0030
def timeParentLo_VALUE : RF := ⟨timeParentLo, 0, 32⟩
/-- `TIME.PARENT`, 15_ethernet_time.md. -/
def timeParentHi : Nat := 0x1A0034
def timeParentHi_VALUE : RF := ⟨timeParentHi, 0, 32⟩
/-- `TIME.UTCOFS`, 15_ethernet_time.md. -/
def timeUtcofs : Nat := 0x1A0038
def timeUtcofs_VALID : RF := ⟨timeUtcofs, 16, 1⟩
def timeUtcofs_UTC_OFS : RF := ⟨timeUtcofs, 0, 16⟩
/-- `TIME.CTRL`, 15_ethernet_time.md. -/
def timeCtrl : Nat := 0x1A003C
def timeCtrl_SNAP : RF := ⟨timeCtrl, 31, 1⟩
/-- `TIME.SNAP`, 15_ethernet_time.md. -/
def timeSnapDtLo : Nat := 0x1A0040
def timeSnapDtLo_VALUE : RF := ⟨timeSnapDtLo, 0, 32⟩
/-- `TIME.SNAP`, 15_ethernet_time.md. -/
def timeSnapDtHi : Nat := 0x1A0044
def timeSnapDtHi_VALUE : RF := ⟨timeSnapDtHi, 0, 32⟩
/-- `TIME.SNAP`, 15_ethernet_time.md. -/
def timeSnapSec : Nat := 0x1A0048
def timeSnapSec_VALUE : RF := ⟨timeSnapSec, 0, 32⟩
/-- `TIME.SNAP`, 15_ethernet_time.md. -/
def timeSnapFracHi : Nat := 0x1A004C
def timeSnapFracHi_FRAC : RF := ⟨timeSnapFracHi, 16, 16⟩
def timeSnapFracHi_SEC_HI : RF := ⟨timeSnapFracHi, 0, 16⟩
/-- `TIME.SNAP`, 15_ethernet_time.md. -/
def timeSnapNs : Nat := 0x1A0050
def timeSnapNs_VALUE : RF := ⟨timeSnapNs, 0, 32⟩
/-- `TIME.PSTAT`, 15_ethernet_time.md. -/
def timePstat (n : Nat) : Nat := 0x1A0100 + 0x20 * n
def timePstat_ENABLED (n : Nat) : RF := ⟨timePstat n, 31, 1⟩
def timePstat_SCALE (n : Nat) : RF := ⟨timePstat n, 30, 1⟩
def timePstat_POL (n : Nat) : RF := ⟨timePstat n, 29, 1⟩
def timePstat_HELD (n : Nat) : RF := ⟨timePstat n, 28, 1⟩
def timePstat_SKIPPED (n : Nat) : RF := ⟨timePstat n, 0, 16⟩
/-- `TIME.PSTART`, 15_ethernet_time.md. -/
def timePstart0 (n : Nat) : Nat := 0x1A0104 + 0x20 * n
def timePstart0_VALUE (n : Nat) : RF := ⟨timePstart0 n, 0, 32⟩
/-- `TIME.PSTART`, 15_ethernet_time.md. -/
def timePstart1 (n : Nat) : Nat := 0x1A0108 + 0x20 * n
def timePstart1_VALUE (n : Nat) : RF := ⟨timePstart1 n, 0, 32⟩
/-- `TIME.PSTART`, 15_ethernet_time.md. -/
def timePstart2 (n : Nat) : Nat := 0x1A010C + 0x20 * n
def timePstart2_VALUE (n : Nat) : RF := ⟨timePstart2 n, 0, 32⟩
/-- `TIME.PPER`, 15_ethernet_time.md. -/
def timePper (n : Nat) : Nat := 0x1A0110 + 0x20 * n
def timePper_VALUE (n : Nat) : RF := ⟨timePper n, 0, 32⟩
/-- `TIME.PWID`, 15_ethernet_time.md. -/
def timePwid (n : Nat) : Nat := 0x1A0114 + 0x20 * n
def timePwid_VALUE (n : Nat) : RF := ⟨timePwid n, 0, 32⟩
/-- `TIME.PLEFT`, 15_ethernet_time.md. -/
def timePleft (n : Nat) : Nat := 0x1A0118 + 0x20 * n
def timePleft_VALUE (n : Nat) : RF := ⟨timePleft n, 0, 32⟩
/-- `TIME.PDONE`, 15_ethernet_time.md. -/
def timePdone (n : Nat) : Nat := 0x1A011C + 0x20 * n
def timePdone_VALUE (n : Nat) : RF := ⟨timePdone n, 0, 32⟩
/-- `CAN.CTRL`, 16_can_fd.md. -/
def canCtrl (n : Nat) : Nat := 0x1D0000 + 0x400 * n
def canCtrl_MODE (n : Nat) : RF := ⟨canCtrl n, 30, 2⟩
def canCtrl_FDEN (n : Nat) : RF := ⟨canCtrl n, 29, 1⟩
def canCtrl_TDC_EN (n : Nat) : RF := ⟨canCtrl n, 28, 1⟩
def canCtrl_AUTO_REC (n : Nat) : RF := ⟨canCtrl n, 27, 1⟩
def canCtrl_CMD_EN (n : Nat) : RF := ⟨canCtrl n, 26, 1⟩
def canCtrl_CMD_BRS (n : Nat) : RF := ⟨canCtrl n, 25, 1⟩
def canCtrl_ACCEPT_ALL (n : Nat) : RF := ⟨canCtrl n, 24, 1⟩
def canCtrl_RECOVER (n : Nat) : RF := ⟨canCtrl n, 23, 1⟩
def canCtrl_DOM_TO (n : Nat) : RF := ⟨canCtrl n, 8, 8⟩
/-- `CAN.NBT`, 16_can_fd.md. -/
def canNbt (n : Nat) : Nat := 0x1D0004 + 0x400 * n
def canNbt_NBRP (n : Nat) : RF := ⟨canNbt n, 27, 5⟩
def canNbt_NTSEG1 (n : Nat) : RF := ⟨canNbt n, 19, 8⟩
def canNbt_NTSEG2 (n : Nat) : RF := ⟨canNbt n, 12, 7⟩
def canNbt_NSJW (n : Nat) : RF := ⟨canNbt n, 5, 7⟩
/-- `CAN.DBT`, 16_can_fd.md. -/
def canDbt (n : Nat) : Nat := 0x1D0008 + 0x400 * n
def canDbt_DBRP (n : Nat) : RF := ⟨canDbt n, 27, 5⟩
def canDbt_DTSEG1 (n : Nat) : RF := ⟨canDbt n, 16, 5⟩
def canDbt_DTSEG2 (n : Nat) : RF := ⟨canDbt n, 8, 4⟩
def canDbt_DSJW (n : Nat) : RF := ⟨canDbt n, 0, 4⟩
/-- `CAN.TDC`, 16_can_fd.md. -/
def canTdc (n : Nat) : Nat := 0x1D000C + 0x400 * n
def canTdc_TDCV (n : Nat) : RF := ⟨canTdc n, 24, 8⟩
def canTdc_TDCF (n : Nat) : RF := ⟨canTdc n, 8, 7⟩
def canTdc_TDCO (n : Nat) : RF := ⟨canTdc n, 0, 7⟩
/-- `CAN.CMDID`, 16_can_fd.md. -/
def canCmdid (n : Nat) : Nat := 0x1D0010 + 0x400 * n
def canCmdid_IDE (n : Nat) : RF := ⟨canCmdid n, 31, 1⟩
def canCmdid_ID (n : Nat) : RF := ⟨canCmdid n, 0, 29⟩
/-- `CAN.RSPID`, 16_can_fd.md. -/
def canRspid (n : Nat) : Nat := 0x1D0014 + 0x400 * n
def canRspid_IDE (n : Nat) : RF := ⟨canRspid n, 31, 1⟩
def canRspid_ID (n : Nat) : RF := ⟨canRspid n, 0, 29⟩
/-- `CAN.TTREF`, 16_can_fd.md. -/
def canTtref (n : Nat) : Nat := 0x1D0018 + 0x400 * n
def canTtref_IDE (n : Nat) : RF := ⟨canTtref n, 31, 1⟩
def canTtref_ID (n : Nat) : RF := ⟨canTtref n, 0, 29⟩
/-- `CAN.WKID`, 16_can_fd.md. -/
def canWkid (n : Nat) : Nat := 0x1D0020 + 0x400 * n
def canWkid_IDE (n : Nat) : RF := ⟨canWkid n, 31, 1⟩
def canWkid_ID (n : Nat) : RF := ⟨canWkid n, 0, 29⟩
/-- `CAN.WKMASK`, 16_can_fd.md. -/
def canWkmask (n : Nat) : Nat := 0x1D0024 + 0x400 * n
def canWkmask_IDE (n : Nat) : RF := ⟨canWkmask n, 31, 1⟩
def canWkmask_ID (n : Nat) : RF := ⟨canWkmask n, 0, 29⟩
/-- `CAN.WAKE`, 16_can_fd.md. -/
def canWake (n : Nat) : Nat := 0x1D001C + 0x400 * n
def canWake_WMODE (n : Nat) : RF := ⟨canWake n, 30, 2⟩
def canWake_WK_DLCCHK (n : Nat) : RF := ⟨canWake n, 12, 1⟩
def canWake_WK_DLC (n : Nat) : RF := ⟨canWake n, 8, 4⟩
def canWake_WUF (n : Nat) : RF := ⟨canWake n, 0, 8⟩
/-- `CAN.WKDATA`, 16_can_fd.md. -/
def canWkdataLo (n : Nat) : Nat := 0x1D0028 + 0x400 * n
def canWkdataLo_VALUE (n : Nat) : RF := ⟨canWkdataLo n, 0, 32⟩
/-- `CAN.WKDATA`, 16_can_fd.md. -/
def canWkdataHi (n : Nat) : Nat := 0x1D002C + 0x400 * n
def canWkdataHi_VALUE (n : Nat) : RF := ⟨canWkdataHi n, 0, 32⟩
/-- `CAN.WKDMASK`, 16_can_fd.md. -/
def canWkdmaskLo (n : Nat) : Nat := 0x1D0030 + 0x400 * n
def canWkdmaskLo_VALUE (n : Nat) : RF := ⟨canWkdmaskLo n, 0, 32⟩
/-- `CAN.WKDMASK`, 16_can_fd.md. -/
def canWkdmaskHi (n : Nat) : Nat := 0x1D0034 + 0x400 * n
def canWkdmaskHi_VALUE (n : Nat) : RF := ⟨canWkdmaskHi n, 0, 32⟩
/-- `CAN.STAT`, 16_can_fd.md. -/
def canStat (n : Nat) : Nat := 0x1D0038 + 0x400 * n
def canStat_ERRSTATE (n : Nat) : RF := ⟨canStat n, 30, 2⟩
def canStat_MODE_NOW (n : Nat) : RF := ⟨canStat n, 28, 2⟩
def canStat_STUCK_TX (n : Nat) : RF := ⟨canStat n, 27, 1⟩
def canStat_RX_DOM (n : Nat) : RF := ⟨canStat n, 26, 1⟩
def canStat_TDC_ERR (n : Nat) : RF := ⟨canStat n, 25, 1⟩
def canStat_TEC (n : Nat) : RF := ⟨canStat n, 16, 8⟩
def canStat_REC (n : Nat) : RF := ⟨canStat n, 8, 8⟩
/-- `CAN.CNT`, 16_can_fd.md. -/
def canCnt (n : Nat) : Nat := 0x1D003C + 0x400 * n
def canCnt_RX_FRAMES (n : Nat) : RF := ⟨canCnt n, 16, 16⟩
def canCnt_ERRORS (n : Nat) : RF := ⟨canCnt n, 8, 8⟩
def canCnt_FILTERED (n : Nat) : RF := ⟨canCnt n, 0, 8⟩
/-- `CAN.TTCFG`, 16_can_fd.md. -/
def canTtcfg (n : Nat) : Nat := 0x1D0040 + 0x400 * n
def canTtcfg_ROLE (n : Nat) : RF := ⟨canTtcfg n, 30, 2⟩
def canTtcfg_NCYC_LOG2 (n : Nat) : RF := ⟨canTtcfg n, 27, 3⟩
def canTtcfg_REF_TMO (n : Nat) : RF := ⟨canTtcfg n, 16, 11⟩
def canTtcfg_CYC_LEN (n : Nat) : RF := ⟨canTtcfg n, 0, 16⟩
/-- `CAN.TTSTAT`, 16_can_fd.md. -/
def canTtstat (n : Nat) : Nat := 0x1D0044 + 0x400 * n
def canTtstat_RUN (n : Nat) : RF := ⟨canTtstat n, 31, 1⟩
def canTtstat_SYNC (n : Nat) : RF := ⟨canTtstat n, 30, 1⟩
def canTtstat_CYCLE (n : Nat) : RF := ⟨canTtstat n, 24, 6⟩
def canTtstat_MISSED (n : Nat) : RF := ⟨canTtstat n, 0, 16⟩
/-- `CAN.FLT`, 16_can_fd.md. -/
def canFltA (n : Nat) (i : Nat) : Nat := 0x1D0080 + 0x400 * n + 0x8 * i
def canFltA_ACT (n : Nat) (i : Nat) : RF := ⟨canFltA n i, 30, 2⟩
def canFltA_IDE (n : Nat) (i : Nat) : RF := ⟨canFltA n i, 29, 1⟩
def canFltA_FID (n : Nat) (i : Nat) : RF := ⟨canFltA n i, 0, 29⟩
/-- `CAN.FLT`, 16_can_fd.md. -/
def canFltB (n : Nat) (i : Nat) : Nat := 0x1D0084 + 0x400 * n + 0x8 * i
def canFltB_MASK (n : Nat) (i : Nat) : RF := ⟨canFltB n i, 0, 29⟩
/-- `CAN.TTW`, 16_can_fd.md. -/
def canTtwA (n : Nat) (i : Nat) : Nat := 0x1D0200 + 0x400 * n + 0x8 * i
def canTtwA_EN (n : Nat) (i : Nat) : RF := ⟨canTtwA n i, 31, 1⟩
def canTtwA_TYPE (n : Nat) (i : Nat) : RF := ⟨canTtwA n i, 30, 1⟩
def canTtwA_SLOT (n : Nat) (i : Nat) : RF := ⟨canTtwA n i, 26, 4⟩
def canTtwA_REP_LOG2 (n : Nat) (i : Nat) : RF := ⟨canTtwA n i, 23, 3⟩
def canTtwA_COFS (n : Nat) (i : Nat) : RF := ⟨canTtwA n i, 16, 6⟩
def canTtwA_START (n : Nat) (i : Nat) : RF := ⟨canTtwA n i, 0, 16⟩
/-- `CAN.TTW`, 16_can_fd.md. -/
def canTtwB (n : Nat) (i : Nat) : Nat := 0x1D0204 + 0x400 * n + 0x8 * i
def canTtwB_LEN (n : Nat) (i : Nat) : RF := ⟨canTtwB n i, 0, 16⟩
/-- `CAN.SLOT`, 16_can_fd.md. -/
def canSlot (n : Nat) (i : Nat) : Nat := 0x1D0300 + 0x400 * n + 0x4 * i
def canSlot_SSTATE (n : Nat) (i : Nat) : RF := ⟨canSlot n i, 30, 2⟩
def canSlot_CANCEL_PEND (n : Nat) (i : Nat) : RF := ⟨canSlot n i, 29, 1⟩
def canSlot_TAG (n : Nat) (i : Nat) : RF := ⟨canSlot n i, 0, 16⟩
/-- `SWARD.NODE`, 17_sward_sheaf.md. -/
def swardNode : Nat := 0x1B0000
def swardNode_ROOT : RF := ⟨swardNode, 31, 1⟩
def swardNode_NODE : RF := ⟨swardNode, 0, 18⟩
/-- `SWARD.FTSTAT`, 17_sward_sheaf.md. -/
def swardFtstat : Nat := 0x1B0004
def swardFtstat_FT_LOCK : RF := ⟨swardFtstat, 31, 1⟩
def swardFtstat_UPPORT : RF := ⟨swardFtstat, 28, 3⟩
def swardFtstat_HOPS : RF := ⟨swardFtstat, 24, 4⟩
def swardFtstat_OFFSET : RF := ⟨swardFtstat, 0, 16⟩
/-- `SWARD.FT`, 17_sward_sheaf.md. -/
def swardFtLo : Nat := 0x1B0008
def swardFtLo_VALUE : RF := ⟨swardFtLo, 0, 32⟩
/-- `SWARD.FT`, 17_sward_sheaf.md. -/
def swardFtHi : Nat := 0x1B000C
def swardFtHi_VALUE : RF := ⟨swardFtHi, 0, 32⟩
/-- `SWARD.EPOCH`, 17_sward_sheaf.md. -/
def swardEpoch : Nat := 0x1B0010
def swardEpoch_EPOCH : RF := ⟨swardEpoch, 0, 32⟩
/-- `SWARD.RSTAT`, 17_sward_sheaf.md. -/
def swardRstat : Nat := 0x1B0014
def swardRstat_IN_FORCE : RF := ⟨swardRstat, 16, 16⟩
def swardRstat_STAGED : RF := ⟨swardRstat, 0, 16⟩
/-- `SWARD.INK`, 17_sward_sheaf.md. -/
def swardInk : Nat := 0x1B0018
def swardInk_INK_DST : RF := ⟨swardInk, 0, 18⟩
/-- `SWARD.HRXHEAD`, 17_sward_sheaf.md. -/
def swardHrxhead : Nat := 0x1B001C
def swardHrxhead_HRX_DROPS : RF := ⟨swardHrxhead, 16, 16⟩
def swardHrxhead_HEAD : RF := ⟨swardHrxhead, 0, 16⟩
/-- `SWARD.HRXTAIL`, 17_sward_sheaf.md. -/
def swardHrxtail : Nat := 0x1B0020
def swardHrxtail_TAIL : RF := ⟨swardHrxtail, 0, 16⟩
/-- `SWARD.EVFWD`, 17_sward_sheaf.md. -/
def swardEvfwd (n : Nat) : Nat := 0x1B0040 + 0x4 * n
def swardEvfwd_EN (n : Nat) : RF := ⟨swardEvfwd n, 31, 1⟩
def swardEvfwd_DST (n : Nat) : RF := ⟨swardEvfwd n, 12, 18⟩
def swardEvfwd_EVENT (n : Nat) : RF := ⟨swardEvfwd n, 0, 8⟩
/-- `SWARD.PSTAT`, 17_sward_sheaf.md. -/
def swardPstat (n : Nat) : Nat := 0x1B0100 + 0x40 * n
def swardPstat_STATE (n : Nat) : RF := ⟨swardPstat n, 30, 2⟩
def swardPstat_NHOPS (n : Nat) : RF := ⟨swardPstat n, 26, 4⟩
def swardPstat_NEIGH (n : Nat) : RF := ⟨swardPstat n, 8, 18⟩
def swardPstat_NPORT (n : Nat) : RF := ⟨swardPstat n, 6, 2⟩
/-- `SWARD.RES0`, 17_sward_sheaf.md. -/
def swardRes0 (n : Nat) : Nat := 0x1B0104 + 0x40 * n
def swardRes0_RES (n : Nat) : RF := ⟨swardRes0 n, 0, 19⟩
/-- `SWARD.RES1`, 17_sward_sheaf.md. -/
def swardRes1 (n : Nat) : Nat := 0x1B0108 + 0x40 * n
def swardRes1_RES (n : Nat) : RF := ⟨swardRes1 n, 0, 19⟩
/-- `SWARD.RES2`, 17_sward_sheaf.md. -/
def swardRes2 (n : Nat) : Nat := 0x1B010C + 0x40 * n
def swardRes2_RES (n : Nat) : RF := ⟨swardRes2 n, 0, 19⟩
/-- `SWARD.CRED`, 17_sward_sheaf.md. -/
def swardCred (n : Nat) : Nat := 0x1B0110 + 0x40 * n
def swardCred_C3 (n : Nat) : RF := ⟨swardCred n, 16, 16⟩
def swardCred_C2 (n : Nat) : RF := ⟨swardCred n, 0, 16⟩
/-- `SWARD.DELAY`, 17_sward_sheaf.md. -/
def swardDelay (n : Nat) : Nat := 0x1B0114 + 0x40 * n
def swardDelay_DELAY (n : Nat) : RF := ⟨swardDelay n, 0, 32⟩
/-- `SWARD.CNT`, 17_sward_sheaf.md. -/
def swardCnt (n : Nat) : Nat := 0x1B0118 + 0x40 * n
def swardCnt_SYMERR (n : Nat) : RF := ⟨swardCnt n, 16, 16⟩
def swardCnt_ABORTS (n : Nat) : RF := ⟨swardCnt n, 0, 16⟩
/-- `SWARD.DROPS`, 17_sward_sheaf.md. -/
def swardDrops (n : Nat) : Nat := 0x1B011C + 0x40 * n
def swardDrops_D0 (n : Nat) : RF := ⟨swardDrops n, 24, 8⟩
def swardDrops_D1 (n : Nat) : RF := ⟨swardDrops n, 16, 8⟩
def swardDrops_D2 (n : Nat) : RF := ⟨swardDrops n, 8, 8⟩
def swardDrops_D3 (n : Nat) : RF := ⟨swardDrops n, 0, 8⟩
/-- `SWARD.FRAMES`, 17_sward_sheaf.md. -/
def swardFrames (n : Nat) : Nat := 0x1B0120 + 0x40 * n
def swardFrames_FRAMES (n : Nat) : RF := ⟨swardFrames n, 0, 32⟩
/-- `SWARD.RTE`, 17_sward_sheaf.md. -/
def swardRte (n : Nat) : Nat := 0x1B1000 + 0x4 * n
def swardRte_VALID (n : Nat) : RF := ⟨swardRte n, 31, 1⟩
def swardRte_PORTS (n : Nat) : RF := ⟨swardRte n, 24, 5⟩
def swardRte_PLEN (n : Nat) : RF := ⟨swardRte n, 18, 5⟩
def swardRte_ADDR (n : Nat) : RF := ⟨swardRte n, 0, 18⟩
/-- `SHEAF.CFG`, 17_sward_sheaf.md. -/
def sheafCfg : Nat := 0x1B8000
def sheafCfg_ROLE : RF := ⟨sheafCfg, 30, 2⟩
def sheafCfg_SLOT : RF := ⟨sheafCfg, 26, 4⟩
def sheafCfg_BASE : RF := ⟨sheafCfg, 0, 18⟩
/-- `SHEAF.STAT`, 17_sward_sheaf.md. -/
def sheafStat : Nat := 0x1B8004
def sheafStat_STATE : RF := ⟨sheafStat, 28, 4⟩
def sheafStat_LEAD : RF := ⟨sheafStat, 27, 1⟩
def sheafStat_PEER_LEAD : RF := ⟨sheafStat, 26, 1⟩
def sheafStat_MIRROR_OK : RF := ⟨sheafStat, 25, 1⟩
def sheafStat_MEMBERS : RF := ⟨sheafStat, 0, 16⟩
/-- `SHEAF.MASTER`, 17_sward_sheaf.md. -/
def sheafMaster : Nat := 0x1B8008
def sheafMaster_MASTER : RF := ⟨sheafMaster, 0, 18⟩
/-- `SHEAF.ALIGN`, 17_sward_sheaf.md. -/
def sheafAlign : Nat := 0x1B800C
def sheafAlign_ALIGNED : RF := ⟨sheafAlign, 0, 8⟩
/-- `SHEAF.CNT`, 17_sward_sheaf.md. -/
def sheafCnt : Nat := 0x1B8010
def sheafCnt_MIRROR_MISS : RF := ⟨sheafCnt, 16, 16⟩
def sheafCnt_TAKEOVERS : RF := ⟨sheafCnt, 8, 8⟩
def sheafCnt_DEPARTS : RF := ⟨sheafCnt, 0, 8⟩
/-- `SHEAF.TAKEDT`, 17_sward_sheaf.md. -/
def sheafTakedtLo : Nat := 0x1B8018
def sheafTakedtLo_VALUE : RF := ⟨sheafTakedtLo, 0, 32⟩
/-- `SHEAF.TAKEDT`, 17_sward_sheaf.md. -/
def sheafTakedtHi : Nat := 0x1B801C
def sheafTakedtHi_VALUE : RF := ⟨sheafTakedtHi, 0, 32⟩
/-- `EVT.STAT`, 18_events.md. -/
def evtStat (n : Nat) : Nat := 0x020000 + 0x4 * n
def evtStat_SEEN (n : Nat) : RF := ⟨evtStat n, 0, 32⟩
/-- `EVT.IRQCTRL`, 18_events.md. -/
def evtIrqctrl (n : Nat) : Nat := 0x020040 + 0x4 * n
def evtIrqctrl_ASSERTED (n : Nat) : RF := ⟨evtIrqctrl n, 31, 1⟩
def evtIrqctrl_PEND (n : Nat) : RF := ⟨evtIrqctrl n, 24, 1⟩
def evtIrqctrl_SRC (n : Nat) : RF := ⟨evtIrqctrl n, 16, 8⟩
def evtIrqctrl_MINPRIO (n : Nat) : RF := ⟨evtIrqctrl n, 0, 2⟩
/-- `EVT.CNT`, 18_events.md. -/
def evtCnt : Nat := 0x020050
def evtCnt_RECORDS : RF := ⟨evtCnt, 16, 16⟩
def evtCnt_SUPPRESSED : RF := ⟨evtCnt, 0, 16⟩
/-- `EVT.TEST`, 18_events.md. -/
def evtTest : Nat := 0x020054
def evtTest_GO : RF := ⟨evtTest, 31, 1⟩
def evtTest_EVENT : RF := ⟨evtTest, 0, 8⟩
/-- `EVT.CFG`, 18_events.md. -/
def evtCfg (n : Nat) : Nat := 0x020400 + 0x4 * n
def evtCfg_RINGS (n : Nat) : RF := ⟨evtCfg n, 28, 4⟩
def evtCfg_IRQ (n : Nat) : RF := ⟨evtCfg n, 24, 4⟩
def evtCfg_PRIO (n : Nat) : RF := ⟨evtCfg n, 22, 2⟩
def evtCfg_HOLD (n : Nat) : RF := ⟨evtCfg n, 16, 4⟩
/-- `NIB.WFCFG`, 07_nib_pwm.md. -/
def nibWfcfg (n : Nat) : Nat := 0x091000 + 0x4 * n
def nibWfcfg_EN (n : Nat) : RF := ⟨nibWfcfg n, 31, 1⟩
def nibWfcfg_FILT (n : Nat) : RF := ⟨nibWfcfg n, 0, 4⟩
/-- `NIB.GFCFG`, 07_nib_pwm.md. -/
def nibGfcfg (n : Nat) : Nat := 0x091060 + 0x4 * n
def nibGfcfg_EN (n : Nat) : RF := ⟨nibGfcfg n, 31, 1⟩
def nibGfcfg_GMASK (n : Nat) : RF := ⟨nibGfcfg n, 16, 8⟩
def nibGfcfg_FILT (n : Nat) : RF := ⟨nibGfcfg n, 0, 4⟩

end R

end Sys2Proof.Machine
end

