-- ==== Sys2Proof/Machine/RegTable.lean ====
section
/-! DEFINITION. The access table of every register of spec/ (R11): which bits of a register are RW, W1C, RS, WO, RK and RL,
and its reset word. Generated from the register tables of the section files; an address the table does not list is unimplemented (R89). -/

namespace Sys2Proof.Machine

/-- One register or array of registers: address `base + st1 * i + st2 * j` for `i < n1`, `j < n2`, its reset word and its bits by access code (R11). -/
structure RegRow where
  base : Nat
  st1 : Nat
  n1 : Nat
  st2 : Nat
  n2 : Nat
  reset : Nat
  rw : Nat
  w1c : Nat
  rs : Nat
  wo : Nat
  rk : Nat
  rl : Bool
deriving DecidableEq, Repr

/-- Rows of the registers at 0x00_0000. -/
def regRows00 : List RegRow := [
  ⟨0x000010, 0x0, 1, 0x0, 1, 0x0, 0x0, 0x0, 0x0, 0x0, 0x0, false⟩ /- SYS.RSTCAUSE -/,
  ⟨0x000014, 0x0, 1, 0x0, 1, 0x0, 0x0, 0x0, 0x0, 0x0, 0x0, false⟩ /- SYS.STRAP -/,
  ⟨0x000018, 0x0, 1, 0x0, 1, 0x0, 0x0, 0x0, 0x0, 0x0, 0x0, false⟩ /- SYS.READY -/]

/-- Rows of the registers at 0x01_0000. -/
def regRows01 : List RegRow := [
  ⟨0x010000, 0x0, 1, 0x0, 1, 0x7, 0xF, 0x0, 0x0, 0x0, 0x0, false⟩ /- CLK.CTRL -/,
  ⟨0x010004, 0x0, 1, 0x0, 1, 0x2, 0x3, 0x0, 0x0, 0x0, 0x0, false⟩ /- CLK.SEL -/,
  ⟨0x010008, 0x0, 1, 0x0, 1, 0x2, 0x0, 0xC000, 0x0, 0x0, 0x0, false⟩ /- CLK.STAT -/,
  ⟨0x01000C, 0x0, 1, 0x0, 1, 0x0, 0x0, 0x0, 0x0, 0x0, 0x0, false⟩ /- CLK.FAILS -/,
  ⟨0x010010, 0x0, 1, 0x0, 1, 0x0, 0xC0003FFF, 0x0, 0x0, 0x0, 0x0, false⟩ /- CLK.RCTRIM -/,
  ⟨0x010014, 0x0, 1, 0x0, 1, 0x0, 0x0, 0x0, 0x0, 0x0, 0x0, false⟩ /- CLK.RCERR -/,
  ⟨0x010018, 0x0, 1, 0x0, 1, 0x7FF3F, 0x1F7FF3E, 0x0, 0x0, 0x0, 0x0, false⟩ /- CLK.GATE -/,
  ⟨0x010020, 0x0, 1, 0x0, 1, 0x0, 0x0, 0x0, 0x0, 0x0, 0x0, true⟩ /- CLK.DT -/,
  ⟨0x010024, 0x0, 1, 0x0, 1, 0x0, 0x0, 0x0, 0x0, 0x0, 0x0, true⟩ /- CLK.DT -/]

/-- Rows of the registers at 0x02_0000. -/
def regRows02 : List RegRow := [
  ⟨0x020000, 0x4, 8, 0x0, 1, 0x0, 0x0, 0xFFFFFFFF, 0x0, 0x0, 0x0, false⟩ /- EVT.STAT -/,
  ⟨0x020040, 0x4, 4, 0x0, 1, 0x0, 0x3, 0x0, 0x0, 0x0, 0x0, false⟩ /- EVT.IRQCTRL -/,
  ⟨0x020050, 0x0, 1, 0x0, 1, 0x0, 0x0, 0x0, 0x0, 0x0, 0x0, false⟩ /- EVT.CNT -/,
  ⟨0x020054, 0x0, 1, 0x0, 1, 0x0, 0x0, 0x0, 0x0, 0x800000FF, 0x0, false⟩ /- EVT.TEST -/,
  ⟨0x020400, 0x4, 256, 0x0, 1, 0x10000000, 0xFFCF0000, 0x0, 0x0, 0x0, 0x0, false⟩ /- EVT.CFG -/]

/-- Rows of the registers at 0x03_0000. -/
def regRows03 : List RegRow := [
  ⟨0x030000, 0x4, 1024, 0x0, 1, 0x0, 0x0, 0x0, 0x0, 0x0, 0xFFFFFFFF, false⟩ /- KEEP.WORD -/,
  ⟨0x031000, 0x4, 1024, 0x0, 1, 0x0, 0x0, 0x0, 0x0, 0x0, 0x0, false⟩ /- KEEP.WEAR -/,
  ⟨0x032000, 0x0, 1, 0x0, 1, 0x0, 0x0, 0x6, 0x0, 0x0, 0x0, false⟩ /- KEEP.STAT -/]

/-- Rows of the registers at 0x04_0000. -/
def regRows04 : List RegRow := [
  ⟨0x040000, 0x0, 1, 0x0, 1, 0x0, 0x0, 0x0, 0x0, 0x0, 0x0, false⟩ /- CFG.STAT -/,
  ⟨0x040004, 0x0, 1, 0x0, 1, 0x0, 0x0, 0x0, 0x0, 0x0, 0x0, false⟩ /- CFG.GEN -/,
  ⟨0x040008, 0x0, 1, 0x0, 1, 0x0, 0x0, 0x0, 0x0, 0x0, 0x0, false⟩ /- CFG.FAULT -/,
  ⟨0x040100, 0x0, 1, 0x0, 1, 0x0, 0x0, 0x0, 0x0, 0x0, 0x0, false⟩ /- FW.STAT -/,
  ⟨0x040104, 0x4, 2, 0x0, 1, 0x0, 0x0, 0x0, 0x0, 0x0, 0x0, false⟩ /- FW.VER -/,
  ⟨0x04010C, 0x0, 1, 0x0, 1, 0x0, 0x0, 0x0, 0x0, 0x0, 0x0, false⟩ /- FW.STAGE -/,
  ⟨0x040110, 0x0, 1, 0x0, 1, 0x0, 0x0, 0x0, 0x0, 0x0, 0x0, false⟩ /- FW.TRIAL -/]

/-- Rows of the registers at 0x05_0000. -/
def regRows05 : List RegRow := [
  ⟨0x050000, 0x4, 49152, 0x0, 1, 0x0, 0xFFFFFFFF, 0x0, 0x0, 0x0, 0x0, false⟩ /- CFG.STAGEWIN -/]

/-- Rows of the registers at 0x08_0000. -/
def regRows08 : List RegRow := [
  ⟨0x080000, 0x100, 72, 0x0, 1, 0xF805F00, 0xFFF33F00, 0x0, 0xCC000, 0x0, 0x0, false⟩ /- NIB.CFG -/,
  ⟨0x080004, 0x100, 72, 0x0, 1, 0x0, 0x0, 0x0, 0x1FFFF, 0x0, 0x0, false⟩ /- NIB.DTR -/,
  ⟨0x080008, 0x100, 72, 0x0, 1, 0x0, 0x0, 0x0, 0x1FFFF, 0x0, 0x0, false⟩ /- NIB.DTF -/,
  ⟨0x08000C, 0x100, 72, 0x0, 1, 0x320, 0x0, 0x0, 0x3FFFF, 0x0, 0x0, false⟩ /- NIB.MINP -/,
  ⟨0x080010, 0x100, 72, 0x0, 1, 0x320, 0x0, 0x0, 0x1FFFFFFF, 0x0, 0x0, false⟩ /- NIB.CHOP -/,
  ⟨0x080014, 0x100, 72, 0x0, 1, 0x800, 0xFFFFFF00, 0x0, 0x0, 0x0, 0x0, false⟩ /- NIB.ECFG -/,
  ⟨0x080018, 0x100, 72, 0x0, 1, 0x7D00, 0x3FFFF, 0x0, 0x0, 0x0, 0x0, false⟩ /- NIB.EWIN -/,
  ⟨0x08001C, 0x100, 72, 0x0, 1, 0x3E80, 0x3FFFF, 0x0, 0x0, 0x0, 0x0, false⟩ /- NIB.CLIM -/,
  ⟨0x080020, 0x100, 72, 0x0, 1, 0x0, 0x1FFFFFFF, 0x0, 0x0, 0x0, 0x0, false⟩ /- NIB.SON -/,
  ⟨0x080024, 0x100, 72, 0x0, 1, 0x0, 0x1FFFFFFF, 0x0, 0x0, 0x0, 0x0, false⟩ /- NIB.SOFF -/,
  ⟨0x080028, 0x100, 72, 0x0, 1, 0x0, 0x0, 0x0, 0x0, 0x0, 0x0, false⟩ /- NIB.AON -/,
  ⟨0x08002C, 0x100, 72, 0x0, 1, 0x0, 0x0, 0x0, 0x0, 0x0, 0x0, false⟩ /- NIB.AOFF -/,
  ⟨0x080030, 0x100, 72, 0x0, 1, 0x0, 0x0, 0x0, 0x0, 0x0, 0x0, false⟩ /- NIB.CORR_R -/,
  ⟨0x080034, 0x100, 72, 0x0, 1, 0x0, 0x0, 0x0, 0x0, 0x0, 0x0, false⟩ /- NIB.CORR_F -/,
  ⟨0x080038, 0x100, 72, 0x0, 1, 0x0, 0x0, 0x0, 0x0, 0x0, 0x0, false⟩ /- NIB.EERR_R -/,
  ⟨0x08003C, 0x100, 72, 0x0, 1, 0x0, 0x0, 0x0, 0x0, 0x0, 0x0, false⟩ /- NIB.EERR_F -/,
  ⟨0x080040, 0x100, 72, 0x0, 1, 0x0, 0x0, 0x0, 0x0, 0x0, 0x0, false⟩ /- NIB.ACC -/,
  ⟨0x080044, 0x100, 72, 0x0, 1, 0x1, 0x0, 0xE, 0x0, 0x0, 0x0, false⟩ /- NIB.NSTAT -/,
  ⟨0x080048, 0x100, 72, 0x0, 1, 0x0, 0x0, 0x0, 0x0, 0x0, 0x0, false⟩ /- NIB.NCNT -/]

/-- Rows of the registers at 0x09_0000. -/
def regRows09 : List RegRow := [
  ⟨0x090000, 0x40, 8, 0x0, 1, 0x0, 0xE0000000, 0x0, 0x1FFFFFFF, 0x0, 0x0, false⟩ /- NIB.GPER -/,
  ⟨0x090004, 0x40, 8, 0x0, 1, 0x0, 0x1FFFFFFF, 0x0, 0x0, 0x0, 0x0, false⟩ /- NIB.GPHASE -/,
  ⟨0x090008, 0x40, 8, 0x0, 1, 0x0, 0x0, 0x0, 0x0, 0x0, 0x0, false⟩ /- NIB.GSTATE -/,
  ⟨0x09000C, 0x40, 8, 0x0, 1, 0x0, 0x0, 0x0, 0x0, 0x0, 0x0, false⟩ /- NIB.GSEQ -/,
  ⟨0x090010, 0x40, 8, 0x0, 1, 0x0, 0x0, 0x0, 0x0, 0x80000000, 0x0, false⟩ /- NIB.GCTRL -/,
  ⟨0x090014, 0x40, 8, 0x0, 1, 0x0, 0x0, 0x0, 0xFFFFFFFF, 0x0, 0x0, false⟩ /- NIB.GADJ -/,
  ⟨0x090018, 0x40, 8, 0x0, 1, 0x0, 0x0, 0x0, 0x0, 0x0, 0x0, false⟩ /- NIB.GCNT -/,
  ⟨0x091080, 0x0, 1, 0x0, 1, 0x0, 0x0, 0x0, 0x0, 0x0, 0x0, false⟩ /- NIB.FLTSTAT -/,
  ⟨0x091084, 0x0, 1, 0x0, 1, 0x0, 0x0, 0xFFFFFFF, 0x0, 0x0, 0x0, false⟩ /- NIB.FLTSEEN -/,
  ⟨0x091100, 0x0, 1, 0x0, 1, 0x0, 0x0, 0x0, 0x0, 0x0, 0x0, false⟩ /- NIB.GLOB -/,
  ⟨0x091200, 0x0, 1, 0x0, 1, 0x100400, 0xFFFFFFFF, 0x0, 0x0, 0x0, 0x0, false⟩ /- NIB.SYNC -/,
  ⟨0x091204, 0x0, 1, 0x0, 1, 0x0, 0x7FFFFFFF, 0x0, 0x0, 0x0, 0x0, false⟩ /- NIB.SYNCSTAT -/,
  ⟨0x092000, 0x10, 24, 0x0, 1, 0x0, 0xFFFFFFFF, 0x0, 0x0, 0x0, 0x0, false⟩ /- NIB.EDGE -/,
  ⟨0x092004, 0x10, 24, 0x0, 1, 0x0, 0x0, 0x0, 0x0, 0x0, 0x0, false⟩ /- NIB.STAT -/,
  ⟨0x092008, 0x10, 24, 0x0, 1, 0x0, 0x0, 0x0, 0x0, 0x0, 0x0, false⟩ /- NIB.SETINFO -/,
  ⟨0x09200C, 0x10, 24, 0x0, 1, 0x0, 0x0, 0x0, 0x0, 0x0, 0x0, false⟩ /- NIB.SETCNT -/,
  ⟨0x091000, 0x4, 24, 0x0, 1, 0x80000000, 0x8000000F, 0x0, 0x0, 0x0, 0x0, false⟩ /- NIB.WFCFG -/,
  ⟨0x091060, 0x4, 4, 0x0, 1, 0x80000000, 0x80FF000F, 0x0, 0x0, 0x0, 0x0, false⟩ /- NIB.GFCFG -/]

/-- Rows of the registers at 0x0A_0000. -/
def regRows0A : List RegRow := [
  ⟨0x0A0000, 0x4, 12, 0x0, 1, 0x190000, 0x807F007F, 0x0, 0x0, 0x0, 0x0, false⟩ /- SENSE.MCLK -/,
  ⟨0x0A0040, 0x0, 1, 0x0, 1, 0x0, 0x700007F, 0x0, 0x0, 0x80000000, 0x0, false⟩ /- SENSE.CAL -/,
  ⟨0x0A0044, 0x0, 1, 0x0, 1, 0x0, 0x0, 0x0, 0x0, 0x0, 0x0, false⟩ /- SENSE.CALRES -/,
  ⟨0x0A0048, 0x0, 1, 0x0, 1, 0x0, 0x0, 0x0, 0x0, 0x0, 0x0, false⟩ /- SENSE.CALEYE -/,
  ⟨0x0A004C, 0x0, 1, 0x0, 1, 0x0, 0x0, 0x0, 0x0, 0x0, 0x0, false⟩ /- SENSE.CALOFS -/,
  ⟨0x0A0050, 0x4, 4, 0x0, 1, 0x0, 0x0, 0x0, 0x0, 0x0, 0x0, false⟩ /- SENSE.LOST -/,
  ⟨0x0A0100, 0x20, 128, 0x0, 1, 0x20040, 0xFFF201FF, 0x0, 0x0, 0x0, 0x0, false⟩ /- SENSE.CFG -/,
  ⟨0x0A0104, 0x20, 128, 0x0, 1, 0x411040C0, 0x0, 0x0, 0xCF7FFFFF, 0x0, 0x0, false⟩ /- SENSE.OC -/,
  ⟨0x0A0108, 0x20, 128, 0x0, 1, 0x40, 0xFF, 0x0, 0x0, 0x0, 0x0, false⟩ /- SENSE.LOSS -/,
  ⟨0x0A010C, 0x20, 128, 0x0, 1, 0x0, 0x0, 0x0, 0x0, 0x0, 0x0, false⟩ /- SENSE.BIND -/,
  ⟨0x0A0110, 0x20, 128, 0x0, 1, 0x0, 0x0, 0xE, 0x0, 0x0, 0x0, false⟩ /- SENSE.STAT -/,
  ⟨0x0A0114, 0x20, 128, 0x0, 1, 0x7FC00000, 0x0, 0x0, 0x0, 0x0, 0x0, false⟩ /- SENSE.MEAN_A -/,
  ⟨0x0A0118, 0x20, 128, 0x0, 1, 0x7FC00000, 0x0, 0x0, 0x0, 0x0, 0x0, false⟩ /- SENSE.MEAN_B -/,
  ⟨0x0A011C, 0x20, 128, 0x0, 1, 0x7FC00000, 0x0, 0x0, 0x0, 0x0, 0x0, false⟩ /- SENSE.POINT -/,
  ⟨0x0A2000, 0x10, 128, 0x0, 1, 0x3F800000, 0xFFFFFFFF, 0x0, 0x0, 0x0, 0x0, false⟩ /- SENSE.CALSH.GAIN -/,
  ⟨0x0A3000, 0x10, 128, 0x0, 1, 0x3F800000, 0x0, 0x0, 0x0, 0x0, 0x0, false⟩ /- SENSE.CALACT.GAIN -/,
  ⟨0x0A2004, 0x10, 128, 0x0, 1, 0x0, 0xFFFFFFFF, 0x0, 0x0, 0x0, 0x0, false⟩ /- SENSE.CALSH.OFFSET -/,
  ⟨0x0A3004, 0x10, 128, 0x0, 1, 0x0, 0x0, 0x0, 0x0, 0x0, 0x0, false⟩ /- SENSE.CALACT.OFFSET -/,
  ⟨0x0A2008, 0x10, 128, 0x0, 1, 0x0, 0x3FFF, 0x0, 0x0, 0x0, 0x0, false⟩ /- SENSE.CALSH.DELAY -/,
  ⟨0x0A3008, 0x10, 128, 0x0, 1, 0x0, 0x0, 0x0, 0x0, 0x0, 0x0, false⟩ /- SENSE.CALACT.DELAY -/]

/-- Rows of the registers at 0x0B_0000. -/
def regRows0B : List RegRow := [
  ⟨0x0B0000, 0x40, 16, 0x0, 1, 0x30000, 0xFFFFE000, 0x0, 0x0, 0x0, 0x0, false⟩ /- FDBK.CFG -/,
  ⟨0x0B0004, 0x40, 16, 0x0, 1, 0x1, 0xFFFFFFFF, 0x0, 0x0, 0x0, 0x0, false⟩ /- FDBK.UPT -/,
  ⟨0x0B0008, 0x40, 16, 0x0, 1, 0x0, 0xFFFF, 0x0, 0x0, 0x0, 0x0, false⟩ /- FDBK.DLY -/,
  ⟨0x0B000C, 0x40, 16, 0x0, 1, 0x32190003, 0xFF3FE0FF, 0x0, 0x0, 0x0, 0x0, false⟩ /- FDBK.SSI -/,
  ⟨0x0B0010, 0x40, 16, 0x0, 1, 0x8000000, 0xFFFFFFFF, 0x0, 0x0, 0x0, 0x0, false⟩ /- FDBK.SSIT -/,
  ⟨0x0B0014, 0x40, 16, 0x0, 1, 0x2000F000, 0xFFFFFFFF, 0x0, 0x0, 0x0, 0x0, false⟩ /- FDBK.SC -/,
  ⟨0x0B0018, 0x40, 16, 0x0, 1, 0x0, 0xFFF, 0x0, 0x0, 0x0, 0x0, false⟩ /- FDBK.RPH -/,
  ⟨0x0B001C, 0x40, 16, 0x0, 1, 0x0, 0x0, 0x0, 0x0, 0xC0000000, 0x0, false⟩ /- FDBK.CTRL -/,
  ⟨0x0B0020, 0x40, 16, 0x0, 1, 0x0, 0x0, 0x0, 0x0, 0x0, 0x0, true⟩ /- FDBK.POS -/,
  ⟨0x0B0024, 0x40, 16, 0x0, 1, 0x0, 0x0, 0x0, 0x0, 0x0, 0x0, true⟩ /- FDBK.POS -/,
  ⟨0x0B0028, 0x40, 16, 0x0, 1, 0x0, 0x0, 0x0, 0x0, 0x0, 0x0, false⟩ /- FDBK.VEL -/,
  ⟨0x0B002C, 0x40, 16, 0x0, 1, 0x0, 0x0, 0x0, 0x0, 0x0, 0x0, false⟩ /- FDBK.TURN -/,
  ⟨0x0B0030, 0x40, 16, 0x0, 1, 0x0, 0x0, 0x1F800000, 0x0, 0x0, 0x0, false⟩ /- FDBK.STAT -/,
  ⟨0x0B0034, 0x40, 16, 0x0, 1, 0x0, 0x0, 0x0, 0x0, 0x0, 0x0, false⟩ /- FDBK.ZCNT -/,
  ⟨0x0B0038, 0x40, 16, 0x0, 1, 0x0, 0x0, 0x0, 0x0, 0x0, 0x0, false⟩ /- FDBK.ZDT -/,
  ⟨0x0B003C, 0x40, 16, 0x0, 1, 0x0, 0x0, 0x0, 0x0, 0x0, 0x0, false⟩ /- FDBK.CNT -/,
  ⟨0x0B0400, 0x4, 8, 0x0, 1, 0x10186A0, 0xFF03FFFF, 0x0, 0x0, 0x0, 0x0, false⟩ /- FDBK.EXC -/,
  ⟨0x0B1000, 0x80, 64, 0x0, 1, 0x8000000, 0xFFFFFE00, 0x0, 0x0, 0x0, 0x0, false⟩ /- LATCH.CFG -/,
  ⟨0x0B1004, 0x80, 64, 0x0, 1, 0x0, 0xC0FFC0FF, 0x0, 0x0, 0x0, 0x0, false⟩ /- LATCH.PSRC01 -/,
  ⟨0x0B1008, 0x80, 64, 0x0, 1, 0x0, 0xC0FFC0FF, 0x0, 0x0, 0x0, 0x0, false⟩ /- LATCH.PSRC23 -/,
  ⟨0x0B100C, 0x80, 64, 0x0, 1, 0x0, 0xFFFFFFFF, 0x0, 0x0, 0x0, 0x0, false⟩ /- LATCH.DLY -/,
  ⟨0x0B1010, 0x80, 64, 0x0, 1, 0x0, 0xFFFFFFFF, 0x0, 0x0, 0x0, 0x0, false⟩ /- LATCH.WSTART -/,
  ⟨0x0B1014, 0x80, 64, 0x0, 1, 0x0, 0xFFFFFFFF, 0x0, 0x0, 0x0, 0x0, false⟩ /- LATCH.WSTART -/,
  ⟨0x0B1018, 0x80, 64, 0x0, 1, 0x0, 0xFFFFFFFF, 0x0, 0x0, 0x0, 0x0, false⟩ /- LATCH.WEND -/,
  ⟨0x0B101C, 0x80, 64, 0x0, 1, 0x0, 0xFFFFFFFF, 0x0, 0x0, 0x0, 0x0, false⟩ /- LATCH.WEND -/,
  ⟨0x0B1020, 0x80, 64, 0x0, 1, 0x0, 0x0, 0x0, 0x0, 0xC0000000, 0x0, false⟩ /- LATCH.CTRL -/,
  ⟨0x0B1024, 0x80, 64, 0x0, 1, 0x0, 0x0, 0x0, 0x0, 0x0, 0x0, false⟩ /- LATCH.STAT -/,
  ⟨0x0B1040, 0x80, 64, 0x0, 1, 0x0, 0x0, 0x0, 0x0, 0x0, 0x0, false⟩ /- LATCH.RDT -/,
  ⟨0x0B1044, 0x80, 64, 0x0, 1, 0x0, 0x0, 0x0, 0x0, 0x0, 0x0, false⟩ /- LATCH.RDT -/,
  ⟨0x0B1048, 0x80, 64, 0x8, 4, 0x0, 0x0, 0x0, 0x0, 0x0, 0x0, false⟩ /- LATCH.RPOS -/,
  ⟨0x0B104C, 0x80, 64, 0x8, 4, 0x0, 0x0, 0x0, 0x0, 0x0, 0x0, false⟩ /- LATCH.RPOS -/]

/-- Rows of the registers at 0x0C_0000. -/
def regRows0C : List RegRow := [
  ⟨0x0C0000, 0x0, 1, 0x0, 1, 0x2580096, 0x0, 0x0, 0x0, 0x0, 0x0, false⟩ /- LOOP.ENV -/,
  ⟨0x0C0004, 0x0, 1, 0x0, 1, 0xA28, 0x0, 0x0, 0x0, 0x0, 0x0, false⟩ /- LOOP.FLOOR -/,
  ⟨0x0C0008, 0x0, 1, 0x0, 1, 0xC04099D, 0x0, 0x0, 0x0, 0x0, 0x0, false⟩ /- LOOP.CAP -/,
  ⟨0x0C000C, 0x0, 1, 0x0, 1, 0x0, 0x0, 0x0, 0x0, 0x0, 0x0, false⟩ /- LOOP.LOAD -/,
  ⟨0x0C0010, 0x0, 1, 0x0, 1, 0x0, 0x0, 0x0, 0x0, 0x0, 0x0, false⟩ /- LOOP.PACE -/,
  ⟨0x0C0014, 0x0, 1, 0x0, 1, 0x0, 0x0, 0x0, 0x0, 0x0, 0x0, false⟩ /- LOOP.SHED -/,
  ⟨0x0C0018, 0x0, 1, 0x0, 1, 0x0, 0x0, 0x0, 0x0, 0x3, 0x0, false⟩ /- LOOP.CTRL -/,
  ⟨0x0C001C, 0x0, 1, 0x0, 1, 0x0, 0x0, 0x0, 0x0, 0x0, 0x0, false⟩ /- LOOP.STAT -/,
  ⟨0x0C0020, 0x4, 8, 0x0, 1, 0x32, 0x0, 0x0, 0x0, 0x0, 0x0, false⟩ /- LOOP.WINDOW -/,
  ⟨0x0C0040, 0x4, 8, 0x0, 1, 0x0, 0x0, 0x0, 0x0, 0x0, 0x0, false⟩ /- LOOP.LATE -/,
  ⟨0x0C0060, 0x4, 8, 0x0, 1, 0x0, 0x0, 0x0, 0x0, 0x0, 0x0, false⟩ /- LOOP.USE -/,
  ⟨0x0C0400, 0x4, 256, 0x0, 1, 0x0, 0x0, 0x0, 0x0, 0x0, 0x0, false⟩ /- LOOP.DIR -/]

/-- Rows of the registers at 0x14_0000. -/
def regRows14 : List RegRow := [
  ⟨0x140000, 0x40, 64, 0x0, 1, 0x0, 0x0, 0x0, 0x0, 0x0, 0x0, false⟩ /- MOTION.AXINFO -/,
  ⟨0x140004, 0x40, 64, 0x0, 1, 0x0, 0x0, 0x0, 0x0, 0x0, 0x0, false⟩ /- MOTION.AXHOME -/,
  ⟨0x140008, 0x40, 64, 0x0, 1, 0x0, 0x0, 0x0, 0x0, 0x0, 0x0, true⟩ /- MOTION.XCMD -/,
  ⟨0x14000C, 0x40, 64, 0x0, 1, 0x0, 0x0, 0x0, 0x0, 0x0, 0x0, true⟩ /- MOTION.XCMD -/,
  ⟨0x140010, 0x40, 64, 0x0, 1, 0x0, 0x0, 0x0, 0x0, 0x0, 0x0, true⟩ /- MOTION.XACT -/,
  ⟨0x140014, 0x40, 64, 0x0, 1, 0x0, 0x0, 0x0, 0x0, 0x0, 0x0, true⟩ /- MOTION.XACT -/,
  ⟨0x140018, 0x40, 64, 0x0, 1, 0x0, 0x0, 0x0, 0x0, 0x0, 0x0, true⟩ /- MOTION.TARGET -/,
  ⟨0x14001C, 0x40, 64, 0x0, 1, 0x0, 0x0, 0x0, 0x0, 0x0, 0x0, true⟩ /- MOTION.TARGET -/,
  ⟨0x140020, 0x40, 64, 0x0, 1, 0x0, 0x0, 0x0, 0x0, 0x0, 0x0, false⟩ /- MOTION.VCMD -/,
  ⟨0x140024, 0x40, 64, 0x0, 1, 0x0, 0x0, 0x0, 0x0, 0x0, 0x0, false⟩ /- MOTION.VACT -/,
  ⟨0x140028, 0x40, 64, 0x0, 1, 0x0, 0x0, 0x0, 0x0, 0x0, 0x0, false⟩ /- MOTION.ACMD -/,
  ⟨0x14002C, 0x40, 64, 0x0, 1, 0x0, 0x0, 0x0, 0x0, 0x0, 0x0, false⟩ /- MOTION.FERR -/,
  ⟨0x140030, 0x40, 64, 0x0, 1, 0x0, 0x0, 0x0, 0x0, 0x0, 0x0, false⟩ /- MOTION.EFFORT -/,
  ⟨0x140034, 0x40, 64, 0x0, 1, 0x0, 0x0, 0x0, 0x0, 0x0, 0x0, false⟩ /- MOTION.DECEL -/,
  ⟨0x140038, 0x40, 64, 0x0, 1, 0x0, 0x0, 0x0, 0x0, 0x0, 0x0, false⟩ /- MOTION.AXCNT -/,
  ⟨0x141000, 0x40, 64, 0x0, 1, 0x0, 0x0, 0x0, 0x0, 0x0, 0x0, false⟩ /- MOTION.GINFO -/,
  ⟨0x141004, 0x40, 64, 0x0, 1, 0x0, 0x0, 0x0, 0x0, 0x0, 0x0, false⟩ /- MOTION.GNUM -/,
  ⟨0x141008, 0x40, 64, 0x0, 1, 0x0, 0x0, 0x0, 0x0, 0x0, 0x0, false⟩ /- MOTION.GDEN -/,
  ⟨0x14100C, 0x40, 64, 0x0, 1, 0x0, 0x0, 0x0, 0x0, 0x0, 0x0, false⟩ /- MOTION.GSIGMA -/,
  ⟨0x141018, 0x40, 64, 0x0, 1, 0x0, 0x0, 0x0, 0x0, 0x0, 0x0, false⟩ /- MOTION.GVF -/,
  ⟨0x14101C, 0x40, 64, 0x0, 1, 0x0, 0x0, 0x0, 0x0, 0x0, 0x0, false⟩ /- MOTION.GAF -/,
  ⟨0x141020, 0x40, 64, 0x0, 1, 0x0, 0x0, 0x0, 0x0, 0x0, 0x0, false⟩ /- MOTION.GREFF -/,
  ⟨0x141024, 0x40, 64, 0x0, 1, 0x0, 0x0, 0x0, 0x0, 0x0, 0x0, false⟩ /- MOTION.GMODF -/,
  ⟨0x141010, 0x40, 64, 0x0, 1, 0x0, 0x0, 0x0, 0x0, 0x0, 0x0, true⟩ /- MOTION.GXF -/,
  ⟨0x141014, 0x40, 64, 0x0, 1, 0x0, 0x0, 0x0, 0x0, 0x0, 0x0, true⟩ /- MOTION.GXF -/,
  ⟨0x141028, 0x40, 64, 0x0, 1, 0x0, 0x0, 0x0, 0x0, 0x0, 0x0, true⟩ /- MOTION.GXM -/,
  ⟨0x14102C, 0x40, 64, 0x0, 1, 0x0, 0x0, 0x0, 0x0, 0x0, 0x0, true⟩ /- MOTION.GXM -/,
  ⟨0x141030, 0x40, 64, 0x0, 1, 0x0, 0x0, 0x0, 0x0, 0x0, 0x0, false⟩ /- MOTION.GCNT -/,
  ⟨0x142000, 0x40, 16, 0x0, 1, 0x0, 0x0, 0x0, 0x0, 0x0, 0x0, false⟩ /- MOTION.SINFO -/,
  ⟨0x142004, 0x40, 16, 0x0, 1, 0x0, 0x0, 0x0, 0x0, 0x0, 0x0, false⟩ /- MOTION.STAG -/,
  ⟨0x142008, 0x40, 16, 0x0, 1, 0x3F800000, 0x0, 0x0, 0x0, 0x0, 0x0, false⟩ /- MOTION.SOVR -/,
  ⟨0x14200C, 0x40, 16, 0x0, 1, 0x0, 0x0, 0x0, 0x0, 0x0, 0x0, false⟩ /- MOTION.SVPATH -/,
  ⟨0x142010, 0x40, 16, 0x0, 1, 0x0, 0x0, 0x0, 0x0, 0x0, 0x0, false⟩ /- MOTION.SREM -/,
  ⟨0x142014, 0x40, 16, 0x0, 1, 0x0, 0x0, 0x0, 0x0, 0x0, 0x0, false⟩ /- MOTION.SDWELL -/,
  ⟨0x142018, 0x40, 16, 0x0, 1, 0x0, 0x0, 0x0, 0x0, 0x0, 0x0, false⟩ /- MOTION.SDONE -/,
  ⟨0x14201C, 0x40, 16, 0x0, 1, 0x0, 0x0, 0x0, 0x0, 0x0, 0x0, false⟩ /- MOTION.SCNT -/]

/-- Rows of the registers at 0x16_0000. -/
def regRows16 : List RegRow := [
  ⟨0x160000, 0x0, 1, 0x0, 1, 0x0, 0x3F, 0x0, 0x0, 0x0, 0x0, false⟩ /- MAP.SEL -/,
  ⟨0x160100, 0x4, 64, 0x0, 1, 0x0, 0x0, 0x0, 0x0, 0x0, 0x0, false⟩ /- MAP.DIR -/,
  ⟨0x164000, 0x0, 1, 0x0, 1, 0x0, 0x1F, 0x0, 0x0, 0x0, 0x0, false⟩ /- CAM.SEL -/,
  ⟨0x164100, 0x4, 32, 0x0, 1, 0x0, 0x0, 0x0, 0x0, 0x0, 0x0, false⟩ /- CAM.DIR -/,
  ⟨0x164200, 0x0, 1, 0x0, 1, 0x0, 0x0, 0x0, 0x0, 0x0, 0x0, false⟩ /- CAM.X0 -/,
  ⟨0x164204, 0x0, 1, 0x0, 1, 0x0, 0x0, 0x0, 0x0, 0x0, 0x0, false⟩ /- CAM.XSPAN -/,
  ⟨0x164208, 0x0, 1, 0x0, 1, 0x0, 0x0, 0x0, 0x0, 0x0, 0x0, false⟩ /- CAM.YRISE -/,
  ⟨0x16420C, 0x0, 1, 0x0, 1, 0x0, 0x0, 0x0, 0x0, 0x0, 0x0, false⟩ /- CAM.LOADST -/,
  ⟨0x166000, 0x4, 2048, 0x0, 1, 0x0, 0x0, 0x0, 0x0, 0x0, 0x0, false⟩ /- CAM.PT -/]

/-- Rows of the registers at 0x18_0000. -/
def regRows18 : List RegRow := [
  ⟨0x180000, 0x40, 4, 0x0, 1, 0x3E8, 0xFC00FFFF, 0x0, 0x0, 0x0, 0x0, false⟩ /- INK.SCFG -/,
  ⟨0x180004, 0x40, 4, 0x0, 1, 0x0, 0xFFFFFFFF, 0x0, 0x0, 0x0, 0x0, false⟩ /- INK.SMEM -/,
  ⟨0x180008, 0x40, 4, 0x0, 1, 0x0, 0xFFFFFFFF, 0x0, 0x0, 0x0, 0x0, false⟩ /- INK.PRE -/,
  ⟨0x18000C, 0x40, 4, 0x0, 1, 0x0, 0xFFFFFFFF, 0x0, 0x0, 0x0, 0x0, false⟩ /- INK.POST -/,
  ⟨0x180010, 0x40, 4, 0x0, 1, 0x0, 0xFFFFFFFF, 0x0, 0x0, 0x0, 0x0, false⟩ /- INK.TRIG -/,
  ⟨0x180014, 0x40, 4, 0x0, 1, 0x0, 0xFFFFFFFF, 0x0, 0x0, 0x0, 0x0, false⟩ /- INK.TLO -/,
  ⟨0x180018, 0x40, 4, 0x0, 1, 0x0, 0xFFFFFFFF, 0x0, 0x0, 0x0, 0x0, false⟩ /- INK.THI -/,
  ⟨0x18001C, 0x40, 4, 0x0, 1, 0x0, 0xFFFFFFFF, 0x0, 0x0, 0x0, 0x0, false⟩ /- INK.TSEQ -/,
  ⟨0x180020, 0x40, 4, 0x0, 1, 0x0, 0x0, 0x0, 0x0, 0x0, 0x0, false⟩ /- INK.SSTAT -/,
  ⟨0x180024, 0x40, 4, 0x0, 1, 0x0, 0x0, 0x7F, 0x0, 0x0, 0x0, false⟩ /- INK.SFLAG -/,
  ⟨0x180028, 0x40, 4, 0x0, 1, 0x0, 0x0, 0x0, 0x0, 0x0, 0x0, true⟩ /- INK.TDT -/,
  ⟨0x18002C, 0x40, 4, 0x0, 1, 0x0, 0x0, 0x0, 0x0, 0x0, 0x0, true⟩ /- INK.TDT -/,
  ⟨0x180400, 0x10, 64, 0x0, 1, 0x0, 0xBFFF0000, 0x0, 0x0, 0x0, 0x0, false⟩ /- INK.CCFG -/,
  ⟨0x180404, 0x10, 64, 0x0, 1, 0x0, 0x0, 0x0, 0x0, 0x0, 0x0, false⟩ /- INK.CSTAT -/,
  ⟨0x180800, 0x0, 1, 0x0, 1, 0x0, 0x0, 0x80000000, 0x0, 0x0, 0x0, false⟩ /- INK.GSTAT -/,
  ⟨0x180804, 0x0, 1, 0x0, 1, 0x0, 0x0, 0x0, 0x0, 0x0, 0x0, false⟩ /- INK.ECC -/]

/-- Rows of the registers at 0x1A_0000. -/
def regRows1A : List RegRow := [
  ⟨0x1A0000, 0x0, 1, 0x0, 1, 0x12006600, 0xFFFFFFC0, 0x0, 0x0, 0x0, 0x0, false⟩ /- TIME.CFG -/,
  ⟨0x1A0004, 0x0, 1, 0x0, 1, 0xFFFFF880, 0xFFFFFF80, 0x0, 0x0, 0x0, 0x0, false⟩ /- TIME.DS -/,
  ⟨0x1A0008, 0x0, 1, 0x0, 1, 0x40000000, 0xFFFFFFFF, 0x0, 0x0, 0x0, 0x0, false⟩ /- TIME.KP -/,
  ⟨0x1A000C, 0x0, 1, 0x0, 1, 0x3E4CCCCD, 0xFFFFFFFF, 0x0, 0x0, 0x0, 0x0, false⟩ /- TIME.KI -/,
  ⟨0x1A0010, 0x0, 1, 0x0, 1, 0xF4240, 0xFFFFFFFF, 0x0, 0x0, 0x0, 0x0, false⟩ /- TIME.THR -/,
  ⟨0x1A0014, 0x0, 1, 0x0, 1, 0x3E81388, 0xFFFFFFFF, 0x0, 0x0, 0x0, 0x0, false⟩ /- TIME.LIM -/,
  ⟨0x1A0020, 0x0, 1, 0x0, 1, 0x80000000, 0x0, 0x4000000, 0x0, 0x0, 0x0, false⟩ /- TIME.STAT -/,
  ⟨0x1A0024, 0x0, 1, 0x0, 1, 0x0, 0x0, 0x0, 0x0, 0x0, 0x0, false⟩ /- TIME.RATE -/,
  ⟨0x1A0028, 0x0, 1, 0x0, 1, 0x0, 0x0, 0x0, 0x0, 0x0, 0x0, false⟩ /- TIME.OFFSET -/,
  ⟨0x1A002C, 0x0, 1, 0x0, 1, 0x0, 0x0, 0x0, 0x0, 0x0, 0x0, false⟩ /- TIME.MPD -/,
  ⟨0x1A0030, 0x0, 1, 0x0, 1, 0x0, 0x0, 0x0, 0x0, 0x0, 0x0, false⟩ /- TIME.PARENT -/,
  ⟨0x1A0034, 0x0, 1, 0x0, 1, 0x0, 0x0, 0x0, 0x0, 0x0, 0x0, false⟩ /- TIME.PARENT -/,
  ⟨0x1A0038, 0x0, 1, 0x0, 1, 0x0, 0x0, 0x0, 0x0, 0x0, 0x0, false⟩ /- TIME.UTCOFS -/,
  ⟨0x1A003C, 0x0, 1, 0x0, 1, 0x0, 0x0, 0x0, 0x0, 0x80000000, 0x0, false⟩ /- TIME.CTRL -/,
  ⟨0x1A0040, 0x0, 1, 0x0, 1, 0x0, 0x0, 0x0, 0x0, 0x0, 0x0, false⟩ /- TIME.SNAP -/,
  ⟨0x1A0044, 0x0, 1, 0x0, 1, 0x0, 0x0, 0x0, 0x0, 0x0, 0x0, false⟩ /- TIME.SNAP -/,
  ⟨0x1A0048, 0x0, 1, 0x0, 1, 0x0, 0x0, 0x0, 0x0, 0x0, 0x0, false⟩ /- TIME.SNAP -/,
  ⟨0x1A004C, 0x0, 1, 0x0, 1, 0x0, 0x0, 0x0, 0x0, 0x0, 0x0, false⟩ /- TIME.SNAP -/,
  ⟨0x1A0050, 0x0, 1, 0x0, 1, 0x0, 0x0, 0x0, 0x0, 0x0, 0x0, false⟩ /- TIME.SNAP -/,
  ⟨0x1A0100, 0x20, 4, 0x0, 1, 0x0, 0x0, 0x0, 0x0, 0x0, 0x0, false⟩ /- TIME.PSTAT -/,
  ⟨0x1A0104, 0x20, 4, 0x0, 1, 0x0, 0x0, 0x0, 0x0, 0x0, 0x0, false⟩ /- TIME.PSTART -/,
  ⟨0x1A0108, 0x20, 4, 0x0, 1, 0x0, 0x0, 0x0, 0x0, 0x0, 0x0, false⟩ /- TIME.PSTART -/,
  ⟨0x1A010C, 0x20, 4, 0x0, 1, 0x0, 0x0, 0x0, 0x0, 0x0, 0x0, false⟩ /- TIME.PSTART -/,
  ⟨0x1A0110, 0x20, 4, 0x0, 1, 0x0, 0x0, 0x0, 0x0, 0x0, 0x0, false⟩ /- TIME.PPER -/,
  ⟨0x1A0114, 0x20, 4, 0x0, 1, 0x0, 0x0, 0x0, 0x0, 0x0, 0x0, false⟩ /- TIME.PWID -/,
  ⟨0x1A0118, 0x20, 4, 0x0, 1, 0x0, 0x0, 0x0, 0x0, 0x0, 0x0, false⟩ /- TIME.PLEFT -/,
  ⟨0x1A011C, 0x20, 4, 0x0, 1, 0x0, 0x0, 0x0, 0x0, 0x0, 0x0, false⟩ /- TIME.PDONE -/]

/-- Rows of the registers at 0x1B_0000. -/
def regRows1B : List RegRow := [
  ⟨0x1B0000, 0x0, 1, 0x0, 1, 0x0, 0x8003FFFF, 0x0, 0x0, 0x0, 0x0, false⟩ /- SWARD.NODE -/,
  ⟨0x1B0004, 0x0, 1, 0x0, 1, 0x4F000000, 0x0, 0x0, 0x0, 0x0, 0x0, false⟩ /- SWARD.FTSTAT -/,
  ⟨0x1B0008, 0x0, 1, 0x0, 1, 0x0, 0x0, 0x0, 0x0, 0x0, 0x0, true⟩ /- SWARD.FT -/,
  ⟨0x1B000C, 0x0, 1, 0x0, 1, 0x0, 0x0, 0x0, 0x0, 0x0, 0x0, true⟩ /- SWARD.FT -/,
  ⟨0x1B0010, 0x0, 1, 0x0, 1, 0x0, 0x0, 0x0, 0x0, 0x0, 0x0, false⟩ /- SWARD.EPOCH -/,
  ⟨0x1B0014, 0x0, 1, 0x0, 1, 0x0, 0x0, 0x0, 0x0, 0x0, 0x0, false⟩ /- SWARD.RSTAT -/,
  ⟨0x1B0018, 0x0, 1, 0x0, 1, 0x0, 0x3FFFF, 0x0, 0x0, 0x0, 0x0, false⟩ /- SWARD.INK -/,
  ⟨0x1B001C, 0x0, 1, 0x0, 1, 0x0, 0x0, 0x0, 0x0, 0x0, 0x0, false⟩ /- SWARD.HRXHEAD -/,
  ⟨0x1B0020, 0x0, 1, 0x0, 1, 0x0, 0xFFFF, 0x0, 0x0, 0x0, 0x0, false⟩ /- SWARD.HRXTAIL -/,
  ⟨0x1B0040, 0x4, 8, 0x0, 1, 0x0, 0xBFFFF0FF, 0x0, 0x0, 0x0, 0x0, false⟩ /- SWARD.EVFWD -/,
  ⟨0x1B0100, 0x40, 4, 0x0, 1, 0x0, 0x0, 0x0, 0x0, 0x0, 0x0, false⟩ /- SWARD.PSTAT -/,
  ⟨0x1B0104, 0x40, 4, 0x0, 1, 0x0, 0x7FFFF, 0x0, 0x0, 0x0, 0x0, false⟩ /- SWARD.RES0 -/,
  ⟨0x1B0108, 0x40, 4, 0x0, 1, 0x2710, 0x7FFFF, 0x0, 0x0, 0x0, 0x0, false⟩ /- SWARD.RES1 -/,
  ⟨0x1B010C, 0x40, 4, 0x0, 1, 0x2710, 0x7FFFF, 0x0, 0x0, 0x0, 0x0, false⟩ /- SWARD.RES2 -/,
  ⟨0x1B0110, 0x40, 4, 0x0, 1, 0x0, 0x0, 0x0, 0x0, 0x0, 0x0, false⟩ /- SWARD.CRED -/,
  ⟨0x1B0114, 0x40, 4, 0x0, 1, 0x0, 0x0, 0x0, 0x0, 0x0, 0x0, false⟩ /- SWARD.DELAY -/,
  ⟨0x1B0118, 0x40, 4, 0x0, 1, 0x0, 0x0, 0x0, 0x0, 0x0, 0x0, false⟩ /- SWARD.CNT -/,
  ⟨0x1B011C, 0x40, 4, 0x0, 1, 0x0, 0x0, 0x0, 0x0, 0x0, 0x0, false⟩ /- SWARD.DROPS -/,
  ⟨0x1B0120, 0x40, 4, 0x0, 1, 0x0, 0x0, 0x0, 0x0, 0x0, 0x0, false⟩ /- SWARD.FRAMES -/,
  ⟨0x1B1000, 0x4, 1024, 0x0, 1, 0x0, 0x0, 0x0, 0x0, 0x0, 0x0, false⟩ /- SWARD.RTE -/,
  ⟨0x1B8000, 0x0, 1, 0x0, 1, 0x0, 0x0, 0x0, 0x0, 0x0, 0x0, false⟩ /- SHEAF.CFG -/,
  ⟨0x1B8004, 0x0, 1, 0x0, 1, 0x0, 0x0, 0x0, 0x0, 0x0, 0x0, false⟩ /- SHEAF.STAT -/,
  ⟨0x1B8008, 0x0, 1, 0x0, 1, 0x0, 0x0, 0x0, 0x0, 0x0, 0x0, false⟩ /- SHEAF.MASTER -/,
  ⟨0x1B800C, 0x0, 1, 0x0, 1, 0x0, 0x0, 0x0, 0x0, 0x0, 0x0, false⟩ /- SHEAF.ALIGN -/,
  ⟨0x1B8010, 0x0, 1, 0x0, 1, 0x0, 0x0, 0x0, 0x0, 0x0, 0x0, false⟩ /- SHEAF.CNT -/,
  ⟨0x1B8018, 0x0, 1, 0x0, 1, 0x0, 0x0, 0x0, 0x0, 0x0, 0x0, true⟩ /- SHEAF.TAKEDT -/,
  ⟨0x1B801C, 0x0, 1, 0x0, 1, 0x0, 0x0, 0x0, 0x0, 0x0, 0x0, true⟩ /- SHEAF.TAKEDT -/]

/-- Rows of the registers at 0x1C_0000. -/
def regRows1C : List RegRow := [
  ⟨0x1C0000, 0x100, 2, 0x0, 1, 0x37610000, 0xFF770FFF, 0x0, 0x0, 0x0, 0x0, false⟩ /- ETH.CFG -/,
  ⟨0x1C0004, 0x100, 2, 0x0, 1, 0x0, 0xFFFFFFFF, 0x0, 0x0, 0x0, 0x0, false⟩ /- ETH.MAC_LO -/,
  ⟨0x1C0008, 0x100, 2, 0x0, 1, 0x0, 0xFFFF, 0x0, 0x0, 0x0, 0x0, false⟩ /- ETH.MAC_HI -/,
  ⟨0x1C000C, 0x100, 2, 0x0, 1, 0xC0A84618, 0xFFFFFFFF, 0x0, 0x0, 0x0, 0x0, false⟩ /- ETH.IP -/,
  ⟨0x1C0010, 0x100, 2, 0x0, 1, 0xC7A2C7A4, 0xFFFFFFFF, 0x0, 0x0, 0x0, 0x0, false⟩ /- ETH.UDP -/,
  ⟨0x1C0014, 0x100, 2, 0x0, 1, 0x0, 0xFFFFFFFF, 0x0, 0x0, 0x0, 0x0, false⟩ /- ETH.INK_IP -/,
  ⟨0x1C0018, 0x100, 2, 0x0, 1, 0x0, 0xFFFFFFFF, 0x0, 0x0, 0x0, 0x0, false⟩ /- ETH.INK_MACLO -/,
  ⟨0x1C001C, 0x100, 2, 0x0, 1, 0x0, 0xFFFFFFFF, 0x0, 0x0, 0x0, 0x0, false⟩ /- ETH.INK_MACHI -/,
  ⟨0x1C0020, 0x100, 2, 0x0, 1, 0x0, 0xFFFFFFFF, 0x0, 0x0, 0x0, 0x0, false⟩ /- ETH.LAT -/,
  ⟨0x1C0024, 0x100, 2, 0x0, 1, 0x0, 0xFFFFFFFF, 0x0, 0x0, 0x0, 0x0, false⟩ /- ETH.ASYM -/,
  ⟨0x1C0028, 0x100, 2, 0x0, 1, 0x0, 0x0, 0x7000000, 0x0, 0x0, 0x0, false⟩ /- ETH.STAT -/,
  ⟨0x1C002C, 0x100, 2, 0x0, 1, 0x0, 0x0, 0x0, 0x0, 0x0, 0x0, false⟩ /- ETH.CNT -/,
  ⟨0x1C0030, 0x100, 2, 0x0, 1, 0x0, 0x0, 0x0, 0x0, 0x0, 0x0, false⟩ /- ETH.DROPS -/,
  ⟨0x1C0034, 0x100, 2, 0x0, 1, 0x0, 0x23FFFFFF, 0x0, 0x0, 0x80000000, 0x0, false⟩ /- ETH.MDIO -/]

/-- Rows of the registers at 0x1D_0000. -/
def regRows1D : List RegRow := [
  ⟨0x1D0000, 0x400, 4, 0x0, 1, 0xA004000, 0xFF00FF00, 0x0, 0x0, 0x800000, 0x0, false⟩ /- CAN.CTRL -/,
  ⟨0x1D0004, 0x400, 4, 0x0, 1, 0x9F0F1E0, 0xFFFFFFE0, 0x0, 0x0, 0x0, 0x0, false⟩ /- CAN.NBT -/,
  ⟨0x1D0008, 0x400, 4, 0x0, 1, 0x1C0909, 0xF81F0F0F, 0x0, 0x0, 0x0, 0x0, false⟩ /- CAN.DBT -/,
  ⟨0x1D000C, 0x400, 4, 0x0, 1, 0x0, 0x7F7F, 0x0, 0x0, 0x0, 0x0, false⟩ /- CAN.TDC -/,
  ⟨0x1D0010, 0x400, 4, 0x0, 1, 0x0, 0x9FFFFFFF, 0x0, 0x0, 0x0, 0x0, false⟩ /- CAN.CMDID -/,
  ⟨0x1D0014, 0x400, 4, 0x0, 1, 0x0, 0x9FFFFFFF, 0x0, 0x0, 0x0, 0x0, false⟩ /- CAN.RSPID -/,
  ⟨0x1D0018, 0x400, 4, 0x0, 1, 0x0, 0x9FFFFFFF, 0x0, 0x0, 0x0, 0x0, false⟩ /- CAN.TTREF -/,
  ⟨0x1D0020, 0x400, 4, 0x0, 1, 0x0, 0x9FFFFFFF, 0x0, 0x0, 0x0, 0x0, false⟩ /- CAN.WKID -/,
  ⟨0x1D0024, 0x400, 4, 0x0, 1, 0x0, 0x9FFFFFFF, 0x0, 0x0, 0x0, 0x0, false⟩ /- CAN.WKMASK -/,
  ⟨0x1D001C, 0x400, 4, 0x0, 1, 0xA, 0xC0001FFF, 0x0, 0x0, 0x0, 0x0, false⟩ /- CAN.WAKE -/,
  ⟨0x1D0028, 0x400, 4, 0x0, 1, 0x0, 0xFFFFFFFF, 0x0, 0x0, 0x0, 0x0, false⟩ /- CAN.WKDATA -/,
  ⟨0x1D002C, 0x400, 4, 0x0, 1, 0x0, 0xFFFFFFFF, 0x0, 0x0, 0x0, 0x0, false⟩ /- CAN.WKDATA -/,
  ⟨0x1D0030, 0x400, 4, 0x0, 1, 0x0, 0xFFFFFFFF, 0x0, 0x0, 0x0, 0x0, false⟩ /- CAN.WKDMASK -/,
  ⟨0x1D0034, 0x400, 4, 0x0, 1, 0x0, 0xFFFFFFFF, 0x0, 0x0, 0x0, 0x0, false⟩ /- CAN.WKDMASK -/,
  ⟨0x1D0038, 0x400, 4, 0x0, 1, 0x0, 0x0, 0xA000000, 0x0, 0x0, 0x0, false⟩ /- CAN.STAT -/,
  ⟨0x1D003C, 0x400, 4, 0x0, 1, 0x0, 0x0, 0x0, 0x0, 0x0, 0x0, false⟩ /- CAN.CNT -/,
  ⟨0x1D0040, 0x400, 4, 0x0, 1, 0x642710, 0xFFFFFFFF, 0x0, 0x0, 0x0, 0x0, false⟩ /- CAN.TTCFG -/,
  ⟨0x1D0044, 0x400, 4, 0x0, 1, 0x0, 0x0, 0x0, 0x0, 0x0, 0x0, false⟩ /- CAN.TTSTAT -/,
  ⟨0x1D0080, 0x400, 4, 0x8, 32, 0x0, 0xFFFFFFFF, 0x0, 0x0, 0x0, 0x0, false⟩ /- CAN.FLT -/,
  ⟨0x1D0084, 0x400, 4, 0x8, 32, 0x0, 0x1FFFFFFF, 0x0, 0x0, 0x0, 0x0, false⟩ /- CAN.FLT -/,
  ⟨0x1D0200, 0x400, 4, 0x8, 32, 0x0, 0xFFBFFFFF, 0x0, 0x0, 0x0, 0x0, false⟩ /- CAN.TTW -/,
  ⟨0x1D0204, 0x400, 4, 0x8, 32, 0x0, 0xFFFF, 0x0, 0x0, 0x0, 0x0, false⟩ /- CAN.TTW -/,
  ⟨0x1D0300, 0x400, 4, 0x4, 16, 0x0, 0x0, 0x0, 0x0, 0x0, 0x0, false⟩ /- CAN.SLOT -/]

/-- Rows of the registers at 0x1E_0000. -/
def regRows1E : List RegRow := [
  ⟨0x1E0000, 0x0, 1, 0x0, 1, 0x0, 0x0, 0x0, 0x0, 0x0, 0x0, false⟩ /- SPI.HCFG -/,
  ⟨0x1E0004, 0x0, 1, 0x0, 1, 0x0, 0x0, 0x7, 0x0, 0x0, 0x0, false⟩ /- SPI.HSTAT -/,
  ⟨0x1E0008, 0x0, 1, 0x0, 1, 0x0, 0x0, 0x0, 0x0, 0x0, 0x0, false⟩ /- SPI.HCNT -/,
  ⟨0x1E000C, 0x0, 1, 0x0, 1, 0x0, 0xFF, 0x0, 0x0, 0x0, 0x0, false⟩ /- SPI.IRQCFG -/,
  ⟨0x1E0100, 0x100, 2, 0x0, 1, 0x200200, 0xFF0333, 0x0, 0x0, 0x0, 0x0, false⟩ /- SPI.PCFG -/,
  ⟨0x1E0104, 0x100, 2, 0x0, 1, 0x1, 0xF001F, 0x20000000, 0x0, 0x80000000, 0x0, false⟩ /- SPI.PXFER -/,
  ⟨0x1E0140, 0x100, 2, 0x4, 16, 0x0, 0xFFFFFFFF, 0x0, 0x0, 0x0, 0x0, false⟩ /- SPI.PDATA -/]

/-- Rows of the registers at 0x1F_0000. -/
def regRows1F : List RegRow := [
  ⟨0x1F0000, 0x10, 32, 0x0, 1, 0x300000, 0x0, 0x0, 0x0, 0x0, 0x0, false⟩ /- FIELD.CFG -/,
  ⟨0x1F0004, 0x10, 32, 0x0, 1, 0xA03E8, 0x0, 0x0, 0x0, 0x0, 0x0, false⟩ /- FIELD.CHAT -/,
  ⟨0x1F0008, 0x10, 32, 0x0, 1, 0x0, 0x0, 0x1000000, 0x0, 0x0, 0x0, false⟩ /- FIELD.CHST -/,
  ⟨0x1F000C, 0x10, 32, 0x0, 1, 0x0, 0x0, 0x0, 0x0, 0x0, 0x0, false⟩ /- FIELD.CNT -/,
  ⟨0x1F0200, 0x0, 1, 0x0, 1, 0xA, 0xFF, 0x0, 0x0, 0x0, 0x0, false⟩ /- FIELD.CTRL -/,
  ⟨0x1F0204, 0x0, 1, 0x0, 1, 0x0, 0x0, 0x0, 0x0, 0x0, 0x0, false⟩ /- FIELD.STAT -/,
  ⟨0x1F0208, 0x0, 1, 0x0, 1, 0x0, 0x0, 0x0, 0x0, 0x0, 0x0, false⟩ /- FIELD.IN -/,
  ⟨0x1F020C, 0x0, 1, 0x0, 1, 0x0, 0x0, 0x0, 0x0, 0x0, 0x0, false⟩ /- FIELD.OUT -/,
  ⟨0x1F0210, 0x0, 1, 0x0, 1, 0x0, 0x0, 0x0, 0x0, 0x0, 0x0, false⟩ /- FIELD.STO -/,
  ⟨0x1F0220, 0x4, 4, 0x0, 1, 0x0, 0x0, 0x0, 0x0, 0x0, 0x0, false⟩ /- FIELD.BANK -/]

/-- Rows of the registers at 0x20_0000. -/
def regRows20 : List RegRow := [
  ⟨0x200000, 0x0, 1, 0x0, 1, 0x4000, 0x0, 0x0, 0x0, 0x0, 0x0, false⟩ /- SAFE.STATE -/,
  ⟨0x200004, 0x0, 1, 0x0, 1, 0x0, 0x0, 0x0, 0x0, 0x0, 0x0, false⟩ /- SAFE.SVIEW -/,
  ⟨0x200008, 0x0, 1, 0x0, 1, 0x0, 0x0, 0x0, 0x0, 0x0, 0x0, false⟩ /- SAFE.HVIEW -/,
  ⟨0x20000C, 0x0, 1, 0x0, 1, 0x0, 0x0, 0x0, 0x0, 0x0, 0x0, false⟩ /- SAFE.XC -/,
  ⟨0x200010, 0x0, 1, 0x0, 1, 0x0, 0x0, 0x0, 0x0, 0x0, 0x0, false⟩ /- SAFE.TEL -/,
  ⟨0x200020, 0x4, 4, 0x0, 1, 0x0, 0x0, 0x0, 0x0, 0x0, 0x0, false⟩ /- SAFE.CONT -/,
  ⟨0x200030, 0x4, 4, 0x0, 1, 0x80000000, 0x0, 0x0, 0x0, 0x0, 0x0, false⟩ /- SAFE.OUT -/,
  ⟨0x200040, 0x8, 8, 0x0, 1, 0x0, 0x0, 0x0, 0x0, 0x0, 0x0, false⟩ /- SAFE.AX -/,
  ⟨0x200044, 0x8, 8, 0x0, 1, 0x0, 0x0, 0x0, 0x0, 0x0, 0x0, false⟩ /- SAFE.AXV -/,
  ⟨0x200080, 0x0, 1, 0x0, 1, 0x0, 0x0, 0x0, 0x0, 0x0, 0x0, false⟩ /- SAFE.CRC_S -/,
  ⟨0x200084, 0x0, 1, 0x0, 1, 0x0, 0x0, 0x0, 0x0, 0x0, 0x0, false⟩ /- SAFE.CRC_H -/,
  ⟨0x200088, 0x0, 1, 0x0, 1, 0x0, 0x0, 0x0, 0x0, 0x0, 0x0, false⟩ /- SAFE.STG_S -/,
  ⟨0x20008C, 0x0, 1, 0x0, 1, 0x0, 0x0, 0x0, 0x0, 0x0, 0x0, false⟩ /- SAFE.STG_H -/,
  ⟨0x201000, 0x4, 138, 0x0, 1, 0x0, 0xFFFFFFFF, 0x0, 0x0, 0x0, 0x0, false⟩ /- SAFE.STAGE -/,
  ⟨0x201400, 0x4, 136, 0x0, 1, 0x0, 0x0, 0x0, 0x0, 0x0, 0x0, false⟩ /- SAFE.RB -/,
  ⟨0x201800, 0x4, 136, 0x0, 1, 0x0, 0x0, 0x0, 0x0, 0x0, 0x0, false⟩ /- SAFE.HRB -/]

/-- Rows of the registers at 0x30_0000. -/
def regRows30 : List RegRow := [
  ⟨0x300000, 0x20, 64, 0x0, 1, 0x0, 0xFFF0FFF, 0x0, 0x0, 0x0, 0x0, false⟩ /- RING.LOC -/,
  ⟨0x300004, 0x20, 64, 0x0, 1, 0x80000000, 0xE0FFFFFF, 0x0, 0x0, 0x0, 0x0, false⟩ /- RING.CTRL -/,
  ⟨0x300008, 0x20, 64, 0x0, 1, 0x0, 0x0, 0x0, 0x0, 0x0, 0x0, false⟩ /- RING.HEAD -/,
  ⟨0x30000C, 0x20, 64, 0x0, 1, 0x0, 0x0, 0x0, 0x0, 0x0, 0x0, false⟩ /- RING.TAIL -/,
  ⟨0x300010, 0x20, 64, 0x0, 1, 0x0, 0x0, 0x0, 0x0, 0x0, 0x0, false⟩ /- RING.FILL -/,
  ⟨0x300014, 0x20, 64, 0x0, 1, 0x0, 0x0, 0x0, 0x0, 0x0, 0x0, false⟩ /- RING.DROPS -/,
  ⟨0x300018, 0x20, 64, 0x0, 1, 0x1, 0x0, 0x4, 0x0, 0x0, 0x0, false⟩ /- RING.STAT -/,
  ⟨0x300800, 0x4, 8, 0x0, 1, 0x0, 0x0, 0x0, 0x0, 0x0, 0x0, false⟩ /- RING.PORT -/]

/-- The rows that can hold an address, by its 64 KiB block. -/
def regRows (blk : Nat) : List RegRow :=
  match blk with
  | 0x00 => regRows00
  | 0x01 => regRows01
  | 0x02 => regRows02
  | 0x03 => regRows03
  | 0x04 => regRows04
  | 0x05 => regRows05
  | 0x08 => regRows08
  | 0x09 => regRows09
  | 0x0A => regRows0A
  | 0x0B => regRows0B
  | 0x0C => regRows0C
  | 0x14 => regRows14
  | 0x16 => regRows16
  | 0x18 => regRows18
  | 0x1A => regRows1A
  | 0x1B => regRows1B
  | 0x1C => regRows1C
  | 0x1D => regRows1D
  | 0x1E => regRows1E
  | 0x1F => regRows1F
  | 0x20 => regRows20
  | 0x30 => regRows30
  | 0x06 => regRows05
  | 0x07 => regRows05
  | _ => []

end Sys2Proof.Machine
end

