-- ==== Sys2Proof/Machine/Tbl.lean ====
section
/-! DEFINITION. Sparse tables in one canonical form: a list of (key, value) pairs, keys strictly rising, no
entry equal to the value its key has when it is not listed. The register file, the ring memory and the
other large stores of the block are such tables, so that equal stores are equal data. -/

namespace Sys2Proof.Machine

/-- A sparse table of values by number. -/
abbrev Tbl (α : Type) := List (Nat × α)

/-- The value at a key; `d` where the key is not listed. -/
def tblGet {α : Type} (t : Tbl α) (k : Nat) (d : α) : α :=
  match t with
  | [] => d
  | (j, v) :: rest => if j = k then v else tblGet rest k d

/-- The table without a key. -/
def tblDel {α : Type} (t : Tbl α) (k : Nat) : Tbl α :=
  match t with
  | [] => []
  | (j, v) :: rest => if j = k then tblDel rest k else (j, v) :: tblDel rest k

/-- The table with a key listed at a value. -/
def tblIns {α : Type} (t : Tbl α) (k : Nat) (x : α) : Tbl α :=
  match t with
  | [] => [(k, x)]
  | (j, v) :: rest => if j = k then (k, x) :: rest else if k < j then (k, x) :: (j, v) :: rest else (j, v) :: tblIns rest k x

/-- The table with a key's value set: listed, or removed where it is the unlisted value `d`. -/
def tblPut {α : Type} [DecidableEq α] (t : Tbl α) (k : Nat) (x d : α) : Tbl α :=
  if x = d then tblDel t k else tblIns t k x

/-- Keys strictly rising from above `lo` and no entry equal to the unlisted value of its key. -/
def tblWfFrom {α : Type} [DecidableEq α] (dflt : Nat → α) (t : Tbl α) (lo : Nat) : Bool :=
  match t with
  | [] => true
  | (j, v) :: rest => decide (lo ≤ j) && decide (v ≠ dflt j) && tblWfFrom dflt rest (j + 1)

/-- The canonical form of a table. -/
def tblWf {α : Type} [DecidableEq α] (dflt : Nat → α) (t : Tbl α) : Bool := tblWfFrom dflt t 0

end Sys2Proof.Machine
end

