-- ==== Sys2Proof/Machine/State.lean ====
section
/-! DEFINITION. The state of the block as plain data. Every register of spec/ has its one home in the sparse
register file `regs` (its reset word where it is not listed); what the spec gives the machine beside its
registers stands in one structure per chapter. `State.reset` is the machine with reset asserted and the queue empty. -/

namespace Sys2Proof.Machine

open Sys2Proof

/-- Faults. None: no command of the block stops the machine (what a command cannot do is a reply status or no change). -/
inductive Fault where
deriving DecidableEq, Repr

/-- Refusals. -/
inductive Refusal where
  /-- Raised by exec's arm of a command that has no meaning yet; safe: nothing can be proved about it. -/
  | notModelled (mnemonic : String)
deriving DecidableEq, Repr

/-! ### Device phase (05_startup_config_update.md) -/

/-- Where the device stands between reset and command-ready (R113, R114, R141). -/
inductive Phase where
  | reset | starting | recovery | ready | test | dormant
deriving DecidableEq, Repr

/-- Reed (R84): held in reset, busy or switching firmware, or serving. -/
inductive ReedSt where
  | held | busy | running
deriving DecidableEq, Repr


/-! ### Events (18_events.md) -/

/-- An occurrence of an event source (R453, R454): number, instance, detail, raised through `EVT.TEST`. -/
structure Occ where
  ev : Nat
  inst : Nat
  detail : Word
  test : Bool := false
deriving DecidableEq, Repr

/-- A running hold-off window of an event number (R456). -/
structure HoldWin where
  ev : Nat
  start : Tick
  len : Nat
  /-- It was opened by a COALESCED record: an occurrence at exactly its start is still written as a normal record. -/
  coal : Bool := false
  held : Option Occ := none
  count : Nat := 0
deriving DecidableEq, Repr

/-- The last instant a rate-limited source raised an event for an instance (R453). -/
structure RateMark where
  ev : Nat
  inst : Nat
  at_ : Tick
deriving DecidableEq, Repr

/-- The event unit beside its registers: occurrences on their way to the arbiter, hold-offs, rate limits. -/
structure EvtS where
  occ : List Occ := []
  hold : List HoldWin := []
  rate : List RateMark := []
deriving DecidableEq, Repr

/-! ### Packets, ports and rings (04_command_interface.md) -/

/-- Where an entry of a ring begins and ends: its words, the bytes its carrier delivered beyond them (R75), its origin. -/
structure Ent where
  words : Nat
  extra : Nat := 0
  origin : Origin := .host
deriving DecidableEq, Repr

/-- An executed request held for the repeat filter (R77). -/
structure Done where
  seq : Nat
  check : Word
  reply : List Word
deriving DecidableEq, Repr

/-- A reply on its way into its reply ring (R83, R103): where it goes, its words, whether it frees the port and its 259 reserved
words when it is written. -/
structure Reply where
  origin : Origin
  words : List Word
  busy : Bool
  resv : Bool
deriving DecidableEq, Repr

/-- A command port (R82, R83): the request in execution, the repeat filter, the reserved words of its reply ring, and replies that
wait for a ring which is disabled or full (STALL, R103), oldest first. -/
structure Port where
  busy : Option Request := none
  done : List Done := []
  resv : Nat := 0
  out : List Reply := []
deriving DecidableEq, Repr

/-- A reply held until its groups' boundaries have passed (R78, R79). -/
structure Deferred where
  req : Request
  data : List Word
  stamp : Nat
  waits : List (Nat × Word)
  mixed : Bool
  ticket : Nat
  final : Option (Nat × Nat) := none
  /-- The status in place of OK and PENDING (R89, R223). -/
  as_ : Option Nat := none
deriving DecidableEq, Repr

/-- A READ_SNAPSHOT or a READ_REG with SNAPSHOT that waits for its group's boundary (R51). -/
structure Snap where
  req : Request
  grp : Nat
  addrs : List Nat
  since : Tick
  got : Option (Nat × Nat × List Word) := none
deriving DecidableEq, Repr

/-- The command interface beside its registers. -/
structure CmdS where
  ents : Tbl (List Ent) := []
  mem : Tbl Word := []
  lost253 : Tbl Nat := []
  lossRec : Tbl Nat := []
  ports : List Port := List.replicate 8 {}
  rl : List (Option (Nat × Word)) := List.replicate 9 none
  deferred : List Deferred := []
  snaps : List Snap := []
  ticket : Nat := 0
  turn : Nat := 0
  hPrev : Nat := 0
  miso : List Word := []
  /-- Replies that left over UDP (R98): the port, where to, the words; newest first. -/
  sent : List (Nat × Origin × List Word) := []
deriving DecidableEq, Repr

/-! ### Clocks (03_clocks_timebase.md) -/

/-- The clock system beside its registers: a switch that waits for the old clock (R64), PLLs that run, trim count, DT origin. -/
structure ClkS where
  alive : List Bool := [true, true, true]
  switching : Option (Nat × Nat) := none
  started : Bool := false
  everValid : Bool := false
  trimGood : Nat := 0
  /-- An EPOCH mark came on a linked Sward port since the last trim measurement (R58). -/
  epoch : Bool := false
  line : Bool := false
deriving DecidableEq, Repr



/-! ### Sensing (06_current_sensing.md) -/

/-- A sinc3 output (R151): y[n], its S, and the end and centre of its span of terminal intervals (R152). -/
structure Sinc3 where
  y : Int
  s : Nat
  stop : Tick
  centre : Tick
deriving DecidableEq, Repr

/-- A sensing channel beside its registers: the comparator's run condition (R153), bits taken since EN was set or S3_OSR
changed (R151), its last sinc3 outputs, and the open window of each integrator with what happened in it (R157 to R159). -/
structure ChanS where
  ocOn : Bool := false
  /-- The instant s and the run count were last cleared (R155). -/
  ocFrom : Tick := 0
  taken : Nat := 0
  outs : List Sinc3 := []
  /-- Signed edge ticks from T(k) to the centre of the point sample's span (R152). -/
  pointOfs : Int := 0
  winA : Option Tick := none
  winB : Option Tick := none
  lostA : Bool := false
  lostB : Bool := false
deriving DecidableEq, Repr

/-- A closed window that has not been posted (R156, R160): channel, integrator, group, its instants, the calibration it is
computed with (R162), whether the channel was LOST in it. -/
structure SensePost where
  ch : Nat
  b : Bool
  grp : Nat
  t0 : Tick
  t1 : Tick
  gain : Word
  offset : Word
  delay : Nat
  lost : Bool
  /-- Only the point sample of the frame is posted: the channel holds no integrator (R152). -/
  point : Bool := false
deriving DecidableEq, Repr

/-- The sensing front end beside its registers. -/
structure SenseS where
  /-- When each running modulator clock output was enabled (R148). -/
  mclk : Tbl Tick := []
  ch : Tbl ChanS := []
  posts : List SensePost := []
  /-- The running calibration: channel and MODE, and whether the channel was LOST in it (R161). -/
  cal : Option (Nat × Nat) := none
  calLost : Bool := false
  /-- Channels whose calibration was exchanged at the boundary of one group while another still waits (R139, R162). -/
  swapped : List Nat := []
deriving DecidableEq, Repr


/-! ### Nibs (07_nib_pwm.md) -/

/-- A transition of the edge plan whose echo window is open (R177, R178). -/
structure EchoWin where
  rise : Bool
  ideal : Tick
  start : Tick
  stop : Tick
deriving DecidableEq, Repr

/-- A running chopper period (R170): its start, its on and off intervals. -/
structure ChopRun where
  start : Tick
  k : Nat
  v : Nat
deriving DecidableEq, Repr

/-- What a nib drives in its running period, in offsets from the period's start (R175, R176): the transitions of GH, each as the
offset of its first edge and the dead time to its second; `full`: with no transition GH is on all through; `glMin`, `ghMin`: what the
period before or a cut leaves of a dead time. -/
structure GatePlan where
  base : Tick := 0
  full : Bool := false
  rise : Option (Nat × Nat) := none
  fall : Option (Nat × Nat) := none
  glMin : Nat := 0
  ghMin : Nat := 0
deriving DecidableEq, Repr

/-- A nib beside its registers: the edges of the running period and their plan, the chopper period, the echo windows and what holds
its gates. -/
structure NibS where
  /-- A period is being emitted, or a chopper's held output. -/
  run : Bool := false
  on : Nat := 0
  off : Nat := 0
  /-- The period is altered (R179). -/
  altered : Bool := false
  plan : GatePlan := {}
  chop : Option ChopRun := none
  wins : List EchoWin := []
  missRun : Nat := 0
  /-- The accumulator is cleared at the next carrier zero (R181). -/
  clr : Bool := false
  /-- GH is cut to the end of the period (R186). -/
  cut : Bool := false
  /-- Both gates are driven inactive after a latch clear (R187). -/
  idle : Bool := false
deriving DecidableEq, Repr

/-- A nib set beside its registers: the shadow, whether it waits for a reload, whether a host wrote it, whether the
nibs are released (R172 to R174, R199). -/
structure SetS where
  shadow : List (Nat × (Nat × Nat)) := []
  dirty : Bool := false
  host : Bool := false
  rel : Bool := false
deriving DecidableEq, Repr

/-- The nib bank beside its registers: SYNC edges in a row within 32 ticks, the last SYNC_OUT rise, latches for keep word 966. -/
structure NibB where
  nib : Tbl NibS := []
  set : Tbl SetS := []
  good : Nat := 0
  /-- Expected zeros in a row whose window has ended without an edge of SYNC_IN; whether one came in the window of the last zero and
  of the next (R192). -/
  syncMiss : Nat := 0
  syncHit : Bool := false
  syncNext : Bool := false
  syncOut : Option Tick := none
  latches : Nat := 0
deriving DecidableEq, Repr


/-! ### Inkwell (12_inkwell_capture.md) -/

/-- A page of capture memory (R312): its descriptor and the steps it holds, oldest first, each with its held DT and bytes. -/
structure InkPage where
  period : Nat := 0
  gap : Bool := false
  /-- D of the eight channels of a RAW or FILT bank in force (R319). -/
  ds : List Nat := []
  steps : List (Tick × List Byte) := []
deriving DecidableEq, Repr

/-- A channel in a record: its ring of pages, newest first (R313), whether its next page follows a gap, its last step. -/
structure InkChan where
  ch : Nat
  pages : List InkPage := []
  gapNext : Bool := false
  last : Option Tick := none
deriving DecidableEq, Repr

/-- A record (R314): its number, channels, first step, trigger instant and flags in the order of R320 from bit 6. -/
structure InkRec where
  num : Nat
  chans : List InkChan := []
  first : Option Tick := none
  trig : Option Tick := none
  flags : Nat := 0
deriving DecidableEq, Repr

/-- A session beside its registers: its records, when it became ARMED, the state of its trigger (R315). -/
structure InkSess where
  recs : List InkRec := []
  armedAt : Tick := 0
  prev : Option Rat := none
  /-- The edge trigger has been re-armed: rising, falling. -/
  upOk : Bool := true
  downOk : Bool := true
  tA : Option Tick := none
  /-- When a release last armed the session out of WAITING (R325). -/
  relAt : Option Tick := none
deriving DecidableEq, Repr

/-- A readout (R323): its destination and what it still has to write. -/
structure InkRead where
  sess : Nat
  rec_ : Nat
  dest : Nat
  ring : Nat
  release : Bool
  out : List (List Word)
  /-- Entries written so far. -/
  n : Nat := 0
  uncorr : Nat := 0
deriving DecidableEq, Repr

/-- Inkwell beside its registers: sessions, nib-log tokens and skipped happenings by nib (R304), readouts, and entries that
left over UDP or the Sward (newest first). -/
structure InkS where
  sess : List InkSess := List.replicate 4 {}
  tokens : Tbl Nat := []
  skips : Tbl Nat := []
  reads : List InkRead := []
  sent : List (Nat × List Word) := []
  /-- Readout entries on their way to the Sward (DEST 3). -/
  toSward : List (List Word) := []
deriving DecidableEq, Repr

/-! ### Feedback and latching (09_feedback_latching.md) -/

/-- A feedback channel beside its registers (R228 to R235). Rationals are exact: positions in units, velocities in units per
edge tick. -/
structure FbS where
  a : Bool := false
  b : Bool := false
  /-- The quadrature count N (in SSI mode the integer part of p, R232) and the last accepted edge; count and edge as they
stood at the last boundary. -/
  n : Int := 0
  tE : Tick := 0
  nPrev : Int := 0
  tPrev : Tick := 0
  /-- An edge was accepted since the last boundary; frames in a row without one; an illegal transition since then. -/
  edge : Bool := false
  still : Nat := 0
  ill : Bool := false
  /-- An edge was accepted since EN: `tE` is the time of one. -/
  had : Bool := false
  v : Rat := 0
  /-- The raw value of the last sample. -/
  p : Option Rat := none
  /-- The boundary of the last sample (R227). -/
  last : Tick := 0
  good : Nat := 0
  /-- The condition that made the channel INVALID held in the last frame (R235). -/
  cond : Bool := false
  zarm : Bool := false
  /-- Z captures made, and the device time of the last (R230, R266). -/
  zseq : Nat := 0
  zt : Tick := 0
  /-- The SSI word of the running frame, or its error code; errors in a row; the last good word (R231, R232). -/
  ssi : Option (Nat × Nat) := none
  errs : Nat := 0
  word : Nat := 0
  /-- N at T(k) of a sin/cos sample on its way; the sine and cosine integrals of a resolver window, each with ref and refq (R234). -/
  nAt : Int := 0
  sine : Option (Rat × Rat) := none
  cosine : Option (Rat × Rat) := none
deriving DecidableEq, Repr

/-- A latch unit beside its registers: latch instants of captures that await their samples, oldest first; the last capture. -/
structure LatchU where
  waits : List Tick := []
  lastCap : Option Tick := none
deriving DecidableEq, Repr

/-- Feedback and latching beside their registers: the last 32 samples (instant, position, VALID) of each position source by
its code (R240), newest first; when each free excitation output started (R233). -/
structure FdbkS where
  ch : Tbl FbS := []
  unit : Tbl LatchU := []
  hist : Tbl (List (Tick × Tick × Bool)) := []
  exc : Tbl Tick := []
deriving DecidableEq, Repr


/-! ### What contexts keep between passes (08_winding_control.md, 10_axes_profiles.md, 11_gearing_strokes.md, 12_inkwell_capture.md) -/

/-- A recursive least-squares estimator of one axis (R211): its parameters and its matrix P (p11, p12, p22). -/
structure Rls where
  th0 : Word := 0#32
  th1 : Word := 0#32
  p11 : Word := 0x447A0000#32
  p12 : Word := 0#32
  p22 : Word := 0x447A0000#32
deriving DecidableEq, Repr

/-- An identification run (R213): its MODE, test current, speed limit, frames done. -/
structure IdentS where
  mode : Nat
  iId : Word
  still : Word
  n : Nat := 0
deriving DecidableEq, Repr

/-- A winding beside its words (R199 to R220). Vectors are dq pairs. -/
structure WindS where
  /-- PI integrators (R204), or the chopper's controller (R220) in the first. -/
  iD : Word := 0#32
  iQ : Word := 0#32
  /-- u_r(k−1), which acted over the window, and u_r(k), committed for the running frame. -/
  u1 : Word × Word := (0#32, 0#32)
  u0 : Word × Word := (0#32, 0#32)
  /-- The prediction i_1 of the last pass, and its i_0. -/
  i1 : Word × Word := (0#32, 0#32)
  i0 : Option (Word × Word) := none
  idfw : Word := 0#32
  uMag : Word := 0#32
  /-- Channels invalid in the last frame (R201 cause 3); whether that frame was saturated or substituted (R211). -/
  inv : List Nat := []
  sat : Bool := false
  subst : Bool := false
  rd : Rls := {}
  rq : Rls := {}
  ident : Option IdentS := none
  /-- Frames spent in PRECHARGE or RAMP; the references at the start of the ramp. -/
  fr : Nat := 0
  ramp : Word × Word := (0#32, 0#32)
  /-- Stepping: frames with ω* 0, the trims (R219). -/
  zf : Nat := 0
  trim : Word × Word := (0#32, 0#32)
deriving DecidableEq, Repr

/-- A machine beside its words (R217, R218): the integrators of its harmonic subspaces, the members that were ENABLED at the last boundary. -/
structure MachS where
  xy : List (Word × Word) := []
  act : List Nat := []
  /-- The field-weakening trim of R215. -/
  idfw : Word := 0#32
deriving DecidableEq, Repr

/-- An observer beside its words (R221, R222). -/
structure ObsS where
  psi : Word × Word := (0#32, 0#32)
  /-- The unwrapped angle in electrical turns, and its speed in turns/s. -/
  th : Rat := 0
  om : Word := 0#32
  /-- Current i_m,q of the last frame, sign of the injection. -/
  iq : Word := 0#32
  pos : Bool := false
  good : Nat := 0
  bad : Nat := 0
  cmp : Nat := 0
deriving DecidableEq, Repr

/-- A segment of a plan (R253). -/
structure Seg where
  start : Tick
  dur : Nat
  x0 : Tick
  v0 : Word
  a : Word
  j : Word
deriving DecidableEq, Repr

/-- Where a plan ends: at a position, or in a velocity that goes on (R256). -/
inductive PlanEnd where
  | at_ (x : Tick)
  | vel (v : Word)
deriving DecidableEq, Repr

/-- A move (R258): its target and its own V, A, D, J (0: the axis value). -/
structure MoveReq where
  tgt : Tick
  v : Word := 0#32
  a : Word := 0#32
  d : Word := 0#32
  j : Word := 0#32
deriving DecidableEq, Repr

/-- Phases of a homing step: moving, stopping to turn, and so on (R266, R267). -/
structure HomeS where
  method : Nat
  ofs : Tick
  vs : Word
  vc : Word
  /-- The end of HOME_TMO. -/
  tmo : Option Tick := none
  /-- The present search direction is negative. -/
  neg : Bool
  /-- LATCH COUNT, and Z captures, as they stood when the reference was armed. -/
  cnt0 : Word := 0#32
  z0 : Nat := 0
  /-- Instant of the switch capture (methods 4, 5). -/
  tSw : Option Tick := none
  /-- The reference position x_L. -/
  xl : Option Tick := none
  /-- The axis stops before it arms and searches (R266 step 1, R267). -/
  turn : Bool := false
  /-- Passes in a row at the stop (R268). -/
  hits : Nat := 0
  /-- The velocity the axis is taken to, and whether it is being brought to rest on the quick-stop ramp. -/
  goal : Word := 0#32
  quick : Bool := false
  /-- A reference edge came before a limit edge of the same pass; its capture has yet to complete (R267). -/
  late : Bool := false
deriving DecidableEq, Repr

/-- An axis beside its words and registers (R249 to R269). -/
structure AxisS where
  x : Tick := 0
  v : Word := 0#32
  a : Word := 0#32
  xa : Tick := 0
  va : Word := 0#32
  /-- The source position of the last pass and the remainder of the scaling (R249). -/
  pos : Option Tick := none
  rem : Int := 0
  integ : Word := 0#32
  /-- States of the low-pass and of the two notches (R251). -/
  filt : List Word := []
  plan : List Seg := []
  fin : PlanEnd := .vel 0#32
  /-- The kept target with the limits of its move, or the kept JOG value (R262). -/
  tgt : Option MoveReq := none
  jog : Option Word := none
  /-- The target as `MOTION.TARGET` shows it; the deceleration of the running plan. -/
  target : Tick := 0
  dec : Word := 0#32
  /-- Limits changed in motion: it replans at its next boundary (R261). -/
  replan : Bool := false
  /-- Consecutive passes above FE_LIM. -/
  fe : Nat := 0
  home : Option HomeS := none
  /-- A JOG that reverses: its stop at the limit ahead is planned once it is past zero (R253, R263). -/
  rev : Bool := false
  /-- A move back to the target stands at the head of the queue (R261). -/
  back : Bool := false
  /-- The consumers that took effort at the last pass (R252). -/
  on : List Nat := []
  /-- What the registers of R272 show from the end of the next pass on: STATE, ABORTING, HOMED, DECEL_RAISED, OVERSHOOT, CAUSE,
  METHOD, STEP, REVERSALS, and the counts of AXCNT. -/
  st : Nat := 0
  ab : Bool := false
  homed : Bool := false
  raised : Bool := false
  overshot : Bool := false
  cause : Nat := 0
  method : Nat := 0
  step : Nat := 0
  revs : Nat := 0
  feTrips : Nat := 0
  limTrips : Nat := 0
  homeFails : Nat := 0
deriving DecidableEq, Repr

/-- A ramp of a gear over master travel (R277). -/
structure GRamp where
  xm0 : Tick
  xf0 : Tick
  d : Word
  r0 : Word
  r1 : Word
  /-- A GMODE 1 engagement that blends the follower into the cam (R281). -/
  blend : Bool := false
  /-- It ends the gear (R283). -/
  last : Bool := false
deriving DecidableEq, Repr

/-- A gear beside its words and registers (R276 to R284). -/
structure GearS where
  xf : Tick := 0
  vf : Word := 0#32
  af : Word := 0#32
  rem : Int := 0
  /-- The master position of the last pass. -/
  xm : Option Tick := none
  /-- The ratio it runs at, and r(σ) of the last pass. -/
  num : Word := 1#32
  den : Word := 1#32
  r : Word := 0#32
  /-- The running ramp, and one that starts at the next pass: master distance and r1, ending the gear. -/
  ramp : Option GRamp := none
  next : Option (Word × Word × Bool) := none
  /-- An engagement that has not begun: M_START where it waits for it, MODE and D_ENG (R281). -/
  armed : Option (Option Tick × Nat × Word) := none
  /-- A STOP disengage: the plan of the follower's reference and its end (R283). -/
  stopping : Bool := false
  stop : List Seg := []
  stopAt : Tick := 0
  /-- STATE and CAUSE, as the registers show them from the end of the next pass on (R300). -/
  st : Nat := 0
  cause : Nat := 0
  /-- Commands whose boundary has come and that its pass carries out, oldest first: opcode, parameters, ticket (R296). -/
  todo : List (Nat × List Word × Nat) := []
deriving DecidableEq, Repr

/-- A segment in the look-ahead of a stroke group (R288, R289): type, flags, tag, feed, blend, arc fields, converted deltas. -/
structure StrokeSeg where
  typ : Nat
  stop : Bool
  noOvr : Bool
  tag : Nat
  feed : Word
  blend : Word
  arc : Word
  ci : Word
  cj : Word
  delta : List Tick
deriving DecidableEq, Repr

/-- A blend arc at a corner (R291): its radius and the angle the directions turn by, in turns. -/
structure Blend where
  r : Rat
  turns : Rat
deriving DecidableEq, Repr

/-- A stroke group beside its words and registers (R287 to R295): the look-ahead, the members' positions at the start of its
first segment and of the segment before it, the path state in the first segment, and its plan from the last tick on. -/
structure StrokeS where
  segs : List StrokeSeg := []
  base : List Tick := []
  /-- The deltas of the preceding segment, where that is a SPLINE of the same run. -/
  prev : Option (List Tick) := none
  /-- The blend that led into the first segment with the direction it came from, and the blend at its end. -/
  bin : Option (Blend × List Rat) := none
  bout : Option Blend := none
  /-- Path distance, speed and acceleration at the last tick; the plan from there: duration, acceleration, jerk. -/
  s : Rat := 0
  v : Rat := 0
  a : Rat := 0
  plan : List (Rat × Rat × Rat) := []
  /-- Segments that are traced when the plan comes to rest. -/
  planSegs : Nat := 0
  /-- The end tangent of the first segment, a SPLINE, as fixed when the path entered it. -/
  tan : Option (List Rat) := none
  /-- What remains of a running dwell in edge ticks. -/
  dwell : Option Nat := none
  /-- An entry was rejected: the data end (R290). -/
  bad : Bool := false
  /-- The override of the ticks from the next on (R292). -/
  ovr : Word := 0x3F800000#32
  /-- STATE, and the count of STARVED, as the registers show them from the end of the next tick on (R300). -/
  st : Nat := 0
  starves : Nat := 0
deriving DecidableEq, Repr

/-- A filter beside its words (R307). -/
structure FiltS where
  x1 : Word := 0#32
  x2 : Word := 0#32
  y1 : Word := 0#32
  y2 : Word := 0#32
deriving DecidableEq, Repr

/-- What a context keeps between passes, by its kind, committed as one unit with its words (R42). -/
inductive CtxState where
  | plain
  | wind (x : WindS)
  | mach (x : MachS)
  | obs (x : ObsS)
  | axis (x : AxisS)
  | gear (x : GearS)
  | stroke (x : StrokeS)
  | filt (x : FiltS)
deriving DecidableEq, Repr

/-- The map store and the cam store (R209, R285): words by number. -/
structure StoreS where
  /-- 2,048 words a map, as its slot window shows them. -/
  map : Tbl Word := []
  /-- 4,096 words a cam: points, then X0, X_SPAN and Y_RISE at 2,048. -/
  cam : Tbl Word := []
deriving DecidableEq, Repr


/-! ### Contexts, passes and timing groups (01_architecture.md, 02_selftimed_core.md) -/

/-- What a binding attaches to a context (R196): the parameter words of its CTX_BIND. -/
structure Ctx where
  kind : Nat := 0
  grp : Nat := 0
  div : Nat := 1
  phase : Nat := 0
  num : Nat := 0
  opts : Word := 0
  committed : Bool := false
  /-- Its first pass may run: the boundary after ADMIT has passed (R41). -/
  live : Bool := false
  /-- The divider in effect, shed included (R48). -/
  effDiv : Nat := 1
  /-- Consecutive late passes (R44, R45). -/
  late : Nat := 0
  /-- The parameter words of the binding in force. -/
  bind : List Word := []
  /-- Follow-on moves of an axis (R260). -/
  queue : List MoveReq := []
  /-- The device time of the last committed pass (R45). -/
  last : Tick := 0
  /-- The output its consumers read as one unit (R25), and the one before it, which an observer reads of a winding that has committed
  in its frame already (R196, R221). -/
  out : List Word := []
  prev : List Word := []
  st : CtxState := .plain
deriving DecidableEq, Repr

/-- An edge set a winding pass writes (R172): nib set, sequence, and per nib ON and OFF. -/
structure EdgeSet where
  set : Nat
  seq : Word
  edges : List (Nat × Nat)
deriving DecidableEq, Repr

/-- What a pass does to other units when it commits. -/
inductive PassAct where
  /-- A homing axis sets up and arms its latch unit, or releases it (R266): the unit, the field channel, EDGE, the axis slot. -/
  | latchArm (unit src edge slot : Nat)
  | latchFree (unit : Nat)
  | zarm (ch : Nat)
  /-- A faulted axis disables a consumer (R262). -/
  | disable (slot : Nat)
  /-- A position sample of a source for the latch units (R240). -/
  | hist (src : Nat) (pos : Tick) (valid : Bool)
  /-- A command of a gear ended: its held reply goes, with REFUSED_STATE where it was not carried out (R296). -/
  | gearDone (ticket : Nat) (done : Bool)
  /-- Words of a context come into force (R282). -/
  | force (off : Nat) (ws : List Word)
  /-- The position step of an AXIS capture channel (R302). -/
  | inkAxis (num : Nat) (x : Tick)
  /-- A stroke group takes an entry from its ring. -/
  | ringDrop (ring : Nat)
  /-- A value for the Inkwell triggers, and a PROBE step (R302, R315). -/
  | inkValue (kind src : Nat) (w : Word)
  | inkProbe (slot : Nat) (a b : Word)
deriving DecidableEq, Repr

/-- What a pass commits as one unit when it ends (R42). -/
structure PassOut where
  st : CtxState := .plain
  /-- Words of the context, and fields of registers. -/
  words : List (Nat × Word) := []
  flds : List (RF × Nat) := []
  out : List Word := []
  occs : List Occ := []
  edges : Option EdgeSet := none
  /-- A fault the pass detected (R201): its cause. -/
  fault : Option Nat := none
  /-- State changes of contexts that still stand in the first state: slot, from, to. -/
  trans : List (Nat × Nat × Nat) := []
  acts : List PassAct := []
  /-- Map moves proposed (R212): map, entry, move. -/
  moves : List (Nat × Nat × Rat) := []
deriving DecidableEq, Repr

/-- A pass on a Quill (R42): its context, its frame, the linked outputs it read when it started, its result. -/
structure Run where
  slot : Nat
  grp : Nat
  seq : Word
  ins : List (Nat × List Word) := []
  /-- The boundary the pass belongs to, and the time since the last committed pass in edge ticks (R45). -/
  t : Tick := 0
  el : Nat := 0
  /-- The context as the pass read it when it started (R42), and its status word. -/
  ctx : Ctx := {}
  stat : Word := 0#32
  out : Option PassOut := none
deriving DecidableEq, Repr

/-- A timing group (R19, R23, R24, R26). -/
structure GrpS where
  /-- The carrier period in force, in edge ticks; mode and double update in force (R168). -/
  p : Nat := 0
  mode : Nat := 0
  du : Bool := false
  /-- Length of the running period, with its adjustment; the adjustment of the next one (R191). -/
  len : Nat := 0
  adj : Int := 0
  /-- Carrier zeros since the group's first (R192). -/
  zeros : Nat := 0
  /-- The next boundary is the group's first (R23). -/
  first : Bool := true
  /-- The next boundary: its device time, and whether it is a carrier zero. -/
  next : Option (Tick × Bool) := none
  /-- The carrier zero the running period started at. -/
  zeroAt : Tick := 0
  /-- T(k), the last boundary. -/
  bndAt : Tick := 0
  /-- The deadline offset W of the running frame. -/
  w : Nat := 0
  /-- R(k), once the results of the frame are posted. -/
  rel : Option Tick := none
  /-- Contexts whose pass of the running frame has not started. -/
  todo : List Nat := []
  /-- The link-skip instant of the frame has passed. -/
  skip : Bool := false
deriving DecidableEq, Repr

/-- A change that waits for its boundary (R14, R79). -/
inductive Change where
  | reg (addr : Nat) (mask val : Word)
  | ctxWords (slot off : Nat) (ws : List Word)
  | bind (slot : Nat) (ws : List Word)
  | delete (slot : Nat)
  | commit (slot : Nat)
  | window (pct : Nat)
  | shed
  | groupState (st : Nat)
  | windEnable (slot : Nat)
  | windDisable (slot mode : Nat)
  | calSense (ch : Nat)
  | calMap (m : Nat)
  | ctxCmd (slot op : Nat) (ws : List Word)
  | fwSwap (kind : Nat)
  | mtpa (m : Nat)
  /-- Links from a module, or from every other module, are stale (R442). -/
  | linkCut (mod : Option Nat)
deriving DecidableEq, Repr

/-- A pending change: its group, the boundary it was assigned (none while the group has none, R20), its request. -/
structure Pend where
  grp : Nat
  due : Option Word
  zero : Bool := false
  ticket : Nat := 0
  ch : Change
deriving DecidableEq, Repr

/-- The loop engine beside its registers. -/
structure LoopS where
  /-- Map moves of the passes of a frame, by group and slot, applied at the group's next boundary (R212). -/
  moves : List (Nat × Nat × List (Nat × Nat × Rat)) := []
  ctxs : Tbl Ctx := []
  grps : List GrpS := List.replicate 8 {}
  runs : List Run := []
  pend : List Pend := []
  /-- Consecutive slow measurements, and since the level last moved (R46). -/
  slow : Nat := 0
  /-- Measurements in a row at least 3 % faster than the floor. -/
  fast : Nat := 0
  /-- The last measurement was slow. -/
  wasSlow : Bool := false
  /-- The level rose in this run of slow measurements. -/
  rose : Bool := false
deriving DecidableEq, Repr



/-! ### Field I/O (14_field_io.md) -/

/-- The field interface beside its registers. What the field die itself holds survives a reset of the core die (R362): the
registers of the channels, the accepted levels, the silence. -/
structure FieldS where
  /-- The instant of each input's last accepted edge. -/
  edgeAt : Tbl Tick := []
  /-- Levels accepted on the field die, FIO31 to FIO0 (R361). -/
  raw : Word := 0#32
  /-- The next heartbeat carries the new-session mark; a heartbeat in flight towards the field die with its mark, and an
  answer in flight with the outputs moved (R362). -/
  mark : Bool := true
  sent : Option Bool := none
  ans : Option Word := none
  /-- Field heartbeats since the last link timeout (R363). -/
  run : Nat := 0
  /-- Outputs are at their safe values; their states as the silence began; the outputs it moved (R373). -/
  silent : Bool := false
  heldOn : Word := 0#32
  moved : Word := 0#32
  /-- Edges in the running chatter window; the end of the hold-off (R366). -/
  win : Tbl Nat := []
  hold : Tbl Tick := []
deriving DecidableEq, Repr

/-! ### Safety functions (13_safety.md) -/

/-- A safe axis beside its registers (R337 to R339). Positions and speeds in safe units. -/
structure SafeAx where
  v : Rat := 0
  p : Rat := 0
  /-- |v| at the entry of SS1 or SS2, and its instant. -/
  v0 : Rat := 0
  t0 : Tick := 0
  p0 : Rat := 0
  px : Rat := 0
  /-- Cycles in a row of a mismatch, below V_ZERO, and without a new sample of the primary and the secondary source. -/
  cmp : Nat := 0
  still : Nat := 0
  oldP : Nat := 0
  oldS : Nat := 0
  lastP : Tick := 0
  lastS : Tick := 0
  /-- The SLS level that waits for T_SLS. -/
  pend : Nat := 0
  /-- Function codes violated, as bits. -/
  codes : Nat := 0
  /-- MISMATCH or SOURCE held in the last cycle. -/
  bad : Bool := false
deriving DecidableEq, Repr

/-- Husk (R329 to R345): independent of every reset of the core die (R117). -/
structure HuskS where
  on : Bool := true
  /-- 0 INIT, 1 STO, 2 PERMIT, 3 SS1, 4 SINGLE, 5 LOCKED, 6 DEAD (R343); the state before SINGLE. -/
  st : Nat := 0
  prev : Nat := 1
  /-- Latched causes, numbered as in `SAFE.STATE.CAUSE`. -/
  cause : Word := 0#32
  /-- The stored subset of the set in force (H fields only), as Husk's non-volatile memory holds it. -/
  set : Option (List Word) := none
  /-- GEN_A and GEN_B are driven high; GEN_SETTLE runs (R331). -/
  gen : Bool := false
  settle : Bool := false
  /-- STO_A and STO_B after STO_FILT; the input that went off first while they differ (R336). -/
  a : Bool := false
  b : Bool := false
  disc : Option Nat := none
  /-- Consecutive exchanges with a difference: state, inputs, counts (R341). -/
  nMode : Nat := 0
  nIn : Nat := 0
  nCnt : List Nat := List.replicate 8 0
  /-- Husk's own quadrature counters of FB0 to FB7: the levels of A and B, the counts, and as they stood at the last cycle (R237, R342). -/
  encA : List Bool := List.replicate 8 false
  encB : List Bool := List.replicate 8 false
  n : List Int := List.replicate 8 0
  nAt : List Int := List.replicate 8 0
  /-- Count differences of the last cycle. -/
  cnt : List Word := List.replicate 8 0#32
  seq : Nat := 0
  /-- What Scribe last reported: telegram contactor commands and applied pairs. -/
  word3 : Word := 0#32
  /-- The running contactor windows: monitor, command and the instant of the command (R345). -/
  win : List (Nat × Bool × Tick) := []
  /-- The feedback of K0 to K3 as Husk sees it on FIO0 to FIO7 (R328). -/
  fb : List Bool := List.replicate 4 false
deriving DecidableEq, Repr

/-- The safety channels beside their registers (R328 to R356). -/
structure SafeS where
  husk : HuskS := {}
  /-- The set in force at Scribe, a staged set, the confirmations that wait for Scribe's next cycle (R352, R356). -/
  set : Option (List Word) := none
  stg : Option (List Word) := none
  conf : List Request := []
  /-- Latched causes; those of them that ask for SS1 only (R338). -/
  latched : Word := 0#32
  soft : Word := 0#32
  rst : Bool := true
  ssEnd : Bool := false
  /-- STO causes present in the last cycle (R359). -/
  told : Word := 0#32
  /-- STO_A and STO_B after STO_FILT as they stand and as sampled; the input that went off first while they differ. -/
  a : Bool := false
  b : Bool := false
  sa : Bool := false
  sb : Bool := false
  disc : Option Nat := none
  /-- An acknowledgement waits for the next cycle; the restart is armed (R355). -/
  ack : Bool := false
  armed : Bool := false
  /-- MODE in the frame before the last cycle's. -/
  prev : Nat := 0
  /-- No frame from Husk yet; no valid frame since the last timeout (R335, R341). -/
  first : Bool := true
  silent : Bool := false
  /-- Frames in flight, Scribe's last own frame, Husk's last valid frame. -/
  toHusk : Option (List Word) := none
  toScribe : Option (List Word) := none
  mine : List Word := []
  hf : List Word := []
  seq : Nat := 0
  nMode : Nat := 0
  nIn : Nat := 0
  nCnt : List Nat := List.replicate 8 0
  /-- Counts of FB0 to FB7 at the last cycle, and their differences over it. -/
  cntAt : List Int := List.replicate 8 0
  cnt : List Word := List.replicate 8 0#32
  /-- Every safe axis is at standstill in SS1. -/
  stopped : Bool := false
  ax : List SafeAx := List.replicate 8 {}
  /-- Contactor commands given at; wrong readbacks in a row by pair and channel (R347). -/
  tc : List Tick := List.replicate 4 0
  wrong : List Nat := List.replicate 8 0
  /-- The instant of the last accepted request (R350). -/
  tAcc : Tick := 0
  /-- The telegram (R348 to R350): an accepted request exists in its window, the last accepted copy with its path,
  accepted requests in a row with PERMIT, lost cycles, valid copies in a row and loss by path, own COUNT, where
  responses go, the responses that are due. -/
  telOn : Bool := false
  telLast : List Word := []
  telPath : Nat := 0
  telPermit : Bool := false
  telRun : Nat := 0
  telLost : Nat := 0
  good : List Nat := [0, 0]
  lost : List Bool := [false, false]
  telCnt : Nat := 0
  telTo : List Origin := [.host, .host]
  telDue : Nat := 0
  /-- Responses sent, newest first: path, where to, words. -/
  sent : List (Nat × Origin × List Word) := []
  /-- The registers 0x200000 to 0x20008C as Scribe wrote them at the end of its last cycle (R360). -/
  shown : List Word := []
  /-- A single-channel interval runs (R354). -/
  single : Bool := false
deriving DecidableEq, Repr



/-! ### Ethernet, network time and timed pulses (15_ethernet_time.md) -/

/-- What a transmitted frame is (R381, R382, R385, R389). -/
inductive NetMsg where
  | arp (ip : Word)
  | icmp (ip : Word) (body : List Byte)
  /-- A PTP message by its messageType; the transmit timestamp in ST that it carries, where it carries one. -/
  | ptp (kind : Nat) (stamp : Option Int)
  | udp (ip : Word) (dport sport : Nat) (words : List Word)
deriving DecidableEq, Repr

/-- A frame in a transmit queue: its queue, its bytes, its tag's PCP where it is tagged, its destination MAC, when it came. -/
structure NetFrame where
  queue : Nat
  bytes : Nat
  tag : Option Nat := none
  mac : BitVec 48 := 0
  msg : NetMsg
  enq : Tick := 0
deriving DecidableEq, Repr

/-- A port beside its registers: its four queues, the instant its line is free, timestamps Reed has not taken (R384), the
datagram sequence of its readout (R383). -/
structure NetPort where
  queues : List (List NetFrame) := List.replicate 4 []
  lineFree : Tick := 0
  ts : List (Tick × Bool) := []
deriving DecidableEq, Repr

/-- A timed pulse output beside its registers (R393, R394). Instants of an ST output are in 2^-16 ns. -/
structure Pulse where
  start : Int := 0
  /-- Length of PERIOD and of WIDTH in the units of the start. -/
  per : Int := 0
  wid : Int := 0
  /-- Pulses left to emit; none where unbounded. -/
  left : Option Nat := none
  /-- The index of the next pulse whose edges are not both fixed, its fixed rising edge, the fixed edges of the pulse before it. -/
  k : Nat := 0
  rise : Option Tick := none
  last : Option (Tick × Tick) := none
  /-- A replaced pulse that is still active: its falling edge and its polarity. -/
  tail : Option (Tick × Bool) := none
  /-- A pulse whose rising edge falls before this instant is skipped. -/
  notBefore : Tick := 0
deriving DecidableEq, Repr

/-- Ethernet and the time unit beside their registers. -/
structure NetS where
  ports : List NetPort := List.replicate 2 {}
  /-- The base pair of ST (R386), ST in 2^-16 ns. -/
  dtB : Tick := 0
  stB : Int := 0
  /-- The servo's integ, and what the PLL ratio is moved by, in ppb (R391, R392). -/
  integ : Rat := 0
  disc : Rat := 0
  /-- A running slew: the RATE before it and the instant its offset is absorbed (R388). -/
  slew : Option (Word × Tick) := none
  /-- Samples in a row inside and outside LOCK_THR. -/
  good : Nat := 0
  bad : Nat := 0
  pulses : List Pulse := List.replicate 4 {}
  /-- Frames that left, by port, newest first. -/
  sent : List (Nat × NetFrame) := []
deriving DecidableEq, Repr

/-! ### CAN FD controllers (16_can_fd.md) -/

/-- A message of a transmit slot (R404). -/
structure CanMsg where
  ide : Bool
  fdf : Bool
  brs : Bool
  single : Bool
  rtr : Bool
  notify : Bool
  id : Nat
  tag : Nat
  dlc : Nat
  data : List Byte
deriving DecidableEq, Repr

/-- A transmit slot: its message, a cancellation that skips the next occurrence of its window (R406). -/
structure CanSlot where
  msg : Option CanMsg := none
  skip : Bool := false
deriving DecidableEq, Repr

/-- A controller beside its registers. -/
structure CanN where
  slots : List CanSlot := List.replicate 16 {}
  /-- The attempt whose start of frame was sent: a slot, 16 the command reply, 17 the reference message. -/
  cur : Option Nat := none
  curMsg : Option CanMsg := none
  /-- TEC, REC with the values the standard lets them take beyond their fields. -/
  tec : Nat := 0
  rec_ : Nat := 0
  /-- The bus-off recovery sequence runs (R402). -/
  recov : Bool := false
  /-- Start of frame of the running cycle (R411), windows open in it, exclusive slots due. -/
  cycAt : Tick := 0
  open_ : List Nat := []
  due : List Nat := []
  /-- The first cycle has begun; a reference message is to be sent. -/
  begun : Bool := false
  ref : Bool := false
  /-- A write of SLEEP waits for the frame on the bus (R401). -/
  sleep : Bool := false
deriving DecidableEq, Repr

/-- The CAN controllers, and the frames they sent (controller, slot, message), newest first. -/
structure CanS where
  n : List CanN := List.replicate 4 {}
  sent : List (Nat × Nat × CanMsg) := []
  /-- Controllers whose wake detector woke the module from Dormant, with the CAN_WAKE detail (R412). -/
  woke : Option (Nat × Nat) := none
deriving DecidableEq, Repr

/-! ### Sward and Sheaf (17_sward_sheaf.md) -/

/-- A Sward frame (R420). -/
structure SwFrame where
  cls : Nat
  dst : Nat
  svc : Nat
  ttl : Nat := 15
  reed : Bool := false
  seq : Nat := 0
  src : Nat := 0
  ack : Nat := 0
  payload : List Word := []
deriving DecidableEq, Repr

/-- A frame queued at an output: the port it arrived by, none for the module's own; since when it waits; whether it goes out
on its port whatever the route table says (R436); a retransmission, which its stream already holds. -/
structure SwQ where
  f : SwFrame
  from_ : Option Nat := none
  since : Tick := 0
  pinned : Bool := false
deriving DecidableEq, Repr

/-- An ordered set a port sent (R417). -/
inductive SwSet where
  | cred (cls count : Nat)
  | epoch (e : Nat) (late : Int)
  | dreq (s : Nat)
  | drsp (s : Nat) (t : Nat)
deriving DecidableEq, Repr

/-- A Sward port beside its registers. -/
structure SwPort where
  queues : List (List SwQ) := List.replicate 4 []
  /-- Tokens of classes 0 to 2 in bytes, and when they were last counted (R424). -/
  tok : List Rat := [0, 0, 0]
  tokAt : Tick := 0
  /-- Credits owed for classes 2 and 3, since when. -/
  owed : List Nat := [0, 0]
  owedAt : List Tick := [0, 0]
  /-- Buffer sizes of the neighbour in credits; HELLO sent; HELLO received; LEAVE received. -/
  helloSent : Bool := false
  helloGot : Bool := false
  hush : Bool := false
  /-- The last DREQ: its tag and its instant; the last 16 delays (R419). -/
  tag : Nat := 0
  dreqAt : Option Tick := none
  delays : List Int := []
  /-- Code errors in the running epoch. -/
  errs : Nat := 0
deriving DecidableEq, Repr

/-- The sending side of a stream of class 2 or 3 (R428). -/
structure SwTx where
  peer : Nat
  cls : Nat
  next : Nat := 1
  /-- Unacknowledged frames, oldest first, each with the port it is bound to. -/
  una : List (SwFrame × Option Nat) := []
  resends : Nat := 0
  since : Tick := 0
  last : Tick := 0
deriving DecidableEq, Repr

/-- The receiving side of a stream. -/
structure SwRx where
  peer : Nat
  cls : Nat
  /-- Highest SEQ received in order; 0 none. -/
  got : Nat := 0
  /-- An acknowledgement is due since. -/
  due : Option Tick := none
  /-- The port by which its last frame came. -/
  port : Nat := 0
  last : Tick := 0
deriving DecidableEq, Repr

/-- The Sward beside its registers. -/
structure SwardS where
  ports : List SwPort := List.replicate 4 {}
  tx : List SwTx := []
  rx : List SwRx := []
  /-- Route changes staged for the next epoch boundary (OP, ADDR, PLEN, PORTS). -/
  staged : List (Nat × Nat × Nat × Nat) := []
  /-- The port by which the last CMD_REQ of a node arrived (R430). -/
  via : List (Nat × Nat) := []
  /-- Fabric time (R434). -/
  dtB : Tick := 0
  ftB : Rat := 0
  frate : Rat := 0
  marked : Bool := false
  good : Nat := 0
  bad : Nat := 0
  /-- Epochs in a row without a mark. -/
  none_ : Nat := 0
  /-- The host receive buffer: its words, the lengths of its entries from TAIL on (R437). -/
  hrx : Tbl Word := []
  ents : List Nat := []
  /-- Frames and ordered sets sent, newest first. -/
  sent : List (Nat × SwFrame) := []
  sets : List (Nat × SwSet) := []
  /-- Replies that wait for the epoch boundary (R431). -/
  waits : List Request := []
deriving DecidableEq, Repr

/-- The last arrival of a cross-module link (R441): FT of its boundary, when it arrived, the output, whether it was told stale. -/
structure Remote where
  v : Nat
  ft : Tick
  at_ : Tick
  /-- The pass period of its producer in edge ticks. -/
  per : Nat := 0
  out : List Word
  stale : Bool := false
deriving DecidableEq, Repr

/-- A mirror of a group's frame as it has arrived on one port (R443). -/
structure Mirror where
  port : Nat
  grp : Nat
  seq : Word
  state : Nat
  /-- Words 64 to 127 by slot, and CORR_R, CORR_F and ACC by nib. -/
  ctxs : List (Nat × List Word)
  nibs : List (Nat × Word × Word × Word)
  /-- When it was complete. -/
  at_ : Tick
deriving DecidableEq, Repr

/-- The Sheaf beside its registers. -/
structure SheafS where
  /-- The last status frame of a module, by SLOT; joins (with their role) and planned departures that await the next Sheaf
  epoch; the standby's SLOT; consumers of the module's own outputs: SLOT and local slot. -/
  seen : List (Nat × Tick) := []
  joins : List (Nat × Bool) := []
  leaves : List Nat := []
  standby : Option Nat := none
  users : List (Nat × Nat) := []
  /-- The master's last beacon: when it came, and by group P and the FT of its last zero. -/
  beaconAt : Option Tick := none
  beacon : List (Nat × Nat × Tick) := []
  /-- A join was sent; this module's own planned departure waits. -/
  joinSent : Bool := false
  leaving : Bool := false
  /-- Zeros in a row within 32 and beyond 256 ticks, by group. -/
  near : List Nat := List.replicate 8 0
  far : List Nat := List.replicate 8 0
  /-- Last arrivals of links; mirrors that arrived in the running frames. -/
  remote : List Remote := []
  mirrors : List Mirror := []
  /-- A supervised pass of TG0 committed in the running frame (R445). -/
  passed : Bool := false
  /-- The boundary of TG0 whose mirror was absent, with the check of PEER_LEAD_N still to come (R446); SHEAF_PEER told so. -/
  check : Option Tick := none
  peerTold : Bool := false
  /-- The next beacon carries the takeover. -/
  took : Bool := false
deriving DecidableEq, Repr

/-! ### Start-up, NVM and keep memory (05_startup_config_update.md) -/

/-- The NVM die (R112): words of the firmware banks (bank × 0x10_0000 + word; an erased word reads as all ones), the images of
the configuration banks, the backups of the map and cam stores with what each is marked with. It survives every reset. -/
structure NvmS where
  fw : Tbl Word := []
  cfg0 : List Word := []
  cfg1 : List Word := []
  /-- Directory words and contents of maps, by map; of cams, by cam. An absent one is an empty table. -/
  maps : List (Nat × Word × List Word) := []
  cams : List (Nat × Word × List Word) := []
  /-- Backups whose check word is wrong: map or cam number, true for a cam. -/
  bad : List (Nat × Bool) := []
deriving DecidableEq, Repr

/-- Keep memory beside its registers (R128 to R132). It survives every reset. -/
structure KeepS where
  /-- Writes that are not yet persistent: word and new value. -/
  busy : List (Nat × Word) := []
  /-- Writes that wait for their word, oldest first. -/
  wait : List (Nat × Word) := []
  /-- Words whose check found 1 a single-bit error, 2 an error it cannot correct (R130). -/
  bad : List (Nat × Nat) := []
  /-- Words whose event 20 was raised. -/
  told : List Nat := []
  /-- Measurements of 100 ms with the case above its range, held for word 967; 600 make a minute. -/
  hot : Nat := 0
deriving DecidableEq, Repr

/-- A firmware stage in progress (R135): length and words received, words programmed, the instant programming has reached. -/
structure FwStage where
  len : Nat
  got : Nat := 0
  prog : Nat := 0
  at_ : Tick
  ended : Bool := false
deriving DecidableEq, Repr

/-- Start-up, configuration and firmware beside their registers. -/
structure BootS where
  /-- Start-up steps done: 0 none, 1 straps, 2 firmware, 3 backups, 4 configuration. -/
  step : Nat := 0
  /-- Causes of the reset that is held (R117). -/
  cause : Nat := 1
  /-- The bank of a stage that a reset or a restart of Reed ended: its event 22 is owed. -/
  owed22 : Option Nat := none
  /-- The field channel whose edge woke the module, with the detail of FIO_WAKE (R367). -/
  fioWoke : Option (Nat × Nat) := none
  stage : Option FwStage := none
  /-- A swap of Reed's program memories that waits for its boundary: its group (0xFFFF none) and its kind: 0 a switch, else a
  fallback and 1 more than its cause (R136, R137). -/
  swap : Option (Nat × Nat) := none
  /-- A swap that was made and ends as Reed resumes: its kind. -/
  resume : Option Nat := none
  /-- The dispatcher passes no request to Reed (R136). -/
  hold : Bool := false
  /-- The group of the trial's swaps, its time in seconds, its end. -/
  trialGrp : Nat := 0
  trialSec : Nat := 0
  trialEnd : Tick := 0
  /-- The image a trial would fall back to is the recovery firmware (R114). -/
  rom : Bool := false
  /-- The save in progress: P0, the bank and the image it writes. -/
  save : Option (Nat × Nat × List Word) := none
  /-- An application that runs after a CFG_LOAD: the blocks and the source (R127). -/
  load : Option (Nat × Nat) := none
  /-- A RESET_BLOCK of the whole module was answered (R118). -/
  resetDue : Bool := false
  /-- Rails out of their operating range, as bits by instance; the case was above the grade's range (R452). -/
  railOut : Nat := 0
  hot : Bool := false
deriving DecidableEq, Repr


/-- The state of the block. -/
structure State where
  /-- The register file: every register of spec/, and the context window. -/
  regs : Tbl Word := []
  /-- The values in force of shadowed (RS) registers, where they differ from their reset words (R11, R14, R91). -/
  force : Tbl Word := []
  /-- Device time in edge ticks (R62). -/
  dt : Tick := 0
  evt : EvtS := {}
  cmd : CmdS := {}
  phase : Phase := .reset
  reed : ReedSt := .held
  clk : ClkS := {}
  loop : LoopS := {}
  sense : SenseS := {}
  nib : NibB := {}
  ink : InkS := {}
  fdbk : FdbkS := {}
  field : FieldS := {}
  safe : SafeS := {}
  store : StoreS := {}
  net : NetS := {}
  can : CanS := {}
  sward : SwardS := {}
  sheaf : SheafS := {}
  nvm : NvmS := {}
  keep : KeepS := {}
  boot : BootS := {}
  /-- The model's own counter of the open values read so far (each use of `Config.freeWord` takes the next). -/
  free : Nat := 0
  /-- The commands that are waiting, first in, first out. -/
  pending : List Instr := []
deriving DecidableEq, Repr

/-- The machine with reset asserted: every register at its reset word, nothing running, the queue empty. -/
def State.reset : State := {}

end Sys2Proof.Machine
end

