-- ==== Sys2Proof/Machine/Ops.lean ====
section
/-! DEFINITION. The named operations every chapter's meanings are written over: registers, events, rings,
packets and replies, contexts, groups and pending changes. -/

namespace Sys2Proof.Machine

open Sys2Proof

/-! ### The state with one field replaced -/

/-- The state with its field `regs` replaced. -/
def State.withRegs (s : State) (x : Tbl Word) : State := { s with regs := x }

/-- The state with its field `force` replaced. -/
def State.withForce (s : State) (x : Tbl Word) : State := { s with force := x }

/-- The state with its field `dt` replaced. -/
def State.withDt (s : State) (x : Tick) : State := { s with dt := x }

/-- The state with its field `evt` replaced. -/
def State.withEvt (s : State) (x : EvtS) : State := { s with evt := x }

/-- The state with its field `cmd` replaced. -/
def State.withCmd (s : State) (x : CmdS) : State := { s with cmd := x }

/-- The state with its field `phase` replaced. -/
def State.withPhase (s : State) (x : Phase) : State := { s with phase := x }

/-- The state with its field `reed` replaced. -/
def State.withReed (s : State) (x : ReedSt) : State := { s with reed := x }

/-- The state with its field `clk` replaced. -/
def State.withClk (s : State) (x : ClkS) : State := { s with clk := x }

/-- The state with its field `loop` replaced. -/
def State.withLoop (s : State) (x : LoopS) : State := { s with loop := x }

/-- The state with its field `sense` replaced. -/
def State.withSense (s : State) (x : SenseS) : State := { s with sense := x }

/-- The state with its field `nib` replaced. -/
def State.withNib (s : State) (x : NibB) : State := { s with nib := x }

/-- The state with its field `ink` replaced. -/
def State.withInk (s : State) (x : InkS) : State := { s with ink := x }

/-- The state with its field `fdbk` replaced. -/
def State.withFdbk (s : State) (x : FdbkS) : State := { s with fdbk := x }

/-- The state with its field `field` replaced. -/
def State.withField (s : State) (x : FieldS) : State := { s with field := x }

/-- The state with its field `safe` replaced. -/
def State.withSafe (s : State) (x : SafeS) : State := { s with safe := x }

/-- The state with its field `store` replaced. -/
def State.withStore (s : State) (x : StoreS) : State := { s with store := x }

/-- The state with its field `net` replaced. -/
def State.withNet (s : State) (x : NetS) : State := { s with net := x }

/-- The state with its field `can` replaced. -/
def State.withCan (s : State) (x : CanS) : State := { s with can := x }

/-- The state with its field `sward` replaced. -/
def State.withSward (s : State) (x : SwardS) : State := { s with sward := x }

/-- The state with its field `sheaf` replaced. -/
def State.withSheaf (s : State) (x : SheafS) : State := { s with sheaf := x }

/-- The state with its field `nvm` replaced. -/
def State.withNvm (s : State) (x : NvmS) : State := { s with nvm := x }

/-- The state with its field `keep` replaced. -/
def State.withKeep (s : State) (x : KeepS) : State := { s with keep := x }

/-- The state with its field `boot` replaced. -/
def State.withBoot (s : State) (x : BootS) : State := { s with boot := x }

/-- The state with its field `free` replaced. -/
def State.withFree (s : State) (x : Nat) : State := { s with free := x }

/-- The state with another queue of waiting commands. -/
def State.withPending (s : State) (x : List Instr) : State := { s with pending := x }

/-! ### Status codes (R80) -/

def stOK : Nat := 0x00
def stPENDING : Nat := 0x01
def stBAD_CRC : Nat := 0x10
def stBAD_OPCODE : Nat := 0x11
def stBAD_PARAM : Nat := 0x12
def stRANGE : Nat := 0x13
def stBUSY_TARGET : Nat := 0x20
def stREFUSED_STATE : Nat := 0x21
def stREFUSED_CHILD : Nat := 0x22
def stOVERSUBSCRIBED : Nat := 0x23
def stSAFETY_LOCK : Nat := 0x24
def stNOT_READY : Nat := 0x30
def stWORN : Nat := 0x31
def stINTERNAL : Nat := 0x40

/-- A status that says the request was refused (R80): neither executed nor pending. -/
def stRefused (st : Nat) : Bool := decide (0x10 ≤ st) && decide (st ≠ 0x31)

/-! ### Registers (R9, R11, R13) -/

/-- A register row holds an address. -/
def rowHas (r : RegRow) (a : Nat) : Bool :=
  if a < r.base then false
  else
    let d := a - r.base
    let i := if r.st1 = 0 then 0 else d / r.st1
    let rem := if r.st1 = 0 then d else d % r.st1
    decide (i < r.n1) && (if r.st2 = 0 then decide (rem = 0) else decide (rem % r.st2 = 0) && decide (rem / r.st2 < r.n2))

/-- The register row of an address; none where no register is listed (R89). -/
def regRow (a : Nat) : Option RegRow := (regRows (a / 65536)).find? (rowHas · a)

/-- Base, size, entry size and overflow policy of ring `n` at reset, in 64-byte units (R101). -/
def ringReset (n : Nat) : Nat × Nat × Nat × Nat :=
  if n < 8 then (32 * n, 32, 0, 0)
  else if n < 16 then (256 + 32 * (n - 8), 32, 0, 2)
  else if n < 20 then (512 + 64 * (n - 16), 64, 4, 0)
  else if n < 36 then (768 + 64 * (n - 20), 64, 16, 3)
  else if n < 44 then (1792 + 128 * (n - 36), 128, 0, 2)
  else if n < 60 then (2816 + 64 * (n - 44), 64, 0, if (n - 44) % 4 < 2 then 0 else 2)
  else (3840 + 64 * (n - 60), 64, 20, 0)

/-- The event numbers that are not reserved (R451). -/
def evDefined (e : Nat) : Bool :=
  decide (e ≤ 2) || (decide (4 ≤ e) && decide (e ≤ 11)) || (decide (16 ≤ e) && decide (e ≤ 27))
  || (decide (32 ≤ e) && decide (e ≤ 41)) || (decide (64 ≤ e) && decide (e ≤ 67)) || (decide (96 ≤ e) && decide (e ≤ 110))
  || (decide (128 ≤ e) && decide (e ≤ 134)) || (decide (144 ≤ e) && decide (e ≤ 147)) || (decide (160 ≤ e) && decide (e ≤ 182))
  || (decide (192 ≤ e) && decide (e ≤ 220)) || (decide (224 ≤ e) && decide (e ≤ 227)) || (decide (232 ≤ e) && decide (e ≤ 238))
  || (decide (240 ≤ e) && decide (e ≤ 255))

/-- The reset word of an address: that of its register row, except where it depends on the instance (R101, R460, R396). -/
def resetWord (a : Nat) : Word :=
  if 0x300000 ≤ a ∧ a < 0x300800 then
    let r := ringReset ((a - 0x300000) / 0x20)
    if a % 0x20 = 0 then wd (r.2.1 * 65536 + r.1)
    else if a % 0x20 = 4 then wd (2 ^ 31 + r.2.2.2 * 2 ^ 29 + r.2.2.1 * 65536)
    else if a % 0x20 = 0x18 then 1#32 else 0#32
  else if 0x020400 ≤ a ∧ a < 0x020800 then (if evDefined ((a - 0x020400) / 4) then 0x10000000#32 else 0#32)
  else if a = 0x1C000C then 0xC0A84618#32
  else if a = 0x1C010C then 0xC0A84718#32
  else match regRow a with
    | some r => wd r.reset
    | none => 0#32

/-- A register as it stands. -/
def State.reg (s : State) (a : Nat) : Word := tblGet s.regs a (resetWord a)

/-- A register given a value. -/
def State.setReg (s : State) (a : Nat) (x : Word) : State := s.withRegs (tblPut s.regs a x (resetWord a))

/-- A field of a register. -/
def State.fld (s : State) (f : RF) : Nat := bitsOf (s.reg f.addr) f.lo f.w

/-- A field of a register given a value, the register's other bits unchanged. -/
def State.setFld (s : State) (f : RF) (v : Nat) : State := s.setReg f.addr (withBits (s.reg f.addr) f.lo f.w v)

/-- A one-bit field as a flag. -/
def State.flag (s : State) (f : RF) : Bool := s.fld f == 1

/-- A one-bit field set or cleared. -/
def State.setFlag (s : State) (f : RF) (b : Bool) : State := s.setFld f (b2n b)

/-- The value in force of a shadowed register (R11, R91). -/
def State.frc (s : State) (a : Nat) : Word := tblGet s.force a (resetWord a)

/-- The value in force of a shadowed register given a value. -/
def State.setFrc (s : State) (a : Nat) (x : Word) : State := s.withForce (tblPut s.force a x (resetWord a))

/-- A field of a shadowed register as it is in force. -/
def State.ffld (s : State) (f : RF) : Nat := bitsOf (s.frc f.addr) f.lo f.w

/-- A signed field. -/
def State.fldI (s : State) (f : RF) : Int := sext f.w (s.fld f)

/-- A saturating counter field counted up by one. -/
def State.cntSat (s : State) (f : RF) : State := s.setFld f (satInc f.w (s.fld f))

/-- A wrapping counter field counted up by one. -/
def State.cntWrap (s : State) (f : RF) : State := s.setFld f (s.fld f + 1)

/-- A 64-bit quantity in two registers, low word first (R9). -/
def State.reg64 (s : State) (a : Nat) : Tick := join64 (s.reg a) (s.reg (a + 4))

/-- A 64-bit quantity in two registers given a value. -/
def State.setReg64 (s : State) (a : Nat) (x : Tick) : State := (s.setReg a (lo32 x)).setReg (a + 4) (hi32 x)

/-- Several registers given values, in order. -/
def State.setRegs (s : State) (l : List (Nat × Word)) : State := l.foldl (fun t p => t.setReg p.1 p.2) s

/-- A fresh open value (R49 and every other value the spec leaves open). -/
def State.fresh (s : State) : Word × State := (Config.freeWord s.free, (s.withFree (s.free + 1)))

/-- Device time moved on to an instant a clocked event names, while the timebase is valid (R62, R63). -/
def State.at (s : State) (t : Tick) : State :=
  if s.flag R.clkStat_TB_VALID ∧ s.dt < t then s.withDt t else s

/-! ### Events (R453, R455) -/

/-- An occurrence on its way to the event arbiter. -/
def State.raise (s : State) (ev inst : Nat) (detail : Word) : State :=
  s.withEvt { s.evt with occ := s.evt.occ ++ [{ ev := ev, inst := inst, detail := detail }] }

/-- Several occurrences in order. -/
def State.raiseAll (s : State) (l : List Occ) : State := s.withEvt { s.evt with occ := s.evt.occ ++ l }

/-- The last instant a rate-limited source raised an event for an instance. -/
def rateLast (s : State) (ev inst : Nat) : Option Tick :=
  (s.evt.rate.find? (fun m => m.ev == ev && m.inst == inst)).map (·.at_)

/-- The rate mark of a source set to now. -/
def rateMark (s : State) (ev inst : Nat) : State :=
  s.withEvt { s.evt with rate := { ev := ev, inst := inst, at_ := s.dt } :: s.evt.rate.filter (fun m => !(m.ev == ev && m.inst == inst)) }

/-- A source limited to one occurrence per instance in `lim` ticks lets the next one through. -/
def rateOpen (s : State) (ev inst lim : Nat) : Bool :=
  match rateLast s ev inst with
  | none => true
  | some t => decide (lim ≤ (s.dt - t).toNat)

/-- An occurrence of a source limited to one per instance in `lim` ticks; one within the limit is dropped at the source (R453). -/
def State.raiseLim (s : State) (ev inst : Nat) (detail : Word) (lim : Nat) : State :=
  if rateOpen s ev inst lim then (rateMark s ev inst).raise ev inst detail else s

/-! ### Rings (R101 to R106) -/

/-- The words a ring holds in all. -/
def ringSize (s : State) (n : Nat) : Nat := s.fld (R.ringLoc_SIZE n) * 16

/-- The first word of a ring in ring memory. -/
def ringBase (s : State) (n : Nat) : Nat := s.fld (R.ringLoc_BASE n) * 16

/-- Words in a ring. -/
def ringWords (s : State) (n : Nat) : Nat := s.fld (R.ringFill_WORDS n)

/-- Free words of a ring; none while its EN is 0 (R103). -/
def ringFree (s : State) (n : Nat) : Nat :=
  if s.flag (R.ringCtrl_EN n) then ringSize s n - ringWords s n else 0

/-- The entries of a ring, oldest first. -/
def ringEnts (s : State) (n : Nat) : List Ent := tblGet s.cmd.ents n []

/-- The entries of a ring replaced, and its FILL, EMPTY and ABOVE fields made to agree; a rise of the fill to THRESH
raises RING_THRESHOLD (R109). -/
def ringSetEnts (s : State) (n : Nat) (es : List Ent) : State :=
  let w := (es.map (·.words)).foldl (· + ·) 0
  let th := s.fld (R.ringCtrl_THRESH n)
  let up := decide (th ≠ 0) && decide (th ≤ w)
  let was := s.flag (R.ringStat_ABOVE n)
  let s1 := s.withCmd { s.cmd with ents := tblPut s.cmd.ents n es [] }
  let s2 := (s1.setFld (R.ringFill_WORDS n) w).setFld (R.ringFill_ENTRIES n) es.length
  let s3 := (s2.setFlag (R.ringStat_EMPTY n) es.isEmpty).setFlag (R.ringStat_ABOVE n) up
  if up && !was && decide (ringWords s n < w) then s3.raise 252 n (wd w) else s3

/-- A word of ring memory (R107). -/
def ringMemGet (s : State) (w : Nat) : Word := tblGet s.cmd.mem w 0#32

/-- A word of ring memory given a value. -/
def ringMemPut (s : State) (w : Nat) (x : Word) : State := s.withCmd { s.cmd with mem := tblPut s.cmd.mem w x 0#32 }

/-- Words written from an offset of a ring on, around its end. -/
def ringCopyIn (s : State) (n : Nat) (off : Nat) : List Word → State
  | [] => s
  | x :: xs => ringCopyIn (ringMemPut s (ringBase s n + off % ringSize s n) x) n (off + 1) xs

/-- Words read from an offset of a ring on, around its end. -/
def ringCopyOut (s : State) (n : Nat) (off : Nat) : Nat → List Word
  | 0 => []
  | k + 1 => ringMemGet s (ringBase s n + off % ringSize s n) :: ringCopyOut s n (off + 1) k

/-- An entry stored at the head of a ring that has room for it (R102). -/
def ringStore (s : State) (n : Nat) (ws : List Word) (e : Ent) : State :=
  let h := s.fld (R.ringHead_HEAD n)
  let s1 := ringCopyIn s n h ws
  let s2 := s1.setFld (R.ringHead_HEAD n) (if ringSize s n = 0 then 0 else (h + ws.length) % ringSize s n)
  ringSetEnts s2 n (ringEnts s2 n ++ [{ e with words := ws.length }])

/-- The words of the oldest entry of a ring. -/
def ringTailWords (s : State) (n : Nat) : List Word :=
  match ringEnts s n with
  | [] => []
  | e :: _ => ringCopyOut s n (s.fld (R.ringTail_TAIL n)) e.words

/-- The oldest entry of a ring removed whole. -/
def ringDrop (s : State) (n : Nat) : State :=
  match ringEnts s n with
  | [] => s
  | e :: es =>
    let t := s.fld (R.ringTail_TAIL n)
    ringSetEnts (s.setFld (R.ringTail_TAIL n) (if ringSize s n = 0 then 0 else (t + e.words) % ringSize s n)) n es

/-- A ring emptied, its entries discarded without being counted (R104). DESIGN CHOICE (log entry 74): HEAD and TAIL return to 0. -/
def ringClear (s : State) (n : Nat) : State :=
  ringSetEnts ((s.setFld (R.ringHead_HEAD n) 0).setFld (R.ringTail_TAIL n) 0) n []

/-- Losses within 10 ms of a ring's last event 253 are kept; otherwise event 253 tells them (R103, R109). -/
def ring253 (s : State) (n : Nat) : State :=
  let lost := tblGet s.cmd.lost253 n 0
  if lost = 0 then s
  else if rateOpen s 253 n (10 * msTicks) then
    (rateMark (s.withCmd { s.cmd with lost253 := tblPut s.cmd.lost253 n 0 0 }) 253 n).raise 253 n (wd lost)
  else s

/-- Entries of a ring lost under its overflow policy: counted, OVF set, event 253 (R103). -/
def ringLose (s : State) (n k : Nat) : State :=
  if k = 0 then s
  else
    let s1 := (s.setFld (R.ringDrops_DROPS n) (satAdd 32 (s.fld (R.ringDrops_DROPS n)) k)).setFlag (R.ringStat_OVF n) true
    let lost := satAdd 32 (tblGet s1.cmd.lost253 n 0) k
    ring253 (s1.withCmd { s1.cmd with lost253 := tblPut s1.cmd.lost253 n lost 0 }) n

/-- Oldest entries removed until `need` words are free (R103, DROP_OLD); answers how many went. -/
def ringMakeRoom (s : State) (n need : Nat) : Nat → Nat → State × Nat
  | 0, k => (s, k)
  | fuel + 1, k =>
    if need ≤ ringFree s n ∨ ringEnts s n = [] then (s, k) else ringMakeRoom (ringDrop s n) n need fuel (k + 1)

/-- An entry offered to a ring by its producer: stored, or met by the ring's policy (R103). A producer that must wait
(STALL) is told so by the flag. -/
def ringPut (s : State) (n : Nat) (ws : List Word) (e : Ent) : State × Bool :=
  if ws.length ≤ ringFree s n then (ringStore s n ws e, true)
  else if s.fld (R.ringCtrl_OVF_POL n) = 1 then
    let r := ringMakeRoom s n ws.length (ringEnts s n).length 0
    if ws.length ≤ ringFree r.1 n then (ringLose (ringStore r.1 n ws e) n r.2, true)
    else (ringLose r.1 n (r.2 + 1), false)
  else if s.fld (R.ringCtrl_OVF_POL n) = 0 then (ringLose s n 1, false)
  else (s, false)

/-! ### Clock nodes (R68, R69, R482) -/

/-- The lock bit of the PLL a node of `CLK.GATE` hangs on. -/
def nodePll (bit : Nat) : RF :=
  if bit < 8 then R.clkStat_TPLL_LOCK else if bit < 16 then R.clkStat_IPLL_LOCK else if bit < 20 then R.clkStat_EPLL_LOCK else R.clkStat_SPLL_LOCK

/-- A node is ungated and its PLL is locked. -/
def nodeRuns (s : State) (bit : Nat) : Bool := s.fld ⟨R.clkGate, bit, 1⟩ == 1 && s.flag (nodePll bit)

/-- The node of a register address (R482); none where an access never receives NOT_READY. -/
def regNode (a : Nat) : Option Nat :=
  if 0x080000 ≤ a ∧ a < 0x084800 then some (if (a - 0x080000) / 0x100 < 36 then 1 else 2)
  else match a / 0x10000 with
    | 0x0A => some 3
    | 0x0B => some 4
    | 0x18 => some 15
    | 0x1A => some 5
    | 0x1B => if 0x1B0100 ≤ a ∧ a < 0x1B0200 then some (21 + (a - 0x1B0100) / 0x40) else none
    | 0x1C => if a < 0x1C0200 then some (17 + (a - 0x1C0000) / 0x100) else none
    | 0x1D => if a < 0x1D1000 then some (9 + (a - 0x1D0000) / 0x400) else none
    | 0x1E => if 0x1E0100 ≤ a ∧ a < 0x1E0300 then some (13 + (a - 0x1E0100) / 0x100) else none
    | _ => none

/-- A register access is answered, not NOT_READY (R84, R482). -/
def regReady (s : State) (a : Nat) : Bool :=
  match regNode a with
  | none => true
  | some n => nodeRuns s n

/-! ### Ethernet transmit queues (R382) -/

def State.netPort (s : State) (p : Nat) : NetPort := nth s.net.ports p {}
def State.setNetPort (s : State) (p : Nat) (x : NetPort) : State := s.withNet { s.net with ports := setAt s.net.ports p x }

/-- The port runs (R66, R379): enabled, its node clocked, not in coast. -/
def ethUp (s : State) (p : Nat) : Bool := s.flag (R.ethCfg_EN p) && nodeRuns s (17 + p) && !s.flag R.clkStat_COAST

/-- Edge ticks a frame of `n` bytes takes on the line with preamble and gap, at the port's speed (R379). -/
def ethTicks (s : State) (p n : Nat) : Nat := (n + 20) * (if s.flag (R.ethCfg_SPEED p) then 1280 else 128)

/-- Bytes in a transmit queue. -/
def netFill (x : NetPort) (q : Nat) : Nat := ((nth x.queues q []).map (·.bytes)).foldl (· + ·) 0

/-- The frame that leaves next: the head of the highest queue that holds one (R382). -/
def netHead (x : NetPort) : Option NetFrame := [3, 2, 1, 0].findSome? (fun q => (nth x.queues q []).head?)

/-- Frames leave a port while its line is free by now. -/
def netDrain (s : State) (p : Nat) : Nat → State
  | 0 => s
  | fuel + 1 =>
    let x := s.netPort p
    match netHead x with
    | none => s
    | some f =>
      if s.dt < x.lineFree then s
      else
        let start := if x.lineFree < f.enq then f.enq else x.lineFree
        let s1 := s.setNetPort p { x with queues := setAt x.queues f.queue ((nth x.queues f.queue []).drop 1), lineFree := start + tk (ethTicks s p f.bytes) }
        netDrain (s1.withNet { s1.net with sent := (p, f) :: s1.net.sent }) p fuel

/-- Frames waiting in the queues of a port. -/
def netCount (x : NetPort) : Nat := (x.queues.map List.length).foldl (· + ·) 0

/-- A queue has room for a frame once what has left by now is out of it. -/
def netRoom (s : State) (p q n : Nat) : Bool :=
  decide (netFill ((netDrain s p (netCount (s.netPort p))).netPort p) q + n ≤ 8192)

/-- A frame offered to its queue: queued and sent as the line frees; dropped with ETH_TX_DROP where it does not fit (R382).
A port that does not run sends nothing (R379). -/
def netTx (s : State) (p : Nat) (f : NetFrame) : State :=
  if !ethUp s p then s
  else
    let s1 := netDrain s p (netCount (s.netPort p))
    let x := s1.netPort p
    if netFill x f.queue + f.bytes ≤ 8192 then
      netDrain (s1.setNetPort p { x with queues := setAt x.queues f.queue (nth x.queues f.queue [] ++ [{ f with enq := s1.dt }]) }) p (netCount x + 1)
    else
      ((s1.cntSat (R.ethDrops_TX_DROPS p)).setFlag (R.ethStat_TX_DROP p) true).raiseLim 226 p (wd f.queue) (100 * msTicks)

/-- The tag of a frame of a kind whose PCP the port configures: tagged when TAG_TX is 1 (R382). -/
def netTag (s : State) (p pcp : Nat) : Option Nat := if s.flag (R.ethCfg_TAG_TX p) then some pcp else none

/-- Bytes of a UDP frame with a payload of `n` bytes, its check sequence included; `tag` bytes of an 802.1Q tag. -/
def udpBytes (n : Nat) (tag : Option Nat) : Nat := max 64 (n + 46) + (if tag.isSome then 4 else 0)

/-- A UDP datagram as a frame of a queue. -/
def udpFrame (q : Nat) (tag : Option Nat) (mac : BitVec 48) (ip : Word) (dport sport : Nat) (ws : List Word) : NetFrame :=
  { queue := q, bytes := udpBytes (4 * ws.length) tag, tag := tag, mac := mac, msg := .udp ip dport sport ws }

/-! ### Sward output queues (R423, R424) -/

/-- The state of a port: 0 DOWN, 1 TRAINING, 2 UP, 3 LEAVING (R418). -/
def swState (s : State) (p : Nat) : Nat := s.fld (R.swardPstat_STATE p)

/-- The port's node is clocked and the module is not in coast (R66, R416). -/
def swLive (s : State) (p : Nat) : Bool := nodeRuns s (21 + p) && !s.flag R.clkStat_COAST

/-- The port carries frames. -/
def swCarries (s : State) (p : Nat) : Bool := swLive s p && (swState s p == 2 || swState s p == 3)

/-- Some port of the Sward carries frames. -/
def swHears (s : State) : Bool := (List.range 4).any (fun p => swCarries s p)

def State.swPort (s : State) (p : Nat) : SwPort := nth s.sward.ports p {}
def State.setSwPort (s : State) (p : Nat) (x : SwPort) : State := s.withSward { s.sward with ports := setAt s.sward.ports p x }

/-- A frame queued at an output. -/
def swQueue (s : State) (p : Nat) (q : SwQ) : State :=
  let x := s.swPort p
  s.setSwPort p { x with queues := setAt x.queues q.f.cls (nth x.queues q.f.cls [] ++ [q]) }

/-! ### Requests and replies (R73 to R79) -/

end Sys2Proof.Machine

namespace Sys2Proof

open Sys2Proof.Machine

def Request.opcode (r : Request) : Nat := bitsOf r.h0 24 8
def Request.seq (r : Request) : Nat := bitsOf r.h0 0 16
def Request.snapshot (r : Request) : Bool := bitOf r.h0 18
def Request.noReply (r : Request) : Bool := bitOf r.h0 17
def Request.ackAtApply (r : Request) : Bool := bitOf r.h0 16
def Request.target (r : Request) : Nat := bitsOf r.h1 16 16
def Request.count (r : Request) : Nat := bitsOf r.h1 0 16
/-- Parameter word `i` of a request; 0 beyond its parameters. -/
def Request.p (r : Request) (i : Nat) : Word := nth r.params i 0#32
/-- The words of a request as they stand in a command ring. -/
def Request.words (r : Request) : List Word := r.h0 :: r.h1 :: (r.params ++ [r.check])

end Sys2Proof

namespace Sys2Proof.Machine

open Sys2Proof

/-- A request from the words of a ring entry. -/
def requestOf (port : Fin 8) (o : Origin) (ws : List Word) : Request :=
  { port := port, h0 := nth ws 0 0#32, h1 := nth ws 1 0#32, params := (ws.drop 2).dropLast, check := nth ws (ws.length - 1) 0#32, origin := o }

/-- The words of a reply (R74). -/
def replyWords (opcode status seq stamp : Nat) (data : List Word) : List Word :=
  let h0 := wd (opcode * 2 ^ 24 + status * 65536 + seq)
  let h1 := wd (stamp % 65536 * 65536 + data.length)
  let body := h0 :: h1 :: data
  body ++ [crc32c body]

/-- A command port. -/
def State.port (s : State) (p : Nat) : Port := nth s.cmd.ports p {}

/-- A command port replaced. -/
def State.setPort (s : State) (p : Nat) (x : Port) : State := s.withCmd { s.cmd with ports := setAt s.cmd.ports p x }

/-- The repeat filter of a port takes in an executed request: the newest of at most 8, one entry per SEQ (R77). -/
def filterAdd (l : List Done) (d : Done) : List Done :=
  let known := l.any (fun x => x.seq == d.seq && x.check == d.check)
  if known then l.map (fun x => if x.seq == d.seq && x.check == d.check then d else x) else (d :: l).take 8

/-- CMD_ERROR for a port, at most once per 1 ms (R109). -/
def cmdError (s : State) (p opcode status seq : Nat) : State :=
  s.raiseLim 254 p (wd (opcode * 2 ^ 24 + status * 65536 + seq)) msTicks

/-- HRDY is high while ring 0 has room for a packet of 259 words and the device is command-ready (R97). -/
def hrdyUpdate (s : State) (ready : Bool) : State := s.setFlag R.spiHstat_HRDY (ready && decide (259 ≤ ringFree s 0))

/-- A reply of a UDP port leaves in its own datagram as soon as it stands in the reply ring and its transmit queue has room
(R98, R382): the producer waits otherwise. -/
def udpCarry (s : State) (p : Nat) : State :=
  if p = 1 ∨ p = 2 then
    match ringEnts s (8 + p) with
    | [] => s
    | e :: _ =>
      let ws := ringTailWords s (8 + p)
      match e.origin with
      | .udp _ src ip port pcp =>
        let f := udpFrame (pcp.getD 0 / 2) pcp src ip port (s.fld (R.ethUdp_CMD_PORT (p - 1))) ws
        if !ethUp s (p - 1) || netRoom s (p - 1) f.queue f.bytes then
          let s1 := netTx (ringDrop s (8 + p)) (p - 1) f
          s1.withCmd { s1.cmd with sent := (p, e.origin, ws) :: s1.cmd.sent }
        else s
      | _ => ringDrop s (8 + p)
  else s

/-- A port once a reply of it is written (R83): its request has finished executing, its reserved words are free. -/
def portDone (q : Port) (busy resv : Bool) : Port :=
  { q with busy := if busy then none else q.busy, resv := if resv then q.resv - 259 else q.resv }

/-- Replies that wait enter their ring in order while it has room (R103). -/
def replyFlush : Nat → State → Nat → State
  | 0, s, _ => s
  | n + 1, s, p =>
    match (s.port p).out with
    | [] => s
    | e :: es =>
      if e.words.length ≤ ringFree s (8 + p) then
        replyFlush n (udpCarry (ringPut (s.setPort p { portDone (s.port p) e.busy e.resv with out := es }) (8 + p) e.words
          { words := e.words.length, origin := e.origin }).1 p) p
      else s

/-- A reply given to its port: written behind those that wait, or waiting itself (R83, R103). -/
def replyPut (s : State) (p : Nat) (e : Reply) : State :=
  let q := s.port p
  replyFlush (q.out.length + 1) (s.setPort p { q with out := q.out ++ [e] }) p

/-- The reply of a request, unless NO_REPLY holds it back; `ran`: the request was executed, not refused, and its reply is held for
repeats (R74, R77, R78, R83). A BAD_CRC, and a refused request with NO_REPLY, raise CMD_ERROR (R109). DESIGN CHOICE (log entry 74):
a run carried out with RANGE (R89, R223) is executed, so NO_REPLY raises nothing for it. -/
def answer (s : State) (r : Request) (busy resv ran : Bool) (status stamp : Nat) (data : List Word) : State :=
  let p := r.port.val
  let ws := replyWords r.opcode status r.seq stamp data
  let quiet := r.noReply && status != stBAD_CRC
  let s1 := if quiet then s.setPort p (portDone (s.port p) busy resv)
            else replyPut s p { origin := r.origin, words := ws, busy := busy, resv := resv }
  let q := s1.port p
  let s2 := if ran then s1.setPort p { q with done := filterAdd q.done { seq := r.seq, check := r.check, reply := if quiet then [] else ws } } else s1
  if status = stBAD_CRC then
    cmdError (s2.setFld (R.ringPort_BAD_CRC p) (satInc 8 (s2.fld (R.ringPort_BAD_CRC p)))) p r.opcode status r.seq
  else if r.noReply && !ran then cmdError s2 p r.opcode status r.seq
  else s2

/-- The port executes this request; only then does its reply free the port and the reserved words (R83). -/
def holdsPort (s : State) (r : Request) : Bool := decide ((s.port r.port.val).busy = some r)

/-- The reply to the request in execution. -/
def sendReply (s : State) (r : Request) (ran : Bool) (status stamp : Nat) (data : List Word) : State :=
  answer s r (holdsPort s r) (holdsPort s r) ran status stamp data

/-- A request whose reply is held: the port is free for the next one, the reserved words stay taken (R78, R83). -/
def portHeld (s : State) (r : Request) : State :=
  let q := s.port r.port.val
  s.setPort r.port.val { portDone q (holdsPort s r) false with done := filterAdd q.done { seq := r.seq, check := r.check, reply := [] } }

/-- What an opcode's execution answers: the state, a status, data words, the boundaries its change was assigned (group, and
the sequence of the boundary, none where the group has none), and a status that stands in place of OK and PENDING. -/
structure Res where
  st : State
  status : Nat := 0
  data : List Word := []
  affects : List (Nat × Option Word) := []
  as_ : Option Nat := none
deriving DecidableEq, Repr

/-- A refusal: the state unchanged. -/
def refuse (s : State) (status : Nat) : Res := { st := s, status := status }

/-- The boundaries, in rising group order, that the groups with boundaries assigned. -/
def liveAffects (l : List (Nat × Option Word)) : List (Nat × Word) :=
  (List.range 8).flatMap (fun g => (l.filterMap (fun p => if p.1 = g then p.2.map (fun q => (g, q)) else none)))

/-- The reply to an executed request under R78 and R79: at once, or held until the last affected boundary. -/
def respond (r : Request) (x : Res) : State :=
  let s := x.st.withCmd { x.st.cmd with ticket := x.st.cmd.ticket + 1 }
  if x.affects = [] ∨ stRefused x.status then
    sendReply s r (!stRefused x.status) (if stRefused x.status then x.status else x.as_.getD x.status) 0 x.data
  else
    let live := liveAffects x.affects
    match live with
    | [] => sendReply s r true (x.as_.getD stPENDING) 0 x.data
    | (_, q0) :: _ =>
      let stamp := bitsOf q0 0 16
      if r.ackAtApply && !r.noReply then
        let d : Deferred := { req := r, data := x.data, stamp := stamp, waits := live, mixed := x.affects.any (fun p => p.2.isNone), ticket := x.st.cmd.ticket, as_ := x.as_ }
        let s1 := portHeld s r
        s1.withCmd { s1.cmd with deferred := s1.cmd.deferred ++ [d] }
      else sendReply s r true (x.as_.getD stPENDING) stamp x.data

/-- Recovery serves NOP, IDENTIFY, READ_REG, FW_STAGE and FW_SWITCH, and only on the host SPI port (R114). -/
def recoveryServes (opcode : Nat) : Bool :=
  opcode == 0x01 || opcode == 0x02 || opcode == 0x03 || opcode == 0x83 || opcode == 0x84

/-- The device serves commands. -/
def serving (s : State) : Bool := s.phase == .ready || s.phase == .recovery

/-- A request discarded without a reply: its port is free again. -/
def discardRequest (s : State) (r : Request) : State :=
  s.setPort r.port.val (portDone (s.port r.port.val) (holdsPort s r) (holdsPort s r))

/-- A request executed by the register engine (R84): packet form first (R81 step 3), then what recovery serves. -/
def serveReg (r : Request) (s : State) (form : Bool) (f : State → Res) : State :=
  if !serving s then s
  else if !form then respond r (refuse s stBAD_PARAM)
  else if s.phase = .recovery ∧ !recoveryServes r.opcode then respond r (refuse s stNOT_READY)
  else respond r (f s)

/-- Reed executes a request of this form now (R28, R84). -/
def reedTakes (s : State) (r : Request) (form : Bool) : Bool :=
  serving s && s.reed != .held && form && s.reed != .busy && !s.boot.hold && !(s.phase == .recovery && !recoveryServes r.opcode)

/-- A request executed by Reed (R28, R84): discarded with CMD_ERROR while Reed is held in reset; NOT_READY while it is busy, and,
where it was handed over before, from the acceptance of a firmware switch to its end (R136). -/
def serveReed (r : Request) (s : State) (form : Bool) (f : State → Res) : State :=
  if !serving s then s
  else if s.reed = .held then cmdError (discardRequest s r) r.port.val r.opcode stNOT_READY r.seq
  else if !form then respond r (refuse s stBAD_PARAM)
  else if s.reed = .busy ∨ s.boot.hold ∨ (s.phase = .recovery ∧ !recoveryServes r.opcode) then respond r (refuse s stNOT_READY)
  else respond r (f s)

/-! ### Contexts and groups -/

/-- A context slot (kind 0: free). -/
def State.ctx (s : State) (n : Nat) : Ctx := tblGet s.loop.ctxs n {}

/-- A context slot replaced. -/
def State.setCtx (s : State) (n : Nat) (c : Ctx) : State := s.withLoop { s.loop with ctxs := tblPut s.loop.ctxs n c {} }

/-- The slots that hold a context, rising. -/
def State.slots (s : State) : List Nat := s.loop.ctxs.map (·.1)

/-- A timing group. -/
def State.grp (s : State) (g : Nat) : GrpS := nth s.loop.grps g {}

/-- A timing group replaced. -/
def State.setGrp (s : State) (g : Nat) (x : GrpS) : State := s.withLoop { s.loop with grps := setAt s.loop.grps g x }

/-- A word of a context (R223): it stands in the context window at 0x10_0000 + 0x200 × slot + 4 × word. -/
def ctxAddr (slot w : Nat) : Nat := 0x100000 + 0x200 * slot + 4 * w

def State.cw (s : State) (slot w : Nat) : Word := s.reg (ctxAddr slot w)
def State.setCw (s : State) (slot w : Nat) (x : Word) : State := s.setReg (ctxAddr slot w) x

/-- The timebase is valid (R61). -/
def tbValid (s : State) : Bool := s.flag R.clkStat_TB_VALID

/-- The group has frame boundaries (R20). -/
def hasBounds (s : State) (g : Nat) : Bool := (s.grp g).next.isSome

/-- The sequence of a group's next boundary (R23). -/
def nextSeq (s : State) (g : Nat) : Word := if (s.grp g).first then 0#32 else s.reg (R.nibGseq g) + 1#32

/-- The boundary a change arbitrated now takes effect at (R79); none where the group has no boundaries (R20). -/
def dueNext (s : State) (g : Nat) : Option Word := if hasBounds s g then some (nextSeq s g) else none

/-- The boundary of the group's next carrier zero. -/
def dueZero (s : State) (g : Nat) : Option Word :=
  match (s.grp g).next with
  | none => none
  | some (_, z) => if z then some (nextSeq s g) else some (nextSeq s g + 1#32)

/-- The next boundary whose sequence has the remainder `p` modulo `d`: the next pass of a divided context (R22). -/
def duePass (s : State) (g d p : Nat) : Option Word :=
  if hasBounds s g then
    let q := (nextSeq s g).toNat
    let d := max d 1
    some (wd (q + (p + d - q % d) % d))
  else none

/-- A change put among those that wait, under the ticket of the request in execution. -/
def addPend (s : State) (g : Nat) (due : Option Word) (zero : Bool) (ch : Change) : State :=
  s.withLoop { s.loop with pend := s.loop.pend ++ [{ grp := g, due := due, zero := zero, ticket := s.cmd.ticket, ch := ch }] }

/-- The slot a pending change is addressed to. -/
def Change.slot? : Change → Option Nat
  | .ctxWords n _ _ => some n
  | .bind n _ => some n
  | .delete n => some n
  | .commit n => some n
  | .windEnable n => some n
  | .windDisable n _ => some n
  | .ctxCmd n _ _ => some n
  | _ => none

/-- Cost of a pass by the context's kind (R36); `k` is the number of axes of a stroke group. -/
def kindCost (kind k : Nat) : Nat :=
  match kind with
  | 1 => 180 | 2 => 420 | 3 => 90 | 4 => 40 | 5 => 150 | 6 => 260 | 7 => 140 | 8 => 200
  | 9 => 50 | 10 => 110 | 11 => 900 + 120 * k | 12 => 20 | 13 => 20 | _ => 0

/-- The windings are kinds 1 to 4 of the directory (R54). -/
def isWinding (kind : Nat) : Bool := decide (1 ≤ kind) && decide (kind ≤ 4)

/-- A context slot named by TARGET (R86): RANGE above 255 or for a free slot, BAD_PARAM for a kind not served. -/
def slotCheck (s : State) (slot : Nat) (kinds : List Nat) : Option Nat :=
  if 255 < slot ∨ (s.ctx slot).kind = 0 then some stRANGE
  else if kinds.contains (s.ctx slot).kind then none
  else some stBAD_PARAM

/-- A check that refuses, or the rest of an execution. -/
def orRefuse (s : State) (c : Option Nat) (x : Res) : Res :=
  match c with
  | some st => refuse s st
  | none => x

end Sys2Proof.Machine
end

