-- ==== Sys2Proof/Machine/Flags.lean ====
section
/-! DEFINITION. The status flags and interrupt pins of the event unit: status bits, records in the event rings,
hold-offs and the four IRQ pins (18_events.md; R103, R108). -/

namespace Sys2Proof.Machine

open Sys2Proof

/-- The four words of an event record (R454): DT, instance, detail, event number and marks. -/
def evtRecord (dt : Tick) (inst : Nat) (detail : Word) (ev : Nat) (noclk coal test : Bool) (count : Nat) : List Word :=
  [lo32 dt, wd (inst * 65536 + bitsOf (hi32 dt) 0 16), detail,
   wd (ev * 2 ^ 24 + b2n noclk * 2 ^ 23 + b2n coal * 2 ^ 22 + b2n test * 2 ^ 21 + min count 65535)]

/-- A record offered to event ring `n`: after a loss it goes in behind a RING_OVERFLOW record, as a pair or not at all (R103). -/
def evtRingPut (s : State) (n : Nat) (dt : Tick) (noclk : Bool) (rec4 : List Word) : State :=
  let lost := tblGet s.cmd.lossRec n 0
  let lose (t : State) (k : Nat) : State :=
    ringLose (t.withCmd { t.cmd with lossRec := tblPut t.cmd.lossRec n (tblGet t.cmd.lossRec n 0 + k) 0 }) n k
  let ovf (k : Nat) : List Word := evtRecord dt n (wd k) 253 noclk false false 0
  let need := if lost = 0 then 4 else 8
  if need ≤ ringFree s n then
    let s1 := if lost = 0 then s else ringStore s n (ovf lost) { words := 4 }
    ringStore (s1.withCmd { s1.cmd with lossRec := tblPut s1.cmd.lossRec n 0 0 }) n rec4 { words := 4 }
  else if s.fld (R.ringCtrl_OVF_POL n) = 1 then
    let r := ringMakeRoom s n 8 (ringEnts s n).length 0
    if 8 ≤ ringFree r.1 n then
      let t := lose r.1 r.2
      let total := tblGet t.cmd.lossRec n 0
      let t1 := ringStore t n (ovf total) { words := 4 }
      ringStore (t1.withCmd { t1.cmd with lossRec := tblPut t1.cmd.lossRec n 0 0 }) n rec4 { words := 4 }
    else lose r.1 (r.2 + 1)
  else lose s 1

/-- A record written into every event ring its event is routed to, counted once (R453, R460). -/
def evtWrite (s : State) (ev : Nat) (dt : Tick) (rec4 : List Word) : State :=
  let rings := s.fld (R.evtCfg_RINGS ev)
  let noclk := !tbValid s
  let s1 := (List.range 4).foldl (fun t r => if rings / 2 ^ r % 2 = 1 then evtRingPut t (16 + r) dt noclk rec4 else t) s
  s1.cntWrap R.evtCnt_RECORDS

/-- The length of a hold-off in edge ticks by the HOLD code (R460). -/
def holdTicks (c : Nat) : Nat :=
  match c with
  | 1 => 10 * usTicks | 2 => 100 * usTicks | 3 => msTicks | 4 => 10 * msTicks | 5 => 100 * msTicks | 6 => 1000 * msTicks | _ => 0

/-- The hold-off windows of the other events. -/
def holdOthers (s : State) (ev : Nat) : List HoldWin := s.evt.hold.filter (fun h => h.ev != ev)

/-- A hold-off opened by a record of an event with the HOLD now configured (R456). -/
def holdOpen (s : State) (ev : Nat) (t : Tick) (coal : Bool) : State :=
  let len := holdTicks (s.fld (R.evtCfg_HOLD ev))
  s.withEvt { s.evt with hold := if len = 0 then holdOthers s ev else { ev := ev, start := t, len := len, coal := coal } :: holdOthers s ev }

/-- The end of an event's hold-off window: the last held occurrence goes out as a COALESCED record with the DT of the
window end, and a new window starts from it; with none held the hold-off ends (R456). -/
def holdEnd (s : State) (ev : Nat) : State :=
  match s.evt.hold.find? (fun h => h.ev == ev) with
  | none => s
  | some h =>
    match h.held with
    | none => s.withEvt { s.evt with hold := holdOthers s ev }
    | some o =>
      let t := h.start + tk h.len
      holdOpen (evtWrite s ev t (evtRecord t o.inst o.detail ev (!tbValid s) true o.test h.count)) ev t true

/-- The event's hold-off window has run out by now (R8: the end belongs to the next window). -/
def holdOver (s : State) (h : HoldWin) : Bool := decide (h.start + tk h.len ≤ s.dt)

/-- Event `e` is pending on pin `m` (R457). -/
def irqPending (s : State) (m e : Nat) : Bool :=
  s.fld ⟨R.evtStat (e / 32), e % 32, 1⟩ == 1 && (s.fld (R.evtCfg_IRQ e) / 2 ^ m % 2 == 1)
  && decide (s.fld (R.evtIrqctrl_MINPRIO m) ≤ s.fld (R.evtCfg_PRIO e))

/-- The pending event of highest PRIO of a pin, the lowest number among equals (R457). -/
def irqBest (s : State) (m : Nat) : Option Nat :=
  ((List.range 256).filter (irqPending s m)).foldl
    (fun b e => match b with
      | none => some e
      | some x => if s.fld (R.evtCfg_PRIO x) < s.fld (R.evtCfg_PRIO e) then some e else some x) none

/-- The interrupt pins follow the pending events: ASSERTED, PEND and SRC of every `EVT.IRQCTRL` (R457). -/
def irqUpdate (s : State) : State :=
  (List.range 4).foldl (fun t m =>
    let b := irqBest t m
    let t1 := (t.setFlag (R.evtIrqctrl_ASSERTED m) b.isSome).setFlag (R.evtIrqctrl_PEND m) b.isSome
    match b with
    | some e => t1.setFld (R.evtIrqctrl_SRC m) e
    | none => t1) s

/-- The level an interrupt pin drives: `some` a level, or none where an open-drain pin is released (R108). -/
def irqPin (s : State) (m : Nat) : Option Bool :=
  let on := s.flag (R.evtIrqctrl_ASSERTED m)
  let pol := s.fld ⟨R.spiIrqcfg, 2 * m, 1⟩ == 1
  let drive := s.fld ⟨R.spiIrqcfg, 2 * m + 1, 1⟩ == 1
  let level := if pol then on else !on
  if drive then some level else if level then none else some false

/-- One occurrence taken by the arbiter: its status bit, and its record or its place in a running hold-off (R453 to R456). -/
def evtTake (s : State) (o : Occ) : State :=
  if !evDefined o.ev then s
  else
    let s1 := s.setFlag ⟨R.evtStat (o.ev / 32), o.ev % 32, 1⟩ true
    let s2 := match s1.evt.hold.find? (fun h => h.ev == o.ev) with
      | some h => if holdOver s1 h then holdEnd s1 o.ev else s1
      | none => s1
    match s2.evt.hold.find? (fun h => h.ev == o.ev) with
    | some h =>
      if h.coal && decide (h.start = s2.dt) then
        let s3 := s2.withEvt { s2.evt with hold := { h with coal := false } :: holdOthers s2 o.ev }
        evtWrite s3 o.ev s3.dt (evtRecord s3.dt o.inst o.detail o.ev (!tbValid s3) false o.test 0)
      else
        let s3 := s2.withEvt { s2.evt with hold := { h with held := some o, count := satAdd 16 h.count 1 } :: holdOthers s2 o.ev }
        s3.cntSat R.evtCnt_SUPPRESSED
    | none =>
      holdOpen (evtWrite s2 o.ev s2.dt (evtRecord s2.dt o.inst o.detail o.ev (!tbValid s2) false o.test 0)) o.ev s2.dt false

/-- Occurrences in ascending event number, then instance, those of one source in their order (R455). -/
def occInsert (o : Occ) : List Occ → List Occ
  | [] => [o]
  | x :: xs => if o.ev < x.ev || (o.ev == x.ev && decide (o.inst < x.inst)) then o :: x :: xs else x :: occInsert o xs

/-- The order in which the arbiter takes the occurrences of one edge tick (R455). -/
def occSort (l : List Occ) : List Occ := l.foldl (fun acc o => occInsert o acc) []

end Sys2Proof.Machine
end

