-- ==== Sys2Proof/Machine/Bind.lean ====
section
/-! DEFINITION. What a CTX_BIND attaches to a context (R196, R247, R275, R286, R306): the fields of its words,
the links they make (R24), and the bindings as they will stand. -/

namespace Sys2Proof.Machine

open Sys2Proof

/-- Word `i` of a binding; all ones, which names nothing, where a context is not bound. -/
def bw (ws : List Word) (i : Nat) : Word := nth ws i 0xFFFFFFFF#32

/-- Half word `i` of a binding, the low half of each word first. -/
def bHalf (ws : List Word) (i : Nat) : Nat := bitsOf (bw ws (i / 2)) (16 * (i % 2)) 16

/-- An angle or position source: none, a feedback channel, an observer slot, or a field no source has. -/
inductive Src where
  | none
  | fb (ch : Nat)
  | obs (slot : Nat)
  | bad
deriving DecidableEq, Repr

/-- A source field: 0xFFFF none, else an observer slot or a feedback channel 0 to 15. -/
def srcOf (obs : Bool) (v : Nat) : Src :=
  if v = 0xFFFF then .none else if obs then .obs v else if v < 16 then .fb v else .bad

/-- SET of a winding (R196): 0 to 23, or 0xFF. -/
def bSet (ws : List Word) : Nat := bitsOf (bw ws 0) 24 8

/-- The phase channels of a winding: a stepping winding uses CH_A and CH_B, a chopper CH_A; 0xFF not measured. -/
def bChans (kind : Nat) (ws : List Word) : List Nat :=
  let a := bitsOf (bw ws 0) 16 8
  let b := bitsOf (bw ws 0) 8 8
  let c := bitsOf (bw ws 0) 0 8
  if kind = 3 then [a, b, 0xFF] else if kind = 4 then [a, 0xFF, 0xFF] else [a, b, c]

/-- CH_VDC of a winding. -/
def bVdc (ws : List Word) : Nat := bitsOf (bw ws 1) 24 8

/-- Every sensing channel a winding is bound to, each once (R154). -/
def bAllChans (kind : Nat) (ws : List Word) : List Nat :=
  ((bChans kind ws ++ [bVdc ws]).filter (· < 128)).eraseDups

/-- REF of a winding or a machine; 0xFFFF none. -/
def bRef (kind : Nat) (ws : List Word) : Nat := bHalf ws (if kind = 5 then 4 else 2)

/-- The angle source of a winding of kinds 1 and 2 or of a machine. -/
def bAng (kind : Nat) (ws : List Word) : Src :=
  let w := bw ws (if kind = 5 then 3 else 2)
  if kind = 3 ∨ kind = 4 then .none else srcOf (bitOf w 31) (bitsOf w 0 16)

/-- The members of a machine, system 0 first; 0xFFFF ends the list. -/
def bMembers (ws : List Word) : List Nat := ((List.range 4).map (bHalf ws)).takeWhile (· != 0xFFFF)

/-- The members of a stroke group by position. -/
def bStroke (ws : List Word) : List (Nat × Nat) :=
  ((List.range 8).map (fun m => (m, bHalf ws m))).filter (fun p => p.2 != 0xFFFF)

/-- WATCH and CMP_FB of an observer. -/
def bWatch (ws : List Word) : Nat := bHalf ws 0
def bCmp (ws : List Word) : Nat := bitsOf (bw ws 1) 0 8

/-- Position source, producer, latch unit and field channels of an axis (R247). -/
def bPos (ws : List Word) : Src := srcOf (bitOf (bw ws 0) 31) (bitsOf (bw ws 0) 0 16)
def bProd (ws : List Word) : Nat := bHalf ws 2
def bLatch (ws : List Word) : Nat := bitsOf (bw ws 2) 0 8
def bHomeSw (ws : List Word) : Nat := bitsOf (bw ws 3) 16 8
def bLimNeg (ws : List Word) : Nat := bitsOf (bw ws 3) 8 8
def bLimPos (ws : List Word) : Nat := bitsOf (bw ws 3) 0 8

/-- A master or modulator source of a gear (R275). -/
inductive GSrc where
  | none
  | axisCmd (slot : Nat)
  | axisAct (slot : Nat)
  | pos (s : Src)
  | bad
deriving DecidableEq, Repr

def gsrcOf (w : Word) : GSrc :=
  let v := bitsOf w 0 16
  if v = 0xFFFF then .none
  else match bitsOf w 30 2 with
    | 0 => .axisCmd v
    | 1 => .axisAct v
    | 2 => .pos (srcOf (bitOf w 29) v)
    | _ => .bad

def bMaster (ws : List Word) : GSrc := gsrcOf (bw ws 0)
def bMod (ws : List Word) : GSrc := gsrcOf (bw ws 1)
def bCam (ws : List Word) : Nat := bitsOf (bw ws 2) 0 8

/-- An input of a filter or probe (R306). -/
structure FpIn where
  kind : Nat
  obs : Bool
  word : Nat
  src : Nat
deriving DecidableEq, Repr

def fpIn (w : Word) : FpIn := { kind := bitsOf w 28 4, obs := bitOf w 27, word := bitsOf w 16 8, src := bitsOf w 0 16 }

/-- The slot of the axis of a number. -/
def axisSlot (s : State) (n : Nat) : Option Nat :=
  s.slots.find? (fun k => ((s.ctx k).kind == 7 || (s.ctx k).kind == 8) && (s.ctx k).num == n)

def Src.slots : Src → List Nat
  | .obs k => [k]
  | _ => []

def GSrc.slots : GSrc → List Nat
  | .axisCmd k => [k]
  | .axisAct k => [k]
  | .pos s => s.slots
  | _ => []

def fpSlots (s : State) (w : Word) : List Nat :=
  let f := fpIn w
  match f.kind with
  | 2 => if f.obs then [f.src] else []
  | 3 => [f.src]
  | 4 => (axisSlot s f.src).toList
  | _ => []

/-- The contexts a binding names in its link fields; a member of a machine or a stroke group and a watched winding are
not read through a link. -/
def allLinks (s : State) (kind : Nat) (ws : List Word) : List Nat :=
  (if kind ≤ 5 then [bRef kind ws] ++ (bAng kind ws).slots
   else match kind with
    | 7 => (bPos ws).slots ++ [bProd ws]
    | 8 => (bPos ws).slots ++ [bProd ws]
    | 9 => (bMaster ws).slots ++ (bMod ws).slots
    | 10 => (bMaster ws).slots ++ (bMod ws).slots
    | 12 => fpSlots s (bw ws 0)
    | 13 => fpSlots s (bw ws 0) ++ fpSlots s (bw ws 1)
    | _ => [])

/-- Links to producers of this module. -/
def ownLinks (s : State) (kind : Nat) (ws : List Word) : List Nat := (allLinks s kind ws).filter (· < 256)

/-- Links to producers of other modules: values v of R441. -/
def farLinks (s : State) (kind : Nat) (ws : List Word) : List Nat := (allLinks s kind ws).filter (fun v => decide (256 ≤ v) && decide (v ≤ 0x10FF))

/-- The binding of a slot as it will stand once every accepted CTX_BIND has applied (R38). -/
def effBind (s : State) (slot : Nat) : List Word :=
  match (s.loop.pend.filterMap (fun p => match p.ch with
    | .bind k ws => if k = slot then some ws else none
    | _ => none)).getLast? with
  | some ws => ws
  | none => (s.ctx slot).bind

/-- The binding of a slot in force. -/
def curBind (s : State) (slot : Nat) : List Word := (s.ctx slot).bind

/-- The machine a winding is a member of, by bindings `b`. -/
def machineOf (s : State) (b : Nat → List Word) (slot : Nat) : Option Nat :=
  s.slots.find? (fun m => (s.ctx m).kind == 5 && (bMembers (b m)).contains slot)

/-- The producers a context reads through links, by bindings `b`: a member of a machine reads its machine only (R196). -/
def linksBy (s : State) (b : Nat → List Word) (slot : Nat) : List Nat :=
  let k := (s.ctx slot).kind
  let m := if k = 1 ∨ k = 2 then machineOf s b slot else none
  match m with
  | some m => [m]
  | none => ownLinks s k (b slot)

/-- The links of a context within its own group (R24). -/
def groupLinks (s : State) (b : Nat → List Word) (slot : Nat) : List Nat :=
  (linksBy s b slot).filter (fun x => (s.ctx x).kind != 0 && (s.ctx x).grp == (s.ctx slot).grp)

/-- Every slot that can be reached from a list of slots by links, in at most `fuel` steps. -/
def reachBy (f : Nat → List Nat) : Nat → List Nat → List Nat
  | 0, seen => seen
  | fuel + 1, seen =>
    let next := (seen.flatMap f).filter (fun x => !seen.contains x)
    if next = [] then seen else reachBy f fuel (seen ++ next.eraseDups)

/-- A cycle of links within one group (R24). -/
def hasCycle (s : State) (b : Nat → List Word) : Bool :=
  s.slots.any (fun x => (reachBy (groupLinks s b) s.slots.length (groupLinks s b x)).contains x)

/-- The slot whose bindings are as `b`, with `ws` at `slot`. -/
def bindWith (b : Nat → List Word) (slot : Nat) (ws : List Word) (n : Nat) : List Word := if n = slot then ws else b n

/-- The consumers of an axis: machines and windings whose REF names it, members of machines apart (R248, R196). -/
def axisConsumers (s : State) (slot : Nat) : List Nat :=
  s.slots.filter (fun k => decide ((s.ctx k).kind ≤ 5) && bRef (s.ctx k).kind (curBind s k) == slot
    && (machineOf s (curBind s) k).isNone)

/-- The windings a sensing channel is bound to (R154). -/
def chanWindings (s : State) (ch : Nat) : List Nat :=
  s.slots.filter (fun k => isWinding (s.ctx k).kind && (bAllChans (s.ctx k).kind (curBind s k)).contains ch)

/-- The winding that owns a nib set (R167). -/
def setOwner (s : State) (b : Nat → List Word) (set : Nat) : Option Nat :=
  s.slots.find? (fun k => isWinding (s.ctx k).kind && bSet (b k) == set)

/-- The nib set a winding owns. -/
def ownedSet (s : State) (slot : Nat) : Option Nat :=
  let n := bSet (curBind s slot)
  if n < 24 then some n else none

/-- The group of the feedback channel that takes integrator A of a sensing channel: modes 2 and 3, lands DF(2n) and DF(2n+1), which
are channels 96 + 2n and 97 + 2n (R147, R225). -/
def fbGroup (s : State) (ch : Nat) : List Nat :=
  let n := (ch - 96) / 2
  if 96 ≤ ch ∧ ch < 128 ∧ s.flag (R.fdbkCfg_EN n) ∧ (s.fld (R.fdbkCfg_MODE n) = 2 ∨ s.fld (R.fdbkCfg_MODE n) = 3) then
    [s.fld (R.fdbkCfg_GROUP n)]
  else []

/-- A filter or probe reads a sensing channel (R306): its windows, or its point samples. -/
def fpReads (s : State) (slot c : Nat) (point : Bool) : Bool :=
  let one (i : Nat) : Bool :=
    let f := fpIn (bw (curBind s slot) i)
    f.kind == (if point then 1 else 0) && f.src == c && bw (curBind s slot) i != 0xFFFFFFFF#32
  ((s.ctx slot).kind == 12 && one 0) || ((s.ctx slot).kind == 13 && (one 0 || one 1))

/-- The groups whose windows the integrators of a channel integrate (R157). -/
def chanGroups (s : State) (b : Nat → List Word) (ch : Nat) : List Nat :=
  (fbGroup s ch ++ (s.slots.filter (fun k => isWinding (s.ctx k).kind && (bAllChans (s.ctx k).kind (b k)).contains ch)).map (fun k => (s.ctx k).grp)).eraseDups

end Sys2Proof.Machine
end

