-- ==== Sys2Proof/Machine/Admit.lean ====
section
/-! DEFINITION. Pace floor, costs, the admission tests in exact rational arithmetic and the LOOP registers that show
them (02_selftimed_core.md, R33 to R41, R54). -/

namespace Sys2Proof.Machine

open Sys2Proof

/-- The row of the pace-floor table of a VCORE_MIN (R33). -/
def floorRow (mv : Nat) : Nat × Nat × Nat :=
  if mv < 650 then (2350, 2450, 2600)
  else if mv < 700 then (2100, 2200, 2330)
  else if mv < 750 then (1900, 1990, 2110)
  else if mv < 800 then (1740, 1820, 1930)
  else (1610, 1690, 1790)

/-- The pace floor of an envelope in picoseconds (R33). -/
def paceFloor (mv tj : Nat) : Nat :=
  let r := floorRow mv
  if tj ≤ 105 then r.1 else if tj ≤ 125 then r.2.1 else r.2.2

/-- The number of axes of a stroke group (R286). -/
def naxes (s : State) (slot : Nat) : Nat := bitsOf (s.cw slot 0) 12 4

/-- Cost of a context's pass (R36). -/
def ctxCost (s : State) (slot : Nat) : Nat := kindCost (s.ctx slot).kind (naxes s slot)

/-- Its longest single pass: a stroke group runs as sub-passes of at most 300 (R37). -/
def singleCost (s : State) (slot : Nat) : Nat := if (s.ctx slot).kind = 11 then 300 else ctxCost s slot

/-- Its part of a chain: a stroke group's is 1,020 whatever its axes (R287). -/
def chainPart (s : State) (slot : Nat) : Nat := if (s.ctx slot).kind = 11 then 1020 else ctxCost s slot

/-- The frame length most recently written to a group, in edge ticks; 0 where it has none (R22, R38). -/
def frameWritten (s : State) (g : Nat) : Nat :=
  let p := s.fld (R.nibGper_PERIOD g)
  if s.flag (R.nibGper_DU g) then p / 2 else p

/-- The compute window most recently requested for a group, in percent (R38). -/
def windowPct (s : State) (g : Nat) : Nat :=
  match (s.loop.pend.filterMap (fun p => match p.ch with
    | .window w => if p.grp = g then some w else none
    | _ => none)).getLast? with
  | some w => w
  | none => s.fld (R.loopWindow_PCT g)

/-- A pending ADMIT covers the context. -/
def commitPending (s : State) (slot : Nat) : Bool :=
  s.loop.pend.any (fun p => match p.ch with
    | .commit k => k == slot
    | _ => false)

/-- The context belongs to the committed set: admitted, or accepted by an ADMIT (R41). -/
def inCommitted (s : State) (slot : Nat) : Bool := (s.ctx slot).committed || commitPending s slot

/-- The settings the tests run on: pace floor, frame length and window per group, divider and phase and kind per slot,
bindings. -/
structure AdmitIn where
  floor : Nat
  frame : Nat → Nat
  win : Nat → Nat
  set : List Nat
  bind : Nat → List Word

/-- Groups of the test: those with a frame length that hold a context of the set (R38). -/
def admGroups (s : State) (a : AdmitIn) : List Nat :=
  (List.range 8).filter (fun g => a.frame g != 0 && a.set.any (fun k => (s.ctx k).grp == g))

/-- The contexts of the set in a group. -/
def admIn (s : State) (a : AdmitIn) (g : Nat) : List Nat := a.set.filter (fun k => (s.ctx k).grp == g)

/-- A context runs in frames of sequence `q` (R22). -/
def runsIn (s : State) (slot q : Nat) : Bool := q % max (s.ctx slot).div 1 == (s.ctx slot).phase

def sumNat (l : List Nat) : Nat := l.foldl (· + ·) 0
def maxNat (l : List Nat) : Nat := l.foldl max 0

/-- Average load in quill-ops per µs (R38). -/
def admLoad (s : State) (a : AdmitIn) : Rat :=
  (a.set.filter (fun k => a.frame (s.ctx k).grp != 0)).foldl
    (fun r k => r + (ctxCost s k : Rat) * 16000 / ((a.frame (s.ctx k).grp : Rat) * (max (s.ctx k).div 1 : Nat))) 0

/-- 0.8 of the capacity, in quill-ops per µs (R38). -/
def admLimit (floor : Nat) : Rat := 6400000 / (floor : Rat)

/-- Worst-frame work of a group (R38). -/
def admWf (s : State) (a : AdmitIn) (g : Nat) : Nat :=
  maxNat ((List.range 32).map (fun q => sumNat (((admIn s a g).filter (runsIn s · q)).map (ctxCost s))))

/-- The largest single pass of the set (R38). -/
def admCmax (s : State) (a : AdmitIn) : Nat := maxNat (a.set.map (singleCost s))

/-- The compute window of a group in edge ticks, rounded down (R26). -/
def admW (a : AdmitIn) (g : Nat) : Nat := a.frame g * a.win g / 100

/-- Edge ticks in µs. -/
def usOf (t : Nat) : Rat := (t : Rat) / 16000

/-- Quill-ops the window of a group must take in (R38). -/
def admDemand (s : State) (a : AdmitIn) (g : Nat) : Nat :=
  (admGroups s a).foldl
    (fun n h => if h = g then n else n + admWf s a h * ((admW a g + a.frame h - 1) / a.frame h + 1)) (admWf s a g)

/-- Quill time a window offers, in µs (R38). -/
def admAvail (s : State) (a : AdmitIn) (g : Nat) : Rat :=
  8 * (usOf (admW a g) - 2 - (admCmax s a : Rat) * a.floor / 1000000)

/-- The window test (R38). -/
def admWindowOk (s : State) (a : AdmitIn) (g : Nat) : Bool :=
  decide ((admDemand s a g : Rat) * a.floor / 1000000 ≤ admAvail s a g)

/-- Window use per mille (R41): truncated, 0xFFFF where there is no time or the use is larger. -/
def admUse (s : State) (a : AdmitIn) (g : Nat) : Nat :=
  if !(admGroups s a).contains g then 0
  else if admAvail s a g ≤ 0 then 0xFFFF
  else min 0xFFFF ((admDemand s a g : Rat) * a.floor / 1000 / admAvail s a g).floor.toNat

/-- The largest sum of costs along a link path that ends at a context, among contexts `act` (R38). -/
def chainTo (s : State) (a : AdmitIn) (act : List Nat) : Nat → Nat → Nat
  | 0, _ => 0
  | fuel + 1, k =>
    chainPart s k + maxNat (((groupLinks s a.bind k).filter act.contains).map (chainTo s a act fuel))

/-- The longest chain of a group in its worst frame (R38). -/
def admChain (s : State) (a : AdmitIn) (g : Nat) : Nat :=
  maxNat ((List.range 32).map (fun q =>
    let act := (admIn s a g).filter (runsIn s · q)
    maxNat (act.map (chainTo s a act act.length))))

/-- The chain test (R38). -/
def admChainOk (s : State) (a : AdmitIn) (g : Nat) : Bool :=
  decide ((admChain s a g : Rat) * a.floor / 1000000 ≤ usOf (admW a g) - 2)

/-- The first failure in the order average, windows, chains: RESULT and GROUP of the ADMIT reply (R41). -/
def admResult (s : State) (a : AdmitIn) : Nat × Nat :=
  if admLimit a.floor < admLoad s a then (2, 0xFF)
  else match (admGroups s a).find? (fun g => !admWindowOk s a g) with
    | some g => (3, g)
    | none =>
      match (admGroups s a).find? (fun g => !admChainOk s a g) with
      | some g => (4, g)
      | none => (0, 0xFF)

/-- The tests on the settings that will be in force once every pending write has applied, for a set. -/
def admNow (s : State) (set : List Nat) : AdmitIn :=
  { floor := s.fld R.loopFloor_FLOOR_PS, frame := frameWritten s, win := windowPct s, set := set, bind := effBind s }

/-- The committed set. -/
def committedSet (s : State) : List Nat := s.slots.filter (inCommitted s)

/-- Load and limit as the reply words give them: 0.01 quill-ops per µs, truncated. -/
def centi (r : Rat) : Nat := min 0xFFFFFF (r * 100).floor.toNat

/-- log2 of an effective divider, 0 to 6. -/
def log2Div (d : Nat) : Nat := if d ≤ 1 then 0 else if d ≤ 2 then 1 else if d ≤ 4 then 2 else if d ≤ 8 then 3 else if d ≤ 16 then 4 else if d ≤ 32 then 5 else 6

/-- The directory entry of a slot (R54). -/
def dirSet (s : State) (slot : Nat) : State :=
  let c := s.ctx slot
  s.setReg (R.loopDir slot)
    (if c.kind = 0 then 0#32
     else wd (c.kind * 2 ^ 28 + c.grp * 2 ^ 25 + log2Div c.effDiv * 2 ^ 22 + c.phase % 64 * 65536 + b2n c.committed * 32768 + ctxCost s slot))

/-- LOAD and USE of the committed contexts (R54). -/
def loopRefresh (s : State) : State :=
  let a := admNow s (s.slots.filter (fun k => (s.ctx k).committed))
  (List.range 8).foldl (fun t g => t.setFld (R.loopUse_USE g) (admUse s a g)) (s.setFld R.loopLoad_LOAD (centi (admLoad s a)))

/-- A floor in force, with the figures derived from it (R54). -/
def setEnvelope (s : State) (mv tj : Nat) : State :=
  let f := paceFloor mv tj
  (((((s.setFld R.loopEnv_VCORE_MIN mv).setFld R.loopEnv_TJ_MAX tj).setFld R.loopFloor_FLOOR_PS f).setFld R.loopCap_CAP (8000000 / f)).setFld R.loopCap_LIMIT (6400000 / f))

/-- The tests re-run on the committed set under changed settings (R40, R168). -/
def admitsCommitted (s : State) : Bool := (admResult s (admNow s (committedSet s))).1 == 0

end Sys2Proof.Machine
end

