-- ==== Sys2Proof/Machine/Operands.lean ====
section
/-! DEFINITION. Operand forms: register writes under the access codes of R11, the checks on binary32 and other parameter
values (R10), and the parameters of a request. -/

namespace Sys2Proof.Machine

open Sys2Proof

/-- The bits of a register a write can change at once: RW and RK (a WO bit reads as zero). -/
def rowNow (r : RegRow) : Word := wd (r.rw ||| r.rk)

/-- A register written under its access codes, shadowed bits apart: RW bits take the value, W1C bits are cleared by ones, RO
and reserved bits stay (R11, R13). -/
def writeNow (s : State) (r : RegRow) (a : Nat) (w : Word) : State :=
  s.setReg a (mergeBits (s.reg a) w (rowNow r) &&& ~~~(w &&& wd r.w1c))

/-- RS bits of a register that a write gives another value than the one most recently written wait for the boundary of
their group (R11, R14, R91). -/
def writeShadow (s : State) (a : Nat) (mask w : Word) (g : Nat) (zero : Bool) : Res :=
  let old := s.reg a
  let new := mergeBits old w mask
  if old = new then { st := s }
  else
    let due := if zero then dueZero s g else dueNext s g
    { st := addPend (s.setReg a new) g due zero (.reg a mask (new &&& mask)), affects := [(g, due)] }

/-- A register of a group written under its access codes (R11): the RS bits go to the boundary of group `g`. -/
def plainWrite (s : State) (a : Nat) (w : Word) (g : Nat) (zero : Bool) : Res :=
  match regRow a with
  | none => refuse s stRANGE
  | some r => writeShadow (writeNow s r a w) a (wd r.rs) w g zero

/-- A register without shadowed fields written under its access codes. -/
def plainNow (s : State) (a : Nat) (w : Word) : Res :=
  match regRow a with
  | none => refuse s stRANGE
  | some r => { st := writeNow s r a w }

/-- The word a write would leave as most recently written, before any check (R91). -/
def written (s : State) (a : Nat) (w : Word) : Word :=
  match regRow a with
  | none => 0#32
  | some r => mergeBits (s.reg a) w (wd (r.rw ||| r.rs ||| r.rk))

/-- A check of a write, then the write. -/
def checked (s : State) (bad : Bool) (st : Nat) (x : Res) : Res := if bad then refuse s st else x

/-- A register write of a command row: it does nothing while its clock node does not run (R482). -/
def regRowWrite (s : State) (a : Nat) (x : Res) : State := if regReady s a then x.st else s

/-- Two results in sequence: the second from where the first left off, statuses and boundaries joined. -/
def Res.also (x : Res) (f : State → Res) : Res :=
  let y := f x.st
  { st := y.st, status := if x.status ≠ 0 then x.status else y.status, data := x.data ++ y.data, affects := x.affects ++ y.affects, as_ := x.as_ <|> y.as_ }

/-- A binary32 parameter that is refused under R10: a NaN or an infinity. -/
def badF32 (w : Word) : Bool := f32Special w

/-- A binary32 parameter outside `lo` to `hi`, or refused under R10. -/
def outF32 (lo hi : Rat) (w : Word) : Bool := badF32 w || decide (ratOf w < lo) || decide (hi < ratOf w)

/-- A value outside a range of whole numbers. -/
def outNat (lo hi n : Nat) : Bool := decide (n < lo) || decide (hi < n)

end Sys2Proof.Machine
end

