-- ==== Sys2Proof/Machine/Ink.lean ====
section
/-! DEFINITION. Inkwell: taps, pages and records, triggers, sessions and readout (12_inkwell_capture.md). -/

namespace Sys2Proof.Machine

open Sys2Proof

/-! ### Reading Inkwell -/

def State.inkS (s : State) (q : Nat) : InkSess := nth s.ink.sess q {}
def State.setInkS (s : State) (q : Nat) (x : InkSess) : State := s.withInk { s.ink with sess := setAt s.ink.sess q x }
def inkState (s : State) (q : Nat) : Nat := s.fld (R.inkSstat_STATE q)

/-- Nanoseconds in edge ticks: 16 each. -/
def nsTicks (n : Nat) : Nat := 16 * n

/-- A session takes a state; a change raises INK_STATE (R317, R326). -/
def inkSetState (s : State) (q st : Nat) : State :=
  let old := inkState s q
  if old = st then s else (s.setFld (R.inkSstat_STATE q) st).raise 176 q (wd (old * 16 + st))

/-- The enabled channels of a session, rising. -/
def inkChans (s : State) (q : Nat) : List Nat :=
  (List.range 64).filter (fun c => s.flag (R.inkCcfg_EN c) && s.fld (R.inkCcfg_SESSION c) == q)

/-- The channel that captures a source (R303). -/
def inkChanOf (s : State) (kind src : Nat) : Option Nat :=
  (List.range 64).find? (fun c => s.flag (R.inkCcfg_EN c) && s.fld (R.inkCcfg_KIND c) == kind && s.fld (R.inkCcfg_SRC c) == src)

/-- A session whose record is filling: ARMED, POST or ROLLING (R317). -/
def inkFilling (s : State) (q : Nat) : Bool := inkState s q == 1 || inkState s q == 2 || inkState s q == 5

/-- The record being filled. -/
def inkCur (s : State) (q : Nat) : Option InkRec := (s.inkS q).recs.find? (fun r => r.num == s.fld (R.inkSstat_WREC q))

def recPut (l : List InkRec) (r : InkRec) : List InkRec := l.map (fun x => if x.num = r.num then r else x)
def chanPut (l : List InkChan) (c : InkChan) : List InkChan := l.map (fun x => if x.ch = c.ch then c else x)

/-- A record replaced. -/
def inkPutRec (s : State) (q : Nat) (r : InkRec) : State := s.setInkS q { s.inkS q with recs := recPut (s.inkS q).recs r }

/-! ### Steps and pages (R302, R312 to R314, R319) -/

/-- The D of the eight channels of a bank in force (R162, R319). -/
def bankD (s : State) (b : Nat) : List Nat := (List.range 8).map (fun i => s.fld (R.senseCalactDelay_DELAY (8 * b + i)))

/-- Bytes of a step of a kind (R302). -/
def stepBytes (kind : Nat) : Nat :=
  match kind with
  | 1 => 1 | 2 => 16 | 3 => 16 | _ => 8

/-- A step put into a channel's pages: a new page where the last is full, the period changed, D changed or a gap lies between;
the channel's pages are a ring of `need` pages (R312, R313). -/
def pageAdd (need period kind : Nat) (ds : List Nat) (c : InkChan) (t : Tick) (b : List Byte) : InkChan :=
  let fresh : InkPage := { period := period, gap := c.gapNext, ds := ds, steps := [(t, b)] }
  match c.pages with
  | [] => { c with pages := [fresh], gapNext := false, last := some t }
  | p :: ps =>
    if (p.steps.length + 1) * stepBytes kind ≤ 65536 ∧ p.period = period ∧ p.ds = ds ∧ !c.gapNext then
      { c with pages := { p with steps := p.steps ++ [(t, b)] } :: ps, last := some t }
    else { c with pages := (fresh :: p :: ps).take need, gapNext := false, last := some t }

/-- A step merged into the step of the same instant of a page of the channel (the channels of a bank post one by one, so an instant may
lie before the last); an instant that has left the pages is gone. -/
def pageMerge (c : InkChan) (t : Tick) (f : List Byte → List Byte) : Option InkChan :=
  if c.pages.any (fun p => p.steps.any (fun e => e.1 == t)) then
    some { c with pages := c.pages.map (fun p => { p with steps := p.steps.map (fun e => if e.1 = t then (e.1, f e.2) else e) }) }
  else match c.last with
    | some l => if (t - l).toInt ≤ 0 then some c else none
    | none => none

/-- Data taken in pass the staging memory, whose fill no legal configuration takes beyond 8 KiB (R311): how high it is by then the spec
leaves open, a free value (log entry 6). STAGE_PEAK keeps the highest since reset (R327). -/
def stagePeak (s : State) : State :=
  s.fresh.2.setFld R.inkGstat_STAGE_PEAK (max (s.fld R.inkGstat_STAGE_PEAK) (s.fresh.1.toNat % 8193))

/-- The flags of R320 as a number, GAP in bit 6 to TRIG in bit 0. -/
def fPRE_SHORT : Nat := 32
def fFORCED : Nat := 16
def fPARTIAL : Nat := 8
def fOVERWRITTEN : Nat := 4
def fUNCORR : Nat := 2
def fTRIG : Nat := 1

/-- Free words: what a reader finds where the data are not warranted (R318). -/
def freshWords : Nat → State → List Word × State
  | 0, s => ([], s)
  | n + 1, s => let x := freshWords n s.fresh.2; (s.fresh.1 :: x.1, x.2)

/-- Entries of a channel's pages (by the DT of their first step) not yet written as the pages are overwritten: OVERWRITTEN is set and
their data are free values (R318, R324). -/
def spoilOut (ch : Nat) (gone : List Tick) : List (List Word) → State → List (List Word) × State
  | [], s => ([], s)
  | e :: es, s =>
    if bitsOf (nth e 0 0#32) 20 6 = ch ∧ gone.contains (join64 (nth e 2 0#32) (nth e 3 0#32)) then
      let f := freshWords (e.length - 6) s
      let body := nth e 0 0#32 :: (nth e 1 0#32 ||| wd (fOVERWRITTEN * 2 ^ 25)) :: (e.take 5).drop 2 ++ f.1
      let x := spoilOut ch gone es f.2
      ((body ++ [crc32c body]) :: x.1, x.2)
    else
      let x := spoilOut ch gone es s
      (e :: x.1, x.2)

/-- Pages of a channel of a record overwritten while readouts of it run: the entries still to be written from them carry OVERWRITTEN, and
so does FLAGS of the session (R318, R320). -/
def inkOverwrite (s : State) (q n ch : Nat) (gone : List Tick) : State :=
  s.ink.reads.foldl (fun t r =>
    if r.sess = q ∧ r.rec_ = n ∧ r.out.any (fun e => bitsOf (nth e 0 0#32) 20 6 == ch && gone.contains (join64 (nth e 2 0#32) (nth e 3 0#32))) then
      let x := spoilOut ch gone r.out t
      (x.2.withInk { x.2.ink with reads := x.2.ink.reads.map (fun y => if y = r then { y with out := x.1 } else y) }).setFld (R.inkSflag_FLAGS q)
        (x.2.fld (R.inkSflag_FLAGS q) ||| fOVERWRITTEN)
    else t) s

/-- A step of a source offered to its channel's session (R302): `f` gives its bytes from those the step already holds. -/
def inkStep (s : State) (kind src period : Nat) (t : Tick) (f : List Byte → List Byte) : State :=
  match inkChanOf s kind src with
  | none => s
  | some c =>
    let q := s.fld (R.inkCcfg_SESSION c)
    if !inkFilling s q || !tbValid s then s
    else match inkCur s q with
      | none => s
      | some r =>
        match r.chans.find? (fun x => x.ch == c) with
        | none => s
        | some ic =>
          let past := match r.trig with
            | some tt => decide ((tt + tk (nsTicks (s.fld (R.inkPost_NS q)))) ≤ t) && inkState s q == 2
            | none => false
          if past then inkPutRec s q { r with chans := chanPut r.chans { ic with last := some t } }
          else
            let ds := if kind ≤ 2 then bankD s src else []
            let ic1 := match (if kind ≤ 2 then pageMerge ic t f else none) with
              | some x => x
              | none => pageAdd (max 1 (s.fld (R.inkCstat_NEED c))) period kind ds ic t (f (List.replicate (stepBytes kind) 0#8))
            let gone := (ic.pages.drop 1).filter (fun p => !ic1.pages.contains p) |>.flatMap (fun p => p.steps.map (·.1))
            stagePeak (inkOverwrite (inkPutRec s q { r with chans := chanPut r.chans ic1, first := some (r.first.getD t) }) q r.num c gone)

/-- Bytes of words in memory order from an offset of a step on. -/
def bytesAt (b : List Byte) (off : Nat) (new : List Byte) : List Byte := b.take off ++ new ++ b.drop (off + new.length)

/-- A gap on the channels of the filling sessions that `p` names: their next page carries GAP, and INK_GAP tells it (R321). -/
def inkGap (s : State) (detail : Nat) (p : Nat → Bool) : State :=
  (List.range 4).foldl (fun t q =>
    if !inkFilling t q || !(inkChans t q).any p then t
    else match inkCur t q with
      | none => t
      | some r => ((inkPutRec t q { r with chans := r.chans.map (fun c => if p c.ch then { c with gapNext := true } else c) }).setFld
          ⟨R.inkSflag q, 6, 1⟩ 1).raise 182 q (wd detail)) s

/-! ### Nib log (R304) -/

/-- A happening of a nib: a record if a token is there, else a skip counted in the channel of its bank and in the nib's next record. The
bucket of a nib is its own, whatever captures its records. -/
def nibLog (s : State) (n code : Nat) (t : Tick) (eps : Word) : State :=
  let tok := tblGet s.ink.tokens n 0
  let sk := tblGet s.ink.skips n 0
  if tok = 0 then
    let s1 := s.withInk { s.ink with skips := tblPut s.ink.skips n (satInc 16 sk) 0 }
    match inkChanOf s 3 (n / 8) with
    | some c => s1.cntSat (R.inkCstat_SKIPS c)
    | none => s1
  else
    let s1 := s.withInk { s.ink with tokens := tblPut s.ink.tokens n (tok - 1) 0, skips := tblPut s.ink.skips n 0 0 }
    inkStep s1 3 (n / 8) 0 t (fun _ => wordBytes [lo32 t, hi32 t, wd (n * 2 ^ 24 + code * 65536 + sk), eps])

/-- Every 10 µs one token is added to each bucket, up to four. -/
def execNiblogTokenRefill (s : State) : Host.Outcome State Fault Refusal :=
  .next (s.withInk { s.ink with tokens := (List.range 72).foldl (fun t n => tblPut t n (min 4 (tblGet t n 0 + 1)) 0) s.ink.tokens })

/-! ### Triggers (R314, R315) -/

/-- Flags added to a record and to FLAGS of its session. -/
def inkFlag (s : State) (q : Nat) (r : InkRec) (f : Nat) : State :=
  (inkPutRec s q { r with flags := r.flags ||| f }).setFld (R.inkSflag_FLAGS q) (s.fld (R.inkSflag_FLAGS q) ||| f)

/-- A trigger of an ARMED session at an instant: the record enters POST (R314, R317). -/
def inkTrigger (s : State) (q : Nat) (t : Tick) (forced : Bool) : State :=
  match inkCur s q with
  | none => s
  | some r =>
    let short := match r.first with
      | none => decide (0 < s.fld (R.inkPre_NS q))
      | some f => decide ((t - f).toInt < (nsTicks (s.fld (R.inkPre_NS q)) : Nat))
    let fl := fTRIG ||| (if short then fPRE_SHORT else 0) ||| (if forced then fFORCED else 0)
    let s1 := inkFlag s q { r with trig := some t } fl
    (inkSetState (s1.setReg64 (R.inkTdtLo q) t) q 2).raise 177 q (wd (b2n forced * 256 + r.num))

/-- A trigger meets the release that armed its session out of WAITING: both fall into one 2 ns (R325, R49). -/
def inkReleasing (s : State) (q : Nat) (t : Tick) : Bool :=
  match (s.inkS q).relAt with
  | some r => decide (-32 ≤ (t - r).toInt) && decide ((t - r).toInt ≤ 32)
  | none => false

/-- A trigger condition met: it acts in ARMED, and in POST and WAITING, or as a release arms the session, counts as missed (R317, R325). -/
def inkMet (s : State) (q : Nat) (t : Tick) : State :=
  if !tbValid s then s
  else if inkState s q = 1 ∧ inkReleasing s q t = false then inkTrigger s q t false
  else if inkState s q = 1 ∨ inkState s q = 2 ∨ inkState s q = 3 then
    let s1 := s.cntSat (R.inkSstat_MISSED q)
    s1.raiseLim 179 q (wd (s1.fld (R.inkSstat_MISSED q))) (100 * msTicks)
  else s

/-- A value of a source at its terminal instant meets, or moves, the condition of one session (R315). -/
def inkValue1 (s : State) (q : Nat) (t : Tick) (v : Rat) : State :=
  let x := s.inkS q
  let c := s.fld (R.inkTrig_COND q)
  let sn := s.fld (R.inkTrig_SENSE q)
  let hi := ratOf (s.reg (R.inkThi q))
  let lo := ratOf (s.reg (R.inkTlo q))
  let level := if sn = 1 then decide (v < hi) else decide (hi ≤ v)
  let inside (y : Rat) : Bool := decide (lo ≤ y) && decide (y < hi)
  let x1 := { x with prev := some v, upOk := x.upOk || decide (v < lo), downOk := x.downOk || decide (lo < v) }
  let s1 := s.setInkS q x1
  if c = 1 then (if level && inkState s q == 1 then inkMet s1 q t else s1)
  else if c = 5 then (if level then s1.setInkS q { x1 with tA := some t } else s1)
  else match x.prev with
    | none => s1
    | some p =>
      let up := decide (hi ≤ v) && decide (p < hi) && x.upOk && sn != 1
      let down := decide (v < hi) && decide (hi ≤ p) && x.downOk && (sn == 1 || sn == 2)
      if c = 2 ∧ (up ∨ down) then
        inkMet (s1.setInkS q { x1 with upOk := x1.upOk && !up, downOk := x1.downOk && !down }) q t
      else if c = 3 ∧ ((sn = 0 ∧ inside v ∧ !inside p) ∨ (sn = 1 ∧ !inside v ∧ inside p)) then inkMet s1 q t
      else s1

/-- A value of a trigger source: sinc3 sample, first word of a probe or v_act of an axis. -/
def inkValue (s : State) (skind src : Nat) (t : Tick) (w : Word) : State :=
  if f32IsNaN w then s
  else (List.range 4).foldl (fun u q =>
    if (inkState u q == 1 || inkState u q == 2 || inkState u q == 3) && tbValid u
        && u.fld (R.inkTrig_SKIND q) == skind && u.fld (R.inkTrig_SRC q) == src then inkValue1 u q t (ratOf w) else u) s

/-- The classes of FAULTMASK an event belongs to (R315): bit 4 is event 192 with STO as its new mode (R359). -/
def faultClass (ev : Nat) (detail : Word) : Nat :=
  match ev with
  | 32 => 1 | 64 => 2 | 102 => 4 | 169 => 8 | 97 => 32
  | 192 => if bitsOf detail 0 4 = 0 then 16 else 0
  | _ => 0

/-- An event meets the conditions of kind EVENT, SEQUENCE and FAULT at its DT (R315). -/
def inkEvent (s : State) (ev : Nat) (detail : Word) (t : Tick) : State :=
  (List.range 4).foldl (fun u q =>
    let c := u.fld (R.inkTrig_COND q)
    let hit :=
      if c = 4 then u.fld (R.inkTrig_EVENT q) == ev
      else if c = 6 then (u.fld (R.inkTrig_FAULTMASK q) &&& faultClass ev detail) != 0
      else if c = 5 then u.fld (R.inkTrig_EVENT q) == ev && (match (u.inkS q).tA with
        | some a => decide (a ≤ t) && decide (t < a + tk (nsTicks (u.fld ⟨R.inkTseq q, 0, 32⟩)))
        | none => false)
      else false
    if hit then inkMet u q t else u) s

/-! ### Sessions (R313, R316, R317) -/

/-- The largest rate of a source in steps: edge ticks per step, and bytes per step (R302, R313). -/
def inkStepTicks (s : State) (c : Nat) : Nat × Nat :=
  let src := s.fld (R.inkCcfg_SRC c)
  let tm (ch : Nat) : Nat := 32 * s.fld (R.senseMclk_MDIV (s.fld (R.senseCfg_MSEL ch)))
  let first := (List.range 8).find? (fun i => s.flag (R.senseCfg_EN (8 * src + i)))
  let ch := 8 * src + first.getD 0
  let ctxTicks (slot : Nat) : Nat := frameWritten s (s.ctx slot).grp * (s.ctx slot).div
  match s.fld (R.inkCcfg_KIND c) with
  | 1 => (tm ch, 1)
  | 2 => (tm ch * s.fld (R.senseCfg_S3_OSR ch), 16)
  | 3 => (20000, 16)
  | 4 => (ctxTicks src, 8)
  | _ => (match axisSlot s src with
    | some k => ctxTicks k
    | none => 0, 8)

/-- Pages a channel needs per record (R313). -/
def inkNeed (s : State) (q c : Nat) : Nat :=
  let r := inkStepTicks s c
  let span := nsTicks (s.fld (R.inkPre_NS q)) + nsTicks (s.fld (R.inkPost_NS q))
  if r.1 = 0 then 1 else (r.2 * span + 65536 * r.1 - 1) / (65536 * r.1) + 1

/-- A fresh record for the channels of a session. -/
def inkNewRec (s : State) (q n : Nat) : InkRec := { num := n, chans := (inkChans s q).map (fun c => { ch := c }) }

/-- The page range of a session overlaps that of another that is not IDLE (R313). -/
def inkOverlap (s : State) (q : Nat) : Bool :=
  (List.range 4).any (fun p => p != q && inkState s p != 0
    && decide (s.fld (R.inkSmem_BASE q) < s.fld (R.inkSmem_BASE p) + s.fld (R.inkSmem_PAGES p))
    && decide (s.fld (R.inkSmem_BASE p) < s.fld (R.inkSmem_BASE q) + s.fld (R.inkSmem_PAGES q)))

/-- The settings INK_ARM refuses (R313, R315, R316). -/
def inkArmBad (s : State) (q : Nat) : Bool :=
  let cs := inkChans s q
  let lo := s.reg (R.inkTlo q)
  let hi := s.reg (R.inkThi q)
  decide (s.fld (R.inkSmem_PAGES q) < sumNat (cs.map (inkNeed s q)) * (s.fld (R.inkScfg_NREC q) + 1))
  || decide (4096 < s.fld (R.inkSmem_BASE q) + s.fld (R.inkSmem_PAGES q)) || inkOverlap s q
  || (s.reg (R.inkPre q) == 0#32 && s.reg (R.inkPost q) == 0#32) || cs.isEmpty
  || badF32 lo || badF32 hi || decide (ratOf hi < ratOf lo) || s.fld (R.inkTrig_SENSE q) == 3 || decide (6 < s.fld (R.inkTrig_COND q))
  || (s.fld (R.inkScfg_MODE q) == 2 && s.fld (R.inkScfg_AUTO_T q) == 0)

/-- The DRAM interface is not clocked (R69, R317). -/
def inkDown (s : State) : Bool := !s.flag R.clkGate_INKM || !s.flag R.clkStat_IPLL_LOCK

/-- A session arms record `n` (R317). -/
def inkArmRec (s : State) (q n : Nat) (st : Nat) : State :=
  let x := s.inkS q
  let s1 := s.setInkS q { x with recs := x.recs.filter (fun r => r.num != n) ++ [inkNewRec s q n], armedAt := s.dt, prev := none, tA := none, upOk := true, downOk := true, relAt := none }
  inkSetState (s1.setFld (R.inkSstat_WREC q) n) q st

/-- A readout is abandoned: INK_READ_DONE with detail 1. -/
def inkReadAbandon (s : State) (p : InkRead → Bool) : State :=
  let gone := s.ink.reads.filter p
  gone.foldl (fun t r => t.raise 180 r.sess (wd (min 255 r.uncorr * 256 + 1))) (s.withInk { s.ink with reads := s.ink.reads.filter (fun r => !p r) })

/-- INK_ARM (R313, R317). -/
def opInkArm (r : Request) (s : State) : Res :=
  let q := r.target
  if inkDown s then refuse s stNOT_READY
  else if 3 < q then refuse s stRANGE
  else if inkArmBad s q then refuse s stBAD_PARAM
  else if inkState s q = 1 ∨ inkState s q = 2 ∨ inkState s q = 3 ∨ inkState s q = 5 then refuse s stBUSY_TARGET
  else
    let s1 := (inkChans s q).foldl (fun t c => (t.setFld (R.inkCstat_NEED c) (inkNeed s q c)).setFld (R.inkCstat_SKIPS c) 0) (inkReadAbandon s (fun x => x.sess == q))
    let s2 := ((s1.setInkS q { s1.inkS q with recs := [] }).setFld (R.inkSstat_FULL q) 0).setFld (R.inkSstat_MISSED q) 0
    { st := inkArmRec s2 q 0 (if s.fld (R.inkScfg_MODE q) = 3 then 5 else 1) }

def execInkArm (r : Request) (s : State) : Host.Outcome State Fault Refusal := .next (serveReed r s r.params.isEmpty (opInkArm r))

/-- INK_FORCE (R317). -/
def opInkForce (r : Request) (s : State) : Res :=
  let q := r.target
  if inkDown s then refuse s stNOT_READY
  else if 3 < q then refuse s stRANGE
  else match inkState s q with
    | 1 => { st := inkTrigger s q s.dt true }
    | 2 => { st := s }
    | 3 => { st := s }
    | _ => refuse s stREFUSED_STATE

def execInkForce (r : Request) (s : State) : Host.Outcome State Fault Refusal := .next (serveReed r s r.params.isEmpty (opInkForce r))

/-- A record of a session ends; it holds data from then on. -/
def inkRecEnd (s : State) (q : Nat) (partial_ : Bool) : State :=
  match inkCur s q with
  | none => s
  | some r =>
    let s1 := if partial_ then inkFlag s q r fPARTIAL else s
    (s1.setFlag ⟨R.inkSstat q, 8 + r.num, 1⟩ true).raise 178 q (wd (b2n partial_ * 256 + r.num))

/-- INK_STOP (R317): a record it interrupts keeps what it holds and is marked PARTIAL; the end of a ROLL is its record's end. -/
def opInkStop (r : Request) (s : State) : Res :=
  let q := r.target
  if inkDown s then refuse s stNOT_READY
  else if 3 < q then refuse s stRANGE
  else match inkState s q with
    | 1 => { st := inkSetState (inkRecEnd s q true) q 6 }
    | 2 => { st := inkSetState (inkRecEnd s q true) q 6 }
    | 3 => { st := inkSetState s q 6 }
    | 5 => { st := inkSetState (inkRecEnd s q false) q 6 }
    | _ => { st := s }

def execInkStop (r : Request) (s : State) : Host.Outcome State Fault Refusal := .next (serveReed r s r.params.isEmpty (opInkStop r))

/-- The next record without data of a session, in turn. -/
def inkNextRec (s : State) (q : Nat) : Option Nat :=
  let n := s.fld (R.inkScfg_NREC q) + 1
  let w := s.fld (R.inkSstat_WREC q)
  ((List.range n).map (fun i => (w + 1 + i) % n)).find? (fun i => !s.flag ⟨R.inkSstat q, 8 + i, 1⟩)

/-- Every channel of the record has posted at or beyond t_T + POST (R314). -/
def inkComplete (s : State) (q : Nat) : Bool :=
  match inkCur s q with
  | none => false
  | some r => match r.trig with
    | none => false
    | some t => r.chans.all (fun c => match c.last with
      | some l => decide (t + tk (nsTicks (s.fld (R.inkPost_NS q))) ≤ l)
      | none => false)

/-- Steps of a completed record before t_T − PRE are no part of it (R314). -/
def inkTrim (s : State) (q : Nat) (r : InkRec) : InkRec :=
  match r.trig with
  | none => r
  | some t =>
    let keep (e : Tick × List Byte) : Bool := decide (-((nsTicks (s.fld (R.inkPre_NS q)) : Nat) : Int) ≤ (e.1 - t).toInt)
    { r with chans := r.chans.map (fun c => { c with pages := (c.pages.map (fun p => { p with steps := p.steps.filter keep })).filter (fun p => p.steps != []) }) }

def inkRecordComplete (s : State) (q : Nat) : State :=
  if inkState s q ≠ 2 ∨ !inkComplete s q then s
  else match inkCur s q with
    | none => s
    | some r =>
      let s1 := inkRecEnd (inkPutRec s q (inkTrim s q r)) q false
      if s.fld (R.inkScfg_MODE q) = 0 then inkSetState s1 q 4
      else match inkNextRec s1 q with
        | some n => inkArmRec s1 q n 1
        | none => inkSetState s1 q 3

def execInkRecordComplete (q : Fin 4) (s : State) : Host.Outcome State Fault Refusal := .next (inkRecordComplete s q.val)

/-- AUTO: no trigger within AUTO_T of the entry into ARMED forces one at its end (R316). -/
def inkAutoExpiry (s : State) (q : Nat) : State :=
  let e := (s.inkS q).armedAt + tk (s.fld (R.inkScfg_AUTO_T q) * msTicks)
  if inkState s q = 1 ∧ s.fld (R.inkScfg_MODE q) = 2 ∧ tbValid s then inkTrigger (s.at e) q e true else s

def execInkAutoExpiry (q : Fin 4) (s : State) : Host.Outcome State Fault Refusal := .next (inkAutoExpiry s q.val)

/-- An interface failure: every session not IDLE enters FAULT and its records are discarded (R322). -/
def inkFail (s : State) : State :=
  let s1 := (List.range 4).foldl (fun t q => if inkState t q = 0 then t
    else inkSetState ((t.setInkS q {}).setFld (R.inkSstat_FULL q) 0) q 7) (inkReadAbandon s (fun _ => true))
  (s1.setFlag R.inkGstat_IFAULT true).raise 181 0 3#32

def execInkInterfaceFailure (s : State) : Host.Outcome State Fault Refusal := .next (inkFail s)

/-! ### Readout (R318, R319, R323, R324) -/

/-- A step is taken by a read: some terminal instant of it lies in [from, to); both 0 take every step (R323). -/
def readTakes (from_ to_ : Tick) (p : InkPage) (t : Tick) : Bool :=
  (from_ == 0 && to_ == 0) ||
  (if p.ds = [] then decide (from_ ≤ t) && decide (t < to_) else p.ds.any (fun d => decide (from_ ≤ t - tk d) && decide (t - tk d < to_)))

/-- Whole steps packed into entries of a page (R324): `room` words for the steps of the first entry, 253 for each later one. -/
def packSteps (n : Nat) : Nat → Nat → List (Tick × List Byte) → List (List (Tick × List Byte))
  | 0, _, _ => []
  | _, _, [] => []
  | fuel + 1, room, l => let k := max 1 (room * 4 / n); l.take k :: packSteps n fuel 253 (l.drop k)

/-- The words of one readout entry (R324). -/
def readEntry (q rec_ ch chunk kind flags : Nat) (last : Bool) (p : InkPage) (withD : Bool) (l : List (Tick × List Byte)) : List Word :=
  let t := match l with
    | [] => 0#64
    | e :: _ => e.1
  let bytes := l.flatMap (·.2)
  let pad := bytes ++ List.replicate ((4 - bytes.length % 4) % 4) 0#8
  let data := [lo32 t, hi32 t, wd p.period] ++ (if withD then p.ds.map wd else []) ++ bytesWords pad
  let body := wd (q * 2 ^ 30 + rec_ * 2 ^ 26 + ch * 2 ^ 20 + chunk % 2 ^ 20) :: wd (flags * 2 ^ 25 + b2n last * 2 ^ 24 + kind * 65536 + data.length) :: data
  body ++ [crc32c body]

/-- The parts of a channel of a record: page, first of its page, steps. -/
def readParts (from_ to_ : Tick) (kind : Nat) (pages : List InkPage) : List (InkPage × Bool × List (Tick × List Byte)) :=
  pages.flatMap (fun p =>
    let l := p.steps.filter (fun e => readTakes from_ to_ p e.1)
    let parts := packSteps (stepBytes kind) l.length (253 - p.ds.length) l
    (List.range parts.length).map (fun i => (p, i == 0, nth parts i [])))

/-- The readout entries of one channel of a record. -/
def readChan (s : State) (q : Nat) (r : InkRec) (open_ : Bool) (from_ to_ : Tick) (c : InkChan) : List (List Word) :=
  let kind := s.fld (R.inkCcfg_KIND c.ch)
  let pages := (if open_ then c.pages.drop 1 else c.pages).reverse
  let parts := readParts from_ to_ kind pages
  (List.range parts.length).map (fun i =>
    let x := nth parts i ({}, false, [])
    let fl := (r.flags &&& (fPRE_SHORT ||| fFORCED ||| fPARTIAL)) ||| (if x.1.gap then 64 else 0)
      ||| (match r.trig with
        | some t => if x.1.steps.any (fun e => e.1 == t) || (x.1.steps.any (fun e => decide (e.1 ≤ t)) && x.1.steps.any (fun e => decide (t < e.1))) then fTRIG else 0
        | none => 0)
    readEntry q r.num c.ch i kind fl (i + 1 == parts.length) x.1 (x.2.1 && decide (kind ≤ 2)) x.2.2)

/-- Entries moved out as far as the destination takes them: a ring destination follows STALL (R323); a UDP datagram carries one
header word and one entry (R383). -/
def inkPump1 : Nat → State → InkRead → State × InkRead
  | 0, s, r => (s, r)
  | fuel + 1, s, r =>
    match r.out with
    | [] => (s, r)
    | e :: es =>
      if r.dest = 0 then
        (if e.length ≤ ringFree s r.ring then inkPump1 fuel (ringStore s r.ring e { words := e.length }) { r with out := es } else (s, r))
      else
        if r.dest ≤ 2 then
          let p := r.dest - 1
          let ws := wd (r.n % 65536 * 65536 + 0x100 + r.sess) :: e
          let pcp := s.fld (R.ethCfg_PCP_INK p)
          let f := udpFrame (pcp / 2) (netTag s p pcp) (BitVec.ofNat 48 (s.fld (R.ethInkMachi_MAC p) * 2 ^ 32 + (s.reg (R.ethInkMaclo p)).toNat))
            (s.reg (R.ethInkIp p)) (s.fld (R.ethInkMachi_INK_DPORT p)) (s.fld (R.ethUdp_INK_PORT p)) ws
          if !ethUp s p || netRoom s p f.queue f.bytes then
            let s1 := netTx s p f
            inkPump1 fuel (s1.withInk { s1.ink with sent := (r.dest, ws) :: s1.ink.sent }) { r with out := es, n := r.n + 1 }
          else (s, r)
        else if s.ink.toSward.length < 16 then
          inkPump1 fuel (s.withInk { s.ink with sent := (r.dest, e) :: s.ink.sent, toSward := s.ink.toSward ++ [e] }) { r with out := es, n := r.n + 1 }
        else (s, r)

/-- Every running readout moves on. -/
def inkPump (s : State) : State :=
  s.ink.reads.foldl (fun t r =>
    let x := inkPump1 r.out.length t r
    x.1.withInk { x.1.ink with reads := x.1.ink.reads ++ [x.2] }) (s.withInk { s.ink with reads := [] })

/-- INK_READ (R323). -/
def opInkRead (r : Request) (s : State) : Res :=
  let q := r.target
  let p0 := r.p 0
  let dest := bitsOf p0 28 4
  let n := bitsOf p0 24 4
  let ch := bitsOf p0 16 8
  let ring := bitsOf p0 8 8
  let from_ := join64 (r.p 1) (r.p 2)
  let to_ := join64 (r.p 3) (r.p 4)
  if inkDown s then refuse s stNOT_READY
  else if 3 < q then refuse s stRANGE
  else if 3 < dest ∨ bitsOf p0 1 7 ≠ 0 ∨ s.fld (R.inkScfg_NREC q) < n ∨ (dest = 0 ∧ (ring < 36 ∨ 43 < ring))
      ∨ (ch ≠ 0xFF ∧ !(inkChans s q).contains ch) ∨ to_ < from_ then refuse s stBAD_PARAM
  else if s.ink.reads.any (fun x => x.dest == dest && (dest != 0 || x.ring == ring)) then refuse s stBUSY_TARGET
  else match (s.inkS q).recs.find? (fun x => x.num == n) with
    | none => refuse s stREFUSED_STATE
    | some rc =>
      let filling := inkFilling s q && s.fld (R.inkSstat_WREC q) == n
      if (filling ∧ inkState s q ≠ 5) ∨ rc.chans.all (fun c => c.pages.isEmpty) then refuse s stREFUSED_STATE
      else
        let cs := rc.chans.filter (fun c => ch == 0xFF || c.ch == ch)
        let out := cs.flatMap (readChan s q rc filling from_ to_)
        let rd : InkRead := { sess := q, rec_ := n, dest := dest, ring := ring, release := bitOf p0 0, out := out }
        { st := inkPump (s.withInk { s.ink with reads := s.ink.reads ++ [rd] }) }

def execInkRead (r : Request) (s : State) : Host.Outcome State Fault Refusal := .next (serveReed r s (r.params.length == 5) (opInkRead r))

/-- A record freed: in WAITING the session re-arms with it (R317). -/
def inkRelease (s : State) (q n : Nat) : State :=
  let s1 := (s.setInkS q { s.inkS q with recs := (s.inkS q).recs.filter (fun r => r.num != n) }).setFlag ⟨R.inkSstat q, 8 + n, 1⟩ false
  if inkState s q = 3 then
    let s2 := inkArmRec s1 q n 1
    s2.setInkS q { s2.inkS q with relAt := some s.dt }
  else s1

/-- ECC errors met by a readout of a session: `single` corrected words, `double` uncorrectable ones, which show in FLAGS too (R320, R322). -/
def inkEccErrors (s : State) (q single double : Nat) : State :=
  let s1 := s.setFld R.inkEcc_CORRECTED (satAdd 16 (s.fld R.inkEcc_CORRECTED) single)
  let s2 := if single = 0 then s1 else s1.raiseLim 181 0 1#32 (1000 * msTicks)
  let s3 := s2.setFld R.inkEcc_UNCORR (satAdd 16 (s2.fld R.inkEcc_UNCORR) double)
  if double = 0 then s3 else (s3.setFld (R.inkSflag_FLAGS q) (s3.fld (R.inkSflag_FLAGS q) ||| fUNCORR)).raise 181 0 2#32

/-- The oldest readout of a session that has written everything ends (R323). -/
def inkReadDone (s : State) (q single double : Nat) : State :=
  let s0 := inkPump s
  match s0.ink.reads.find? (fun r => r.sess == q && r.out.isEmpty) with
  | none => s0
  | some r =>
    let s1 := inkEccErrors (s0.withInk { s0.ink with reads := s0.ink.reads.filter (· != r) }) q single double
    let s2 := if r.release then inkRelease s1 q r.rec_ else s1
    s2.raise 180 q (wd (min 255 double * 256))

def execInkReadDone (q : Fin 4) (single double : Nat) (s : State) : Host.Outcome State Fault Refusal := .next (inkReadDone s q.val single double)

/-! ### Register writes (R302, R303, R317, R327) -/

/-- The enabled channels of a bank agree on clock and edge, and for FILT on S3_OSR (R302). -/
def bankUniform (s : State) (b : Nat) (filt : Bool) : Bool :=
  let l := (List.range 8).map (8 * b + ·) |>.filter (fun c => s.flag (R.senseCfg_EN c))
  match l with
  | [] => true
  | c0 :: cs => cs.all (fun c => s.fld (R.senseCfg_MSEL c) == s.fld (R.senseCfg_MSEL c0) && s.fld (R.senseCfg_EDGE c) == s.fld (R.senseCfg_EDGE c0)
      && (!filt || s.fld (R.senseCfg_S3_OSR c) == s.fld (R.senseCfg_S3_OSR c0)))

/-- The session may be configured: IDLE, DONE, STOPPED or FAULT (R317). -/
def inkQuiet (s : State) (q : Nat) : Bool := let st := inkState s q; st == 0 || st == 4 || st == 6 || st == 7

/-- The source index of a kind exists (R302). -/
def inkSrcOk (kind src : Nat) : Bool :=
  match kind with
  | 1 => decide (src < 16) | 2 => decide (src < 16) | 3 => decide (src < 9) | 4 => decide (src < 256) | 5 => decide (src < 64) | _ => false

/-- A write of `INK.CCFG[c]` (R302, R303, R317). DEDUCED (log entry 82): KIND 0, its reset value, may stand in a channel that is not
enabled. -/
def inkCcfgWrite (s : State) (c : Nat) (w : Word) : Res :=
  let a := R.inkCcfg c
  let v := written s a w
  let kind := bitsOf v 24 4
  let src := bitsOf v 16 8
  let en := bitOf v 31
  if 5 < kind ∨ en ∧ (!inkSrcOk kind src ∨ (kind ≤ 2 ∧ !bankUniform s src (kind == 2))) then refuse s stBAD_PARAM
  else if en && (match inkChanOf s kind src with
    | some d => d != c
    | none => false) then refuse s stBUSY_TARGET
  else if (s.flag (R.inkCcfg_EN c) ∧ !inkQuiet s (s.fld (R.inkCcfg_SESSION c))) ∨ (en ∧ !inkQuiet s (bitsOf v 28 2)) then refuse s stREFUSED_STATE
  else plainNow s a w

/-- A write of a register of the INK block, where AUTO_T 0 is refused (R316); none where the access codes alone decide. -/
def inkBlockWrite (s : State) (a : Nat) (w : Word) : Option Res :=
  if a < 0x180100 then
    let q := (a - 0x180000) / 0x40
    let o := a % 0x40
    if o < 0x10 then
      some (checked s (o == 0 && bitsOf w 0 16 == 0) stBAD_PARAM (checked s (!inkQuiet s q) stREFUSED_STATE (plainNow s a w)))
    else if o = 0x10 then some (checked s (bitsOf w 24 2 == 3) stBAD_PARAM (plainNow s a w))
    else none
  else if 0x180400 ≤ a ∧ a < 0x180800 ∧ a % 0x10 = 0 then some (inkCcfgWrite s ((a - 0x180400) / 0x10) w)
  else none

end Sys2Proof.Machine
end

