-- ==== Sys2Proof/Machine/Command.lean ====
section
/-! DEFINITION. Carriers, the dispatcher, the rings and the SPI ports (04_command_interface.md). -/

namespace Sys2Proof.Machine

open Sys2Proof

/-! ### Carriers -/

/-- The status word the host port shifts out during a header word (R93). -/
def hostStatusWord (s : State) : Word :=
  let irq := (List.range 4).foldl (fun a m => a + b2n (s.flag (R.evtIrqctrl_ASSERTED m)) * 2 ^ m) 0
  let es := ringEnts s 8
  wd (b2n (s.flag R.spiHstat_HRDY) * 2 ^ 31 + s.cmd.hPrev * 2 ^ 28 + irq * 2 ^ 24 + min es.length 255 * 2 ^ 16
      + (match es with | [] => 0 | e :: _ => e.words))

/-- What the host port remembers of the frame just ended: [30:28] of the next status word, and what it shifted out. -/
def hostFrameEnd (s : State) (prev : Nat) (miso : List Word) : State := s.withCmd { s.cmd with hPrev := prev, miso := miso }

/-- A frame of the host port aborted: ABORTED, counted, event 255 detail 2 (R94). -/
def hostAbort (s : State) (miso : List Word) : State :=
  (hostFrameEnd ((s.setFlag R.spiHstat_ABORTED true).cntSat R.spiHcnt_ABORTS) 2 miso).raise 255 0 2#32

/-- A carrier unit enters its port's command ring: too short for two header words it is discarded and counted in BAD_LEN (R76). -/
def unitArrive (s : State) (p : Nat) (o : Origin) (bytes : List Byte) : State × Bool :=
  if bytes.length < 8 then (s.cntSat (R.ringPort_BAD_LEN p), true)
  else ringPut s p (bytesWords bytes) { words := bytes.length / 4, extra := bytes.length % 4, origin := o }

/-- The host port runs from HSCLK except while the module is held in reset or dormant (R92, R141). -/
def hostPortUp (s : State) : Bool := s.phase != .reset && s.phase != .dormant

/-- A CMD frame of the host port at the rise of HSEL_N (R94). -/
def hostCmdFrame (s : State) (hdr : Word) (body : List Word) (tailBits : Nat) : State :=
  let len := bitsOf hdr 0 16
  let st := hostStatusWord s
  if bitsOf hdr 28 4 ≠ 1 ∨ tailBits % 32 ≠ 0 ∨ body.length < len then
    hostAbort s (st :: List.replicate body.length 0#32)
  else
    let miso := st :: List.replicate body.length 0#32
    let ws := body.take len
    if ws.length < 2 then (hostFrameEnd s 0 miso).cntSat (R.ringPort_BAD_LEN 0)
    else if ws.length ≤ ringFree s 0 then
      hrdyUpdate (hostFrameEnd (ringStore s 0 ws { words := ws.length }) 0 miso) (serving s)
    else
      (hostFrameEnd (((ringLose s 0 1).setFlag R.spiHstat_OVERRUN true).cntSat R.spiHcnt_OVERRUNS) 1 miso).raise 255 0 3#32

def execHostSpiCmdFrame (hdr : Word) (body : List Word) (tailBits : Nat) (s : State) : Host.Outcome State Fault Refusal :=
  .next (if hostPortUp s then hostCmdFrame s hdr body tailBits else s)

/-- A STATUS frame, or a FETCH with LEN 0, returns the status word only (R93, R95). -/
def hostStatusFrame (s : State) (hdr : Word) : State :=
  let st := hostStatusWord s
  if bitsOf hdr 28 4 = 3 ∨ (bitsOf hdr 28 4 = 2 ∧ bitsOf hdr 0 16 = 0) then hostFrameEnd s 0 [st] else hostAbort s [st]

def execHostSpiStatusFrame (hdr : Word) (s : State) : Host.Outcome State Fault Refusal :=
  .next (if hostPortUp s then hostStatusFrame s hdr else s)

/-- The words shifted out after the status word while `n` words are clocked: the tail reply, then zeros; a word that was
not ready repeats the one before it (R95, R96). DESIGN CHOICE (log entry 74): the late word is skipped and the next word of the
reply follows the repeated one. -/
def fetchOut (before : Word) (late : Option Nat) : List Word → Nat → Nat → List Word
  | _, _, 0 => []
  | ws, i, n + 1 =>
    let w := if late = some i then before else nth ws 0 0#32
    w :: fetchOut w late (ws.drop 1) (i + 1) n

/-- A FETCH frame: the tail reply of ring 8 shifted out, and removed if it was clocked whole with no underrun (R95, R96). -/
def hostFetchFrame (s : State) (hdr : Word) (clocked : Nat) (late : Option Nat) : State :=
  if bitsOf hdr 28 4 ≠ 2 ∨ bitsOf hdr 0 16 = 0 then hostStatusFrame s hdr
  else
    let st := hostStatusWord s
    let ws := ringTailWords s 8
    let under := match late with
      | some i => decide (i < min clocked ws.length)
      | none => false
    let miso := st :: fetchOut st (if under then late else none) ws 0 clocked
    if under then
      (hostFrameEnd ((s.setFlag R.spiHstat_UNDERRUN true).cntSat R.spiHcnt_UNDERRUNS) 4 miso).raise 255 0 1#32
    else
      let s1 := if ws ≠ [] ∧ ws.length ≤ clocked then ringDrop s 8 else s
      hostFrameEnd s1 0 miso

def execHostSpiFetchFrame (hdr : Word) (clocked : Nat) (late : Option Nat) (s : State) : Host.Outcome State Fault Refusal :=
  .next (if hostPortUp s then hostFetchFrame s hdr clocked late else s)

/-- A carrier other than the host port delivers to its command ring only once all ports are served (R113, R114). -/
def carrierArrive (s : State) (p : Nat) (o : Origin) (bytes : List Byte) : State :=
  if s.phase = .ready then (unitArrive s p o bytes).1 else s

/-- A datagram on a MAC's command port; a bad checksum discards it (R98), and so does a port that does not run or a device in
coast (R66, R379). -/
def execUdpCommandDatagram (mac : Fin 2) (o : Origin) (bytes : List Byte) (sumOk : Bool) (s : State) : Host.Outcome State Fault Refusal :=
  .next (if sumOk && ethUp s mac.val then carrierArrive s (1 + mac.val) o bytes else s)

/-- A Sward command-class frame carries one request into port 3 (R99); a device in coast discards it (R66). -/
def execSwardCommandFrame (src : Nat) (bytes : List Byte) (s : State) : Host.Outcome State Fault Refusal :=
  .next (if swHears s then carrierArrive s 3 (.sward src false) bytes else s)

/-- The bytes a CAN FD frame carries when it carries `n`: the next length its DLC can say. -/
def canFdLen (n : Nat) : Nat :=
  if n ≤ 8 then n else if n ≤ 12 then 12 else if n ≤ 16 then 16 else if n ≤ 20 then 20 else if n ≤ 24 then 24
  else if n ≤ 32 then 32 else if n ≤ 48 then 48 else 64

/-- The request of a CAN FD frame: its first 4 × (COUNT + 3) bytes where the rest is what the DLC rounding adds (R75, R100). -/
def canRequestBytes (bytes : List Byte) : List Byte :=
  let n := 4 * (bitsOf (nth (bytesWords bytes) 1 0#32) 0 16 + 3)
  if 8 ≤ bytes.length ∧ n ≤ bytes.length ∧ canFdLen n = bytes.length then bytes.take n else bytes

/-- A frame with the controller's REQ_ID: a classical frame is discarded and counted in BAD_LEN (R100). -/
def execCanCommandFrame (c : Fin 4) (fd : Bool) (bytes : List Byte) (s : State) : Host.Outcome State Fault Refusal :=
  .next (if s.phase ≠ .ready then s
         else if fd then carrierArrive s (4 + c.val) .can (canRequestBytes bytes)
         else s.cntSat (R.ringPort_BAD_LEN (4 + c.val)))

/-! ### The dispatcher (R83) -/

/-- The opcodes of the opcode table (R86). -/
def opcodeKnown (o : Nat) : Bool :=
  (decide (1 ≤ o) && decide (o ≤ 6)) || (decide (0x10 ≤ o) && decide (o ≤ 0x14)) || (decide (0x20 ≤ o) && decide (o ≤ 0x23))
  || (decide (0x30 ≤ o) && decide (o ≤ 0x39)) || (decide (0x40 ≤ o) && decide (o ≤ 0x43)) || (decide (0x48 ≤ o) && decide (o ≤ 0x4B))
  || (decide (0x50 ≤ o) && decide (o ≤ 0x53)) || (decide (0x60 ≤ o) && decide (o ≤ 0x62)) || (decide (0x70 ≤ o) && decide (o ≤ 0x71))
  || (decide (0x80 ≤ o) && decide (o ≤ 0x85)) || (decide (0x90 ≤ o) && decide (o ≤ 0x92)) || (decide (0xA0 ≤ o) && decide (o ≤ 0xA2))
  || o == 0xA8 || (decide (0xB0 ≤ o) && decide (o ≤ 0xB2)) || o == 0xC0 || o == 0xC1 || o == 0xF0 || o == 0xF1

/-- A CAN request whose reply would carry more than 13 data words (R100). -/
def canTooLong (r : Request) : Bool :=
  decide (4 ≤ r.port.val)
  && (decide (13 < r.count)
      || (r.opcode == 3 && decide (13 < (r.p 1).toNat))
      || (r.opcode == 6 && decide (13 < r.params.length))
      || (r.opcode == 0xC0 && decide (13 < bitsOf (r.p 0) 0 16)))

/-- Packet form under R76 and the carrier limits (step 3 of R81). -/
def packetForm (r : Request) (words extra : Nat) : Bool :=
  decide (r.count ≤ 256) && decide (bitsOf r.h0 19 5 = 0) && (!r.snapshot || r.opcode == 3)
  && decide (words = r.count + 3) && decide (extra = 0) && !canTooLong r

/-- The opcodes the register engine executes; Reed executes every other (R84). -/
def regOpcode (o : Nat) : Bool := decide (3 ≤ o) && decide (o ≤ 6)

/-- The request at the tail of a ring would go to Reed. -/
def reedNext (s : State) (p : Nat) : Bool := !regOpcode (bitsOf (nth (ringTailWords s p) 0 0#32) 24 8)

/-- A command ring the dispatcher can serve (from the acceptance of a firmware switch on, no request of Reed's, R136): not empty, the port's last request finished, 259 unreserved words free in the reply ring (R83). -/
def ringServable (s : State) (p : Nat) : Bool :=
  decide (ringEnts s p ≠ []) && decide ((s.port p).busy = none) && decide (259 + (s.port p).resv ≤ ringFree s (8 + p))
  && !(s.boot.hold && reedNext s p)

/-- The next command ring in turn that can be served. -/
def nextRing (s : State) : Option (Fin 8) :=
  (List.range 8).findSome? (fun i =>
    let p : Fin 8 := ⟨(s.cmd.turn + i) % 8, Nat.mod_lt _ (by decide)⟩
    if ringServable s p.val then some p else none)

/-- A request the filter holds is answered once more from it and counted, not executed (R77). -/
def repeatReply (s : State) (p : Nat) (o : Origin) (d : Done) : State :=
  let s1 := if d.reply = [] then s else udpCarry (ringPut s (8 + p) d.reply { words := d.reply.length, origin := o }).1 p
  s1.cntSat (R.ringPort_REPEATS p)

/-- The first steps of R81 for a request taken from its ring: check word, repeats, opcode, packet form; one that passes is
handed to its executor with 259 words of its reply ring reserved (R83). -/
def dispatchOne (s : State) (p : Fin 8) : State :=
  match ringEnts s p.val with
  | [] => s
  | e :: _ =>
    let ws := ringTailWords s p.val
    let r := requestOf p e.origin ws
    let s0 := ringDrop s p.val
    let s1 := s0.withCmd { s0.cmd with turn := (p.val + 1) % 8 }
    let s1 := if p.val = 0 then hrdyUpdate s1 true else s1
    let q := s1.port p.val
    let s2 := s1.setPort p.val { q with busy := some r, resv := q.resv + 259 }
    if ws.length < 3 ∨ crc32c ws.dropLast ≠ r.check then sendReply s2 r false stBAD_CRC 0 []
    else
      match q.done.find? (fun d => d.seq == r.seq && d.check == r.check) with
      | some d => repeatReply s1 p.val e.origin d
      | none =>
        if !opcodeKnown r.opcode then sendReply s2 r false stBAD_OPCODE 0 []
        else if !packetForm r ws.length e.extra then sendReply s2 r false stBAD_PARAM 0 []
        else s2

def execRequestDispatch (s : State) : Host.Outcome State Fault Refusal :=
  .next (if serving s then
      match nextRing s with
      | some p => if s.phase = .recovery ∧ p.val ≠ 0 then s else dispatchOne s p
      | none => s
    else s)

/-! ### Held replies (R51, R78, R79) -/

/-- A held reply of a port that can go: every boundary it waits for has passed, or its end was decided. -/
def deferredReady (d : Deferred) : Bool := d.waits.isEmpty || d.final.isSome

/-- A snapshot of a port that can be answered: taken, or without a boundary of its group for 5 ms (R51). -/
def snapReady (s : State) (x : Snap) : Bool :=
  x.got.isSome || (match (s.grp x.grp).next with
    | none => true
    | some (t, _) => decide (x.since + tk (5 * msTicks) < t))

/-- A reply that was held frees its reserved words, not the port (R83). -/
def heldAnswer (s : State) (r : Request) (status stamp : Nat) (data : List Word) : State := answer s r false true true status stamp data

/-- A held reply of a port goes: one that waits for its ring (R103), else the first that can, under R78 and R79, or R51 for a
snapshot. -/
def deferredSend (s0 : State) (p : Nat) : State :=
  let s := replyFlush (s0.port p).out.length s0 p
  match s.cmd.deferred.find? (fun d => d.req.port.val == p && deferredReady d) with
  | some d =>
    let s1 := s.withCmd { s.cmd with deferred := s.cmd.deferred.filter (fun x => x.ticket != d.ticket) }
    match d.final with
    | some (st, stamp) => heldAnswer s1 d.req st stamp d.data
    | none => heldAnswer s1 d.req (d.as_.getD (if d.mixed then stPENDING else stOK)) d.stamp d.data
  | none =>
    match s.cmd.snaps.find? (fun x => x.req.port.val == p && snapReady s x) with
    | some x =>
      let s1 := s.withCmd { s.cmd with snaps := s.cmd.snaps.filter (fun y => y != x) }
      match x.got with
      | some (st, stamp, data) => heldAnswer s1 x.req st stamp data
      | none => answer s1 x.req false true false stNOT_READY 0 []
    | none => s

def execDeferredReplySend (p : Fin 8) (s : State) : Host.Outcome State Fault Refusal := .next (deferredSend s p.val)

/-! ### NOP, IDENTIFY -/

def execNop (r : Request) (s : State) : Host.Outcome State Fault Refusal :=
  .next (serveReed r s (r.target == 0 && r.params.isEmpty) (fun t => { st := t, status := stOK }))

/-- IDENTIFY's data words (R2, R87): part, grade and revision C0, running firmware, running bank; version 0 in recovery (R114). -/
def identifyData (s : State) : List Word :=
  let bank := s.fld R.fwStat_RUNNING
  [0x00007224#32, wd ((if Config.gradeH then 0x48 else 0x47) * 256 + 0xC0), if s.phase = .recovery then 0#32 else s.reg (R.fwVer bank), wd bank]

def execIdentify (r : Request) (s : State) : Host.Outcome State Fault Refusal :=
  .next (serveReed r s (r.target == 0 && r.params.isEmpty) (fun t => { st := t, status := stOK, data := identifyData t }))

/-! ### Rings (R101 to R107) -/

/-- The largest run of whole entries from the tail within `mx` words: words and how many entries. -/
def popRun : List Ent → Nat → Nat × Nat
  | [], _ => (0, 0)
  | e :: es, mx => if e.words ≤ mx then let r := popRun es (mx - e.words); (e.words + r.1, r.2 + 1) else (0, 0)

/-- Entries removed from the tail of a ring. -/
def ringDropN (s : State) (n : Nat) : Nat → State
  | 0 => s
  | k + 1 => ringDropN (ringDrop s n) n k

/-- RING_POP is allowed on rings 16 to 19, 36 to 43 and 60 to 63 (R105). -/
def popAllowed (n : Nat) : Bool :=
  (decide (16 ≤ n) && decide (n ≤ 19)) || (decide (36 ≤ n) && decide (n ≤ 43)) || (decide (60 ≤ n) && decide (n ≤ 63))

/-- RING_POP (R105). -/
def opRingPop (r : Request) (s : State) : Res :=
  let n := r.target
  let mx := bitsOf (r.p 0) 0 16
  if 63 < n then refuse s stRANGE
  else if bitsOf (r.p 0) 16 16 ≠ 0 ∨ mx = 0 ∨ 256 < mx then refuse s stBAD_PARAM
  else if !popAllowed n ∨ !s.flag (R.ringCtrl_EN n) then refuse s stREFUSED_STATE
  else
    match ringEnts s n with
    | [] => { st := s, status := stOK }
    | e :: es =>
      if mx < e.words then refuse s stBAD_PARAM
      else
        let k := popRun (e :: es) mx
        { st := inkPump (ringDropN s n k.2), status := stOK, data := ringCopyOut s n (s.fld (R.ringTail_TAIL n)) k.1 }

def execRingPop (r : Request) (s : State) : Host.Outcome State Fault Refusal :=
  .next (serveReed r s (r.params.length == 1) (opRingPop r))

/-- RING_PUSH is allowed on rings 20 to 35 and 44 to 59 (R106). -/
def pushAllowed (n : Nat) : Bool := (decide (20 ≤ n) && decide (n ≤ 35)) || (decide (44 ≤ n) && decide (n ≤ 59))

/-- Words divided into variable entries (R102): two header words, the count in the second, one check word. -/
def splitVar : Nat → List Word → Option (List (List Word))
  | _, [] => some []
  | 0, _ => none
  | fuel + 1, ws =>
    if ws.length < 2 then none
    else
      let n := bitsOf (nth ws 1 0#32) 0 16 + 3
      if ws.length < n then none
      else match splitVar fuel (ws.drop n) with
        | some es => some (ws.take n :: es)
        | none => none

/-- Words divided into entries of a fixed size. -/
def splitFix (k : Nat) : Nat → List Word → Option (List (List Word))
  | _, [] => some []
  | 0, _ => none
  | fuel + 1, ws => if ws.length < k then none else (splitFix k fuel (ws.drop k)).map (fun es => ws.take k :: es)

/-- The whole entries of a parameter list for a ring of an entry size (R102). -/
def splitEntries (esize : Nat) (ws : List Word) : Option (List (List Word)) :=
  if esize = 0 then splitVar ws.length ws else splitFix esize ws.length ws

/-- RING_PUSH (R106): all entries or none, refused with BUSY_TARGET where they do not fit, whatever the ring's policy. -/
def opRingPush (r : Request) (s : State) : Res :=
  let n := r.target
  if 63 < n then refuse s stRANGE
  else
    match splitEntries (s.fld (R.ringCtrl_ESIZE n)) r.params with
    | none => refuse s stBAD_PARAM
    | some es =>
      if !pushAllowed n ∨ !s.flag (R.ringCtrl_EN n) then refuse s stREFUSED_STATE
      else if ringFree s n < r.params.length then refuse s stBUSY_TARGET
      else
        let s1 := es.foldl (fun t e => ringStore t n e { words := e.length }) s
        { st := s1, status := stOK, data := [wd (ringFree s1 n)] }

/-- DESIGN CHOICE (log entry 74): a RING_PUSH without parameters is refused with BAD_PARAM as packet form. -/
def execRingPush (r : Request) (s : State) : Host.Outcome State Fault Refusal :=
  .next (serveReed r s (!r.params.isEmpty) (opRingPush r))

/-- Two ranges of words that share one. -/
def overlap (b1 n1 b2 n2 : Nat) : Bool := decide (b1 < b2 + n2) && decide (b2 < b1 + n1)

/-- A write of `RING.LOC`, of `RING.CTRL` or of both, judged as a whole against the value that would result (R104). -/
def ringLayoutWrite (s : State) (n : Nat) (wl wc : Option Word) : Res :=
  let loc := s.reg (R.ringLoc n)
  let ctl := s.reg (R.ringCtrl n)
  let loc1 := match wl with
    | some w => mergeBits loc w 0x0FFF0FFF#32
    | none => loc
  let pol := (decide (16 ≤ n) && decide (n ≤ 19)) || decide (60 ≤ n)
  let ctl1 := match wc with
    | some w => mergeBits ctl w (if pol then 0xE0FFFFFF#32 else 0x80FFFFFF#32)
    | none => ctl
  let en0 := bitOf ctl 31
  let en1 := bitOf ctl1 31
  let size := bitsOf loc1 16 12 * 16
  let base := bitsOf loc1 0 12 * 16
  let esize := bitsOf ctl1 16 8
  let clash := (List.range 64).any (fun m => m != n && s.flag (R.ringCtrl_EN m) && overlap base size (ringBase s m) (ringSize s m))
  if esize ≠ (ringReset n).2.2.1 then refuse s stBAD_PARAM
  else if en1 ∧ !en0 ∧ (clash ∨ 65536 < base + size ∨ size < esize ∨ (esize = 0 ∧ size < 272)) then refuse s stBAD_PARAM
  else if en0 ∧ en1 ∧ loc1 ≠ loc then refuse s stREFUSED_STATE
  else
    let s1 := if en0 && !en1 then ringClear s n else s
    let s2 := (s1.setReg (R.ringLoc n) loc1).setReg (R.ringCtrl n) ctl1
    let th := bitsOf ctl1 0 16
    let s3 := s2.setFlag (R.ringStat_ABOVE n) (decide (th ≠ 0) && decide (th ≤ ringWords s2 n))
    { st := hrdyUpdate s3 (serving s3), status := stOK }

/-- A write of `RING.LOC` or `RING.CTRL` alone. -/
def ringConfigWrite (s : State) (n : Nat) (ctrl : Bool) (w : Word) : Res :=
  ringLayoutWrite s n (if ctrl then none else some w) (if ctrl then some w else none)

def execRingConfigWrite (n : Fin 64) (ctrl : Bool) (w : Word) (s : State) : Host.Outcome State Fault Refusal :=
  .next (ringConfigWrite s n.val ctrl w).st

/-- 10 ms after a ring's last event 253, losses since then raise it again (R103). -/
def execRingOverflowReport (n : Fin 64) (s : State) : Host.Outcome State Fault Refusal :=
  .next (match rateLast s 253 n.val with
    | none => ring253 s n.val
    | some t => ring253 (s.at (t + tk (10 * msTicks))) n.val)

/-! ### Peripheral SPI ports (R111) -/

/-- The clock node of a peripheral SPI port runs: its gate open and the interface PLL locked (R69, R111). -/
def pspiClocked (s : State) (n : Nat) : Bool := nodeRuns s (13 + n)

/-- A write of `SPI.PXFER[n]`: its RW and W1C fields, and GO, which starts a transfer or is refused (R111). DESIGN CHOICE (log
entry 74): a COUNT written without GO while BUSY is taken, and decides how many words the running transfer stores at its end. -/
def pspiXferWrite (s : State) (n : Nat) (w : Word) : Res :=
  let go := bitOf w 31
  let cnt := bitsOf w 0 5
  if go && !pspiClocked s n then refuse s stNOT_READY
  else if go && (decide (cnt = 0) || decide (16 < cnt)) then refuse s stBAD_PARAM
  else if go && s.flag (R.spiPxfer_BUSY n) then refuse s stREFUSED_STATE
  else
    let old := s.reg (R.spiPxfer n)
    let v := mergeBits old w 0x000F001F#32
    let v := if bitOf w 29 then v &&& ~~~0x20000000#32 else v
    let v := if go then v ||| 0x40000000#32 else v
    { st := s.setReg (R.spiPxfer n) v, status := stOK }

def execPspiTransferStart (n : Fin 2) (w : Word) (s : State) : Host.Outcome State Fault Refusal :=
  .next (pspiXferWrite s n.val (w ||| 0x80000000#32)).st

/-- The received word of a transfer as it shows: only the low bits of a short word, zero-extended (R111). -/
def pspiWord (wlen : Nat) (w : Word) : Word :=
  match wlen with
  | 0 => w &&& 0xFF#32
  | 1 => w &&& 0xFFFF#32
  | _ => w

/-- A transfer ends: the received words stand in PDATA, BUSY clears, DONE is set and event 255 raised (R111). DESIGN CHOICE (log
entry 74): of the two values a read of PDATA may return while BUSY, it returns the sent one until the transfer ends. -/
def pspiDone (s : State) (n : Nat) (rx : List Word) : State :=
  if !s.flag (R.spiPxfer_BUSY n) then s
  else
    let k := min 16 (s.fld (R.spiPxfer_COUNT n))
    let wlen := s.fld (R.spiPcfg_WLEN n)
    let s1 := (List.range k).foldl (fun t i => t.setReg (R.spiPdata n i) (pspiWord wlen (nth rx i 0#32))) s
    ((s1.setFlag (R.spiPxfer_BUSY n) false).setFlag (R.spiPxfer_DONE n) true).raise 255 (1 + n) 4#32

def execPspiTransferDone (n : Fin 2) (rx : List Word) (s : State) : Host.Outcome State Fault Refusal := .next (pspiDone s n.val rx)

/-- A write of `SPI.IRQCFG`: drive and polarity of the four pins (R108). -/
def irqcfgWrite (s : State) (w : Word) : Res := { st := s.setReg R.spiIrqcfg (mergeBits (s.reg R.spiIrqcfg) w 0xFF#32), status := stOK }

def execSpiIrqcfgWrite (w : Word) (s : State) : Host.Outcome State Fault Refusal := .next (irqcfgWrite s w).st

/-- A write of another register of the SPI block (R111): PCFG refused while BUSY or for word length 3, PDATA while BUSY. -/
def spiBlockWrite (s : State) (a : Nat) (w : Word) : Option Res :=
  let n := if a < 0x1E0200 then 0 else 1
  if a = R.spiIrqcfg then some (irqcfgWrite s w)
  else if a = R.spiHstat then some { st := s.setReg a (s.reg a &&& ~~~(w &&& 7#32)), status := stOK }
  else if a = R.spiPxfer n then some (pspiXferWrite s n w)
  else if a = R.spiPcfg n then
    some (if bitsOf w 8 2 = 3 then refuse s stBAD_PARAM
          else if s.flag (R.spiPxfer_BUSY n) then refuse s stREFUSED_STATE
          else { st := s.setReg a (mergeBits (s.reg a) w 0x00FF0333#32), status := stOK })
  else if R.spiPdata n 0 ≤ a ∧ a ≤ R.spiPdata n 15 then
    some (if s.flag (R.spiPxfer_BUSY n) then refuse s stREFUSED_STATE else { st := s.setReg a w, status := stOK })
  else none

/-- A write of a register of the RING block (R104, R110): LOC and CTRL as a whole, OVF of STAT one to clear. -/
def ringBlockWrite (s : State) (a : Nat) (w : Word) : Option Res :=
  if a < 0x300800 then
    let n := (a - 0x300000) / 0x20
    if a = R.ringLoc n then some (ringConfigWrite s n false w)
    else if a = R.ringCtrl n then some (ringConfigWrite s n true w)
    else if a = R.ringStat n then some { st := s.setReg a (s.reg a &&& ~~~(w &&& 4#32)), status := stOK }
    else none
  else none

end Sys2Proof.Machine
end

