-- ==== Sys2Proof/Machine/Nib.lean ====
section
/-! DEFINITION. Nibs: edge sets and their reload, short pulses, echo corrections, chopper periods, group states and
fault response (07_nib_pwm.md), and the winding's part in a latch (R201). -/

namespace Sys2Proof.Machine

open Sys2Proof

/-! ### Reading the nib bank -/

def State.nibS (s : State) (n : Nat) : NibS := tblGet s.nib.nib n {}
def State.setNibS (s : State) (n : Nat) (x : NibS) : State := s.withNib { s.nib with nib := tblPut s.nib.nib n x {} }
def State.setS (s : State) (k : Nat) : SetS := tblGet s.nib.set k {}
def State.setSetS (s : State) (k : Nat) (x : SetS) : State := s.withNib { s.nib with set := tblPut s.nib.set k x {} }

def nibGrp (s : State) (n : Nat) : Nat := s.fld (R.nibCfg_GROUP n)
def nibEn (s : State) (n : Nat) : Bool := s.flag (R.nibCfg_EN n)
def nibLatched (s : State) (n : Nat) : Bool := s.flag (R.nibNstat_LATCHED n)

/-- The nibs of a set, rising (R167). -/
def setNibs (s : State) (k : Nat) : List Nat := (List.range 72).filter (fun n => s.fld (R.nibCfg_SET n) == k)

/-- The nibs of a group, rising, enabled or not. -/
def grpNibs (s : State) (g : Nat) : List Nat := (List.range 72).filter (fun n => nibGrp s n == g)

/-- The state of a group: 0 OFF, 1 PROVE, 2 RUN (R183). -/
def grpState (s : State) (g : Nat) : Nat := s.fld (R.nibGstate_STATE g)

/-- The Husk gate enable (R188). -/
def huskEn (s : State) : Bool := s.flag R.nibGlob_HUSK_EN

/-- Scribe refuses torque: MODE is neither PERMIT nor SS1 (R332, R334). -/
def safeLocked (s : State) : Bool := s.fld R.safeState_MODE != 1 && s.fld R.safeState_MODE != 2

/-- What a nib may do by its configuration, its group's state, the gate enable and its latch (R166, R183, R188). -/
def nibPowered (s : State) (n : Nat) : Bool :=
  nibEn s n && grpState s (nibGrp s n) != 0 && huskEn s && !nibLatched s n

/-- The nibs of the set are released: its winding is DISABLED or in FAULT (R199). -/
def nibReleased (s : State) (n : Nat) : Bool := (s.setS (s.fld (R.nibCfg_SET n))).rel

/-- The nib may emit: it starts a period at the next carrier zero, or at the next regulation boundary (R166). -/
def nibEmits (s : State) (n : Nat) : Bool := nibPowered s n && !(s.nibS n).idle && !nibReleased s n

/-- HIZ shows whether both gate outputs are high-impedance (R166): a nib emits while a period of it runs, and a cleared nib drives both
outputs inactive (R187). DESIGN CHOICE (log entry 77): a nib of a group in PROVE or RUN that has no running period is high-impedance. -/
def hizRefresh (s : State) (n : Nat) : State :=
  s.setFlag (R.nibNstat_HIZ n) (!(nibPowered s n && ((s.nibS n).idle || ((s.nibS n).run && !nibReleased s n))))

def hizAll (s : State) (l : List Nat) : State := l.foldl hizRefresh s

/-- A nib has no running period any more. -/
def nibStop (s : State) (n : Nat) : State := hizRefresh (s.setNibS n { s.nibS n with run := false, plan := {}, chop := none, cut := false }) n

/-- The latched nibs of a group. -/
def grpLatched (s : State) (g : Nat) : List Nat := (grpNibs s g).filter (nibLatched s ·)

/-- NLATCHED of a group (R194). -/
def nlatchedRefresh (s : State) (g : Nat) : State :=
  s.setFld (R.nibGstate_NLATCHED g) (grpLatched s g).length

/-- A signed value in a register. -/
def regI (s : State) (a : Nat) : Int := (s.reg a).toInt

/-! ### Windings and latches (R199, R201) -/

def windState (s : State) (slot : Nat) : Nat := bitsOf (s.cw slot 64) 28 4
def windCause (s : State) (slot : Nat) : Nat := bitsOf (s.cw slot 64) 24 4

/-- A winding takes a state; a change raises WINDING_STATE (R199). -/
def windSet (s : State) (slot st : Nat) : State :=
  let old := windState s slot
  if old = st then s
  else (s.setCw slot 64 (withBits (s.cw slot 64) 28 4 st)).raise 101 slot (wd (old * 16 + st))

/-- The nibs of a winding's set are released at once, without a latch, and a waiting set is dropped (R201). -/
def setRelease (s : State) (k : Nat) : State :=
  hizAll (s.setSetS k { s.setS k with rel := true, dirty := false }) (setNibs s k)

/-- A winding enters FAULT with a cause: WINDING_STATE and WINDING_FAULT (R201). -/
def windFault (s : State) (slot cause : Nat) : State :=
  if windState s slot = 5 then s
  else
    let s1 := windSet s slot 5
    let s2 := (s1.setCw slot 64 (withBits (s1.cw slot 64) 24 4 cause)).raise 102 slot (wd cause)
    match ownedSet s2 slot with
    | some k => setRelease s2 k
    | none => s2

/-- The winding whose nib latched enters FAULT, cause 2 after three late passes, else 1 (R201). -/
def latchFault (s : State) (n src : Nat) : State :=
  match setOwner s (curBind s) (s.fld (R.nibCfg_SET n)) with
  | some slot => windFault s slot (if src = 5 then 2 else 1)
  | none => s

/-- A nib latches with a source code: high impedance, counted, NIB_LATCH, and its winding faulted (R185, R201). -/
def nibLatch (s : State) (n src : Nat) : State :=
  if nibLatched s n then s
  else
    let g := nibGrp s n
    let s1 := (s.setFlag (R.nibNstat_LATCHED n) true).setFld (R.nibNstat_LATCH_SRC n) src
    let s2 := (s1.cntSat (R.nibNcnt_LATCHES n)).cntSat (R.nibGcnt_LATCHES g)
    let s3 := s2.setNibS n { s2.nibS n with run := false, plan := {}, chop := none, wins := [], cut := false, idle := false }
    let s4 := s3.withNib { s3.nib with latches := s3.nib.latches + 1 }
    latchFault (nibLog ((hizRefresh (nlatchedRefresh s4 g) n).raise 32 n (wd src)) n 4 s.dt (wd src)) n src

/-- Dead times of a nib in force (R175); none in independent mode. -/
def nibDtr (s : State) (n : Nat) : Nat := if s.flag (R.nibCfg_INDEP n) then 0 else s.ffld (R.nibDtr_DT n)
def nibDtf (s : State) (n : Nat) : Nat := if s.flag (R.nibCfg_INDEP n) then 0 else s.ffld (R.nibDtf_DT n)

/-- Whether GH and GL are active at an offset of a plan, in complementary mode (R175). -/
def GatePlan.levels (p : GatePlan) (x : Nat) : Bool × Bool :=
  let up := match p.rise with
    | some r => decide (r.1 + r.2 ≤ x)
    | none => p.full
  let low := match p.rise, p.fall with
    | some r, _ => decide (x < r.1)
    | none, none => !p.full
    | none, some _ => false
  match p.fall with
  | some f => (up && decide (x < f.1) && decide (p.ghMin ≤ x), (low || decide (f.1 + f.2 ≤ x)) && decide (p.glMin ≤ x))
  | none => (up && decide (p.ghMin ≤ x), low && decide (p.glMin ≤ x))

/-- Whether GH and GL of a nib are active at an instant of its running period (R175, R186): a cut holds GH inactive, and GL stays
inactive in independent mode. -/
def nibLevels (s : State) (n : Nat) (t : Tick) : Bool × Bool :=
  let st := s.nibS n
  let v := st.plan.levels (t - st.plan.base).toNat
  (v.1 && !st.cut && st.run, v.2 && !s.flag (R.nibCfg_INDEP n) && st.run)

/-- A cut begins for a nib: GH inactive to the end of its period; GL does not go active earlier than DTF after it (R186). -/
def nibCut (s : State) (n : Nat) : State :=
  let st := s.nibS n
  if st.cut then s
  else
    let p := st.plan
    let g := if (nibLevels s n s.dt).2 then p.glMin else max p.glMin ((s.dt - p.base).toNat + nibDtf s n)
    nibLog (s.setNibS n { st with cut := true, plan := { p with glMin := g } }) n 3 s.dt 0x80000000#32

/-- CUTS of a group counts the activation of a source, and NIB_CUT names the first nib cut, at most once per 10 ms (R186). -/
def countCut (s : State) (g n : Nat) : State := (s.cntSat (R.nibGcnt_CUTS g)).raiseLim 33 g (wd n) (10 * msTicks)

/-- A source of a code becomes active on a list of nibs: in RUN they latch; in PROVE codes 1 to 4 cut the period and codes
5, 7 and 8 latch; code 6 acts in RUN only (R184 to R186). -/
def sourceAct (s : State) (l : List Nat) (code : Nat) : State :=
  let act := l.filter (nibEn s ·)
  let lat := act.filter (fun n => grpState s (nibGrp s n) == 2 || (grpState s (nibGrp s n) == 1 && (code == 5 || code == 7 || code == 8)))
  let cut := if code ≤ 4 then act.filter (fun n => grpState s (nibGrp s n) == 1 && !nibLatched s n) else []
  let s1 := lat.foldl (fun t n => nibLatch t n code) s
  let s2 := (List.range 8).foldl (fun t g => match cut.find? (fun n => nibGrp s n == g) with
    | some n => countCut t g n
    | none => t) s1
  cut.foldl nibCut s2

/-! ### Sources (R184) -/

/-- Winding fault input i acts and is low. -/
def wfActive (s : State) (i : Nat) : Bool := decide (i < 24) && s.flag (R.nibWfcfg_EN i) && s.flag ⟨R.nibFltstat, i, 1⟩

/-- Global fault input j acts on group g and is low. -/
def gfActive (s : State) (j g : Nat) : Bool :=
  s.flag (R.nibGfcfg_EN j) && s.flag ⟨R.nibFltstat, 24 + j, 1⟩ && s.flag ⟨R.nibGfcfg j, 16 + g, 1⟩

/-- The comparator condition of a channel holds and acts on its windings (R154). -/
def ocActive (s : State) (c : Nat) : Bool :=
  (tblGet s.sense.ch c {}).ocOn && bitOf (s.frc (R.senseOc c)) 31 && bitOf (s.frc (R.senseOc c)) 30

/-- The channel is LOST and its loss acts on its windings (R163). -/
def lossActive (s : State) (c : Nat) : Bool := s.flag (R.senseStat_LOST c) && s.flag (R.senseCfg_LOSS_ACT c)

/-- A sensing channel of the nib's winding has a property. -/
def nibChan (s : State) (n : Nat) (f : Nat → Bool) : Bool :=
  match setOwner s (curBind s) (s.fld (R.nibCfg_SET n)) with
  | some slot => (bAllChans (s.ctx slot).kind (curBind s slot)).any f
  | none => false

/-- A source of a code that acts on a nib is active now (R184): codes 5 and 8 act at once and are never active; code 6 acts on groups in
RUN, code 7 on groups in PROVE or RUN. -/
def srcActive (s : State) (n code : Nat) : Bool :=
  match code with
  | 1 => wfActive s (s.fld (R.nibCfg_WFSEL n))
  | 2 => (List.range 4).any (fun j => gfActive s j (nibGrp s n))
  | 3 => nibChan s n (ocActive s ·)
  | 4 => nibChan s n (lossActive s ·)
  | 6 => !tbValid s && grpState s (nibGrp s n) == 2
  | 7 => !huskEn s && grpState s (nibGrp s n) != 0
  | _ => false

/-- The lowest of the codes 1 to 4 active for a nib. -/
def levelSource (s : State) (n : Nat) : Option Nat := [1, 2, 3, 4].find? (srcActive s n ·)

/-- A source still active where a nib starts to emit acts again: it latches the nib in RUN and cuts it in PROVE, where the cut
is no new activation (R186). -/
def sourceHold (s : State) (n : Nat) : State :=
  match levelSource s n with
  | none => s
  | some c => if grpState s (nibGrp s n) = 2 then nibLatch s n c else if grpState s (nibGrp s n) = 1 then nibCut s n else s

/-- The filter of a fault input, in 2 ns (R194): a pulse shorter than it is ignored. -/
def fltFilt (s : State) (i : Nat) : Nat := if i < 24 then s.fld (R.nibWfcfg_FILT i) else s.fld (R.nibGfcfg_FILT (i - 24))

/-- A fault input changes its level after its filter: FLTSTAT and FLTSEEN follow, and an acting input that goes low acts on its nibs
(R184, R185). -/
def faultInput (s : State) (i : Nat) (low : Bool) : State :=
  let was := s.flag ⟨R.nibFltstat, i, 1⟩
  let s1 := s.setFlag ⟨R.nibFltstat, i, 1⟩ low
  if !low then s1
  else
    let s2 := s1.setFlag ⟨R.nibFltseen, i, 1⟩ true
    if was then s2
    else if i < 24 then
      if s2.flag (R.nibWfcfg_EN i) then sourceAct s2 ((List.range 72).filter (fun n => s2.fld (R.nibCfg_WFSEL n) == i)) 1 else s2
    else if s2.flag (R.nibGfcfg_EN (i - 24)) then
      sourceAct s2 ((List.range 72).filter (fun n => gfActive s2 (i - 24) (nibGrp s2 n))) 2
    else s2

/-- Nib fault inputs are numbered WFLT0_N to WFLT23_N, then GFLT0_N to GFLT3_N. A level the input holds for less than
its filter is ignored (R184, R194). -/
def execFaultInputAssert (i : Fin 28) (level : FaultLevel) (s : State) : Host.Outcome State Fault Refusal :=
  .next (if level.w < fltFilt s i.val then s else faultInput s i.val level.low)

/-- The Husk gate enable changes: HUSK_EN, NIB_HUSK, and code 7 while it is low (R188). -/
def huskEnable (s : State) (on : Bool) : State :=
  if huskEn s = on then s
  else
    let s1 := (s.setFlag R.nibGlob_HUSK_EN on).raise 41 0 (wd (b2n on))
    let s2 := if on then s1 else sourceAct s1 (List.range 72) 7
    hizAll s2 (List.range 72)

/-- A latched nib has a source of code 1, 2, 3, 4, 6 or 7 that is still active (R187). -/
def srcHolds (s : State) (n : Nat) : Bool := [1, 2, 3, 4, 6, 7].any (srcActive s n ·)

/-- The latches of a group cleared, refused while a source of a latched nib is still active (R187). -/
def clearLatches (s : State) (g : Nat) : Res :=
  let l := grpLatched s g
  if l.any (srcHolds s ·) then refuse s stREFUSED_STATE
  else
    let s1 := l.foldl (fun t n =>
      let t1 := (t.setFlag (R.nibNstat_LATCHED n) false).setFld (R.nibNstat_LATCH_SRC n) 0
      let t2 := (t1.setReg (R.nibCorrR n) 0#32).setReg (R.nibCorrF n) 0#32
      t2.setNibS n { t2.nibS n with idle := true, clr := true, missRun := 0 }) s
    { st := (hizAll (nlatchedRefresh s1 g) l).raise 34 g (wd l.length) }

def execNibClearLatches (g : Fin 8) (s : State) : Host.Outcome State Fault Refusal := .next (clearLatches s g.val).st

/-! ### Edge plan (R169, R175 to R180) -/

/-- A transition planned at the offset `x` by its dead time `d` (R176): its two edges move together to lie within the period, and an edge
planned while the period runs lies at its offset `lo` or later. -/
def transPlan (lo : Nat) (x : Int) (d len : Nat) : Nat × Nat :=
  let a := max (lo : Int) x
  ((if (len : Int) ≤ a + d then (len : Int) - 1 - d else a).toNat, d)

/-- The rising and the falling transition of a nib's period, with the corrections of this moment (R175, R177). -/
def planRise (s : State) (n lo on len : Nat) : Nat × Nat := transPlan lo ((on : Int) + regI s (R.nibCorrR n)) (nibDtr s n) len
def planFall (s : State) (n lo off len : Nat) : Nat × Nat := transPlan lo ((off : Int) + regI s (R.nibCorrF n)) (nibDtf s n) len

/-- The plan of a period that starts at `base` (R175, R176): the dead time holds also where the outputs change over at its start. -/
def planStart (s : State) (n : Nat) (base : Tick) (full : Bool) (rise fall : Option (Nat × Nat)) : GatePlan :=
  let st := s.nibS n
  let v := if s.flag (R.nibNstat_HIZ n) || st.idle then (false, false) else nibLevels s n (base - 1)
  let rest (m : Nat) : Nat := m - (base - st.plan.base).toNat
  { base := base, full := full, rise := rise, fall := fall,
    glMin := if v.2 then 0 else max (if v.1 then nibDtf s n else 0) (rest st.plan.glMin),
    ghMin := if v.1 then 0 else max (if v.2 then nibDtr s n else 0) (rest st.plan.ghMin) }

/-- The plan of a period with the on-time [on, off) (R171, R175): no pulse, full on, or two transitions. -/
def planPulse (s : State) (n : Nat) (base : Tick) (on off len : Nat) (full : Bool) : GatePlan :=
  if off ≤ on then planStart s n base false none none
  else if full then planStart s n base true none none
  else planStart s n base false (some (planRise s n 0 on len)) (some (planFall s n 0 off len))

/-- The levels of GHn and GLn at the present device time, by POL_H and POL_L; none where both are high-impedance (R166). -/
def gateLevels (s : State) (n : Nat) : Option (Bool × Bool) :=
  if s.flag (R.nibNstat_HIZ n) then none
  else
    let act := if (s.nibS n).idle then (false, false) else nibLevels s n s.dt
    some (act.1 != s.flag (R.nibCfg_POL_H n), act.2 != s.flag (R.nibCfg_POL_L n))

/-- The echo window of a transition with ideal instant `ideal` (R177). -/
def echoWin (s : State) (n : Nat) (rise : Bool) (ideal : Tick) : EchoWin :=
  let c := regI s (if rise then R.nibCorrR n else R.nibCorrF n)
  let t := ideal + BitVec.ofInt 64 c
  let d := (if rise then s.ffld (R.nibDtr_DT n) else s.ffld (R.nibDtf_DT n)) + s.fld (R.nibEwin_VALUE n)
  { rise := rise, ideal := ideal, start := t, stop := t + tk d }

/-- The echo windows of the transitions of a plan, opened while ECHO_EN is 1 (R177, R178). -/
def openWins (s : State) (n : Nat) (p : GatePlan) (on off : Nat) : List EchoWin :=
  if s.flag (R.nibCfg_ECHO_EN n) then
    (if p.rise.isSome then [echoWin s n true (p.base + tk on)] else []) ++ (if p.fall.isSome then [echoWin s n false (p.base + tk off)] else [])
  else []

/-- Transitions of a period logged where no echo measures them (R304): ECHO_EN 0. -/
def logPlan (s : State) (n : Nat) (base : Tick) (on off : Nat) (rise fall : Bool) : State :=
  if s.flag (R.nibCfg_ECHO_EN n) then s
  else
    let s1 := if rise then nibLog s n 1 (base + tk on) 0x80000000#32 else s
    if fall then nibLog s1 n 2 (base + tk off) 0x80000000#32 else s1

/-- The correction gain g (R177). -/
def echoGain (s : State) (n : Nat) : Nat := 2 ^ bitsOf (s.frc (R.nibCfg n)) 14 2

/-- The length of a nib's running period. -/
def nibLen (s : State) (n : Nat) : Nat :=
  match (s.nibS n).chop with
  | some c => c.k + c.v
  | none => (s.grp (nibGrp s n)).len

/-- A new correction applies to the transition of its kind that has not begun at the offset `x`, and to its echo window (R177). -/
def replan (s : State) (n : Nat) (rise : Bool) (x : Nat) : State :=
  let st := s.nibS n
  let p := st.plan
  let ideal := p.base + tk (if rise then st.on else st.off)
  let wins := st.wins.map (fun w => if w.rise == rise && w.ideal == ideal then echoWin s n rise ideal else w)
  match if rise then p.rise else p.fall with
  | none => s
  | some r =>
    if r.1 ≤ x then s
    else if rise then s.setNibS n { st with wins := wins, plan := { p with rise := some (planRise s n x st.on (nibLen s n)) } }
    else s.setNibS n { st with wins := wins, plan := { p with fall := some (planFall s n x st.off (nibLen s n)) } }

/-- A measured error moves the correction of its kind, limited to CLIM (R177). -/
def echoCorrect (s : State) (n : Nat) (rise : Bool) (eps : Int) : State :=
  let a := if rise then R.nibCorrR n else R.nibCorrF n
  let lim : Int := s.fld (R.nibClim_VALUE n)
  let c := regI s a - eps.tdiv (echoGain s n)
  let c1 := clampI (-lim) lim c
  let s1 := (s.setReg a (wdInt c1)).setReg (if rise then R.nibEerrR n else R.nibEerrF n) (wdInt eps)
  if c1 = c then s1
  else (s1.setFlag (R.nibNstat_CLAMPED n) true).raiseLim 37 n (wd (if rise then 1 else 2)) (100 * msTicks)

/-- A node edge of a kind at device time `t` of the land (R177): inside an open window it is a measurement; outside every
window it is ignored. -/
def echoEdge (s : State) (n : Nat) (rise : Bool) (t : Tick) : State :=
  let node := t - tk (s.fld (R.nibEcfg_EDLY n))
  let st := s.nibS n
  if !s.flag (R.nibCfg_ECHO_EN n) || nibLatched s n then s
  else
    match st.wins.find? (fun w => w.rise == rise && decide (w.start ≤ node) && decide (node < w.stop)) with
    | none => s
    | some w =>
      let s1 := s.setNibS n { st with wins := st.wins.filter (· != w), missRun := 0 }
      let eps := (node - w.ideal).toInt
      nibLog (replan (echoCorrect s1 n rise eps) n rise (t - st.plan.base).toNat) n (if rise then 1 else 2) w.ideal (wdInt eps)

def execEchoEdge (n : Fin 72) (high : Bool) (t : Tick) (s : State) : Host.Outcome State Fault Refusal :=
  .next (echoEdge (s.at t) n.val (high != s.flag (R.nibCfg_ECHO_POL n.val)) t)

/-- A miss: counted, and after MISSMAX misses in a row NIB_ECHO_MISS, with ECHO_ACT a fault of the nib with code 8 (R178). -/
def echoMiss (s : State) (n : Nat) (rise : Bool) : State :=
  let st := s.nibS n
  let k := st.missRun + 1
  let s1 := ((s.setNibS n { st with missRun := k }).cntSat (R.nibNcnt_MISSES n)).setFlag (R.nibNstat_MISSED n) true
  if k = s.fld (R.nibEcfg_MISSMAX n) then
    let s2 := s1.raise 36 n (wd (if rise then 1 else 2))
    if s.flag (R.nibCfg_ECHO_ACT n) then sourceAct s2 [n] 8 else s2
  else s1

/-- The oldest open echo window of a nib ends without a node edge (R178). -/
def echoEnd (s : State) (n : Nat) : State :=
  match (s.nibS n).wins with
  | [] => s
  | w :: ws =>
    let s1 := nibLog ((s.at w.stop).setNibS n { s.nibS n with wins := ws }) n (if w.rise then 1 else 2) w.ideal 0x80000000#32
    echoMiss s1 n w.rise

def execEchoWindowEnd (n : Fin 72) (s : State) : Host.Outcome State Fault Refusal := .next (echoEnd s n.val)

/-- Thresholds of the short-pulse policies (R179). -/
def tminOn (s : State) (n : Nat) : Nat := max (s.ffld (R.nibMinp_MINP n)) (nibDtr s n)
def tminOff (s : State) (n : Nat) : Nat := max (s.ffld (R.nibMinp_MINP n)) (nibDtf s n)

/-- The on-time emitted and the accumulator left, by policy (R179). -/
def shortPulse (policy : Nat) (p ton toff : Int) (tw acc : Int) : Int × Int :=
  if policy = 0 then
    let u := tw + acc
    let w := if u < ton then 0 else if p - toff < u then p else u
    (w, clampI (-p) p (u - w))
  else if policy = 1 then
    (if 0 < tw ∧ tw < ton then 0 else if p - toff < tw ∧ tw < p then p else tw, acc)
  else
    (if 0 < tw ∧ tw < ton then ton else if p - toff < tw ∧ tw < p then p - toff else tw, acc)

/-- The edges of an on-time (R179): as commanded, or centred on the commanded pulse, or from 0 in mode 1. -/
def pulseEdges (mode : Nat) (p : Int) (on off w : Int) : Int × Int :=
  if w = off - on then (on, off)
  else if mode = 1 then (0, w)
  else
    let c := (on + off) / 2
    let a := clampI 0 (p - w) (c - w / 2)
    (a, a + w)

/-- The policy of a nib in force. -/
def nibPolicy (s : State) (n : Nat) : Nat := bitsOf (s.frc (R.nibCfg n)) 18 2

/-- ACC cleared at a carrier zero where what clears it takes effect, whether or not the nib emits (R181). -/
def accClear (s : State) (n : Nat) : State :=
  if (s.nibS n).clr then (s.setReg (R.nibAcc n) 0#32).setNibS n { s.nibS n with clr := false } else s

/-- A nib cleared of its latch resumes: a host nib at the next carrier zero, a nib of an owned set when its winding is enabled (R187). -/
def nibResume (s : State) (n : Nat) : State :=
  if (s.nibS n).idle then hizRefresh (s.setNibS n { s.nibS n with idle := false }) n else s

/-- What comes at a carrier zero before a nib starts to emit: ACC, and a host nib that resumes. -/
def nibEnter (s : State) (n : Nat) : State :=
  let s1 := accClear s n
  if (setOwner s1 (curBind s1) (s1.fld (R.nibCfg_SET n))).isSome then s1 else nibResume s1 n

/-- The decision of a nib at a carrier zero in modes 0 and 1 (R179, R181). -/
def pulseDecide (s : State) (g n : Nat) : State :=
  let gs := s.grp g
  let st := s.nibS n
  let on := s.fld (R.nibAon_OFS n)
  let off := s.fld (R.nibAoff_OFS n)
  let tw : Int := (off : Int) - on
  let r := shortPulse (nibPolicy s n) gs.p (tminOn s n) (tminOff s n) tw (regI s (R.nibAcc n))
  let e := pulseEdges gs.mode gs.p on off r.1
  let alt := decide (r.1 ≠ tw)
  let p := planPulse s n gs.zeroAt e.1.toNat e.2.toNat gs.len (decide (e.1 = 0) && decide (e.2 = (gs.p : Int)))
  let s1 := s.setReg (R.nibAcc n) (wdInt r.2)
  let s2 := hizRefresh (s1.setNibS n { st with run := true, on := e.1.toNat, off := e.2.toNat, altered := alt, cut := false, plan := p,
                                               chop := none, wins := st.wins ++ openWins s1 n p e.1.toNat e.2.toNat }) n
  if alt then ((s2.cntSat (R.nibNcnt_SHORTS n)).setFlag (R.nibNstat_SHORT n) true).raiseLim 35 n (wd (bitsOf (wdInt r.1) 0 16)) (100 * msTicks)
  else s2

/-- A nib at a carrier zero of modes 0 and 1: a nib that emits decides its period; a source still active acts again (R186). Under double
update the peak may still move OFF, and the falling transition is logged there. -/
def nibZero (s0 : State) (g n : Nat) : State :=
  let s := nibEnter s0 n
  if nibEmits s n then
    let s1 := pulseDecide s g n
    let st := s1.nibS n
    sourceHold (logPlan s1 n st.plan.base st.on st.off st.plan.rise.isSome (st.plan.fall.isSome && (!(s1.grp g).du || st.altered))) n
  else nibStop s n

/-- The plan of a period whose OFF the peak sets, at half its length (R180): what has no transition yet gets it, from the peak on. A
falling transition that has begun stands (DESIGN CHOICE, log entry 77). -/
def peakPlan (s : State) (n lo on off len : Nat) (p : GatePlan) : GatePlan :=
  let fall := some (planFall s n lo off len)
  match p.rise, p.fall with
  | _, some _ => { p with fall := fall }
  | _, none => if p.full then { p with full := true, fall := fall } else { p with rise := some (planRise s n lo on len), fall := fall }

/-- The peak set's OFF of a nib under double update (R180). -/
def nibPeak (s : State) (g n : Nat) : State :=
  let gs := s.grp g
  let st := s.nibS n
  let offp := s.fld (R.nibAoff_OFS n)
  let p : Int := gs.p
  let lo := gs.len / 2
  let begun : Bool := match st.plan.fall with
    | some f => decide (f.1 < lo)
    | none => false
  if !st.run then s
  else if !st.altered && decide ((tminOn s n : Int) ≤ (offp : Int) - st.on) && decide ((offp : Int) - st.on ≤ p - tminOff s n) then
    if begun || (offp == st.off) then logPlan s n st.plan.base st.on st.off false st.plan.fall.isSome
    else
      let q := peakPlan s n lo st.on offp gs.len st.plan
      let fresh : GatePlan := { q with rise := if st.plan.rise.isSome then none else q.rise }
      let old := st.wins.filter (fun w => w.rise || w.ideal != st.plan.base + tk st.off)
      logPlan (s.setNibS n { st with off := offp, plan := q, wins := old ++ openWins s n fresh st.on offp }) n q.base st.on offp fresh.rise.isSome true
  else
    let s1 := if nibPolicy s n = 0 then s.setReg (R.nibAcc n) (wdInt (clampI (-p) p (regI s (R.nibAcc n) + ((offp : Int) - st.off)))) else s
    logPlan s1 n st.plan.base st.on st.off false (st.plan.fall.isSome && !st.altered)

/-! ### Chopper periods (R170) -/

/-- V as it runs: none where it holds the output. -/
def chopV (s : State) (n k : Nat) : Option Nat :=
  let v := s.fld (R.nibAoff_OFS n)
  if v = 0 ∨ v = 0x1FFFFFFF then none
  else
    let v := max v (s.ffld (R.nibMinp_MINP n))
    some (if k + v < 32000 then 32000 - k else v)

/-- A chopper period starts at an instant with the active K and V, or the output is held (R170). A source still active acts again. -/
def chopStart (s : State) (n : Nat) (t : Tick) : State :=
  let k := s.ffld (R.nibChop_K n)
  let st := s.nibS n
  let two : Bool := (s.grp (nibGrp s n)).mode == 2
  match chopV s n k with
  | none =>
    let hi := (s.fld (R.nibAoff_OFS n) == 0) == two
    sourceHold (hizRefresh (s.setNibS n { st with chop := none, run := true, cut := false, plan := planStart s n t hi none none }) n) n
  | some v =>
    let on := if two then k else v
    let p := planPulse s n t 0 on (k + v) false
    let s1 := s.setNibS n { st with chop := some { start := t, k := k, v := v }, run := true, on := 0, off := on, altered := false, cut := false, plan := p,
                                    wins := st.wins ++ openWins s n p 0 on }
    sourceHold (logPlan (hizRefresh s1 n) n t 0 on true true) n

/-- The running chopper period ends at an instant. -/
def chopEnds (st : NibS) (t : Tick) : Bool :=
  match st.chop with
  | none => true
  | some c => c.start + tk (c.k + c.v) == t

/-- A nib at a regulation boundary of modes 2 and 3: a held or just enabled nib starts its first period there, and so does a nib whose period
ends at that instant: the set loaded at the boundary applies to it (R170, R190). -/
def chopBoundary (s0 : State) (n : Nat) (t : Tick) : State :=
  let s := nibEnter s0 n
  if !nibEmits s n then nibStop s n
  else if chopEnds (s.nibS n) t then chopStart s n t
  else s

/-- The end of a chopper period starts the next one with the K and V then active (R170); where it coincides with the group's boundary that
does (R190). A nib of a group in PROVE stops there where the timebase is invalid (R52). -/
def chopNext (s : State) (n : Nat) : State :=
  match (s.nibS n).chop with
  | none => s
  | some c =>
    let t := c.start + tk (c.k + c.v)
    let s1 := s.at t
    if !(nibEmits s1 n && tbValid s1) then nibStop s1 n
    else if (s1.grp (nibGrp s1 n)).next.map (·.1) = some t then s1
    else chopStart s1 n t

def execChopperPeriodStart (n : Fin 72) (s : State) : Host.Outcome State Fault Refusal := .next (chopNext s n.val)

/-! ### Edge sets (R167, R171 to R174) -/

/-- The active pair of a nib limited to the ranges of its group's mode (R171, R190). -/
def clampEdges (mode : Nat) (du : Bool) (p on off : Nat) : Nat × Nat :=
  if 2 ≤ mode then (on, off)
  else if mode = 1 then (0, min off p)
  else if du then (min on (p / 2), max (p / 2) (min off p))
  else let a := min on p; (a, max a (min off p))

/-- A set at a reload: a waiting set is loaded, its offsets limited; with none the active set repeats (R173, R174). -/
def setReload (s : State) (g k : Nat) : State :=
  let st := s.setS k
  let gs := s.grp g
  if !st.dirty then s.cntSat (R.nibSetcnt_REPEATS k)
  else
    let prs := st.shadow.map (fun e => (e.1, e.2, clampEdges gs.mode gs.du gs.p e.2.1 e.2.2))
    let s1 := prs.foldl (fun t e => (t.setReg (R.nibAon e.1) (wd e.2.2.1)).setReg (R.nibAoff e.1) (wd e.2.2.2)) s
    let s2 := if prs.any (fun e => e.2.1 != e.2.2) then s1.cntSat (R.nibSetcnt_CLAMPS k) else s1
    let s3 := (s2.setReg (R.nibStat k) (s2.reg (R.nibEdge k))).setSetS k { st with dirty := false, rel := false }
    hizAll s3 (setNibs s3 k)

/-- The sets of a group, rising. -/
def grpSets (s : State) (g : Nat) : List Nat :=
  (List.range 24).filter (fun k => match setNibs s k with
    | [] => false
    | n :: _ => nibGrp s n == g)

/-- An edge set put into the shadow of its set as one unit; a host set that was never active counts an overwrite (R172, R173). -/
def setCommit (s : State) (k : Nat) (seq : Word) (edges : List (Nat × (Nat × Nat))) (host : Bool) : State :=
  let st := s.setS k
  let lost := host && st.dirty && st.host
  let s1 := if lost then (s.cntSat (R.nibSetinfo_OVERWRITES k)).raise 38 k (wd (bitsOf (s.reg (R.nibEdge k)) 0 16)) else s
  (s1.setReg (R.nibEdge k) seq).setSetS k { st with shadow := edges, dirty := true, host := host }

/-- The staged offsets of a nib are within the ranges of R171. -/
def stagedOk (mode : Nat) (du : Bool) (p on off : Nat) : Bool :=
  if 2 ≤ mode then true
  else if mode = 1 then decide (off ≤ p)
  else if du then decide (on ≤ p / 2) && decide (p / 2 ≤ off) && decide (off ≤ p)
  else decide (on ≤ off) && decide (off ≤ p)

/-- The mode, flag and period a host commit is checked against: those in force, or as written where no period is in force. -/
def grpCarrier (s : State) (g : Nat) : Nat × Bool × Nat :=
  let gs := s.grp g
  if gs.p = 0 then (s.fld (R.nibGper_MODE g), s.flag (R.nibGper_DU g), s.fld (R.nibGper_PERIOD g)) else (gs.mode, gs.du, gs.p)

/-- A write of `NIB.EDGE[k].SEQ` commits the staged offsets of the set (R171, R172). -/
def edgeCommit (s : State) (k : Nat) (seq : Word) : Res :=
  let l := setNibs s k
  let c := grpCarrier s (match l with
    | n :: _ => nibGrp s n
    | [] => 0)
  let on (n : Nat) : Nat := if c.1 = 1 then 0 else s.fld (R.nibSon_OFS n)
  if l.any (fun n => !stagedOk c.1 c.2.1 c.2.2 (on n) (s.fld (R.nibSoff_OFS n))) then refuse s stBAD_PARAM
  else if s.flag (R.nibSetinfo_OWNED k) ∨ l = [] then refuse s stREFUSED_STATE
  else { st := setCommit s k seq (l.map (fun n => (n, (on n, s.fld (R.nibSoff_OFS n))))) true }

def execNibEdgeCommit (k : Fin 24) (seq : Word) (s : State) : Host.Outcome State Fault Refusal := .next (edgeCommit s k.val seq).st

/-! ### Group states (R182, R183) -/

/-- A nib node of CLK.GATE is gated for a nib of the group (R69). -/
def nibGated (s : State) (g : Nat) : Bool :=
  (grpNibs s g).any (fun n => !s.flag (if n < 36 then R.clkGate_NIB_LO else R.clkGate_NIB_HI))

/-- GROUP_STATE (R182). -/
def opGroupState (r : Request) (s : State) : Res :=
  let g := r.target
  let st := bitsOf (r.p 0) 0 2
  if 7 < g then refuse s stRANGE
  else if st = 3 then refuse s stBAD_PARAM
  else if st ≠ 0 ∧ nibGated s g then refuse s stNOT_READY
  else if st ≠ 0 ∧ (s.flag R.cfgStat_SAFE_CFG_FAULT ∨ !huskEn s ∨ safeLocked s) then refuse s stSAFETY_LOCK
  else if st ≠ 0 ∧ (s.grp g).p = 0 then refuse s stREFUSED_STATE
  else
    let due := dueZero s g
    let s1 := (s.setFld (R.nibGstate_REQ g) st).setFlag (R.nibGstate_PENDING g) true
    { st := addPend s1 g due true (.groupState st), affects := [(g, due)] }

def execGroupState (r : Request) (s : State) : Host.Outcome State Fault Refusal :=
  .next (serveReed r s (r.params.length == 1) (opGroupState r))

/-- A source active where the group of a nib enters PROVE or RUN acts on it (R184, R185): code 7 latches in both, codes 1 to 4 in RUN. In
PROVE those cut the period at its start. -/
def enterHold (s : State) (n : Nat) : State :=
  if !nibEn s n then s
  else if srcActive s n 7 then nibLatch s n 7
  else if grpState s (nibGrp s n) = 2 then sourceHold s n
  else s

/-- A requested group state takes effect at a carrier zero (R182, R183): entry into PROVE or RUN from OFF restarts the echo
corrections, and every entry and change clears the accumulators (R177, R181). -/
def groupStateApply (s : State) (g st : Nat) : State :=
  let old := grpState s g
  let more := s.loop.pend.any (fun p => p.grp == g && (match p.ch with
    | .groupState _ => true
    | _ => false))
  let s1 := (s.setFld (R.nibGstate_STATE g) st).setFlag (R.nibGstate_PENDING g) more
  let l := grpNibs s1 g
  let s2 := if old = st then s1 else l.foldl (fun t n =>
    let t1 := if old = 0 then (t.setReg (R.nibCorrR n) 0#32).setReg (R.nibCorrF n) 0#32 else t
    let x := t1.nibS n
    t1.setNibS n (if old = 0 ∨ st = 0 then { x with clr := true, chop := none, run := false, plan := {}, wins := [], missRun := 0, cut := false }
                  else { x with clr := true, chop := none })) s1
  let s3 := hizAll s2 l
  (if st = 0 then s3 else l.foldl enterHold s3).raise 39 g (wd (old * 4 + st))

/-! ### Carriers (R168, R191, R192) -/

/-- The first carrier zero of a group: the first DT = Φ + n·P after now (R19). -/
def firstZero (phi p : Nat) (now : Tick) : Tick :=
  let t := now.toNat
  if t < phi then tk phi else tk (phi + ((t - phi) / p + 1) * p)

/-- The carrier of a group starts: its settings in force, its first zero ahead (R19, R168). -/
def carrierStart (s : State) (g : Nat) : State :=
  let p := s.fld (R.nibGper_PERIOD g)
  if p = 0 then s
  else
    let gs := s.grp g
    s.setGrp g { gs with p := p, mode := s.fld (R.nibGper_MODE g), du := s.flag (R.nibGper_DU g), len := p, first := true, zeros := 0,
                         next := if tbValid s then some (firstZero (s.fld (R.nibGphase_PHASE g)) p s.dt, true) else none }

/-- A period out of the range of its mode (R168). -/
def periodBad (mode : Nat) (du : Bool) (p phi : Nat) : Bool :=
  (du && mode != 0)
  || (p != 0 && ((du && p % 2 == 1) || decide (p < (if mode < 2 then 320000 else 160000)) || decide (p ≤ phi)))

/-- A frame length that would bring an axis below 25 µs or a stroke tick below 100 µs (R22, R286). -/
def tickFloorBad (s : State) (g frame : Nat) : Bool :=
  frame != 0 && s.slots.any (fun k =>
    let c := s.ctx k
    c.grp == g && (((c.kind == 7 || c.kind == 8) && decide (frame * c.div < 25 * usTicks)) || (c.kind == 11 && decide (frame * c.div < 100 * usTicks))))

/-- A write of `NIB.GPER[g]` (R168). -/
def gperWrite (s : State) (g : Nat) (w : Word) : Res :=
  let a := R.nibGper g
  let old := s.reg a
  let p := bitsOf w 0 29
  let mode := bitsOf w 29 2
  let du := bitOf w 31
  let frame := if du then p / 2 else p
  let role := s.fld R.sheafCfg_ROLE
  if periodBad mode du p (s.fld (R.nibGphase_PHASE g)) ∨ tickFloorBad s g frame then refuse s stBAD_PARAM
  else if (old >>> 29 ≠ w >>> 29) ∧ grpState s g ≠ 0 then refuse s stREFUSED_STATE
  else if g = 0 ∧ p = 0 ∧ (role = 1 ∨ role = 2) then refuse s stREFUSED_STATE
  else if frame ≠ frameWritten s g ∧ s.slots.any (fun k => (s.ctx k).grp == g)
      ∧ (admResult s { admNow s s.slots with frame := fun h => if h = g then frame else frameWritten s h }).1 ≠ 0 then refuse s stOVERSUBSCRIBED
  else
    let s1 := s.setReg a w
    if (s.grp g).p = 0 then { st := loopRefresh (if p = 0 then s1 else carrierStart s1 g) }
    else if bitsOf old 0 29 = p then { st := loopRefresh s1 }
    else
      let due := dueZero s1 g
      { st := loopRefresh (addPend s1 g due true (.reg a 0x1FFFFFFF#32 (wd p))), affects := [(g, due)] }

def execNibGperWrite (g : Fin 8) (w : Word) (s : State) : Host.Outcome State Fault Refusal := .next (gperWrite s g.val w).st

/-- ADJ is one field: a value still waiting gives way to the one written after it (R191, R194). -/
def dropAdj (s : State) (g : Nat) : State :=
  s.withLoop { s.loop with pend := s.loop.pend.filter (fun p => match p.ch with
    | .reg a _ _ => a != R.nibGadj g
    | _ => true) }

/-- A write of `NIB.GADJ[g].ADJ` (R191). -/
def gadjWrite (s : State) (g : Nat) (w : Word) : Res :=
  let v := w.toInt
  let p := (grpCarrier s g).2.2
  let du := (grpCarrier s g).2.1
  if (p : Int) < 8 * v.natAbs ∨ (du ∧ v % 2 ≠ 0) then refuse s stBAD_PARAM
  else
    let due := dueZero s g
    { st := addPend (dropAdj (s.setReg (R.nibGadj g) w) g) g due true (.reg (R.nibGadj g) 0xFFFFFFFF#32 w), affects := [(g, due)] }

def execNibGadjWrite (g : Fin 8) (w : Word) (s : State) : Host.Outcome State Fault Refusal := .next (gadjWrite s g.val w).st

/-- Half of a count rounded towards zero to an even number under double update. -/
def evenAdj (du : Bool) (v : Int) : Int := if du then v.tdiv 2 * 2 else v

/-- The carrier zero of a group nearest to an instant. -/
def nearZero (s : State) (g : Nat) (t : Tick) : Tick :=
  let gs := s.grp g
  let nz := gs.zeroAt + tk gs.len
  if (t - gs.zeroAt).toInt.natAbs ≤ (nz - t).toInt.natAbs then gs.zeroAt else nz

/-- A rising edge of SYNC_IN (R192). DEDUCED (log entry 77): the edge lies in the window of the zero it is nearest to, by its instant less
IN_DLY. -/
def syncIn (s : State) (t : Tick) : State :=
  let g := s.fld R.nibSync_IN_GRP
  let gs := s.grp g
  if !s.flag R.nibSync_IN_EN || gs.p == 0 || gs.next.isNone then s
  else
    let ti := t - tk (s.fld R.nibSyncstat_IN_DLY)
    let z := nearZero s g ti
    let e := (ti - z).toInt
    let sl : Int := s.fld R.nibSync_SLEW
    let s1 := s.setGrp g { gs with adj := gs.adj + evenAdj gs.du (clampI (-sl) sl (-(e.tdiv 4))) }
    let good := if e.natAbs ≤ 32 then min 16 (s.nib.good + 1) else 0
    let s2 := s1.withNib (if z = gs.zeroAt then { s1.nib with good := good, syncMiss := 0, syncHit := true } else { s1.nib with good := good, syncNext := true })
    if good = 16 ∧ !s2.flag R.nibSyncstat_LOCK then (s2.setFlag R.nibSyncstat_LOCK true).raise 40 g 1#32 else s2

def execSyncInEdge (t : Tick) (s : State) : Host.Outcome State Fault Refusal := .next (syncIn (s.at t) t)

/-- LOCK clears and the group runs at its programmed P (R192). -/
def syncLoss (s : State) : State :=
  let g := s.fld R.nibSync_IN_GRP
  let s1 := (s.setGrp g { s.grp g with adj := 0 })
  let s2 := s1.withNib { s1.nib with good := 0 }
  if s.flag R.nibSyncstat_LOCK then (s2.setFlag R.nibSyncstat_LOCK false).raise 40 g 0#32 else s2

/-- At a carrier zero of IN_GRP the window of the zero before it has ended (R192). -/
def syncZero (s : State) (g : Nat) : State :=
  if s.fld R.nibSync_IN_GRP = g ∧ s.flag R.nibSync_IN_EN then
    s.withNib { s.nib with syncMiss := if s.nib.syncHit then 0 else s.nib.syncMiss + 1, syncHit := s.nib.syncNext, syncNext := false }
  else s.withNib { s.nib with syncMiss := if s.fld R.nibSync_IN_GRP = g then 0 else s.nib.syncMiss }

/-- The window of the last zero of IN_GRP has ended, and no edge of SYNC_IN has come for 4 expected zeros in a row (R192). -/
def syncGone (s : State) : Bool := decide (3 ≤ s.nib.syncMiss) && !s.nib.syncHit

/-- The end of the window of an expected zero: its zero and half of P after it. -/
def syncWindowEnd (s : State) : Tick :=
  let gs := s.grp (s.fld R.nibSync_IN_GRP)
  gs.zeroAt + tk (gs.p / 2)

/-- Four expected zeros have passed without an edge of SYNC_IN (R192). -/
def execSyncInLoss (s : State) : Host.Outcome State Fault Refusal :=
  .next (if s.flag R.nibSync_IN_EN && syncGone s then syncLoss (s.at (syncWindowEnd s)) else s)

/-! ### The nib bank at a boundary (R173, R179, R180, R192) -/

/-- SYNC_OUT rises at every OUT_DIV-th carrier zero of its group (R192). -/
def syncOut (s : State) (g : Nat) : State :=
  let gs := s.grp g
  if s.flag R.nibSync_OUT_EN && s.fld R.nibSync_OUT_GRP == g && gs.zeros % max 1 (s.fld R.nibSync_OUT_DIV) == 0 then
    s.withNib { s.nib with syncOut := some gs.zeroAt }
  else s

/-- The level of SYNC_OUT: high for 200 ns from its last rise (R192). -/
def syncOutPin (s : State) : Bool :=
  match s.nib.syncOut with
  | some t => s.flag R.nibSync_OUT_EN && decide ((s.dt - t).toNat < 3200)
  | none => false

/-- The sets of a group reload, then its nibs decide their period (at a zero) or take the peak's OFF. -/
def nibBoundary (s : State) (g : Nat) (zero : Bool) : State :=
  let gs := s.grp g
  let s1 := (grpSets s g).foldl (fun t k => setReload t g k) s
  let l := grpNibs s1 g
  let s2 := if 2 ≤ gs.mode then l.foldl (fun t n => chopBoundary t n gs.bndAt) s1
    else if zero then l.foldl (fun t n => nibZero t g n) s1
    else l.foldl (fun t n => nibPeak t g n) s1
  if zero then syncZero (syncOut s2 g) g else s2

/-! ### Register writes of the block (R194) -/

/-- NIBS and GROUP of a set (R194). -/
def setInfo (s : State) (k : Nat) : State :=
  let l := setNibs s k
  (s.setFld (R.nibSetinfo_NIBS k) l.length).setFld (R.nibSetinfo_GROUP k) (match l with
    | n :: _ => nibGrp s n
    | [] => 0)

/-- A write of `NIB.CFG[n]` (R166, R167, R194). -/
def nibCfgWrite (s : State) (n : Nat) (w : Word) : Res :=
  let a := R.nibCfg n
  let old := s.reg a
  let new := mergeBits old w 0xFFFFFF00#32
  let set := bitsOf new 23 5
  let wf := bitsOf new 8 5
  let g := bitsOf new 28 3
  let others := (setNibs s set).filter (· != n)
  let held : Word := 0xFFF33F00#32
  if (24 ≤ set ∧ set ≤ 30) ∨ (24 ≤ wf ∧ wf ≤ 30) ∨ bitsOf new 18 2 = 3
      ∨ (set ≠ 31 ∧ (8 ≤ others.length ∨ others.any (fun m => nibGrp s m != g))) then refuse s stBAD_PARAM
  else if (old ^^^ new) &&& held ≠ 0#32 ∧ (grpState s (bitsOf old 28 3) ≠ 0 ∨ grpState s g ≠ 0) then refuse s stREFUSED_STATE
  else
    let st := s.nibS n
    let s1 := s.setNibS n (if bitOf (old ^^^ new) 22 then { st with clr := true } else st)
    let s2 := s1.setReg a (mergeBits old new (~~~0x000CC000#32))
    let s3 := [set, bitsOf old 23 5].foldl (fun t k => if k < 24 then setInfo t k else t) s2
    let s4 := hizRefresh (nlatchedRefresh (nlatchedRefresh s3 g) (bitsOf old 28 3)) n
    (writeShadow s4 a 0x000C0000#32 new g true).also (fun t => writeShadow t a 0x0000C000#32 new g false)

/-- A write of a register of nib `n` at offset `o` (R170, R175, R179, R194). -/
def nibRegWrite (s : State) (n o : Nat) (w : Word) : Option Res :=
  let a := R.nibCfg n + o
  let g := nibGrp s n
  let v := written s a w
  match o with
  | 0x00 => some (nibCfgWrite s n w)
  | 0x04 => some (checked s (outNat 0 128000 v.toNat) stBAD_PARAM (plainWrite s a w g false))
  | 0x08 => some (checked s (outNat 0 128000 v.toNat) stBAD_PARAM (plainWrite s a w g false))
  | 0x0C => some (checked s (outNat 800 160000 v.toNat) stBAD_PARAM (plainWrite s a w g false))
  | 0x10 => some (checked s (outNat (max 800 (s.fld (R.nibMinp_MINP n))) 536870910 v.toNat) stBAD_PARAM (plainWrite s a w g false))
  | 0x14 => some (checked s (bitsOf v 8 8 == 0) stBAD_PARAM (plainNow s a w))
  | 0x18 => some (checked s (outNat 0 160000 v.toNat) stBAD_PARAM (plainNow s a w))
  | 0x1C => some (checked s (outNat 0 160000 v.toNat) stBAD_PARAM (plainNow s a w))
  | _ => none

/-- A write of a fault input's configuration: an input that is low acts as soon as it is enabled (R184, R194). -/
def fltCfgWrite (s : State) (i a : Nat) (w : Word) : Res :=
  let s1 := (plainNow s a w).st
  let low := s1.flag ⟨R.nibFltstat, i, 1⟩
  { st := if low then faultInput (s1.setFlag ⟨R.nibFltstat, i, 1⟩ false) i true else s1 }

/-- A write of a register of the NIB block; none where the access codes alone decide. -/
def nibBlockWrite (s : State) (a : Nat) (w : Word) : Option Res :=
  if a < 0x084800 then nibRegWrite s ((a - 0x080000) / 0x100) (a % 0x100) w
  else if 0x090000 ≤ a ∧ a < 0x090200 then
    let g := (a - 0x090000) / 0x40
    match a % 0x40 with
    | 0x00 => some (gperWrite s g w)
    | 0x04 =>
      let v := bitsOf w 0 29
      let p := s.fld (R.nibGper_PERIOD g)
      some (if p ≠ 0 ∧ p ≤ v then refuse s stBAD_PARAM
            else if grpState s g ≠ 0 then refuse s stREFUSED_STATE
            else plainNow s a w)
    | 0x10 => some (if bitOf w 31 then clearLatches s g else { st := s })
    | 0x14 => some (gadjWrite s g w)
    | _ => none
  else if 0x091000 ≤ a ∧ a < 0x091070 then some (fltCfgWrite s ((a - 0x091000) / 4) a w)
  else if a = R.nibFltseen then some { st := s.setReg a (s.reg a &&& ~~~(w &&& ~~~s.reg R.nibFltstat)) }
  else if a = R.nibSync then some (checked s (bitsOf w 20 8 == 0) stBAD_PARAM (plainNow s a w))
  else if 0x092000 ≤ a ∧ a < 0x092180 ∧ a % 0x10 = 0 then some (edgeCommit s ((a - 0x092000) / 0x10) w)
  else none

end Sys2Proof.Machine
end

