-- ==== Sys2Proof/Machine/Sense.lean ====
section
/-! DEFINITION. Delta-sigma sensing: modulator clocks, sinc3, the overcurrent path, exact-period windows, calibration
and modulator loss (06_current_sensing.md). A command of this chapter carries the bits the channel took. -/

namespace Sys2Proof.Machine

open Sys2Proof

def State.chS (s : State) (c : Nat) : ChanS := tblGet s.sense.ch c {}
def State.setChS (s : State) (c : Nat) (x : ChanS) : State := s.withSense { s.sense with ch := tblPut s.sense.ch c x {} }

/-- The modulator period of a channel in edge ticks (R148). -/
def chanTm (s : State) (c : Nat) : Nat := 32 * s.fld (R.senseMclk_MDIV (s.fld (R.senseCfg_MSEL c)))

/-- The SENSE node of the gate tree is open (R68): its modulator clocks run. -/
def senseGated (s : State) : Bool := s.fld ⟨R.clkGate, 3, 1⟩ == 0

/-- The high phase of a modulator clock in edge ticks (R148). -/
def mclkHigh (s : State) (n : Nat) : Nat := s.fld (R.senseMclk_MDIV n) / 2 * 32

/-- Edge ticks since the last rising edge of MCLKn at or before an instant: rising edges fall at 32 × PH + m × Tm (R148). -/
def mclkPhase (s : State) (n : Nat) (t : Tick) : Nat :=
  (((t.toNat : Int) - 32 * s.fld (R.senseMclk_PH n)) % (32 * s.fld (R.senseMclk_MDIV n) : Nat)).toNat

/-- The first rising edge after the output was enabled has passed. -/
def mclkStarted (s : State) (n : Nat) (t : Tick) : Bool :=
  decide ((tblGet s.sense.mclk n 0).toNat + mclkPhase s n t < t.toNat) || decide (tblGet s.sense.mclk n 0 = 0#64)

/-- The level of output MCLKn at an instant (R148): low while disabled, and (DESIGN CHOICE, log entry 76) while its node is gated. -/
def mclkPin (s : State) (n : Nat) (t : Tick) : Bool :=
  s.flag (R.senseMclk_EN n) && !senseGated s && mclkStarted s n t && decide (mclkPhase s n t < mclkHigh s n)

/-- An instant is a selected edge of a channel (R149): of the output MSEL, rising or falling by EDGE. -/
def selEdge (s : State) (c : Nat) (e : Tick) : Bool :=
  let n := s.fld (R.senseCfg_MSEL c)
  s.flag (R.senseMclk_EN n) && mclkStarted s n e
  && decide (mclkPhase s n e = if s.flag (R.senseCfg_EDGE c) then mclkHigh s n else 0)

/-- The capture delay of a channel in edge ticks (R149). -/
def capTicks (s : State) (c : Nat) : Nat := 32 * s.fld (R.senseCfg_CAPDLY c)

/-- The groups the integrators of a channel are bound to, by `SENSE.BIND` (R157). -/
def boundGroups (s : State) (c : Nat) : List Nat :=
  (if s.flag (R.senseBind_A_EN c) then [s.fld (R.senseBind_A_GRP c)] else [])
  ++ (if s.flag (R.senseBind_B_EN c) then [s.fld (R.senseBind_B_GRP c)] else [])

/-- A channel is bound to a group in PROVE or RUN. -/
def boundLive (s : State) (c : Nat) : Bool := (boundGroups s c).any (fun g => grpState s g != 0)

/-- x of a bit: +1 for a taken 1, −1 for a taken 0. -/
def bitX (b : Bool) : Int := if b then 1 else -1

/-! ### Sinc3 (R151, R152) -/

/-- n·(n+1)/2 of a count that has passed an offset; 0 before it. -/
def tri (i off : Nat) : Int := if i < off then 0 else ((i - off + 1) * (i - off + 2) / 2 : Nat)

/-- The weight h[i] of three boxcars of S ones convolved. -/
def sincH (s i : Nat) : Int := tri i 0 - 3 * tri i s + 3 * tri i (2 * s) - tri i (3 * s)

/-- y[n] from the last 3·S − 2 bits, newest first. -/
def sincY (s : Nat) (bits : List Bool) : Int :=
  ((List.range (3 * s - 2)).map (fun i => match bits[i]? with
    | some b => sincH s i * bitX b
    | none => 0)).foldl (· + ·) 0

/-- A sinc3 output as a value: GAIN × p + OFFSET (R152); the spec does not say how it is rounded. -/
def sincValue (s : State) (c : Nat) (o : Sinc3) : Word :=
  Config.round32 (ratOf (s.reg (R.senseCalactGain c)) * ((o.y : Rat) / ((o.s ^ 3 : Nat) : Rat)) + ratOf (s.reg (R.senseCalactOffset c)))

/-- p × 32,767 rounded to nearest, 16 bits (R151). -/
def sincTap (o : Sinc3) : Nat :=
  let q : Rat := (o.y : Rat) * 32767 / ((o.s ^ 3 : Nat) : Rat)
  let i : Int := if q < 0 then -((roundEven (-q) : Nat) : Int) else (roundEven q : Nat)
  bitsOf (wdInt i) 0 16

/-- A bit put into a RAW step of the channel's bank (R302). -/
def rawBit (i : Nat) (b : Bool) (l : List Byte) : List Byte :=
  let x := nth l 0 0#8
  [if b then x ||| BitVec.ofNat 8 (2 ^ i) else x &&& ~~~BitVec.ofNat 8 (2 ^ i)]

/-- The last S bits as RAW steps, oldest first. -/
def rawSteps (s : State) (c : Nat) (e : Tick) (tm : Nat) (bits : List Bool) : State :=
  (List.range bits.length).reverse.foldl (fun t j =>
    inkStep t 1 (c / 8) tm (e - tk (j * tm)) (rawBit (c % 8) (nth bits j false))) s

/-- Every S3_OSR bits the filter yields an output: `bits` are the last ones taken, newest first, `e` the selected edge of the newest,
which is taken CAPDLY × 2 ns later (R149). DESIGN CHOICE (log entry 76): while the timebase is invalid the filter stands still. -/
def sincOutput (s00 : State) (c : Nat) (bits : List Bool) (e : Tick) : State :=
  if !s00.flag (R.senseCfg_EN c) || !tbValid s00 || !nodeRuns s00 3 || !selEdge s00 c e then s00
  else
    let s := s00.at (e + tk (capTicks s00 c))
    let n := s.fld (R.senseCfg_S3_OSR c)
    let tm := chanTm s c
    let d := s.fld (R.senseCalactDelay_DELAY c)
    let o : Sinc3 := { y := sincY n bits, s := n, stop := e - tk d, centre := e - tk d - tk ((3 * n - 2) * tm / 2) }
    let x := s.chS c
    let taken := min (3 * n) (x.taken + n)
    let s1 := (s.setChS c { x with taken := taken, outs := (o :: x.outs).take 8 }).setFlag (R.senseStat_SETTLED c) (decide (3 * n ≤ taken))
    let s2 := rawSteps s1 c e tm (bits.take n)
    let v := sincTap o
    let s3 := inkStep s2 2 (c / 8) (n * tm) e (fun l => bytesAt l (2 * (c % 8)) [BitVec.ofNat 8 v, BitVec.ofNat 8 (v / 256)])
    inkValue s3 0 c (e - tk d) (sincValue s3 c o)

def execSinc3Output (c : Fin 128) (bits : List Bool) (e : Tick) (s : State) : Host.Outcome State Fault Refusal := .next (sincOutput s c.val bits e)

/-! ### Exact-period windows (R156 to R160) -/

/-- Bindings of a channel's integrators brought to the groups its windings need (R157, R158): a group that holds an integrator
keeps it, a new one takes A, or B where A is taken. -/
def senseRebind (s : State) (c : Nat) : State :=
  let need := chanGroups s (curBind s) c
  let a0 := if s.flag (R.senseBind_A_EN c) && need.contains (s.fld (R.senseBind_A_GRP c)) then some (s.fld (R.senseBind_A_GRP c)) else none
  let b0 := if s.flag (R.senseBind_B_EN c) && need.contains (s.fld (R.senseBind_B_GRP c)) then some (s.fld (R.senseBind_B_GRP c)) else none
  let new := need.filter (fun g => a0 != some g && b0 != some g)
  let a1 := if a0.isSome then a0 else new.head?
  let new1 := if a0.isSome then new else new.tail
  let b1 := if b0.isSome then b0 else new1.head?
  let x := s.chS c
  let s1 := s.setChS c { x with winA := if a0.isSome then x.winA else none, winB := if b0.isSome then x.winB else none }
  let s2 := ((s1.setFlag (R.senseBind_A_EN c) a1.isSome).setFld (R.senseBind_A_GRP c) (a1.getD 0)).setFlag (R.senseBind_B_EN c) b1.isSome
  let s3 := (s2.setFld (R.senseBind_B_GRP c) (b1.getD 0)).setFld (R.senseBind_USERS c) (chanWindings s c).length
  let s4 := if a0.isSome then s3 else s3.setReg (R.senseMeanA c) f32NaN
  if b0.isSome then s4 else s4.setReg (R.senseMeanB c) f32NaN

/-- A channel's calibration was exchanged at the boundary of another group, and this group still waits for its own (R139, R162):
the old copy is the shadow one. -/
def calOld (s : State) (g c : Nat) : Bool :=
  s.sense.swapped.contains c && s.loop.pend.any (fun p => p.grp == g && p.ch == .calSense c)

/-- A channel without an integrator whose point samples a context of the group reads (R152, R306). -/
def pointOnly (s : State) (g c : Nat) : Bool :=
  s.flag (R.senseCfg_EN c) && boundGroups s c == [] && s.slots.any (fun k => (s.ctx k).committed && (s.ctx k).grp == g && fpReads s k c true)

/-- The windows of a group's integrators close at a boundary, each with the calibration then in force (R156, R162). With the SENSE
node gated there is none. -/
def senseClose (s : State) (g : Nat) (t : Tick) : State :=
  if senseGated s then s else
  (List.range 128).foldl (fun u c =>
    let x := u.chS c
    let was : Bool := calOld u g c
    let post (b : Bool) (t0 : Tick) (lost : Bool) : SensePost :=
      { ch := c, b := b, grp := g, t0 := t0, t1 := t, gain := u.reg (if was then R.senseCalshGain c else R.senseCalactGain c),
        offset := u.reg (if was then R.senseCalshOffset c else R.senseCalactOffset c),
        delay := u.fld (if was then R.senseCalshDelay_DELAY c else R.senseCalactDelay_DELAY c), lost := lost || u.flag (R.senseStat_LOST c) }
    let pa := if u.flag (R.senseBind_A_EN c) && u.fld (R.senseBind_A_GRP c) == g then (x.winA.map (fun t0 => post false t0 x.lostA)).toList else []
    let pb := if u.flag (R.senseBind_B_EN c) && u.fld (R.senseBind_B_GRP c) == g then (x.winB.map (fun t0 => post true t0 x.lostB)).toList else []
    let pc := if pointOnly u g c then [{ post false t false with point := true }] else []
    if pa = [] ∧ pb = [] ∧ pc = [] then u else u.withSense { u.sense with posts := u.sense.posts ++ pa ++ pb ++ pc }) s

/-- The windows of a group's integrators open at a boundary (R158). -/
def senseOpen (s : State) (g : Nat) (t : Tick) : State :=
  if senseGated s then s else
  (List.range 128).foldl (fun u c =>
    let x := u.chS c
    let lost := u.flag (R.senseStat_LOST c)
    let x1 := if u.flag (R.senseBind_A_EN c) && u.fld (R.senseBind_A_GRP c) == g then { x with winA := some t, lostA := lost } else x
    let x2 := if u.flag (R.senseBind_B_EN c) && u.fld (R.senseBind_B_GRP c) == g then { x1 with winB := some t, lostB := lost } else x1
    if x2 = x then u else u.setChS c x2) s

/-- The windows in progress are discarded while the timebase is invalid (R157). -/
def senseDrop (s : State) : State :=
  (s.sense.ch.map (·.1)).foldl (fun u c => u.setChS c { u.chS c with winA := none, winB := none }) (s.withSense { s.sense with posts := [] })

/-- The weight in edge ticks of a bit taken at edge `e` in a window (R156). -/
def bitWeight (d tm : Nat) (t0 t1 e : Tick) : Int :=
  let hi := (e - tk d - t0).toInt
  let len := (t1 - t0).toInt
  max 0 (min hi len - max (hi - tm) 0)

/-- The sum s of R156 over the bits of a window. -/
def windowSum (d tm : Nat) (t0 t1 : Tick) (bits : List (Tick × Bool)) : Int :=
  (bits.map (fun e => bitX e.2 * bitWeight d tm t0 t1 e.1)).foldl (· + ·) 0

/-- A window's value (R156): mean rounded once, then one fused multiply-add; the NaN where it is invalid (R159). -/
def windowValue (p : SensePost) (tm : Nat) (bits : List (Tick × Bool)) : Word :=
  let used := bits.filter (fun e => decide (0 < bitWeight p.delay tm p.t0 p.t1 e.1))
  if p.lost || decide (used.length < 2) then f32NaN
  else
    let mean := f32 ((windowSum p.delay tm p.t0 p.t1 bits : Rat) / ((p.t1 - p.t0).toNat : Rat))
    f32 (ratOf p.gain * ratOf mean + ratOf p.offset)

/-- The point sample at an instant: the latest settled output whose span ends at or before it (R152). DESIGN CHOICE (log entry 76):
GAIN and OFFSET are those of the copy active as it is posted, also where a CAL_SWAP applied at the frame's own boundary. -/
def pointPost (s : State) (c : Nat) (t : Tick) : State :=
  match (s.chS c).outs.find? (fun o => decide (o.stop ≤ t)) with
  | some o =>
    if s.flag (R.senseStat_SETTLED c) then
      (s.setReg (R.sensePoint c) (sincValue s c o)).setChS c { s.chS c with pointOfs := (o.centre - t).toInt }
    else s.setReg (R.sensePoint c) f32NaN
  | none => s.setReg (R.sensePoint c) f32NaN

/-- A group whose last closed window has been posted is released (R160). -/
def releaseCheck (s : State) (g : Nat) (t : Tick) : State :=
  if s.sense.posts.any (fun p => p.grp == g) || (s.grp g).rel.isSome then s else s.setGrp g { s.grp g with rel := some t }

/-- The SENSE node is gated: windows and results on their way are gone, and the groups that waited for them are released. -/
def senseGate (s : State) : State :=
  let gs := (s.sense.posts.map (·.grp)).eraseDups
  gs.foldl (fun t g => releaseCheck t g t.dt) (senseDrop s)

/-- The front end posts the oldest closed window of a channel, and its point sample: `bits` are the taken bits with their selected
edges, those of the channel's MCLK grid (R149), `t` the instant of posting (R156, R159, R160). -/
def sensePostRes (s : State) (c : Nat) (bits : List (Tick × Bool)) (t : Tick) : State :=
  if senseGated s then s else
  match s.sense.posts.find? (fun p => p.ch == c) with
  | none => s
  | some p =>
    let s0 := (s.at t)
    let s1 := s0.withSense { s0.sense with posts := s0.sense.posts.filter (· != p) }
    let v := windowValue p (chanTm s c) (bits.filter (fun b => selEdge s c b.1))
    let s2 := pointPost (if p.point then s1 else s1.setReg (if p.b then R.senseMeanB c else R.senseMeanA c) v) c p.t1
    let s3 := if !p.point && f32IsNaN v then (s2.setFlag (R.senseStat_INVALID c) true).raiseLim 66 c (wd p.grp) (100 * msTicks) else s2
    releaseCheck s3 p.grp t

/-- The window value of a channel for a group: that of the integrator the group holds, the NaN where it holds none. -/
def chanValue (s : State) (c g : Nat) : Word :=
  if s.flag (R.senseBind_A_EN c) && s.fld (R.senseBind_A_GRP c) == g then s.reg (R.senseMeanA c)
  else if s.flag (R.senseBind_B_EN c) && s.fld (R.senseBind_B_GRP c) == g then s.reg (R.senseMeanB c)
  else f32NaN

/-! ### Overcurrent and modulator loss (R153, R154, R163) -/

/-- The nibs of every winding bound to a channel. -/
def chanNibs (s : State) (c : Nat) : List Nat :=
  (chanWindings s c).flatMap (fun k => match ownedSet s k with
    | some m => setNibs s m
    | none => [])

/-- The sum of the last `n` bits, `k` bits back (R153). -/
def ocSum (bits : List Bool) (n k : Nat) : Int := (((bits.drop k).take n).map bitX).foldl (· + ·) 0

/-- The comparator's run: OC_RUN consecutive sums at or beyond a threshold (R153); 1 high, 2 low. -/
def ocRun (s : State) (c : Nat) (bits : List Bool) : Option Nat :=
  let w := s.frc (R.senseOc c)
  let run := if bitsOf w 24 4 = 0 then 16 else bitsOf w 24 4
  let n := bitsOf w 16 7
  let hi := sext 8 (bitsOf w 8 8)
  let lo := sext 8 (bitsOf w 0 8)
  if bits.length < n + run - 1 ∨ !bitOf w 31 then none
  else if allNat run (fun k => decide (hi ≤ ocSum bits n k)) then some 1
  else if allNat run (fun k => decide (ocSum bits n k ≤ lo)) then some 2
  else none

/-- Of a channel's last bits, newest first with `e` the selected edge of the newest, those taken since s and the run count were
cleared (R155). While the timebase is invalid bits have no instants and all count. -/
def ocSince (s : State) (c : Nat) (bits : List Bool) (e : Tick) : List Bool :=
  if tbValid s then bits.take (((e + tk (capTicks s c) - (s.chS c).ocFrom).toInt / (max 1 (chanTm s c) : Nat) + 1).toNat) else bits

/-- The comparator on the channel's last bits, newest first: a run that begins is a trip (R153, R154); bits that do not qualify end it. -/
def ocBits (s : State) (c : Nat) (bits : List Bool) : State :=
  match ocRun s c bits with
  | none => s.setChS c { s.chS c with ocOn := false }
  | some d =>
    if (s.chS c).ocOn then s
    else
      let s1 := ((s.setChS c { s.chS c with ocOn := true }).cntSat (R.senseStat_OC_TRIPS c)).setFlag (R.senseStat_OC_TRIP c) true
      let s2 := s1.raiseLim 64 c (wd d) (10 * msTicks)
      if ocActive s2 c then sourceAct s2 (chanNibs s2 c) 3 else s2

/-- The overcurrent path counts bits while the channel is enabled and its modulator clock runs (R154). -/
def execOvercurrentTrip (c : Fin 128) (run : BitRun) (s : State) : Host.Outcome State Fault Refusal :=
  .next (if s.flag (R.senseCfg_EN c.val) && !senseGated s then ocBits s c.val (ocSince s c.val run.bits run.e) else s)

/-- Closed windows of a channel whose last overlapping bits are still being taken are invalid too (R159): such a bit is taken by D, Tm
and CAPDLY after the end of the window. -/
def lostPosts (s : State) (c : Nat) : State :=
  s.withSense { s.sense with posts := s.sense.posts.map (fun p =>
    if p.ch = c ∧ s.dt ≤ p.t1 + tk (p.delay + chanTm s c + capTicks s c) then { p with lost := true } else p) }

/-- LOSSRUN equal bits, newest first, make a channel LOST (R163). -/
def lostBits (s : State) (c : Nat) (bits : List Bool) : State :=
  let n := s.fld (R.senseLoss_LOSSRUN c)
  let l := bits.take n
  if !s.flag (R.senseCfg_EN c) || senseGated s || s.flag (R.senseStat_LOST c) || decide (l.length < n) || !(l.all id || l.all (!·)) then s
  else
    let s1 := (((s.setFlag (R.senseStat_LOST c) true).setFlag (R.senseStat_LOST_SEEN c) true).cntSat (R.senseStat_LOSSES c)).setFlag ⟨R.senseLost (c / 32), c % 32, 1⟩ true
    let s2 := lostPosts (s1.setChS c { s1.chS c with lostA := true, lostB := true }) c
    let s3 := match s2.sense.cal with
      | some (ch, _) => if ch = c then s2.withSense { s2.sense with calLost := true } else s2
      | none => s2
    let s4 := s3.raise 65 c 1#32
    if s4.flag (R.senseCfg_LOSS_ACT c) then sourceAct s4 (chanNibs s4 c) 4 else s4

def execModulatorLost (c : Fin 128) (bits : List Bool) (s : State) : Host.Outcome State Fault Refusal := .next (lostBits s c.val bits)

/-- An open window none of whose bits has been taken yet, D and CAPDLY after its start, was not LOST (R159). -/
def lostBefore (s : State) (c : Nat) : State :=
  let x := s.chS c
  let early (w : Option Tick) : Bool := match w with
    | some t0 => decide (s.dt ≤ t0 + tk (s.fld (R.senseCalactDelay_DELAY c) + capTicks s c))
    | none => false
  s.setChS c { x with lostA := x.lostA && !early x.winA, lostB := x.lostB && !early x.winB }

/-- 1,024 bits without such a run end LOST (R163). -/
def lostEnd (s : State) (c : Nat) : State :=
  if !s.flag (R.senseStat_LOST c) || senseGated s then s
  else (((lostBefore s c).setFlag (R.senseStat_LOST c) false).setFlag ⟨R.senseLost (c / 32), c % 32, 1⟩ false).raise 65 c 0#32

def execModulatorRecovered (c : Fin 128) (s : State) : Host.Outcome State Fault Refusal := .next (lostEnd s c.val)

/-! ### Calibration (R161, R162) -/

/-- A write of `SENSE.CAL`: MODE and CH, and START, which begins a calibration or is refused (R161). -/
def calWrite (s : State) (w : Word) : Res :=
  let v := written s R.senseCal w
  let mode := bitsOf v 24 3
  let ch := bitsOf v 0 7
  if !bitOf w 31 then plainNow s R.senseCal w
  else if mode ≠ 1 ∧ mode ≠ 2 then refuse s stBAD_PARAM
  else if s.flag R.senseCal_BUSY then refuse s stBUSY_TARGET
  else if !s.flag (R.senseCfg_EN ch) ∨ (mode = 2 ∧ (boundGroups s ch).any (fun g => grpState s g == 2)) then refuse s stREFUSED_STATE
  else
    let s1 := (plainNow s R.senseCal w).st
    { st := ((s1.setFlag R.senseCal_BUSY true).withSense { s1.sense with cal := some (ch, mode), calLost := s1.flag (R.senseStat_LOST ch) }) }

/-- START with MODE 1 on a channel. -/
def execSenseCalScan (ch : Fin 128) (s : State) : Host.Outcome State Fault Refusal := .next (regRowWrite s R.senseCal (calWrite s (wd (0x81000000 + ch.val))))

/-- START with MODE 2 on a channel. -/
def execSenseCalOffset (ch : Fin 128) (s : State) : Host.Outcome State Fault Refusal := .next (regRowWrite s R.senseCal (calWrite s (wd (0x82000000 + ch.val))))

/-- The end of a scan: `rt` are the earliest and latest transition after the selected edge, none where there was none (R161). -/
def scanDone (s : State) (ch : Nat) (rt : Option (Nat × Nat)) : State × Bool :=
  match rt with
  | none => (s, true)
  | some (lo, hi) =>
    let eye := lo + chanTm s ch - hi
    let s1 := (s.setFld R.senseCalres_RT_MIN lo).setFld R.senseCalres_RT_MAX hi
    ((s1.setFld R.senseCaleye_EYE eye).setFld R.senseCaleye_CENTRE (min 63 ((2 * hi + eye + 32) / 64)), decide (eye < 96) || decide (2 * 2016 < 2 * hi + eye))

/-- A calibration ends with what it measured: transitions for SCAN, the sum of 262,144 bits for OFFSET (R161). -/
def calDone (s : State) (rt : Option (Nat × Nat)) (sum : Int) : State :=
  match s.sense.cal with
  | none => s
  | some (ch, mode) =>
    let r := if mode = 1 then scanDone s ch rt else (s.setReg R.senseCalofs (f32 ((sum : Rat) / 262144)), s.sense.calLost)
    let s1 := (r.1.setFlag R.senseCal_BUSY false).setFlag R.senseCal_FAIL r.2
    (s1.withSense { s1.sense with cal := none, calLost := false }).raise 67 ch (wd (b2n r.2 * 256 + mode))

def execSenseCalDone (rt : Option (Nat × Nat)) (sum : Int) (s : State) : Host.Outcome State Fault Refusal := .next (calDone s rt sum)

/-- The calibration of a channel exchanged between shadow and active copy (R162); a change of D is a gap of its bank (R321). -/
def calSwapChan (s : State) (c : Nat) : State :=
  let swap (t : State) (a b : Nat) : State := (t.setReg a (t.reg b)).setReg b (t.reg a)
  let d := s.reg (R.senseCalactDelay c)
  let s1 := swap (swap (swap s (R.senseCalshGain c) (R.senseCalactGain c)) (R.senseCalshOffset c) (R.senseCalactOffset c)) (R.senseCalshDelay c) (R.senseCalactDelay c)
  if s1.reg (R.senseCalactDelay c) = d then s1
  else inkGap s1 3 (fun k => decide (s1.fld (R.inkCcfg_KIND k) ≤ 2) && s1.fld (R.inkCcfg_SRC k) == c / 8)

/-- The shadow copy copied to the active copy at the end of the SENSE configuration block (R162). -/
def calCopy (s : State) : State :=
  (List.range 128).foldl (fun t c =>
    ((t.setReg (R.senseCalactGain c) (t.reg (R.senseCalshGain c))).setReg (R.senseCalactOffset c) (t.reg (R.senseCalshOffset c))).setReg (R.senseCalactDelay c) (t.reg (R.senseCalshDelay c))) s

/-- A CAL_SWAP of the sensing table has not finished (R162). -/
def calSwapPending (s : State) : Bool :=
  s.loop.pend.any (fun p => match p.ch with
    | .calSense _ => true
    | _ => false)

/-! ### Register writes (R148, R149, R155, R165) -/

/-- The enabling of an output starts it at its next rising edge (R148). -/
def mclkStart (s : State) (n : Nat) (was now : Bool) : State :=
  if !was && now then s.withSense { s.sense with mclk := tblPut s.sense.mclk n s.dt 0 } else s

/-- A write of `SENSE.MCLK[n]` (R148). -/
def mclkWrite (s : State) (n : Nat) (w : Word) : Res :=
  let a := R.senseMclk n
  let v := written s a w
  if outNat 20 100 (bitsOf v 16 7) ∨ bitsOf v 16 7 ≤ bitsOf v 0 7 then refuse s stBAD_PARAM
  else if v ≠ s.reg a ∧ (List.range 128).any (fun c => s.fld (R.senseCfg_MSEL c) == n && boundLive s c) then refuse s stREFUSED_STATE
  else
    let x := plainNow s a w
    { x with st := mclkStart x.st n (bitOf (s.reg a) 31) (bitOf v 31) }

def execSenseMclkWrite (n : Fin 12) (w : Word) (s : State) : Host.Outcome State Fault Refusal := .next (regRowWrite s (R.senseMclk n.val) (mclkWrite s n.val w))

/-- A write of `SENSE.CFG[c]` (R149, R165). -/
def senseCfgWrite (s : State) (c : Nat) (w : Word) : Res :=
  let a := R.senseCfg c
  let old := s.reg a
  let v := written s a w
  if 11 < bitsOf v 26 4 ∨ outNat 32 256 (bitsOf v 0 9) then refuse s stBAD_PARAM
  else if (bitOf old 31 ∧ !bitOf v 31 ∧ boundGroups s c ≠ []) ∨ ((old ^^^ v) &&& 0x7C0001FF#32 ≠ 0#32 ∧ boundLive s c) then refuse s stREFUSED_STATE
  else
    let x := plainNow s a w
    if (bitOf v 31 ∧ !bitOf old 31) ∨ bitsOf v 0 9 ≠ bitsOf old 0 9 then
      { x with st := (x.st.setChS c { x.st.chS c with taken := 0, outs := [] }).setFlag (R.senseStat_SETTLED c) false }
    else x

/-- A comparator setting in force: a change of OC_OSR clears s and the run count (R155). -/
def ocApply (s : State) (c : Nat) (w : Word) : State :=
  let a := R.senseOc c
  let s1 := if bitsOf (s.frc a) 16 7 ≠ bitsOf w 16 7 then s.setChS c { s.chS c with ocOn := false, ocFrom := s.dt } else s
  s1.setFrc a w

/-- A write of `SENSE.OC[c]` (R153, R155): without integrator A it applies at once. -/
def senseOcWrite (s : State) (c : Nat) (w : Word) : Res :=
  let a := R.senseOc c
  let v := written s a w
  let hi := sext 8 (bitsOf v 8 8)
  let lo := sext 8 (bitsOf v 0 8)
  if outNat 8 64 (bitsOf v 16 7) ∨ hi < -64 ∨ 64 < hi ∨ lo < -64 ∨ 64 < lo ∨ hi ≤ lo then refuse s stBAD_PARAM
  else if s.flag (R.senseBind_A_EN c) then plainWrite s a w (s.fld (R.senseBind_A_GRP c)) false
  else { st := ocApply (s.setReg a v) c v }

/-- A write of a register of the SENSE block; none where the access codes alone decide. -/
def senseBlockWrite (s : State) (a : Nat) (w : Word) : Option Res :=
  if a < 0x0A0030 then some (mclkWrite s ((a - 0x0A0000) / 4) w)
  else if a = R.senseCal then some (calWrite s w)
  else if 0x0A0100 ≤ a ∧ a < 0x0A1100 then
    let c := (a - 0x0A0100) / 0x20
    match (a - 0x0A0100) % 0x20 with
    | 0x00 => some (senseCfgWrite s c w)
    | 0x04 => some (senseOcWrite s c w)
    | 0x08 => some (checked s (outNat 16 255 (bitsOf w 0 8)) stBAD_PARAM (plainNow s a w))
    | _ => none
  else if 0x0A2000 ≤ a ∧ a < 0x0A2800 ∧ (a % 0x10) ≠ 0xC then
    let bad := if a % 0x10 = 8 then decide (16000 < bitsOf w 0 14) else badF32 w
    some (if bad then refuse s stBAD_PARAM else if calSwapPending s then refuse s stBUSY_TARGET else plainNow s a (if a % 0x10 = 8 then w else f32Flush w))
  else none

end Sys2Proof.Machine
end

