-- ==== Sys2Proof/Machine/Feedback.lean ====
section
/-! DEFINITION. Position feedback channels, excitation outputs and latch units (09_feedback_latching.md). Positions are
referred to the frame boundary in exact rational arithmetic and rounded once into 32 fraction bits (R228). -/

namespace Sys2Proof.Machine

open Sys2Proof

def State.fb (s : State) (n : Nat) : FbS := tblGet s.fdbk.ch n {}
def State.setFb (s : State) (n : Nat) (x : FbS) : State := s.withFdbk { s.fdbk with ch := tblPut s.fdbk.ch n x {} }
def State.lu (s : State) (u : Nat) : LatchU := tblGet s.fdbk.unit u {}
def State.setLu (s : State) (u : Nat) (x : LatchU) : State := s.withFdbk { s.fdbk with unit := tblPut s.fdbk.unit u x {} }

def fbMode (s : State) (n : Nat) : Nat := s.fld (R.fdbkCfg_MODE n)
def fbGrp (s : State) (n : Nat) : Nat := s.fld (R.fdbkCfg_GROUP n)
def fbState (s : State) (n : Nat) : Nat := s.fld (R.fdbkStat_STATE n)

/-- Two nanoseconds in edge ticks. -/
def twoNs : Nat := 32

/-! ### Channel states (R235) -/

/-- A channel takes a state: 0 OFF, 1 SETTLING, 2 VALID, 3 INVALID; a change of VALID raises FB_VALID. -/
def fbSet (s : State) (n st : Nat) : State :=
  let old := fbState s n
  let s1 := (s.setFld (R.fdbkStat_STATE n) st).setFlag (R.fdbkStat_VALID n) (st == 2)
  let s2 := if st = 3 ∧ old ≠ 3 then s1.cntSat (R.fdbkCnt_INVALIDS n) else s1
  if (old == 2) != (st == 2) then s2.raise 133 n (wd (b2n (st == 2))) else s2

/-- A happening that takes a VALID channel to INVALID (R235). -/
def fbInvalid (s : State) (n : Nat) : State := if fbState s n = 2 then fbSet s n 3 else s

/-- A channel starts to settle. -/
def fbSettle (s : State) (n : Nat) : State := fbSet (s.setFb n { s.fb n with good := 0, cond := false }) n 1

/-! ### Position histories (R240) -/

/-- The codes of position sources: feedback channels, observers, axis actual and axis commanded positions by slot. -/
def srcFb (n : Nat) : Nat := n
def srcObs (k : Nat) : Nat := 0x100 + k
def srcAct (k : Nat) : Nat := 0x200 + k
def srcCmd (k : Nat) : Nat := 0x300 + k

/-- A sample of a source; each keeps its last 32. -/
def histPush (s : State) (src : Nat) (t pos : Tick) (valid : Bool) : State :=
  s.withFdbk { s.fdbk with hist := tblPut s.fdbk.hist src (((t, pos, valid) :: tblGet s.fdbk.hist src []).take 32) [] }

/-- The position of a source at an instant between its samples `a` and `b` (R240). -/
def posAt (a b : Tick × Tick × Bool) (t : Tick) : Tick :=
  let d : Rat := (b.2.1 - a.2.1).toInt
  let f : Rat := ((t - a.1).toNat : Rat) / ((b.1 - a.1).toNat : Rat)
  a.2.1 + BitVec.ofInt 64 (roundI (d * f))

/-- The two consecutive samples of a newest-first history that enclose an instant. -/
def histPair (t : Tick) : List (Tick × Tick × Bool) → Option ((Tick × Tick × Bool) × (Tick × Tick × Bool))
  | b :: a :: rest => if a.1 ≤ t ∧ t < b.1 then some (a, b) else histPair t (a :: rest)
  | _ => none

/-- A source's position at an instant, once a sample beyond it is posted: none where it is not valid (R240). -/
def histAt (s : State) (src : Nat) (t : Tick) : Option Tick :=
  match histPair t (tblGet s.fdbk.hist src []) with
  | some (a, b) => if a.2.2 && b.2.2 then some (posAt a b t) else none
  | none => none

/-- A source has posted a sample beyond an instant. -/
def histBeyond (s : State) (src : Nat) (t : Tick) : Bool :=
  match tblGet s.fdbk.hist src [] with
  | b :: _ => decide (t < b.1)
  | [] => false

/-! ### Samples (R226, R228) -/

/-- TURN of a position: the fraction of a turn of `upt` units, as a 32-bit fraction (R226). -/
def turnOf (pos : Tick) (upt : Nat) : Word := wd ((pos.toInt % (upt * 2 ^ 32 : Nat)).toNat / max upt 1)

/-- What a sample is to the validity of its channel (R235): good, a fault of the frame, or neither. -/
inductive SampleIs where
  | good
  | bad
  | neither
deriving DecidableEq, Repr

/-- A sample of a channel at T(k): POS, the raw value and the velocity per edge tick it came from. A VALID channel posts what is not bad and
becomes INVALID at a bad one; two good samples in a row end SETTLING (R235). -/
def fbPostPos (s : State) (n : Nat) (t pos : Tick) (p : Option Rat) (v : Rat) (is : SampleIs) : State :=
  let x := s.fb n
  let bad := is == .bad
  let good := if is == .good then x.good + 1 else 0
  let s0 := s.setFb n { x with p := p, v := v, last := t, ill := false, cond := bad, good := good }
  let put (u : State) : State :=
    let u1 := (u.setReg64 (R.fdbkPosLo n) pos).setReg (R.fdbkVel n) (Config.round32 (v * 16000000000))
    u1.setReg (R.fdbkTurn n) (turnOf pos (s.fld (R.fdbkUpt_UPT n)))
  let st := fbState s n
  let s1 := if st = 1 then (let u := put s0; if 2 ≤ good then fbSet u n 2 else u)
    else if st = 2 then (if bad then fbInvalid s0 n else put s0)
    else s0
  if st = 0 then s1 else histPush s1 (srcFb n) t (s1.reg64 (R.fdbkPosLo n)) (s1.flag (R.fdbkStat_VALID n))

/-- A sample with raw value p, gap g and velocity v per edge tick (R228). -/
def fbPost (s : State) (n : Nat) (t : Tick) (p v g : Rat) (bad : Bool) : State :=
  fbPostPos s n t (posOf (p + v * g)) (some p) v (if bad then .bad else .good)

/-- Sensor delay in force (R227). -/
def fbDly (s : State) (n : Nat) : Rat := (s.ffld (R.fdbkDly_DLY n) : Rat)

/-- The incremental velocity at T(k) (R229). -/
def incVel (x : FbS) (t : Tick) : Rat :=
  if x.edge then
    let d := (x.tE - x.tPrev).toNat
    if d = 0 then 0 else ((x.n - x.nPrev : Int) : Rat) / (d : Rat)
  else if 65536 ≤ x.still + 1 then 0
  else
    let d := (t - x.tE).toNat
    if d = 0 then x.v else sgnR x.v * min (absR x.v) (1 / (d : Rat))

/-- The incremental sample (R229). -/
def fbInc (s : State) (n : Nat) (t : Tick) : State :=
  let x := s.fb n
  let v := incVel x t
  let lim : Rat := 1 - 1 / ((2 ^ 32 : Nat) : Rat)
  let frac := clampR (-lim) lim (v * ((t - x.tE).toNat : Rat))
  let s1 := fbPost s n t ((x.n : Rat) + frac) v (fbDly s n) x.ill
  s1.setFb n { s1.fb n with edge := false, still := if x.edge then 0 else min 65536 (x.still + 1), nPrev := x.n, tPrev := x.tE }

/-- A Gray-coded word decoded, most significant bit first. -/
def grayDecode (nb w : Nat) : Nat :=
  ((List.range nb).reverse.foldl (fun (acc : Nat × Bool) i => let b := (w.testBit i) != acc.2; (acc.1 * 2 + b2n b, b)) (0, false)).1

/-- A frame in error posts POS(k−1) + v × Ts, is counted and reported; it is no good sample, and ERRMAX in a row are bad (R232, R235). -/
def fbSsiErr (s : State) (n : Nat) (t : Tick) (ts : Nat) (code : Nat) : State :=
  let x := s.fb n
  let s1 := ((s.setFlag (R.fdbkStat_SSI_ERR n) true).cntSat (R.fdbkCnt_SSI_ERRS n)).raiseLim 131 n (wd code) (100 * msTicks)
  let errs := min 255 (x.errs + 1)
  let s2 := s1.setFb n { x with errs := errs }
  fbPostPos s2 n t (s.reg64 (R.fdbkPosLo n) + posOf (x.v * (ts : Rat))) (x.p.map (· + x.v * (ts : Rat))) x.v
    (if errs < s.fld (R.fdbkSsi_ERRMAX n) then .neither else .bad)

/-- The transfer of a frame is made: the frame is not shorter than LEAD × 2 ns + 2.0 µs (R231). -/
def ssiFits (s : State) (n ts : Nat) : Bool := decide (s.fld (R.fdbkSsit_LEAD n) * twoNs + 2 * usTicks ≤ ts)

/-- The SSI sample (R228, R231, R232); without a transfer in the frame nothing is posted. -/
def fbSsi (s : State) (n : Nat) (t : Tick) (ts : Nat) : State :=
  let x := s.fb n
  let nb := s.fld (R.fdbkSsi_NBITS n)
  let s0 := s.setFb n { x with ssi := none }
  if !ssiFits s n ts then fbSsiErr s0 n t ts 4
  else
    match x.ssi with
    | none => s0
    | some (code, raw) =>
      if code ≠ 0 then fbSsiErr s0 n t ts code
      else
        let w := if s.flag (R.fdbkSsi_GRAY n) then grayDecode nb raw else raw
        let m : Int := x.n + sext nb (w + 2 ^ nb - x.word % 2 ^ nb)
        let p : Rat := (m : Rat)
        let v : Rat := match x.p with
          | some q => if ts = 0 then 0 else (p - q) / (ts : Rat)
          | none => 0
        let s1 := s0.setFb n { s0.fb n with errs := 0, word := w, n := m }
        fbPost s1 n t p v ((s.fld (R.fdbkSsit_LEAD n) * twoNs : Nat) - fbDly s n) false

/-! ### Excitation and resolver (R233, R234) -/

/-- Frame length of a group as its carrier runs. -/
def frameRun (s : State) (g : Nat) : Nat := let x := s.grp g; if x.du then x.len / 2 else x.len

/-- The rising edges of a locked output in one frame of length `f` (R233), from the frame's start. -/
def lockEdges (f m : Nat) : List Nat := (List.range m).map (fun i => i * f / max m 1)

/-- Period of an excitation output in edge ticks, and its rising edges that bear on a window [t0, t1) of group `grp`, from t0 (R233). A locked
output follows the frames of its own group: the window itself where that is the window's group. -/
def excEdges (s : State) (e grp : Nat) (t0 t1 : Tick) : Rat × List Rat :=
  let len := (t1 - t0).toNat
  if !s.flag (R.fdbkExc_EN e) then (1, [])
  else if s.flag (R.fdbkExc_LOCK e) then
    let m := s.fld (R.fdbkExc_MUL e)
    let g := s.fld (R.fdbkExc_GRP e)
    let f := if g = grp then len else frameRun s g
    let ref : Int := if g = grp then (len : Int) else ((s.grp g).bndAt - t0).toInt
    if f = 0 then (1, [])
    else
      let n := len / f + 2
      ((f : Rat) / (max m 1 : Nat),
        (List.range (n + 1)).flatMap (fun j => (lockEdges f m).map (fun x => (((ref + (x : Nat) - (((n - j) * f : Nat) : Int) : Int)) : Rat))))
  else
    let per := s.fld (R.fdbkExc_FREE_PER e) * twoNs
    if per = 0 then (1, [])
    else
      let ofs : Int := -(((t0 - tblGet s.fdbk.exc e 0).toNat % per : Nat) : Int)
      ((per : Rat), (List.range (len / per + 2)).map (fun i => ((ofs + (i * per : Nat) - (per : Nat) : Int) : Rat)) ++ [((ofs + ((len / per + 1) * per : Nat) : Int) : Rat)])

/-- Length of the overlap of [a, b) and [c, d). -/
def overlapR (a b c d : Rat) : Rat := max 0 (min b d - max a c)

/-- The integral over [a, b) of the reference whose +1 halves start at the given edges plus `ph`; 0 where there is no reference (R234). -/
def refInt (tex : Rat) (edges : List Rat) (ph a b : Rat) : Rat :=
  if edges = [] ∨ b ≤ a then 0
  else 2 * (edges.map (fun e => overlapR a b (e + ph) (e + ph + tex / 2))).foldl (· + ·) 0 - (b - a)

/-- The demodulated integrals of a channel's bits over a window, with ref and with refq (R234). -/
def demod (s : State) (n : Nat) (p : SensePost) (tm : Nat) (bits : List (Tick × Bool)) : Rat × Rat :=
  let x := excEdges s (s.fld (R.fdbkCfg_EXCSEL n)) (fbGrp s n) p.t0 p.t1
  let ph := (s.ffld (R.fdbkRph_RPH n) : Rat) * x.1 / 4096
  let len : Rat := ((p.t1 - p.t0).toNat : Rat)
  let sum (q : Rat) : Rat := (bits.map (fun e =>
    let hi : Rat := ((e.1 - tk p.delay - p.t0).toInt : Rat)
    (bitX e.2 : Rat) * refInt x.1 x.2 q (max 0 (hi - (tm : Rat))) (min len hi))).foldl (· + ·) 0
  (sum ph, sum (ph + x.1 / 4))

/-- The sensing channel on land DF(2n + i), of the sine (0) or the cosine (1) of a feedback channel (R147, R225). -/
def dfCh (n i : Nat) : Nat := 96 + 2 * n + i

/-- A DF window of a channel is invalid (R159, R234). -/
def dfBad (s : State) (n : Nat) : Bool := f32IsNaN (s.reg (R.senseMeanA (dfCh n 0))) || f32IsNaN (s.reg (R.senseMeanA (dfCh n 1)))

/-- A number of full scale as a 16-bit fraction. -/
def frac16 (q : Rat) : Nat := min 65535 (q * 65536).floor.toNat

/-- The signal check (R234): 0 good, 1 below AMP_LO, 2 at or above AMP_HI, 3 an invalid window. -/
def signalCode (s : State) (n : Nat) (amp : Rat) (windowBad : Bool) : Nat :=
  if windowBad then 3
  else if amp * 65536 < (s.ffld (R.fdbkSc_AMP_LO n) : Rat) then 1
  else if (s.ffld (R.fdbkSc_AMP_HI n) : Rat) ≤ amp * 65536 then 2 else 0

/-- SIGNAL and FB_SIGNAL of a bad signal of a channel that is not INVALID already. -/
def signalTell (s : State) (n code : Nat) : State :=
  if code = 0 then s
  else
    let s1 := s.setFlag (R.fdbkStat_SIGNAL n) true
    if fbState s n = 3 then s1 else s1.raise 130 n (wd code)

/-- A difference of cycles wrapped into [−1/2, 1/2). -/
def wrapHalf (q : Rat) : Rat := q - ((q + 1 / 2).floor : Rat)

/-- The resolver sample, once both channels' integrals of the window [t0, t1) are there (R228, R234). -/
def fbResolver (s : State) (n : Nat) (t0 t1 : Tick) (si co : Rat × Rat) : State :=
  let len : Rat := ((max 1 (t1 - t0).toNat : Nat) : Rat)
  let bad := dfBad s n
  let amp := Config.sqrt (si.1 * si.1 + co.1 * co.1) / len
  let q := Config.sqrt (si.2 * si.2 + co.2 * co.2) / len
  let ang := Config.atan2 si.1 co.1
  let x := s.fb n
  let d := match x.p with
    | some p => wrapHalf (ang - p)
    | none => 0
  let p := match x.p with
    | some p => p + d
    | none => ang
  let code := signalCode s n amp bad
  let s1 := ((s.setFld (R.fdbkStat_AMP n) (frac16 amp)).setFld (R.fdbkRph_QAMP n) (frac16 q)).setFb n { x with sine := none, cosine := none }
  fbPost (signalTell s1 n code) n t1 p (d / len) (len / 2 + fbDly s n) (code != 0)

/-- The sin/cos sample, once both point samples are there (R228, R234): the two equations of R228 for POS and v are solved together. -/
def fbSinCos (s : State) (n : Nat) (t0 t1 : Tick) : State :=
  let ts : Rat := ((max 1 (t1 - t0).toNat : Nat) : Rat)
  let ws := s.reg (R.sensePoint (dfCh n 0))
  let wc := s.reg (R.sensePoint (dfCh n 1))
  let bad := dfBad s n || f32IsNaN ws || f32IsNaN wc
  let amp := Config.sqrt (ratOf ws * ratOf ws + ratOf wc * ratOf wc)
  let a0 := Config.atan2 (ratOf ws) (ratOf wc)
  let phi := a0 - (a0.floor : Rat)
  let qf : Int := (phi * 4).floor
  let x := s.fb n
  let dq := (qf - x.nAt) % 4
  let a : Int := if dq = 1 then 1 else if dq = 3 then -1 else 0
  let p : Rat := ((x.nAt + a - qf : Int) : Rat) / 4 + phi
  let g : Rat := fbDly s n - ((s.chS (dfCh n 0)).pointOfs : Rat)
  let before := posRat (s.reg64 (R.fdbkPosLo n))
  let v : Rat := match x.p with
    | some _ => if ts = g then 0 else (p - before) / (ts - g)
    | none => 0
  let code := signalCode s n amp bad
  let mis := dq == 2 && !bad
  let s1 := (s.setFld (R.fdbkStat_AMP n) (frac16 amp)).setFb n { x with sine := none, cosine := none }
  let s2 := if a ≠ 0 ∧ !bad then s1.cntSat (R.fdbkCnt_ADJS n) else s1
  let s3 := if mis then (let u := s2.setFlag (R.fdbkStat_MISMATCH n) true; if fbState s n = 3 then u else u.raise 132 n (wd 2)) else s2
  fbPost (signalTell s3 n code) n t1 p v g (code != 0 || mis || x.ill)

/-- What a channel of mode 2 or 3 takes from the window post of one of its two sensing channels. -/
def fbSense (s : State) (p : SensePost) (bits : List (Tick × Bool)) : State :=
  let n := (p.ch - 96) / 2
  let m := fbMode s n
  if p.ch < 96 ∨ p.b ∨ !s.flag (R.fdbkCfg_EN n) ∨ !(m == 2 || m == 3) then s
  else
    let x := s.fb n
    let r := if m = 3 then demod s n p (chanTm s p.ch) bits else (0, 0)
    let x1 := if p.ch % 2 = 0 then { x with sine := some r } else { x with cosine := some r }
    let s1 := s.setFb n x1
    match x1.sine, x1.cosine with
    | some si, some co => if m = 3 then fbResolver s1 n p.t0 p.t1 si co else fbSinCos s1 n p.t0 p.t1
    | _, _ => s1

/-- The front end posts the oldest closed window of a channel (R160); a feedback channel it belongs to takes its part (R225). -/
def senseResultPost (s : State) (c : Nat) (bits : List (Tick × Bool)) (t : Tick) : State :=
  match s.sense.posts.find? (fun p => p.ch == c) with
  | none => s
  | some p => fbSense (sensePostRes s c bits t) p bits

def execSenseResultPost (c : Fin 128) (bits : List (Tick × Bool)) (t : Tick) (s : State) : Host.Outcome State Fault Refusal :=
  .next (senseResultPost s c.val bits t)

/-- The feedback channels of a group at its boundary: those of modes 0 and 1 post, those of mode 2 hold their count (R226 to R234). -/
def fdbkBoundary (s : State) (g : Nat) (t : Tick) (ts : Nat) : State :=
  (List.range 16).foldl (fun u n =>
    if !u.flag (R.fdbkCfg_EN n) || fbGrp u n != g || fbState u n == 0 then u
    else match fbMode u n with
      | 0 => fbInc u n t
      | 1 => fbSsi u n t ts
      | _ => u.setFb n { u.fb n with nAt := (u.fb n).n, sine := none, cosine := none }) s

/-! ### Quadrature edges and the Z line (R229, R230) -/

/-- Place of a pair of levels in the cycle A leads B: 00, 10, 11, 01. -/
def quadPos (a b : Bool) : Nat := match a, b with
  | false, false => 0
  | true, false => 1
  | true, true => 2
  | false, true => 3

/-- One quadrature step between two pairs of levels: 0 none, 1 up, 3 down, 2 an illegal transition (R229). -/
def quadStep (a b a1 b1 : Bool) : Nat := (quadPos a1 b1 + 4 - quadPos a b) % 4

/-- The lines of a channel of mode 0 or 2 stand at new levels, after the channel's filter, from instant `t` on (R229). -/
def encEdge (s : State) (n : Nat) (a b : Bool) (t : Tick) : State :=
  let x := s.fb n
  let d := quadStep x.a x.b a b
  let s0 := s.setFb n { x with a := a, b := b }
  if !s.flag (R.fdbkCfg_EN n) || !(fbMode s n == 0 || fbMode s n == 2) || d == 0 then s0
  else if d = 2 then
    let s1 := ((s0.setFb n { s0.fb n with ill := true, cond := true }).cntSat (R.fdbkCnt_ILLEGALS n)).setFlag (R.fdbkStat_ILLEGAL n) true
    fbInvalid (s1.raiseLim 128 n (wd (s1.fld (R.fdbkCnt_ILLEGALS n))) (100 * msTicks)) n
  else
    let up := (d == 1) != s.flag (R.fdbkCfg_DIR n)
    let fast := x.had && decide ((t - x.tE).toNat < 800)
    let s1 := s0.setFb n { s0.fb n with n := if up then x.n + 1 else x.n - 1, tE := t, edge := true, had := true }
    if fast then (s1.setFlag (R.fdbkStat_OVERSPEED n) true).raiseLim 129 n 0#32 (100 * msTicks) else s1

/-- Husk's own counter of FB0 to FB7 (R237): nothing in `FDBK.CFG` changes what it counts. An illegal transition counts nothing; the fault it is to
Husk is HUSK_COUNTER_FAULT (R342). -/
def huskEdge (s : State) (n : Nat) (a b : Bool) : State :=
  let h := s.safe.husk
  if 8 ≤ n then s
  else
    let d := quadStep (nth h.encA n false) (nth h.encB n false) a b
    let c := nth h.n n 0
    s.withSafe { s.safe with husk := { h with encA := setAt h.encA n a, encB := setAt h.encB n b, n := setAt h.n n (if d = 1 then c + 1 else if d = 3 then c - 1 else c) } }

/-- A and B of a channel take levels: Husk's counter follows the lines (R237), the core's ignores a pulse shorter than FILT (R229). -/
def execEncoderEdge (n : Fin 16) (a b : Bool) (edge : LineEdge) (s : State) : Host.Outcome State Fault Refusal :=
  .next (let s1 := huskEdge (s.at edge.t) n.val a b
         if edge.w < s.fld (R.fdbkCfg_FILT n.val) then s1 else encEdge s1 n.val a b edge.t)

/-- A Z edge at instant `t`: it qualifies while A and B are at the levels of ZGATE (R230). -/
def zEdge (s : State) (n : Nat) (t : Tick) : State :=
  let x := s.fb n
  let zm := s.fld (R.fdbkCfg_ZMODE n)
  let gate := s.fld (R.fdbkCfg_ZGATE n) == b2n x.a * 2 + b2n x.b
  if !s.flag (R.fdbkCfg_EN n) || !gate || !(zm == 2 || (zm == 1 && x.zarm)) then s
  else
    let s1 := s.setFb n { x with zarm := false, zseq := x.zseq + 1, zt := t }
    let s2 := ((s1.setReg (R.fdbkZcnt n) (wdInt x.n)).setReg (R.fdbkZdt n) (lo32 t)).setFlag (R.fdbkStat_ZSEEN n) true
    s2.raise 134 n (wd (bitsOf (wdInt x.n) 0 16))

/-- A pulse of Z begins; one shorter than FILT is ignored (R229). -/
def execZEdge (n : Fin 16) (edge : LineEdge) (s : State) : Host.Outcome State Fault Refusal :=
  .next (if edge.w < s.fld (R.fdbkCfg_FILT n.val) then s else zEdge (s.at edge.t) n.val edge.t)

/-- t_L of the transfer for a boundary (R231). -/
def ssiStart (s : State) (n : Nat) (tk_ : Tick) : Tick := tk_ - tk (s.fld (R.fdbkSsit_LEAD n) * twoNs)

/-- Clock period Tck in edge ticks, and the bits NB a transfer clocks (R231). -/
def ssiTck (s : State) (n : Nat) : Nat := s.fld (R.fdbkSsi_CKDIV n) * 64
def ssiNb (s : State) (n : Nat) : Nat := s.fld (R.fdbkSsi_NBITS n) + if s.fld (R.fdbkSsi_PAR n) = 0 then 0 else 1

/-- The instant at which bit `i` is sampled: rising edge `i` of FBn_CK plus RTD; bit NB is the trailing check (R231). DEDUCED (log entry 79): the clock
has equal halves. -/
def ssiSample (s : State) (n : Nat) (tk_ : Tick) (i : Nat) : Tick :=
  ssiStart s n tk_ + tk (i * ssiTck s n + ssiTck s n / 2 + s.fld (R.fdbkSsit_RTD n))

/-- A transfer for the boundary at `tk_` clocks now, and FBn_CK is low. -/
def ssiLow (s : State) (n : Nat) (tk_ : Tick) : Bool :=
  let x := (s.dt - ssiStart s n tk_).toInt
  let c : Int := ssiTck s n
  decide (0 ≤ x) && decide (x < ((ssiNb s n + 1 : Nat) : Int) * c) && decide (x % c < c / 2)

/-- The level of FBn_CK: it idles high (R231). -/
def ckPin (s : State) (n : Nat) : Bool :=
  let g := s.grp (fbGrp s n)
  !(s.flag (R.fdbkCfg_EN n) && fbMode s n == 1 && ssiFits s n (frameRun s (fbGrp s n))
    && ((match g.next with | some (t, _) => ssiLow s n t | none => false) || (!g.first && ssiLow s n g.bndAt)))

/-- The level of a line at an instant, by its level before and its changes, oldest first. -/
def lineAt (idle : Bool) (l : List (Tick × Bool)) (t : Tick) : Bool := l.foldl (fun b e => if e.1 ≤ t then e.2 else b) idle

/-- The SSI transfer for the next boundary of the channel's group, by the level of FBn_A before it and its changes over it: its level before
t_L, the word's bits, most significant first, with the parity bit, and the trailing check (R231, R232). -/
def ssiTransfer (s : State) (n : Nat) (idle : Bool) (line : List (Tick × Bool)) : State :=
  let nb := s.fld (R.fdbkSsi_NBITS n)
  let par := s.fld (R.fdbkSsi_PAR n)
  match (s.grp (fbGrp s n)).next with
  | none => s
  | some (t, _) =>
    let bit (i : Nat) : Bool := lineAt idle line (ssiSample s n t i)
    let w := (List.range nb).foldl (fun a i => a * 2 + b2n (bit i)) 0
    let odd := ((List.range (ssiNb s n)).filter bit).length % 2 == 1
    let code := if !lineAt idle line (ssiStart s n t - 1) then 1 else if bit (ssiNb s n) then 2
      else if (par = 1 ∧ odd) ∨ (par = 2 ∧ !odd) then 3 else 0
    if !s.flag (R.fdbkCfg_EN n) || fbMode s n != 1 || !tbValid s then s
    else s.setFb n { s.fb n with ssi := some (code, w) }

/-- FBn_A changes while the word is clocked (`word`), and up to the trailing check after it (`trail`). -/
def execSsiTransfer (n : Fin 16) (idle : Bool) (word trail : List (Tick × Bool)) (s : State) : Host.Outcome State Fault Refusal :=
  .next (ssiTransfer s n.val idle (word ++ trail))

/-! ### Register writes of the feedback channels (R227, R245) -/

/-- A committed context uses a feedback channel (R227). -/
def fbUsed (s : State) (n : Nat) : Bool :=
  s.slots.any (fun k =>
    let c := s.ctx k
    let w := c.bind
    c.committed && (match c.kind with
      | 6 => bCmp w == n
      | 7 => bPos w == .fb n
      | 8 => bPos w == .fb n
      | 9 => bMaster w == .pos (.fb n)
      | 10 => bMaster w == .pos (.fb n) || bMod w == .pos (.fb n)
      | 12 => let f := fpIn (bw w 0); f.kind == 2 && !f.obs && f.src == n
      | 13 => [0, 1].any (fun i => let f := fpIn (bw w i); f.kind == 2 && !f.obs && f.src == n)
      | 11 => false
      | _ => bAng c.kind w == .fb n))

/-- The transfer of an SSI setting ends too late after T(k) (R231). -/
def ssiLate (ssi ssit : Word) : Bool :=
  let nb := bitsOf ssi 16 6 + (if bitsOf ssi 14 2 = 0 then 0 else 1)
  decide (21600 + bitsOf ssit 16 16 * twoNs < (nb + 1) * bitsOf ssi 24 8 * 64 + bitsOf ssit 0 16)

/-- A write of `FDBK.CFG[n]` (R225, R227, R235). -/
def fbCfgWrite (s : State) (n : Nat) (w : Word) : Res :=
  let a := R.fdbkCfg n
  let v := written s a w
  let mode := bitsOf v 28 3
  let grp := bitsOf v 25 3
  let angle := mode = 2 ∨ mode = 3
  let taken (c : Nat) : Bool := s.flag (R.senseBind_A_EN c) && s.fld (R.senseBind_A_GRP c) != grp
    && !(fbGroup s c == [s.fld (R.senseBind_A_GRP c)] && (chanWindings s c).isEmpty)
  if 4 ≤ mode ∨ bitsOf v 18 2 = 3 then refuse s stBAD_PARAM
  else if fbUsed s n then refuse s stREFUSED_STATE
  else if bitOf v 31 ∧ angle ∧ (taken (dfCh n 0) ∨ taken (dfCh n 1)) then refuse s stBAD_PARAM
  else
    let was := s.flag (R.fdbkCfg_EN n)
    let s1 := (plainNow s a w).st
    let s2 := senseRebind (senseRebind s1 (dfCh n 0)) (dfCh n 1)
    let x := s2.fb n
    { st := if bitOf v 31 ∧ !was then fbSettle (s2.setFb n { x with tE := s2.dt, tPrev := s2.dt, nPrev := x.n, edge := false, had := false, p := none, v := 0, errs := 0, ssi := none }) n
            else if !bitOf v 31 ∧ was then fbSet s2 n 0 else s2 }

/-- CLR takes an INVALID channel to SETTLING unless its cause is still present (R235). -/
def fbClr (s : State) (n : Nat) : Res :=
  if fbState s n ≠ 3 then { st := s }
  else if (s.fb n).cond then refuse s stREFUSED_STATE
  else { st := fbSettle s n }

/-- ZARM arms a once-only Z capture (R230). -/
def fbZarm (s : State) (n : Nat) : State := if s.fld (R.fdbkCfg_ZMODE n) = 1 then s.setFb n { s.fb n with zarm := true } else s

/-- A write of `FDBK.CTRL[n]`. -/
def fbCtrlWrite (s : State) (n : Nat) (w : Word) : Res :=
  let x := if bitOf w 31 then fbClr s n else { st := s }
  if stRefused x.status then x else if bitOf w 30 then { x with st := fbZarm x.st n } else x

def execFdbkClr (n : Fin 16) (s : State) : Host.Outcome State Fault Refusal := .next (regRowWrite s (R.fdbkCtrl n.val) (fbCtrlWrite s n.val 0x80000000#32))
def execFdbkZarm (n : Fin 16) (s : State) : Host.Outcome State Fault Refusal := .next (regRowWrite s (R.fdbkCtrl n.val) (fbCtrlWrite s n.val 0x40000000#32))

/-- A write of `FDBK.EXC[e]` (R233): the frequency in force must lie between 2 kHz and 20 kHz. -/
def excWrite (s : State) (e : Nat) (w : Word) : Res :=
  let a := R.fdbkExc e
  let v := written s a w
  let mul := bitsOf v 24 3
  let f := frameWritten s (bitsOf v 27 3)
  let bad := if bitOf v 30 then decide (f ≠ 0) && (decide (f < 800000 * mul) || decide (8000000 * mul < f))
    else outNat 25000 250000 (bitsOf v 0 18)
  if mul = 0 ∨ bad then refuse s stBAD_PARAM
  else if (List.range 16).any (fun n => fbMode s n == 3 && s.fld (R.fdbkCfg_EXCSEL n) == e && fbUsed s n) then refuse s stREFUSED_STATE
  else
    let x := plainNow s a w
    if bitOf v 31 ∧ !s.flag (R.fdbkExc_EN e) then { x with st := x.st.withFdbk { x.st.fdbk with exc := tblPut x.st.fdbk.exc e s.dt 0 } } else x

/-- The level of an excitation output: low while disabled, else its 50 % square wave (R233). -/
def excPin (s : State) (e : Nat) : Bool :=
  if !s.flag (R.fdbkExc_EN e) then false
  else if s.flag (R.fdbkExc_LOCK e) then
    let g := s.grp (s.fld (R.fdbkExc_GRP e))
    let len := if g.du then g.len / 2 else g.len
    let m := s.fld (R.fdbkExc_MUL e)
    let x := (s.dt - g.bndAt).toNat
    (List.range m).any (fun i =>
      let r := i * len / m
      let r1 := (i + 1) * len / m
      decide (r ≤ x) && decide (x < (r + r1) / 2))
  else
    let per := s.fld (R.fdbkExc_FREE_PER e) * twoNs
    decide ((s.dt - tblGet s.fdbk.exc e 0).toNat % max per 1 < per / 2)

/-! ### Latch units (R238 to R243) -/

/-- Filter time of a field input by its FILT code (R365). -/
def fioFilt (c : Nat) : Nat :=
  match c with
  | 0 => 25 * usTicks | 1 => 100 * usTicks | 2 => 500 * usTicks | 3 => msTicks | 4 => 3 * msTicks | 5 => 10 * msTicks | _ => 20 * msTicks

/-- The path delay the device subtracts from an edge's timestamp (R238, R365). -/
def latchPath (s : State) (u : Nat) : Nat :=
  match s.fld (R.latchCfg_SRCK u) with
  | 0 => 40000 + fioFilt (s.fld (R.fieldCfg_FILT (s.fld (R.latchCfg_SRC u) % 32)))
  | 1 => s.fld (R.latchCfg_FILT u) * twoNs + 96
  | _ => 0

/-- The source code of position `i` of a unit: none where it has none; INDEX 0 to 15 of kind 1 is a feedback channel. -/
def latchSrc (s : State) (u i : Nat) : Option Nat :=
  let w := s.reg (if i < 2 then R.latchPsrc01 u else R.latchPsrc23 u)
  let k := if i % 2 = 0 then bitsOf w 30 2 else bitsOf w 14 2
  let x := if i % 2 = 0 then bitsOf w 16 8 else bitsOf w 0 8
  if s.fld (R.latchCfg_NPOS u) ≤ i then none
  else match k with
    | 1 => some (if x < 16 then srcFb x else srcObs x)
    | 2 => some (srcAct x)
    | 3 => some (srcCmd x)
    | _ => none

/-- A source that exists: one that was deleted posts no valid sample (R40). -/
def latchSrcLive (s : State) (src : Nat) : Bool :=
  let k := (s.ctx (src % 0x100)).kind
  match src / 0x100 with
  | 0 => true
  | 1 => k == 6
  | _ => k == 7 || k == 8

/-- A unit captures an instant: it waits for its samples; a ninth waiting capture is lost (R239, R240). -/
def latchCapture (s : State) (u : Nat) (t : Tick) : State :=
  let x := s.lu u
  if 8 ≤ x.waits.length then s.raise 147 u 1#32
  else
    let s1 := s.setLu u { x with waits := x.waits ++ [t], lastCap := some t }
    let s2 := s1.setFlag (R.latchStat_PEND u) true
    if s.fld (R.latchCfg_MODE u) = 0 then s2.setFlag (R.latchStat_ARMED u) false else s2

/-- The window of a unit; both ends 0 is open (R239). -/
def latchOpen (s : State) (u : Nat) : Bool := s.reg64 (R.latchWstartLo u) == 0 && s.reg64 (R.latchWendLo u) == 0

/-- A latch instant at a unit (R239): any edge inside CHAT of the last capture is chatter; one of the selected kind (`sel`) is captured where it
qualifies. -/
def latchInstant (s : State) (u : Nat) (sel : Bool) (t : Tick) : State :=
  let chat := match (s.lu u).lastCap with
    | some c => decide (c ≤ t) && decide ((t - c).toNat < s.fld (R.latchDly_CHAT u) * usTicks)
    | none => false
  if !s.flag (R.latchCfg_EN u) then s
  else if chat then
    let s1 := s.cntSat (R.latchStat_CHATTERS u)
    s1.raiseLim 145 u (wd (s1.fld (R.latchStat_CHATTERS u))) (100 * msTicks)
  else if sel && s.flag (R.latchStat_ARMED u) && (latchOpen s u || (decide (s.reg64 (R.latchWstartLo u) ≤ t) && decide (t < s.reg64 (R.latchWendLo u)))) then
    latchCapture s u t
  else s

/-- EDGE of a unit selects an edge. -/
def latchSel (s : State) (u : Nat) (rising : Bool) : Bool :=
  let e := s.fld (R.latchCfg_EDGE u)
  e == 3 || e == (if rising then 1 else 2)

/-- An edge with timestamp `ts` at a unit whose source it is: the path delay and LDLY are subtracted (R238). -/
def latchEdge (s : State) (u : Nat) (rising : Bool) (ts : Tick) : State :=
  latchInstant s u (latchSel s u rising) (ts - tk (latchPath s u) - tk (s.fld (R.latchDly_LDLY u)))

/-- The units that take an edge of source `i` of a kind: 0 field inputs, 1 latch pins (R238). -/
def latchUnits (s : State) (k i : Nat) : List Nat := (List.range 64).filter (fun u => s.fld (R.latchCfg_SRCK u) == k && s.fld (R.latchCfg_SRC u) == i)

/-- An edge of a source reaches every unit that takes it, each independently (R238, R243). -/
def latchFrom (s : State) (k i : Nat) (rising : Bool) (ts : Tick) : State := (latchUnits s k i).foldl (fun t u => latchEdge t u rising ts) s

/-- A latch pin takes a level for `w` × 2 ns: the units on it whose FILT is not longer take the edge (R238). -/
def latchPin (s : State) (pin : Nat) (rising : Bool) (ts : Tick) (w : Nat) : State :=
  ((latchUnits s 1 pin).filter (fun u => decide (s.fld (R.latchCfg_FILT u) ≤ w))).foldl (fun t u => latchEdge t u rising ts) s

def execLatchEdge (pin : Fin 8) (rising : Bool) (edge : LineEdge) (s : State) : Host.Outcome State Fault Refusal :=
  .next (latchPin (s.at edge.t) pin.val rising edge.t edge.w)

/-- A time compare captures once at WSTART (R239). -/
def latchTime (s : State) (u : Nat) : State :=
  let t := s.reg64 (R.latchWstartLo u)
  if !s.flag (R.latchCfg_EN u) || !s.flag (R.latchStat_ARMED u) || s.fld (R.latchCfg_SRCK u) != 2 || decide (t < s.dt) then s
  else latchCapture (s.at t) u t

def execLatchTimeCompare (u : Fin 64) (s : State) : Host.Outcome State Fault Refusal := .next (latchTime s u.val)

/-- A single-mode unit with a closed window reaches WEND without a capture (R239). -/
def latchEnd (s : State) (u : Nat) : State :=
  if !s.flag (R.latchStat_ARMED u) || s.fld (R.latchCfg_MODE u) != 0 || latchOpen s u then s
  else ((s.at (s.reg64 (R.latchWendLo u))).setFlag (R.latchStat_ARMED u) false).raise 146 u 0#32

def execLatchWindowEnd (u : Fin 64) (s : State) : Host.Outcome State Fault Refusal := .next (latchEnd s u.val)

/-- Every source a unit names has posted its sample beyond an instant (R240). -/
def latchReady (s : State) (u : Nat) (t : Tick) : Bool :=
  (List.range 4).all (fun i => match latchSrc s u i with
    | some src => !latchSrcLive s src || histBeyond s src t
    | none => true)

/-- The oldest waiting capture of a unit completes: instant, positions, PVALID, COUNT (R240). -/
def latchComplete (s : State) (u : Nat) : State :=
  match (s.lu u).waits with
  | [] => s
  | t :: rest =>
    if !latchReady s u t then s
    else
      let s1 := (s.setLu u { s.lu u with waits := rest }).setReg64 (R.latchRdtLo u) t
      let r := (List.range 4).foldl (fun (acc : State × Nat) i =>
        let p := match latchSrc s u i with
          | some src => if latchSrcLive s src then histAt s src t else none
          | none => none
        (acc.1.setReg64 (R.latchRposLo u i) (p.getD 0), if p.isSome then acc.2 + 2 ^ i else acc.2)) (s1, 0)
      let s2 := ((r.1.setFld (R.latchStat_PVALID u) r.2).cntWrap (R.latchStat_COUNT u)).setFlag (R.latchStat_PEND u) (!rest.isEmpty)
      let c := wd (s2.fld (R.latchStat_COUNT u))
      if s.fld (R.latchCfg_MODE u) = 1 then s2.raiseLim 144 u c msTicks else s2.raise 144 u c

def execLatchCaptureComplete (u : Fin 64) (s : State) : Host.Outcome State Fault Refusal := .next (latchComplete s u.val)

/-- A write of `LATCH.CTRL[u]` (R239, R242). -/
def latchCtrlWrite (s : State) (u : Nat) (w : Word) : Res :=
  if s.flag (R.latchStat_OWNED u) ∧ (bitOf w 31 ∨ bitOf w 30) then refuse s stBUSY_TARGET
  else if bitOf w 31 ∧ !s.flag (R.latchCfg_EN u) then refuse s stREFUSED_STATE
  else
    let s1 := if bitOf w 31 then s.setFlag (R.latchStat_ARMED u) true else s
    { st := if bitOf w 30 then s1.setFlag (R.latchStat_ARMED u) false else s1 }

def execLatchArm (u : Fin 64) (s : State) : Host.Outcome State Fault Refusal := .next (regRowWrite s (R.latchCtrl u.val) (latchCtrlWrite s u.val 0x80000000#32))
def execLatchDisarm (u : Fin 64) (s : State) : Host.Outcome State Fault Refusal := .next (regRowWrite s (R.latchCtrl u.val) (latchCtrlWrite s u.val 0x40000000#32))

/-- A write of a register of a latch unit (R242, R245). -/
def latchRegWrite (s : State) (u o : Nat) (w : Word) : Option Res :=
  let a := R.latchCfg u + o
  if o = 0x20 then some (latchCtrlWrite s u w)
  else if 0x1C < o then none
  else
    let bad := o == 0 && (decide (2 ≤ bitsOf w 29 2) || bitsOf w 27 2 == 0 || decide (4 ≤ bitsOf w 24 3) || decide (4 < bitsOf w 13 3)
      || (bitsOf w 24 3 == 2 && bitsOf w 29 2 == 1))
    some (if bad then refuse s stBAD_PARAM else if s.flag (R.latchStat_OWNED u) then refuse s stBUSY_TARGET else plainNow s a w)

/-- A write of a register of the FDBK and LATCH block; none where the access codes alone decide. -/
def fdbkBlockWrite (s : State) (a : Nat) (w : Word) : Option Res :=
  if 0x0B1000 ≤ a then latchRegWrite s ((a - 0x0B1000) / 0x80) ((a - 0x0B1000) % 0x80) w
  else if 0x0B0400 ≤ a then some (excWrite s ((a - 0x0B0400) / 4) w)
  else
    let n := (a - 0x0B0000) / 0x40
    let v := written s a w
    match a % 0x40 with
    | 0x00 => some (fbCfgWrite s n w)
    | 0x04 => some (if v = 0#32 then refuse s stBAD_PARAM else if fbUsed s n then refuse s stREFUSED_STATE else plainNow s a w)
    | 0x08 => some (checked s (decide (64000 < bitsOf v 0 16)) stBAD_PARAM (writeShadow s a 0xFFFF#32 w (fbGrp s n) false))
    | 0x0C => some (if outNat 25 250 (bitsOf v 24 8) || outNat 8 40 (bitsOf v 16 6) || bitsOf v 14 2 == 3 || bitsOf v 0 8 == 0
                      || ssiLate v (s.reg (R.fdbkSsit n)) then refuse s stBAD_PARAM
                    else if fbUsed s n then refuse s stREFUSED_STATE else plainNow s a w)
    | 0x10 => some (checked s (ssiLate (s.reg (R.fdbkSsi n)) v) stBAD_PARAM (plainNow s a w))
    | 0x14 => some (writeShadow s a 0xFFFFFFFF#32 w (fbGrp s n) false)
    | 0x18 => some (writeShadow s a 0xFFF#32 w (fbGrp s n) false)
    | 0x1C => some (fbCtrlWrite s n w)
    | _ => none

/-- The FDBK node is gated: every channel is OFF; ungated, enabled channels settle (R235). -/
def fdbkGate (s : State) (on : Bool) : State :=
  (List.range 16).foldl (fun u n => if !on then (if fbState u n = 0 then u else fbSet u n 0)
    else if u.flag (R.fdbkCfg_EN n) ∧ fbState u n = 0 then fbSettle u n else u) s

end Sys2Proof.Machine
end

