-- ==== Sys2Proof/Machine/Maths.lean ====
section
/-! DEFINITION. Arithmetic the control chapters share: binary32 operations, vectors, angles, filters, profile ramps and their
plans (R203, R251, R253 to R256, R307). Exact rationals stand where the spec names no rounding; `Config` gives what an implementation
rounds. -/

namespace Sys2Proof.Machine

open Sys2Proof

/-! ### binary32 operations, each rounded once to nearest -/

def fAdd (a b : Word) : Word := f32 (ratOf a + ratOf b)
def fSub (a b : Word) : Word := f32 (ratOf a - ratOf b)
def fMul (a b : Word) : Word := f32 (ratOf a * ratOf b)
def fDiv (a b : Word) : Word := if ratOf b = 0 then f32NaN else f32 (ratOf a / ratOf b)

/-- Fused multiply-add. -/
def fMa (a b c : Word) : Word := f32 (ratOf a * ratOf b + ratOf c)

/-- A controller value kept in binary32 where the spec does not say how it is rounded. -/
def rnd (q : Rat) : Word := Config.round32 q

/-! ### Vectors and angles -/

/-- A pair of rationals. -/
abbrev V2 := Rat × Rat

def v2Of (w : Word × Word) : V2 := (ratOf w.1, ratOf w.2)
def v2W (v : V2) : Word × Word := (rnd v.1, rnd v.2)
def v2Add (a b : V2) : V2 := (a.1 + b.1, a.2 + b.2)
def v2Sub (a b : V2) : V2 := (a.1 - b.1, a.2 - b.2)
def v2Scale (k : Rat) (a : V2) : V2 := (k * a.1, k * a.2)
def v2Mag (a : V2) : Rat := Config.sqrt (a.1 * a.1 + a.2 * a.2)

/-- A vector turned by an angle in turns. -/
def v2Rot (turns : Rat) (a : V2) : V2 :=
  let c := Config.cos turns
  let s := Config.sin turns
  (a.1 * c - a.2 * s, a.1 * s + a.2 * c)

/-- The amplitude-invariant Clarke transform of three phase values (R203). -/
def clarke (a b c : Rat) : V2 := ((2 * a - b - c) / 3, (b - c) / Config.sqrt 3)

/-- Its inverse. -/
def phases (v : V2) : Rat × Rat × Rat :=
  let h := Config.sqrt 3 / 2
  (v.1, -(v.1 / 2) + h * v.2, -(v.1 / 2) - h * v.2)

/-- Radians of turns, and turns of radians. -/
def radOf (turns : Rat) : Rat := 2 * Config.pi * turns
def turnsOf (rad : Rat) : Rat := rad / (2 * Config.pi)

/-- The fraction of a rational in [0, 1). -/
def fracR (q : Rat) : Rat := q - (q.floor : Rat)

/-! ### Second-order sections -/

/-- Coefficients b0, b1, b2, a1, a2 of a section. -/
structure Biquad where
  b0 : Rat
  b1 : Rat
  b2 : Rat
  a1 : Rat
  a2 : Rat

/-- tan of an angle in turns. -/
def tanT (turns : Rat) : Rat := Config.sin turns / Config.cos turns

/-- The notch of R251 by the bilinear transform prewarped at its frequency. -/
def notchOf (f bw g tp : Rat) : Biquad :=
  let k := tanT (f * tp / 2)
  let z := bw / (2 * f)
  let n := 1 + 2 * z * k + k * k
  { b0 := (1 + 2 * g * z * k + k * k) / n, b1 := 2 * (k * k - 1) / n, b2 := (1 - 2 * g * z * k + k * k) / n,
    a1 := 2 * (k * k - 1) / n, a2 := (1 - 2 * z * k + k * k) / n }

/-- The first-order low-pass of R251 by the same transform. -/
def lowpassOf (f tp : Rat) : Biquad :=
  let k := tanT (f * tp / 2)
  { b0 := k / (1 + k), b1 := k / (1 + k), b2 := 0, a1 := (k - 1) / (1 + k), a2 := 0 }

/-- A section on one input with state (x1, x2, y1, y2): its output and its new state. -/
def biquadRun (q : Biquad) (st : List Word) (x : Rat) : Rat × List Word :=
  let x1 := ratOf (nth st 0 0#32)
  let x2 := ratOf (nth st 1 0#32)
  let y1 := ratOf (nth st 2 0#32)
  let y2 := ratOf (nth st 3 0#32)
  let y := q.b0 * x + q.b1 * x1 + q.b2 * x2 - q.a1 * y1 - q.a2 * y2
  (y, [rnd x, nth st 0 0#32, rnd y, nth st 2 0#32])

/-! ### Profiles (R254 to R256) -/

/-- A phase of a plan: its duration in seconds, the acceleration it starts with and its jerk. -/
structure PlanPhase where
  t : Rat
  a : Rat
  j : Rat

/-- Limits of a plan: speed, acceleration, deceleration, jerk (0: none). -/
structure Lim where
  v : Rat
  a : Rat
  d : Rat
  j : Rat

/-- An acceleration taken to another by one jerk segment (R255). -/
def jerkTo (a b j : Rat) : List PlanPhase := if a = b then [] else [{ t := absR (b - a) / j, a := a, j := if a < b then j else -j }]

/-- A rise of the velocity by `dv`, from acceleration `a` to none, within acceleration `acc` and jerk `j` (R255), or without jerk limit
where `j` is 0 (R254). From a moving state one jerk segment takes `a` to the acceleration that is held. -/
def risePhases (dv a acc j : Rat) : List PlanPhase :=
  if acc ≤ 0 then []
  else if j ≤ 0 then (if dv ≤ 0 then [] else [{ t := dv / acc, a := acc, j := 0 }])
  else if 2 * j * dv = a * absR a then jerkTo a 0 j
  else
    let q := j * dv + a * a / 2
    if q ≤ acc * acc then
      let ap := if q ≤ 0 then 0 else Config.sqrt q
      jerkTo a ap j ++ jerkTo ap 0 j
    else
      let hold := if acc < a then dv - a * a / (2 * j) else dv + a * a / (2 * j) - acc * acc / j
      jerkTo a acc j ++ (if hold ≤ 0 then [] else [{ t := hold / acc, a := acc, j := 0 }]) ++ jerkTo acc 0 j

/-- The same phases in the other sense. -/
def flipPhases (l : List PlanPhase) : List PlanPhase := l.map (fun p => { t := p.t, a := -p.a, j := -p.j })

/-- The speed that is left when an acceleration is taken to zero at once. -/
def settled (v a j : Rat) : Rat := if j ≤ 0 then v else v + a * absR a / (2 * j)

/-- A change of speed from `v` with acceleration `a` to `w` with none (R255): `up` limits a rise, `dn` a fall. -/
def changeSpeed (v a w up dn j : Rat) : List PlanPhase :=
  if settled v a j ≤ w then risePhases (w - v) a up j else flipPhases (risePhases (v - w) (-a) dn j)

/-- A rise and a fall by `dv` from zero acceleration to zero acceleration. -/
def rampUp (dv acc j : Rat) : List PlanPhase := risePhases dv 0 acc j
def rampDown (dv acc j : Rat) : List PlanPhase := flipPhases (rampUp dv acc j)

/-- How long such a change takes (R255). -/
def rampTime (dv acc j : Rat) : Rat := ((rampUp dv acc j).map (·.t)).foldl (· + ·) 0

/-- The distance of a change between two speeds. -/
def rampDist (v0 v1 acc j : Rat) : Rat := (v0 + v1) / 2 * rampTime (absR (v1 - v0)) acc j

/-- The distance phases cover from a speed. -/
def phasesDist (v : Rat) : List PlanPhase → Rat
  | [] => 0
  | p :: ps => v * p.t + p.a * p.t * p.t / 2 + p.j * p.t * p.t * p.t / 6 + phasesDist (v + p.a * p.t + p.j * p.t * p.t / 2) ps

/-- The largest value of [lo, hi] found by bisection for which `ok` holds, `ok lo` taken as given. -/
def bisectHi (ok : Rat → Bool) : Nat → Rat → Rat → Rat
  | 0, lo, _ => lo
  | n + 1, lo, hi => let m := (lo + hi) / 2; if ok m then bisectHi ok n m hi else bisectHi ok n lo m

/-- The smallest value of [lo, hi] found by bisection for which `ok` holds, `ok hi` taken as given. -/
def bisectLo (ok : Rat → Bool) : Nat → Rat → Rat → Rat
  | 0, _, hi => hi
  | n + 1, lo, hi => let m := (lo + hi) / 2; if ok m then bisectLo ok n lo m else bisectLo ok n m hi

/-- The distance of a move that goes from speed `v` and acceleration `a` over the peak speed `vp` to `v1`. -/
def peakNeed (l : Lim) (v a v1 vp : Rat) : Rat := phasesDist v (changeSpeed v a vp l.a l.d l.j) + rampDist vp v1 l.d l.j

/-- The peak speed of a move over `dist` from speed `v` and acceleration `a` to speed `v1` (R254, R255): the largest that still leaves
room to slow down. -/
def peakSpeed (l : Lim) (v a v1 dist : Rat) : Rat :=
  if peakNeed l v a v1 l.v ≤ dist then l.v
  else if l.j ≤ 0 ∧ v = 0 ∧ v1 = 0 then Config.sqrt (2 * dist * l.a * l.d / (l.a + l.d))
  else bisectHi (fun vp => decide (peakNeed l v a v1 vp ≤ dist)) 48 v1 l.v

/-- A move over `dist` from speed `v` and acceleration `a` to speed `v1` with none: up, cruise, down. -/
def movePhases (l : Lim) (v a v1 dist : Rat) : List PlanPhase :=
  let vp := peakSpeed l v a v1 dist
  let rest := dist - peakNeed l v a v1 vp
  changeSpeed v a vp l.a l.d l.j ++ (if 0 < vp ∧ 0 < rest then [{ t := rest / vp, a := 0, j := 0 }] else []) ++ rampDown (vp - v1) l.d l.j

/-- A stop from speed `v` ≥ 0 and acceleration `a` (R262), and its distance. -/
def stopPhases (d j v a : Rat) : List PlanPhase := changeSpeed v a 0 d d j
def stopDist (d j v a : Rat) : Rat := phasesDist v (stopPhases d j v a)

/-- What a plan from a moving state gives: its phases, whether it stops beyond the target, the raised deceleration. -/
structure Replan where
  phases : List PlanPhase
  beyond : Bool
  raised : Option Rat

/-- A plan over `dist` in the direction of travel from speed `v` ≥ 0 and acceleration `a` (R261): slow down to a lower V_MAX, go on,
or brake with the smallest sufficient deceleration up to QS_DEC, first under the jerk of the profile, then under QS_JERK, or stop beyond
the target. -/
def movingPlan (l : Lim) (qd qj v a dist : Rat) : Replan :=
  if stopDist l.d l.j v a ≤ dist then { phases := movePhases l v a 0 dist, beyond := false, raised := none }
  else if stopDist qd l.j v a ≤ dist then
    let d := bisectLo (fun d => decide (stopDist d l.j v a ≤ dist)) 48 l.d qd
    { phases := stopPhases d l.j v a, beyond := false, raised := some d }
  else if stopDist l.d qj v a ≤ dist then { phases := movePhases { l with j := qj } v a 0 dist, beyond := false, raised := some l.d }
  else if stopDist qd qj v a ≤ dist then
    let d := bisectLo (fun d => decide (stopDist d qj v a ≤ dist)) 48 l.d qd
    { phases := stopPhases d qj v a, beyond := false, raised := some d }
  else { phases := stopPhases qd qj v a, beyond := true, raised := some qd }

/-- A change of a signed velocity to another (R256): the acceleration while the speed rises, the deceleration while it falls; a change
of sign passes through zero. -/
def velPhases (l : Lim) (v a w : Rat) : List PlanPhase :=
  let flip (b : Bool) (p : List PlanPhase) : List PlanPhase := if b then flipPhases p else p
  let neg := decide (v < 0) || (v == 0 && decide (w < 0))
  let g : Rat := if neg then -1 else 1
  if (0 < v ∧ w < 0) ∨ (v < 0 ∧ 0 < w) then flip neg (stopPhases l.d l.j (absR v) (g * a)) ++ flip (!neg) (rampUp (absR w) l.a l.j)
  else flip neg (changeSpeed (absR v) (g * a) (absR w) l.a l.d l.j)

/-- Phases turned into segments from a start instant, position and velocity; `dir` is the sense of travel. The planner works in binary64
(R253): `Config.round64` stands for its roundings. -/
def segsOf (dir : Rat) (start : Tick) (x v : Rat) : List PlanPhase → List Seg
  | [] => []
  | p :: ps =>
    let t := Config.round64 p.t
    let dur := Config.planTicks (t * 16000000000)
    let x1 := Config.round64 (x + dir * (v * t + p.a * t * t / 2 + p.j * t * t * t / 6))
    let v1 := Config.round64 (v + p.a * t + p.j * t * t / 2)
    { start := start, dur := dur, x0 := posOf x, v0 := rnd (dir * v), a := rnd (dir * p.a), j := rnd (dir * p.j) }
      :: segsOf dir (start + tk dur) x1 v1 ps

/-- The segment that contains an instant (R8, R253); the last one where a velocity goes on. -/
def segAt (t : Tick) : List Seg → Option Seg
  | [] => none
  | g :: gs => if (t - g.start).toInt < (g.dur : Int) then some g else segAt t gs

/-- A segment at an instant (R253): Horner's rule in binary32, and one rounding of the position to 2^-32. -/
def segEval (g : Seg) (t : Tick) : Tick × Word × Word :=
  let tt := f32 (ticksSec (t - g.start).toNat)
  let two := 0x40000000#32
  let six := 0x40C00000#32
  let dx := fMul (fAdd (fMul (fAdd (fDiv (fMul g.j tt) six) (fDiv g.a two)) tt) g.v0) tt
  (g.x0 + posOf (ratOf dx), fAdd (fMul (fAdd (fDiv (fMul g.j tt) two) g.a) tt) g.v0, fAdd (fMul g.j tt) g.a)

/-- The end of a plan. -/
def planStop (l : List Seg) : Option Tick := l.getLast?.map (fun g => g.start + tk g.dur)

/-- An output referred to another instant (R273): binary64, one rounding to 2^-32. -/
def referTo (x : Tick) (v a : Word) (ts t : Tick) : Tick × Word × Word :=
  let dt : Rat := ((t - ts).toInt : Rat) / 16000000000
  (x + posOf (ratOf v * dt + ratOf a * dt * dt / 2), rnd (ratOf v + ratOf a * dt), a)

/-- Exact scaling with a carried remainder (R249): quotient and remainder of `d × num + rem` over `den`. -/
def scaleRem (d : Int) (num den : Word) (rem : Int) : Int × Int :=
  let m : Int := (max den.toNat 1 : Nat)
  let n := d * num.toInt + rem
  (n.fdiv m, n.fmod m)

end Sys2Proof.Machine
end

