-- ==== Sys2Proof/Machine/Store.lean ====
section
/-! DEFINITION. The map store and the cam store (R209, R210, R278, R285, R301). -/

namespace Sys2Proof.Machine

open Sys2Proof

/-! ### Maps (R206, R209) -/

/-- Word `i` of a map's slot window. -/
def mapW (s : State) (m i : Nat) : Word := tblGet s.store.map (m * 2048 + i) 0#32
def setMapW (s : State) (m i : Nat) (x : Word) : State := s.withStore { s.store with map := tblPut s.store.map (m * 2048 + i) x 0#32 }

/-- The parts of a slot window, in words. -/
def mActive : Nat := 0
def mShadow : Nat := 512
def mRef : Nat := 1024
def mShHdr : Nat := 1536
def mAcHdr : Nat := 1552
def mMtpa : Nat := 1600

/-- The value of a binary16. -/
def f16Rat (h : Nat) : Rat :=
  let e := h / 1024 % 32
  let f := h % 1024
  let m : Rat := if e = 0 then (f : Rat) * pow2 (-24) else ((1024 + f : Nat) : Rat) * pow2 ((e : Int) - 25)
  if e = 31 then 0 else if h / 32768 % 2 = 1 then -m else m

/-- Entry `32a + b` of a copy, as stored. -/
def mapHalf (s : State) (m copy n : Nat) : Nat := bitsOf (mapW s m (copy + n / 2)) (16 * (n % 2)) 16

/-- An entry given a value. -/
def setMapHalf (s : State) (m copy n h : Nat) : State := setMapW s m (copy + n / 2) (withBits (mapW s m (copy + n / 2)) (16 * (n % 2)) 16 h)

/-- An active entry as a quantity: e × SCALE. -/
def mapVal (s : State) (m n : Nat) : Rat := f16Rat (mapHalf s m mActive n) * ratOf (mapW s m (mAcHdr + 1))

/-- Grid index and fraction of an argument, clamped to the grid, and whether it lay outside (R206). -/
def gridAt (lo hi x : Rat) : Nat × Rat × Bool :=
  if hi ≤ lo then (0, 0, false)
  else
    let f := clampR 0 31 ((x - lo) * 31 / (hi - lo))
    let i := min 30 f.floor.toNat
    (i, f - (i : Rat), decide (x < lo) || decide (hi < x))

/-- The word that marks a map whose copies are exchanged while groups still wait for their boundary (R139). -/
def mBegun : Nat := 1700

/-- A group still reads the old copy of a map, which stands in the shadow until its own boundary (R139). -/
def mapOld (s : State) (g m : Nat) : Bool :=
  mapW s m mBegun == 1#32 && s.loop.pend.any (fun p => p.grp == g && p.ch == .calMap m)

/-- The entries and the header of a map as a group reads them. -/
def mapBase (s : State) (g m : Nat) : Nat := if mapOld s g m then mShadow else mActive
def mapHdr (s : State) (g m : Nat) : Nat := if mapOld s g m then mShHdr else mAcHdr

/-- The four surrounding entries of an operating point with their bilinear weights, and whether it lay outside. -/
def mapCorners (s : State) (g m : Nat) (i : V2) : List (Nat × Rat) × Bool :=
  let h := mapHdr s g m
  let a := gridAt (ratOf (mapW s m (h + 2))) (ratOf (mapW s m (h + 3))) i.1
  let b := gridAt (ratOf (mapW s m (h + 4))) (ratOf (mapW s m (h + 5))) i.2
  let n := 32 * a.1 + b.1
  ([(n, (1 - a.2.1) * (1 - b.2.1)), (n + 1, (1 - a.2.1) * b.2.1), (n + 32, a.2.1 * (1 - b.2.1)), (n + 33, a.2.1 * b.2.1)], a.2.2 || b.2.2)

/-- A map looked up at a current by a context of a group (R206); map 0xFF is none and gives 0. -/
def mapAt (s : State) (g m : Nat) (i : V2) : Rat :=
  if 64 ≤ m then 0
  else
    let v (n : Nat) : Rat := f16Rat (mapHalf s m (mapBase s g m) n) * ratOf (mapW s m (mapHdr s g m + 1))
    ((mapCorners s g m i).1.map (fun e => e.2 * v e.1)).foldl (· + ·) 0

/-- A lookup of the map lies outside its grid. -/
def mapOutside (s : State) (g m : Nat) (i : V2) : Bool := decide (m < 64) && (mapCorners s g m i).2

/-- The map is usable and of a kind. -/
def mapValid (s : State) (m : Nat) : Bool := decide (m < 64) && s.flag (R.mapDir_VALID m)
def mapKind (s : State) (m : Nat) : Nat := s.fld (R.mapDir_KIND m)

/-- The active copy of a map with its header, as a backup holds it (R209). -/
def mapActiveWords (s : State) (m : Nat) : List Word := (List.range 512).map (mapW s m) ++ (List.range 6).map (fun i => mapW s m (mAcHdr + i))

/-- One limited move of an active entry (R212): the entry after it, and whether it was limited. -/
def mapMove (s : State) (m n : Nat) (delta step span : Rat) : State × Bool :=
  let sc := ratOf (mapW s m (mAcHdr + 1))
  let ref := f16Rat (mapHalf s m mRef n) * sc
  let old := mapVal s m n
  let d := clampR (-(step * absR ref)) (step * absR ref) delta
  let new := clampR (ref - span * absR ref) (ref + span * absR ref) (old + d)
  (if sc = 0 then s else setMapHalf s m mActive n (Config.round16 (new / sc)).toNat, d != delta || new != old + d)

/-- The shadow header may be swapped in (R210). -/
def mapShadowOk (s : State) (m : Nat) : Bool :=
  let k := bitsOf (mapW s m mShHdr) 0 3
  let f (i : Nat) : Rat := ratOf (mapW s m (mShHdr + i))
  decide (1 ≤ k) && decide (k ≤ 5) && decide (f 2 < f 3) && decide (f 4 < f 5) && !f32Special (mapW s m (mShHdr + 1)) && f 1 != 0

/-- Words of two places of a slot window exchanged. -/
def mapSwapWords (s : State) (m : Nat) (a b n : Nat) : State :=
  (List.range n).foldl (fun t i => (setMapW (setMapW t m (a + i) (mapW t m (b + i))) m (b + i) (mapW t m (a + i)))) s

/-- The swap of a map (R210): entries and headers exchanged, the reference copy taken from the new active one, ADAPTS from zero. -/
def mapSwap (s : State) (m : Nat) : State :=
  let s1 := mapSwapWords (mapSwapWords s m mActive mShadow 512) m mAcHdr mShHdr 6
  let s2 := (List.range 512).foldl (fun t i => setMapW t m (mRef + i) (mapW t m (mActive + i))) s1
  (((s2.setFlag (R.mapDir_VALID m) true).setFld (R.mapDir_KIND m) (bitsOf (mapW s2 m mAcHdr) 0 3)).setFld (R.mapDir_ADAPTS m) 0).setFlag (R.mapDir_SWAP_PEND m) false

/-- The map numbers a winding of kind 1 or 2 names: PSI_D, PSI_Q, L_DD, L_QQ, L_DQ (R223). -/
def ctxMaps (s : State) (slot : Nat) : List Nat :=
  let k := (s.ctx slot).kind
  if k = 1 ∨ k = 2 then
    let w := s.frc (ctxAddr slot 8)
    [bitsOf w 24 8, bitsOf w 16 8, bitsOf w 8 8, bitsOf w 0 8, bitsOf (s.frc (ctxAddr slot 9)) 24 8]
  else []

/-- USERS of the maps and cams brought up to date (R210, R285): contexts naming a map, committed contexts naming a cam. -/
def storeUsers (s : State) : State :=
  let all := s.slots.map (fun k => (ctxMaps s k).filter (· < 64) |>.eraseDups)
  let s1 := (List.range 64).foldl (fun t m => t.setFld (R.mapDir_USERS m) (all.filter (·.contains m)).length) s
  let cams := (s.slots.filter (fun k => ((s.ctx k).kind == 9 || (s.ctx k).kind == 10) && (s.ctx k).committed)).map (fun k => bCam (s.ctx k).bind)
  (List.range 32).foldl (fun t c => t.setFld (R.camDir_USERS c) (cams.filter (· == c)).length) s1

/-- The torque of one three-phase system on two active flux maps (R214). -/
def mapTorque (s : State) (poles md mq : Nat) (id iq : Rat) : Rat := 3 / 2 * (poles : Rat) * (mapAt s 8 md (id, iq) * iq - mapAt s 8 mq (id, iq) * id)

/-- Where the table stood before its rebuild, for the groups that still wait for their boundary, and the word that marks this (R139, R214). -/
def mMtpaOld : Nat := 1720
def mMtpaBegun : Nat := 1701

/-- Point `n` of the MTPA table: T_n evenly spaced up to the torque at I_MAX, and the current of least magnitude that gives it (R214). The first
point is torque 0 (DEDUCED, log entry 78). -/
def mtpaPoint (torque : Rat → Rat → Rat) (imax : Rat) (n : Nat) : Word × Word × Word :=
  let t := Config.maxTorque torque imax * (n : Rat) / 31
  let i := Config.leastCurrent torque t
  (Config.round32 t, Config.round32 i.1, Config.round32 i.2)

/-- The MTPA table of a PSI_D map rebuilt for the lowest winding that names it (R214): 32 points of T, id, iq, shown by both maps; the table before
it is kept aside. -/
def mtpaRebuild (s : State) (m : Nat) : State :=
  match s.slots.find? (fun k => (ctxMaps s k).headD 0xFF == m) with
  | none => s
  | some k =>
    let mq := nth (ctxMaps s k) 1 0xFF
    let torque := mapTorque s (bitsOf (s.frc (ctxAddr k 0)) 0 8) m mq
    let s1 := (List.range 96).foldl (fun t i => setMapW t m (mMtpaOld + i) (mapW t m (mMtpa + i))) s
    (List.range 32).foldl (fun t n =>
      let p := mtpaPoint torque (ratOf (s.frc (ctxAddr k 13))) n
      let put (u : State) (x : Nat) : State := setMapW (setMapW (setMapW u x (mMtpa + 3 * n) p.1) x (mMtpa + 3 * n + 1) p.2.1) x (mMtpa + 3 * n + 2) p.2.2
      if mq < 64 then put (put t m) mq else put t m) s1

/-- A rebuilt table takes effect in one of the groups that use it: the first one builds it, the last one ends the change (R139, R214). -/
def mtpaApply (s : State) (m : Nat) : State :=
  let more := s.loop.pend.any (fun p => p.ch == .mtpa m)
  let s1 := if mapW s m mMtpaBegun = 0#32 then mtpaRebuild s m else s
  setMapW s1 m mMtpaBegun (wd (b2n more))

/-- The groups with committed windings that use a map. -/
def mapGroups (s : State) (m : Nat) : List Nat :=
  (List.range 8).filter (fun g => s.slots.any (fun k => (s.ctx k).committed && (s.ctx k).grp == g && (ctxMaps s k).contains m))

/-- Reed rebuilds the table of a PSI_D map; it applies at the next boundary of every group that uses the maps (R214). -/
def mtpaRequest (s : State) (m : Nat) : State :=
  match mapGroups s m with
  | [] => mtpaRebuild s m
  | gs => gs.foldl (fun t g => addPend t g (dueNext t g) false (.mtpa m)) s

def execMtpaRebuild (m : Fin 64) (s : State) : Host.Outcome State Fault Refusal :=
  .next (if mapValid s m.val ∧ mapKind s m.val = 1 then mtpaRequest s m.val else s)

/-- The torque table as a group reads it: the one before the rebuild until the group's own boundary (R139, R214). -/
def mtpaBase (s : State) (g m : Nat) : Nat :=
  if mapW s m mMtpaBegun == 1#32 && s.loop.pend.any (fun p => p.grp == g && p.ch == .mtpa m) then mMtpaOld else mMtpa

/-- The torque table looked up at a torque magnitude by a context of a group: id and iq (R215). -/
def mtpaAt (s : State) (g m : Nat) (t : Rat) : V2 :=
  let o := mtpaBase s g m
  let p (n : Nat) : Rat × V2 := (ratOf (mapW s m (o + 3 * n)), ratOf (mapW s m (o + 3 * n + 1)), ratOf (mapW s m (o + 3 * n + 2)))
  match (List.range 31).find? (fun n => decide (t ≤ (p (n + 1)).1)) with
  | none => (p 31).2
  | some n =>
    let a := p n
    let b := p (n + 1)
    let f := if b.1 = a.1 then 0 else clampR 0 1 ((t - a.1) / (b.1 - a.1))
    v2Add a.2 (v2Scale f (v2Sub b.2 a.2))

/-- A write of a word of the map window of the selected map: shadow entries and header (R210); the rest is read-only. -/
def mapWindowWrite (s : State) (a : Nat) (w : Word) : Res :=
  let m := s.fld R.mapSel_MAP
  let i := (a - 0x162000) / 4
  if (mShadow ≤ i ∧ i < mRef) ∨ (mShHdr ≤ i ∧ i < mShHdr + 6) then
    if i < mRef ∧ s.flag (R.mapDir_SWAP_PEND m) then refuse s stBUSY_TARGET
    else if mShHdr < i ∧ badF32 w then refuse s stBAD_PARAM
    else { st := setMapW s m i (if i = mShHdr then w &&& 7#32 else if mShHdr < i then f32Flush w else w) }
  else { st := s }

/-- The map window lists a word (R210). -/
def mapWindowHas (i : Nat) : Bool :=
  decide (i < mShHdr + 6) || (decide (mAcHdr ≤ i) && decide (i < mAcHdr + 6)) || (decide (mMtpa ≤ i) && decide (i < mMtpa + 96))

/-! ### Cams (R278, R285) -/

def camW (s : State) (c i : Nat) : Word := tblGet s.store.cam (c * 4096 + i) 0#32
def setCamW (s : State) (c i : Nat) (x : Word) : State := s.withStore { s.store with cam := tblPut s.store.cam (c * 4096 + i) x 0#32 }

/-- Value, slope and curvature of a cam at an input, and whether the input was clamped (R278). -/
structure CamOut where
  y : Rat
  dy : Rat
  ddy : Rat
  out : Bool

/-- Point `i` of a cam, a periodic one carried on by Y_RISE. -/
def camPoint (s : State) (c n : Nat) (per : Bool) (i : Int) : Rat :=
  if per then
    let q := i.fdiv (max n 1 : Nat)
    ratOf (camW s c (i.fmod (max n 1 : Nat)).toNat) + (q : Rat) * ratOf (camW s c 2050)
  else ratOf (camW s c (clampI 0 ((n : Int) - 1) i).toNat)

/-- A cam at an input (R278); y is rounded once to binary32. -/
def camEval (s : State) (c : Nat) (u : Rat) : CamOut :=
  let n := s.fld (R.camDir_N c)
  let per := s.flag (R.camDir_PERIODIC c)
  let x0 := ratOf (camW s c 2048)
  let span := ratOf (camW s c 2049)
  let rise := ratOf (camW s c 2050)
  let h := span / (((if per then n else n - 1 : Nat) : Rat))
  if span ≤ 0 ∨ n < 2 then { y := 0, dy := 0, ddy := 0, out := false }
  else
    let out := !per && (decide (u < x0) || decide (x0 + span < u))
    let q : Int := if per then ((u - x0) / span).floor else 0
    let u1 := if per then u - (q : Rat) * span else clampR x0 (x0 + span) u
    let f := (u1 - x0) / h
    let i : Int := if per then f.floor else min f.floor ((n : Int) - 2)
    let t := f - (i : Rat)
    let p := camPoint s c n per
    let tang (k : Int) : Rat :=
      if per then (p (k + 1) - p (k - 1)) / 2
      else if k ≤ 0 then p 1 - p 0 else if (n : Int) - 1 ≤ k then p ((n : Int) - 1) - p ((n : Int) - 2) else (p (k + 1) - p (k - 1)) / 2
    let add := if per then (q : Rat) * rise else 0
    if s.flag (R.camDir_CUBIC c) then
      let p0 := p i
      let p1 := p (i + 1)
      let m0 := tang i
      let m1 := tang (i + 1)
      { y := ratOf (f32 ((2 * t * t * t - 3 * t * t + 1) * p0 + (t * t * t - 2 * t * t + t) * m0 + (-2 * t * t * t + 3 * t * t) * p1 + (t * t * t - t * t) * m1 + add)),
        dy := ((6 * t * t - 6 * t) * p0 + (3 * t * t - 4 * t + 1) * m0 + (-6 * t * t + 6 * t) * p1 + (3 * t * t - 2 * t) * m1) / h,
        ddy := ((12 * t - 6) * p0 + (6 * t - 4) * m0 + (-12 * t + 6) * p1 + (6 * t - 2) * m1) / (h * h), out := out }
    else { y := ratOf (f32 (p i + t * (p (i + 1) - p i) + add)), dy := (p (i + 1) - p i) / h, ddy := 0, out := out }

/-- The open cam load (R285, R301). -/
def camLoadOpen (s : State) : Option Nat := if s.flag R.camLoadst_OPEN then some (s.fld R.camLoadst_TARGET) else none

/-- BEGIN of a cam load. -/
def camBegin (s : State) (c : Nat) (r : Request) : Res :=
  let n := bitsOf (r.p 0) 0 12
  let per := bitOf (r.p 0) 29
  if r.params.length ≠ 4 ∨ bitsOf (r.p 0) 12 16 ≠ 0 ∨ outNat 2 2048 n ∨ badF32 (r.p 1) ∨ badF32 (r.p 2) ∨ badF32 (r.p 3) ∨ ratOf (r.p 2) ≤ 0
      ∨ (!per ∧ ratOf (r.p 3) ≠ 0) then refuse s stBAD_PARAM
  else if 0 < s.fld (R.camDir_USERS c) ∨ (camLoadOpen s).any (· != c) then refuse s stBUSY_TARGET
  else
    let s1 := s.setReg (R.camDir c) (withBits (withBits (r.p 0 &&& 0x20000FFF#32) 16 8 (s.fld (R.camDir_USERS c))) 30 1 (b2n (bitOf (r.p 0) 28)))
    let s2 := s1.setFlag (R.camDir_LOADING c) true
    let s3 := (List.range 2048).foldl (fun t i => setCamW t c i 0#32) s2
    let s4 := setCamW (setCamW (setCamW s3 c 2048 (f32Flush (r.p 1))) c 2049 (f32Flush (r.p 2))) c 2050 (f32Flush (r.p 3))
    { st := ((s4.setFlag R.camLoadst_OPEN true).setFld R.camLoadst_TARGET c).setFld R.camLoadst_NEXT 0 }

def opCamLoadBegin (r : Request) (s : State) : Res := if 31 < r.target then refuse s stRANGE else camBegin s r.target r

/-- DATA of a cam load: points at NEXT. -/
def opCamLoadData (r : Request) (s : State) : Res :=
  let c := r.target
  let pts := r.params.drop 1
  let i := bitsOf (r.p 0) 0 12
  if 31 < c then refuse s stRANGE
  else if bitsOf (r.p 0) 12 18 ≠ 0 ∨ pts = [] ∨ pts.any badF32 then refuse s stBAD_PARAM
  else if camLoadOpen s ≠ some c then refuse s stREFUSED_STATE
  else if i ≠ s.fld R.camLoadst_NEXT ∨ s.fld (R.camDir_N c) < i + pts.length then refuse s stBAD_PARAM
  else { st := ((List.range pts.length).foldl (fun t k => setCamW t c (i + k) (f32Flush (nth pts k 0#32))) s).setFld R.camLoadst_NEXT (i + pts.length) }

/-- END of a cam load. -/
def opCamLoadEnd (r : Request) (s : State) : Res :=
  let c := r.target
  if 31 < c then refuse s stRANGE
  else if r.params.length ≠ 1 ∨ bitsOf (r.p 0) 0 30 ≠ 0 then refuse s stBAD_PARAM
  else if camLoadOpen s ≠ some c ∨ s.fld R.camLoadst_NEXT < s.fld (R.camDir_N c) then refuse s stREFUSED_STATE
  else { st := ((s.setFlag (R.camDir_VALID c) true).setFlag (R.camDir_LOADING c) false).setFlag R.camLoadst_OPEN false }

/-- CAM_LOAD by its step, P0[31:30]; step 3 is refused (R285). -/
def camLoad (r : Request) (s : State) : Res :=
  match bitsOf (r.p 0) 30 2 with
  | 0 => opCamLoadBegin r s
  | 1 => opCamLoadData r s
  | 2 => opCamLoadEnd r s
  | _ => if 31 < r.target then refuse s stRANGE else refuse s stBAD_PARAM

/-- The three rows of CAM_LOAD: the request's own step decides what is done. -/
def execCamLoadBegin (r : Request) (s : State) : Host.Outcome State Fault Refusal := .next (serveReed r s (!r.params.isEmpty) (camLoad r))
def execCamLoadData (r : Request) (s : State) : Host.Outcome State Fault Refusal := .next (serveReed r s (!r.params.isEmpty) (camLoad r))
def execCamLoadEnd (r : Request) (s : State) : Host.Outcome State Fault Refusal := .next (serveReed r s (!r.params.isEmpty) (camLoad r))

/-- A Reed restart abandons the open load; the cam stays invalid (R285). -/
def camAbandon (s : State) : State :=
  match camLoadOpen s with
  | some c => (s.setFlag (R.camDir_LOADING c) false).setReg R.camLoadst 0#32
  | none => s

end Sys2Proof.Machine
end

