-- ==== Sys2Proof/Machine/Winding.lean ====
section
/-! DEFINITION. The passes of windings, machines and observers, identification runs, and the winding commands
(08_winding_control.md). A pass reads its context, the inputs its Run captured and the posted sensing values, and answers what it
commits as one unit (R42). -/

namespace Sys2Proof.Machine

open Sys2Proof

/-! ### What a pass reads -/

/-- A context word as it is in force. -/
def State.cp (s : State) (slot w : Nat) : Word := s.frc (ctxAddr slot w)

/-- A binary32 parameter in force. -/
def State.cpR (s : State) (slot w : Nat) : Rat := ratOf (s.cp slot w)

/-- The keys of a Run's inputs: context slots, feedback channels, and the words of a filter's or probe's inputs. -/
def inFb (n : Nat) : Nat := 0x10000 + n
def inFp (i : Nat) : Nat := 0x20000 + i

/-- The output of a producer of another module as it stands: nothing, which is not valid, while none arrived or it is stale (R441). -/
def farOut (s : State) (v : Nat) : List Word :=
  match s.sheaf.remote.find? (fun r => r.v == v) with
  | some r => if r.stale then [] else r.out
  | none => []

/-- The input a pass captured under a key when it started (R42). -/
def Run.inp (r : Run) (k : Nat) : List Word := (r.ins.find? (fun e => e.1 == k)).map (·.2) |>.getD []

/-- Words of a list as a 64-bit quantity. -/
def w64 (l : List Word) (i : Nat) : Tick := join64 (nth l i 0#32) (nth l (i + 1) 0#32)

/-- A feedback sample as a reader takes it (R227): POS, VEL, TURN, VALID, its boundary. -/
def fbInput (s : State) (n : Nat) : List Word :=
  [s.reg (R.fdbkPosLo n), s.reg (R.fdbkPosHi n), s.reg (R.fdbkVel n), s.reg (R.fdbkTurn n), wd (b2n (s.flag (R.fdbkStat_VALID n))),
   lo32 (s.fb n).last, hi32 (s.fb n).last]

def State.wind (s : State) (slot : Nat) : WindS := match (s.ctx slot).st with | .wind x => x | _ => {}
def State.mach (s : State) (slot : Nat) : MachS := match (s.ctx slot).st with | .mach x => x | _ => {}
def State.obs (s : State) (slot : Nat) : ObsS := match (s.ctx slot).st with | .obs x => x | _ => {}
def State.setSt (s : State) (slot : Nat) (x : CtxState) : State := s.setCtx slot { s.ctx slot with st := x }

/-- The frame length of a group in force, in edge ticks. -/
def frameLen (s : State) (g : Nat) : Nat := let x := s.grp g; if x.du then x.p / 2 else x.p

/-- The electrical angle in turns, the speed in rad/s and the validity that an angle source gives a context (R203). -/
structure Angle where
  th : Rat
  om : Rat
  ok : Bool

/-- The angle of a feedback sample with pole pairs and offset, referred to T(k). -/
def fbAngle (s : State) (n : Nat) (l : List Word) (poles : Nat) (ofs : Rat) (t : Tick) : Angle :=
  let upt : Rat := (max 1 (s.fld (R.fdbkUpt_UPT n)) : Nat)
  let turns := (((nth l 3 0#32).toNat : Nat) : Rat) / ((2 ^ 32 : Nat) : Rat)
  let vel := ratOf (nth l 2 0#32) / upt
  let dt : Rat := ((t - w64 l 5).toInt : Rat) / 16000000000
  { th := (turns + vel * dt) * (poles : Rat) + turnsOf ofs, om := radOf (vel * (poles : Rat)), ok := (nth l 4 0#32) == 1#32 }

/-- The output of an observer: T, POS, VEL, TURN, LOCK, injection voltage, θ̂ in turns. -/
def obsAngle (l : List Word) : Angle :=
  { th := posRat (w64 l 2), om := radOf (ratOf (nth l 4 0#32)), ok := (nth l 6 0#32) == 1#32 }

/-- The angle of a winding or a machine by its source; none gives angle 0, not valid. -/
def srcAngle (s : State) (r : Run) (x : Src) (poles : Nat) (ofs : Rat) : Angle :=
  match x with
  | .fb n => fbAngle s n (r.inp (inFb n)) poles ofs r.t
  | .obs k => obsAngle (r.inp k)
  | _ => { th := 0, om := 0, ok := false }

/-- The phase window averages of a winding and the channels that are invalid (R196, R203): an unmeasured phase is minus the sum of the others. -/
def phaseValues (s : State) (slot : Nat) : (Rat × Rat × Rat) × List Nat :=
  let c := s.ctx slot
  let ch := bChans c.kind c.bind
  let v (i : Nat) : Rat := let n := nth ch i 0xFF; if n < 128 then ratOf (chanValue s n c.grp) else 0
  let bad := ch.filter (fun n => decide (n < 128) && f32IsNaN (chanValue s n c.grp))
  let a := if nth ch 0 0xFF = 0xFF then -(v 1 + v 2) else v 0
  let b := if nth ch 1 0xFF = 0xFF then -(v 0 + v 2) else v 1
  let cc := if nth ch 2 0xFF = 0xFF then -(v 0 + v 1) else v 2
  ((a, b, cc), bad)

/-- VDC of a winding: the window average of CH_VDC, or VDC_FIX; and its channel where that is invalid (R207). -/
def vdcOf (s : State) (slot fixW : Nat) : Rat × List Nat :=
  let c := s.ctx slot
  let n := bVdc c.bind
  if n < 128 then
    let w := chanValue s n c.grp
    (ratOf w, if f32IsNaN w then [n] else [])
  else (s.cpR slot fixW, [])

/-! ### Modulation (R207, R208) -/

/-- The voltage limit with torque before flux (R207). -/
def limitV (um : Rat) (u : V2) : V2 :=
  if u.1 * u.1 + u.2 * u.2 ≤ um * um then u
  else if absR u.2 ≤ um then (sgnR u.1 * Config.sqrt (um * um - u.2 * u.2), u.2)
  else (0, sgnR u.2 * um)

/-- ON and OFF of a duty (R208). -/
def dutyEdges (d : Rat) (p : Nat) : Nat × Nat :=
  let on := ((1 - clampR 0 1 d) * (p : Rat) / 2).floor.toNat
  (on, p - on)

/-- A stationary voltage vector with min-max centring (R208): the edges of phases a, b, c. -/
def modulate (v : V2) (vdc : Rat) (p : Nat) : List (Nat × Nat) :=
  let x := phases v
  let hi := max x.1 (max x.2.1 x.2.2)
  let lo := min x.1 (min x.2.1 x.2.2)
  let v0 := -(hi + lo) / 2
  let d (q : Rat) : Rat := if vdc = 0 then 1 / 2 else 1 / 2 + (q + v0) / vdc
  [dutyEdges (d x.1) p, dutyEdges (d x.2.1) p, dutyEdges (d x.2.2) p]

/-- The edge set of a pass, tagged with the next sequence (R27): the set's nibs in rising order. -/
def edgeSetOf (s : State) (slot : Nat) (es : List (Nat × Nat)) : Option EdgeSet :=
  (ownedSet s slot).map (fun k => { set := k, seq := s.reg (R.nibGseq (s.ctx slot).grp) + 1#32,
                                     edges := es.take (setNibs s k).length })

/-- Every low side on: ON = OFF = 0 (R199). -/
def lowSide (s : State) (slot : Nat) : Option EdgeSet :=
  match ownedSet s slot with
  | some k => edgeSetOf s slot (List.replicate (setNibs s k).length (0, 0))
  | none => none

/-! ### The machine model (R205, R206) -/

/-- Flux linkages and incremental inductances at a current: from the maps, or for kind 1 from LD, LQ and PSI_M. -/
structure Model where
  psid : Rat
  psiq : Rat
  ldd : Rat
  lqq : Rat
  ldq : Rat

def modelAt (s : State) (slot : Nat) (i : V2) : Model :=
  let m := ctxMaps s slot
  let f (n : Nat) (d : Rat) : Rat := let x := nth m n 0xFF; if x < 64 then mapAt s (s.ctx slot).grp x i else d
  let ld := s.cpR slot 19
  let lq := s.cpR slot 20
  { psid := f 0 (ld * i.1 + s.cpR slot 21), psiq := f 1 (lq * i.2), ldd := f 2 ld, lqq := f 3 lq, ldq := f 4 0 }

/-- e(i, ω). -/
def emf (m : Model) (om : Rat) : V2 := (-(om * m.psiq), om * m.psid)

/-- L(i)·x and its inverse applied to a vector. -/
def lMul (m : Model) (x : V2) : V2 := (m.ldd * x.1 + m.ldq * x.2, m.ldq * x.1 + m.lqq * x.2)
def lInv (m : Model) (x : V2) : V2 :=
  let det := m.ldd * m.lqq - m.ldq * m.ldq
  if det = 0 then (0, 0) else ((m.lqq * x.1 - m.ldq * x.2) / det, (m.ldd * x.2 - m.ldq * x.1) / det)

/-- Torque of one three-phase system (R214). -/
def torqueOf (poles : Nat) (m : Model) (i : V2) : Rat := 3 / 2 * (poles : Rat) * (m.psid * i.2 - m.psiq * i.1)

/-- A map lookup of the pass lay outside its grid: the first such map, of the currents its lookups were made at (R206). -/
def outsideMap (s : State) (slot : Nat) (l : List V2) : Option Nat :=
  l.findSome? (fun i => (ctxMaps s slot).find? (fun m => mapOutside s (s.ctx slot).grp m i))

/-- An occurrence limited at its source goes out only where the limit lets it (R453). -/
def occLim (s : State) (ev inst : Nat) (d : Word) (lim : Nat) : List Occ :=
  if rateOpen s ev inst lim then [{ ev := ev, inst := inst, detail := d }] else []

/-! ### References (R214, R215) -/

/-- What a torque reference is turned into (R215): the current, the new trim, whether torque was limited by voltage, and the currents at which
the maps were looked up. -/
structure TorqueRef where
  i : V2
  trim : Word
  tlim : Bool := false
  looks : List V2 := []

/-- MAP_OUTSIDE of a winding, once per 100 ms (R206). -/
def outsideOcc (s : State) (slot : Nat) (l : List V2) : List Occ :=
  match outsideMap s slot l with
  | some m => occLim s 110 slot (wd m) (100 * msTicks)
  | none => []

/-- The current of a torque reference with field weakening (R215). -/
def torqueRef (s : State) (slot : Nat) (t om um ts : Rat) (idfw umag : Word) : TorqueRef :=
  let imax := s.cpR slot 13
  let poles := bitsOf (s.cp slot 0) 0 8
  let lim := s.cpR slot 17 * um
  let mp := (ctxMaps s slot).headD 0xFF
  let base (q : Rat) : V2 := let p := if mp < 64 then mtpaAt s (s.ctx slot).grp mp (absR q) else (0, 0); (p.1, sgnR q * absR p.2)
  let need (i : V2) : Rat := let m := modelAt s slot i; absR om * Config.sqrt (m.psid * m.psid + m.psiq * m.psiq) + s.cpR slot 2 * v2Mag i
  let iqAt (q id : Rat) : V2 := (id, Config.solve (fun iq => torqueOf poles (modelAt s slot (id, iq)) (id, iq)) q)
  let i0 := base t
  let r : V2 × Bool × List V2 :=
    if lim < need i0 then
      let id := (List.range 4).foldl (fun (b : Rat × Rat × List V2) _ =>
        let i := iqAt t ((b.1 + b.2.1) / 2)
        if lim < need i then (i.1, b.2.1, i :: b.2.2) else (b.1, i.1, i :: b.2.2)) (i0.1, -imax, [i0])
      let far := iqAt t (-imax)
      if lim < need far then
        let q := (List.range 4).foldl (fun (b : Rat × Rat × List V2) _ =>
          let m := (b.1 + b.2.1) / 2
          let i := iqAt m (-imax)
          if lim < need i then (m, b.2.1, i :: b.2.2) else (b.1, m, i :: b.2.2)) (t, 0, far :: id.2.2)
        (iqAt q.2.1 (-imax), true, q.2.2)
      else (iqAt t id.2.1, false, far :: id.2.2)
    else (i0, false, [i0])
  let kfw := s.cpR slot 18
  let u := ratOf umag
  let f := ratOf idfw
  let id := min (r.1.1 + f) r.1.1
  let f1 := clampR (-imax) 0 (f - kfw * ts * max (u - lim) 0 + kfw * ts * min (lim - u) (lim / 20))
  { i := (id, r.1.2), trim := rnd f1, tlim := r.2.1, looks := r.2.2.reverse }

/-- |i| limited to I_MAX: iq gives way (R215). -/
def limitI (imax : Rat) (i : V2) : V2 :=
  if imax * imax < i.1 * i.1 + i.2 * i.2 then
    let id := clampR (-imax) imax i.1
    (id, sgnR i.2 * Config.sqrt (imax * imax - id * id))
  else i

/-! ### Identification (R211 to R213) -/

/-- One step of the estimator of an axis (R211). -/
def rlsStep (e : Rls) (lam y di ts : Rat) : Rls :=
  let p11 := ratOf e.p11
  let p12 := ratOf e.p12
  let p22 := ratOf e.p22
  let a := p11 * di + p12 * ts
  let b := p12 * di + p22 * ts
  let den := lam + di * a + ts * b
  if den = 0 ∨ lam = 0 then e
  else
    let g0 := a / den
    let g1 := b / den
    let err := y - (di * ratOf e.th0 + ts * ratOf e.th1)
    { th0 := rnd (ratOf e.th0 + g0 * err), th1 := rnd (ratOf e.th1 + g1 * err),
      p11 := rnd ((p11 - g0 * a) / lam), p12 := rnd ((p12 - g0 * b) / lam), p22 := rnd ((p22 - g1 * b) / lam) }

/-- The proposals of a pass (R212): each surrounding entry moved by its weight times the change. -/
def proposals (s : State) (slot : Nat) (i0 di : V2) (om : Rat) (rd rq : Rls) : List (Nat × Nat × Rat) :=
  let m := ctxMaps s slot
  let prop (n : Nat) (d : Rat) : List (Nat × Nat × Rat) :=
    let x := nth m n 0xFF
    if x < 64 then (mapCorners s (s.ctx slot).grp x i0).1.map (fun e => (x, e.1, e.2 * d)) else []
  let big (x : Rat) : Bool := decide (s.cpR slot 13 / 100 ≤ absR x)
  (if big di.1 then prop 2 (ratOf rd.th0) else []) ++ (if big di.2 then prop 3 (ratOf rq.th0) else [])
  ++ (if s.cpR slot 25 ≤ absR om ∧ om ≠ 0 then prop 1 (-(ratOf rd.th1) / om) ++ prop 0 (ratOf rq.th1 / om) else [])

/-- The map whose shadow header gives the grid of an identification run (R213): L_DD in mode 2, PSI_D in mode 3. -/
def identGrid (s : State) (slot mode : Nat) : Nat := nth (ctxMaps s slot) (if mode = 2 then 2 else 0) 0xFF

/-- The reference an identification run puts in place of the winding's own (R213). -/
def identRef (s : State) (slot : Nat) (d : IdentS) : V2 :=
  let ii := ratOf d.iId
  match d.mode with
  | 1 => (if d.n < 512 then ii / 2 else ii, 0)
  | 2 =>
    let m := identGrid s slot 2
    let p := d.n / 4
    let h (k : Nat) : Rat := ratOf (mapW s m (mShHdr + k))
    (clampR (-ii) ii (h 2 + ((p / 32 : Nat) : Rat) * (h 3 - h 2) / 31), clampR (-ii) ii (h 4 + ((p % 32 : Nat) : Rat) * (h 5 - h 4) / 31))
  | _ =>
    let m := identGrid s slot 3
    let h (k : Nat) : Rat := ratOf (mapW s m (mShHdr + k))
    (0, clampR (-ii) ii (h 4 + ((d.n / 64 % 32 : Nat) : Rat) * (h 5 - h 4) / 31))

/-- Frames of an identification run (R213). -/
def identFrames (mode : Nat) : Nat := match mode with | 1 => 1024 | 2 => 4096 | _ => 2048

/-! ### The three-phase pass (R203 to R215) -/

/-- Word `n` of a machine's output for member j: T, n_a, then θ_j (turns), id*, iq* of each member. -/
def machRef (l : List Word) (j : Nat) : Rat × V2 :=
  (ratOf (nth l (3 + 3 * j) 0#32), ratOf (nth l (4 + 3 * j) 0#32), ratOf (nth l (5 + 3 * j) 0#32))

/-- The last word of a machine's output, after those of its `n` members: its torque is limited by voltage (R215). -/
def machTlim (l : List Word) (n : Nat) : Bool := nth l (3 + 3 * n) 0#32 == 1#32

/-- Cause of a fault the pass finds, the lowest first, in every state but FAULT (R201); `imag` is the magnitude of the window averages, none where
one of them is invalid. -/
def faultCause (s : State) (slot : Nat) (bad : List Nat) (imag : Option Rat) (angleOk mapsOk : Bool) : Option Nat :=
  let st := windState s slot
  let trip := s.cpR slot 12
  if st == 5 then none
  else if bad.any (s.wind slot).inv.contains then some 3
  else if decide (trip ≠ 0) && imag.any (fun i => decide (trip < i)) then some 4
  else if !mapsOk then some 5
  else if st == 2 && !angleOk then some 6
  else none

/-- The maps of a winding can be used: every named map is valid, and kind 2 requires its four while it is not DISABLED (R201, R223). -/
def mapsUsable (s : State) (slot : Nat) : Bool :=
  let m := ctxMaps s slot
  let need := if (s.ctx slot).kind = 2 then m.take 4 else []
  (windState s slot == 0 || need.all (mapValid s ·)) && (m.filter (· < 64)).all (mapValid s ·)

/-- The output of a winding: T, i_αβ and the realised vector over the window (R221). -/
def windOut (t : Tick) (i u : V2) : List Word := [lo32 t, hi32 t, rnd i.1, rnd i.2, rnd u.1, rnd u.2]

/-- The effective reference of a winding that is no member of a machine (R248, R215). A machine that it is no member of gives it none, and its own parameters stand. -/
def ownRef (s : State) (r : Run) (slot : Nat) (om um ts : Rat) (x : WindS) : TorqueRef :=
  let w0 := s.cp slot 0
  let ref := bRef (s.ctx slot).kind (s.ctx slot).bind
  let l := r.inp ref
  let eff : Option Rat := if ref = 0xFFFF ∨ (s.ctx ref).kind = 5 then none else some (ratOf (nth l 9 0#32))
  if bitOf w0 24 then torqueRef s slot (eff.getD (s.cpR slot 16)) om um ts x.idfw x.uMag
  else { i := (s.cpR slot 14, eff.getD (s.cpR slot 15)), trim := x.idfw }

/-- The voltage demand and the next controller state of PI control (R204), without the integrator's step. -/
def piDemand (s : State) (slot : Nat) (x : WindS) (im e : V2) (om : Rat) : V2 :=
  let ld := s.cpR slot 19
  let lq := s.cpR slot 20
  (s.cpR slot 3 * e.1 + ratOf x.iD - om * lq * im.2, s.cpR slot 5 * e.2 + ratOf x.iQ + om * (ld * im.1 + s.cpR slot 21))

/-- SENSE_SUBST of the first invalid phase channel, once per 100 ms (R202). -/
def substOcc (s : State) (slot : Nat) (bad : List Nat) : List Occ :=
  match bad with
  | n :: _ => occLim s 109 slot (wd n) (100 * msTicks)
  | [] => []

/-- The integrator of an axis after the limit: conditional anti-windup (R204). -/
def piStep (i : Word) (ki ts e u ur : Rat) : Word := if u = ur ∨ sgnR e ≠ sgnR u then rnd (ratOf i + ki * ts * e) else i

/-- The pass of a three-phase winding. -/
def windingPass (s : State) (slot : Nat) (r : Run) : PassOut :=
  let c := s.ctx slot
  let x := s.wind slot
  let st := windState s slot
  let w0 := s.cp slot 0
  let poles := bitsOf w0 0 8
  let ts : Rat := ticksSec (frameLen s c.grp)
  let p := (s.grp c.grp).p
  let mach := machineOf s (curBind s) slot
  let j := match mach with
    | some m => (bMembers (s.ctx m).bind).findIdx (· == slot)
    | none => 0
  let ang := match mach with
    | some m =>
      let base := srcAngle s r (bAng 5 (s.ctx m).bind) (bitsOf (s.cp m 0) 0 8) (s.cpR m 1)
      { th := (machRef (r.inp m) j).1, om := base.om, ok := base.ok : Angle }
    | none => srcAngle s r (bAng c.kind c.bind) poles (s.cpR slot 1)
  let ph := phaseValues s slot
  let vd := vdcOf s slot 11
  let bad := ph.2 ++ vd.2
  let vdc := vd.1
  let um := s.cpR slot 10 * vdc / Config.sqrt 3
  let iab := clarke ph.1.1 ph.1.2.1 ph.1.2.2
  let mid := ang.th - turnsOf (ang.om * ts / 2)
  let im : V2 := if ph.2 = [] then v2Rot (-mid) iab else v2Of x.i1
  let cause := faultCause s slot bad (if ph.2 = [] then some (v2Mag iab) else none) ang.ok (mapsUsable s slot)
  let run := (st == 2 || st == 3) && cause.isNone
  -- references
  let rf : TorqueRef := match mach with
    | some m => { i := (machRef (r.inp m) j).2, trim := x.idfw, tlim := machTlim (r.inp m) (bMembers (s.ctx m).bind).length }
    | none => ownRef s r slot ang.om um ts x
  let rf0 : V2 := match x.ident with
    | some d => identRef s slot d
    | none =>
      if st = 3 then v2Scale (1 - clampR 0 1 (((x.fr + 1 : Nat) : Rat) / (max 1 (bitsOf (s.cp slot 26) 16 16) : Nat))) (v2Of x.ramp) else rf.i
  let iref := limitI (s.cpR slot 13) rf0
  -- prediction and demand
  let m0 := modelAt s slot im
  let rs := s.cpR slot 2
  let di := lInv m0 (v2Sub (v2Sub (v2Of x.u1) (v2Scale rs im)) (emf m0 ang.om))
  let i0 := v2Add im (v2Scale (ts / 2) di)
  let m1 := modelAt s slot i0
  let i1 := v2Add i0 (v2Scale ts (lInv m1 (v2Sub (v2Sub (v2Of x.u0) (v2Scale rs i0)) (emf m1 ang.om))))
  let m2 := modelAt s slot i1
  let kdb := s.cpR slot 7
  let e := v2Sub iref im
  let u0 : V2 := if c.kind = 2 then
      v2Add (v2Add (v2Scale rs i1) (emf m2 ang.om)) (v2Scale (if ts = 0 then 0 else kdb / ts) (lMul m2 (v2Sub iref i1)))
    else piDemand s slot x im e ang.om
  let u : V2 := match x.ident with
    | some d => if d.mode = 2 then v2Add u0 (Config.identStep (d.n % 4)) else u0
    | none => u0
  let ur := limitV um u
  let sat := u != ur
  -- what the watching observer injects on its estimated d-axis
  let inj : V2 := match s.slots.find? (fun k => (s.ctx k).kind == 6 && bWatch (s.ctx k).bind == slot) with
    | some k => let l := r.inp k; v2Rot (posRat (w64 l 2)) (ratOf (nth l 7 0#32), 0)
    | none => (0, 0)
  let v := v2Add (v2Rot (ang.th + turnsOf (3 / 2 * ang.om * ts)) ur) inj
  -- identification
  let adapt := bitOf w0 23 && st == 2 && c.kind == 2 && x.ident.isNone
  let skip := x.sat || x.subst || ph.2 != [] || decide (0 < c.late) || x.i0.isNone
  let dI : V2 := v2Sub i0 (v2Of (x.i0.getD (0#32, 0#32)))
  let res : V2 := v2Sub (v2Scale ts (v2Sub (v2Sub (v2Of x.u1) (v2Scale rs im)) (emf m0 ang.om))) (lMul m0 dI)
  let lam := s.cpR slot 22
  let rd := if adapt && !skip then rlsStep x.rd lam res.1 dI.1 ts else x.rd
  let rq := if adapt && !skip then rlsStep x.rq lam res.2 dI.2 ts else x.rq
  let moves := if adapt && !skip && run then proposals s slot i0 dI ang.om rd rq else []
  let zero (z : Rls) : Rls := if adapt && !skip then { z with th0 := 0#32, th1 := 0#32 } else z
  -- results
  let nsat := satAdd 16 (bitsOf (s.cw slot 77) 16 16) (if run && sat then 1 else 0)
  let nsub := satAdd 16 (bitsOf (s.cw slot 77) 0 16) (if ph.2 ≠ [] then 1 else 0)
  let uo : V2 := if run then ur else (0, 0)
  let next : WindS := if run then
      { x with iD := piStep x.iD (s.cpR slot 4) ts e.1 u.1 ur.1, iQ := piStep x.iQ (s.cpR slot 6) ts e.2 u.2 ur.2,
               u1 := x.u0, u0 := v2W ur, i1 := v2W (if c.kind = 2 then i1 else im), i0 := some (v2W i0), idfw := rf.trim, uMag := rnd (v2Mag u),
               inv := bad, sat := sat, subst := ph.2 != [], rd := zero rd, rq := zero rq, ramp := if st = 3 then x.ramp else v2W iref,
               ident := x.ident.map (fun d => { d with n := d.n + 1 }) }
    else { fr := x.fr, inv := bad, ramp := x.ramp, i1 := v2W im, ident := x.ident }
  let edges := if cause.isSome then none
    else if run then edgeSetOf s slot (modulate v vdc p)
    else if st = 1 ∨ st = 4 then lowSide s slot else none
  let words : List (Nat × Word) :=
    [(64, withBits (s.cw slot 64) 23 1 (b2n (run && rf.tlim))), (65, rnd im.1), (66, rnd im.2), (67, rnd uo.1), (68, rnd uo.2),
     (69, rnd (if run then u.1 - ur.1 else 0)), (70, rnd (if run then u.2 - ur.2 else 0)), (71, rnd (radOf ang.th)), (72, rnd ang.om),
     (73, rnd (torqueOf poles m0 im)), (74, rnd vdc), (75, rnd iref.1), (76, rnd iref.2), (77, wd (nsat * 65536 + nsub))]
  let occs := (if run && sat then occLim s 103 slot (wd (nsat % 65536)) (100 * msTicks) else [])
    ++ substOcc s slot ph.2
    ++ outsideOcc s slot (im :: (if run then (if c.kind = 2 then [i0, i1] else []) ++ rf.looks else []))
  { st := .wind next, words := words, out := windOut r.t iab (v2Rot mid (v2Of x.u1)), occs := occs, edges := edges, fault := cause, moves := moves }

/-! ### Stepping and chopper windings (R219, R220) -/

/-- The pass of a stepping winding. The trims use the measured currents of phases a and b, or those of the frame before where a window is
invalid: the pass has no prediction (R202; DEDUCED, log entry 78). -/
def steppingPass (s : State) (slot : Nat) (r : Run) : PassOut :=
  let c := s.ctx slot
  let x := s.wind slot
  let st := windState s slot
  let ts : Rat := ticksSec (frameLen s c.grp)
  let p := (s.grp c.grp).p
  let ref := bRef c.kind c.bind
  let l := r.inp ref
  let pos := referTo (w64 l 2) (nth l 4 0#32) (nth l 5 0#32) (w64 l 0) r.t
  let el := s.cpR slot 5
  let xv : Rat × Rat := if (s.ctx ref).kind = 7 ∨ (s.ctx ref).kind = 8 ∨ (0x100 ≤ ref ∧ ref ≠ 0xFFFF) then (posRat pos.1, ratOf pos.2.1) else Config.noAxis r.t
  let th := fracR (xv.1 * el)
  let om := radOf (xv.2 * el)
  let zf := if om = 0 then x.zf + 1 else 0
  let amp := if om = 0 ∧ bitsOf (s.cp slot 11) 0 16 ≤ zf then s.cpR slot 7 else s.cpR slot 6
  let scale : Rat := if st = 3 then 1 - clampR 0 1 (x.fr : Rat) else 1
  let at_ (n : Rat) : V2 := let a := th + turnsOf (n * om * ts); (amp * scale * Config.cos a, amp * scale * Config.sin a)
  let iS := at_ (3 / 2)
  let i1 := at_ 1
  let i2 := at_ 2
  let ph := phaseValues s slot
  let vd := vdcOf s slot 10
  let bad := ph.2 ++ vd.2
  let im : V2 := if ph.2 = [] then (ph.1.1, ph.1.2.1) else v2Of x.i1
  let tl := s.cpR slot 9
  let kt := s.cpR slot 8
  let tr (w : Word) (d : Rat) : Rat := clampR (-tl) tl (ratOf w + kt * ts * d)
  let old := v2Of x.trim
  let trim : V2 := (tr x.trim.1 (iS.1 - im.1), tr x.trim.2 (iS.2 - im.2))
  let mida := th + turnsOf (3 / 2 * om * ts)
  let rs := s.cpR slot 2
  let ls := s.cpR slot 3
  let ke := s.cpR slot 4
  let dd (a b : Rat) : Rat := if ts = 0 then 0 else ls * (b - a) / ts
  let va := rs * iS.1 + dd i1.1 i2.1 - ke * om * Config.sin mida + old.1
  let vb := rs * iS.2 + dd i1.2 i2.2 + ke * om * Config.cos mida + old.2
  let vdc := vd.1
  let big := max (absR va) (absR vb)
  let k : Rat := if vdc < big then vdc / big else 1
  let sat := decide (vdc < big)
  let cause := if st != 5 && bad.any x.inv.contains then some 3 else none
  let run := (st == 2 || st == 3) && cause.isNone
  let d (v : Rat) : Rat := if vdc = 0 then 1 / 2 else 1 / 2 + k * v / (2 * vdc)
  let es := [dutyEdges (d va) p, dutyEdges (1 - d va) p, dutyEdges (d vb) p, dutyEdges (1 - d vb) p]
  let nsat := satAdd 16 (bitsOf (s.cw slot 77) 16 16) (if run && sat then 1 else 0)
  let nsub := satAdd 16 (bitsOf (s.cw slot 77) 0 16) (if ph.2 ≠ [] then 1 else 0)
  { st := .wind (if run then { x with zf := zf, trim := v2W trim, i1 := v2W im, inv := bad } else { fr := x.fr, i1 := v2W im, inv := bad }),
    words := [(65, rnd im.1), (66, rnd im.2), (67, rnd (if run then k * va else 0)), (68, rnd (if run then k * vb else 0)), (74, rnd vdc),
              (77, wd (nsat * 65536 + nsub))],
    out := windOut r.t im (k * va, k * vb),
    occs := (if run && sat then occLim s 103 slot (wd (nsat % 65536)) (100 * msTicks) else []) ++ substOcc s slot ph.2,
    edges := if cause.isSome then none else if run then edgeSetOf s slot es else if st = 1 ∨ st = 4 then lowSide s slot else none,
    fault := cause }

/-- The variable interval of a duty, ON and OFF of its edge set: K is the constant interval of the nib (R170, R220). -/
def chopEdges (mode k : Nat) (d dmin : Rat) : Nat × Nat :=
  let far := 0x1FFFFFFF
  if mode = 2 then (0, if d < dmin then far else if 1 ≤ d then 0 else if d ≤ 0 then far else ((k : Rat) * (1 - d) / d).floor.toNat)
  else (0, if d < dmin then 0 else if 1 ≤ d then far else ((k : Rat) * d / (1 - d)).floor.toNat)

/-- The pass of a chopper winding (R220); an invalid window of CH_A takes the current of the frame before (R202; log entry 78). -/
def chopperPass (s : State) (slot : Nat) (r : Run) : PassOut :=
  let c := s.ctx slot
  let x := s.wind slot
  let st := windState s slot
  let ts : Rat := ticksSec r.el
  let vd := vdcOf s slot 11
  let vdc := vd.1
  let cm := bitsOf (s.cp slot 0) 0 2
  let chA := (bChans 4 c.bind).headD 0xFF
  let badA := if chA < 128 ∧ f32IsNaN (chanValue s chA c.grp) then [chA] else []
  let ia := if badA ≠ [] then ratOf x.i1.1 else if chA < 128 then ratOf (chanValue s chA c.grp) else 0
  let bad := vd.2 ++ badA
  let e : Rat := if cm = 1 then vdc - s.cpR slot 5 else s.cpR slot 8 - ia
  let integ : Rat := if cm = 1 ∧ vdc < s.cpR slot 5 then 0 else ratOf x.iD + s.cpR slot 7 * ts * e
  let d0 : Rat := if cm = 0 then (if vdc = 0 then 0 else s.cpR slot 3 * s.cpR slot 4 / (vdc * vdc)) else s.cpR slot 6 * e + integ
  let cause := if st != 5 && bad.any x.inv.contains then some 3 else none
  let run := (st == 2 || st == 3) && cause.isNone
  let d := clampR 0 (s.cpR slot 10) d0
  let es := match ownedSet s slot with
    | some k => (setNibs s k).map (fun n => chopEdges (s.grp c.grp).mode (s.ffld (R.nibChop_K n)) d (s.cpR slot 9))
    | none => []
  { st := .wind (if run then { x with iD := if cm = 0 then 0#32 else rnd integ, i1 := v2W (ia, 0), inv := bad } else { fr := x.fr, i1 := v2W (ia, 0), inv := bad }),
    words := [(65, rnd (if run then d else 0)), (74, rnd vdc)], out := windOut r.t (ia, 0) (0, 0), occs := substOcc s slot badA,
    edges := if run then edgeSetOf s slot es
      else if st = 1 ∧ cause.isNone then edgeSetOf s slot (es.map (fun _ => chopEdges (s.grp c.grp).mode 0 (-1) 0)) else none,
    fault := cause }

/-! ### Machines (R216 to R218) -/

/-- Harmonic orders of the subspaces beside αβ (R216). -/
def subspaces (n : Nat) : List Nat := match n with | 2 => [5] | 3 => [5, 7] | 4 => [5, 7, 11] | _ => []

/-- θ_jp in turns (R216). -/
def phaseAngle (n j p : Nat) : Rat := (p : Rat) / 3 + (j : Rat) / (6 * (max n 1 : Nat))

/-- A row pair of the decomposition applied to the phase values of the systems (R216). -/
def vsd (n h : Nat) (v : List (Rat × Rat × Rat)) : V2 :=
  let m : Rat := ((3 * max n 1 : Nat) : Rat)
  let term (f : Rat → Rat) : Rat := ((List.range n).map (fun j =>
    let x := nth v j (0, 0, 0)
    x.1 * f ((h : Rat) * phaseAngle n j 0) + x.2.1 * f ((h : Rat) * phaseAngle n j 1) + x.2.2 * f ((h : Rat) * phaseAngle n j 2))).foldl (· + ·) 0
  (2 / m * term Config.cos, 2 / m * term Config.sin)

/-- The pass of a machine (R217). -/
def machinePass (s : State) (slot : Nat) (r : Run) : PassOut :=
  let c := s.ctx slot
  let x := s.mach slot
  let mem := bMembers c.bind
  let n := mem.length
  let na := x.act.length
  let ts : Rat := ticksSec r.el
  let ang := srcAngle s r (bAng 5 c.bind) (bitsOf (s.cp slot 0) 0 8) (s.cpR slot 1)
  let v := mem.map (fun k => (phaseValues s k).1)
  let hs := subspaces n
  let xy := hs.map (fun h => vsd n h v)
  let m0 := mem.headD 0
  let ref := bRef 5 c.bind
  let t0 : Rat := if ref = 0xFFFF then s.cpR slot 3 else ratOf (nth (r.inp ref) 9 0#32)
  let tl := s.cpR slot 2 * (na : Rat) / (max n 1 : Nat)
  let t := clampR (-tl) tl t0
  let um := s.cpR m0 10 * (vdcOf s m0 11).1 / Config.sqrt 3
  let rf := torqueRef s m0 (if na = 0 then 0 else t / (na : Rat)) ang.om um ts x.idfw (s.wind m0).uMag
  let ii : V2 := if na = 0 then (0, 0) else limitI (s.cpR m0 13) rf.i
  let ints : List V2 := (List.range hs.length).map (fun i =>
    let old := v2Of (nth x.xy i (0#32, 0#32))
    let meas := v2Rot (-ang.th) (nth xy i (0, 0))
    let want : V2 := (s.cpR slot (5 + 2 * i), s.cpR slot (6 + 2 * i))
    if na = n ∧ n ≠ 0 then v2Add old (v2Scale (s.cpR slot 4 * ts) (v2Sub want meas)) else old)
  let member (j : Nat) : List Word :=
    let th := ang.th - (j : Rat) / (6 * (max n 1 : Nat))
    let ofs (p : Nat) : Rat := ((List.range hs.length).map (fun i =>
      let q := v2Rot ang.th (nth ints i (0, 0))
      let a := (nth hs i 0 : Rat) * phaseAngle n j p
      q.1 * Config.cos a + q.2 * Config.sin a)).foldl (· + ·) 0
    let add := v2Rot (-th) (clarke (ofs 0) (ofs 1) (ofs 2))
    let i := if na = 0 then (0, 0) else v2Add ii add
    [rnd th, rnd i.1, rnd i.2]
  let torque := (mem.map (fun k => ratOf (s.cw k 73))).foldl (· + ·) 0
  { st := .mach { x with xy := ints.map v2W, idfw := rf.trim },
    words := [(64, wd (n * 2 ^ 28 + na * 2 ^ 24)), (65, rnd torque)] ++ (List.range 3).flatMap (fun i =>
      let q := nth xy i (0, 0)
      [(66 + 2 * i, rnd q.1), (67 + 2 * i, rnd q.2)]),
    out := [lo32 r.t, hi32 r.t, wd na] ++ (List.range n).flatMap member ++ [wd (b2n rf.tlim)], occs := outsideOcc s m0 rf.looks }

/-! ### Observers (R221, R222, R236) -/

/-- The pass of an observer. -/
def observerPass (s : State) (slot : Nat) (r : Run) : PassOut :=
  let c := s.ctx slot
  let x := s.obs slot
  let wch := bWatch c.bind
  let l := r.inp wch
  let ts : Rat := ticksSec r.el
  let iab : V2 := (ratOf (nth l 2 0#32), ratOf (nth l 3 0#32))
  let uab : V2 := (ratOf (nth l 4 0#32), ratOf (nth l 5 0#32))
  let im := v2Rot (-x.th) iab
  let mo := modelAt s wch im
  let pm : V2 := (mo.psid, mo.psiq)
  let psi0 := v2Of x.psi
  let psi := v2Sub (v2Add psi0 (v2Scale ts (v2Sub uab (v2Scale (s.cpR wch 2) iab)))) (v2Scale (ts * s.cpR slot 1) (v2Sub psi0 (v2Rot x.th pm)))
  let ef := Config.sin (Config.atan2 psi.2 psi.1 - x.th - Config.atan2 pm.2 pm.1)
  let om := ratOf x.om
  let lo := s.cpR slot 4
  let hi := s.cpR slot 5
  let uhf := s.cpR slot 2
  let injOn := decide (absR om < hi) && decide (uhf ≠ 0)
  let norm := s.cpR slot 3
  let eh : Rat := if norm = 0 then 0 else (im.2 - ratOf x.iq) * (if x.pos then 1 else -1) / norm
  let w : Rat := if !injOn then 0 else if absR om < lo then 1 else if hi ≤ absR om then 0 else if hi = lo then 0 else (hi - absR om) / (hi - lo)
  let e := w * eh + (1 - w) * ef
  let om1 := om + s.cpR slot 7 * ts * e
  let th1 := x.th + turnsOf (ts * (om1 + s.cpR slot 6 * e))
  let inside := decide (absR e < s.cpR slot 8)
  let good := if inside then min 64 (x.good + 1) else 0
  let badn := if inside then 0 else min 8 (x.bad + 1)
  let was := bitOf (s.cw slot 64) 31
  let lock := if was then decide (badn < 8) else decide (64 ≤ good)
  let cmp := bCmp c.bind
  let poles := bitsOf (s.cp wch 0) 0 8
  let fa := fbAngle s cmp (r.inp (inFb cmp)) poles (s.cpR wch 1) r.t
  let diff := absR (radOf (wrapHalf (th1 - fa.th)))
  let far := decide (s.cpR slot 9 < diff)
  let mis0 := bitOf (s.cw slot 64) 30
  let cn := bitsOf (s.cp slot 10) 0 16
  let cnt := if cmp = 0xFF then 0 else if far != mis0 then x.cmp + 1 else 0
  let mis := if cmp = 0xFF then false else if cn ≤ cnt ∧ 0 < cnt then !mis0 else mis0
  let pos := posOf th1
  let vel := rnd (om1 / (2 * Config.pi))
  let turn := turnOf pos (max 1 poles)
  let inj : Rat := if injOn then (if x.pos then -uhf else uhf) else 0
  { st := .obs { psi := v2W psi, th := th1, om := rnd om1, iq := rnd im.2, pos := if injOn then !x.pos else x.pos, good := good, bad := badn,
                 cmp := if mis == mis0 then cnt else 0 },
    words := [(64, wd (b2n lock * 2 ^ 31 + b2n mis * 2 ^ 30)), (65, rnd (radOf th1)), (66, rnd om1)],
    out := [lo32 r.t, hi32 r.t, lo32 pos, hi32 pos, vel, turn, wd (b2n lock), rnd inj],
    occs := outsideOcc s wch [im] ++ (if lock != was then [{ ev := 107, inst := slot, detail := wd (b2n lock) }] else [])
      ++ (if mis && !mis0 then [{ ev := 108, inst := slot, detail := wd (min 65535 (diff * 1000).floor.toNat) }] else []),
    acts := [.hist (srcObs slot) pos lock] }

/-! ### The rows of the passes -/

/-- The state as a pass reads it: its context is the one it read when it started (R42). -/
def passView (s : State) (r : Run) : State := (s.setCtx r.slot r.ctx).setCw r.slot 64 r.stat

/-- The running pass of a context computes its result; nothing where no pass of it runs or it has its result already. -/
def passRow (s : State) (slot : Nat) (kinds : List Nat) (f : State → Nat → Run → PassOut) : State :=
  if !kinds.contains (s.ctx slot).kind then s
  else s.withLoop { s.loop with runs := s.loop.runs.map (fun r =>
    if r.slot = slot && r.out.isNone then { r with out := some (f (passView s r) slot r) } else r) }

def execWindingPass (slot : Fin 256) (s : State) : Host.Outcome State Fault Refusal := .next (passRow s slot.val [1, 2] windingPass)
def execSteppingPass (slot : Fin 256) (s : State) : Host.Outcome State Fault Refusal := .next (passRow s slot.val [3] steppingPass)
def execChopperPass (slot : Fin 256) (s : State) : Host.Outcome State Fault Refusal := .next (passRow s slot.val [4] chopperPass)
def execMachinePass (slot : Fin 256) (s : State) : Host.Outcome State Fault Refusal := .next (passRow s slot.val [5] machinePass)
def execObserverPass (slot : Fin 256) (s : State) : Host.Outcome State Fault Refusal := .next (passRow s slot.val [6] observerPass)

/-! ### Winding commands (R199, R200, R202, R213) -/

/-- A nib of the winding's set is latched. -/
def windLatched (s : State) (slot : Nat) : Bool := match ownedSet s slot with
  | some k => (setNibs s k).any (nibLatched s ·)
  | none => false

/-- The angle source of a winding gives a usable angle now: a member takes its machine's (R196, R201). -/
def angleNow (s : State) (slot : Nat) : Bool :=
  let k := (s.ctx slot).kind
  let src := match (if k = 1 ∨ k = 2 then machineOf s (curBind s) slot else none) with
    | some m => bAng 5 (s.ctx m).bind
    | none => bAng k (s.ctx slot).bind
  match src with
  | .fb n => s.flag (R.fdbkStat_VALID n)
  | .obs o => (s.ctx o).kind == 6 && bitOf (s.cw o 64) 31
  | _ => false

/-- The winding names an angle source it needs (R200): kinds 1 and 2. -/
def angleBound (s : State) (slot : Nat) : Bool :=
  let k := (s.ctx slot).kind
  if k = 3 ∨ k = 4 then true
  else
    let src := match machineOf s (curBind s) slot with
      | some m => bAng 5 (s.ctx m).bind
      | none => bAng k (s.ctx slot).bind
    match src with
    | .fb _ => true
    | .obs o => decide (0x100 ≤ o) || (s.ctx o).kind == 6
    | _ => false

/-- The condition of a recorded fault cause is present (R202). -/
def causePresent (s : State) (slot : Nat) : Bool :=
  match windCause s slot with
  | 3 => (phaseValues s slot).2 != [] || (vdcOf s slot 11).2 != []
  | 4 => (phaseValues s slot).2 == [] && decide (s.cpR slot 12 ≠ 0)
      && decide (s.cpR slot 12 < v2Mag (clarke (phaseValues s slot).1.1 (phaseValues s slot).1.2.1 (phaseValues s slot).1.2.2))
  | 5 => !mapsUsable s slot
  | 6 => !angleNow s slot
  | _ => false

/-- A winding may leave FAULT (R202). -/
def faultHolds (s : State) (slot : Nat) : Bool := windState s slot == 5 && (windLatched s slot || causePresent s slot)

/-- WINDING_ENABLE (R200, R202). -/
def opWindingEnable (r : Request) (s : State) : Res :=
  let k := r.target
  let c := s.ctx k
  orRefuse s (slotCheck s k [1, 2, 3, 4])
    (if !huskEn s ∨ s.flag R.cfgStat_SAFE_CFG_FAULT ∨ safeLocked s then refuse s stSAFETY_LOCK
     else if windState s k = 2 then { st := s }
     else if grpState s c.grp = 0 ∨ (ownedSet s k).isNone ∨ !angleBound s k ∨ windLatched s k then refuse s stREFUSED_STATE
     else { st := addPend s c.grp (dueNext s c.grp) false (.windEnable k), affects := [(c.grp, dueNext s c.grp)] })

def execWindingEnable (r : Request) (s : State) : Host.Outcome State Fault Refusal :=
  .next (serveReed r s r.params.isEmpty (opWindingEnable r))

/-- WINDING_DISABLE (R200). -/
def opWindingDisable (r : Request) (s : State) : Res :=
  let k := r.target
  let c := s.ctx k
  let mode := bitsOf (r.p 0) 0 2
  orRefuse s (slotCheck s k [1, 2, 3, 4])
    (if mode = 3 then refuse s stBAD_PARAM
     else { st := addPend s c.grp (dueNext s c.grp) false (.windDisable k mode), affects := [(c.grp, dueNext s c.grp)] })

def execWindingDisable (r : Request) (s : State) : Host.Outcome State Fault Refusal :=
  .next (serveReed r s (r.params.length == 1) (opWindingDisable r))

/-- An identification run ends with a result (R213). -/
def identEnd (s : State) (slot res : Nat) : State :=
  (s.setSt slot (.wind { s.wind slot with ident := none })).raise 105 slot (wd res)

/-- A winding is released: DISABLED, its nibs high-impedance at this reload (R199). -/
def windRelease (s : State) (slot : Nat) : State :=
  let s1 := windSet s slot 0
  let s2 := s1.setSt slot (.wind { ident := (s1.wind slot).ident })
  match ownedSet s2 slot with
  | some k => setRelease s2 k
  | none => s2

/-- A WINDING_ENABLE takes effect at its boundary (R199, R202): the nibs cleared of a latch may resume (R187). -/
def windEnableApply (s : State) (slot : Nat) : State :=
  if windState s slot = 2 ∨ faultHolds s slot then s
  else
    let s0 := match ownedSet s slot with
      | some k => (setNibs s k).foldl nibResume s
      | none => s
    let s1 := s0.setSt slot (.wind {})
    if bitsOf (s.cp slot 26) 0 16 ≠ 0 ∧ ((s.ctx slot).kind = 1 ∨ (s.ctx slot).kind = 2) then windSet s1 slot 1 else windSet s1 slot 2

/-- A WINDING_DISABLE takes effect at its boundary (R199): a fault takes precedence; only mode 0 or an enable leaves SHORT, only an enable
DISABLED. A chopper takes mode 2 as mode 0; a ramp without frames is a release. -/
def windDisableApply (s : State) (slot mode : Nat) : State :=
  let st := windState s slot
  let k := (s.ctx slot).kind
  let rampFr := if k = 1 ∨ k = 2 then bitsOf (s.cp slot 26) 16 16 else 0
  let md := if k = 4 ∧ mode = 2 then 0 else mode
  if st = 5 ∨ st = 0 then s
  else if md = 0 then windRelease s slot
  else if st = 4 ∨ (md = 1 ∧ st = 3) then s
  else if md = 2 then windSet s slot 4
  else if rampFr ≠ 0 then (windSet s slot 3).setSt slot (.wind { s.wind slot with fr := 0 })
  else windRelease s slot

/-- Frames of PRECHARGE and RAMP that have ended at the group's boundary (R199). -/
def windFrames (s : State) (g : Nat) : State :=
  s.slots.foldl (fun u k =>
    let st := windState u k
    if isWinding (u.ctx k).kind && (u.ctx k).grp == g && (st == 1 || st == 3) then
      u.setSt k (.wind { u.wind k with fr := (u.wind k).fr + 1 }) else u) s

/-- After BOOT_FR frames of PRECHARGE the winding becomes ENABLED. -/
def prechargeEnd (s : State) (slot : Nat) : State :=
  if isWinding (s.ctx slot).kind && windState s slot == 1 && decide (bitsOf (s.cp slot 26) 0 16 ≤ (s.wind slot).fr) then
    windSet (s.setSt slot (.wind {})) slot 2
  else s

def execPrechargeEnd (slot : Fin 256) (s : State) : Host.Outcome State Fault Refusal := .next (prechargeEnd s slot.val)

/-- After RAMP_FR frames of RAMP the winding becomes DISABLED. -/
def rampEnd (s : State) (slot : Nat) : State :=
  if isWinding (s.ctx slot).kind && windState s slot == 3 && decide (bitsOf (s.cp slot 26) 16 16 ≤ (s.wind slot).fr) then windRelease s slot else s

def execRampEnd (slot : Fin 256) (s : State) : Host.Outcome State Fault Refusal := .next (rampEnd s slot.val)

/-- IDENT_RUN (R213). -/
def opIdentRun (r : Request) (s : State) : Res :=
  let k := r.target
  let mode := bitsOf (r.p 0) 0 2
  let others : Bool := match machineOf s (curBind s) k with
    | some m => (bMembers (s.ctx m).bind).any (fun x => x != k && windState s x == 2)
    | none => false
  if 255 < k ∨ (s.ctx k).kind = 0 then refuse s stRANGE
  else if (s.ctx k).kind ≠ 2 ∨ mode = 0 ∨ badF32 (r.p 1) ∨ badF32 (r.p 2) ∨ ratOf (r.p 1) < 0 ∨ s.cpR k 13 < ratOf (r.p 1) then refuse s stBAD_PARAM
  else if windState s k ≠ 2 ∨ grpState s (s.ctx k).grp ≠ 1 ∨ others then refuse s stREFUSED_STATE
  else { st := s.setSt k (.wind { s.wind k with ident := some { mode := mode, iId := f32Flush (r.p 1), still := f32Flush (r.p 2) } }) }

def execIdentRun (r : Request) (s : State) : Host.Outcome State Fault Refusal := .next (serveReed r s (r.params.length == 3) (opIdentRun r))

/-- Why an identification run ends now: trip current, which takes the winding out of ENABLED as well, state left, rotation, speed too low, or all
frames done (R213). -/
def identStop (s : State) (slot : Nat) (d : IdentS) : Option Nat :=
  let om := absR (ratOf (s.cw slot 72))
  let i := v2Mag (ratOf (s.cw slot 65), ratOf (s.cw slot 66))
  let trip := s.cpR slot 12
  if trip ≠ 0 ∧ trip < i then some 2
  else if windState s slot ≠ 2 ∨ grpState s (s.ctx slot).grp ≠ 1 then some 3
  else if d.mode ≠ 3 ∧ ratOf d.still < om then some 1
  else if d.mode = 3 ∧ om < s.cpR slot 25 then some 4
  else if identFrames d.mode ≤ d.n then some 0
  else none

/-- The shadow header a run leaves for a map: its kind, its measured SCALE, and the grid the run went over. -/
def identHeader (s : State) (grid m : Nat) (scale : Word) : State :=
  (List.range 4).foldl (fun t i => setMapW t m (mShHdr + 2 + i) (mapW s grid (mShHdr + 2 + i)))
    (setMapW (setMapW s m mShHdr (wd (mapKind s m))) m (mShHdr + 1) (f32Flush scale))

/-- The end of an identification run (R213): `res` is the resistance it measured (MODE 1), `scales` the SCALE and `cells` the shadow entries of
the maps (modes 2 and 3) as (map, entry, binary16). Mode 1's result applies at the next boundary. -/
def identDone (s : State) (slot : Nat) (res : Word) (scales : List (Nat × Word)) (cells : List (Nat × Nat × BitVec 16)) : State :=
  match (s.wind slot).ident with
  | none => s
  | some d =>
    match identStop s slot d with
    | none => s
    | some code =>
      let s1 := identEnd s slot code
      if code ≠ 0 then s1
      else if d.mode = 1 then
        let g := (s.ctx slot).grp
        addPend (s1.setCw slot 2 res) g (dueNext s1 g) false (.ctxWords slot 2 [res])
      else
        let maps := if d.mode = 2 then ((ctxMaps s slot).drop 2).filter (· < 64) else ((ctxMaps s slot).take 2).filter (· < 64)
        let s2 := cells.foldl (fun t e => if maps.contains e.1 then setMapHalf t e.1 mShadow (e.2.1 % 1024) e.2.2.toNat else t) s1
        (scales.filter (fun e => maps.contains e.1)).foldl (fun t e => identHeader t (identGrid s slot d.mode) e.1 e.2) s2

def execIdentDone (slot : Fin 256) (res : Word) (maps : IdentMaps) (s : State) : Host.Outcome State Fault Refusal :=
  .next (identDone s slot.val res maps.scales maps.cells)

/-- Members of the group's machines counted at the boundary; one that has left ENABLED raises MACHINE_DERATE (R218). -/
def machBoundary (s : State) (g : Nat) : State :=
  s.slots.foldl (fun u k =>
    if (u.ctx k).kind == 5 && (u.ctx k).grp == g then
      let mem := bMembers (u.ctx k).bind
      let act := mem.filter (fun m => windState u m == 2)
      let x := u.mach k
      let u1 := if act = x.act then u else u.setSt k (.mach { x with act := act })
      if x.act.any (fun m => !act.contains m) then u1.raise 106 k (wd (act.length * 256 + mem.length)) else u1
    else u) s

/-- The map moves of a group's passes, in slot order (R212): limited moves raise ADAPT_LIMIT; moved maps count in ADAPTS. -/
def movesApply (s : State) (g : Nat) : State :=
  let mine := (s.loop.moves.filter (fun e => e.1 == g)).mergeSort (fun a b => decide (a.2.1 ≤ b.2.1))
  let s0 := s.withLoop { s.loop with moves := s.loop.moves.filter (fun e => e.1 != g) }
  mine.foldl (fun u e =>
    let u1 := e.2.2.foldl (fun v m =>
      if !mapValid v m.1 then v
      else
        let x := mapMove v m.1 m.2.1 m.2.2 (v.cpR e.2.1 23) (v.cpR e.2.1 24)
        if x.2 then x.1.raiseLim 104 m.1 (wd m.2.1) (1000 * msTicks) else x.1) u
    ((e.2.2.map (·.1)).eraseDups).foldl (fun v m => v.cntSat (R.mapDir_ADAPTS m)) u1) s0

/-- Moves of a map discarded where it is swapped at the boundary (R212). -/
def movesDrop (s : State) (m : Nat) : State :=
  s.withLoop { s.loop with moves := s.loop.moves.map (fun e => (e.1, e.2.1, e.2.2.filter (fun x => x.1 != m))) }

end Sys2Proof.Machine
end

