-- ==== Sys2Proof/Machine/Axis.lean ====
section
/-! DEFINITION. Axes: units and readiness, plans, the motion commands and their table, homing, and the axis pass
(10_axes_profiles.md). A command waits for its axis's next boundary; the pass of the frame evaluates the plan at T(k). -/

namespace Sys2Proof.Machine

open Sys2Proof

/-! ### What an axis, gear and stroke group show of themselves -/

def State.axis (s : State) (slot : Nat) : AxisS := match (s.ctx slot).st with | .axis x => x | _ => {}
def State.gear (s : State) (slot : Nat) : GearS := match (s.ctx slot).st with | .gear x => x | _ => {}
def State.stroke (s : State) (slot : Nat) : StrokeS := match (s.ctx slot).st with | .stroke x => x | _ => {}

/-- The number of an axis, gear or stroke group. -/
def motNum (s : State) (slot : Nat) : Nat := (s.ctx slot).num

/-- States under R257, R280 and R293; the registers follow at the end of the context's pass (R272, R300). -/
def axisState (s : State) (slot : Nat) : Nat := (s.axis slot).st
def gearState (s : State) (slot : Nat) : Nat := (s.gear slot).st
def strokeState (s : State) (slot : Nat) : Nat := (s.stroke slot).st

/-- MODE of an axis in force: 0 POSITION, 1 VELOCITY, 2 VIRTUAL. -/
def axisMode (s : State) (slot : Nat) : Nat := bitsOf (s.cp slot 0) 14 2

/-- A gear takes a state, with a cause where it has one (R280, R284). -/
def gearSet (s : State) (slot st : Nat) (cause : Option Nat) : State :=
  let n := motNum s slot
  let x := s.gear slot
  if x.st = st then s
  else
    let s1 := s.setSt slot (.gear { x with st := st, cause := cause.getD x.cause })
    let s2 := if cause = some 1 ∨ cause = some 2 then s1.cntSat (R.motionGcnt_FAULTS n) else s1
    s2.raise 170 n (wd (cause.getD 0 * 256 + x.st * 16 + st))

/-- A stroke group takes a state (R293); entries into STARVED are counted and reported with the last TAG. -/
def strokeSet (s : State) (slot st : Nat) : State :=
  let n := motNum s slot
  let x := s.stroke slot
  if x.st = st then s
  else
    let s1 := (s.setSt slot (.stroke { x with st := st, starves := if st = 2 then satInc 16 x.starves else x.starves })).raise 172 n (wd (x.st * 16 + st))
    if st = 2 then s1.raise 174 n (wd (s1.fld (R.motionStag_RUN_TAG n))) else s1

/-- An axis leaves FOLLOWING for a reason of its own: its gear is DISENGAGED with cause 3 (R284), its stroke group brings the other
members to rest (R295). -/
def producerLost (s : State) (slot : Nat) : State :=
  let p := bProd (curBind s slot)
  let k := (s.ctx p).kind
  if k = 9 ∨ k = 10 then gearSet s p 0 (some 3)
  else if k = 11 then
    let st := strokeState s p
    if st = 0 then s
    else
      let s1 := s.raise 175 (motNum s p) (wd (motNum s slot))
      if st = 6 then s1 else strokeSet s1 p 5
  else s

/-- An axis takes a state (R257). -/
def axisSet (s : State) (slot st : Nat) : State :=
  let x := s.axis slot
  if x.st = st then s
  else
    let s1 := (s.setSt slot (.axis { x with st := st, ab := x.ab && (st == 5 || st == 7) })).raise 160 (motNum s slot) (wd (x.st * 16 + st))
    if x.st = 4 then producerLost s1 slot else s1

/-- The registers of an axis, gear or stroke group that follow its state, as its pass commits them (R272, R300). -/
def motShow (s : State) (slot : Nat) : State :=
  let n := motNum s slot
  let put (l : List (RF × Nat)) : State := l.foldl (fun t e => t.setFld e.1 e.2) s
  match (s.ctx slot).st with
  | .axis x =>
    put [(R.motionAxinfo_STATE n, x.st), (R.motionAxinfo_QUEUED n, (s.ctx slot).queue.length), (R.motionAxinfo_HOMED n, b2n x.homed),
         (R.motionAxinfo_DECEL_RAISED n, b2n x.raised), (R.motionAxinfo_OVERSHOOT n, b2n x.overshot), (R.motionAxinfo_ABORTING n, b2n x.ab),
         (R.motionAxinfo_CAUSE n, x.cause), (R.motionAxhome_METHOD n, x.method), (R.motionAxhome_STEP n, x.step),
         (R.motionAxhome_REVERSALS n, x.revs), (R.motionAxcnt_FE_TRIPS n, x.feTrips), (R.motionAxcnt_LIMIT_TRIPS n, x.limTrips),
         (R.motionAxcnt_HOME_FAILS n, x.homeFails)]
  | .gear x => put [(R.motionGinfo_STATE n, x.st), (R.motionGinfo_CAUSE n, x.cause)]
  | .stroke x => put [(R.motionSinfo_STATE n, x.st), (R.motionScnt_STARVES n, x.starves)]
  | _ => s

/-! ### Readiness (R248), inputs and limits (R263, R264) -/

/-- A consumer takes effort: a winding ENABLED, a machine whose N_ACTIVE is not 0. -/
def consumerOn (s : State) (k : Nat) : Bool :=
  if (s.ctx k).kind = 5 then (match (s.ctx k).st with
    | .mach x => x.act != []
    | _ => false)
  else windState s k == 2

/-- The axis is drive-ready (R248). -/
def axisReady (s : State) (slot : Nat) : Bool :=
  axisMode s slot == 2 || (bPos (curBind s slot) != .none && (axisConsumers s slot).all (consumerOn s))

/-- An input of the field interface as its channel reports it (R365). -/
def fieldOn (s : State) (c : Nat) : Bool := decide (c < 32) && bitOf (s.reg R.fieldIn) c

/-- A limit input of an axis is active (R264). -/
def limitOn (s : State) (slot c : Nat) : Bool := decide (c < 32) && (fieldOn s c != bitOf (s.cp slot 0) 12)

/-- A hard limit in a direction is active. -/
def hardLimit (s : State) (slot : Nat) (pos : Bool) : Bool :=
  let b := curBind s slot
  limitOn s slot (if pos then bLimPos b else bLimNeg b)

/-- Software limits SW_NEG and SW_POS by words of the context; none while SW_POS does not exceed SW_NEG (R263). -/
def swLimits (w : Nat → Word) : Option (Tick × Tick) :=
  let lo := join64 (w 27) (w 28)
  let hi := join64 (w 29) (w 30)
  if lo.toInt < hi.toInt then some (lo, hi) else none

/-- A target is refused by the software limits, seen from a position (R263): motion away from a limit passed is accepted. -/
def swRefuses (lim : Option (Tick × Tick)) (x tgt : Tick) : Bool :=
  match lim with
  | none => false
  | some (lo, hi) =>
    (decide (hi.toInt < tgt.toInt) && !(decide (hi.toInt < x.toInt) && decide (tgt.toInt < x.toInt)))
    || (decide (tgt.toInt < lo.toInt) && !(decide (x.toInt < lo.toInt) && decide (x.toInt < tgt.toInt)))

/-! ### Plans (R253 to R256, R261, R262) -/

/-- A plan: its segments, its end, its deceleration, whether that was raised and whether it stops beyond the target. -/
structure AxPlan where
  plan : List Seg := []
  fin : PlanEnd := .vel 0#32
  dec : Word := 0#32
  raised : Bool := false
  back : Bool := false
  /-- The position it is to end at, and whether it reverses with its stop yet to be planned. -/
  aim : Tick := 0
  rev : Bool := false

/-- The end of phases: instant, position, speed. -/
def phasesEnd (dir : Rat) (t : Tick) (x v : Rat) : List PlanPhase → Tick × Rat × Rat
  | [] => (t, x, v)
  | p :: ps =>
    let d := Config.round64 p.t
    phasesEnd dir (t + tk (Config.planTicks (d * 16000000000))) (Config.round64 (x + dir * (v * d + p.a * d * d / 2 + p.j * d * d * d / 6)))
      (Config.round64 (v + p.a * d + p.j * d * d / 2)) ps

/-- The limits of a move in force: the axis values, or the move's own lower ones (R261); no jerk limit under PROFILE 0. -/
def axisLim (s : State) (slot : Nat) (m : MoveReq) : Lim :=
  let pick (own : Word) (i : Nat) : Rat := let l := s.cpR slot i; if ratOf own = 0 then l else min (ratOf own) l
  { v := pick m.v 3, a := pick m.a 4, d := pick m.d 5, j := if bitOf (s.cp slot 0) 13 then pick m.j 6 else 0 }

/-- A plan to a position from a state at an instant (R254, R255, R261). -/
def planMove (s : State) (slot : Nat) (t : Tick) (x v a : Rat) (l : Lim) (tgt : Tick) : AxPlan :=
  let d := posRat tgt - x
  if v = 0 then
    let dir : Rat := if d < 0 then -1 else 1
    { plan := if d = 0 then [] else segsOf dir t x 0 (movePhases l 0 0 0 (absR d)), fin := .at_ tgt, dec := rnd l.d, aim := tgt }
  else
    let dir := sgnR v
    let r := movingPlan l (s.cpR slot 7) (s.cpR slot 8) (absR v) (a * dir) (d * dir)
    { plan := segsOf dir t x (absR v) r.phases, fin := .at_ (if r.beyond then posOf (phasesEnd dir t x (absR v) r.phases).2.1 else tgt),
      dec := rnd (r.raised.getD l.d), raised := r.raised.isSome, back := r.beyond, aim := tgt }

/-- A plan to a velocity that goes on (R256). -/
def planVel (l : Lim) (t : Tick) (x v a w : Rat) : AxPlan :=
  let ps := velPhases l v a w
  let e := phasesEnd 1 t x v ps
  { plan := segsOf 1 t x v ps ++ (if w = 0 then [] else [{ start := e.1, dur := 2 ^ 62, x0 := posOf e.2.1, v0 := rnd w, a := 0#32, j := 0#32 }]),
    fin := if w = 0 then .at_ (posOf e.2.1) else .vel (rnd w), dec := rnd l.d }

/-- The segments a plan holds at most (R253). -/
def planMax : Nat := 8

/-- A JOG (R256) that stops at the software limit it approaches (R263). DEDUCED (log entry 80): where a reversal and the move to the limit
do not fit one plan of eight segments, the reversal is planned first, and the stop once the axis is past zero. -/
def planJog (s : State) (slot : Nat) (t : Tick) (x v a w0 : Rat) : AxPlan :=
  let l := axisLim s slot { tgt := 0 }
  let w := clampR (-l.v) l.v w0
  let lim := (swLimits (s.cp slot)).map (fun p => if 0 < w then posRat p.2 else posRat p.1)
  match lim with
  | none => planVel l t x v a w
  | some e =>
    if w = 0 then planVel l t x v a w
    else
      let dir := sgnR w
      if v * dir < 0 then
        let ps := stopPhases l.d l.j (absR v) (-(a * dir))
        let z := phasesEnd (-dir) t x (absR v) ps
        let d := (e - z.2.1) * dir
        let segs := segsOf (-dir) t x (absR v) ps ++ (if d ≤ 0 then [] else segsOf dir z.1 z.2.1 0 (movePhases { l with v := absR w } 0 0 0 d))
        if planMax < segs.length then { planVel l t x v a w with rev := true }
        else { plan := segs, fin := .at_ (if d ≤ 0 then posOf z.2.1 else posOf e), dec := rnd l.d, aim := posOf e }
      else if v = 0 ∧ (e - x) * dir ≤ 0 then { plan := [], fin := .at_ (posOf x), dec := rnd l.d, aim := posOf e }
      else planMove s slot t x v a { l with v := absR w } (posOf e)

/-- A ramp to rest with a deceleration and a jerk (R262). -/
def planStopRamp (t : Tick) (x v a d j : Rat) : AxPlan :=
  if v = 0 then { plan := [], fin := .at_ (posOf x), dec := rnd d }
  else
    let dir := sgnR v
    let ps := stopPhases d j (absR v) (a * dir)
    { plan := segsOf dir t x (absR v) ps, fin := .at_ (posOf (phasesEnd dir t x (absR v) ps).2.1), dec := rnd d }

/-- A HALT ramp, and a quick-stop ramp that never falls below the deceleration of the plan it replaces (R262). -/
def haltPlan (s : State) (slot : Nat) (t : Tick) (x v a : Rat) : AxPlan :=
  let l := axisLim s slot { tgt := 0 }
  planStopRamp t x v a l.d l.j
def quickPlan (s : State) (slot : Nat) (t : Tick) (x v a low : Rat) : AxPlan := planStopRamp t x v a (max low (s.cpR slot 7)) (s.cpR slot 8)

/-- The deceleration a quick-stop ramp of an axis does not fall below: that of the plan it is stopping under (R262). -/
def AxisS.low (x : AxisS) : Rat := if x.st = 5 ∨ x.st = 7 then ratOf x.dec else 0

/-- An axis with a plan. -/
def AxisS.run (x : AxisS) (p : AxPlan) : AxisS := { x with plan := p.plan, fin := p.fin, dec := p.dec, rev := p.rev, replan := false }

/-- A stop out of FOLLOWING keeps TARGET as it stands (R257, R262). -/
def AxisS.keepTarget (x : AxisS) : AxisS := if x.st = 4 then { x with tgt := some { tgt := x.target }, jog := none } else x

/-- The commanded state of a plan at an instant, and whether the plan has ended (R253). -/
def planAt (x : AxisS) (t : Tick) : (Tick × Word × Word) × Bool :=
  match segAt t x.plan with
  | some g => (segEval g t, false)
  | none => match x.fin with
    | .at_ p => ((p, 0#32, 0#32), true)
    | .vel v => ((x.x, v, 0#32), false)

/-- An axis is in a state that runs a plan. -/
def planRuns (st : Nat) : Bool := st == 2 || st == 3 || st == 5 || st == 7 || st == 8 || st == 10

/-- The commanded state of an axis at a boundary, as rationals, and whether its plan has ended. -/
def axisAt (s : State) (slot : Nat) (t : Tick) : (Rat × Rat × Rat) × Bool :=
  let x := s.axis slot
  let st := axisState s slot
  if planRuns st then
    let e := planAt x t
    ((posRat e.1.1, ratOf e.1.2.1, ratOf e.1.2.2), e.2)
  else if st = 4 then
    let e := referTo x.x x.v x.a (s.ctx slot).last t
    ((posRat e.1, ratOf e.2.1, ratOf e.2.2), false)
  else ((posRat x.x, 0, 0), true)

/-! ### The command table (R259) -/

/-- What the table looks at: the state, ABORTING, and whether a target or a JOG value is kept. -/
structure AxEff where
  st : Nat
  ab : Bool
  tgt : Bool
  jog : Bool

/-- The state RESUME goes on in. -/
def AxEff.resumed (e : AxEff) : Nat := if e.tgt then 2 else if e.jog then 3 else 1

/-- One command in one state: a status, and the state after it (R259). QSTOPPING after an ABORT_MOVE, and a stop out of
HOMING, end in STANDSTILL. `gone` says that RESUME may leave FAULT, `qs` that SET_LIMITS changes QS_DEC or QS_JERK. -/
def axisJudge (e : AxEff) (op : Nat) (gone qs : Bool) : Nat × AxEff :=
  let ok (x : AxEff) : Nat × AxEff := (stOK, x)
  let b : Nat × AxEff := (stBUSY_TARGET, e)
  let r : Nat × AxEff := (stREFUSED_STATE, e)
  let moving : AxEff := { e with st := 2, ab := false, tgt := true, jog := false }
  match op with
  | 0x30 => match e.st with
    | 1 => ok moving
    | 0 => r | 4 => r | 6 => r | 9 => r
    | _ => b
  | 0x31 => match e.st with
    | 1 => ok moving
    | 2 => ok e | 6 => ok e | 7 => ok e | 8 => ok e
    | 5 => if e.ab then b else ok e
    | _ => r
  | 0x32 => match e.st with
    | 1 => ok { e with st := 3, tgt := false, jog := true }
    | 3 => ok { e with jog := true }
    | 0 => r | 4 => r | 6 => r | 9 => r
    | _ => b
  | 0x33 => match e.st with
    | 0 => r | 9 => r
    | 2 => ok { e with st := 5, ab := false } | 3 => ok { e with st := 5, ab := false } | 4 => ok { e with st := 5, ab := false, tgt := true }
    | 10 => ok { e with st := 5, ab := true }
    | _ => ok e
  | 0x34 => match e.st with
    | 0 => r | 9 => r
    | 2 => ok { e with st := 7, ab := false } | 3 => ok { e with st := 7, ab := false } | 4 => ok { e with st := 7, ab := false, tgt := true }
    | 5 => ok { e with st := 7 }
    | 10 => ok { e with st := 7, ab := true }
    | _ => ok e
  | 0x35 => match e.st with
    | 1 => ok e | 2 => ok e | 3 => ok e
    | 5 => if e.ab then r else ok { e with st := e.resumed }
    | 6 => ok { e with st := e.resumed }
    | 7 => b | 8 => b
    | 9 => if gone then ok { e with st := e.resumed } else r
    | _ => r
  | 0x36 => if (e.st = 7 ∨ e.st = 8) ∧ qs then b else ok e
  | 0x37 => match e.st with
    | 1 => ok { e with st := 10 }
    | 0 => r | 4 => r | 6 => r | 9 => r
    | _ => b
  | 0x38 => match e.st with
    | 0 => ok e | 1 => ok e
    | 6 => r | 9 => r
    | _ => b
  | _ => match e.st with   -- ABORT_MOVE
    | 2 => ok { st := 5, ab := true, tgt := false, jog := false }
    | 3 => ok { st := 5, ab := true, tgt := false, jog := false }
    | 4 => ok { st := 5, ab := true, tgt := false, jog := false }
    | 10 => ok { st := 5, ab := true, tgt := false, jog := false }
    | 5 => ok { e with ab := true, tgt := false, jog := false }
    | 6 => ok { e with st := 1, tgt := false, jog := false }
    | 7 => ok { e with ab := true, tgt := false, jog := false }
    | _ => ok { e with tgt := false, jog := false }

/-- The axis as it stands. -/
def axisNow (s : State) (slot : Nat) : AxEff :=
  let x := s.axis slot
  { st := x.st, ab := x.ab, tgt := x.tgt.isSome, jog := x.jog.isSome }

/-- Commands that wait for the axis's next boundary, oldest first. -/
def axisWaits (s : State) (slot : Nat) : List (Nat × List Word) :=
  s.loop.pend.filterMap (fun p => match p.ch with
    | .ctxCmd k op ws => if k = slot then some (op, ws) else none
    | _ => none)

/-- The axis as it will stand once the commands that wait have applied. -/
def axisEff (s : State) (slot : Nat) : AxEff :=
  (axisWaits s slot).foldl (fun e c => (axisJudge e c.1 true false).2) (axisNow s slot)

/-- A source posts valid samples now. -/
def srcValid (s : State) : Src → Bool
  | .fb n => s.flag (R.fdbkStat_VALID n)
  | .obs k => (s.ctx k).kind == 6 && bitOf (s.cw k 64) 31
  | _ => false

/-- RESUME may leave FAULT: every consumer is ENABLED again and the cause is no longer present (R262). -/
def faultGone (s : State) (slot : Nat) : Bool :=
  axisReady s slot && (axisMode s slot == 2 || srcValid s (bPos (curBind s slot)))

/-! ### The motion commands (R258, R259) -/

/-- The move of a MOVE or MOVE_NEXT: its target, relative to `base` with REL. -/
def moveOf (ws : List Word) (base : Tick) : MoveReq :=
  let p (i : Nat) : Word := nth ws i 0#32
  let t := join64 (p 0) (p 1)
  { tgt := if bitOf (p 2) 0 then base + t else t, v := f32Flush (p 3), a := f32Flush (p 4), d := f32Flush (p 5), j := f32Flush (p 6) }

/-- The position the last accepted move ends at: the queue's last target, a waiting or running move's, or x_cmd. -/
def lastTarget (s : State) (slot : Nat) : Tick :=
  let x := s.axis slot
  let waiting := ((axisWaits s slot).filter (fun c => c.1 == 0x30 || c.1 == 0x31)).getLast?.map (fun c => (moveOf c.2 x.x).tgt)
  match (s.ctx slot).queue.getLast? with
  | some m => m.tgt
  | none => waiting.getD ((x.tgt.map (·.tgt)).getD x.x)

/-- The state checks of a parameter against an axis limit (R258): BAD_PARAM for a NaN or infinity, RANGE outside 0 to the limit. -/
def limCheck (s : State) (slot i : Nat) (w : Word) : Option Nat :=
  if badF32 w then some stBAD_PARAM else if ratOf w < 0 ∨ ratOf (s.cw slot i) < ratOf w then some stRANGE else none

def firstSome (l : List (Option Nat)) : Option Nat := (l.filterMap id).head?

/-- Motion from one position towards another meets an active hard limit (R264). -/
def towardLimit (s : State) (slot : Nat) (x tgt : Tick) : Bool :=
  (decide (x.toInt < tgt.toInt) && hardLimit s slot true) || (decide (tgt.toInt < x.toInt) && hardLimit s slot false)

/-- A command accepted for the axis's next boundary. -/
def axisAccept (s : State) (slot op : Nat) (ws : List Word) : Res :=
  let c := s.ctx slot
  let due := duePass s c.grp c.effDiv c.phase
  { st := addPend s c.grp due false (.ctxCmd slot op ws), affects := [(c.grp, due)] }

/-- The queue of an axis (R260). -/
def setQueue (s : State) (slot : Nat) (q : List MoveReq) : State := s.setCtx slot { s.ctx slot with queue := q }

/-- A command in the table: refused, without effect, or accepted for the boundary. -/
def axisTable (s : State) (slot op : Nat) (ws : List Word) (qs : Bool) : Res :=
  let e := axisEff s slot
  let j := axisJudge e op (faultGone s slot) qs
  if j.1 ≠ stOK then refuse s j.1
  else if e.st = j.2.st ∧ ((op = 0x33 ∨ op = 0x34 ∨ op = 0x35) ∨ (op = 0x39 ∧ e.st = 1)) then { st := s }
  else axisAccept s slot op ws

/-- MOVE and MOVE_NEXT (R258, R260, R263, R264). -/
def opMove (op : Nat) (r : Request) (s : State) : Res :=
  let k := r.target
  let x := s.axis k
  let e := axisEff s k
  let queued := op == 0x31 && (e.st != 1 || !(s.ctx k).queue.isEmpty)
  let base := if queued then lastTarget s k else x.x
  let m := moveOf r.params base
  orRefuse s (slotCheck s k [7, 8])
    (if (s.ctx k).kind = 7 ∨ axisMode s k ≠ 0 then refuse s stBAD_PARAM
     else orRefuse s (firstSome [limCheck s k 3 (r.p 3), limCheck s k 4 (r.p 4), limCheck s k 5 (r.p 5), limCheck s k 6 (r.p 6)])
      (let j := axisJudge e op false false
       if swRefuses (swLimits (s.cp k)) base m.tgt then refuse s stRANGE
       else if j.1 ≠ stOK then refuse s j.1
       else if towardLimit s k base m.tgt then refuse s stREFUSED_STATE
       else if queued then
         if 4 ≤ (s.ctx k).queue.length then refuse s stBUSY_TARGET else { st := setQueue s k ((s.ctx k).queue ++ [m]) }
       else axisAccept s k op r.params))

def execMove (r : Request) (s : State) : Host.Outcome State Fault Refusal := .next (serveReed r s (r.params.length == 7) (opMove 0x30 r))
def execMoveNext (r : Request) (s : State) : Host.Outcome State Fault Refusal := .next (serveReed r s (r.params.length == 7) (opMove 0x31 r))

/-- JOG (R256, R258). -/
def opJog (r : Request) (s : State) : Res :=
  let k := r.target
  let w := r.p 0
  let v := ratOf w
  orRefuse s (slotCheck s k [7, 8])
    (if (s.ctx k).kind = 7 ∨ badF32 w then refuse s stBAD_PARAM
     else if ratOf (s.cw k 3) < absR v then refuse s stRANGE
     else if (0 < v ∧ hardLimit s k true) ∨ (v < 0 ∧ hardLimit s k false) then
       (let j := axisJudge (axisEff s k) 0x32 false false
        refuse s (if j.1 ≠ stOK then j.1 else stREFUSED_STATE))
     else axisTable s k 0x32 r.params false)

def execJog (r : Request) (s : State) : Host.Outcome State Fault Refusal := .next (serveReed r s (r.params.length == 1) (opJog r))

/-- HALT, QUICK_STOP and ABORT_MOVE (R262). -/
def opStop (op : Nat) (r : Request) (s : State) : Res :=
  orRefuse s (slotCheck s r.target [7, 8]) (axisTable s r.target op [] false)

def execHalt (r : Request) (s : State) : Host.Outcome State Fault Refusal := .next (serveReed r s r.params.isEmpty (opStop 0x33 r))
def execQuickStop (r : Request) (s : State) : Host.Outcome State Fault Refusal := .next (serveReed r s r.params.isEmpty (opStop 0x34 r))
def execAbortMove (r : Request) (s : State) : Host.Outcome State Fault Refusal := .next (serveReed r s r.params.isEmpty (opStop 0x39 r))

/-- RESUME (R262, R264). -/
def opResume (r : Request) (s : State) : Res :=
  let k := r.target
  let x := s.axis k
  let blocked : Bool := match x.tgt, x.jog with
    | some m, _ => towardLimit s k x.x m.tgt
    | none, some w => (decide (0 < ratOf w) && hardLimit s k true) || (decide (ratOf w < 0) && hardLimit s k false)
    | none, none => false
  let e := axisEff s k
  let j := axisJudge e 0x35 (faultGone s k) false
  orRefuse s (slotCheck s k [7, 8])
    (if j.1 = stOK ∧ j.2.st ≠ e.st ∧ blocked then refuse s stREFUSED_STATE else axisTable s k 0x35 [] false)

def execResume (r : Request) (s : State) : Host.Outcome State Fault Refusal := .next (serveReed r s r.params.isEmpty (opResume r))

/-- The words of the context a SET_LIMITS mask names, in mask order. -/
def limitWords (mask : Nat) : List Nat :=
  ((List.range 6).filter (fun i => mask.testBit i)).map (· + 3) ++ (if mask.testBit 6 then [27, 28, 29, 30] else [])

/-- SET_LIMITS (R258, R261). -/
def opSetLimits (r : Request) (s : State) : Res :=
  let k := r.target
  let mask := (r.p 0).toNat
  let ws := limitWords mask
  let vals := ws.zip (r.params.drop 1)
  let bad := vals.map (fun p => if 27 ≤ p.1 then none
    else if badF32 p.2 then some stBAD_PARAM
    else if ratOf p.2 < 0 then some stRANGE
    else if ratOf p.2 = 0 ∧ p.1 ≠ 8 then some stBAD_PARAM else none)
  let flush (p : Nat × Word) : Nat × Word := if 27 ≤ p.1 then p else (p.1, f32Flush p.2)
  let s1 := vals.foldl (fun t p => t.setCw k p.1 (flush p).2) s
  let qs := mask.testBit 4 || mask.testBit 5
  orRefuse s (slotCheck s k [7, 8])
    (if 128 ≤ mask ∨ r.params.length ≠ 1 + ws.length then refuse s stBAD_PARAM
     else orRefuse s (firstSome bad)
      (let j := axisJudge (axisEff s k) 0x36 false qs
       if ratOf (s1.cw k 7) < ratOf (s1.cw k 5) then refuse s stBAD_PARAM
       else if j.1 ≠ stOK then refuse s j.1
       else axisAccept s1 k 0x36 (vals.flatMap (fun p => [wd (flush p).1, (flush p).2]))))

def execSetLimits (r : Request) (s : State) : Host.Outcome State Fault Refusal := .next (serveReed r s (!r.params.isEmpty) (opSetLimits r))

/-- SET_POSITION (R258). -/
def opSetPosition (r : Request) (s : State) : Res :=
  orRefuse s (slotCheck s r.target [7, 8]) (axisTable s r.target 0x38 r.params false)

def execSetPosition (r : Request) (s : State) : Host.Outcome State Fault Refusal := .next (serveReed r s (r.params.length == 2) (opSetPosition r))

/-! ### Homing (R265 to R268) -/

/-- First search direction of a method is negative. -/
def homeNeg (m : Nat) : Bool := m == 3 || m == 5 || m == 7 || m == 9 || m == 11

/-- A method takes its reference from the latch unit; it ends on a Z edge; its source must be an index source. -/
def homeLatch (m : Nat) : Bool := decide (2 ≤ m) && decide (m ≤ 7)
def homeIndex (m : Nat) : Bool := m == 4 || m == 5 || m == 8 || m == 9

/-- The reference input of a method: HOME_SW, or the searched limit; 0xFF none. -/
def homeRef (b : List Word) (m : Nat) : Nat :=
  if m = 6 then bLimPos b else if m = 7 then bLimNeg b else if 2 ≤ m ∧ m ≤ 5 then bHomeSw b else 0xFF

/-- The reference input is active: a limit under LIM_INV, a switch while it is on. -/
def homeRefOn (s : State) (slot m : Nat) : Bool :=
  let c := homeRef (curBind s slot) m
  if m = 6 ∨ m = 7 then limitOn s slot c else fieldOn s c

/-- A source counts edges with a once-only Z capture (R265). -/
def indexSource (s : State) : Src → Option Nat
  | .fb n => if fbMode s n = 0 ∧ s.fld (R.fdbkCfg_ZMODE n) = 1 then some n else none
  | _ => none

/-- The method lacks a binding it needs, or the limit it would search towards is active (R265). -/
def homeLacks (s : State) (slot m : Nat) : Bool :=
  let b := curBind s slot
  (homeLatch m && (decide (64 ≤ bLatch b) || decide (32 ≤ homeRef b m)))
  || (homeIndex m && (indexSource s (bPos b)).isNone)
  || (m == 1 && bPos b == .none)
  || ((m == 10 || m == 11) && axisMode s slot != 0)
  || (m != 6 && m != 7 && decide (2 ≤ m) && hardLimit s slot (!homeNeg m))

/-- HOME (R258, R265). The latch unit is owned from here on. -/
def opHome (r : Request) (s : State) : Res :=
  let k := r.target
  let m := bitsOf (r.p 0) 0 4
  let ofs := join64 (r.p 1) (r.p 2)
  let u := bLatch (curBind s k)
  orRefuse s (slotCheck s k [7, 8])
    (if (s.ctx k).kind = 7 ∨ 12 ≤ m ∨ (axisMode s k ≠ 0 ∧ m ≠ 0) then refuse s stBAD_PARAM
     else orRefuse s (firstSome [limCheck s k 3 (r.p 3), limCheck s k 3 (r.p 4)])
      (let j := axisJudge (axisEff s k) 0x37 false false
       if swRefuses (swLimits (s.cp k)) ofs ofs then refuse s stRANGE
       else if j.1 ≠ stOK then refuse s j.1
       else if homeLacks s k m then refuse s stREFUSED_STATE
       else if homeLatch m ∧ s.flag (R.latchStat_OWNED u) then refuse s stBUSY_TARGET
       else
         let s1 := if homeLatch m then s.setFlag (R.latchStat_OWNED u) true else s
         axisAccept s1 k 0x37 (r.params ++ [lo32 s.dt, hi32 s.dt])))

def execHome (r : Request) (s : State) : Host.Outcome State Fault Refusal := .next (serveReed r s (r.params.length == 6) (opHome r))

/-- A latch unit leaves the axis's hands (R242): EN 0, not owned. -/
def latchGive (s : State) (u : Nat) : State :=
  ((s.setFlag (R.latchCfg_EN u) false).setFlag (R.latchStat_ARMED u) false).setFlag (R.latchStat_OWNED u) false

/-- Homing ends without a result (R267): HOMED 0, and with a cause its count. -/
def AxisS.homeOut (x : AxisS) (cause : Option Nat) : AxisS :=
  { x with home := none, step := 0, homed := false, cause := cause.getD x.cause, homeFails := if cause.isSome then satInc 8 x.homeFails else x.homeFails }

/-- Homing failed by a command or a timeout (R267): event, CAUSE, count, HOMED 0, the latch unit released. -/
def homeFail (s : State) (slot cause : Nat) : State :=
  let x := s.axis slot
  let latch := match x.home with | some h => homeLatch h.method | none => false
  let s1 := s.setSt slot (.axis { x.homeOut (some cause) with tgt := none, jog := none })
  (if latch then latchGive s1 (bLatch (curBind s slot)) else s1).raise 167 (motNum s slot) (wd cause)

/-- Homing reaches HOME_TMO before step 6 (R267): it fails at the axis's next boundary. -/
def homeTimeout (s : State) (slot : Nat) : State :=
  match (s.axis slot).home with
  | some h => match h.tmo with
    | some t =>
      if axisState s slot = 10 ∧ (s.axis slot).step < 6 then
        let c := s.ctx slot
        addPend ((s.at t).setSt slot (.axis { s.axis slot with home := some { h with tmo := none } })) c.grp
          (duePass s c.grp c.effDiv c.phase) false (.ctxCmd slot 0x137 [])
      else s
    | none => s
  | none => s

def execHomeTimeout (slot : Fin 256) (s : State) : Host.Outcome State Fault Refusal := .next (homeTimeout s slot.val)

/-! ### At the axis boundary -/

/-- An axis takes up a plan with an aim (R261): DECEL_RAISED and OVERSHOOT tell of it, those of the plan before stand unless a new move
begins (`fresh`). A move back to the aim stands at the head of the queue exactly where the plan stops beyond it. -/
def planTake (s : State) (slot : Nat) (p : AxPlan) (m : MoveReq) (fresh : Bool) : State :=
  let x := s.axis slot
  let q := (s.ctx slot).queue
  let q1 := if x.back && (x.tgt.isSome || x.jog.isSome) then q.drop 1 else q
  let y := { x.run p with raised := p.raised || (!fresh && x.raised), overshot := p.back || (!fresh && x.overshot), back := p.back }
  let s1 := setQueue (s.setSt slot (.axis y)) slot (if p.back then m :: q1 else q1)
  if p.raised then s1.raise 162 (motNum s slot + if p.back then 0x8000 else 0) p.dec else s1

/-- An axis starts a move from standstill or along its plan (R258, R260, R261). -/
def startMove (s : State) (slot : Nat) (t : Tick) (m : MoveReq) (fresh : Bool) : State :=
  let c := (axisAt s slot t).1
  let s1 := planTake s slot (planMove s slot t c.1 c.2.1 c.2.2 (axisLim s slot m) m.tgt) m fresh
  axisSet (s1.setSt slot (.axis { s1.axis slot with tgt := some m, jog := none, target := m.tgt })) slot 2

/-- An axis runs at a JOG value (R256). -/
def startJog (s : State) (slot : Nat) (t : Tick) (w : Word) : State :=
  let c := (axisAt s slot t).1
  let p := planJog s slot t c.1 c.2.1 c.2.2 (ratOf w)
  let s1 := planTake s slot p { tgt := p.aim } false
  axisSet (s1.setSt slot (.axis { s1.axis slot with tgt := none, jog := some w })) slot 3

/-- An axis goes on with what it kept (R262); nothing kept, it is at rest. -/
def resumeKept (s : State) (slot : Nat) (t : Tick) : State :=
  let x := s.axis slot
  match x.tgt, x.jog with
  | some m, _ => startMove s slot t m true
  | none, some w => startJog s slot t w
  | none, none => if x.st = 5 then s else axisSet s slot 1

/-- An axis takes a stop ramp at a boundary: HALT (5) or quick stop (7), ending in STANDSTILL with `ab`. -/
def startStop (s : State) (slot : Nat) (t : Tick) (st : Nat) (ab : Bool) : State :=
  let c := (axisAt s slot t).1
  let x := s.axis slot
  let p := if st = 5 then haltPlan s slot t c.1 c.2.1 c.2.2 else quickPlan s slot t c.1 c.2.1 c.2.2 x.low
  let s1 := axisSet (s.setSt slot (.axis (x.keepTarget.run p))) slot st
  s1.setSt slot (.axis { s1.axis slot with ab := ab })

/-- What an ABORT_MOVE or a discard removes: the target, the JOG value and the queue. -/
def discardMoves (s : State) (slot : Nat) : State :=
  setQueue (s.setSt slot (.axis { s.axis slot with tgt := none, jog := none, back := false })) slot []

/-- A HOME begins at its boundary (R265); methods 0 and 1 go to step 6 at once, 10 and 11 leave no reference (R268). -/
def startHome (s : State) (slot : Nat) (ws : List Word) : State :=
  let p (i : Nat) : Word := nth ws i 0#32
  let m := bitsOf (p 0) 0 4
  let t0 := join64 (p 6) (p 7)
  let h : HomeS := { method := m, ofs := join64 (p 1) (p 2), vs := f32Flush (p 3), vc := f32Flush (p 4),
                     tmo := if p 5 = 0#32 then none else some (t0 + tk ((p 5).toNat * msTicks)), neg := homeNeg m }
  axisSet (s.setSt slot (.axis { s.axis slot with home := some h, plan := [], tgt := none, jog := none, method := m, revs := 0,
                                                  step := if m ≤ 1 then 6 else if 10 ≤ m then 2 else 1 })) slot 10

/-- A SET_POSITION or a homing shift: the same amount is added to x_cmd, x_act and TARGET. -/
def AxisS.shift (x : AxisS) (d : Tick) : AxisS :=
  { x with x := x.x + d, xa := x.xa + d, target := x.target + d, tgt := x.tgt.map (fun m => { m with tgt := m.tgt + d }) }

/-- Words of a SET_LIMITS put in force. -/
def forceLimits (s : State) (slot : Nat) : List Word → State
  | i :: v :: rest => forceLimits (s.setFrc (ctxAddr slot i.toNat) v) slot rest
  | _ => s

/-- Limits changed under an axis replan it in these states (R261): a move, a JOG, a normal ramp, a homing. -/
def replans (st : Nat) : Bool := st == 2 || st == 3 || st == 5 || st == 10

/-- An axis is to replan at its next boundary where its state does so. -/
def wantReplan (s : State) (slot : Nat) : State :=
  let x := s.axis slot
  if replans x.st then s.setSt slot (.axis { x with replan := true }) else s

/-- A command takes effect at its boundary T (0x137 a homing timeout, 0x138 a fault stop with cause 2); the flag says that the state at the boundary refuses it (R259, R269). -/
def axisApply (s : State) (slot op : Nat) (ws : List Word) (t : Tick) : State × Bool :=
  let n := motNum s slot
  let e := axisNow s slot
  let j := axisJudge e op (faultGone s slot) false
  let x := s.axis slot
  let done := planRuns e.st && (axisAt s slot t).2
  if op = 0x137 then
    (if e.st = 10 then startStop (homeFail s slot 2) slot t 7 true else s, false)
  else if op = 0x138 then
    (if e.st = 0 ∨ e.st = 8 ∨ e.st = 9 then s
     else
       let s1 := startStop (if e.st = 10 then homeFail s slot 3 else s) slot t 8 false
       (s1.setSt slot (.axis { s1.axis slot with cause := 2 })).raise 169 n 2#32, false)
  else if j.1 ≠ stOK then (if op = 0x37 ∧ homeLatch (bitsOf (nth ws 0 0#32) 0 4) then latchGive s (bLatch (curBind s slot)) else s, true)
  else match op with
    | 0x30 => (startMove s slot t (moveOf ws x.x) true, false)
    | 0x31 => (if e.st = 1 then startMove s slot t (moveOf ws x.x) true else s, false)
    | 0x32 => (startJog s slot t (f32Flush (nth ws 0 0#32)), false)
    | 0x33 => (if e.st = 10 then startStop (homeFail s slot 3) slot t 5 true
               else if e.st = j.2.st ∨ done then s else startStop s slot t 5 false, false)
    | 0x34 => (if e.st = 10 then startStop (homeFail s slot 3) slot t 7 true
               else if e.st = j.2.st ∨ (done ∧ (e.st = 2 ∨ e.st = 3)) then s else startStop s slot t 7 e.ab, false)
    | 0x35 => (if e.st = 1 ∨ e.st = 2 ∨ e.st = 3 then s else resumeKept s slot t, false)
    | 0x36 => (wantReplan (forceLimits s slot ws) slot, false)
    | 0x37 => (startHome s slot ws, false)
    | 0x38 =>
      let d := join64 (nth ws 0 0#32) (nth ws 1 0#32) - x.xa
      (s.setSt slot (.axis { x.shift d with homed := true }), false)
    | _ =>
      let s1 := discardMoves (if e.st = 10 then homeFail s slot 3 else s) slot
      (if e.st = 1 ∨ e.st = 8 ∨ e.st = 0 ∨ e.st = 9 then s1
       else if e.st = 5 ∨ e.st = 7 then s1.setSt slot (.axis { s1.axis slot with ab := true })
       else if e.st = 6 then axisSet s1 slot 1
       else discardMoves (startStop s1 slot t 5 true) slot, false)

/-- A replan from the commanded state at a boundary (R261). Homing goes on to the velocity of its step; a quick stop stands. -/
def axisReplan (s : State) (slot : Nat) (t : Tick) : State :=
  let x := s.axis slot
  let e := axisAt s slot t
  let c := e.1
  let keep (y : AxisS) : State := s.setSt slot (.axis { y with replan := false })
  if e.2 then keep x
  else match x.st, x.tgt, x.jog, x.home with
    | 2, some m, _, _ => startMove s slot t m false
    | 3, _, some w, _ => startJog s slot t w
    | 5, _, _, _ => keep (x.run (haltPlan s slot t c.1 c.2.1 c.2.2))
    | 10, _, _, some h =>
      if h.quick ∨ x.plan = [] then keep x
      else
        let l := axisLim s slot { tgt := 0 }
        keep (x.run (planVel l t c.1 c.2.1 c.2.2 (clampR (-l.v) l.v (ratOf h.goal))))
    | _, _, _, _ => keep x

/-- What an axis does at its own boundary once the commands have applied: replan under new limits (R261) or past the zero of a JOG that
reversed (R263), or start a follow-on (R260). -/
def axisBoundary (s : State) (slot : Nat) (t : Tick) : State :=
  let x := s.axis slot
  let past : Bool := x.rev && x.st == 3 && decide (0 < (axisAt s slot t).1.2.1 * ratOf (x.jog.getD 0#32))
  let s1 := if x.replan || past then axisReplan s slot t else s
  if axisState s1 slot = 1 then
    match (s1.ctx slot).queue with
    | m :: rest =>
      let s2 := setQueue s1 slot rest
      startMove (s2.setSt slot (.axis { s2.axis slot with back := false })) slot t m true
    | [] => s1
  else s1

/-! ### The axis pass (R249 to R252) -/

/-- What a pass has worked out so far. -/
structure AxW where
  x : AxisS
  occs : List Occ := []
  acts : List PassAct := []

def AxW.ev (w : AxW) (ev inst : Nat) (d : Word) : AxW := { w with occs := w.occs ++ [{ ev := ev, inst := inst, detail := d }] }
def AxW.act (w : AxW) (a : PassAct) : AxW := { w with acts := w.acts ++ [a] }
def AxW.enter (w : AxW) (st : Nat) : AxW := { w with x := { w.x with st := st } }
def AxW.step (w : AxW) (k : Nat) : AxW := { w with x := { w.x with step := k } }

/-- A position source at T(k): position, velocity in source units, VALID (R249, R273). -/
def axisSource (s : State) (r : Run) : Src → Tick × Word × Bool
  | .fb n =>
    let l := r.inp (inFb n)
    let p := referTo (w64 l 0) (nth l 2 0#32) 0#32 (w64 l 5) r.t
    (p.1, nth l 2 0#32, nth l 4 0#32 == 1#32)
  | .obs k =>
    let l := r.inp k
    let p := referTo (w64 l 2) (nth l 4 0#32) 0#32 (w64 l 0) r.t
    (p.1, nth l 4 0#32, nth l 6 0#32 == 1#32)
  | _ => (0, 0#32, let _ := s; false)

/-- The actual position carried on by a sample (R249). -/
def axisActual (s : State) (slot : Nat) (x : AxisS) (p : Tick) (v : Word) (ok : Bool) : AxisS :=
  if !ok then x
  else
    let num := s.cp slot 1
    let den := s.cp slot 2
    let d : Int := match x.pos with | some q => (p - q).toInt | none => 0
    let q := scaleRem d num den x.rem
    { x with pos := some p, rem := q.2, xa := x.xa + BitVec.ofInt 64 q.1,
             va := f32 (ratOf v * (num.toInt : Rat) / ((max 1 den.toNat : Nat) : Rat)) }

/-- A fault stop starts, or FAULT is entered: CAUSE and AXIS_FAULT (R252). -/
def AxW.fault (w : AxW) (n cause : Nat) : AxW := { w with x := { w.x with cause := cause } }.ev 169 n (wd cause)

/-- FAULT at once, the targets kept (R252, R262). -/
def AxW.drop (w : AxW) (n cause : Nat) : AxW := ({ w with x := w.x.keepTarget }.fault n cause).enter 9

/-- The end of homing without a result (R267), within a pass. -/
def AxW.homeOut (w : AxW) (s : State) (slot : Nat) (cause : Option Nat) : AxW :=
  match w.x.home with
  | none => w
  | some h =>
    let w1 := { w with x := w.x.homeOut cause }
    let w2 := if homeLatch h.method then w1.act (.latchFree (bLatch (curBind s slot))) else w1
    match cause with
    | some c => w2.ev 167 (motNum s slot) (wd c)
    | none => w2

/-- A stop ramp that a pass starts at its own boundary. -/
def AxW.stopRamp (w : AxW) (s : State) (slot : Nat) (t : Tick) (st : Nat) : AxW :=
  let p := quickPlan s slot t (posRat w.x.x) (ratOf w.x.v) (ratOf w.x.a) w.x.low
  { w with x := w.x.keepTarget.run p }.enter st

/-- The commanded state set. -/
def AxisS.cmd (x : AxisS) (c : Tick × Word × Word) : AxisS := { x with x := c.1, v := c.2.1, a := c.2.2 }

/-- What an axis in FOLLOWING reads from its producer: led, the state, a producer fault (R273, R284). -/
def readProducer (s : State) (slot : Nat) (r : Run) : Bool × (Tick × Word × Word) × Bool :=
  let p := bProd (curBind s slot)
  let l := r.inp p
  if (s.ctx p).kind = 11 then
    let m := ((bStroke (s.ctx p).bind).find? (fun e => e.2 == slot)).map (·.1) |>.getD 0
    let o := 3 + 4 * m
    (nth l 2 0#32 == 1#32, referTo (w64 l o) (nth l (o + 2) 0#32) (nth l (o + 3) 0#32) (w64 l 0) r.t, false)
  else
    (nth l 6 0#32 == 1#32, referTo (w64 l 2) (nth l 4 0#32) (nth l 5 0#32) (w64 l 0) r.t, nth l 7 0#32 == 1#32)

/-- Direction of an axis's motion at T(k): its velocity, or what it is about to do. -/
def motionDir (x : AxisS) : Rat := if ratOf x.v ≠ 0 then sgnR (ratOf x.v) else sgnR (ratOf x.a)

/-- A hard limit stops the motion (R264). -/
def AxW.limitTrip (w : AxW) (n : Nat) (pos : Bool) : AxW :=
  { w with x := { w.x with limTrips := satInc 8 w.x.limTrips } }.ev 164 n (if pos then 1#32 else 2#32)

/-- A homing axis is taken to a velocity within V_MAX. -/
def AxW.goTo (w : AxW) (s : State) (slot : Nat) (t : Tick) (h : HomeS) (v : Rat) : AxW :=
  let l := axisLim s slot { tgt := 0 }
  let p := planVel l t (posRat w.x.x) (ratOf w.x.v) (ratOf w.x.a) (clampR (-l.v) l.v v)
  { w with x := { w.x.run p with home := some { h with goal := rnd v, quick := false } } }

/-- The reference is armed and the search begins (R266 steps 2 and 3, R268). -/
def AxW.search (w : AxW) (s : State) (slot : Nat) (t : Tick) (h : HomeS) : AxW :=
  let b := curBind s slot
  let v := ratOf (if 10 ≤ h.method then h.vc else h.vs) * (if h.neg then -1 else 1)
  let idx := indexSource s (bPos b)
  let z0 := match idx with | some f => (s.fb f).zseq | none => 0
  let w1 := w.goTo s slot t { h with turn := false, cnt0 := wd (s.fld (R.latchStat_COUNT (bLatch b))), z0 := z0, hits := 0 } v
  let edge := if (h.method = 6 ∨ h.method = 7) ∧ bitOf (s.cp slot 0) 12 then 2 else 1
  let w2 := if homeLatch h.method then w1.act (.latchArm (bLatch b) (homeRef b h.method) edge slot) else w1
  let w3 := match idx with
    | some f => if h.method = 8 ∨ h.method = 9 then w2.act (.zarm f) else w2
    | none => w2
  w3.step 3

/-- The axis stops on the normal ramp, or a quick one where a limit is active, and goes on at step `step`. -/
def AxW.homeStop (w : AxW) (s : State) (slot : Nat) (t : Tick) (quick : Bool) (h : HomeS) (step : Nat) : AxW :=
  let x := posRat w.x.x
  let p := if quick then quickPlan s slot t x (ratOf w.x.v) (ratOf w.x.a) 0 else haltPlan s slot t x (ratOf w.x.v) (ratOf w.x.a)
  { w with x := { w.x.run p with home := some { h with goal := 0#32, quick := quick } } }.step step

/-- The latch capture of a homing axis: its instant and position, once it has completed after arming (R266). -/
def homeCapture (s : State) (slot : Nat) (h : HomeS) : Option (Tick × Tick) :=
  let u := bLatch (curBind s slot)
  if homeLatch h.method ∧ wd (s.fld (R.latchStat_COUNT u)) ≠ h.cnt0 ∧ s.fld (R.latchStat_PVALID u) % 2 = 1 then
    some (s.reg64 (R.latchRdtLo u), s.reg64 (R.latchRposLo u 0))
  else none

/-- The Z capture of a homing axis, x_act interpolated at its instant (R266, R240). -/
def homeZ (s : State) (slot : Nat) (h : HomeS) : Option (Tick × Tick) :=
  match indexSource s (bPos (curBind s slot)) with
  | some f =>
    let x := s.fb f
    if h.z0 < x.zseq then (histAt s (srcAct slot) x.zt).map (fun p => (x.zt, p)) else none
  | none => none

/-- The instant of the reference of a step whose capture has not completed yet. -/
def homePending (s : State) (slot : Nat) (h : HomeS) (step : Nat) : Option Tick :=
  if step = 4 ∨ h.method = 8 ∨ h.method = 9 then
    match indexSource s (bPos (curBind s slot)) with
    | some f => if h.z0 < (s.fb f).zseq then some (s.fb f).zt else none
    | none => none
  else if homeLatch h.method then (s.lu (bLatch (curBind s slot))).waits.head? else none

/-- One pass of a homing axis (R266 to R268). `ended` says that its plan has run out. -/
def homePass (s : State) (slot : Nat) (t : Tick) (ended : Bool) (w : AxW) (h : HomeS) : AxW :=
  let n := motNum s slot
  let b := curBind s slot
  let step := w.x.step
  let dir : Rat := if h.neg then -1 else 1
  let mdir : Bool := if step = 1 then h.neg else !h.neg        -- positive motion
  let searched (pos : Bool) : Bool := (h.method == 6 && pos) || (h.method == 7 && !pos)
  let hit (pos : Bool) : Bool := hardLimit s slot pos && !searched pos
  let counted : Option Bool :=
    if !(step == 1 || step == 3 || step == 4) then none
    else if hit mdir then some mdir else if hit (!h.neg) then some (!h.neg) else none
  let early (e : Tick) : Bool := match counted with
    | some pos => decide (e.toNat < (tblGet s.field.edgeAt (if pos then bLimPos b else bLimNeg b) 0).toNat)
    | none => true
  let index : Bool := h.method == 4 || h.method == 5
  let z : Option (Tick × Tick) := if step = 4 ∨ h.method = 8 ∨ h.method = 9 then homeZ s slot h else none
  let after (e : Tick) : Bool := decide (step ≠ 4) || decide ((h.tSw.getD 0).toNat < e.toNat)
  -- the reference of this step, completed or to come, before any limit edge
  let ref : Option (Tick × Tick) := (if step = 3 then (if h.method = 8 ∨ h.method = 9 then z else homeCapture s slot h) else z).filter (fun e => after e.1)
  let refs : Bool := (step == 3 && !index) || step == 4
  if step = 6 then
    let xl : Tick := match h.method with
      | 0 => w.x.xa
      | _ => h.xl.getD w.x.xa
    let abs := scaleRem ((w.x.pos.getD 0).toInt) (s.cp slot 1) (s.cp slot 2) 0
    let d : Tick := if h.method = 1 then BitVec.ofInt 64 abs.1 + h.ofs - w.x.xa else h.ofs - xl
    let w1 : AxW := { w with x := { w.x.shift d with home := none, plan := [], rem := if h.method = 1 then abs.2 else w.x.rem, step := 0, homed := true, st := 1 } }
    (if homeLatch h.method then w1.act (.latchFree (bLatch b)) else w1).ev 166 n (wd h.method)
  else if step = 2 then w.search s slot t h
  else if h.turn then
    (if ended then { w with x := { w.x with home := some { h with turn := false } } }.step 2 else w)
  else if h.late then
    match ref with
    | some e => { w with x := { w.x with home := some { h with late := false, xl := some e.2 } } }.step 5
    | none => w
  else match ref.filter (fun e => early e.1), counted with
    | some e, none =>
      if index && step == 3 then
        let idx := indexSource s (bPos b)
        let z0 := match idx with | some f => (s.fb f).zseq | none => 0
        let w1 := (w.goTo s slot t { h with tSw := some e.1, z0 := z0 } (ratOf h.vc * dir)).step 4
        match idx with
        | some f => w1.act (.zarm f)
        | none => w1
      else w.homeStop s slot t false { h with xl := some e.2 } 5
    | found, some pos =>
      let w1 := w.limitTrip n pos
      match (if refs then found else none) with
      | some e => w1.homeStop s slot t true { h with xl := some e.2 } 5
      | none =>
        if refs && ((homePending s slot h step).filter (fun e => after e && early e)).isSome then w1.homeStop s slot t true { h with late := true } step
        else if w.x.revs = 0 then
          let w2 := w1.homeStop s slot t true { h with turn := true, neg := pos } step
          { w2 with x := { w2.x with revs := 1 } }
        else
          let w2 := (w1.homeOut s slot (some 1)).stopRamp s slot t 7
          { w2 with x := { w2.x with ab := true } }
    | none, none =>
      match step with
      | 1 =>
        if w.x.plan = [] then
          if homeRefOn s slot h.method then w.goTo s slot t h (-(ratOf h.vs) * dir) else w.step 2
        else if homeRefOn s slot h.method then w
        else w.homeStop s slot t false { h with turn := true } 1
      | 3 =>
        if 10 ≤ h.method then
          let e := absR (posRat w.x.x - posRat w.x.xa)
          let hits := if s.cpR slot 35 ≤ e then h.hits + 1 else 0
          if bitsOf (s.cp slot 36) 0 16 ≤ hits then
            let x1 := w.x.cmd (w.x.xa, 0#32, 0#32)
            { w with x := { x1 with plan := [], fin := .at_ w.x.xa, home := some { h with xl := some w.x.xa, hits := hits }, step := 6 } }
          else { w with x := { w.x with home := some { h with hits := hits } } }
        else w
      | 4 =>
        match z, indexSource s (bPos b) with
        | some _, some f => { w with x := { w.x with home := some { h with z0 := h.z0 + 1 } } }.act (.zarm f)
        | _, _ => w
      | _ =>
        let pos : Bool := decide (0 < motionDir w.x)
        if ended then w.step 6
        else if !h.quick && decide (motionDir w.x ≠ 0) && hit pos then (w.limitTrip n pos).homeStop s slot t true h 5
        else w

/-- The effort of a pass (R250, R251): the axis with its integrator and filters, EFFORT, and whether it was clamped (1 positive, 2 negative). -/
def axisEffort (s : State) (slot : Nat) (x : AxisS) (tp el : Rat) (homeT : Bool) : AxisS × Rat × Nat :=
  let mode := axisMode s slot
  let p (i : Nat) : Rat := s.cpR slot i
  let ex := ratOf (f32 (posRat (x.x - x.xa)))
  let vref := if mode = 0 then p 9 * ex + p 10 * ratOf x.v else ratOf x.v
  let ev := vref - ratOf x.va
  let u := p 11 * ev + ratOf x.integ + p 13 * ratOf x.a + p 14
  let part (i : Nat) : List Word := (x.filt.drop (4 * i)).take 4
  let notchOn (i : Nat) : Bool := decide (p i ≠ 0) && decide (p i * tp ≤ 45 / 100)
  let f0 := if p 17 = 0 then (u, part 0) else biquadRun (lowpassOf (p 17) tp) (part 0) u
  let f1 := if notchOn 18 then biquadRun (notchOf (p 18) (p 19) (p 20) tp) (part 1) f0.1 else (f0.1, part 1)
  let f2 := if notchOn 21 then biquadRun (notchOf (p 21) (p 22) (p 23) tp) (part 2) f1.1 else (f1.1, part 2)
  let pad (l : List Word) : List Word := (l ++ [0#32, 0#32, 0#32, 0#32]).take 4
  let hi := if homeT then p 34 else p 15
  let lo := if homeT then -(p 34) else p 16
  let uf := f2.1
  let eff := clampR lo hi uf
  let integ := if eff = uf ∨ sgnR ev ≠ sgnR uf then rnd (ratOf x.integ + p 12 * el * ev) else x.integ
  ({ x with integ := integ, filt := pad f0.2 ++ pad f1.2 ++ pad f2.2 }, eff, if eff < uf then 1 else if uf < eff then 2 else 0)

/-- Distance of two positions, as a rational. -/
def posDist (a b : Tick) : Rat := absR (posRat a - posRat b)

/-- What happens to an axis that is drive-ready and in no fault: its commanded state at T(k), ends of plans, stops (R252, R257, R263, R264). -/
def axisMotion (s : State) (slot : Nat) (r : Run) (w0 : AxW) : AxW :=
  let n := motNum s slot
  let t := r.t
  let x0 := w0.x
  let st := x0.st
  let b := curBind s slot
  let mode := axisMode s slot
  let pl := planAt x0 t
  let prod := readProducer s slot r
  let q := (s.ctx slot).queue.length
  let held := st == 1 && (s.ctx slot).kind == 7 && bProd b == 0xFFFF   -- the parameters give the reference (R246)
  let el := ticksSec r.el
  let stand : AxisS := x0.cmd (x0.x, 0#32, 0#32)
  let x : AxisS :=
    if held ∧ mode = 0 then x0.cmd (join64 (s.cp slot 31) (s.cp slot 32), 0#32, 0#32)
    else if held ∧ mode = 1 then x0.cmd (x0.x + posOf (s.cpR slot 33 * el), s.cp slot 33, 0#32)
    else if st = 4 then
      (if prod.1 then x0.cmd prod.2.1 else if prod.2.2 then x0.cmd (referTo x0.x x0.v x0.a (s.ctx slot).last t) else stand)
    else if st = 10 ∧ x0.plan = [] then stand
    else if planRuns st then x0.cmd pl.1
    else stand
  let x := if mode = 2 then { x with xa := x.x, va := x.v } else x
  let ended := planRuns st && pl.2
  let w := { w0 with x := x }
  let ends : AxW :=
    match st with
    | 2 => ({ w with x := { x with tgt := none } }.enter 1).ev 161 n (wd q)
    | 3 => { w with x := { x with jog := none } }.enter 1
    | 5 => w.enter (if x.ab then 1 else 6)
    | 7 => w.enter (if x.ab then 1 else 6)
    | 8 => { w with acts := w.acts ++ (axisConsumers s slot).map PassAct.disable }.enter 9
    | _ => w
  let dir := if held ∧ mode = 0 then sgnR ((x.x - x0.x).toInt : Rat) else motionDir x
  let limit : Option Bool := if 0 < dir ∧ hardLimit s slot true then some true else if dir < 0 ∧ hardLimit s slot false then some false else none
  let stops : AxW :=
    if st = 4 ∧ !prod.1 ∧ prod.2.2 then (w.fault n 2).stopRamp s slot t 8
    else if held ∧ mode = 0 ∧ limit.isSome then (({ w with x := stand }).limitTrip n (limit.getD true)).stopRamp s slot t 7
    else if (held ∨ st = 2 ∨ st = 3 ∨ st = 4 ∨ st = 5) ∧ limit.isSome then (w.limitTrip n (limit.getD true)).stopRamp s slot t 7
    else if st = 4 then
      match swLimits (s.cp slot) with
      | some (lo, hi) =>
        if hi.toInt < x.x.toInt then (w.ev 165 n 1#32).stopRamp s slot t 7
        else if x.x.toInt < lo.toInt then (w.ev 165 n 2#32).stopRamp s slot t 7 else w
      | none => w
    else w
  let w1 : AxW := if st = 10 then (match x.home with | some h => homePass s slot t ended w h | none => w)
    else if ended then ends else stops
  -- following error (R252)
  let lim := s.cpR slot 24
  let err := if mode = 1 then absR (ratOf x.v - ratOf x.va) else posDist x.x x.xa
  let hard := match x.home with | some h => decide (10 ≤ h.method) | none => false
  let st1 := w1.x.st
  let inMotion := (st1 == 2 || st1 == 3 || st1 == 4 || st1 == 5 || st1 == 7 || st1 == 10) && !hard && decide (lim ≠ 0)
  let fe := if inMotion && decide (lim < err) then x.fe + 1 else 0
  if inMotion && decide (bitsOf (s.cp slot 25) 0 16 ≤ fe) && decide (0 < fe) then
    let w2 := (((w1.fault n 1).homeOut s slot none).ev 163 n (rnd err)).stopRamp s slot t 8
    { w2 with x := { w2.x with fe := 0, feTrips := satInc 16 w2.x.feTrips } }
  else { w1 with x := { w1.x with fe := fe } }

/-- The pass of an axis (R249 to R252, R257, R272). DEDUCED (log entry 80): cause 4 is a consumer that took effort at the last pass and
takes none now; an axis that is not drive-ready for another reason becomes DISABLED out of motion and goes on in motion. -/
def axisPass (s : State) (slot : Nat) (r : Run) : PassOut :=
  let c := s.ctx slot
  let n := c.num
  let mode := axisMode s slot
  let src := bPos c.bind
  let smp := axisSource s r src
  let valid := mode == 2 || smp.2.2
  let x0 := s.axis slot
  let st := x0.st
  let x1 := if mode = 2 then x0 else axisActual s slot x0 smp.1 smp.2.1 smp.2.2
  let ready := axisReady s slot
  let left := x0.on.any (fun k => !consumerOn s k)
  let base : AxW := { x := { x1 with on := (axisConsumers s slot).filter (consumerOn s) } }
  let follow (x : AxisS) : AxisS := if mode = 2 then { x with v := 0#32, a := 0#32, xa := x.x, va := 0#32 } else x.cmd (x.xa, 0#32, 0#32)
  let lost := st != 0 && st != 9
  let w : AxW :=
    if lost && src != .none && !valid then (base.homeOut s slot (if st = 10 then some 4 else none)).drop n 3
    else if lost && left then (base.homeOut s slot (if st = 10 then some 5 else none)).drop n 4
    else if st = 0 then
      (if !ready then base else if x1.tgt.isSome then base.enter 6 else { base with x := { base.x with jog := none } }.enter 1)
    else if st = 9 then base
    else if !ready ∧ (st = 1 ∨ st = 6) then base.enter 0
    else axisMotion s slot r base
  let w : AxW := if st = 0 ∨ w.x.st = 9 ∨ w.x.st = 0 then { w with x := follow w.x } else w
  let st1 := w.x.st
  let homeT := match w.x.home with | some h => decide (10 ≤ h.method) && x0.step == 3 | none => false
  let tp := ticksSec (frameLen s c.grp * c.effDiv)
  let none0 := mode == 2 || st == 0 || st1 == 0 || st1 == 9
  let e : AxisS × Rat × Nat := if none0 then ((if (st = 0 ∨ st1 = 0) ∧ mode ≠ 2 then { w.x with integ := 0#32 } else w.x), 0, 0)
    else axisEffort s slot w.x tp (ticksSec r.el) homeT
  let x := e.1
  let eff := rnd e.2.1
  let ferr := if mode = 1 then rnd (ratOf x.v - ratOf x.va) else f32 (posRat (x.x - x.xa))
  let sw := swLimits (s.cp slot)
  let info : List (RF × Nat) :=
    [(R.motionAxinfo_AT_TARGET n, b2n (st1 == 1 && decide (posDist x.xa x.target ≤ s.cpR slot 26))),
     (R.motionAxinfo_LIM_POS n, b2n (hardLimit s slot true)), (R.motionAxinfo_LIM_NEG n, b2n (hardLimit s slot false)),
     (R.motionAxinfo_SWL_POS n, b2n (match sw with | some p => decide (p.2.toInt ≤ x.x.toInt) | none => false)),
     (R.motionAxinfo_SWL_NEG n, b2n (match sw with | some p => decide (x.x.toInt ≤ p.1.toInt) | none => false)),
     (R.motionAxinfo_TLIM n, b2n (e.2.2 != 0))]
  let w32 (a : Nat) (v : Word) : RF × Nat := (⟨a, 0, 32⟩, v.toNat)
  let regs : List (RF × Nat) :=
    [w32 (R.motionXcmdLo n) (lo32 x.x), w32 (R.motionXcmdHi n) (hi32 x.x), w32 (R.motionXactLo n) (lo32 x.xa), w32 (R.motionXactHi n) (hi32 x.xa),
     w32 (R.motionTargetLo n) (lo32 x.target), w32 (R.motionTargetHi n) (hi32 x.target), w32 (R.motionVcmd n) x.v, w32 (R.motionVact n) x.va,
     w32 (R.motionAcmd n) x.a, w32 (R.motionFerr n) ferr, w32 (R.motionEffort n) eff, w32 (R.motionDecel n) x.dec]
  { st := .axis { x with st := st }, flds := info ++ regs,
    out := [lo32 r.t, hi32 r.t, lo32 x.x, hi32 x.x, x.v, x.a, lo32 x.xa, hi32 x.xa, x.va, eff, wd (b2n (st1 != 0 && st1 != 9)), wd (b2n valid), wd mode],
    occs := w.occs ++ (if e.2.2 ≠ 0 then [{ ev := 168, inst := n, detail := wd e.2.2 }] else []),
    trans := if st1 ≠ st then [(slot, st, st1)] else [],
    acts := w.acts ++ [.hist (srcAct slot) x.xa valid, .hist (srcCmd slot) x.x true, .inkValue 2 n x.va, .inkAxis n x.xa] }

def execAxisPass (slot : Fin 256) (s : State) : Host.Outcome State Fault Refusal := .next (passRow s slot.val [7, 8] axisPass)

end Sys2Proof.Machine
end

