-- ==== Sys2Proof/Machine/Motion.lean ====
section
/-! DEFINITION. Gears, cams in use, stroke groups, and the passes of both (11_gearing_strokes.md). -/

namespace Sys2Proof.Machine

open Sys2Proof

/-! ### Reading positions (R273, R284) -/

/-- A source read at an instant: position, velocity, acceleration, valid. -/
structure PosRead where
  x : Tick
  v : Rat
  a : Rat
  ok : Bool

/-- A master or modulator referred to an instant by R273; `inp` gives the outputs as they are read. -/
def gearRead (inp : Nat → List Word) (t : Tick) : GSrc → PosRead
  | .axisCmd k =>
    let l := inp k
    let p := referTo (w64 l 2) (nth l 4 0#32) (nth l 5 0#32) (w64 l 0) t
    { x := p.1, v := ratOf p.2.1, a := ratOf p.2.2, ok := nth l 10 0#32 == 1#32 }
  | .axisAct k =>
    let l := inp k
    { x := (referTo (w64 l 6) (nth l 8 0#32) 0#32 (w64 l 0) t).1, v := ratOf (nth l 8 0#32), a := 0, ok := nth l 11 0#32 == 1#32 }
  | .pos (.fb n) =>
    let l := inp (inFb n)
    { x := (referTo (w64 l 0) (nth l 2 0#32) 0#32 (w64 l 5) t).1, v := ratOf (nth l 2 0#32), a := 0, ok := nth l 4 0#32 == 1#32 }
  | .pos (.obs k) =>
    let l := inp k
    { x := (referTo (w64 l 2) (nth l 4 0#32) 0#32 (w64 l 0) t).1, v := ratOf (nth l 4 0#32), a := 0, ok := nth l 6 0#32 == 1#32 }
  | _ => { x := 0, v := 0, a := 0, ok := false }

/-- Outputs as they stand now, by the keys of a Run. -/
def inputNow (s : State) (k : Nat) : List Word := if 0x10000 ≤ k then fbInput s (k - 0x10000) else if 0x100 ≤ k then farOut s k else (s.ctx k).out

/-! ### Gears: states and commands (R280 to R283) -/

def gMode (s : State) (slot : Nat) : Nat := bitsOf (s.cp slot 0) 14 2

/-- The axes that name a gear or stroke group as their producer. -/
def producerAxes (s : State) (slot : Nat) : List Nat :=
  s.slots.filter (fun k => ((s.ctx k).kind == 7 || (s.ctx k).kind == 8) && bProd (curBind s k) == slot)

/-- The one follower of a gear. -/
def gearFollower (s : State) (slot : Nat) : Option Nat := match producerAxes s slot with | [k] => some k | _ => none

/-- The ratio of two words in binary32 (R276). -/
def ratioW (num den : Word) : Word := f32 ((num.toInt : Rat) / ((max 1 den.toNat : Nat) : Rat))

/-- The sources a gear needs are valid now (R281, R284): none, or the first cause. -/
def gearBadNow (s : State) (slot : Nat) : Option Nat :=
  let b := curBind s slot
  if !(gearRead (inputNow s) s.dt (bMaster b)).ok then some 1
  else if gMode s slot = 2 ∧ !(gearRead (inputNow s) s.dt (bMod b)).ok then some 2
  else none

/-- What a command does to the state of a gear (R280 to R283): a status and the state after it. -/
def gearJudge (st op : Nat) (ws : List Word) : Nat × Nat :=
  let p (i : Nat) : Word := nth ws i 0#32
  match op with
  | 0x40 => if st = 0 then (stOK, if bitOf (p 0) 2 then 1 else if bitsOf (p 0) 0 2 = 1 then 2 else 3) else (stBUSY_TARGET, st)
  | 0x41 =>
    if st = 0 then (stOK, 0) else if st = 1 then (stOK, 0) else if st = 5 then (stBUSY_TARGET, 5)
    else if bitsOf (p 0) 0 2 = 2 then (stOK, 0) else (stOK, 5)
  | _ =>
    if st = 0 then (stOK, 0)
    else if st = 3 then (stOK, if ratOf (p 2) = 0 then 3 else 4)
    else if st = 5 then (stREFUSED_STATE, 5) else (stBUSY_TARGET, st)

/-- The state of a gear once the commands that wait have applied. -/
def gearEff (s : State) (slot : Nat) : Nat :=
  ((s.gear slot).todo.map (fun c => (c.1, c.2.1)) ++ axisWaits s slot).foldl (fun st c => (gearJudge st c.1 c.2).2) (gearState s slot)

/-- The cam position a GMODE 1 gear puts its follower at. -/
def camPosition (s : State) (slot : Nat) (r : Rat) (u : Tick) : Rat :=
  posRat (join64 (s.cp slot 3) (s.cp slot 4)) + r * (camEval s (bCam (curBind s slot)) (posRat u)).y

/-- GEAR_ENGAGE (R281). -/
def opGearEngage (r : Request) (s : State) : Res :=
  let k := r.target
  let ramp := bitsOf (r.p 0) 0 2 == 1
  orRefuse s (slotCheck s k [9, 10])
    (if bitsOf (r.p 0) 3 29 ≠ 0 ∨ 2 ≤ bitsOf (r.p 0) 0 2 ∨ badF32 (r.p 3) ∨ (ramp ∧ ratOf (r.p 3) ≤ 0) then refuse s stBAD_PARAM
     else if gearEff s k ≠ 0 then refuse s stBUSY_TARGET
     else match gearFollower s k with
       | none => refuse s stREFUSED_STATE
       | some f =>
         let m := gearRead (inputNow s) s.dt (bMaster (curBind s k))
         let far := gMode s k == 1 && !ramp
           && decide (s.cpR f 26 < absR (posRat (s.axis f).x - camPosition s k (ratOf (ratioW (s.cp k 1) (s.cp k 2))) m.x))
         if (axisEff s f).st ≠ 1 ∨ (gearBadNow s k).isSome ∨ far then refuse s stREFUSED_STATE
         else axisAccept s k 0x40 r.params)

def execGearEngage (r : Request) (s : State) : Host.Outcome State Fault Refusal := .next (serveReed r s (r.params.length == 4) (opGearEngage r))

/-- GEAR_DISENGAGE (R283). -/
def opGearDisengage (r : Request) (s : State) : Res :=
  let k := r.target
  let mode := bitsOf (r.p 0) 0 2
  let e := gearEff s k
  let moving : Bool := match gearFollower s k with | some f => ratOf (s.axis f).v != 0 | none => false
  orRefuse s (slotCheck s k [9, 10])
    (if mode = 3 ∨ (r.params.length == 2) != (mode == 0) then refuse s stBAD_PARAM
     else if mode = 0 ∧ (gMode s k = 1 ∨ badF32 (r.p 1) ∨ ratOf (r.p 1) ≤ 0) then refuse s stBAD_PARAM
     else if e = 0 then { st := s }
     else if e = 5 then refuse s stBUSY_TARGET
     else if mode = 2 ∧ e ≠ 1 ∧ moving then refuse s stREFUSED_STATE
     else axisAccept s k 0x41 r.params)

def execGearDisengage (r : Request) (s : State) : Host.Outcome State Fault Refusal :=
  .next (serveReed r s (r.params.length == 1 || r.params.length == 2) (opGearDisengage r))

/-- GEAR_RATIO (R282). The word after its parameters tells the state it was accepted in. -/
def opGearRatio (r : Request) (s : State) : Res :=
  let k := r.target
  let e := gearEff s k
  let j := gearJudge e 0x42 r.params
  orRefuse s (slotCheck s k [9, 10])
    (if r.p 1 = 0#32 ∨ badF32 (r.p 2) ∨ ratOf (r.p 2) < 0 then refuse s stBAD_PARAM
     else if j.1 ≠ stOK then refuse s j.1
     else axisAccept ((s.setCw k 1 (r.p 0)).setCw k 2 (r.p 1)) k 0x42 (r.params ++ [wd e]))

def execGearRatio (r : Request) (s : State) : Host.Outcome State Fault Refusal := .next (serveReed r s (r.params.length == 3) (opGearRatio r))

/-- A held reply carries REFUSED_STATE where its command met its boundary in a state that refuses it (R79, R202). -/
def heldRefuse (s : State) (ticket : Nat) (stamp : Nat) : State :=
  s.withCmd { s.cmd with deferred := s.cmd.deferred.map (fun (d : Deferred) =>
      if d.ticket = ticket then { d with waits := [], final := d.final.orElse (fun _ => some (stREFUSED_STATE, stamp)) } else d) }

/-- A held reply waits on for the pass of a gear, named by its slot above the groups. -/
def gearHold (s : State) (slot ticket : Nat) : State :=
  s.withCmd { s.cmd with deferred := s.cmd.deferred.map (fun (d : Deferred) => if d.ticket = ticket then { d with waits := d.waits ++ [(8 + slot, 0#32)] } else d) }

/-- The pass of a gear ends that wait; with a stamp the command was not carried out (R296). -/
def gearAnswer (s : State) (slot ticket : Nat) (refused : Option Nat) : State :=
  match refused with
  | some stamp => heldRefuse s ticket stamp
  | none => s.withCmd { s.cmd with deferred := s.cmd.deferred.map (fun (d : Deferred) =>
      if d.ticket = ticket then { d with waits := d.waits.filter (fun w => w.1 != 8 + slot) } else d) }

/-- A gear command at the boundary of the gear's next pass; the flag says that the state refuses it (R281, R282). A command of a gear that
is engaged in any way goes to that pass, which finds first whether master and modulator are valid (R296). -/
def gearApply (s : State) (slot op : Nat) (ws : List Word) (ticket : Nat) : State × Bool :=
  let p (i : Nat) : Word := nth ws i 0#32
  let x := s.gear slot
  let j := gearJudge x.st op ws
  if j.1 ≠ stOK ∨ (op = 0x42 ∧ x.st = 0 ∧ p 3 ≠ 0#32) then (s, true)
  else if x.st ≠ 0 then (gearHold (s.setSt slot (.gear { x with todo := x.todo ++ [(op, ws, ticket)] })) slot ticket, false)
  else match gearFollower s slot, op with
    | some f, 0x40 =>
      if axisState s f ≠ 1 then (s, true)
      else
        let at_ := if bitOf (p 0) 2 then some (join64 (p 1) (p 2)) else none
        let x1 : GearS := { xf := (s.axis f).x, xm := x.xm, num := s.cp slot 1, den := s.cp slot 2, armed := some (at_, bitsOf (p 0) 0 2, f32Flush (p 3)),
                            cause := x.cause }
        let s1 := s.setCtx slot { s.ctx slot with st := .gear x1, out := [] }
        (axisSet (gearSet s1 slot j.2 none) f 4, false)
    | none, 0x40 => (s, true)
    | _, 0x42 => ((s.setFrc (ctxAddr slot 1) (p 0)).setFrc (ctxAddr slot 2) (p 1), false)
    | _, _ => (s, false)

/-! ### The gear pass (R276 to R279, R284) -/

/-- The weight of a ramp, its integral and its slope (R277). -/
def rampH (q : Rat) : Rat := 3 * q * q - 2 * q * q * q
def rampHI (q : Rat) : Rat := q * q * q - q * q * q * q / 2
def rampHd (q : Rat) : Rat := 6 * q - 6 * q * q

/-- A master has reached M_START (R281). -/
def reachedStart (prev : Option Tick) (cur m : Tick) : Bool :=
  cur == m || (match prev with
    | some p => (decide (p.toInt < m.toInt) && decide (m.toInt ≤ cur.toInt)) || (decide (m.toInt < p.toInt) && decide (cur.toInt ≤ m.toInt))
    | none => false)

/-- What the law of a gear gives at one pass: reference, velocity, acceleration, σ, r(σ), f, and whether a cam input was clamped. -/
structure GearLaw where
  x : Tick
  v : Rat
  a : Rat
  sig : Rat
  r : Rat
  f : Rat
  rem : Int
  out : Bool

/-- The follower reference by GMODE, with a ramp where one runs; `dx` is the master travel of this pass (R276 to R279, R281). -/
def gearLaw (s : State) (slot : Nat) (x : GearS) (m md : PosRead) (dx : Tick) : GearLaw :=
  let mode := gMode s slot
  let cam := bCam (curBind s slot)
  let ofs := posRat (join64 (s.cp slot 3) (s.cp slot 4))
  let neg := bitOf (s.cp slot 0) 13
  let xm := posRat m.x
  let full := ratOf (ratioW x.num x.den)
  let q : Rat × Rat × Rat := match x.ramp with   -- σ, r(σ), dr/dx_m
    | some ρ =>
      let d := ratOf ρ.d
      let far := xm - posRat ρ.xm0
      let q := if d ≤ 0 then 1 else clampR 0 1 (absR far / d)
      let r0 := ratOf ρ.r0
      let r1 := ratOf ρ.r1
      (q, r0 + (r1 - r0) * rampH q, if d ≤ 0 then 0 else (r1 - r0) * rampHd q * sgnR far / d)
    | none => (1, full, 0)
  let σ := q.1
  let r := q.2.1
  let dr := q.2.2
  let c := if mode = 1 then camEval s cam xm else if mode = 2 then camEval s cam (if neg then -(posRat md.x) else posRat md.x)
    else { y := 1, dy := 0, ddy := 0, out := false }
  match mode with
  | 1 =>
    let on := ofs + (match x.ramp with | some ρ => if ρ.blend then ratOf ρ.r1 else r | none => r) * c.y
    let pos := match x.ramp with
      | some ρ => if ρ.blend then (1 - rampH σ) * posRat ρ.xf0 + rampH σ * on else on
      | none => on
    { x := posOf pos, v := r * c.dy * m.v, a := r * (c.dy * m.a + c.ddy * m.v * m.v) + dr * c.dy * m.v * m.v, sig := σ, r := r, f := 1, rem := x.rem, out := c.out }
  | 2 =>
    let rate := c.dy * (if neg then -md.v else md.v)
    let adv := match x.ramp with
      | some _ => posRat dx * r * c.y
      | none => posRat dx * ((x.num.toInt : Rat) / ((max 1 x.den.toNat : Nat) : Rat)) * c.y
    { x := x.xf + posOf adv, v := r * c.y * m.v, a := r * (c.y * m.a + rate * m.v) + dr * c.y * m.v * m.v, sig := σ, r := r, f := c.y, rem := x.rem, out := c.out }
  | _ =>
    match x.ramp with
    | some ρ =>
      let far := xm - posRat ρ.xm0
      let r0 := ratOf ρ.r0
      let r1 := ratOf ρ.r1
      { x := ρ.xf0 + posOf (r0 * far + (r1 - r0) * sgnR far * ratOf ρ.d * rampHI σ), v := r * m.v, a := r * m.a + dr * m.v * m.v,
        sig := σ, r := r, f := 1, rem := 0, out := false }
    | none =>
      let e := scaleRem dx.toInt x.num x.den x.rem
      { x := x.xf + BitVec.ofInt 64 e.1, v := r * m.v, a := r * m.a, sig := 1, r := r, f := 1, rem := e.2, out := false }

/-- The output of a gear: T, x_f, v_f, a_f, whether it leads its follower, whether it reports a producer fault. -/
def gearOut (t : Tick) (x : GearS) (led fault : Bool) : List Word :=
  [lo32 t, hi32 t, lo32 x.xf, hi32 x.xf, x.vf, x.af, wd (b2n led), wd (b2n fault)]

/-- The registers of a gear after its pass (R300). A gear that stops no longer reads its master (R283). -/
def gearRegs (s : State) (slot : Nat) (x : GearS) (num den : Word) (m : Tick) (l : Option GearLaw) : List (RF × Nat) :=
  let n := motNum s slot
  let w32 (a : Nat) (v : Word) : RF × Nat := (⟨a, 0, 32⟩, v.toNat)
  [(R.motionGinfo_GMODE n, gMode s slot), w32 (R.motionGnum n) num, w32 (R.motionGden n) den,
   w32 (R.motionGxfLo n) (lo32 x.xf), w32 (R.motionGxfHi n) (hi32 x.xf), w32 (R.motionGvf n) x.vf, w32 (R.motionGaf n) x.af,
   w32 (R.motionGxmLo n) (lo32 m), w32 (R.motionGxmHi n) (hi32 m)]
  ++ (match l with
    | some l => [w32 (R.motionGsigma n) (rnd l.sig), w32 (R.motionGreff n) (rnd (l.r * l.f)), w32 (R.motionGmodf n) (rnd l.f)]
    | none => [])

/-- What a pass of a gear has worked out so far: its state, the ratio in force, the transitions and acts that follow. -/
structure GearW where
  x : GearS
  st : Nat
  num : Word
  den : Word
  trans : List (Nat × Nat × Nat) := []
  acts : List PassAct := []

/-- The gear takes a state, its follower STANDSTILL where the gear lets it go. -/
def GearW.enter (w : GearW) (slot : Nat) (fol : Option Nat) (st : Nat) : GearW :=
  if w.st = st then w
  else { w with st := st, trans := w.trans ++ (slot, w.st, st) :: (if st = 0 then fol.toList.map (fun f => (f, 4, 1)) else []) }

/-- A command whose boundary was that of this pass (R282, R283). -/
def GearW.command (s : State) (slot : Nat) (t : Tick) (w : GearW) (c : Nat × List Word × Nat) : GearW :=
  let p (i : Nat) : Word := nth c.2.1 i 0#32
  let fol := gearFollower s slot
  let x := w.x
  let done (w : GearW) : GearW := { w with acts := w.acts ++ [.gearDone c.2.2 true] }
  let fails : GearW := { w with acts := w.acts ++ [.gearDone c.2.2 false] }
  let j := gearJudge w.st c.1 c.2.1
  if j.1 ≠ stOK ∨ c.1 = 0x40 ∨ (c.1 = 0x42 ∧ w.st = 0) then fails
  else if c.1 = 0x41 then
    let moving : Bool := match fol with | some f => ratOf (s.axis f).v != 0 | none => false
    if w.st = 0 then done w
    else if j.2 = 0 then
      if w.st ≠ 1 ∧ moving then fails
      else done ({ w with x := { x with armed := none, ramp := none, next := none } }.enter slot fol 0)
    else if bitsOf (p 0) 0 2 = 1 then
      let l := axisLim s (fol.getD slot) { tgt := 0 }
      let e := referTo x.xf x.vf x.af (s.ctx slot).last t
      let pl := planStopRamp t (posRat e.1) (ratOf e.2.1) (ratOf e.2.2) l.d l.j
      let fin := match pl.fin with | .at_ q => q | .vel _ => e.1
      done ({ w with x := { x with stopping := true, stop := pl.plan, stopAt := fin, armed := none, ramp := none, next := none } }.enter slot fol 5)
    else done ({ w with x := { x with next := some (f32Flush (p 1), 0#32, true) } }.enter slot fol 5)
  else
    let w1 := done { w with num := p 0, den := p 1, acts := w.acts ++ [.force 1 [p 0, p 1]] }
    if ratOf (p 2) = 0 then { w1 with x := { x with num := p 0, den := p 1 } }
    else { w1 with x := { x with next := some (f32Flush (p 2), ratioW (p 0) (p 1), false) } }.enter slot fol 4

/-- The pass of a gear. -/
def gearPass (s : State) (slot : Nat) (r : Run) : PassOut :=
  let n := motNum s slot
  let x0 := s.gear slot
  let b := curBind s slot
  let m := gearRead r.inp r.t (bMaster b)
  let md := gearRead r.inp r.t (bMod b)
  let fol := gearFollower s slot
  let old : Tick := x0.xm.getD 0
  let cause : Option Nat := if x0.st = 0 ∨ x0.stopping then none else if !m.ok then some 1 else if gMode s slot = 2 ∧ !md.ok then some 2 else none
  let w : GearW := { x := { x0 with todo := [] }, st := x0.st, num := s.cp slot 1, den := s.cp slot 2 }
  let w := if cause.isSome then { w with acts := x0.todo.map (fun c => PassAct.gearDone c.2.2 false) } else x0.todo.foldl (GearW.command s slot r.t) w
  let x := w.x
  let hold : GearS := { x with vf := 0#32, af := 0#32, xm := if m.ok && !x.stopping then some m.x else x.xm }
  let out (w : GearW) (x : GearS) (led fault : Bool) (g : Tick) (l : Option GearLaw) : PassOut :=
    { st := .gear { x with st := x0.st }, out := gearOut r.t x led fault, flds := gearRegs s slot x w.num w.den g l, trans := w.trans, acts := w.acts }
  if cause.isSome then { out w hold false true m.x none with fault := cause }
  else if w.st = 0 then
    out w { hold with armed := none, ramp := none, next := none, stopping := false, stop := [] } false (nth (s.ctx slot).out 7 0#32 == 1#32) m.x none
  else if x.stopping then
    let p := planAt { plan := x.stop, fin := .at_ x.stopAt } r.t
    let x1 := { hold with xf := p.1.1, vf := p.1.2.1, af := p.1.2.2 }
    out (if p.2 then w.enter slot fol 0 else w) { x1 with stopping := !p.2 } (!p.2) false old none
  else
    let go : Option (Tick × Nat × Word) := match x.armed with
      | some (none, mode, d) => some (m.x, mode, d)
      | some (some ms, mode, d) => if reachedStart x.xm m.x ms then some (ms, mode, d) else none
      | none => none
    if w.st = 1 ∧ go.isNone then out w hold true false m.x none
    else
      let x1 : GearS := match go with
        | some (ms, 1, d) => { x with armed := none, ramp := some { xm0 := ms, xf0 := x.xf, d := d, r0 := 0#32, r1 := ratioW x.num x.den, blend := gMode s slot == 1 } }
        | some _ => { x with armed := none }
        | none => x
      let dx : Tick := match go with
        | some (ms, _, _) => m.x - ms
        | none => match x.xm with | some q => m.x - q | none => 0
      let l := gearLaw s slot x1 m md dx
      let ended := x1.ramp.isSome && decide (1 ≤ l.sig)
      let ramp1 := if ended then none else x1.ramp
      let ramp2 : Option GRamp := match x1.next with
        | some (d, r1, lst) => some { xm0 := m.x, xf0 := l.x, d := d, r0 := rnd l.r, r1 := r1, last := lst }
        | none => ramp1
      let done := ended && x1.next.isNone
      let x2 : GearS := { x1 with xf := l.x, vf := rnd l.v, af := rnd l.a, rem := l.rem, xm := some m.x, r := rnd l.r, ramp := ramp2, next := none,
                                  num := if done then w.num else x1.num, den := if done then w.den else x1.den }
      let began := match go with | some (_, mode, _) => some (if mode = 1 then 2 else 3) | none => none
      let nxt : Nat := if w.st = 5 then (if l.v = 0 then 0 else 5)
        else if done && (w.st == 2 || w.st == 4 || (began == some 2)) then 3 else began.getD w.st
      let o := out (w.enter slot fol nxt) x2 (nxt != 0) false m.x (some l)
      { o with
        flds := o.flds
          ++ (if go.isSome then [(R.motionGcnt_ENGAGES n, satInc 8 (s.fld (R.motionGcnt_ENGAGES n)))] else [])
          ++ (if l.out then [(R.motionGcnt_OUTSIDES n, satInc 16 (s.fld (R.motionGcnt_OUTSIDES n)))] else []),
        occs := if l.out then [{ ev := 171, inst := n, detail := wd (bCam b) }] else [] }

def execGearPass (slot : Fin 256) (s : State) : Host.Outcome State Fault Refusal := .next (passRow s slot.val [9, 10] gearPass)

/-! ### Stroke groups: states and commands (R292 to R294) -/

/-- The members of a stroke group by position. -/
def strokeMembers (s : State) (slot : Nat) : List (Nat × Nat) := bStroke (curBind s slot)

/-- PATH_MASK of a stroke group (R286). -/
def pathMask (s : State) (slot : Nat) : Nat := bitsOf (bw (curBind s slot) 4) 0 8

/-- The segment ring of a stroke group (R286). -/
def strokeRing (s : State) (slot : Nat) : Nat := 20 + motNum s slot

/-- The group has segments to trace. -/
def strokeData (s : State) (slot : Nat) : Bool := (s.stroke slot).segs != [] || (!(s.stroke slot).bad && ringEnts s (strokeRing s slot) != [])

/-- The command table of R294: a status and the state after it; `rest` says the path stands, `data` that segments wait. -/
def strokeJudge (st op : Nat) (ws : List Word) (rest data : Bool) : Nat × Nat :=
  let b := (stBUSY_TARGET, st)
  let r := (stREFUSED_STATE, st)
  match op with
  | 0x48 => match st with | 0 => (stOK, 1) | 1 => (stOK, 1) | 2 => (stOK, 2) | 6 => r | _ => b
  | 0x4A =>
    if bitOf (nth ws 0 0#32) 0 then
      match st with | 1 => (stOK, if rest then 4 else 3) | 2 => (stOK, 4) | 5 => b | 6 => r | _ => (stOK, st)
    else
      match st with | 3 => (stOK, 1) | 4 => (stOK, if data then 1 else 2) | 5 => b | 6 => r | _ => (stOK, st)
  | 0x4B => match st with | 0 => (stOK, 0) | 2 => (stOK, 0) | 4 => (stOK, 0) | 6 => (stOK, 0) | _ => r
  | _ => (stOK, st)

/-- The path stands: no speed, or a dwell runs. -/
def strokeRest (s : State) (slot : Nat) : Bool :=
  let x := s.stroke slot
  decide (x.v = 0) && (x.plan == [] || x.dwell.isSome)

def strokeEff (s : State) (slot : Nat) : Nat :=
  (axisWaits s slot).foldl (fun st c => (strokeJudge st c.1 c.2 (strokeRest s slot) (strokeData s slot)).2) (strokeState s slot)

/-- A stroke command in the table. -/
def strokeTable (s : State) (slot op : Nat) (ws : List Word) : Res :=
  let e := strokeEff s slot
  let j := strokeJudge e op ws (strokeRest s slot) (strokeData s slot)
  if j.1 ≠ stOK then refuse s j.1
  else if e = j.2 ∧ op ≠ 0x49 ∧ op ≠ 0x4B then { st := s }
  else axisAccept s slot op ws

/-- The members of a group are ready to be led (R294): STANDSTILL, naming the group, and no other axis names it. -/
def strokeReady (s : State) (slot : Nat) (st : Nat → Nat) : Bool :=
  let mem := (strokeMembers s slot).map (·.2)
  mem != [] && mem.all (fun k => st k == 1 && bProd (curBind s k) == slot) && (producerAxes s slot).all mem.contains

/-- STROKE_START. -/
def opStrokeStart (r : Request) (s : State) : Res :=
  orRefuse s (slotCheck s r.target [11])
    (if strokeEff s r.target = 0 ∧ !strokeReady s r.target (fun k => (axisEff s k).st) then refuse s stREFUSED_STATE else strokeTable s r.target 0x48 [])

def execStrokeStart (r : Request) (s : State) : Host.Outcome State Fault Refusal := .next (serveReed r s r.params.isEmpty (opStrokeStart r))

/-- STROKE_FEED (R292): an override of 0.0 to 2.0 from the next tick. -/
def opStrokeFeed (r : Request) (s : State) : Res :=
  orRefuse s (slotCheck s r.target [11]) (if outF32 0 2 (r.p 0) then refuse s stBAD_PARAM else strokeTable s r.target 0x49 r.params)

def execStrokeFeed (r : Request) (s : State) : Host.Outcome State Fault Refusal := .next (serveReed r s (r.params.length == 1) (opStrokeFeed r))

/-- STROKE_HOLD and STROKE_FLUSH. -/
def opStrokeHold (r : Request) (s : State) : Res := orRefuse s (slotCheck s r.target [11]) (strokeTable s r.target 0x4A r.params)
def opStrokeFlush (r : Request) (s : State) : Res := orRefuse s (slotCheck s r.target [11]) (strokeTable s r.target 0x4B [])

def execStrokeHold (r : Request) (s : State) : Host.Outcome State Fault Refusal := .next (serveReed r s (r.params.length == 1) (opStrokeHold r))
def execStrokeFlush (r : Request) (s : State) : Host.Outcome State Fault Refusal := .next (serveReed r s r.params.isEmpty (opStrokeFlush r))

/-- A stroke command takes effect at the group's pass boundary; the flag says that the state refuses it. -/
def strokeApply (s : State) (slot op : Nat) (ws : List Word) : State × Bool :=
  let st := strokeState s slot
  let x := s.stroke slot
  let j := strokeJudge st op ws (strokeRest s slot) (strokeData s slot)
  let mem := strokeMembers s slot
  if j.1 ≠ stOK then (s, true)
  else match op with
    | 0x48 =>
      if st ≠ 0 then (s, false)
      else if !strokeReady s slot (axisState s) then (s, true)
      else
        let base := (List.range 8).map (fun m => match mem.find? (fun e => e.1 == m) with | some e => (s.axis e.2).x | none => 0)
        let s1 := s.setCtx slot { s.ctx slot with st := .stroke { base := base, ovr := x.ovr, starves := x.starves }, out := [] }
        (mem.foldl (fun u e => axisSet u e.2 4) (strokeSet s1 slot 1), false)
    | 0x49 => (s.setSt slot (.stroke { x with ovr := f32Flush (nth ws 0 0#32) }), false)
    | 0x4A => (strokeSet s slot j.2, false)
    | _ =>
      let s1 := ringClear s (strokeRing s slot)
      let s2 := (strokeSet s1 slot 0).setSt slot (.stroke { ovr := x.ovr, starves := x.starves })
      (mem.foldl (fun u e => if axisState u e.2 = 4 ∧ bProd (curBind u e.2) = slot then axisSet u e.2 1 else u) s2, false)

/-! ### Segments and their geometry (R288 to R291) -/

/-- The TAG of a segment entry. -/
def segTag (ws : List Word) : Nat := bitsOf (nth ws 0 0#32) 0 16

/-- The reason a segment entry is rejected (R290): the lowest that holds. -/
def segReason (s : State) (slot : Nat) (ws : List Word) : Option Nat :=
  let w (i : Nat) : Word := nth ws i 0#32
  let typ := bitsOf (w 0) 28 4
  let mem := strokeMembers s slot
  let dwell := typ == 4
  let floats := (if dwell then [] else [1]) ++ [2, 4, 5, 6, 7, 8, 9, 10, 11, 12, 13]
  let ai := bitsOf (w 3) 28 4
  let aj := bitsOf (w 3) 24 4
  let ci := ratOf (w 4)
  let cj := ratOf (w 5)
  let rho := Config.sqrt (ci * ci + cj * cj)
  let di := ratOf (w (6 + ai)) - ci
  let dj := ratOf (w (6 + aj)) - cj
  let inGroup (i : Nat) : Bool := mem.any (fun e => e.1 == i)
  if ws.length ≠ 16 ∨ crc32c (ws.take 15) ≠ w 15 then some 1
  else if typ = 0 ∨ 5 ≤ typ ∨ bitsOf (w 0) 18 10 ≠ 0 ∨ bitsOf (w 3) 1 15 ≠ 0 ∨ w 14 ≠ 0#32 then some 2
  else if floats.any (fun i => badF32 (w i)) ∨ (if dwell then w 1 = 0#32 else ratOf (w 1) ≤ 0) then some 3
  else if typ = 2 ∧ (ai = aj ∨ !inGroup ai ∨ !inGroup aj ∨ (ci = 0 ∧ cj = 0) ∨ s.cpR slot 5 < absR (Config.sqrt (di * di + dj * dj) - rho)) then some 4
  else if (List.range 8).any (fun m => decide (naxes s slot ≤ m) && decide (ratOf (w (6 + m)) ≠ 0)) then some 5
  else none

/-- A segment taken in (R288): each Δ converted once to 32.32. -/
def segOf (ws : List Word) : StrokeSeg :=
  let w (i : Nat) : Word := nth ws i 0#32
  { typ := bitsOf (w 0) 28 4, stop := bitOf (w 0) 17, noOvr := bitOf (w 0) 16, tag := segTag ws, feed := w 1, blend := w 2, arc := w 3, ci := w 4, cj := w 5,
    delta := (List.range 8).map (fun m => posOf (ratOf (w (6 + m)))) }

/-- Vectors over the eight member positions. -/
abbrev V8 := List Rat

def v8 (f : Nat → Rat) : V8 := (List.range 8).map f
def v8At (v : V8) (m : Nat) : Rat := nth v m 0
def v8Add (a b : V8) : V8 := v8 (fun m => v8At a m + v8At b m)
def v8Scale (k : Rat) (a : V8) : V8 := v8 (fun m => k * v8At a m)
def v8Mask (mask : Nat) (a : V8) : V8 := v8 (fun m => if mask.testBit m then v8At a m else 0)
def v8Dot (a b : V8) : Rat := ((List.range 8).map (fun m => v8At a m * v8At b m)).foldl (· + ·) 0
def v8Norm (a : V8) : Rat := if v8Dot a a = 0 then 0 else Config.sqrt (v8Dot a a)
def v8Max (a : V8) : Rat := ((List.range 8).map (fun m => absR (v8At a m))).foldl max 0

/-- The geometry of a segment: its path length, and the members' displacement from its start with its first and second derivatives
by path distance. -/
structure Geo where
  len : Rat
  p : Rat → V8
  d : Rat → V8
  dd : Rat → V8

/-- Length over PATH_MASK, or the largest movement where that is 0 (R289). -/
def lenOr (l : Rat) (delta : V8) : Rat := if l = 0 then v8Max delta else l

/-- Tangent length and half-arc length of a blend (R291). -/
def Blend.tanLen (b : Blend) : Rat := b.r * tanT (b.turns / 2)
def Blend.half (b : Blend) : Rat := b.r * radOf b.turns / 2

/-- A direction turned from `u` towards `w` by an angle of a blend: the unit normal of the corner. -/
def cornerNormal (b : Blend) (u w : V8) : V8 :=
  let sn := Config.sin b.turns
  if sn = 0 then v8 (fun _ => 0) else v8Scale (1 / sn) (v8Add w (v8Scale (-(Config.cos b.turns)) u))

/-- A LINE with the blends at its ends: the arc it comes out of with the direction before it, the arc it goes into with the direction
after it. Members outside PATH_MASK move in proportion to path length. -/
def geoLine (mask : Nat) (delta : V8) (bin : Option (Blend × V8)) (bout : Option (Blend × V8)) : Geo :=
  let l0 := lenOr (v8Norm (v8Mask mask delta)) delta
  if l0 = 0 then { len := 0, p := fun _ => delta, d := fun _ => v8 (fun _ => 0), dd := fun _ => v8 (fun _ => 0) }
  else
    let u := v8Scale (1 / l0) delta
    let um := v8Mask mask u
    let hin := match bin with | some (b, _) => b.half | none => 0
    let tin := match bin with | some (b, _) => b.tanLen | none => 0
    let hout := match bout with | some (b, _) => b.half | none => 0
    let tout := match bout with | some (b, _) => b.tanLen | none => 0
    let mid := l0 - tin - tout
    let len := hin + mid + hout
    let rest (s : Rat) : V8 := v8 (fun m => if mask.testBit m then 0 else v8At delta m * s / len)
    let restD : V8 := v8 (fun m => if mask.testBit m then 0 else v8At delta m / len)
    let arc (b : Blend) (a n e : V8) (φ : Rat) : V8 × V8 × V8 :=   -- point, tangent, curvature at arc length φ
      let t := turnsOf (φ / b.r)
      (v8Add a (v8Add (v8Scale (b.r * Config.sin t) e) (v8Scale (b.r * (1 - Config.cos t)) n)),
       v8Add (v8Scale (Config.cos t) e) (v8Scale (Config.sin t) n),
       v8Scale (1 / b.r) (v8Add (v8Scale (-(Config.sin t)) e) (v8Scale (Config.cos t) n)))
    let ev (s : Rat) : V8 × V8 × V8 :=
      if s < hin then match bin with
        | some (b, e) => arc b (v8Scale (-tin) e) (cornerNormal b e um) e (b.half + s)
        | none => (v8 (fun _ => 0), um, v8 (fun _ => 0))
      else if s ≤ hin + mid then (v8Scale (tin + (s - hin)) um, um, v8 (fun _ => 0))
      else match bout with
        | some (b, e) => arc b (v8Add (v8Mask mask delta) (v8Scale (-tout) um)) (cornerNormal b um e) um (s - hin - mid)
        | none => (v8Mask mask delta, um, v8 (fun _ => 0))
    { len := len, p := fun s => v8Add (ev s).1 (rest s), d := fun s => v8Add (ev s).2.1 restD, dd := fun s => (ev s).2.2 }

/-- An ARC (R289). -/
def geoArc (mask : Nat) (g : StrokeSeg) (delta : V8) : Geo :=
  let i := bitsOf g.arc 28 4
  let j := bitsOf g.arc 24 4
  let cw := bitOf g.arc 0
  let ci := ratOf g.ci
  let cj := ratOf g.cj
  let rho := Config.sqrt (ci * ci + cj * cj)
  let t0 := Config.atan2 (-cj) (-ci)
  let t1 := Config.atan2 (v8At delta j - cj) (v8At delta i - ci)
  let raw := fracR (if cw then t0 - t1 else t1 - t0)
  let turns := (if raw = 0 then 1 else raw) + (bitsOf g.arc 16 8 : Rat)
  let th := radOf turns
  let other := v8 (fun m => if m = i ∨ m = j then 0 else v8At delta m)
  let len := lenOr (Config.sqrt (rho * th * (rho * th) + v8Dot (v8Mask mask other) (v8Mask mask other))) delta
  let sg : Rat := if cw then -1 else 1
  let ang (s : Rat) : Rat := if len = 0 then t0 else t0 + sg * turns * s / len
  let w : Rat := if len = 0 then 0 else sg * th / len
  let mk (x y : Rat) (o : V8) : V8 := v8 (fun m => if m = i then x else if m = j then y else v8At o m)
  { len := len,
    p := fun s => if len ≤ s then delta else mk (ci + rho * Config.cos (ang s)) (cj + rho * Config.sin (ang s)) (v8Scale (if len = 0 then 1 else s / len) other),
    d := fun s => mk (-(rho * w * Config.sin (ang s))) (rho * w * Config.cos (ang s)) (v8Scale (if len = 0 then 0 else 1 / len) other),
    dd := fun s => mk (-(rho * w * w * Config.cos (ang s))) (-(rho * w * w * Config.sin (ang s))) (v8 (fun _ => 0)) }

/-- A SPLINE with its end tangents (R289): a cubic Hermite curve over PATH_MASK, path distance mapped to u by 16 chords; the other members
move in proportion to path length. -/
def geoSpline (mask : Nat) (delta m0 m1 : V8) : Geo :=
  let h (u : Rat) : V8 := v8Add (v8Scale (u * u * u - 2 * u * u + u) m0) (v8Add (v8Scale (-2 * u * u * u + 3 * u * u) delta) (v8Scale (u * u * u - u * u) m1))
  let hd (u : Rat) : V8 := v8Add (v8Scale (3 * u * u - 4 * u + 1) m0) (v8Add (v8Scale (-6 * u * u + 6 * u) delta) (v8Scale (3 * u * u - 2 * u) m1))
  let hdd (u : Rat) : V8 := v8Add (v8Scale (6 * u - 4) m0) (v8Add (v8Scale (-12 * u + 6) delta) (v8Scale (6 * u - 2) m1))
  let at_ (k : Nat) : V8 := h ((k : Rat) / 16)
  let chords := (List.range 16).map (fun k => v8Norm (v8Mask mask (v8Add (at_ (k + 1)) (v8Scale (-1) (at_ k)))))
  let total := chords.foldl (· + ·) 0
  if total = 0 then
    let l := v8Max delta
    { len := l, p := fun s => if l = 0 then delta else v8Scale (s / l) delta, d := fun _ => if l = 0 then v8 (fun _ => 0) else v8Scale (1 / l) delta, dd := fun _ => v8 (fun _ => 0) }
  else
    let rec find (k : Nat) (s : Rat) : List Rat → Nat × Rat × Rat
      | [] => (15, 1, 1)
      | [c] => (k, if c = 0 then 1 else s / c, c)
      | c :: cs => if s < c ∧ c ≠ 0 then (k, s / c, c) else find (k + 1) (s - c) cs
    let u (s : Rat) : Rat × Rat := let f := find 0 s chords; (((f.1 : Rat) + f.2.1) / 16, if f.2.2 = 0 then 0 else 1 / (16 * f.2.2))
    let on (v : V8) (other : Rat → Rat) : V8 := v8 (fun m => if mask.testBit m then v8At v m else other (v8At delta m))
    { len := total, p := fun s => if total ≤ s then delta else on (h (u s).1) (· * s / total), d := fun s => on (v8Scale (u s).2 (hd (u s).1)) (· / total),
      dd := fun s => on (v8Scale ((u s).2 * (u s).2) (hdd (u s).1)) (fun _ => 0) }

/-- The deltas of a segment as rationals. -/
def StrokeSeg.vec (g : StrokeSeg) : V8 := v8 (fun m => posRat (nth g.delta m 0))

/-- The angle two directions turn by over PATH_MASK, in turns. -/
def turnBetween (mask : Nat) (a b : V8) : Rat :=
  let x := v8Mask mask a
  let y := v8Mask mask b
  let n := v8Norm x * v8Norm y
  if n = 0 then 0
  else
    let c := clampR (-1) 1 (v8Dot x y / n)
    Config.atan2 (Config.sqrt (1 - c * c)) c

/-- The unit direction over PATH_MASK. -/
def unitOf (mask : Nat) (a : V8) : V8 := let n := v8Norm (v8Mask mask a); if n = 0 then v8 (fun _ => 0) else v8Scale (1 / n) (v8Mask mask a)

/-- One milliradian in turns. -/
def mradTurns : Rat := turnsOf (1 / 1000)

/-- The blend of a corner of two LINE segments (R291). -/
def cornerBlend (mask : Nat) (a b : StrokeSeg) : Option Blend :=
  let al := turnBetween mask a.vec b.vec
  let eps := ratOf a.blend
  if a.typ ≠ 1 ∨ b.typ ≠ 1 ∨ a.stop ∨ eps ≤ 0 ∨ al < mradTurns then none
  else
    let c := Config.cos (al / 2)
    let t := tanT (al / 2)
    let half := min (v8Norm (v8Mask mask a.vec)) (v8Norm (v8Mask mask b.vec)) / 2
    if c = 1 ∨ t ≤ 0 ∨ half = 0 then none else some { r := min (eps * c / (1 - c)) (half / t), turns := al }

/-- A segment of the look-ahead with its geometry, the blend at its end and the speed its end junction allows. -/
structure Traced where
  seg : StrokeSeg
  geo : Geo
  bout : Option Blend
  /-- Its end tangent, where it is a SPLINE. -/
  tan : Option V8

/-- The geometries of the look-ahead in order: blend and direction before a segment, deltas of a SPLINE before it, and for the first
segment what the path has fixed already. -/
def traceSegs (mask : Nat) (bin : Option (Blend × V8)) (prev : Option V8) (s : Rat) (kept : Option Blend) (tan : Option V8) : List StrokeSeg → List Traced
  | [] => []
  | g :: rest =>
    let v := g.vec
    let next := rest.head?
    let cand := match next with | some n => cornerBlend mask g n | none => none
    let l0 := v8Norm (v8Mask mask v)
    let hin := match bin with | some (b, _) => b.half - b.tanLen | none => 0
    let bout := if g.typ ≠ 1 then none else match cand with
      | some b => if s ≤ hin + l0 - b.tanLen then some b else kept
      | none => if s ≤ hin + l0 then none else kept
    let after := match next with | some n => unitOf mask n.vec | none => unitOf mask v
    let m1 : V8 := match tan with
      | some t => t
      | none => match next with
        | some n => if n.typ = 3 then v8Scale (1 / 2) (v8Add v n.vec) else v
        | none => v
    let geo : Geo := match g.typ with
      | 1 => geoLine mask v bin (bout.map (fun b => (b, after)))
      | 2 => geoArc mask g v
      | 3 => geoSpline mask v (match prev with | some q => v8Scale (1 / 2) (v8Add q v) | none => v) m1
      | _ => { len := 0, p := fun _ => v8 (fun _ => 0), d := fun _ => v8 (fun _ => 0), dd := fun _ => v8 (fun _ => 0) }
    { seg := g, geo := geo, bout := bout, tan := if g.typ = 3 then some m1 else none }
      :: traceSegs mask (bout.map (fun b => (b, unitOf mask v))) (if g.typ = 3 then some v else none) 0 none none rest

/-- The look-ahead of a group as it is traced. -/
def strokeTrace (s : State) (slot : Nat) (x : StrokeS) : List Traced :=
  traceSegs (pathMask s slot) x.bin (x.prev.map (fun d => v8 (fun m => posRat (nth d m 0)))) x.s x.bout x.tan x.segs

/-! ### Path planning (R291) -/

/-- The largest |dp_m/ds| of a member over a segment: at its ends and at 16 even steps. -/
def dMax (g : Geo) (m : Nat) : Rat := ((List.range 17).map (fun i => absR (v8At (g.d (g.len * (i : Rat) / 16)) m))).foldl max 0

/-- The limits of a segment: speed and path acceleration. -/
def segLim (s : State) (slot : Nat) (ovr : Rat) (t : Traced) : Lim :=
  let mem := strokeMembers s slot
  let caps (w : Nat) : List Rat := mem.filterMap (fun e => let d := dMax t.geo e.1; if d = 0 then none else some (s.cpR e.2 w / d))
  let v := (caps 3).foldl min (min (ratOf t.seg.feed * (if t.seg.noOvr then 1 else ovr)) (s.cpR slot 4))
  let a := (caps 4).foldl min (s.cpR slot 1)
  { v := v, a := a, d := a, j := s.cpR slot 2 }

/-- The speed a junction allows (R291). DEDUCED (log entry 81): a segment in which nothing moves has no direction, and the path rests at
it. -/
def junctionSpeed (s : State) (slot : Nat) (l1 l2 : Lim) (a b : Traced) : Rat :=
  if a.seg.stop ∨ a.seg.typ = 4 ∨ b.seg.typ = 4 ∨ a.geo.len = 0 ∨ b.geo.len = 0 then 0
  else match a.bout with
    | some bl => min (min l1.v l2.v) (Config.sqrt (s.cpR slot 1 * bl.r))
    | none => if turnBetween (pathMask s slot) (a.geo.d a.geo.len) (b.geo.d 0) < mradTurns then min l1.v l2.v else 0

/-- Each segment with its limits and the speed its own end junction allows; 0 at the end of the data. -/
def withJunctions (s : State) (slot : Nat) (ovr : Rat) : List Traced → List (Rat × Lim × Rat)
  | [] => []
  | [a] => [(a.geo.len, segLim s slot ovr a, 0)]
  | a :: b :: rest =>
    (a.geo.len, segLim s slot ovr a, junctionSpeed s slot (segLim s slot ovr a) (segLim s slot ovr b) a b) :: withJunctions s slot ovr (b :: rest)

/-- The backward pass: every junction speed low enough to slow down for what follows. -/
def backPass : List (Rat × Lim × Rat) → List (Rat × Lim × Rat) × Rat
  | [] => ([], 0)
  | (len, l, vj) :: rest =>
    let r := backPass rest
    let cap := if rest = [] then vj else min vj r.2
    let entry := if l.v ≤ cap then l.v else if rampDist l.v cap l.d l.j ≤ len then l.v else bisectHi (fun v => decide (rampDist v cap l.d l.j ≤ len)) 48 cap l.v
    ((len, l, cap) :: r.1, entry)

/-- The forward plan from a path state: its phases and how many segments it traces to their ends. From the present acceleration each
segment is planned to the highest speed its limits, its length and its end junction allow. -/
def pathPlan : List (Rat × Lim × Rat) → Rat → Rat → List PlanPhase × Nat
  | [], _, _ => ([], 0)
  | (len, l, cap) :: rest, v, a =>
    if l.v ≤ 0 then (stopPhases l.d l.j v a, 0)
    else
      let ps0 (w : Rat) : List PlanPhase := changeSpeed v a w l.a l.d l.j
      let fits (w : Rat) : Bool := decide (phasesDist v (ps0 w) ≤ len)
      let low := max 0 (settled v a l.j)
      let exit := if fits cap || decide (cap ≤ low) then cap else bisectHi fits 48 low cap
      let ps := if fits exit then movePhases l v a exit len else ps0 exit
      if exit = 0 then (ps, 1)
      else
        let q := pathPlan rest exit 0
        (ps ++ q.1, q.2 + 1)

/-- A path state moved on along a plan: distance, speed, acceleration, the time left over, and whether the plan has come to its end. -/
def pathRun : List (Rat × Rat × Rat) → Rat → Rat → Rat → Rat × Rat × Rat × Rat × Bool
  | [], s, _, left => (s, 0, 0, left, true)
  | (d, a, j) :: ps, s, v, left =>
    if left < d then (s + v * left + a * left * left / 2 + j * left * left * left / 6, v + a * left + j * left * left / 2, a + j * left, 0, false)
    else pathRun ps (s + v * d + a * d * d / 2 + j * d * d * d / 6) (v + a * d + j * d * d / 2) (left - d)

def phaseTriples (l : List PlanPhase) : List (Rat × Rat × Rat) := l.map (fun p => (p.t, p.a, p.j))

/-! ### The stroke tick (R287, R290 to R295) -/

/-- The first segment is traced to its end: its deltas are added exactly. -/
def popSeg (mask : Nat) (x : StrokeS) (t : Traced) : StrokeS :=
  { x with segs := x.segs.drop 1, base := (List.range 8).map (fun m => nth x.base m 0 + nth t.seg.delta m 0),
           prev := if t.seg.typ = 3 then some t.seg.delta else none, bin := t.bout.map (fun b => (b, unitOf mask t.seg.vec)), bout := none, tan := none,
           dwell := none }

/-- Segments popped: `n` of them, or those whose length the path distance has passed; answers how many went. -/
def popSegRun (mask : Nat) : Nat → StrokeS → List Traced → Nat → StrokeS × Nat
  | n + 1, x, t :: ts, k => popSegRun mask n { popSeg mask x t with s := 0 } ts (k + 1)
  | _, x, _, k => (x, k)

def popPassed (mask : Nat) (x : StrokeS) : List Traced → Nat → StrokeS × Nat
  | [], k => (x, k)
  | t :: ts, k => if t.geo.len ≤ x.s ∧ t.seg.typ ≠ 4 then popPassed mask { popSeg mask x t with s := x.s - t.geo.len } ts (k + 1) else (x, k)

/-- What an intake of a tick found: entries taken, and the first rejected one with its reason. -/
def strokeIntake (s : State) (slot : Nat) : Nat → Nat → List StrokeSeg → List Ent → Nat → List StrokeSeg × Option (Nat × Nat) × Nat
  | 0, _, segs, _, k => (segs, none, k)
  | _, _, segs, [], k => (segs, none, k)
  | fuel + 1, off, segs, e :: es, k =>
    if bitsOf (s.cp slot 6) 0 8 ≤ segs.length then (segs, none, k)
    else
      let ws := ringCopyOut s (strokeRing s slot) off e.words
      match segReason s slot ws with
      | some reason => (segs, some (segTag ws, reason), k + 1)
      | none => strokeIntake s slot fuel (off + e.words) (segs ++ [segOf ws]) es (k + 1)

/-- Nanoseconds as edge ticks: sixteen a nanosecond. -/
def nsToTicks (ns : Nat) : Nat := 16 * ns

/-- One interpolation tick of a stroke group. -/
def strokeTick (s : State) (slot : Nat) (r : Run) : PassOut :=
  let n := motNum s slot
  let st := strokeState s slot
  let x0 := s.stroke slot
  let mask := pathMask s slot
  let mem := strokeMembers s slot
  let elT := r.el
  let el := ticksSec elT
  let ring := strokeRing s slot
  let w32 (a : Nat) (v : Word) : RF × Nat := (⟨a, 0, 32⟩, v.toNat)
  if st = 0 then { st := .stroke x0, out := [lo32 r.t, hi32 r.t, 0#32], flds := [w32 (R.motionSovr n) x0.ovr, w32 (R.motionSvpath n) 0#32, w32 (R.motionSrem n) 0#32, w32 (R.motionSdwell n) 0#32, (R.motionSinfo_LA n, 0)] }
  else
    -- the path state at this tick
    let tr0 := strokeTrace s slot x0
    let go := pathRun x0.plan x0.s x0.v el
    let x1 : StrokeS := { x0 with s := go.1, v := go.2.1, a := go.2.2.1, bout := (tr0.head?.bind (·.bout)), tan := (tr0.head?.bind (·.tan)) }
    let moved : StrokeS × Nat := if x0.plan ≠ [] ∧ go.2.2.2.2 ∧ 0 < x0.planSegs then popSegRun mask x0.planSegs x1 tr0 0
      else popPassed mask x1 tr0 0
    let x2 := moved.1
    let rest := decide (x2.v = 0) && (x0.plan == [] || go.2.2.2.2)
    -- a dwell
    let dwelling := match x2.segs with | g :: _ => g.typ == 4 && rest | [] => false
    let left : Nat := match x2.segs with | g :: _ => x2.dwell.getD (nsToTicks g.feed.toNat) | [] => 0
    let spent : Nat := if x2.dwell.isNone then (go.2.2.2.1 * 16000000000).floor.toNat else elT
    let frozen := st == 4
    let dw : StrokeS × Nat := if !dwelling || st == 5 || st == 6 then (x2, 0)
      else if frozen then ({ x2 with dwell := some left }, 0)
      else if x2.dwell.isNone && x0.plan == [] then ({ x2 with dwell := some left }, 0)
      else if left ≤ spent then (match x2.segs with | g :: _ => popSeg mask x2 { seg := g, geo := geoLine mask (v8 (fun _ => 0)) none none, bout := none, tan := none } | [] => x2, 1)
      else ({ x2 with dwell := some (left - spent) }, 0)
    let x3 := dw.1
    -- intake
    let ents := ringEnts s ring
    let inn := if x3.bad || st == 5 || st == 6 then (x3.segs, none, 0) else strokeIntake s slot 4 (s.fld (R.ringTail_TAIL ring)) x3.segs ents 0
    let x4 : StrokeS := { x3 with segs := inn.1, bad := x3.bad || inn.2.1.isSome }
    let lastTag : Option Nat := match inn.2.1 with
      | some e => some e.1
      | none => if 0 < inn.2.2 then x4.segs.getLast?.map (·.tag) else none
    -- state
    let st1 : Nat := match st with
      | 1 => if rest && x4.segs == [] then (if x4.bad then 6 else 2) else 1
      | 2 => if x4.segs != [] then 1 else if x4.bad then 6 else 2
      | 3 => if rest then (if x4.bad then 6 else 4) else 3
      | 5 => if rest then 6 else 5
      | k => k
    -- plan
    let tr := strokeTrace s slot x4
    let dwellNow := match x4.segs with | g :: _ => g.typ == 4 | [] => false
    let plan : List PlanPhase × Nat :=
      if st1 = 1 then
        if dwellNow then ([], 0)
        else
          let js := (backPass (withJunctions s slot (ratOf x4.ovr) tr)).1
          let js1 := match js with | (len, l, c) :: more => (len - x4.s, l, c) :: more | [] => []
          pathPlan js1 x4.v x4.a
      else if st1 = 3 then (stopPhases (s.cpR slot 1) (s.cpR slot 2) x4.v x4.a, 0)
      else if st1 = 5 then (stopPhases (s.cpR slot 3) (s.cpR slot 2) x4.v x4.a, 0)
      else ([], 0)
    let still := st1 == 2 || st1 == 4 || st1 == 6
    let x5 : StrokeS := { x4 with plan := phaseTriples plan.1, planSegs := plan.2, v := if still then 0 else x4.v, a := if still then 0 else x4.a }
    -- outputs
    let first := tr.head?
    let outm (m : Nat) : List Word :=
      let base := nth x5.base m 0
      match first with
      | some t =>
        let d := v8At (t.geo.d x5.s) m
        let p := base + posOf (if t.seg.typ = 4 then 0 else v8At (t.geo.p x5.s) m)
        [lo32 p, hi32 p, rnd (x5.v * d), rnd (x5.a * d + x5.v * x5.v * v8At (t.geo.dd x5.s) m)]
      | none => [lo32 base, hi32 base, 0#32, 0#32]
    let done := moved.2 + dw.2
    let tag := match x4.segs.head? with | some g => some g.tag | none => (x0.segs.getLast?.map (·.tag))
    { st := .stroke x5, out := [lo32 r.t, hi32 r.t, 1#32] ++ (List.range 8).flatMap outm,
      flds := [w32 (R.motionSovr n) x5.ovr, w32 (R.motionSvpath n) (rnd x5.v), w32 (R.motionSrem n) (match first with | some t => rnd (t.geo.len - x5.s) | none => 0#32),
               w32 (R.motionSdwell n) (wd (x5.dwell.getD 0 / 16)), w32 (R.motionSdone n) (s.reg (R.motionSdone n) + wd done), (R.motionSinfo_LA n, x5.segs.length),
               (R.motionSinfo_NAXES n, mem.length)]
        ++ (match tag with | some g => [(R.motionStag_RUN_TAG n, g)] | none => [])
        ++ (match lastTag with | some g => [(R.motionStag_IN_TAG n, g)] | none => [])
        ++ (match inn.2.1 with | some e => [(R.motionScnt_SEG_ERRS n, satInc 8 (s.fld (R.motionScnt_SEG_ERRS n))), (R.motionScnt_LAST_ERR n, e.2)] | none => []),
      occs := match inn.2.1 with | some e => [{ ev := 173, inst := n, detail := wd (e.1 * 65536 + e.2) }] | none => [],
      trans := if st1 = st then [] else [(slot, st, st1)],
      acts := List.replicate inn.2.2 (.ringDrop ring) }

def execStrokeTick (slot : Fin 256) (s : State) : Host.Outcome State Fault Refusal := .next (passRow s slot.val [11] strokeTick)

end Sys2Proof.Machine
end

