-- ==== Sys2Proof/Machine/Filter.lean ====
section
/-! DEFINITION. Filters and probes (12_inkwell_capture.md, R305 to R309): their inputs and their passes. -/

namespace Sys2Proof.Machine

open Sys2Proof

def State.filt (s : State) (slot : Nat) : FiltS := match (s.ctx slot).st with | .filt x => x | _ => {}

/-- An input of a filter or probe as it stands for a group: the value and whether it is valid (R306). Of a producer of another
module SKIND 3 reads the output words from WORD 65 on (R441). -/
def fpValue (s : State) (grp : Nat) (w : Word) : List Word :=
  let f := fpIn w
  let v : Word × Bool :=
    if w = 0xFFFFFFFF#32 then (0#32, true)
    else match f.kind with
    | 0 => (chanValue s f.src grp, true)
    | 1 => (s.reg (R.sensePoint f.src), true)
    | 2 =>
      if f.obs then
        let out := inputNow s f.src
        (nth out 4 0#32, nth out 6 0#32 == 1#32)
      else (s.reg (R.fdbkVel f.src), s.flag (R.fdbkStat_VALID f.src))
    | 3 => if f.src < 256 then (s.cw f.src f.word, true) else let out := farOut s f.src; (nth out (f.word - 63) 0#32, decide (f.word - 63 < out.length))
    | _ =>
      let n := f.src
      (match f.word with
       | 0 => f32 (posRat (s.reg64 (R.motionXactLo n)))
       | 1 => s.reg (R.motionVact n)
       | 2 => s.reg (R.motionVcmd n)
       | 3 => s.reg (R.motionFerr n)
       | _ => s.reg (R.motionEffort n), true)
  [v.1, wd (b2n (v.2 && !f32IsNaN v.1))]

/-- Coefficients B0, B1, B2, A1, A2 designed by TYPE 1 to 4 from F0 and Q for a pass period, each rounded once (R307). -/
def filterDesign (typ : Nat) (f0 q tp : Rat) : List Word :=
  let k := tanT (f0 * tp / 2)
  let nrm := 1 / (1 + k / q + k * k)
  let a1 := 2 * (k * k - 1) * nrm
  let a2 := (1 - k / q + k * k) * nrm
  let b : Rat × Rat × Rat := match typ with
    | 1 => (k * k * nrm, 2 * (k * k * nrm), k * k * nrm)
    | 2 => (nrm, -(2 * nrm), nrm)
    | 3 => (k / q * nrm, 0, -(k / q * nrm))
    | _ => ((1 + k * k) * nrm, 2 * (k * k - 1) * nrm, (1 + k * k) * nrm)
  [f32 b.1, f32 b.2.1, f32 b.2.2, f32 a1, f32 a2]

/-- Words 1 to 5 of a filter of TYPE 1 to 4 hold the coefficients designed from what is in force (R307, R309). -/
def filterRefresh (s : State) (slot : Nat) : State :=
  let typ := bitsOf (s.cp slot 0) 12 4
  let len := frameLen s (s.ctx slot).grp
  if (s.ctx slot).kind ≠ 12 ∨ typ = 0 ∨ 4 < typ ∨ len = 0 then s
  else
    let cs := filterDesign typ (s.cpR slot 6) (s.cpR slot 7) (ticksSec (len * (s.ctx slot).div))
    (List.range 5).foldl (fun t i => (t.setCw slot (1 + i) (nth cs i 0#32)).setFrc (ctxAddr slot (1 + i)) (nth cs i 0#32)) s

/-- The pass of a filter (R307): an invalid input is not entered. -/
def filterPass (s : State) (slot : Nat) (r : Run) : PassOut :=
  let x := s.filt slot
  let l := r.inp (inFp 0)
  let v := nth l 0 0#32
  let p (i : Nat) : Word := s.cp slot i
  if nth l 1 0#32 = 1#32 then
    let acc := fMa (p 3) x.x2 (fMa (p 2) x.x1 (fMul (p 1) v))
    let y := fMa (f32 (-(ratOf (p 5)))) x.y2 (fMa (f32 (-(ratOf (p 4)))) x.y1 (fMul (p 8) acc))
    { st := .filt { x1 := v, x2 := x.x1, y1 := y, y2 := x.y1 }, out := [lo32 r.t, hi32 r.t, y],
      words := [(64, s.cw slot 64 &&& 0xFFFF#32), (65, y), (66, v)] }
  else
    { st := .filt x, out := [lo32 r.t, hi32 r.t, s.cw slot 65],
      words := [(64, wd (2 ^ 31 + satInc 16 (bitsOf (s.cw slot 64) 0 16)))] }

/-- The pass of a probe (R308). -/
def probePass (s : State) (slot : Nat) (r : Run) : PassOut :=
  let one (i : Nat) : Word × Bool :=
    let l := r.inp (inFp i)
    let none_ := bw (curBind s slot) i == 0xFFFFFFFF#32
    if none_ then (0#32, true)
    else if nth l 1 0#32 = 1#32 then (fMa (s.cp slot (1 + 2 * i)) (nth l 0 0#32) (s.cp slot (2 + 2 * i)), true) else (f32NaN, false)
  let a := one 0
  let b := one 1
  { st := .plain, out := [lo32 r.t, hi32 r.t, a.1, b.1],
    words := [(64, wd (b2n (!a.2) * 2 ^ 31 + b2n (!b.2) * 2 ^ 30)), (65, a.1), (66, b.1)],
    acts := [.inkProbe slot a.1 b.1, .inkValue 1 slot a.1] }

def execFilterPass (slot : Fin 256) (s : State) : Host.Outcome State Fault Refusal := .next (passRow s slot.val [12] filterPass)
def execProbePass (slot : Fin 256) (s : State) : Host.Outcome State Fault Refusal := .next (passRow s slot.val [13] probePass)

end Sys2Proof.Machine
end

