-- ==== Sys2Proof/Machine/Field.lean ====
section
/-! DEFINITION. The isolated field channels: heartbeats and link, inputs and chatter, outputs, faults, supply and silence
(14_field_io.md). -/

namespace Sys2Proof.Machine

open Sys2Proof

/-! ### Reading the field interface -/

def fioOut (s : State) (n : Nat) : Bool := s.flag (R.fieldCfg_OUT n)
def fioCmd (s : State) (n : Nat) : Bool := s.flag (R.fieldChst_CMD n)
def fioLink (s : State) : Bool := s.flag R.fieldStat_LINK

/-- The output is latched off: OVERCUR, THERMAL or its bank (R369). -/
def fioLatched (s : State) (n : Nat) : Bool :=
  s.flag (R.fieldChst_OVERCUR n) || s.flag (R.fieldChst_THERMAL n) || s.fld ⟨R.fieldStat, 24 + n / 8, 1⟩ == 1

/-- The supply holds every output off: UV or OV (R370). -/
def fioSupplyBad (s : State) : Bool := s.flag R.fieldStat_UV || s.flag R.fieldStat_OV

/-- What an output drives: its command, or in a silence its SAFEVAL; off while latched or held off (R369, R370, R373). -/
def fioOn (s : State) (n : Nat) : Bool :=
  fioOut s n && !fioLatched s n && !fioSupplyBad s &&
    (if s.field.silent then
      match s.fld (R.fieldCfg_SAFEVAL n) with
      | 0 => false
      | 1 => true
      | _ => bitOf s.field.heldOn n
    else fioCmd s n)

/-- A word from 32 flags. -/
def maskOf (f : Nat → Bool) : Word := (List.range 32).foldl (fun w n => if f n then w ||| (1#32 <<< n) else w) 0#32

/-- ON and SAFE_HELD of every channel, and `FIELD.OUT`, follow what the outputs do. -/
def fioRefresh (s : State) : State :=
  let s1 := (List.range 32).foldl (fun t n =>
    (t.setFlag (R.fieldChst_ON n) (fioOn s n)).setFlag (R.fieldChst_SAFE_HELD n) (fioOut s n && s.field.silent)) s
  s1.setReg R.fieldOut (maskOf (fioCmd s))

/-- LEVEL of every channel and `FIELD.IN`: the accepted levels, off while LINK is 0 (R363). -/
def fioLevels (s : State) : State :=
  let w := if fioLink s then s.field.raw else 0#32
  ((List.range 32).foldl (fun t n => t.setFlag (R.fieldChst_LEVEL n) (bitOf w n)) s).setReg R.fieldIn w

/-- An output's command changes; a channel's fault clears when it is commanded off, a bank's once all its outputs are (R369). -/
def fioCommand (s : State) (n : Nat) (on : Bool) : State :=
  let s1 := s.setFlag (R.fieldChst_CMD n) on
  let s2 := if on then s1 else (s1.setFlag (R.fieldChst_OVERCUR n) false).setFlag (R.fieldChst_THERMAL n) false
  let b := n / 8
  if (List.range 8).any (fun i => fioCmd s2 (8 * b + i)) then s2 else s2.setFld ⟨R.fieldStat, 24 + b, 1⟩ 0

/-- A channel inside its chatter hold-off (R366). -/
def fioHolding (s : State) (n : Nat) : Bool :=
  match tblGet (s.field.hold.map (fun e => (e.1, some e.2))) n none with
  | some t => decide (s.dt < t)
  | none => false

/-- `FIELD.CHST[n]` as a read finds it: HOLDING by the device time of the read. -/
def fioChst (s : State) (n : Nat) : Word := withBits (s.reg (R.fieldChst n)) 25 1 (b2n (fioHolding s n))

/-- The field registers of every channel as after reset (R362). -/
def fioChannelsReset (s : State) : State :=
  let s1 := (List.range 32).foldl (fun t n => [R.fieldCfg n, R.fieldChat n, R.fieldChst n, R.fieldCnt n].foldl (fun u a => u.setReg a (resetWord a)) t) s
  s1.withField { s1.field with win := [], hold := [], edgeAt := [] }

/-! ### Heartbeats (R362, R363, R373) -/

/-- The core die runs: heartbeats leave (R362). -/
def coreRuns (s : State) : Bool := s.phase != .reset && s.phase != .dormant

def execLogicHeartbeatSend (s : State) : Host.Outcome State Fault Refusal :=
  .next (if coreRuns s then s.withField { s.field with sent := some s.field.mark, mark := false } else s)

/-- The field die receives a heartbeat: a new session resets every channel; without the mark, outputs return from a silence to
their commands. It answers with the outputs it had moved (R362, R373). -/
def fieldHeartbeat (s : State) : State :=
  match s.field.sent with
  | none => s
  | some new =>
    let s1 := s.withField { s.field with sent := none, ans := some s.field.moved, moved := 0#32, silent := false }
    fioLevels (fioRefresh (if new then fioChannelsReset s1 else s1))

def execFieldHeartbeatReceive (s : State) : Host.Outcome State Fault Refusal := .next (fieldHeartbeat s)

/-- The logic side receives a field heartbeat: the fourth in a row restores LINK; outputs moved are reported (R363, R373). -/
def logicHeartbeat (s : State) : State :=
  match s.field.ans with
  | none => s
  | some mv =>
    let run := min 4 (s.field.run + 1)
    let s1 := s.withField { s.field with ans := none, run := run }
    let s2 := if mv = 0#32 then s1 else s1.raise 213 0 mv
    if !fioLink s2 && decide (4 ≤ run) then (fioLevels (s2.setFlag R.fieldStat_LINK true)).raise 212 0 1#32 else s2

def execLogicHeartbeatReceive (s : State) : Host.Outcome State Fault Refusal := .next (if coreRuns s then logicHeartbeat s else s)

/-- No field heartbeat for 1 ms (R363). -/
def linkTimeout (s : State) : State :=
  let s1 := s.withField { s.field with run := 0 }
  if fioLink s then (fioLevels (s1.setFlag R.fieldStat_LINK false)).raise 212 0 0#32 else s1

def execFieldLinkTimeout (s : State) : Host.Outcome State Fault Refusal := .next (linkTimeout s)

/-- The end of the SILENCE window: every output takes its SAFEVAL (R373). -/
def silenceBegin (s : State) : State :=
  if s.field.silent then s
  else
    let was := maskOf (fioOn s)
    let s1 := s.withField { s.field with silent := true, heldOn := was }
    fioRefresh (s1.withField { s1.field with moved := was ^^^ maskOf (fioOn s1) })

def execFieldSilenceExpiry (s : State) : Host.Outcome State Fault Refusal := .next (silenceBegin s)

/-! ### Inputs (R365, R366) -/

/-- An accepted edge of an input in the chatter detector: the CHAT_N-th of a window is a chatter, told unless a hold-off runs. -/
def chatterEdge (s : State) (n : Nat) : State :=
  let k := tblGet s.field.win n 0 + 1
  let lim := s.fld (R.fieldChat_CHAT_N n)
  let s1 := s.withField { s.field with win := tblPut s.field.win n k 0 }
  if lim = 0 ∨ k ≠ lim then s1
  else
    let s2 := s1.cntSat (R.fieldCnt_CHATTERS n)
    if fioHolding s n then s2
    else
      let stop := s.dt + tk (s.fld (R.fieldChat_HOLDOFF n) * msTicks)
      (s2.withField { s2.field with hold := tblIns s2.field.hold n stop }).raise 208 n (wd k)

/-- An accepted edge of a channel (R365): the level; for an input, its time, the counts, the events, and the latch units on it (R238). -/
def fieldEdge (s : State) (n : Nat) (level : Bool) (t : Tick) : State :=
  let s0 := s.withField { s.field with raw := withBits s.field.raw n 1 (b2n level) }
  if bitOf s.field.raw n = level then s
  else if !fioLink s then s0
  else
    let s1 := fioLevels s0
    if fioOut s n then s1
    else
      let held := fioHolding s1 n
      let s2 := if tbValid s1 then s1.withField { s1.field with edgeAt := tblPut s1.field.edgeAt n t 0 } else s1
      let s3 := chatterEdge ((s2.cntWrap (R.fieldCnt_EDGES n)).setFlag (R.fieldChst_SEEN n) true) n
      let s4 := if s3.flag (R.fieldCfg_EDGE_EVT n) && !held then s3.raise 214 n (if level then 1#32 else 2#32) else s3
      if tbValid s4 then latchFrom s4 0 n level t else s4

/-! ### What Husk sees of FIO0 to FIO7 (R328) -/

/-- Word `w` of Husk's stored subset. -/
def huskW (s : State) (w : Nat) : Word := nth (s.safe.husk.set.getD []) w 0#32

def State.setHusk (s : State) (h : HuskS) : State := s.withSafe { s.safe with husk := h }

/-- Husk works: it is powered and not DEAD (R343). -/
def huskUp (s : State) : Bool := s.safe.husk.on && s.safe.husk.st != 6

/-- Husk's window of a contactor opens at a new command (R345). -/
def huskWindow (s : State) (n : Nat) (on : Bool) (t : Tick) : State :=
  s.setHusk { s.safe.husk with win := (n, on, t) :: s.safe.husk.win.filter (fun e => e.1 != n) }

/-- An output among FIO0 to FIO7 changes as Husk reads it back: it commands the contactors whose CMD it is, whatever the core
does (R328, R329, R345). DEDUCED (log entry 57): Husk, which has no other sight of an output, takes its readback for the command. -/
def huskFollow (s : State) (c : Nat) (on : Bool) (t : Tick) : State :=
  if !huskUp s || bitOf s.field.raw c == on then s
  else (List.range 4).foldl (fun u n =>
    let w := huskW u (8 + 2 * n)
    if bitOf w 31 && bitsOf w 16 5 == 0x10 + c then huskWindow u n on t else u) s

def execFieldInputEdge (n : Fin 32) (level : Bool) (t : Tick) (s : State) : Host.Outcome State Fault Refusal :=
  .next (fieldEdge (huskFollow (s.at t) n.val level t) n.val level t)

/-- A chatter window ends and the next one starts (R366). -/
def chatterNext (s : State) (n : Nat) : State := s.withField { s.field with win := tblDel s.field.win n }

def execChatterWindowEnd (n : Fin 32) (s : State) : Host.Outcome State Fault Refusal := .next (chatterNext s n.val)

/-! ### Outputs (R369, R370) -/

/-- An output that is on latches a fault and switches off (R369): 1 overcurrent, 2 thermal. -/
def outFault (s : State) (n code : Nat) : State :=
  let f := if code = 1 then R.fieldChst_OVERCUR n else R.fieldChst_THERMAL n
  if !fioOut s n || !fioOn s n then s
  else fioRefresh (((s.setFlag f true).cntSat (R.fieldCnt_FAULTS n)).raise 209 n (wd code))

def execOutputOvercurrent (n : Fin 32) (s : State) : Host.Outcome State Fault Refusal := .next (outFault s n.val 1)
def execOutputThermal (n : Fin 32) (s : State) : Host.Outcome State Fault Refusal := .next (outFault s n.val 2)

/-- A bank above 2.5 A for 20 ms switches its outputs off and latches BANK_FLT (R369). -/
def bankFault (s : State) (b mA : Nat) : State :=
  if s.fld ⟨R.fieldStat, 24 + b, 1⟩ = 1 then s
  else fioRefresh (((s.setFld ⟨R.fieldStat, 24 + b, 1⟩ 1).setFld (R.fieldBank_CURRENT b) mA).raise 210 b (wd mA))

def execBankOvercurrent (b : Fin 4) (mA : BitVec 16) (s : State) : Host.Outcome State Fault Refusal := .next (bankFault s b.val mA.toNat)

/-- A measurement of VFIELD in 10 mV steps and of the bank currents (R370). -/
def vfield (s : State) (v : Nat) (banks : List (BitVec 16)) : State :=
  let uv := s.flag R.fieldStat_UV
  let ov := s.flag R.fieldStat_OV
  let uv1 := if uv then decide (v ≤ 1550) else decide (v < 1450)
  let ov1 := if ov then decide (3300 ≤ v) else decide (3400 < v)
  let s1 := ((s.setFld R.fieldStat_VFIELD v).setFlag R.fieldStat_UV uv1).setFlag R.fieldStat_OV ov1
  let s2 := (List.range 4).foldl (fun t b => match banks[b]? with
    | some c => t.setFld (R.fieldBank_CURRENT b) c.toNat
    | none => t) s1
  let s3 := fioRefresh s2
  if uv = uv1 ∧ ov = ov1 then s3 else s3.raise 211 0 (if uv1 then 1#32 else if ov1 then 2#32 else 0#32)

def execVfieldMeasurement (v : BitVec 16) (banks : List (BitVec 16)) (s : State) : Host.Outcome State Fault Refusal :=
  .next (vfield s v.toNat banks)

/-- A write of a register of the FIELD block (R378): SILENCE, and SEEN one to clear. -/
def fieldBlockWrite (s : State) (a : Nat) (w : Word) : Option Res :=
  if a = R.fieldCtrl then some (checked s (bitsOf w 0 8 == 0) stBAD_PARAM (plainNow s a w)) else none

end Sys2Proof.Machine
end

