-- ==== Sys2Proof/Machine/Safe.lean ====
section
/-! DEFINITION. The safety channels Scribe and Husk: the parameter set, the STO inputs, safe axes, module states, the
cross-check, contactors, safe output pairs and the two-network telegram (13_safety.md). -/

namespace Sys2Proof.Machine

open Sys2Proof

/-! ### The parameter set (R351) -/

/-- Word `w` of the set in force at Scribe; 0 while none is in force. -/
def setW (s : State) (w : Nat) : Word := nth (s.safe.set.getD []) w 0#32

/-- The bits of the H fields of a word. -/
def hMask (w : Nat) : Word :=
  if w = 1 then 0x80FFFFFF#32 else if w = 2 then 0xFFFFFFFF#32 else if w = 3 then 0xFFFF#32 else if w = 7 then 8#32
  else if 8 ≤ w ∧ w < 16 then (if w % 2 = 0 then 0xF71F0000#32 else 0xFFFFFFFF#32)
  else if 16 ≤ w ∧ w < 24 then (if w % 2 = 0 then 0x87070000#32 else 0#32)
  else if 24 ≤ w ∧ w < 136 ∧ (w - 24) % 14 = 1 then 0x87FFFFFF#32
  else 0#32

/-- The bits of the L fields of a word. -/
def lMask (w : Nat) : Word :=
  if w = 3 then 0xFFFFFFFF#32
  else if 8 ≤ w ∧ w < 16 then (if w % 2 = 1 then 0xFFFFFFFF#32 else 0#32)
  else if 16 ≤ w ∧ w < 24 then (if w % 2 = 0 then 0xFFFF#32 else 0x3FFFF#32)
  else if 24 ≤ w ∧ w < 136 ∧ 4 ≤ (w - 24) % 14 then 0xFFFFFFFF#32
  else 0#32

/-- The subset Husk holds of a set: every word with its other bits zeroed. -/
def huskSubset (ws : List Word) : List Word := (List.range 136).map (fun w => nth ws w 0#32 &&& hMask w)

/-- CRC_S: over words 0 to 135. -/
def crcS (ws : List Word) : Word := crc32c (ws.take 136)

/-- CRC_H: over the words that carry an H field, other bits zeroed. -/
def crcH (ws : List Word) : Word :=
  crc32c (((List.range 136).filter (fun w => hMask w != 0#32)).map (fun w => nth ws w 0#32 &&& hMask w))

/-- Word `w` of a set is outside its ranges (R351, R371). Words of a monitor, pair or safe axis count while its EN is 1. -/
def setWordBad (s : State) (ws : List Word) (w : Nat) : Bool :=
  let g (i : Nat) : Word := nth ws i 0#32
  let x := g w
  let noAxis := !((List.range 8).any (fun a => bitOf (g (24 + 14 * a)) 31))
  let noStop := noAxis && bitsOf (g 3) 16 16 == 0
  if w = 0 then x != 0x00010088#32
  else if w = 1 then (x &&& 0x7F000000#32) != 0#32 || decide (20 < bitsOf x 16 8) || outNat 1 1000 (bitsOf x 0 16)
  else if w = 2 then outNat 2 8 (bitsOf x 24 8) || outNat 1 8 (bitsOf x 16 8) || outNat 1 100 (bitsOf x 0 16)
  else if w = 3 then decide (5000 < bitsOf x 16 16) || outNat 100 60000 (bitsOf x 0 16)
  else if w = 4 then
    bitsOf x 16 16 == 0 || outNat 1 20 (bitsOf x 8 8) || outNat 2 200 (bitsOf x 0 8) || decide (bitsOf x 0 8 < 2 * bitsOf x 8 8)
  else if w = 5 then false
  else if w = 6 then bitsOf x 16 16 == 0 || outNat (bitsOf (g 4) 8 8) 1000 (bitsOf x 0 16)
  else if w = 7 then (x &&& 0xFFFFFFE0#32) != 0#32 || decide (1 < bitsOf x 0 2) || (bitOf x 2 && noStop)
  else if w < 16 then
    let en := bitOf (g (8 + (w - 8) / 2 * 2)) 31
    en && (if w % 2 = 0 then
        (x &&& 0x08E0FFFF#32) != 0#32 || bitsOf x 28 2 == 3 || !(decide (bitsOf x 16 5 < 4) || (decide (0x10 ≤ bitsOf x 16 5) && decide (bitsOf x 16 5 ≤ 0x17)))
        || (bitsOf x 28 2 == 2 && noStop)
      else outNat 1 2000 (bitsOf x 16 16) || outNat 1 2000 (bitsOf x 0 16))
  else if w < 24 then
    let p := (w - 16) / 2
    let h := g (16 + 2 * p)
    bitOf h 31 && (if w % 2 = 0 then
        let a := bitsOf h 24 3
        let b := bitsOf h 16 3
        let mine := [a, b]
        (x &&& 0x78F80000#32) != 0#32 || a == b || outNat 100 1000 (bitsOf x 0 16)
        || (List.range p).any (fun q => bitOf (g (16 + 2 * q)) 31 && (mine.contains (bitsOf (g (16 + 2 * q)) 24 3) || mine.contains (bitsOf (g (16 + 2 * q)) 16 3)))
        || mine.any (fun c => !fioOut s c || s.fld (R.fieldCfg_SAFEVAL c) != 0)
      else (x &&& 0xFFFC0000#32) != 0#32 || outNat 10 10000 (bitsOf x 0 16))
  else if w < 136 then
    let a := (w - 24) / 14
    let h := g (24 + 14 * a)
    bitOf h 31 && (match (w - 24) % 14 with
      | 0 =>
        let stop := bitsOf x 0 8
        (x &&& 0x0F000000#32) != 0#32 || (!bitOf x 30 && decide (15 < bitsOf x 16 8))
        || (!bitOf x 29 && decide (15 < bitsOf x 8 8) && bitsOf x 8 8 != 0xFF)
        || (stop != 0xFF && (s.ctx stop).kind != 7 && (s.ctx stop).kind != 8)
      | 1 =>
        let m := fbMode s (bitsOf x 24 3)
        (x &&& 0x78000000#32) != 0#32 || (bitOf x 31 && (bitsOf x 16 8 == 0 || outNat 1 4000 (bitsOf x 0 16) || (m != 0 && m != 2)))
      | 2 => badF32 x || ratOf x == 0
      | 3 => badF32 x || ratOf x == 0
      | 9 => badF32 x || decide (ratOf x < 0)
      | 10 => decide (5000 < bitsOf x 16 16) || decide (5000 < bitsOf x 0 16)
      | _ => badF32 x || decide (ratOf x ≤ 0))
  else false

/-- The first failing word of a set. -/
def setBad (s : State) (ws : List Word) : Option Nat := findNat 136 (setWordBad s ws)

/-- SAFE_CFG_FAULT set or ended, told by event 18 (R125). -/
def safeCfgFault (s : State) (on : Bool) : State :=
  if s.flag R.cfgStat_SAFE_CFG_FAULT = on then s else (s.setFlag R.cfgStat_SAFE_CFG_FAULT on).raise 18 0 (wd (b2n on))

/-! ### What the set names -/

def contEn (s : State) (n : Nat) : Bool := bitOf (setW s (8 + 2 * n)) 31
def contReact (s : State) (n : Nat) : Nat := bitsOf (setW s (8 + 2 * n)) 28 2
def contCmdSrc (s : State) (n : Nat) : Nat := bitsOf (setW s (8 + 2 * n)) 16 5
def pairEn (s : State) (p : Nat) : Bool := bitOf (setW s (16 + 2 * p)) 31
def pairA (s : State) (p : Nat) : Nat := bitsOf (setW s (16 + 2 * p)) 24 3
def pairB (s : State) (p : Nat) : Nat := bitsOf (setW s (16 + 2 * p)) 16 3
def pairApplied (s : State) (p : Nat) : Bool := s.flag (R.safeOut_APPLIED p)
def axEn (s : State) (a : Nat) : Bool := bitOf (setW s (24 + 14 * a)) 31
def axW (s : State) (a i : Nat) : Word := setW s (24 + 14 * a + i)
def safeAxes (s : State) : List Nat := (List.range 8).filter (axEn s)
def telEn (s : State) : Bool := bitOf (setW s 7) 4

/-- A channel the set in force names: contactor feedback or command, or a member of a pair (R371). -/
def setNames (s : State) (c : Nat) : Bool :=
  (List.range 4).any (fun n => contEn s n && (bitsOf (setW s (8 + 2 * n)) 24 3 == c || contCmdSrc s n == 0x10 + c))
  || (List.range 4).any (fun p => pairEn s p && (pairA s p == c || pairB s p == c))

/-- MODE of the module: 0 STO, 1 PERMIT, 2 SS1, 3 LOCKED (R334). -/
def safeMode (s : State) : Nat := s.fld R.safeState_MODE

def State.sax (s : State) (a : Nat) : SafeAx := nth s.safe.ax a {}
def State.setSax (s : State) (a : Nat) (x : SafeAx) : State := s.withSafe { s.safe with ax := setAt s.safe.ax a x }

/-! ### Husk (R329 to R331, R343) -/

/-- Husk removes torque: the buffer enable low, then GEN_A and GEN_B low (R331). -/
def huskOff (s : State) : State := (huskEnable s false).setHusk { s.safe.husk with gen := false, settle := false }

/-- Husk restores torque: GEN_A and GEN_B high first; the buffer enable follows after GEN_SETTLE (R331). -/
def huskPermit (s : State) : State := s.setHusk { s.safe.husk with st := 2, gen := true, settle := true }

/-- Husk latches a cause of its own: torque removed and LOCKED (R341, R343). -/
def huskLock (s : State) (bit : Nat) : State :=
  let h := s.safe.husk
  if !huskUp s then s
  else huskOff (s.setHusk { h with st := if h.st = 0 then 0 else 5, cause := h.cause ||| (1#32 <<< bit) })

/-- MODE as Husk's state shows it. -/
def huskMode (h : HuskS) : Nat :=
  match h.st with
  | 2 => 1
  | 3 => 2
  | 4 => (match h.prev with
    | 2 => 1
    | 3 => 2
    | 5 => 3
    | _ => 0)
  | 5 => 3
  | 6 => 3
  | _ => 0

/-- FIO7 to FIO0 as Husk samples the couplers (R328). -/
def huskFio (s : State) : Nat := bitsOf s.field.raw 0 8

/-- The count differences of four counters in a word. -/
def packCnt (l : List Word) (i : Nat) : Word :=
  wd (((List.range 4).map (fun k => bitsOf (nth l (4 * i + k) 0#32) 0 8 * 256 ^ k)).foldl (· + ·) 0)

/-- Seven words with their check word (R340). -/
def frame8 (ws : List Word) : List Word := ws ++ [crc32c ws]

/-- Husk's cross-check frame (R340). -/
def huskFrame (s : State) : List Word :=
  let h := s.safe.husk
  let outs := b2n (huskEn s) * 4 + b2n h.gen * 2 + b2n h.gen
  frame8 [wd (h.seq % 65536 * 65536 + s.safe.seq % 65536), wd (huskMode h * 2 ^ 28 + h.st * 2 ^ 24),
    wd (outs * 2 ^ 29 + b2n h.b * 2 ^ 17 + b2n h.a * 65536 + huskFio s), h.cause &&& 0xFFFFFF#32, packCnt h.cnt 0, packCnt h.cnt 1,
    match h.set with
    | some ws => crcH ws
    | none => 0#32]

/-! ### Contactors (R344, R345) -/

/-- T of a command: T_CLOSE or T_OPEN of the monitor's second word (R344, R351). -/
def contT (w : Word) (on : Bool) : Nat := (if on then bitsOf w 0 16 else bitsOf w 16 16) * msTicks

/-- The command of a contactor changes: its window opens at Scribe (R344). -/
def contCommand (s : State) (n : Nat) (on : Bool) : State :=
  let s1 := (s.setFlag (R.safeCont_CMD n) on).setFld (R.safeCont_STATE n) 2
  s1.withSafe { s1.safe with tc := setAt s1.safe.tc n s1.dt }

/-- The command outputs of monitors follow a field output (R344). -/
def contFollow (s : State) (c : Nat) (on : Bool) : State :=
  (List.range 4).foldl (fun t n =>
    if contEn t n && contCmdSrc t n == 0x10 + c && t.flag (R.safeCont_CMD n) != on then contCommand t n on else t) s

/-- A cause latches at Scribe: `soft` asks for SS1 only (R338). -/
def scribeLatch (s : State) (bit : Nat) (soft : Bool) : State :=
  let m := 1#32 <<< bit
  let x := s.safe
  s.withSafe { x with latched := x.latched ||| m, soft := if soft && (x.latched &&& m) == 0#32 then x.soft ||| m else if soft then x.soft else x.soft &&& ~~~m }

/-- A contactor fault: code, event and the reaction REACT selects (R344). -/
def contFault (s : State) (n code : Nat) : State :=
  let s1 := ((s.setFld (R.safeCont_STATE n) 3).setFld (R.safeCont_FAULT n) code).raise 197 n (wd code)
  match contReact s n with
  | 0 => s1
  | 1 => scribeLatch s1 8 false
  | _ => scribeLatch s1 8 true

/-- A contactor fault as Husk finds it (R329): it removes torque where REACT is STO. -/
def huskContFault (s : State) (n : Nat) : State :=
  if bitsOf (huskW s (8 + 2 * n)) 28 2 = 1 then huskLock s 8 else s

/-- The end of a contactor's window at Scribe: the feedback is in the commanded state or FAIL_CLOSE or WELDED is found (R344). -/
def contExpire (s : State) (n : Nat) : State :=
  let cmd := s.flag (R.safeCont_CMD n)
  if !contEn s n || s.fld (R.safeCont_STATE n) != 2 then s
  else if s.flag (R.safeCont_FB n) = cmd then s.setFld (R.safeCont_STATE n) (b2n cmd)
  else contFault s n (if cmd then 1 else 2)

/-- The end of a contactor's window at Husk (R345). -/
def huskExpire (s : State) (n : Nat) : State :=
  match s.safe.husk.win.find? (fun e => e.1 == n) with
  | some e =>
    let s1 := s.setHusk { s.safe.husk with win := s.safe.husk.win.filter (fun x => x.1 != n) }
    if nth s.safe.husk.fb n false = e.2.1 then s1 else huskContFault s1 n
  | none => s

def execContactorWindowExpiry (n : Fin 4) (husk : Bool) (s : State) : Host.Outcome State Fault Refusal :=
  .next (if husk then huskExpire s n.val else contExpire s n.val)

/-- Scribe sees the feedback of a contactor change. Inside the window [t_c, t_c + T) it ends the window in the commanded state; at
or beyond its end the window has ended first (R344, R356); with no window it is UNSOLICITED. DEDUCED (log entry 57): the late change
that brings a contactor in FAIL_CLOSE or WELDED to its commanded state is no fault of its own. -/
def contSee (s : State) (n : Nat) (closed : Bool) (t : Tick) : State :=
  if !contEn s n || s.flag (R.safeCont_FB n) == closed then s
  else
    let cmd := s.flag (R.safeCont_CMD n)
    let dt := (t - nth s.safe.tc n 0).toNat
    let s0 := if decide (contT (setW s (9 + 2 * n)) cmd ≤ dt) then contExpire s n else s
    let s1 := s0.setFlag (R.safeCont_FB n) closed
    if s0.fld (R.safeCont_STATE n) = 2 then
      if closed = cmd then (s1.setFld (R.safeCont_STATE n) (b2n closed)).setFld (R.safeCont_LAST_MS n) (min 65535 (dt / msTicks)) else s1
    else if s0.fld (R.safeCont_STATE n) = 3 ∧ closed = cmd then s1
    else contFault s1 n 3

/-- The ticks by which Husk's window of a monitor has surely ended: T, 0.5 ms more for a command that came in a frame, at 1.03 times
its nominal value (R343, R345). -/
def huskT (s : State) (n : Nat) (on : Bool) : Nat :=
  (contT (huskW s (9 + 2 * n)) on + (if bitsOf (huskW s (8 + 2 * n)) 16 5 < 4 then msTicks / 2 else 0)) * 103 / 100

/-- Husk sees the feedback of a contactor change, by its own window, own set and own view of the feedback: the core has no part in
it (R15, R328, R329, R345). -/
def huskSee (s : State) (n : Nat) (closed : Bool) (t : Tick) : State :=
  if nth s.safe.husk.fb n false = closed then s
  else
    let out (u : State) : State := u.setHusk { u.safe.husk with fb := setAt u.safe.husk.fb n closed }
    if !huskUp s || !bitOf (huskW s (8 + 2 * n)) 31 then out s
    else match s.safe.husk.win.find? (fun e => e.1 == n) with
      | some e =>
        if huskT s n e.2.1 < (t - e.2.2).toNat then out (huskExpire s n)
        else
          let s1 := out s
          if e.2.1 = closed then s1.setHusk { s1.safe.husk with win := s1.safe.husk.win.filter (fun x => x.1 != n) } else s1
      | none => huskContFault (out s) n

/-- The feedback of a contactor changes: Scribe and Husk each judge it alone (R329, R344, R345). -/
def contFeedback (s : State) (n : Nat) (closed : Bool) (t : Tick) : State :=
  huskSee (if coreRuns s then contSee s n closed t else s) n closed t

def execContactorFeedbackChange (n : Fin 4) (closed : Bool) (t : Tick) (s : State) : Host.Outcome State Fault Refusal :=
  .next (contFeedback (s.at t) n.val closed t)

/-! ### Safe output pairs (R346, R347) -/

/-- A pair applied: both channels off. -/
def pairApply (s : State) (p : Nat) : State :=
  let s1 := s.setFlag (R.safeOut_APPLIED p) true
  if !pairEn s p || pairApplied s p then s1
  else
    [pairA s p, pairB s p].foldl (fun t c => if fioCmd t c then contFollow (fioRefresh (fioCommand t c false)) c false else t) s1

def pairsApply (s : State) (f : Nat → Bool) : State := (List.range 4).foldl (fun t p => if f p then pairApply t p else t) s

/-- A test pulse of a channel of a pair that is on (R347): two wrong readbacks in a row are an output fault. -/
def testPulse (s : State) (p : Nat) (chB good : Bool) : State :=
  let c := if chB then pairB s p else pairA s p
  let i := 2 * p + b2n chB
  if !pairEn s p || pairApplied s p || !fioOn s c then s
  else if good then (s.cntWrap (R.safeOut_PULSES p)) |> fun t => t.withSafe { t.safe with wrong := setAt t.safe.wrong i 0 }
  else
    let k := nth s.safe.wrong i 0 + 1
    let s1 := s.withSafe { s.safe with wrong := setAt s.safe.wrong i k }
    if k < 2 then s1
    else scribeLatch ((pairApply (s1.setFlag (R.safeOut_FAULT p) true) p).raise 198 p (wd (1 + b2n chB))) 9 false

def execSafeTestPulse (p : Fin 4) (chB offDuring onOutside : Bool) (s : State) : Host.Outcome State Fault Refusal :=
  .next (testPulse s p.val chB (offDuring && onOutside))

/-- A channel of a pair reported applied reads back on at Husk for more than 10 ms (R347). -/
def huskReadback (s : State) (p : Nat) : State :=
  let w := huskW s (16 + 2 * p)
  if huskUp s && bitOf s.safe.husk.word3 p && bitOf w 31 && (bitOf s.field.raw (bitsOf w 24 3) || bitOf s.field.raw (bitsOf w 16 3)) then
    (huskLock s 9).raise 198 p 3#32
  else s

def execHuskReadbackTimeout (p : Fin 4) (s : State) : Host.Outcome State Fault Refusal := .next (huskReadback s p.val)

/-! ### STO inputs (R336) -/

/-- Husk sees an STO input off: it removes torque on its own (R329). -/
def huskSto (s : State) : State :=
  let h := s.safe.husk
  if h.a && h.b then s
  else if h.st = 2 ∨ h.st = 3 then huskOff (s.setHusk { h with st := 1 })
  else if h.st = 4 ∧ (h.prev = 2 ∨ h.prev = 3) then huskOff (s.setHusk { h with prev := 1 })
  else s

/-- The discrepancy window after a change of the inputs: the input that is off (1 A, 2 B) while they differ. -/
def discNext (old : Option Nat) (a b : Bool) : Option Nat :=
  if a = b then none
  else match old with
    | some d => some d
    | none => some (if a then 2 else 1)

/-- An STO input after STO_FILT of word 1 of a set, in 0.1 ms (R336, R351): an off pulse shorter than it is ignored. -/
def stoSeen (w1 : Word) (old : Bool) (x : StoLevel) : Bool := x.on || (old && decide (x.w < bitsOf w1 16 8 * 50000))

/-- A change of the STO inputs as the field die (0) reports it, or as Scribe (1) or Husk (2) takes it, each after its own STO_FILT. -/
def stoChange (s : State) (view : Nat) (a b : StoLevel) : State :=
  if view = 0 then s.setReg R.fieldSto (wd (b2n b.on * 2 + b2n a.on))
  else if view = 1 then
    let x := stoSeen (setW s 1) s.safe.a a
    let y := stoSeen (setW s 1) s.safe.b b
    s.withSafe { s.safe with a := x, b := y, disc := discNext s.safe.disc x y }
  else if s.safe.husk.on then
    let x := stoSeen (huskW s 1) s.safe.husk.a a
    let y := stoSeen (huskW s 1) s.safe.husk.b b
    huskSto (s.setHusk { s.safe.husk with a := x, b := y, disc := discNext s.safe.husk.disc x y })
  else s

def execStoInputChange (view : Fin 3) (a b : StoLevel) (s : State) : Host.Outcome State Fault Refusal := .next (stoChange s view.val a b)

/-- The inputs still differ at the end of DISC_T (R336). -/
def stoDiscrepancy (s : State) (husk : Bool) : State :=
  if husk then (if s.safe.husk.disc.isSome then huskLock s 2 else s)
  else match s.safe.disc with
    | some d => if bitOf s.safe.latched 2 then s else (scribeLatch s 2 false).raise 194 0 (wd d)
    | none => s

def execStoDiscrepancyExpiry (husk : Bool) (s : State) : Host.Outcome State Fault Refusal := .next (stoDiscrepancy s husk)

/-! ### Safe axes (R337 to R339) -/

/-- What a source posts: VALID, VEL, POS, the instant of its last sample. -/
def safeSrc (s : State) (obs : Bool) (k : Nat) : Bool × Rat × Rat × Tick :=
  if obs then
    let o := (s.ctx k).out
    (nth o 6 0#32 == 1#32, ratOf (nth o 4 0#32), posRat (join64 (nth o 2 0#32) (nth o 3 0#32)), join64 (nth o 0 0#32) (nth o 1 0#32))
  else (s.flag (R.fdbkStat_VALID k), ratOf (s.reg (R.fdbkVel k)), posRat (s.reg64 (R.fdbkPosLo k)), (s.fb k).last)

/-- A violation: latched with its function code; MISMATCH and SOURCE give STO, others what REACT selects (R338). -/
def axViolate (s : State) (a code : Nat) : State :=
  let x := s.sax a
  if x.codes / 2 ^ code % 2 = 1 then s
  else
    let hard := code == 9 || !bitOf (axW s a 0) 28 || safeMode s == 2
    let s1 := (s.setSax a { x with codes := x.codes ||| 2 ^ code }).setFld (R.safeAx_ASTATE a) 4
    scribeLatch ((s1.setFld (R.safeAx_FUNC a) code).raise 195 a (wd code)) 6 (!hard)

/-- The speed and position of a safe axis from the last samples, and its source checks (R337). -/
def axSample (s : State) (a : Nat) : State :=
  let w := axW s a 0
  let x := s.sax a
  let pr := safeSrc s (bitOf w 30) (bitsOf w 16 8)
  let two := bitsOf w 8 8 != 0xFF
  let se := safeSrc s (bitOf w 29) (bitsOf w 8 8)
  let vp := pr.2.1 * ratOf (axW s a 2)
  let vs := se.2.1 * ratOf (axW s a 3)
  let v := if !two || decide (absR vs ≤ absR vp) then vp else vs
  let apart := two && (decide (ratOf (axW s a 7) ≤ absR (vp - vs)) || (bitOf w 29 && s.flag ⟨ctxAddr (bitsOf w 8 8) 64, 27, 1⟩))
  let cmp := if apart then x.cmp + 1 else 0
  let oldP := if pr.2.2.2 = x.lastP then x.oldP + 1 else 0
  let oldS := if two && se.2.2.2 == x.lastS then x.oldS + 1 else 0
  let bad := !pr.1 || (two && !se.1) || decide (4 ≤ oldP) || decide (4 ≤ oldS) || decide (bitsOf (setW s 2) 16 8 ≤ cmp)
  (s.setSax a { x with v := v, p := pr.2.2.1 * ratOf (axW s a 2), cmp := cmp, oldP := oldP, oldS := oldS, lastP := pr.2.2.2, lastS := se.2.2.2, bad := bad }).setReg
    (R.safeAxv a) (f32 v)

/-- The envelope of SS1-r and SS2 (R339): |v| at or above it is a violation. -/
def envelopeBroken (s : State) (a : Nat) (t : Tick) : Bool :=
  let x := s.sax a
  let tr : Rat := (bitsOf (axW s a 10) 16 16 : Rat) / 1000
  let d := ticksSec (t - x.t0).toNat - tr
  decide (absR x.v0 + ratOf (axW s a 9) - ratOf (axW s a 8) * (if d < 0 then 0 else d) ≤ absR x.v)

/-- QUICK_STOP to the STOP_AX of an axis through Reed's own port: not executed where Reed does not serve (R339). -/
def quickStop (s : State) (a : Nat) : State :=
  let k := bitsOf (axW s a 0) 0 8
  let c := s.ctx k
  if s.reed = .running ∧ (c.kind = 7 ∨ c.kind = 8) then (axisTable s k 0x34 [] false).st else s

/-- The functions of one safe axis at a cycle (R339). -/
def axMonitor (s : State) (t : Tick) (a : Nat) : State :=
  let s0 := if (s.sax a).bad then axViolate s a 9 else s
  let x := s0.sax a
  let st := s0.fld (R.safeAx_ASTATE a)
  let slow := decide (absR x.v < ratOf (axW s a 12))
  let s1 := s0.setSax a { x with still := if slow then min 3 (x.still + 1) else 0 }
  let s2 := if safeMode s = 2 ∧ envelopeBroken s1 a t then axViolate s1 a 2 else s1
  let s3 := if st = 2 then
      if envelopeBroken s2 a t then axViolate s2 a 4
      else if 3 ≤ (s2.sax a).still then (s2.setFld (R.safeAx_ASTATE a) 3).setSax a { s2.sax a with p0 := x.p } else s2
    else if st = 3 then
      (if x.p < x.p0 - ratOf (axW s a 11) ∨ x.p0 + ratOf (axW s a 11) ≤ x.p then axViolate s2 a 5 else s2)
    else s2
  let lv := s3.fld (R.safeAx_SLS a)
  let s4 := if lv ≠ 0 ∧ ratOf (axW s a (3 + lv)) ≤ absR x.v then axViolate s3 a 6 else s3
  match s4.fld (R.safeAx_SDI a) with
  | 1 => let px := max (s4.sax a).px x.p
         if ratOf (axW s a 13) ≤ px - x.p then axViolate s4 a 7 else s4.setSax a { s4.sax a with px := px }
  | 2 => let px := min (s4.sax a).px x.p
         if ratOf (axW s a 13) ≤ x.p - px then axViolate s4 a 7 else s4.setSax a { s4.sax a with px := px }
  | _ => s4

/-- The request of the telegram for an axis, taken at a cycle, t0 (R339): SLS level, direction, SS2 while torque is on. -/
def axSelect (s : State) (a nib : Nat) : State :=
  if !axEn s a then s
  else
    let x := s.sax a
    let lv := nib % 4
    let dir := if nib / 4 = 3 then 0 else nib / 4
    let lim (l : Nat) : Rat := ratOf (axW s a (3 + l))
    let cur := s.fld (R.safeAx_SLS a)
    let s1 :=
      if lv = cur then s.setSax a { x with pend := 0 }
      else if lv = 0 ∨ (cur ≠ 0 ∧ lim cur ≤ lim lv) then (s.setFld (R.safeAx_SLS a) lv).setSax a { x with pend := 0 }
      else s.setSax a { x with pend := lv }
    let s2 := if s1.fld (R.safeAx_SDI a) = dir then s1 else (s1.setFld (R.safeAx_SDI a) dir).setSax a { s1.sax a with px := x.p }
    let st := s2.fld (R.safeAx_ASTATE a)
    if nib = 12 ∧ st = 1 ∧ safeMode s = 1 then
      (quickStop s2 a |>.setFld (R.safeAx_ASTATE a) 2).setSax a { s2.sax a with v0 := x.v, t0 := s.dt, still := 0 }
    else if nib ≠ 12 ∧ (st = 2 ∨ st = 3) then s2.setFld (R.safeAx_ASTATE a) 1
    else s2

/-- The axis nibbles of the last accepted telegram at a cycle (R339, R348). -/
def telSelect (s : State) : State :=
  if telEn s then (List.range 8).foldl (fun t a => axSelect t a (bitsOf (nth s.safe.telLast 3 0#32) (4 * a) 4)) s else s

/-- T_SLS after its selection a level comes into force (R339). -/
def slsEffective (s : State) (a : Nat) : State :=
  let x := s.sax a
  if x.pend = 0 then s else (s.setFld (R.safeAx_SLS a) x.pend).setSax a { x with pend := 0 }

def execSlsLevelEffective (a : Fin 8) (s : State) : Host.Outcome State Fault Refusal := .next (slsEffective s a.val)

/-! ### Module states (R332 to R335) -/

/-- STO causes that are not latched (R360): an input off as sampled, telegram PERMIT 0, SAFE_CFG_FAULT. -/
def stoRequests (s : State) : Word :=
  wd (b2n (!s.safe.sa) + 2 * b2n (!s.safe.sb) + 8 * b2n (telEn s && !s.safe.telPermit) + 2048 * b2n (s.flag R.cfgStat_SAFE_CFG_FAULT))

/-- Every group is commanded to OFF, at its next carrier zero (R332). -/
def groupsOff (s : State) : State :=
  (List.range 8).foldl (fun t g =>
    if grpState t g = 0 ∧ t.fld (R.nibGstate_REQ g) = 0 then t
    else addPend ((t.setFld (R.nibGstate_REQ g) 0).setFlag (R.nibGstate_PENDING g) true) g (dueZero t g) true (.groupState 0)) s

/-- Pairs applied while telegram SBC is set (R339). -/
def sbcPair (s : State) (p : Nat) : Bool :=
  telEn s && bitOf (nth s.safe.telLast 2 0#32) 2 && bitOf (setW s (17 + 2 * p)) 17

/-- The module takes a state at instant `t`, with what its entry does (R332, R334, R339). -/
def scribeTake (s : State) (new : Nat) (t : Tick) : State :=
  let old := safeMode s
  if old = new then s
  else
    let s1 := (s.setFld R.safeState_MODE new).raise 192 0 (wd (old * 16 + new))
    match new with
    | 1 =>
      let s2 := s1.withSafe { s1.safe with rst := false, ssEnd := false, armed := false }
      (List.range 4).foldl (fun u p => if pairEn u p && !sbcPair u p then u.setFlag (R.safeOut_APPLIED p) false else u) s2
    | 2 =>
      let s2 := s1.withSafe { s1.safe with stopped := false }
      (safeAxes s).foldl (fun u a => quickStop (u.setSax a { u.sax a with v0 := (u.sax a).v, t0 := t, still := 0 }) a) s2
    | _ =>
      let s2 := if old = 1 ∨ old = 2 then groupsOff s1 else s1
      let s3 := pairsApply (s2.withSafe { s2.safe with armed := false, stopped := false }) (fun _ => true)
      let s4 := (List.range 8).foldl (fun u a => if u.fld (R.safeAx_ASTATE a) = 2 ∨ u.fld (R.safeAx_ASTATE a) = 3 then u.setFld (R.safeAx_ASTATE a) 1 else u) s3
      if old = 3 then
        let s5 := (List.range 4).foldl (fun u p => u.setFlag (R.safeOut_FAULT p) false) s4
        (List.range 8).foldl (fun u a => (if u.fld (R.safeAx_ASTATE a) = 4 then u.setFld (R.safeAx_ASTATE a) 1 else u).setSax a { u.sax a with codes := 0 })
          (s5.withSafe { s5.safe with latched := 0#32, soft := 0#32 })
      else s4

/-- A latched cause is still present (R345, R355). -/
def causeHolds (s : State) : Bool :=
  let l := s.safe.latched
  (bitOf l 2 && s.safe.sa != s.safe.sb)
  || (bitOf l 4 && !s.safe.telOn)
  || (bitOf l 6 && (safeAxes s).any (fun a => (s.sax a).bad))
  || (bitOf l 7 && (s.safe.silent || decide (0 < s.safe.nMode) || decide (0 < s.safe.nIn)))
  || (bitOf l 8 && (List.range 4).any (fun n => contEn s n && s.fld (R.safeCont_STATE n) == 3 && s.fld (R.safeCont_FAULT n) == 2 && s.flag (R.safeCont_FB n)))
  || (bitOf l 9 && (List.range 4).any (fun p => pairEn s p && (bitOf s.field.raw (pairA s p) || bitOf s.field.raw (pairB s p))))
  || (bitOf l 12 && bitsOf (nth s.safe.hf 1 0#32) 24 4 == 6)
  || (bitOf l 13 && s.safe.single)

/-- Husk agrees to PERMIT by its last frame: in STO, both inputs on, no cause latched (R333). -/
def huskAgrees (s : State) : Bool :=
  bitsOf (nth s.safe.hf 1 0#32) 24 4 == 1 && bitsOf (nth s.safe.hf 2 0#32) 16 2 == 3 && nth s.safe.hf 3 0#32 == 0#32 && !s.safe.silent

/-- The MODE Scribe decides on at a cycle (R333, R334, R338, R355, R356). -/
def scribeDecide (s : State) : Nat :=
  let req := stoRequests s != 0#32
  let hard := (s.safe.latched &&& ~~~s.safe.soft) != 0#32
  match safeMode s with
  | 0 =>
    if s.safe.latched ≠ 0#32 then 3
    else if !req && huskAgrees s && (!telEn s || decide (2 ≤ s.safe.telRun)) && (!bitOf (setW s 1) 31 || s.safe.armed) then 1
    else 0
  | 1 =>
    if hard then 3 else if req then 0
    else if s.safe.soft ≠ 0#32 ∨ (telEn s ∧ bitOf (nth s.safe.telLast 2 0#32) 1) then 2 else 1
  | 2 => if hard then (if s.safe.stopped then 0 else 3) else if req then 0 else 2
  | _ => if s.safe.ack && !causeHolds s then 0 else 3

/-- SAFE_ACK would be taken (R355). -/
def ackNeeded (s : State) : Bool :=
  (safeMode s == 3 && !causeHolds s) || (safeMode s == 0 && bitOf (setW s 1) 31 && !s.safe.armed && stoRequests s == 0#32)

/-- CAUSE of `SAFE.STATE` (R360). -/
def safeCause (s : State) : Word :=
  stoRequests s ||| s.safe.latched ||| wd (1024 * b2n s.safe.ssEnd + 16384 * b2n s.safe.rst)

/-- The response to an accepted request (R348). -/
def telResponse (s : State) : List Word :=
  let m := safeMode s
  let enables := bitsOf (nth s.safe.hf 2 0#32) 29 3 == 7
  let pairs := (List.range 4).filter (pairEn s)
  let k := sumNat ((List.range 4).map (fun n => 2 ^ (4 + n) * b2n (s.flag (R.safeCont_FB n))))
  let w2 := wd (b2n ((m == 1 || m == 2) && enables) + 2 * b2n (m == 2) + 4 * b2n (pairs.all (pairApplied s)) + 8 * b2n (ackNeeded s) + k
    + 2048 * b2n (m == 3) + 1024 * b2n (s.safe.lost.any id) + 512 * b2n s.safe.single + 256 * b2n (s.flag R.cfgStat_SAFE_CFG_FAULT))
  let w3 := wd (sumNat ((List.range 8).map (fun a => 16 ^ a *
    (s.fld (R.safeAx_SLS a) + 4 * b2n (s.fld (R.safeAx_ASTATE a) == 3) + 8 * b2n ((s.sax a).codes != 0)))))
  let body := [wd (bitsOf (setW s 4) 16 16 * 65536 + 0x0201), wd (bitsOf (nth s.safe.telLast 1 0#32) 0 16 * 65536 + s.safe.telCnt % 65536),
    w2, w3, wd (bitsOf (safeCause s) 0 16), 0#32, ~~~w2]
  body ++ [((wordBytes body).foldl (crcByte 0x82F63B78#32) (setW s 5)) ^^^ 0xFFFFFFFF#32]

/-- A telegram response on its path: a tagged UDP datagram of the safety queue, or a frame of the safety class (R348, R382). -/
def telOut (s : State) (p : Nat) (o : Origin) (ws : List Word) : State :=
  match o with
  | .udp _ src ip port _ =>
    let pcp := s.fld (R.ethCfg_PCP_SAFE p)
    netTx s p (udpFrame (pcp / 2) (netTag s p pcp) src ip port (bitsOf (setW s 6) 16 16) ws)
  | .sward node _ =>
    if s.fld (R.swardPstat_STATE p) = 2 then
      swQueue s p { f := { cls := 1, dst := node, svc := 3, src := s.fld R.swardNode_NODE, payload := ws }, since := s.dt }
    else s
  | _ => s

/-- One response goes out on both paths (R350). -/
def telSend1 (s : State) : State :=
  let s1 := s.withSafe { s.safe with telCnt := (s.safe.telCnt + 1) % 65536 }
  let ws := telResponse s1
  let s2 := telOut (telOut s1 0 (nth s.safe.telTo 0 .host) ws) 1 (nth s.safe.telTo 1 .host) ws
  s2.withSafe { s2.safe with sent := (1, nth s.safe.telTo 1 .host, ws) :: (0, nth s.safe.telTo 0 .host, ws) :: s2.safe.sent }

/-- One response for each request accepted since the last cycle (R350). -/
def telSend (s : State) : State :=
  (List.range s.safe.telDue).foldl (fun t _ => telSend1 t) (s.withSafe { s.safe with telDue := 0 })

/-- Scribe's cross-check frame (R340). -/
def scribeFrame (s : State) (ack : Bool) : List Word :=
  let m := safeMode s
  let cont := sumNat ((List.range 4).map (fun n => 2 ^ (4 + n) * b2n (bitOf (nth s.safe.telLast 2 0#32) (4 + n))))
  let ap := sumNat ((List.range 4).map (fun p => 2 ^ p * b2n (pairApplied s p)))
  frame8 [wd (s.safe.seq % 65536 * 65536 + bitsOf (nth s.safe.hf 0 0#32) 16 16),
    wd (m * 2 ^ 28 + b2n (m == 0 || m == 3) * 2 ^ 27 + b2n (m == 2) * 2 ^ 26 + b2n s.safe.single * 2 ^ 25 + b2n ack * 2 ^ 24),
    wd (b2n s.safe.sb * 2 ^ 17 + b2n s.safe.sa * 65536 + bitsOf (s.reg R.fieldIn) 0 8), wd (cont + ap), packCnt s.safe.cnt 0, packCnt s.safe.cnt 1,
    s.reg R.safeCrcS]

/-- A monitor that a set newly enables starts from its contactor as it stands (R344). DESIGN CHOICE (log entry 57): the spec gives
no start of a monitor. -/
def contStart (s : State) (old : List Word) (n : Nat) : State :=
  if !contEn s n || nth old (8 + 2 * n) 0#32 == setW s (8 + 2 * n) then s
  else
    let c := contCmdSrc s n
    let fb := nth s.safe.husk.fb n false
    let cmd := if c < 4 then s.safe.telOn && bitOf (nth s.safe.telLast 2 0#32) (4 + c) else fioCmd s (c - 0x10)
    ((s.setFlag (R.safeCont_CMD n) cmd).setFlag (R.safeCont_FB n) fb).setFld (R.safeCont_STATE n) (b2n fb)

/-- A set is in force at Scribe: its check words, the staging window, the safe axes it enables (R352, R353). -/
def setInForce (s : State) (ws : List Word) : State :=
  let old := s.safe.set.getD []
  let s1 := (List.range 4).foldl (fun u n => contStart u old n) (s.withSafe { s.safe with set := some ws })
  let s2 := ((s1.setReg R.safeCrcS (crcS ws)).setReg R.safeCrcH (crcH ws)).setRegs ((List.range 136).map (fun w => (R.safeStage w, nth ws w 0#32)))
  let s3 := (s2.setReg (R.safeStage 136) (crcS ws)).setReg (R.safeStage 137) (crcH ws)
  (List.range 8).foldl (fun u a =>
    if bitOf (nth ws (24 + 14 * a) 0#32) 31 then (if u.fld (R.safeAx_ASTATE a) = 0 then u.setFld (R.safeAx_ASTATE a) 1 else u) else u.setReg (R.safeAx a) 0#32) s3

/-- The stage is empty. -/
def stageEmpty (s : State) : State := ((s.withSafe { s.safe with stg := none }).setReg R.safeStgS 0#32).setReg R.safeStgH 0#32

/-- Both channels take an accepted set at the exchange (R352). -/
def setTake (s : State) (ws : List Word) : State :=
  (safeCfgFault (setInForce (s.setHusk { s.safe.husk with set := some (huskSubset ws) }) ws) false).raise 202 0 3#32

/-- SAFE_PARAM_CONFIRM as Scribe judges it: the set is in force from the exchange that follows (R352). -/
def opSafeConfirm (r : Request) (s : State) : Res :=
  let old := s.safe.set.getD []
  let no (st : Nat) : Res := refuse (s.raise 202 0 4#32) st
  if s.safe.single then no stNOT_READY
  else match s.safe.stg with
    | none => no stREFUSED_STATE
    | some ws =>
      let fixed := (List.range 136).any (fun w => (nth ws w 0#32 ^^^ nth old w 0#32) &&& ~~~(lMask w) != 0#32)
      if r.p 0 ≠ crcS ws ∨ r.p 1 ≠ crcH ws then no stBAD_PARAM
      else if fixed ∧ safeMode s ≠ 0 then no stSAFETY_LOCK
      else { st := setTake (stageEmpty s) ws, status := stOK }

/-- The confirmations that wait are judged after a cycle's transitions (R356). -/
def confirmJudge (s : State) : State :=
  s.safe.conf.foldl (fun t r => respond r (opSafeConfirm r t)) (s.withSafe { s.safe with conf := [] })

/-- Events 193 of the STO causes that have newly come (R359). -/
def tellCauses (s : State) : State :=
  let now := stoRequests s ||| (s.safe.latched &&& ~~~s.safe.soft)
  let new := now &&& ~~~s.safe.told
  (List.range 16).foldl (fun t i => if bitOf new i then t.raise 193 0 (1#32 <<< i) else t) (s.withSafe { s.safe with told := now })

/-- Scribe samples: inputs, counts, safe axes (R328, R337); each die takes the differences of its own counters
(R237, R341), Husk's with the counts by which its own filter and clock judge the lines otherwise (`husk`). DEDUCED (log entry 79):
Scribe compares counts as the lines give them, without DIR, which Husk does not see. -/
def scribeSample (s : State) (husk : List Int) : State :=
  let n (i : Nat) : Int := if s.flag (R.fdbkCfg_DIR i) then -(s.fb i).n else (s.fb i).n
  let h := s.safe.husk
  let s1 := s.withSafe { s.safe with sa := s.safe.a, sb := s.safe.b, seq := (s.safe.seq + 1) % 65536,
                                              cnt := (List.range 8).map (fun i => wdInt (n i - nth s.safe.cntAt i 0)), cntAt := (List.range 8).map n,
                                              husk := { h with seq := (h.seq + 1) % 65536, nAt := h.n, cnt := (List.range 8).map (fun i => wdInt (nth h.n i 0 - nth h.nAt i 0 + nth husk i 0)) } }
  (safeAxes s1).foldl axSample s1

/-- The registers Scribe writes at the end of a cycle, which the host reads as written then (R360). -/
def scribeRegs (s : State) : State :=
  let h2 := nth s.safe.hf 2 0#32
  let s1 := (s.setFld R.safeState_HSTATE (bitsOf (nth s.safe.hf 1 0#32) 24 4)).setFlag R.safeState_ACK_NEEDED (ackNeeded s)
  let s2 := ((s1.setFlag R.safeState_SINGLE s.safe.single).setFlag R.safeState_DEGRADED (s.safe.lost.any id)).setFld R.safeState_CAUSE (bitsOf (safeCause s) 0 16)
  let s3 := (s2.setReg R.safeSview (wd (b2n s.safe.sb * 2 ^ 17 + b2n s.safe.sa * 65536 + bitsOf (s.reg R.fieldIn) 0 8))).setReg R.safeHview (h2 &&& 0xE00300FF#32)
  let s4 := (List.range 4).foldl (fun t p => if pairEn t p then
    t.setFld (R.safeOut_RB p) (2 * b2n (bitOf (t.reg R.fieldIn) (pairB t p)) + b2n (bitOf (t.reg R.fieldIn) (pairA t p))) else t) s3
  s4.withSafe { s4.safe with shown := (List.range 36).map (fun i => s4.reg (0x200000 + 4 * i)) }

/-- Scribe resumes after a single-channel interval (R354): the telegram watchdog restarts with a full window. -/
def scribeResume (s : State) : State := if s.safe.single then (s.withSafe { s.safe with single := false, tAcc := s.dt }).raise 203 0 0#32 else s

/-- The safe functions of a cycle: safe axes while torque may be on, the standstill that ends SS1 (R338, R339). -/
def scribeMonitor (s : State) (t : Tick) : State :=
  let s1 := if safeMode s = 1 ∨ safeMode s = 2 then (safeAxes s).foldl (fun u a => axMonitor u t a) s else s
  if safeMode s1 = 2 ∧ !s1.safe.stopped ∧ safeAxes s1 ≠ [] ∧ (safeAxes s1).all (fun a => 3 ≤ (s1.sax a).still) then
    pairsApply (s1.withSafe { s1.safe with stopped := true }) (fun p => bitOf (setW s1 (17 + 2 * p)) 16)
  else s1

/-- Telegram SBC applies and releases its pairs while torque may be on (R339, R346). -/
def sbcApply (s : State) : State :=
  if safeMode s = 1 then
    (List.range 4).foldl (fun t p => if !pairEn t p then t else if sbcPair t p then pairApply t p else t.setFlag (R.safeOut_APPLIED p) false) s
  else if safeMode s = 2 then pairsApply s (sbcPair s)
  else s

/-- The conditions of R333 before SAFE_ACK: no request, both inputs seen on by Husk too, PERMIT in two accepted telegrams in a row,
nothing latched. -/
def restartReady (s : State) : Bool :=
  s.safe.latched == 0#32 && stoRequests s == 0#32 && bitsOf (nth s.safe.hf 2 0#32) 16 2 == 3 && (!telEn s || decide (2 ≤ s.safe.telRun))

/-- An acknowledgement at a cycle (R355): in STO with RESTART it arms the restart if the other conditions of R333 hold; when one of them
ends, so does the restart. -/
def ackArm (s : State) : State :=
  if safeMode s = 0 ∧ s.safe.ack ∧ bitOf (setW s 1) 31 ∧ s.safe.latched = 0#32 ∧ stoRequests s = 0#32 then
    (s.withSafe { s.safe with armed := restartReady s }).raise 204 0 0#32
  else if safeMode s = 0 ∧ restartReady s = false then s.withSafe { s.safe with armed := false }
  else s

/-- One Scribe cycle at instant `t` (R332): sampling, safe functions, the decision, the frames of the exchange, the registers. -/
def scribeCycle (s : State) (t : Tick) (husk : List Int) : State :=
  let s1 := ackArm (scribeMonitor (telSelect (scribeSample (scribeResume s) husk)) t)
  let new := scribeDecide s1
  let acked := safeMode s1 == 3 && new == 0
  let s2 := scribeTake (s1.withSafe { s1.safe with prev := bitsOf (nth s1.safe.mine 1 0#32) 28 4 }) new t
  let s3 := if acked then s2.raise 204 0 0#32 else s2
  let s4 := confirmJudge (sbcApply (tellCauses (s3.withSafe { s3.safe with ack := false })))
  let s5 := telSend s4
  let f := scribeFrame s5 acked
  let s6 := s5.withSafe { s5.safe with toHusk := some f, mine := f, toScribe := if s5.safe.husk.on then some (huskFrame s5) else none }
  scribeRegs s6

def execScribeCycle (t : Tick) (husk : List Int) (s : State) : Host.Outcome State Fault Refusal :=
  .next (if coreRuns s then scribeCycle (s.at t) t husk else s)

/-- BRK_T has elapsed after the standstill of SS1, or after the request where no safe axis is enabled: Scribe decides on STO (R339). -/
def brkExpiry (s : State) : State :=
  if safeMode s = 2 ∧ (s.safe.stopped ∨ safeAxes s = []) then
    let s1 := scribeTake (s.withSafe { s.safe with ssEnd := true }) 0 s.dt
    s1.setFld R.safeState_CAUSE (bitsOf (safeCause s1) 0 16)
  else s

def execBrkTExpiry (s : State) : Host.Outcome State Fault Refusal := .next (brkExpiry s)

/-! ### The cross-check (R340, R341) -/

/-- A frame is valid: its check word matches. -/
def frameOk (ws : List Word) : Bool := decide (ws.length = 8) && decide (crc32c (ws.take 7) = nth ws 7 0#32)

/-- Signed 8-bit difference of counter `i` in a frame. -/
def cntOf (f : List Word) (i : Nat) : Int := sext 8 (bitsOf (nth f (4 + i / 4) 0#32) (8 * (i % 4)) 8)

/-- Tolerance of a Husk counter that some safe axis enables, by a set. -/
def hcTol (w : Nat → Word) (c : Nat) : Option Nat :=
  ((List.range 8).find? (fun a => bitOf (w (25 + 14 * a)) 31 && bitsOf (w (25 + 14 * a)) 24 3 == c)).map (fun a => bitsOf (w (25 + 14 * a)) 16 8)

/-- Consecutive exchanges of each counter with a difference above its tolerance. -/
def cntRuns (w : Nat → Word) (old : List Nat) (a b : List Word) : List Nat :=
  (List.range 8).map (fun i => match hcTol w i with
    | some tol => if tol < (cntOf a i - cntOf b i).natAbs then nth old i 0 + 1 else 0
    | none => 0)

/-- Husk's latched causes are taken into Scribe's own (R335). -/
def takeHuskCauses (s : State) (c : Word) : State :=
  let new := c &&& ~~~s.safe.latched
  let s1 := (List.range 16).foldl (fun t i => if bitOf c i then scribeLatch t i false else t) s
  if bitOf new 2 then s1.raise 194 0 (wd (s.safe.husk.disc.getD 0)) else s1

/-- Scribe compares Husk's frame with its own values (R341). DEDUCED (log entry 54): the check words compare while a set is in force, so
that the stop of R125 stays STO. -/
def scribeCompare (s : State) (f : List Word) : State :=
  let mine := s.safe.mine
  let hm := bitsOf (nth f 1 0#32) 28 4
  let dMode := hm != s.safe.prev && hm != bitsOf (nth mine 1 0#32) 28 4
  let dIn := (nth f 2 0#32 ^^^ nth mine 2 0#32) &&& 0x300FF#32 != 0#32
  let runs := cntRuns (setW s) s.safe.nCnt f mine
  let nM := if dMode then s.safe.nMode + 1 else 0
  let nI := if dIn then s.safe.nIn + 1 else 0
  let dCnt := runs.any (fun k => 0 < k)
  let dCrc := !s.flag R.cfgStat_SAFE_CFG_FAULT && nth f 6 0#32 != s.reg R.safeCrcH
  let lim := bitsOf (setW s 2) 16 8
  let s1 := s.withSafe { s.safe with nMode := nM, nIn := nI, nCnt := runs }
  let s2 := s1.setFld R.safeXc_DIFFS (satAdd 8 (s1.fld R.safeXc_DIFFS) (b2n dMode + b2n dIn + b2n dCnt + b2n dCrc))
  let codes := (if decide (lim ≤ nM) && dMode then [1] else []) ++ (if decide (lim ≤ nI) && dIn then [2] else [])
    ++ (if runs.any (fun k => decide (lim ≤ k) && decide (0 < k)) then [3] else []) ++ (if dCrc then [4] else [])
  codes.foldl (fun t c => if bitOf t.safe.latched 7 then t else (scribeLatch t 7 false).raise 196 0 (wd c)) s2

/-- Scribe receives Husk's frame (R335, R341): the first after a reset is taken without comparison. -/
def scribeReceive (s : State) (ok : Bool) : State :=
  match s.safe.toScribe with
  | none => s.cntSat R.safeXc_LOST
  | some f =>
    let s0 := s.withSafe { s.safe with toScribe := none }
    if !ok || !frameOk f then s0.cntSat R.safeXc_LOST
    else
      let old := bitsOf (nth s.safe.hf 1 0#32) 24 4
      let hst := bitsOf (nth f 1 0#32) 24 4
      let s1 := (s0.cntWrap R.safeXc_FRAMES).withSafe { s0.safe with hf := f, first := false, silent := false }
      let s2 := if old = hst then s1 else s1.raise 205 0 (wd (old * 16 + hst))
      let acked := bitOf (nth s.safe.mine 1 0#32) 24
      let s3 := if acked then s2 else takeHuskCauses s2 (nth f 3 0#32)
      let s4 := if hst = 6 then scribeLatch s3 12 false else if s.safe.first ∧ hst = 5 then scribeLatch s3 7 false else s3
      if s.safe.first ∨ hst = 0 then s4 else scribeCompare s4 f

def execScribeXcheckFrame (ok : Bool) (s : State) : Host.Outcome State Fault Refusal :=
  .next (if coreRuns s then scribeReceive s ok else s)

/-- Husk's own causes are gone (R355). -/
def huskGone (s : State) : Bool :=
  let h := s.safe.husk
  !(bitOf h.cause 2 && h.a != h.b)
  && !(bitOf h.cause 9 && (List.range 4).any (fun p => bitOf (huskW s (16 + 2 * p)) 31
      && (bitOf s.field.raw (bitsOf (huskW s (16 + 2 * p)) 24 3) || bitOf s.field.raw (bitsOf (huskW s (16 + 2 * p)) 16 3))))

/-- Husk acts on a frame (R331, R343, R355). -/
def huskAct (s : State) (f : List Word) : State :=
  let w1 := nth f 1 0#32
  let mode := bitsOf w1 28 4
  let h := s.safe.husk
  let s0 := if h.st = 0 then (if h.set.isNone then safeCfgFault (s.setHusk { h with st := 1 }) true else s.setHusk { h with st := 1 })
    else if h.st = 4 ∧ !bitOf w1 25 then s.setHusk { h with st := h.prev }
    else s
  let h := s0.safe.husk
  if h.st = 6 ∨ h.st = 4 then s0
  else if bitOf w1 25 then s0.setHusk { h with prev := h.st, st := 4 }
  else if h.st = 5 then (if bitOf w1 24 && huskGone s0 then s0.setHusk { h with st := 1, cause := 0#32 } else s0)
  else if mode = 3 then huskOff (s0.setHusk { h with st := 5 })
  else if bitOf w1 27 then (if h.st = 2 ∨ h.st = 3 then huskOff (s0.setHusk { h with st := 1 }) else s0)
  else if bitOf w1 26 then (if h.st = 2 then s0.setHusk { h with st := 3 } else s0)
  else if mode = 1 ∧ h.st = 1 ∧ h.a ∧ h.b ∧ h.cause = 0#32 ∧ h.set.isSome then huskPermit s0
  else s0

/-- Husk compares Scribe's frame with its own values (R341). -/
def huskCompare (s : State) (f : List Word) : State :=
  let h := s.safe.husk
  let own := huskFrame s
  let dMode := bitsOf (nth f 1 0#32) 28 4 != huskMode h
  let dIn := (nth f 2 0#32 ^^^ nth own 2 0#32) &&& 0x300FF#32 != 0#32
  let runs := cntRuns (huskW s) h.nCnt f own
  let nM := if dMode then h.nMode + 1 else 0
  let nI := if dIn then h.nIn + 1 else 0
  let lim := bitsOf (huskW s 2) 16 8
  let s1 := s.setHusk { h with nMode := nM, nIn := nI, nCnt := runs }
  if (decide (lim ≤ nM) && dMode) || (decide (lim ≤ nI) && dIn) || runs.any (fun k => decide (lim ≤ k) && decide (0 < k)) then huskLock s1 7 else s1

/-- The contactor windows of commands that reach Husk in a frame (R345). -/
def huskContactors (s : State) (f : List Word) : State :=
  let new := nth f 3 0#32
  let old := s.safe.husk.word3
  let win := (List.range 4).foldl (fun l n =>
    let w := huskW s (8 + 2 * n)
    let c := bitsOf w 16 5
    if bitOf w 31 && decide (c < 4) && bitOf new (4 + c) != bitOf old (4 + c) then (n, bitOf new (4 + c), s.dt) :: l.filter (fun (e : Nat × Bool × Tick) => e.1 != n) else l) s.safe.husk.win
  s.setHusk { s.safe.husk with word3 := new, win := win }

/-- Husk receives Scribe's frame (R341). -/
def huskReceive (s : State) (ok : Bool) : State :=
  match s.safe.toHusk with
  | none => s
  | some f =>
    let s0 := s.withSafe { s.safe with toHusk := none }
    if !ok || !frameOk f || !huskUp s then s0
    else
      let init := s.safe.husk.st == 0
      let s1 := huskAct (huskContactors s0 f) f
      if init || s1.safe.husk.st == 4 then s1 else huskCompare s1 f

def execHuskXcheckFrame (ok : Bool) (s : State) : Host.Outcome State Fault Refusal := .next (huskReceive s ok)

/-- No valid frame within XC_TMO cycles at Scribe or at Husk (R341). -/
def xcheckTimeout (s : State) (husk : Bool) : State :=
  if husk then (if s.safe.husk.st = 0 ∨ s.safe.husk.st = 4 then s else huskLock s 7)
  else if !coreRuns s || s.safe.first || s.safe.single then s
  else
    let s1 := s.withSafe { s.safe with silent := true }
    if bitOf s.safe.latched 7 then s1 else (scribeLatch s1 7 false).raise 196 0 5#32

def execXcheckTimeout (husk : Bool) (s : State) : Host.Outcome State Fault Refusal := .next (xcheckTimeout s husk)

/-! ### Husk's own times and failures (R331, R339, R342, R343, R354, R481) -/

/-- A change of the buffer enable (R188). -/
def execHuskEnableChange (on : Bool) (s : State) : Host.Outcome State Fault Refusal := .next (huskEnable s on)

/-- GEN_SETTLE after GEN_A and GEN_B went high the buffer enable follows (R331). -/
def genSettle (s : State) : State :=
  let h := s.safe.husk
  if huskUp s && h.gen && h.settle then huskEnable (s.setHusk { h with settle := false }) true else s

def execGenSettleExpiry (s : State) : Host.Outcome State Fault Refusal := .next (genSettle s)

/-- Husk's backstop of SS1 expires (R339): torque off and the fault latched; with an STO decision in the frame of the same exchange it is
STO without a fault (R356). -/
def backstop (s : State) : State :=
  if !s.safe.husk.on || s.safe.husk.st != 3 then s
  else match s.safe.toHusk with
    | some f => if frameOk f && bitOf (nth f 1 0#32) 27 then huskOff (s.setHusk { s.safe.husk with st := 1 }) else (huskLock s 15).raise 206 0 0#32
    | none => (huskLock s 15).raise 206 0 0#32

def execSs1BackstopExpiry (s : State) : Host.Outcome State Fault Refusal := .next (backstop s)

/-- A fault of a Husk counter that a safe axis enables (R342): 1 illegal, 2 above H_VMAX. -/
def execHuskCounterFault (c : Fin 8) (overspeed : Bool) (s : State) : Host.Outcome State Fault Refusal :=
  .next (if huskUp s ∧ (hcTol (huskW s) c.val).isSome then (huskLock s 7).raise 207 c.val (wd (1 + b2n overspeed)) else s)

def execSingleChannelTimeout (s : State) : Host.Outcome State Fault Refusal :=
  .next (if s.safe.husk.on ∧ s.safe.husk.st = 4 then (huskLock s 13).raise 203 0 2#32 else s)

/-- Husk's self-test fails: DEAD until VHUSK is cycled (R343). -/
def execHuskSelfTestFailure (s : State) : Host.Outcome State Fault Refusal :=
  .next (if s.safe.husk.on then huskOff (s.setHusk { s.safe.husk with st := 6 }) else s)

/-- VHUSK powers up: INIT, the enables low, nothing latched (R343). -/
def execVhuskPowerUp (s : State) : Host.Outcome State Fault Refusal :=
  .next (if s.safe.husk.on then s
    else s.setHusk { s.safe.husk with on := true, st := 0, prev := 1, cause := 0#32, gen := false, settle := false, disc := discNext none s.safe.husk.a s.safe.husk.b,
                                      nMode := 0, nIn := 0, nCnt := List.replicate 8 0, win := [], word3 := 0#32 })

/-- VHUSK below Husk's threshold: Husk is unpowered, the buffer enable low (R467, R481). -/
def execVhuskLoss (s : State) : Host.Outcome State Fault Refusal := .next ((huskOff s).setHusk { (huskOff s).safe.husk with on := false })

/-! ### The telegram (R348 to R350) -/

/-- A copy is valid (R349). -/
def telValid (s : State) (bytes : List Byte) : Bool :=
  let ws := bytesWords bytes
  let g (i : Nat) : Word := nth ws i 0#32
  decide (bytes.length = 32)
  && g 7 == ((wordBytes (ws.take 7)).foldl (crcByte 0x82F63B78#32) (setW s 5)) ^^^ 0xFFFFFFFF#32
  && g 0 == wd (bitsOf (setW s 4) 16 16 * 65536 + 0x0101) && g 6 == ~~~(g 2) && bitsOf (g 1) 16 16 == 0 && bitsOf (g 2) 8 24 == 0
  && g 4 == 0#32 && g 5 == 0#32 && (List.range 8).all (fun a => decide (bitsOf (g 3) (4 * a) 4 < 13))

/-- PATH_A and PATH_B (R360). -/
def pathFlag (p : Nat) : RF := if p = 0 then R.safeTel_PATH_A else R.safeTel_PATH_B

/-- A valid copy on a path: 16 in a row bring a lost path back (R350). -/
def pathGood (s : State) (p : Nat) : State :=
  let k := min 16 (nth s.safe.good p 0 + 1)
  let s1 := s.withSafe { s.safe with good := setAt s.safe.good p k }
  if nth s.safe.lost p false then
    (if k = 16 then ((s1.withSafe { s1.safe with lost := setAt s1.safe.lost p false }).setFlag (pathFlag p) true).raise 199 p 0#32 else s1)
  else s1.setFlag (pathFlag p) true

/-- A watchdog expiry or a mismatch with the reaction TEL_REACT (R349, R350). -/
def telReact (s : State) (bit : Nat) : State := scribeLatch s bit (bitOf (setW s 7) 2)

/-- A SAFE_ACK, or its telegram bit, is judged (R355); the removal of a request counts once a cycle has seen it, which CAUSE shows (R356). -/
def ackStatus (s : State) : Nat :=
  if safeMode s = 3 then (if causeHolds s then stREFUSED_STATE else stOK)
  else if safeMode s = 0 ∧ bitOf (setW s 1) 31 ∧ stoRequests s = 0#32 ∧ s.fld R.safeState_CAUSE &&& 0x80B = 0 ∧ s.safe.latched = 0#32 then stOK
  else stREFUSED_STATE

/-- An accepted request (R348 to R350). -/
def telAccept (s : State) (p : Nat) (o : Origin) (ws : List Word) (gap : Nat) : State :=
  let w2 := nth ws 2 0#32
  let old2 := nth s.safe.telLast 2 0#32
  let permit := bitOf w2 0
  let s1 := s.withSafe { s.safe with telOn := true, tAcc := s.dt, telLast := ws, telPath := p, telPermit := permit, telRun := if permit then min 2 (s.safe.telRun + 1) else 0,
                                            telLost := s.safe.telLost + gap, telTo := setAt s.safe.telTo p o, telDue := s.safe.telDue + 1 }
  let s2 := s1.setFld R.safeTel_COUNT (bitsOf (nth ws 1 0#32) 0 16)
  let s3 := if bitOf w2 3 && !bitOf old2 3 && ackStatus s2 == stOK then s2.withSafe { s2.safe with ack := true } else s2
  (List.range 4).foldl (fun t n =>
    let on := bitOf w2 (4 + contCmdSrc t n)
    if contEn t n && decide (contCmdSrc t n < 4) && t.flag (R.safeCont_CMD n) != on then contCommand t n on else t) s3

/-- No request accepted within TWDG (R350). -/
def telWatchdog (s : State) : State :=
  if telEn s && s.safe.telOn && !s.safe.single then
    telReact ((s.withSafe { s.safe with telOn := false, telRun := 0 }).raise 200 0 (wd (s.fld R.safeTel_COUNT))) 4
  else s

def execTelegramWatchdogExpiry (s : State) : Host.Outcome State Fault Refusal := .next (telWatchdog s)

/-- The watchdog window [t_acc, t_acc + TWDG) has ended at `t`: a request at its very end is the first after the expiry (R350, R356). -/
def telExpire (s : State) (t : Tick) : State :=
  if decide (bitsOf (setW s 4) 0 8 * msTicks ≤ (t - s.safe.tAcc).toNat) then telWatchdog s else s

/-- A valid copy on a path: the first after start-up or an expiry and the next in turn are accepted, the other network's copy of the
accepted request is compared, a stale one is counted (R349). -/
def telJudge (s : State) (p : Nat) (o : Origin) (ws : List Word) : State :=
  let c := bitsOf (nth ws 1 0#32) 0 16
  let d := (c + 65536 - bitsOf (nth s.safe.telLast 1 0#32) 0 16) % 65536
  if !s.safe.telOn then telAccept s p o ws 0
  else if 1 ≤ d ∧ d ≤ 4 then telAccept s p o ws (d - 1)
  else if d = 0 ∧ p ≠ s.safe.telPath then
    let s1 := s.withSafe { s.safe with telTo := setAt s.safe.telTo p o }
    if ws = s.safe.telLast then s1
    else telReact ((s1.withSafe { s1.safe with telPermit := false, telRun := 0 }).raise 201 0 (wd c)) 5
  else s.cntSat R.safeTel_REJECTS

/-- The carrier of a path receives: Ethernet, or the Sward; neither does in coast (R66, R348). -/
def telHears (s : State) (p : Nat) : Bool := if bitsOf (setW s 7) 0 2 = 1 then swCarries s p else ethUp s p

/-- A copy of a request arrives on a path at `t` (R349): an invalid one is counted. -/
def telCopy (s : State) (p : Nat) (o : Origin) (bytes : List Byte) (t : Tick) : State :=
  if !telEn s || s.safe.single || !coreRuns s || !telHears s p then s
  else if !telValid s bytes then
    State.cntSat (s.withSafe { s.safe with good := setAt s.safe.good p 0 }) R.safeTel_REJECTS
  else telJudge (telExpire (pathGood s p) t) p o (bytesWords bytes)

def execTelegramCopy (path : Fin 2) (o : Origin) (bytes : List Byte) (t : Tick) (s : State) : Host.Outcome State Fault Refusal :=
  .next (telCopy (s.at t) path.val o bytes t)

/-- A path without a valid copy for SINGLE_T is lost (R350). -/
def pathLoss (s : State) (p : Nat) : State :=
  if !telEn s || nth s.safe.lost p false then s
  else
    let s1 := s.withSafe { s.safe with lost := setAt s.safe.lost p true, good := setAt s.safe.good p 0 }
    (s1.setFlag (pathFlag p) false).raise 199 p 1#32

def execTelegramPathLoss (path : Fin 2) (s : State) : Host.Outcome State Fault Refusal := .next (pathLoss s path.val)

/-! ### Parameters and acknowledgement (R352, R355) -/

/-- A write of `SAFE.STAGE[w]` empties the stage (R352). -/
def safeStageWrite (s : State) (w : Nat) (v : Word) : Res := { st := (stageEmpty s).setReg (R.safeStage w) v }

def execSafeStageWrite (w : Fin 138) (v : Word) (s : State) : Host.Outcome State Fault Refusal := .next (safeStageWrite s w.val v).st

/-- A write of a register of the SAFE block. -/
def safeBlockWrite (s : State) (a : Nat) (w : Word) : Option Res :=
  if R.safeStage 0 ≤ a ∧ a ≤ R.safeStage 137 then some (safeStageWrite s ((a - R.safeStage 0) / 4) w) else none

/-- The staged words. -/
def stagedSet (s : State) : List Word := (List.range 136).map (fun w => s.reg (R.safeStage w))

/-- SAFE_PARAM_STAGE (R352). -/
def opSafeStage (_r : Request) (s : State) : Res :=
  let ws := stagedSet s
  if s.safe.single ∨ !huskUp s then refuse s stNOT_READY
  else match setBad s ws with
    | some w => { st := s.raise 202 0 2#32, status := stBAD_PARAM, data := [wd w, 1#32] }
    | none =>
      let s1 := s.withSafe { s.safe with stg := some ws }
      let s2 := (s1.setReg R.safeStgS (crcS ws)).setReg R.safeStgH (crcH ws)
      let s3 := s2.setRegs ((List.range 136).map (fun w => (R.safeRb w, nth ws w 0#32)))
      let s4 := s3.setRegs ((List.range 136).map (fun w => (R.safeHrb w, nth ws w 0#32 &&& hMask w)))
      { st := s4.raise 202 0 1#32, status := stOK, data := [crcS ws, crcH ws] }

def execSafeParamStage (r : Request) (s : State) : Host.Outcome State Fault Refusal :=
  .next (serveReed r s (r.target == 0 && r.params.isEmpty) (opSafeStage r))

/-- SAFE_PARAM_CONFIRM (R352): Reed hands it to Scribe, whose next cycle judges it (R356); the request is in execution until then. -/
def safeConfirm (r : Request) (s : State) : State :=
  let form := r.target == 0 && r.params.length == 2
  if reedTakes s r form && !s.safe.single then s.withSafe { s.safe with conf := s.safe.conf ++ [r] } else serveReed r s form (opSafeConfirm r)

def execSafeParamConfirm (r : Request) (s : State) : Host.Outcome State Fault Refusal := .next (safeConfirm r s)

/-- SAFE_ACK (R355). -/
def opSafeAck (_r : Request) (s : State) : Res :=
  if s.safe.single then refuse s stNOT_READY
  else if ackStatus s ≠ stOK then refuse s (ackStatus s)
  else { st := s.withSafe { s.safe with ack := true }, status := stOK }

def execSafeAck (r : Request) (s : State) : Host.Outcome State Fault Refusal :=
  .next (serveReed r s (r.target == 0 && r.params.isEmpty) (opSafeAck r))

end Sys2Proof.Machine
end

