-- ==== Sys2Proof/Machine/FieldCmd.lean ====
section
/-! DEFINITION. The commands of the field channels, FIO_SET and FIO_CONFIG (14_field_io.md, R374, R375), with the safe output
pairs of R346. -/

namespace Sys2Proof.Machine

open Sys2Proof

/-- The channels a FIO_SET names, with their values. -/
def fioNamed (r : Request) : List (Nat × Bool) :=
  if r.target = 0xFFFF then ((List.range 32).filter (fun n => bitOf (r.p 0) n)).map (fun n => (n, bitOf (r.p 1) n))
  else [(r.target, bitOf (r.p 0) 0)]

/-- The enabled pair whose CH_A, or whose CH_B, a channel is. -/
def pairOfA (s : State) (c : Nat) : Option Nat := findNat 4 (fun p => pairEn s p && pairA s p == c)
def pairOfB (s : State) (c : Nat) : Option Nat := findNat 4 (fun p => pairEn s p && pairB s p == c)

/-- Switching on an applied pair. -/
def onApplied (s : State) (e : Nat × Bool) : Bool :=
  match pairOfA s e.1 with
  | some p => e.2 && pairApplied s p
  | none => false

/-- A channel commanded, its pair's CH_B with it (R346), and the contactor monitors it commands (R344). -/
def fioApply (s : State) (e : Nat × Bool) : State :=
  let l := match pairOfA s e.1 with
    | some p => [e.1, pairB s p]
    | none => [e.1]
  l.foldl (fun t c => contFollow (fioCommand t c e.2) c e.2) s

/-- FIO_SET (R374). -/
def opFioSet (r : Request) (s : State) : Res :=
  let l := fioNamed r
  if !fioLink s then refuse s stNOT_READY
  else if 31 < r.target ∧ r.target ≠ 0xFFFF then refuse s stRANGE
  else if l.any (fun e => (pairOfB s e.1).isSome) then refuse s stBAD_PARAM
  else if l.any (onApplied s) then refuse s stSAFETY_LOCK
  else if l.any (fun e => !fioOut s e.1 || (e.2 && fioLatched s e.1)) then refuse s stREFUSED_STATE
  else { st := fioRefresh (l.foldl fioApply s), status := stOK }

def execFioSet (r : Request) (s : State) : Host.Outcome State Fault Refusal :=
  .next (serveReed r s (r.params.length == (if r.target = 0xFFFF then 2 else 1)) (opFioSet r))

/-- A channel bound as HOME_SW, LIM_NEG or LIM_POS of an axis, or the source of an enabled latch unit (R375). -/
def fioInUse (s : State) (c : Nat) : Bool :=
  s.slots.any (fun k => ((s.ctx k).kind == 7 || (s.ctx k).kind == 8) &&
    (let b := effBind s k
     b != [] && (bHomeSw b == c || bLimNeg b == c || bLimPos b == c)))
  || (List.range 64).any (fun u => s.flag (R.latchCfg_EN u) && s.fld (R.latchCfg_SRCK u) == 0 && s.fld (R.latchCfg_SRC u) == c)

/-- FIO_CONFIG (R371, R375). -/
def opFioConfig (r : Request) (s : State) : Res :=
  let n := r.target
  let cfg := r.p 0
  let chat := r.p 1
  if !fioLink s then refuse s stNOT_READY
  else if 31 < n then refuse s stRANGE
  else if (cfg &&& 0x010FFFFF#32) ≠ 0#32 ∨ 6 < bitsOf cfg 20 4 ∨ bitsOf cfg 28 2 = 3 ∨ (bitsOf chat 16 8 = 0 ∧ bitsOf chat 24 8 ≠ 0) then refuse s stBAD_PARAM
  else if (safeMode s = 1 ∨ safeMode s = 2) ∧ setNames s n then refuse s stSAFETY_LOCK
  else if bitOf cfg 31 ∧ fioInUse s n then refuse s stREFUSED_STATE
  else
    let s0 := if fioOut s n ∧ !bitOf cfg 31 then contFollow (fioCommand s n false) n false else s
    let s1 := (s0.setReg (R.fieldCfg n) cfg).setReg (R.fieldChat n) chat
    { st := fioRefresh (s1.withField { s1.field with win := tblDel s1.field.win n }), status := stOK }

def execFioConfig (r : Request) (s : State) : Host.Outcome State Fault Refusal :=
  .next (serveReed r s (r.params.length == 2) (opFioConfig r))

end Sys2Proof.Machine
end

