-- ==== Sys2Proof/Machine/Net.lean ====
section
/-! DEFINITION. Ethernet ports, system time, the PTP servo and the timed pulse outputs (15_ethernet_time.md). -/

namespace Sys2Proof.Machine

open Sys2Proof

/-! ### The conversion between DT and ST (R386) -/

/-- RATE as a factor: 1 + RATE, RATE in units of 1/256 ppb. -/
def rateFactor (s : State) : Rat := 1 + ((s.reg R.timeRate).toInt : Rat) / 256000000000

/-- st(dt) of R386 in 2^-16 ns: an edge tick is 4,096 of them. -/
def stAt (s : State) (t : Tick) : Int := s.net.stB + roundI (((t - s.net.dtB).toInt : Rat) * 4096 * rateFactor s)

/-- dt(st) of R386: the nearest edge tick. -/
def dtOf (s : State) (x : Int) : Tick := s.net.dtB + BitVec.ofInt 64 (roundI (((x - s.net.stB : Int) : Rat) / (4096 * rateFactor s)))

/-- The base pair set to now: ST does not change (R386). -/
def stRebase (s : State) : State := s.withNet { s.net with dtB := s.dt, stB := stAt s s.dt }

/-- RATE limited to ±500 ppm. -/
def rateClamp (r : Int) : Int := clampI (-128000000) 128000000 r

/-- A new RATE, in 1/256 ppb (R386). -/
def setRate (s : State) (r : Int) : State := (stRebase s).setReg R.timeRate (wdInt (rateClamp r))

/-- The register value of a rate in ppb. -/
def ratePpb (q : Rat) : Int := rateClamp (if (q * 256).den = 1 then (q * 256).num else Config.roundRate (q * 256))

/-- ST in 2^-16 ns from its words (R388, R393): seconds, nanoseconds, fraction. -/
def stOf (sec ns frac : Nat) : Int := ((sec * 1000000000 + ns) * 65536 + frac : Nat)

/-! ### Timed pulse outputs (R393, R394) -/

def State.pulse (s : State) (i : Nat) : Pulse := nth s.net.pulses i {}
def State.setPulse (s : State) (i : Nat) (x : Pulse) : State := s.withNet { s.net with pulses := setAt s.net.pulses i x }

/-- Ten microseconds in edge ticks. -/
def us10 : Nat := 160000

/-- The DT of an instant of an output's scale. -/
def pulseDt (s : State) (i : Nat) (x : Int) : Tick := if s.flag (R.timePstat_SCALE i) then BitVec.ofInt 64 x else dtOf s x

/-- The rising edge of pulse `n`. -/
def pulseRise (s : State) (i n : Nat) : Tick := let x := s.pulse i; pulseDt s i (x.start + (n : Int) * x.per)

/-- The first index from `k` on whose rising edge is at or after an instant; a one-shot has index 0 only. -/
def pulseFirst (s : State) (i k : Nat) (bound : Tick) : Nat :=
  let x := s.pulse i
  if x.per = 0 then (if k = 0 ∧ bound.toInt ≤ (pulseRise s i 0).toInt then 0 else max k 1)
  else
    let xb : Int := if s.flag (R.timePstat_SCALE i) then bound.toInt else stAt s bound
    let n := max k (-((-(((xb - x.start : Int) : Rat) / (x.per : Rat))).floor)).toNat
    if k < n ∧ bound.toInt ≤ (pulseRise s i (n - 1)).toInt then n - 1
    else if (pulseRise s i n).toInt < bound.toInt then n + 1 else n

/-- The output is held inactive: no timebase, or no valid ST for an ST output. -/
def pulseHeld (s : State) (i : Nat) : Bool := !tbValid s || (!s.flag (R.timePstat_SCALE i) && !s.flag R.timeStat_ST_VALID)

/-- Pulses skipped are counted; `ev` raises PULSE_SKIP for a step. -/
def pulseSkip (s : State) (i n : Nat) (ev : Bool) : State :=
  if n = 0 then s
  else
    let s1 := s.setFld (R.timePstat_SKIPPED i) (satAdd 16 (s.fld (R.timePstat_SKIPPED i)) n)
    if ev then s1.raise 220 i (wd n) else s1

/-- A programmed output stops: PSTAT shows it. -/
def pulseStop (s : State) (i : Nat) : State := ((s.setFlag (R.timePstat_ENABLED i) false).setFlag (R.timePstat_HELD i) false).setReg (R.timePleft i) 0#32

/-- An output after a step, or as it starts or ends being held: pulses whose rising edge comes too soon, or fell in the
held time, are skipped. -/
def pulseSync (s : State) (ev : Bool) (i : Nat) : State :=
  if !s.flag (R.timePstat_ENABLED i) then s
  else
    let x := s.pulse i
    if pulseHeld s i then
      let begun := match x.rise with
        | some r => decide (r.toInt ≤ s.dt.toInt)
        | none => false
      (s.setFlag (R.timePstat_HELD i) true).setPulse i { x with rise := none, last := none, tail := none, k := if begun then x.k + 1 else x.k }
    else
      let s1 := s.setFlag (R.timePstat_HELD i) false
      if x.rise.isSome then s1
      else
        let k := pulseFirst s1 i x.k x.notBefore
        let s2 := pulseSkip (s1.setPulse i { x with k := k }) i (k - x.k) ev
        if x.per = 0 ∧ 0 < k then pulseStop s2 i else s2

/-- A change of TB_VALID or ST_VALID reaches the outputs (R394). -/
def pulsesHold (s : State) : State :=
  (List.range 4).foldl (fun t i =>
    if t.flag (R.timePstat_HELD i) && !pulseHeld t i then pulseSync (t.setPulse i { t.pulse i with notBefore := t.dt + tk us10 }) false i
    else pulseSync t false i) s

/-- A step of ST reaches the ST outputs: a pulse due less than 10 µs after it is skipped (R394). -/
def pulsesStep (s : State) : State :=
  (List.range 4).foldl (fun t i =>
    if t.flag (R.timePstat_SCALE i) then t else pulseSync (t.setPulse i { t.pulse i with notBefore := t.dt + tk us10 }) true i) s

/-- The active state of an output now. -/
def pulseActive (s : State) (i : Nat) : Bool :=
  let x := s.pulse i
  (match x.rise with
    | some r => decide (r.toInt ≤ s.dt.toInt)
    | none => false)
  || (match x.last with
    | some (r, f) => decide (r.toInt ≤ s.dt.toInt) && decide (s.dt.toInt < f.toInt)
    | none => false)

/-- The level of a pulse output land: active-high or active-low; a replaced pulse ends at its own falling edge (R394). -/
def pulsePin (s : State) (i : Nat) : Bool :=
  match (s.pulse i).tail with
  | some (f, pol) => if s.dt.toInt < f.toInt then !pol else (pulseActive s i != s.flag (R.timePstat_POL i))
  | none => pulseActive s i != s.flag (R.timePstat_POL i)

/-- The falling edge of a pulse that is active as its output is programmed anew. -/
def pulseTail (s : State) (i : Nat) : Option (Tick × Bool) :=
  let x := s.pulse i
  let pol := s.flag (R.timePstat_POL i)
  if !pulseActive s i then none
  else match x.rise with
    | some _ => some (pulseDt s i (x.start + (x.k : Int) * x.per + x.wid), pol)
    | none => x.last.map (fun e => (e.2, pol))

/-- The instant START names, in the scale's units (R393). -/
def pulseStart (r : Request) : Int :=
  if bitOf (r.p 0) 30 then (join64 (r.p 1) (r.p 2)).toInt
  else stOf (bitsOf (r.p 2) 16 16 * 2 ^ 32 + (r.p 1).toNat) (r.p 3).toNat (bitsOf (r.p 2) 0 16)

/-- A value of PULSE_PROGRAM outside its range (R393). -/
def pulseBad (r : Request) : Bool :=
  let per := (r.p 4).toNat
  let wid := (r.p 5).toNat
  bitsOf (r.p 0) 0 29 != 0
  || (bitOf (r.p 0) 31
      && ((if bitOf (r.p 0) 30 then decide (r.p 3 ≠ 0#32) else decide (1000000000 ≤ (r.p 3).toNat))
          || (per != 0 && decide (per < 1000)) || decide (wid < 10) || (per != 0 && decide (per < wid + 10))))

/-- An output programmed (R393, R394): the words of the request in its registers, its first index sought. -/
def pulseSet (s : State) (i : Nat) (r : Request) : State :=
  let dt := bitOf (r.p 0) 30
  let per := (r.p 4).toNat
  let u : Int := if dt then 16 else 65536
  let np := if per = 0 then 1 else (r.p 6).toNat
  let tail := pulseTail s i
  let s1 := s.setReg (R.timePstat i) (wd (2 ^ 31 + b2n dt * 2 ^ 30 + b2n (bitOf (r.p 0) 29) * 2 ^ 29))
  let s2 := s1.setRegs [(R.timePstart0 i, r.p 1), (R.timePstart1 i, r.p 2), (R.timePstart2 i, r.p 3), (R.timePper i, r.p 4),
    (R.timePwid i, r.p 5), (R.timePleft i, wd np), (R.timePdone i, 0#32)]
  let s3 := s2.setPulse i { start := pulseStart r, per := u * per, wid := u * (r.p 5).toNat, left := if np = 0 then none else some np,
                            tail := tail, notBefore := s.dt + tk us10 }
  let k0 := pulseFirst s3 i 0 s.dt
  pulseSync (s3.setPulse i { s3.pulse i with k := k0 }) false i

/-- PULSE_PROGRAM (R393). -/
def opPulse (r : Request) (s : State) : Res :=
  let i := r.target
  let st := !bitOf (r.p 0) 30
  if !nodeRuns s 5 then refuse s stNOT_READY
  else if 3 < i then refuse s stRANGE
  else if pulseBad r then refuse s stBAD_PARAM
  else if !bitOf (r.p 0) 31 then { st := (pulseStop s i).setPulse i {} }
  else if st && !s.flag R.timeStat_ST_VALID then refuse s stREFUSED_STATE
  else if decide (r.p 4 = 0#32)
      && decide ((if st then dtOf s (pulseStart r) else BitVec.ofInt 64 (pulseStart r)).toInt < s.dt.toInt + (us10 : Int)) then refuse s stBAD_PARAM
  else { st := pulseSet s i r }

def execPulseProgram (r : Request) (s : State) : Host.Outcome State Fault Refusal :=
  .next (serveReed r s (r.params.length == 7) (opPulse r))

/-- The next edge of an output is fixed once it is 10 µs away (R394). -/
def pulseFix (s : State) (i : Nat) : State :=
  if !s.flag (R.timePstat_ENABLED i) || s.flag (R.timePstat_HELD i) then s
  else
    let x := s.pulse i
    match x.rise with
    | none =>
      let r := pulseRise s i x.k
      if s.dt.toInt + (us10 : Int) < r.toInt then s
      else if r.toInt < s.dt.toInt ∨ r.toInt < x.notBefore.toInt then pulseSync (s.setPulse i { x with notBefore := s.dt + tk us10 }) false i
      else s.setPulse i { x with rise := some r }
    | some r =>
      let f := pulseDt s i (x.start + (x.k : Int) * x.per + x.wid)
      if s.dt.toInt + (us10 : Int) < f.toInt then s
      else
        let fall := if f.toInt < s.dt.toInt then s.dt else f
        let left := x.left.map (· - 1)
        let s1 := (s.setPulse i { x with rise := none, last := some (r, fall), k := x.k + 1, left := left }).cntWrap (R.timePdone_VALUE i)
        match left with
        | none => s1
        | some n =>
          let s2 := s1.setReg (R.timePleft i) (wd n)
          if n = 0 then (pulseStop s2 i).raise 219 i (wd (s2.fld (R.timePdone_VALUE i) % 65536)) else s2

def execPulseEdgeFix (i : Fin 4) (t : Tick) (s : State) : Host.Outcome State Fault Refusal := .next (pulseFix (s.at t) i.val)

/-! ### Steps and slews of system time (R386 to R388) -/

/-- A running slew ends: RATE returns to its previous value (R388). -/
def slewEnd (s : State) : State :=
  match s.net.slew with
  | none => s
  | some (r, _) => (setRate s r.toInt).withNet { (setRate s r.toInt).net with slew := none }

/-- A value in 2^-16 ns as a register or a detail shows it, in ns. DESIGN CHOICE (log entry 60): whole ns towards zero, saturating at 32 bits. -/
def nsWord (x : Int) : Word := wdInt (clampI (-2147483648) 2147483647 (Int.tdiv x 65536))

/-- ST set to a value: TIME_STEP tells the step, STEPPED and STEPS record it (R386, R387, R397). -/
def stepTo (s : State) (x : Int) : State :=
  let s0 := slewEnd s
  let d := x - stAt s0 s0.dt
  let s1 := s0.withNet { s0.net with dtB := s0.dt, stB := x }
  pulsesStep (((s1.setFlag R.timeStat_STEPPED true).cntSat R.timeStat_STEPS).raise 217 0 (nsWord d))

/-- ST moved by a number of nanoseconds. -/
def stepBy (s : State) (ns : Int) : State := stepTo s (stAt (slewEnd s) s.dt + ns * 65536)

/-- ST becomes valid: held ST outputs go on (R387, R394). -/
def stValid (s : State) : State := pulsesHold (s.setFlag R.timeStat_ST_VALID true)

/-- The servo takes a state; each change raises TIME_STATE (R391). -/
def timeState (s : State) (st : Nat) : State :=
  let old := s.fld R.timeStat_STATE
  if old = st then s
  else
    let s1 := (s.setFld R.timeStat_STATE st).raise 216 0 (wd (old * 16 + st))
    s1.withNet { s1.net with good := 0, bad := 0 }

/-- TIME_SET (R388). -/
def opTimeSet (r : Request) (s : State) : Res :=
  if !nodeRuns s 5 then refuse s stNOT_READY
  else if 1000000000 ≤ (r.p 2).toNat ∨ bitsOf (r.p 1) 16 16 ≠ 0 ∨ bitsOf (r.p 3) 16 16 ≠ 0 then refuse s stBAD_PARAM
  else if s.fld R.timeCfg_SRC ≠ 0 then refuse s stREFUSED_STATE
  else { st := stValid (stepTo s (stOf ((r.p 1).toNat * 2 ^ 32 + (r.p 0).toNat) (r.p 2).toNat (r.p 3).toNat)) }

def execTimeSet (r : Request) (s : State) : Host.Outcome State Fault Refusal :=
  .next (serveReed r s (r.target == 0 && r.params.length == 4) (opTimeSet r))

/-- An offset slewed in: RATE is moved by SLEW_MAX until it has been absorbed (R388). -/
def slewBegin (s : State) (ns : Int) : State :=
  let s0 := slewEnd s
  let old := (s0.reg R.timeRate).toInt
  let m : Int := s0.fld R.timeLim_SLEW_MAX * 256
  let new := rateClamp (if ns < 0 then old - m else old + m)
  if ns = 0 ∨ new = old then s0
  else
    let n := roundEven (((ns.natAbs : Nat) : Rat) * 16 * 256000000000 / (((new - old).natAbs : Nat) : Rat))
    let s1 := setRate s0 new
    s1.withNet { s1.net with slew := some (wdInt old, s1.dt + tk n) }

/-- TIME_ADJUST (R388): mode 0 steps or slews by an offset, mode 1 sets RATE. -/
def opTimeAdjust (r : Request) (s : State) : Res :=
  let v := (r.p 1).toInt
  let rate := bitOf (r.p 0) 0
  if !nodeRuns s 5 then refuse s stNOT_READY
  else if bitsOf (r.p 0) 1 31 ≠ 0 ∨ (rate ∧ (v < -128000000 ∨ 128000000 < v)) then refuse s stBAD_PARAM
  else if s.fld R.timeCfg_SRC ≠ 0 then refuse s stREFUSED_STATE
  else if rate then
    let s1 := setRate s v
    { st := (s1.withNet { s1.net with slew := none }) }
  else if (s.reg R.timeThr).toNat ≤ v.natAbs then { st := stepBy s v }
  else { st := slewBegin s v }

def execTimeAdjustOffset (r : Request) (s : State) : Host.Outcome State Fault Refusal :=
  .next (serveReed r s (r.target == 0 && r.params.length == 2) (opTimeAdjust r))

def execTimeAdjustRate (r : Request) (s : State) : Host.Outcome State Fault Refusal :=
  .next (serveReed r s (r.target == 0 && r.params.length == 2) (opTimeAdjust r))

/-- A slewed offset has been absorbed. -/
def slewDone (s : State) : State :=
  match s.net.slew with
  | none => s
  | some (_, t) => slewEnd (s.at t)

def execTimeSlewDone (s : State) : Host.Outcome State Fault Refusal := .next (slewDone s)

/-! ### The servo (R390 to R392) -/

/-- A new parent: TIME_MASTER, and LOCKING from every state the servo runs or holds over in (R391). -/
def newParent (s : State) (p : Nat) (parent : Tick) : State :=
  let st := s.fld R.timeStat_STATE
  let hold := st == 3
  let fresh := decide (s.reg64 R.timeParentLo ≠ parent)
  let s1 := if fresh then (s.setReg64 R.timeParentLo parent).raise 218 p (wd (parent.toNat % 65536)) else s
  if (fresh || hold) && (st == 2 || hold) then timeState s1 1
  else if fresh && st == 1 then s1.withNet { s1.net with good := 0, bad := 0 }
  else s1

/-- Samples in a row inside and outside LOCK_THR move the servo between LOCKING and LOCKED (R391). -/
def lockCount (s : State) (o : Int) : State :=
  let near := decide (o.natAbs < s.fld R.timeLim_LOCK_THR * 65536)
  let good := if near then s.net.good + 1 else 0
  let bad := if near then 0 else s.net.bad + 1
  let s1 := s.withNet { s.net with good := good, bad := bad }
  if s.fld R.timeStat_STATE = 1 ∧ 8 ≤ good then timeState s1 2
  else if s.fld R.timeStat_STATE = 2 ∧ 4 ≤ bad then timeState s1 1
  else s1

/-- The servo on an offset sample, in 2^-16 ns (R391). -/
def servo (s : State) (o : Int) : State :=
  if s.fld R.timeStat_STATE = 0 ∨ (s.reg R.timeThr).toNat * 65536 ≤ o.natAbs then
    let s1 := timeState (stValid (stepTo s (stAt (slewEnd s) s.dt - o))) 1
    s1.withNet { s1.net with good := 0, bad := 0 }
  else
    let ns : Rat := (o : Rat) / 65536
    let integ := clampR (-500000) 500000 (s.net.integ - ratOf (s.reg R.timeKi) * ns)
    let m : Rat := s.fld R.timeLim_SLEW_MAX
    let s1 := setRate s (ratePpb (integ + clampR (-m) m (-(ratOf (s.reg R.timeKp) * ns))))
    lockCount (s1.withNet { s1.net with integ := integ }) o

/-- Reed serves: it forms offsets and takes timestamps (R390). -/
def reedServes (s : State) : Bool := s.reed == .running && !s.boot.hold

/-- The port takes part in PTP (R397). -/
def ptpPort (s : State) (p : Nat) : Bool :=
  s.fld R.timeCfg_SRC != 0 && s.flag (if p = 0 then R.timeCfg_PORT_A else R.timeCfg_PORT_B)

/-- The mean path delay: half of what the two ways take (R390). -/
def ptpDelay (d : PtpDelay) : Int := ((d.t2 - d.t1) + (d.t4 - d.t3)) / 2

/-- The offset: what a Sync took less the mean path delay; positive where ST is ahead (R390, R391). -/
def ptpOffset (x : PtpSync) (d : PtpDelay) : Int := (x.t2 - x.t1) - ptpDelay d

/-- An offset sample of the slave port with its parent, its exchanges and the UTC offset (R389, R390). -/
def ptpSample (s : State) (p : Nat) (parent : Tick) (x : PtpSync) (d : PtpDelay) (utc : Word) : State :=
  if !reedServes s || !ptpPort s p || !tbValid s || !nodeRuns s 5 then s
  else
    let s1 := newParent s p parent
    let s2 := (s1.setRegs [(R.timeOffset, nsWord (ptpOffset x d)), (R.timeMpd, nsWord (ptpDelay d)), (R.timeUtcofs, utc &&& 0x1FFFF#32)]).setFld
      R.timeStat_SLAVE_PORT p
    servo s2 (ptpOffset x d)

def execPtpOffsetSample (p : Fin 2) (parent : Tick) (o : PtpSync) (mpd : PtpDelay) (utc : Word) (t : Tick) (s : State) : Host.Outcome State Fault Refusal :=
  .next (ptpSample (s.at t) p.val parent o mpd utc)

/-- No sample for 4 sync intervals, or an announce timeout: HOLDOVER at integ (R391). -/
def holdover (s : State) : State :=
  if s.fld R.timeStat_STATE = 1 ∨ s.fld R.timeStat_STATE = 2 then timeState (setRate s (ratePpb s.net.integ)) 3 else s

def execPtpHoldoverTimeout (s : State) : Host.Outcome State Fault Refusal := .next (holdover s)

/-- Once per second the PLL ratio moves towards −integ, by at most 0.1 ppm and within ±DISC_LIM; what is moved leaves integ and
RATE. With DISC 0 the ratio returns to nominal at the same pace (R392). A standby is disciplined to fabric time, with FRATE in
place of integ, and FT does not change (R443). -/
def discipline (s : State) : State :=
  let sb := s.fld R.sheafCfg_ROLE == 2
  let on := s.flag R.timeCfg_DISC || sb
  let st := s.fld R.timeStat_STATE
  let lim : Rat := s.fld R.timeCfg_DISC_LIM * 10000
  let err : Rat := if sb then s.sward.frate * 1000000000 else s.net.integ
  let target : Rat := if on then clampR (-lim) lim (s.net.disc - err) else 0
  let m := clampR (-100) 100 (target - s.net.disc)
  if !s.flag R.clkStat_TPLL_LOCK || (!sb && on && st != 1 && st != 2) || m == 0 then s
  else
    let x := s.sward
    let s0 := if sb then s.withSward { x with dtB := s.dt, ftB := x.ftB + ((s.dt - x.dtB).toInt : Rat) * (1 + x.frate), frate := x.frate + m / 1000000000 } else s
    let rate : Rat := ((s0.reg R.timeRate).toInt : Rat) / 256
    let s1 := setRate s0 (ratePpb (rate + m))
    (s1.withNet { s1.net with disc := s.net.disc + m, integ := s.net.integ + m }).setFlag R.timeStat_DISC_ACT (s.net.disc + m != 0)

def execTimebaseDiscipline (s : State) : Host.Outcome State Fault Refusal := .next (discipline s)

/-- A write of `TIME.CFG`: at once, and the servo returns to FREERUN, or to HOST with SRC 0 (R391, R397). -/
def timeCfgWrite (s : State) (w : Word) : Res :=
  if bitsOf w 30 2 = 3 ∨ bitsOf w 9 4 < 2 ∨ 10 < bitsOf w 9 4 ∨ 5 < bitsOf w 6 3 then refuse s stBAD_PARAM
  else
    let s1 := (slewEnd s).setReg R.timeCfg (w &&& ~~~0x3F#32)
    let s2 := timeState s1 (if bitsOf w 30 2 = 0 then 4 else 0)
    { st := (s2.withNet { s2.net with good := 0, bad := 0 }) }

def execTimeCfgWrite (w : Word) (s : State) : Host.Outcome State Fault Refusal :=
  .next (regRowWrite s R.timeCfg (timeCfgWrite s w))

/-- SNAP captures DT and ST of one instant (R387, R397). -/
def timeSnap (s : State) : State :=
  let x := stAt s s.dt
  let ns := x / 65536
  let sec := ns / 1000000000
  (s.setReg64 R.timeSnapDtLo s.dt).setRegs [(R.timeSnapSec, wdInt sec),
    (R.timeSnapFracHi, wd ((x % 65536).toNat * 65536 + (sec / 4294967296 % 65536).toNat)), (R.timeSnapNs, wdInt (ns % 1000000000))]

def execTimeSnap (s : State) : Host.Outcome State Fault Refusal := .next (regRowWrite s R.timeCtrl { st := timeSnap s })

/-- The time unit as the timebase goes or comes back: ST_VALID clears, a PTP servo returns to FREERUN, host time to HOST (R387, R391). -/
def timeLost (s : State) : State := pulsesHold (s.setFlag R.timeStat_ST_VALID false)
def timeBack (s : State) : State := pulsesHold (timeState s (if s.fld R.timeCfg_SRC = 0 then 4 else 0))

/-- A write of a register of the TIME block; none where the access codes alone decide. -/
def timeBlockWrite (s : State) (a : Nat) (w : Word) : Option Res :=
  if a = R.timeCfg then some (timeCfgWrite s w)
  else if a = R.timeKp ∨ a = R.timeKi then some (if outF32 0 100 w then refuse s stBAD_PARAM else { st := s.setReg a (f32Flush w) })
  else if a = R.timeLim then some (if bitsOf w 0 16 = 0 then refuse s stBAD_PARAM else { st := s.setReg a w })
  else if a = R.timeCtrl then some { st := if bitOf w 31 then timeSnap s else s }
  else none

/-! ### Frames (R379 to R385) -/

/-- A number of bytes read most significant byte first. -/
def beNat (l : List Byte) : Nat := l.foldl (fun n b => n * 256 + b.toNat) 0

/-- `n` bytes from an offset on, most significant first. -/
def beAt (l : List Byte) (off n : Nat) : Nat := beNat ((l.drop off).take n)

/-- The sum of the 16-bit words of bytes, most significant byte first, an odd last byte padded. -/
def sum16 : List Byte → Nat
  | a :: b :: rest => a.toNat * 256 + b.toNat + sum16 rest
  | [a] => a.toNat * 256
  | [] => 0

/-- A ones' complement checksum that comes out right. -/
def sumGood (n : Nat) : Bool := decide (0 < n) && decide (n % 65535 = 0)

/-- The port's own MAC address: octets 0 and 1 in MAC_HI, 2 to 5 in MAC_LO (R396). -/
def ethMac (s : State) (p : Nat) : Nat := s.fld (R.ethMacHi_MAC p) * 2 ^ 32 + (s.reg (R.ethMacLo p)).toNat

/-- The addresses a port accepts besides its own (R380). -/
def ethGroups : List Nat := [0xFFFFFFFFFFFF, 0x011B19000000, 0x0180C200000E, 0x01005E000181, 0x01005E00006B]

/-- A frame discarded and counted in FILTERED. -/
def ethFilter (s : State) (p : Nat) : State := s.cntSat (R.ethDrops_FILTERED p)

/-- P2P is the port's delay mechanism: always under gPTP (R389). -/
def ptpP2p (s : State) (p : Nat) : Bool :=
  s.fld R.timeCfg_SRC == 2 || s.flag (if p = 0 then R.timeCfg_P2P_A else R.timeCfg_P2P_B)

/-- Messages travel in Ethernet frames: always under gPTP. -/
def ptpRaw (s : State) : Bool := s.fld R.timeCfg_SRC == 2 || s.flag R.timeCfg_TRANSPORT

/-- The module is master on a port: not slave-only, and the port is not where its own parent is (R389). -/
def ptpMaster (s : State) (p : Nat) : Bool :=
  !s.flag R.timeDs_SLAVE_ONLY && (s.fld R.timeStat_STATE == 0 || s.fld R.timeStat_STATE == 4 || (s.flag R.timeCfg_BC && s.fld R.timeStat_SLAVE_PORT != p))

/-- Two-step transmit: always under gPTP. -/
def ptpTwoStep (s : State) : Bool := s.fld R.timeCfg_SRC == 2 || s.flag R.timeCfg_TWO_STEP

/-- The length of a PTP message by its type. -/
def ptpLen (kind : Nat) : Nat := match kind with
  | 2 => 54 | 3 => 54 | 9 => 54 | 10 => 54 | 11 => 64 | _ => 44

/-- ASYM/2 in whole edge ticks. -/
def ethAsymHalf (s : State) (p : Nat) : Int := (s.reg (R.ethAsym p)).toInt / 2

/-- A timestamp handed to Reed, or kept while Reed does not serve; lost where 16 are kept (R384). -/
def ptpStamp (s : State) (p : Nat) (t : Tick) (tx : Bool) : State × Bool :=
  let x := s.netPort p
  if reedServes s then (s.setNetPort p { x with ts := [] }, true)
  else if 16 ≤ x.ts.length then ((s.setFlag (R.ethStat_TS_LOST p) true).raise 227 p (if tx then 2#32 else 1#32), false)
  else (s.setNetPort p { x with ts := x.ts ++ [(t, tx)] }, true)

/-- One PTP message in the queue of PCP_PTP (R382, R389). -/
def ptpPut (s : State) (p kind : Nat) (stamp : Option Int) : State :=
  let pcp := s.fld (R.ethCfg_PCP_PTP p)
  let tag := netTag s p pcp
  let peer := decide (kind = 2 ∨ kind = 3 ∨ kind = 10)
  let raw := ptpRaw s
  let mac := if raw then (if peer || s.fld R.timeCfg_SRC == 2 then 0x0180C200000E else 0x011B19000000)
    else (if peer then 0x01005E00006B else 0x01005E000181)
  let n := ptpLen kind
  netTx s p { queue := pcp / 2, bytes := if raw then max 64 (n + 18) + (if tag.isSome then 4 else 0) else udpBytes n tag, tag := tag,
              mac := BitVec.ofNat 48 mac, msg := .ptp kind stamp }

/-- A message sent with its transmit timestamp (R384, R385): one-step it carries it itself, two-step a follow-up does. -/
def ptpSend (s : State) (p kind : Nat) : State :=
  let t := s.dt + tk (s.fld (R.ethLat_TX_LAT p)) + BitVec.ofInt 64 (ethAsymHalf s p)
  let follow := if kind = 0 then some 8 else if kind = 3 then some 10 else none
  if !nodeRuns s 5 then ptpPut s p kind none
  else match follow with
    | some f =>
      if ptpTwoStep s then
        let x := ptpStamp (ptpPut s p kind none) p t true
        if x.2 then ptpPut x.1 p f (some (stAt x.1 t)) else x.1
      else ptpPut s p kind (some (stAt s t))
    | none => if kind ≤ 2 then (ptpStamp (ptpPut s p kind none) p t true).1 else ptpPut s p kind none

/-- Reed sends Sync, Announce, Delay_Req, Pdelay_Req, or a Pdelay_Resp, where the configuration has the port send it (R389). -/
def ptpInterval (s : State) (p kind : Nat) : State :=
  if !reedServes s || !ptpPort s p || !ethUp s p then s
  else match kind with
    | 0 => if ptpMaster s p then ptpSend s p 0 else s
    | 1 => if ptpMaster s p then ptpSend s p 11 else s
    | 2 => if !ptpMaster s p && !ptpP2p s p then ptpSend s p 1 else s
    | 3 => if ptpP2p s p then ptpSend s p 2 else s
    | _ => if ptpP2p s p then ptpSend s p 3 else s

def execPtpSendInterval (p : Fin 2) (kind : Fin 5) (t : Tick) (s : State) : Host.Outcome State Fault Refusal :=
  .next (ptpInterval (s.at t) p.val kind.val)

/-- A received PTP message: one of an option not supported is filtered; an event message is timestamped (R384, R389). -/
def ptpReceive (s : State) (p : Nat) (raw : Bool) (body : List Byte) (t : Tick) : State :=
  let kind := beAt body 0 1 % 16
  let dom := if s.fld R.timeCfg_SRC = 2 then 0 else s.fld R.timeCfg_DOMAIN
  let known := decide (kind ≤ 3) || (decide (8 ≤ kind) && decide (kind ≤ 11))
  let peer := decide (kind = 2 ∨ kind = 3 ∨ kind = 10)
  let e2e := decide (kind = 1 ∨ kind = 9)
  if !ptpPort s p || raw != ptpRaw s || body.length < 34 || beAt body 4 1 != dom || !known || (peer && !ptpP2p s p) || (e2e && ptpP2p s p) then ethFilter s p
  else if kind ≤ 3 ∧ nodeRuns s 5 then
    let tr := t - tk (s.fld (R.ethLat_RX_LAT p)) - BitVec.ofInt 64 (ethAsymHalf s p)
    let x := ptpStamp s p tr false
    if !x.2 || !reedServes s then x.1
    else if kind = 2 then ptpSend x.1 p 3
    else if kind = 1 ∧ ptpMaster s p then ptpPut x.1 p 9 (some (stAt x.1 tr))
    else x.1
  else s

/-- A UDP datagram of the port's address (R98, R348, R381). -/
def udpReceive (s : State) (p : Nat) (src : Nat) (tag : Option Nat) (ip : Word) (sum : Nat) (body : List Byte) (t : Tick) : State :=
  let len := beAt body 4 2
  let dport := beAt body 2 2
  let data := (body.take len).drop 8
  let o : Origin := .udp p (BitVec.ofNat 48 src) ip (beAt body 0 2) tag
  if body.length < 8 ∨ len < 8 ∨ body.length < len then ethFilter s p
  else if beAt body 6 2 ≠ 0 ∧ !sumGood (sum + sum16 (body.take len) + len + 17) then s
  else if dport = 319 ∨ dport = 320 then ptpReceive s p false data t
  else if dport = s.fld (R.ethUdp_CMD_PORT p) then carrierArrive s (1 + p) o data
  else if telEn s ∧ bitsOf (setW s 7) 0 2 = 0 ∧ dport = bitsOf (setW s 6) 16 16 then telCopy s p o data t
  else ethFilter s p

/-- An IPv4 packet: ICMP echo and UDP for the port's address, PTP groups; all else filtered (R381). -/
def ipReceive (s : State) (p : Nat) (src : Nat) (tag : Option Nat) (body : List Byte) (t : Tick) : State :=
  let total := beAt body 2 2
  let ip := wd (beAt body 12 4)
  let dst := wd (beAt body 16 4)
  let data := (body.take total).drop 20
  let own := decide (dst = s.reg (R.ethIp p))
  let group := decide (dst = 0xE0000181#32 ∨ dst = 0xE000006B#32)
  let proto := beAt body 9 1
  if body.length < 20 ∨ total < 20 ∨ body.length < total ∨ beAt body 0 1 ≠ 0x45 ∨ beAt body 6 2 % 16384 ≠ 0 ∨ !sumGood (sum16 (body.take 20)) then ethFilter s p
  else if proto = 17 ∧ (own ∨ (group ∧ (beAt data 2 2 = 319 ∨ beAt data 2 2 = 320))) then
    udpReceive s p src tag ip (sum16 ((body.take 20).drop 12)) data t
  else if proto = 1 ∧ own ∧ beAt data 0 2 = 0x0800 ∧ 8 ≤ data.length ∧ data.length ≤ 1480 then
    netTx s p { queue := 0, bytes := max 64 (data.length + 38), mac := BitVec.ofNat 48 src, msg := .icmp ip (data.drop 4) }
  else ethFilter s p

/-- An ARP request for the port's address is answered (R381). -/
def arpReceive (s : State) (p : Nat) (src : Nat) (body : List Byte) : State :=
  if beAt body 6 2 = 1 ∧ beAt body 0 6 = 0x000108000604 ∧ 28 ≤ body.length ∧ wd (beAt body 24 4) = s.reg (R.ethIp p) then
    netTx s p { queue := 0, bytes := 64, mac := BitVec.ofNat 48 src, msg := .arp (wd (beAt body 14 4)) }
  else s

/-- A frame from the destination address to the end of its data, without its check sequence; `room`: it fits the receive
buffer; `t`: the edge of its start-of-frame delimiter (R380, R384). -/
def ethReceive (s : State) (p : Nat) (bytes : List Byte) (room : Bool) (t : Tick) : State :=
  let dst := beAt bytes 0 6
  let src := beAt bytes 6 6
  let tagged := decide (beAt bytes 12 2 = 0x8100)
  let tci := beAt bytes 14 2
  let off := if tagged then 18 else 14
  let typ := beAt bytes (off - 2) 2
  let body := bytes.drop off
  let tag := if tagged then some (tci / 8192) else none
  if !ethUp s p then s
  else if bytes.length < off ∨ 1518 < bytes.length ∨ (tagged ∧ tci % 4096 ≠ s.fld (R.ethCfg_VID p)) ∨ (dst ≠ ethMac s p ∧ !ethGroups.contains dst) then ethFilter s p
  else if !room then
    let s1 := (s.cntSat (R.ethDrops_RX_DROPS p)).setFlag (R.ethStat_RX_DROP p) true
    s1.raiseLim 225 p (wd (s1.fld (R.ethDrops_RX_DROPS p))) (100 * msTicks)
  else
    let s1 := s.cntWrap (R.ethCnt_RX_FRAMES p)
    if typ = 0x0806 then arpReceive s1 p src body
    else if typ = 0x0800 then ipReceive s1 p src tag body t
    else if typ = 0x88F7 then ptpReceive s1 p true body t
    else ethFilter s1 p

def execEthFrameReceive (p : Fin 2) (bytes : List Byte) (room : Bool) (t : Tick) (s : State) : Host.Outcome State Fault Refusal :=
  .next (ethReceive (s.at t) p.val bytes room t)

/-- The RGMII in-band status of a clocked port (R379, R395). -/
def ethLink (s : State) (p : Nat) (up slow : Bool) : State :=
  if !nodeRuns s (17 + p) then s
  else
    let s1 := (s.setFlag (R.ethStat_LINK p) up).setFlag (R.ethStat_SPD_SEEN p) slow
    if s.flag (R.ethStat_LINK p) = up then s1 else s1.raise 224 p (wd (b2n up))

def execEthLinkChange (p : Fin 2) (up slow : Bool) (s : State) : Host.Outcome State Fault Refusal := .next (ethLink s p.val up slow)

/-- A write of `ETH.MDIO[p]`: GO starts an access (R396). -/
def mdioWrite (s : State) (p : Nat) (w : Word) : Res :=
  if bitOf w 31 && s.flag (R.ethMdio_BUSY p) then refuse s stREFUSED_STATE
  else
    let v := mergeBits (s.reg (R.ethMdio p)) w 0x23FFFFFF#32
    { st := s.setReg (R.ethMdio p) (if bitOf w 31 then v ||| 0x40000000#32 else v) }

def execEthMdioAccess (p : Fin 2) (w : Word) (s : State) : Host.Outcome State Fault Refusal :=
  .next (regRowWrite s (R.ethMdio p.val) (mdioWrite s p.val (w ||| 0x80000000#32)))

/-- The access ends: BUSY clears, DATA holds what was read (R396). -/
def mdioDone (s : State) (p : Nat) (data : Nat) : State :=
  if !s.flag (R.ethMdio_BUSY p) then s
  else
    let s1 := s.setFlag (R.ethMdio_BUSY p) false
    if s.flag (R.ethMdio_READ p) then s1.setFld (R.ethMdio_DATA p) data else s1

def execEthMdioDone (p : Fin 2) (data : BitVec 16) (s : State) : Host.Outcome State Fault Refusal := .next (mdioDone s p.val data.toNat)

/-- A write of a register of the ETH block; none where the access codes alone decide (R396). -/
def ethBlockWrite (s : State) (a : Nat) (w : Word) : Option Res :=
  let p := (a - 0x1C0000) / 0x100
  let en := s.flag (R.ethCfg_EN p)
  if a = R.ethCfg p then
    let new := written s a w
    some (if en ∧ new &&& 0x7FFFFFFF#32 ≠ s.reg a &&& 0x7FFFFFFF#32 then refuse s stREFUSED_STATE
          else if en ∧ !bitOf new 31 then { st := (s.setReg a new).setNetPort p { s.netPort p with queues := List.replicate 4 [], ts := [] } }
          else { st := s.setReg a new })
  else if a = R.ethUdp p then
    some (if bitsOf w 16 16 = 0 then refuse s stBAD_PARAM else if en then refuse s stREFUSED_STATE else { st := s.setReg a w })
  else if a = R.ethMacLo p ∨ a = R.ethMacHi p ∨ a = R.ethIp p then (if en then some (refuse s stREFUSED_STATE) else none)
  else if a = R.ethMdio p then some (mdioWrite s p w)
  else none

/-- Replies and readout entries that waited for room in a transmit queue move on (R382). -/
def netPump (s : State) : State := inkPump (udpCarry (udpCarry s 1) 2)

end Sys2Proof.Machine
end

