-- ==== Sys2Proof/Machine/Can.lean ====
section
/-! DEFINITION. The CAN FD controllers: modes, error states, transmit slots, filters, the command channel and the time-triggered
schedule (16_can_fd.md). -/

namespace Sys2Proof.Machine

open Sys2Proof

def State.canN (s : State) (n : Nat) : CanN := nth s.can.n n {}
def State.setCanN (s : State) (n : Nat) (x : CanN) : State := s.withCan { s.can with n := setAt s.can.n n x }

/-- The mode in effect: 0 OFF, 1 NORMAL, 2 LISTEN, 3 SLEEP (R401). -/
def canMode (s : State) (n : Nat) : Nat := s.fld (R.canStat_MODE_NOW n)
def canErr (s : State) (n : Nat) : Nat := s.fld (R.canStat_ERRSTATE n)
def canRunning (s : State) (n : Nat) : Bool := s.flag (R.canTtstat_RUN n)
def canRole (s : State) (n : Nat) : Nat := s.fld (R.canTtcfg_ROLE n)

/-- The controller takes part on its bus: its node clocked, not in coast, not in bus-off. -/
def canOnBus (s : State) (n : Nat) : Bool :=
  nodeRuns s (9 + n) && !s.flag R.clkStat_COAST && canErr s n != 2 && (canMode s n == 1 || canMode s n == 2)

/-- Data bytes of a data length code (R404, R407). -/
def dlcLen (dlc : Nat) (fdf : Bool) : Nat :=
  if dlc ≤ 8 then dlc else if !fdf then 8
  else match dlc with
    | 9 => 12 | 10 => 16 | 11 => 20 | 12 => 24 | 13 => 32 | 14 => 48 | _ => 64

/-- The smallest data length code of an FD frame that holds a number of bytes (R408). -/
def lenDlc (n : Nat) : Nat := ((List.range 16).find? (fun d => n ≤ dlcLen d true)).getD 15

/-- An identifier as it arbitrates: a base identifier as its 29-bit extension (R405). -/
def canKey (ide : Bool) (id : Nat) : Nat := if ide then id else id * 2 ^ 18

/-! ### Slots and windows (R404 to R406, R409, R410) -/

def State.canSlotS (s : State) (n i : Nat) : CanSlot := nth (s.canN n).slots i {}
def State.setCanSlotS (s : State) (n i : Nat) (x : CanSlot) : State := s.setCanN n { s.canN n with slots := setAt (s.canN n).slots i x }

/-- An enabled exclusive window. -/
def ttwExcl (s : State) (n w : Nat) : Bool := s.flag (R.canTtwA_EN n w) && !s.flag (R.canTtwA_TYPE n w)

/-- A slot an enabled exclusive window names (R404). -/
def canBound (s : State) (n i : Nat) : Bool := (List.range 32).any (fun w => ttwExcl s n w && s.fld (R.canTtwA_SLOT n w) == i)

/-- `CAN.SLOT` shows what a slot holds (R415). -/
def canSlotShow (s : State) (n i : Nat) : State :=
  let st := match (s.canSlotS n i).msg with
    | none => 0
    | some _ => if (s.canN n).cur = some i then 2 else if canBound s n i then 3 else 1
  let tag := match (s.canSlotS n i).msg with
    | none => 0
    | some m => m.tag
  (s.setFld (R.canSlot_SSTATE n i) st).setFld (R.canSlot_TAG n i) tag

def canSlotsShow (s : State) (n : Nat) : State := (List.range 16).foldl (fun t i => canSlotShow t n i) s

/-- CAN_TX_DONE with an outcome: with NOTIFY on every outcome, else only for a message whose cancellation was asked (R404 to R406). -/
def canOutcome (s : State) (n i : Nat) (m : CanMsg) (code : Nat) (cancelled : Bool) : State :=
  if m.notify || cancelled then s.raise 234 n (wd (m.tag * 65536 + i * 256 + code)) else s

/-- A slot is free again. -/
def canFree (s : State) (n i : Nat) : State :=
  canSlotShow ((s.setCanSlotS n i { s.canSlotS n i with msg := none }).setFlag (R.canSlot_CANCEL_PEND n i) false) n i

/-- A window's end and start in a cycle that began at `c`. -/
def ttwStart (s : State) (n w : Nat) : Tick := (s.canN n).cycAt + tk (s.fld (R.canTtwA_START n w) * usTicks)
def ttwEnd (s : State) (n w : Nat) : Tick := ttwStart s n w + tk (s.fld (R.canTtwB_LEN n w) * usTicks)

/-- The window is open in cycles of a count (R409). -/
def ttwIn (s : State) (n w c : Nat) : Bool := c % 2 ^ s.fld (R.canTtwA_REP_LOG2 n w) == s.fld (R.canTtwA_COFS n w)

/-- The schedule governs transmission: it runs, and a slave is synchronised (R410, R411). -/
def ttGoverns (s : State) (n : Nat) : Bool := canRunning s n && (canRole s n == 1 || s.flag (R.canTtstat_SYNC n))

/-! ### Error states (R402) -/

/-- TEC and REC as they show, the error state they mean; each change raises CAN_ERRSTATE, bus-off ends an attempt (R402). -/
def canCounters (s : State) (n tec rec_ : Nat) : State :=
  let st := if 255 < tec then 2 else if 127 < tec ∨ 127 < rec_ then 1 else 0
  let old := canErr s n
  let x := s.canN n
  let s1 := s.setCanN n { x with tec := tec, rec_ := rec_, cur := if st = 2 then none else x.cur, curMsg := if st = 2 then none else x.curMsg,
                                 recov := if st = 2 then x.recov || (old != 2 && s.flag (R.canCtrl_AUTO_REC n)) else false }
  let s2 := ((s1.setFld (R.canStat_TEC n) (min tec 255)).setFld (R.canStat_REC n) (min rec_ 255)).setFld (R.canStat_ERRSTATE n) st
  if st = old then s2 else canSlotsShow (s2.raise 233 n (wd st)) n

/-- A bus error met while receiving (R402): REC counts it, by 8 where the standard says so. -/
def canBusError (s : State) (n : Nat) (heavy : Bool) : State :=
  if !canOnBus s n then s
  else canCounters (s.cntSat (R.canCnt_ERRORS n)) n (s.canN n).tec (min 255 ((s.canN n).rec_ + (if heavy then 8 else 1)))

def execCanBusError (n : Fin 4) (heavy : Bool) (s : State) : Host.Outcome State Fault Refusal := .next (canBusError s n.val heavy)

/-- A frame received without error lowers REC; from the error-passive range it returns to a value from 119 to 127. -/
def canRxGood (s : State) (n : Nat) : State :=
  let r := (s.canN n).rec_
  if r ≤ 127 then canCounters s n (s.canN n).tec (r - 1)
  else
    let x := s.fresh
    canCounters x.2 n (x.2.canN n).tec (119 + x.1.toNat % 9)

/-! ### Modes (R401) -/

/-- A mode takes effect; a change raises CAN_MODE. Outside NORMAL no attempt goes on. -/
def canSetMode (s : State) (n m : Nat) : State :=
  let old := canMode s n
  let x := s.canN n
  let s1 := s.setCanN n { x with sleep := false, cur := if m = 1 then x.cur else none, curMsg := if m = 1 then x.curMsg else none }
  let s2 := s1.setFld (R.canStat_MODE_NOW n) m
  canSlotsShow (if old = m then s2 else s2.raise 232 n (wd (old * 4 + m))) n

/-- A waiting write of SLEEP takes effect once the frame on the bus has ended. -/
def canFrameEnd (s : State) (n : Nat) : State :=
  if (s.canN n).sleep ∧ (s.canN n).cur = none then canSetMode s n 3 else s

/-- RSP_ID is that of a slot that holds a message, or REQ_ID (R408). -/
def canRspClash (s : State) (n : Nat) : Bool :=
  let rsp := s.reg (R.canRspid n)
  decide (s.reg (R.canCmdid n) = rsp)
  || (s.canN n).slots.any (fun x => match x.msg with
      | some m => m.ide == bitOf rsp 31 && m.id == bitsOf rsp 0 29
      | none => false)

/-- A write of `CAN.CTRL[n]` (R400, R401, R402, R408, R415). -/
def canCtrlWrite (s : State) (n : Nat) (w : Word) : Res :=
  let old := s.reg (R.canCtrl n)
  let new := mergeBits old w 0xFF00FF00#32
  let rec_ := bitOf w 23
  let mode := bitsOf w 30 2
  let others := decide (new &&& 0x3FFFFFFF#32 ≠ old &&& 0x3FFFFFFF#32)
  if bitsOf w 8 8 < 16 ∨ (bitOf w 26 ∧ !bitOf old 26 ∧ canRspClash s n) ∨ (bitOf w 28 ∧ 1 < s.fld (R.canDbt_DBRP n)) then refuse s stBAD_PARAM
  else if others && bitsOf old 30 2 != 0 then refuse s stREFUSED_STATE
  else
    let s1 := s.setReg (R.canCtrl n) new
    let s2 := if rec_ && canErr s1 n == 2 then s1.setCanN n { s1.canN n with recov := true } else s1
    let busy := (s2.canN n).cur.isSome
    { st := if mode = 3 ∧ busy then s2.setCanN n { s2.canN n with sleep := true } else canSetMode s2 n mode }

def execCanCtrlWrite (n : Fin 4) (w : Word) (s : State) : Host.Outcome State Fault Refusal :=
  .next (regRowWrite s (R.canCtrl n.val) (canCtrlWrite s n.val w))

def execCanRecover (n : Fin 4) (s : State) : Host.Outcome State Fault Refusal :=
  .next (regRowWrite s (R.canCtrl n.val) (canCtrlWrite s n.val (s.reg (R.canCtrl n.val) ||| 0x00800000#32)))

/-- The recovery sequence of the standard has run: error-active again (R402). -/
def canRecovered (s : State) (n : Nat) : State :=
  if canErr s n = 2 ∧ (s.canN n).recov then canCounters s n 0 0 else s

def execCanBusoffRecoveryDone (n : Fin 4) (s : State) : Host.Outcome State Fault Refusal := .next (canRecovered s n.val)

/-- DOM_TO bits of dominant level: of the bus, or of the controller's own transmit line, which enters bus-off (R403). -/
def canDominant (s : State) (n : Nat) (own : Bool) : State :=
  if !canOnBus s n then s
  else if own then canCounters ((s.setFlag (R.canStat_STUCK_TX n) true).raise 235 n 1#32) n 256 (s.canN n).rec_
  else if s.flag (R.canStat_RX_DOM n) then s
  else (s.setFlag (R.canStat_RX_DOM n) true).raise 235 n 2#32

def execCanDominantTimeout (n : Fin 4) (own : Bool) (s : State) : Host.Outcome State Fault Refusal := .next (canDominant s n.val own)

/-! ### Transmitting (R404 to R406, R408) -/

/-- CAN_TX's values (R404). -/
def canTxBad (s : State) (n : Nat) (r : Request) : Bool :=
  let ide := bitOf (r.p 0) 31
  let fdf := bitOf (r.p 0) 30
  let brs := bitOf (r.p 0) 29
  let rtr := bitOf (r.p 1) 9
  let slot := bitsOf (r.p 1) 11 5
  let len := if rtr then 0 else dlcLen (bitsOf (r.p 1) 0 4) fdf
  (brs && !fdf) || (rtr && fdf) || (fdf && !s.flag (R.canCtrl_FDEN n)) || (!ide && bitsOf (r.p 0) 11 18 != 0)
  || r.params.length != 2 + (len + 3) / 4 || (decide (16 ≤ slot) && decide (slot ≤ 30)) || bitsOf (r.p 1) 4 4 != 0

/-- The message of a CAN_TX. -/
def canTxMsg (r : Request) : CanMsg :=
  let fdf := bitOf (r.p 0) 30
  let rtr := bitOf (r.p 1) 9
  let dlc := bitsOf (r.p 1) 0 4
  { ide := bitOf (r.p 0) 31, fdf := fdf, brs := bitOf (r.p 0) 29, single := bitOf (r.p 1) 10, rtr := rtr, notify := bitOf (r.p 1) 8,
    id := bitsOf (r.p 0) 0 29, tag := bitsOf (r.p 1) 16 16, dlc := dlc,
    data := if rtr then [] else (wordBytes (r.params.drop 2)).take (dlcLen dlc fdf) }

/-- The slot a CAN_TX names: 31 the lowest free slot that is not bound to a window. -/
def canTxSlot (s : State) (n : Nat) (r : Request) : Option Nat :=
  let i := bitsOf (r.p 1) 11 5
  if i = 31 then findNat 16 (fun k => (s.canSlotS n k).msg.isNone && !canBound s n k)
  else if (s.canSlotS n i).msg.isSome && !canBound s n i then none else some i

/-- CAN_TX (R404). -/
def opCanTx (r : Request) (s : State) : Res :=
  let n := r.target
  if 3 < n then refuse s stRANGE
  else if !nodeRuns s (9 + n) then refuse s stNOT_READY
  else if canTxBad s n r then refuse s stBAD_PARAM
  else if s.fld (R.canCtrl_MODE n) = 0 then refuse s stREFUSED_STATE
  else match canTxSlot s n r with
    | none => refuse s stBUSY_TARGET
    | some i => { st := canSlotShow (s.setCanSlotS n i { msg := some (canTxMsg r) }) n i, data := [wd i] }

def execCanTx (r : Request) (s : State) : Host.Outcome State Fault Refusal :=
  .next (serveReed r s (decide (2 ≤ r.params.length)) (opCanTx r))

/-- CAN_CANCEL (R406): at once, deferred once the start of frame was sent, or for the next occurrence of a window's slot. -/
def opCanCancel (r : Request) (s : State) : Res :=
  let n := r.target
  let i := bitsOf (r.p 0) 0 4
  if 3 < n then refuse s stRANGE
  else if !nodeRuns s (9 + n) then refuse s stNOT_READY
  else if bitsOf (r.p 0) 4 28 ≠ 0 then refuse s stBAD_PARAM
  else match (s.canSlotS n i).msg with
    | none => { st := s }
    | some m =>
      if (s.canN n).cur = some i then { st := s.setFlag (R.canSlot_CANCEL_PEND n i) true, data := [1#32] }
      else if canBound s n i then { st := canOutcome (s.setCanSlotS n i { s.canSlotS n i with skip := true }) n i m 2 true, data := [0#32] }
      else { st := canOutcome (canFree s n i) n i m 2 true, data := [0#32] }

def execCanCancel (r : Request) (s : State) : Host.Outcome State Fault Refusal :=
  .next (serveReed r s (r.params.length == 1) (opCanCancel r))

/-- The command reply that waits in ring 12 + n as a frame (R408). -/
def canReply (s : State) (n : Nat) : Option CanMsg :=
  if !s.flag (R.canCtrl_CMD_EN n) then none
  else match ringEnts s (12 + n) with
    | [] => none
    | _ =>
      let b := wordBytes (ringTailWords s (12 + n))
      let dlc := lenDlc b.length
      some { ide := s.flag (R.canRspid_IDE n), fdf := true, brs := s.flag (R.canCtrl_CMD_BRS n), single := false, rtr := false, notify := false,
             id := s.fld (R.canRspid_ID n), tag := 0, dlc := dlc, data := b ++ List.replicate (dlcLen dlc true - b.length) 0#8 }

/-- The reference message of a cycle (R411). -/
def canRef (s : State) (n : Nat) : CanMsg :=
  { ide := s.flag (R.canTtref_IDE n), fdf := false, brs := false, single := false, rtr := false, notify := false, id := s.fld (R.canTtref_ID n),
    tag := 0, dlc := 1, data := [BitVec.ofNat 8 (s.fld (R.canTtstat_CYCLE n))] }

/-- Ordinary messages that compete, in order: by identifier, then by slot, the reply slot last (R405). -/
def canCompete (s : State) (n : Nat) : Option (Nat × CanMsg) :=
  let l := (List.range 16).filterMap (fun i => match (s.canSlotS n i).msg with
    | some m => if canBound s n i then none else some (i, m)
    | none => none)
  let l := match canReply s n with
    | some m => l ++ [(16, m)]
    | none => l
  l.foldl (fun best e => match best with
    | none => some e
    | some b => if canKey e.2.ide e.2.id < canKey b.2.ide b.2.id then some e else some b) none

/-- What may begin on an idle bus at an instant (R405, R410, R411). -/
def canNext (s : State) (n : Nat) (t : Tick) : Option (Nat × CanMsg) :=
  let x := s.canN n
  if !ttGoverns s n then canCompete s n
  else if x.ref then some (17, canRef s n)
  else
    let excl := x.open_.findSome? (fun w =>
      let i := s.fld (R.canTtwA_SLOT n w)
      if ttwExcl s n w && x.due.contains i && decide (t.toInt < (ttwEnd s n w).toInt) then (s.canSlotS n i).msg.map (fun m => (i, m)) else none)
    match excl with
    | some e => some e
    | none => if x.open_.any (fun w => s.flag (R.canTtwA_TYPE n w) && decide (t.toInt < (ttwEnd s n w).toInt)) then canCompete s n else none

/-- The bus is idle: the winner's start of frame goes out (R405). -/
def canTxStart (s : State) (n : Nat) (t : Tick) : State :=
  let s0 := s.setFlag (R.canStat_RX_DOM n) false
  if !canOnBus s n || canMode s n != 1 || (s.canN n).cur.isSome || (s.canN n).sleep then s
  else match canNext s n t with
    | none => s0
    | some (i, m) =>
      let x := s0.canN n
      let s1 := s0.setCanN n { x with cur := some i, curMsg := some m, due := x.due.filter (· != i), ref := x.ref && i != 17 }
      if i < 16 then canSlotShow s1 n i else s1

def execCanTxStart (n : Fin 4) (t : Tick) (s : State) : Host.Outcome State Fault Refusal := .next (canTxStart (s.at t) n.val t)

/-- Kernel clocks of a data bit (R399). -/
def canDataBit (s : State) (n : Nat) : Nat :=
  (s.fld (R.canDbt_DBRP n) + 1) * (3 + s.fld (R.canDbt_DTSEG1 n) + s.fld (R.canDbt_DTSEG2 n))

/-- The loop delay from the edges on CANn_RX after the falling edge between FDF and res, in half ns (25 to a kernel clock): the first not
earlier than TDCF clocks, in whole clocks rounded up (R400). DESIGN CHOICE (log entry 63): TDCV keeps at most 255. -/
def canLoop (s : State) (n : Nat) (edges : List Nat) : Option Nat :=
  (edges.find? (fun e => decide (25 * s.fld (R.canTdc_TDCF n) ≤ e))).map (fun e => min 255 ((e + 24) / 25))

/-- The loop delay measured in a frame with BRS: TDCV, and TDC_ERR with CAN_TDC where the secondary sample point lies beyond
three data bits, which is a bit error of the frame (R400). -/
def canTdcStep (s : State) (n : Nat) (m : CanMsg) (tdc : List Nat) : State × Bool :=
  if !(m.fdf && m.brs && s.flag (R.canCtrl_TDC_EN n)) then (s, false)
  else match canLoop s n tdc with
    | none => (s, false)
    | some v =>
      let s1 := s.setFld (R.canTdc_TDCV n) v
      if 3 * canDataBit s n < v + s.fld (R.canTdc_TDCO n) then ((s1.setFlag (R.canStat_TDC_ERR n) true).raise 238 n (wd v), true)
      else (s1, false)

/-- The attempt of a slot ends: `ok` sent, else arbitration lost or an error (R405, R406, R410). -/
def canSlotEnd (s : State) (n i : Nat) (m : CanMsg) (ok : Bool) : State :=
  let cancel := s.flag (R.canSlot_CANCEL_PEND n i)
  if canBound s n i then
    let s1 := canSlotShow (s.setFlag (R.canSlot_CANCEL_PEND n i) false) n i
    if ok then canOutcome s1 n i m 1 cancel else if cancel then canOutcome s1 n i m 2 true else if m.single then canOutcome s1 n i m 3 false else s1
  else if ok then canOutcome (canFree s n i) n i m 1 cancel
  else if cancel then canOutcome (canFree s n i) n i m 2 true
  else if m.single then canOutcome (canFree s n i) n i m 3 false
  else canSlotShow s n i

/-- An attempt is over. A reference message that was not sent is retransmitted while the schedule runs (R405, R411). -/
def canAttemptOver (s : State) (n i res : Nat) : State :=
  let x := s.canN n
  s.setCanN n { x with cur := none, curMsg := none, ref := x.ref || (i == 17 && res != 0 && canRunning s n) }

/-- An attempt ends: 0 sent, 1 arbitration lost, 2 error (R402, R405). -/
def canTxDone (s : State) (n res : Nat) (tdc : List Nat) : State :=
  let x := s.canN n
  match x.cur, x.curMsg with
  | some i, some m =>
    let d := canTdcStep (canAttemptOver s n i res) n m tdc
    let res := if d.2 then 2 else res
    let s1 := if res = 0 then d.1.withCan { d.1.can with sent := (n, i, m) :: d.1.can.sent } else d.1
    let s2 := if i < 16 then canSlotEnd s1 n i m (res == 0)
      else if i = 16 ∧ res = 0 then ringDrop s1 (12 + n) else s1
    let s3 := if res = 0 then canCounters s2 n (x.tec - 1) x.rec_
      else if res = 2 then canCounters (s2.cntSat (R.canCnt_ERRORS n)) n (x.tec + 8) x.rec_ else s2
    canFrameEnd s3 n
  | _, _ => s

def execCanTxDone (n : Fin 4) (res : Fin 3) (tdc : List Nat) (s : State) : Host.Outcome State Fault Refusal :=
  .next (canTxDone s n.val res.val tdc)

/-! ### The schedule (R409 to R411) -/

/-- A window of the matrix fails START's checks by itself or against an earlier window (R409). -/
def ttwFails (s : State) (n w : Nat) : Bool :=
  let rep := 2 ^ s.fld (R.canTtwA_REP_LOG2 n w)
  let ncyc := 2 ^ s.fld (R.canTtcfg_NCYC_LOG2 n)
  let st := s.fld (R.canTtwA_START n w)
  let en := st + s.fld (R.canTtwB_LEN n w)
  s.flag (R.canTtwA_EN n w)
  && (decide (s.fld (R.canTtcfg_CYC_LEN n) < en) || decide (rep ≤ s.fld (R.canTtwA_COFS n w)) || decide (ncyc < rep)
      || (List.range w).any (fun v => s.flag (R.canTtwA_EN n v)
          && ((decide (st < s.fld (R.canTtwA_START n v) + s.fld (R.canTtwB_LEN n v)) && decide (s.fld (R.canTtwA_START n v) < en)
               && (List.range ncyc).any (fun c => ttwIn s n w c && ttwIn s n v c))
              || (ttwExcl s n w && ttwExcl s n v && s.fld (R.canTtwA_SLOT n w) == s.fld (R.canTtwA_SLOT n v)))))

/-- CAN_SCHEDULE (R409, R410). -/
def opCanSchedule (r : Request) (s : State) : Res :=
  let n := r.target
  let act := (r.p 0).toNat
  if 3 < n then refuse s stRANGE
  else if !nodeRuns s (9 + n) then refuse s stNOT_READY
  else if 1 < act then refuse s stBAD_PARAM
  else if act = 0 then
    { st := canSlotsShow (((s.setFlag (R.canTtstat_RUN n) false).setFlag (R.canTtstat_SYNC n) false).setCanN n
        { s.canN n with open_ := [], due := [], begun := false, ref := false }) n }
  else match findNat 32 (ttwFails s n) with
    | some w => { st := s, status := stBAD_PARAM, data := [wd w] }
    | none =>
      if canRunning s n then refuse s stBUSY_TARGET
      else if canRole s n = 0 ∨ s.fld (R.canCtrl_MODE n) ≠ 1 then refuse s stREFUSED_STATE
      else { st := (((s.setFlag (R.canTtstat_RUN n) true).setFlag (R.canTtstat_SYNC n) false).setFld (R.canTtstat_CYCLE n) 0).setCanN n
               { s.canN n with open_ := [], due := [], begun := false, ref := false } }

def execCanScheduleStart (r : Request) (s : State) : Host.Outcome State Fault Refusal :=
  .next (serveReed r s (r.params.length == 1) (opCanSchedule r))

def execCanScheduleStop (r : Request) (s : State) : Host.Outcome State Fault Refusal :=
  .next (serveReed r s (r.params.length == 1) (opCanSchedule r))

/-- A cycle of a count begins at an instant. -/
def canCycle (s : State) (n c : Nat) (t : Tick) (ref : Bool) : State :=
  (s.setFld (R.canTtstat_CYCLE n) c).setCanN n { s.canN n with cycAt := t, open_ := [], due := [], begun := true, ref := ref }

/-- A master starts a basic cycle and sends the reference message (R411). -/
def canCycleStart (s : State) (n : Nat) (t : Tick) : State :=
  if !canRunning s n || canRole s n != 1 || !canOnBus s n || canMode s n != 1 then s
  else
    let ncyc := 2 ^ s.fld (R.canTtcfg_NCYC_LOG2 n)
    let c := if (s.canN n).begun then (s.fld (R.canTtstat_CYCLE n) + 1) % ncyc else 0
    canTxStart (canCycle s n c t true) n t

def execCanCycleStart (n : Fin 4) (t : Tick) (s : State) : Host.Outcome State Fault Refusal := .next (canCycleStart (s.at t) n.val t)

/-- SYNC lost or regained (R411). -/
def canSync (s : State) (n : Nat) (on : Bool) : State :=
  if s.flag (R.canTtstat_SYNC n) = on then s
  else (s.setFlag (R.canTtstat_SYNC n) on).raise 236 n (if on then 1#32 else 2#32)

/-- The instant at which a slave's reference message is late (R411). -/
def canRefLate (s : State) (n : Nat) : Tick :=
  (s.canN n).cycAt + tk ((s.fld (R.canTtcfg_CYC_LEN n) + s.fld (R.canTtcfg_REF_TMO n)) * usTicks)

/-- A reference message at a slave: a late one loses SYNC first (R411, R413). -/
def canReference (s : State) (n cnt : Nat) (t : Tick) : State :=
  if !canRunning s n || canRole s n != 2 || !canOnBus s n then s
  else
    let s1 := if s.flag (R.canTtstat_SYNC n) && decide ((canRefLate s n).toInt ≤ t.toInt) then canSync s n false else s
    canSync (canCycle s1 n (cnt % 2 ^ s.fld (R.canTtcfg_NCYC_LOG2 n)) t false) n true

def execCanReferenceReceive (n : Fin 4) (cnt : BitVec 8) (t : Tick) (s : State) : Host.Outcome State Fault Refusal :=
  .next (canReference (s.at t) n.val cnt.toNat t)

/-- REF_TMO passes without a reference message: exclusive slots are silent (R411). -/
def canRefTimeout (s : State) (n : Nat) : State :=
  if !canRunning s n || canRole s n != 2 || !s.flag (R.canTtstat_SYNC n) then s
  else
    let s1 := canSync (s.at (canRefLate s n)) n false
    s1.setCanN n { s1.canN n with open_ := [], due := [] }

def execCanReferenceTimeout (n : Fin 4) (s : State) : Host.Outcome State Fault Refusal := .next (canRefTimeout s n.val)

/-- A window of the running cycle opens: an exclusive slot with a message is due (R410); a cancelled one skips this occurrence (R406). -/
def canWinStart (s : State) (n w : Nat) : State :=
  let x := s.canN n
  if !ttGoverns s n || !x.begun || !s.flag (R.canTtwA_EN n w) || !ttwIn s n w (s.fld (R.canTtstat_CYCLE n)) || x.open_.contains w then s
  else
    let s1 := (s.at (ttwStart s n w)).setCanN n { x with open_ := x.open_ ++ [w] }
    if !ttwExcl s n w then s1
    else
      let i := s.fld (R.canTtwA_SLOT n w)
      let sl := s1.canSlotS n i
      if sl.skip then s1.setCanSlotS n i { sl with skip := false }
      else if sl.msg.isSome then s1.setCanN n { s1.canN n with due := (s1.canN n).due ++ [i] } else s1

def execCanWindowStart (n : Fin 4) (w : Fin 32) (s : State) : Host.Outcome State Fault Refusal := .next (canWinStart s n.val w.val)

/-- A window ends: an exclusive slot that has not begun is missed (R410). -/
def canWinEnd (s : State) (n w : Nat) : State :=
  let x := s.canN n
  if !x.open_.contains w then s
  else
    let i := s.fld (R.canTtwA_SLOT n w)
    let s1 := (s.at (ttwEnd s n w)).setCanN n { x with open_ := x.open_.filter (· != w), due := if ttwExcl s n w then x.due.filter (· != i) else x.due }
    if ttwExcl s n w && x.due.contains i then
      let s2 := (s1.cntSat (R.canTtstat_MISSED n)).raiseLim 236 n 3#32 (100 * msTicks)
      match (s2.canSlotS n i).msg with
      | some m => canOutcome s2 n i m 4 false
      | none => s2
    else s1

def execCanWindowEnd (n : Fin 4) (w : Fin 32) (s : State) : Host.Outcome State Fault Refusal := .next (canWinEnd s n.val w.val)

/-! ### Receiving (R407, R408) -/

/-- The first enabled filter that matches an identifier. -/
def canFilter (s : State) (n : Nat) (ide : Bool) (id : Nat) : Option Nat :=
  findNat 32 (fun f => s.fld (R.canFltA_ACT n f) != 0 && s.flag (R.canFltA_IDE n f) == ide
    && (Nat.xor id (s.fld (R.canFltA_FID n f))) &&& s.fld (R.canFltB_MASK n f) == 0)

/-- The 20 words a stored frame takes in the receive ring (R407). -/
def canEntry (ide fdf brs esi rtr : Bool) (id dlc flt : Nat) (data : List Byte) (t : Tick) : List Word :=
  [wd (b2n ide * 2 ^ 31 + b2n fdf * 2 ^ 30 + b2n brs * 2 ^ 29 + id),
   wd (b2n esi * 2 ^ 31 + b2n rtr * 2 ^ 30 + flt * 2 ^ 24 + dlc * 2 ^ 20), lo32 t, hi32 t]
  ++ bytesWords (data.take 64 ++ List.replicate (64 - data.length) 0#8)

/-- A frame received without error, `t` its start-of-frame edge (R407). -/
def canReceive (s : State) (n : Nat) (ide fdf brs esi rtr : Bool) (id dlc : Nat) (data : List Byte) (t : Tick) : State :=
  if !canOnBus s n || (fdf && !s.flag (R.canCtrl_FDEN n)) then s
  else
    let bytes := if rtr then [] else data.take (dlcLen dlc fdf)
    let s1 := canRxGood ((s.setFlag (R.canStat_RX_DOM n) false).cntWrap (R.canCnt_RX_FRAMES n)) n
    let ref := !fdf && !rtr && decide (1 ≤ dlc) && ide == s.flag (R.canTtref_IDE n) && id == s.fld (R.canTtref_ID n)
    let s2 := if ref then canReference s1 n ((nth bytes 0 0#8).toNat) t else s1
    let s3 :=
      if s.flag (R.canCtrl_CMD_EN n) && ide == s.flag (R.canCmdid_IDE n) && id == s.fld (R.canCmdid_ID n) then
        (if s2.phase ≠ .ready then s2
         else if fdf then carrierArrive s2 (4 + n) .can (canRequestBytes bytes) else s2.cntSat (R.ringPort_BAD_LEN (4 + n)))
      else
        let f := canFilter s2 n ide id
        let keep := match f with
          | some k => s2.fld (R.canFltA_ACT n k) == 1
          | none => s2.flag (R.canCtrl_ACCEPT_ALL n)
        if keep then (ringPut s2 (60 + n) (canEntry ide fdf brs esi rtr id dlc (f.getD 63) bytes t) { words := 20 }).1
        else s2.cntSat (R.canCnt_FILTERED n)
    canFrameEnd s3 n

def execCanFrameReceive (n : Fin 4) (ide fdf brs esi rtr : Bool) (id : BitVec 29) (dlc : Fin 16) (data : List Byte) (t : Tick) (s : State) :
    Host.Outcome State Fault Refusal := .next (canReceive (s.at t) n.val ide fdf brs esi rtr id.toNat dlc.val data t)

/-! ### Registers and reset -/

/-- The wake of a controller in SLEEP (R412); a write of SLEEP in progress completes first (R413). -/
def canWake (s : State) (n : Nat) (sel : Bool) : State :=
  if s.fld (R.canWake_WMODE n) ≠ (if sel then 2 else 1) then s
  else
    let s0 := if (s.canN n).sleep then canSetMode s n 3 else s
    if canMode s0 n ≠ 3 then s
    else (canSetMode (s0.setFld (R.canCtrl_MODE n) 1) n 1).raise 237 n (if sel then 2#32 else 1#32)

/-- RESET_BLOCK of a controller: pending messages are discarded with outcome 5, its registers take their reset values (R118, R405). -/
def canReset (s : State) (n : Nat) : State :=
  let s1 := (List.range 16).foldl (fun t i => match (t.canSlotS n i).msg with
    | some m => canOutcome t n i m 5 (t.flag (R.canSlot_CANCEL_PEND n i))
    | none => t) s
  let lo := R.canCtrl n
  let s2 := ringClear (ringClear s1 (60 + n)) (12 + n)
  (s2.withRegs (s2.regs.filter (fun e => e.1 < lo || lo + 0x400 ≤ e.1))).withCan { s2.can with n := setAt s2.can.n n {} }

/-- A write of a register of the CAN block; none where the access codes alone decide (R399, R401, R409, R415). -/
def canBlockWrite (s : State) (a : Nat) (w : Word) : Option Res :=
  let n := (a - 0x1D0000) / 0x400
  let o := (a - 0x1D0000) % 0x400
  let off := s.fld (R.canCtrl_MODE n) == 0
  let ifOff (bad : Bool) : Option Res := if bad then some (refuse s stBAD_PARAM) else if off then none else some (refuse s stREFUSED_STATE)
  let ifStopped (bad : Bool) : Option Res :=
    if bad then some (refuse s stBAD_PARAM) else if canRunning s n then some (refuse s stREFUSED_STATE)
    else match regRow a with
      | none => none
      | some r => some { st := canSlotsShow (writeNow s r a w) n }
  if 0x1D1000 ≤ a then none
  else if o = 0x00 then some (canCtrlWrite s n w)
  else if o = 0x04 then ifOff (decide (bitsOf w 12 7 < bitsOf w 5 7) || bitsOf w 19 8 == 0)
  else if o = 0x08 then ifOff (decide (bitsOf w 8 4 < bitsOf w 0 4) || (s.flag (R.canCtrl_TDC_EN n) && decide (1 < bitsOf w 27 5)))
  else if o = 0x0C ∨ o = 0x10 ∨ o = 0x14 then ifOff false
  else if o = 0x18 then ifStopped false
  else if o = 0x1C then (if bitsOf w 30 2 = 3 ∨ bitsOf w 0 8 < 5 ∨ 50 < bitsOf w 0 8 then some (refuse s stBAD_PARAM) else none)
  else if o = 0x40 then ifStopped (bitsOf w 30 2 == 3 || bitsOf w 27 3 == 7 || bitsOf w 16 11 == 0 || decide (bitsOf w 0 16 < 100))
  else if 0x80 ≤ o ∧ o < 0x180 ∧ o % 8 = 0 then (if bitsOf w 30 2 = 3 then some (refuse s stBAD_PARAM) else none)
  else if 0x200 ≤ o ∧ o < 0x300 then ifStopped (decide (o % 8 = 0) && bitsOf w 23 3 == 7)
  else none

end Sys2Proof.Machine
end

