-- ==== Sys2Proof/Machine/Sward.lean ====
section
/-! DEFINITION. The Sward: ports, frames, classes and credits, routes, streams, fabric time, remote events and host frames
(17_sward_sheaf.md, R416 to R437). -/

namespace Sys2Proof.Machine

open Sys2Proof

/-! ### Ports (R416 to R418) -/

def swNode (s : State) : Nat := s.fld R.swardNode_NODE

/-- The link-local address (R429). -/
def swLocal : Nat := 0x3FFFF

/-- Bytes a frame is charged, and the credits it needs (R420, R426). -/
def swCharge (f : SwFrame) : Nat := 4 * (f.payload.length + 5) + 4
def swCredits (f : SwFrame) : Nat := (4 * (f.payload.length + 5) + 63) / 64

/-- The header words of a frame (R420). -/
def swHeader (f : SwFrame) : List Word :=
  let h := [wd (f.cls * 2 ^ 30 + f.dst * 2 ^ 12 + f.svc * 256 + f.ttl * 16 + b2n f.reed * 8), wd (f.seq * 2 ^ 18 + f.payload.length), wd (f.src * 2 ^ 14 + f.ack)]
  h ++ [crc32c h]

/-- A frame as words, with HCHECK and FCHECK (R420). -/
def swWords (f : SwFrame) : List Word := let b := swHeader f ++ f.payload; b ++ [crc32c b]

/-- A frame from its words. -/
def swFrameOf (ws : List Word) : SwFrame :=
  let w0 := nth ws 0 0#32
  let w1 := nth ws 1 0#32
  let w2 := nth ws 2 0#32
  { cls := bitsOf w0 30 2, dst := bitsOf w0 12 18, svc := bitsOf w0 8 4, ttl := bitsOf w0 4 4, reed := bitOf w0 3,
    seq := bitsOf w1 18 14, src := bitsOf w2 14 18, ack := bitsOf w2 0 14, payload := (ws.drop 4).take (bitsOf w1 0 9) }

/-- The service may use the class (R421). -/
def swClassOk (svc cls : Nat) : Bool :=
  match svc with
  | 0 => cls == 2 | 1 => cls == 2 | 2 => cls == 2 | 3 => cls == 1 | 4 => decide (cls ≤ 1) | 5 => cls == 0 | 6 => cls == 0 | 7 => cls == 3
  | 8 => true | _ => false

/-- A dropped frame: counted under its class, told at most once per port per 100 ms (R427). -/
def swDrop (s : State) (p cls reason : Nat) : State :=
  let f := match cls with
    | 0 => R.swardDrops_D0 p | 1 => R.swardDrops_D1 p | 2 => R.swardDrops_D2 p | _ => R.swardDrops_D3 p
  (s.cntSat f).raiseLim 242 p (wd (cls * 256 + reason)) (100 * msTicks)

/-- The upstream port and the hops to the root: the UP port whose neighbour reports the fewest, ties to the lower (R434). -/
def swUpstream (s : State) : State :=
  if s.flag R.swardNode_ROOT then (s.setFld R.swardFtstat_UPPORT 4).setFld R.swardFtstat_HOPS 0
  else
    let best := (List.range 4).foldl (fun b p =>
      let h := s.fld (R.swardPstat_NHOPS p)
      if swState s p = 2 ∧ h < 15 then (match b with
        | none => some (p, h)
        | some (q, k) => if h < k then some (p, h) else some (q, k)) else b) (none : Option (Nat × Nat))
    match best with
    | none => (s.setFld R.swardFtstat_UPPORT 4).setFld R.swardFtstat_HOPS 15
    | some (p, h) => (s.setFld R.swardFtstat_UPPORT p).setFld R.swardFtstat_HOPS (min 15 (h + 1))

/-- Credits owed to the neighbour for bytes that left a class buffer (R426). -/
def swOwe (s : State) (p : Nat) (f : SwFrame) : State :=
  if f.cls < 2 then s
  else
    let x := s.swPort p
    let i := f.cls - 2
    let o := nth x.owed i 0
    s.setSwPort p { x with owed := setAt x.owed i (o + swCredits f), owedAt := if o = 0 then setAt x.owedAt i s.dt else x.owedAt }

/-- A port takes a state (R418). -/
def swSetState (s : State) (p st : Nat) : State :=
  if swState s p = st then s else swUpstream ((s.setFld (R.swardPstat_STATE p) st).raise 240 p (wd st))

/-- A port goes DOWN: frames still queued are dropped and counted by class (R433). -/
def swDown (s : State) (p : Nat) : State :=
  let qs := (s.swPort p).queues.flatMap id
  let s1 := qs.foldl (fun t q =>
    let f := match q.f.cls with
      | 0 => R.swardDrops_D0 p | 1 => R.swardDrops_D1 p | 2 => R.swardDrops_D2 p | _ => R.swardDrops_D3 p
    let t1 := t.cntSat f
    match q.from_ with
    | some a => swOwe t1 a q.f
    | none => t1) s
  swSetState ((s1.setSwPort p { tag := (s.swPort p).tag }).setReg (R.swardCred p) 0#32) p 0

/-- HELLO exchanged both ways: the port is UP with the neighbour's credits (R418, R426). -/
def swUp (s : State) (p : Nat) : State :=
  let x := s.swPort p
  if swState s p = 1 ∧ x.helloSent ∧ x.helloGot then
    swSetState (s.setSwPort p { x with tokAt := s.dt }) p 2
  else s

/-- HELLO: address, port and hops of the neighbour, and its class 2 and 3 buffers in credits (R418, R426). -/
def swHello (s : State) (p addr nport hops c2 c3 : Nat) : State :=
  if !swLive s p || swState s p == 0 || swState s p == 3 then s
  else
    let s1 := ((s.setFld (R.swardPstat_NEIGH p) addr).setFld (R.swardPstat_NPORT p) nport).setFld (R.swardPstat_NHOPS p) hops
    let s2 := if s.fld (R.swardPstat_NEIGH p) = addr then s1 else s1.raise 246 p (wd addr)
    if swState s p = 1 then
      swUp ((((s2.setFld (R.swardCred_C2 p) c2).setFld (R.swardCred_C3 p) c3)).setSwPort p { s2.swPort p with helloGot := true }) p
    else swUpstream s2

def execHelloReceive (p : Fin 4) (addr : BitVec 18) (nport : Fin 4) (hops : Fin 16) (c2 c3 : BitVec 16) (s : State) : Host.Outcome State Fault Refusal :=
  .next (swHello s p.val addr.toNat nport.val hops.val c2.toNat c3.toNat)

/-- A frame as it left a port. -/
def swSent (s : State) (p : Nat) (f : SwFrame) : State := s.withSward { s.sward with sent := (p, f) :: s.sward.sent }

/-- The module's own HELLO (R418). -/
def swOwnHello (s : State) (p : Nat) : SwFrame :=
  { cls := 2, dst := swLocal, svc := 0, src := swNode s,
    payload := [wd (1 * 2 ^ 24 + p * 2 ^ 22 + s.fld R.swardFtstat_HOPS * 2 ^ 18 + swNode s), wd (512 * 65536 + 256)] }

/-- 128 good IDLE sets: training is complete and HELLO is sent (R418). -/
def swTrained (s : State) (p : Nat) : State :=
  if !swLive s p || swState s p != 1 then s
  else swUp (swSent (s.setSwPort p { s.swPort p with helloSent := true }) p (swOwnHello s p)) p

def execSwardTrainingDone (p : Fin 4) (s : State) : Host.Outcome State Fault Refusal := .next (swTrained s p.val)

/-- A neighbour's LEAVE: nothing more is sent on the link (R433). -/
def swLeaveGot (s : State) (p : Nat) : State := if swCarries s p then s.setSwPort p { s.swPort p with hush := true } else s

def execLeaveReceive (p : Fin 4) (s : State) : Host.Outcome State Fault Refusal := .next (swLeaveGot s p.val)

def execSwardLossOfSignal (p : Fin 4) (s : State) : Host.Outcome State Fault Refusal :=
  .next (if swState s p.val = 0 then s else swDown s p.val)

/-- More than 32 code errors within an epoch take the port DOWN (R418). -/
def swErrors (s : State) (p n : Nat) : State :=
  if swState s p = 0 ∨ !swLive s p then s
  else
    let e := (s.swPort p).errs + n
    let s1 := (s.setFld (R.swardCnt_SYMERR p) (satAdd 16 (s.fld (R.swardCnt_SYMERR p)) n)).setSwPort p { s.swPort p with errs := e }
    let s2 := if n = 0 then s1 else s1.raiseLim 241 p (wd e) (100 * msTicks)
    if 32 < e then swDown s2 p else s2

def execSwardSymbolErrorLimit (p : Fin 4) (n : BitVec 16) (s : State) : Host.Outcome State Fault Refusal := .next (swErrors s p.val n.toNat)

/-! ### Routes (R429 to R432) -/

/-- The table in force as (index, ADDR, PLEN, PORTS), rising by index. -/
def swTable (s : State) : List (Nat × Nat × Nat × Nat) :=
  (s.regs.filter (fun e => decide (0x1B1000 ≤ e.1) && decide (e.1 < 0x1B2000) && bitOf e.2 31)).map
    (fun e => ((e.1 - 0x1B1000) / 4, bitsOf e.2 0 18, bitsOf e.2 18 5, bitsOf e.2 24 5))

/-- A prefix covers an address. -/
def swMatches (addr plen dst : Nat) : Bool := dst / 2 ^ (18 - plen) == addr / 2 ^ (18 - plen)

/-- PORTS of the entry with the longest prefix that matches (R430). -/
def swLookup (s : State) (dst : Nat) : Option Nat :=
  ((swTable s).foldl (fun b e =>
    if swMatches e.2.1 e.2.2.1 dst then (match b with
      | none => some (e.2.2.1, e.2.2.2)
      | some (l, _) => if l < e.2.2.1 then some (e.2.2.1, e.2.2.2) else b) else b) (none : Option (Nat × Nat))).map (·.2)

/-- Where a frame goes (R430): ports SW0 to SW3, and local delivery; none where no route exists. A reply without a route
leaves on the port by which its request arrived. -/
def swRoute (s : State) (f : SwFrame) (arr : Option Nat) : Option (List Nat × Bool) :=
  if f.dst = swNode s ∨ f.dst = swLocal then some ([], true)
  else match swLookup s f.dst with
    | none =>
      if f.svc = 2 then (s.sward.via.find? (fun e => e.1 == f.dst)).map (fun e => ([e.2], false)) else none
    | some ports =>
      let ps := (List.range 4).filter (fun p => ports / 2 ^ p % 2 == 1 && arr != some p)
      let here := ports / 16 % 2 == 1
      if f.cls < 2 then some (ps, here)
      else match ps with
        | p :: _ => some ([p], false)
        | [] => if here then some ([], true) else none

/-- The table after a list of changes (R431): an entry with the same ADDR and PLEN is replaced. -/
def swApply (t : List (Nat × Nat × Nat)) : List (Nat × Nat × Nat × Nat) → List (Nat × Nat × Nat)
  | [] => t
  | (op, a, l, ps) :: rest =>
    let others := t.filter (fun e => !(e.1 == a && e.2.1 == l))
    swApply (if op = 2 then [] else if op = 1 then others
             else if t.any (fun e => e.1 == a && e.2.1 == l) then t.map (fun e => if e.1 == a && e.2.1 == l then (a, l, ps) else e)
             else t ++ [(a, l, ps)]) rest

/-- The entries in force without their places. -/
def swEntries (s : State) : List (Nat × Nat × Nat) := (swTable s).map (·.2)

/-- The register table rewritten. -/
def swWriteTable (s : State) (t : List (Nat × Nat × Nat)) : State :=
  let s1 := s.withRegs (s.regs.filter (fun e => e.1 < 0x1B1000 || 0x1B2000 ≤ e.1))
  ((List.range t.length).zip t).foldl (fun u e => u.setReg (R.swardRte e.1) (wd (2 ^ 31 + e.2.2.2 * 2 ^ 24 + e.2.2.1 * 2 ^ 18 + e.2.1))) s1

/-- SWARD_ROUTE (R431). -/
def opSwardRoute (r : Request) (s : State) : Res :=
  let op := bitsOf (r.p 0) 30 2
  let addr := bitsOf (r.p 0) 0 18
  let plen := bitsOf (r.p 1) 8 5
  let ports := bitsOf (r.p 1) 0 5
  let now := swApply (swEntries s) s.sward.staged
  if op = 3 ∨ bitsOf (r.p 0) 18 12 ≠ 0 ∨ bitsOf (r.p 1) 13 19 ≠ 0 ∨ bitsOf (r.p 1) 5 3 ≠ 0 ∨ 18 < plen ∨ addr % 2 ^ (18 - plen) ≠ 0 ∨ (op = 0 ∧ ports = 0) then
    refuse s stBAD_PARAM
  else if op = 0 ∧ !now.any (fun e => e.1 == addr && e.2.1 == plen) ∧ 1024 ≤ now.length then refuse s stRANGE
  else
    let s1 := s.withSward { s.sward with staged := s.sward.staged ++ [(op, addr, plen, ports)] }
    { st := s1.setFld R.swardRstat_STAGED s1.sward.staged.length }

/-- The reply is sent on acceptance, or with ACK_AT_APPLY held until the epoch boundary (R431). -/
def swRouteReply (r : Request) (x : Res) : State :=
  if stRefused x.status || !r.ackAtApply || r.noReply then respond r x
  else
    let s1 := portHeld x.st r
    s1.withSward { s1.sward with waits := s1.sward.waits ++ [r] }

def execSwardRoute (r : Request) (s : State) : Host.Outcome State Fault Refusal :=
  .next (if serving s && !s.boot.hold && s.reed == .running && s.phase == .ready && r.target == 0 && r.params.length == 2 then swRouteReply r (opSwardRoute r s)
         else serveReed r s (r.target == 0 && r.params.length == 2) (opSwardRoute r))

/-! ### Streams of classes 2 and 3 (R428) -/

/-- The sequence after one: 1 to 16,383. -/
def seqNext (n : Nat) : Nat := if n = 16383 then 1 else n + 1

def swTxOf (s : State) (peer cls : Nat) : Option SwTx := s.sward.tx.find? (fun x => x.peer == peer && x.cls == cls)
def swRxOf (s : State) (peer cls : Nat) : Option SwRx := s.sward.rx.find? (fun x => x.peer == peer && x.cls == cls)
def swPutTx (s : State) (x : SwTx) : State :=
  s.withSward { s.sward with tx := x :: s.sward.tx.filter (fun y => !(y.peer == x.peer && y.cls == x.cls)) }
def swPutRx (s : State) (x : SwRx) : State :=
  s.withSward { s.sward with rx := x :: s.sward.rx.filter (fun y => !(y.peer == x.peer && y.cls == x.cls)) }

/-- The stream takes one more frame: fewer than 16 are unacknowledged, and a new stream is at most the 64th of its class. -/
def swTxRoom (s : State) (peer cls : Nat) : Bool :=
  match swTxOf s peer cls with
  | some x => decide (x.una.length < 16)
  | none => decide ((s.sward.tx.filter (fun x => x.cls == cls)).length < 64)

/-- A frame of the module queued at one output, its wait starting now. -/
def swOut (s : State) (p : Nat) (f : SwFrame) (pinned : Bool) : State := swQueue s p { f := f, since := s.dt, pinned := pinned }

/-- A frame of class 2 or 3 enters its stream and is queued; `pin`: on that port whatever the routes say (R428, R436). Without
a route it is dropped with reason 3. -/
def swStream (s : State) (f : SwFrame) (pin : Option Nat) : State :=
  let port := match pin with
    | some p => some p
    | none => match swRoute s f none with
      | some (p :: _, _) => some p
      | _ => none
  match port with
  | none => swDrop s 0 f.cls 3
  | some p =>
    let x := (swTxOf s f.dst f.cls).getD { peer := f.dst, cls := f.cls }
    let g := { f with seq := x.next }
    let x1 : SwTx := { x with next := seqNext x.next, una := x.una ++ [(g, pin)], since := if x.una = [] then s.dt else x.since,
                              resends := if x.una = [] then 0 else x.resends, last := s.dt }
    let s1 := swPutTx s x1
    if swState s1 p = 2 then swOut s1 p g pin.isSome else s1

/-- A frame of class 0 or 1 of the module: to every port of its route (R430). -/
def swSend (s : State) (f : SwFrame) : State :=
  match swRoute s f none with
  | some (ps, _) => ps.foldl (fun t p => if swState t p = 2 then swOut t p f false else swDrop t p f.cls 3) s
  | none => swDrop s 0 f.cls 3

/-- An acknowledgement of a stream: everything up to that SEQ is delivered (R428). -/
def swAcked (s : State) (peer cls ack : Nat) : State :=
  match swTxOf s peer cls with
  | none => s
  | some x =>
    if x.una.any (fun e => e.1.seq == ack) then
      let rest := (x.una.dropWhile (fun e => e.1.seq != ack)).drop 1
      swPutTx s { x with una := rest, resends := 0, since := s.dt, last := s.dt }
    else s

/-- No acknowledgement for 2 ms: the stream resends from its oldest frame, or after 8 resends fails (R428). -/
def swResend (s : State) (peer cls : Nat) : State :=
  match swTxOf s peer cls with
  | none => s
  | some x =>
    if x.una = [] then s
    else
      let s0 := s.at (x.since + tk (2 * msTicks))
      if 8 ≤ x.resends then
        (s0.withSward { s0.sward with tx := s0.sward.tx.filter (fun y => !(y.peer == peer && y.cls == cls)) }).raise 243 cls (wd peer)
      else
        let s1 := swPutTx s0 { x with resends := x.resends + 1, since := s0.dt, last := s0.dt }
        x.una.foldl (fun t e =>
          let port := match e.2 with
            | some p => some p
            | none => match swRoute t e.1 none with
              | some (p :: _, _) => some p
              | _ => none
          match port with
          | some p => if swState t p = 2 then swOut t p e.1 e.2.isSome else t
          | none => t) s1

def execE2eRetransmitTimeout (peer : BitVec 18) (bulk : Bool) (s : State) : Host.Outcome State Fault Refusal :=
  .next (swResend s peer.toNat (if bulk then 3 else 2))

/-- A standalone LINK ACK where no reverse frame carried it (R428). -/
def swAckSend (s : State) (peer cls : Nat) : State :=
  match swRxOf s peer cls with
  | none => s
  | some x =>
    match x.due with
    | none => s
    | some _ =>
      let f : SwFrame := { cls := 2, dst := peer, svc := 0, src := swNode s, ack := x.got, payload := [wd cls] }
      swPutRx (if swState s x.port = 2 then swOut s x.port f true else s) { x with due := none, last := s.dt }

def execE2eAckSend (peer : BitVec 18) (bulk : Bool) (s : State) : Host.Outcome State Fault Refusal :=
  .next (swAckSend s peer.toNat (if bulk then 3 else 2))

/-- A stream without traffic for 1 s is forgotten (R428). -/
def swForget (s : State) (peer cls : Nat) (rx : Bool) : State :=
  if rx then match swRxOf s peer cls with
    | none => s
    | some x =>
      let t := s.at (x.last + tk (1000 * msTicks))
      t.withSward { t.sward with rx := t.sward.rx.filter (fun y => !(y.peer == peer && y.cls == cls)) }
  else match swTxOf s peer cls with
    | none => s
    | some x =>
      let t := s.at (x.last + tk (1000 * msTicks))
      t.withSward { t.sward with tx := t.sward.tx.filter (fun y => !(y.peer == peer && y.cls == cls)) }

def execStreamForget (peer : BitVec 18) (bulk rx : Bool) (s : State) : Host.Outcome State Fault Refusal :=
  .next (swForget s peer.toNat (if bulk then 3 else 2) rx)

/-! ### Fabric time and remote events (R434, R435) -/

/-- FT of an instant, exact (R434). -/
def ftExact (s : State) (t : Tick) : Rat := s.sward.ftB + ((t - s.sward.dtB).toInt : Rat) * (1 + s.sward.frate)

/-- FT of an instant in edge ticks. -/
def ftAt (s : State) (t : Tick) : Tick := BitVec.ofInt 64 (roundI (ftExact s t))

/-- The DT of a fabric time, to the nearest edge tick (R435). -/
def dtOfFt (s : State) (ft : Tick) : Tick :=
  s.sward.dtB + BitVec.ofInt 64 (roundI (((ft.toInt : Rat) - s.sward.ftB) / (1 + s.sward.frate)))

/-- FT_LOCK changes (R434). -/
def ftLock (s : State) (on : Bool) : State :=
  if s.flag R.swardFtstat_FT_LOCK = on then s else (s.setFlag R.swardFtstat_FT_LOCK on).raise 245 0 (wd (b2n on))

/-- Edge ticks of an epoch. -/
def epochTicks : Nat := msTicks

/-- The epoch number with given low 16 bits that lies nearest a fabric time. -/
def epochNear (ft : Rat) (e : Nat) : Int :=
  let k := roundI ((ft / (epochTicks : Rat) - (e : Rat)) / 65536)
  (e : Int) + 65536 * k

/-- An EPOCH set on the upstream port moves fabric time (R434). -/
def ftMark (s : State) (p e late : Nat) (t : Tick) : State :=
  if s.flag R.swardNode_ROOT ∨ s.fld R.swardFtstat_UPPORT ≠ p ∨ !swCarries s p then s
  else
    let x := s.sward
    let num := if x.marked then epochNear (ftExact s t) e else (e : Int)
    let want : Rat := ((num * epochTicks + late : Int) : Rat) + ((s.reg (R.swardDelay p)).toNat : Rat)
    let o := ftExact s t - want
    let step := !x.marked || decide (16000 ≤ absR o)
    let ft := ftExact s t
    let lim : Rat := 200 / 1000000
    let y : SwardS := if step then { x with dtB := t, ftB := want, marked := true }
      else { x with dtB := t, ftB := ft - o / 2, frate := clampR (-lim) lim (x.frate - o / (2 * msTicks : Nat)) }
    let good := if absR o ≤ 16 then x.good + 1 else 0
    let bad := if 64 < absR o then x.bad + 1 else 0
    let s1 := s.withSward { y with good := good, bad := bad, none_ := 0 }
    let s2 := s1.setFld R.swardFtstat_OFFSET (clampI (-32768) 32767 (roundI o) % 65536).toNat
    if 8 ≤ good then ftLock s2 true else if 4 ≤ bad then ftLock s2 false else s2

/-- An EPOCH mark of a linked port serves the trim of the RC oscillator (R58). -/
def epochSeen (s : State) (p : Nat) : State := if swCarries s p then s.withClk { s.clk with epoch := true } else s

def execEpochMarkReceive (p : Fin 4) (e late : BitVec 16) (t : Tick) (s : State) : Host.Outcome State Fault Refusal :=
  .next (ftMark (epochSeen (s.at t) p.val) p.val e.toNat late.toNat t)

/-- An EVENT frame at the latch units with SRCK 3 that name the event (R435, R240). -/
def eventFrame (s : State) (ev : Nat) (ft : Tick) : State :=
  (List.range 64).foldl (fun t u =>
    if t.fld (R.latchCfg_SRCK u) = 3 ∧ t.fld (R.latchCfg_SRC u) = ev ∧ t.flag (R.latchCfg_EN u) then
      (if t.flag R.swardFtstat_FT_LOCK then latchInstant t u true (dtOfFt t ft - tk (t.fld (R.latchDly_LDLY u))) else t.raise 147 u 1#32)
    else t) s

/-- Frames are received by a port that carries them; in coast none does (R66). -/
def execEventFrameReceive (ev : Fin 256) (ft : Tick) (s : State) : Host.Outcome State Fault Refusal :=
  .next (if swHears s then eventFrame s ev.val ft else s)

/-- A local event forwarded by every entry of `SWARD.EVFWD` that names it (R435), to this module too where its route says so (R430). -/
def evForward (s : State) (ev : Nat) (dt : Tick) : State :=
  (List.range 8).foldl (fun t i =>
    if t.flag (R.swardEvfwd_EN i) ∧ t.fld (R.swardEvfwd_EVENT i) = ev then
      let ft := ftAt t dt
      let f : SwFrame := { cls := 0, dst := t.fld (R.swardEvfwd_DST i), svc := 6, src := swNode t, payload := [wd ev, lo32 ft, hi32 ft] }
      match swRoute t f none with
      | some (_, true) => eventFrame (swSend t f) ev ft
      | _ => swSend t f
    else t) s

/-! ### Host frames (R436, R437) -/

/-- Words of the host receive buffer. -/
def hrxSize : Nat := 2048

/-- Words the buffer holds. -/
def hrxFill (s : State) : Nat := s.sward.ents.foldl (· + ·) 0

/-- A frame stored for the host; the flag tells whether it had room (R437). -/
def hrxPut (s : State) (f : SwFrame) : State × Bool :=
  let full := swWords f
  let ws := nth full 0 0#32 :: nth full 1 0#32 :: (f.payload ++ [nth full (full.length - 1) 0#32])
  if hrxSize < hrxFill s + ws.length then
    (if f.cls < 2 then s.cntSat R.swardHrxhead_HRX_DROPS else s, false)
  else
    let h := s.fld R.swardHrxhead_HEAD
    let mem := ((List.range ws.length).zip ws).foldl (fun m e => tblPut m ((h + e.1) % hrxSize) e.2 0#32) s.sward.hrx
    ((s.withSward { s.sward with hrx := mem, ents := s.sward.ents ++ [ws.length] }).setFld R.swardHrxhead_HEAD ((h + ws.length) % hrxSize), true)

/-- How many whole entries lie before a tail offset, where it falls on an entry boundary. -/
def hrxCut (tail w : Nat) : List Nat → Nat → Option Nat
  | [], k => if tail = w then some k else none
  | e :: es, k => if tail = w then some k else hrxCut ((tail + e) % hrxSize) w es (k + 1)

/-- A write of `SWARD.HRXTAIL` (R437). -/
def hrxTailWrite (s : State) (w : Word) : Res :=
  match hrxCut (s.fld R.swardHrxtail_TAIL) (bitsOf w 0 16) s.sward.ents 0 with
  | none => refuse s stBAD_PARAM
  | some k => { st := (s.withSward { s.sward with ents := s.sward.ents.drop k }).setReg R.swardHrxtail (w &&& 0xFFFF#32) }

def execSwardHrxtailWrite (w : Word) (s : State) : Host.Outcome State Fault Refusal := .next (hrxTailWrite s w).st

/-! ### Receiving (R421, R422, R427, R428, R430) -/

/-- A frame for this module handed to its service (R421); false where it must stay unacknowledged. -/
def swDeliver (s : State) (p : Nat) (f : SwFrame) (t : Tick) : State × Bool :=
  match f.svc with
  | 0 => (swAcked s f.src (bitsOf (nth f.payload 0 (wd f.cls)) 0 2) f.ack, true)
  | 1 => (carrierArrive (s.withSward { s.sward with via := (f.src, p) :: s.sward.via.filter (·.1 != f.src) }) 3 (.sward f.src f.reed) (wordBytes f.payload), true)
  | 2 => if f.reed then (s, true) else hrxPut s f
  | 3 => (if p < 2 ∧ telEn s ∧ bitsOf (setW s 7) 0 2 = 1 then telCopy s p (.sward f.src f.reed) (wordBytes f.payload) t else s, true)
  | 6 => (eventFrame s (bitsOf (nth f.payload 0 0#32) 0 8) (join64 (nth f.payload 1 0#32) (nth f.payload 2 0#32)), true)
  | 7 => hrxPut s f
  | 8 => hrxPut s f
  | _ => (s, true)

/-- Local delivery of a verified frame, in order and once for classes 2 and 3 (R428). -/
def swHere (s : State) (p : Nat) (f : SwFrame) (t : Tick) : State :=
  if f.svc = 0 then (swDeliver s p f t).1
  else if f.cls < 2 then (swDeliver s p f t).1
  else
    let s0 := if f.ack = 0 then s else swAcked s f.src f.cls f.ack
    match swRxOf s0 f.src f.cls with
    | none =>
      if 64 ≤ (s0.sward.rx.filter (fun x => x.cls == f.cls)).length then s0
      else if f.seq = 1 then
        let d := swDeliver s0 p f t
        if d.2 then swPutRx d.1 { peer := f.src, cls := f.cls, got := 1, due := some s.dt, port := p, last := s.dt } else d.1
      else swPutRx s0 { peer := f.src, cls := f.cls, due := some s.dt, port := p, last := s.dt }
    | some x =>
      let due := match x.due with
        | some u => some u
        | none => some s.dt
      if f.seq = seqNext x.got then
        let d := swDeliver s0 p f t
        if d.2 then swPutRx d.1 { x with got := f.seq, due := due, port := p, last := s.dt } else d.1
      else swPutRx s0 { x with due := due, port := p, last := s.dt }

/-- Bytes of a class that arrived by a port and still wait at an output. -/
def swHeld (s : State) (p cls : Nat) : Nat :=
  (s.sward.ports.flatMap (fun x => (nth x.queues cls []).filter (fun q => q.from_ == some p))).foldl (fun n q => n + 4 * (q.f.payload.length + 5)) 0

/-- A verified frame routed: delivered here, queued at its outputs, or dropped (R427, R430). -/
def swForward (s : State) (p : Nat) (f : SwFrame) (t : Tick) : State :=
  match swRoute s f (some p) with
  | none => swOwe (swDrop s p f.cls 3) p f
  | some (ps, here) =>
    let s1 := if here then swHere s p f t else s
    let up := ps.filter (fun q => swState s q == 2)
    if ps = [] then (if here then swOwe s1 p f else swOwe (swDrop s p f.cls 3) p f)
    else if f.ttl = 0 then swOwe (swDrop s1 p f.cls 7) p f
    else if up = [] then swOwe (swDrop s1 p f.cls 3) p f
    else if f.cls < 2 ∧ 8192 < swHeld s p f.cls + 4 * (f.payload.length + 5) then swDrop s1 p f.cls 1
    else up.foldl (fun u q => swQueue u q { f := { f with ttl := f.ttl - 1 }, from_ := some p, since := u.dt }) s1

/-- A frame between SOF and its end: `abort` EOFA (R417, R420 to R422). -/
def swReceive (s : State) (p : Nat) (ws : List Word) (abort : Bool) (t : Tick) : State :=
  if !swCarries s p then s
  else if abort then s.cntSat (R.swardCnt_ABORTS p)
  else
    let f := swFrameOf ws
    let len := bitsOf (nth ws 1 0#32) 0 9
    let badHead := ws.length < 4 || crc32c (ws.take 3) != nth ws 3 0#32 || !swClassOk f.svc f.cls || decide (259 < len)
      || bitsOf (nth ws 0 0#32) 0 3 != 0 || bitsOf (nth ws 1 0#32) 9 9 != 0
    let s1 := s.cntWrap (R.swardFrames_FRAMES p)
    if badHead then swDrop s1 p f.cls 5
    else if ws.length ≠ len + 5 ∨ crc32c ws.dropLast ≠ nth ws (ws.length - 1) 0#32 then swOwe (swDrop s1 p f.cls 6) p f
    else if f.svc = 0 then swOwe (swHere s1 p f t) p f
    else
      let s2 := if f.svc = 1 then s1.withSward { s1.sward with via := (f.src, p) :: s1.sward.via.filter (·.1 != f.src) } else s1
      swForward s2 p f t

def execSwardFrameReceive (p : Fin 4) (ws : List Word) (abort : Bool) (t : Tick) (s : State) : Host.Outcome State Fault Refusal :=
  .next (swReceive (s.at t) p.val ws abort t)

/-! ### Sending (R424 to R428, R436) -/

/-- A wait of 250 µs. -/
def swWait : Nat := 250 * usTicks

/-- Frames of classes 0 and 1 that have waited 250 µs at a node are dropped with reason 2 (R427). -/
def swWaitDrop (s : State) (p : Nat) : State :=
  [0, 1].foldl (fun t c =>
    let q := nth (t.swPort p).queues c []
    let old (e : SwQ) : Bool := decide (swWait ≤ (t.dt - e.since).toNat)
    let t1 := t.setSwPort p { t.swPort p with queues := setAt (t.swPort p).queues c (q.filter (fun e => !old e)) }
    (q.filter old).foldl (fun u e => swDrop u p e.f.cls 2) t1) s

def execSwardWaitDrop (p : Fin 4) (s : State) : Host.Outcome State Fault Refusal := .next (swWaitDrop s p.val)

/-- Replies of port 3 taken from ring 11 while their streams take them (R99). -/
def swPullReplies : Nat → State → State
  | 0, s => s
  | n + 1, s =>
    match ringEnts s 11 with
    | [] => s
    | e :: _ =>
      match e.origin with
      | .sward node reed =>
        if swTxRoom s node 2 then
          let f : SwFrame := { cls := 2, dst := node, svc := 2, reed := reed, src := swNode s, payload := ringTailWords s 11 }
          swPullReplies n (swStream (ringDrop s 11) f none)
        else s
      | _ => swPullReplies n (ringDrop s 11)

/-- The frame of a host entry (R436). -/
def swHostFrame (s : State) (c : Nat) (ws : List Word) : SwFrame :=
  let f := swFrameOf (nth ws 0 0#32 :: nth ws 1 0#32 :: 0#32 :: 0#32 :: (ws.drop 2).dropLast)
  { f with cls := c, src := swNode s, ttl := if f.ttl = 0 then 15 else f.ttl, seq := 0, ack := 0 }

/-- The oldest host entry of a ring taken: a bad one is discarded with reason 5 (R436). -/
def swPullHost (s : State) (p c : Nat) : State :=
  let n := 44 + 4 * p + c
  match ringEnts s n with
  | [] => s
  | _ =>
    let ws := ringTailWords s n
    let f := swHostFrame s c ws
    if crc32c ws.dropLast ≠ nth ws (ws.length - 1) 0#32 ∨ !(f.svc == 1 || f.svc == 7 || f.svc == 8) then swDrop (ringDrop s n) p c 5
    else if c < 2 then (if (nth (s.swPort p).queues c []).any (·.pinned) then s else swOut (ringDrop s n) p f true)
    else if swTxRoom s f.dst c then swStream (ringDrop s n) f (some p)
    else s

/-- The entry that places a frame in a transmit ring: its words 0 and 1, its payload, a check word (R436). -/
def swEntry (f : SwFrame) : List Word := let b := (swHeader f).take 2 ++ f.payload; b ++ [crc32c b]

/-- Readout entries with DEST 3 as CAPTURE frames (R437), which Reed places in the bulk transmit ring of the port that leads to
`SWARD.INK`; while the ring has no room they wait, and their readout with them (R101, R106). -/
def swPullInk : Nat → State → State
  | 0, s => s
  | n + 1, s =>
    match s.ink.toSward with
    | [] => s
    | e :: es =>
      let f : SwFrame := { cls := 3, dst := s.fld R.swardInk_INK_DST, svc := 7, src := swNode s, payload := e }
      let t := s.withInk { s.ink with toSward := es }
      match swRoute s f none with
      | some (p :: _, _) =>
        let ws := swEntry f
        if s.flag (R.ringCtrl_EN (47 + 4 * p)) && decide (ws.length ≤ ringFree s (47 + 4 * p)) then
          swPullInk n (ringStore t (47 + 4 * p) ws { words := ws.length })
        else s
      | _ => swPullInk n (swDrop t 0 3 3)

/-- What waits for a port enters its queues. -/
def swPull (s : State) (p : Nat) : State :=
  let s1 := swPullReplies (ringEnts s 11).length s
  inkPump ([0, 1, 2, 3].foldl (fun t c => swPullHost t p c) (swPullInk s1.ink.toSward.length s1))

/-- RES of a class in force: bytes per epoch (R425). -/
def swRes (s : State) (p c : Nat) : Nat :=
  bitsOf (s.frc (match c with | 0 => R.swardRes0 p | 1 => R.swardRes1 p | _ => R.swardRes2 p)) 0 19

/-- The token buckets brought up to now (R424). -/
def swFillTokens (s : State) (p : Nat) : State :=
  let x := s.swPort p
  let el : Rat := ((s.dt - x.tokAt).toNat : Rat) / (epochTicks : Rat)
  s.setSwPort p { x with tokAt := s.dt, tok := (List.range 3).map (fun c => min 4240 (nth x.tok c 0 + (swRes s p c : Rat) * el)) }

/-- Credits held for a class. -/
def swCredField (p cls : Nat) : RF := if cls = 2 then R.swardCred_C2 p else R.swardCred_C3 p

/-- The class whose first frame goes next, and whether it takes its charge from its bucket (R424). -/
def swPick (s : State) (p : Nat) : Option (Nat × Bool) :=
  let x := s.swPort p
  let head (c : Nat) : Option SwQ := (nth x.queues c []).head?
  let bucket (c : Nat) : Bool := match head c with
    | some q => decide ((swCharge q.f : Rat) ≤ nth x.tok c 0)
    | none => false
  let cred (c : Nat) : Bool := match head c with
    | some q => decide (swCredits q.f ≤ s.fld (swCredField p c))
    | none => false
  if bucket 0 then some (0, true)
  else if bucket 1 then some (1, true)
  else if bucket 2 && cred 2 then some (2, true)
  else if cred 3 then some (3, false)
  else if cred 2 then some (2, false)
  else none

/-- A frame of the module carries the acknowledgement of the reverse stream (R428). -/
def swFillAck (s : State) (f : SwFrame) : State × SwFrame :=
  if f.svc = 0 ∨ f.src ≠ swNode s then (s, f)
  else match swRxOf s f.dst f.cls with
    | none => (s, f)
    | some x => (swPutRx s { x with due := none, last := s.dt }, { f with ack := x.got })

/-- The port's link is free: the first frame that qualifies leaves (R424). -/
def swTransmit (s : State) (p : Nat) : State :=
  if !swCarries s p || (s.swPort p).hush then s
  else
    let s1 := swFillTokens (swWaitDrop (if swState s p = 2 then swPull s p else s) p) p
    match swPick s1 p with
    | none => s1
    | some (c, bucket) =>
      let x := s1.swPort p
      match nth x.queues c [] with
      | [] => s1
      | q :: rest =>
        let s2 := s1.setSwPort p { x with queues := setAt x.queues c rest,
                                          tok := if bucket then setAt x.tok c (nth x.tok c 0 - (swCharge q.f : Rat)) else x.tok }
        let s3 := if c < 2 then s2 else s2.setFld (swCredField p c) (s2.fld (swCredField p c) - swCredits q.f)
        let a := swFillAck s3 q.f
        let s4 := swSent a.1 p a.2
        match q.from_ with
        | some i => swOwe s4 i q.f
        | none => s4

def execSwardTransmit (p : Fin 4) (t : Tick) (s : State) : Host.Outcome State Fault Refusal := .next (swTransmit (s.at t) p.val)

/-- CRED returns credits (R426). -/
def swCredit (s : State) (p cls k : Nat) : State :=
  if swCarries s p then s.setFld (swCredField p cls) (satAdd 16 (s.fld (swCredField p cls)) k) else s

def execCredReceive (p : Fin 4) (bulk : Bool) (k : BitVec 8) (s : State) : Host.Outcome State Fault Refusal :=
  .next (swCredit s p.val (if bulk then 3 else 2) k.toNat)

/-- An ordered set as it left a port. -/
def swSet (s : State) (p : Nat) (x : SwSet) : State := s.withSward { s.sward with sets := (p, x) :: s.sward.sets }

/-- A CRED is sent once 8 credits of a class are owed, or 1 µs after the first (R417). -/
def swCredSend (s : State) (p : Nat) : State :=
  if !swCarries s p || (s.swPort p).hush then s
  else [0, 1].foldl (fun t i =>
    let x := t.swPort p
    let o := nth x.owed i 0
    let k := min o 255
    if o ≠ 0 ∧ (8 ≤ o ∨ usTicks ≤ (t.dt - nth x.owedAt i 0).toNat) then
      swSet (t.setSwPort p { x with owed := setAt x.owed i (o - k) }) p (.cred (2 + i) k)
    else t) s

def execCredSend (p : Fin 4) (t : Tick) (s : State) : Host.Outcome State Fault Refusal := .next (swCredSend (s.at t) p.val)

/-! ### Link delay (R419) -/

/-- A DREQ with the next tag. -/
def dreqSend (s : State) (p : Nat) (t : Tick) : State :=
  if swState s p ≠ 2 ∨ !swLive s p then s
  else
    let x := s.swPort p
    let tag := (x.tag + 1) % 256
    swSet (s.setSwPort p { x with tag := tag, dreqAt := some t }) p (.dreq tag)

def execDreqSend (p : Fin 4) (t : Tick) (s : State) : Host.Outcome State Fault Refusal := .next (dreqSend (s.at t) p.val t)

/-- The answer to a DREQ that arrived at `arr`, its K28.2 at `t`. -/
def dreqAnswer (s : State) (p tag : Nat) (arr t : Tick) : State :=
  if swState s p ≠ 2 ∨ !swLive s p then s else swSet s p (.drsp tag ((t - arr).toNat % 65536))

def execDreqReceive (p : Fin 4) (tag : BitVec 8) (arr t : Tick) (s : State) : Host.Outcome State Fault Refusal :=
  .next (dreqAnswer (s.at t) p.val tag.toNat arr t)

/-- A DRSP to the last DREQ gives a delay; DELAY shows the mean of the last 16 (R419). -/
def drspTake (s : State) (p tag turn : Nat) (t : Tick) : State :=
  let x := s.swPort p
  match x.dreqAt with
  | none => s
  | some t0 =>
    if swState s p ≠ 2 ∨ !swLive s p ∨ x.tag ≠ tag then s
    else
      let ds := (((t - t0).toInt - (turn : Int)) / 2 :: x.delays).take 16
      (s.setSwPort p { x with dreqAt := none, delays := ds }).setReg (R.swardDelay p) (wdInt (ds.foldl (· + ·) 0 / (max 1 ds.length : Nat)))

def execDrspReceive (p : Fin 4) (tag : BitVec 8) (turn : BitVec 16) (t : Tick) (s : State) : Host.Outcome State Fault Refusal :=
  .next (drspTake (s.at t) p.val tag.toNat turn.toNat t)

/-! ### Epoch boundaries (R432) -/

/-- Queued frames the new table no longer sends to this output are dropped with reason 4. -/
def swRequeue (s : State) (p : Nat) : State :=
  [0, 1, 2, 3].foldl (fun t c =>
    let q := nth (t.swPort p).queues c []
    let stays (e : SwQ) : Bool := e.pinned || (match swRoute t e.f e.from_ with
      | some (ps, _) => ps.contains p
      | none => false)
    let t1 := t.setSwPort p { t.swPort p with queues := setAt (t.swPort p).queues c (q.filter stays) }
    (q.filter (fun e => !stays e)).foldl (fun u e =>
      let u1 := swDrop u p e.f.cls 4
      match e.from_ with
      | some a => swOwe u1 a e.f
      | none => u1) t1) s

/-- Reservations written since the last boundary take effect (R425). -/
def swResApply (s : State) (p : Nat) : State :=
  [R.swardRes0 p, R.swardRes1 p, R.swardRes2 p].foldl (fun t a => t.setFrc a (t.reg a)) (swFillTokens s p)

/-- Replies held until the boundary (R431). -/
def swReplies (s : State) : State :=
  s.sward.waits.foldl (fun t r => heldAnswer t r stOK 0 []) (s.withSward { s.sward with waits := [] })

/-- A whole millisecond of fabric time at instant `t` (R425, R432 to R434). -/
def swEpoch (s : State) (t : Tick) : State :=
  let s0 := s.setReg R.swardEpoch (wdInt (roundI (ftExact s t / (epochTicks : Rat))))
  let staged := s0.sward.staged
  let res := (List.range 4).any (fun p => [R.swardRes0 p, R.swardRes1 p, R.swardRes2 p].any (fun a => s0.reg a != s0.frc a))
  let s1 := if staged = [] then s0 else swWriteTable (s0.withSward { s0.sward with staged := [] }) (swApply (swEntries s0) staged)
  let s2 := (s1.setFld R.swardRstat_STAGED 0).setFld R.swardRstat_IN_FORCE (swTable s1).length
  let s3 := if staged = [] then s2 else (List.range 4).foldl swRequeue s2
  let s4 := (List.range 4).foldl swResApply s3
  let s5 := if staged ≠ [] ∨ res then s4.raise 244 0 (wd (swTable s4).length) else s4
  let s6 := swReplies s5
  let s7 := (List.range 4).foldl (fun u p => if swState u p = 3 then swDown u p else u.setSwPort p { u.swPort p with errs := 0 }) s6
  let root := s7.flag R.swardNode_ROOT
  let n := s7.sward.none_ + 1
  let s8 := if root then s7 else s7.withSward { s7.sward with none_ := n }
  let s9 := if !root && decide (4 ≤ n) then ftLock s8 false else s8
  (List.range 4).foldl (fun u p =>
    if swState u p = 2 ∧ swLive u p ∧ (root ∨ s9.fld R.swardFtstat_UPPORT ≠ p) then swSet u p (.epoch (s9.fld R.swardEpoch_EPOCH % 65536) 0) else u) s9

def execSwardEpochBoundary (t : Tick) (s : State) : Host.Outcome State Fault Refusal := .next (swEpoch (s.at t) t)

/-! ### Commands and registers (R425, R429, R433, R449) -/

/-- SWARD_JOIN (R429, R433). -/
def opSwardJoin (r : Request) (s : State) : Res :=
  let p := r.target
  if 3 < p then refuse s stRANGE
  else if !nodeRuns s (21 + p) then refuse s stNOT_READY
  else if swNode s = 0 then refuse s stREFUSED_STATE
  else { st := if swState s p = 0 then swSetState s p 1 else s }

def execSwardJoin (r : Request) (s : State) : Host.Outcome State Fault Refusal := .next (serveReed r s r.params.isEmpty (opSwardJoin r))

/-- SWARD_LEAVE (R433): graceful, or at once. -/
def opSwardLeave (r : Request) (s : State) : Res :=
  let p := r.target
  let s0 := swSetState s p 3
  let s1 := if swLive s p then swSent s0 p { cls := 2, dst := swLocal, svc := 0, src := swNode s, payload := [2 <<< 24] } else s0
  if 3 < p then refuse s stRANGE
  else if bitsOf (r.p 0) 1 31 ≠ 0 then refuse s stBAD_PARAM
  else if !nodeRuns s (21 + p) then refuse s stNOT_READY
  else if bitOf (r.p 0) 0 then { st := if swState s p = 0 then s else swDown s p }
  else { st := if swState s p = 2 then s1 else if swState s p = 1 then swDown s p else s }

def execSwardLeave (r : Request) (s : State) : Host.Outcome State Fault Refusal := .next (serveReed r s (r.params.length == 1) (opSwardLeave r))

/-- ROOT changes: a root's fabric time is device time (R434). -/
def swSetRoot (s : State) (on : Bool) : State :=
  let s1 := s.setFlag R.swardNode_ROOT on
  swUpstream (if on then s1.withSward { s1.sward with dtB := 0, ftB := 0, frate := 0, marked := true } else s1.withSward { s1.sward with marked := s.sward.marked && !s.flag R.swardNode_ROOT })

/-- A write of `SWARD.NODE` (R429). -/
def swNodeWrite (s : State) (w : Word) : Res :=
  if bitsOf w 0 18 = swLocal then refuse s stBAD_PARAM
  else if (List.range 4).any (fun p => swState s p != 0) then refuse s stREFUSED_STATE
  else { st := swSetRoot (s.setFld R.swardNode_NODE (bitsOf w 0 18)) (bitOf w 31) }

def execSwardNodeWrite (w : Word) (s : State) : Host.Outcome State Fault Refusal := .next (swNodeWrite s w).st

/-- A write of a reservation (R425): the port's three sum to at most 270,000. -/
def swResWrite (s : State) (p c : Nat) (w : Word) : Res :=
  let a (i : Nat) : Nat := match i with | 0 => R.swardRes0 p | 1 => R.swardRes1 p | _ => R.swardRes2 p
  let v := bitsOf w 0 19
  let sum := (List.range 3).foldl (fun n i => n + (if i = c then v else bitsOf (s.reg (a i)) 0 19)) 0
  if 270000 < sum then refuse s stOVERSUBSCRIBED else { st := s.setReg (a c) (wd v) }

def execSwardResWrite (p : Fin 4) (c : Fin 3) (w : Word) (s : State) : Host.Outcome State Fault Refusal :=
  .next (regRowWrite s (R.swardRes0 p.val) (swResWrite s p.val c.val w))

/-- RESET_BLOCK of a port: its reset state, and it relinks (R118). -/
def swReset (s : State) (p : Nat) : State :=
  let was := swState s p
  let s1 := if was = 0 then s else swDown s p
  let lo := R.swardPstat p
  let s2 := (s1.withRegs (s1.regs.filter (fun e => e.1 < lo || lo + 0x40 ≤ e.1))).withForce (s1.force.filter (fun e => e.1 < lo || lo + 0x40 ≤ e.1))
  if was = 0 ∨ swNode s2 = 0 then s2 else swSetState s2 p 1

/-- A write of a register of the SWARD and SHEAF block; none where the access codes alone decide. -/
def swardBlockWrite (s : State) (a : Nat) (w : Word) : Option Res :=
  let p := (a - 0x1B0100) / 0x40
  if a = R.swardNode then some (swNodeWrite s w)
  else if a = R.swardHrxtail then some (hrxTailWrite s w)
  else if 0x1B0100 ≤ a ∧ a < 0x1B0200 ∧ (a - 0x1B0100) % 0x40 ∈ [4, 8, 12] then some (swResWrite s p ((a - 0x1B0100) % 0x40 / 4 - 1) w)
  else none

end Sys2Proof.Machine
end

