-- ==== Sys2Proof/Machine/Sheaf.lean ====
section
/-! DEFINITION. The Sheaf: roles, beacons and status frames, carrier alignment, links between modules, departures, mirrors, the
lead supervision and the takeover (17_sward_sheaf.md, R438 to R448). -/

namespace Sys2Proof.Machine

open Sys2Proof

def sheafRole (s : State) : Nat := s.fld R.sheafCfg_ROLE
def sheafState (s : State) : Nat := s.fld R.sheafStat_STATE
def sheafSlot (s : State) : Nat := s.fld R.sheafCfg_SLOT
def sheafNode (s : State) (slot : Nat) : Nat := s.fld R.sheafCfg_BASE + slot
def sheafMember (s : State) (slot : Nat) : Bool := s.fld ⟨R.sheafStat, slot, 1⟩ == 1
def sheafSetMember (s : State) (slot : Nat) (on : Bool) : State := if slot < 16 then s.setFlag ⟨R.sheafStat, slot, 1⟩ on else s

/-- `SHEAF.STAT.STATE` changes (R439, R448): 0 ALONE, 1 ALIGNING, 2 JOINED, 3 DEPOSED. -/
def sheafTake (s : State) (st : Nat) : State :=
  let old := sheafState s
  if old = st then s else (s.setFld R.sheafStat_STATE st).raise 247 0 (wd (old * 16 + st))

/-- TG0 must keep running with a committed context while the role is MASTER or STANDBY (R438). -/
def sheafHolds (s : State) : Bool := sheafRole s == 1 || sheafRole s == 2

/-- TG0 holds a committed context, `but` apart. -/
def tg0Committed (s : State) (but : Option Nat) : Bool :=
  s.slots.any (fun k => (s.ctx k).grp == 0 && inCommitted s k && but != some k)

/-- A master lets LEAD_N go: it becomes DEPOSED and its groups go OFF (R445). -/
def sheafRelease (s : State) : State :=
  if sheafRole s = 1 ∧ s.flag R.sheafStat_LEAD then groupsOff (sheafTake (s.setFlag R.sheafStat_LEAD false) 3) else s

/-! ### Links between modules (R441, R442) -/

/-- The consumers of a link of another module. -/
def farUsers (s : State) (v : Nat) : List Nat :=
  s.slots.filter (fun k => (farLinks s (s.ctx k).kind (curBind s k)).contains v)

/-- A link is stale: its consumers read it as not valid, and SHEAF_LINK_STALE is raised (R441). -/
def farStale (s : State) (v : Nat) : State :=
  match s.sheaf.remote.find? (fun r => r.v == v) with
  | none => s
  | some r =>
    if r.stale then s
    else
      let s1 := s.withSheaf { s.sheaf with remote := s.sheaf.remote.map (fun x => if x.v = v then { x with stale := true } else x) }
      (farUsers s v).foldl (fun t k => t.raise 251 k (wd v)) s1

/-- A pass that starts finds a link whose last arrival is older than four pass periods of its producer (R441). -/
def farAge (s : State) (v : Nat) : State :=
  match s.sheaf.remote.find? (fun r => r.v == v) with
  | none => s
  | some r => if 4 * r.per < (s.dt - r.at_).toNat then farStale s v else s

/-- Links from a module, or from every other one, are stale at a boundary of group `g` (R442). -/
def linkCut (s : State) (g : Nat) (m : Option Nat) : State :=
  (s.sheaf.remote.map (·.v)).foldl (fun t v =>
    if (m == none || m == some (v / 256 - 1)) && (farUsers t v).any (fun k => (t.ctx k).grp == g) then farStale t v else t) s

/-- The links from a module, or from every other one, will be stale from the next boundary of each group on. -/
def cutLinks (s : State) (m : Option Nat) : State :=
  (List.range 8).foldl (fun t g => addPend t g (dueNext t g) false (.linkCut m)) s

/-- A binding names a producer of another module it may read (R441): both joined, the consumer's group aligned. -/
def farOk (s : State) (v g : Nat) : Bool :=
  let m := v / 256 - 1
  sheafState s == 2 && sheafMember s m && m != sheafSlot s && (sheafRole s == 1 || s.fld ⟨R.sheafAlign, g, 1⟩ == 1)

/-- A LINK_DATA frame: the last arrival replaces the one before as one unit, its FT referred to local DT (R441, R273). -/
def linkData (s : State) (v : Nat) (ft : Tick) (per : Nat) (out : List Word) : State :=
  let m := v / 256 - 1
  if sheafState s ≠ 2 ∨ v < 256 ∨ 0x10FF < v ∨ m = sheafSlot s then s
  else
    let t := dtOfFt s ft
    let r : Remote := { v := v, ft := ft, at_ := s.dt, per := per, out := lo32 t :: hi32 t :: out.drop 2 }
    s.withSheaf { s.sheaf with remote := r :: s.sheaf.remote.filter (fun x => x.v != v) }

def execLinkDataReceive (v : BitVec 16) (ft : Tick) (per : Word) (out : List Word) (t : Tick) (s : State) : Host.Outcome State Fault Refusal :=
  .next (linkData (s.at t) v.toNat ft per.toNat out)

/-- Words cut into payloads of at most 259 words. -/
def payloads : Nat → List Word → List (List Word)
  | 0, _ => []
  | fuel + 1, ws => if ws.length ≤ 259 then [ws] else ws.take 259 :: payloads fuel (ws.drop 259)

/-- The pass period of a context in edge ticks. -/
def passTicks (s : State) (slot : Nat) : Nat :=
  let gs := s.grp (s.ctx slot).grp
  (if gs.du then gs.len / 2 else gs.len) * max 1 (s.ctx slot).effDiv

/-- At a commit the producer sends its output to every module that consumes it (R441). -/
def linkSend (s : State) (slot : Nat) (t : Tick) : State :=
  if sheafState s ≠ 2 then s
  else
    let ft := ftAt s t
    let ws := [wd slot, lo32 ft, hi32 ft, wd (passTicks s slot)] ++ (s.ctx slot).out
    (s.sheaf.users.filter (fun u => u.2 == slot)).foldl
      (fun u e => swSend u { cls := 0, dst := sheafNode u e.1, svc := 5, src := swNode u, payload := ws.take 259 }) s

/-! ### Roles, joins and departures (R438, R439, R442) -/

/-- This module departs: its axes make a fault stop with cause 2 and its links are stale at the next boundaries (R442). -/
def sheafDepart (s : State) : State :=
  let axes := s.slots.filter (fun k => (s.ctx k).kind == 7 || (s.ctx k).kind == 8)
  let s1 := axes.foldl (fun t k => addPend t (t.ctx k).grp (dueNext t (t.ctx k).grp) false (.ctxCmd k 0x138 [])) s
  let s2 := (sheafTake (cutLinks s1 none) 0).cntSat R.sheafCnt_DEPARTS
  ((s2.setFld R.sheafStat_MEMBERS 0).setFld R.sheafAlign_ALIGNED 0).withSheaf { s2.sheaf with leaving := false, joinSent := false, users := [], beaconAt := none, beacon := [] }

/-- The master takes a module out (R442, R448). -/
def sheafDrop (s : State) (slot : Nat) : State :=
  if !sheafMember s slot then s
  else
    let x := s.sheaf
    let s1 := s.withSheaf { x with seen := x.seen.filter (fun e => e.1 != slot), joins := x.joins.filter (fun e => e.1 != slot),
                                         leaves := x.leaves.filter (· != slot), users := x.users.filter (fun e => e.1 != slot),
                                         standby := if x.standby = some slot then none else x.standby }
    ((cutLinks (sheafSetMember s1 slot false) (some slot)).cntSat R.sheafCnt_DEPARTS).raise 248 slot 0#32

/-- SHEAF_ROLE (R438). -/
def opSheafRole (r : Request) (s : State) : Res :=
  let role := bitsOf (r.p 0) 30 2
  let base := bitsOf (r.p 0) 0 18
  let mst := bitsOf (r.p 1) 0 18
  let node := swNode s
  if bitsOf (r.p 0) 18 12 ≠ 0 ∨ bitsOf (r.p 1) 18 14 ≠ 0 ∨ base % 16 ≠ 0 ∨ node ≠ base + sheafSlot s
      ∨ (2 ≤ role ∧ (mst < base ∨ base + 15 < mst ∨ mst = node)) then refuse s stBAD_PARAM
  else if (List.range 8).any (fun g => grpState s g != 0) ∨ s.flag R.nibSync_IN_EN ∨ (role = 2 ∧ s.flag R.timeCfg_DISC)
      ∨ ((role = 1 ∨ role = 2) ∧ ((s.grp 0).p = 0 ∨ !tg0Committed s none)) then refuse s stREFUSED_STATE
  else
    let was := sheafState s
    let s1 := (s.setFlag R.sheafStat_LEAD (decide (role = 1))).setFld R.sheafCfg_ROLE role
    let s2 := s1.withSheaf { s1.sheaf with leaving := false, joinSent := false, check := none, took := false, joins := [], leaves := [], standby := none, seen := [],
                                                 near := List.replicate 8 0, far := List.replicate 8 0, mirrors := [], beacon := [], beaconAt := none }
    if role = 0 then { st := if was = 2 then s2.withSheaf { s2.sheaf with leaving := true } else sheafTake s2 0 }
    else
      let s3 := (s2.setFld R.sheafCfg_BASE base).setFld R.sheafMaster_MASTER (if role = 1 then node else mst)
      let s4 := (s3.setFld R.sheafAlign_ALIGNED 0).setFld R.sheafStat_MEMBERS 0
      if role = 1 then { st := sheafTake (sheafSetMember (swSetRoot s4 true) (sheafSlot s) true) 2 }
      else { st := sheafTake s4 1 }

def execSheafRole (r : Request) (s : State) : Host.Outcome State Fault Refusal :=
  .next (serveReed r s (r.target == 0 && r.params.length == 2) (opSheafRole r))

/-- The answer of a master to a join, in a frame of its own. -/
def sheafAnswer (s : State) (slot : Nat) (ok : Bool) : State :=
  swSend s { cls := 1, dst := sheafNode s slot, svc := 4, src := swNode s, payload := [wd (2 * 65536 + b2n ok)] }

/-- A join decided at a Sheaf epoch (R439): refused for a SLOT that is present and for a second standby. -/
def sheafJoin (s : State) (slot : Nat) (standby : Bool) : State :=
  if sheafMember s slot || (standby && s.sheaf.standby.isSome) then sheafAnswer (s.raise 248 slot 2#32) slot false
  else
    let s1 := s.withSheaf { s.sheaf with seen := (slot, s.dt) :: s.sheaf.seen.filter (fun e => e.1 != slot),
                                               standby := if standby then some slot else s.sheaf.standby }
    sheafAnswer ((sheafSetMember s1 slot true).raise 248 slot 1#32) slot true

/-- A Sheaf epoch (R439, R442, R447): departures first, then joins. -/
def sheafEpoch (s : State) : State :=
  if s.fld R.swardEpoch_EPOCH % 16 ≠ 0 then s
  else
    let s0 := if s.sheaf.leaving && sheafState s == 2 then sheafDepart s else s
    if sheafRole s0 = 1 ∧ sheafState s0 = 2 then
      let joins := s0.sheaf.joins.filter (fun e => !s0.sheaf.leaves.contains e.1)
      let s1 := s0.sheaf.leaves.foldl sheafDrop s0
      joins.foldl (fun t e => sheafJoin t e.1 e.2) (s1.withSheaf { s1.sheaf with joins := [], leaves := [] })
    else s0

def execSheafEpoch (s : State) : Host.Outcome State Fault Refusal := .next (sheafEpoch s)

/-- The groups of this module that have the master's period are aligned (R439, R440). -/
def sheafAligned (s : State) : Bool :=
  s.flag R.swardFtstat_FT_LOCK && decide (s.sheaf.beaconAt ≠ none)
  && s.sheaf.beacon.all (fun e => (s.grp e.1).p != e.2.1 || s.fld ⟨R.sheafAlign, e.1, 1⟩ == 1)

/-- Links this module's contexts read from a module of the Sheaf. -/
def farFrom (s : State) (m : Nat) : List Nat :=
  ((s.slots.flatMap (fun k => farLinks s (s.ctx k).kind (curBind s k))).filter (fun v => v / 256 - 1 == m)).eraseDups

/-- The beacon of a master, which from a takeover on carries it, or the status and join frames of another module (R439, R440, R442). -/
def sheafBeaconSend (s : State) : State :=
  let others := (List.range 16).filter (fun m => sheafMember s m && m != sheafSlot s)
  let frame (t : State) (dst : Nat) (ws : List Word) : State := swSend t { cls := 1, dst := dst, svc := 4, src := swNode t, payload := ws }
  if sheafRole s = 1 ∧ sheafState s = 2 then
    let grps := ((List.range 8).filter (fun g => (s.grp g).p != 0)).flatMap (fun g =>
      let ft := ftAt s (s.grp g).zeroAt
      [wd g, wd (s.grp g).p, lo32 ft, hi32 ft])
    let ws := wd (b2n s.sheaf.took * 65536 + s.fld R.sheafStat_MEMBERS) :: grps
    ((List.range 16).filter (· != sheafSlot s)).foldl (fun t m => frame t (sheafNode t m) ws) s
  else if 2 ≤ sheafRole s ∧ (sheafState s = 1 ∨ sheafState s = 2) then
    let join := sheafState s == 1 && sheafAligned s
    let head : Word := wd (65536 + sheafSlot s + b2n join * 256 + b2n (sheafRole s == 2) * 512 + b2n s.sheaf.leaving * 1024)
    let mst := s.fld R.sheafMaster_MASTER
    let s1 := frame s mst (head :: (farFrom s (mst - s.fld R.sheafCfg_BASE)).map wd)
    let s2 := (others.filter (fun m => sheafNode s m != mst && farFrom s m != [])).foldl (fun t m => frame t (sheafNode t m) (wd (65536 + sheafSlot s) :: (farFrom s m).map wd)) s1
    if join then s2.withSheaf { s2.sheaf with joinSent := true } else s2
  else s

def execSheafBeaconSend (s : State) : Host.Outcome State Fault Refusal := .next (sheafBeaconSend s)

/-- A beacon, or the master's answer to a join (R439, R440, R442): a takeover names the new master. -/
def sheafBeacon (s : State) (src : Nat) (took : Bool) (members : Nat) (answer : Option Bool) (grps : List (Nat × Nat × Tick)) : State :=
  if sheafRole s < 2 ∨ (sheafState s ≠ 1 ∧ sheafState s ≠ 2) then s
  else if src ≠ s.fld R.sheafMaster_MASTER ∧ !took then s
  else
    let gone := (List.range 16).filter (fun m => sheafMember s m && members / 2 ^ m % 2 == 0)
    let s1 := (s.setFld R.sheafMaster_MASTER src).setFld R.sheafStat_MEMBERS members
    let s2 := gone.foldl (fun t m => cutLinks t (some m)) (s1.withSheaf { s1.sheaf with beaconAt := some s.dt, beacon := grps })
    if sheafState s2 = 1 ∧ s2.sheaf.joinSent then
      match answer with
      | some true => sheafTake (sheafSetMember (s2.withSheaf { s2.sheaf with joinSent := false }) (sheafSlot s2) true) 2
      | some false => sheafTake ((s2.withSheaf { s2.sheaf with joinSent := false }).raise 248 (sheafSlot s2) 2#32) 0
      | none => s2
    else s2

def execSheafBeaconReceive (src : BitVec 18) (took : Bool) (members : BitVec 16) (answer : Option Bool) (grps : List (Fin 8 × Word × Tick)) (s : State) :
    Host.Outcome State Fault Refusal :=
  .next (sheafBeacon s src.toNat took members.toNat answer (grps.map (fun e => (e.1.val, e.2.1.toNat, e.2.2))))

/-- A status or join frame (R439, R442): the master notes it; every producer notes which of its outputs the sender reads. -/
def sheafStatus (s : State) (slot : Nat) (join standby leave : Bool) (links : List Nat) : State :=
  if sheafState s ≠ 2 then s
  else
    let x := s.sheaf
    let mine := (links.filter (fun v => v / 256 == sheafSlot s + 1)).map (· % 256)
    let s1 := s.withSheaf { x with users := x.users.filter (fun e => e.1 != slot) ++ mine.eraseDups.map (fun k => (slot, k)) }
    if sheafRole s ≠ 1 then s1
    else
      let y := s1.sheaf
      s1.withSheaf { y with seen := if sheafMember s slot then (slot, s.dt) :: y.seen.filter (fun e => e.1 != slot) else y.seen,
                                  joins := if join then y.joins.filter (fun e => e.1 != slot) ++ [(slot, standby)] else y.joins,
                                  leaves := if leave && !y.leaves.contains slot then y.leaves ++ [slot] else y.leaves }

def execSheafStatusReceive (slot : Fin 16) (join standby leave : Bool) (links : List (BitVec 16)) (s : State) : Host.Outcome State Fault Refusal :=
  .next (sheafStatus s slot.val join standby leave (links.map (·.toNat)))

/-- No status frame, or no beacon, for 1 ms (R442): the master drops the module; a member departs, a standby waits for R446. -/
def sheafTimeout (s : State) (slot : Nat) : State :=
  if sheafState s ≠ 2 then s
  else if sheafRole s = 1 then
    match s.sheaf.seen.find? (fun e => e.1 == slot) with
    | some e => sheafDrop (s.at (e.2 + tk msTicks)) slot
    | none => s
  else if sheafRole s = 3 ∧ sheafNode s slot = s.fld R.sheafMaster_MASTER then
    match s.sheaf.beaconAt with
    | some t => sheafDepart (s.at (t + tk msTicks))
    | none => s
  else s

def execSheafDepartureTimeout (slot : Fin 16) (s : State) : Host.Outcome State Fault Refusal := .next (sheafTimeout s slot.val)

/-! ### Carrier alignment (R440) -/

/-- e of R440: FT of a zero less the FT of the master's nearest zero, in edge ticks. -/
def alignErr (s : State) (z : Tick) (p : Nat) (ft : Tick) : Int :=
  let d := (ftAt s z - ft).toInt
  let r := d % (p : Int)
  if 2 * r < p then r else r - p

/-- At a carrier zero a module aligns its next period to the master's zeros on fabric time (R440). -/
def sheafAlign (s : State) (g : Nat) : State :=
  let gs := s.grp g
  if sheafRole s < 2 ∨ (sheafState s ≠ 1 ∧ sheafState s ≠ 2) then s
  else
    match s.sheaf.beacon.find? (fun e => e.1 == g) with
    | none => s
    | some (_, p, ft) =>
      if p ≠ gs.p ∨ p = 0 then s.setFlag ⟨R.sheafAlign, g, 1⟩ false
      else
        let e := alignErr s gs.zeroAt p ft
        let near := if e.natAbs ≤ 32 then min 16 (nth s.sheaf.near g 0 + 1) else 0
        let far := if 256 < e.natAbs then min 4 (nth s.sheaf.far g 0 + 1) else 0
        let s1 := s.setGrp g { gs with adj := gs.adj + evenAdj gs.du (clampI (-1024) 1024 (-(e.tdiv 4))) }
        let s2 := s1.withSheaf { s1.sheaf with near := setAt s1.sheaf.near g near, far := setAt s1.sheaf.far g far }
        if 16 ≤ near then s2.setFlag ⟨R.sheafAlign, g, 1⟩ true else if 4 ≤ far then s2.setFlag ⟨R.sheafAlign, g, 1⟩ false else s2

/-! ### Duplex operation (R443, R445, R446) -/

/-- A mirror frame arrives whole on SW0 or SW1 (R443). -/
def mirrorTake (s : State) (m : Mirror) : State :=
  if sheafRole s = 2 ∧ sheafState s = 2 then
    s.withSheaf { s.sheaf with mirrors := s.sheaf.mirrors.filter (fun x => !(x.port == m.port && x.grp == m.grp)) ++ [m] }
  else s

def execMirrorReceive (p : Fin 2) (g : Fin 8) (seq : Word) (state : Fin 3) (ctxs : List (Fin 256 × List Word)) (nibs : List (Fin 72 × Word × Word × Word))
    (t : Tick) (s : State) : Host.Outcome State Fault Refusal :=
  .next (mirrorTake (s.at t) { port := p.val, grp := g.val, seq := seq, state := state.val, ctxs := ctxs.map (fun e => (e.1.val, e.2)), nibs := nibs.map (fun e => (e.1.val, e.2)), at_ := t })

/-- A mirror overwrites what it carries (R443): words 64 to 127 of contexts, the corrections of nibs, the group's sequence and state. -/
def mirrorApply (s : State) (m : Mirror) : State :=
  let s1 := m.ctxs.foldl (fun t e => (List.range 64).foldl (fun u i => if i < e.2.length then u.setCw e.1 (64 + i) (nth e.2 i 0#32) else u) t) s
  let s2 := m.nibs.foldl (fun t e => ((t.setReg (R.nibCorrR e.1) e.2.1).setReg (R.nibCorrF e.1) e.2.2.1).setReg (R.nibAcc e.1) e.2.2.2) s1
  let s3 := s2.setReg (R.nibGseq m.grp) m.seq
  if grpState s3 m.grp = m.state then s3 else groupStateApply s3 m.grp m.state

/-- At a boundary of group `g` a standby takes the mirror of the frame that ends, if it arrived before the boundary; for TG0 the
check of R446 follows 1 µs later where it is absent (R443, R446, R447). -/
def sheafMirror (s : State) (g : Nat) (t : Tick) : State :=
  if sheafRole s ≠ 2 ∨ sheafState s ≠ 2 then s
  else
    let here := s.sheaf.mirrors.filter (fun m => m.grp == g && decide ((m.at_ - (s.grp g).bndAt).toNat < (t - (s.grp g).bndAt).toNat))
    let s1 := s.withSheaf { s.sheaf with mirrors := s.sheaf.mirrors.filter (fun m => !(m.grp == g)) }
    match here with
    | m :: _ =>
      let s2 := mirrorApply s1 m
      if g ≠ 0 then s2
      else
        let s3 := s2.setFlag R.sheafStat_MIRROR_OK true
        if s.sheaf.peerTold then (s3.withSheaf { s3.sheaf with peerTold := false }).raise 250 0 0#32 else s3
    | [] =>
      if g ≠ 0 then s1
      else ((s1.withSheaf { s1.sheaf with check := some t }).setFlag R.sheafStat_MIRROR_OK false).cntSat R.sheafCnt_MIRROR_MISS

/-- 1 µs after a boundary of TG0 PEER_LEAD_N is sampled: high with the mirror absent, the standby takes over (R446). -/
def takeover (s : State) (peerHigh : Bool) : State :=
  let s0 := s.setFlag R.sheafStat_PEER_LEAD (!peerHigh)
  match s.sheaf.check with
  | none => s0
  | some t =>
    let at_ := t + tk usTicks
    let s1 := (s0.withSheaf { s0.sheaf with check := none }).at at_
    if sheafRole s1 ≠ 2 ∨ sheafState s1 ≠ 2 then s1
    else if !peerHigh then (s1.withSheaf { s1.sheaf with peerTold := true }).raise 250 0 1#32
    else
      let old := s1.fld R.sheafMaster_MASTER - s1.fld R.sheafCfg_BASE
      let s2 := sheafSetMember (swSetRoot ((s1.setFlag R.sheafStat_LEAD true).setFld R.sheafCfg_ROLE 1) true) old false
      let seen := ((List.range 16).filter (fun m => sheafMember s2 m && m != sheafSlot s2)).map (fun m => (m, s2.dt))
      let s3 := s2.withSheaf { s2.sheaf with took := true, standby := none, seen := seen, mirrors := [], peerTold := false }
      let s4 := (cutLinks (s3.setFld R.sheafMaster_MASTER (swNode s3)) (some old)).cntSat R.sheafCnt_TAKEOVERS
      (s4.setReg64 R.sheafTakedtLo at_).raise 249 0 (wd (bitsOf (s4.reg (R.nibGseq 0)) 0 16))

def execTakeoverCheck (peerHigh : Bool) (s : State) : Host.Outcome State Fault Refusal := .next (takeover s peerHigh)

/-- The supervised passes of R445 as they commit: windings of TG0, or every context of TG0 where it holds no winding. -/
def leadSees (s : State) (slot : Nat) : State :=
  let wind := s.slots.any (fun k => (s.ctx k).grp == 0 && isWinding (s.ctx k).kind)
  if (s.ctx slot).grp = 0 ∧ (isWinding (s.ctx slot).kind ∨ !wind) then s.withSheaf { s.sheaf with passed := true } else s

/-- The frame of TG0 that ends counts for R445: always with a winding in TG0, otherwise where a committed context ran in it. -/
def leadCounts (s : State) : Bool :=
  let l := s.slots.filter (fun k => (s.ctx k).grp == 0)
  l.any (fun k => isWinding (s.ctx k).kind)
  || l.any (fun k => (s.ctx k).live && (s.reg (R.nibGseq 0)).toNat % max 1 (s.ctx k).effDiv == (s.ctx k).phase % max 1 (s.ctx k).effDiv)

/-- At a boundary of TG0 a master lets LEAD_N go after a frame in which no supervised pass committed (R445). -/
def leadCheck (s : State) : State :=
  let s1 := s.withSheaf { s.sheaf with passed := false }
  if !s.sheaf.passed && leadCounts s then sheafRelease s1 else s1

/-- The mirror of the frame of a group that has just been computed, sent on SW0 and on SW1 (R443). -/
def mirrorSend (s : State) (g : Nat) : State :=
  if sheafRole s ≠ 1 ∨ sheafState s ≠ 2 ∨ !s.flag R.sheafStat_LEAD then s
  else
    match s.sheaf.standby with
    | none => s
    | some sb =>
      let gs := s.grp g
      let ran := s.slots.filter (fun k => (s.ctx k).grp == g && (s.ctx k).live && (s.ctx k).last == gs.bndAt)
      let ws := [wd (grpState s g), s.reg (R.nibGseq g)]
        ++ ran.flatMap (fun k => (List.range 64).map (fun i => s.cw k (64 + i)))
        ++ (grpNibs s g).flatMap (fun n => [s.reg (R.nibCorrR n), s.reg (R.nibCorrF n), s.reg (R.nibAcc n)])
      (payloads ws.length ws).foldl (fun t w => [0, 1].foldl (fun u p =>
        if swState u p = 2 then swOut u p { cls := 0, dst := sheafNode u sb, svc := 4, src := swNode u, payload := w } true else u) t) s

/-- The timebase is gone: a master lets LEAD_N go (R445). -/
def sheafNoClock (s : State) : State := sheafRelease s

end Sys2Proof.Machine
end

