-- ==== Sys2Proof/Machine/Clock.lean ====
section
/-! DEFINITION. Clock sources, the multiplexer, PLLs, the timebase with its loss and return, the trim of the RC oscillator and the
gate tree (03_clocks_timebase.md, R55 to R72; R52). -/

namespace Sys2Proof.Machine

open Sys2Proof

/-! ### The timebase (R52, R61 to R63) -/

def clkEnabled (s : State) (src : Nat) : Bool := s.fld ⟨R.clkCtrl, src, 1⟩ == 1
def clkQual (s : State) (src : Nat) : Bool := s.fld ⟨R.clkStat, 2 + src, 1⟩ == 1
def clkSetQual (s : State) (src : Nat) (on : Bool) : State := s.setFlag ⟨R.clkStat, 2 + src, 1⟩ on
def clkAlive (s : State) (src : Nat) : Bool := nth s.clk.alive src false
def clkSetAlive (s : State) (src : Nat) (on : Bool) : State := s.withClk { s.clk with alive := setAt s.clk.alive src on }

/-- The active source: what the multiplexer passes, or the source it is being switched to (R61). -/
def clkActive (s : State) : Nat :=
  match s.clk.switching with
  | some (_, b) => b
  | none => s.fld R.clkStat_ACTIVE

/-- Boundaries are gone: what was assigned one stays pending without one, and replies held for it go out with PENDING (R20, R79.7); that of a FW_SWITCH
waits for its end (R136). -/
def boundsGone (s : State) : State :=
  let pend := s.loop.pend.map (fun p => { p with due := none })
  let grps := s.loop.grps.map (fun g => { g with next := none, first := true, todo := [], rel := none, skip := false, adj := 0 })
  (s.withLoop { s.loop with pend := pend, grps := grps }).withCmd { s.cmd with deferred := s.cmd.deferred.map (fun d => if d.req.opcode = 0x84 then d else { d with waits := [], final := d.final.orElse (fun _ => some (d.as_.getD stPENDING, 0)) }) }

/-- The timebase becomes invalid (R52, R63): the nibs of a group in PROVE run on to the end of their period (`frameBoundary`, `chopNext`). -/
def tbLost (s : State) : State :=
  let s1 := (((s.setFlag R.clkStat_TB_VALID false).setFlag R.clkStat_DT_GAP true).cntSat R.clkFails_TB_LOSSES).raise 11 0 0#32
  let s2 := (s1.setFlag R.loopStat_NOCLOCK_TIMING true).raise 100 0 1#32
  let run := (List.range 8).filter (fun g => grpState s2 g == 2)
  let s3 := sourceAct s2 (run.flatMap (grpNibs s2)) 6
  sheafNoClock (timeLost (inkGap (senseDrop (boundsGone s3)) 1 (fun _ => true)))

/-- The timebase becomes valid: DT starts from zero the first time and goes on otherwise; groups find their first zeros (R19, R23, R62, R63). -/
def tbBack (s : State) : State :=
  let s0 := if s.clk.everValid then s else (s.withDt 0).withClk { s.clk with everValid := true }
  let s1 := ((s0.setFlag R.clkStat_TB_VALID true).raise 11 0 1#32)
  let s2 := if s1.flag R.loopStat_NOCLOCK_TIMING then (s1.setFlag R.loopStat_NOCLOCK_TIMING false).raise 100 0 0#32 else s1
  let prove := (List.range 8).filter (fun g => grpState s2 g == 1)
  let s2 := (prove.flatMap (grpNibs s2)).foldl nibStop s2
  let s3 := (List.range 8).foldl (fun t g =>
    let x := t.grp g
    if x.p = 0 then t
    else t.setGrp g { x with next := some (firstZero (t.fld (R.nibGphase_PHASE g)) x.p t.dt, true), first := true, zeros := 0, len := x.p, adj := 0 }) s2
  timeBack s3

/-- The timebase is valid while the active source is qualified, the timebase PLL locked and the delay line calibrated (R61). -/
def tbSettle (s : State) : State :=
  let ok := clkQual s (clkActive s) && s.flag R.clkStat_TPLL_LOCK && s.flag R.clkStat_DL_CAL && !s.flag R.clkStat_NOFALLBACK
  if ok && !tbValid s then tbBack s else if !ok && tbValid s then tbLost s else s

/-! ### Switching, fallback and coast (R64 to R67) -/

/-- The multiplexer passes a new source (R64, R71). -/
def clkSwitched (s : State) (old new : Nat) (forced : Bool) : State :=
  let s1 := s.setFld R.clkStat_ACTIVE new
  let s2 := s1.withClk { s1.clk with switching := none }
  (if forced then s2.setFlag R.clkStat_FORCED true else s2).raise 9 new (wd (b2n forced * 256 + old))

/-- A change of the selection: at once while the old clock has edges, else it waits for one, or for the forced switch (R64).
`CLK.SEL.SRC` reads the source being switched to from the request on (R61, R72). -/
def clkSwitch (s0 : State) (new : Nat) : State :=
  let s := s0.setFld R.clkSel_SRC new
  let old := s.fld R.clkStat_ACTIVE
  if old = new then s.withClk { s.clk with switching := none }
  else if clkAlive s old then clkSwitched s old new false
  else s.withClk { s.clk with switching := some (old, new) }

/-- The wait of a switch ends without a falling edge of the old clock: it is forced (R64). -/
def execMuxForcedSwitch (s : State) : Host.Outcome State Fault Refusal :=
  .next (match s.clk.switching with
    | some (a, b) => tbSettle (clkSwitched s a b true)
    | none => s)

/-- The first source in the order of R65 that is enabled and qualified. -/
def clkCand (s : State) (but : Option Nat) : Option Nat :=
  [0, 1, 2].find? (fun c => but != some c && clkEnabled s c && clkQual s c)

/-- Coast: the multiplexer stays where it is, every PLL at its coast frequency, without lock (R66). -/
def clkCoast (s : State) : State :=
  let s1 := (s.withClk { s.clk with switching := none }).setFld R.clkSel_SRC (s.fld R.clkStat_ACTIVE)
  let s2 := [R.clkStat_TPLL_LOCK, R.clkStat_IPLL_LOCK, R.clkStat_EPLL_LOCK, R.clkStat_SPLL_LOCK, R.clkStat_DL_CAL].foldl (fun t f => t.setFlag f false) s1
  let s3 := s2.setFlag R.clkStat_NOFALLBACK true
  if s3.flag R.clkStat_COAST then s3 else (s3.setFlag R.clkStat_COAST true).raise 10 0 1#32

/-- The failure counter of a source. -/
def clkFailsFld (src : Nat) : RF := match src with | 0 => R.clkFails_XTAL_FAILS | 1 => R.clkFails_REF_FAILS | _ => R.clkFails_RC_FAILS

/-- A source fails (R56, R57, R65): counted, disqualified; the active one is left for a fallback, or the device coasts. -/
def clkFail (s : State) (src detail : Nat) : State :=
  if !clkEnabled s src then s
  else
    let s1 := (clkSetQual (s.cntSat (clkFailsFld src)) src false).raise 8 src (wd detail)
    if clkActive s1 ≠ src ∨ s1.flag R.clkStat_NOFALLBACK then tbSettle s1
    else
      match clkCand s1 (some src) with
      | some c => tbSettle (clkSwitch s1 c)
      | none => tbSettle (clkCoast s1)

/-- Clock sources run outside reset and Dormant. -/
def clkRuns (s : State) : Bool := s.phase != .reset && s.phase != .dormant

/-- The active clock has an edge for a switch that begins now (R64), where the happening says so. -/
def clkEdge (s : State) (c : SourceChange) : State := if c.edge then clkSetAlive s (s.fld R.clkStat_ACTIVE) true else s

def execSourceMissingEdge (c : SourceChange) (s : State) : Host.Outcome State Fault Refusal :=
  .next (if clkRuns s then clkFail (clkEdge (clkSetAlive s c.src.val false) c) c.src.val 1 else s)

/-- The frequency of a source is judged (R57): that of the RC oscillator once it is qualified, against the crystal or REF_IN,
and with neither qualified not at all. -/
def clkFreqJudged (s : State) (src : Nat) : Bool := src != 2 || (clkQual s 2 && (clkQual s 0 || clkQual s 1))

def execSourceFrequencyFail (src : Fin 3) (s : State) : Host.Outcome State Fault Refusal :=
  .next (if clkRuns s && clkFreqJudged s src.val then clkFail s src.val 2 else s)

/-- The start-up selection ends with a source, and the PLLs start (R59). -/
def clkStart (s : State) (src : Nat) : State :=
  let s1 := clkSwitch s src
  s1.withClk { s1.clk with started := true }

/-- A source completes its qualification count (R56); in coast the device switches to the first qualified source (R66); at start-up
the crystal is selected (R59). -/
def clkQualified (s : State) (src : Nat) : State :=
  if !clkEnabled s src then s
  else
    let s1 := clkSetQual (clkSetAlive s src true) src true
    let s2 := s1.setFlag R.clkStat_NOFALLBACK false
    if !s1.clk.started ∧ src = 0 then tbSettle (clkStart s2 0)
    else if s1.flag R.clkStat_NOFALLBACK then
      tbSettle (match clkCand s2 none with
        | some c => clkSwitch s2 c
        | none => s2)
    else tbSettle s1

def execSourceQualified (c : SourceChange) (s : State) : Host.Outcome State Fault Refusal :=
  .next (if clkRuns s then clkQualified (clkEdge s c) c.src.val else s)

/-- 20 ms from the release of reset without a qualified crystal (R59). A device that coasts by then starts its PLLs and stays in
coast until a source is qualified (R66). -/
def execCrystalWaitExpiry (s : State) : Host.Outcome State Fault Refusal :=
  .next (if !clkRuns s || s.clk.started then s else if clkEnabled s 1 && clkQual s 1 then clkStart s 1
         else if s.flag R.clkStat_NOFALLBACK then s.withClk { s.clk with started := true } else clkStart s 2)

/-- The gate bit and the lock bit of a PLL: timebase, interface, Ethernet, SerDes. -/
def pllGate (i : Nat) : Nat := match i with | 0 => 0 | 1 => 8 | 2 => 16 | _ => 20
def pllLockFld (i : Nat) : RF := match i with | 0 => R.clkStat_TPLL_LOCK | 1 => R.clkStat_IPLL_LOCK | 2 => R.clkStat_EPLL_LOCK | _ => R.clkStat_SPLL_LOCK

/-- A PLL that runs reports lock (R60); the timebase PLL's lock ends coast (R66). -/
def pllLocked (s : State) (i : Nat) : State :=
  if !s.clk.started || s.flag R.clkStat_NOFALLBACK || s.fld ⟨R.clkGate, pllGate i, 1⟩ == 0 then s
  else
    let s1 := s.setFlag (pllLockFld i) true
    if i = 0 ∧ s1.flag R.clkStat_COAST then (s1.setFlag R.clkStat_COAST false).raise 10 0 0#32 else s1

def execPllLock (pll : Fin 4) (s : State) : Host.Outcome State Fault Refusal := .next (tbSettle (pllLocked s pll.val))

/-- A PLL loses lock; that of the timebase loses its calibration with it (R60, R61). -/
def pllLost (s : State) (i : Nat) : State :=
  let s1 := s.setFlag (pllLockFld i) false
  tbSettle (if i = 0 then s1.setFlag R.clkStat_DL_CAL false else s1)

def execPllLockLoss (pll : Fin 4) (s : State) : Host.Outcome State Fault Refusal := .next (pllLost s pll.val)

/-- The first calibration of the delay line after a lock is complete (R61). -/
def execDelayLineCalibrated (s : State) : Host.Outcome State Fault Refusal :=
  .next (if s.flag R.clkStat_TPLL_LOCK then tbSettle (s.setFlag R.clkStat_DL_CAL true) else s)

/-- The two interpolation lines change places; no edge moves (R61). -/
def execDelayLineSwap (s : State) : Host.Outcome State Fault Refusal :=
  .next (if s.flag R.clkStat_DL_CAL then s.withClk { s.clk with line := !s.clk.line } else s)

/-- The revert rule of R67: back to a source of higher priority that has been qualified for 1 s. -/
def clkRevert (s : State) (src : Nat) : State :=
  if s.flag R.clkCtrl_REVERT && s.clk.started && !s.flag R.clkStat_NOFALLBACK && clkEnabled s src && clkQual s src && decide (src < clkActive s) then
    tbSettle (clkSwitch s src)
  else s

def execClockRevert (src : Fin 3) (s : State) : Host.Outcome State Fault Refusal := .next (if clkRuns s then clkRevert s src.val else s)

/-! ### Trimming (R58) -/

/-- The trim has a reference: for the Sward, an epoch mark received on a linked port since the last measurement (DEDUCED,
log entry 73). -/
def trimRef (s : State) : Bool :=
  let local_ := clkQual s 0 || clkQual s 1
  let sward := s.clk.epoch && (List.range 4).any (fun p => swCarries s p)
  match s.fld R.clkRctrim_REF with
  | 0 => local_ || sward
  | 1 => local_
  | 2 => sward
  | _ => false

/-- Trimming stops: TRIM_LOCK clears and the trim stands (R58). -/
def trimStop (s : State) : State := (s.setFlag R.clkStat_RC_TRIM_LOCK false).withClk { s.clk with trimGood := 0 }

/-- A trim measurement every 10 ms: ERR in ppm, TRIM moved against it by at most 8 steps, TRIM_LOCK (R58). DESIGN CHOICE (log
entry 73): an error beyond the signed 16-bit field, and a step beyond the signed 14-bit range of TRIM, saturate. -/
def trimMeasure (s : State) (err : Int) : State :=
  if !clkRuns s then s
  else if !trimRef s then trimStop (s.withClk { s.clk with epoch := false })
  else
    let e := clampI (-32768) 32767 err
    let t := clampI (-8192) 8191 (s.fldI R.clkRctrim_TRIM - clampI (-8) 8 (e.tdiv 10))
    let good := if e.natAbs ≤ 30 then min 4 (s.clk.trimGood + 1) else 0
    let s1 := (s.setFld R.clkRcerr_ERR (e % 65536).toNat).setFld R.clkRctrim_TRIM (t % 16384).toNat
    let s2 := s1.withClk { s1.clk with trimGood := good, epoch := false }
    if good = 0 then s2.setFlag R.clkStat_RC_TRIM_LOCK false else if 4 ≤ good then s2.setFlag R.clkStat_RC_TRIM_LOCK true else s2

def execRcTrimMeasure (err : Word) (s : State) : Host.Outcome State Fault Refusal := .next (trimMeasure s err.toInt)

/-! ### Register writes (R58, R67, R69, R72) -/

/-- A write of `CLK.CTRL` (R56, R67): the active source and the last one stay enabled; a disabled source is not qualified. -/
def clkCtrlWrite (s : State) (w : Word) : Res :=
  let old := s.reg R.clkCtrl
  let new := w &&& 0xF#32
  if new &&& 7#32 = 0#32 ∨ (bitOf old (clkActive s) ∧ !bitOf new (clkActive s)) then refuse s stREFUSED_STATE
  else
    let s1 := s.setReg R.clkCtrl new
    { st := [0, 1, 2].foldl (fun t c => if bitOf new c then t else clkSetQual t c false) s1 }

def execClkCtrlWrite (w : Word) (s : State) : Host.Outcome State Fault Refusal := .next (clkCtrlWrite s w).st

/-- A write of `CLK.SEL.SRC` (R67). -/
def clkSelWrite (s : State) (w : Word) : Res :=
  let c := bitsOf w 0 2
  if c = 3 then refuse s stBAD_PARAM
  else if !(clkEnabled s c && clkQual s c) then refuse s stREFUSED_STATE
  else { st := tbSettle (clkSwitch s c) }

def execClkSelWrite (w : Word) (s : State) : Host.Outcome State Fault Refusal := .next (clkSelWrite s w).st

/-- A write of `CLK.RCTRIM`, judged as a whole (R58). -/
def clkRctrimWrite (s : State) (w : Word) : Res :=
  let ref := bitsOf w 30 2
  if ref ≠ 3 ∧ bitsOf w 0 14 ≠ s.fld R.clkRctrim_TRIM then refuse s stREFUSED_STATE
  else
    let s1 := s.setReg R.clkRctrim (w &&& 0xC0003FFF#32)
    { st := if ref = 3 then trimStop s1 else s1 }

def execClkRctrimWrite (w : Word) (s : State) : Host.Outcome State Fault Refusal := .next (clkRctrimWrite s w).st

/-- The parent of a node of the gate tree (R68). -/
def gateParent (b : Nat) : Option Nat :=
  if 1 ≤ b ∧ b ≤ 5 then some 0 else if 9 ≤ b ∧ b ≤ 15 then some 8 else if b = 17 ∨ b = 18 then some 16 else if 21 ≤ b ∧ b ≤ 24 then some 20 else none

/-- A committed context is bound to a feedback channel or a latch unit (R68). -/
def ctxFeeds (s : State) (k : Nat) : Bool :=
  let c := s.ctx k
  let ws := curBind s k
  let fb (x : Src) : Bool := match x with
    | .fb _ => true
    | _ => false
  let gfb (x : GSrc) : Bool := match x with
    | .pos y => fb y
    | _ => false
  let inp (i : Nat) : Bool := let f := fpIn (bw ws i); f.kind == 2 && !f.obs
  c.committed && (match c.kind with
    | 1 => fb (bAng 1 ws)
    | 2 => fb (bAng 2 ws)
    | 5 => fb (bAng 5 ws)
    | 6 => decide (bCmp ws < 16)
    | 7 => fb (bPos ws) || decide (bLatch ws < 64)
    | 8 => fb (bPos ws) || decide (bLatch ws < 64)
    | 9 => gfb (bMaster ws) || gfb (bMod ws)
    | 10 => gfb (bMaster ws) || gfb (bMod ws)
    | 12 => inp 0
    | 13 => inp 0 || inp 1
    | _ => false)

/-- A node of the gate tree is in use (R68). -/
def gateInUse (s : State) (b : Nat) : Bool :=
  let on (g : Nat) : Bool := grpState s g != 0
  match b with
  | 1 => (List.range 36).any (fun n => on (nibGrp s n))
  | 2 => (List.range 36).any (fun n => on (nibGrp s (36 + n)))
  | 3 => (List.range 128).any (fun c => (s.flag (R.senseBind_A_EN c) && on (s.fld (R.senseBind_A_GRP c))) || (s.flag (R.senseBind_B_EN c) && on (s.fld (R.senseBind_B_GRP c))))
  | 4 => s.slots.any (ctxFeeds s)
  | 5 => (List.range 4).any (fun i => s.flag (R.timePstat_ENABLED i))
  | 13 => s.flag (R.spiPxfer_BUSY 0)
  | 14 => s.flag (R.spiPxfer_BUSY 1)
  | 15 => (List.range 4).any (fun q => [1, 2, 3, 5].contains (inkState s q))
  | 17 => s.flag (R.ethCfg_EN 0)
  | 18 => s.flag (R.ethCfg_EN 1)
  | _ =>
    if 9 ≤ b ∧ b ≤ 12 then s.fld (R.canCtrl_MODE (b - 9)) != 0
    else if 21 ≤ b ∧ b ≤ 24 then swState s (b - 21) != 0
    else false

/-- A write of `CLK.GATE`, judged as a whole against the value that would result (R69). -/
def clkGateWrite (s : State) (w : Word) : Res :=
  let old := s.reg R.clkGate
  let new := (w &&& 0x01F7FF3E#32) ||| 1#32
  if (List.range 25).any (fun b => bitOf new b && (match gateParent b with
      | some p => !bitOf new p
      | none => false)) then refuse s stREFUSED_CHILD
  else if (List.range 25).any (fun b => bitOf old b && !bitOf new b && gateInUse s b) then refuse s stREFUSED_STATE
  else
    let s1 := s.setReg R.clkGate new
    let s2 := [1, 2, 3].foldl (fun t i => if bitOf new (pllGate i) then t else t.setFlag (pllLockFld i) false) s1
    let s3 := if bitOf old 3 && !bitOf new 3 then senseGate s2 else s2
    { st := if bitOf old 4 = bitOf new 4 then s3 else fdbkGate s3 (bitOf new 4) }

def execClkGateWrite (w : Word) (s : State) : Host.Outcome State Fault Refusal := .next (clkGateWrite s w).st

/-- A write of a register of the CLK block; none where the access codes alone decide. -/
def clkBlockWrite (s : State) (a : Nat) (w : Word) : Option Res :=
  if a = R.clkCtrl then some (clkCtrlWrite s w)
  else if a = R.clkSel then some (clkSelWrite s w)
  else if a = R.clkRctrim then some (clkRctrimWrite s w)
  else if a = R.clkGate then some (clkGateWrite s w)
  else none

end Sys2Proof.Machine
end

