-- ==== Sys2Proof/Machine/Keep.lean ====
section
/-! DEFINITION. Keep memory (05_startup_config_update.md, R128 to R132, R146). -/

namespace Sys2Proof.Machine

open Sys2Proof

/-- A write to the word is not yet persistent (R129). -/
def keepBusy (s : State) (n : Nat) : Bool := s.keep.busy.any (fun e => e.1 == n)

/-- The value a word will have once every write to it is persistent. -/
def keepLatest (s : State) (n : Nat) : Word :=
  match ((s.keep.busy ++ s.keep.wait).filter (fun e => e.1 == n)).getLast? with
  | some e => e.2
  | none => s.reg (R.keepWord n)

/-- A read of a keep word (R130): the value, a status where it cannot be corrected, and what the read tells. -/
def keepRead (s : State) (n : Nat) : Word × Option Nat × State :=
  match s.keep.bad.find? (fun e => e.1 == n) with
  | none => (s.reg (R.keepWord n), none, s)
  | some (_, k) =>
    if k = 1 then (s.reg (R.keepWord n), none, (s.cntSat R.keepStat_CORRECTED).raise 21 n 1#32)
    else (0#32, some stINTERNAL, (s.setFlag R.keepStat_UNCORR true).raise 21 n 2#32)

/-- A write starts (R129, R131): the wear counter counts it; answers whether the word is worn. -/
def keepStart (s : State) (n : Nat) (v : Word) : State × Bool :=
  let c := s.fld (R.keepWear_COUNT n)
  let c1 := satInc 20 c
  let worn := decide (1000000 ≤ c)
  let s1 := ((s.setFld (R.keepWear_COUNT n) c1).setFld R.keepStat_LAST n).setFlag R.keepStat_BUSY true
  let s2 := s1.withKeep { s1.keep with busy := s1.keep.busy ++ [(n, v)] }
  if !worn then (s2, false)
  else
    let s3 := s2.setFlag R.keepStat_WORN_SEEN true
    if s3.keep.told.contains n then (s3, true)
    else ((s3.withKeep { s3.keep with told := n :: s3.keep.told }).raise 20 n (wd c1), true)

/-- A write by the register engine or by the device itself waits while its word is busy (R129); the flag says that the count before
it, the running write and those ahead of it counted, makes it worn (R131). -/
def keepQueue (s : State) (n : Nat) (v : Word) : State × Bool :=
  if keepBusy s n then
    ((s.withKeep { s.keep with wait := s.keep.wait ++ [(n, v)] }),
      decide (1000000 ≤ s.fld (R.keepWear_COUNT n) + (s.keep.wait.filter (fun e => e.1 == n)).length))
  else keepStart s n v

/-- KEEP_WRITE (R128, R129, R131). -/
def opKeepWrite (r : Request) (s : State) : Res :=
  let n := r.target
  if 1023 < n then refuse s stRANGE
  else if 960 ≤ n then refuse s stREFUSED_STATE
  else if keepBusy s n then refuse s stBUSY_TARGET
  else
    let x := keepStart s n (r.p 0)
    { st := x.1, status := if x.2 then stWORN else stOK, data := [wd (x.1.fld (R.keepWear_COUNT n))] }

def execKeepWrite (r : Request) (s : State) : Host.Outcome State Fault Refusal :=
  .next (serveReed r s (r.params.length == 1) (opKeepWrite r))

/-- A register run reaches a keep word (R128, R129): words 960 on are the device's. -/
def execKeepWordRegWrite (n : Fin 1024) (w : Word) (s : State) : Host.Outcome State Fault Refusal :=
  .next (if n.val < 960 ∧ serving s then (keepQueue s n.val w).1 else s)

/-- A write is persistent: the word has its new value, and a write that waited for it starts (R129); `ecc` is what the check finds
of the word from now on: sound, a single-bit error, an error that cannot be corrected (R130). -/
def keepPersist (s : State) (n ecc : Nat) : State :=
  match s.keep.busy.find? (fun e => e.1 == n) with
  | none => s
  | some e =>
    let x := s.keep
    let bad := x.bad.filter (fun b => b.1 != n)
    let s1 := (s.setReg (R.keepWord n) e.2).withKeep { x with busy := x.busy.filter (fun b => b.1 != n), bad := if ecc = 0 then bad else (n, ecc) :: bad }
    let s2 := s1.setFlag R.keepStat_BUSY (!s1.keep.busy.isEmpty)
    match s2.keep.wait.find? (fun w => w.1 == n) with
    | some w => (keepStart (s2.withKeep { s2.keep with wait := s2.keep.wait.erase w }) n w.2).1
    | none => s2

def execKeepWritePersist (n : Fin 1024) (ecc : Fin 3) (s : State) : Host.Outcome State Fault Refusal := .next (keepPersist s n.val ecc.val)

/-- A counter of the device's own words counts up, and saturates (R132). -/
def keepBump (s : State) (n k : Nat) : State := (keepQueue s n (wd (satAdd 32 (keepLatest s n).toNat k))).1

/-- A full hour after reset (R132). -/
def execKeepHourlyCount (s : State) : Host.Outcome State Fault Refusal := .next (if clkRuns s then keepBump s 962 1 else s)

/-- Counts held for words 966 and 967 are written (R132). -/
def keepFlush (s : State) : State :=
  let a := s.nib.latches
  let b := s.keep.hot / 600
  let s1 := (s.withNib { s.nib with latches := 0 }).withKeep { s.keep with hot := s.keep.hot % 600 }
  let s2 := if a = 0 then s1 else keepBump s1 966 a
  if b = 0 then s2 else keepBump s2 967 b

def execKeepCounterFlush (s : State) : Host.Outcome State Fault Refusal := .next (if clkRuns s then keepFlush s else s)

end Sys2Proof.Machine
end

