-- ==== Sys2Proof/Machine/Firmware.lean ====
section
/-! DEFINITION. Firmware banks: verification, stages, switches and trials (05_startup_config_update.md, R133 to R138; R354). -/

namespace Sys2Proof.Machine

open Sys2Proof

/-! ### Images (R112, R133) -/

/-- A word of a firmware bank; an erased word reads as all ones. -/
def fwWord (s : State) (b i : Nat) : Word := tblGet s.nvm.fw (b * 1048576 + i) 0xFFFFFFFF#32
def fwPut (s : State) (b i : Nat) (w : Word) : State := s.withNvm { s.nvm with fw := tblPut s.nvm.fw (b * 1048576 + i) w 0xFFFFFFFF#32 }
def fwErase (s : State) (b : Nat) : State := s.withNvm { s.nvm with fw := s.nvm.fw.filter (fun e => e.1 / 1048576 != b) }

/-- The first words of a bank. -/
def fwImage (s : State) (b n : Nat) : List Word := (List.range n).map (fwWord s b)

/-- What verification finds of a bank (R133, R135): 0 verified, 1 format, 2 check word, 3 signature, 4 revision. DESIGN CHOICE
(log entry 75): where several checks fail the first of this order is told. -/
def fwVerify (s : State) (b : Nat) : Nat :=
  let len := (fwWord s b 2).toNat
  if fwWord s b 0 ≠ 0x5746564A#32 ∨ bitsOf (fwWord s b 3) 16 16 ≠ 0x7224 ∨ 1048543 < len then 1
  else if crc32c (fwImage s b (16 + len)) ≠ fwWord s b (16 + len) then 2
  else if !Config.sigOk (fwImage s b (33 + len)) then 3
  else if 0xC0 < bitsOf (fwWord s b 3) 8 8 then 4
  else 0

/-- The loop library version of the running firmware (R138). -/
def fwLib (s : State) : Word := fwWord s (s.fld R.fwStat_RUNNING) 8

/-- The bank that is not running. DESIGN CHOICE (log entry 75): in recovery RUNNING reads 0, so bank 1 is the one. -/
def fwOther (s : State) : Nat := 1 - s.fld R.fwStat_RUNNING

/-! ### Stages (R135) -/

/-- Edge ticks to program one word at 1.0 MB/s, and to erase a sector of 16,384 words (R112). -/
def fwWordTicks : Nat := 64000
def fwSectorTicks : Nat := 8 * msTicks

/-- The words of a stage programmed by an instant, sector by sector, each sector erased before it. -/
def fwDrain (now : Tick) : Nat → FwStage → FwStage
  | 0, x => x
  | fuel + 1, x =>
    if x.prog < x.got then
      let t := x.at_ + tk fwWordTicks
      if t ≤ now then fwDrain now fuel { x with prog := x.prog + 1, at_ := if (x.prog + 1) % 16384 = 0 then t + tk fwSectorTicks else t } else x
    else if x.at_ < now then { x with at_ := now } else x

/-- A stage ends without an image: the bank holds none (R135). -/
def fwAbandon (s : State) (detail : Nat) : State :=
  let b := fwOther s
  let s1 := (((fwErase s b).setFlag R.fwStat_STAGE_BUSY false).setFlag R.fwStat_STAGED false).setReg (R.fwVer b) 0#32
  ((s1.setFld R.fwStage_NEXT_WORD 0).withBoot { s1.boot with stage := none }).raise 22 b (wd detail)

/-- FW_STAGE, step BEGIN. -/
def opFwStageBegin (r : Request) (s : State) : Res :=
  let len := (r.p 1).toNat
  if bitsOf (r.p 0) 0 30 ≠ 0 ∨ len % 4 ≠ 0 ∨ 4194304 < len then refuse s stBAD_PARAM
  else if s.flag R.cfgStat_SAVE_BUSY then refuse s stBUSY_TARGET
  else if s.flag R.fwStat_TRIAL then refuse s stREFUSED_STATE
  else
    let b := fwOther s
    let s1 := (((fwErase s b).setFlag R.fwStat_STAGE_BUSY true).setFlag R.fwStat_STAGED false).setReg (R.fwVer b) 0#32
    { st := ((s1.setFld R.fwStage_NEXT_WORD 0).withBoot { s1.boot with stage := some { len := len / 4, at_ := s1.dt + tk fwSectorTicks } }) }

def execFwStageBegin (r : Request) (s : State) : Host.Outcome State Fault Refusal :=
  .next (serveReed r s (r.target == 0 && r.params.length == 2) (opFwStageBegin r))

/-- Words put into a bank from a word on. -/
def fwPuts (s : State) (b i : Nat) : List Word → State
  | [] => s
  | w :: ws => fwPuts (fwPut s b i w) b (i + 1) ws

/-- FW_STAGE, step DATA: appended to a buffer of 64 KiB that is drained into the bank. -/
def opFwStageData (r : Request) (s : State) : Res :=
  let ws := r.params.drop 1
  let bad : Bool := decide (bitsOf (r.p 0) 20 10 ≠ 0) || decide (bitsOf (r.p 0) 0 20 ≠ s.fld R.fwStage_NEXT_WORD)
  match s.boot.stage with
  | none => refuse s (if bad then stBAD_PARAM else stREFUSED_STATE)
  | some x =>
    if bad ∨ x.len < x.got + ws.length then refuse s stBAD_PARAM
    else if x.ended then refuse s stREFUSED_STATE
    else
      let y := fwDrain s.dt 32768 x
      if 16384 < y.got - y.prog + ws.length then refuse s stBUSY_TARGET
      else
        let s1 := fwPuts s (fwOther s) y.got ws
        { st := (s1.setFld R.fwStage_NEXT_WORD (y.got + ws.length)).withBoot { s1.boot with stage := some { y with got := y.got + ws.length } } }

def execFwStageData (r : Request) (s : State) : Host.Outcome State Fault Refusal :=
  .next (serveReed r s (r.target == 0 && decide (2 ≤ r.params.length)) (opFwStageData r))

/-- FW_STAGE, step END. -/
def opFwStageEnd (r : Request) (s : State) : Res :=
  if bitsOf (r.p 0) 0 30 ≠ 0 then refuse s stBAD_PARAM
  else match s.boot.stage with
  | none => refuse s stREFUSED_STATE
  | some x =>
    if x.ended ∨ x.got < x.len then refuse s stREFUSED_STATE
    else { st := (s.withBoot { s.boot with stage := some { x with ended := true } }) }

def execFwStageEnd (r : Request) (s : State) : Host.Outcome State Fault Refusal :=
  .next (serveReed r s (r.target == 0 && r.params.length == 1) (opFwStageEnd r))

/-- The bank of a stage that ended is read back and verified (R133, R135). -/
def fwStageVerified (s : State) : State :=
  match s.boot.stage with
  | none => s
  | some x =>
    if !x.ended then s
    else
      let b := fwOther s
      let v := fwVerify s b
      let s1 := (s.setFlag R.fwStat_STAGE_BUSY false).withBoot { s.boot with stage := none }
      let s2 := if v = 0 then (s1.setFlag R.fwStat_STAGED true).setReg (R.fwVer b) (fwWord s1 b 1) else s1
      s2.raise 22 b (wd v)

def execFwStageVerified (s : State) : Host.Outcome State Fault Refusal := .next (fwStageVerified s)

/-- 60 s without DATA or END (R135). -/
def execFwStageTimeout (s : State) : Host.Outcome State Fault Refusal :=
  .next (match s.boot.stage with
    | some x => if x.ended then s else fwAbandon s 5
    | none => s)

/-! ### Switches, trials and fallbacks (R136, R137) -/

/-- Reed's program memories exchange roles; Reed is silent until it resumes (R136). -/
def fwExchange (s : State) (kind : Nat) : State :=
  let b := fwOther s
  let s1 := (s.setFld R.fwStat_RUNNING b).withReed .busy
  s1.withBoot { s1.boot with swap := none, resume := some kind, trialEnd := if kind = 0 then s1.dt + tk (s1.boot.trialSec * 1000 * msTicks) else s1.boot.trialEnd }

/-- A staged image that starts in recovery ends recovery: all ports are served; its fallback is recovery again (DESIGN CHOICE, log
entry 75). -/
def fwRecovery (s : State) (enter : Bool) : State :=
  if enter then ((s.setFlag R.fwStat_RECOVERY true).withPhase .recovery).withBoot { s.boot with rom := false }
  else if s.flag R.fwStat_RECOVERY then ((s.setFlag R.fwStat_RECOVERY false).withPhase .ready).withBoot { s.boot with rom := true }
  else s

/-- Reed resumes after a swap (R136, R137): under trial with event 23, or back on the old image with event 24. -/
def fwResume (s : State) : State :=
  match s.boot.resume with
  | none => s
  | some k =>
    let s1 := (s.withReed .running).withBoot { s.boot with resume := none, hold := false }
    let b := s1.fld R.fwStat_RUNNING
    if k = 0 then ((fwRecovery s1 false).setFlag R.fwStat_TRIAL true).raise 23 b (s1.reg (R.fwVer b))
    else keepBump (((if s1.boot.rom then fwRecovery s1 true else s1).setFlag R.fwStat_TRIAL false).raise 24 b (wd (k - 1))) 964 1

def execReedResume (s : State) : Host.Outcome State Fault Refusal := .next (fwResume s)

/-- The parameters of a FW_SWITCH that are wrong whatever its action (R136). -/
def fwSwitchBad (r : Request) : Option Nat :=
  if 7 < r.target ∧ r.target ≠ 0xFFFF then some stRANGE
  else if bitsOf (r.p 0) 2 30 ≠ 0 ∨ 600 < (r.p 1).toNat then some stBAD_PARAM
  else none

/-- The frame length of a group in force, in edge ticks. -/
def grpFrame (s : State) (g : Nat) : Nat := if (s.grp g).du then (s.grp g).p / 2 else (s.grp g).p

/-- A reply held for a swap goes now, with the STAMP of the boundary that made it (R136). -/
def swapPassed (s : State) (ticket stamp : Nat) : State :=
  s.withCmd { s.cmd with deferred := s.cmd.deferred.map (fun (d : Deferred) =>
      if d.ticket = ticket ∧ d.req.opcode = 0x84 then { d with waits := [], stamp := stamp } else d) }

/-- FW_SWITCH, action SWITCH (R136). -/
def opFwSwitch (r : Request) (s : State) : Res :=
  let g := r.target
  let any := (List.range 8).any (fun h => grpState s h != 0)
  let go (t : State) (w : Option (Nat × Nat)) : State :=
    t.withBoot { t.boot with trialGrp := g, trialSec := if r.p 1 = 0#32 then 60 else (r.p 1).toNat, swap := w, hold := true }
  match fwSwitchBad r with
  | some st => refuse s st
  | none =>
    if g < 8 ∧ (s.grp g).p ≠ 0 ∧ grpFrame s g < 50 * usTicks then refuse s stBAD_PARAM
    else if !s.flag R.fwStat_STAGED ∨ s.boot.swap.isSome ∨ (g < 8 ∧ ((s.grp g).p = 0 ∨ !tbValid s)) ∨ (7 < g ∧ any) then refuse s stREFUSED_STATE
    else if 7 < g then { st := fwExchange (go s none) 0 }
    else
      let due := dueNext s g
      { st := addPend (go s (some (g, 0))) g due false (.fwSwap 0), affects := [(g, due)] }

def execFwSwitchSwitch (r : Request) (s : State) : Host.Outcome State Fault Refusal :=
  .next (serveReed r s (r.params.length == 2) (opFwSwitch r))

/-- A fallback starts: the same swap at the next boundary of the trial's group, or at once (R137). -/
def fwFallback (s : State) (cause : Nat) : State :=
  if s.boot.swap.isSome then s
  else
    let g := s.boot.trialGrp
    if 7 < g then fwExchange s (cause + 1)
    else addPend (s.withBoot { s.boot with swap := some (g, cause + 1) }) g (dueNext s g) false (.fwSwap (cause + 1))

/-- FW_SWITCH, action CONFIRM (R137). -/
def opFwConfirm (r : Request) (s : State) : Res :=
  match fwSwitchBad r with
  | some st => refuse s st
  | none =>
    if !s.flag R.fwStat_TRIAL ∨ s.boot.swap.isSome then refuse s stREFUSED_STATE
    else
      let b := s.fld R.fwStat_RUNNING
      let s1 := (keepQueue (s.withBoot { s.boot with rom := false }) 960 (wd b)).1
      { st := ((keepBump s1 964 1).setFlag R.fwStat_TRIAL false |>.setFld R.fwStat_CONFIRMED b).raise 25 b 0#32 }

def execFwSwitchConfirm (r : Request) (s : State) : Host.Outcome State Fault Refusal :=
  .next (serveReed r s (r.params.length == 2) (opFwConfirm r))

/-- FW_SWITCH, action REVERT (R137). -/
def opFwRevert (r : Request) (s : State) : Res :=
  match fwSwitchBad r with
  | some st => refuse s st
  | none =>
    if !s.flag R.fwStat_TRIAL ∨ s.boot.swap.isSome then refuse s stREFUSED_STATE
    else
      let g := s.boot.trialGrp
      { st := fwFallback s 0, affects := if 7 < g then [] else [(g, dueNext s g)] }

def execFwSwitchRevert (r : Request) (s : State) : Host.Outcome State Fault Refusal :=
  .next (serveReed r s (r.params.length == 2) (opFwRevert r))

/-- The trial time runs out (R137). -/
def execTrialExpiry (s : State) : Host.Outcome State Fault Refusal :=
  .next (if s.flag R.fwStat_TRIAL && s.boot.resume.isNone then fwFallback (s.at s.boot.trialEnd) 1 else s)

/-- The group of a switch has had no boundary for 40 ms: the switch is abandoned (R136). -/
def fwSwitchAbandon (s : State) : State :=
  match s.boot.swap with
  | some (_, 0) =>
    let tickets := s.loop.pend.filterMap (fun p => match p.ch with
      | .fwSwap 0 => some p.ticket
      | _ => none)
    let isSwap (p : Pend) : Bool := match p.ch with
      | .fwSwap 0 => true
      | _ => false
    let s1 := ((s.withLoop { s.loop with pend := s.loop.pend.filter (fun p => !isSwap p) }).withBoot { s.boot with swap := none, hold := false }).withCmd { s.cmd with deferred := s.cmd.deferred.map (fun (d : Deferred) => if tickets.contains d.ticket then { d with waits := [], final := some (stREFUSED_STATE, 0) } else d) }
    s1.raise 24 (s1.fld R.fwStat_RUNNING) 4#32
  | _ => s

def execFwSwitchAbandon (s : State) : Host.Outcome State Fault Refusal := .next (fwSwitchAbandon s)

/-- A switch of the Scribe section is refused (R354): outside STO unless SCI_ALLOW is 1, in SS1, with a safe axis in SS2 or SOS. -/
def scribeSwitchBad (s : State) : Bool :=
  (!bitOf (setW s 7) 3 && safeMode s != 0) || safeMode s == 2
  || (List.range 8).any (fun a => s.fld (R.safeAx_ASTATE a) == 2 || s.fld (R.safeAx_ASTATE a) == 3)

/-- Scribe announces SINGLE in its frame and stops its cycles until it resumes (R354). -/
def scribeSwitch (s : State) : State :=
  let s1 := s.withSafe { s.safe with single := true }
  ((s1.withSafe { s1.safe with toHusk := some (scribeFrame s1 false) }).setFlag R.safeState_SINGLE true).raise 203 0 1#32

/-- FW_SWITCH, action SCRIBE (R136, R354): a single-channel interval begins. -/
def opFwScribe (r : Request) (s : State) : Res :=
  match fwSwitchBad r with
  | some st => refuse s st
  | none =>
    if scribeSwitchBad s ∨ s.safe.single then refuse s stREFUSED_STATE
    else { st := scribeSwitch s }

def execFwSwitchScribe (r : Request) (s : State) : Host.Outcome State Fault Refusal :=
  .next (serveReed r s (r.params.length == 2) (opFwScribe r))

end Sys2Proof.Machine
end

