-- ==== Sys2Proof/Machine/Context.lean ====
section
/-! DEFINITION. Creating, deleting, binding and parametrising contexts, and ADMIT (02_selftimed_core.md, R22, R36 to R41;
R195 to R198, R223, R246, R247, R271, R274, R275, R286, R298, R299, R305, R306, R309). -/

namespace Sys2Proof.Machine

open Sys2Proof

/-! ### The words of a context (R223, R271, R298, R299, R309) -/

/-- What a parameter word may hold: any bits, a finite binary32, one within bounds, a whole number within bounds, a map
number in each byte named by a kind from the high byte down. -/
inductive PWCheck where
  | any
  | f (lo hi : Option Rat)
  | n (lo hi : Nat)
  | maps (kinds : List Nat)
  | lib
deriving DecidableEq, Repr

/-- A parameter word of a context: its number, its RS bits, its word after CTX_CREATE (KIND to PHASE apart), its range. -/
structure PW where
  w : Nat
  mask : Word := 0xFFFFFFFF#32
  reset : Word := 0#32
  chk : PWCheck := .any
deriving DecidableEq, Repr

/-- binary32 words from `lo` to `hi`, finite, 0.0 at creation. -/
def pwF (lo hi : Nat) : List PW := (List.range (hi + 1 - lo)).map (fun i => { w := lo + i, chk := .f none none })

/-- A binary32 word with bounds; a bound stands as the binary32 nearest to the manual's decimal. -/
def pwR (w : Nat) (reset : Rat) (lo hi : Option Rat) : PW :=
  { w := w, reset := f32 reset, chk := .f (lo.map (fun q => ratOf (f32 q))) (hi.map (fun q => ratOf (f32 q))) }

/-- A LIBVER word (R138). -/
def pwLib (w : Nat) : PW := { w := w, chk := .lib }

/-- The largest magnitude of ANG_OFS: 2π as binary32 (R223). -/
def twoPi32 : Rat := ratOf 0x40C90FDB#32

/-- The parameter words of a kind. -/
def ctxRows (kind : Nat) : List PW :=
  let pos : Option Rat := some 0
  match kind with
  | 1 | 2 =>
    [{ w := 0, mask := 0x01C000FF#32, reset := 1#32 }, { w := 1, chk := .f (some (-twoPi32)) (some twoPi32) }, pwR 2 0 pos none] ++ pwF 3 6
    ++ [pwR 7 1 (some (1 / 10)) (some 1), { w := 8, reset := 0xFFFFFFFF#32, chk := .maps [1, 2, 3, 4] },
        { w := 9, mask := 0xFF000000#32, reset := 0xFF000000#32, chk := .maps [5] }, pwR 10 1 (some (1 / 2)) (some 1)]
    ++ pwF 11 16 ++ [pwR 17 (19 / 20) (some (4 / 5)) (some 1)] ++ pwF 18 21
    ++ [pwR 22 (99 / 100) (some (9 / 10)) (some 1), pwR 23 (1 / 1000) pos (some (1 / 100)), pwR 24 (1 / 5) pos (some (1 / 2)),
        pwR 25 50 none none, { w := 26, reset := 0x00400000#32 }, pwLib 27]
  | 3 =>
    [{ w := 0, mask := 0x01C000FF#32, reset := 1#32 }, pwR 2 0 pos none, pwR 3 0 none none, pwR 4 0 none none, pwR 5 1 none none] ++ pwF 6 10
    ++ [{ w := 11, mask := 0xFFFF#32, reset := 100#32 }]
  | 4 => [{ w := 0, mask := 0x00400003#32 }] ++ pwF 3 8 ++ [pwR 9 0 pos (some 1), pwR 10 1 pos (some 1), pwR 11 0 none none]
  | 5 => [{ w := 0, mask := 0xFF#32, reset := 1#32 }] ++ pwF 1 10
  | 6 =>
    [pwR 1 20 none none, pwR 2 0 none none, pwR 3 1 none none] ++ pwF 4 7
    ++ [pwR 8 (1 / 20) pos (some 1), pwR 9 (1 / 10) none none, { w := 10, mask := 0xFFFF#32, reset := 16#32, chk := .n 1 65535 }]
  | 7 | 8 =>
    [{ w := 0, mask := 0xF000#32 }, { w := 1, reset := 1#32 }, { w := 2, reset := 1#32, chk := .n 1 0xFFFFFFFF },
     pwR 3 1 pos none, pwR 4 1 pos none, pwR 5 1 pos none, pwR 6 10 pos none, pwR 7 10 none none, pwR 8 0 none none, pwR 9 0 none none,
     pwR 10 1 pos (some (3 / 2))] ++ pwF 11 14 ++ [pwR 15 0 pos none, pwR 16 0 none pos] ++ pwF 17 19 ++ [pwR 20 0 pos (some 1)]
    ++ pwF 21 22 ++ [pwR 23 0 pos (some 1), pwR 24 0 none none, { w := 25, mask := 0xFFFF#32, reset := 4#32, chk := .n 1 65535 },
        pwR 26 0 none none]
    ++ (List.range 6).map (fun i => { w := 27 + i }) ++ pwF 33 35
    ++ [{ w := 36, mask := 0xFFFF#32, reset := 8#32, chk := .n 1 65535 }, pwLib 37]
  | 9 | 10 =>
    [{ w := 0, mask := 0xE000#32, reset := if kind = 10 then 0x8000#32 else 0#32 }, { w := 1, reset := 1#32 },
     { w := 2, reset := 1#32, chk := .n 1 0xFFFFFFFF }, { w := 3 }, { w := 4 }, pwLib 5]
  | 11 =>
    [pwR 1 1 pos none, pwR 2 0 pos none, pwR 3 10 none none, pwR 4 1 pos none, pwR 5 (1 / 1000) pos none,
     { w := 6, mask := 0xFF#32, reset := 16#32, chk := .n 1 64 }, pwLib 7]
  | 12 =>
    [{ w := 0, mask := 0xF000#32 }, pwR 1 1 none none] ++ pwF 2 6 ++ [pwR 7 (7071 / 10000) pos none, pwR 8 1 none none, pwLib 9]
  | 13 => [pwR 1 1 none none, pwR 2 0 none none, pwR 3 1 none none, pwR 4 0 none none, pwLib 5]
  | _ => []

/-- The words that a range above zero excludes zero from (R271, R299, R309). -/
def wordPositive (kind w : Nat) : Bool :=
  match kind with
  | 7 | 8 => decide (3 ≤ w) && decide (w ≤ 6)
  | 11 => w == 1 || w == 4 || w == 5
  | 12 => w == 7
  | _ => false

/-- The row of a word as it is written while word 0 holds `w0`: words 1 to 5 of a filter are RS with TYPE 0 only (R309). -/
def ctxRow (kind : Nat) (w0 : Word) (w : Nat) : Option PW :=
  if kind = 12 ∧ 1 ≤ w ∧ w ≤ 5 ∧ bitsOf w0 12 4 ≠ 0 then none else (ctxRows kind).find? (fun r => r.w == w)

/-- The value a written word leaves: RO bits stay, a subnormal binary32 becomes zero of its sign (R10, R11, R13). -/
def rowValue (r : PW) (old w : Word) : Word :=
  match r.chk with
  | .f _ _ => f32Flush w
  | _ => mergeBits old w r.mask

/-- A word outside its own range (R10, R209, R223). -/
def rowBad (s : State) (kind : Nat) (r : PW) (old w : Word) : Bool :=
  match r.chk with
  | .any => false
  | .f lo hi =>
    badF32 w || (lo.any (fun q => decide (ratOf (f32Flush w) < q))) || (hi.any (fun q => decide (q < ratOf (f32Flush w))))
    || (wordPositive kind r.w && decide (ratOf (f32Flush w) = 0))
  | .n lo hi => outNat lo hi (w &&& r.mask).toNat
  | .maps kinds =>
    (List.range kinds.length).any (fun i =>
      let m := bitsOf w (24 - 8 * i) 8
      (decide (64 ≤ m) && decide (m ≠ 0xFF)) || (mapValid s m && mapKind s m != nth kinds i 0))
  | .lib => w != fwLib s && w != old

/-- A notch at words `i`, `i + 1`, `i + 2` breaks R251 for the pass period; one of 0 Hz is bypassed. -/
def notchBad (nw : Nat → Word) (i : Nat) (tp : Rat) : Bool :=
  let nf := ratOf (nw i)
  let bw := ratOf (nw (i + 1))
  decide (nf ≠ 0) && ((decide (0 < tp) && decide (9 / 20 < nf * tp)) || decide (nf < 0) || decide (bw ≤ 0) || decide (2 * nf < bw))

/-- What relations between the words as they will stand refuse, where a word of the relation was written: BAD_PARAM. -/
def relBad (s : State) (slot : Nat) (nw : Nat → Word) (hit : Nat → Bool) : Bool :=
  let kind := (s.ctx slot).kind
  let f (w : Nat) : Rat := ratOf (nw w)
  let tp := ticksSec (frameWritten s (s.ctx slot).grp * max 1 (s.ctx slot).div)
  match kind with
  | 1 | 2 | 3 | 5 => hit 0 && bitsOf (nw 0) 0 8 == 0
  | 4 => (hit 0 && bitsOf (nw 0) 0 2 == 3) || ((hit 9 || hit 10) && decide (f 10 ≤ f 9))
  | 6 => (hit 4 || hit 5) && decide (f 5 < f 4)
  | 7 | 8 =>
    (hit 0 && bitsOf (nw 0) 14 2 == 3) || ((hit 5 || hit 7) && decide (f 7 < f 5))
    || ((hit 18 || hit 19) && notchBad nw 18 tp) || ((hit 21 || hit 22) && notchBad nw 21 tp)
  | 9 => hit 0 && bitsOf (nw 0) 14 2 != 0
  | 10 => hit 0 && bitsOf (nw 0) 14 2 != 1 && bitsOf (nw 0) 14 2 != 2
  | 11 => (hit 1 || hit 3) && decide (f 3 < f 1)
  | 12 =>
    let typ := bitsOf (nw 0) 12 4
    (hit 0 && decide (4 < typ))
    || ((hit 0 || hit 6 || hit 7) && typ != 0 && (decide (f 7 ≤ 0) || decide (f 6 ≤ 0) || (decide (0 < tp) && decide (9 / 20 ≤ f 6 * tp))))
  | _ => false

/-- An axis is in motion: its commanded state moves under a plan or a producer. -/
def axisInMotion (st : Nat) : Bool := st == 2 || st == 3 || st == 4 || st == 5 || st == 7 || st == 8 || st == 10

/-- What the state of the context refuses (R249, R271, R298, R299). -/
def relState (s : State) (slot : Nat) (nw : Nat → Word) (hit : Nat → Bool) : Option Nat :=
  let kind := (s.ctx slot).kind
  let chg (w : Nat) : Bool := nw w != s.cw slot w
  let bits (w lo n : Nat) : Bool := bitsOf (nw w) lo n != bitsOf (s.cw slot w) lo n
  match kind with
  | 7 | 8 =>
    let st := axisState s slot
    if bits 0 13 1 ∧ axisInMotion st then some stBUSY_TARGET
    else if (bits 0 14 2 ∨ chg 1 ∨ chg 2) ∧ 1 < st then some stREFUSED_STATE
    else none
  | 9 | 10 => if (bits 0 14 2 ∨ hit 1 ∨ hit 2) ∧ gearState s slot ≠ 0 then some stBUSY_TARGET else none
  | 11 => if chg 6 ∧ strokeState s slot ≠ 0 then some stREFUSED_STATE else none
  | _ => none

/-- Words written to a context from `off` on (R91, R223): they apply together at the boundary of its group. -/
def ctxParam (s : State) (slot off : Nat) (ws : List Word) : Res :=
  let c := s.ctx slot
  let given (w : Nat) : Option Word := if off ≤ w ∧ w < off + ws.length ∧ w < 128 then ws[w - off]? else none
  let w0 := match given 0, ctxRow c.kind 0#32 0 with
    | some x, some r => rowValue r (s.cw slot 0) x
    | _, _ => s.cw slot 0
  let row (w : Nat) : Option PW := if (given w).isSome then ctxRow c.kind w0 w else none
  let nw (w : Nat) : Word := match row w, given w with
    | some r, some x => rowValue r (s.cw slot w) x
    | _, _ => s.cw slot w
  let hits := (List.range 128).filter (fun w => (row w).isSome)
  let bad := hits.any (fun w => match row w, given w with
    | some r, some x => rowBad s c.kind r (s.cw slot w) x
    | _, _ => false)
  let past : Bool := decide (128 < off + ws.length)
  if bad ∨ relBad s slot nw (fun w => (row w).isSome) then refuse s stBAD_PARAM
  else orRefuse s (relState s slot nw (fun w => (row w).isSome))
    (if hits.all (fun w => nw w == s.cw slot w) then { st := s, status := stOK, as_ := if past then some stRANGE else none }
     else
       let s1 := hits.foldl (fun t w => t.setCw slot w (nw w)) s
       let due := dueNext s c.grp
       { st := addPend s1 c.grp due false (.ctxWords slot off (((List.range (min ws.length (128 - off))).map (fun i => nw (off + i))))),
         affects := [(c.grp, due)], as_ := if past then some stRANGE else none })

/-- CTX_PARAM (R223). -/
def opCtxParam (r : Request) (s : State) : Res :=
  orRefuse s (slotCheck s r.target [1, 2, 3, 4, 5, 6, 7, 8, 9, 10, 11, 12, 13])
    (if bitsOf (r.p 0) 16 16 ≠ 0 then refuse s stBAD_PARAM else ctxParam s r.target (r.p 0).toNat (r.params.drop 1))

def execCtxParam (r : Request) (s : State) : Host.Outcome State Fault Refusal :=
  .next (serveReed r s (decide (2 ≤ r.params.length) && decide (r.params.length ≤ 128)) (opCtxParam r))

/-- Written words take effect at the boundary (R14): the RS bits come into force, and what follows from them is brought up to
date: a filter's state and coefficients (R307), maps in use (R210), a replan of a moving axis (R261). -/
def ctxWordsApply (s : State) (slot off : Nat) (ws : List Word) : State :=
  let c := s.ctx slot
  let old0 := s.cp slot 0
  let s1 := (List.range ws.length).foldl (fun t i =>
    match ctxRow c.kind (t.cw slot 0) (off + i) with
    | some r => t.setFrc (ctxAddr slot (off + i)) (mergeBits (t.cp slot (off + i)) (nth ws i 0#32) r.mask)
    | none => t) s
  let hit (a b : Nat) : Bool := decide (off ≤ b) && decide (a < off + ws.length)
  match c.kind with
  | 1 | 2 => if hit 8 9 then storeUsers s1 else s1
  | 7 | 8 =>
    let prof := hit 0 0 && bitsOf (s1.cp slot 0) 13 1 != bitsOf old0 13 1
    if hit 3 8 || hit 27 30 || prof then wantReplan s1 slot else s1
  | 12 => filterRefresh (if bitsOf (s1.cp slot 0) 12 4 ≠ bitsOf old0 12 4 then s1.setSt slot (.filt {}) else s1) slot
  | _ => s1

/-! ### CTX_CREATE (R195, R246, R274, R286, R305) -/

/-- How many contexts the device holds of the kinds counted with a kind, and how many numbers those have. -/
def kindMates (kind : Nat) : List Nat × Nat :=
  match kind with
  | 1 | 2 | 3 | 4 => ([1, 2, 3, 4], 24)
  | 5 => ([5], 8)
  | 6 => ([6], 24)
  | 7 | 8 => ([7, 8], 64)
  | 9 | 10 => ([9, 10], 64)
  | 11 => ([11], 16)
  | _ => ([12, 13], 64)

/-- Kinds with a number of their own: axes, gears, stroke groups. -/
def kindNumbered (kind : Nat) : Bool := decide (7 ≤ kind) && decide (kind ≤ 11)

/-- The parameter word of a CTX_CREATE is refused with BAD_PARAM. -/
def createBad (s : State) (p : Word) : Bool :=
  let kind := bitsOf p 28 4
  let g := bitsOf p 25 3
  let d := 2 ^ bitsOf p 22 3
  let frame := frameWritten s g
  if kind = 0 ∨ 13 < kind then true
  else if kind ≤ 6 then bitsOf p 0 25 != 0
  else
    decide (5 < bitsOf p 22 3) || decide (d ≤ bitsOf p 16 6)
    || (match kind with
        | 7 | 8 => bitsOf p 0 16 != 0 || (frame != 0 && decide (frame * d < 25 * usTicks))
        | 9 | 10 => bitsOf p 0 16 != 0
        | 11 => bitsOf p 0 12 != 0 || outNat 1 8 (bitsOf p 12 4) || (frame != 0 && decide (frame * d < 100 * usTicks))
        | 12 => bitsOf p 0 12 != 0 || decide (4 < bitsOf p 12 4)
        | _ => bitsOf p 0 16 != 0)

/-- The state a context of a kind is created in. -/
def ctxFresh (kind : Nat) : CtxState :=
  match kind with
  | 1 | 2 | 3 | 4 => .wind {}
  | 5 => .mach {}
  | 6 => .obs {}
  | 7 | 8 => .axis {}
  | 9 | 10 => .gear {}
  | 11 => .stroke {}
  | 12 => .filt {}
  | _ => .plain

/-- The MOTION registers of an axis, gear or stroke group number: their first address (R272, R300). -/
def motionBase (kind num : Nat) : Nat :=
  match kind with
  | 7 | 8 => 0x140000 + 0x40 * num
  | 9 | 10 => 0x141000 + 0x40 * num
  | _ => 0x142000 + 0x40 * num

/-- Sixteen registers at their reset words. -/
def clearMotion (s : State) (kind num : Nat) : State :=
  if kindNumbered kind then (List.range 16).foldl (fun t i => t.setReg (motionBase kind num + 4 * i) (resetWord (motionBase kind num + 4 * i))) s else s

/-- A context created in a slot with a number: its words, its directory entry and its MOTION registers. -/
def ctxMake (s : State) (slot num : Nat) (p : Word) : State :=
  let kind := bitsOf p 28 4
  let c : Ctx := { kind := kind, grp := bitsOf p 25 3, div := 2 ^ bitsOf p 22 3, phase := bitsOf p 16 6, num := num, opts := p,
                   effDiv := 2 ^ bitsOf p 22 3, st := ctxFresh kind }
  let c := if kind ≤ 6 then { c with div := 1, phase := 0, effDiv := 1 } else c
  let s1 := s.setCtx slot c
  let put (t : State) (w : Nat) (x : Word) : State := (t.setCw slot w x).setFrc (ctxAddr slot w) x
  let s2 := (ctxRows kind).foldl (fun t r => put t r.w (if r.chk = .lib then fwLib s else r.reset)) s1
  let s3 := put s2 0 (p ||| s2.cw slot 0)
  let s4 := clearMotion s3 kind num
  let s5 := match kind with
    | 7 | 8 => ((s4.setFlag (R.motionAxinfo_USED num) true).setFld (R.motionAxinfo_SLOT num) slot)
    | 9 | 10 => (((s4.setFlag (R.motionGinfo_USED num) true).setFld (R.motionGinfo_SLOT num) slot).setFld (R.motionGinfo_GMODE num) (bitsOf (s4.cp slot 0) 14 2))
    | 11 => (((s4.setFlag (R.motionSinfo_USED num) true).setFld (R.motionSinfo_SLOT num) slot).setFld (R.motionSinfo_NAXES num) (bitsOf p 12 4))
    | _ => s4
  dirSet (filterRefresh s5 slot) slot

/-- CTX_CREATE. -/
def opCtxCreate (r : Request) (s : State) : Res :=
  let p := r.p 0
  let kind := bitsOf p 28 4
  let mates := kindMates kind
  let held := s.slots.filter (fun k => mates.1.contains (s.ctx k).kind)
  let num := if kindNumbered kind then findNat mates.2 (fun n => !(held.any (fun k => (s.ctx k).num == n))) else some 0
  if createBad s p then refuse s stBAD_PARAM
  else if mates.2 ≤ held.length then refuse s stRANGE
  else
    match findNat 256 (fun k => (s.ctx k).kind == 0), num with
    | some slot, some n =>
      { st := ctxMake s slot n p, status := stOK, data := if kindNumbered kind then [wd slot, wd n] else [wd slot] }
    | _, _ => refuse s stRANGE

def execCtxCreate (r : Request) (s : State) : Host.Outcome State Fault Refusal :=
  .next (serveReed r s (r.target == 0 && r.params.length == 1) (opCtxCreate r))

/-! ### CTX_DELETE (R40, R198, R438) -/

/-- Contexts a binding names, members and the watched winding among them. -/
def namedBy (s : State) (kind : Nat) (ws : List Word) : List Nat :=
  allLinks s kind ws
  ++ (match kind with
      | 5 => bMembers ws
      | 6 => [bWatch ws]
      | 11 => (bStroke ws).map (·.2)
      | _ => [])

/-- The contexts that name a context in their bindings as they stand or will stand. -/
def namers (s : State) (slot : Nat) : List Nat :=
  s.slots.filter (fun k => k != slot && ((namedBy s (s.ctx k).kind (curBind s k)).contains slot || (namedBy s (s.ctx k).kind (effBind s k)).contains slot))

/-- A winding that names a context as its angle source only, and is DISABLED (R40). -/
def angleOnly (s : State) (slot k : Nat) : Bool :=
  let one (ws : List Word) : Bool :=
    let kd := (s.ctx k).kind
    (kd == 1 || kd == 2) && bRef kd ws != slot && (bAng kd ws == .obs slot || !(allLinks s kd ws).contains slot)
  windState s k == 0 && one (curBind s k) && one (effBind s k)

/-- A deletion of the context waits for its boundary. -/
def deleting (s : State) (slot : Nat) : Bool :=
  s.loop.pend.any (fun p => match p.ch with
    | .delete k => k == slot
    | _ => false)

/-- Changes to a deleted context are discarded; a held reply for one carries REFUSED_STATE with the stamp of the deletion (R79). -/
def dropChanges (s : State) (slot stamp : Nat) : State :=
  let mine (p : Pend) : Bool := p.ch.slot? == some slot && p.ch != .delete slot
  let tickets := (s.loop.pend.filter mine).map (·.ticket) ++ (s.gear slot).todo.map (·.2.2)
  (s.withLoop { s.loop with pend := s.loop.pend.filter (fun p => p.ch.slot? != some slot) }).withCmd { s.cmd with deferred := s.cmd.deferred.map (fun (d : Deferred) =>
             if tickets.contains d.ticket then { d with waits := [], final := d.final.orElse (fun _ => some (stREFUSED_STATE, stamp)) } else d) }

/-- The angle fields that named a deleted observer name no source (R40). -/
def dropAngles (s : State) (slot : Nat) : State :=
  let cut (kd : Nat) (ws : List Word) : List Word := if (kd = 1 ∨ kd = 2) ∧ bAng kd ws = .obs slot then setAt ws 2 (bw ws 2 ||| 0xFFFF#32) else ws
  let s1 := s.slots.foldl (fun t k => t.setCtx k { t.ctx k with bind := cut (t.ctx k).kind (t.ctx k).bind }) s
  s1.withLoop { s1.loop with pend := s1.loop.pend.map (fun (p : Pend) => match p.ch with
    | .bind k ws => { p with ch := .bind k (cut (s1.ctx k).kind ws) }
    | _ => p) }

/-- OWNED and OWNER of the nib sets as the bindings in force give them (R167, R194). -/
def ownRefresh (s : State) : State :=
  (List.range 24).foldl (fun t k =>
    let o := setOwner t (curBind t) k
    (t.setFlag (R.nibSetinfo_OWNED k) o.isSome).setFld (R.nibSetinfo_OWNER k) (o.getD 0)) s

/-- A context is gone: its slot, number and resources are free, and the changes that waited for it are discarded (R40, R79, R198). -/
def ctxFree (s : State) (slot stamp : Nat) : State :=
  let c := s.ctx slot
  if c.kind = 0 then s
  else
    let chans := if isWinding c.kind then bAllChans c.kind c.bind else []
    let s1 :=
      if isWinding c.kind then
        let t := if (s.wind slot).ident.isSome then identEnd s slot 3 else s
        windRelease t slot
      else s
    let owns : Bool := match (s1.axis slot).home with
      | some h => homeLatch h.method
      | none => false
    let s2 := if (c.kind = 7 ∨ c.kind = 8) ∧ owns then
        latchGive s1 (bLatch c.bind) else s1
    let s3 := clearMotion s2 c.kind c.num
    let s4 := (List.range 128).foldl (fun t w => (t.setCw slot w 0#32).setFrc (ctxAddr slot w) 0#32) s3
    let s5 := dropAngles ((dropChanges s4 slot stamp).setCtx slot {}) slot
    let l := s5.loop
    let s6 := s5.withLoop { l with runs := l.runs.filter (fun r => r.slot != slot), moves := l.moves.filter (fun e => e.2.1 != slot),
                                         grps := l.grps.map (fun (x : GrpS) => { x with todo := x.todo.filter (· != slot) }) }
    ownRefresh (loopRefresh (storeUsers (dirSet (chans.foldl senseRebind s6) slot)))

/-- CTX_DELETE. -/
def opCtxDelete (r : Request) (s : State) : Res :=
  let k := r.target
  let c := s.ctx k
  let names := namers s k
  let badNames := !(c.kind == 6 && names.all (angleOnly s k)) && names != []
  let badMach := c.kind == 5 && ((bMembers (curBind s k)).any (fun m => windState s m != 0))
  orRefuse s (slotCheck s k [1, 2, 3, 4, 5, 6, 7, 8, 9, 10, 11, 12, 13])
    (if badNames ∨ badMach ∨ (sheafHolds s ∧ c.grp = 0 ∧ inCommitted s k ∧ !tg0Committed s (some k)) then refuse s stREFUSED_STATE
     else if !inCommitted s k ∨ (s.grp c.grp).p = 0 then { st := ctxFree s k 0, status := stOK }
     else { st := addPend s c.grp (dueNext s c.grp) false (.delete k), affects := [(c.grp, dueNext s c.grp)] })

def execCtxDelete (r : Request) (s : State) : Host.Outcome State Fault Refusal := .next (serveReed r s r.params.isEmpty (opCtxDelete r))

/-! ### CTX_BIND (R196, R197, R247, R275, R286, R306, R441) -/

/-- COUNT of a CTX_BIND by kind. -/
def bindCount (kind : Nat) : Nat :=
  match kind with
  | 1 | 2 | 3 | 4 | 9 | 10 => 3
  | 5 | 7 | 8 => 4
  | 6 | 13 => 2
  | 11 => 5
  | _ => 1

/-- A link field names a producer of none of the kinds it takes; 0xFFFF names none, and a value of R441 another module's. -/
def linkBad (s : State) (g : Nat) (kinds : List Nat) (v : Nat) : Bool :=
  if v = 0xFFFF then false
  else if v < 256 then !kinds.contains (s.ctx v).kind || deleting s v
  else if v ≤ 0x10FF then !farOk s v g else true

/-- A position or angle source that is none: of the wrong kind or no source. -/
def srcBad (s : State) (g : Nat) : Src → Bool
  | .none => false
  | .fb _ => false
  | .obs k => linkBad s g [6] k
  | .bad => true

def gsrcBad (s : State) (g : Nat) : GSrc → Bool
  | .none => false
  | .axisCmd k => k == 0xFFFF || linkBad s g [7, 8] k
  | .axisAct k => k == 0xFFFF || linkBad s g [7, 8] k
  | .pos x => srcBad s g x
  | .bad => true

/-- A channel field of a binding: 128 to 254 name none (R196). -/
def chanBad (v : Nat) : Bool := decide (128 ≤ v) && decide (v ≠ 0xFF)

/-- The nib set does not fit the winding: another group, or another count than its kind takes (R197). -/
def setUnfit (s : State) (kind g k : Nat) : Bool :=
  let ns := setNibs s k
  decide (k ≠ 0xFF)
  && (decide (24 ≤ k) || ns.any (fun n => nibGrp s n != g)
      || (match kind with
          | 1 | 2 => ns.length != 3
          | 3 => ns.length != 4
          | _ => outNat 1 8 ns.length))

/-- Status of a winding's binding. -/
def bindWinding (s : State) (slot : Nat) (ws : List Word) : Option Nat :=
  let c := s.ctx slot
  let set := bSet ws
  let ch := bChans c.kind ws
  let b := bindWith (effBind s) slot ws
  if (chanBad (bitsOf (bw ws 0) 16 8) ∨ chanBad (bitsOf (bw ws 0) 8 8) ∨ chanBad (bitsOf (bw ws 0) 0 8) ∨ chanBad (bVdc ws))
      ∨ setUnfit s c.kind c.grp set
      ∨ ((c.kind = 1 ∨ c.kind = 2) ∧ 2 ≤ (ch.filter (· == 0xFF)).length)
      ∨ linkBad s c.grp [5, 7, 8] (bRef c.kind ws) ∨ srcBad s c.grp (bAng c.kind ws)
      ∨ (bAllChans c.kind ws).any (fun x => decide (2 < (chanGroups s b x).length)) then some stBAD_PARAM
  else if set ≠ 0xFF ∧ s.slots.any (fun k => k != slot && isWinding (s.ctx k).kind && (bSet (effBind s k) == set || bSet (curBind s k) == set)) then
    some stBUSY_TARGET
  else if windState s slot ≠ 0
      ∨ ((c.kind = 1 ∨ c.kind = 2) ∧ ([24, 16, 8, 0].map (bitsOf (s.cw slot 8) · 8) ++ [bitsOf (s.cw slot 9) 24 8]).any (fun m => decide (m < 64) && !mapValid s m)) then
    some stREFUSED_STATE
  else none

/-- Status of a machine's binding. -/
def bindMachine (s : State) (slot : Nat) (ws : List Word) : Option Nat :=
  let c := s.ctx slot
  let mem := bMembers ws
  let other (m : Nat) : Bool := s.slots.any (fun k => k != slot && (s.ctx k).kind == 5 && ((bMembers (effBind s k)).contains m || (bMembers (curBind s k)).contains m))
  if outNat 2 4 mem.length ∨ mem.eraseDups.length ≠ mem.length
      ∨ mem.any (fun m => decide (255 < m) || !([1, 2].contains (s.ctx m).kind) || (s.ctx m).grp != c.grp || deleting s m)
      ∨ linkBad s c.grp [7, 8] (bRef 5 ws) ∨ srcBad s c.grp (bAng 5 ws) then some stBAD_PARAM
  else if mem.any other then some stBUSY_TARGET
  else if (mem ++ bMembers (curBind s slot)).any (fun m => windState s m != 0) then some stREFUSED_STATE
  else none

/-- Status of an observer's binding. -/
def bindObserver (s : State) (_ : Nat) (ws : List Word) : Option Nat :=
  let w := bWatch ws
  if 255 < w ∨ !([1, 2].contains (s.ctx w).kind) ∨ deleting s w ∨ (15 < bCmp ws ∧ bCmp ws ≠ 0xFF) then some stBAD_PARAM
  else none

/-- A field channel of an axis that is no input; 0xFF names none (R247). -/
def inputBad (s : State) (c : Nat) : Bool := decide (c ≠ 0xFF) && (decide (32 ≤ c) || fioOut s c)

/-- Status of an axis's binding. -/
def bindAxis (s : State) (slot : Nat) (ws : List Word) : Option Nat :=
  let c := s.ctx slot
  let u := bLatch ws
  if srcBad s c.grp (bPos ws) ∨ linkBad s c.grp [9, 10, 11] (bProd ws) ∨ (64 ≤ u ∧ u ≠ 0xFF)
      ∨ inputBad s (bHomeSw ws) ∨ inputBad s (bLimNeg ws) ∨ inputBad s (bLimPos ws) then some stBAD_PARAM
  else if u < 64 ∧ s.flag (R.latchStat_OWNED u) then some stBUSY_TARGET
  else if 1 < axisState s slot then some stREFUSED_STATE
  else none

/-- Status of a gear's binding. -/
def bindGear (s : State) (slot : Nat) (ws : List Word) : Option Nat :=
  let c := s.ctx slot
  let gm := bitsOf (s.cw slot 0) 14 2
  let cam := bCam ws
  if bMaster ws = .none ∨ gsrcBad s c.grp (bMaster ws) ∨ gsrcBad s c.grp (bMod ws) ∨ (32 ≤ cam ∧ cam ≠ 0xFF)
      ∨ ((gm = 1 ∨ gm = 2) ∧ cam = 0xFF) ∨ (gm = 2 ∧ bMod ws = .none) then some stBAD_PARAM
  else if gearState s slot ≠ 0 ∨ (cam < 32 ∧ !s.flag (R.camDir_VALID cam)) then some stREFUSED_STATE
  else none

/-- Status of a stroke group's binding. -/
def bindStroke (s : State) (slot : Nat) (ws : List Word) : Option Nat :=
  let mem := (bStroke ws).map (·.2)
  if bitsOf (bw ws 4) 8 24 ≠ 0 ∨ mem.length ≠ naxes s slot ∨ mem.eraseDups.length ≠ mem.length
      ∨ mem.any (fun m => decide (255 < m) || !([7, 8].contains (s.ctx m).kind) || deleting s m) then some stBAD_PARAM
  else none

/-- An input word of a filter or probe is refused (R306). -/
def fpBad (s : State) (slot : Nat) (w : Word) : Bool :=
  let f := fpIn w
  let g := (s.ctx slot).grp
  match f.kind with
  | 0 => decide (127 < f.src) || !(chanGroups s (curBind s) f.src).contains g
  | 1 => decide (127 < f.src)
  | 2 => if f.obs then f.src == 0xFFFF || linkBad s g [6] f.src else decide (15 < f.src)
  | 3 => f.src == 0xFFFF || linkBad s g [1, 2, 3, 4, 5, 6, 7, 8, 9, 10, 11, 12, 13] f.src || outNat 64 127 f.word
  | 4 => decide (63 < f.src) || (axisSlot s f.src).isNone || decide (4 < f.word)
  | _ => true

/-- Status of the binding of a filter or probe. -/
def bindFilter (s : State) (slot : Nat) (ws : List Word) : Option Nat :=
  if fpBad s slot (bw ws 0) ∨ ((s.ctx slot).kind = 13 ∧ bw ws 1 ≠ 0xFFFFFFFF#32 ∧ fpBad s slot (bw ws 1)) then some stBAD_PARAM else none

/-- What refuses a binding, the cycle of R24 among it. -/
def bindStatus (s : State) (slot : Nat) (ws : List Word) : Option Nat :=
  let c := s.ctx slot
  let own := match c.kind with
    | 1 | 2 | 3 | 4 => bindWinding s slot ws
    | 5 => bindMachine s slot ws
    | 6 => bindObserver s slot ws
    | 7 | 8 => bindAxis s slot ws
    | 9 | 10 => bindGear s slot ws
    | 11 => bindStroke s slot ws
    | _ => bindFilter s slot ws
  if own = some stBAD_PARAM then own
  else if hasCycle s (bindWith (effBind s) slot ws) then some stBAD_PARAM
  else own

/-- CTX_BIND: a committed context re-runs the tests over the links as they will stand (R40). -/
def opCtxBind (r : Request) (s : State) : Res :=
  let k := r.target
  let c := s.ctx k
  orRefuse s (slotCheck s k [1, 2, 3, 4, 5, 6, 7, 8, 9, 10, 11, 12, 13])
    (if r.params.length ≠ bindCount c.kind then refuse s stBAD_PARAM
     else orRefuse s (bindStatus s k r.params)
      (if inCommitted s k ∧ (admResult s { admNow s (committedSet s) with bind := bindWith (effBind s) k r.params }).1 ≠ 0 then refuse s stOVERSUBSCRIBED
       else { st := addPend s c.grp (dueNext s c.grp) false (.bind k r.params), affects := [(c.grp, dueNext s c.grp)] }))

def execCtxBind (r : Request) (s : State) : Host.Outcome State Fault Refusal :=
  .next (serveReed r s (!r.params.isEmpty) (opCtxBind r))

/-- A binding takes effect at its boundary: integrators, owners and users follow; an axis takes its next sample as the first of a
new source (R157, R199, R249). -/
def bindApply (s : State) (slot : Nat) (ws : List Word) : State :=
  let c := s.ctx slot
  let old := c.bind
  let chans := if isWinding c.kind then (bAllChans c.kind old ++ bAllChans c.kind ws).eraseDups else []
  let s1 := if isWinding c.kind ∧ bSet old ≠ bSet ws then [bSet old, bSet ws].foldl (fun t k => if k < 24 then setRelease t k else t) s else s
  let s2 := s1.setCtx slot { s1.ctx slot with bind := ws }
  let s3 := if (c.kind = 7 ∨ c.kind = 8) ∧ bPos old ≠ bPos ws then s2.setSt slot (.axis { s2.axis slot with pos := none }) else s2
  ownRefresh (loopRefresh (storeUsers (chans.foldl senseRebind s3)))

/-! ### ADMIT (R34, R41) -/

/-- The window an ADMIT asks for a group, 0 unchanged. -/
def admitWin (r : Request) (g : Nat) : Nat := if bitOf (r.p 0) 2 then bitsOf (r.p (2 + g / 4)) (8 * (g % 4)) 8 else 0

/-- ADMIT's parameters are refused with BAD_PARAM. -/
def admitBad (r : Request) : Bool :=
  let env := bitOf (r.p 0) 1
  let e := r.p 1
  bitsOf (r.p 0) 3 29 != 0
  || (env && (bitsOf e 28 4 != 0 || bitsOf e 8 8 != 0 || outNat 600 900 (bitsOf e 16 12) || decide (150 < bitsOf e 0 8)))
  || (List.range 8).any (fun g => admitWin r g != 0 && outNat 10 90 (admitWin r g))

/-- ADMIT. -/
def opAdmit (r : Request) (s : State) : Res :=
  let env := bitOf (r.p 0) 1
  let mv := bitsOf (r.p 1) 16 12
  let tj := bitsOf (r.p 1) 0 8
  let win (g : Nat) : Nat := if admitWin r g = 0 then windowPct s g else admitWin r g
  let a : AdmitIn := { admNow s s.slots with floor := if env then paceFloor mv tj else s.fld R.loopFloor_FLOOR_PS, win := win }
  let res := admResult s a
  let uses := (List.range 4).map (fun i => wd (admUse s a (2 * i) + 65536 * admUse s a (2 * i + 1)))
  let data := [wd (res.1 * 2 ^ 24 + res.2 * 65536), wd a.floor, wd (centi (admLoad s a)), wd (centi (admLimit a.floor))] ++ uses
  let new := s.slots.filter (fun k => !inCommitted s k)
  let wins := (List.range 8).filter (fun g => admitWin r g != 0)
  if admitBad r then refuse s stBAD_PARAM
  else if res.1 ≠ 0 then { st := s, status := stOVERSUBSCRIBED, data := data }
  else if bitOf (r.p 0) 0 then { st := s, status := stOK, data := data }
  else
    let s1 := if env then setEnvelope s mv tj else s
    let s2 := wins.foldl (fun t g => addPend t g (dueNext t g) false (.window (admitWin r g))) s1
    let s3 := new.foldl (fun t k => addPend t (t.ctx k).grp (dueNext t (t.ctx k).grp) false (.commit k)) s2
    let grps := (wins ++ new.map (fun k => (s.ctx k).grp)).eraseDups
    { st := (loopRefresh s3).raise 99 0 (wd new.length), data := data, affects := grps.map (fun g => (g, dueNext s g)) }

def execAdmitRq (r : Request) (s : State) : Host.Outcome State Fault Refusal :=
  .next (serveReed r s (r.target == 0 && r.params.length == 4) (opAdmit r))

end Sys2Proof.Machine
end

