-- ==== Sys2Proof/Machine/Loop.lean ====
section
/-! DEFINITION. Pace, shedding and the passes of the Quills (02_selftimed_core.md, R32 to R48, R42 to R45; 01_architecture.md, R24 to R26). -/

namespace Sys2Proof.Machine

open Sys2Proof

/-! ### Pace and shedding (R32, R46 to R48) -/

/-- Measurements of 10 µs in 1 ms and in 100 ms. -/
def shedRiseRun : Nat := 100
def shedFallRun : Nat := 10000

/-- One measurement of the pace monitor (R32, R46). Nothing is measured while the timebase is invalid. -/
def paceMeasure (s : State) (ps : Nat) : State :=
  if !tbValid s then s
  else
    let floor := s.fld R.loopFloor_FLOOR_PS
    let slow : Bool := decide (floor < ps)
    let s1 := (s.setFld R.loopPace_LIVE_PS ps).setFld R.loopPace_WORST_PS (max ps (s.fld R.loopPace_WORST_PS))
    let s2 := s1.setFlag R.loopStat_PACE_SLOW slow
    let fast : Bool := decide (100 * ps ≤ 97 * floor)
    let s3 := s2.withLoop { s2.loop with wasSlow := slow, slow := if slow then s.loop.slow + 1 else 0, rose := slow && s.loop.rose,
                                               fast := if fast then s.loop.fast + 1 else 0 }
    if slow && !s.loop.wasSlow then s3.raise 4 0 (wd ps) else s3

/-- The figure of an interval in whole picoseconds: the slowest of its ten measurements, given in femtoseconds, rounded up (R32).
DESIGN CHOICE (log entry 73): a figure beyond the 16-bit field saturates. -/
def paceFigure (fs : List (BitVec 32)) : Nat := min 0xFFFF (((fs.map (·.toNat)).foldl max 0 + 999) / 1000)

def execPaceMeasurement (fs : List (BitVec 32)) (s : State) : Host.Outcome State Fault Refusal := .next (paceMeasure s (paceFigure fs))

/-- A level has a measure for contexts of a kind (R47). -/
def shedKind (level kind : Nat) : Bool :=
  (kind == 11 && decide (2 ≤ level)) || ((kind == 9 || kind == 10) && decide (3 ≤ level)) || ((kind == 7 || kind == 8) && decide (4 ≤ level))

/-- The divider of a context of a kind at a level: doubled where the level sheds the kind (R48). -/
def shedDiv (level kind d : Nat) : Nat := if shedKind level kind then 2 * d else d

/-- The kinds whose measure comes or goes with a level. -/
def levelKinds (level : Nat) : List Nat :=
  match level with
  | 1 => [13]
  | 2 => [11]
  | 3 => [9, 10]
  | 4 => [7, 8]
  | _ => []

/-- The level changes: it takes effect at the next boundary of each affected group (R48). -/
def shedPend (s : State) (level : Nat) : State :=
  (List.range 8).foldl (fun t g =>
    if t.slots.any (fun k => (t.ctx k).grp == g && (levelKinds level).contains (t.ctx k).kind) then
      t.withLoop { t.loop with pend := t.loop.pend ++ [{ grp := g, due := dueNext t g, ch := .shed }] }
    else t) s

/-- The level rises after the second consecutive slow measurement, then after each further 1 ms of slow ones (R46). -/
def shedRise (s : State) : State :=
  let level := s.fld R.loopShed_LEVEL
  let due : Bool := if s.loop.rose then decide (shedRiseRun ≤ s.loop.slow) else decide (2 ≤ s.loop.slow)
  if !due || decide (4 ≤ level) then s
  else
    let s1 := (s.setFld R.loopShed_LEVEL (level + 1)).cntSat R.loopShed_RISES
    shedPend ((s1.withLoop { s1.loop with slow := 0, rose := true }).raise 5 0 (wd (level + 1))) (level + 1)

def execShedLevelRise (s : State) : Host.Outcome State Fault Refusal := .next (shedRise s)

/-- The level falls after each 100 ms in which every measurement is at least 3 % faster than the floor (R46). -/
def shedFall (s : State) : State :=
  let level := s.fld R.loopShed_LEVEL
  if level = 0 ∨ s.loop.fast < shedFallRun then s
  else
    let s1 := s.setFld R.loopShed_LEVEL (level - 1)
    shedPend ((s1.withLoop { s1.loop with fast := 0 }).raise 6 0 (wd (level - 1))) level

def execShedLevelFall (s : State) : Host.Outcome State Fault Refusal := .next (shedFall s)

/-- A shed level takes effect at a boundary of a group (R47, R48): probes stop or run again, dividers double or return, filters
and axes recompute for their pass period. -/
def shedApply (s : State) (g : Nat) : State :=
  let level := s.fld R.loopShed_LEVEL
  let mine := s.slots.filter (fun k => (s.ctx k).grp == g && (s.ctx k).committed)
  mine.foldl (fun t k =>
    let c := t.ctx k
    if c.kind = 13 then
      let held : Bool := decide (1 ≤ level)
      if held && !bitOf (t.cw k 64) 29 then
        inkGap (t.setCw k 64 (withBits (t.cw k 64) 29 1 1)) 2 (fun ch => t.fld (R.inkCcfg_KIND ch) == 4 && t.fld (R.inkCcfg_SRC ch) == k)
      else if held then t else t.setCw k 64 (withBits (t.cw k 64) 29 1 0)
    else
      let d := shedDiv level c.kind c.div
      if d = c.effDiv then t else dirSet (t.setCtx k { c with effDiv := d }) k) s

/-- The core die measures VCORE in mV and the junction in °C, a signed number (R35). -/
def envelopeMeasure (s : State) (mv tj : BitVec 16) : State :=
  if decide (mv.toNat < s.fld R.loopEnv_VCORE_MIN) || decide ((s.fld R.loopEnv_TJ_MAX : Int) < tj.toInt) then
    s.raiseLim 7 0 (wd (mv.toNat * 65536 + tj.toNat)) (100 * msTicks) else s

def execEnvelopeMeasurement (mv tj : BitVec 16) (s : State) : Host.Outcome State Fault Refusal := .next (envelopeMeasure s mv tj)

/-- A write of LOOP.CTRL (R54). -/
def loopCtrlWrite (s : State) (w : Word) : Res :=
  let s1 := if bitOf w 1 then (List.range 8).foldl (fun t g => t.setReg (R.loopLate g) 0#32) s else s
  { st := if bitOf w 0 then s1.setFld R.loopPace_WORST_PS 0 else s1 }

def execLoopClrLate (s : State) : Host.Outcome State Fault Refusal := .next (regRowWrite s R.loopCtrl (loopCtrlWrite s 2#32))
def execLoopClrWorst (s : State) : Host.Outcome State Fault Refusal := .next (regRowWrite s R.loopCtrl (loopCtrlWrite s 1#32))

/-! ### Passes start (R24 to R26, R42) -/

/-- A context's pass of the running frame of its group is not finished. -/
def unfinished (s : State) (slot : Nat) : Bool :=
  ((s.grp (s.ctx slot).grp).todo).contains slot || s.loop.runs.any (fun r => r.slot == slot)

/-- A pass is released: its results are posted, and its producers of this frame are finished or the link-skip instant has passed (R24). -/
def passReady (s : State) (slot : Nat) : Bool :=
  let gs := s.grp (s.ctx slot).grp
  let posted : Bool := match gs.rel with
    | some t => decide (t ≤ s.dt)
    | none => false
  posted && (gs.skip || (groupLinks s (curBind s) slot).all (fun k => k == slot || !unfinished s k))

/-- The deadline of the running frame of a group (R26). -/
def deadline (s : State) (g : Nat) : Tick := (s.grp g).bndAt + tk (s.grp g).w

/-- Of two ready passes the one that starts first: earliest deadline, lower group, lower slot (R26). -/
def passBefore (s : State) (a b : Nat) : Bool :=
  let ga := (s.ctx a).grp
  let gb := (s.ctx b).grp
  let da := deadline s ga
  let db := deadline s gb
  decide (da < db) || (da == db && (decide (ga < gb) || (ga == gb && decide (a < b))))

/-- The first of the ready passes. -/
def firstReady (s : State) : Option Nat :=
  let all := ((List.range 8).flatMap (fun g => (s.grp g).todo)).filter (passReady s ·)
  all.foldl (fun best k => match best with
    | none => some k
    | some b => if passBefore s k b then some k else some b) none

def Src.keys : Src → List Nat
  | .fb n => [inFb n]
  | .obs k => [k]
  | _ => []

def GSrc.keys : GSrc → List Nat
  | .axisCmd k => [k]
  | .axisAct k => [k]
  | .pos x => x.keys
  | _ => []

/-- What a pass reads when it starts (R42): its producers, the feedback sources it names, for a winding the observer that watches
it, for an observer the winding it watches. -/
def passKeys (s : State) (slot : Nat) : List Nat :=
  let k := (s.ctx slot).kind
  let b := curBind s slot
  let watchers := s.slots.filter (fun o => (s.ctx o).kind == 6 && bWatch (curBind s o) == slot)
  let mach := if k = 1 ∨ k = 2 then machineOf s (curBind s) slot else none
  match mach with
  | some m => m :: (bAng 5 (curBind s m)).keys ++ watchers
  | none =>
    if k ≤ 5 then bRef k b :: (bAng k b).keys ++ watchers
    else match k with
      | 6 => [bWatch b, inFb (bCmp b)]
      | 7 => bProd b :: (bPos b).keys
      | 8 => bProd b :: (bPos b).keys
      | 9 => (bMaster b).keys ++ (bMod b).keys
      | 10 => (bMaster b).keys ++ (bMod b).keys
      | _ => []

/-- The output of a watched winding an observer reads (R196, R221): that of the frame before the boundary `t`. -/
def watchedOut (s : State) (k : Nat) (t : Tick) : List Word :=
  let c := s.ctx k
  if (w64 c.out 0 - t).toInt < 0 then c.out else c.prev

/-- The captured inputs of a pass. -/
def passInputs (s : State) (slot : Nat) : List (Nat × List Word) :=
  let c := s.ctx slot
  if c.kind = 12 then [(inFp 0, fpValue s c.grp (bw c.bind 0))]
  else if c.kind = 13 then [(inFp 0, fpValue s c.grp (bw c.bind 0)), (inFp 1, fpValue s c.grp (bw c.bind 1))]
  else ((passKeys s slot).filter (· != 0xFFFF)).map (fun k =>
    (k, if c.kind = 6 ∧ k = bWatch c.bind then watchedOut s k (s.grp c.grp).bndAt else inputNow s k))

/-- A free Quill takes the first ready pass (R42); a link that is too old is stale (R441). -/
def passStart (s : State) : State :=
  if 8 ≤ s.loop.runs.length ∨ !tbValid s then s
  else match firstReady s with
    | none => s
    | some k =>
      let c := s.ctx k
      let s1 := (farLinks s c.kind c.bind).foldl (fun t v => farAge t v) s
      let gs := s1.grp c.grp
      let r : Run := { slot := k, grp := c.grp, seq := s1.reg (R.nibGseq c.grp), ins := passInputs s1 k, t := gs.bndAt, el := (gs.bndAt - c.last).toNat,
                       ctx := s1.ctx k, stat := s1.cw k 64 }
      let s2 := s1.setGrp c.grp { gs with todo := gs.todo.filter (· != k) }
      s2.withLoop { s2.loop with runs := s2.loop.runs ++ [r] }

def execPassStart (s : State) : Host.Outcome State Fault Refusal := .next (passStart s)

/-- The link-skip instant of a frame: consumers that still wait are released, each unfinished producer told (R24). -/
def linkSkip (s0 : State) (g : Nat) : State :=
  match (s0.grp g).rel with
  | none => s0
  | some rel =>
    if (s0.grp g).skip || !tbValid s0 then s0
    else
      let s := s0.at (rel + tk ((s0.grp g).w / 2))
      let gs := s.grp g
      let told := gs.todo.flatMap (fun k => ((groupLinks s (curBind s) k).filter (fun p => p != k && unfinished s p)).map (fun p => (k, p)))
      told.foldl (fun t e => t.raise 98 e.1 (wd e.2)) (s.setGrp g { gs with skip := true })

def execLinkSkipInstant (g : Fin 8) (s : State) : Host.Outcome State Fault Refusal := .next (linkSkip s g.val)

/-! ### Passes end (R42 to R45) -/

/-- A context that stands in a state takes another, each kind by its own rule; in any other state nothing changes. -/
def transApply (s : State) (e : Nat × Nat × Nat) : State :=
  let k := (s.ctx e.1).kind
  if isWinding k then (if windState s e.1 = e.2.1 then windSet s e.1 e.2.2 else s)
  else match k with
    | 7 => if axisState s e.1 = e.2.1 then axisSet s e.1 e.2.2 else s
    | 8 => if axisState s e.1 = e.2.1 then axisSet s e.1 e.2.2 else s
    | 9 => if gearState s e.1 = e.2.1 then gearSet s e.1 e.2.2 none else s
    | 10 => if gearState s e.1 = e.2.1 then gearSet s e.1 e.2.2 none else s
    | 11 => if strokeState s e.1 = e.2.1 then strokeSet s e.1 e.2.2 else s
    | _ => s

/-- Homing takes its latch unit (R266 step 2, R242): it is set up and armed; CHAT, LDLY and FILT keep the host's values. -/
def latchTake (s : State) (u src edge slot : Nat) : State :=
  let s1 := s.setRegs [(R.latchPsrc01 u, wd (2 * 2 ^ 30 + slot % 256 * 65536)), (R.latchPsrc23 u, 0#32), (R.latchWstartLo u, 0#32), (R.latchWstartHi u, 0#32),
    (R.latchWendLo u, 0#32), (R.latchWendHi u, 0#32)]
  let s2 := ((((((s1.setFld (R.latchCfg_EN u) 1).setFld (R.latchCfg_SRCK u) 0).setFld (R.latchCfg_SRC u) src).setFld (R.latchCfg_EDGE u) edge).setFld
    (R.latchCfg_MODE u) 0).setFld (R.latchCfg_NPOS u) 1)
  ((s2.setFlag (R.latchStat_OWNED u) true).setFlag (R.latchStat_ARMED u) true).setLu u { s2.lu u with waits := [] }

/-- What a pass does to other units as it commits. -/
def actApply (r : Run) (s : State) : PassAct → State
  | .latchArm u src edge slot => latchTake s u src edge slot
  | .latchFree u => latchGive s u
  | .zarm ch => fbZarm s ch
  | .disable k =>
    let ks := if (s.ctx k).kind = 5 then bMembers (curBind s k) else [k]
    let c := s.ctx r.slot
    ks.foldl (fun t w => t.withLoop { t.loop with pend := t.loop.pend ++ [{ grp := c.grp, due := duePass t c.grp c.effDiv c.phase, ch := .windDisable w 0 }] }) s
  | .hist src p v => histPush s src r.t p v
  | .gearDone ticket done => gearAnswer s r.slot ticket (if done then none else some (bitsOf r.seq 0 16))
  | .force off ws => (List.range ws.length).foldl (fun t i => t.setFrc (ctxAddr r.slot (off + i)) (nth ws i 0#32)) s
  | .inkAxis n x => inkStep s 5 n (passTicks s r.slot) r.t (fun _ => wordBytes [lo32 x, hi32 x])
  | .ringDrop n => ringDrop s n
  | .inkValue k src w => inkValue s k src r.t w
  | .inkProbe slot a b => inkStep s 4 slot (passTicks s slot) r.t (fun _ => wordBytes [a, b])

/-- Events of passes that are raised at most once per 100 ms and instance. -/
def passLimited (ev : Nat) : Bool := ev == 103 || ev == 109 || ev == 110 || ev == 168 || ev == 171

/-- A fault a pass detected takes effect (R201, R284): a winding goes to SHORT where FAULT_ACT says so and its nibs can, else to
FAULT; a gear disengages. -/
def passFault (s : State) (slot : Nat) (fault : Option Nat) : State :=
  match fault with
  | none => s
  | some cause =>
    let k := (s.ctx slot).kind
    if isWinding k then
      if windState s slot = 5 then s
      else if bitOf (s.cp slot 0) 22 && k != 4 && !windLatched s slot then
        if windState s slot = 4 ∧ windCause s slot = cause then s
        else
          let s1 := windSet s slot 4
          let s2 := (s1.setCw slot 64 (withBits (s1.cw slot 64) 24 4 cause)).raise 102 slot (wd cause)
          (match lowSide s2 slot with
           | some e => setCommit s2 e.set e.seq ((setNibs s2 e.set).zip e.edges) false
           | none => s2)
      else windFault s slot cause
    else gearSet s slot 0 (some cause)

/-- The words a pass writes: STATE and CAUSE of a winding are the loop engine's (R201). -/
def commitWords (s : State) (slot : Nat) (ws : List (Nat × Word)) : State :=
  ws.foldl (fun t e =>
    if e.1 = 64 ∧ isWinding (t.ctx slot).kind then t.setCw slot 64 (withBits e.2 24 8 (bitsOf (t.cw slot 64) 24 8))
    else t.setCw slot e.1 e.2) s

/-- Edges go to the shadow of the set as one unit (R42, R172), where the winding is not released or faulted meanwhile. -/
def commitEdges (s : State) (slot : Nat) (e : Option EdgeSet) : State :=
  match e with
  | some x => if windState s slot = 0 ∨ windState s slot = 5 then s else setCommit s x.set x.seq ((setNibs s x.set).zip x.edges) false
  | none => s

/-- The state a pass leaves its context with. What another happening changed while the pass ran stands: an identification run that began
or ended (R213), the state of an axis, gear or stroke group, the end of HOME_TMO. -/
def mergeSt (start now out : CtxState) : CtxState :=
  match start, now, out with
  | .wind a, .wind b, .wind o => .wind (if a.ident = b.ident then o else { o with ident := b.ident })
  | .axis a, .axis b, .axis o =>
    let o1 := { o with home := o.home.map (fun h => { h with tmo := (b.home.map (·.tmo)).getD h.tmo }) }
    .axis (if a.st = b.st then o1 else { o1 with st := b.st, ab := b.ab })
  | .gear a, .gear b, .gear o => .gear (if a.st = b.st then o else { o with st := b.st, cause := b.cause })
  | .stroke a, .stroke b, .stroke o => .stroke (if a.st = b.st then o else { o with st := b.st, starves := b.starves })
  | _, _, _ => out

/-- Everything a pass commits, as one unit (R42). -/
def commitOut (s : State) (r : Run) (o : PassOut) : State :=
  let k := r.slot
  let s1 := commitWords s k o.words
  let s2 := o.flds.foldl (fun t e => t.setFld e.1 e.2) s1
  let c := s2.ctx k
  let s3 := s2.setCtx k { c with st := mergeSt r.ctx.st c.st o.st, out := o.out, prev := c.out, last := r.t, late := 0 }
  let s4 := o.occs.foldl (fun t e => if passLimited e.ev then t.raiseLim e.ev e.inst e.detail (100 * msTicks) else t.raise e.ev e.inst e.detail) s3
  let s5 := passFault (commitEdges s4 k o.edges) k o.fault
  let s6 := o.trans.foldl transApply s5
  let s7 := o.acts.foldl (actApply r) s6
  let s8 := if o.moves = [] then s7 else s7.withLoop { s7.loop with moves := s7.loop.moves ++ [(r.grp, k, o.moves)] }
  linkSend (leadSees (motShow s8 k) k) k r.t

/-- All passes of a group's frame have committed or been abandoned. -/
def frameDone (s : State) (g : Nat) : Bool := (s.grp g).todo == [] && !s.loop.runs.any (fun r => r.grp == g)

/-- A pass ends: it commits, and the Quill is free (R42). -/
def passCommit (s : State) (slot : Nat) : State :=
  match s.loop.runs.find? (fun r => r.slot == slot) with
  | none => s
  | some r =>
    match r.out with
    | none => s
    | some o =>
      let s1 := commitOut (s.withLoop { s.loop with runs := s.loop.runs.filter (fun x => x.slot != slot) }) r o
      if frameDone s1 r.grp then mirrorSend s1 r.grp else s1

def execPassCommit (slot : Fin 256) (s : State) : Host.Outcome State Fault Refusal := .next (passCommit s slot.val)

/-- One late pass (R43 to R45): abandoned, counted and told; the third in a row of a winding is a fault, of an observer or machine an event. -/
def passLate (s : State) (g slot : Nat) : State :=
  let c := s.ctx slot
  let s1 := (s.cntSat (R.loopLate_COUNT g)).raise 96 slot (wd (g * 65536 + bitsOf (s.reg (R.nibGseq g)) 0 16))
  let n := c.late + 1
  let third : Bool := n == 3 && (isWinding c.kind || c.kind == 5 || c.kind == 6)
  let s2 := s1.setCtx slot { c with late := if third then 0 else n }
  if !third then s2
  else
    let s3 := if isWinding c.kind then
        let s4 := match ownedSet s2 slot with
          | some k => sourceAct s2 (setNibs s2 k) 5
          | none => s2
        if windState s4 slot = 0 then s4 else windFault s4 slot 2
      else s2
    s3.raise 97 slot (wd g)

/-- The deadline of a frame: every pass of the group that has not committed is late (R43). -/
def passDeadline (s0 : State) (g : Nat) : State :=
  if !tbValid s0 || frameDone s0 g then s0
  else
    let s := s0.at (deadline s0 g)
    let gs := s.grp g
    let late := gs.todo ++ (s.loop.runs.filter (fun r => r.grp == g)).map (·.slot)
    let s1 := s.setGrp g { gs with todo := [] }
    let s2 := s1.withLoop { s1.loop with runs := s1.loop.runs.filter (fun r => r.grp != g) }
    mirrorSend (late.foldl (fun t k => passLate t g k) s2) g

def execPassDeadline (g : Fin 8) (s : State) : Host.Outcome State Fault Refusal := .next (passDeadline s g.val)

end Sys2Proof.Machine
end

