-- ==== Sys2Proof/Machine/RegRead.lean ====
section
/-! DEFINITION. Reading a register (04_command_interface.md, R50, R51, R89, R107, R482): the value an address reads as, and the
latches of the ports for RL registers. -/

namespace Sys2Proof.Machine

open Sys2Proof

/-- What a read answers: the state after it, the value, and a status (OK, RANGE, INTERNAL). -/
structure Rd where
  st : State
  val : Word := 0#32
  status : Nat := 0

/-- An address without a register (R89). -/
def rdNone (s : State) : Rd := { st := s, status := stRANGE }

/-- Bits of `CLK.DT` as a register read gives them: the low five are zero (R62). -/
def dtRead (s : State) : Tick := s.dt &&& 0xFFFFFFFFFFFFFFE0#64

/-- `FW.TRIAL.REMAIN_S`: the seconds left in a trial, rounded up (R145). -/
def trialRemain (s : State) : Nat :=
  if s.flag R.fwStat_TRIAL && decide (s.dt < s.boot.trialEnd) then ((s.boot.trialEnd - s.dt).toNat + 1000 * msTicks - 1) / (1000 * msTicks) else 0

/-- The value an address reads as. -/
def regRead (s : State) (a : Nat) : Rd :=
  if 0x340000 ≤ a ∧ a < 0x380000 then { st := s, val := ringMemGet s ((a - 0x340000) / 4) }
  else if 0x100000 ≤ a ∧ a < 0x120000 then
    if (s.ctx ((a - 0x100000) / 0x200)).kind = 0 then rdNone s else { st := s, val := s.reg a }
  else if 0x162000 ≤ a ∧ a < 0x164000 then
    let i := (a - 0x162000) / 4
    if mapWindowHas i then { st := s, val := mapW s (s.fld R.mapSel_MAP) i } else rdNone s
  else if 0x1B4000 ≤ a ∧ a < 0x1B6000 then { st := s, val := tblGet s.sward.hrx ((a - 0x1B4000) / 4) 0#32 }
  else match regRow a with
    | none => rdNone s
    | some r =>
      if a = 0x010020 then { st := s, val := lo32 (dtRead s) }
      else if a = 0x010024 then { st := s, val := hi32 (dtRead s) }
      else if a = 0x1B0008 then { st := s, val := lo32 (ftAt s s.dt) }
      else if a = 0x1B000C then { st := s, val := hi32 (ftAt s s.dt) }
      else if a = R.fwTrial then { st := s, val := wd (trialRemain s) }
      else if 0x200000 ≤ a ∧ a ≤ 0x20008C then { st := s, val := nth s.safe.shown ((a - 0x200000) / 4) (resetWord a) }
      else if a < 0x031000 ∧ 0x030000 ≤ a then
        let k := keepRead s ((a - 0x030000) / 4)
        { st := k.2.2, val := k.1, status := k.2.1.getD 0 }
      else if 0x164200 ≤ a ∧ a ≤ 0x164208 then { st := s, val := camW s (s.fld R.camSel_CAM) (2048 + (a - 0x164200) / 4) }
      else if 0x166000 ≤ a ∧ a < 0x168000 then { st := s, val := camW s (s.fld R.camSel_CAM) ((a - 0x166000) / 4) }
      else if a / 0x10000 = 0x1F ∧ a < 0x1F0200 ∧ a % 16 = 8 then { st := s, val := fioChst s ((a - 0x1F0000) / 16) }
      else { st := s, val := s.reg a &&& ~~~(wd r.wo) }

/-- Both words of a 64-bit RL register are at this address and the next, or this one and the one before (R50). -/
def isRl (a : Nat) : Bool := match regRow a with
  | some r => r.rl
  | none => false

/-- A read through the latch of a port: the low word of an RL register loads it, its high word is returned from it once (R50). -/
def portRead (s : State) (p a : Nat) : Rd :=
  if !isRl a then regRead s a
  else if a % 8 = 0 then
    { st := s.withCmd { s.cmd with rl := setAt s.cmd.rl p (some (a, (regRead s (a + 4)).val)) }, val := (regRead s a).val }
  else match nth s.cmd.rl p none with
    | some (b, w) => if b + 4 = a then { st := s.withCmd { s.cmd with rl := setAt s.cmd.rl p none }, val := w } else regRead s a
    | none => regRead s a

/-- The addresses of a run of words; past 0xFF_FFFF they are unimplemented (R89). -/
def runAddrs (a n : Nat) : List Nat := (List.range n).map (fun i => a + 4 * i)

/-- Words read in order, the first status that is not OK kept, INTERNAL before RANGE. -/
def readRun (f : State → Nat → Rd) : State → List Nat → State × List Word × Nat
  | s, [] => (s, [], 0)
  | s, a :: as_ =>
    let x := f s a
    let y := readRun f x.st as_
    (y.1, x.val :: y.2.1, if x.status = stINTERNAL ∨ y.2.2 = stINTERNAL then stINTERNAL else max x.status y.2.2)

end Sys2Proof.Machine
end

