-- ==== Sys2Proof/Machine/Boundary.lean ====
section
/-! DEFINITION. Frame boundaries (01_architecture.md, R14, R19 to R27; 04_command_interface.md, R78, R79) and the calibration swaps that
take effect at them (05_startup_config_update.md, R139). -/

namespace Sys2Proof.Machine

open Sys2Proof

/-! ### Pending changes (R14, R79, R91) -/

/-- The order in which the changes of one boundary apply: a deletion comes before every other change (R79). -/
def changeRank (s : State) : Change → Nat
  | .delete _ => 0
  | .reg _ _ _ => 1
  | .groupState _ => 2
  | .ctxWords _ _ _ => 3
  | .bind _ _ => 4
  | .window _ => 5
  | .commit _ => 6
  | .windEnable _ => 7
  | .windDisable _ _ => 7
  | .ctxCmd k _ _ => if (s.ctx k).kind ≤ 8 then 8 else if (s.ctx k).kind ≤ 10 then 9 else 10
  | .linkCut _ => 11
  | .calMap _ => 12
  | .calSense _ => 12
  | .fwSwap _ => 13
  | .mtpa _ => 14
  | .shed => 15

/-- The registers of the RS fields that do more than take their value: an adjustment, an accumulator to clear, a comparator. -/
def regApply (s : State) (g a : Nat) (mask val : Word) : State :=
  let old := s.frc a
  let new := mergeBits old val mask
  if a = R.nibGper g then
    let s1 := (s.setFrc a new).setGrp g { s.grp g with p := bitsOf val 0 29 }
    (s1.slots.filter (fun k => (s1.ctx k).grp == g)).foldl filterRefresh s1
  else if a = R.nibGadj g then s.setGrp g { s.grp g with adj := (s.grp g).adj + val.toInt }
  else if 0x0A0000 ≤ a ∧ a < 0x0A2000 ∧ (List.range 128).any (fun c => R.senseOc c == a) then
    ocApply s (((List.range 128).find? (fun c => R.senseOc c == a)).getD 0) new
  else
    let s1 := s.setFrc a new
    if a < 0x084800 ∧ 0x080000 ≤ a ∧ (a - 0x080000) % 0x100 = 0 ∧ bitsOf old 18 2 ≠ bitsOf new 18 2 then
      let n := (a - 0x080000) / 0x100
      s1.setNibS n { s1.nibS n with clr := true }
    else s1

/-- A context becomes committed: its first pass may run from this boundary on (R41), in the shed form of the level (R48). -/
def commitApply (s : State) (g slot : Nat) (t : Tick) : State :=
  let c := s.ctx slot
  if c.kind = 0 then s
  else
    let d := shedDiv (s.fld R.loopShed_LEVEL) c.kind (max 1 c.div)
    let s1 := s.setCtx slot { c with committed := true, live := true, effDiv := d, late := 0, last := t - tk (frameLen s g * d) }
    shedApply (filterRefresh (loopRefresh (storeUsers (dirSet s1 slot))) slot) g

/-- A table has been swapped for its last group: event 26 (R139). -/
def calSwapped (s : State) (index kind : Nat) : State := s.raise 26 index (wd kind)

/-- The map swap of one group (R139, R210, R212): the copies exchange at the first group; the last one ends the swap. -/
def calMapApply (s : State) (m : Nat) : State :=
  let more := s.loop.pend.any (fun p => p.ch == .calMap m)
  let s1 := if mapW s m mBegun = 0#32 then mapSwap s m else s
  let s2 := movesDrop s1 m
  if more then (setMapW s2 m mBegun 1#32).setFlag (R.mapDir_SWAP_PEND m) true
  else calSwapped ((setMapW s2 m mBegun 0#32).setFlag (R.mapDir_SWAP_PEND m) false) m 1

/-- The sensing calibration of one channel at one of its groups (R139, R162). -/
def calSenseApply (s : State) (c : Nat) : State :=
  let more := s.loop.pend.any (fun p => p.ch == .calSense c)
  let done := s.sense.swapped.contains c
  let s1 := if done then s else calSwapChan s c
  let l := s1.sense.swapped.filter (· != c)
  let s2 := s1.withSense { s1.sense with swapped := if more then c :: l else l }
  if calSwapPending s2 then s2 else calSwapped s2 0 2

/-- A command of an axis, gear or stroke group takes effect; the flag says that it meets a state that refuses it. -/
def ctxCmdApply (s : State) (slot op : Nat) (ws : List Word) (t : Tick) (ticket : Nat) : State × Bool :=
  match (s.ctx slot).kind with
  | 7 => axisApply s slot op ws t
  | 8 => axisApply s slot op ws t
  | 9 => gearApply s slot op ws ticket
  | 10 => gearApply s slot op ws ticket
  | 11 => strokeApply s slot op ws
  | _ => (s, false)

/-- One pending change of a group takes effect at the boundary of sequence `seq` and instant `t`. It no longer waits. -/
def changeApply (s0 : State) (p : Pend) (seq : Word) (t : Tick) : State :=
  if !s0.loop.pend.contains p then s0
  else
    let s := s0.withLoop { s0.loop with pend := s0.loop.pend.erase p }
    let g := p.grp
    let stamp := bitsOf seq 0 16
    match p.ch with
    | .delete k => ctxFree s k stamp
    | .reg a mask val => regApply s g a mask val
    | .groupState st => groupStateApply s g st
    | .ctxWords k off ws => ctxWordsApply s k off ws
    | .bind k ws => bindApply s k ws
    | .window pct => loopRefresh (s.setFld (R.loopWindow_PCT g) pct)
    | .commit k => commitApply s g k t
    | .windEnable k => if windState s k ≠ 2 ∧ faultHolds s k then heldRefuse s p.ticket stamp else windEnableApply s k
    | .windDisable k mode => windDisableApply s k mode
    | .ctxCmd k op ws =>
      let x := ctxCmdApply s k op ws t p.ticket
      if x.2 then heldRefuse x.1 p.ticket stamp else x.1
    | .linkCut m => linkCut s g m
    | .calMap m => calMapApply s m
    | .calSense c => calSenseApply s c
    | .fwSwap kind => swapPassed (fwExchange s kind) p.ticket stamp
    | .mtpa m => mtpaApply s m
    | .shed => shedApply s g

/-- A pending change is due: assigned this boundary, or assigned none while its group had none (R20); a change of a carrier zero
waits for one. -/
def changeDue (p : Pend) (g : Nat) (seq : Word) (zero : Bool) : Bool :=
  p.grp == g && (p.due == some seq || p.due == none) && (zero || !p.zero)

/-- The changes of a boundary, in their order. -/
def changesApply (s : State) (g : Nat) (seq : Word) (zero : Bool) (t : Tick) : State :=
  let l := s.loop.pend.filter (changeDue · g seq zero)
  let sorted := (List.range 16).flatMap (fun r => l.filter (fun p => changeRank s p.ch == r))
  sorted.foldl (fun u p => changeApply u p seq t) s

/-- A group has no boundaries from now on: what waited for them waits for the first that comes, held replies go with PENDING (R79 item 7). -/
def groupHalts (s : State) (g : Nat) : State :=
  let s1 := s.setGrp g { s.grp g with next := none, first := true, todo := [], rel := none, skip := false, adj := 0, len := 0 }
  let s2 := s1.withLoop { s1.loop with pend := s1.loop.pend.map (fun (p : Pend) => if p.grp = g then { p with due := none } else p) }
  let s3 := s2.withCmd { s2.cmd with deferred := s2.cmd.deferred.map (fun (d : Deferred) =>
    if d.req.opcode = 0x84 ∨ !d.waits.any (fun w => if w.1 < 8 then w.1 == g else (s2.ctx (w.1 - 8)).grp == g) then d
    else { d with waits := [], final := d.final.orElse (fun _ => some (d.as_.getD stPENDING, 0)) }) }
  let s4 := (grpNibs s3 g).foldl nibStop s3
  (List.range 128).foldl (fun t c =>
    let x := t.chS c
    let a : Bool := t.flag (R.senseBind_A_EN c) && t.fld (R.senseBind_A_GRP c) == g
    let b : Bool := t.flag (R.senseBind_B_EN c) && t.fld (R.senseBind_B_GRP c) == g
    if a || b then t.setChS c { x with winA := if a then none else x.winA, winB := if b then none else x.winB } else t) s4

/-! ### The boundary (R19 to R27, R51) -/

/-- The words of the snapshots of a group, taken after the transfers of its boundary (R51); those of a READ_REG act on the latch of
its port (R50). -/
def snapsTake (s : State) (g : Nat) (seq : Word) : State :=
  (s.cmd.snaps.filter (fun x => x.grp == g && x.got.isNone)).foldl (fun t x =>
    let r := readRun (if x.req.opcode = 0x03 then fun u a => portRead u x.req.port.val a else regRead) t x.addrs
    r.1.withCmd { r.1.cmd with snaps := r.1.cmd.snaps.map (fun y => if y = x then { y with got := some (r.2.2, bitsOf seq 0 16, r.2.1) } else y) }) s

/-- Held replies have passed this boundary (R78). -/
def heldPass (s : State) (g : Nat) (seq : Word) : State :=
  s.withCmd { s.cmd with deferred := s.cmd.deferred.map (fun (d : Deferred) => { d with waits := d.waits.filter (· != (g, seq)) }) }

/-- A pass of a context runs in the frame of a sequence (R22): its divider in effect divides it, a probe that is held runs in none. -/
def runsFrame (s : State) (slot : Nat) (seq : Word) : Bool :=
  let c := s.ctx slot
  c.live && seq.toNat % max 1 c.effDiv == c.phase % max 1 c.effDiv && !(c.kind == 13 && bitOf (s.cw slot 64) 29)

/-- What follows once the settings of a boundary are in force: nibs load, windows open, the frame's passes wait for their results. -/
def frameOpen (s : State) (g : Nat) (seq : Word) (zero : Bool) (t : Tick) (ts : Nat) : State :=
  let s1 := machBoundary (movesApply s g) g
  let gs := s1.grp g
  let len := if zero then ((gs.p : Int) + gs.adj).toNat else gs.len
  let frame := if gs.du then len / 2 else len
  let next := if gs.du && zero then (t + tk (len / 2), false) else (gs.zeroAt + tk len, true)
  let todo := s1.slots.filter (fun k => (s1.ctx k).grp == g && runsFrame s1 k seq)
  let s2 := s1.setGrp g { gs with len := len, adj := if zero then 0 else gs.adj, next := some next, w := frame * windowPct s1 g / 100, todo := todo }
  let s3 := senseOpen (nibBoundary s2 g zero) g t
  let s4 := (todo.filter (fun k => (s3.ctx k).kind == 7 || (s3.ctx k).kind == 8)).foldl (fun u k => axisBoundary u k t) s3
  let s5 := fdbkBoundary s4 g t ts
  let s6 := heldPass (snapsTake s5 g seq) g seq
  let s7 := if zero then sheafAlign s6 g else s6
  let s8 := releaseCheck s7 g t
  if todo = [] then mirrorSend s8 g else s8

/-- A frame boundary of a group. What its last frame left over was late; the mirror of that frame is taken; its windows close; then
the settings that waited apply and the next frame opens. A group whose period has become 0 has no more boundaries (R20). While the timebase is
invalid there are none, and where the next would be the period ends at which the nibs of a group in PROVE stop (R52, R183). -/
def frameBoundary (s0 : State) (g : Nat) : State :=
  if !tbValid s0 then (grpNibs s0 g).foldl nibStop s0
  else match (s0.grp g).next with
    | none => s0
    | some (t, zero) =>
      let gs0 := s0.grp g
      let s1 := (passDeadline s0 g).at t
      let seq := nextSeq s1 g
      let s2 := if gs0.first then s1 else sheafMirror (if g = 0 then leadCheck s1 else s1) g t
      let s3 := (senseClose s2 g t).setReg (R.nibGseq g) seq
      let gs := s3.grp g
      let w := s3.reg (R.nibGper g)
      let mode := if zero then bitsOf w 29 2 else gs.mode
      let s4 := s3.setGrp g { gs with first := false, bndAt := t, zeroAt := if zero then t else gs.zeroAt,
                                      zeros := if gs.first then 0 else if zero then gs.zeros + 1 else gs.zeros,
                                      mode := mode, du := if zero then bitOf w 31 else gs.du, rel := none, todo := [], skip := false }
      let s5 := if mode = gs.mode then s4 else (grpNibs s4 g).foldl (fun u n => u.setNibS n { u.nibS n with clr := true }) s4
      let s6 := changesApply (if gs0.first then s5 else windFrames s5 g) g seq zero t
      if (s6.grp g).p = 0 then groupHalts (heldPass (snapsTake s6 g seq) g seq) g
      else frameOpen s6 g seq zero t (if gs0.first then frameLen s6 g else (t - gs0.bndAt).toNat)

def execFrameBoundary (g : Fin 8) (s : State) : Host.Outcome State Fault Refusal := .next (frameBoundary s g.val)

/-! ### CAL_SWAP (R139) -/

/-- The groups in which a committed context uses a channel: the windings bound to it, the contexts of the group whose feedback
channel holds it, the filters and probes that read it. -/
def calUsers (s : State) (c : Nat) : List Nat :=
  (((s.slots.filter (fun k => (s.ctx k).committed && (fpReads s k c false || fpReads s k c true))).map (fun k => (s.ctx k).grp)) ++ (boundGroups s c).filter (fun g =>
    (chanWindings s c).any (fun k => (s.ctx k).committed && (s.ctx k).grp == g)
    || ((fbGroup s c).contains g && s.slots.any (fun k => (s.ctx k).committed && (s.ctx k).grp == g)))).eraseDups

/-- The groups of a list, each with the boundary a change of it is assigned. -/
def groupsDue (s : State) (l : List Nat) : List (Nat × Option Word) := l.map (fun g => (g, dueNext s g))

/-- CAL_SWAP. DESIGN CHOICE (log entry 75): the channels of the sensing table that no committed context uses swap at once, also where
others wait for the boundaries of their groups. -/
def opCalSwap (r : Request) (s : State) : Res :=
  let m := r.target
  match bitsOf (r.p 0) 0 8 with
  | 1 =>
    if 63 < m then refuse s stRANGE
    else if !mapShadowOk s m then refuse s stBAD_PARAM
    else if s.flag (R.mapDir_SWAP_PEND m) then refuse s stBUSY_TARGET
    else match mapGroups s m with
      | [] => { st := calSwapped (mapSwap s m) m 1 }
      | gs => { st := gs.foldl (fun t g => addPend t g (dueNext t g) false (.calMap m)) (s.setFlag (R.mapDir_SWAP_PEND m) true), affects := groupsDue s gs }
  | 2 =>
    if m ≠ 0 then refuse s stRANGE
    else if calSwapPending s then refuse s stBUSY_TARGET
    else
      let users := (List.range 128).map (fun c => (c, calUsers s c))
      let gs := (users.flatMap (·.2)).eraseDups
      let now := (users.filter (fun e => e.2 == [])).map (·.1)
      let s1 := now.foldl calSwapChan s
      if gs = [] then { st := calSwapped s1 0 2 }
      else { st := users.foldl (fun t e => e.2.foldl (fun u g => addPend u g (dueNext u g) false (.calSense e.1)) t) s1, affects := groupsDue s gs }
  | 3 => if m ≠ 0 then refuse s stRANGE else { st := calSwapped s 0 3 }
  | _ => refuse s stBAD_PARAM

def execCalSwap (r : Request) (s : State) : Host.Outcome State Fault Refusal := .next (serveReed r s (r.params.length == 1) (opCalSwap r))

end Sys2Proof.Machine
end

