-- ==== Sys2Proof/Machine/Event.lean ====
section
/-! DEFINITION. The event unit's arbiter, its registers, and the supply and temperature monitors (18_events.md, R452 to R460). -/

namespace Sys2Proof.Machine

open Sys2Proof

/-- One occurrence through the arbiter: status, record, and what events do in other blocks; a test does nothing there (R453, R458, R315, R435). -/
def evtOne (s : State) (o : Occ) : State :=
  let s1 := evtTake s o
  if o.test ∨ !evDefined o.ev then s1 else inkEvent (evForward s1 o.ev s1.dt) o.ev o.detail s1.dt

/-- Every occurrence that has reached the arbiter, in the order of R455. -/
def evtDrain (s : State) : State :=
  irqUpdate ((occSort s.evt.occ).foldl evtOne (s.withEvt { s.evt with occ := [] }))

/-- Occurrences before command-ready are kept (R455). -/
def execEventArbitration (s : State) : Host.Outcome State Fault Refusal := .next (if serving s then evtDrain s else s)

/-- A hold-off window runs out (R456). -/
def holdoffEnd (s : State) (e : Nat) : State :=
  match s.evt.hold.find? (fun h => h.ev == e) with
  | none => s
  | some h => if !tbValid s || !serving s then s else irqUpdate (holdEnd (s.at (h.start + tk h.len)) e)

def execHoldoffWindowEnd (e : Fin 256) (s : State) : Host.Outcome State Fault Refusal := .next (holdoffEnd s e.val)

/-- A write of `EVT.STAT[i]` clears the bits written as ones (R453). -/
def evtStatWrite (s : State) (i : Nat) (w : Word) : Res :=
  { st := irqUpdate (s.setReg (R.evtStat i) (s.reg (R.evtStat i) &&& ~~~w)) }

def execEvtStatClear (i : Fin 8) (w : Word) (s : State) : Host.Outcome State Fault Refusal := .next (evtStatWrite s i.val w).st

/-- A write of `EVT.TEST` (R458). -/
def evtTestWrite (s : State) (w : Word) : Res :=
  let e := bitsOf w 0 8
  if !bitOf w 31 then { st := s }
  else if !evDefined e then refuse s stBAD_PARAM
  else { st := s.raiseAll [{ ev := e, inst := 0xFFFF, detail := 0#32, test := true }] }

def execEvtTest (w : Word) (s : State) : Host.Outcome State Fault Refusal := .next (evtTestWrite s w).st

/-- A write of `EVT.CFG[e]` (R456, R460). -/
def evtCfgWrite (s : State) (e : Nat) (w : Word) : Res :=
  if !evDefined e then { st := s }
  else if 6 < bitsOf w 16 4 then refuse s stBAD_PARAM
  else { st := irqUpdate (s.setReg (R.evtCfg e) (w &&& 0xFFCF0000#32)) }

/-- A write of a register of the EVT block (R460). -/
def evtBlockWrite (s : State) (a : Nat) (w : Word) : Option Res :=
  if a < 0x020020 then some (evtStatWrite s ((a - 0x020000) / 4) w)
  else if 0x020040 ≤ a ∧ a < 0x020050 then
    let m := (a - 0x020040) / 4
    some { st := irqUpdate (s.setFld (R.evtIrqctrl_MINPRIO m) (bitsOf w 0 2)) }
  else if a = R.evtTest then some (evtTestWrite s w)
  else if 0x020400 ≤ a then some (evtCfgWrite s ((a - 0x020400) / 4) w)
  else none

/-! ### Supplies and the case (R452) -/

/-- The operating range of a rail in mV (R464): VCORE, VDD18, VDD33, VSER, VHUSK. -/
def railRange (i : Nat) : Nat × Nat :=
  match i with
  | 0 => (600, 900)
  | 1 => (1710, 1890)
  | 2 => (3135, 3465)
  | 3 => (870, 930)
  | _ => (3135, 3465)

/-- One measurement of a rail: SUPPLY_WARN on each crossing. -/
def railMeasure (s : State) (i mv : Nat) : State :=
  let out := decide (mv < (railRange i).1) || decide ((railRange i).2 < mv)
  let was := s.boot.railOut / 2 ^ i % 2 == 1
  if out = was then s
  else
    let s1 := s.withBoot { s.boot with railOut := if out then s.boot.railOut + 2 ^ i else s.boot.railOut - 2 ^ i }
    s1.raiseLim 1 i (wd (b2n out * 2 ^ 31 + mv % 65536)) (100 * msTicks)

def execSupplyMeasurement (mv : List (BitVec 16)) (s : State) : Host.Outcome State Fault Refusal :=
  .next (if coreRuns s then (List.range (min 5 mv.length)).foldl (fun t i => railMeasure t i (nth mv i 0).toNat) s else s)

/-- The highest case temperature of the ordered grade (R3). -/
def caseMax : Int := if Config.gradeH then 125 else 105

/-- A measurement of the case temperature: CASE_TEMP on each crossing; the time above the range is held for keep word 967 (R452, R132). -/
def caseMeasure (s : State) (c : BitVec 16) : State :=
  let hot := decide (caseMax < c.toInt)
  let s1 := if hot then s.withKeep { s.keep with hot := s.keep.hot + 1 } else s
  if hot = s.boot.hot then s1
  else (s1.withBoot { s1.boot with hot := hot }).raiseLim 2 0 (wd (b2n hot * 2 ^ 31 + c.toNat)) (1000 * msTicks)

def execCaseTempMeasurement (c : BitVec 16) (s : State) : Host.Outcome State Fault Refusal := .next (if coreRuns s then caseMeasure s c else s)

end Sys2Proof.Machine
end

