-- ==== Sys2Proof/Machine/RegFile.lean ====
section
/-! DEFINITION. The register engine (04_command_interface.md, R11, R50, R51, R78, R84, R88 to R91, R482): a write of any register, and the
opcodes READ_REG, WRITE_REG, MODIFY_REG and READ_SNAPSHOT. -/

namespace Sys2Proof.Machine

open Sys2Proof

/-- A write of a keep word through the register engine (R128, R129, R131): the device's own words stay as they are. -/
def keepRegWrite (s : State) (n : Nat) (w : Word) : Res :=
  if 960 ≤ n then { st := s }
  else
    let x := keepQueue s n w
    { st := x.1, as_ := if x.2 then some stWORN else none }

/-- A write that its block judges; none where the access codes alone decide. -/
def blockWrite (s : State) (a : Nat) (w : Word) : Option Res :=
  match a / 0x10000 with
  | 0x01 => clkBlockWrite s a w
  | 0x02 => evtBlockWrite s a w
  | 0x03 => if a < 0x031000 then some (keepRegWrite s ((a - 0x030000) / 4) w) else none
  | 0x08 => nibBlockWrite s a w
  | 0x09 => nibBlockWrite s a w
  | 0x0A => senseBlockWrite s a w
  | 0x0B => fdbkBlockWrite s a w
  | 0x0C => if a = R.loopCtrl then some (loopCtrlWrite s w) else none
  | 0x18 => inkBlockWrite s a w
  | 0x1A => timeBlockWrite s a w
  | 0x1B => swardBlockWrite s a w
  | 0x1C => ethBlockWrite s a w
  | 0x1D => canBlockWrite s a w
  | 0x1E => spiBlockWrite s a w
  | 0x1F => fieldBlockWrite s a w
  | 0x20 => safeBlockWrite s a w
  | 0x30 => ringBlockWrite s a w
  | _ => none

/-- A write of the word at an address (R11, R13, R89, R107, R223): windows first, then the block, then the access codes. -/
def regWrite (s : State) (a : Nat) (w : Word) : Res :=
  if 0x340000 ≤ a ∧ a < 0x380000 then { st := s }
  else if 0x1B4000 ≤ a ∧ a < 0x1B6000 then { st := s }
  else if 0x100000 ≤ a ∧ a < 0x120000 then
    let slot := (a - 0x100000) / 0x200
    if (s.ctx slot).kind = 0 then refuse s stRANGE else ctxParam s slot ((a - 0x100000) % 0x200 / 4) [w]
  else if 0x162000 ≤ a ∧ a < 0x164000 then (if mapWindowHas ((a - 0x162000) / 4) then mapWindowWrite s a w else refuse s stRANGE)
  else match regRow a with
    | none => refuse s stRANGE
    | some _ => (blockWrite s a w).getD (plainNow s a w)

/-- A register write of a command row: it is not answered where the clock node of its address does not run (R482). -/
def registerWrite (s : State) (a : Nat) (w : Word) : State :=
  if a % 4 ≠ 0 then s
  else
    let x := regWrite s a w
    if stRefused x.status then s else regRowWrite s a x

def execRegisterWrite (a : BitVec 24) (w : Word) (s : State) : Host.Outcome State Fault Refusal := .next (registerWrite s a.toNat w)

/-! ### READ_REG and READ_SNAPSHOT (R50, R51, R78, R88, R89) -/

/-- P0 of a register request: bits 31 to 24 are 0 and the address is a whole word's (R9, R88). -/
def addrBad (w : Word) : Bool := bitsOf w 24 8 != 0 || bitsOf w 0 2 != 0

/-- A register of the run cannot be reached: its clock node is gated or its PLL not locked (R84, R482). -/
def runGated (s : State) (l : List Nat) : Bool := l.any (fun a => !regReady s a)

/-- The addresses of a READ_REG. -/
def readAddrs (r : Request) : List Nat := runAddrs (r.p 0).toNat (min (r.p 1).toNat 256)

/-- READ_REG, taken at once. -/
def opReadReg (r : Request) (s : State) : Res :=
  if runGated s (readAddrs r) then refuse s stNOT_READY
  else if r.snapshot ∧ 7 < r.target then refuse s stRANGE
  else if addrBad (r.p 0) ∨ outNat 1 (if r.snapshot then 32 else 256) (r.p 1).toNat then refuse s stBAD_PARAM
  else
    let x := readRun (fun t a => portRead t r.port.val a) s (readAddrs r)
    { st := x.1, status := if x.2.2 = stRANGE then stOK else x.2.2, data := x.2.1, as_ := if x.2.2 = stRANGE then some stRANGE else none }

/-- READ_SNAPSHOT, and READ_REG with SNAPSHOT, wait for the next boundary of their group: the port is free again meanwhile (R51, R78). -/
def holdSnap (r : Request) (s : State) (addrs : List Nat) : State :=
  let s1 := portHeld s r
  s1.withCmd { s1.cmd with ticket := s1.cmd.ticket + 1, snaps := s1.cmd.snaps ++ [{ req := r, grp := r.target, addrs := addrs, since := s1.dt }] }

/-- A READ_REG with SNAPSHOT that is accepted. -/
def readSnapOk (r : Request) (s : State) : Bool :=
  serving s && r.params.length == 2 && r.snapshot && !runGated s (readAddrs r) && decide (r.target ≤ 7) && !addrBad (r.p 0) && !outNat 1 32 (r.p 1).toNat

def execReadReg (r : Request) (s : State) : Host.Outcome State Fault Refusal :=
  .next (if readSnapOk r s then holdSnap r s (readAddrs r)
         else serveReg r s (r.params.length == 2 && (r.snapshot || r.target == 0)) (opReadReg r))

/-- The addresses of a READ_SNAPSHOT. -/
def snapAddrs (r : Request) : List Nat := r.params.map (·.toNat)

/-- READ_SNAPSHOT where it is refused. -/
def opReadSnapshot (r : Request) (s : State) : Res :=
  if runGated s ((snapAddrs r).take 32) then refuse s stNOT_READY
  else if 7 < r.target then refuse s stRANGE
  else refuse s stBAD_PARAM

def readSnapshotOk (r : Request) (s : State) : Bool :=
  s.phase == .ready && !runGated s (snapAddrs r) && decide (r.target ≤ 7) && !outNat 1 32 r.params.length && !r.params.any addrBad

def execReadSnapshot (r : Request) (s : State) : Host.Outcome State Fault Refusal :=
  .next (if readSnapshotOk r s then holdSnap r s (snapAddrs r) else serveReg r s true (opReadSnapshot r))

/-! ### WRITE_REG and MODIFY_REG (R88 to R91) -/

/-- The words of a run: those of one context together, so that they apply as one (R91), LOC and CTRL of a ring together, which are
judged as a whole (R104), every other word on its own. -/
def runSplit : Nat → Nat → List Word → List (Nat × List Word)
  | 0, _, _ => []
  | _, _, [] => []
  | fuel + 1, a, w :: ws =>
    if 0x100000 ≤ a ∧ a < 0x120000 then
      let n := min (ws.length + 1) ((0x200 - a % 0x200) / 4)
      (a, (w :: ws).take n) :: runSplit fuel (a + 4 * n) ((w :: ws).drop n)
    else if 0x300000 ≤ a ∧ a < 0x300800 ∧ a % 0x20 = 0 ∧ ws ≠ [] then (a, (w :: ws).take 2) :: runSplit fuel (a + 8) (ws.drop 1)
    else (a, [w]) :: runSplit fuel (a + 4) ws

/-- One part of a run. Words without a register are discarded with RANGE, which does not end the run (R89). -/
def partWrite (s : State) (e : Nat × List Word) : Res :=
  let a := e.1
  let x := if 0x100000 ≤ a ∧ a < 0x120000 ∧ (s.ctx ((a - 0x100000) / 0x200)).kind ≠ 0 then
      ctxParam s ((a - 0x100000) / 0x200) ((a - 0x100000) % 0x200 / 4) e.2
    else if 0xFFFFFF < a then refuse s stRANGE
    else if 1 < e.2.length ∧ 0x300000 ≤ a ∧ a < 0x300800 then ringLayoutWrite s ((a - 0x300000) / 0x20) e.2.head? (nth (e.2.map some) 1 none)
    else regWrite s a (e.2.headD 0#32)
  if x.status = stRANGE then { st := s, as_ := some stRANGE } else x

/-- RANGE outweighs WORN (R131). -/
def asJoin (a b : Option Nat) : Option Nat := if a = some stRANGE ∨ b = some stRANGE then some stRANGE else a <|> b

/-- The parts of a run in order; a refused word refuses the whole (R80). -/
def runWrite (s : State) : List (Nat × List Word) → Res
  | [] => { st := s }
  | e :: es =>
    let x := partWrite s e
    if stRefused x.status then x
    else
      let y := runWrite x.st es
      { st := y.st, status := y.status, affects := x.affects ++ y.affects, as_ := asJoin x.as_ y.as_ }

/-- WRITE_REG. -/
def opWriteReg (r : Request) (s : State) : Res :=
  let ws := r.params.drop 1
  let a := (r.p 0).toNat
  if runGated s (runAddrs a ws.length) then refuse s stNOT_READY
  else if ws = [] ∨ addrBad (r.p 0) then refuse s stBAD_PARAM
  else
    let x := runWrite s (runSplit ws.length a ws)
    if stRefused x.status then refuse s x.status else x

def execWriteReg (r : Request) (s : State) : Host.Outcome State Fault Refusal :=
  .next (serveReg r s (r.target == 0 && !r.params.isEmpty) (opWriteReg r))

/-- The word that a MODIFY_REG writes: W1C bits are those set in both P1 and P2 (R90). -/
def modifyWord (a : Nat) (old p1 p2 : Word) : Word :=
  let w1c := match regRow a with
    | some r => wd r.w1c
    | none => 0#32
  (mergeBits old p2 p1 &&& ~~~w1c) ||| (p2 &&& p1 &&& w1c)

/-- MODIFY_REG: the live word is read, the port's latch stays as it is. -/
def opModifyReg (r : Request) (s : State) : Res :=
  let a := (r.p 0).toNat
  if runGated s [a] then refuse s stNOT_READY
  else if addrBad (r.p 0) then refuse s stBAD_PARAM
  else
    let old := regRead s a
    if old.status ≠ 0 then { st := old.st, status := old.status, data := [old.val] }
    else
      let x := partWrite old.st (a, [modifyWord a old.val (r.p 1) (r.p 2)])
      if stRefused x.status then refuse s x.status else { x with data := [old.val] }

def execModifyReg (r : Request) (s : State) : Host.Outcome State Fault Refusal :=
  .next (serveReg r s (r.target == 0 && r.params.length == 3) (opModifyReg r))

end Sys2Proof.Machine
end

