-- ==== Sys2Proof/Machine/Config5.lean ====
section
/-! DEFINITION. The configuration image: its form, its application at start-up and on CFG_LOAD, CFG_SAVE, and the backups of the
map and cam stores (05_startup_config_update.md, R119 to R127, R353). -/

namespace Sys2Proof.Machine

open Sys2Proof

/-! ### The form of an image (R119 to R121) -/

/-- The header of an image is valid (R119). -/
def imgHeaderOk (img : List Word) : Bool :=
  let len := (nth img 2 0#32).toNat
  decide (nth img 0 0#32 = 0x4743564A#32) && decide (bitsOf (nth img 1 0#32) 16 16 = 1) && decide (len ≤ 49152) && decide (37 ≤ img.length)
  && decide (crc32c (img.take 36) = nth img 36 0#32)
  && (List.range 16).all (fun b => decide ((nth img (4 + 2 * b) 0#32).toNat = 0) || decide ((nth img (4 + 2 * b) 0#32).toNat + (nth img (5 + 2 * b) 0#32).toNat ≤ len))

/-- An entry of a block (R120): a register run, or a request packet. -/
inductive CfgEntry where
  | reg (a : Nat) (ws : List Word)
  | cmd (packet : List Word)
deriving DecidableEq, Repr

/-- The entries of a block up to its END; none where one is malformed or END is missing (R120, R121). -/
def blockEntries : Nat → List Word → Option (List CfgEntry)
  | 0, _ => none
  | _, [] => none
  | fuel + 1, h :: ws =>
    match bitsOf h 28 4 with
    | 1 =>
      let n := bitsOf (ws.headD 0#32) 0 16
      if n < 1 ∨ 255 < n ∨ ws.length < n + 1 then none
      else (blockEntries fuel (ws.drop (n + 1))).map (CfgEntry.reg (bitsOf h 0 24) ((ws.drop 1).take n) :: ·)
    | 2 =>
      let n := bitsOf h 0 16
      if n < 3 ∨ 259 < n ∨ ws.length < n then none else (blockEntries fuel (ws.drop n)).map (CfgEntry.cmd (ws.take n) :: ·)
    | 15 => if bitsOf h 0 24 = 0 ∧ ws = [] then some [] else none
    | _ => none

/-- Block `b` of an image: its entries, or the reason it fails (R121, R123). -/
def imgBlock (img : List Word) (b : Nat) : Except Nat (List CfgEntry) :=
  let off := (nth img (4 + 2 * b) 0#32).toNat
  let ws := (img.drop off).take (nth img (5 + 2 * b) 0#32).toNat
  let id := ws.headD 0#32
  if off = 0 then .error 5
  else if ws.length < 3 ∨ crc32c ws.dropLast ≠ nth ws (ws.length - 1) 0#32 then .error 1
  else if id ≠ wd (b * 2 ^ 24 + 0x10000) then .error 2
  else match blockEntries ws.length (ws.drop 1).dropLast with
    | some l => .ok l
    | none => .error 3

/-- The image in the staging window. -/
def stagedImage (s : State) : List Word := (List.range (min 49152 (s.reg (R.cfgStagewin 2)).toNat)).map (fun w => s.reg (R.cfgStagewin w))

/-- The image of a configuration bank. -/
def bankImage (s : State) (b : Nat) : List Word := if b = 0 then s.nvm.cfg0 else s.nvm.cfg1
def setBankImage (s : State) (b : Nat) (img : List Word) : State :=
  s.withNvm (if b = 0 then { s.nvm with cfg0 := img } else { s.nvm with cfg1 := img })

/-- The generation of an image. -/
def imgGen (img : List Word) : Nat := (nth img 3 0#32).toNat

/-! ### Register areas and commands of a block (R122) -/

/-- The register areas a block may touch, from an address up to another. -/
def blockAreas (b : Nat) : List (Nat × Nat) :=
  match b with
  | 0 => [(0x000000, 0x010000), (0x1E0000, 0x1E0100)]
  | 1 => [(0x010000, 0x020000)]
  | 2 => [(0x020000, 0x030000)]
  | 3 => [(0x300000, 0x340000)]
  | 5 => [(0x090000, 0x090200)]
  | 6 => [(0x080000, 0x0A0000)]
  | 7 => [(0x0A0000, 0x0B0000)]
  | 8 => [(0x0B0000, 0x0C0000)]
  | 9 => [(0x100000, 0x120000)]
  | 10 => [(0x180000, 0x190000)]
  | 11 => [(0x1A0000, 0x1B0000), (0x1C0000, 0x1D0000)]
  | 12 => [(0x1D0000, 0x1E0000)]
  | 13 => [(0x1B0000, 0x1C0000)]
  | 14 => [(0x1F0000, 0x200000)]
  | 15 => [(0x201000, 0x201228)]
  | _ => []

/-- An address lies in the areas of a block. -/
def inAreas (b a : Nat) : Bool := (blockAreas b).any (fun r => decide (r.1 ≤ a) && decide (a < r.2))

/-- A run of `n` words lies in the areas of a block. -/
def runInAreas (b a n : Nat) : Bool := (blockAreas b).any (fun r => decide (r.1 ≤ a) && decide (a + 4 * (n - 1) < r.2))

/-- The opcodes accepted in a CMD entry (R120). -/
def cfgOpcode (o : Nat) : Bool :=
  o == 0x04 || o == 0x05 || (decide (0x10 ≤ o) && decide (o ≤ 0x14)) || o == 0x36 || o == 0x42 || o == 0x43 || o == 0x62 || o == 0x71
  || o == 0xA0 || o == 0xA8 || o == 0xB2

/-- A command a block may use (R122). -/
def cmdOfBlock (b : Nat) (r : Request) : Bool :=
  match r.opcode with
  | 0x04 => runInAreas b (r.p 0).toNat (r.params.length - 1)
  | 0x05 => runInAreas b (r.p 0).toNat 1
  | 0x14 => b == 4 || b == 9
  | 0x62 => b == 11
  | 0x71 => b == 14
  | 0xA0 => b == 13
  | 0xA8 => b == 13
  | 0xB2 => b == 12
  | _ => b == 9

/-- An entry that its words alone do not refuse (R120, R122): a run within its block's areas, a request with its own CHECK, an opcode
and a form that its block takes. -/
def entryOk (b : Nat) : CfgEntry → Bool
  | .reg a ws => runInAreas b a ws.length
  | .cmd p =>
    let r := requestOf 0 .host p
    decide (crc32c p.dropLast = r.check) && cfgOpcode r.opcode && decide (r.count + 3 = p.length) && decide (bitsOf r.h0 19 5 = 0) && cmdOfBlock b r

/-- An image that CFG_SAVE may write: its header and all its blocks (R119 to R121, R126). -/
def imgOk (img : List Word) : Bool :=
  imgHeaderOk img && (List.range 16).all (fun b => match imgBlock img b with
    | .ok l => l.all (entryOk b)
    | .error _ => false)

/-- A command of a CMD entry executed as a request of Reed's own port: packet form, then its opcode (R120). -/
def cfgCommand (r : Request) (s : State) : Res :=
  let go (form : Bool) (f : Request → State → Res) : Res := if form then f r s else refuse s stBAD_PARAM
  let n := r.params.length
  let t0 := r.target == 0
  match r.opcode with
  | 0x04 => go (t0 && decide (1 ≤ n)) opWriteReg
  | 0x05 => go (t0 && n == 3) opModifyReg
  | 0x10 => go (t0 && n == 1) opCtxCreate
  | 0x11 => go (n == 0) opCtxDelete
  | 0x12 => go (decide (1 ≤ n)) opCtxBind
  | 0x13 => go (decide (2 ≤ n) && decide (n ≤ 128)) opCtxParam
  | 0x14 => go (t0 && n == 4) opAdmit
  | 0x36 => go (decide (1 ≤ n)) opSetLimits
  | 0x42 => go (n == 3) opGearRatio
  | 0x43 => go (decide (1 ≤ n)) camLoad
  | 0x62 => go (n == 7) opPulse
  | 0x71 => go (n == 2) opFioConfig
  | 0xA0 => go (t0 && n == 2) opSwardRoute
  | 0xA8 => go (t0 && n == 2) opSheafRole
  | 0xB2 => go (n == 1) opCanSchedule
  | _ => refuse s stBAD_OPCODE

/-- An entry of a block replayed (R120). -/
def entryApply (b : Nat) (s : State) : CfgEntry → Res
  | .reg a ws =>
    if !runInAreas b a ws.length then refuse s stBAD_PARAM
    else opWriteReg { port := 0, h0 := 0x04000000#32, h1 := wd (1 + ws.length), params := wd a :: ws, check := 0#32 } s
  | .cmd p =>
    let r := requestOf 0 .host p
    if crc32c p.dropLast ≠ r.check then refuse s stBAD_CRC
    else if !cfgOpcode r.opcode then refuse s stBAD_OPCODE
    else if r.count + 3 ≠ p.length ∨ bitsOf r.h0 19 5 ≠ 0 ∨ !cmdOfBlock b r then refuse s stBAD_PARAM
    else cfgCommand r s

/-- Entries replayed in order up to the first that is refused: its index and status (R121). -/
def replay (b : Nat) (s : State) (i : Nat) : List CfgEntry → State × Option (Nat × Nat)
  | [] => (s, none)
  | e :: es =>
    let x := entryApply b s e
    if stRefused x.status then (s, some (i, x.status))
    else replay b (x.st.withCmd { x.st.cmd with ticket := x.st.cmd.ticket + 1 }) (i + 1) es

/-! ### Factory defaults (R122, R123) -/

/-- Registers of an area that neither a default nor a captured image touches: they start something, or belong to no setting. -/
def cfgSkip (a : Nat) : Bool :=
  (decide (0x092000 ≤ a) && decide (a < 0x092180)) || (decide (0x090000 ≤ a) && decide (a < 0x090200) && a % 0x40 == 0x14)
  || a == R.swardHrxtail || a == R.ethMdio 0 || a == R.ethMdio 1 || a == R.senseCal || a == R.clkSel

/-- The bits of a register that a configuration sets. -/
def cfgMask (a : Nat) : Word :=
  match regRow a with
  | some r => if cfgSkip a then 0#32 else wd (r.rw ||| r.rs)
  | none => 0#32

/-- What a setting is by default: its reset word; a MAC address is that of the factory area (R122). -/
def cfgDefault (a : Nat) : Word :=
  match [0, 1].find? (fun p => a == R.ethMacLo p || a == R.ethMacHi p) with
  | some p => Config.factoryMac (2 * p + b2n (a == R.ethMacHi p)) &&& (if a = R.ethMacHi p then 0xFFFF#32 else 0xFFFFFFFF#32)
  | none => resetWord a

/-- The registers of areas whose settings differ from their defaults. -/
def cfgChanged (s : State) (p : Nat → Bool) : List Nat :=
  (s.regs.map (·.1)).filter (fun a => p a && decide ((s.reg a ^^^ cfgDefault a) &&& cfgMask a ≠ 0#32))

/-- A register at its default: written as a host would write it; where the device's state would refuse that, set. -/
def defaultReg (s : State) (a : Nat) : State :=
  let w := mergeBits (s.reg a) (cfgDefault a) (cfgMask a)
  let x := regWrite s a w
  if stRefused x.status then (s.setReg a w).setFrc a w else x.st

def defaultRegs (s : State) (p : Nat → Bool) : State := (cfgChanged s p).foldl defaultReg s

/-- CLOCK: reset values, but neither the selection nor the trim, and nodes in use stay as they are (R123). -/
def defaultClock (s : State) : State :=
  let s1 := s.setReg R.clkCtrl (cfgDefault R.clkCtrl)
  let s2 := [0, 1, 2].foldl (fun t c => if clkEnabled t c then t else clkSetQual t c false) s1
  let s3 := s2.setFld R.clkRctrim_REF 0
  let old := s3.reg R.clkGate
  let new := (List.range 25).foldl (fun w b => if gateInUse s3 b then withBits w b 1 (bitsOf old b 1) else w) (cfgDefault R.clkGate)
  let s4 := s3.setReg R.clkGate new
  let s5 := [1, 2, 3].foldl (fun t i => if bitOf new (pllGate i) then t else t.setFlag (pllLockFld i) false) s4
  let s6 := if bitOf old 3 && !bitOf new 3 then senseGate s5 else s5
  if bitOf old 4 = bitOf new 4 then s6 else fdbkGate s6 (bitOf new 4)

/-- RINGS: the allocation of R101; a ring that it changes is emptied. -/
def defaultRing (s : State) (n : Nat) : State :=
  let l := resetWord (R.ringLoc n)
  let c := resetWord (R.ringCtrl n)
  if s.reg (R.ringLoc n) = l ∧ s.reg (R.ringCtrl n) = c then s
  else ringClear (((ringClear s n).setReg (R.ringLoc n) l).setReg (R.ringCtrl n) c) n

/-- LOOP: the envelope of reset, unless the committed set would not pass under it (R34), and windows of 50 %, each at its group's
next boundary (R14, R41). -/
def defaultLoop (s : State) : State :=
  let s1 := setEnvelope s 600 150
  let s2 := if admitsCommitted s1 then s1 else s
  loopRefresh ((List.range 8).foldl (fun t g => if windowPct t g = 50 then t else addPend t g (dueNext t g) false (.window 50)) s2)

/-- GROUPS: every period zero; a running carrier stops at its next zero (R14, R168). -/
def defaultGroup (s : State) (g : Nat) : State :=
  let a := R.nibGper g
  let s1 := if (s.grp g).p = 0 then (s.setReg a 0#32).setFrc a 0#32
    else if s.fld (R.nibGper_PERIOD g) = 0 then s.setReg a 0#32
    else addPend (s.setReg a 0#32) g (dueZero s g) true (.reg a 0x1FFFFFFF#32 0#32)
  s1.setReg (R.nibGphase g) 0#32

/-- CONTEXTS: none; a committed context of a group with a period goes at that group's next boundary (R40). -/
def defaultContext (s : State) (k : Nat) : State :=
  let g := (s.ctx k).grp
  if deleting s k then s
  else if !inCommitted s k ∨ (s.grp g).p = 0 then ctxFree s k 0
  else addPend s g (dueNext s g) false (.delete k)

/-- Inkwell as after its reset (R118): every session stops, capture memory is lost. -/
def inkReset (s : State) : State :=
  let s1 := (List.range 4).foldl (fun t q => ((inkSetState (t.setInkS q {}) q 0).setFld (R.inkSstat_FULL q) 0)) (inkReadAbandon s (fun _ => true))
  s1.withInk {}

/-- A field channel at its default, an input of Type 1, where the field link and Scribe let it be reached (R363, R371). -/
def defaultChannel (s : State) (n : Nat) : State :=
  if (s.reg (R.fieldCfg n) = resetWord (R.fieldCfg n) ∧ s.reg (R.fieldChat n) = resetWord (R.fieldChat n))
      ∨ !fioLink s ∨ ((safeMode s = 1 ∨ safeMode s = 2) ∧ setNames s n) then s
  else
    let s1 := if fioOut s n then contFollow (fioCommand s n false) n false else s
    let s2 := (s1.setReg (R.fieldCfg n) (resetWord (R.fieldCfg n))).setReg (R.fieldChat n) (resetWord (R.fieldChat n))
    fioRefresh (s2.withField { s2.field with win := tblDel s2.field.win n })

/-- The areas of a block at their factory defaults (R122, R123). -/
def blockDefault (s : State) (b : Nat) : State :=
  match b with
  | 1 => defaultClock s
  | 2 => irqUpdate (defaultRegs s (inAreas 2))
  | 3 => hrdyUpdate ((List.range 64).foldl defaultRing s) (serving s)
  | 4 => defaultLoop s
  | 5 => loopRefresh ((List.range 8).foldl defaultGroup s)
  | 6 => defaultRegs s (fun a => inAreas 6 a && !inAreas 5 a)
  | 7 => calCopy (defaultRegs s (inAreas 7))
  | 9 => s.slots.foldl defaultContext s
  | 10 => defaultRegs (if (List.range 4).all (inkQuiet s) then s else inkReset s) (inAreas 10)
  | 11 => defaultRegs ((List.range 4).foldl (fun t i => (pulseStop t i).setPulse i {}) s) (inAreas 11)
  | 12 => (List.range 4).foldl (fun t n => if cfgChanged t (fun a => decide (R.canCtrl n ≤ a) && decide (a < R.canCtrl n + 0x400)) = [] then t else canReset t n) s
  | 13 =>
    let s1 := sheafTake ((s.setFld R.sheafCfg_ROLE 0).setFlag R.sheafStat_LEAD false) 0
    let s2 := (List.range 4).foldl swDown s1
    let s3 := swWriteTable (s2.withSward { s2.sward with staged := [] }) []
    defaultRegs (s3.setFld R.swardRstat_STAGED 0) (inAreas 13)
  | 14 => (List.range 32).foldl defaultChannel (defaultRegs s (inAreas 14))
  | 15 => s
  | _ => defaultRegs s (inAreas b)

/-! ### Application (R123 to R125, R353) -/

/-- A block fails: its default, DEFAULTED, event 17, and the first refused entry of the image in `CFG.FAULT` (R121, R123). -/
def blockFail (s : State) (b reason : Nat) (at_ : Option (Nat × Nat)) : State :=
  let s1 := blockDefault s b
  let s2 := (s1.setFld R.cfgStat_DEFAULTED (Nat.lor (s1.fld R.cfgStat_DEFAULTED) (2 ^ b))).raise 17 b (wd reason)
  match at_ with
  | some (i, st) => if s2.fld R.cfgFault_STATUS = 0 then s2.setReg R.cfgFault (wd (b * 2 ^ 28 + st * 65536 + i % 65536)) else s2
  | none => s2

/-- A block of an image applied: its defaults, then its entries; the sensing copy follows its block (R123, R162). -/
def blockApply (img : List Word) (s : State) (b : Nat) : State :=
  match imgBlock img b with
  | .error e => blockFail s b e none
  | .ok l =>
    let x := replay b (blockDefault s b) 0 l
    match x.2 with
    | some e => blockFail x.1 b 4 (some e)
    | none => if b = 7 then calCopy x.1 else x.1

/-- Scribe's checks of the set that the SAFE block put into the staging window (R353). -/
def safeSetGood (s : State) : Bool :=
  let ws := stagedSet s
  (setBad s ws).isNone && decide (s.reg (R.safeStage 136) = crcS ws) && huskUp s && decide (s.safe.husk.set = some (huskSubset ws))
  && decide (crcH (s.safe.husk.set.getD []) = s.reg (R.safeStage 137))

/-- The SAFE block passed to Scribe (R123, R125, R353). -/
def safeApply (img : List Word) (s : State) : State :=
  let s1 := blockApply img s 15
  if s1.fld ⟨R.cfgStat, 31, 1⟩ = 1 ∨ !safeSetGood s1 then safeCfgFault s1 true
  else
    let ws := stagedSet s1
    let s2 := s1.setRegs ((List.range 136).map (fun w => (R.safeRb w, nth ws w 0#32)))
    let s3 := s2.setRegs ((List.range 136).map (fun w => (R.safeHrb w, nth ws w 0#32 &&& hMask w)))
    safeCfgFault (setInForce s3 ws) false

/-- One block of an application: that of the image, or without a valid header its default (R123). -/
def oneApply (img : List Word) (t : State) (b : Nat) : State :=
  if imgHeaderOk img then (if b = 15 then safeApply img t else blockApply img t b)
  else
    let u := (blockDefault t b).setFld R.cfgStat_DEFAULTED (Nat.lor (t.fld R.cfgStat_DEFAULTED) (2 ^ b))
    if b = 15 then safeCfgFault u true else u

/-- The blocks applied in order; before its entries a CONTEXTS block waits for the boundaries at which the contexts it replaces go
(R14, R40, R123): answers the blocks that are left. -/
def blocksApply (img : List Word) : State → List Nat → State × List Nat
  | s, [] => (s, [])
  | s, b :: bs =>
    let d := if b = 9 then blockDefault s 9 else s
    if b = 9 ∧ d.slots.any (fun k => (d.ctx k).kind != 0) then (d, b :: bs) else blocksApply img (oneApply img d b) bs

/-- An application begins: nothing defaulted, no fault (R121, R123). -/
def applyBegin (s : State) : State := (s.setFld R.cfgStat_DEFAULTED 0).setReg R.cfgFault 0#32

/-- An application ends with event 16 (R123). -/
def applyEnd (s : State) (inst : Nat) : State := s.raise 16 inst (wd (s.fld R.cfgStat_DEFAULTED))

/-- The bank R123 chooses: a valid header and the higher GEN, bank 0 among equals; none without a valid header. -/
def bankChoice (s : State) : Option Nat :=
  match imgHeaderOk (bankImage s 0), imgHeaderOk (bankImage s 1) with
  | true, true => some (if imgGen (bankImage s 0) < imgGen (bankImage s 1) then 1 else 0)
  | true, false => some 0
  | false, true => some 1
  | false, false => none

/-- The application at start-up: all blocks of the chosen bank. -/
def bootApply (s : State) : State :=
  let c := bankChoice s
  let b := c.getD 0
  let img := match c with
    | some b => bankImage s b
    | none => []
  let s1 := ((s.setFlag R.cfgStat_NO_IMAGE c.isNone).setFld R.cfgStat_BANK b).setReg R.cfgGen (wd (imgGen img))
  let s2 := applyEnd (blocksApply img (applyBegin s1) (15 :: List.range 15)).1 b
  s2.withBoot { s2.boot with step := 4 }

/-- A list of block numbers as a mask. -/
def blockMask (l : List Nat) : Nat := l.foldl (fun m b => Nat.lor m (2 ^ b)) 0

/-- The application that a CFG_LOAD asked for (R127): all of it, or up to a CONTEXTS block that waits. -/
def loadApply (s : State) (mask src : Nat) : State :=
  let b := s.fld R.cfgStat_BANK
  let img := match src with
    | 0 => bankImage s b
    | 1 => bankImage s (1 - b)
    | _ => stagedImage s
  let inst := match src with
    | 0 => b
    | 1 => 1 - b
    | _ => 2
  let x := blocksApply img s ((List.range 15).filter (mask.testBit ·))
  if x.2 = [] then
    let s1 := applyEnd x.1 inst
    ((s1.setFlag R.cfgStat_LOAD_BUSY false).withReed .running).withBoot { s1.boot with load := none }
  else x.1.withBoot { x.1.boot with load := some (blockMask x.2, src) }

def execConfigBlocksApply (s : State) : Host.Outcome State Fault Refusal :=
  .next (match s.boot.load with
    | some (mask, src) => loadApply s mask src
    | none => if s.phase = .starting ∧ s.boot.step = 3 then bootApply s else s)

/-- CFG_LOAD (R127). -/
def opCfgLoad (r : Request) (s : State) : Res :=
  if bitsOf (r.p 0) 16 16 ≠ 0 ∨ 2 < (r.p 1).toNat then refuse s stBAD_PARAM
  else if bitOf (r.p 0) 15 then refuse s stSAFETY_LOCK
  else if (List.range 8).any (fun g => grpState s g != 0) then refuse s stREFUSED_STATE
  else { st := ((((applyBegin s).setFlag R.cfgStat_LOAD_BUSY true).withReed .busy).withBoot { s.boot with load := some ((r.p 0).toNat, (r.p 1).toNat) }) }

def execCfgLoad (r : Request) (s : State) : Host.Outcome State Fault Refusal :=
  .next (serveReed r s (r.target == 0 && r.params.length == 2) (opCfgLoad r))

/-! ### The backups of maps and cams (R124) -/

/-- A map as its backup holds it: active entries and header, the reference copy equal to them; nothing where it fails its check. -/
def mapRestore (s : State) (e : Nat × Word × List Word) : State :=
  let m := e.1
  if s.nvm.bad.contains (m, false) then s.raise 17 16 (wd m)
  else
    let s1 := (List.range 512).foldl (fun t i =>
      let w := nth e.2.2 i 0#32
      setMapW (setMapW t m (mActive + i) w) m (mRef + i) w) s
    let s2 := (List.range 6).foldl (fun t i => setMapW t m (mAcHdr + i) (nth e.2.2 (512 + i) 0#32)) s1
    (s2.setFlag (R.mapDir_VALID m) true).setFld (R.mapDir_KIND m) (bitsOf e.2.1 28 3)

/-- A cam as its backup holds it. -/
def camRestore (s : State) (e : Nat × Word × List Word) : State :=
  let c := e.1
  if s.nvm.bad.contains (c, true) then s.raise 17 17 (wd c)
  else
    let s1 := (List.range 2051).foldl (fun t i => setCamW t c i (nth e.2.2 i 0#32)) s
    s1.setReg (R.camDir c) (e.2.1 &&& 0xE0000FFF#32)

def execMapCamRestore (s : State) : Host.Outcome State Fault Refusal :=
  .next (if s.phase = .starting ∧ s.boot.step = 2 then
      let s1 := s.nvm.cams.foldl camRestore (s.nvm.maps.foldl mapRestore s)
      s1.withBoot { s1.boot with step := 3 }
    else s)

/-! ### CAPTURE (R126): the present configuration as an image -/

/-- Words at rising addresses as runs of consecutive words, at most 255 long. -/
def runsOf : List (Nat × Word) → List (Nat × List Word)
  | [] => []
  | (a, w) :: rest =>
    match runsOf rest with
    | (b, ws) :: more => if b = a + 4 ∧ ws.length < 255 then (a, w :: ws) :: more else (a, [w]) :: (b, ws) :: more
    | [] => [(a, [w])]

/-- A REG entry. -/
def regEntry (a : Nat) (ws : List Word) : List Word := wd (0x10000000 + a) :: wd ws.length :: ws

/-- A CMD entry. -/
def cmdEntry (opcode target : Nat) (params : List Word) : List Word :=
  let p := wd (opcode * 2 ^ 24) :: wd (target * 65536 + params.length) :: params
  wd (0x20000000 + (params.length + 3)) :: (p ++ [crc32c p])

/-- The changed settings of areas as REG entries; those of `last` come after the others. -/
def captureRegs (s : State) (p last : Nat → Bool) : List Word :=
  let l := (cfgChanged s p).map (fun a => (a, s.reg a &&& cfgMask a))
  ((runsOf (l.filter (fun e => !last e.1)) ++ runsOf (l.filter (fun e => last e.1))).flatMap (fun e => regEntry e.1 e.2))

/-- Rings that differ from their default: stopped first, then moved, then set. -/
def captureRings (s : State) : List Word :=
  let l := (List.range 64).filter (fun n => s.reg (R.ringLoc n) != resetWord (R.ringLoc n) || s.reg (R.ringCtrl n) != resetWord (R.ringCtrl n))
  l.flatMap (fun n => regEntry (R.ringCtrl n) [resetWord (R.ringCtrl n) &&& 0x7FFFFFFF#32])
  ++ l.flatMap (fun n => regEntry (R.ringLoc n) [s.reg (R.ringLoc n)]) ++ l.flatMap (fun n => regEntry (R.ringCtrl n) [s.reg (R.ringCtrl n)])

/-- The contexts: created in the order of their slots, free slots below them held by probes that are deleted again, then their
words, bindings and admission. -/
def captureContexts (s : State) : List Word :=
  let top := maxNat (s.slots.map (· + 1))
  let all := List.range top
  let used (k : Nat) : Bool := (s.ctx k).kind != 0
  let words (k : Nat) : List Word :=
    let rows := ((ctxRows (s.ctx k).kind).filter (fun r => r.chk != .lib)).map (·.w)
    let ws := (List.range 64).filter rows.contains
    (runsOf (ws.map (fun w => (ctxAddr k w, s.cw k w)))).flatMap (fun e => regEntry e.1 e.2)
  all.flatMap (fun k => cmdEntry 0x10 0 [if used k then (s.ctx k).opts else wd (13 * 2 ^ 28)])
  ++ (all.filter (!used ·)).flatMap (fun k => cmdEntry 0x11 k [])
  ++ s.slots.flatMap words
  ++ (s.slots.filter (fun k => effBind s k != [])).flatMap (fun k => cmdEntry 0x12 k (effBind s k))
  ++ (if (s.slots.any (inCommitted s)) then cmdEntry 0x14 0 [0#32, 0#32, 0#32, 0#32] else [])

/-- The entries of a block as the device stands. -/
def captureBlock (s : State) (b : Nat) : List Word :=
  let none_ (_ : Nat) : Bool := false
  match b with
  | 1 =>
    captureRegs s (fun a => inAreas 1 a && a != R.clkRctrim) none_
    ++ (let w := s.reg R.clkRctrim
        if bitsOf w 30 2 = 3 then regEntry R.clkRctrim [w]
        else if bitsOf w 30 2 = 0 then [] else cmdEntry 0x05 0 [wd R.clkRctrim, 0xC0000000#32, w])
  | 3 => captureRings s
  | 4 =>
    let env := wd (s.fld R.loopEnv_VCORE_MIN * 65536 + s.fld R.loopEnv_TJ_MAX)
    let win (g : Nat) : Word := wd (windowPct s g + 2 ^ 8 * windowPct s (g + 1) + 2 ^ 16 * windowPct s (g + 2) + 2 ^ 24 * windowPct s (g + 3))
    cmdEntry 0x14 0 [6#32, env, win 0, win 4]
  | 5 => captureRegs s (inAreas 5) (fun a => a % 0x40 == 0)
  | 6 => captureRegs s (fun a => inAreas 6 a && !inAreas 5 a) none_
  | 9 => captureContexts s
  | 11 => captureRegs s (inAreas 11) (fun a => a == R.ethCfg 0 || a == R.ethCfg 1)
  | 12 =>
    captureRegs s (inAreas 12) (fun a => a % 0x400 == 0)
    ++ ((List.range 4).filter (canRunning s)).flatMap (fun n => cmdEntry 0xB2 n [1#32])
  | 13 =>
    captureRegs s (inAreas 13) none_
    ++ (swEntries s).flatMap (fun e => cmdEntry 0xA0 0 [wd e.1, wd (e.2.1 * 256 + e.2.2)])
    ++ (if s.fld R.sheafCfg_ROLE = 0 then []
        else cmdEntry 0xA8 0 [wd (s.fld R.sheafCfg_ROLE * 2 ^ 30 + s.fld R.sheafCfg_BASE), wd (s.fld R.sheafMaster_MASTER)])
  | 14 =>
    captureRegs s (inAreas 14) none_
    ++ ((List.range 32).filter (fun n => s.reg (R.fieldCfg n) != resetWord (R.fieldCfg n) || s.reg (R.fieldChat n) != resetWord (R.fieldChat n))).flatMap
        (fun n => cmdEntry 0x71 n [s.reg (R.fieldCfg n), s.reg (R.fieldChat n)])
  | 15 =>
    match s.safe.set with
    | some ws => regEntry (R.safeStage 0) ((List.range 136).map (fun w => nth ws w 0#32) ++ [crcS ws, crcH ws])
    | none => []
  | _ => captureRegs s (inAreas b) none_

/-- A block of an image. -/
def blockWords (b : Nat) (entries : List Word) : List Word :=
  let ws := wd (b * 2 ^ 24 + 0x10000) :: (entries ++ [0xF0000000#32])
  ws ++ [crc32c ws]

/-- Blocks laid out after the header: directory and words. -/
def layBlocks : Nat → List (List Word) → List Word × List Word
  | _, [] => ([], [])
  | off, b :: bs =>
    let r := layBlocks (off + b.length) bs
    ((if b = [] then 0#32 else wd off) :: wd b.length :: r.1, b ++ r.2)

/-- A header with its check word in place. -/
def withHeader (gen : Word) (dir body : List Word) : List Word :=
  let h := [0x4743564A#32, 0x00010000#32, wd (37 + body.length), gen] ++ dir
  h ++ [crc32c h] ++ body

/-- The image of the present configuration; a module without a safety set has a SAFE block without entries. -/
def captureImage (s : State) : List Word :=
  let l := (List.range 16).map (fun b => blockWords b (captureBlock s b))
  let r := layBlocks 37 l
  withHeader 0#32 r.1 r.2

/-- CAPTURE writes the image into the staging window. -/
def capture (s : State) : State :=
  let img := captureImage s
  ((List.range img.length).zip img).foldl (fun t e => if e.1 < 49152 then t.setReg (R.cfgStagewin e.1) e.2 else t) s

/-! ### CFG_SAVE (R126) -/

/-- An image with its GEN and its check word as CFG_SAVE writes them. -/
def imgWithGen (img : List Word) (gen : Nat) : List Word := withHeader (wd gen) ((img.take 36).drop 4) (img.drop 37)

/-- The bank a save writes: the one not in force. -/
def saveBank (s : State) : Nat := if s.flag R.cfgStat_NO_IMAGE then 0 else 1 - s.fld R.cfgStat_BANK

/-- CFG_SAVE. -/
def opCfgSave (r : Request) (s : State) : Res :=
  let p := r.p 0
  let busy := s.flag R.cfgStat_SAVE_BUSY || s.flag R.fwStat_STAGE_BUSY
  let cap := bitOf p 0
  if bitsOf p 4 28 ≠ 0 ∨ (!cap ∧ bitOf p 1 ∧ !imgOk (stagedImage s)) then refuse s stBAD_PARAM
  else if busy then refuse s stBUSY_TARGET
  else
    let s1 := if cap then capture s else s
    let img := stagedImage s1
    if cap ∧ bitOf p 1 ∧ !imgOk img then refuse s stBAD_PARAM
    else
      let gen := (s.reg R.cfgGen).toNat + 1
      let s2 := s1.setFlag R.cfgStat_SAVE_BUSY true
      { st := (s2.withBoot { s2.boot with save := some (p.toNat, saveBank s, if bitOf p 1 then imgWithGen img gen else []) }) }

def execCfgSave (r : Request) (s : State) : Host.Outcome State Fault Refusal :=
  .next (serveReed r s (r.target == 0 && r.params.length == 1) (opCfgSave r))

/-- The backups as a save writes them: the active copy of every valid map; every valid cam. -/
def mapsNow (s : State) : List (Nat × Word × List Word) :=
  ((List.range 64).filter (mapValid s)).map (fun m => (m, s.reg (R.mapDir m), mapActiveWords s m))
def camsNow (s : State) : List (Nat × Word × List Word) :=
  ((List.range 32).filter (fun c => s.flag (R.camDir_VALID c))).map (fun c => (c, s.reg (R.camDir c), (List.range 2051).map (camW s c)))

/-- What a failed or broken save was writing does not pass its check from now on. -/
def saveFail (s : State) (p b : Nat) : State :=
  let badMaps := if p.testBit 2 then (mapsNow s).map (fun e => (e.1, false)) else []
  let badCams := if p.testBit 3 then (camsNow s).map (fun e => (e.1, true)) else []
  let s1 := if p.testBit 1 then setBankImage s b [] else s
  let s2 := if p.testBit 2 then s1.withNvm { s1.nvm with maps := mapsNow s1 } else s1
  let s3 := if p.testBit 3 then s2.withNvm { s2.nvm with cams := camsNow s2 } else s2
  s3.withNvm { s3.nvm with bad := (badMaps ++ badCams ++ s3.nvm.bad).eraseDups }

/-- The save is whole: the image's bank is the one in force, and the backups pass their checks. -/
def saveGood (s : State) (p b : Nat) (img : List Word) : State :=
  let s1 := if p.testBit 1 then (((setBankImage s b img).setFld R.cfgStat_BANK b).setReg R.cfgGen (wd (imgGen img))).setFlag R.cfgStat_NO_IMAGE false else s
  let s2 := if p.testBit 2 then s1.withNvm { s1.nvm with maps := mapsNow s1, bad := s1.nvm.bad.filter (fun e => e.2) } else s1
  let s3 := if p.testBit 3 then s2.withNvm { s2.nvm with cams := camsNow s2, bad := s2.nvm.bad.filter (fun e => !e.2) } else s2
  keepBump s3 963 1

/-- The save work ends (R126): done, verify failed, NVM error. -/
def cfgSaved (s : State) (res : Nat) : State :=
  match s.boot.save with
  | none => s
  | some (p, b, img) =>
    let s1 := (s.setFlag R.cfgStat_SAVE_BUSY false).withBoot { s.boot with save := none }
    (if res = 0 then saveGood s1 p b img else saveFail s1 p b).raise 19 (if p.testBit 1 then b else s.fld R.cfgStat_BANK) (wd res)

def execCfgSaved (res : Fin 3) (s : State) : Host.Outcome State Fault Refusal := .next (cfgSaved s res.val)

end Sys2Proof.Machine
end

