-- ==== Sys2Proof/Machine/Boot.lean ====
section
/-! DEFINITION. Resets, start-up, Dormant and wake (05_startup_config_update.md, R113 to R118, R134, R141, R142; R367, R412, R465). -/

namespace Sys2Proof.Machine

open Sys2Proof

/-! ### Reset (R115, R117, R130) -/

/-- Keep memory as a reset finds it: a write in progress ends, with its old value where power went too early (R130). -/
def keepReset (s : State) (lost : List (Fin 1024)) : State :=
  let s1 := s.keep.busy.foldl (fun t e => if lost.any (fun n => n.val == e.1) then t else t.setReg (R.keepWord e.1) e.2) s
  let s2 := s1.keep.busy.foldl (fun t e => if lost.any (fun n => n.val == e.1) then t else t.withKeep { t.keep with bad := t.keep.bad.filter (fun b => b.1 != e.1) }) s1
  s2.withKeep { bad := s2.keep.bad, told := s2.keep.told }

/-- The NVM die as a reset finds it: a stage leaves its bank without an image, a save what it was writing (R126, R135). -/
def nvmReset (s : State) : State :=
  let s1 := match s.boot.save with
    | some (p, b, _) => saveFail s p b
    | none => s
  match s1.boot.stage with
  | some _ => (fwErase s1 (fwOther s1)).withBoot { s1.boot with owed22 := some (fwOther s1) }
  | none => s1

/-- Registers that no reset touches: keep words and their wear, and the field die's. -/
def survives (a : Nat) : Bool :=
  (decide (0x030000 ≤ a) && decide (a < 0x032000)) || (decide (0x1F0000 ≤ a) && decide (a < 0x200000) && a != R.fieldCtrl)

/-- Reset of the core die with a cause (R117): everything but keep memory, the NVM die, Husk and the field die returns to its
reset state; what is owed at command-ready is kept. -/
def coreReset (s0 : State) (cause : Nat) (lost : List (Fin 1024)) : State :=
  let s := nvmReset (keepReset s0 lost)
  let x : State :=
    { regs := s.regs.filter (fun e => survives e.1), nvm := s.nvm, keep := s.keep, free := s.free, pending := s.pending,
      safe := { husk := s.safe.husk, a := s.safe.a, b := s.safe.b },
      field := { s.field with mark := true, sent := none, ans := none, run := 0 },
      can := { woke := s.can.woke },
      boot := { cause := Nat.lor (if s.phase = .reset then s.boot.cause else 0) cause, owed22 := s.boot.owed22, fioWoke := s.boot.fioWoke } }
  fioLevels ((x.setFlag R.fieldStat_LINK false).setFlag R.nibGlob_HUSK_EN (s.flag R.nibGlob_HUSK_EN))

/-- PGOOD low, or RESET_N low. -/
def execResetAssert (power : Bool) (lost : List (Fin 1024)) (s : State) : Host.Outcome State Fault Refusal :=
  .next (coreReset s (if power then 1 else 2) (if power then lost else []))

/-- The supply monitor holds reset (R465); a keep write in progress ends under R130. -/
def execSupplyMonitorReset (lost : List (Fin 1024)) (s : State) : Host.Outcome State Fault Refusal := .next (coreReset s 4 lost)

/-- Release of reset (R58, R113, R116, R132): straps, trim and addresses of the factory area, the device's counts. `straps` holds
SLOT[3:0], TEST_N low, RECOV_N low and HMODE[1:0]. -/
def resetRelease (s : State) (straps : BitVec 8) : State :=
  let w := straps.setWidth 32
  let s1 := (s.setReg R.sysStrap w).setReg R.sysRstcause (wd s.boot.cause)
  let s2 := ((s1.setFld R.spiHcfg_MODE (bitsOf w 0 2)).setFld R.sheafCfg_SLOT (bitsOf w 4 4)).setFld R.clkRctrim_TRIM Config.factoryTrim.toNat
  let s3 := [0, 1].foldl (fun t p => (t.setReg (R.ethMacLo p) (Config.factoryMac (2 * p))).setReg (R.ethMacHi p) (Config.factoryMac (2 * p + 1) &&& 0xFFFF#32)) s2
  let s4 := keepBump s3 961 1
  let s5 := if s.boot.cause % 2 = 1 then s4 else keepBump s4 965 1
  (s5.withPhase (if bitOf w 3 then .test else .starting)).withBoot { s5.boot with cause := 0, step := 1 }

def execResetRelease (straps : BitVec 8) (s : State) : Host.Outcome State Fault Refusal :=
  .next (if s.phase = .reset then resetRelease s straps else s)

/-! ### Start-up (R113, R114, R134) -/

/-- Recovery firmware runs (R114). -/
def recoveryEntry (s : State) : State := (s.setFlag R.fwStat_RECOVERY true).setFlag R.sysRstcause_RECOVERY true

/-- The firmware bank is chosen and loaded (R134). -/
def firmwareLoaded (s : State) : State :=
  let go (t : State) (step : Nat) : State := (t.withReed .busy).withBoot { t.boot with step := step }
  let k := keepRead s 960
  let b := if k.2.1.isSome then 0 else bitsOf k.1 0 1
  if s.flag R.sysStrap_RECOV then go (recoveryEntry (k.2.2.setFld R.fwStat_CONFIRMED b)) 4
  else
    let ok (i : Nat) : Bool := fwVerify s i == 0
    let s1 := [0, 1].foldl (fun t i => t.setReg (R.fwVer i) (if ok i then fwWord s i 1 else 0#32)) (k.2.2.setFld R.fwStat_CONFIRMED b)
    if ok b then go (s1.setFld R.fwStat_RUNNING b) 2
    else if ok (1 - b) then
      let s2 := (s1.setFld R.fwStat_RUNNING (1 - b)).setFlag R.fwStat_BOOT_FALLBACK true
      go (keepBump (s2.raise 24 (1 - b) 3#32) 964 1) 2
    else go (recoveryEntry s1) 4

def execFirmwareBankLoaded (s : State) : Host.Outcome State Fault Refusal :=
  .next (if s.phase = .starting ∧ s.boot.step = 1 then firmwareLoaded s else s)

/-- What earlier happenings left to be told at command-ready: a lost stage (R135), a wake by CAN (R412) or a field edge (R367). -/
def raiseOwed (s : State) : State :=
  let s1 := match s.boot.owed22 with
    | some b => s.raise 22 b 6#32
    | none => s
  let s2 := match s1.can.woke with
    | some (n, d) => s1.raise 237 n (wd d)
    | none => s1
  let s3 := match s2.boot.fioWoke with
    | some (n, d) => s2.raise 215 n (wd d)
    | none => s2
  (s3.withBoot { s3.boot with owed22 := none, fioWoke := none }).withCan { s3.can with woke := none }

/-- Command-ready (R113): kept occurrences are written, then event 0 (R455); `us` from the release of reset. -/
def commandReady (s : State) (us : Word) : State :=
  let s1 := (s.withPhase (if s.flag R.fwStat_RECOVERY then .recovery else .ready)).withReed .running
  let s2 := evtDrain (raiseOwed (hrdyUpdate (s1.setReg R.sysReady us) true))
  s2.raise 0 0 (s2.reg R.sysRstcause)

def execCommandReady (us : Word) (s : State) : Host.Outcome State Fault Refusal :=
  .next (if s.phase = .starting ∧ s.boot.step = 4 then commandReady s us else s)

/-! ### RESET_BLOCK (R118) -/

/-- An Ethernet port at its reset state; its address is that of the factory area. -/
def ethReset (s : State) (p : Nat) : State :=
  let lo := R.ethCfg p
  let s1 := s.withRegs (s.regs.filter (fun e => e.1 < lo || lo + 0x100 ≤ e.1))
  ((s1.setReg (R.ethMacLo p) (Config.factoryMac (2 * p))).setReg (R.ethMacHi p) (Config.factoryMac (2 * p + 1) &&& 0xFFFF#32)).setNetPort p {}

/-- The repeat filter of a port emptied (R77). -/
def filterClear (s : State) (p : Nat) : State := s.setPort p { s.port p with done := [] }

/-- The command port that a reset block serves alone: an Ethernet port or a CAN controller. -/
def resetPort (n : Nat) : Option Nat :=
  if n = 3 ∨ n = 4 then some (n - 2) else if 5 ≤ n ∧ n ≤ 8 then some (n - 1) else none

/-- A block reset by command. -/
def blockReset (s0 : State) (n : Nat) : State :=
  let s := match resetPort n with
    | some p => filterClear s0 p
    | none => s0
  let s1 :=
    if n = 0 then s.withBoot { s.boot with resetDue := true }
    else if n = 1 then s.withReed .held
    else if n = 2 then inkReset s
    else if n ≤ 4 then ethReset s (n - 3)
    else if n ≤ 8 then canReset s (n - 5)
    else if n ≤ 12 then swReset s (n - 9)
    else s.setFlag (R.spiPxfer_BUSY (n - 13)) false
  s1.raise 27 n 0#32

/-- RESET_BLOCK. -/
def opResetBlock (r : Request) (s : State) : Res :=
  let n := r.target
  if 14 < n then refuse s stRANGE
  else if n = 0 ∧ r.p 0 ≠ 0x7224#32 then refuse s stBAD_PARAM
  else if n = 0 ∧ (List.range 8).any (fun g => grpState s g != 0) then refuse s stREFUSED_STATE
  else { st := blockReset s n }

def execResetBlock (r : Request) (s : State) : Host.Outcome State Fault Refusal :=
  .next (serveReed r s (decide (r.params.length ≤ 1)) (opResetBlock r))

/-- 1 ms after its reply the whole module is reset. -/
def execModuleResetDelay (s : State) : Host.Outcome State Fault Refusal := .next (if s.boot.resetDue then coreReset s 8 [] else s)

/-- Reed serves again after a restart (R77, R118, R135, R137, R285): filters emptied, stage and cam load abandoned, a trial falls back. -/
def reedRestarted (s : State) : State :=
  let s1 := (s.withReed .running).withCmd { s.cmd with ports := s.cmd.ports.map (fun (p : Port) => { p with done := [] }) }
  let s2 := camAbandon (if s1.boot.stage.isSome then fwAbandon s1 6 else s1)
  if s2.flag R.fwStat_TRIAL then fwFallback s2 2 else s2

def execReedRestartComplete (s : State) : Host.Outcome State Fault Refusal :=
  .next (if s.phase = .ready ∧ s.reed = .held then reedRestarted s else s)

/-! ### Dormant (R141, R142, R367, R412) -/

/-- DORMANT is refused. -/
def dormantBad (s : State) : Bool :=
  (List.range 8).any (fun g => grpState s g != 0) || !s.keep.busy.isEmpty || s.flag R.cfgStat_SAVE_BUSY || s.flag R.fwStat_STAGE_BUSY || s.flag R.fwStat_TRIAL

/-- DORMANT. -/
def opDormant (_r : Request) (s : State) : Res :=
  if dormantBad s then refuse s stREFUSED_STATE else { st := s }

/-- After the reply words 966 and 967 are written and the device powers down. -/
def execDormant (r : Request) (s : State) : Host.Outcome State Fault Refusal :=
  let form := r.target == 0 && r.params.isEmpty
  let t := serveReed r s form (opDormant r)
  let goes := s.phase == .ready && !s.boot.hold && s.reed == .running && form && !dormantBad s
  .next (if goes then (hrdyUpdate (keepFlush t) false).withPhase .dormant |>.withReed .held else t)

/-- A wake is a reset with cause WAKE. -/
def wakeReset (s : State) : State := coreReset s 16 []

/-- A falling edge of HSEL_N (0) or WAKE_N (1), or an accepted edge of a field input (2) whose WAKE takes that edge. -/
def wake (s : State) (src inst : Nat) (rising : Bool) : State :=
  if s.phase ≠ .dormant then s
  else if src < 2 then wakeReset s
  else if (s.fld (R.fieldCfg_WAKE inst)).testBit (if rising then 0 else 1) then
    wakeReset (s.withBoot { s.boot with fioWoke := some (inst, if rising then 1 else 2) })
  else s

def execWake (src : Fin 3) (inst : Fin 32) (rising : Bool) (s : State) : Host.Outcome State Fault Refusal := .next (wake s src.val inst.val rising)

/-- What the wake detector of a controller takes for a wake (R412): a dominant phase of `dom` tenths of a microsecond, or a
classical frame that matches; a data byte the frame does not have counts as zero. -/
def canWakes (s : State) (n : Nat) (sel : Bool) (dom : Nat) (ide : Bool) (id dlc : Nat) (data : List Byte) : Bool :=
  if !sel then s.fld (R.canWake_WMODE n) == 1 && decide (s.fld (R.canWake_WUF n) ≤ dom)
  else
    let byte (lo hi : Nat) (i : Nat) : Nat := if i < 4 then bitsOf (s.reg lo) (8 * i) 8 else bitsOf (s.reg hi) (8 * (i - 4)) 8
    s.fld (R.canWake_WMODE n) == 2
    && (!s.flag (R.canWkmask_IDE n) || ide == s.flag (R.canWkid_IDE n))
    && Nat.land (Nat.xor id (s.fld (R.canWkid_ID n))) (s.fld (R.canWkmask_ID n)) == 0
    && (List.range 8).all (fun i => Nat.land (Nat.xor (nth data i 0#8).toNat (byte (R.canWkdataLo n) (R.canWkdataHi n) i)) (byte (R.canWkdmaskLo n) (R.canWkdmaskHi n) i) == 0)
    && (!s.flag (R.canWake_WK_DLCCHK n) || dlc == s.fld (R.canWake_WK_DLC n))

/-- The wake detector wakes the controller, or in Dormant the module (R412). -/
def canWakeDetect (s : State) (n : Nat) (sel : Bool) (dom : Nat) (ide : Bool) (id dlc : Nat) (data : List Byte) : State :=
  if !canWakes s n sel dom ide id dlc data then s
  else if s.phase = .dormant then wakeReset (s.withCan { s.can with woke := some (n, if sel then 2 else 1) })
  else canWake s n sel

def execCanWakeDetect (n : Fin 4) (sel : Bool) (dom : BitVec 16) (ide : Bool) (id : BitVec 29) (dlc : Fin 16) (data : List Byte) (s : State) :
    Host.Outcome State Fault Refusal := .next (canWakeDetect s n.val sel dom.toNat ide id.toNat dlc.val data)

/-! ### Time -/

/-- What passes by itself in one edge tick: device time counts while the timebase is valid (R62), and what waited for room in a
transmit queue moves on as frames leave (R382). -/
def tick (s : State) : State := if tbValid s then netPump (s.withDt (s.dt + 1#64)) else s

end Sys2Proof.Machine
end

