-- ==== Sys2Proof/Machine/Dispatch.lean ====
section
/-! DEFINITION. One arm per command: a direct call of its meaning. -/

namespace Sys2Proof.Machine

open Sys2Proof

/-- The effect of a command on everything but the queue of waiting commands. -/
def exec (i : Instr) (s : State) : Host.Outcome State Fault Refusal :=
  match i with
  | .resetRelease straps => Sys2Proof.Machine.execResetRelease straps s
  | .supplyMonitorReset lost => Sys2Proof.Machine.execSupplyMonitorReset lost s
  | .crystalWaitExpiry => Sys2Proof.Machine.execCrystalWaitExpiry s
  | .firmwareBankLoaded => Sys2Proof.Machine.execFirmwareBankLoaded s
  | .configBlocksApply => Sys2Proof.Machine.execConfigBlocksApply s
  | .mapCamRestore => Sys2Proof.Machine.execMapCamRestore s
  | .commandReady us => Sys2Proof.Machine.execCommandReady us s
  | .wake src inst rising => Sys2Proof.Machine.execWake src inst rising s
  | .sourceMissingEdge c => Sys2Proof.Machine.execSourceMissingEdge c s
  | .sourceFrequencyFail src => Sys2Proof.Machine.execSourceFrequencyFail src s
  | .sourceQualified c => Sys2Proof.Machine.execSourceQualified c s
  | .muxForcedSwitch => Sys2Proof.Machine.execMuxForcedSwitch s
  | .pllLock pll => Sys2Proof.Machine.execPllLock pll s
  | .pllLockLoss pll => Sys2Proof.Machine.execPllLockLoss pll s
  | .delayLineCalibrated => Sys2Proof.Machine.execDelayLineCalibrated s
  | .delayLineSwap => Sys2Proof.Machine.execDelayLineSwap s
  | .rcTrimMeasure err => Sys2Proof.Machine.execRcTrimMeasure err s
  | .clockRevert src => Sys2Proof.Machine.execClockRevert src s
  | .clkCtrlWrite w => Sys2Proof.Machine.execClkCtrlWrite w s
  | .clkSelWrite w => Sys2Proof.Machine.execClkSelWrite w s
  | .clkRctrimWrite w => Sys2Proof.Machine.execClkRctrimWrite w s
  | .clkGateWrite w => Sys2Proof.Machine.execClkGateWrite w s
  | .paceMeasurement fs => Sys2Proof.Machine.execPaceMeasurement fs s
  | .shedLevelRise => Sys2Proof.Machine.execShedLevelRise s
  | .shedLevelFall => Sys2Proof.Machine.execShedLevelFall s
  | .envelopeMeasurement mv tj => Sys2Proof.Machine.execEnvelopeMeasurement mv tj s
  | .loopClrLate => Sys2Proof.Machine.execLoopClrLate s
  | .loopClrWorst => Sys2Proof.Machine.execLoopClrWorst s
  | .frameBoundary g => Sys2Proof.Machine.execFrameBoundary g s
  | .senseResultPost c bits t => Sys2Proof.Machine.execSenseResultPost c bits t s
  | .passStart => Sys2Proof.Machine.execPassStart s
  | .windingPass slot => Sys2Proof.Machine.execWindingPass slot s
  | .chopperPass slot => Sys2Proof.Machine.execChopperPass slot s
  | .steppingPass slot => Sys2Proof.Machine.execSteppingPass slot s
  | .machinePass slot => Sys2Proof.Machine.execMachinePass slot s
  | .observerPass slot => Sys2Proof.Machine.execObserverPass slot s
  | .axisPass slot => Sys2Proof.Machine.execAxisPass slot s
  | .gearPass slot => Sys2Proof.Machine.execGearPass slot s
  | .strokeTick slot => Sys2Proof.Machine.execStrokeTick slot s
  | .filterPass slot => Sys2Proof.Machine.execFilterPass slot s
  | .probePass slot => Sys2Proof.Machine.execProbePass slot s
  | .passCommit slot => Sys2Proof.Machine.execPassCommit slot s
  | .linkSkipInstant g => Sys2Proof.Machine.execLinkSkipInstant g s
  | .passDeadline g => Sys2Proof.Machine.execPassDeadline g s
  | .prechargeEnd slot => Sys2Proof.Machine.execPrechargeEnd slot s
  | .rampEnd slot => Sys2Proof.Machine.execRampEnd slot s
  | .mtpaRebuild m => Sys2Proof.Machine.execMtpaRebuild m s
  | .hostSpiCmdFrame hdr body tailBits => Sys2Proof.Machine.execHostSpiCmdFrame hdr body tailBits s
  | .hostSpiFetchFrame hdr clocked late => Sys2Proof.Machine.execHostSpiFetchFrame hdr clocked late s
  | .hostSpiStatusFrame hdr => Sys2Proof.Machine.execHostSpiStatusFrame hdr s
  | .udpCommandDatagram mac o bytes sumOk => Sys2Proof.Machine.execUdpCommandDatagram mac o bytes sumOk s
  | .swardCommandFrame src bytes => Sys2Proof.Machine.execSwardCommandFrame src bytes s
  | .canCommandFrame c fd bytes => Sys2Proof.Machine.execCanCommandFrame c fd bytes s
  | .requestDispatch => Sys2Proof.Machine.execRequestDispatch s
  | .deferredReplySend p => Sys2Proof.Machine.execDeferredReplySend p s
  | .nop r => Sys2Proof.Machine.execNop r s
  | .identify r => Sys2Proof.Machine.execIdentify r s
  | .readReg r => Sys2Proof.Machine.execReadReg r s
  | .writeReg r => Sys2Proof.Machine.execWriteReg r s
  | .modifyReg r => Sys2Proof.Machine.execModifyReg r s
  | .readSnapshot r => Sys2Proof.Machine.execReadSnapshot r s
  | .ctxCreate r => Sys2Proof.Machine.execCtxCreate r s
  | .ctxDelete r => Sys2Proof.Machine.execCtxDelete r s
  | .ctxBind r => Sys2Proof.Machine.execCtxBind r s
  | .ctxParam r => Sys2Proof.Machine.execCtxParam r s
  | .admitRq r => Sys2Proof.Machine.execAdmitRq r s
  | .groupState r => Sys2Proof.Machine.execGroupState r s
  | .windingEnable r => Sys2Proof.Machine.execWindingEnable r s
  | .windingDisable r => Sys2Proof.Machine.execWindingDisable r s
  | .identRun r => Sys2Proof.Machine.execIdentRun r s
  | .identDone slot res maps => Sys2Proof.Machine.execIdentDone slot res maps s
  | .move r => Sys2Proof.Machine.execMove r s
  | .moveNext r => Sys2Proof.Machine.execMoveNext r s
  | .jog r => Sys2Proof.Machine.execJog r s
  | .halt r => Sys2Proof.Machine.execHalt r s
  | .quickStop r => Sys2Proof.Machine.execQuickStop r s
  | .resume r => Sys2Proof.Machine.execResume r s
  | .setLimits r => Sys2Proof.Machine.execSetLimits r s
  | .home r => Sys2Proof.Machine.execHome r s
  | .setPosition r => Sys2Proof.Machine.execSetPosition r s
  | .abortMove r => Sys2Proof.Machine.execAbortMove r s
  | .homeTimeout slot => Sys2Proof.Machine.execHomeTimeout slot s
  | .gearEngage r => Sys2Proof.Machine.execGearEngage r s
  | .gearDisengage r => Sys2Proof.Machine.execGearDisengage r s
  | .gearRatio r => Sys2Proof.Machine.execGearRatio r s
  | .camLoadBegin r => Sys2Proof.Machine.execCamLoadBegin r s
  | .camLoadData r => Sys2Proof.Machine.execCamLoadData r s
  | .camLoadEnd r => Sys2Proof.Machine.execCamLoadEnd r s
  | .strokeStart r => Sys2Proof.Machine.execStrokeStart r s
  | .strokeFeed r => Sys2Proof.Machine.execStrokeFeed r s
  | .strokeHold r => Sys2Proof.Machine.execStrokeHold r s
  | .strokeFlush r => Sys2Proof.Machine.execStrokeFlush r s
  | .inkArm r => Sys2Proof.Machine.execInkArm r s
  | .inkForce r => Sys2Proof.Machine.execInkForce r s
  | .inkStop r => Sys2Proof.Machine.execInkStop r s
  | .inkRead r => Sys2Proof.Machine.execInkRead r s
  | .inkReadDone q single double => Sys2Proof.Machine.execInkReadDone q single double s
  | .inkAutoExpiry q => Sys2Proof.Machine.execInkAutoExpiry q s
  | .inkRecordComplete q => Sys2Proof.Machine.execInkRecordComplete q s
  | .inkInterfaceFailure => Sys2Proof.Machine.execInkInterfaceFailure s
  | .niblogTokenRefill => Sys2Proof.Machine.execNiblogTokenRefill s
  | .timeSet r => Sys2Proof.Machine.execTimeSet r s
  | .timeAdjustOffset r => Sys2Proof.Machine.execTimeAdjustOffset r s
  | .timeAdjustRate r => Sys2Proof.Machine.execTimeAdjustRate r s
  | .timeSlewDone => Sys2Proof.Machine.execTimeSlewDone s
  | .pulseProgram r => Sys2Proof.Machine.execPulseProgram r s
  | .pulseEdgeFix p t => Sys2Proof.Machine.execPulseEdgeFix p t s
  | .fioSet r => Sys2Proof.Machine.execFioSet r s
  | .fioConfig r => Sys2Proof.Machine.execFioConfig r s
  | .keepWrite r => Sys2Proof.Machine.execKeepWrite r s
  | .keepWordRegWrite n w => Sys2Proof.Machine.execKeepWordRegWrite n w s
  | .keepWritePersist n ecc => Sys2Proof.Machine.execKeepWritePersist n ecc s
  | .keepHourlyCount => Sys2Proof.Machine.execKeepHourlyCount s
  | .keepCounterFlush => Sys2Proof.Machine.execKeepCounterFlush s
  | .cfgSave r => Sys2Proof.Machine.execCfgSave r s
  | .cfgSaved res => Sys2Proof.Machine.execCfgSaved res s
  | .cfgLoad r => Sys2Proof.Machine.execCfgLoad r s
  | .fwStageBegin r => Sys2Proof.Machine.execFwStageBegin r s
  | .fwStageData r => Sys2Proof.Machine.execFwStageData r s
  | .fwStageEnd r => Sys2Proof.Machine.execFwStageEnd r s
  | .fwStageVerified => Sys2Proof.Machine.execFwStageVerified s
  | .fwStageTimeout => Sys2Proof.Machine.execFwStageTimeout s
  | .fwSwitchSwitch r => Sys2Proof.Machine.execFwSwitchSwitch r s
  | .fwSwitchConfirm r => Sys2Proof.Machine.execFwSwitchConfirm r s
  | .fwSwitchRevert r => Sys2Proof.Machine.execFwSwitchRevert r s
  | .fwSwitchScribe r => Sys2Proof.Machine.execFwSwitchScribe r s
  | .reedResume => Sys2Proof.Machine.execReedResume s
  | .fwSwitchAbandon => Sys2Proof.Machine.execFwSwitchAbandon s
  | .trialExpiry => Sys2Proof.Machine.execTrialExpiry s
  | .calSwap r => Sys2Proof.Machine.execCalSwap r s
  | .dormant r => Sys2Proof.Machine.execDormant r s
  | .resetBlock r => Sys2Proof.Machine.execResetBlock r s
  | .moduleResetDelay => Sys2Proof.Machine.execModuleResetDelay s
  | .safeParamStage r => Sys2Proof.Machine.execSafeParamStage r s
  | .safeParamConfirm r => Sys2Proof.Machine.execSafeParamConfirm r s
  | .safeAck r => Sys2Proof.Machine.execSafeAck r s
  | .swardRoute r => Sys2Proof.Machine.execSwardRoute r s
  | .swardJoin r => Sys2Proof.Machine.execSwardJoin r s
  | .swardLeave r => Sys2Proof.Machine.execSwardLeave r s
  | .sheafRole r => Sys2Proof.Machine.execSheafRole r s
  | .canTx r => Sys2Proof.Machine.execCanTx r s
  | .canCancel r => Sys2Proof.Machine.execCanCancel r s
  | .canScheduleStart r => Sys2Proof.Machine.execCanScheduleStart r s
  | .canScheduleStop r => Sys2Proof.Machine.execCanScheduleStop r s
  | .ringPop r => Sys2Proof.Machine.execRingPop r s
  | .ringPush r => Sys2Proof.Machine.execRingPush r s
  | .ringConfigWrite n ctrl w => Sys2Proof.Machine.execRingConfigWrite n ctrl w s
  | .ringOverflowReport n => Sys2Proof.Machine.execRingOverflowReport n s
  | .pspiTransferStart n w => Sys2Proof.Machine.execPspiTransferStart n w s
  | .pspiTransferDone n rx => Sys2Proof.Machine.execPspiTransferDone n rx s
  | .spiIrqcfgWrite w => Sys2Proof.Machine.execSpiIrqcfgWrite w s
  | .senseMclkWrite n w => Sys2Proof.Machine.execSenseMclkWrite n w s
  | .senseCalScan ch => Sys2Proof.Machine.execSenseCalScan ch s
  | .senseCalOffset ch => Sys2Proof.Machine.execSenseCalOffset ch s
  | .senseCalDone rt sum => Sys2Proof.Machine.execSenseCalDone rt sum s
  | .overcurrentTrip c run => Sys2Proof.Machine.execOvercurrentTrip c run s
  | .modulatorLost c bits => Sys2Proof.Machine.execModulatorLost c bits s
  | .modulatorRecovered c => Sys2Proof.Machine.execModulatorRecovered c s
  | .nibEdgeCommit k seq => Sys2Proof.Machine.execNibEdgeCommit k seq s
  | .nibGperWrite g w => Sys2Proof.Machine.execNibGperWrite g w s
  | .nibClearLatches g => Sys2Proof.Machine.execNibClearLatches g s
  | .nibGadjWrite g w => Sys2Proof.Machine.execNibGadjWrite g w s
  | .faultInputAssert n level => Sys2Proof.Machine.execFaultInputAssert n level s
  | .huskEnableChange on => Sys2Proof.Machine.execHuskEnableChange on s
  | .echoEdge n high t => Sys2Proof.Machine.execEchoEdge n high t s
  | .echoWindowEnd n => Sys2Proof.Machine.execEchoWindowEnd n s
  | .chopperPeriodStart n => Sys2Proof.Machine.execChopperPeriodStart n s
  | .syncInEdge t => Sys2Proof.Machine.execSyncInEdge t s
  | .syncInLoss => Sys2Proof.Machine.execSyncInLoss s
  | .encoderEdge n a b edge => Sys2Proof.Machine.execEncoderEdge n a b edge s
  | .zEdge n edge => Sys2Proof.Machine.execZEdge n edge s
  | .ssiTransfer n idle word trail => Sys2Proof.Machine.execSsiTransfer n idle word trail s
  | .fdbkClr n => Sys2Proof.Machine.execFdbkClr n s
  | .fdbkZarm n => Sys2Proof.Machine.execFdbkZarm n s
  | .latchArm u => Sys2Proof.Machine.execLatchArm u s
  | .latchDisarm u => Sys2Proof.Machine.execLatchDisarm u s
  | .latchEdge pin rising edge => Sys2Proof.Machine.execLatchEdge pin rising edge s
  | .latchTimeCompare u => Sys2Proof.Machine.execLatchTimeCompare u s
  | .latchWindowEnd u => Sys2Proof.Machine.execLatchWindowEnd u s
  | .latchCaptureComplete u => Sys2Proof.Machine.execLatchCaptureComplete u s
  | .scribeCycle t husk => Sys2Proof.Machine.execScribeCycle t husk s
  | .scribeXcheckFrame ok => Sys2Proof.Machine.execScribeXcheckFrame ok s
  | .huskXcheckFrame ok => Sys2Proof.Machine.execHuskXcheckFrame ok s
  | .xcheckTimeout husk => Sys2Proof.Machine.execXcheckTimeout husk s
  | .stoInputChange view a b => Sys2Proof.Machine.execStoInputChange view a b s
  | .stoDiscrepancyExpiry husk => Sys2Proof.Machine.execStoDiscrepancyExpiry husk s
  | .ss1BackstopExpiry => Sys2Proof.Machine.execSs1BackstopExpiry s
  | .brkTExpiry => Sys2Proof.Machine.execBrkTExpiry s
  | .slsLevelEffective a => Sys2Proof.Machine.execSlsLevelEffective a s
  | .genSettleExpiry => Sys2Proof.Machine.execGenSettleExpiry s
  | .contactorWindowExpiry n husk => Sys2Proof.Machine.execContactorWindowExpiry n husk s
  | .contactorFeedbackChange n closed t => Sys2Proof.Machine.execContactorFeedbackChange n closed t s
  | .safeTestPulse p chB offDuring onOutside => Sys2Proof.Machine.execSafeTestPulse p chB offDuring onOutside s
  | .huskReadbackTimeout p => Sys2Proof.Machine.execHuskReadbackTimeout p s
  | .telegramCopy path o bytes t => Sys2Proof.Machine.execTelegramCopy path o bytes t s
  | .telegramWatchdogExpiry => Sys2Proof.Machine.execTelegramWatchdogExpiry s
  | .telegramPathLoss path => Sys2Proof.Machine.execTelegramPathLoss path s
  | .huskCounterFault c overspeed => Sys2Proof.Machine.execHuskCounterFault c overspeed s
  | .singleChannelTimeout => Sys2Proof.Machine.execSingleChannelTimeout s
  | .huskSelfTestFailure => Sys2Proof.Machine.execHuskSelfTestFailure s
  | .vhuskPowerUp => Sys2Proof.Machine.execVhuskPowerUp s
  | .vhuskLoss => Sys2Proof.Machine.execVhuskLoss s
  | .safeStageWrite w v => Sys2Proof.Machine.execSafeStageWrite w v s
  | .logicHeartbeatSend => Sys2Proof.Machine.execLogicHeartbeatSend s
  | .fieldHeartbeatReceive => Sys2Proof.Machine.execFieldHeartbeatReceive s
  | .logicHeartbeatReceive => Sys2Proof.Machine.execLogicHeartbeatReceive s
  | .fieldLinkTimeout => Sys2Proof.Machine.execFieldLinkTimeout s
  | .fieldSilenceExpiry => Sys2Proof.Machine.execFieldSilenceExpiry s
  | .fieldInputEdge n level t => Sys2Proof.Machine.execFieldInputEdge n level t s
  | .chatterWindowEnd n => Sys2Proof.Machine.execChatterWindowEnd n s
  | .outputOvercurrent n => Sys2Proof.Machine.execOutputOvercurrent n s
  | .outputThermal n => Sys2Proof.Machine.execOutputThermal n s
  | .bankOvercurrent b mA => Sys2Proof.Machine.execBankOvercurrent b mA s
  | .vfieldMeasurement v banks => Sys2Proof.Machine.execVfieldMeasurement v banks s
  | .ethFrameReceive p bytes room t => Sys2Proof.Machine.execEthFrameReceive p bytes room t s
  | .ethLinkChange p up slow => Sys2Proof.Machine.execEthLinkChange p up slow s
  | .ethMdioAccess p w => Sys2Proof.Machine.execEthMdioAccess p w s
  | .ethMdioDone p data => Sys2Proof.Machine.execEthMdioDone p data s
  | .ptpOffsetSample p parent o mpd utc t => Sys2Proof.Machine.execPtpOffsetSample p parent o mpd utc t s
  | .ptpSendInterval p kind t => Sys2Proof.Machine.execPtpSendInterval p kind t s
  | .ptpHoldoverTimeout => Sys2Proof.Machine.execPtpHoldoverTimeout s
  | .timebaseDiscipline => Sys2Proof.Machine.execTimebaseDiscipline s
  | .timeCfgWrite w => Sys2Proof.Machine.execTimeCfgWrite w s
  | .timeSnap => Sys2Proof.Machine.execTimeSnap s
  | .canFrameReceive n ide fdf brs esi rtr id dlc data t => Sys2Proof.Machine.execCanFrameReceive n ide fdf brs esi rtr id dlc data t s
  | .canTxDone n res tdc => Sys2Proof.Machine.execCanTxDone n res tdc s
  | .canCtrlWrite n w => Sys2Proof.Machine.execCanCtrlWrite n w s
  | .canRecover n => Sys2Proof.Machine.execCanRecover n s
  | .canDominantTimeout n own => Sys2Proof.Machine.execCanDominantTimeout n own s
  | .canCycleStart n t => Sys2Proof.Machine.execCanCycleStart n t s
  | .canReferenceReceive n cnt t => Sys2Proof.Machine.execCanReferenceReceive n cnt t s
  | .canReferenceTimeout n => Sys2Proof.Machine.execCanReferenceTimeout n s
  | .canWindowStart n w => Sys2Proof.Machine.execCanWindowStart n w s
  | .canWindowEnd n w => Sys2Proof.Machine.execCanWindowEnd n w s
  | .canWakeDetect n sel dom ide id dlc data => Sys2Proof.Machine.execCanWakeDetect n sel dom ide id dlc data s
  | .swardFrameReceive p ws abort t => Sys2Proof.Machine.execSwardFrameReceive p ws abort t s
  | .swardTransmit p t => Sys2Proof.Machine.execSwardTransmit p t s
  | .credReceive p bulk k => Sys2Proof.Machine.execCredReceive p bulk k s
  | .credSend p t => Sys2Proof.Machine.execCredSend p t s
  | .helloReceive p addr nport hops c2 c3 => Sys2Proof.Machine.execHelloReceive p addr nport hops c2 c3 s
  | .swardTrainingDone p => Sys2Proof.Machine.execSwardTrainingDone p s
  | .leaveReceive p => Sys2Proof.Machine.execLeaveReceive p s
  | .swardLossOfSignal p => Sys2Proof.Machine.execSwardLossOfSignal p s
  | .swardSymbolErrorLimit p n => Sys2Proof.Machine.execSwardSymbolErrorLimit p n s
  | .dreqSend p t => Sys2Proof.Machine.execDreqSend p t s
  | .dreqReceive p tag arr t => Sys2Proof.Machine.execDreqReceive p tag arr t s
  | .drspReceive p tag turn t => Sys2Proof.Machine.execDrspReceive p tag turn t s
  | .epochMarkReceive p e late t => Sys2Proof.Machine.execEpochMarkReceive p e late t s
  | .swardEpochBoundary t => Sys2Proof.Machine.execSwardEpochBoundary t s
  | .swardWaitDrop p => Sys2Proof.Machine.execSwardWaitDrop p s
  | .e2eRetransmitTimeout peer bulk => Sys2Proof.Machine.execE2eRetransmitTimeout peer bulk s
  | .e2eAckSend peer bulk => Sys2Proof.Machine.execE2eAckSend peer bulk s
  | .streamForget peer bulk rx => Sys2Proof.Machine.execStreamForget peer bulk rx s
  | .eventFrameReceive ev ft => Sys2Proof.Machine.execEventFrameReceive ev ft s
  | .swardNodeWrite w => Sys2Proof.Machine.execSwardNodeWrite w s
  | .swardResWrite p c w => Sys2Proof.Machine.execSwardResWrite p c w s
  | .swardHrxtailWrite w => Sys2Proof.Machine.execSwardHrxtailWrite w s
  | .sheafEpoch => Sys2Proof.Machine.execSheafEpoch s
  | .sheafBeaconSend => Sys2Proof.Machine.execSheafBeaconSend s
  | .sheafBeaconReceive src took members answer grps => Sys2Proof.Machine.execSheafBeaconReceive src took members answer grps s
  | .sheafStatusReceive slot join standby leave links => Sys2Proof.Machine.execSheafStatusReceive slot join standby leave links s
  | .sheafDepartureTimeout slot => Sys2Proof.Machine.execSheafDepartureTimeout slot s
  | .linkDataReceive v ft per out t => Sys2Proof.Machine.execLinkDataReceive v ft per out t s
  | .mirrorReceive p g seq state ctxs nibs t => Sys2Proof.Machine.execMirrorReceive p g seq state ctxs nibs t s
  | .takeoverCheck peerHigh => Sys2Proof.Machine.execTakeoverCheck peerHigh s
  | .eventArbitration => Sys2Proof.Machine.execEventArbitration s
  | .holdoffWindowEnd e => Sys2Proof.Machine.execHoldoffWindowEnd e s
  | .evtStatClear k w => Sys2Proof.Machine.execEvtStatClear k w s
  | .evtTest w => Sys2Proof.Machine.execEvtTest w s
  | .supplyMeasurement mv => Sys2Proof.Machine.execSupplyMeasurement mv s
  | .caseTempMeasurement c => Sys2Proof.Machine.execCaseTempMeasurement c s
  | .registerWrite a w => Sys2Proof.Machine.execRegisterWrite a w s
  | .resetAssert power lost => Sys2Proof.Machine.execResetAssert power lost s
  | .reedRestartComplete => Sys2Proof.Machine.execReedRestartComplete s
  | .sinc3Output c bits e => Sys2Proof.Machine.execSinc3Output c bits e s
  | .canTxStart n t => Sys2Proof.Machine.execCanTxStart n t s
  | .canBusoffRecoveryDone n => Sys2Proof.Machine.execCanBusoffRecoveryDone n s
  | .canBusError n heavy => Sys2Proof.Machine.execCanBusError n heavy s

end Sys2Proof.Machine
end

