-- ==== Sys2Proof/Laws/Bits.lean ====
section
/-! SUPPORT. Laws of bit fields, lists by index and limited numbers. -/

namespace Sys2Proof.Machine

/-- A bit of the mask of the low `n` bits. -/
theorem lowMask_bit (n i : Nat) (h : i < 32) : (lowMask n).getLsbD i = decide (i < n) := by
  simp only [lowMask, BitVec.getLsbD_ofNat, h, decide_true, Bool.true_and, Nat.testBit_two_pow_sub_one]

/-- The same by index. -/
theorem lowMask_get (n i : Nat) (h : i < 32) : (lowMask n)[i] = decide (i < n) := by
  rw [← BitVec.getLsbD_eq_getElem h, lowMask_bit n i h]

/-- A bit of a word made of a number, by index. -/
theorem ofNat_get (v i : Nat) (h : i < 32) : (BitVec.ofNat 32 v)[i] = v.testBit i := by
  rw [← BitVec.getLsbD_eq_getElem h, BitVec.getLsbD_ofNat]
  simp [h]

/-- A bit of a word with a field replaced: inside the field that of the value, outside that of the word. -/
theorem withBits_bit (x : Word) (lo n v i : Nat) (h : i < 32) :
    (withBits x lo n v).getLsbD i = if lo ≤ i ∧ i < lo + n then v.testBit (i - lo) else x.getLsbD i := by
  by_cases h1 : lo ≤ i
  · have h2 : i - lo < 32 := by omega
    by_cases h3 : i - lo < n
    · have h4 : i < lo + n := by omega
      simp [withBits, lowMask_get _ _ h2, ofNat_get _ _ h2, h, h1, h3, h4, Nat.not_lt.mpr h1]
    · have h4 : ¬ i < lo + n := by omega
      simp [withBits, lowMask_get _ _ h2, ofNat_get _ _ h2, h, h1, h3, h4, Nat.not_lt.mpr h1]
  · have h5 : i < lo := by omega
    simp [withBits, h, h1, h5]

/-- A bit of a field read as a number. -/
theorem bitsOf_testBit (x : Word) (lo n i : Nat) (hf : lo + n ≤ 32) : (bitsOf x lo n).testBit i = (decide (i < n) && x.getLsbD (lo + i)) := by
  rw [bitsOf, BitVec.testBit_toNat, BitVec.getLsbD_and, BitVec.getLsbD_ushiftRight]
  by_cases h1 : i < 32
  · rw [lowMask_bit n i h1, Bool.and_comm]
  · have h2 : ¬ i < n := by omega
    simp [h2, BitVec.getLsbD_of_ge (lowMask n) i (Nat.le_of_not_lt h1)]

/-- A field is smaller than two to its width. -/
theorem bitsOf_lt (x : Word) (lo n : Nat) (hf : lo + n ≤ 32) : bitsOf x lo n < 2 ^ n := by
  apply Nat.lt_pow_two_of_testBit
  intro i hi
  rw [bitsOf_testBit x lo n i hf]
  simp [Nat.not_lt.mpr hi]

/-- A field reads as the value it was given, reduced to its width. -/
theorem bitsOf_withBits_same (x : Word) (lo n v : Nat) (hf : lo + n ≤ 32) : bitsOf (withBits x lo n v) lo n = v % 2 ^ n := by
  apply Nat.eq_of_testBit_eq
  intro i
  rw [bitsOf_testBit _ _ _ _ hf, Nat.testBit_mod_two_pow]
  by_cases h : i < n
  · rw [withBits_bit _ _ _ _ _ (by omega)]
    simp [h]
  · simp [h]

/-- A field keeps its value when one beside it is replaced. -/
theorem bitsOf_withBits_apart (x : Word) (lo n v lo' n' : Nat) (hf' : lo' + n' ≤ 32) (h : lo + n ≤ lo' ∨ lo' + n' ≤ lo) :
    bitsOf (withBits x lo n v) lo' n' = bitsOf x lo' n' := by
  apply Nat.eq_of_testBit_eq
  intro i
  rw [bitsOf_testBit _ _ _ _ hf', bitsOf_testBit _ _ _ _ hf']
  by_cases hi : i < n'
  · rw [withBits_bit _ _ _ _ _ (by omega)]
    have : ¬ (lo ≤ lo' + i ∧ lo' + i < lo + n) := by omega
    simp [hi, this]
  · simp [hi]

/-- The low word of a 64-bit quantity put together. -/
@[simp] theorem lo32_join64 (lo hi : Word) : lo32 (join64 lo hi) = lo := by
  ext i h
  simp [lo32, join64]

/-- The high word of a 64-bit quantity put together. -/
@[simp] theorem hi32_join64 (lo hi : Word) : hi32 (join64 lo hi) = hi := by
  ext i h
  have h1 : 32 + i < 64 := by omega
  have h2 : i < 64 := by omega
  simp [hi32, join64, h, h1, h2]

/-- A limited number lies in its range. -/
theorem clampI_range (lo hi x : Int) (h : lo ≤ hi) : lo ≤ clampI lo hi x ∧ clampI lo hi x ≤ hi := by
  simp only [clampI]
  omega

/-- A number inside the range is not moved by the limit. -/
theorem clampI_id (lo hi x : Int) (h1 : lo ≤ x) (h2 : x ≤ hi) : clampI lo hi x = x := by
  simp only [clampI]
  omega

/-- A saturating count stays within its width. -/
theorem satInc_lt (n v : Nat) : satInc n v < 2 ^ n := by
  have : 0 < 2 ^ n := Nat.two_pow_pos n
  simp only [satInc]
  split <;> omega

/-- A saturating sum stays within its width. -/
theorem satAdd_lt (n v k : Nat) : satAdd n v k < 2 ^ n := by
  have : 0 < 2 ^ n := Nat.two_pow_pos n
  simp only [satAdd]
  split <;> omega

/-- The element at an index that was replaced. -/
theorem nth_setAt_same {α : Type} (l : List α) (i : Nat) (x d : α) (h : i < l.length) : nth (setAt l i x) i d = x := by
  simp [nth, setAt, List.getD, h]

/-- The elements at the other indexes. -/
theorem nth_setAt_ne {α : Type} (l : List α) (i j : Nat) (x d : α) (h : i ≠ j) : nth (setAt l i x) j d = nth l j d := by
  simp [nth, setAt, List.getD, h]

/-- Replacing an element keeps the length. -/
@[simp] theorem setAt_length {α : Type} (l : List α) (i : Nat) (x : α) : (setAt l i x).length = l.length := by
  simp [setAt]

/-- What every step of a fold leaves, the fold leaves. -/
theorem foldl_keep {α β γ : Type} (f : β → α → β) (g : β → γ) (h : ∀ b a, g (f b a) = g b) (l : List α) (b : β) : g (l.foldl f b) = g b := by
  induction l generalizing b with
  | nil => rfl
  | cons x xs ih => simp only [List.foldl_cons, ih, h]

end Sys2Proof.Machine
end

