-- ==== Sys2Proof/Laws/Tbl.lean ====
section
/-! SUPPORT. Laws of sparse tables: a read after a write, and the canonical form that every operation keeps. -/

namespace Sys2Proof.Machine

/-- A key that was removed reads as the default. -/
@[simp] theorem tblGet_del_same {α : Type} (t : Tbl α) (k : Nat) (d : α) : tblGet (tblDel t k) k d = d := by
  induction t with
  | nil => rfl
  | cons e rest ih =>
    obtain ⟨j, v⟩ := e
    by_cases h : j = k
    · simp [tblDel, h, ih]
    · simp [tblDel, tblGet, h, ih]

/-- Removing a key leaves the others. -/
theorem tblGet_del_ne {α : Type} (t : Tbl α) (k l : Nat) (d : α) (hne : k ≠ l) : tblGet (tblDel t k) l d = tblGet t l d := by
  induction t with
  | nil => rfl
  | cons e rest ih =>
    obtain ⟨j, v⟩ := e
    by_cases h : j = k
    · subst h
      simp [tblDel, tblGet, hne, ih]
    · by_cases h2 : j = l
      · subst h2
        simp [tblDel, tblGet, h]
      · simp [tblDel, tblGet, h, h2, ih]

/-- A key that was listed reads as its value. -/
@[simp] theorem tblGet_ins_same {α : Type} (t : Tbl α) (k : Nat) (x d : α) : tblGet (tblIns t k x) k d = x := by
  induction t with
  | nil => simp [tblIns, tblGet]
  | cons e rest ih =>
    obtain ⟨j, v⟩ := e
    by_cases h : j = k
    · simp [tblIns, tblGet, h]
    · by_cases h2 : k < j
      · simp [tblIns, tblGet, h, h2]
      · simp [tblIns, tblGet, h, h2, ih]

/-- Listing a key leaves the others. -/
theorem tblGet_ins_ne {α : Type} (t : Tbl α) (k l : Nat) (x d : α) (hne : k ≠ l) : tblGet (tblIns t k x) l d = tblGet t l d := by
  induction t with
  | nil => simp [tblIns, tblGet, hne]
  | cons e rest ih =>
    obtain ⟨j, v⟩ := e
    by_cases h : j = k
    · subst h
      simp [tblIns, tblGet, hne]
    · by_cases h2 : k < j
      · simp [tblIns, tblGet, h, h2, hne]
      · by_cases h3 : j = l
        · subst h3
          simp [tblIns, tblGet, h, h2]
        · simp [tblIns, tblGet, h, h2, h3, ih]

/-- A read after a write of the same key. -/
@[simp] theorem tblGet_put_same {α : Type} [DecidableEq α] (t : Tbl α) (k : Nat) (x d : α) : tblGet (tblPut t k x d) k d = x := by
  unfold tblPut
  split
  · rename_i h
    rw [h]
    exact tblGet_del_same t k d
  · exact tblGet_ins_same t k x d

/-- A write leaves every other key as it was. -/
theorem tblGet_put_ne {α : Type} [DecidableEq α] (t : Tbl α) (k l : Nat) (x d e : α) (hne : k ≠ l) : tblGet (tblPut t k x d) l e = tblGet t l e := by
  unfold tblPut
  split
  · exact tblGet_del_ne t k l e hne
  · exact tblGet_ins_ne t k l x e hne

/-- The canonical form from a higher bound on is one from a lower bound on. -/
theorem tblWfFrom_weaken {α : Type} [DecidableEq α] (f : Nat → α) (t : Tbl α) (a b : Nat) (hab : a ≤ b) (h : tblWfFrom f t b = true) :
    tblWfFrom f t a = true := by
  cases t with
  | nil => rfl
  | cons e rest =>
    obtain ⟨j, v⟩ := e
    simp only [tblWfFrom, Bool.and_eq_true, decide_eq_true_eq] at h ⊢
    exact ⟨⟨by omega, h.1.2⟩, h.2⟩

/-- Removing a key keeps the canonical form. -/
theorem tblWfFrom_del {α : Type} [DecidableEq α] (f : Nat → α) (t : Tbl α) (lo k : Nat) (h : tblWfFrom f t lo = true) : tblWfFrom f (tblDel t k) lo = true := by
  induction t generalizing lo with
  | nil => rfl
  | cons e rest ih =>
    obtain ⟨j, v⟩ := e
    simp only [tblWfFrom, Bool.and_eq_true, decide_eq_true_eq] at h
    by_cases hj : j = k
    · simp only [tblDel, hj, if_true]
      exact tblWfFrom_weaken f _ lo (j + 1) (by omega) (hj ▸ ih (j + 1) h.2)
    · simp only [tblDel, hj, if_false, tblWfFrom, Bool.and_eq_true, decide_eq_true_eq]
      exact ⟨h.1, ih (j + 1) h.2⟩

/-- Listing a key at a value that is not its default keeps the canonical form. -/
theorem tblWfFrom_ins {α : Type} [DecidableEq α] (f : Nat → α) (t : Tbl α) (lo k : Nat) (x : α) (hlo : lo ≤ k) (hx : x ≠ f k)
    (h : tblWfFrom f t lo = true) : tblWfFrom f (tblIns t k x) lo = true := by
  induction t generalizing lo with
  | nil => simp [tblIns, tblWfFrom, hlo, hx]
  | cons e rest ih =>
    obtain ⟨j, v⟩ := e
    simp only [tblWfFrom, Bool.and_eq_true, decide_eq_true_eq] at h
    by_cases hj : j = k
    · subst hj
      simp [tblIns, tblWfFrom, hlo, hx, h.2]
    · by_cases hk : k < j
      · simp [tblIns, tblWfFrom, hj, hk, hlo, hx, h.1.2, h.2]
      · simp only [tblIns, hj, hk, if_false, tblWfFrom, Bool.and_eq_true, decide_eq_true_eq]
        exact ⟨h.1, ih (j + 1) (by omega) h.2⟩

/-- A write keeps the canonical form. -/
theorem tblWf_put {α : Type} [DecidableEq α] (f : Nat → α) (t : Tbl α) (k : Nat) (x : α) (h : tblWf f t = true) : tblWf f (tblPut t k x (f k)) = true := by
  unfold tblPut
  split
  · exact tblWfFrom_del f t 0 k h
  · exact tblWfFrom_ins f t 0 k x (Nat.zero_le k) ‹_› h

/-- Leaving entries out keeps the canonical form. -/
theorem tblWfFrom_filter {α : Type} [DecidableEq α] (f : Nat → α) (p : Nat × α → Bool) (t : Tbl α) (lo : Nat) (h : tblWfFrom f t lo = true) :
    tblWfFrom f (t.filter p) lo = true := by
  induction t generalizing lo with
  | nil => rfl
  | cons e rest ih =>
    obtain ⟨j, v⟩ := e
    simp only [tblWfFrom, Bool.and_eq_true, decide_eq_true_eq] at h
    by_cases hp : p (j, v) = true
    · simp only [List.filter_cons, hp, if_true, tblWfFrom, Bool.and_eq_true, decide_eq_true_eq]
      exact ⟨h.1, ih (j + 1) h.2⟩
    · simp only [List.filter_cons, hp]
      exact tblWfFrom_weaken f _ lo (j + 1) (by omega) (ih (j + 1) h.2)

end Sys2Proof.Machine
end

