-- ==== Sys2Proof/Laws/State.lean ====
section
/-! SUPPORT. Laws of State: one lemma per field and update, and what a register, a field and a flag read as after a write. -/

namespace Sys2Proof.Machine

open Sys2Proof

/-! ### Each update leaves every field but its own -/

@[simp] theorem State.setReg_force (s : State) (a : Nat) (x : Word) : (s.setReg a x).force = s.force := rfl
@[simp] theorem State.setReg_dt (s : State) (a : Nat) (x : Word) : (s.setReg a x).dt = s.dt := rfl
@[simp] theorem State.setReg_evt (s : State) (a : Nat) (x : Word) : (s.setReg a x).evt = s.evt := rfl
@[simp] theorem State.setReg_cmd (s : State) (a : Nat) (x : Word) : (s.setReg a x).cmd = s.cmd := rfl
@[simp] theorem State.setReg_phase (s : State) (a : Nat) (x : Word) : (s.setReg a x).phase = s.phase := rfl
@[simp] theorem State.setReg_reed (s : State) (a : Nat) (x : Word) : (s.setReg a x).reed = s.reed := rfl
@[simp] theorem State.setReg_clk (s : State) (a : Nat) (x : Word) : (s.setReg a x).clk = s.clk := rfl
@[simp] theorem State.setReg_loop (s : State) (a : Nat) (x : Word) : (s.setReg a x).loop = s.loop := rfl
@[simp] theorem State.setReg_sense (s : State) (a : Nat) (x : Word) : (s.setReg a x).sense = s.sense := rfl
@[simp] theorem State.setReg_nib (s : State) (a : Nat) (x : Word) : (s.setReg a x).nib = s.nib := rfl
@[simp] theorem State.setReg_ink (s : State) (a : Nat) (x : Word) : (s.setReg a x).ink = s.ink := rfl
@[simp] theorem State.setReg_fdbk (s : State) (a : Nat) (x : Word) : (s.setReg a x).fdbk = s.fdbk := rfl
@[simp] theorem State.setReg_field (s : State) (a : Nat) (x : Word) : (s.setReg a x).field = s.field := rfl
@[simp] theorem State.setReg_safe (s : State) (a : Nat) (x : Word) : (s.setReg a x).safe = s.safe := rfl
@[simp] theorem State.setReg_store (s : State) (a : Nat) (x : Word) : (s.setReg a x).store = s.store := rfl
@[simp] theorem State.setReg_net (s : State) (a : Nat) (x : Word) : (s.setReg a x).net = s.net := rfl
@[simp] theorem State.setReg_can (s : State) (a : Nat) (x : Word) : (s.setReg a x).can = s.can := rfl
@[simp] theorem State.setReg_sward (s : State) (a : Nat) (x : Word) : (s.setReg a x).sward = s.sward := rfl
@[simp] theorem State.setReg_sheaf (s : State) (a : Nat) (x : Word) : (s.setReg a x).sheaf = s.sheaf := rfl
@[simp] theorem State.setReg_nvm (s : State) (a : Nat) (x : Word) : (s.setReg a x).nvm = s.nvm := rfl
@[simp] theorem State.setReg_keep (s : State) (a : Nat) (x : Word) : (s.setReg a x).keep = s.keep := rfl
@[simp] theorem State.setReg_boot (s : State) (a : Nat) (x : Word) : (s.setReg a x).boot = s.boot := rfl
@[simp] theorem State.setReg_free (s : State) (a : Nat) (x : Word) : (s.setReg a x).free = s.free := rfl
@[simp] theorem State.setReg_pending (s : State) (a : Nat) (x : Word) : (s.setReg a x).pending = s.pending := rfl
@[simp] theorem State.setReg_frc (s : State) (a0 : Nat) (x : Word) (a : Nat) : (s.setReg a0 x).frc a = s.frc a := rfl
@[simp] theorem State.setReg_ffld (s : State) (a : Nat) (x : Word) (f : RF) : (s.setReg a x).ffld f = s.ffld f := rfl
@[simp] theorem State.setReg_ctx (s : State) (a : Nat) (x : Word) (m : Nat) : (s.setReg a x).ctx m = s.ctx m := rfl
@[simp] theorem State.setReg_grp (s : State) (a : Nat) (x : Word) (m : Nat) : (s.setReg a x).grp m = s.grp m := rfl
@[simp] theorem State.setReg_port (s : State) (a : Nat) (x : Word) (m : Nat) : (s.setReg a x).port m = s.port m := rfl

@[simp] theorem State.setFld_force (s : State) (f : RF) (v : Nat) : (s.setFld f v).force = s.force := rfl
@[simp] theorem State.setFld_dt (s : State) (f : RF) (v : Nat) : (s.setFld f v).dt = s.dt := rfl
@[simp] theorem State.setFld_evt (s : State) (f : RF) (v : Nat) : (s.setFld f v).evt = s.evt := rfl
@[simp] theorem State.setFld_cmd (s : State) (f : RF) (v : Nat) : (s.setFld f v).cmd = s.cmd := rfl
@[simp] theorem State.setFld_phase (s : State) (f : RF) (v : Nat) : (s.setFld f v).phase = s.phase := rfl
@[simp] theorem State.setFld_reed (s : State) (f : RF) (v : Nat) : (s.setFld f v).reed = s.reed := rfl
@[simp] theorem State.setFld_clk (s : State) (f : RF) (v : Nat) : (s.setFld f v).clk = s.clk := rfl
@[simp] theorem State.setFld_loop (s : State) (f : RF) (v : Nat) : (s.setFld f v).loop = s.loop := rfl
@[simp] theorem State.setFld_sense (s : State) (f : RF) (v : Nat) : (s.setFld f v).sense = s.sense := rfl
@[simp] theorem State.setFld_nib (s : State) (f : RF) (v : Nat) : (s.setFld f v).nib = s.nib := rfl
@[simp] theorem State.setFld_ink (s : State) (f : RF) (v : Nat) : (s.setFld f v).ink = s.ink := rfl
@[simp] theorem State.setFld_fdbk (s : State) (f : RF) (v : Nat) : (s.setFld f v).fdbk = s.fdbk := rfl
@[simp] theorem State.setFld_field (s : State) (f : RF) (v : Nat) : (s.setFld f v).field = s.field := rfl
@[simp] theorem State.setFld_safe (s : State) (f : RF) (v : Nat) : (s.setFld f v).safe = s.safe := rfl
@[simp] theorem State.setFld_store (s : State) (f : RF) (v : Nat) : (s.setFld f v).store = s.store := rfl
@[simp] theorem State.setFld_net (s : State) (f : RF) (v : Nat) : (s.setFld f v).net = s.net := rfl
@[simp] theorem State.setFld_can (s : State) (f : RF) (v : Nat) : (s.setFld f v).can = s.can := rfl
@[simp] theorem State.setFld_sward (s : State) (f : RF) (v : Nat) : (s.setFld f v).sward = s.sward := rfl
@[simp] theorem State.setFld_sheaf (s : State) (f : RF) (v : Nat) : (s.setFld f v).sheaf = s.sheaf := rfl
@[simp] theorem State.setFld_nvm (s : State) (f : RF) (v : Nat) : (s.setFld f v).nvm = s.nvm := rfl
@[simp] theorem State.setFld_keep (s : State) (f : RF) (v : Nat) : (s.setFld f v).keep = s.keep := rfl
@[simp] theorem State.setFld_boot (s : State) (f : RF) (v : Nat) : (s.setFld f v).boot = s.boot := rfl
@[simp] theorem State.setFld_free (s : State) (f : RF) (v : Nat) : (s.setFld f v).free = s.free := rfl
@[simp] theorem State.setFld_pending (s : State) (f : RF) (v : Nat) : (s.setFld f v).pending = s.pending := rfl
@[simp] theorem State.setFld_frc (s : State) (f : RF) (v : Nat) (a : Nat) : (s.setFld f v).frc a = s.frc a := rfl
@[simp] theorem State.setFld_ffld (s : State) (f0 : RF) (v : Nat) (f : RF) : (s.setFld f0 v).ffld f = s.ffld f := rfl
@[simp] theorem State.setFld_ctx (s : State) (f : RF) (v : Nat) (m : Nat) : (s.setFld f v).ctx m = s.ctx m := rfl
@[simp] theorem State.setFld_grp (s : State) (f : RF) (v : Nat) (m : Nat) : (s.setFld f v).grp m = s.grp m := rfl
@[simp] theorem State.setFld_port (s : State) (f : RF) (v : Nat) (m : Nat) : (s.setFld f v).port m = s.port m := rfl

@[simp] theorem State.setFlag_force (s : State) (f : RF) (b : Bool) : (s.setFlag f b).force = s.force := rfl
@[simp] theorem State.setFlag_dt (s : State) (f : RF) (b : Bool) : (s.setFlag f b).dt = s.dt := rfl
@[simp] theorem State.setFlag_evt (s : State) (f : RF) (b : Bool) : (s.setFlag f b).evt = s.evt := rfl
@[simp] theorem State.setFlag_cmd (s : State) (f : RF) (b : Bool) : (s.setFlag f b).cmd = s.cmd := rfl
@[simp] theorem State.setFlag_phase (s : State) (f : RF) (b : Bool) : (s.setFlag f b).phase = s.phase := rfl
@[simp] theorem State.setFlag_reed (s : State) (f : RF) (b : Bool) : (s.setFlag f b).reed = s.reed := rfl
@[simp] theorem State.setFlag_clk (s : State) (f : RF) (b : Bool) : (s.setFlag f b).clk = s.clk := rfl
@[simp] theorem State.setFlag_loop (s : State) (f : RF) (b : Bool) : (s.setFlag f b).loop = s.loop := rfl
@[simp] theorem State.setFlag_sense (s : State) (f : RF) (b : Bool) : (s.setFlag f b).sense = s.sense := rfl
@[simp] theorem State.setFlag_nib (s : State) (f : RF) (b : Bool) : (s.setFlag f b).nib = s.nib := rfl
@[simp] theorem State.setFlag_ink (s : State) (f : RF) (b : Bool) : (s.setFlag f b).ink = s.ink := rfl
@[simp] theorem State.setFlag_fdbk (s : State) (f : RF) (b : Bool) : (s.setFlag f b).fdbk = s.fdbk := rfl
@[simp] theorem State.setFlag_field (s : State) (f : RF) (b : Bool) : (s.setFlag f b).field = s.field := rfl
@[simp] theorem State.setFlag_safe (s : State) (f : RF) (b : Bool) : (s.setFlag f b).safe = s.safe := rfl
@[simp] theorem State.setFlag_store (s : State) (f : RF) (b : Bool) : (s.setFlag f b).store = s.store := rfl
@[simp] theorem State.setFlag_net (s : State) (f : RF) (b : Bool) : (s.setFlag f b).net = s.net := rfl
@[simp] theorem State.setFlag_can (s : State) (f : RF) (b : Bool) : (s.setFlag f b).can = s.can := rfl
@[simp] theorem State.setFlag_sward (s : State) (f : RF) (b : Bool) : (s.setFlag f b).sward = s.sward := rfl
@[simp] theorem State.setFlag_sheaf (s : State) (f : RF) (b : Bool) : (s.setFlag f b).sheaf = s.sheaf := rfl
@[simp] theorem State.setFlag_nvm (s : State) (f : RF) (b : Bool) : (s.setFlag f b).nvm = s.nvm := rfl
@[simp] theorem State.setFlag_keep (s : State) (f : RF) (b : Bool) : (s.setFlag f b).keep = s.keep := rfl
@[simp] theorem State.setFlag_boot (s : State) (f : RF) (b : Bool) : (s.setFlag f b).boot = s.boot := rfl
@[simp] theorem State.setFlag_free (s : State) (f : RF) (b : Bool) : (s.setFlag f b).free = s.free := rfl
@[simp] theorem State.setFlag_pending (s : State) (f : RF) (b : Bool) : (s.setFlag f b).pending = s.pending := rfl
@[simp] theorem State.setFlag_frc (s : State) (f : RF) (b : Bool) (a : Nat) : (s.setFlag f b).frc a = s.frc a := rfl
@[simp] theorem State.setFlag_ffld (s : State) (f0 : RF) (b : Bool) (f : RF) : (s.setFlag f0 b).ffld f = s.ffld f := rfl
@[simp] theorem State.setFlag_ctx (s : State) (f : RF) (b : Bool) (m : Nat) : (s.setFlag f b).ctx m = s.ctx m := rfl
@[simp] theorem State.setFlag_grp (s : State) (f : RF) (b : Bool) (m : Nat) : (s.setFlag f b).grp m = s.grp m := rfl
@[simp] theorem State.setFlag_port (s : State) (f : RF) (b : Bool) (m : Nat) : (s.setFlag f b).port m = s.port m := rfl

@[simp] theorem State.cntSat_force (s : State) (f : RF) : (s.cntSat f).force = s.force := rfl
@[simp] theorem State.cntSat_dt (s : State) (f : RF) : (s.cntSat f).dt = s.dt := rfl
@[simp] theorem State.cntSat_evt (s : State) (f : RF) : (s.cntSat f).evt = s.evt := rfl
@[simp] theorem State.cntSat_cmd (s : State) (f : RF) : (s.cntSat f).cmd = s.cmd := rfl
@[simp] theorem State.cntSat_phase (s : State) (f : RF) : (s.cntSat f).phase = s.phase := rfl
@[simp] theorem State.cntSat_reed (s : State) (f : RF) : (s.cntSat f).reed = s.reed := rfl
@[simp] theorem State.cntSat_clk (s : State) (f : RF) : (s.cntSat f).clk = s.clk := rfl
@[simp] theorem State.cntSat_loop (s : State) (f : RF) : (s.cntSat f).loop = s.loop := rfl
@[simp] theorem State.cntSat_sense (s : State) (f : RF) : (s.cntSat f).sense = s.sense := rfl
@[simp] theorem State.cntSat_nib (s : State) (f : RF) : (s.cntSat f).nib = s.nib := rfl
@[simp] theorem State.cntSat_ink (s : State) (f : RF) : (s.cntSat f).ink = s.ink := rfl
@[simp] theorem State.cntSat_fdbk (s : State) (f : RF) : (s.cntSat f).fdbk = s.fdbk := rfl
@[simp] theorem State.cntSat_field (s : State) (f : RF) : (s.cntSat f).field = s.field := rfl
@[simp] theorem State.cntSat_safe (s : State) (f : RF) : (s.cntSat f).safe = s.safe := rfl
@[simp] theorem State.cntSat_store (s : State) (f : RF) : (s.cntSat f).store = s.store := rfl
@[simp] theorem State.cntSat_net (s : State) (f : RF) : (s.cntSat f).net = s.net := rfl
@[simp] theorem State.cntSat_can (s : State) (f : RF) : (s.cntSat f).can = s.can := rfl
@[simp] theorem State.cntSat_sward (s : State) (f : RF) : (s.cntSat f).sward = s.sward := rfl
@[simp] theorem State.cntSat_sheaf (s : State) (f : RF) : (s.cntSat f).sheaf = s.sheaf := rfl
@[simp] theorem State.cntSat_nvm (s : State) (f : RF) : (s.cntSat f).nvm = s.nvm := rfl
@[simp] theorem State.cntSat_keep (s : State) (f : RF) : (s.cntSat f).keep = s.keep := rfl
@[simp] theorem State.cntSat_boot (s : State) (f : RF) : (s.cntSat f).boot = s.boot := rfl
@[simp] theorem State.cntSat_free (s : State) (f : RF) : (s.cntSat f).free = s.free := rfl
@[simp] theorem State.cntSat_pending (s : State) (f : RF) : (s.cntSat f).pending = s.pending := rfl
@[simp] theorem State.cntSat_frc (s : State) (f : RF) (a : Nat) : (s.cntSat f).frc a = s.frc a := rfl
@[simp] theorem State.cntSat_ffld (s : State) (f0 : RF) (f : RF) : (s.cntSat f0).ffld f = s.ffld f := rfl
@[simp] theorem State.cntSat_ctx (s : State) (f : RF) (m : Nat) : (s.cntSat f).ctx m = s.ctx m := rfl
@[simp] theorem State.cntSat_grp (s : State) (f : RF) (m : Nat) : (s.cntSat f).grp m = s.grp m := rfl
@[simp] theorem State.cntSat_port (s : State) (f : RF) (m : Nat) : (s.cntSat f).port m = s.port m := rfl

@[simp] theorem State.cntWrap_force (s : State) (f : RF) : (s.cntWrap f).force = s.force := rfl
@[simp] theorem State.cntWrap_dt (s : State) (f : RF) : (s.cntWrap f).dt = s.dt := rfl
@[simp] theorem State.cntWrap_evt (s : State) (f : RF) : (s.cntWrap f).evt = s.evt := rfl
@[simp] theorem State.cntWrap_cmd (s : State) (f : RF) : (s.cntWrap f).cmd = s.cmd := rfl
@[simp] theorem State.cntWrap_phase (s : State) (f : RF) : (s.cntWrap f).phase = s.phase := rfl
@[simp] theorem State.cntWrap_reed (s : State) (f : RF) : (s.cntWrap f).reed = s.reed := rfl
@[simp] theorem State.cntWrap_clk (s : State) (f : RF) : (s.cntWrap f).clk = s.clk := rfl
@[simp] theorem State.cntWrap_loop (s : State) (f : RF) : (s.cntWrap f).loop = s.loop := rfl
@[simp] theorem State.cntWrap_sense (s : State) (f : RF) : (s.cntWrap f).sense = s.sense := rfl
@[simp] theorem State.cntWrap_nib (s : State) (f : RF) : (s.cntWrap f).nib = s.nib := rfl
@[simp] theorem State.cntWrap_ink (s : State) (f : RF) : (s.cntWrap f).ink = s.ink := rfl
@[simp] theorem State.cntWrap_fdbk (s : State) (f : RF) : (s.cntWrap f).fdbk = s.fdbk := rfl
@[simp] theorem State.cntWrap_field (s : State) (f : RF) : (s.cntWrap f).field = s.field := rfl
@[simp] theorem State.cntWrap_safe (s : State) (f : RF) : (s.cntWrap f).safe = s.safe := rfl
@[simp] theorem State.cntWrap_store (s : State) (f : RF) : (s.cntWrap f).store = s.store := rfl
@[simp] theorem State.cntWrap_net (s : State) (f : RF) : (s.cntWrap f).net = s.net := rfl
@[simp] theorem State.cntWrap_can (s : State) (f : RF) : (s.cntWrap f).can = s.can := rfl
@[simp] theorem State.cntWrap_sward (s : State) (f : RF) : (s.cntWrap f).sward = s.sward := rfl
@[simp] theorem State.cntWrap_sheaf (s : State) (f : RF) : (s.cntWrap f).sheaf = s.sheaf := rfl
@[simp] theorem State.cntWrap_nvm (s : State) (f : RF) : (s.cntWrap f).nvm = s.nvm := rfl
@[simp] theorem State.cntWrap_keep (s : State) (f : RF) : (s.cntWrap f).keep = s.keep := rfl
@[simp] theorem State.cntWrap_boot (s : State) (f : RF) : (s.cntWrap f).boot = s.boot := rfl
@[simp] theorem State.cntWrap_free (s : State) (f : RF) : (s.cntWrap f).free = s.free := rfl
@[simp] theorem State.cntWrap_pending (s : State) (f : RF) : (s.cntWrap f).pending = s.pending := rfl
@[simp] theorem State.cntWrap_frc (s : State) (f : RF) (a : Nat) : (s.cntWrap f).frc a = s.frc a := rfl
@[simp] theorem State.cntWrap_ffld (s : State) (f0 : RF) (f : RF) : (s.cntWrap f0).ffld f = s.ffld f := rfl
@[simp] theorem State.cntWrap_ctx (s : State) (f : RF) (m : Nat) : (s.cntWrap f).ctx m = s.ctx m := rfl
@[simp] theorem State.cntWrap_grp (s : State) (f : RF) (m : Nat) : (s.cntWrap f).grp m = s.grp m := rfl
@[simp] theorem State.cntWrap_port (s : State) (f : RF) (m : Nat) : (s.cntWrap f).port m = s.port m := rfl

@[simp] theorem State.setReg64_force (s : State) (a : Nat) (x : Tick) : (s.setReg64 a x).force = s.force := rfl
@[simp] theorem State.setReg64_dt (s : State) (a : Nat) (x : Tick) : (s.setReg64 a x).dt = s.dt := rfl
@[simp] theorem State.setReg64_evt (s : State) (a : Nat) (x : Tick) : (s.setReg64 a x).evt = s.evt := rfl
@[simp] theorem State.setReg64_cmd (s : State) (a : Nat) (x : Tick) : (s.setReg64 a x).cmd = s.cmd := rfl
@[simp] theorem State.setReg64_phase (s : State) (a : Nat) (x : Tick) : (s.setReg64 a x).phase = s.phase := rfl
@[simp] theorem State.setReg64_reed (s : State) (a : Nat) (x : Tick) : (s.setReg64 a x).reed = s.reed := rfl
@[simp] theorem State.setReg64_clk (s : State) (a : Nat) (x : Tick) : (s.setReg64 a x).clk = s.clk := rfl
@[simp] theorem State.setReg64_loop (s : State) (a : Nat) (x : Tick) : (s.setReg64 a x).loop = s.loop := rfl
@[simp] theorem State.setReg64_sense (s : State) (a : Nat) (x : Tick) : (s.setReg64 a x).sense = s.sense := rfl
@[simp] theorem State.setReg64_nib (s : State) (a : Nat) (x : Tick) : (s.setReg64 a x).nib = s.nib := rfl
@[simp] theorem State.setReg64_ink (s : State) (a : Nat) (x : Tick) : (s.setReg64 a x).ink = s.ink := rfl
@[simp] theorem State.setReg64_fdbk (s : State) (a : Nat) (x : Tick) : (s.setReg64 a x).fdbk = s.fdbk := rfl
@[simp] theorem State.setReg64_field (s : State) (a : Nat) (x : Tick) : (s.setReg64 a x).field = s.field := rfl
@[simp] theorem State.setReg64_safe (s : State) (a : Nat) (x : Tick) : (s.setReg64 a x).safe = s.safe := rfl
@[simp] theorem State.setReg64_store (s : State) (a : Nat) (x : Tick) : (s.setReg64 a x).store = s.store := rfl
@[simp] theorem State.setReg64_net (s : State) (a : Nat) (x : Tick) : (s.setReg64 a x).net = s.net := rfl
@[simp] theorem State.setReg64_can (s : State) (a : Nat) (x : Tick) : (s.setReg64 a x).can = s.can := rfl
@[simp] theorem State.setReg64_sward (s : State) (a : Nat) (x : Tick) : (s.setReg64 a x).sward = s.sward := rfl
@[simp] theorem State.setReg64_sheaf (s : State) (a : Nat) (x : Tick) : (s.setReg64 a x).sheaf = s.sheaf := rfl
@[simp] theorem State.setReg64_nvm (s : State) (a : Nat) (x : Tick) : (s.setReg64 a x).nvm = s.nvm := rfl
@[simp] theorem State.setReg64_keep (s : State) (a : Nat) (x : Tick) : (s.setReg64 a x).keep = s.keep := rfl
@[simp] theorem State.setReg64_boot (s : State) (a : Nat) (x : Tick) : (s.setReg64 a x).boot = s.boot := rfl
@[simp] theorem State.setReg64_free (s : State) (a : Nat) (x : Tick) : (s.setReg64 a x).free = s.free := rfl
@[simp] theorem State.setReg64_pending (s : State) (a : Nat) (x : Tick) : (s.setReg64 a x).pending = s.pending := rfl
@[simp] theorem State.setReg64_frc (s : State) (a0 : Nat) (x : Tick) (a : Nat) : (s.setReg64 a0 x).frc a = s.frc a := rfl
@[simp] theorem State.setReg64_ffld (s : State) (a : Nat) (x : Tick) (f : RF) : (s.setReg64 a x).ffld f = s.ffld f := rfl
@[simp] theorem State.setReg64_ctx (s : State) (a : Nat) (x : Tick) (m : Nat) : (s.setReg64 a x).ctx m = s.ctx m := rfl
@[simp] theorem State.setReg64_grp (s : State) (a : Nat) (x : Tick) (m : Nat) : (s.setReg64 a x).grp m = s.grp m := rfl
@[simp] theorem State.setReg64_port (s : State) (a : Nat) (x : Tick) (m : Nat) : (s.setReg64 a x).port m = s.port m := rfl

@[simp] theorem State.setCw_force (s : State) (n w : Nat) (x : Word) : (s.setCw n w x).force = s.force := rfl
@[simp] theorem State.setCw_dt (s : State) (n w : Nat) (x : Word) : (s.setCw n w x).dt = s.dt := rfl
@[simp] theorem State.setCw_evt (s : State) (n w : Nat) (x : Word) : (s.setCw n w x).evt = s.evt := rfl
@[simp] theorem State.setCw_cmd (s : State) (n w : Nat) (x : Word) : (s.setCw n w x).cmd = s.cmd := rfl
@[simp] theorem State.setCw_phase (s : State) (n w : Nat) (x : Word) : (s.setCw n w x).phase = s.phase := rfl
@[simp] theorem State.setCw_reed (s : State) (n w : Nat) (x : Word) : (s.setCw n w x).reed = s.reed := rfl
@[simp] theorem State.setCw_clk (s : State) (n w : Nat) (x : Word) : (s.setCw n w x).clk = s.clk := rfl
@[simp] theorem State.setCw_loop (s : State) (n w : Nat) (x : Word) : (s.setCw n w x).loop = s.loop := rfl
@[simp] theorem State.setCw_sense (s : State) (n w : Nat) (x : Word) : (s.setCw n w x).sense = s.sense := rfl
@[simp] theorem State.setCw_nib (s : State) (n w : Nat) (x : Word) : (s.setCw n w x).nib = s.nib := rfl
@[simp] theorem State.setCw_ink (s : State) (n w : Nat) (x : Word) : (s.setCw n w x).ink = s.ink := rfl
@[simp] theorem State.setCw_fdbk (s : State) (n w : Nat) (x : Word) : (s.setCw n w x).fdbk = s.fdbk := rfl
@[simp] theorem State.setCw_field (s : State) (n w : Nat) (x : Word) : (s.setCw n w x).field = s.field := rfl
@[simp] theorem State.setCw_safe (s : State) (n w : Nat) (x : Word) : (s.setCw n w x).safe = s.safe := rfl
@[simp] theorem State.setCw_store (s : State) (n w : Nat) (x : Word) : (s.setCw n w x).store = s.store := rfl
@[simp] theorem State.setCw_net (s : State) (n w : Nat) (x : Word) : (s.setCw n w x).net = s.net := rfl
@[simp] theorem State.setCw_can (s : State) (n w : Nat) (x : Word) : (s.setCw n w x).can = s.can := rfl
@[simp] theorem State.setCw_sward (s : State) (n w : Nat) (x : Word) : (s.setCw n w x).sward = s.sward := rfl
@[simp] theorem State.setCw_sheaf (s : State) (n w : Nat) (x : Word) : (s.setCw n w x).sheaf = s.sheaf := rfl
@[simp] theorem State.setCw_nvm (s : State) (n w : Nat) (x : Word) : (s.setCw n w x).nvm = s.nvm := rfl
@[simp] theorem State.setCw_keep (s : State) (n w : Nat) (x : Word) : (s.setCw n w x).keep = s.keep := rfl
@[simp] theorem State.setCw_boot (s : State) (n w : Nat) (x : Word) : (s.setCw n w x).boot = s.boot := rfl
@[simp] theorem State.setCw_free (s : State) (n w : Nat) (x : Word) : (s.setCw n w x).free = s.free := rfl
@[simp] theorem State.setCw_pending (s : State) (n w : Nat) (x : Word) : (s.setCw n w x).pending = s.pending := rfl
@[simp] theorem State.setCw_frc (s : State) (n w : Nat) (x : Word) (a : Nat) : (s.setCw n w x).frc a = s.frc a := rfl
@[simp] theorem State.setCw_ffld (s : State) (n w : Nat) (x : Word) (f : RF) : (s.setCw n w x).ffld f = s.ffld f := rfl
@[simp] theorem State.setCw_ctx (s : State) (n w : Nat) (x : Word) (m : Nat) : (s.setCw n w x).ctx m = s.ctx m := rfl
@[simp] theorem State.setCw_grp (s : State) (n w : Nat) (x : Word) (m : Nat) : (s.setCw n w x).grp m = s.grp m := rfl
@[simp] theorem State.setCw_port (s : State) (n w : Nat) (x : Word) (m : Nat) : (s.setCw n w x).port m = s.port m := rfl

@[simp] theorem State.setFrc_regs (s : State) (a : Nat) (x : Word) : (s.setFrc a x).regs = s.regs := rfl
@[simp] theorem State.setFrc_dt (s : State) (a : Nat) (x : Word) : (s.setFrc a x).dt = s.dt := rfl
@[simp] theorem State.setFrc_evt (s : State) (a : Nat) (x : Word) : (s.setFrc a x).evt = s.evt := rfl
@[simp] theorem State.setFrc_cmd (s : State) (a : Nat) (x : Word) : (s.setFrc a x).cmd = s.cmd := rfl
@[simp] theorem State.setFrc_phase (s : State) (a : Nat) (x : Word) : (s.setFrc a x).phase = s.phase := rfl
@[simp] theorem State.setFrc_reed (s : State) (a : Nat) (x : Word) : (s.setFrc a x).reed = s.reed := rfl
@[simp] theorem State.setFrc_clk (s : State) (a : Nat) (x : Word) : (s.setFrc a x).clk = s.clk := rfl
@[simp] theorem State.setFrc_loop (s : State) (a : Nat) (x : Word) : (s.setFrc a x).loop = s.loop := rfl
@[simp] theorem State.setFrc_sense (s : State) (a : Nat) (x : Word) : (s.setFrc a x).sense = s.sense := rfl
@[simp] theorem State.setFrc_nib (s : State) (a : Nat) (x : Word) : (s.setFrc a x).nib = s.nib := rfl
@[simp] theorem State.setFrc_ink (s : State) (a : Nat) (x : Word) : (s.setFrc a x).ink = s.ink := rfl
@[simp] theorem State.setFrc_fdbk (s : State) (a : Nat) (x : Word) : (s.setFrc a x).fdbk = s.fdbk := rfl
@[simp] theorem State.setFrc_field (s : State) (a : Nat) (x : Word) : (s.setFrc a x).field = s.field := rfl
@[simp] theorem State.setFrc_safe (s : State) (a : Nat) (x : Word) : (s.setFrc a x).safe = s.safe := rfl
@[simp] theorem State.setFrc_store (s : State) (a : Nat) (x : Word) : (s.setFrc a x).store = s.store := rfl
@[simp] theorem State.setFrc_net (s : State) (a : Nat) (x : Word) : (s.setFrc a x).net = s.net := rfl
@[simp] theorem State.setFrc_can (s : State) (a : Nat) (x : Word) : (s.setFrc a x).can = s.can := rfl
@[simp] theorem State.setFrc_sward (s : State) (a : Nat) (x : Word) : (s.setFrc a x).sward = s.sward := rfl
@[simp] theorem State.setFrc_sheaf (s : State) (a : Nat) (x : Word) : (s.setFrc a x).sheaf = s.sheaf := rfl
@[simp] theorem State.setFrc_nvm (s : State) (a : Nat) (x : Word) : (s.setFrc a x).nvm = s.nvm := rfl
@[simp] theorem State.setFrc_keep (s : State) (a : Nat) (x : Word) : (s.setFrc a x).keep = s.keep := rfl
@[simp] theorem State.setFrc_boot (s : State) (a : Nat) (x : Word) : (s.setFrc a x).boot = s.boot := rfl
@[simp] theorem State.setFrc_free (s : State) (a : Nat) (x : Word) : (s.setFrc a x).free = s.free := rfl
@[simp] theorem State.setFrc_pending (s : State) (a : Nat) (x : Word) : (s.setFrc a x).pending = s.pending := rfl
@[simp] theorem State.setFrc_reg (s : State) (a0 : Nat) (x : Word) (a : Nat) : (s.setFrc a0 x).reg a = s.reg a := rfl
@[simp] theorem State.setFrc_fld (s : State) (a : Nat) (x : Word) (f : RF) : (s.setFrc a x).fld f = s.fld f := rfl
@[simp] theorem State.setFrc_flag (s : State) (a : Nat) (x : Word) (f : RF) : (s.setFrc a x).flag f = s.flag f := rfl
@[simp] theorem State.setFrc_ctx (s : State) (a : Nat) (x : Word) (m : Nat) : (s.setFrc a x).ctx m = s.ctx m := rfl
@[simp] theorem State.setFrc_grp (s : State) (a : Nat) (x : Word) (m : Nat) : (s.setFrc a x).grp m = s.grp m := rfl
@[simp] theorem State.setFrc_port (s : State) (a : Nat) (x : Word) (m : Nat) : (s.setFrc a x).port m = s.port m := rfl

@[simp] theorem State.raise_regs (s : State) (e i : Nat) (d : Word) : (s.raise e i d).regs = s.regs := rfl
@[simp] theorem State.raise_force (s : State) (e i : Nat) (d : Word) : (s.raise e i d).force = s.force := rfl
@[simp] theorem State.raise_dt (s : State) (e i : Nat) (d : Word) : (s.raise e i d).dt = s.dt := rfl
@[simp] theorem State.raise_cmd (s : State) (e i : Nat) (d : Word) : (s.raise e i d).cmd = s.cmd := rfl
@[simp] theorem State.raise_phase (s : State) (e i : Nat) (d : Word) : (s.raise e i d).phase = s.phase := rfl
@[simp] theorem State.raise_reed (s : State) (e i : Nat) (d : Word) : (s.raise e i d).reed = s.reed := rfl
@[simp] theorem State.raise_clk (s : State) (e i : Nat) (d : Word) : (s.raise e i d).clk = s.clk := rfl
@[simp] theorem State.raise_loop (s : State) (e i : Nat) (d : Word) : (s.raise e i d).loop = s.loop := rfl
@[simp] theorem State.raise_sense (s : State) (e i : Nat) (d : Word) : (s.raise e i d).sense = s.sense := rfl
@[simp] theorem State.raise_nib (s : State) (e i : Nat) (d : Word) : (s.raise e i d).nib = s.nib := rfl
@[simp] theorem State.raise_ink (s : State) (e i : Nat) (d : Word) : (s.raise e i d).ink = s.ink := rfl
@[simp] theorem State.raise_fdbk (s : State) (e i : Nat) (d : Word) : (s.raise e i d).fdbk = s.fdbk := rfl
@[simp] theorem State.raise_field (s : State) (e i : Nat) (d : Word) : (s.raise e i d).field = s.field := rfl
@[simp] theorem State.raise_safe (s : State) (e i : Nat) (d : Word) : (s.raise e i d).safe = s.safe := rfl
@[simp] theorem State.raise_store (s : State) (e i : Nat) (d : Word) : (s.raise e i d).store = s.store := rfl
@[simp] theorem State.raise_net (s : State) (e i : Nat) (d : Word) : (s.raise e i d).net = s.net := rfl
@[simp] theorem State.raise_can (s : State) (e i : Nat) (d : Word) : (s.raise e i d).can = s.can := rfl
@[simp] theorem State.raise_sward (s : State) (e i : Nat) (d : Word) : (s.raise e i d).sward = s.sward := rfl
@[simp] theorem State.raise_sheaf (s : State) (e i : Nat) (d : Word) : (s.raise e i d).sheaf = s.sheaf := rfl
@[simp] theorem State.raise_nvm (s : State) (e i : Nat) (d : Word) : (s.raise e i d).nvm = s.nvm := rfl
@[simp] theorem State.raise_keep (s : State) (e i : Nat) (d : Word) : (s.raise e i d).keep = s.keep := rfl
@[simp] theorem State.raise_boot (s : State) (e i : Nat) (d : Word) : (s.raise e i d).boot = s.boot := rfl
@[simp] theorem State.raise_free (s : State) (e i : Nat) (d : Word) : (s.raise e i d).free = s.free := rfl
@[simp] theorem State.raise_pending (s : State) (e i : Nat) (d : Word) : (s.raise e i d).pending = s.pending := rfl
@[simp] theorem State.raise_reg (s : State) (e i : Nat) (d : Word) (a : Nat) : (s.raise e i d).reg a = s.reg a := rfl
@[simp] theorem State.raise_fld (s : State) (e i : Nat) (d : Word) (f : RF) : (s.raise e i d).fld f = s.fld f := rfl
@[simp] theorem State.raise_flag (s : State) (e i : Nat) (d : Word) (f : RF) : (s.raise e i d).flag f = s.flag f := rfl
@[simp] theorem State.raise_frc (s : State) (e i : Nat) (d : Word) (a : Nat) : (s.raise e i d).frc a = s.frc a := rfl
@[simp] theorem State.raise_ffld (s : State) (e i : Nat) (d : Word) (f : RF) : (s.raise e i d).ffld f = s.ffld f := rfl
@[simp] theorem State.raise_ctx (s : State) (e i : Nat) (d : Word) (m : Nat) : (s.raise e i d).ctx m = s.ctx m := rfl
@[simp] theorem State.raise_grp (s : State) (e i : Nat) (d : Word) (m : Nat) : (s.raise e i d).grp m = s.grp m := rfl
@[simp] theorem State.raise_port (s : State) (e i : Nat) (d : Word) (m : Nat) : (s.raise e i d).port m = s.port m := rfl

@[simp] theorem State.raiseAll_regs (s : State) (l : List Occ) : (s.raiseAll l).regs = s.regs := rfl
@[simp] theorem State.raiseAll_force (s : State) (l : List Occ) : (s.raiseAll l).force = s.force := rfl
@[simp] theorem State.raiseAll_dt (s : State) (l : List Occ) : (s.raiseAll l).dt = s.dt := rfl
@[simp] theorem State.raiseAll_cmd (s : State) (l : List Occ) : (s.raiseAll l).cmd = s.cmd := rfl
@[simp] theorem State.raiseAll_phase (s : State) (l : List Occ) : (s.raiseAll l).phase = s.phase := rfl
@[simp] theorem State.raiseAll_reed (s : State) (l : List Occ) : (s.raiseAll l).reed = s.reed := rfl
@[simp] theorem State.raiseAll_clk (s : State) (l : List Occ) : (s.raiseAll l).clk = s.clk := rfl
@[simp] theorem State.raiseAll_loop (s : State) (l : List Occ) : (s.raiseAll l).loop = s.loop := rfl
@[simp] theorem State.raiseAll_sense (s : State) (l : List Occ) : (s.raiseAll l).sense = s.sense := rfl
@[simp] theorem State.raiseAll_nib (s : State) (l : List Occ) : (s.raiseAll l).nib = s.nib := rfl
@[simp] theorem State.raiseAll_ink (s : State) (l : List Occ) : (s.raiseAll l).ink = s.ink := rfl
@[simp] theorem State.raiseAll_fdbk (s : State) (l : List Occ) : (s.raiseAll l).fdbk = s.fdbk := rfl
@[simp] theorem State.raiseAll_field (s : State) (l : List Occ) : (s.raiseAll l).field = s.field := rfl
@[simp] theorem State.raiseAll_safe (s : State) (l : List Occ) : (s.raiseAll l).safe = s.safe := rfl
@[simp] theorem State.raiseAll_store (s : State) (l : List Occ) : (s.raiseAll l).store = s.store := rfl
@[simp] theorem State.raiseAll_net (s : State) (l : List Occ) : (s.raiseAll l).net = s.net := rfl
@[simp] theorem State.raiseAll_can (s : State) (l : List Occ) : (s.raiseAll l).can = s.can := rfl
@[simp] theorem State.raiseAll_sward (s : State) (l : List Occ) : (s.raiseAll l).sward = s.sward := rfl
@[simp] theorem State.raiseAll_sheaf (s : State) (l : List Occ) : (s.raiseAll l).sheaf = s.sheaf := rfl
@[simp] theorem State.raiseAll_nvm (s : State) (l : List Occ) : (s.raiseAll l).nvm = s.nvm := rfl
@[simp] theorem State.raiseAll_keep (s : State) (l : List Occ) : (s.raiseAll l).keep = s.keep := rfl
@[simp] theorem State.raiseAll_boot (s : State) (l : List Occ) : (s.raiseAll l).boot = s.boot := rfl
@[simp] theorem State.raiseAll_free (s : State) (l : List Occ) : (s.raiseAll l).free = s.free := rfl
@[simp] theorem State.raiseAll_pending (s : State) (l : List Occ) : (s.raiseAll l).pending = s.pending := rfl
@[simp] theorem State.raiseAll_reg (s : State) (l : List Occ) (a : Nat) : (s.raiseAll l).reg a = s.reg a := rfl
@[simp] theorem State.raiseAll_fld (s : State) (l : List Occ) (f : RF) : (s.raiseAll l).fld f = s.fld f := rfl
@[simp] theorem State.raiseAll_flag (s : State) (l : List Occ) (f : RF) : (s.raiseAll l).flag f = s.flag f := rfl
@[simp] theorem State.raiseAll_frc (s : State) (l : List Occ) (a : Nat) : (s.raiseAll l).frc a = s.frc a := rfl
@[simp] theorem State.raiseAll_ffld (s : State) (l : List Occ) (f : RF) : (s.raiseAll l).ffld f = s.ffld f := rfl
@[simp] theorem State.raiseAll_ctx (s : State) (l : List Occ) (m : Nat) : (s.raiseAll l).ctx m = s.ctx m := rfl
@[simp] theorem State.raiseAll_grp (s : State) (l : List Occ) (m : Nat) : (s.raiseAll l).grp m = s.grp m := rfl
@[simp] theorem State.raiseAll_port (s : State) (l : List Occ) (m : Nat) : (s.raiseAll l).port m = s.port m := rfl

@[simp] theorem State.raiseLim_regs (s : State) (e i : Nat) (d : Word) (k : Nat) : (s.raiseLim e i d k).regs = s.regs := by
  unfold State.raiseLim
  split <;> rfl
@[simp] theorem State.raiseLim_force (s : State) (e i : Nat) (d : Word) (k : Nat) : (s.raiseLim e i d k).force = s.force := by
  unfold State.raiseLim
  split <;> rfl
@[simp] theorem State.raiseLim_dt (s : State) (e i : Nat) (d : Word) (k : Nat) : (s.raiseLim e i d k).dt = s.dt := by
  unfold State.raiseLim
  split <;> rfl
@[simp] theorem State.raiseLim_cmd (s : State) (e i : Nat) (d : Word) (k : Nat) : (s.raiseLim e i d k).cmd = s.cmd := by
  unfold State.raiseLim
  split <;> rfl
@[simp] theorem State.raiseLim_phase (s : State) (e i : Nat) (d : Word) (k : Nat) : (s.raiseLim e i d k).phase = s.phase := by
  unfold State.raiseLim
  split <;> rfl
@[simp] theorem State.raiseLim_reed (s : State) (e i : Nat) (d : Word) (k : Nat) : (s.raiseLim e i d k).reed = s.reed := by
  unfold State.raiseLim
  split <;> rfl
@[simp] theorem State.raiseLim_clk (s : State) (e i : Nat) (d : Word) (k : Nat) : (s.raiseLim e i d k).clk = s.clk := by
  unfold State.raiseLim
  split <;> rfl
@[simp] theorem State.raiseLim_loop (s : State) (e i : Nat) (d : Word) (k : Nat) : (s.raiseLim e i d k).loop = s.loop := by
  unfold State.raiseLim
  split <;> rfl
@[simp] theorem State.raiseLim_sense (s : State) (e i : Nat) (d : Word) (k : Nat) : (s.raiseLim e i d k).sense = s.sense := by
  unfold State.raiseLim
  split <;> rfl
@[simp] theorem State.raiseLim_nib (s : State) (e i : Nat) (d : Word) (k : Nat) : (s.raiseLim e i d k).nib = s.nib := by
  unfold State.raiseLim
  split <;> rfl
@[simp] theorem State.raiseLim_ink (s : State) (e i : Nat) (d : Word) (k : Nat) : (s.raiseLim e i d k).ink = s.ink := by
  unfold State.raiseLim
  split <;> rfl
@[simp] theorem State.raiseLim_fdbk (s : State) (e i : Nat) (d : Word) (k : Nat) : (s.raiseLim e i d k).fdbk = s.fdbk := by
  unfold State.raiseLim
  split <;> rfl
@[simp] theorem State.raiseLim_field (s : State) (e i : Nat) (d : Word) (k : Nat) : (s.raiseLim e i d k).field = s.field := by
  unfold State.raiseLim
  split <;> rfl
@[simp] theorem State.raiseLim_safe (s : State) (e i : Nat) (d : Word) (k : Nat) : (s.raiseLim e i d k).safe = s.safe := by
  unfold State.raiseLim
  split <;> rfl
@[simp] theorem State.raiseLim_store (s : State) (e i : Nat) (d : Word) (k : Nat) : (s.raiseLim e i d k).store = s.store := by
  unfold State.raiseLim
  split <;> rfl
@[simp] theorem State.raiseLim_net (s : State) (e i : Nat) (d : Word) (k : Nat) : (s.raiseLim e i d k).net = s.net := by
  unfold State.raiseLim
  split <;> rfl
@[simp] theorem State.raiseLim_can (s : State) (e i : Nat) (d : Word) (k : Nat) : (s.raiseLim e i d k).can = s.can := by
  unfold State.raiseLim
  split <;> rfl
@[simp] theorem State.raiseLim_sward (s : State) (e i : Nat) (d : Word) (k : Nat) : (s.raiseLim e i d k).sward = s.sward := by
  unfold State.raiseLim
  split <;> rfl
@[simp] theorem State.raiseLim_sheaf (s : State) (e i : Nat) (d : Word) (k : Nat) : (s.raiseLim e i d k).sheaf = s.sheaf := by
  unfold State.raiseLim
  split <;> rfl
@[simp] theorem State.raiseLim_nvm (s : State) (e i : Nat) (d : Word) (k : Nat) : (s.raiseLim e i d k).nvm = s.nvm := by
  unfold State.raiseLim
  split <;> rfl
@[simp] theorem State.raiseLim_keep (s : State) (e i : Nat) (d : Word) (k : Nat) : (s.raiseLim e i d k).keep = s.keep := by
  unfold State.raiseLim
  split <;> rfl
@[simp] theorem State.raiseLim_boot (s : State) (e i : Nat) (d : Word) (k : Nat) : (s.raiseLim e i d k).boot = s.boot := by
  unfold State.raiseLim
  split <;> rfl
@[simp] theorem State.raiseLim_free (s : State) (e i : Nat) (d : Word) (k : Nat) : (s.raiseLim e i d k).free = s.free := by
  unfold State.raiseLim
  split <;> rfl
@[simp] theorem State.raiseLim_pending (s : State) (e i : Nat) (d : Word) (k : Nat) : (s.raiseLim e i d k).pending = s.pending := by
  unfold State.raiseLim
  split <;> rfl
@[simp] theorem State.raiseLim_reg (s : State) (e i : Nat) (d : Word) (k : Nat) (a : Nat) : (s.raiseLim e i d k).reg a = s.reg a := by
  unfold State.raiseLim
  split <;> rfl
@[simp] theorem State.raiseLim_fld (s : State) (e i : Nat) (d : Word) (k : Nat) (f : RF) : (s.raiseLim e i d k).fld f = s.fld f := by
  unfold State.raiseLim
  split <;> rfl
@[simp] theorem State.raiseLim_flag (s : State) (e i : Nat) (d : Word) (k : Nat) (f : RF) : (s.raiseLim e i d k).flag f = s.flag f := by
  unfold State.raiseLim
  split <;> rfl
@[simp] theorem State.raiseLim_frc (s : State) (e i : Nat) (d : Word) (k : Nat) (a : Nat) : (s.raiseLim e i d k).frc a = s.frc a := by
  unfold State.raiseLim
  split <;> rfl
@[simp] theorem State.raiseLim_ffld (s : State) (e i : Nat) (d : Word) (k : Nat) (f : RF) : (s.raiseLim e i d k).ffld f = s.ffld f := by
  unfold State.raiseLim
  split <;> rfl
@[simp] theorem State.raiseLim_ctx (s : State) (e i : Nat) (d : Word) (k : Nat) (m : Nat) : (s.raiseLim e i d k).ctx m = s.ctx m := by
  unfold State.raiseLim
  split <;> rfl
@[simp] theorem State.raiseLim_grp (s : State) (e i : Nat) (d : Word) (k : Nat) (m : Nat) : (s.raiseLim e i d k).grp m = s.grp m := by
  unfold State.raiseLim
  split <;> rfl
@[simp] theorem State.raiseLim_port (s : State) (e i : Nat) (d : Word) (k : Nat) (m : Nat) : (s.raiseLim e i d k).port m = s.port m := by
  unfold State.raiseLim
  split <;> rfl

@[simp] theorem State.setPort_regs (s : State) (p : Nat) (x : Port) : (s.setPort p x).regs = s.regs := rfl
@[simp] theorem State.setPort_force (s : State) (p : Nat) (x : Port) : (s.setPort p x).force = s.force := rfl
@[simp] theorem State.setPort_dt (s : State) (p : Nat) (x : Port) : (s.setPort p x).dt = s.dt := rfl
@[simp] theorem State.setPort_evt (s : State) (p : Nat) (x : Port) : (s.setPort p x).evt = s.evt := rfl
@[simp] theorem State.setPort_phase (s : State) (p : Nat) (x : Port) : (s.setPort p x).phase = s.phase := rfl
@[simp] theorem State.setPort_reed (s : State) (p : Nat) (x : Port) : (s.setPort p x).reed = s.reed := rfl
@[simp] theorem State.setPort_clk (s : State) (p : Nat) (x : Port) : (s.setPort p x).clk = s.clk := rfl
@[simp] theorem State.setPort_loop (s : State) (p : Nat) (x : Port) : (s.setPort p x).loop = s.loop := rfl
@[simp] theorem State.setPort_sense (s : State) (p : Nat) (x : Port) : (s.setPort p x).sense = s.sense := rfl
@[simp] theorem State.setPort_nib (s : State) (p : Nat) (x : Port) : (s.setPort p x).nib = s.nib := rfl
@[simp] theorem State.setPort_ink (s : State) (p : Nat) (x : Port) : (s.setPort p x).ink = s.ink := rfl
@[simp] theorem State.setPort_fdbk (s : State) (p : Nat) (x : Port) : (s.setPort p x).fdbk = s.fdbk := rfl
@[simp] theorem State.setPort_field (s : State) (p : Nat) (x : Port) : (s.setPort p x).field = s.field := rfl
@[simp] theorem State.setPort_safe (s : State) (p : Nat) (x : Port) : (s.setPort p x).safe = s.safe := rfl
@[simp] theorem State.setPort_store (s : State) (p : Nat) (x : Port) : (s.setPort p x).store = s.store := rfl
@[simp] theorem State.setPort_net (s : State) (p : Nat) (x : Port) : (s.setPort p x).net = s.net := rfl
@[simp] theorem State.setPort_can (s : State) (p : Nat) (x : Port) : (s.setPort p x).can = s.can := rfl
@[simp] theorem State.setPort_sward (s : State) (p : Nat) (x : Port) : (s.setPort p x).sward = s.sward := rfl
@[simp] theorem State.setPort_sheaf (s : State) (p : Nat) (x : Port) : (s.setPort p x).sheaf = s.sheaf := rfl
@[simp] theorem State.setPort_nvm (s : State) (p : Nat) (x : Port) : (s.setPort p x).nvm = s.nvm := rfl
@[simp] theorem State.setPort_keep (s : State) (p : Nat) (x : Port) : (s.setPort p x).keep = s.keep := rfl
@[simp] theorem State.setPort_boot (s : State) (p : Nat) (x : Port) : (s.setPort p x).boot = s.boot := rfl
@[simp] theorem State.setPort_free (s : State) (p : Nat) (x : Port) : (s.setPort p x).free = s.free := rfl
@[simp] theorem State.setPort_pending (s : State) (p : Nat) (x : Port) : (s.setPort p x).pending = s.pending := rfl
@[simp] theorem State.setPort_reg (s : State) (p : Nat) (x : Port) (a : Nat) : (s.setPort p x).reg a = s.reg a := rfl
@[simp] theorem State.setPort_fld (s : State) (p : Nat) (x : Port) (f : RF) : (s.setPort p x).fld f = s.fld f := rfl
@[simp] theorem State.setPort_flag (s : State) (p : Nat) (x : Port) (f : RF) : (s.setPort p x).flag f = s.flag f := rfl
@[simp] theorem State.setPort_frc (s : State) (p : Nat) (x : Port) (a : Nat) : (s.setPort p x).frc a = s.frc a := rfl
@[simp] theorem State.setPort_ffld (s : State) (p : Nat) (x : Port) (f : RF) : (s.setPort p x).ffld f = s.ffld f := rfl
@[simp] theorem State.setPort_ctx (s : State) (p : Nat) (x : Port) (m : Nat) : (s.setPort p x).ctx m = s.ctx m := rfl
@[simp] theorem State.setPort_grp (s : State) (p : Nat) (x : Port) (m : Nat) : (s.setPort p x).grp m = s.grp m := rfl

@[simp] theorem State.setCtx_regs (s : State) (n : Nat) (c : Ctx) : (s.setCtx n c).regs = s.regs := rfl
@[simp] theorem State.setCtx_force (s : State) (n : Nat) (c : Ctx) : (s.setCtx n c).force = s.force := rfl
@[simp] theorem State.setCtx_dt (s : State) (n : Nat) (c : Ctx) : (s.setCtx n c).dt = s.dt := rfl
@[simp] theorem State.setCtx_evt (s : State) (n : Nat) (c : Ctx) : (s.setCtx n c).evt = s.evt := rfl
@[simp] theorem State.setCtx_cmd (s : State) (n : Nat) (c : Ctx) : (s.setCtx n c).cmd = s.cmd := rfl
@[simp] theorem State.setCtx_phase (s : State) (n : Nat) (c : Ctx) : (s.setCtx n c).phase = s.phase := rfl
@[simp] theorem State.setCtx_reed (s : State) (n : Nat) (c : Ctx) : (s.setCtx n c).reed = s.reed := rfl
@[simp] theorem State.setCtx_clk (s : State) (n : Nat) (c : Ctx) : (s.setCtx n c).clk = s.clk := rfl
@[simp] theorem State.setCtx_sense (s : State) (n : Nat) (c : Ctx) : (s.setCtx n c).sense = s.sense := rfl
@[simp] theorem State.setCtx_nib (s : State) (n : Nat) (c : Ctx) : (s.setCtx n c).nib = s.nib := rfl
@[simp] theorem State.setCtx_ink (s : State) (n : Nat) (c : Ctx) : (s.setCtx n c).ink = s.ink := rfl
@[simp] theorem State.setCtx_fdbk (s : State) (n : Nat) (c : Ctx) : (s.setCtx n c).fdbk = s.fdbk := rfl
@[simp] theorem State.setCtx_field (s : State) (n : Nat) (c : Ctx) : (s.setCtx n c).field = s.field := rfl
@[simp] theorem State.setCtx_safe (s : State) (n : Nat) (c : Ctx) : (s.setCtx n c).safe = s.safe := rfl
@[simp] theorem State.setCtx_store (s : State) (n : Nat) (c : Ctx) : (s.setCtx n c).store = s.store := rfl
@[simp] theorem State.setCtx_net (s : State) (n : Nat) (c : Ctx) : (s.setCtx n c).net = s.net := rfl
@[simp] theorem State.setCtx_can (s : State) (n : Nat) (c : Ctx) : (s.setCtx n c).can = s.can := rfl
@[simp] theorem State.setCtx_sward (s : State) (n : Nat) (c : Ctx) : (s.setCtx n c).sward = s.sward := rfl
@[simp] theorem State.setCtx_sheaf (s : State) (n : Nat) (c : Ctx) : (s.setCtx n c).sheaf = s.sheaf := rfl
@[simp] theorem State.setCtx_nvm (s : State) (n : Nat) (c : Ctx) : (s.setCtx n c).nvm = s.nvm := rfl
@[simp] theorem State.setCtx_keep (s : State) (n : Nat) (c : Ctx) : (s.setCtx n c).keep = s.keep := rfl
@[simp] theorem State.setCtx_boot (s : State) (n : Nat) (c : Ctx) : (s.setCtx n c).boot = s.boot := rfl
@[simp] theorem State.setCtx_free (s : State) (n : Nat) (c : Ctx) : (s.setCtx n c).free = s.free := rfl
@[simp] theorem State.setCtx_pending (s : State) (n : Nat) (c : Ctx) : (s.setCtx n c).pending = s.pending := rfl
@[simp] theorem State.setCtx_reg (s : State) (n : Nat) (c : Ctx) (a : Nat) : (s.setCtx n c).reg a = s.reg a := rfl
@[simp] theorem State.setCtx_fld (s : State) (n : Nat) (c : Ctx) (f : RF) : (s.setCtx n c).fld f = s.fld f := rfl
@[simp] theorem State.setCtx_flag (s : State) (n : Nat) (c : Ctx) (f : RF) : (s.setCtx n c).flag f = s.flag f := rfl
@[simp] theorem State.setCtx_frc (s : State) (n : Nat) (c : Ctx) (a : Nat) : (s.setCtx n c).frc a = s.frc a := rfl
@[simp] theorem State.setCtx_ffld (s : State) (n : Nat) (c : Ctx) (f : RF) : (s.setCtx n c).ffld f = s.ffld f := rfl
@[simp] theorem State.setCtx_port (s : State) (n : Nat) (c : Ctx) (m : Nat) : (s.setCtx n c).port m = s.port m := rfl

@[simp] theorem State.setGrp_regs (s : State) (g : Nat) (x : GrpS) : (s.setGrp g x).regs = s.regs := rfl
@[simp] theorem State.setGrp_force (s : State) (g : Nat) (x : GrpS) : (s.setGrp g x).force = s.force := rfl
@[simp] theorem State.setGrp_dt (s : State) (g : Nat) (x : GrpS) : (s.setGrp g x).dt = s.dt := rfl
@[simp] theorem State.setGrp_evt (s : State) (g : Nat) (x : GrpS) : (s.setGrp g x).evt = s.evt := rfl
@[simp] theorem State.setGrp_cmd (s : State) (g : Nat) (x : GrpS) : (s.setGrp g x).cmd = s.cmd := rfl
@[simp] theorem State.setGrp_phase (s : State) (g : Nat) (x : GrpS) : (s.setGrp g x).phase = s.phase := rfl
@[simp] theorem State.setGrp_reed (s : State) (g : Nat) (x : GrpS) : (s.setGrp g x).reed = s.reed := rfl
@[simp] theorem State.setGrp_clk (s : State) (g : Nat) (x : GrpS) : (s.setGrp g x).clk = s.clk := rfl
@[simp] theorem State.setGrp_sense (s : State) (g : Nat) (x : GrpS) : (s.setGrp g x).sense = s.sense := rfl
@[simp] theorem State.setGrp_nib (s : State) (g : Nat) (x : GrpS) : (s.setGrp g x).nib = s.nib := rfl
@[simp] theorem State.setGrp_ink (s : State) (g : Nat) (x : GrpS) : (s.setGrp g x).ink = s.ink := rfl
@[simp] theorem State.setGrp_fdbk (s : State) (g : Nat) (x : GrpS) : (s.setGrp g x).fdbk = s.fdbk := rfl
@[simp] theorem State.setGrp_field (s : State) (g : Nat) (x : GrpS) : (s.setGrp g x).field = s.field := rfl
@[simp] theorem State.setGrp_safe (s : State) (g : Nat) (x : GrpS) : (s.setGrp g x).safe = s.safe := rfl
@[simp] theorem State.setGrp_store (s : State) (g : Nat) (x : GrpS) : (s.setGrp g x).store = s.store := rfl
@[simp] theorem State.setGrp_net (s : State) (g : Nat) (x : GrpS) : (s.setGrp g x).net = s.net := rfl
@[simp] theorem State.setGrp_can (s : State) (g : Nat) (x : GrpS) : (s.setGrp g x).can = s.can := rfl
@[simp] theorem State.setGrp_sward (s : State) (g : Nat) (x : GrpS) : (s.setGrp g x).sward = s.sward := rfl
@[simp] theorem State.setGrp_sheaf (s : State) (g : Nat) (x : GrpS) : (s.setGrp g x).sheaf = s.sheaf := rfl
@[simp] theorem State.setGrp_nvm (s : State) (g : Nat) (x : GrpS) : (s.setGrp g x).nvm = s.nvm := rfl
@[simp] theorem State.setGrp_keep (s : State) (g : Nat) (x : GrpS) : (s.setGrp g x).keep = s.keep := rfl
@[simp] theorem State.setGrp_boot (s : State) (g : Nat) (x : GrpS) : (s.setGrp g x).boot = s.boot := rfl
@[simp] theorem State.setGrp_free (s : State) (g : Nat) (x : GrpS) : (s.setGrp g x).free = s.free := rfl
@[simp] theorem State.setGrp_pending (s : State) (g : Nat) (x : GrpS) : (s.setGrp g x).pending = s.pending := rfl
@[simp] theorem State.setGrp_reg (s : State) (g : Nat) (x : GrpS) (a : Nat) : (s.setGrp g x).reg a = s.reg a := rfl
@[simp] theorem State.setGrp_fld (s : State) (g : Nat) (x : GrpS) (f : RF) : (s.setGrp g x).fld f = s.fld f := rfl
@[simp] theorem State.setGrp_flag (s : State) (g : Nat) (x : GrpS) (f : RF) : (s.setGrp g x).flag f = s.flag f := rfl
@[simp] theorem State.setGrp_frc (s : State) (g : Nat) (x : GrpS) (a : Nat) : (s.setGrp g x).frc a = s.frc a := rfl
@[simp] theorem State.setGrp_ffld (s : State) (g : Nat) (x : GrpS) (f : RF) : (s.setGrp g x).ffld f = s.ffld f := rfl
@[simp] theorem State.setGrp_port (s : State) (g : Nat) (x : GrpS) (m : Nat) : (s.setGrp g x).port m = s.port m := rfl

@[simp] theorem State.setNetPort_regs (s : State) (p : Nat) (x : NetPort) : (s.setNetPort p x).regs = s.regs := rfl
@[simp] theorem State.setNetPort_force (s : State) (p : Nat) (x : NetPort) : (s.setNetPort p x).force = s.force := rfl
@[simp] theorem State.setNetPort_dt (s : State) (p : Nat) (x : NetPort) : (s.setNetPort p x).dt = s.dt := rfl
@[simp] theorem State.setNetPort_evt (s : State) (p : Nat) (x : NetPort) : (s.setNetPort p x).evt = s.evt := rfl
@[simp] theorem State.setNetPort_cmd (s : State) (p : Nat) (x : NetPort) : (s.setNetPort p x).cmd = s.cmd := rfl
@[simp] theorem State.setNetPort_phase (s : State) (p : Nat) (x : NetPort) : (s.setNetPort p x).phase = s.phase := rfl
@[simp] theorem State.setNetPort_reed (s : State) (p : Nat) (x : NetPort) : (s.setNetPort p x).reed = s.reed := rfl
@[simp] theorem State.setNetPort_clk (s : State) (p : Nat) (x : NetPort) : (s.setNetPort p x).clk = s.clk := rfl
@[simp] theorem State.setNetPort_loop (s : State) (p : Nat) (x : NetPort) : (s.setNetPort p x).loop = s.loop := rfl
@[simp] theorem State.setNetPort_sense (s : State) (p : Nat) (x : NetPort) : (s.setNetPort p x).sense = s.sense := rfl
@[simp] theorem State.setNetPort_nib (s : State) (p : Nat) (x : NetPort) : (s.setNetPort p x).nib = s.nib := rfl
@[simp] theorem State.setNetPort_ink (s : State) (p : Nat) (x : NetPort) : (s.setNetPort p x).ink = s.ink := rfl
@[simp] theorem State.setNetPort_fdbk (s : State) (p : Nat) (x : NetPort) : (s.setNetPort p x).fdbk = s.fdbk := rfl
@[simp] theorem State.setNetPort_field (s : State) (p : Nat) (x : NetPort) : (s.setNetPort p x).field = s.field := rfl
@[simp] theorem State.setNetPort_safe (s : State) (p : Nat) (x : NetPort) : (s.setNetPort p x).safe = s.safe := rfl
@[simp] theorem State.setNetPort_store (s : State) (p : Nat) (x : NetPort) : (s.setNetPort p x).store = s.store := rfl
@[simp] theorem State.setNetPort_can (s : State) (p : Nat) (x : NetPort) : (s.setNetPort p x).can = s.can := rfl
@[simp] theorem State.setNetPort_sward (s : State) (p : Nat) (x : NetPort) : (s.setNetPort p x).sward = s.sward := rfl
@[simp] theorem State.setNetPort_sheaf (s : State) (p : Nat) (x : NetPort) : (s.setNetPort p x).sheaf = s.sheaf := rfl
@[simp] theorem State.setNetPort_nvm (s : State) (p : Nat) (x : NetPort) : (s.setNetPort p x).nvm = s.nvm := rfl
@[simp] theorem State.setNetPort_keep (s : State) (p : Nat) (x : NetPort) : (s.setNetPort p x).keep = s.keep := rfl
@[simp] theorem State.setNetPort_boot (s : State) (p : Nat) (x : NetPort) : (s.setNetPort p x).boot = s.boot := rfl
@[simp] theorem State.setNetPort_free (s : State) (p : Nat) (x : NetPort) : (s.setNetPort p x).free = s.free := rfl
@[simp] theorem State.setNetPort_pending (s : State) (p : Nat) (x : NetPort) : (s.setNetPort p x).pending = s.pending := rfl
@[simp] theorem State.setNetPort_reg (s : State) (p : Nat) (x : NetPort) (a : Nat) : (s.setNetPort p x).reg a = s.reg a := rfl
@[simp] theorem State.setNetPort_fld (s : State) (p : Nat) (x : NetPort) (f : RF) : (s.setNetPort p x).fld f = s.fld f := rfl
@[simp] theorem State.setNetPort_flag (s : State) (p : Nat) (x : NetPort) (f : RF) : (s.setNetPort p x).flag f = s.flag f := rfl
@[simp] theorem State.setNetPort_frc (s : State) (p : Nat) (x : NetPort) (a : Nat) : (s.setNetPort p x).frc a = s.frc a := rfl
@[simp] theorem State.setNetPort_ffld (s : State) (p : Nat) (x : NetPort) (f : RF) : (s.setNetPort p x).ffld f = s.ffld f := rfl
@[simp] theorem State.setNetPort_ctx (s : State) (p : Nat) (x : NetPort) (m : Nat) : (s.setNetPort p x).ctx m = s.ctx m := rfl
@[simp] theorem State.setNetPort_grp (s : State) (p : Nat) (x : NetPort) (m : Nat) : (s.setNetPort p x).grp m = s.grp m := rfl
@[simp] theorem State.setNetPort_port (s : State) (p : Nat) (x : NetPort) (m : Nat) : (s.setNetPort p x).port m = s.port m := rfl

@[simp] theorem State.setSwPort_regs (s : State) (p : Nat) (x : SwPort) : (s.setSwPort p x).regs = s.regs := rfl
@[simp] theorem State.setSwPort_force (s : State) (p : Nat) (x : SwPort) : (s.setSwPort p x).force = s.force := rfl
@[simp] theorem State.setSwPort_dt (s : State) (p : Nat) (x : SwPort) : (s.setSwPort p x).dt = s.dt := rfl
@[simp] theorem State.setSwPort_evt (s : State) (p : Nat) (x : SwPort) : (s.setSwPort p x).evt = s.evt := rfl
@[simp] theorem State.setSwPort_cmd (s : State) (p : Nat) (x : SwPort) : (s.setSwPort p x).cmd = s.cmd := rfl
@[simp] theorem State.setSwPort_phase (s : State) (p : Nat) (x : SwPort) : (s.setSwPort p x).phase = s.phase := rfl
@[simp] theorem State.setSwPort_reed (s : State) (p : Nat) (x : SwPort) : (s.setSwPort p x).reed = s.reed := rfl
@[simp] theorem State.setSwPort_clk (s : State) (p : Nat) (x : SwPort) : (s.setSwPort p x).clk = s.clk := rfl
@[simp] theorem State.setSwPort_loop (s : State) (p : Nat) (x : SwPort) : (s.setSwPort p x).loop = s.loop := rfl
@[simp] theorem State.setSwPort_sense (s : State) (p : Nat) (x : SwPort) : (s.setSwPort p x).sense = s.sense := rfl
@[simp] theorem State.setSwPort_nib (s : State) (p : Nat) (x : SwPort) : (s.setSwPort p x).nib = s.nib := rfl
@[simp] theorem State.setSwPort_ink (s : State) (p : Nat) (x : SwPort) : (s.setSwPort p x).ink = s.ink := rfl
@[simp] theorem State.setSwPort_fdbk (s : State) (p : Nat) (x : SwPort) : (s.setSwPort p x).fdbk = s.fdbk := rfl
@[simp] theorem State.setSwPort_field (s : State) (p : Nat) (x : SwPort) : (s.setSwPort p x).field = s.field := rfl
@[simp] theorem State.setSwPort_safe (s : State) (p : Nat) (x : SwPort) : (s.setSwPort p x).safe = s.safe := rfl
@[simp] theorem State.setSwPort_store (s : State) (p : Nat) (x : SwPort) : (s.setSwPort p x).store = s.store := rfl
@[simp] theorem State.setSwPort_net (s : State) (p : Nat) (x : SwPort) : (s.setSwPort p x).net = s.net := rfl
@[simp] theorem State.setSwPort_can (s : State) (p : Nat) (x : SwPort) : (s.setSwPort p x).can = s.can := rfl
@[simp] theorem State.setSwPort_sheaf (s : State) (p : Nat) (x : SwPort) : (s.setSwPort p x).sheaf = s.sheaf := rfl
@[simp] theorem State.setSwPort_nvm (s : State) (p : Nat) (x : SwPort) : (s.setSwPort p x).nvm = s.nvm := rfl
@[simp] theorem State.setSwPort_keep (s : State) (p : Nat) (x : SwPort) : (s.setSwPort p x).keep = s.keep := rfl
@[simp] theorem State.setSwPort_boot (s : State) (p : Nat) (x : SwPort) : (s.setSwPort p x).boot = s.boot := rfl
@[simp] theorem State.setSwPort_free (s : State) (p : Nat) (x : SwPort) : (s.setSwPort p x).free = s.free := rfl
@[simp] theorem State.setSwPort_pending (s : State) (p : Nat) (x : SwPort) : (s.setSwPort p x).pending = s.pending := rfl
@[simp] theorem State.setSwPort_reg (s : State) (p : Nat) (x : SwPort) (a : Nat) : (s.setSwPort p x).reg a = s.reg a := rfl
@[simp] theorem State.setSwPort_fld (s : State) (p : Nat) (x : SwPort) (f : RF) : (s.setSwPort p x).fld f = s.fld f := rfl
@[simp] theorem State.setSwPort_flag (s : State) (p : Nat) (x : SwPort) (f : RF) : (s.setSwPort p x).flag f = s.flag f := rfl
@[simp] theorem State.setSwPort_frc (s : State) (p : Nat) (x : SwPort) (a : Nat) : (s.setSwPort p x).frc a = s.frc a := rfl
@[simp] theorem State.setSwPort_ffld (s : State) (p : Nat) (x : SwPort) (f : RF) : (s.setSwPort p x).ffld f = s.ffld f := rfl
@[simp] theorem State.setSwPort_ctx (s : State) (p : Nat) (x : SwPort) (m : Nat) : (s.setSwPort p x).ctx m = s.ctx m := rfl
@[simp] theorem State.setSwPort_grp (s : State) (p : Nat) (x : SwPort) (m : Nat) : (s.setSwPort p x).grp m = s.grp m := rfl
@[simp] theorem State.setSwPort_port (s : State) (p : Nat) (x : SwPort) (m : Nat) : (s.setSwPort p x).port m = s.port m := rfl

@[simp] theorem State.withRegs_regs (s : State) (x : Tbl Word) : (s.withRegs x).regs = x := rfl
@[simp] theorem State.withRegs_force (s : State) (x : Tbl Word) : (s.withRegs x).force = s.force := rfl
@[simp] theorem State.withRegs_dt (s : State) (x : Tbl Word) : (s.withRegs x).dt = s.dt := rfl
@[simp] theorem State.withRegs_evt (s : State) (x : Tbl Word) : (s.withRegs x).evt = s.evt := rfl
@[simp] theorem State.withRegs_cmd (s : State) (x : Tbl Word) : (s.withRegs x).cmd = s.cmd := rfl
@[simp] theorem State.withRegs_phase (s : State) (x : Tbl Word) : (s.withRegs x).phase = s.phase := rfl
@[simp] theorem State.withRegs_reed (s : State) (x : Tbl Word) : (s.withRegs x).reed = s.reed := rfl
@[simp] theorem State.withRegs_clk (s : State) (x : Tbl Word) : (s.withRegs x).clk = s.clk := rfl
@[simp] theorem State.withRegs_loop (s : State) (x : Tbl Word) : (s.withRegs x).loop = s.loop := rfl
@[simp] theorem State.withRegs_sense (s : State) (x : Tbl Word) : (s.withRegs x).sense = s.sense := rfl
@[simp] theorem State.withRegs_nib (s : State) (x : Tbl Word) : (s.withRegs x).nib = s.nib := rfl
@[simp] theorem State.withRegs_ink (s : State) (x : Tbl Word) : (s.withRegs x).ink = s.ink := rfl
@[simp] theorem State.withRegs_fdbk (s : State) (x : Tbl Word) : (s.withRegs x).fdbk = s.fdbk := rfl
@[simp] theorem State.withRegs_field (s : State) (x : Tbl Word) : (s.withRegs x).field = s.field := rfl
@[simp] theorem State.withRegs_safe (s : State) (x : Tbl Word) : (s.withRegs x).safe = s.safe := rfl
@[simp] theorem State.withRegs_store (s : State) (x : Tbl Word) : (s.withRegs x).store = s.store := rfl
@[simp] theorem State.withRegs_net (s : State) (x : Tbl Word) : (s.withRegs x).net = s.net := rfl
@[simp] theorem State.withRegs_can (s : State) (x : Tbl Word) : (s.withRegs x).can = s.can := rfl
@[simp] theorem State.withRegs_sward (s : State) (x : Tbl Word) : (s.withRegs x).sward = s.sward := rfl
@[simp] theorem State.withRegs_sheaf (s : State) (x : Tbl Word) : (s.withRegs x).sheaf = s.sheaf := rfl
@[simp] theorem State.withRegs_nvm (s : State) (x : Tbl Word) : (s.withRegs x).nvm = s.nvm := rfl
@[simp] theorem State.withRegs_keep (s : State) (x : Tbl Word) : (s.withRegs x).keep = s.keep := rfl
@[simp] theorem State.withRegs_boot (s : State) (x : Tbl Word) : (s.withRegs x).boot = s.boot := rfl
@[simp] theorem State.withRegs_free (s : State) (x : Tbl Word) : (s.withRegs x).free = s.free := rfl
@[simp] theorem State.withRegs_pending (s : State) (x : Tbl Word) : (s.withRegs x).pending = s.pending := rfl
@[simp] theorem State.withRegs_frc (s : State) (x : Tbl Word) (a : Nat) : (s.withRegs x).frc a = s.frc a := rfl
@[simp] theorem State.withRegs_ffld (s : State) (x : Tbl Word) (f : RF) : (s.withRegs x).ffld f = s.ffld f := rfl
@[simp] theorem State.withRegs_ctx (s : State) (x : Tbl Word) (m : Nat) : (s.withRegs x).ctx m = s.ctx m := rfl
@[simp] theorem State.withRegs_grp (s : State) (x : Tbl Word) (m : Nat) : (s.withRegs x).grp m = s.grp m := rfl
@[simp] theorem State.withRegs_port (s : State) (x : Tbl Word) (m : Nat) : (s.withRegs x).port m = s.port m := rfl

@[simp] theorem State.withForce_regs (s : State) (x : Tbl Word) : (s.withForce x).regs = s.regs := rfl
@[simp] theorem State.withForce_force (s : State) (x : Tbl Word) : (s.withForce x).force = x := rfl
@[simp] theorem State.withForce_dt (s : State) (x : Tbl Word) : (s.withForce x).dt = s.dt := rfl
@[simp] theorem State.withForce_evt (s : State) (x : Tbl Word) : (s.withForce x).evt = s.evt := rfl
@[simp] theorem State.withForce_cmd (s : State) (x : Tbl Word) : (s.withForce x).cmd = s.cmd := rfl
@[simp] theorem State.withForce_phase (s : State) (x : Tbl Word) : (s.withForce x).phase = s.phase := rfl
@[simp] theorem State.withForce_reed (s : State) (x : Tbl Word) : (s.withForce x).reed = s.reed := rfl
@[simp] theorem State.withForce_clk (s : State) (x : Tbl Word) : (s.withForce x).clk = s.clk := rfl
@[simp] theorem State.withForce_loop (s : State) (x : Tbl Word) : (s.withForce x).loop = s.loop := rfl
@[simp] theorem State.withForce_sense (s : State) (x : Tbl Word) : (s.withForce x).sense = s.sense := rfl
@[simp] theorem State.withForce_nib (s : State) (x : Tbl Word) : (s.withForce x).nib = s.nib := rfl
@[simp] theorem State.withForce_ink (s : State) (x : Tbl Word) : (s.withForce x).ink = s.ink := rfl
@[simp] theorem State.withForce_fdbk (s : State) (x : Tbl Word) : (s.withForce x).fdbk = s.fdbk := rfl
@[simp] theorem State.withForce_field (s : State) (x : Tbl Word) : (s.withForce x).field = s.field := rfl
@[simp] theorem State.withForce_safe (s : State) (x : Tbl Word) : (s.withForce x).safe = s.safe := rfl
@[simp] theorem State.withForce_store (s : State) (x : Tbl Word) : (s.withForce x).store = s.store := rfl
@[simp] theorem State.withForce_net (s : State) (x : Tbl Word) : (s.withForce x).net = s.net := rfl
@[simp] theorem State.withForce_can (s : State) (x : Tbl Word) : (s.withForce x).can = s.can := rfl
@[simp] theorem State.withForce_sward (s : State) (x : Tbl Word) : (s.withForce x).sward = s.sward := rfl
@[simp] theorem State.withForce_sheaf (s : State) (x : Tbl Word) : (s.withForce x).sheaf = s.sheaf := rfl
@[simp] theorem State.withForce_nvm (s : State) (x : Tbl Word) : (s.withForce x).nvm = s.nvm := rfl
@[simp] theorem State.withForce_keep (s : State) (x : Tbl Word) : (s.withForce x).keep = s.keep := rfl
@[simp] theorem State.withForce_boot (s : State) (x : Tbl Word) : (s.withForce x).boot = s.boot := rfl
@[simp] theorem State.withForce_free (s : State) (x : Tbl Word) : (s.withForce x).free = s.free := rfl
@[simp] theorem State.withForce_pending (s : State) (x : Tbl Word) : (s.withForce x).pending = s.pending := rfl
@[simp] theorem State.withForce_reg (s : State) (x : Tbl Word) (a : Nat) : (s.withForce x).reg a = s.reg a := rfl
@[simp] theorem State.withForce_fld (s : State) (x : Tbl Word) (f : RF) : (s.withForce x).fld f = s.fld f := rfl
@[simp] theorem State.withForce_flag (s : State) (x : Tbl Word) (f : RF) : (s.withForce x).flag f = s.flag f := rfl
@[simp] theorem State.withForce_ctx (s : State) (x : Tbl Word) (m : Nat) : (s.withForce x).ctx m = s.ctx m := rfl
@[simp] theorem State.withForce_grp (s : State) (x : Tbl Word) (m : Nat) : (s.withForce x).grp m = s.grp m := rfl
@[simp] theorem State.withForce_port (s : State) (x : Tbl Word) (m : Nat) : (s.withForce x).port m = s.port m := rfl

@[simp] theorem State.withDt_regs (s : State) (x : Tick) : (s.withDt x).regs = s.regs := rfl
@[simp] theorem State.withDt_force (s : State) (x : Tick) : (s.withDt x).force = s.force := rfl
@[simp] theorem State.withDt_dt (s : State) (x : Tick) : (s.withDt x).dt = x := rfl
@[simp] theorem State.withDt_evt (s : State) (x : Tick) : (s.withDt x).evt = s.evt := rfl
@[simp] theorem State.withDt_cmd (s : State) (x : Tick) : (s.withDt x).cmd = s.cmd := rfl
@[simp] theorem State.withDt_phase (s : State) (x : Tick) : (s.withDt x).phase = s.phase := rfl
@[simp] theorem State.withDt_reed (s : State) (x : Tick) : (s.withDt x).reed = s.reed := rfl
@[simp] theorem State.withDt_clk (s : State) (x : Tick) : (s.withDt x).clk = s.clk := rfl
@[simp] theorem State.withDt_loop (s : State) (x : Tick) : (s.withDt x).loop = s.loop := rfl
@[simp] theorem State.withDt_sense (s : State) (x : Tick) : (s.withDt x).sense = s.sense := rfl
@[simp] theorem State.withDt_nib (s : State) (x : Tick) : (s.withDt x).nib = s.nib := rfl
@[simp] theorem State.withDt_ink (s : State) (x : Tick) : (s.withDt x).ink = s.ink := rfl
@[simp] theorem State.withDt_fdbk (s : State) (x : Tick) : (s.withDt x).fdbk = s.fdbk := rfl
@[simp] theorem State.withDt_field (s : State) (x : Tick) : (s.withDt x).field = s.field := rfl
@[simp] theorem State.withDt_safe (s : State) (x : Tick) : (s.withDt x).safe = s.safe := rfl
@[simp] theorem State.withDt_store (s : State) (x : Tick) : (s.withDt x).store = s.store := rfl
@[simp] theorem State.withDt_net (s : State) (x : Tick) : (s.withDt x).net = s.net := rfl
@[simp] theorem State.withDt_can (s : State) (x : Tick) : (s.withDt x).can = s.can := rfl
@[simp] theorem State.withDt_sward (s : State) (x : Tick) : (s.withDt x).sward = s.sward := rfl
@[simp] theorem State.withDt_sheaf (s : State) (x : Tick) : (s.withDt x).sheaf = s.sheaf := rfl
@[simp] theorem State.withDt_nvm (s : State) (x : Tick) : (s.withDt x).nvm = s.nvm := rfl
@[simp] theorem State.withDt_keep (s : State) (x : Tick) : (s.withDt x).keep = s.keep := rfl
@[simp] theorem State.withDt_boot (s : State) (x : Tick) : (s.withDt x).boot = s.boot := rfl
@[simp] theorem State.withDt_free (s : State) (x : Tick) : (s.withDt x).free = s.free := rfl
@[simp] theorem State.withDt_pending (s : State) (x : Tick) : (s.withDt x).pending = s.pending := rfl
@[simp] theorem State.withDt_reg (s : State) (x : Tick) (a : Nat) : (s.withDt x).reg a = s.reg a := rfl
@[simp] theorem State.withDt_fld (s : State) (x : Tick) (f : RF) : (s.withDt x).fld f = s.fld f := rfl
@[simp] theorem State.withDt_flag (s : State) (x : Tick) (f : RF) : (s.withDt x).flag f = s.flag f := rfl
@[simp] theorem State.withDt_frc (s : State) (x : Tick) (a : Nat) : (s.withDt x).frc a = s.frc a := rfl
@[simp] theorem State.withDt_ffld (s : State) (x : Tick) (f : RF) : (s.withDt x).ffld f = s.ffld f := rfl
@[simp] theorem State.withDt_ctx (s : State) (x : Tick) (m : Nat) : (s.withDt x).ctx m = s.ctx m := rfl
@[simp] theorem State.withDt_grp (s : State) (x : Tick) (m : Nat) : (s.withDt x).grp m = s.grp m := rfl
@[simp] theorem State.withDt_port (s : State) (x : Tick) (m : Nat) : (s.withDt x).port m = s.port m := rfl

@[simp] theorem State.withEvt_regs (s : State) (x : EvtS) : (s.withEvt x).regs = s.regs := rfl
@[simp] theorem State.withEvt_force (s : State) (x : EvtS) : (s.withEvt x).force = s.force := rfl
@[simp] theorem State.withEvt_dt (s : State) (x : EvtS) : (s.withEvt x).dt = s.dt := rfl
@[simp] theorem State.withEvt_evt (s : State) (x : EvtS) : (s.withEvt x).evt = x := rfl
@[simp] theorem State.withEvt_cmd (s : State) (x : EvtS) : (s.withEvt x).cmd = s.cmd := rfl
@[simp] theorem State.withEvt_phase (s : State) (x : EvtS) : (s.withEvt x).phase = s.phase := rfl
@[simp] theorem State.withEvt_reed (s : State) (x : EvtS) : (s.withEvt x).reed = s.reed := rfl
@[simp] theorem State.withEvt_clk (s : State) (x : EvtS) : (s.withEvt x).clk = s.clk := rfl
@[simp] theorem State.withEvt_loop (s : State) (x : EvtS) : (s.withEvt x).loop = s.loop := rfl
@[simp] theorem State.withEvt_sense (s : State) (x : EvtS) : (s.withEvt x).sense = s.sense := rfl
@[simp] theorem State.withEvt_nib (s : State) (x : EvtS) : (s.withEvt x).nib = s.nib := rfl
@[simp] theorem State.withEvt_ink (s : State) (x : EvtS) : (s.withEvt x).ink = s.ink := rfl
@[simp] theorem State.withEvt_fdbk (s : State) (x : EvtS) : (s.withEvt x).fdbk = s.fdbk := rfl
@[simp] theorem State.withEvt_field (s : State) (x : EvtS) : (s.withEvt x).field = s.field := rfl
@[simp] theorem State.withEvt_safe (s : State) (x : EvtS) : (s.withEvt x).safe = s.safe := rfl
@[simp] theorem State.withEvt_store (s : State) (x : EvtS) : (s.withEvt x).store = s.store := rfl
@[simp] theorem State.withEvt_net (s : State) (x : EvtS) : (s.withEvt x).net = s.net := rfl
@[simp] theorem State.withEvt_can (s : State) (x : EvtS) : (s.withEvt x).can = s.can := rfl
@[simp] theorem State.withEvt_sward (s : State) (x : EvtS) : (s.withEvt x).sward = s.sward := rfl
@[simp] theorem State.withEvt_sheaf (s : State) (x : EvtS) : (s.withEvt x).sheaf = s.sheaf := rfl
@[simp] theorem State.withEvt_nvm (s : State) (x : EvtS) : (s.withEvt x).nvm = s.nvm := rfl
@[simp] theorem State.withEvt_keep (s : State) (x : EvtS) : (s.withEvt x).keep = s.keep := rfl
@[simp] theorem State.withEvt_boot (s : State) (x : EvtS) : (s.withEvt x).boot = s.boot := rfl
@[simp] theorem State.withEvt_free (s : State) (x : EvtS) : (s.withEvt x).free = s.free := rfl
@[simp] theorem State.withEvt_pending (s : State) (x : EvtS) : (s.withEvt x).pending = s.pending := rfl
@[simp] theorem State.withEvt_reg (s : State) (x : EvtS) (a : Nat) : (s.withEvt x).reg a = s.reg a := rfl
@[simp] theorem State.withEvt_fld (s : State) (x : EvtS) (f : RF) : (s.withEvt x).fld f = s.fld f := rfl
@[simp] theorem State.withEvt_flag (s : State) (x : EvtS) (f : RF) : (s.withEvt x).flag f = s.flag f := rfl
@[simp] theorem State.withEvt_frc (s : State) (x : EvtS) (a : Nat) : (s.withEvt x).frc a = s.frc a := rfl
@[simp] theorem State.withEvt_ffld (s : State) (x : EvtS) (f : RF) : (s.withEvt x).ffld f = s.ffld f := rfl
@[simp] theorem State.withEvt_ctx (s : State) (x : EvtS) (m : Nat) : (s.withEvt x).ctx m = s.ctx m := rfl
@[simp] theorem State.withEvt_grp (s : State) (x : EvtS) (m : Nat) : (s.withEvt x).grp m = s.grp m := rfl
@[simp] theorem State.withEvt_port (s : State) (x : EvtS) (m : Nat) : (s.withEvt x).port m = s.port m := rfl

@[simp] theorem State.withCmd_regs (s : State) (x : CmdS) : (s.withCmd x).regs = s.regs := rfl
@[simp] theorem State.withCmd_force (s : State) (x : CmdS) : (s.withCmd x).force = s.force := rfl
@[simp] theorem State.withCmd_dt (s : State) (x : CmdS) : (s.withCmd x).dt = s.dt := rfl
@[simp] theorem State.withCmd_evt (s : State) (x : CmdS) : (s.withCmd x).evt = s.evt := rfl
@[simp] theorem State.withCmd_cmd (s : State) (x : CmdS) : (s.withCmd x).cmd = x := rfl
@[simp] theorem State.withCmd_phase (s : State) (x : CmdS) : (s.withCmd x).phase = s.phase := rfl
@[simp] theorem State.withCmd_reed (s : State) (x : CmdS) : (s.withCmd x).reed = s.reed := rfl
@[simp] theorem State.withCmd_clk (s : State) (x : CmdS) : (s.withCmd x).clk = s.clk := rfl
@[simp] theorem State.withCmd_loop (s : State) (x : CmdS) : (s.withCmd x).loop = s.loop := rfl
@[simp] theorem State.withCmd_sense (s : State) (x : CmdS) : (s.withCmd x).sense = s.sense := rfl
@[simp] theorem State.withCmd_nib (s : State) (x : CmdS) : (s.withCmd x).nib = s.nib := rfl
@[simp] theorem State.withCmd_ink (s : State) (x : CmdS) : (s.withCmd x).ink = s.ink := rfl
@[simp] theorem State.withCmd_fdbk (s : State) (x : CmdS) : (s.withCmd x).fdbk = s.fdbk := rfl
@[simp] theorem State.withCmd_field (s : State) (x : CmdS) : (s.withCmd x).field = s.field := rfl
@[simp] theorem State.withCmd_safe (s : State) (x : CmdS) : (s.withCmd x).safe = s.safe := rfl
@[simp] theorem State.withCmd_store (s : State) (x : CmdS) : (s.withCmd x).store = s.store := rfl
@[simp] theorem State.withCmd_net (s : State) (x : CmdS) : (s.withCmd x).net = s.net := rfl
@[simp] theorem State.withCmd_can (s : State) (x : CmdS) : (s.withCmd x).can = s.can := rfl
@[simp] theorem State.withCmd_sward (s : State) (x : CmdS) : (s.withCmd x).sward = s.sward := rfl
@[simp] theorem State.withCmd_sheaf (s : State) (x : CmdS) : (s.withCmd x).sheaf = s.sheaf := rfl
@[simp] theorem State.withCmd_nvm (s : State) (x : CmdS) : (s.withCmd x).nvm = s.nvm := rfl
@[simp] theorem State.withCmd_keep (s : State) (x : CmdS) : (s.withCmd x).keep = s.keep := rfl
@[simp] theorem State.withCmd_boot (s : State) (x : CmdS) : (s.withCmd x).boot = s.boot := rfl
@[simp] theorem State.withCmd_free (s : State) (x : CmdS) : (s.withCmd x).free = s.free := rfl
@[simp] theorem State.withCmd_pending (s : State) (x : CmdS) : (s.withCmd x).pending = s.pending := rfl
@[simp] theorem State.withCmd_reg (s : State) (x : CmdS) (a : Nat) : (s.withCmd x).reg a = s.reg a := rfl
@[simp] theorem State.withCmd_fld (s : State) (x : CmdS) (f : RF) : (s.withCmd x).fld f = s.fld f := rfl
@[simp] theorem State.withCmd_flag (s : State) (x : CmdS) (f : RF) : (s.withCmd x).flag f = s.flag f := rfl
@[simp] theorem State.withCmd_frc (s : State) (x : CmdS) (a : Nat) : (s.withCmd x).frc a = s.frc a := rfl
@[simp] theorem State.withCmd_ffld (s : State) (x : CmdS) (f : RF) : (s.withCmd x).ffld f = s.ffld f := rfl
@[simp] theorem State.withCmd_ctx (s : State) (x : CmdS) (m : Nat) : (s.withCmd x).ctx m = s.ctx m := rfl
@[simp] theorem State.withCmd_grp (s : State) (x : CmdS) (m : Nat) : (s.withCmd x).grp m = s.grp m := rfl

@[simp] theorem State.withPhase_regs (s : State) (x : Phase) : (s.withPhase x).regs = s.regs := rfl
@[simp] theorem State.withPhase_force (s : State) (x : Phase) : (s.withPhase x).force = s.force := rfl
@[simp] theorem State.withPhase_dt (s : State) (x : Phase) : (s.withPhase x).dt = s.dt := rfl
@[simp] theorem State.withPhase_evt (s : State) (x : Phase) : (s.withPhase x).evt = s.evt := rfl
@[simp] theorem State.withPhase_cmd (s : State) (x : Phase) : (s.withPhase x).cmd = s.cmd := rfl
@[simp] theorem State.withPhase_phase (s : State) (x : Phase) : (s.withPhase x).phase = x := rfl
@[simp] theorem State.withPhase_reed (s : State) (x : Phase) : (s.withPhase x).reed = s.reed := rfl
@[simp] theorem State.withPhase_clk (s : State) (x : Phase) : (s.withPhase x).clk = s.clk := rfl
@[simp] theorem State.withPhase_loop (s : State) (x : Phase) : (s.withPhase x).loop = s.loop := rfl
@[simp] theorem State.withPhase_sense (s : State) (x : Phase) : (s.withPhase x).sense = s.sense := rfl
@[simp] theorem State.withPhase_nib (s : State) (x : Phase) : (s.withPhase x).nib = s.nib := rfl
@[simp] theorem State.withPhase_ink (s : State) (x : Phase) : (s.withPhase x).ink = s.ink := rfl
@[simp] theorem State.withPhase_fdbk (s : State) (x : Phase) : (s.withPhase x).fdbk = s.fdbk := rfl
@[simp] theorem State.withPhase_field (s : State) (x : Phase) : (s.withPhase x).field = s.field := rfl
@[simp] theorem State.withPhase_safe (s : State) (x : Phase) : (s.withPhase x).safe = s.safe := rfl
@[simp] theorem State.withPhase_store (s : State) (x : Phase) : (s.withPhase x).store = s.store := rfl
@[simp] theorem State.withPhase_net (s : State) (x : Phase) : (s.withPhase x).net = s.net := rfl
@[simp] theorem State.withPhase_can (s : State) (x : Phase) : (s.withPhase x).can = s.can := rfl
@[simp] theorem State.withPhase_sward (s : State) (x : Phase) : (s.withPhase x).sward = s.sward := rfl
@[simp] theorem State.withPhase_sheaf (s : State) (x : Phase) : (s.withPhase x).sheaf = s.sheaf := rfl
@[simp] theorem State.withPhase_nvm (s : State) (x : Phase) : (s.withPhase x).nvm = s.nvm := rfl
@[simp] theorem State.withPhase_keep (s : State) (x : Phase) : (s.withPhase x).keep = s.keep := rfl
@[simp] theorem State.withPhase_boot (s : State) (x : Phase) : (s.withPhase x).boot = s.boot := rfl
@[simp] theorem State.withPhase_free (s : State) (x : Phase) : (s.withPhase x).free = s.free := rfl
@[simp] theorem State.withPhase_pending (s : State) (x : Phase) : (s.withPhase x).pending = s.pending := rfl
@[simp] theorem State.withPhase_reg (s : State) (x : Phase) (a : Nat) : (s.withPhase x).reg a = s.reg a := rfl
@[simp] theorem State.withPhase_fld (s : State) (x : Phase) (f : RF) : (s.withPhase x).fld f = s.fld f := rfl
@[simp] theorem State.withPhase_flag (s : State) (x : Phase) (f : RF) : (s.withPhase x).flag f = s.flag f := rfl
@[simp] theorem State.withPhase_frc (s : State) (x : Phase) (a : Nat) : (s.withPhase x).frc a = s.frc a := rfl
@[simp] theorem State.withPhase_ffld (s : State) (x : Phase) (f : RF) : (s.withPhase x).ffld f = s.ffld f := rfl
@[simp] theorem State.withPhase_ctx (s : State) (x : Phase) (m : Nat) : (s.withPhase x).ctx m = s.ctx m := rfl
@[simp] theorem State.withPhase_grp (s : State) (x : Phase) (m : Nat) : (s.withPhase x).grp m = s.grp m := rfl
@[simp] theorem State.withPhase_port (s : State) (x : Phase) (m : Nat) : (s.withPhase x).port m = s.port m := rfl

@[simp] theorem State.withReed_regs (s : State) (x : ReedSt) : (s.withReed x).regs = s.regs := rfl
@[simp] theorem State.withReed_force (s : State) (x : ReedSt) : (s.withReed x).force = s.force := rfl
@[simp] theorem State.withReed_dt (s : State) (x : ReedSt) : (s.withReed x).dt = s.dt := rfl
@[simp] theorem State.withReed_evt (s : State) (x : ReedSt) : (s.withReed x).evt = s.evt := rfl
@[simp] theorem State.withReed_cmd (s : State) (x : ReedSt) : (s.withReed x).cmd = s.cmd := rfl
@[simp] theorem State.withReed_phase (s : State) (x : ReedSt) : (s.withReed x).phase = s.phase := rfl
@[simp] theorem State.withReed_reed (s : State) (x : ReedSt) : (s.withReed x).reed = x := rfl
@[simp] theorem State.withReed_clk (s : State) (x : ReedSt) : (s.withReed x).clk = s.clk := rfl
@[simp] theorem State.withReed_loop (s : State) (x : ReedSt) : (s.withReed x).loop = s.loop := rfl
@[simp] theorem State.withReed_sense (s : State) (x : ReedSt) : (s.withReed x).sense = s.sense := rfl
@[simp] theorem State.withReed_nib (s : State) (x : ReedSt) : (s.withReed x).nib = s.nib := rfl
@[simp] theorem State.withReed_ink (s : State) (x : ReedSt) : (s.withReed x).ink = s.ink := rfl
@[simp] theorem State.withReed_fdbk (s : State) (x : ReedSt) : (s.withReed x).fdbk = s.fdbk := rfl
@[simp] theorem State.withReed_field (s : State) (x : ReedSt) : (s.withReed x).field = s.field := rfl
@[simp] theorem State.withReed_safe (s : State) (x : ReedSt) : (s.withReed x).safe = s.safe := rfl
@[simp] theorem State.withReed_store (s : State) (x : ReedSt) : (s.withReed x).store = s.store := rfl
@[simp] theorem State.withReed_net (s : State) (x : ReedSt) : (s.withReed x).net = s.net := rfl
@[simp] theorem State.withReed_can (s : State) (x : ReedSt) : (s.withReed x).can = s.can := rfl
@[simp] theorem State.withReed_sward (s : State) (x : ReedSt) : (s.withReed x).sward = s.sward := rfl
@[simp] theorem State.withReed_sheaf (s : State) (x : ReedSt) : (s.withReed x).sheaf = s.sheaf := rfl
@[simp] theorem State.withReed_nvm (s : State) (x : ReedSt) : (s.withReed x).nvm = s.nvm := rfl
@[simp] theorem State.withReed_keep (s : State) (x : ReedSt) : (s.withReed x).keep = s.keep := rfl
@[simp] theorem State.withReed_boot (s : State) (x : ReedSt) : (s.withReed x).boot = s.boot := rfl
@[simp] theorem State.withReed_free (s : State) (x : ReedSt) : (s.withReed x).free = s.free := rfl
@[simp] theorem State.withReed_pending (s : State) (x : ReedSt) : (s.withReed x).pending = s.pending := rfl
@[simp] theorem State.withReed_reg (s : State) (x : ReedSt) (a : Nat) : (s.withReed x).reg a = s.reg a := rfl
@[simp] theorem State.withReed_fld (s : State) (x : ReedSt) (f : RF) : (s.withReed x).fld f = s.fld f := rfl
@[simp] theorem State.withReed_flag (s : State) (x : ReedSt) (f : RF) : (s.withReed x).flag f = s.flag f := rfl
@[simp] theorem State.withReed_frc (s : State) (x : ReedSt) (a : Nat) : (s.withReed x).frc a = s.frc a := rfl
@[simp] theorem State.withReed_ffld (s : State) (x : ReedSt) (f : RF) : (s.withReed x).ffld f = s.ffld f := rfl
@[simp] theorem State.withReed_ctx (s : State) (x : ReedSt) (m : Nat) : (s.withReed x).ctx m = s.ctx m := rfl
@[simp] theorem State.withReed_grp (s : State) (x : ReedSt) (m : Nat) : (s.withReed x).grp m = s.grp m := rfl
@[simp] theorem State.withReed_port (s : State) (x : ReedSt) (m : Nat) : (s.withReed x).port m = s.port m := rfl

@[simp] theorem State.withClk_regs (s : State) (x : ClkS) : (s.withClk x).regs = s.regs := rfl
@[simp] theorem State.withClk_force (s : State) (x : ClkS) : (s.withClk x).force = s.force := rfl
@[simp] theorem State.withClk_dt (s : State) (x : ClkS) : (s.withClk x).dt = s.dt := rfl
@[simp] theorem State.withClk_evt (s : State) (x : ClkS) : (s.withClk x).evt = s.evt := rfl
@[simp] theorem State.withClk_cmd (s : State) (x : ClkS) : (s.withClk x).cmd = s.cmd := rfl
@[simp] theorem State.withClk_phase (s : State) (x : ClkS) : (s.withClk x).phase = s.phase := rfl
@[simp] theorem State.withClk_reed (s : State) (x : ClkS) : (s.withClk x).reed = s.reed := rfl
@[simp] theorem State.withClk_clk (s : State) (x : ClkS) : (s.withClk x).clk = x := rfl
@[simp] theorem State.withClk_loop (s : State) (x : ClkS) : (s.withClk x).loop = s.loop := rfl
@[simp] theorem State.withClk_sense (s : State) (x : ClkS) : (s.withClk x).sense = s.sense := rfl
@[simp] theorem State.withClk_nib (s : State) (x : ClkS) : (s.withClk x).nib = s.nib := rfl
@[simp] theorem State.withClk_ink (s : State) (x : ClkS) : (s.withClk x).ink = s.ink := rfl
@[simp] theorem State.withClk_fdbk (s : State) (x : ClkS) : (s.withClk x).fdbk = s.fdbk := rfl
@[simp] theorem State.withClk_field (s : State) (x : ClkS) : (s.withClk x).field = s.field := rfl
@[simp] theorem State.withClk_safe (s : State) (x : ClkS) : (s.withClk x).safe = s.safe := rfl
@[simp] theorem State.withClk_store (s : State) (x : ClkS) : (s.withClk x).store = s.store := rfl
@[simp] theorem State.withClk_net (s : State) (x : ClkS) : (s.withClk x).net = s.net := rfl
@[simp] theorem State.withClk_can (s : State) (x : ClkS) : (s.withClk x).can = s.can := rfl
@[simp] theorem State.withClk_sward (s : State) (x : ClkS) : (s.withClk x).sward = s.sward := rfl
@[simp] theorem State.withClk_sheaf (s : State) (x : ClkS) : (s.withClk x).sheaf = s.sheaf := rfl
@[simp] theorem State.withClk_nvm (s : State) (x : ClkS) : (s.withClk x).nvm = s.nvm := rfl
@[simp] theorem State.withClk_keep (s : State) (x : ClkS) : (s.withClk x).keep = s.keep := rfl
@[simp] theorem State.withClk_boot (s : State) (x : ClkS) : (s.withClk x).boot = s.boot := rfl
@[simp] theorem State.withClk_free (s : State) (x : ClkS) : (s.withClk x).free = s.free := rfl
@[simp] theorem State.withClk_pending (s : State) (x : ClkS) : (s.withClk x).pending = s.pending := rfl
@[simp] theorem State.withClk_reg (s : State) (x : ClkS) (a : Nat) : (s.withClk x).reg a = s.reg a := rfl
@[simp] theorem State.withClk_fld (s : State) (x : ClkS) (f : RF) : (s.withClk x).fld f = s.fld f := rfl
@[simp] theorem State.withClk_flag (s : State) (x : ClkS) (f : RF) : (s.withClk x).flag f = s.flag f := rfl
@[simp] theorem State.withClk_frc (s : State) (x : ClkS) (a : Nat) : (s.withClk x).frc a = s.frc a := rfl
@[simp] theorem State.withClk_ffld (s : State) (x : ClkS) (f : RF) : (s.withClk x).ffld f = s.ffld f := rfl
@[simp] theorem State.withClk_ctx (s : State) (x : ClkS) (m : Nat) : (s.withClk x).ctx m = s.ctx m := rfl
@[simp] theorem State.withClk_grp (s : State) (x : ClkS) (m : Nat) : (s.withClk x).grp m = s.grp m := rfl
@[simp] theorem State.withClk_port (s : State) (x : ClkS) (m : Nat) : (s.withClk x).port m = s.port m := rfl

@[simp] theorem State.withLoop_regs (s : State) (x : LoopS) : (s.withLoop x).regs = s.regs := rfl
@[simp] theorem State.withLoop_force (s : State) (x : LoopS) : (s.withLoop x).force = s.force := rfl
@[simp] theorem State.withLoop_dt (s : State) (x : LoopS) : (s.withLoop x).dt = s.dt := rfl
@[simp] theorem State.withLoop_evt (s : State) (x : LoopS) : (s.withLoop x).evt = s.evt := rfl
@[simp] theorem State.withLoop_cmd (s : State) (x : LoopS) : (s.withLoop x).cmd = s.cmd := rfl
@[simp] theorem State.withLoop_phase (s : State) (x : LoopS) : (s.withLoop x).phase = s.phase := rfl
@[simp] theorem State.withLoop_reed (s : State) (x : LoopS) : (s.withLoop x).reed = s.reed := rfl
@[simp] theorem State.withLoop_clk (s : State) (x : LoopS) : (s.withLoop x).clk = s.clk := rfl
@[simp] theorem State.withLoop_loop (s : State) (x : LoopS) : (s.withLoop x).loop = x := rfl
@[simp] theorem State.withLoop_sense (s : State) (x : LoopS) : (s.withLoop x).sense = s.sense := rfl
@[simp] theorem State.withLoop_nib (s : State) (x : LoopS) : (s.withLoop x).nib = s.nib := rfl
@[simp] theorem State.withLoop_ink (s : State) (x : LoopS) : (s.withLoop x).ink = s.ink := rfl
@[simp] theorem State.withLoop_fdbk (s : State) (x : LoopS) : (s.withLoop x).fdbk = s.fdbk := rfl
@[simp] theorem State.withLoop_field (s : State) (x : LoopS) : (s.withLoop x).field = s.field := rfl
@[simp] theorem State.withLoop_safe (s : State) (x : LoopS) : (s.withLoop x).safe = s.safe := rfl
@[simp] theorem State.withLoop_store (s : State) (x : LoopS) : (s.withLoop x).store = s.store := rfl
@[simp] theorem State.withLoop_net (s : State) (x : LoopS) : (s.withLoop x).net = s.net := rfl
@[simp] theorem State.withLoop_can (s : State) (x : LoopS) : (s.withLoop x).can = s.can := rfl
@[simp] theorem State.withLoop_sward (s : State) (x : LoopS) : (s.withLoop x).sward = s.sward := rfl
@[simp] theorem State.withLoop_sheaf (s : State) (x : LoopS) : (s.withLoop x).sheaf = s.sheaf := rfl
@[simp] theorem State.withLoop_nvm (s : State) (x : LoopS) : (s.withLoop x).nvm = s.nvm := rfl
@[simp] theorem State.withLoop_keep (s : State) (x : LoopS) : (s.withLoop x).keep = s.keep := rfl
@[simp] theorem State.withLoop_boot (s : State) (x : LoopS) : (s.withLoop x).boot = s.boot := rfl
@[simp] theorem State.withLoop_free (s : State) (x : LoopS) : (s.withLoop x).free = s.free := rfl
@[simp] theorem State.withLoop_pending (s : State) (x : LoopS) : (s.withLoop x).pending = s.pending := rfl
@[simp] theorem State.withLoop_reg (s : State) (x : LoopS) (a : Nat) : (s.withLoop x).reg a = s.reg a := rfl
@[simp] theorem State.withLoop_fld (s : State) (x : LoopS) (f : RF) : (s.withLoop x).fld f = s.fld f := rfl
@[simp] theorem State.withLoop_flag (s : State) (x : LoopS) (f : RF) : (s.withLoop x).flag f = s.flag f := rfl
@[simp] theorem State.withLoop_frc (s : State) (x : LoopS) (a : Nat) : (s.withLoop x).frc a = s.frc a := rfl
@[simp] theorem State.withLoop_ffld (s : State) (x : LoopS) (f : RF) : (s.withLoop x).ffld f = s.ffld f := rfl
@[simp] theorem State.withLoop_port (s : State) (x : LoopS) (m : Nat) : (s.withLoop x).port m = s.port m := rfl

@[simp] theorem State.withSense_regs (s : State) (x : SenseS) : (s.withSense x).regs = s.regs := rfl
@[simp] theorem State.withSense_force (s : State) (x : SenseS) : (s.withSense x).force = s.force := rfl
@[simp] theorem State.withSense_dt (s : State) (x : SenseS) : (s.withSense x).dt = s.dt := rfl
@[simp] theorem State.withSense_evt (s : State) (x : SenseS) : (s.withSense x).evt = s.evt := rfl
@[simp] theorem State.withSense_cmd (s : State) (x : SenseS) : (s.withSense x).cmd = s.cmd := rfl
@[simp] theorem State.withSense_phase (s : State) (x : SenseS) : (s.withSense x).phase = s.phase := rfl
@[simp] theorem State.withSense_reed (s : State) (x : SenseS) : (s.withSense x).reed = s.reed := rfl
@[simp] theorem State.withSense_clk (s : State) (x : SenseS) : (s.withSense x).clk = s.clk := rfl
@[simp] theorem State.withSense_loop (s : State) (x : SenseS) : (s.withSense x).loop = s.loop := rfl
@[simp] theorem State.withSense_sense (s : State) (x : SenseS) : (s.withSense x).sense = x := rfl
@[simp] theorem State.withSense_nib (s : State) (x : SenseS) : (s.withSense x).nib = s.nib := rfl
@[simp] theorem State.withSense_ink (s : State) (x : SenseS) : (s.withSense x).ink = s.ink := rfl
@[simp] theorem State.withSense_fdbk (s : State) (x : SenseS) : (s.withSense x).fdbk = s.fdbk := rfl
@[simp] theorem State.withSense_field (s : State) (x : SenseS) : (s.withSense x).field = s.field := rfl
@[simp] theorem State.withSense_safe (s : State) (x : SenseS) : (s.withSense x).safe = s.safe := rfl
@[simp] theorem State.withSense_store (s : State) (x : SenseS) : (s.withSense x).store = s.store := rfl
@[simp] theorem State.withSense_net (s : State) (x : SenseS) : (s.withSense x).net = s.net := rfl
@[simp] theorem State.withSense_can (s : State) (x : SenseS) : (s.withSense x).can = s.can := rfl
@[simp] theorem State.withSense_sward (s : State) (x : SenseS) : (s.withSense x).sward = s.sward := rfl
@[simp] theorem State.withSense_sheaf (s : State) (x : SenseS) : (s.withSense x).sheaf = s.sheaf := rfl
@[simp] theorem State.withSense_nvm (s : State) (x : SenseS) : (s.withSense x).nvm = s.nvm := rfl
@[simp] theorem State.withSense_keep (s : State) (x : SenseS) : (s.withSense x).keep = s.keep := rfl
@[simp] theorem State.withSense_boot (s : State) (x : SenseS) : (s.withSense x).boot = s.boot := rfl
@[simp] theorem State.withSense_free (s : State) (x : SenseS) : (s.withSense x).free = s.free := rfl
@[simp] theorem State.withSense_pending (s : State) (x : SenseS) : (s.withSense x).pending = s.pending := rfl
@[simp] theorem State.withSense_reg (s : State) (x : SenseS) (a : Nat) : (s.withSense x).reg a = s.reg a := rfl
@[simp] theorem State.withSense_fld (s : State) (x : SenseS) (f : RF) : (s.withSense x).fld f = s.fld f := rfl
@[simp] theorem State.withSense_flag (s : State) (x : SenseS) (f : RF) : (s.withSense x).flag f = s.flag f := rfl
@[simp] theorem State.withSense_frc (s : State) (x : SenseS) (a : Nat) : (s.withSense x).frc a = s.frc a := rfl
@[simp] theorem State.withSense_ffld (s : State) (x : SenseS) (f : RF) : (s.withSense x).ffld f = s.ffld f := rfl
@[simp] theorem State.withSense_ctx (s : State) (x : SenseS) (m : Nat) : (s.withSense x).ctx m = s.ctx m := rfl
@[simp] theorem State.withSense_grp (s : State) (x : SenseS) (m : Nat) : (s.withSense x).grp m = s.grp m := rfl
@[simp] theorem State.withSense_port (s : State) (x : SenseS) (m : Nat) : (s.withSense x).port m = s.port m := rfl

@[simp] theorem State.withNib_regs (s : State) (x : NibB) : (s.withNib x).regs = s.regs := rfl
@[simp] theorem State.withNib_force (s : State) (x : NibB) : (s.withNib x).force = s.force := rfl
@[simp] theorem State.withNib_dt (s : State) (x : NibB) : (s.withNib x).dt = s.dt := rfl
@[simp] theorem State.withNib_evt (s : State) (x : NibB) : (s.withNib x).evt = s.evt := rfl
@[simp] theorem State.withNib_cmd (s : State) (x : NibB) : (s.withNib x).cmd = s.cmd := rfl
@[simp] theorem State.withNib_phase (s : State) (x : NibB) : (s.withNib x).phase = s.phase := rfl
@[simp] theorem State.withNib_reed (s : State) (x : NibB) : (s.withNib x).reed = s.reed := rfl
@[simp] theorem State.withNib_clk (s : State) (x : NibB) : (s.withNib x).clk = s.clk := rfl
@[simp] theorem State.withNib_loop (s : State) (x : NibB) : (s.withNib x).loop = s.loop := rfl
@[simp] theorem State.withNib_sense (s : State) (x : NibB) : (s.withNib x).sense = s.sense := rfl
@[simp] theorem State.withNib_nib (s : State) (x : NibB) : (s.withNib x).nib = x := rfl
@[simp] theorem State.withNib_ink (s : State) (x : NibB) : (s.withNib x).ink = s.ink := rfl
@[simp] theorem State.withNib_fdbk (s : State) (x : NibB) : (s.withNib x).fdbk = s.fdbk := rfl
@[simp] theorem State.withNib_field (s : State) (x : NibB) : (s.withNib x).field = s.field := rfl
@[simp] theorem State.withNib_safe (s : State) (x : NibB) : (s.withNib x).safe = s.safe := rfl
@[simp] theorem State.withNib_store (s : State) (x : NibB) : (s.withNib x).store = s.store := rfl
@[simp] theorem State.withNib_net (s : State) (x : NibB) : (s.withNib x).net = s.net := rfl
@[simp] theorem State.withNib_can (s : State) (x : NibB) : (s.withNib x).can = s.can := rfl
@[simp] theorem State.withNib_sward (s : State) (x : NibB) : (s.withNib x).sward = s.sward := rfl
@[simp] theorem State.withNib_sheaf (s : State) (x : NibB) : (s.withNib x).sheaf = s.sheaf := rfl
@[simp] theorem State.withNib_nvm (s : State) (x : NibB) : (s.withNib x).nvm = s.nvm := rfl
@[simp] theorem State.withNib_keep (s : State) (x : NibB) : (s.withNib x).keep = s.keep := rfl
@[simp] theorem State.withNib_boot (s : State) (x : NibB) : (s.withNib x).boot = s.boot := rfl
@[simp] theorem State.withNib_free (s : State) (x : NibB) : (s.withNib x).free = s.free := rfl
@[simp] theorem State.withNib_pending (s : State) (x : NibB) : (s.withNib x).pending = s.pending := rfl
@[simp] theorem State.withNib_reg (s : State) (x : NibB) (a : Nat) : (s.withNib x).reg a = s.reg a := rfl
@[simp] theorem State.withNib_fld (s : State) (x : NibB) (f : RF) : (s.withNib x).fld f = s.fld f := rfl
@[simp] theorem State.withNib_flag (s : State) (x : NibB) (f : RF) : (s.withNib x).flag f = s.flag f := rfl
@[simp] theorem State.withNib_frc (s : State) (x : NibB) (a : Nat) : (s.withNib x).frc a = s.frc a := rfl
@[simp] theorem State.withNib_ffld (s : State) (x : NibB) (f : RF) : (s.withNib x).ffld f = s.ffld f := rfl
@[simp] theorem State.withNib_ctx (s : State) (x : NibB) (m : Nat) : (s.withNib x).ctx m = s.ctx m := rfl
@[simp] theorem State.withNib_grp (s : State) (x : NibB) (m : Nat) : (s.withNib x).grp m = s.grp m := rfl
@[simp] theorem State.withNib_port (s : State) (x : NibB) (m : Nat) : (s.withNib x).port m = s.port m := rfl

@[simp] theorem State.withInk_regs (s : State) (x : InkS) : (s.withInk x).regs = s.regs := rfl
@[simp] theorem State.withInk_force (s : State) (x : InkS) : (s.withInk x).force = s.force := rfl
@[simp] theorem State.withInk_dt (s : State) (x : InkS) : (s.withInk x).dt = s.dt := rfl
@[simp] theorem State.withInk_evt (s : State) (x : InkS) : (s.withInk x).evt = s.evt := rfl
@[simp] theorem State.withInk_cmd (s : State) (x : InkS) : (s.withInk x).cmd = s.cmd := rfl
@[simp] theorem State.withInk_phase (s : State) (x : InkS) : (s.withInk x).phase = s.phase := rfl
@[simp] theorem State.withInk_reed (s : State) (x : InkS) : (s.withInk x).reed = s.reed := rfl
@[simp] theorem State.withInk_clk (s : State) (x : InkS) : (s.withInk x).clk = s.clk := rfl
@[simp] theorem State.withInk_loop (s : State) (x : InkS) : (s.withInk x).loop = s.loop := rfl
@[simp] theorem State.withInk_sense (s : State) (x : InkS) : (s.withInk x).sense = s.sense := rfl
@[simp] theorem State.withInk_nib (s : State) (x : InkS) : (s.withInk x).nib = s.nib := rfl
@[simp] theorem State.withInk_ink (s : State) (x : InkS) : (s.withInk x).ink = x := rfl
@[simp] theorem State.withInk_fdbk (s : State) (x : InkS) : (s.withInk x).fdbk = s.fdbk := rfl
@[simp] theorem State.withInk_field (s : State) (x : InkS) : (s.withInk x).field = s.field := rfl
@[simp] theorem State.withInk_safe (s : State) (x : InkS) : (s.withInk x).safe = s.safe := rfl
@[simp] theorem State.withInk_store (s : State) (x : InkS) : (s.withInk x).store = s.store := rfl
@[simp] theorem State.withInk_net (s : State) (x : InkS) : (s.withInk x).net = s.net := rfl
@[simp] theorem State.withInk_can (s : State) (x : InkS) : (s.withInk x).can = s.can := rfl
@[simp] theorem State.withInk_sward (s : State) (x : InkS) : (s.withInk x).sward = s.sward := rfl
@[simp] theorem State.withInk_sheaf (s : State) (x : InkS) : (s.withInk x).sheaf = s.sheaf := rfl
@[simp] theorem State.withInk_nvm (s : State) (x : InkS) : (s.withInk x).nvm = s.nvm := rfl
@[simp] theorem State.withInk_keep (s : State) (x : InkS) : (s.withInk x).keep = s.keep := rfl
@[simp] theorem State.withInk_boot (s : State) (x : InkS) : (s.withInk x).boot = s.boot := rfl
@[simp] theorem State.withInk_free (s : State) (x : InkS) : (s.withInk x).free = s.free := rfl
@[simp] theorem State.withInk_pending (s : State) (x : InkS) : (s.withInk x).pending = s.pending := rfl
@[simp] theorem State.withInk_reg (s : State) (x : InkS) (a : Nat) : (s.withInk x).reg a = s.reg a := rfl
@[simp] theorem State.withInk_fld (s : State) (x : InkS) (f : RF) : (s.withInk x).fld f = s.fld f := rfl
@[simp] theorem State.withInk_flag (s : State) (x : InkS) (f : RF) : (s.withInk x).flag f = s.flag f := rfl
@[simp] theorem State.withInk_frc (s : State) (x : InkS) (a : Nat) : (s.withInk x).frc a = s.frc a := rfl
@[simp] theorem State.withInk_ffld (s : State) (x : InkS) (f : RF) : (s.withInk x).ffld f = s.ffld f := rfl
@[simp] theorem State.withInk_ctx (s : State) (x : InkS) (m : Nat) : (s.withInk x).ctx m = s.ctx m := rfl
@[simp] theorem State.withInk_grp (s : State) (x : InkS) (m : Nat) : (s.withInk x).grp m = s.grp m := rfl
@[simp] theorem State.withInk_port (s : State) (x : InkS) (m : Nat) : (s.withInk x).port m = s.port m := rfl

@[simp] theorem State.withFdbk_regs (s : State) (x : FdbkS) : (s.withFdbk x).regs = s.regs := rfl
@[simp] theorem State.withFdbk_force (s : State) (x : FdbkS) : (s.withFdbk x).force = s.force := rfl
@[simp] theorem State.withFdbk_dt (s : State) (x : FdbkS) : (s.withFdbk x).dt = s.dt := rfl
@[simp] theorem State.withFdbk_evt (s : State) (x : FdbkS) : (s.withFdbk x).evt = s.evt := rfl
@[simp] theorem State.withFdbk_cmd (s : State) (x : FdbkS) : (s.withFdbk x).cmd = s.cmd := rfl
@[simp] theorem State.withFdbk_phase (s : State) (x : FdbkS) : (s.withFdbk x).phase = s.phase := rfl
@[simp] theorem State.withFdbk_reed (s : State) (x : FdbkS) : (s.withFdbk x).reed = s.reed := rfl
@[simp] theorem State.withFdbk_clk (s : State) (x : FdbkS) : (s.withFdbk x).clk = s.clk := rfl
@[simp] theorem State.withFdbk_loop (s : State) (x : FdbkS) : (s.withFdbk x).loop = s.loop := rfl
@[simp] theorem State.withFdbk_sense (s : State) (x : FdbkS) : (s.withFdbk x).sense = s.sense := rfl
@[simp] theorem State.withFdbk_nib (s : State) (x : FdbkS) : (s.withFdbk x).nib = s.nib := rfl
@[simp] theorem State.withFdbk_ink (s : State) (x : FdbkS) : (s.withFdbk x).ink = s.ink := rfl
@[simp] theorem State.withFdbk_fdbk (s : State) (x : FdbkS) : (s.withFdbk x).fdbk = x := rfl
@[simp] theorem State.withFdbk_field (s : State) (x : FdbkS) : (s.withFdbk x).field = s.field := rfl
@[simp] theorem State.withFdbk_safe (s : State) (x : FdbkS) : (s.withFdbk x).safe = s.safe := rfl
@[simp] theorem State.withFdbk_store (s : State) (x : FdbkS) : (s.withFdbk x).store = s.store := rfl
@[simp] theorem State.withFdbk_net (s : State) (x : FdbkS) : (s.withFdbk x).net = s.net := rfl
@[simp] theorem State.withFdbk_can (s : State) (x : FdbkS) : (s.withFdbk x).can = s.can := rfl
@[simp] theorem State.withFdbk_sward (s : State) (x : FdbkS) : (s.withFdbk x).sward = s.sward := rfl
@[simp] theorem State.withFdbk_sheaf (s : State) (x : FdbkS) : (s.withFdbk x).sheaf = s.sheaf := rfl
@[simp] theorem State.withFdbk_nvm (s : State) (x : FdbkS) : (s.withFdbk x).nvm = s.nvm := rfl
@[simp] theorem State.withFdbk_keep (s : State) (x : FdbkS) : (s.withFdbk x).keep = s.keep := rfl
@[simp] theorem State.withFdbk_boot (s : State) (x : FdbkS) : (s.withFdbk x).boot = s.boot := rfl
@[simp] theorem State.withFdbk_free (s : State) (x : FdbkS) : (s.withFdbk x).free = s.free := rfl
@[simp] theorem State.withFdbk_pending (s : State) (x : FdbkS) : (s.withFdbk x).pending = s.pending := rfl
@[simp] theorem State.withFdbk_reg (s : State) (x : FdbkS) (a : Nat) : (s.withFdbk x).reg a = s.reg a := rfl
@[simp] theorem State.withFdbk_fld (s : State) (x : FdbkS) (f : RF) : (s.withFdbk x).fld f = s.fld f := rfl
@[simp] theorem State.withFdbk_flag (s : State) (x : FdbkS) (f : RF) : (s.withFdbk x).flag f = s.flag f := rfl
@[simp] theorem State.withFdbk_frc (s : State) (x : FdbkS) (a : Nat) : (s.withFdbk x).frc a = s.frc a := rfl
@[simp] theorem State.withFdbk_ffld (s : State) (x : FdbkS) (f : RF) : (s.withFdbk x).ffld f = s.ffld f := rfl
@[simp] theorem State.withFdbk_ctx (s : State) (x : FdbkS) (m : Nat) : (s.withFdbk x).ctx m = s.ctx m := rfl
@[simp] theorem State.withFdbk_grp (s : State) (x : FdbkS) (m : Nat) : (s.withFdbk x).grp m = s.grp m := rfl
@[simp] theorem State.withFdbk_port (s : State) (x : FdbkS) (m : Nat) : (s.withFdbk x).port m = s.port m := rfl

@[simp] theorem State.withField_regs (s : State) (x : FieldS) : (s.withField x).regs = s.regs := rfl
@[simp] theorem State.withField_force (s : State) (x : FieldS) : (s.withField x).force = s.force := rfl
@[simp] theorem State.withField_dt (s : State) (x : FieldS) : (s.withField x).dt = s.dt := rfl
@[simp] theorem State.withField_evt (s : State) (x : FieldS) : (s.withField x).evt = s.evt := rfl
@[simp] theorem State.withField_cmd (s : State) (x : FieldS) : (s.withField x).cmd = s.cmd := rfl
@[simp] theorem State.withField_phase (s : State) (x : FieldS) : (s.withField x).phase = s.phase := rfl
@[simp] theorem State.withField_reed (s : State) (x : FieldS) : (s.withField x).reed = s.reed := rfl
@[simp] theorem State.withField_clk (s : State) (x : FieldS) : (s.withField x).clk = s.clk := rfl
@[simp] theorem State.withField_loop (s : State) (x : FieldS) : (s.withField x).loop = s.loop := rfl
@[simp] theorem State.withField_sense (s : State) (x : FieldS) : (s.withField x).sense = s.sense := rfl
@[simp] theorem State.withField_nib (s : State) (x : FieldS) : (s.withField x).nib = s.nib := rfl
@[simp] theorem State.withField_ink (s : State) (x : FieldS) : (s.withField x).ink = s.ink := rfl
@[simp] theorem State.withField_fdbk (s : State) (x : FieldS) : (s.withField x).fdbk = s.fdbk := rfl
@[simp] theorem State.withField_field (s : State) (x : FieldS) : (s.withField x).field = x := rfl
@[simp] theorem State.withField_safe (s : State) (x : FieldS) : (s.withField x).safe = s.safe := rfl
@[simp] theorem State.withField_store (s : State) (x : FieldS) : (s.withField x).store = s.store := rfl
@[simp] theorem State.withField_net (s : State) (x : FieldS) : (s.withField x).net = s.net := rfl
@[simp] theorem State.withField_can (s : State) (x : FieldS) : (s.withField x).can = s.can := rfl
@[simp] theorem State.withField_sward (s : State) (x : FieldS) : (s.withField x).sward = s.sward := rfl
@[simp] theorem State.withField_sheaf (s : State) (x : FieldS) : (s.withField x).sheaf = s.sheaf := rfl
@[simp] theorem State.withField_nvm (s : State) (x : FieldS) : (s.withField x).nvm = s.nvm := rfl
@[simp] theorem State.withField_keep (s : State) (x : FieldS) : (s.withField x).keep = s.keep := rfl
@[simp] theorem State.withField_boot (s : State) (x : FieldS) : (s.withField x).boot = s.boot := rfl
@[simp] theorem State.withField_free (s : State) (x : FieldS) : (s.withField x).free = s.free := rfl
@[simp] theorem State.withField_pending (s : State) (x : FieldS) : (s.withField x).pending = s.pending := rfl
@[simp] theorem State.withField_reg (s : State) (x : FieldS) (a : Nat) : (s.withField x).reg a = s.reg a := rfl
@[simp] theorem State.withField_fld (s : State) (x : FieldS) (f : RF) : (s.withField x).fld f = s.fld f := rfl
@[simp] theorem State.withField_flag (s : State) (x : FieldS) (f : RF) : (s.withField x).flag f = s.flag f := rfl
@[simp] theorem State.withField_frc (s : State) (x : FieldS) (a : Nat) : (s.withField x).frc a = s.frc a := rfl
@[simp] theorem State.withField_ffld (s : State) (x : FieldS) (f : RF) : (s.withField x).ffld f = s.ffld f := rfl
@[simp] theorem State.withField_ctx (s : State) (x : FieldS) (m : Nat) : (s.withField x).ctx m = s.ctx m := rfl
@[simp] theorem State.withField_grp (s : State) (x : FieldS) (m : Nat) : (s.withField x).grp m = s.grp m := rfl
@[simp] theorem State.withField_port (s : State) (x : FieldS) (m : Nat) : (s.withField x).port m = s.port m := rfl

@[simp] theorem State.withSafe_regs (s : State) (x : SafeS) : (s.withSafe x).regs = s.regs := rfl
@[simp] theorem State.withSafe_force (s : State) (x : SafeS) : (s.withSafe x).force = s.force := rfl
@[simp] theorem State.withSafe_dt (s : State) (x : SafeS) : (s.withSafe x).dt = s.dt := rfl
@[simp] theorem State.withSafe_evt (s : State) (x : SafeS) : (s.withSafe x).evt = s.evt := rfl
@[simp] theorem State.withSafe_cmd (s : State) (x : SafeS) : (s.withSafe x).cmd = s.cmd := rfl
@[simp] theorem State.withSafe_phase (s : State) (x : SafeS) : (s.withSafe x).phase = s.phase := rfl
@[simp] theorem State.withSafe_reed (s : State) (x : SafeS) : (s.withSafe x).reed = s.reed := rfl
@[simp] theorem State.withSafe_clk (s : State) (x : SafeS) : (s.withSafe x).clk = s.clk := rfl
@[simp] theorem State.withSafe_loop (s : State) (x : SafeS) : (s.withSafe x).loop = s.loop := rfl
@[simp] theorem State.withSafe_sense (s : State) (x : SafeS) : (s.withSafe x).sense = s.sense := rfl
@[simp] theorem State.withSafe_nib (s : State) (x : SafeS) : (s.withSafe x).nib = s.nib := rfl
@[simp] theorem State.withSafe_ink (s : State) (x : SafeS) : (s.withSafe x).ink = s.ink := rfl
@[simp] theorem State.withSafe_fdbk (s : State) (x : SafeS) : (s.withSafe x).fdbk = s.fdbk := rfl
@[simp] theorem State.withSafe_field (s : State) (x : SafeS) : (s.withSafe x).field = s.field := rfl
@[simp] theorem State.withSafe_safe (s : State) (x : SafeS) : (s.withSafe x).safe = x := rfl
@[simp] theorem State.withSafe_store (s : State) (x : SafeS) : (s.withSafe x).store = s.store := rfl
@[simp] theorem State.withSafe_net (s : State) (x : SafeS) : (s.withSafe x).net = s.net := rfl
@[simp] theorem State.withSafe_can (s : State) (x : SafeS) : (s.withSafe x).can = s.can := rfl
@[simp] theorem State.withSafe_sward (s : State) (x : SafeS) : (s.withSafe x).sward = s.sward := rfl
@[simp] theorem State.withSafe_sheaf (s : State) (x : SafeS) : (s.withSafe x).sheaf = s.sheaf := rfl
@[simp] theorem State.withSafe_nvm (s : State) (x : SafeS) : (s.withSafe x).nvm = s.nvm := rfl
@[simp] theorem State.withSafe_keep (s : State) (x : SafeS) : (s.withSafe x).keep = s.keep := rfl
@[simp] theorem State.withSafe_boot (s : State) (x : SafeS) : (s.withSafe x).boot = s.boot := rfl
@[simp] theorem State.withSafe_free (s : State) (x : SafeS) : (s.withSafe x).free = s.free := rfl
@[simp] theorem State.withSafe_pending (s : State) (x : SafeS) : (s.withSafe x).pending = s.pending := rfl
@[simp] theorem State.withSafe_reg (s : State) (x : SafeS) (a : Nat) : (s.withSafe x).reg a = s.reg a := rfl
@[simp] theorem State.withSafe_fld (s : State) (x : SafeS) (f : RF) : (s.withSafe x).fld f = s.fld f := rfl
@[simp] theorem State.withSafe_flag (s : State) (x : SafeS) (f : RF) : (s.withSafe x).flag f = s.flag f := rfl
@[simp] theorem State.withSafe_frc (s : State) (x : SafeS) (a : Nat) : (s.withSafe x).frc a = s.frc a := rfl
@[simp] theorem State.withSafe_ffld (s : State) (x : SafeS) (f : RF) : (s.withSafe x).ffld f = s.ffld f := rfl
@[simp] theorem State.withSafe_ctx (s : State) (x : SafeS) (m : Nat) : (s.withSafe x).ctx m = s.ctx m := rfl
@[simp] theorem State.withSafe_grp (s : State) (x : SafeS) (m : Nat) : (s.withSafe x).grp m = s.grp m := rfl
@[simp] theorem State.withSafe_port (s : State) (x : SafeS) (m : Nat) : (s.withSafe x).port m = s.port m := rfl

@[simp] theorem State.withStore_regs (s : State) (x : StoreS) : (s.withStore x).regs = s.regs := rfl
@[simp] theorem State.withStore_force (s : State) (x : StoreS) : (s.withStore x).force = s.force := rfl
@[simp] theorem State.withStore_dt (s : State) (x : StoreS) : (s.withStore x).dt = s.dt := rfl
@[simp] theorem State.withStore_evt (s : State) (x : StoreS) : (s.withStore x).evt = s.evt := rfl
@[simp] theorem State.withStore_cmd (s : State) (x : StoreS) : (s.withStore x).cmd = s.cmd := rfl
@[simp] theorem State.withStore_phase (s : State) (x : StoreS) : (s.withStore x).phase = s.phase := rfl
@[simp] theorem State.withStore_reed (s : State) (x : StoreS) : (s.withStore x).reed = s.reed := rfl
@[simp] theorem State.withStore_clk (s : State) (x : StoreS) : (s.withStore x).clk = s.clk := rfl
@[simp] theorem State.withStore_loop (s : State) (x : StoreS) : (s.withStore x).loop = s.loop := rfl
@[simp] theorem State.withStore_sense (s : State) (x : StoreS) : (s.withStore x).sense = s.sense := rfl
@[simp] theorem State.withStore_nib (s : State) (x : StoreS) : (s.withStore x).nib = s.nib := rfl
@[simp] theorem State.withStore_ink (s : State) (x : StoreS) : (s.withStore x).ink = s.ink := rfl
@[simp] theorem State.withStore_fdbk (s : State) (x : StoreS) : (s.withStore x).fdbk = s.fdbk := rfl
@[simp] theorem State.withStore_field (s : State) (x : StoreS) : (s.withStore x).field = s.field := rfl
@[simp] theorem State.withStore_safe (s : State) (x : StoreS) : (s.withStore x).safe = s.safe := rfl
@[simp] theorem State.withStore_store (s : State) (x : StoreS) : (s.withStore x).store = x := rfl
@[simp] theorem State.withStore_net (s : State) (x : StoreS) : (s.withStore x).net = s.net := rfl
@[simp] theorem State.withStore_can (s : State) (x : StoreS) : (s.withStore x).can = s.can := rfl
@[simp] theorem State.withStore_sward (s : State) (x : StoreS) : (s.withStore x).sward = s.sward := rfl
@[simp] theorem State.withStore_sheaf (s : State) (x : StoreS) : (s.withStore x).sheaf = s.sheaf := rfl
@[simp] theorem State.withStore_nvm (s : State) (x : StoreS) : (s.withStore x).nvm = s.nvm := rfl
@[simp] theorem State.withStore_keep (s : State) (x : StoreS) : (s.withStore x).keep = s.keep := rfl
@[simp] theorem State.withStore_boot (s : State) (x : StoreS) : (s.withStore x).boot = s.boot := rfl
@[simp] theorem State.withStore_free (s : State) (x : StoreS) : (s.withStore x).free = s.free := rfl
@[simp] theorem State.withStore_pending (s : State) (x : StoreS) : (s.withStore x).pending = s.pending := rfl
@[simp] theorem State.withStore_reg (s : State) (x : StoreS) (a : Nat) : (s.withStore x).reg a = s.reg a := rfl
@[simp] theorem State.withStore_fld (s : State) (x : StoreS) (f : RF) : (s.withStore x).fld f = s.fld f := rfl
@[simp] theorem State.withStore_flag (s : State) (x : StoreS) (f : RF) : (s.withStore x).flag f = s.flag f := rfl
@[simp] theorem State.withStore_frc (s : State) (x : StoreS) (a : Nat) : (s.withStore x).frc a = s.frc a := rfl
@[simp] theorem State.withStore_ffld (s : State) (x : StoreS) (f : RF) : (s.withStore x).ffld f = s.ffld f := rfl
@[simp] theorem State.withStore_ctx (s : State) (x : StoreS) (m : Nat) : (s.withStore x).ctx m = s.ctx m := rfl
@[simp] theorem State.withStore_grp (s : State) (x : StoreS) (m : Nat) : (s.withStore x).grp m = s.grp m := rfl
@[simp] theorem State.withStore_port (s : State) (x : StoreS) (m : Nat) : (s.withStore x).port m = s.port m := rfl

@[simp] theorem State.withNet_regs (s : State) (x : NetS) : (s.withNet x).regs = s.regs := rfl
@[simp] theorem State.withNet_force (s : State) (x : NetS) : (s.withNet x).force = s.force := rfl
@[simp] theorem State.withNet_dt (s : State) (x : NetS) : (s.withNet x).dt = s.dt := rfl
@[simp] theorem State.withNet_evt (s : State) (x : NetS) : (s.withNet x).evt = s.evt := rfl
@[simp] theorem State.withNet_cmd (s : State) (x : NetS) : (s.withNet x).cmd = s.cmd := rfl
@[simp] theorem State.withNet_phase (s : State) (x : NetS) : (s.withNet x).phase = s.phase := rfl
@[simp] theorem State.withNet_reed (s : State) (x : NetS) : (s.withNet x).reed = s.reed := rfl
@[simp] theorem State.withNet_clk (s : State) (x : NetS) : (s.withNet x).clk = s.clk := rfl
@[simp] theorem State.withNet_loop (s : State) (x : NetS) : (s.withNet x).loop = s.loop := rfl
@[simp] theorem State.withNet_sense (s : State) (x : NetS) : (s.withNet x).sense = s.sense := rfl
@[simp] theorem State.withNet_nib (s : State) (x : NetS) : (s.withNet x).nib = s.nib := rfl
@[simp] theorem State.withNet_ink (s : State) (x : NetS) : (s.withNet x).ink = s.ink := rfl
@[simp] theorem State.withNet_fdbk (s : State) (x : NetS) : (s.withNet x).fdbk = s.fdbk := rfl
@[simp] theorem State.withNet_field (s : State) (x : NetS) : (s.withNet x).field = s.field := rfl
@[simp] theorem State.withNet_safe (s : State) (x : NetS) : (s.withNet x).safe = s.safe := rfl
@[simp] theorem State.withNet_store (s : State) (x : NetS) : (s.withNet x).store = s.store := rfl
@[simp] theorem State.withNet_net (s : State) (x : NetS) : (s.withNet x).net = x := rfl
@[simp] theorem State.withNet_can (s : State) (x : NetS) : (s.withNet x).can = s.can := rfl
@[simp] theorem State.withNet_sward (s : State) (x : NetS) : (s.withNet x).sward = s.sward := rfl
@[simp] theorem State.withNet_sheaf (s : State) (x : NetS) : (s.withNet x).sheaf = s.sheaf := rfl
@[simp] theorem State.withNet_nvm (s : State) (x : NetS) : (s.withNet x).nvm = s.nvm := rfl
@[simp] theorem State.withNet_keep (s : State) (x : NetS) : (s.withNet x).keep = s.keep := rfl
@[simp] theorem State.withNet_boot (s : State) (x : NetS) : (s.withNet x).boot = s.boot := rfl
@[simp] theorem State.withNet_free (s : State) (x : NetS) : (s.withNet x).free = s.free := rfl
@[simp] theorem State.withNet_pending (s : State) (x : NetS) : (s.withNet x).pending = s.pending := rfl
@[simp] theorem State.withNet_reg (s : State) (x : NetS) (a : Nat) : (s.withNet x).reg a = s.reg a := rfl
@[simp] theorem State.withNet_fld (s : State) (x : NetS) (f : RF) : (s.withNet x).fld f = s.fld f := rfl
@[simp] theorem State.withNet_flag (s : State) (x : NetS) (f : RF) : (s.withNet x).flag f = s.flag f := rfl
@[simp] theorem State.withNet_frc (s : State) (x : NetS) (a : Nat) : (s.withNet x).frc a = s.frc a := rfl
@[simp] theorem State.withNet_ffld (s : State) (x : NetS) (f : RF) : (s.withNet x).ffld f = s.ffld f := rfl
@[simp] theorem State.withNet_ctx (s : State) (x : NetS) (m : Nat) : (s.withNet x).ctx m = s.ctx m := rfl
@[simp] theorem State.withNet_grp (s : State) (x : NetS) (m : Nat) : (s.withNet x).grp m = s.grp m := rfl
@[simp] theorem State.withNet_port (s : State) (x : NetS) (m : Nat) : (s.withNet x).port m = s.port m := rfl

@[simp] theorem State.withCan_regs (s : State) (x : CanS) : (s.withCan x).regs = s.regs := rfl
@[simp] theorem State.withCan_force (s : State) (x : CanS) : (s.withCan x).force = s.force := rfl
@[simp] theorem State.withCan_dt (s : State) (x : CanS) : (s.withCan x).dt = s.dt := rfl
@[simp] theorem State.withCan_evt (s : State) (x : CanS) : (s.withCan x).evt = s.evt := rfl
@[simp] theorem State.withCan_cmd (s : State) (x : CanS) : (s.withCan x).cmd = s.cmd := rfl
@[simp] theorem State.withCan_phase (s : State) (x : CanS) : (s.withCan x).phase = s.phase := rfl
@[simp] theorem State.withCan_reed (s : State) (x : CanS) : (s.withCan x).reed = s.reed := rfl
@[simp] theorem State.withCan_clk (s : State) (x : CanS) : (s.withCan x).clk = s.clk := rfl
@[simp] theorem State.withCan_loop (s : State) (x : CanS) : (s.withCan x).loop = s.loop := rfl
@[simp] theorem State.withCan_sense (s : State) (x : CanS) : (s.withCan x).sense = s.sense := rfl
@[simp] theorem State.withCan_nib (s : State) (x : CanS) : (s.withCan x).nib = s.nib := rfl
@[simp] theorem State.withCan_ink (s : State) (x : CanS) : (s.withCan x).ink = s.ink := rfl
@[simp] theorem State.withCan_fdbk (s : State) (x : CanS) : (s.withCan x).fdbk = s.fdbk := rfl
@[simp] theorem State.withCan_field (s : State) (x : CanS) : (s.withCan x).field = s.field := rfl
@[simp] theorem State.withCan_safe (s : State) (x : CanS) : (s.withCan x).safe = s.safe := rfl
@[simp] theorem State.withCan_store (s : State) (x : CanS) : (s.withCan x).store = s.store := rfl
@[simp] theorem State.withCan_net (s : State) (x : CanS) : (s.withCan x).net = s.net := rfl
@[simp] theorem State.withCan_can (s : State) (x : CanS) : (s.withCan x).can = x := rfl
@[simp] theorem State.withCan_sward (s : State) (x : CanS) : (s.withCan x).sward = s.sward := rfl
@[simp] theorem State.withCan_sheaf (s : State) (x : CanS) : (s.withCan x).sheaf = s.sheaf := rfl
@[simp] theorem State.withCan_nvm (s : State) (x : CanS) : (s.withCan x).nvm = s.nvm := rfl
@[simp] theorem State.withCan_keep (s : State) (x : CanS) : (s.withCan x).keep = s.keep := rfl
@[simp] theorem State.withCan_boot (s : State) (x : CanS) : (s.withCan x).boot = s.boot := rfl
@[simp] theorem State.withCan_free (s : State) (x : CanS) : (s.withCan x).free = s.free := rfl
@[simp] theorem State.withCan_pending (s : State) (x : CanS) : (s.withCan x).pending = s.pending := rfl
@[simp] theorem State.withCan_reg (s : State) (x : CanS) (a : Nat) : (s.withCan x).reg a = s.reg a := rfl
@[simp] theorem State.withCan_fld (s : State) (x : CanS) (f : RF) : (s.withCan x).fld f = s.fld f := rfl
@[simp] theorem State.withCan_flag (s : State) (x : CanS) (f : RF) : (s.withCan x).flag f = s.flag f := rfl
@[simp] theorem State.withCan_frc (s : State) (x : CanS) (a : Nat) : (s.withCan x).frc a = s.frc a := rfl
@[simp] theorem State.withCan_ffld (s : State) (x : CanS) (f : RF) : (s.withCan x).ffld f = s.ffld f := rfl
@[simp] theorem State.withCan_ctx (s : State) (x : CanS) (m : Nat) : (s.withCan x).ctx m = s.ctx m := rfl
@[simp] theorem State.withCan_grp (s : State) (x : CanS) (m : Nat) : (s.withCan x).grp m = s.grp m := rfl
@[simp] theorem State.withCan_port (s : State) (x : CanS) (m : Nat) : (s.withCan x).port m = s.port m := rfl

@[simp] theorem State.withSward_regs (s : State) (x : SwardS) : (s.withSward x).regs = s.regs := rfl
@[simp] theorem State.withSward_force (s : State) (x : SwardS) : (s.withSward x).force = s.force := rfl
@[simp] theorem State.withSward_dt (s : State) (x : SwardS) : (s.withSward x).dt = s.dt := rfl
@[simp] theorem State.withSward_evt (s : State) (x : SwardS) : (s.withSward x).evt = s.evt := rfl
@[simp] theorem State.withSward_cmd (s : State) (x : SwardS) : (s.withSward x).cmd = s.cmd := rfl
@[simp] theorem State.withSward_phase (s : State) (x : SwardS) : (s.withSward x).phase = s.phase := rfl
@[simp] theorem State.withSward_reed (s : State) (x : SwardS) : (s.withSward x).reed = s.reed := rfl
@[simp] theorem State.withSward_clk (s : State) (x : SwardS) : (s.withSward x).clk = s.clk := rfl
@[simp] theorem State.withSward_loop (s : State) (x : SwardS) : (s.withSward x).loop = s.loop := rfl
@[simp] theorem State.withSward_sense (s : State) (x : SwardS) : (s.withSward x).sense = s.sense := rfl
@[simp] theorem State.withSward_nib (s : State) (x : SwardS) : (s.withSward x).nib = s.nib := rfl
@[simp] theorem State.withSward_ink (s : State) (x : SwardS) : (s.withSward x).ink = s.ink := rfl
@[simp] theorem State.withSward_fdbk (s : State) (x : SwardS) : (s.withSward x).fdbk = s.fdbk := rfl
@[simp] theorem State.withSward_field (s : State) (x : SwardS) : (s.withSward x).field = s.field := rfl
@[simp] theorem State.withSward_safe (s : State) (x : SwardS) : (s.withSward x).safe = s.safe := rfl
@[simp] theorem State.withSward_store (s : State) (x : SwardS) : (s.withSward x).store = s.store := rfl
@[simp] theorem State.withSward_net (s : State) (x : SwardS) : (s.withSward x).net = s.net := rfl
@[simp] theorem State.withSward_can (s : State) (x : SwardS) : (s.withSward x).can = s.can := rfl
@[simp] theorem State.withSward_sward (s : State) (x : SwardS) : (s.withSward x).sward = x := rfl
@[simp] theorem State.withSward_sheaf (s : State) (x : SwardS) : (s.withSward x).sheaf = s.sheaf := rfl
@[simp] theorem State.withSward_nvm (s : State) (x : SwardS) : (s.withSward x).nvm = s.nvm := rfl
@[simp] theorem State.withSward_keep (s : State) (x : SwardS) : (s.withSward x).keep = s.keep := rfl
@[simp] theorem State.withSward_boot (s : State) (x : SwardS) : (s.withSward x).boot = s.boot := rfl
@[simp] theorem State.withSward_free (s : State) (x : SwardS) : (s.withSward x).free = s.free := rfl
@[simp] theorem State.withSward_pending (s : State) (x : SwardS) : (s.withSward x).pending = s.pending := rfl
@[simp] theorem State.withSward_reg (s : State) (x : SwardS) (a : Nat) : (s.withSward x).reg a = s.reg a := rfl
@[simp] theorem State.withSward_fld (s : State) (x : SwardS) (f : RF) : (s.withSward x).fld f = s.fld f := rfl
@[simp] theorem State.withSward_flag (s : State) (x : SwardS) (f : RF) : (s.withSward x).flag f = s.flag f := rfl
@[simp] theorem State.withSward_frc (s : State) (x : SwardS) (a : Nat) : (s.withSward x).frc a = s.frc a := rfl
@[simp] theorem State.withSward_ffld (s : State) (x : SwardS) (f : RF) : (s.withSward x).ffld f = s.ffld f := rfl
@[simp] theorem State.withSward_ctx (s : State) (x : SwardS) (m : Nat) : (s.withSward x).ctx m = s.ctx m := rfl
@[simp] theorem State.withSward_grp (s : State) (x : SwardS) (m : Nat) : (s.withSward x).grp m = s.grp m := rfl
@[simp] theorem State.withSward_port (s : State) (x : SwardS) (m : Nat) : (s.withSward x).port m = s.port m := rfl

@[simp] theorem State.withSheaf_regs (s : State) (x : SheafS) : (s.withSheaf x).regs = s.regs := rfl
@[simp] theorem State.withSheaf_force (s : State) (x : SheafS) : (s.withSheaf x).force = s.force := rfl
@[simp] theorem State.withSheaf_dt (s : State) (x : SheafS) : (s.withSheaf x).dt = s.dt := rfl
@[simp] theorem State.withSheaf_evt (s : State) (x : SheafS) : (s.withSheaf x).evt = s.evt := rfl
@[simp] theorem State.withSheaf_cmd (s : State) (x : SheafS) : (s.withSheaf x).cmd = s.cmd := rfl
@[simp] theorem State.withSheaf_phase (s : State) (x : SheafS) : (s.withSheaf x).phase = s.phase := rfl
@[simp] theorem State.withSheaf_reed (s : State) (x : SheafS) : (s.withSheaf x).reed = s.reed := rfl
@[simp] theorem State.withSheaf_clk (s : State) (x : SheafS) : (s.withSheaf x).clk = s.clk := rfl
@[simp] theorem State.withSheaf_loop (s : State) (x : SheafS) : (s.withSheaf x).loop = s.loop := rfl
@[simp] theorem State.withSheaf_sense (s : State) (x : SheafS) : (s.withSheaf x).sense = s.sense := rfl
@[simp] theorem State.withSheaf_nib (s : State) (x : SheafS) : (s.withSheaf x).nib = s.nib := rfl
@[simp] theorem State.withSheaf_ink (s : State) (x : SheafS) : (s.withSheaf x).ink = s.ink := rfl
@[simp] theorem State.withSheaf_fdbk (s : State) (x : SheafS) : (s.withSheaf x).fdbk = s.fdbk := rfl
@[simp] theorem State.withSheaf_field (s : State) (x : SheafS) : (s.withSheaf x).field = s.field := rfl
@[simp] theorem State.withSheaf_safe (s : State) (x : SheafS) : (s.withSheaf x).safe = s.safe := rfl
@[simp] theorem State.withSheaf_store (s : State) (x : SheafS) : (s.withSheaf x).store = s.store := rfl
@[simp] theorem State.withSheaf_net (s : State) (x : SheafS) : (s.withSheaf x).net = s.net := rfl
@[simp] theorem State.withSheaf_can (s : State) (x : SheafS) : (s.withSheaf x).can = s.can := rfl
@[simp] theorem State.withSheaf_sward (s : State) (x : SheafS) : (s.withSheaf x).sward = s.sward := rfl
@[simp] theorem State.withSheaf_sheaf (s : State) (x : SheafS) : (s.withSheaf x).sheaf = x := rfl
@[simp] theorem State.withSheaf_nvm (s : State) (x : SheafS) : (s.withSheaf x).nvm = s.nvm := rfl
@[simp] theorem State.withSheaf_keep (s : State) (x : SheafS) : (s.withSheaf x).keep = s.keep := rfl
@[simp] theorem State.withSheaf_boot (s : State) (x : SheafS) : (s.withSheaf x).boot = s.boot := rfl
@[simp] theorem State.withSheaf_free (s : State) (x : SheafS) : (s.withSheaf x).free = s.free := rfl
@[simp] theorem State.withSheaf_pending (s : State) (x : SheafS) : (s.withSheaf x).pending = s.pending := rfl
@[simp] theorem State.withSheaf_reg (s : State) (x : SheafS) (a : Nat) : (s.withSheaf x).reg a = s.reg a := rfl
@[simp] theorem State.withSheaf_fld (s : State) (x : SheafS) (f : RF) : (s.withSheaf x).fld f = s.fld f := rfl
@[simp] theorem State.withSheaf_flag (s : State) (x : SheafS) (f : RF) : (s.withSheaf x).flag f = s.flag f := rfl
@[simp] theorem State.withSheaf_frc (s : State) (x : SheafS) (a : Nat) : (s.withSheaf x).frc a = s.frc a := rfl
@[simp] theorem State.withSheaf_ffld (s : State) (x : SheafS) (f : RF) : (s.withSheaf x).ffld f = s.ffld f := rfl
@[simp] theorem State.withSheaf_ctx (s : State) (x : SheafS) (m : Nat) : (s.withSheaf x).ctx m = s.ctx m := rfl
@[simp] theorem State.withSheaf_grp (s : State) (x : SheafS) (m : Nat) : (s.withSheaf x).grp m = s.grp m := rfl
@[simp] theorem State.withSheaf_port (s : State) (x : SheafS) (m : Nat) : (s.withSheaf x).port m = s.port m := rfl

@[simp] theorem State.withNvm_regs (s : State) (x : NvmS) : (s.withNvm x).regs = s.regs := rfl
@[simp] theorem State.withNvm_force (s : State) (x : NvmS) : (s.withNvm x).force = s.force := rfl
@[simp] theorem State.withNvm_dt (s : State) (x : NvmS) : (s.withNvm x).dt = s.dt := rfl
@[simp] theorem State.withNvm_evt (s : State) (x : NvmS) : (s.withNvm x).evt = s.evt := rfl
@[simp] theorem State.withNvm_cmd (s : State) (x : NvmS) : (s.withNvm x).cmd = s.cmd := rfl
@[simp] theorem State.withNvm_phase (s : State) (x : NvmS) : (s.withNvm x).phase = s.phase := rfl
@[simp] theorem State.withNvm_reed (s : State) (x : NvmS) : (s.withNvm x).reed = s.reed := rfl
@[simp] theorem State.withNvm_clk (s : State) (x : NvmS) : (s.withNvm x).clk = s.clk := rfl
@[simp] theorem State.withNvm_loop (s : State) (x : NvmS) : (s.withNvm x).loop = s.loop := rfl
@[simp] theorem State.withNvm_sense (s : State) (x : NvmS) : (s.withNvm x).sense = s.sense := rfl
@[simp] theorem State.withNvm_nib (s : State) (x : NvmS) : (s.withNvm x).nib = s.nib := rfl
@[simp] theorem State.withNvm_ink (s : State) (x : NvmS) : (s.withNvm x).ink = s.ink := rfl
@[simp] theorem State.withNvm_fdbk (s : State) (x : NvmS) : (s.withNvm x).fdbk = s.fdbk := rfl
@[simp] theorem State.withNvm_field (s : State) (x : NvmS) : (s.withNvm x).field = s.field := rfl
@[simp] theorem State.withNvm_safe (s : State) (x : NvmS) : (s.withNvm x).safe = s.safe := rfl
@[simp] theorem State.withNvm_store (s : State) (x : NvmS) : (s.withNvm x).store = s.store := rfl
@[simp] theorem State.withNvm_net (s : State) (x : NvmS) : (s.withNvm x).net = s.net := rfl
@[simp] theorem State.withNvm_can (s : State) (x : NvmS) : (s.withNvm x).can = s.can := rfl
@[simp] theorem State.withNvm_sward (s : State) (x : NvmS) : (s.withNvm x).sward = s.sward := rfl
@[simp] theorem State.withNvm_sheaf (s : State) (x : NvmS) : (s.withNvm x).sheaf = s.sheaf := rfl
@[simp] theorem State.withNvm_nvm (s : State) (x : NvmS) : (s.withNvm x).nvm = x := rfl
@[simp] theorem State.withNvm_keep (s : State) (x : NvmS) : (s.withNvm x).keep = s.keep := rfl
@[simp] theorem State.withNvm_boot (s : State) (x : NvmS) : (s.withNvm x).boot = s.boot := rfl
@[simp] theorem State.withNvm_free (s : State) (x : NvmS) : (s.withNvm x).free = s.free := rfl
@[simp] theorem State.withNvm_pending (s : State) (x : NvmS) : (s.withNvm x).pending = s.pending := rfl
@[simp] theorem State.withNvm_reg (s : State) (x : NvmS) (a : Nat) : (s.withNvm x).reg a = s.reg a := rfl
@[simp] theorem State.withNvm_fld (s : State) (x : NvmS) (f : RF) : (s.withNvm x).fld f = s.fld f := rfl
@[simp] theorem State.withNvm_flag (s : State) (x : NvmS) (f : RF) : (s.withNvm x).flag f = s.flag f := rfl
@[simp] theorem State.withNvm_frc (s : State) (x : NvmS) (a : Nat) : (s.withNvm x).frc a = s.frc a := rfl
@[simp] theorem State.withNvm_ffld (s : State) (x : NvmS) (f : RF) : (s.withNvm x).ffld f = s.ffld f := rfl
@[simp] theorem State.withNvm_ctx (s : State) (x : NvmS) (m : Nat) : (s.withNvm x).ctx m = s.ctx m := rfl
@[simp] theorem State.withNvm_grp (s : State) (x : NvmS) (m : Nat) : (s.withNvm x).grp m = s.grp m := rfl
@[simp] theorem State.withNvm_port (s : State) (x : NvmS) (m : Nat) : (s.withNvm x).port m = s.port m := rfl

@[simp] theorem State.withKeep_regs (s : State) (x : KeepS) : (s.withKeep x).regs = s.regs := rfl
@[simp] theorem State.withKeep_force (s : State) (x : KeepS) : (s.withKeep x).force = s.force := rfl
@[simp] theorem State.withKeep_dt (s : State) (x : KeepS) : (s.withKeep x).dt = s.dt := rfl
@[simp] theorem State.withKeep_evt (s : State) (x : KeepS) : (s.withKeep x).evt = s.evt := rfl
@[simp] theorem State.withKeep_cmd (s : State) (x : KeepS) : (s.withKeep x).cmd = s.cmd := rfl
@[simp] theorem State.withKeep_phase (s : State) (x : KeepS) : (s.withKeep x).phase = s.phase := rfl
@[simp] theorem State.withKeep_reed (s : State) (x : KeepS) : (s.withKeep x).reed = s.reed := rfl
@[simp] theorem State.withKeep_clk (s : State) (x : KeepS) : (s.withKeep x).clk = s.clk := rfl
@[simp] theorem State.withKeep_loop (s : State) (x : KeepS) : (s.withKeep x).loop = s.loop := rfl
@[simp] theorem State.withKeep_sense (s : State) (x : KeepS) : (s.withKeep x).sense = s.sense := rfl
@[simp] theorem State.withKeep_nib (s : State) (x : KeepS) : (s.withKeep x).nib = s.nib := rfl
@[simp] theorem State.withKeep_ink (s : State) (x : KeepS) : (s.withKeep x).ink = s.ink := rfl
@[simp] theorem State.withKeep_fdbk (s : State) (x : KeepS) : (s.withKeep x).fdbk = s.fdbk := rfl
@[simp] theorem State.withKeep_field (s : State) (x : KeepS) : (s.withKeep x).field = s.field := rfl
@[simp] theorem State.withKeep_safe (s : State) (x : KeepS) : (s.withKeep x).safe = s.safe := rfl
@[simp] theorem State.withKeep_store (s : State) (x : KeepS) : (s.withKeep x).store = s.store := rfl
@[simp] theorem State.withKeep_net (s : State) (x : KeepS) : (s.withKeep x).net = s.net := rfl
@[simp] theorem State.withKeep_can (s : State) (x : KeepS) : (s.withKeep x).can = s.can := rfl
@[simp] theorem State.withKeep_sward (s : State) (x : KeepS) : (s.withKeep x).sward = s.sward := rfl
@[simp] theorem State.withKeep_sheaf (s : State) (x : KeepS) : (s.withKeep x).sheaf = s.sheaf := rfl
@[simp] theorem State.withKeep_nvm (s : State) (x : KeepS) : (s.withKeep x).nvm = s.nvm := rfl
@[simp] theorem State.withKeep_keep (s : State) (x : KeepS) : (s.withKeep x).keep = x := rfl
@[simp] theorem State.withKeep_boot (s : State) (x : KeepS) : (s.withKeep x).boot = s.boot := rfl
@[simp] theorem State.withKeep_free (s : State) (x : KeepS) : (s.withKeep x).free = s.free := rfl
@[simp] theorem State.withKeep_pending (s : State) (x : KeepS) : (s.withKeep x).pending = s.pending := rfl
@[simp] theorem State.withKeep_reg (s : State) (x : KeepS) (a : Nat) : (s.withKeep x).reg a = s.reg a := rfl
@[simp] theorem State.withKeep_fld (s : State) (x : KeepS) (f : RF) : (s.withKeep x).fld f = s.fld f := rfl
@[simp] theorem State.withKeep_flag (s : State) (x : KeepS) (f : RF) : (s.withKeep x).flag f = s.flag f := rfl
@[simp] theorem State.withKeep_frc (s : State) (x : KeepS) (a : Nat) : (s.withKeep x).frc a = s.frc a := rfl
@[simp] theorem State.withKeep_ffld (s : State) (x : KeepS) (f : RF) : (s.withKeep x).ffld f = s.ffld f := rfl
@[simp] theorem State.withKeep_ctx (s : State) (x : KeepS) (m : Nat) : (s.withKeep x).ctx m = s.ctx m := rfl
@[simp] theorem State.withKeep_grp (s : State) (x : KeepS) (m : Nat) : (s.withKeep x).grp m = s.grp m := rfl
@[simp] theorem State.withKeep_port (s : State) (x : KeepS) (m : Nat) : (s.withKeep x).port m = s.port m := rfl

@[simp] theorem State.withBoot_regs (s : State) (x : BootS) : (s.withBoot x).regs = s.regs := rfl
@[simp] theorem State.withBoot_force (s : State) (x : BootS) : (s.withBoot x).force = s.force := rfl
@[simp] theorem State.withBoot_dt (s : State) (x : BootS) : (s.withBoot x).dt = s.dt := rfl
@[simp] theorem State.withBoot_evt (s : State) (x : BootS) : (s.withBoot x).evt = s.evt := rfl
@[simp] theorem State.withBoot_cmd (s : State) (x : BootS) : (s.withBoot x).cmd = s.cmd := rfl
@[simp] theorem State.withBoot_phase (s : State) (x : BootS) : (s.withBoot x).phase = s.phase := rfl
@[simp] theorem State.withBoot_reed (s : State) (x : BootS) : (s.withBoot x).reed = s.reed := rfl
@[simp] theorem State.withBoot_clk (s : State) (x : BootS) : (s.withBoot x).clk = s.clk := rfl
@[simp] theorem State.withBoot_loop (s : State) (x : BootS) : (s.withBoot x).loop = s.loop := rfl
@[simp] theorem State.withBoot_sense (s : State) (x : BootS) : (s.withBoot x).sense = s.sense := rfl
@[simp] theorem State.withBoot_nib (s : State) (x : BootS) : (s.withBoot x).nib = s.nib := rfl
@[simp] theorem State.withBoot_ink (s : State) (x : BootS) : (s.withBoot x).ink = s.ink := rfl
@[simp] theorem State.withBoot_fdbk (s : State) (x : BootS) : (s.withBoot x).fdbk = s.fdbk := rfl
@[simp] theorem State.withBoot_field (s : State) (x : BootS) : (s.withBoot x).field = s.field := rfl
@[simp] theorem State.withBoot_safe (s : State) (x : BootS) : (s.withBoot x).safe = s.safe := rfl
@[simp] theorem State.withBoot_store (s : State) (x : BootS) : (s.withBoot x).store = s.store := rfl
@[simp] theorem State.withBoot_net (s : State) (x : BootS) : (s.withBoot x).net = s.net := rfl
@[simp] theorem State.withBoot_can (s : State) (x : BootS) : (s.withBoot x).can = s.can := rfl
@[simp] theorem State.withBoot_sward (s : State) (x : BootS) : (s.withBoot x).sward = s.sward := rfl
@[simp] theorem State.withBoot_sheaf (s : State) (x : BootS) : (s.withBoot x).sheaf = s.sheaf := rfl
@[simp] theorem State.withBoot_nvm (s : State) (x : BootS) : (s.withBoot x).nvm = s.nvm := rfl
@[simp] theorem State.withBoot_keep (s : State) (x : BootS) : (s.withBoot x).keep = s.keep := rfl
@[simp] theorem State.withBoot_boot (s : State) (x : BootS) : (s.withBoot x).boot = x := rfl
@[simp] theorem State.withBoot_free (s : State) (x : BootS) : (s.withBoot x).free = s.free := rfl
@[simp] theorem State.withBoot_pending (s : State) (x : BootS) : (s.withBoot x).pending = s.pending := rfl
@[simp] theorem State.withBoot_reg (s : State) (x : BootS) (a : Nat) : (s.withBoot x).reg a = s.reg a := rfl
@[simp] theorem State.withBoot_fld (s : State) (x : BootS) (f : RF) : (s.withBoot x).fld f = s.fld f := rfl
@[simp] theorem State.withBoot_flag (s : State) (x : BootS) (f : RF) : (s.withBoot x).flag f = s.flag f := rfl
@[simp] theorem State.withBoot_frc (s : State) (x : BootS) (a : Nat) : (s.withBoot x).frc a = s.frc a := rfl
@[simp] theorem State.withBoot_ffld (s : State) (x : BootS) (f : RF) : (s.withBoot x).ffld f = s.ffld f := rfl
@[simp] theorem State.withBoot_ctx (s : State) (x : BootS) (m : Nat) : (s.withBoot x).ctx m = s.ctx m := rfl
@[simp] theorem State.withBoot_grp (s : State) (x : BootS) (m : Nat) : (s.withBoot x).grp m = s.grp m := rfl
@[simp] theorem State.withBoot_port (s : State) (x : BootS) (m : Nat) : (s.withBoot x).port m = s.port m := rfl

@[simp] theorem State.withFree_regs (s : State) (x : Nat) : (s.withFree x).regs = s.regs := rfl
@[simp] theorem State.withFree_force (s : State) (x : Nat) : (s.withFree x).force = s.force := rfl
@[simp] theorem State.withFree_dt (s : State) (x : Nat) : (s.withFree x).dt = s.dt := rfl
@[simp] theorem State.withFree_evt (s : State) (x : Nat) : (s.withFree x).evt = s.evt := rfl
@[simp] theorem State.withFree_cmd (s : State) (x : Nat) : (s.withFree x).cmd = s.cmd := rfl
@[simp] theorem State.withFree_phase (s : State) (x : Nat) : (s.withFree x).phase = s.phase := rfl
@[simp] theorem State.withFree_reed (s : State) (x : Nat) : (s.withFree x).reed = s.reed := rfl
@[simp] theorem State.withFree_clk (s : State) (x : Nat) : (s.withFree x).clk = s.clk := rfl
@[simp] theorem State.withFree_loop (s : State) (x : Nat) : (s.withFree x).loop = s.loop := rfl
@[simp] theorem State.withFree_sense (s : State) (x : Nat) : (s.withFree x).sense = s.sense := rfl
@[simp] theorem State.withFree_nib (s : State) (x : Nat) : (s.withFree x).nib = s.nib := rfl
@[simp] theorem State.withFree_ink (s : State) (x : Nat) : (s.withFree x).ink = s.ink := rfl
@[simp] theorem State.withFree_fdbk (s : State) (x : Nat) : (s.withFree x).fdbk = s.fdbk := rfl
@[simp] theorem State.withFree_field (s : State) (x : Nat) : (s.withFree x).field = s.field := rfl
@[simp] theorem State.withFree_safe (s : State) (x : Nat) : (s.withFree x).safe = s.safe := rfl
@[simp] theorem State.withFree_store (s : State) (x : Nat) : (s.withFree x).store = s.store := rfl
@[simp] theorem State.withFree_net (s : State) (x : Nat) : (s.withFree x).net = s.net := rfl
@[simp] theorem State.withFree_can (s : State) (x : Nat) : (s.withFree x).can = s.can := rfl
@[simp] theorem State.withFree_sward (s : State) (x : Nat) : (s.withFree x).sward = s.sward := rfl
@[simp] theorem State.withFree_sheaf (s : State) (x : Nat) : (s.withFree x).sheaf = s.sheaf := rfl
@[simp] theorem State.withFree_nvm (s : State) (x : Nat) : (s.withFree x).nvm = s.nvm := rfl
@[simp] theorem State.withFree_keep (s : State) (x : Nat) : (s.withFree x).keep = s.keep := rfl
@[simp] theorem State.withFree_boot (s : State) (x : Nat) : (s.withFree x).boot = s.boot := rfl
@[simp] theorem State.withFree_free (s : State) (x : Nat) : (s.withFree x).free = x := rfl
@[simp] theorem State.withFree_pending (s : State) (x : Nat) : (s.withFree x).pending = s.pending := rfl
@[simp] theorem State.withFree_reg (s : State) (x : Nat) (a : Nat) : (s.withFree x).reg a = s.reg a := rfl
@[simp] theorem State.withFree_fld (s : State) (x : Nat) (f : RF) : (s.withFree x).fld f = s.fld f := rfl
@[simp] theorem State.withFree_flag (s : State) (x : Nat) (f : RF) : (s.withFree x).flag f = s.flag f := rfl
@[simp] theorem State.withFree_frc (s : State) (x : Nat) (a : Nat) : (s.withFree x).frc a = s.frc a := rfl
@[simp] theorem State.withFree_ffld (s : State) (x : Nat) (f : RF) : (s.withFree x).ffld f = s.ffld f := rfl
@[simp] theorem State.withFree_ctx (s : State) (x : Nat) (m : Nat) : (s.withFree x).ctx m = s.ctx m := rfl
@[simp] theorem State.withFree_grp (s : State) (x : Nat) (m : Nat) : (s.withFree x).grp m = s.grp m := rfl
@[simp] theorem State.withFree_port (s : State) (x : Nat) (m : Nat) : (s.withFree x).port m = s.port m := rfl

@[simp] theorem State.withPending_regs (s : State) (x : List Instr) : (s.withPending x).regs = s.regs := rfl
@[simp] theorem State.withPending_force (s : State) (x : List Instr) : (s.withPending x).force = s.force := rfl
@[simp] theorem State.withPending_dt (s : State) (x : List Instr) : (s.withPending x).dt = s.dt := rfl
@[simp] theorem State.withPending_evt (s : State) (x : List Instr) : (s.withPending x).evt = s.evt := rfl
@[simp] theorem State.withPending_cmd (s : State) (x : List Instr) : (s.withPending x).cmd = s.cmd := rfl
@[simp] theorem State.withPending_phase (s : State) (x : List Instr) : (s.withPending x).phase = s.phase := rfl
@[simp] theorem State.withPending_reed (s : State) (x : List Instr) : (s.withPending x).reed = s.reed := rfl
@[simp] theorem State.withPending_clk (s : State) (x : List Instr) : (s.withPending x).clk = s.clk := rfl
@[simp] theorem State.withPending_loop (s : State) (x : List Instr) : (s.withPending x).loop = s.loop := rfl
@[simp] theorem State.withPending_sense (s : State) (x : List Instr) : (s.withPending x).sense = s.sense := rfl
@[simp] theorem State.withPending_nib (s : State) (x : List Instr) : (s.withPending x).nib = s.nib := rfl
@[simp] theorem State.withPending_ink (s : State) (x : List Instr) : (s.withPending x).ink = s.ink := rfl
@[simp] theorem State.withPending_fdbk (s : State) (x : List Instr) : (s.withPending x).fdbk = s.fdbk := rfl
@[simp] theorem State.withPending_field (s : State) (x : List Instr) : (s.withPending x).field = s.field := rfl
@[simp] theorem State.withPending_safe (s : State) (x : List Instr) : (s.withPending x).safe = s.safe := rfl
@[simp] theorem State.withPending_store (s : State) (x : List Instr) : (s.withPending x).store = s.store := rfl
@[simp] theorem State.withPending_net (s : State) (x : List Instr) : (s.withPending x).net = s.net := rfl
@[simp] theorem State.withPending_can (s : State) (x : List Instr) : (s.withPending x).can = s.can := rfl
@[simp] theorem State.withPending_sward (s : State) (x : List Instr) : (s.withPending x).sward = s.sward := rfl
@[simp] theorem State.withPending_sheaf (s : State) (x : List Instr) : (s.withPending x).sheaf = s.sheaf := rfl
@[simp] theorem State.withPending_nvm (s : State) (x : List Instr) : (s.withPending x).nvm = s.nvm := rfl
@[simp] theorem State.withPending_keep (s : State) (x : List Instr) : (s.withPending x).keep = s.keep := rfl
@[simp] theorem State.withPending_boot (s : State) (x : List Instr) : (s.withPending x).boot = s.boot := rfl
@[simp] theorem State.withPending_free (s : State) (x : List Instr) : (s.withPending x).free = s.free := rfl
@[simp] theorem State.withPending_pending (s : State) (x : List Instr) : (s.withPending x).pending = x := rfl
@[simp] theorem State.withPending_reg (s : State) (x : List Instr) (a : Nat) : (s.withPending x).reg a = s.reg a := rfl
@[simp] theorem State.withPending_fld (s : State) (x : List Instr) (f : RF) : (s.withPending x).fld f = s.fld f := rfl
@[simp] theorem State.withPending_flag (s : State) (x : List Instr) (f : RF) : (s.withPending x).flag f = s.flag f := rfl
@[simp] theorem State.withPending_frc (s : State) (x : List Instr) (a : Nat) : (s.withPending x).frc a = s.frc a := rfl
@[simp] theorem State.withPending_ffld (s : State) (x : List Instr) (f : RF) : (s.withPending x).ffld f = s.ffld f := rfl
@[simp] theorem State.withPending_ctx (s : State) (x : List Instr) (m : Nat) : (s.withPending x).ctx m = s.ctx m := rfl
@[simp] theorem State.withPending_grp (s : State) (x : List Instr) (m : Nat) : (s.withPending x).grp m = s.grp m := rfl
@[simp] theorem State.withPending_port (s : State) (x : List Instr) (m : Nat) : (s.withPending x).port m = s.port m := rfl

/-! ### Reads after writes -/

/-- A register reads as the value it was given. -/
@[simp] theorem State.reg_setReg_same (s : State) (a : Nat) (x : Word) : (s.setReg a x).reg a = x :=
  tblGet_put_same s.regs a x (resetWord a)

/-- The other registers are unchanged. -/
theorem State.reg_setReg_ne (s : State) (a b : Nat) (x : Word) (h : a ≠ b) : (s.setReg a x).reg b = s.reg b :=
  tblGet_put_ne s.regs a b x (resetWord a) (resetWord b) h

/-- A register read after any one write. -/
theorem State.reg_setReg (s : State) (a b : Nat) (x : Word) : (s.setReg a x).reg b = if a = b then x else s.reg b := by
  by_cases h : a = b
  · subst h; simp
  · simp [h, State.reg_setReg_ne]

/-- The register a field was given a value in. -/
@[simp] theorem State.reg_setFld_same (s : State) (f : RF) (v : Nat) : (s.setFld f v).reg f.addr = withBits (s.reg f.addr) f.lo f.w v := by
  simp [State.setFld]

/-- The other registers. -/
theorem State.reg_setFld_ne (s : State) (f : RF) (v b : Nat) (h : f.addr ≠ b) : (s.setFld f v).reg b = s.reg b :=
  State.reg_setReg_ne _ _ _ _ h

theorem State.reg_setFlag_ne (s : State) (f : RF) (v : Bool) (b : Nat) (h : f.addr ≠ b) : (s.setFlag f v).reg b = s.reg b :=
  State.reg_setFld_ne _ _ _ _ h

theorem State.reg_cntSat_ne (s : State) (f : RF) (b : Nat) (h : f.addr ≠ b) : (s.cntSat f).reg b = s.reg b :=
  State.reg_setFld_ne _ _ _ _ h

theorem State.reg_cntWrap_ne (s : State) (f : RF) (b : Nat) (h : f.addr ≠ b) : (s.cntWrap f).reg b = s.reg b :=
  State.reg_setFld_ne _ _ _ _ h

/-- A field reads as the value it was given, reduced to its width. -/
theorem State.fld_setFld_same (s : State) (f : RF) (v : Nat) (h : f.lo + f.w ≤ 32) : (s.setFld f v).fld f = v % 2 ^ f.w := by
  simp only [State.fld, State.reg_setFld_same]
  exact bitsOf_withBits_same _ _ _ _ h

/-- A field of another register. -/
theorem State.fld_setFld_ne (s : State) (f g : RF) (v : Nat) (h : f.addr ≠ g.addr) : (s.setFld f v).fld g = s.fld g := by
  simp only [State.fld, State.reg_setFld_ne _ _ _ _ h]

/-- Another field of the same register. -/
theorem State.fld_setFld_apart (s : State) (f g : RF) (v : Nat) (ha : f.addr = g.addr) (hg : g.lo + g.w ≤ 32)
    (h : f.lo + f.w ≤ g.lo ∨ g.lo + g.w ≤ f.lo) : (s.setFld f v).fld g = s.fld g := by
  simp only [State.fld, ← ha, State.reg_setFld_same]
  exact bitsOf_withBits_apart _ _ _ _ _ _ hg h

/-- A field after a whole register was written. -/
theorem State.fld_setReg (s : State) (a : Nat) (x : Word) (g : RF) :
    (s.setReg a x).fld g = if a = g.addr then bitsOf x g.lo g.w else s.fld g := by
  simp only [State.fld, State.reg_setReg]
  split <;> rfl

/-- A flag reads as it was set. -/
theorem State.flag_setFlag_same (s : State) (f : RF) (b : Bool) (h : f.lo + f.w ≤ 32) (hw : f.w = 1) : (s.setFlag f b).flag f = b := by
  simp only [State.flag, State.setFlag, State.fld_setFld_same _ _ _ h, hw]
  cases b <;> rfl

/-- A flag of another register, or another bit, after a field was written. -/
theorem State.flag_setFld_ne (s : State) (f g : RF) (v : Nat) (h : f.addr ≠ g.addr) : (s.setFld f v).flag g = s.flag g := by
  simp only [State.flag, State.fld_setFld_ne _ _ _ _ h]

theorem State.flag_setFlag_ne (s : State) (f g : RF) (v : Bool) (h : f.addr ≠ g.addr) : (s.setFlag f v).flag g = s.flag g :=
  State.flag_setFld_ne _ _ _ _ h

theorem State.flag_setFlag_apart (s : State) (f g : RF) (v : Bool) (ha : f.addr = g.addr) (hg : g.lo + g.w ≤ 32)
    (h : f.lo + f.w ≤ g.lo ∨ g.lo + g.w ≤ f.lo) : (s.setFlag f v).flag g = s.flag g := by
  simp only [State.flag, State.setFlag, State.fld_setFld_apart _ _ _ _ ha hg h]

theorem State.fld_setFlag_ne (s : State) (f g : RF) (v : Bool) (h : f.addr ≠ g.addr) : (s.setFlag f v).fld g = s.fld g :=
  State.fld_setFld_ne _ _ _ _ h

/-- A saturating counter counts up by one and stops at its highest value. -/
theorem State.fld_cntSat_same (s : State) (f : RF) (h : f.lo + f.w ≤ 32) : (s.cntSat f).fld f = satInc f.w (s.fld f) := by
  rw [State.cntSat, State.fld_setFld_same _ _ _ h]
  exact Nat.mod_eq_of_lt (satInc_lt f.w _)

/-- A wrapping counter counts up by one modulo its width. -/
theorem State.fld_cntWrap_same (s : State) (f : RF) (h : f.lo + f.w ≤ 32) : (s.cntWrap f).fld f = (s.fld f + 1) % 2 ^ f.w := by
  rw [State.cntWrap, State.fld_setFld_same _ _ _ h]

/-- A 64-bit quantity reads as it was written. -/
@[simp] theorem State.reg64_setReg64_same (s : State) (a : Nat) (x : Tick) : (s.setReg64 a x).reg64 a = x := by
  have h : a + 4 ≠ a := by omega
  simp only [State.reg64, State.setReg64, State.reg_setReg_same, State.reg_setReg_ne _ _ _ _ h]
  ext i hi
  simp only [join64, lo32, hi32, BitVec.getElem_or, BitVec.getElem_shiftLeft, BitVec.getElem_setWidth, BitVec.getLsbD_setWidth,
    BitVec.getLsbD_ushiftRight]
  by_cases h1 : i < 32
  · simp [h1, BitVec.getLsbD_eq_getElem hi]
  · have h2 : i - 32 < 32 := by omega
    have h3 : 32 + (i - 32) = i := by omega
    simp [h1, h2, h3, BitVec.getLsbD_eq_getElem hi]

/-- The value in force of a shadowed register reads as it was given. -/
@[simp] theorem State.frc_setFrc_same (s : State) (a : Nat) (x : Word) : (s.setFrc a x).frc a = x :=
  tblGet_put_same s.force a x (resetWord a)

theorem State.frc_setFrc_ne (s : State) (a b : Nat) (x : Word) (h : a ≠ b) : (s.setFrc a x).frc b = s.frc b :=
  tblGet_put_ne s.force a b x (resetWord a) (resetWord b) h

/-- A context slot reads as it was put; the others are unchanged. -/
@[simp] theorem State.ctx_setCtx_same (s : State) (n : Nat) (c : Ctx) : (s.setCtx n c).ctx n = c :=
  tblGet_put_same s.loop.ctxs n c {}

theorem State.ctx_setCtx_ne (s : State) (n m : Nat) (c : Ctx) (h : n ≠ m) : (s.setCtx n c).ctx m = s.ctx m :=
  tblGet_put_ne s.loop.ctxs n m c {} {} h

/-- A group reads as it was put. -/
theorem State.grp_setGrp_same (s : State) (g : Nat) (x : GrpS) (h : g < s.loop.grps.length) : (s.setGrp g x).grp g = x :=
  nth_setAt_same _ _ _ _ h

theorem State.grp_setGrp_ne (s : State) (g m : Nat) (x : GrpS) (h : g ≠ m) : (s.setGrp g x).grp m = s.grp m :=
  nth_setAt_ne _ _ _ _ _ h

/-- A command port reads as it was put. -/
theorem State.port_setPort_same (s : State) (p : Nat) (x : Port) (h : p < s.cmd.ports.length) : (s.setPort p x).port p = x :=
  nth_setAt_same _ _ _ _ h

theorem State.port_setPort_ne (s : State) (p m : Nat) (x : Port) (h : p ≠ m) : (s.setPort p x).port m = s.port m :=
  nth_setAt_ne _ _ _ _ _ h

end Sys2Proof.Machine
end

