-- ==== Sys2Proof/Laws/Ops.lean ====
section
/-! SUPPORT. What the shared operations over rings and replies can change: once for each, and everything it can do. -/

namespace Sys2Proof.Machine

open Sys2Proof

/-- Two states that differ at most in registers, the event unit, the command interface and the Ethernet queues. -/
structure CmdOnly (s t : State) : Prop where
  force : t.force = s.force
  dt : t.dt = s.dt
  phase : t.phase = s.phase
  reed : t.reed = s.reed
  clk : t.clk = s.clk
  loop : t.loop = s.loop
  sense : t.sense = s.sense
  nib : t.nib = s.nib
  ink : t.ink = s.ink
  fdbk : t.fdbk = s.fdbk
  field : t.field = s.field
  safe : t.safe = s.safe
  store : t.store = s.store
  can : t.can = s.can
  sward : t.sward = s.sward
  sheaf : t.sheaf = s.sheaf
  nvm : t.nvm = s.nvm
  keep : t.keep = s.keep
  boot : t.boot = s.boot
  free : t.free = s.free
  pending : t.pending = s.pending

theorem CmdOnly.refl (s : State) : CmdOnly s s := by constructor <;> rfl

theorem CmdOnly.trans {s t u : State} (h : CmdOnly s t) (k : CmdOnly t u) : CmdOnly s u := by
  obtain ⟨h1, h2, h3, h4, h5, h6, h7, h8, h9, h10, h11, h12, h13, h14, h15, h16, h17, h18, h19, h20, h21⟩ := h
  constructor
  · exact k.force.trans h1
  · exact k.dt.trans h2
  · exact k.phase.trans h3
  · exact k.reed.trans h4
  · exact k.clk.trans h5
  · exact k.loop.trans h6
  · exact k.sense.trans h7
  · exact k.nib.trans h8
  · exact k.ink.trans h9
  · exact k.fdbk.trans h10
  · exact k.field.trans h11
  · exact k.safe.trans h12
  · exact k.store.trans h13
  · exact k.can.trans h14
  · exact k.sward.trans h15
  · exact k.sheaf.trans h16
  · exact k.nvm.trans h17
  · exact k.keep.trans h18
  · exact k.boot.trans h19
  · exact k.free.trans h20
  · exact k.pending.trans h21

/-- The registers outside a set read alike. -/
def RegsIn (P : Nat → Prop) (s t : State) : Prop := ∀ a, ¬ P a → t.reg a = s.reg a

theorem RegsIn.refl (P : Nat → Prop) (s : State) : RegsIn P s s := fun _ _ => rfl

theorem RegsIn.trans {P : Nat → Prop} {s t u : State} (h : RegsIn P s t) (k : RegsIn P t u) : RegsIn P s u :=
  fun a ha => (k a ha).trans (h a ha)

theorem RegsIn.mono {P Q : Nat → Prop} {s t : State} (h : RegsIn P s t) (hpq : ∀ a, P a → Q a) : RegsIn Q s t :=
  fun a ha => h a (fun hp => ha (hpq a hp))

theorem RegsIn.setFld {P : Nat → Prop} (s : State) (f : RF) (v : Nat) (h : P f.addr) : RegsIn P s (s.setFld f v) :=
  fun a ha => State.reg_setFld_ne s f v a (fun e => ha (e ▸ h))

theorem RegsIn.setFlag {P : Nat → Prop} (s : State) (f : RF) (b : Bool) (h : P f.addr) : RegsIn P s (s.setFlag f b) :=
  RegsIn.setFld s f _ h

theorem RegsIn.cntSat {P : Nat → Prop} (s : State) (f : RF) (h : P f.addr) : RegsIn P s (s.cntSat f) :=
  RegsIn.setFld s f _ h

/-- The registers of ring `n`. -/
def ringReg (n a : Nat) : Prop := 0x300000 + 0x20 * n ≤ a ∧ a < 0x300000 + 0x20 * n + 0x20

theorem CmdOnly.setFld (s : State) (f : RF) (v : Nat) : CmdOnly s (s.setFld f v) := by constructor <;> rfl
theorem CmdOnly.setFlag (s : State) (f : RF) (b : Bool) : CmdOnly s (s.setFlag f b) := by constructor <;> rfl
theorem CmdOnly.cntSat (s : State) (f : RF) : CmdOnly s (s.cntSat f) := by constructor <;> rfl
theorem CmdOnly.raise (s : State) (e i : Nat) (d : Word) : CmdOnly s (s.raise e i d) := by constructor <;> rfl
theorem CmdOnly.raiseLim (s : State) (e i : Nat) (d : Word) (k : Nat) : CmdOnly s (s.raiseLim e i d k) := by
  constructor <;> simp
theorem CmdOnly.setPort (s : State) (p : Nat) (x : Port) : CmdOnly s (s.setPort p x) := by constructor <;> rfl
theorem CmdOnly.setNetPort (s : State) (p : Nat) (x : NetPort) : CmdOnly s (s.setNetPort p x) := by constructor <;> rfl
theorem CmdOnly.withCmd (s : State) (c : CmdS) : CmdOnly s (s.withCmd c) := by constructor <;> rfl
theorem CmdOnly.withNet (s : State) (c : NetS) : CmdOnly s (s.withNet c) := by constructor <;> rfl
theorem CmdOnly.ite {s t u : State} (b : Prop) [Decidable b] (h : CmdOnly s t) (k : CmdOnly s u) : CmdOnly s (if b then t else u) := by
  split
  · exact h
  · exact k

/-- Setting a ring's entries changes its FILL and STAT registers and may raise RING_THRESHOLD. -/
theorem CmdOnly.ringSetEnts (s : State) (n : Nat) (es : List Ent) : CmdOnly s (ringSetEnts s n es) := by
  unfold Machine.ringSetEnts
  apply CmdOnly.ite
  · exact ((((CmdOnly.withCmd s _).trans (CmdOnly.setFld _ _ _)).trans (CmdOnly.setFld _ _ _)).trans (CmdOnly.setFlag _ _ _)).trans
      ((CmdOnly.setFlag _ _ _).trans (CmdOnly.raise _ _ _ _))
  · exact ((((CmdOnly.withCmd s _).trans (CmdOnly.setFld _ _ _)).trans (CmdOnly.setFld _ _ _)).trans (CmdOnly.setFlag _ _ _)).trans
      (CmdOnly.setFlag _ _ _)

/-- Words copied into ring memory change nothing else. -/
theorem CmdOnly.ringCopyIn (n : Nat) (ws : List Word) (s : State) (off : Nat) : CmdOnly s (ringCopyIn s n off ws) := by
  induction ws generalizing s off with
  | nil => exact CmdOnly.refl s
  | cons x xs ih => exact (CmdOnly.withCmd s _).trans (ih _ _)

theorem CmdOnly.ringStore (s : State) (n : Nat) (ws : List Word) (e : Ent) : CmdOnly s (ringStore s n ws e) :=
  ((CmdOnly.ringCopyIn n ws s _).trans (CmdOnly.setFld _ _ _)).trans (CmdOnly.ringSetEnts _ _ _)

theorem CmdOnly.ringDrop (s : State) (n : Nat) : CmdOnly s (ringDrop s n) := by
  unfold Machine.ringDrop
  split
  · exact CmdOnly.refl s
  · exact (CmdOnly.setFld _ _ _).trans (CmdOnly.ringSetEnts _ _ _)

theorem CmdOnly.ring253 (s : State) (n : Nat) : CmdOnly s (ring253 s n) := by
  unfold Machine.ring253
  dsimp only
  split
  · exact CmdOnly.refl s
  · split
    · constructor <;> rfl
    · exact CmdOnly.refl s

theorem CmdOnly.ringLose (s : State) (n k : Nat) : CmdOnly s (ringLose s n k) := by
  unfold Machine.ringLose
  split
  · exact CmdOnly.refl s
  · exact (((CmdOnly.setFld s _ _).trans (CmdOnly.setFlag _ _ _)).trans (CmdOnly.withCmd _ _)).trans (CmdOnly.ring253 _ _)

theorem CmdOnly.ringMakeRoom (n need fuel : Nat) (s : State) (k : Nat) : CmdOnly s (ringMakeRoom s n need fuel k).1 := by
  induction fuel generalizing s k with
  | zero => exact CmdOnly.refl s
  | succ m ih =>
    unfold Machine.ringMakeRoom
    split
    · exact CmdOnly.refl s
    · exact (CmdOnly.ringDrop s n).trans (ih _ _)

/-- An entry offered to a ring changes that ring, ring memory and events, whatever its policy. -/
theorem CmdOnly.ringPut (s : State) (n : Nat) (ws : List Word) (e : Ent) : CmdOnly s (ringPut s n ws e).1 := by
  unfold Machine.ringPut
  have h := CmdOnly.ringMakeRoom n ws.length (ringEnts s n).length s 0
  revert h
  generalize Machine.ringMakeRoom s n ws.length (ringEnts s n).length 0 = r
  intro h
  dsimp only
  split
  · exact CmdOnly.ringStore s n ws e
  · split
    · split
      · exact (h.trans (CmdOnly.ringStore r.1 n ws e)).trans (CmdOnly.ringLose _ n r.2)
      · exact h.trans (CmdOnly.ringLose r.1 n (r.2 + 1))
    · split
      · exact CmdOnly.ringLose s n 1
      · exact CmdOnly.refl s

theorem CmdOnly.netDrain (p fuel : Nat) (s : State) : CmdOnly s (netDrain s p fuel) := by
  induction fuel generalizing s with
  | zero => exact CmdOnly.refl s
  | succ m ih =>
    unfold Machine.netDrain
    dsimp only
    split
    · exact CmdOnly.refl s
    · split
      · exact CmdOnly.refl s
      · exact ((CmdOnly.setNetPort s p _).trans (CmdOnly.withNet _ _)).trans (ih _)

theorem CmdOnly.netTx (s : State) (p : Nat) (f : NetFrame) : CmdOnly s (netTx s p f) := by
  unfold Machine.netTx
  split
  · exact CmdOnly.refl s
  · dsimp only
    split
    · exact ((CmdOnly.netDrain p _ s).trans (CmdOnly.setNetPort _ _ _)).trans (CmdOnly.netDrain p _ _)
    · exact (((CmdOnly.netDrain p _ s).trans (CmdOnly.cntSat _ _)).trans (CmdOnly.setFlag _ _ _)).trans (CmdOnly.raiseLim _ _ _ _ _)

theorem CmdOnly.udpCarry (s : State) (p : Nat) : CmdOnly s (udpCarry s p) := by
  unfold Machine.udpCarry
  split
  · split
    · exact CmdOnly.refl s
    · dsimp only
      split
      · split
        · exact ((CmdOnly.ringDrop s _).trans (CmdOnly.netTx _ _ _)).trans (CmdOnly.withCmd _ _)
        · exact CmdOnly.refl s
      · exact CmdOnly.ringDrop s _
  · exact CmdOnly.refl s

theorem CmdOnly.cmdError (s : State) (p o st q : Nat) : CmdOnly s (cmdError s p o st q) := CmdOnly.raiseLim _ _ _ _ _

/-- Replies that wait and enter their ring change rings, ports, events and the Ethernet queues, and nothing else. -/
theorem CmdOnly.replyFlush (n : Nat) (s : State) (p : Nat) : CmdOnly s (replyFlush n s p) := by
  induction n generalizing s with
  | zero => exact CmdOnly.refl s
  | succ m ih =>
    unfold Machine.replyFlush
    split
    · exact CmdOnly.refl s
    · split
      · exact (((CmdOnly.setPort s p _).trans (CmdOnly.ringPut _ _ _ _)).trans (CmdOnly.udpCarry _ p)).trans (ih _)
      · exact CmdOnly.refl s

theorem CmdOnly.replyPut (s : State) (p : Nat) (e : Reply) : CmdOnly s (replyPut s p e) :=
  (CmdOnly.setPort s p _).trans (CmdOnly.replyFlush _ _ p)

/-- A reply changes registers of rings and ports, events, the command interface and the Ethernet queues, and nothing else. -/
theorem CmdOnly.answer (s : State) (r : Request) (busy resv ran : Bool) (st stamp : Nat) (data : List Word) :
    CmdOnly s (answer s r busy resv ran st stamp data) := by
  unfold Machine.answer
  extract_lets p ws quiet s1 q s2
  have h1 : CmdOnly s s1 := CmdOnly.ite _ (CmdOnly.setPort _ _ _) (CmdOnly.replyPut _ _ _)
  have h2 : CmdOnly s s2 := h1.trans (CmdOnly.ite _ (CmdOnly.setPort _ _ _) (CmdOnly.refl _))
  exact CmdOnly.ite _ ((h2.trans (CmdOnly.setFld _ _ _)).trans (CmdOnly.cmdError _ _ _ _ _))
    (CmdOnly.ite _ (h2.trans (CmdOnly.cmdError _ _ _ _ _)) h2)

theorem CmdOnly.sendReply (s : State) (r : Request) (ran : Bool) (st stamp : Nat) (data : List Word) :
    CmdOnly s (sendReply s r ran st stamp data) := CmdOnly.answer _ _ _ _ _ _ _ _

theorem CmdOnly.portHeld (s : State) (r : Request) : CmdOnly s (portHeld s r) := CmdOnly.setPort _ _ _

/-- Answering a request changes nothing beyond what its execution changed but the command interface (R78, R79). -/
theorem CmdOnly.respond (r : Request) (x : Res) : CmdOnly x.st (respond r x) := by
  unfold Machine.respond
  extract_lets c s live
  have h : CmdOnly x.st s := CmdOnly.withCmd x.st _
  clear_value live
  refine CmdOnly.ite _ (h.trans (CmdOnly.sendReply ..)) ?_
  cases live
  · exact h.trans (CmdOnly.sendReply ..)
  · exact CmdOnly.ite _ ((h.trans (CmdOnly.portHeld _ _)).trans (CmdOnly.withCmd _ _)) (h.trans (CmdOnly.sendReply ..))

/-- A request that Reed serves, in its form, is executed and answered. -/
theorem serveReed_serves (r : Request) (s : State) (form : Bool) (f : State → Res) (h1 : s.phase = .ready) (h2 : s.boot.hold = false)
    (h3 : s.reed = .running) (h4 : form = true) : serveReed r s form f = respond r (f s) := by
  simp [serveReed, serving, h1, h2, h3, h4]

/-- A request of the register engine is executed and answered. -/
theorem serveReg_serves (r : Request) (s : State) (form : Bool) (f : State → Res) (h1 : s.phase = .ready) (h4 : form = true) :
    serveReg r s form f = respond r (f s) := by
  simp [serveReg, serving, h1, h4]

/-- While Reed is held in reset its requests are discarded, with CMD_ERROR and no reply (R84). -/
theorem serveReed_held (r : Request) (s : State) (form : Bool) (f : State → Res) (h1 : s.phase = .ready)
    (h3 : s.reed = .held) : serveReed r s form f = cmdError (discardRequest s r) r.port.val r.opcode stNOT_READY r.seq := by
  simp [serveReed, serving, h1, h3]

end Sys2Proof.Machine
end

