-- ==== Sys2Proof/Safety.lean ====
section
/-! DEFINITION. What the claims speak of: a block that serves, and the states that one change away from a state are, in the spec's terms. -/

namespace Sys2Proof.Machine

open Sys2Proof

/-- The device is command-ready (R113) and Reed executes the requests handed to it (R84, R136). -/
abbrev State.served (s : State) : Prop := s.phase = .ready ∧ s.boot.hold = false ∧ s.reed = .running

/-- The state with other passes on the Quills. -/
abbrev State.withRuns (s : State) (l : List Run) : State := { s with loop := { s.loop with runs := l } }

/-- Husk drives GEN_A and GEN_B high only while it is powered, in PERMIT or SS1, or in a single-channel interval it entered from
one of them (R331, R343). -/
abbrev State.genHeld (s : State) : Prop :=
  s.safe.husk.gen = true → s.safe.husk.on = true
    ∧ (s.safe.husk.st = 2 ∨ s.safe.husk.st = 3 ∨ (s.safe.husk.st = 4 ∧ (s.safe.husk.prev = 2 ∨ s.safe.husk.prev = 3)))

/-- The motor side of the machine beside its registers: the values in force of shadowed registers, contexts, passes and pending changes,
the sensing front end, the nib bank, the feedback channels, maps and cams. -/
def State.motorSide (s : State) : Tbl Word × LoopS × SenseS × NibB × FdbkS × StoreS := (s.force, s.loop, s.sense, s.nib, s.fdbk, s.store)

/-- The commands that never reach the motor side: those of the host port, the rings, time, Ethernet, CAN, Sward and Sheaf links, Inkwell,
the field die (but for an edge of an input, which reaches the latch units), keep memory, configuration and firmware storage, the telegram, and the clock's own registers. -/
def offMotor (c : Instr) : Bool :=
  match c with
  | .resetRelease .. | .crystalWaitExpiry .. | .firmwareBankLoaded .. | .delayLineSwap ..
  | .rcTrimMeasure .. | .clkCtrlWrite .. | .clkRctrimWrite .. | .envelopeMeasurement .. | .loopClrLate ..
  | .loopClrWorst .. | .hostSpiCmdFrame .. | .hostSpiFetchFrame .. | .hostSpiStatusFrame ..
  | .udpCommandDatagram .. | .swardCommandFrame .. | .canCommandFrame .. | .requestDispatch ..
  | .deferredReplySend .. | .nop .. | .identify .. | .readReg .. | .readSnapshot .. | .inkArm .. | .inkForce ..
  | .inkStop .. | .inkRead .. | .inkReadDone .. | .inkAutoExpiry .. | .inkRecordComplete ..
  | .inkInterfaceFailure .. | .niblogTokenRefill .. | .timeSet .. | .timeAdjustOffset .. | .timeAdjustRate ..
  | .timeSlewDone .. | .pulseProgram .. | .pulseEdgeFix .. | .fioSet .. | .fioConfig .. | .keepWrite ..
  | .keepWordRegWrite .. | .keepWritePersist .. | .keepHourlyCount .. | .cfgSave .. | .cfgSaved .. | .cfgLoad ..
  | .fwStageBegin .. | .fwStageData .. | .fwStageEnd .. | .fwStageVerified .. | .fwStageTimeout ..
  | .fwSwitchConfirm .. | .fwSwitchScribe .. | .reedResume .. | .safeParamStage .. | .safeParamConfirm ..
  | .safeAck .. | .swardRoute .. | .swardJoin .. | .swardLeave .. | .sheafRole .. | .canTx .. | .canCancel ..
  | .canScheduleStart .. | .canScheduleStop .. | .ringPop .. | .ringPush .. | .ringConfigWrite ..
  | .ringOverflowReport .. | .pspiTransferStart .. | .pspiTransferDone .. | .spiIrqcfgWrite ..
  | .latchArm .. | .latchDisarm .. | .latchWindowEnd ..
  | .scribeXcheckFrame .. | .slsLevelEffective .. | .safeTestPulse .. | .telegramWatchdogExpiry ..
  | .telegramPathLoss .. | .vhuskPowerUp .. | .safeStageWrite .. | .logicHeartbeatSend ..
  | .fieldHeartbeatReceive .. | .logicHeartbeatReceive .. | .fieldLinkTimeout .. | .fieldSilenceExpiry ..
  | .chatterWindowEnd .. | .outputOvercurrent .. | .outputThermal .. | .bankOvercurrent ..
  | .vfieldMeasurement .. | .ethLinkChange .. | .ethMdioAccess .. | .ethMdioDone .. | .ptpOffsetSample ..
  | .ptpSendInterval .. | .ptpHoldoverTimeout .. | .timebaseDiscipline .. | .timeCfgWrite .. | .timeSnap ..
  | .canFrameReceive .. | .canTxDone .. | .canCtrlWrite .. | .canRecover .. | .canDominantTimeout ..
  | .canCycleStart .. | .canReferenceReceive .. | .canReferenceTimeout .. | .canWindowStart .. | .canWindowEnd ..
  | .swardTransmit .. | .credReceive .. | .credSend .. | .helloReceive .. | .swardTrainingDone ..
  | .leaveReceive .. | .swardLossOfSignal .. | .swardSymbolErrorLimit .. | .dreqSend .. | .dreqReceive ..
  | .drspReceive .. | .epochMarkReceive .. | .swardWaitDrop .. | .e2eRetransmitTimeout .. | .e2eAckSend ..
  | .streamForget .. | .swardNodeWrite .. | .swardResWrite .. | .swardHrxtailWrite .. | .sheafBeaconSend ..
  | .sheafStatusReceive .. | .linkDataReceive .. | .mirrorReceive ..
  | .holdoffWindowEnd .. | .evtStatClear .. | .evtTest .. | .supplyMeasurement .. | .caseTempMeasurement ..
  | .ethFrameReceive .. | .telegramCopy .. | .canTxStart .. | .canBusoffRecoveryDone .. | .canBusError .. => true
  | _ => false

end Sys2Proof.Machine
end

