-- ==== Sys2Proof/Certificates/Slice0/Obligations.lean ====
section
/-! DEFINITION. The statements for the provers: what each command does, what no step can break, what the arithmetic and
the packet forms guarantee. Names of rules R<n> are those of spec/. -/

section

open Sys2Proof Sys2Proof.Machine

/-- The host port's three frames (R93 to R95) complete on a port that runs: a whole CMD frame that finds room enters ring 0; a STATUS
frame returns the status word; a FETCH frame without underrun shifts the tail reply out, zeros after it, and removes the reply
if it was clocked whole.
Each of these completes under the conditions its clauses name: `hostSpiCmdFrame`, `hostSpiStatusFrame` and `hostSpiFetchFrame`. -/
def Obligations.HostPort_Frames : Prop :=
  (∀ (s : State) (hdr : Word) (body : List Word) (tailBits : Nat), hostPortUp s = true → bitsOf hdr 28 4 = 1 → tailBits % 32 = 0 →
    2 ≤ bitsOf hdr 0 16 → bitsOf hdr 0 16 ≤ body.length → bitsOf hdr 0 16 ≤ ringFree s 0 →
    exec (.hostSpiCmdFrame hdr body tailBits) s = .next (hrdyUpdate (hostFrameEnd
      (ringStore s 0 (body.take (bitsOf hdr 0 16)) { words := bitsOf hdr 0 16 }) 0 (hostStatusWord s :: List.replicate body.length 0#32)) (serving s)))
  ∧ (∀ (s : State) (hdr : Word), hostPortUp s = true → bitsOf hdr 28 4 = 3 →
    exec (.hostSpiStatusFrame hdr) s = .next (s.withCmd { s.cmd with hPrev := 0, miso := [hostStatusWord s] }))
  ∧ (∀ (s : State) (hdr : Word) (clocked : Nat), hostPortUp s = true → bitsOf hdr 28 4 = 2 → bitsOf hdr 0 16 ≠ 0 →
    exec (.hostSpiFetchFrame hdr clocked none) s = .next (hostFrameEnd
      (if ringTailWords s 8 ≠ [] ∧ (ringTailWords s 8).length ≤ clocked then ringDrop s 8 else s) 0
      (hostStatusWord s :: ((ringTailWords s 8).take clocked ++ List.replicate (clocked - (ringTailWords s 8).length) 0#32))))

/-- A request that arrives whole over UDP, the Sward or CAN FD stands as one entry at the head of its port's command ring
(R98, R99, R100; ports 1 and 2, 3, and 4 to 7) when the carrier's port runs out of coast (R66) and the ring has room.
Each of these completes under the conditions its clauses name: `udpCommandDatagram`, `swardCommandFrame` and `canCommandFrame`. -/
def Obligations.Carriers_Deliver : Prop :=
  (∀ (s : State) (mac : Fin 2) (o : Origin) (bytes : List Byte), s.phase = .ready → ethUp s mac.val = true → 8 ≤ bytes.length →
    (bytesWords bytes).length ≤ ringFree s (1 + mac.val) →
    exec (.udpCommandDatagram mac o bytes true) s = .next (ringStore s (1 + mac.val) (bytesWords bytes)
      { words := bytes.length / 4, extra := bytes.length % 4, origin := o }))
  ∧ (∀ (s : State) (src : Nat) (bytes : List Byte), s.phase = .ready → swHears s = true → 8 ≤ bytes.length → (bytesWords bytes).length ≤ ringFree s 3 →
    exec (.swardCommandFrame src bytes) s = .next (ringStore s 3 (bytesWords bytes)
      { words := bytes.length / 4, extra := bytes.length % 4, origin := .sward src false }))
  ∧ (∀ (s : State) (c : Fin 4) (bytes : List Byte), s.phase = .ready → 8 ≤ (canRequestBytes bytes).length →
    (bytesWords (canRequestBytes bytes)).length ≤ ringFree s (4 + c.val) →
    exec (.canCommandFrame c true bytes) s = .next (ringStore s (4 + c.val) (bytesWords (canRequestBytes bytes))
      { words := (canRequestBytes bytes).length / 4, extra := (canRequestBytes bytes).length % 4, origin := .can }))

/-- The dispatcher hands the first request of the next command ring in turn to its executor (R83), in recovery those of port 0 alone
(R114): the entry leaves the ring, the turn moves on, the port is busy with the request and 259 words of its reply ring are
reserved; no other ring changes. A held reply whose boundaries have all passed is sent with the stamp of the earliest and status
OK (R79), and the reply of a snapshot that was taken with the values it took (R51).
Each of these completes under the conditions its clauses name: `requestDispatch` and `deferredReplySend`. -/
def Obligations.Dispatch_Hands_Over : Prop :=
  (∀ (s : State) (p : Fin 8) (e : Ent) (es : List Ent) (r : Request), serving s = true → nextRing s = some p → s.phase = .ready ∨ p.val = 0 →
    ringEnts s p.val = e :: es → r = requestOf p e.origin (ringTailWords s p.val) →
    3 ≤ (ringTailWords s p.val).length → crc32c (ringTailWords s p.val).dropLast = r.check →
    (∀ d ∈ (s.port p.val).done, ¬ (d.seq = r.seq ∧ d.check = r.check)) →
    opcodeKnown r.opcode = true → packetForm r (ringTailWords s p.val).length e.extra = true →
    ∃ t, exec .requestDispatch s = .next t ∧ t.cmd.turn = (p.val + 1) % 8 ∧
      t.cmd.ports = setAt s.cmd.ports p.val { s.port p.val with busy := some r, resv := (s.port p.val).resv + 259 } ∧
      ringEnts t p.val = es ∧ (∀ n, n ≠ p.val → ringEnts t n = ringEnts s n) ∧ t.cmd.mem = s.cmd.mem ∧ t.loop = s.loop)
  ∧ (∀ (s : State) (p : Fin 8) (d : Deferred), (s.port p.val).out = [] →
    s.cmd.deferred.find? (fun x => x.req.port.val == p.val && deferredReady x) = some d → d.final = none → d.as_ = none → d.mixed = false →
    exec (.deferredReplySend p) s = .next (answer
      (s.withCmd { s.cmd with deferred := s.cmd.deferred.filter (fun x => x.ticket != d.ticket) }) d.req false true true stOK d.stamp d.data))
  ∧ (∀ (s : State) (p : Fin 8) (x : Snap) (st stamp : Nat) (ws : List Word), (s.port p.val).out = [] →
    s.cmd.deferred.find? (fun x => x.req.port.val == p.val && deferredReady x) = none →
    s.cmd.snaps.find? (fun x => x.req.port.val == p.val && snapReady s x) = some x → x.got = some (st, stamp, ws) →
    exec (.deferredReplySend p) s = .next (answer
      (s.withCmd { s.cmd with snaps := s.cmd.snaps.filter (fun y => y != x) }) x.req false true true st stamp ws))

/-- NOP and IDENTIFY are answered with OK, IDENTIFY with the part number, grade and revision, firmware version and bank (R87).
Each of these completes under the conditions its clauses name: `nop` and `identify`. -/
def Obligations.Nop_Identify_Answer : Prop :=
  ∀ (s : State) (r : Request), s.served → r.target = 0 → r.params = [] →
    exec (.nop r) s = .next (respond r { st := s, status := stOK })
    ∧ exec (.identify r) s = .next (respond r { st := s, status := stOK, data :=
        [0x00007224#32, wd ((if Config.gradeH then 0x48 else 0x47) * 256 + 0xC0), s.reg (R.fwVer (s.fld R.fwStat_RUNNING)), wd (s.fld R.fwStat_RUNNING)] })

/-- RING_POP answers the largest run of whole entries from the tail that fits and removes those entries, or nothing where the ring
is empty (R105); RING_PUSH stores every entry it was given and answers the words that are then free (R106).
Each of these completes under the conditions its clauses name: `ringPop` and `ringPush`. -/
def Obligations.Ring_Pop_Push : Prop :=
  (∀ (s : State) (r : Request) (w : Word), s.served → r.params = [w] → r.target ≤ 63 → bitsOf w 16 16 = 0 →
    1 ≤ bitsOf w 0 16 → bitsOf w 0 16 ≤ 256 → popAllowed r.target = true → s.flag (R.ringCtrl_EN r.target) = true →
    (ringEnts s r.target = [] → exec (.ringPop r) s = .next (respond r { st := s, status := stOK }))
    ∧ (∀ (e : Ent) (es : List Ent), ringEnts s r.target = e :: es → e.words ≤ bitsOf w 0 16 →
      exec (.ringPop r) s = .next (respond r { st := inkPump (ringDropN s r.target (popRun (e :: es) (bitsOf w 0 16)).2), status := stOK, data := ringCopyOut s r.target (s.fld (R.ringTail_TAIL r.target)) (popRun (e :: es) (bitsOf w 0 16)).1 })))
  ∧ (∀ (s : State) (r : Request) (es : List (List Word)), s.served → r.params ≠ [] → r.target ≤ 63 →
    splitEntries (s.fld (R.ringCtrl_ESIZE r.target)) r.params = some es → pushAllowed r.target = true → s.flag (R.ringCtrl_EN r.target) = true →
    r.params.length ≤ ringFree s r.target →
    exec (.ringPush r) s = .next (respond r { st := es.foldl (fun t e => ringStore t r.target e { words := e.length }) s, status := stOK, data := [wd (ringFree (es.foldl (fun t e => ringStore t r.target e { words := e.length }) s) r.target)] }))

/-- A write of the place and size of a ring that is not enabled is taken; one of its control word is taken that leaves EN as it is,
that sets EN on a ring whose place is free, or that clears EN, which empties the ring (R104); the losses of a ring are told by an event 253, at most one in 10 ms (R103); the transfers of a peripheral SPI port start and
end (R111); `SPI.IRQCFG` takes its eight bits (R108).
Each of these completes under the conditions its clauses name: `ringConfigWrite`, `ringOverflowReport`, `pspiTransferStart`,
`pspiTransferDone` and `spiIrqcfgWrite`. -/
def Obligations.Ring_And_Spi_Registers : Prop :=
  (∀ (s : State) (n : Fin 64) (w : Word), bitOf (s.reg (R.ringCtrl n.val)) 31 = false →
    bitsOf (s.reg (R.ringCtrl n.val)) 16 8 = (ringReset n.val).2.2.1 →
    ∃ t, exec (.ringConfigWrite n false w) s = .next t ∧ t.reg (R.ringLoc n.val) = mergeBits (s.reg (R.ringLoc n.val)) w 0x0FFF0FFF#32 ∧
      t.reg (R.ringCtrl n.val) = s.reg (R.ringCtrl n.val) ∧ t.cmd = s.cmd ∧ t.loop = s.loop ∧ t.evt = s.evt ∧
      (∀ a, a ≠ R.ringLoc n.val → a ≠ R.ringCtrl n.val → a ≠ R.ringStat n.val → a ≠ R.spiHstat → t.reg a = s.reg a))
  ∧ (∀ (s : State) (n : Fin 64) (w m : Word), bitOf w 31 = bitOf (s.reg (R.ringCtrl n.val)) 31 → bitsOf w 16 8 = (ringReset n.val).2.2.1 →
    m = (if (16 ≤ n.val ∧ n.val ≤ 19) ∨ 60 ≤ n.val then 0xE0FFFFFF#32 else 0x80FFFFFF#32) →
    ∃ t, exec (.ringConfigWrite n true w) s = .next t ∧ t.reg (R.ringCtrl n.val) = mergeBits (s.reg (R.ringCtrl n.val)) w m ∧
      t.cmd = s.cmd ∧ t.loop = s.loop ∧ t.evt = s.evt ∧
      (∀ a, a ≠ R.ringCtrl n.val → a ≠ R.ringStat n.val → a ≠ R.spiHstat → t.reg a = s.reg a))
  ∧ (∀ (s : State) (n : Fin 64) (w : Word), bitOf (s.reg (R.ringCtrl n.val)) 31 = false → bitOf w 31 = true → bitsOf w 16 8 = (ringReset n.val).2.2.1 →
    (∀ k, k < 64 → k ≠ n.val → s.flag (R.ringCtrl_EN k) = true → overlap (ringBase s n.val) (ringSize s n.val) (ringBase s k) (ringSize s k) = false) →
    ringBase s n.val + ringSize s n.val ≤ 65536 →
    (if (ringReset n.val).2.2.1 = 0 then 272 else (ringReset n.val).2.2.1) ≤ ringSize s n.val →
    ∃ t, exec (.ringConfigWrite n true w) s = .next t ∧ t.flag (R.ringCtrl_EN n.val) = true ∧ t.cmd = s.cmd ∧ t.loop = s.loop)
  ∧ (∀ (s : State) (n : Fin 64) (w : Word), bitOf (s.reg (R.ringCtrl n.val)) 31 = true → bitOf w 31 = false → bitsOf w 16 8 = (ringReset n.val).2.2.1 →
    ∃ t, exec (.ringConfigWrite n true w) s = .next t ∧ t.flag (R.ringCtrl_EN n.val) = false ∧ ringEnts t n.val = [] ∧ t.cmd.mem = s.cmd.mem ∧
      (∀ k, k ≠ n.val → ringEnts t k = ringEnts s k))
  ∧ (∀ (s : State) (n : Fin 64), tblGet s.cmd.lost253 n.val 0 ≠ 0 →
    (rateLast s 253 n.val = none → ∃ t, exec (.ringOverflowReport n) s = .next t ∧ tblGet t.cmd.lost253 n.val 0 = 0 ∧
      t.evt.occ = s.evt.occ ++ [{ ev := 253, inst := n.val, detail := wd (tblGet s.cmd.lost253 n.val 0) }] ∧ t.regs = s.regs)
    ∧ (∀ t0, rateLast s 253 n.val = some t0 → rateOpen (s.at (t0 + tk (10 * msTicks))) 253 n.val (10 * msTicks) = true →
      ∃ t, exec (.ringOverflowReport n) s = .next t ∧ t.dt = (s.at (t0 + tk (10 * msTicks))).dt ∧ tblGet t.cmd.lost253 n.val 0 = 0 ∧
        t.evt.occ = s.evt.occ ++ [{ ev := 253, inst := n.val, detail := wd (tblGet s.cmd.lost253 n.val 0) }] ∧ t.regs = s.regs))
  ∧ (∀ (s : State) (n : Fin 2) (w : Word), pspiClocked s n.val = true → 0 < bitsOf w 0 5 → bitsOf w 0 5 ≤ 16 → s.flag (R.spiPxfer_BUSY n.val) = false →
    ∃ t, exec (.pspiTransferStart n w) s = .next t ∧ t.flag (R.spiPxfer_BUSY n.val) = true ∧ t.fld (R.spiPxfer_COUNT n.val) = bitsOf w 0 5 ∧
      (∀ a, a ≠ R.spiPxfer n.val → t.reg a = s.reg a) ∧ t.evt = s.evt ∧ t.cmd = s.cmd)
  ∧ (∀ (s : State) (n : Fin 2) (rx : List Word), s.flag (R.spiPxfer_BUSY n.val) = true → s.fld (R.spiPxfer_COUNT n.val) ≤ 16 →
    ∃ t, exec (.pspiTransferDone n rx) s = .next t ∧ t.flag (R.spiPxfer_BUSY n.val) = false ∧ t.flag (R.spiPxfer_DONE n.val) = true ∧
      (∀ i, i < s.fld (R.spiPxfer_COUNT n.val) → t.reg (R.spiPdata n.val i) = pspiWord (s.fld (R.spiPcfg_WLEN n.val)) (nth rx i 0#32)) ∧
      (∀ a, a ≠ R.spiPxfer n.val → (∀ i, i < s.fld (R.spiPxfer_COUNT n.val) → a ≠ R.spiPdata n.val i) → t.reg a = s.reg a) ∧
      t.evt.occ = s.evt.occ ++ [{ ev := 255, inst := 1 + n.val, detail := 4#32 }])
  ∧ (∀ (s : State) (w : Word), exec (.spiIrqcfgWrite w) s = .next (s.setReg R.spiIrqcfg (mergeBits (s.reg R.spiIrqcfg) w 0xFF#32)))

/-- What happens to clock sources (R56, R57, R59, R64, R65, R67). An enabled source that fails is counted, loses its qualification and
raises event 8; where it was the active one, the first other qualified source takes over or the device coasts. One that
qualifies is marked so; at start-up the crystal starts the PLLs, and in coast the first qualified source ends it. The crystal wait
ends in REF_IN or the RC oscillator; a switch that waits for an edge that fails to come is forced; a revert selects its source.
Each of these completes under the conditions its clauses name: `sourceMissingEdge`, `sourceFrequencyFail`, `sourceQualified`,
`crystalWaitExpiry`, `muxForcedSwitch` and `clockRevert`. -/
def Obligations.Clock_Sources : Prop :=
  (∀ (s u : State) (src : Fin 3) (edge : Bool), clkRuns s = true → clkEnabled s src.val = true →
    u = (clkSetQual ((clkEdge (clkSetAlive s src.val false) ⟨src, edge⟩).cntSat (clkFailsFld src.val)) src.val false).raise 8 src.val (wd 1) →
    exec (.sourceMissingEdge ⟨src, edge⟩) s = .next (tbSettle (
      if clkActive u ≠ src.val ∨ u.flag R.clkStat_NOFALLBACK = true then u
      else match clkCand u (some src.val) with
        | some c => clkSwitch u c
        | none => clkCoast u)))
  ∧ (∀ (s u : State) (src : Fin 3), clkRuns s = true → clkEnabled s src.val = true → clkFreqJudged s src.val = true →
    u = (clkSetQual (s.cntSat (clkFailsFld src.val)) src.val false).raise 8 src.val (wd 2) →
    exec (.sourceFrequencyFail src) s = .next (tbSettle (
      if clkActive u ≠ src.val ∨ u.flag R.clkStat_NOFALLBACK = true then u
      else match clkCand u (some src.val) with
        | some c => clkSwitch u c
        | none => clkCoast u)))
  ∧ (∀ (s u : State) (src : Fin 3) (edge : Bool), clkRuns s = true → clkEnabled s src.val = true →
    u = clkSetQual (clkSetAlive (clkEdge s ⟨src, edge⟩) src.val true) src.val true →
    (s.clk.started = true → u.flag R.clkStat_NOFALLBACK = false → exec (.sourceQualified ⟨src, edge⟩) s = .next (tbSettle u))
    ∧ (s.clk.started = false → src.val = 0 → exec (.sourceQualified ⟨src, edge⟩) s = .next (tbSettle (clkStart (u.setFlag R.clkStat_NOFALLBACK false) 0)))
    ∧ (∀ c, s.clk.started = true → u.flag R.clkStat_NOFALLBACK = true → clkCand (u.setFlag R.clkStat_NOFALLBACK false) none = some c →
      exec (.sourceQualified ⟨src, edge⟩) s = .next (tbSettle (clkSwitch (u.setFlag R.clkStat_NOFALLBACK false) c))))
  ∧ (∀ s : State, clkRuns s = true → s.clk.started = false → s.flag R.clkStat_NOFALLBACK = false →
    exec .crystalWaitExpiry s = .next (clkStart s (if clkEnabled s 1 = true ∧ clkQual s 1 = true then 1 else 2)))
  ∧ (∀ (s : State) (a b : Nat), s.clk.switching = some (a, b) →
    exec .muxForcedSwitch s = .next (tbSettle (clkSwitched s a b true)))
  ∧ (∀ (s : State) (src : Fin 3), clkRuns s = true → s.flag R.clkCtrl_REVERT = true → s.clk.started = true →
    s.flag R.clkStat_NOFALLBACK = false → clkEnabled s src.val = true → clkQual s src.val = true → src.val < clkActive s →
    exec (.clockRevert src) s = .next (tbSettle (clkSwitch s src.val)))

/-- Locks and calibration (R60, R61, R66) and the trim of the RC oscillator (R58): the lock bit follows the PLL, that of the timebase PLL
ends coast with event 10, and its loss takes the calibration with it; the lines change places; ERR stands, TRIM moves against it by at
most 8 steps, and TRIM_LOCK clears beyond 30 ppm and sets after four measurements within. That ERR and TRIM saturate at the
ends of their fields is the model's choice (log entry 73).
Each of these completes under the conditions its clauses name: `pllLock`, `pllLockLoss`, `delayLineCalibrated`, `delayLineSwap` and
`rcTrimMeasure`. -/
def Obligations.Plls_And_Trim : Prop :=
  (∀ (s : State) (pll : Fin 4), s.clk.started = true → s.flag R.clkStat_NOFALLBACK = false → s.fld ⟨R.clkGate, pllGate pll.val, 1⟩ ≠ 0 →
    exec (.pllLock pll) s = .next (tbSettle (
      if pll.val = 0 ∧ (s.setFlag (pllLockFld pll.val) true).flag R.clkStat_COAST = true then
        ((s.setFlag (pllLockFld pll.val) true).setFlag R.clkStat_COAST false).raise 10 0 0#32
      else s.setFlag (pllLockFld pll.val) true)))
  ∧ (∀ (s : State) (pll : Fin 4), pll.val ≠ 0 → exec (.pllLockLoss pll) s = .next (tbSettle (s.setFlag (pllLockFld pll.val) false)))
  ∧ (∀ s : State, exec (.pllLockLoss 0) s = .next (tbSettle ((s.setFlag R.clkStat_TPLL_LOCK false).setFlag R.clkStat_DL_CAL false)))
  ∧ (∀ s : State, s.flag R.clkStat_TPLL_LOCK = true → exec .delayLineCalibrated s = .next (tbSettle (s.setFlag R.clkStat_DL_CAL true)))
  ∧ (∀ s : State, s.flag R.clkStat_DL_CAL = true → exec .delayLineSwap s = .next (s.withClk { s.clk with line := !s.clk.line }))
  ∧ (∀ (s : State) (err : Word), clkRuns s = true → trimRef s = true →
    ∃ t, exec (.rcTrimMeasure err) s = .next t ∧ t.fldI R.clkRcerr_ERR = clampI (-32768) 32767 err.toInt ∧
      t.fldI R.clkRctrim_TRIM = clampI (-8192) 8191 (s.fldI R.clkRctrim_TRIM - clampI (-8) 8 ((clampI (-32768) 32767 err.toInt).tdiv 10)) ∧
      (30 < (clampI (-32768) 32767 err.toInt).natAbs → t.flag R.clkStat_RC_TRIM_LOCK = false ∧ t.clk.trimGood = 0) ∧
      ((clampI (-32768) 32767 err.toInt).natAbs ≤ 30 → t.clk.trimGood = min 4 (s.clk.trimGood + 1) ∧ (3 ≤ s.clk.trimGood → t.flag R.clkStat_RC_TRIM_LOCK = true)) ∧
      (∀ a, a ≠ R.clkRcerr → a ≠ R.clkRctrim → a ≠ R.clkStat → t.reg a = s.reg a) ∧ t.evt = s.evt ∧ t.loop = s.loop)

/-- The registers of the CLK block that a host writes (R58, R67, R69): `CLK.CTRL` takes the sources and takes the qualification of
those disabled; `CLK.SEL` switches to a qualified source; `CLK.RCTRIM` takes a trim with REF 3, a reference otherwise; `CLK.GATE`
takes a set of nodes whose parents are on and that gates nothing in use, and a gated PLL loses its lock.
Each of these completes under the conditions its clauses name: `clkCtrlWrite`, `clkSelWrite`, `clkRctrimWrite` and `clkGateWrite`. -/
def Obligations.Clock_Registers : Prop :=
  (∀ (s : State) (w : Word), w &&& 7#32 ≠ 0#32 → (bitOf (s.reg R.clkCtrl) (clkActive s) = true → bitOf (w &&& 0xF#32) (clkActive s) = true) →
    ∃ t, exec (.clkCtrlWrite w) s = .next t ∧ t.reg R.clkCtrl = w &&& 0xF#32 ∧ (∀ c, c < 3 → clkQual t c = (clkQual s c && bitOf w c)) ∧
      (∀ a, a ≠ R.clkCtrl → a ≠ R.clkStat → t.reg a = s.reg a) ∧ t.clk = s.clk ∧ t.evt = s.evt ∧ t.loop = s.loop)
  ∧ (∀ (s : State) (w : Word), bitsOf w 0 2 ≠ 3 → clkEnabled s (bitsOf w 0 2) = true → clkQual s (bitsOf w 0 2) = true →
    exec (.clkSelWrite w) s = .next (tbSettle (clkSwitch s (bitsOf w 0 2))))
  ∧ (∀ (s : State) (w : Word), (bitsOf w 30 2 = 3 → exec (.clkRctrimWrite w) s = .next (trimStop (s.setReg R.clkRctrim (w &&& 0xC0003FFF#32))))
    ∧ (bitsOf w 30 2 ≠ 3 → bitsOf w 0 14 = s.fld R.clkRctrim_TRIM → exec (.clkRctrimWrite w) s = .next (s.setReg R.clkRctrim (w &&& 0xC0003FFF#32))))
  ∧ (∀ (s : State) (w new : Word), new = (w &&& 0x01F7FF3E#32) ||| 1#32 →
    (∀ b, b < 25 → bitOf new b = true → ∀ p ∈ gateParent b, bitOf new p = true) →
    (∀ b, b < 25 → bitOf (s.reg R.clkGate) b = true → bitOf new b = false → gateInUse s b = false) →
    ∃ t, exec (.clkGateWrite w) s = .next t ∧ t.reg R.clkGate = new ∧
      (∀ i, 1 ≤ i → i ≤ 3 → bitOf new (pllGate i) = false → t.flag (pllLockFld i) = false))

/-- Resets by supply, pin and monitor (R115, R117, R465): the core is at its reset state, its registers at their reset words but for the keep
words, the field die's and the HUSK_EN bit; the queue, Husk and the NVM die of a device without a stage or a save are as before;
the cause is noted. Release of reset starts the start-up (R113, R114, R116, R132, R134): straps and factory values are taken, the
counts of resets kept; the chosen bank is loaded, the other as its fallback with event 24, recovery where neither passes or RECOV_N is
low; command-ready raises event 0 with the reset causes.
Each of these completes under the conditions its clauses name: `resetAssert`, `supplyMonitorReset`, `resetRelease`, `moduleResetDelay`,
`reedRestartComplete`, `firmwareBankLoaded` and `commandReady`. -/
def Obligations.Resets_And_Start_Up : Prop :=
  (∀ (s : State) (power : Bool) (lost : List (Fin 1024)),
    ∃ t, exec (.resetAssert power lost) s = .next t ∧ t.phase = .reset ∧ t.reed = .held ∧ t.dt = 0 ∧ t.force = [] ∧ t.clk = {} ∧ t.loop = {} ∧ t.cmd = {} ∧
      t.sense = {} ∧ t.nib = {} ∧ t.ink = {} ∧ t.fdbk = {} ∧ t.store = {} ∧ t.net = {} ∧ t.sward = {} ∧ t.sheaf = {} ∧ t.evt = {} ∧
      (∀ a, survives a = false → a ≠ R.nibGlob → t.reg a = resetWord a) ∧ t.pending = s.pending ∧ t.safe.husk = s.safe.husk ∧
      (s.boot.save = none → s.boot.stage = none → t.nvm = s.nvm) ∧
      t.boot.cause = Nat.lor (if s.phase = .reset then s.boot.cause else 0) (if power then 1 else 2))
  ∧ (∀ (s : State) (lost : List (Fin 1024)),
    ∃ t, exec (.supplyMonitorReset lost) s = .next t ∧ t.phase = .reset ∧ t.reed = .held ∧ t.dt = 0 ∧ t.force = [] ∧ t.clk = {} ∧ t.loop = {} ∧ t.cmd = {} ∧
      t.sense = {} ∧ t.nib = {} ∧ t.ink = {} ∧ t.fdbk = {} ∧ t.store = {} ∧ t.net = {} ∧ t.sward = {} ∧ t.sheaf = {} ∧ t.evt = {} ∧
      (∀ a, survives a = false → a ≠ R.nibGlob → t.reg a = resetWord a) ∧ t.pending = s.pending ∧ t.safe.husk = s.safe.husk ∧
      (s.boot.save = none → s.boot.stage = none → t.nvm = s.nvm) ∧
      t.boot.cause = Nat.lor (if s.phase = .reset then s.boot.cause else 0) 4)
  ∧ (∀ (s : State) (straps : BitVec 8), s.phase = .reset → s.keep.busy = [] → s.keep.wait = [] →
    ∃ t, exec (.resetRelease straps) s = .next t ∧ t.phase = (if straps.getLsbD 3 then .test else .starting) ∧ t.boot.step = 1 ∧ t.boot.cause = 0 ∧
      t.reg R.sysStrap = straps.setWidth 32 ∧ t.reg R.sysRstcause = wd s.boot.cause ∧ t.fld R.spiHcfg_MODE = bitsOf (straps.setWidth 32) 0 2 ∧
      t.fld R.sheafCfg_SLOT = bitsOf (straps.setWidth 32) 4 4 ∧ t.fld R.clkRctrim_TRIM = Config.factoryTrim.toNat % 16384 ∧
      (∀ p, p < 2 → t.reg (R.ethMacLo p) = Config.factoryMac (2 * p) ∧ t.reg (R.ethMacHi p) = Config.factoryMac (2 * p + 1) &&& 0xFFFF#32) ∧
      t.keep.busy = (961, wd (satAdd 32 (s.reg (R.keepWord 961)).toNat 1)) ::
        (if s.boot.cause % 2 = 1 then [] else [(965, wd (satAdd 32 (s.reg (R.keepWord 965)).toNat 1))]) ∧
      t.reed = s.reed ∧ t.loop = s.loop ∧ t.cmd = s.cmd ∧ t.pending = s.pending)
  ∧ (∀ s : State, s.boot.resetDue = true → exec .moduleResetDelay s = .next (coreReset s 8 []))
  ∧ (∀ (s u v : State), s.phase = .ready → s.reed = .held →
    u = (s.withReed .running).withCmd { s.cmd with ports := s.cmd.ports.map (fun (p : Port) => { p with done := [] }) } →
    v = camAbandon (if s.boot.stage.isSome = true then fwAbandon u 6 else u) →
    exec .reedRestartComplete s = .next (if v.flag R.fwStat_TRIAL = true then fwFallback v 2 else v))
  ∧ (∀ s : State, s.phase = .starting → s.boot.step = 1 → s.flag R.sysStrap_RECOV = true →
    ∃ t, exec .firmwareBankLoaded s = .next t ∧ t.reed = .busy ∧ t.boot.step = 4 ∧ t.flag R.fwStat_RECOVERY = true ∧ t.flag R.sysRstcause_RECOVERY = true)
  ∧ (∀ (s : State) (b : Nat), s.phase = .starting → s.boot.step = 1 → s.flag R.sysStrap_RECOV = false → s.keep.bad.find? (fun e => e.1 == 960) = none →
    b = bitsOf (s.reg (R.keepWord 960)) 0 1 →
    ∃ t, exec .firmwareBankLoaded s = .next t ∧ t.reed = .busy ∧ t.boot.step = (if fwVerify s b = 0 ∨ fwVerify s (1 - b) = 0 then 2 else 4)
      ∧ t.fld R.fwStat_CONFIRMED = b
      ∧ (fwVerify s b = 0 → t.fld R.fwStat_RUNNING = b ∧ t.reg (R.fwVer b) = fwWord s b 1 ∧ t.flag R.fwStat_RECOVERY = s.flag R.fwStat_RECOVERY ∧
        t.evt = s.evt ∧ t.keep = s.keep)
      ∧ (fwVerify s b ≠ 0 → fwVerify s (1 - b) = 0 → t.fld R.fwStat_RUNNING = 1 - b ∧ t.flag R.fwStat_BOOT_FALLBACK = true ∧
        s.evt.occ ++ [{ ev := 24, inst := 1 - b, detail := 3#32 }] <+: t.evt.occ)
      ∧ (fwVerify s b ≠ 0 → fwVerify s (1 - b) ≠ 0 → t.flag R.fwStat_RECOVERY = true ∧ t.flag R.sysRstcause_RECOVERY = true))
  ∧ (∀ (s u : State) (us : Word), s.phase = .starting → s.boot.step = 4 →
    u = evtDrain (raiseOwed (hrdyUpdate (State.setReg ((s.withPhase (if s.flag R.fwStat_RECOVERY then .recovery else .ready)).withReed .running) R.sysReady us) true)) →
    exec (.commandReady us) s = .next (u.raise 0 0 (u.reg R.sysRstcause)))

/-- RESET_BLOCK resets the block it names and raises event 27, the whole module 1 ms later (R118); DORMANT powers the device down once its
counts are written (R141); an edge that is enabled as a wake, and a CAN wake, reset it with cause WAKE (R142, R412).
Each of these completes under the conditions its clauses name: `resetBlock`, `dormant`, `wake` and `canWakeDetect`. -/
def Obligations.Block_Reset_And_Dormant : Prop :=
  (∀ (s : State) (r : Request), s.served → r.params.length ≤ 1 →
    (0 < r.target → r.target ≤ 14 → exec (.resetBlock r) s = .next (respond r { st := blockReset s r.target }))
    ∧ (r.target = 0 → r.params = [0x7224#32] → (∀ g, g < 8 → grpState s g = 0) →
      exec (.resetBlock r) s = .next (respond r { st := (s.withBoot { s.boot with resetDue := true }).raise 27 0 0#32 })))
  ∧ (∀ (s : State) (r : Request), s.served → r.target = 0 → r.params = [] → dormantBad s = false →
    exec (.dormant r) s = .next (((hrdyUpdate (keepFlush (respond r { st := s })) false).withPhase .dormant).withReed .held))
  ∧ (∀ (s : State) (src : Fin 3) (inst : Fin 32) (rising : Bool), s.phase = .dormant → src.val < 2 →
    exec (.wake src inst rising) s = .next (coreReset s 16 []))
  ∧ (∀ (s : State) (inst : Fin 32) (rising : Bool), s.phase = .dormant →
    (s.fld (R.fieldCfg_WAKE inst.val)).testBit (if rising then 0 else 1) = true →
    exec (.wake 2 inst rising) s = .next (coreReset (s.withBoot { s.boot with fioWoke := some (inst.val, if rising then 1 else 2) }) 16 []))
  ∧ (∀ (s : State) (n : Fin 4) (sel : Bool) (dom : BitVec 16) (ide : Bool) (id : BitVec 29) (dlc : Fin 16) (data : List Byte),
    canWakes s n.val sel dom.toNat ide id.toNat dlc.val data = true →
    (s.phase = .dormant → exec (.canWakeDetect n sel dom ide id dlc data) s = .next (coreReset (s.withCan { s.can with woke := some (n.val, if sel then 2 else 1) }) 16 []))
    ∧ (s.phase ≠ .dormant → exec (.canWakeDetect n sel dom ide id dlc data) s = .next (canWake s n.val sel)))

/-- Configuration (R123, R124, R126, R127): a CFG_LOAD in a device whose groups all stand begins, applies the blocks asked for, and ends with
event 16 once a CONTEXTS block need not wait; a CFG_SAVE takes the image staged, or the one it captures, and the
end of its work answers with event 19; the backups and the blocks are applied at start-up.
Each of these completes under the conditions its clauses name: `cfgLoad`, `configBlocksApply`, `mapCamRestore`, `cfgSave` and `cfgSaved`. -/
def Obligations.Configuration_Work : Prop :=
  (∀ (s : State) (r : Request) (m src : Word), s.served → r.target = 0 → r.params = [m, src] → bitsOf m 16 16 = 0 → src.toNat ≤ 2 →
    bitOf m 15 = false → (∀ g, g < 8 → grpState s g = 0) →
    exec (.cfgLoad r) s = .next (respond r { st := (((applyBegin s).setFlag R.cfgStat_LOAD_BUSY true).withReed .busy).withBoot { s.boot with load := some (m.toNat, src.toNat) } }))
  ∧ (∀ (s : State) (mask src : Nat) (x : State × List Nat), s.boot.load = some (mask, src) →
    x = blocksApply (match src with | 0 => bankImage s (s.fld R.cfgStat_BANK) | 1 => bankImage s (1 - s.fld R.cfgStat_BANK) | _ => stagedImage s) s
      ((List.range 15).filter (mask.testBit ·)) →
    (x.2 = [] → ∃ t, exec .configBlocksApply s = .next t ∧ t.flag R.cfgStat_LOAD_BUSY = false ∧ t.reed = .running ∧ t.boot.load = none ∧
      t.evt.occ = x.1.evt.occ ++ [{ ev := 16, inst := (match src with | 0 => s.fld R.cfgStat_BANK | 1 => 1 - s.fld R.cfgStat_BANK | _ => 2), detail := wd (x.1.fld R.cfgStat_DEFAULTED) }] ∧
      (∀ a, a ≠ R.cfgStat → t.reg a = x.1.reg a) ∧ t.loop = x.1.loop ∧ t.sense = x.1.sense ∧ t.nib = x.1.nib)
    ∧ (x.2 ≠ [] → exec .configBlocksApply s = .next (x.1.withBoot { x.1.boot with load := some (blockMask x.2, src) })))
  ∧ (∀ (s u : State), s.boot.load = none → s.phase = .starting → s.boot.step = 3 →
    u = ((s.setFlag R.cfgStat_NO_IMAGE (bankChoice s).isNone).setFld R.cfgStat_BANK ((bankChoice s).getD 0)).setReg R.cfgGen
      (wd (imgGen (match bankChoice s with | some b => bankImage s b | none => []))) →
    ∃ t, exec .configBlocksApply s = .next t ∧ t.boot.step = 4 ∧
      t.regs = (applyEnd (blocksApply (match bankChoice s with | some b => bankImage s b | none => []) (applyBegin u) (15 :: List.range 15)).1 ((bankChoice s).getD 0)).regs)
  ∧ (∀ s u : State, s.phase = .starting → s.boot.step = 2 → u = s.nvm.cams.foldl camRestore (s.nvm.maps.foldl mapRestore s) →
    exec .mapCamRestore s = .next (u.withBoot { u.boot with step := 3 }))
  ∧ (∀ (s u : State) (r : Request) (p : Word), s.served → r.target = 0 → r.params = [p] → bitsOf p 4 28 = 0 →
    s.flag R.cfgStat_SAVE_BUSY = false → s.flag R.fwStat_STAGE_BUSY = false → u = (if bitOf p 0 then capture s else s) →
    (bitOf p 1 = true → imgOk (stagedImage u) = true) →
    exec (.cfgSave r) s = .next (respond r { st := (u.setFlag R.cfgStat_SAVE_BUSY true).withBoot { u.boot with
      save := some (p.toNat, saveBank s, if bitOf p 1 then imgWithGen (stagedImage u) ((s.reg R.cfgGen).toNat + 1) else []) } }))
  ∧ (∀ (s u : State) (res : Fin 3) (p b : Nat) (img : List Word), s.boot.save = some (p, b, img) →
    u = (s.setFlag R.cfgStat_SAVE_BUSY false).withBoot { s.boot with save := none } →
    exec (.cfgSaved res) s = .next ((if res.val = 0 then saveGood u p b img else saveFail u p b).raise 19
      (if p.testBit 1 then b else s.fld R.cfgStat_BANK) (wd res.val)))

/-- Keep memory (R129 to R132): a KEEP_WRITE to a word of the host that is not busy starts and answers the wear count; a register write of
a busy word waits for it; the word has its value when the write is persistent, and a write that waited then starts; the
device's own counters count on the end of an hour and when held counts are flushed.
Each of these completes under the conditions its clauses name: `keepWrite`, `keepWordRegWrite`, `keepWritePersist`, `keepHourlyCount` and
`keepCounterFlush`. -/
def Obligations.Keep_Memory : Prop :=
  (∀ (s : State) (r : Request) (w : Word), s.served → r.params = [w] → r.target < 960 → keepBusy s r.target = false →
    exec (.keepWrite r) s = .next (respond r { st := (keepStart s r.target w).1, status := if (keepStart s r.target w).2 then stWORN else stOK,
                                               data := [wd ((keepStart s r.target w).1.fld (R.keepWear_COUNT r.target))] }))
  ∧ (∀ (s : State) (n : Fin 1024) (w : Word), n.val < 960 → serving s = true →
    (keepBusy s n.val = false → exec (.keepWordRegWrite n w) s = .next (keepStart s n.val w).1)
    ∧ (keepBusy s n.val = true → exec (.keepWordRegWrite n w) s = .next (s.withKeep { s.keep with wait := s.keep.wait ++ [(n.val, w)] })))
  ∧ (∀ (s : State) (n : Fin 1024) (ecc : Fin 3) (w : Word), s.keep.busy.find? (fun e => e.1 == n.val) = some (n.val, w) →
    s.keep.wait.find? (fun e => e.1 == n.val) = none →
    ∃ t, exec (.keepWritePersist n ecc) s = .next t ∧ t.reg (R.keepWord n.val) = w ∧ t.keep.busy = s.keep.busy.filter (fun e => e.1 != n.val) ∧
      t.flag R.keepStat_BUSY = !(s.keep.busy.filter (fun e => e.1 != n.val)).isEmpty ∧ t.keep.wait = s.keep.wait ∧
      t.keep.bad = (if ecc.val = 0 then [] else [(n.val, ecc.val)]) ++ s.keep.bad.filter (fun b => b.1 != n.val) ∧
      (∀ a, a ≠ R.keepWord n.val → a ≠ R.keepStat → t.reg a = s.reg a) ∧ t.evt = s.evt)
  ∧ (∀ (s : State) (n : Fin 1024) (ecc : Fin 3) (w v : Word), s.keep.busy = [(n.val, w)] → s.keep.wait = [(n.val, v)] →
    ∃ t, exec (.keepWritePersist n ecc) s = .next t ∧ t.reg (R.keepWord n.val) = w ∧ t.keep.busy = [(n.val, v)] ∧ t.keep.wait = [] ∧ t.flag R.keepStat_BUSY = true)
  ∧ (∀ s : State, clkRuns s = true → exec .keepHourlyCount s = .next (keepBump s 962 1))
  ∧ (∀ (s u : State), clkRuns s = true → u = (s.withNib { s.nib with latches := 0 }).withKeep { s.keep with hot := s.keep.hot % 600 } →
    (s.nib.latches = 0 → s.keep.hot < 600 → exec .keepCounterFlush s = .next u)
    ∧ (s.nib.latches ≠ 0 → s.keep.hot < 600 → exec .keepCounterFlush s = .next (keepBump u 966 s.nib.latches))
    ∧ (s.nib.latches = 0 → 600 ≤ s.keep.hot → exec .keepCounterFlush s = .next (keepBump u 967 (s.keep.hot / 600)))
    ∧ (s.nib.latches ≠ 0 → 600 ≤ s.keep.hot → exec .keepCounterFlush s = .next (keepBump (keepBump u 966 s.nib.latches) 967 (s.keep.hot / 600))))

/-- A firmware stage (R135): BEGIN erases the bank that is not running, DATA appends words to it while the buffer has room, END closes it,
verification stages the image or tells why not, and 60 s without DATA or END abandon it.
Each of these completes under the conditions its clauses name: `fwStageBegin`, `fwStageData`, `fwStageEnd`, `fwStageVerified` and
`fwStageTimeout`. -/
def Obligations.Firmware_Stage : Prop :=
  (∀ (s : State) (r : Request) (p len : Word), s.served → r.target = 0 → r.params = [p, len] → bitsOf p 0 30 = 0 → len.toNat % 4 = 0 → len.toNat ≤ 4194304 →
    s.flag R.cfgStat_SAVE_BUSY = false → s.flag R.fwStat_TRIAL = false →
    ∃ u, exec (.fwStageBegin r) s = .next (respond r { st := u }) ∧ u.boot.stage = some { len := len.toNat / 4, at_ := s.dt + tk fwSectorTicks } ∧
      u.nvm = (fwErase s (fwOther s)).nvm ∧ u.flag R.fwStat_STAGE_BUSY = true ∧ u.flag R.fwStat_STAGED = false ∧ u.reg (R.fwVer (fwOther s)) = 0#32 ∧
      u.fld R.fwStage_NEXT_WORD = 0 ∧ u.evt = s.evt ∧ u.loop = s.loop)
  ∧ (∀ (s : State) (r : Request) (p : Word) (ws : List Word) (x : FwStage), s.served → r.target = 0 → r.params = p :: ws → ws ≠ [] → bitsOf p 20 10 = 0 →
    s.boot.stage = some x → bitsOf p 0 20 = s.fld R.fwStage_NEXT_WORD → x.ended = false → x.got + ws.length ≤ x.len →
    x.got + ws.length ≤ (fwDrain s.dt 32768 x).prog + 16384 →
    ∃ u, exec (.fwStageData r) s = .next (respond r { st := u }) ∧ (∀ i, i < ws.length → fwWord u (fwOther s) (x.got + i) = nth ws i 0#32) ∧
      (∀ k, k < fwOther s * 1048576 + x.got ∨ fwOther s * 1048576 + x.got + ws.length ≤ k → tblGet u.nvm.fw k 0xFFFFFFFF#32 = tblGet s.nvm.fw k 0xFFFFFFFF#32) ∧
      u.fld R.fwStage_NEXT_WORD = (x.got + ws.length) % 2 ^ 20 ∧ (∃ y, u.boot.stage = some y ∧ y.got = x.got + ws.length ∧ y.ended = false))
  ∧ (∀ (s : State) (r : Request) (p : Word) (x : FwStage), s.served → r.target = 0 → r.params = [p] → bitsOf p 0 30 = 0 → s.boot.stage = some x →
    x.ended = false → x.len ≤ x.got →
    exec (.fwStageEnd r) s = .next (respond r { st := (s.withBoot { s.boot with stage := some { x with ended := true } }) }))
  ∧ (∀ (s : State) (x : FwStage), s.boot.stage = some x → x.ended = true →
    ∃ t, exec .fwStageVerified s = .next t ∧ t.boot.stage = none ∧ t.flag R.fwStat_STAGE_BUSY = false ∧
      (fwVerify s (fwOther s) = 0 → t.flag R.fwStat_STAGED = true ∧ t.reg (R.fwVer (fwOther s)) = fwWord s (fwOther s) 1) ∧
      (fwVerify s (fwOther s) ≠ 0 → t.flag R.fwStat_STAGED = s.flag R.fwStat_STAGED) ∧
      t.evt.occ = s.evt.occ ++ [{ ev := 22, inst := fwOther s, detail := wd (fwVerify s (fwOther s)) }] ∧ t.nvm = s.nvm)
  ∧ (∀ (s : State) (x : FwStage), s.boot.stage = some x → x.ended = false →
    ∃ t, exec .fwStageTimeout s = .next t ∧ t.boot.stage = none ∧ t.flag R.fwStat_STAGE_BUSY = false ∧ t.flag R.fwStat_STAGED = false ∧
      t.reg (R.fwVer (fwOther s)) = 0#32 ∧ t.nvm = (fwErase s (fwOther s)).nvm ∧ t.evt.occ = s.evt.occ ++ [{ ev := 22, inst := fwOther s, detail := 5#32 }])

/-- Switches and trials (R136, R137, R354): a switch without a group exchanges Reed's memories at once, one with a group at its next
boundary; Reed resumes under trial with event 23, or on the old image with event 24; CONFIRM keeps the image with event 25; a trial
that ends or is reverted falls back; a switch whose group has no boundary is abandoned with event 24; SCRIBE begins a
single-channel interval with event 203.
Each of these completes under the conditions its clauses name: `fwSwitchSwitch`, `reedResume`, `fwSwitchConfirm`, `fwSwitchRevert`,
`trialExpiry`, `fwSwitchAbandon` and `fwSwitchScribe`. -/
def Obligations.Firmware_Switch : Prop :=
  (∀ (s u : State) (r : Request) (p sec : Word), s.served → r.params = [p, sec] → bitsOf p 2 30 = 0 → sec.toNat ≤ 600 →
    s.flag R.fwStat_STAGED = true → s.boot.swap = none →
    (r.target = 0xFFFF → (∀ g, g < 8 → grpState s g = 0) →
      u = s.withBoot { s.boot with trialGrp := 0xFFFF, trialSec := if sec = 0#32 then 60 else sec.toNat, swap := none, hold := true } →
      exec (.fwSwitchSwitch r) s = .next (respond r { st := fwExchange u 0 }))
    ∧ (r.target ≤ 7 → (s.grp r.target).p ≠ 0 → 50 * usTicks ≤ grpFrame s r.target → tbValid s = true →
      u = s.withBoot { s.boot with trialGrp := r.target, trialSec := if sec = 0#32 then 60 else sec.toNat, swap := some (r.target, 0), hold := true } →
      exec (.fwSwitchSwitch r) s = .next (respond r
        { st := addPend u r.target (dueNext s r.target) false (.fwSwap 0), affects := [(r.target, dueNext s r.target)] })))
  ∧ (∀ (s : State) (k : Nat), s.boot.resume = some k →
    ∃ t, exec .reedResume s = .next t ∧ t.reed = .running ∧ t.boot.hold = false ∧ t.boot.resume = none ∧ t.flag R.fwStat_TRIAL = decide (k = 0) ∧
      (k = 0 → t.evt.occ = s.evt.occ ++ [{ ev := 23, inst := s.fld R.fwStat_RUNNING, detail := s.reg (R.fwVer (s.fld R.fwStat_RUNNING)) }]) ∧
      (k ≠ 0 → s.evt.occ ++ [{ ev := 24, inst := s.fld R.fwStat_RUNNING, detail := wd (k - 1) }] <+: t.evt.occ))
  ∧ (∀ (s : State) (r : Request), s.served → r.params.length = 2 → fwSwitchBad r = none → s.flag R.fwStat_TRIAL = true → s.boot.swap = none →
    ∃ u v : State, exec (.fwSwitchConfirm r) s = .next (respond r { st := u }) ∧ u = v.raise 25 (s.fld R.fwStat_RUNNING) 0#32 ∧
      u.fld R.fwStat_CONFIRMED = s.fld R.fwStat_RUNNING % 2 ∧ u.flag R.fwStat_TRIAL = false ∧ keepLatest u 960 = wd (s.fld R.fwStat_RUNNING))
  ∧ (∀ (s : State) (r : Request), s.served → r.params.length = 2 → fwSwitchBad r = none → s.flag R.fwStat_TRIAL = true → s.boot.swap = none →
    (7 < s.boot.trialGrp → exec (.fwSwitchRevert r) s = .next (respond r { st := fwExchange s 1 }))
    ∧ (s.boot.trialGrp ≤ 7 → exec (.fwSwitchRevert r) s = .next (respond r
        { st := addPend (s.withBoot { s.boot with swap := some (s.boot.trialGrp, 1) }) s.boot.trialGrp (dueNext s s.boot.trialGrp) false (.fwSwap 1),
          affects := [(s.boot.trialGrp, dueNext s s.boot.trialGrp)] })))
  ∧ (∀ (s u : State), s.flag R.fwStat_TRIAL = true → s.boot.resume = none → s.boot.swap = none → u = s.at s.boot.trialEnd →
    (7 < s.boot.trialGrp → exec .trialExpiry s = .next (fwExchange u 2))
    ∧ (s.boot.trialGrp ≤ 7 → exec .trialExpiry s = .next
        (addPend (u.withBoot { u.boot with swap := some (s.boot.trialGrp, 2) }) s.boot.trialGrp (dueNext u s.boot.trialGrp) false (.fwSwap 2))))
  ∧ (∀ (s : State) (g : Nat), s.boot.swap = some (g, 0) →
    ∃ t, exec .fwSwitchAbandon s = .next t ∧ t.boot.swap = none ∧ t.boot.hold = false ∧ (∀ p ∈ t.loop.pend, p.ch ≠ .fwSwap 0) ∧ t.regs = s.regs ∧
      t.evt.occ = s.evt.occ ++ [{ ev := 24, inst := s.fld R.fwStat_RUNNING, detail := 4#32 }])
  ∧ (∀ (s : State) (r : Request), s.served → r.params.length = 2 → fwSwitchBad r = none → scribeSwitchBad s = false → s.safe.single = false →
    ∃ u, exec (.fwSwitchScribe r) s = .next (respond r { st := u }) ∧ u.safe.single = true ∧ u.flag R.safeState_SINGLE = true ∧
      u.evt.occ = s.evt.occ ++ [{ ev := 203, inst := 0, detail := 1#32 }] ∧ u.loop = s.loop ∧ u.boot = s.boot)

/-- Contexts (R40, R41, R195, R196, R223): CTX_CREATE makes a context in the lowest free slot, and gives an axis, gear or stroke
group the lowest free number, and answers them; a deletion frees the slot at once where the context is not committed or its group has no
carrier, and at the next boundary otherwise; a binding or a parameter word that is accepted waits for the boundary it is assigned;
ADMIT commits the contexts that pass its tests and takes its settings, with event 99, or only answers the figures.
Each of these completes under the conditions its clauses name: `ctxCreate`, `ctxDelete`, `ctxBind`, `ctxParam` and `admitRq`. -/
def Obligations.Contexts : Prop :=
  (∀ (s : State) (r : Request) (p : Word) (slot : Nat) (held : List Nat), s.served → r.target = 0 → r.params = [p] → createBad s p = false →
    held = s.slots.filter (fun k => (kindMates (bitsOf p 28 4)).1.contains (s.ctx k).kind) → held.length < (kindMates (bitsOf p 28 4)).2 →
    findNat 256 (fun k => (s.ctx k).kind == 0) = some slot →
    (kindNumbered (bitsOf p 28 4) = false → exec (.ctxCreate r) s = .next (respond r { st := ctxMake s slot 0 p, status := stOK, data := [wd slot] }))
    ∧ (∀ n, kindNumbered (bitsOf p 28 4) = true → findNat (kindMates (bitsOf p 28 4)).2 (fun n => !(held.any (fun k => (s.ctx k).num == n))) = some n →
      exec (.ctxCreate r) s = .next (respond r { st := ctxMake s slot n p, status := stOK, data := [wd slot, wd n] })))
  ∧ (∀ (s : State) (r : Request), s.served → r.params = [] → slotCheck s r.target [1, 2, 3, 4, 5, 6, 7, 8, 9, 10, 11, 12, 13] = none →
    namers s r.target = [] ∨ ((s.ctx r.target).kind = 6 ∧ (namers s r.target).all (angleOnly s r.target) = true) →
    ((s.ctx r.target).kind = 5 → ∀ m ∈ bMembers (curBind s r.target), windState s m = 0) → sheafHolds s = false ∨ (s.ctx r.target).grp ≠ 0 →
    (inCommitted s r.target = false ∨ (s.grp (s.ctx r.target).grp).p = 0 → exec (.ctxDelete r) s = .next (respond r { st := ctxFree s r.target 0, status := stOK }))
    ∧ (inCommitted s r.target = true → (s.grp (s.ctx r.target).grp).p ≠ 0 → exec (.ctxDelete r) s = .next (respond r
        { st := addPend s (s.ctx r.target).grp (dueNext s (s.ctx r.target).grp) false (.delete r.target),
          affects := [((s.ctx r.target).grp, dueNext s (s.ctx r.target).grp)] })))
  ∧ (∀ (s : State) (r : Request), s.served → r.params ≠ [] → slotCheck s r.target [1, 2, 3, 4, 5, 6, 7, 8, 9, 10, 11, 12, 13] = none →
    r.params.length = bindCount (s.ctx r.target).kind → bindStatus s r.target r.params = none →
    (inCommitted s r.target = true → (admResult s { admNow s (committedSet s) with bind := bindWith (effBind s) r.target r.params }).1 = 0) →
    exec (.ctxBind r) s = .next (respond r
      { st := addPend s (s.ctx r.target).grp (dueNext s (s.ctx r.target).grp) false (.bind r.target r.params),
        affects := [((s.ctx r.target).grp, dueNext s (s.ctx r.target).grp)] }))
  ∧ (∀ (s : State) (r : Request), s.served → 2 ≤ r.params.length → r.params.length ≤ 128 →
    slotCheck s r.target [1, 2, 3, 4, 5, 6, 7, 8, 9, 10, 11, 12, 13] = none → bitsOf (r.p 0) 16 16 = 0 →
    exec (.ctxParam r) s = .next (respond r (ctxParam s r.target (r.p 0).toNat (r.params.drop 1))))
  ∧ (∀ (s : State) (r : Request) (off : Nat) (x v : Word) (w : PW), s.served → r.params = [wd off, x] → 1 ≤ off → off < 128 →
    slotCheck s r.target [1, 2, 3, 4, 5, 6, 7, 8, 9, 10, 11, 12, 13] = none →
    ctxRow (s.ctx r.target).kind (s.cw r.target 0) off = some w → rowBad s (s.ctx r.target).kind w (s.cw r.target off) x = false →
    v = rowValue w (s.cw r.target off) x → v ≠ s.cw r.target off →
    relBad s r.target (fun k => if k = off then v else s.cw r.target k) (fun k => k == off) = false →
    relState s r.target (fun k => if k = off then v else s.cw r.target k) (fun k => k == off) = none →
    exec (.ctxParam r) s = .next (respond r
      { st := addPend (s.setCw r.target off v) (s.ctx r.target).grp (dueNext s (s.ctx r.target).grp) false (.ctxWords r.target off [v]),
        affects := [((s.ctx r.target).grp, dueNext s (s.ctx r.target).grp)] }))
  ∧ (∀ (s : State) (r : Request) (a : AdmitIn) (d : List Word) (wins new : List Nat) (u v : State), s.served → r.target = 0 → r.params.length = 4 →
    admitBad r = false → wins = (List.range 8).filter (fun g => admitWin r g != 0) → new = s.slots.filter (fun k => !inCommitted s k) →
    a = { admNow s s.slots with
      floor := if bitOf (r.p 0) 1 then paceFloor (bitsOf (r.p 1) 16 12) (bitsOf (r.p 1) 0 8) else s.fld R.loopFloor_FLOOR_PS,
      win := fun g => if admitWin r g = 0 then windowPct s g else admitWin r g } →
    (admResult s a).1 = 0 →
    d = [wd ((admResult s a).2 * 65536), wd a.floor, wd (centi (admLoad s a)), wd (centi (admLimit a.floor))] ++
      (List.range 4).map (fun i => wd (admUse s a (2 * i) + 65536 * admUse s a (2 * i + 1))) →
    u = wins.foldl (fun t g => addPend t g (dueNext t g) false (.window (admitWin r g)))
      (if bitOf (r.p 0) 1 then setEnvelope s (bitsOf (r.p 1) 16 12) (bitsOf (r.p 1) 0 8) else s) →
    v = new.foldl (fun t k => addPend t (t.ctx k).grp (dueNext t (t.ctx k).grp) false (.commit k)) u →
    (bitOf (r.p 0) 0 = true → exec (.admitRq r) s = .next (respond r { st := s, data := d }))
    ∧ (bitOf (r.p 0) 0 = false → exec (.admitRq r) s = .next (respond r
        { st := (loopRefresh v).raise 99 0 (wd new.length), data := d,
          affects := ((wins ++ new.map (fun k => (s.ctx k).grp)).eraseDups).map (fun g => (g, dueNext s g)) })))

/-- Pace and shedding (R32, R35, R46, R54): a measurement stands in `LOOP.PACE` with the slowest so far, and raises event 4 when the fabric
becomes slow; the level rises and falls by one with events 5 and 6; a measurement outside the envelope, the junction a
signed number, raises event 7; the counters clear. That the figure saturates at 16 bits is the model's choice (log entry 73).
Each of these completes under the conditions its clauses name: `paceMeasurement`, `shedLevelRise`, `shedLevelFall`, `envelopeMeasurement`,
`loopClrWorst` and `loopClrLate`. -/
def Obligations.Pace_And_Shedding : Prop :=
  (∀ (s : State) (fs : List (BitVec 32)) (ps : Nat), tbValid s = true → ps = paceFigure fs →
    ∃ t, exec (.paceMeasurement fs) s = .next t ∧ t.fld R.loopPace_LIVE_PS = ps ∧ t.fld R.loopPace_WORST_PS = max ps (s.fld R.loopPace_WORST_PS) ∧
      t.flag R.loopStat_PACE_SLOW = decide (s.fld R.loopFloor_FLOOR_PS < ps) ∧ t.loop.wasSlow = decide (s.fld R.loopFloor_FLOOR_PS < ps) ∧
      t.loop.slow = (if s.fld R.loopFloor_FLOOR_PS < ps then s.loop.slow + 1 else 0) ∧
      t.evt.occ = s.evt.occ ++ (if s.fld R.loopFloor_FLOOR_PS < ps ∧ s.loop.wasSlow = false then [{ ev := 4, inst := 0, detail := wd ps }] else []) ∧
      (∀ a, a ≠ R.loopPace → a ≠ R.loopStat → t.reg a = s.reg a) ∧ t.nib = s.nib)
  ∧ (∀ (s u : State), s.fld R.loopShed_LEVEL < 4 → (if s.loop.rose then shedRiseRun else 2) ≤ s.loop.slow →
    u = (s.setFld R.loopShed_LEVEL (s.fld R.loopShed_LEVEL + 1)).cntSat R.loopShed_RISES →
    exec .shedLevelRise s = .next (shedPend ((u.withLoop { u.loop with slow := 0, rose := true }).raise 5 0 (wd (s.fld R.loopShed_LEVEL + 1))) (s.fld R.loopShed_LEVEL + 1)))
  ∧ (∀ (s u : State), s.fld R.loopShed_LEVEL ≠ 0 → shedFallRun ≤ s.loop.fast → u = s.setFld R.loopShed_LEVEL (s.fld R.loopShed_LEVEL - 1) →
    exec .shedLevelFall s = .next (shedPend ((u.withLoop { u.loop with fast := 0 }).raise 6 0 (wd (s.fld R.loopShed_LEVEL - 1))) (s.fld R.loopShed_LEVEL)))
  ∧ (∀ (s : State) (mv tj : BitVec 16), mv.toNat < s.fld R.loopEnv_VCORE_MIN ∨ (s.fld R.loopEnv_TJ_MAX : Int) < tj.toInt →
    exec (.envelopeMeasurement mv tj) s = .next (s.raiseLim 7 0 (wd (mv.toNat * 65536 + tj.toNat)) (100 * msTicks)))
  ∧ (∀ (s : State) (mv tj : BitVec 16), s.fld R.loopEnv_VCORE_MIN ≤ mv.toNat → tj.toInt ≤ (s.fld R.loopEnv_TJ_MAX : Int) → exec (.envelopeMeasurement mv tj) s = .next s)
  ∧ (∀ s : State, ∃ t, exec .loopClrWorst s = .next t ∧ t.fld R.loopPace_WORST_PS = 0 ∧ t.fld R.loopPace_LIVE_PS = s.fld R.loopPace_LIVE_PS ∧
      (∀ a, a ≠ R.loopPace → t.reg a = s.reg a) ∧ t.loop = s.loop ∧ t.evt = s.evt)
  ∧ (∀ s : State, ∃ t, exec .loopClrLate s = .next t ∧ (∀ g, g < 8 → t.reg (R.loopLate g) = 0#32) ∧
      (∀ a, (∀ g, g < 8 → a ≠ R.loopLate g) → t.reg a = s.reg a) ∧ t.loop = s.loop ∧ t.evt = s.evt)

/-- Passes on the Quills and the boundary of a frame (R14, R22 to R26, R42, R43, R139): the first ready pass of a free Quill leaves its group's
list and runs with the inputs and the context as they are; a pass that has its result commits it, and the last of a frame sends
the mirror; at the link-skip instant waiting consumers are released, each unfinished producer told; at the deadline every pass
that has not committed is late. At a boundary the late passes of the last frame are told, its mirror goes, its windows close, GSEQ
counts on, the changes that are due apply, and the next frame opens, or the group halts where its period has become 0.
CAL_SWAP exchanges the copies of a table no committed context uses at once, else at the boundaries of the groups that do.
Each of these completes under the conditions its clauses name: `passStart`, `passCommit`, `linkSkipInstant`, `passDeadline`,
`frameBoundary` and `calSwap`. -/
def Obligations.Passes_And_Boundaries : Prop :=
  (∀ (s : State) (k : Nat), s.loop.runs.length < 8 → tbValid s = true → firstReady s = some k → farLinks s (s.ctx k).kind (s.ctx k).bind = [] →
    ∃ t r, exec .passStart s = .next t ∧ t.loop.runs = s.loop.runs ++ [r] ∧ r.slot = k ∧ r.grp = (s.ctx k).grp ∧ r.t = (s.grp (s.ctx k).grp).bndAt ∧ r.out = none ∧
      r.ins = passInputs s k ∧ r.ctx = s.ctx k ∧ t.loop.pend = s.loop.pend ∧ t.loop.ctxs = s.loop.ctxs ∧ t.regs = s.regs ∧ t.evt = s.evt)
  ∧ (∀ (s u : State) (slot : Fin 256) (r : Run) (o : PassOut), s.loop.runs.find? (fun x => x.slot == slot.val) = some r → r.out = some o →
    u = commitOut (s.withLoop { s.loop with runs := s.loop.runs.filter (fun x => x.slot != slot.val) }) r o →
    exec (.passCommit slot) s = .next (if frameDone u r.grp then mirrorSend u r.grp else u))
  ∧ (∀ (s u : State) (g : Fin 8) (rel : Tick), (s.grp g.val).rel = some rel → (s.grp g.val).skip = false → tbValid s = true →
    u = s.at (rel + tk ((s.grp g.val).w / 2)) →
    exec (.linkSkipInstant g) s = .next (((u.grp g.val).todo.flatMap (fun k =>
        ((groupLinks u (curBind u) k).filter (fun p => p != k && unfinished u p)).map (fun p => (k, p)))).foldl
      (fun t e => t.raise 98 e.1 (wd e.2)) (u.setGrp g.val { u.grp g.val with skip := true })))
  ∧ (∀ (s u v : State) (g : Fin 8), tbValid s = true → frameDone s g.val = false → u = s.at (deadline s g.val) →
    v = u.setGrp g.val { u.grp g.val with todo := [] } →
    exec (.passDeadline g) s = .next (mirrorSend
      (((u.grp g.val).todo ++ (u.loop.runs.filter (fun r => r.grp == g.val)).map (·.slot)).foldl (fun t k => passLate t g.val k)
        (v.withLoop { v.loop with runs := v.loop.runs.filter (fun r => r.grp != g.val) })) g.val))
  ∧ (∀ (s u v w x y : State) (g : Fin 8) (t : Tick) (zero : Bool) (seq per : Word) (mode : Nat), tbValid s = true → (s.grp g.val).next = some (t, zero) →
    u = (passDeadline s g.val).at t → seq = nextSeq u g.val →
    v = (senseClose (if (s.grp g.val).first then u else sheafMirror (if g.val = 0 then leadCheck u else u) g.val t) g.val t).setReg (R.nibGseq g.val) seq →
    per = v.reg (R.nibGper g.val) → mode = (if zero then bitsOf per 29 2 else (v.grp g.val).mode) →
    w = v.setGrp g.val { v.grp g.val with
      first := false, bndAt := t, zeroAt := if zero then t else (v.grp g.val).zeroAt,
      zeros := if (v.grp g.val).first then 0 else if zero then (v.grp g.val).zeros + 1 else (v.grp g.val).zeros,
      mode := mode, du := if zero then bitOf per 31 else (v.grp g.val).du, rel := none, todo := [], skip := false } →
    x = (if mode = (v.grp g.val).mode then w else (grpNibs w g.val).foldl (fun a n => a.setNibS n { a.nibS n with clr := true }) w) →
    y = changesApply (if (s.grp g.val).first then x else windFrames x g.val) g.val seq zero t →
    exec (.frameBoundary g) s = .next (if (y.grp g.val).p = 0 then groupHalts (heldPass (snapsTake y g.val seq) g.val seq) g.val
      else frameOpen y g.val seq zero t (if (s.grp g.val).first then frameLen y g.val else (t - (s.grp g.val).bndAt).toNat)))
  ∧ (∀ (s : State) (r : Request) (w : Word), s.served → r.params = [w] → bitsOf w 0 8 = 1 → r.target ≤ 63 → mapShadowOk s r.target = true →
    s.flag (R.mapDir_SWAP_PEND r.target) = false →
    (mapGroups s r.target = [] → exec (.calSwap r) s = .next (respond r { st := (mapSwap s r.target).raise 26 r.target (wd 1) }))
    ∧ (mapGroups s r.target ≠ [] → exec (.calSwap r) s = .next (respond r
        { st := (mapGroups s r.target).foldl (fun t g => addPend t g (dueNext t g) false (.calMap r.target)) (s.setFlag (R.mapDir_SWAP_PEND r.target) true),
          affects := groupsDue s (mapGroups s r.target) })))
  ∧ (∀ (s : State) (r : Request) (w : Word), s.served → r.params = [w] → r.target = 0 →
    (bitsOf w 0 8 = 2 → calSwapPending s = false → (∀ c, c < 128 → calUsers s c = []) →
      exec (.calSwap r) s = .next (respond r { st := ((List.range 128).foldl calSwapChan s).raise 26 0 (wd 2) }))
    ∧ (bitsOf w 0 8 = 3 → exec (.calSwap r) s = .next (respond r { st := s.raise 26 0 (wd 3) })))

/-- The event unit and the monitors (R452 to R458): the arbiter takes every occurrence in order; a hold-off ends; a write of
`EVT.STAT` clears the bits written as ones; `EVT.TEST` raises a test; a rail or the case that crosses its limit is told.
Each of these completes under the conditions its clauses name: `eventArbitration`, `holdoffWindowEnd`, `evtStatClear`, `evtTest`,
`supplyMeasurement` and `caseTempMeasurement`. -/
def Obligations.Event_Unit : Prop :=
  (∀ s : State, serving s = true → exec .eventArbitration s = .next (irqUpdate ((occSort s.evt.occ).foldl evtOne (s.withEvt { s.evt with occ := [] }))))
  ∧ (∀ (s : State) (e : Fin 256) (h : HoldWin), s.evt.hold.find? (fun x => x.ev == e.val) = some h → tbValid s = true → serving s = true →
    exec (.holdoffWindowEnd e) s = .next (irqUpdate (holdEnd (s.at (h.start + tk h.len)) e.val)))
  ∧ (∀ (s : State) (i : Fin 8) (w : Word), ∃ t, exec (.evtStatClear i w) s = .next t ∧ t.reg (R.evtStat i.val) = s.reg (R.evtStat i.val) &&& ~~~w ∧
      (∀ k, k < 8 → k ≠ i.val → t.reg (R.evtStat k) = s.reg (R.evtStat k)) ∧ t.evt = s.evt ∧ t.loop = s.loop)
  ∧ (∀ (s : State) (w : Word), bitOf w 31 = true → evDefined (bitsOf w 0 8) = true →
    exec (.evtTest w) s = .next (s.raiseAll [{ ev := bitsOf w 0 8, inst := 0xFFFF, detail := 0#32, test := true }]))
  ∧ (∀ (s : State) (a b c d e : BitVec 16), coreRuns s = true →
    exec (.supplyMeasurement [a, b, c, d, e]) s = .next (railMeasure (railMeasure (railMeasure (railMeasure (railMeasure s 0 a.toNat) 1 b.toNat) 2 c.toNat) 3 d.toNat) 4 e.toNat))
  ∧ (∀ (s u : State) (c : BitVec 16), coreRuns s = true → u = (if caseMax < c.toInt then s.withKeep { s.keep with hot := s.keep.hot + 1 } else s) →
    (decide (caseMax < c.toInt) = s.boot.hot → exec (.caseTempMeasurement c) s = .next u)
    ∧ (decide (caseMax < c.toInt) ≠ s.boot.hot → exec (.caseTempMeasurement c) s = .next ((u.withBoot { s.boot with hot := !s.boot.hot }).raiseLim 2 0
        (wd (b2n (!s.boot.hot) * 2 ^ 31 + c.toNat)) (1000 * msTicks))))

/-- The register engine (R11, R13, R50, R51, R88 to R91): a run that can be read is answered with its words, one word beyond the registers
answering RANGE; a run that can be written is written part by part; a MODIFY_REG answers the old word; a READ_SNAPSHOT and a READ_REG
with SNAPSHOT wait for the boundary of their group; a register write takes effect by its block's rule, or by the access codes
of its row alone.
Each of these completes under the conditions its clauses name: `readReg`, `writeReg`, `modifyReg`, `readSnapshot` and `registerWrite`. -/
def Obligations.Register_Engine : Prop :=
  (∀ (s : State) (r : Request) (a n : Word) (x : State × List Word × Nat), s.phase = .ready → r.target = 0 → r.params = [a, n] → r.snapshot = false → addrBad a = false →
    1 ≤ n.toNat → n.toNat ≤ 256 → runGated s (runAddrs a.toNat n.toNat) = false →
    x = readRun (fun t b => portRead t r.port.val b) s (runAddrs a.toNat n.toNat) →
    (x.2.2 ≠ stRANGE → exec (.readReg r) s = .next (respond r { st := x.1, status := x.2.2, data := x.2.1 }))
    ∧ (x.2.2 = stRANGE → exec (.readReg r) s = .next (respond r { st := x.1, data := x.2.1, as_ := some stRANGE })))
  ∧ (∀ (s : State) (r : Request) (a n : Word), s.phase = .ready → r.target ≤ 7 → r.params = [a, n] → r.snapshot = true → addrBad a = false →
    1 ≤ n.toNat → n.toNat ≤ 32 → runGated s (runAddrs a.toNat n.toNat) = false →
    ∃ t, exec (.readReg r) s = .next t ∧ t.cmd.snaps = s.cmd.snaps ++ [{ req := r, grp := r.target, addrs := runAddrs a.toNat n.toNat, since := s.dt }] ∧ t.regs = s.regs)
  ∧ (∀ (s : State) (r : Request) (a : Word) (ws : List Word), s.phase = .ready → r.target = 0 → r.params = a :: ws → ws ≠ [] → addrBad a = false →
    runGated s (runAddrs a.toNat ws.length) = false → stRefused (runWrite s (runSplit ws.length a.toNat ws)).status = false →
    exec (.writeReg r) s = .next (respond r (runWrite s (runSplit ws.length a.toNat ws))))
  ∧ (∀ (s : State) (r : Request) (a m v : Word), s.phase = .ready → r.target = 0 → r.params = [a, m, v] → addrBad a = false →
    runGated s [a.toNat] = false → (regRead s a.toNat).status = 0 →
    stRefused (partWrite (regRead s a.toNat).st (a.toNat, [modifyWord a.toNat (regRead s a.toNat).val m v])).status = false →
    exec (.modifyReg r) s = .next (respond r { partWrite (regRead s a.toNat).st (a.toNat, [modifyWord a.toNat (regRead s a.toNat).val m v]) with
      data := [(regRead s a.toNat).val] }))
  ∧ (∀ (s : State) (r : Request), s.phase = .ready → r.target ≤ 7 → 1 ≤ r.params.length → r.params.length ≤ 32 → r.params.any addrBad = false →
    runGated s (snapAddrs r) = false →
    ∃ t, exec (.readSnapshot r) s = .next t ∧ t.cmd.snaps = s.cmd.snaps ++ [{ req := r, grp := r.target, addrs := snapAddrs r, since := s.dt }] ∧ t.regs = s.regs)
  ∧ (∀ (s : State) (a : BitVec 24) (w : Word), a.toNat % 4 = 0 → stRefused (regWrite s a.toNat w).status = false → regReady s a.toNat = true →
    exec (.registerWrite a w) s = .next (regWrite s a.toNat w).st)
  ∧ (∀ (s : State) (a : BitVec 24) (w : Word) (row : RegRow), a.toNat % 4 = 0 → regReady s a.toNat = true → regRow a.toNat = some row → row.rs = 0 →
    ¬ (0x100000 ≤ a.toNat ∧ a.toNat < 0x120000) → ¬ (0x162000 ≤ a.toNat ∧ a.toNat < 0x164000) →
    ¬ (0x1B4000 ≤ a.toNat ∧ a.toNat < 0x1B6000) → ¬ (0x340000 ≤ a.toNat ∧ a.toNat < 0x380000) → blockWrite s a.toNat w = none →
    ∃ t, exec (.registerWrite a w) s = .next t ∧ t.reg a.toNat = mergeBits (s.reg a.toNat) w (rowNow row) &&& ~~~(w &&& wd row.w1c) ∧
      (∀ b, b ≠ a.toNat → t.reg b = s.reg b) ∧ t.evt = s.evt)

/-- Inkwell (R304, R313, R314, R316, R317, R322, R323): INK_ARM empties the session and arms record 0, or rolls; INK_FORCE triggers an armed
session and leaves one that is triggered; INK_STOP ends what fills; a record that is complete ends in DONE or makes way for the next;
AUTO_T forces a trigger; a failure of the interface takes every session to FAULT; INK_READ of a closed record that holds
pages starts a readout of its channels at the destination asked for, and event 180 ends it; tokens refill.
Each of these completes under the conditions its clauses name: `niblogTokenRefill`, `inkArm`, `inkForce`, `inkStop`, `inkRecordComplete`,
`inkAutoExpiry`, `inkInterfaceFailure`, `inkReadDone` and `inkRead`. -/
def Obligations.Inkwell_Commands : Prop :=
  (∀ s : State, exec .niblogTokenRefill s = .next (
      s.withInk { s.ink with tokens := (List.range 72).foldl (fun t n => tblPut t n (min 4 (tblGet t n 0 + 1)) 0) s.ink.tokens }))
  ∧ (∀ (s : State) (r : Request), s.served → r.params = [] → inkDown s = false → r.target ≤ 3 → inkArmBad s r.target = false → inkQuiet s r.target = true →
    ∃ u, exec (.inkArm r) s = .next (respond r { st := inkArmRec u r.target 0 (if s.fld (R.inkScfg_MODE r.target) = 3 then 5 else 1) }) ∧
      (u.inkS r.target).recs = [] ∧ u.fld (R.inkSstat_FULL r.target) = 0 ∧ u.fld (R.inkSstat_MISSED r.target) = 0 ∧
      (∀ c ∈ inkChans s r.target, u.fld (R.inkCstat_SKIPS c) = 0))
  ∧ (∀ (s : State) (r : Request), s.served → r.params = [] → inkDown s = false → r.target ≤ 3 →
    (inkState s r.target = 1 → exec (.inkForce r) s = .next (respond r { st := inkTrigger s r.target s.dt true }))
    ∧ (inkState s r.target = 2 ∨ inkState s r.target = 3 → exec (.inkForce r) s = .next (respond r { st := s })))
  ∧ (∀ (s : State) (r : Request), s.served → r.params = [] → inkDown s = false → r.target ≤ 3 →
    (inkState s r.target = 3 → exec (.inkStop r) s = .next (respond r { st := inkSetState s r.target 6 }))
    ∧ (inkState s r.target = 1 ∨ inkState s r.target = 2 → exec (.inkStop r) s = .next (respond r { st := inkSetState (inkRecEnd s r.target true) r.target 6 }))
    ∧ (inkState s r.target = 5 → exec (.inkStop r) s = .next (respond r { st := inkSetState (inkRecEnd s r.target false) r.target 6 })))
  ∧ (∀ (s u : State) (q : Fin 4) (r : InkRec), inkState s q.val = 2 → inkComplete s q.val = true → inkCur s q.val = some r →
    u = inkRecEnd (inkPutRec s q.val (inkTrim s q.val r)) q.val false →
    (s.fld (R.inkScfg_MODE q.val) = 0 → exec (.inkRecordComplete q) s = .next (inkSetState u q.val 4))
    ∧ (s.fld (R.inkScfg_MODE q.val) ≠ 0 → exec (.inkRecordComplete q) s = .next (match inkNextRec u q.val with
        | some n => inkArmRec u q.val n 1
        | none => inkSetState u q.val 3)))
  ∧ (∀ (s : State) (q : Fin 4), inkState s q.val = 1 → s.fld (R.inkScfg_MODE q.val) = 2 → tbValid s = true →
    exec (.inkAutoExpiry q) s = .next (inkTrigger (s.at ((s.inkS q.val).armedAt + tk (s.fld (R.inkScfg_AUTO_T q.val) * msTicks))) q.val
      ((s.inkS q.val).armedAt + tk (s.fld (R.inkScfg_AUTO_T q.val) * msTicks)) true))
  ∧ (∀ s : State, ∃ t u : State, exec .inkInterfaceFailure s = .next t ∧ t = u.raise 181 0 3#32 ∧ t.flag R.inkGstat_IFAULT = true ∧ t.ink.reads = [] ∧
      ∀ q, q < 4 → inkState t q = if inkState s q = 0 then 0 else 7)
  ∧ (∀ (s u v : State) (q : Fin 4) (single double : Nat) (r : InkRead), u = inkPump s → u.ink.reads.find? (fun x => x.sess == q.val && x.out.isEmpty) = some r →
    v = inkEccErrors (u.withInk { u.ink with reads := u.ink.reads.filter (· != r) }) q.val single double →
    exec (.inkReadDone q single double) s = .next ((if r.release then inkRelease v q.val r.rec_ else v).raise 180 q.val (wd (min 255 double * 256))))
  ∧ (∀ (s : State) (r : Request) (p a b c d : Word) (rc : InkRec) (open_ : Bool), s.served → r.params = [p, a, b, c, d] → inkDown s = false → r.target ≤ 3 →
    bitsOf p 28 4 ≤ 3 → bitsOf p 1 7 = 0 → bitsOf p 24 4 ≤ s.fld (R.inkScfg_NREC r.target) → (bitsOf p 28 4 = 0 → 36 ≤ bitsOf p 8 8 ∧ bitsOf p 8 8 ≤ 43) →
    bitsOf p 16 8 = 0xFF ∨ (inkChans s r.target).contains (bitsOf p 16 8) = true → join64 a b ≤ join64 c d →
    s.ink.reads.any (fun x => x.dest == bitsOf p 28 4 && (bitsOf p 28 4 != 0 || x.ring == bitsOf p 8 8)) = false →
    (s.inkS r.target).recs.find? (fun x => x.num == bitsOf p 24 4) = some rc →
    open_ = (inkFilling s r.target && s.fld (R.inkSstat_WREC r.target) == bitsOf p 24 4) → open_ = false ∨ inkState s r.target = 5 →
    rc.chans.all (fun x => x.pages.isEmpty) = false →
    exec (.inkRead r) s = .next (respond r { st := inkPump (s.withInk { s.ink with reads := s.ink.reads ++ [
      { sess := r.target, rec_ := bitsOf p 24 4, dest := bitsOf p 28 4, ring := bitsOf p 8 8, release := bitOf p 0,
        out := (rc.chans.filter (fun x => bitsOf p 16 8 == 0xFF || x.ch == bitsOf p 16 8)).flatMap
          (readChan s r.target rc open_ (join64 a b) (join64 c d)) }] }) }))

/-- The nib bank (R168, R170 to R172, R177, R178, R182, R184, R187, R191, R192): a fault input that holds its level for its filter is seen, and one
that is enabled acts as it goes low; latches clear where no source holds them; an echo inside its window corrects, one that
fails to come is a miss; chopper periods follow each other; edge sets are committed, group states taken at the next carrier zero,
periods and adjustments written; an edge of SYNC_IN corrects the group, its loss clears LOCK.
Each of these completes under the conditions its clauses name: `faultInputAssert`, `nibClearLatches`, `echoEdge`, `echoWindowEnd`,
`chopperPeriodStart`, `nibEdgeCommit`, `groupState`, `nibGperWrite`, `nibGadjWrite`, `syncInEdge` and `syncInLoss`. -/
def Obligations.Nib_Bank : Prop :=
  (∀ (s : State) (n : Fin 28) (w : Nat), fltFilt s n.val ≤ w →
    ∃ t, exec (.faultInputAssert n ⟨false, w⟩) s = .next t ∧ t.flag ⟨R.nibFltstat, n.val, 1⟩ = false ∧ t.nib = s.nib ∧ t.evt = s.evt ∧ t.loop = s.loop ∧
      ∀ a, a ≠ R.nibFltstat → t.reg a = s.reg a)
  ∧ (∀ (s u : State) (n : Fin 28) (w : Nat), fltFilt s n.val ≤ w →
    u = (s.setFlag ⟨R.nibFltstat, n.val, 1⟩ true).setFlag ⟨R.nibFltseen, n.val, 1⟩ true →
    (s.flag ⟨R.nibFltstat, n.val, 1⟩ = true → exec (.faultInputAssert n ⟨true, w⟩) s = .next u)
    ∧ (s.flag ⟨R.nibFltstat, n.val, 1⟩ = false → n.val < 24 → exec (.faultInputAssert n ⟨true, w⟩) s = .next
        (if u.flag (R.nibWfcfg_EN n.val) then sourceAct u ((List.range 72).filter (fun m => u.fld (R.nibCfg_WFSEL m) == n.val)) 1 else u))
    ∧ (s.flag ⟨R.nibFltstat, n.val, 1⟩ = false → 24 ≤ n.val → exec (.faultInputAssert n ⟨true, w⟩) s = .next
        (if u.flag (R.nibGfcfg_EN (n.val - 24)) then sourceAct u ((List.range 72).filter (fun m => gfActive u (n.val - 24) (nibGrp u m))) 2 else u)))
  ∧ (∀ (s : State) (g : Fin 8), (grpLatched s g.val).any (srcHolds s ·) = false →
    ∃ u : State, exec (.nibClearLatches g) s = .next (u.raise 34 g.val (wd (grpLatched s g.val).length)) ∧ u.evt = s.evt ∧
      ∀ n ∈ grpLatched s g.val, u.flag (R.nibNstat_LATCHED n) = false ∧ u.fld (R.nibNstat_LATCH_SRC n) = 0 ∧ u.reg (R.nibCorrR n) = 0#32 ∧ u.reg (R.nibCorrF n) = 0#32)
  ∧ (∀ (s u v : State) (n : Fin 72) (high rise : Bool) (t : Tick) (w : EchoWin), u = s.at t → u.flag (R.nibCfg_ECHO_EN n.val) = true → nibLatched u n.val = false →
    rise = (high != s.flag (R.nibCfg_ECHO_POL n.val)) →
    (u.nibS n.val).wins.find? (fun x => x.rise == rise && decide (x.start ≤ t - tk (u.fld (R.nibEcfg_EDLY n.val))) && decide (t - tk (u.fld (R.nibEcfg_EDLY n.val)) < x.stop)) = some w →
    v = u.setNibS n.val { u.nibS n.val with wins := (u.nibS n.val).wins.filter (· != w), missRun := 0 } →
    exec (.echoEdge n high t) s = .next (nibLog (replan (echoCorrect v n.val rise (t - tk (u.fld (R.nibEcfg_EDLY n.val)) - w.ideal).toInt) n.val rise
      (t - (u.nibS n.val).plan.base).toNat) n.val (if rise then 1 else 2) w.ideal (wdInt (t - tk (u.fld (R.nibEcfg_EDLY n.val)) - w.ideal).toInt)))
  ∧ (∀ (s : State) (n : Fin 72) (w : EchoWin) (ws : List EchoWin), (s.nibS n).wins = w :: ws →
    exec (.echoWindowEnd n) s = .next (echoMiss (nibLog ((s.at w.stop).setNibS n { s.nibS n with wins := ws }) n (if w.rise then 1 else 2) w.ideal 0x80000000#32) n.val w.rise))
  ∧ (∀ (s u : State) (n : Fin 72) (c : ChopRun) (t : Tick), (s.nibS n).chop = some c → t = c.start + tk (c.k + c.v) → u = s.at t → nibEmits u n.val = true →
    tbValid u = true → (u.grp (nibGrp u n.val)).next.map (·.1) ≠ some t →
    exec (.chopperPeriodStart n) s = .next (chopStart u n t))
  ∧ (∀ (s : State) (k : Fin 24) (seq : Word) (n : Nat) (ns : List Nat) (mode p : Nat) (du : Bool) (on : Nat → Nat), setNibs s k.val = n :: ns →
    s.flag (R.nibSetinfo_OWNED k.val) = false → grpCarrier s (nibGrp s n) = (mode, du, p) → on = (fun m => if mode = 1 then 0 else s.fld (R.nibSon_OFS m)) →
    (∀ m ∈ n :: ns, stagedOk mode du p (on m) (s.fld (R.nibSoff_OFS m)) = true) →
    exec (.nibEdgeCommit k seq) s = .next (setCommit s k.val seq ((n :: ns).map (fun m => (m, (on m, s.fld (R.nibSoff_OFS m))))) true))
  ∧ (∀ (s : State) (r : Request) (w : Word), s.served → r.params = [w] → r.target ≤ 7 → bitsOf w 0 2 ≠ 3 →
    (bitsOf w 0 2 ≠ 0 → nibGated s r.target = false ∧ s.flag R.cfgStat_SAFE_CFG_FAULT = false ∧ huskEn s = true ∧ safeLocked s = false ∧ (s.grp r.target).p ≠ 0) →
    exec (.groupState r) s = .next (respond r { st := addPend ((s.setFld (R.nibGstate_REQ r.target) (bitsOf w 0 2)).setFlag (R.nibGstate_PENDING r.target) true) r.target (dueZero s r.target) true (.groupState (bitsOf w 0 2)), affects := [(r.target, dueZero s r.target)] }))
  ∧ (∀ (s : State) (g : Fin 8) (w : Word) (p frame : Nat), p = bitsOf w 0 29 → frame = (if bitOf w 31 then p / 2 else p) →
    periodBad (bitsOf w 29 2) (bitOf w 31) p (s.fld (R.nibGphase_PHASE g.val)) = false → tickFloorBad s g.val frame = false →
    s.reg (R.nibGper g.val) >>> 29 = w >>> 29 ∨ grpState s g.val = 0 → (g.val = 0 → p = 0 → s.fld R.sheafCfg_ROLE ≠ 1 ∧ s.fld R.sheafCfg_ROLE ≠ 2) →
    frame = frameWritten s g.val ∨ s.slots.any (fun k => (s.ctx k).grp == g.val) = false ∨
      (admResult s { admNow s s.slots with frame := fun h => if h = g.val then frame else frameWritten s h }).1 = 0 →
    ((s.grp g.val).p = 0 → p ≠ 0 → exec (.nibGperWrite g w) s = .next (loopRefresh (carrierStart (s.setReg (R.nibGper g.val) w) g.val)))
    ∧ ((s.grp g.val).p ≠ 0 → bitsOf (s.reg (R.nibGper g.val)) 0 29 ≠ p → exec (.nibGperWrite g w) s = .next (loopRefresh (addPend (s.setReg (R.nibGper g.val) w) g.val
        (dueZero (s.setReg (R.nibGper g.val) w) g.val) true (.reg (R.nibGper g.val) 0x1FFFFFFF#32 (wd p)))))
    ∧ ((s.grp g.val).p ≠ 0 → bitsOf (s.reg (R.nibGper g.val)) 0 29 = p → exec (.nibGperWrite g w) s = .next (loopRefresh (s.setReg (R.nibGper g.val) w))))
  ∧ (∀ (s : State) (g : Fin 8) (w : Word), 8 * w.toInt.natAbs ≤ (grpCarrier s g.val).2.2 → ((grpCarrier s g.val).2.1 = true → w.toInt % 2 = 0) →
    exec (.nibGadjWrite g w) s = .next (addPend (dropAdj (s.setReg (R.nibGadj g.val) w) g.val) g.val (dueZero s g.val) true (.reg (R.nibGadj g.val) 0xFFFFFFFF#32 w)))
  ∧ (∀ (s v : State) (t ti : Tick) (g : Nat), v = s.at t → v.flag R.nibSync_IN_EN = true → g = v.fld R.nibSync_IN_GRP → (v.grp g).p ≠ 0 → (v.grp g).next ≠ none →
    g < v.loop.grps.length → ti = t - tk (v.fld R.nibSyncstat_IN_DLY) →
    ∃ u, exec (.syncInEdge t) s = .next u ∧ (u.grp g).adj = (v.grp g).adj + evenAdj (v.grp g).du
        (clampI (-(v.fld R.nibSync_SLEW : Int)) (v.fld R.nibSync_SLEW) (-((ti - nearZero v g ti).toInt.tdiv 4))) ∧
      (∀ h, h ≠ g → u.grp h = v.grp h) ∧ (∀ a, a ≠ R.nibSyncstat → u.reg a = s.reg a) ∧
      u.nib.good = (if (ti - nearZero v g ti).toInt.natAbs ≤ 32 then min 16 (v.nib.good + 1) else 0))
  ∧ (∀ s : State, s.flag R.nibSync_IN_EN = true → syncGone s = true → s.flag R.nibSyncstat_LOCK = true →
    ∃ u, exec .syncInLoss s = .next u ∧ u.nib.good = 0 ∧ u.flag R.nibSyncstat_LOCK = false ∧
      u.evt.occ = s.evt.occ ++ [{ ev := 40, inst := s.fld R.nibSync_IN_GRP, detail := 0#32 }])

/-- The sensing front end (R148, R149, R151 to R154, R161, R163): a sinc3 output at a selected edge of a clocked channel is kept with its
span and reaches Inkwell; a comparator run that begins is counted and told, one that lasts is not told again; a channel without
transitions becomes LOST, and acts where LOSS_ACT says so, and recovers; a calibration starts where the channel is enabled, and ends with
what it measured and event 67; a modulator clock is set where no live channel uses it.
Each of these completes under the conditions its clauses name: `sinc3Output`, `overcurrentTrip`, `modulatorLost`, `modulatorRecovered`,
`senseCalScan`, `senseCalOffset`, `senseCalDone` and `senseMclkWrite`. -/
def Obligations.Sensing_Front_End : Prop :=
  (∀ (s v : State) (c : Fin 128) (bits : List Bool) (e : Tick) (o : Sinc3), s.flag (R.senseCfg_EN c.val) = true → tbValid s = true → nodeRuns s 3 = true →
    selEdge s c.val e = true → v = s.at (e + tk (capTicks s c.val)) → o.y = sincY (v.fld (R.senseCfg_S3_OSR c.val)) bits → o.s = v.fld (R.senseCfg_S3_OSR c.val) →
    o.stop = e - tk (v.fld (R.senseCalactDelay_DELAY c.val)) → o.centre = o.stop - tk ((3 * o.s - 2) * chanTm v c.val / 2) →
    ∃ u : State, exec (.sinc3Output c bits e) s = .next (inkValue u 0 c.val o.stop (sincValue u c.val o)) ∧
      (u.chS c.val).outs = (o :: (v.chS c.val).outs).take 8 ∧ (u.chS c.val).taken = min (3 * o.s) ((v.chS c.val).taken + o.s) ∧
      (∀ d, d ≠ c.val → u.chS d = v.chS d) ∧ u.flag (R.senseStat_SETTLED c.val) = decide (3 * o.s ≤ (u.chS c.val).taken) ∧ u.nib = v.nib ∧ u.loop = v.loop)
  ∧ (∀ (s : State) (c : Fin 128) (bits : List Bool) (e : Tick), s.flag (R.senseCfg_EN c.val) = true → senseGated s = false →
    (∀ d, ocRun s c.val (ocSince s c.val bits e) = some d → (s.chS c.val).ocOn = false →
      ∃ u, u = State.raiseLim (((s.setChS c.val { s.chS c.val with ocOn := true }).cntSat (R.senseStat_OC_TRIPS c.val)).setFlag (R.senseStat_OC_TRIP c.val) true)
          64 c.val (wd d) (10 * msTicks) ∧
        exec (.overcurrentTrip c ⟨bits, e⟩) s = .next (if ocActive u c.val = true then sourceAct u (chanNibs u c.val) 3 else u))
    ∧ (∀ d, ocRun s c.val (ocSince s c.val bits e) = some d → (s.chS c.val).ocOn = true → exec (.overcurrentTrip c ⟨bits, e⟩) s = .next s)
    ∧ (ocRun s c.val (ocSince s c.val bits e) = none → exec (.overcurrentTrip c ⟨bits, e⟩) s = .next (s.setChS c.val { s.chS c.val with ocOn := false })))
  ∧ (∀ (s : State) (c : Fin 128) (bits : List Bool), s.flag (R.senseCfg_EN c.val) = true → senseGated s = false → s.flag (R.senseStat_LOST c.val) = false →
    s.fld (R.senseLoss_LOSSRUN c.val) ≤ bits.length →
    (bits.take (s.fld (R.senseLoss_LOSSRUN c.val))).all id = true ∨ (bits.take (s.fld (R.senseLoss_LOSSRUN c.val))).all (!·) = true →
    ∃ u : State, exec (.modulatorLost c bits) s = .next (if s.flag (R.senseCfg_LOSS_ACT c.val) = true then sourceAct u (chanNibs u c.val) 4 else u) ∧
      u.flag (R.senseStat_LOST c.val) = true ∧ u.flag (R.senseStat_LOST_SEEN c.val) = true ∧ (u.chS c.val).lostA = true ∧ (u.chS c.val).lostB = true ∧
      (∀ d, d ≠ c.val → u.chS d = s.chS d) ∧ u.evt.occ = s.evt.occ ++ [{ ev := 65, inst := c.val, detail := 1#32 }] ∧ u.nib = s.nib ∧ u.loop = s.loop)
  ∧ (∀ (s : State) (c : Fin 128), s.flag (R.senseStat_LOST c.val) = true → senseGated s = false →
    ∃ t, exec (.modulatorRecovered c) s = .next t ∧ t.flag (R.senseStat_LOST c.val) = false ∧
      t.evt.occ = s.evt.occ ++ [{ ev := 65, inst := c.val, detail := 0#32 }] ∧ t.sense.posts = s.sense.posts ∧ t.sense.cal = s.sense.cal ∧
      (∀ d, d ≠ c.val → t.chS d = s.chS d) ∧ t.nib = s.nib ∧ t.loop = s.loop)
  ∧ (∀ (s : State) (c : Fin 128), regReady s R.senseCal = true → s.flag R.senseCal_BUSY = false → s.flag (R.senseCfg_EN c.val) = true →
    (∃ t, exec (.senseCalScan c) s = .next t ∧ t.flag R.senseCal_BUSY = true ∧ t.sense.cal = some (c.val, 1) ∧
      t.sense.calLost = s.flag (R.senseStat_LOST c.val) ∧ (∀ a, a ≠ R.senseCal → t.reg a = s.reg a) ∧ t.sense.ch = s.sense.ch ∧ t.evt = s.evt)
    ∧ ((boundGroups s c.val).any (fun g => grpState s g == 2) = false →
      ∃ t, exec (.senseCalOffset c) s = .next t ∧ t.flag R.senseCal_BUSY = true ∧ t.sense.cal = some (c.val, 2) ∧
        t.sense.calLost = s.flag (R.senseStat_LOST c.val) ∧ (∀ a, a ≠ R.senseCal → t.reg a = s.reg a) ∧ t.sense.ch = s.sense.ch ∧ t.evt = s.evt))
  ∧ (∀ (s : State) (rt : Option (Nat × Nat)) (sum : Int) (ch mode : Nat), s.sense.cal = some (ch, mode) →
    ∃ t, exec (.senseCalDone rt sum) s = .next t ∧ t.sense.cal = none ∧ t.flag R.senseCal_BUSY = false ∧
      t.evt.occ = s.evt.occ ++ [{ ev := 67, inst := ch, detail := wd (b2n (t.flag R.senseCal_FAIL) * 256 + mode) }] ∧
      (mode = 2 → t.reg R.senseCalofs = f32 ((sum : Rat) / 262144) ∧ t.flag R.senseCal_FAIL = s.sense.calLost) ∧
      (mode = 1 → rt = none → t.flag R.senseCal_FAIL = true ∧ t.reg R.senseCalres = s.reg R.senseCalres ∧ t.reg R.senseCaleye = s.reg R.senseCaleye) ∧
      (∀ lo hi, mode = 1 → rt = some (lo, hi) → hi < 65536 → lo ≤ hi → chanTm s ch < 65536 →
        t.fld R.senseCalres_RT_MIN = lo ∧ t.fld R.senseCalres_RT_MAX = hi ∧ t.fld R.senseCaleye_EYE = lo + chanTm s ch - hi ∧
        t.fld R.senseCaleye_CENTRE = min 63 ((2 * hi + (lo + chanTm s ch - hi) + 32) / 64) ∧
        t.flag R.senseCal_FAIL = (decide (lo + chanTm s ch - hi < 96) || decide (4032 < 2 * hi + (lo + chanTm s ch - hi)))))
  ∧ (∀ (s : State) (n : Fin 12) (w : Word), regReady s (R.senseMclk n.val) = true → outNat 20 100 (bitsOf (written s (R.senseMclk n.val) w) 16 7) = false →
    bitsOf (written s (R.senseMclk n.val) w) 0 7 < bitsOf (written s (R.senseMclk n.val) w) 16 7 →
    written s (R.senseMclk n.val) w = s.reg (R.senseMclk n.val) ∨ (List.range 128).any (fun c => s.fld (R.senseCfg_MSEL c) == n.val && boundLive s c) = false →
    exec (.senseMclkWrite n w) s = .next (mclkStart (s.setReg (R.senseMclk n.val) (written s (R.senseMclk n.val) w)) n.val
      (bitOf (s.reg (R.senseMclk n.val)) 31) (bitOf (written s (R.senseMclk n.val) w) 31)))

/-- Feedback channels (R156, R159, R160, R229 to R232, R235, R237): a window's result is posted to its integrator's mean, invalid ones
flagged and told, and goes on to the feedback channel it belongs to; an encoder edge counts by one, Husk's count beside it; a Z edge that
qualifies is captured with event 134; an SSI word is kept for the boundary with the first fault its frame shows; CLR settles and ZARM
arms.
Each of these completes under the conditions its clauses name: `senseResultPost`, `encoderEdge`, `zEdge`, `ssiTransfer`, `fdbkClr` and
`fdbkZarm`. -/
def Obligations.Feedback_Channels : Prop :=
  (∀ (s : State) (c : Fin 128) (bits : List (Tick × Bool)) (t : Tick) (p : SensePost) (v : Word), senseGated s = false →
    s.sense.posts.find? (fun x => x.ch == c.val) = some p → v = windowValue p (chanTm s c.val) (bits.filter (fun b => selEdge s c.val b.1)) →
    ∃ u : State, exec (.senseResultPost c bits t) s = .next (fbSense u p bits) ∧ u.sense.posts = (s.at t).sense.posts.filter (· != p) ∧
      (p.point = false → u.reg (if p.b then R.senseMeanB c.val else R.senseMeanA c.val) = v ∧
        u.reg (if p.b then R.senseMeanA c.val else R.senseMeanB c.val) = (s.at t).reg (if p.b then R.senseMeanA c.val else R.senseMeanB c.val) ∧
        (f32IsNaN v = true → u.flag (R.senseStat_INVALID c.val) = true)) ∧
      (p.point = true ∨ f32IsNaN v = false → u.evt.occ = (s.at t).evt.occ) ∧ u.nib = s.nib)
  ∧ (∀ (s u : State) (n : Fin 16) (a b : Bool) (t : Tick) (w : Nat), u = huskEdge (s.at t) n.val a b →
    (w < s.fld (R.fdbkCfg_FILT n.val) → exec (.encoderEdge n a b ⟨t, w⟩) s = .next u)
    ∧ (s.fld (R.fdbkCfg_FILT n.val) ≤ w → u.flag (R.fdbkCfg_EN n.val) = false ∨ quadStep (u.fb n.val).a (u.fb n.val).b a b = 0 →
      exec (.encoderEdge n a b ⟨t, w⟩) s = .next (u.setFb n.val { u.fb n.val with a := a, b := b }))
    ∧ (∀ v : State, s.fld (R.fdbkCfg_FILT n.val) ≤ w → u.flag (R.fdbkCfg_EN n.val) = true → fbMode u n.val = 0 ∨ fbMode u n.val = 2 →
      quadStep (u.fb n.val).a (u.fb n.val).b a b = 1 ∨ quadStep (u.fb n.val).a (u.fb n.val).b a b = 3 →
      v = u.setFb n.val { u.fb n.val with a := a, b := b, tE := t, edge := true, had := true, n := (u.fb n.val).n +
        (if (quadStep (u.fb n.val).a (u.fb n.val).b a b == 1) != u.flag (R.fdbkCfg_DIR n.val) then 1 else -1) } →
      exec (.encoderEdge n a b ⟨t, w⟩) s = .next (if (u.fb n.val).had = true ∧ (t - (u.fb n.val).tE).toNat < 800 then
        (v.setFlag (R.fdbkStat_OVERSPEED n.val) true).raiseLim 129 n.val 0#32 (100 * msTicks) else v))
    ∧ (∀ v : State, s.fld (R.fdbkCfg_FILT n.val) ≤ w → u.flag (R.fdbkCfg_EN n.val) = true → fbMode u n.val = 0 ∨ fbMode u n.val = 2 →
      quadStep (u.fb n.val).a (u.fb n.val).b a b = 2 →
      v = ((u.setFb n.val { u.fb n.val with a := a, b := b, ill := true, cond := true }).cntSat (R.fdbkCnt_ILLEGALS n.val)).setFlag (R.fdbkStat_ILLEGAL n.val) true →
      exec (.encoderEdge n a b ⟨t, w⟩) s = .next (fbInvalid (v.raiseLim 128 n.val (wd (v.fld (R.fdbkCnt_ILLEGALS n.val))) (100 * msTicks)) n.val)))
  ∧ (∀ (s v : State) (n : Fin 16) (t : Tick) (w : Nat), s.fld (R.fdbkCfg_FILT n.val) ≤ w → v = s.at t → v.flag (R.fdbkCfg_EN n.val) = true →
    v.fld (R.fdbkCfg_ZMODE n.val) = 2 ∨ (v.fld (R.fdbkCfg_ZMODE n.val) = 1 ∧ (v.fb n.val).zarm = true) →
    v.fld (R.fdbkCfg_ZGATE n.val) = b2n (v.fb n.val).a * 2 + b2n (v.fb n.val).b →
    ∃ u, exec (.zEdge n ⟨t, w⟩) s = .next u ∧ u.reg (R.fdbkZcnt n.val) = wdInt (v.fb n.val).n ∧ u.reg (R.fdbkZdt n.val) = lo32 t ∧
      u.flag (R.fdbkStat_ZSEEN n.val) = true ∧ (u.fb n.val) = { v.fb n.val with zarm := false, zseq := (v.fb n.val).zseq + 1, zt := t } ∧
      u.evt.occ = v.evt.occ ++ [{ ev := 134, inst := n.val, detail := wd (bitsOf (wdInt (v.fb n.val).n) 0 16) }])
  ∧ (∀ (s : State) (n : Fin 16) (idle : Bool) (word trail line : List (Tick × Bool)) (t : Tick) (f : Bool) (bit : Nat → Bool), s.flag (R.fdbkCfg_EN n.val) = true →
    fbMode s n.val = 1 → tbValid s = true → (s.grp (fbGrp s n.val)).next = some (t, f) →
    line = word ++ trail → bit = (fun i => lineAt idle line (ssiSample s n.val t i)) →
    ∃ code, exec (.ssiTransfer n idle word trail) s = .next (s.setFb n.val { s.fb n.val with
        ssi := some (code, (List.range (s.fld (R.fdbkSsi_NBITS n.val))).foldl (fun a i => a * 2 + b2n (bit i)) 0) }) ∧
      (code = 1 ↔ lineAt idle line (ssiStart s n.val t - 1) = false) ∧ (code = 2 ↔ lineAt idle line (ssiStart s n.val t - 1) = true ∧ bit (ssiNb s n.val) = true) ∧
      (code = 0 ↔ lineAt idle line (ssiStart s n.val t - 1) = true ∧ bit (ssiNb s n.val) = false ∧
        (s.fld (R.fdbkSsi_PAR n.val) = 1 → ((List.range (ssiNb s n.val)).filter bit).length % 2 = 0) ∧
        (s.fld (R.fdbkSsi_PAR n.val) = 2 → ((List.range (ssiNb s n.val)).filter bit).length % 2 = 1)))
  ∧ (∀ (s : State) (n : Fin 16), regReady s (R.fdbkCtrl n.val) = true →
    (fbState s n.val = 3 → (s.fb n.val).cond = false → exec (.fdbkClr n) s = .next (fbSettle s n.val))
    ∧ (fbState s n.val ≠ 3 → exec (.fdbkClr n) s = .next s))
  ∧ (∀ (s : State) (n : Fin 16), regReady s (R.fdbkCtrl n.val) = true →
    (s.fld (R.fdbkCfg_ZMODE n.val) = 1 → exec (.fdbkZarm n) s = .next (s.setFb n.val { s.fb n.val with zarm := true }))
    ∧ (s.fld (R.fdbkCfg_ZMODE n.val) ≠ 1 → exec (.fdbkZarm n) s = .next s))

/-- Latch units (R238 to R242): an armed unit on a pin captures an edge of its kind inside its window at its instant, and counts as
chatter any edge too soon after the last capture; a time compare captures once; a closed window ends an armed single unit with event
146; a capture whose positions are there completes, with its instant, its positions and which of them are valid; ARM and DISARM.
Each of these completes under the conditions its clauses name: `latchEdge`, `latchTimeCompare`, `latchWindowEnd`, `latchCaptureComplete`,
`latchArm` and `latchDisarm`. -/
def Obligations.Latch_Units : Prop :=
  (∀ (s v : State) (pin : Fin 8) (u : Nat) (rising : Bool) (ts t : Tick) (w : Nat), v = s.at ts → latchUnits v 1 pin.val = [u] → v.fld (R.latchCfg_FILT u) ≤ w →
    v.flag (R.latchCfg_EN u) = true → t = ts - tk (latchPath v u) - tk (v.fld (R.latchDly_LDLY u)) →
    (latchSel v u rising = true → v.flag (R.latchStat_ARMED u) = true →
      latchOpen v u = true ∨ (v.reg64 (R.latchWstartLo u) ≤ t ∧ t < v.reg64 (R.latchWendLo u)) →
      (v.lu u).lastCap.all (fun c => decide (t < c) || decide (v.fld (R.latchDly_CHAT u) * usTicks ≤ (t - c).toNat)) = true →
      exec (.latchEdge pin rising ⟨ts, w⟩) s = .next (latchCapture v u t))
    ∧ (∀ (c : Tick) (x : State), (v.lu u).lastCap = some c → c ≤ t → (t - c).toNat < v.fld (R.latchDly_CHAT u) * usTicks → x = v.cntSat (R.latchStat_CHATTERS u) →
      exec (.latchEdge pin rising ⟨ts, w⟩) s = .next (x.raiseLim 145 u (wd (x.fld (R.latchStat_CHATTERS u))) (100 * msTicks))))
  ∧ (∀ (s : State) (pin : Fin 8) (rising : Bool) (ts : Tick) (w : Nat), (∀ u ∈ latchUnits (s.at ts) 1 pin.val, w < (s.at ts).fld (R.latchCfg_FILT u)) →
    exec (.latchEdge pin rising ⟨ts, w⟩) s = .next (s.at ts))
  ∧ (∀ (s : State) (u : Fin 64), s.flag (R.latchCfg_EN u.val) = true → s.flag (R.latchStat_ARMED u.val) = true → s.fld (R.latchCfg_SRCK u.val) = 2 →
    s.dt ≤ s.reg64 (R.latchWstartLo u.val) →
    exec (.latchTimeCompare u) s = .next (latchCapture (s.at (s.reg64 (R.latchWstartLo u.val))) u.val (s.reg64 (R.latchWstartLo u.val))))
  ∧ (∀ (s : State) (u : Fin 64), s.flag (R.latchStat_ARMED u.val) = true → s.fld (R.latchCfg_MODE u.val) = 0 → latchOpen s u.val = false →
    exec (.latchWindowEnd u) s = .next (((s.at (s.reg64 (R.latchWendLo u.val))).setFlag (R.latchStat_ARMED u.val) false).raise 146 u.val 0#32))
  ∧ (∀ (s : State) (u : Fin 64) (t : Tick) (ts : List Tick) (pos : Nat → Option Tick), (s.lu u.val).waits = t :: ts → latchReady s u.val t = true →
    pos = (fun i => match latchSrc s u.val i with
      | some src => if latchSrcLive s src then histAt s src t else none
      | none => none) →
    ∃ v, exec (.latchCaptureComplete u) s = .next v ∧ v.reg64 (R.latchRdtLo u.val) = t ∧ (v.lu u.val).waits = ts ∧ v.flag (R.latchStat_PEND u.val) = !ts.isEmpty ∧
      (∀ i, i < 4 → v.reg64 (R.latchRposLo u.val i) = (pos i).getD 0 ∧ (v.fld (R.latchStat_PVALID u.val)).testBit i = (pos i).isSome) ∧
      v.fld (R.latchStat_COUNT u.val) = (s.fld (R.latchStat_COUNT u.val) + 1) % 2 ^ 16 ∧
      (s.fld (R.latchCfg_MODE u.val) ≠ 1 → v.evt.occ = s.evt.occ ++ [{ ev := 144, inst := u.val, detail := wd (v.fld (R.latchStat_COUNT u.val)) }]))
  ∧ (∀ (s : State) (u : Fin 64), regReady s (R.latchCtrl u.val) = true → s.flag (R.latchStat_OWNED u.val) = false → s.flag (R.latchCfg_EN u.val) = true →
    exec (.latchArm u) s = .next (s.setFlag (R.latchStat_ARMED u.val) true))
  ∧ (∀ (s : State) (u : Fin 64), regReady s (R.latchCtrl u.val) = true → s.flag (R.latchStat_OWNED u.val) = false →
    exec (.latchDisarm u) s = .next (s.setFlag (R.latchStat_ARMED u.val) false))

/-- The passes of windings, machines, observers, gears, stroke groups, filters and probes (R42, R203, R217, R219 to R221, R276, R288,
R304, R311): a running pass without a result takes the result of its context as it read it when it started; every other run stays as it is,
and so does all else.
Each of these completes under the conditions its clauses name: `windingPass`, `steppingPass`, `chopperPass`, `machinePass`,
`observerPass`, `gearPass`, `strokeTick`, `filterPass` and `probePass`. -/
def Obligations.Passes_Compute : Prop :=
  ∀ (s : State) (slot : Fin 256) (a b : List Run) (r : Run), s.loop.runs = a ++ r :: b → r.slot = slot.val → r.out = none →
    (∀ x ∈ a ++ b, x.slot ≠ slot.val) →
    ((s.ctx slot.val).kind = 1 ∨ (s.ctx slot.val).kind = 2 → exec (.windingPass slot) s = .next (s.withRuns (a ++ { r with out := some (Machine.windingPass (passView s r) slot.val r) } :: b)))
    ∧ ((s.ctx slot.val).kind = 3 → exec (.steppingPass slot) s = .next (s.withRuns (a ++ { r with out := some (Machine.steppingPass (passView s r) slot.val r) } :: b)))
    ∧ ((s.ctx slot.val).kind = 4 → exec (.chopperPass slot) s = .next (s.withRuns (a ++ { r with out := some (Machine.chopperPass (passView s r) slot.val r) } :: b)))
    ∧ ((s.ctx slot.val).kind = 5 → exec (.machinePass slot) s = .next (s.withRuns (a ++ { r with out := some (Machine.machinePass (passView s r) slot.val r) } :: b)))
    ∧ ((s.ctx slot.val).kind = 6 → exec (.observerPass slot) s = .next (s.withRuns (a ++ { r with out := some (Machine.observerPass (passView s r) slot.val r) } :: b)))
    ∧ ((s.ctx slot.val).kind = 9 ∨ (s.ctx slot.val).kind = 10 → exec (.gearPass slot) s = .next (s.withRuns (a ++ { r with out := some (Machine.gearPass (passView s r) slot.val r) } :: b)))
    ∧ ((s.ctx slot.val).kind = 11 → exec (.strokeTick slot) s = .next (s.withRuns (a ++ { r with out := some (Machine.strokeTick (passView s r) slot.val r) } :: b)))
    ∧ ((s.ctx slot.val).kind = 12 → exec (.filterPass slot) s = .next (s.withRuns (a ++ { r with out := some (Machine.filterPass (passView s r) slot.val r) } :: b)))
    ∧ ((s.ctx slot.val).kind = 13 → exec (.probePass slot) s = .next (s.withRuns (a ++ { r with out := some (Machine.probePass (passView s r) slot.val r) } :: b)))

/-- Winding commands (R199, R200, R202, R213): enable and disable wait for the boundary of the winding's group, and an enable of an
ENABLED winding is accepted and does nothing; PRECHARGE ends in ENABLED, RAMP in DISABLED with the set released; an identification run
starts, and ends with event 105 and its result, a resistance waiting for the boundary, maps in their shadow.
Each of these completes under the conditions its clauses name: `windingEnable`, `windingDisable`, `prechargeEnd`, `rampEnd`, `identRun`
and `identDone`. -/
def Obligations.Winding_Commands : Prop :=
  (∀ (s : State) (r : Request), s.served → r.params = [] → slotCheck s r.target [1, 2, 3, 4] = none → huskEn s = true →
    s.flag R.cfgStat_SAFE_CFG_FAULT = false → safeLocked s = false →
    (windState s r.target = 2 → exec (.windingEnable r) s = .next (respond r { st := s }))
    ∧ (windState s r.target ≠ 2 → grpState s (s.ctx r.target).grp ≠ 0 → (ownedSet s r.target).isSome = true → angleBound s r.target = true →
      windLatched s r.target = false →
      exec (.windingEnable r) s = .next (respond r
        { st := addPend s (s.ctx r.target).grp (dueNext s (s.ctx r.target).grp) false (.windEnable r.target),
          affects := [((s.ctx r.target).grp, dueNext s (s.ctx r.target).grp)] })))
  ∧ (∀ (s : State) (r : Request) (w : Word), s.served → r.params = [w] → slotCheck s r.target [1, 2, 3, 4] = none → bitsOf w 0 2 ≠ 3 →
    exec (.windingDisable r) s = .next (respond r
      { st := addPend s (s.ctx r.target).grp (dueNext s (s.ctx r.target).grp) false (.windDisable r.target (bitsOf w 0 2)),
        affects := [((s.ctx r.target).grp, dueNext s (s.ctx r.target).grp)] }))
  ∧ (∀ (s : State) (slot : Fin 256), isWinding (s.ctx slot.val).kind = true → windState s slot.val = 1 →
    bitsOf (s.cp slot.val 26) 0 16 ≤ (s.wind slot.val).fr →
    exec (.prechargeEnd slot) s = .next (windSet (s.setSt slot.val (.wind {})) slot.val 2))
  ∧ (∀ (s : State) (slot : Fin 256), isWinding (s.ctx slot.val).kind = true → windState s slot.val = 3 →
    bitsOf (s.cp slot.val 26) 16 16 ≤ (s.wind slot.val).fr →
    exec (.rampEnd slot) s = .next (windRelease s slot.val))
  ∧ (∀ (s : State) (r : Request) (p i w : Word), s.served → r.params = [p, i, w] → r.target ≤ 255 → (s.ctx r.target).kind = 2 → bitsOf p 0 2 ≠ 0 →
    badF32 i = false → badF32 w = false → 0 ≤ ratOf i → ratOf i ≤ s.cpR r.target 13 → windState s r.target = 2 → grpState s (s.ctx r.target).grp = 1 →
    (∀ m ∈ machineOf s (curBind s) r.target, ∀ x ∈ bMembers (s.ctx m).bind, x ≠ r.target → windState s x ≠ 2) →
    exec (.identRun r) s = .next (respond r
      { st := s.setSt r.target (.wind { s.wind r.target with ident := some { mode := bitsOf p 0 2, iId := f32Flush i, still := f32Flush w } }) }))
  ∧ (∀ (s u : State) (slot : Fin 256) (res : Word) (scales : List (Nat × Word)) (cells : List (Nat × Nat × BitVec 16)) (maps : List Nat) (d : IdentS) (code : Nat),
    (s.wind slot.val).ident = some d → identStop s slot.val d = some code → u = identEnd s slot.val code →
    (code ≠ 0 → exec (.identDone slot res ⟨scales, cells⟩) s = .next u)
    ∧ (code = 0 → d.mode = 1 → exec (.identDone slot res ⟨scales, cells⟩) s = .next (addPend (u.setCw slot.val 2 res) (s.ctx slot.val).grp
        (dueNext u (s.ctx slot.val).grp) false (.ctxWords slot.val 2 [res])))
    ∧ (code = 0 → d.mode ≠ 1 → maps = (if d.mode = 2 then (ctxMaps s slot.val).drop 2 else (ctxMaps s slot.val).take 2).filter (· < 64) →
      exec (.identDone slot res ⟨scales, cells⟩) s = .next ((scales.filter (fun e => maps.contains e.1)).foldl
        (fun t e => identHeader t (identGrid s slot.val d.mode) e.1 e.2)
        (cells.foldl (fun t e => if maps.contains e.1 then setMapHalf t e.1 mShadow (e.2.1 % 1024) e.2.2.toNat else t) u))))

/-- The map and cam stores (R214, R278, R285): a torque table no committed winding uses is rebuilt at once, the points before it kept
aside, and one that is used at the next boundary of each group that uses it; a cam load begins on an unused cam, takes its points in order,
and its end makes the cam valid.
Each of these completes under the conditions its clauses name: `mtpaRebuild`, `camLoadBegin`, `camLoadData` and `camLoadEnd`. -/
def Obligations.Map_And_Cam_Stores : Prop :=
  (∀ (s : State) (m : Fin 64), mapValid s m.val = true → mapKind s m.val = 1 →
    (mapGroups s m.val = [] → exec (.mtpaRebuild m) s = .next (Machine.mtpaRebuild s m.val))
    ∧ (mapGroups s m.val ≠ [] → exec (.mtpaRebuild m) s = .next ((mapGroups s m.val).foldl (fun t g => addPend t g (dueNext t g) false (.mtpa m.val)) s)))
  ∧ (∀ (s : State) (m : Fin 64) (k : Nat), mapValid s m.val = true → mapKind s m.val = 1 → mapGroups s m.val = [] →
    s.slots.find? (fun k => (ctxMaps s k).headD 0xFF == m.val) = some k →
    ∃ t, exec (.mtpaRebuild m) s = .next t ∧ (∀ i, i < 96 → mapW t m.val (mMtpaOld + i) = mapW s m.val (mMtpa + i)) ∧
      (∀ n, n < 32 → mapW t m.val (mMtpa + 3 * n) = (mtpaPoint (mapTorque s (bitsOf (s.frc (ctxAddr k 0)) 0 8) m.val (nth (ctxMaps s k) 1 0xFF)) (ratOf (s.frc (ctxAddr k 13))) n).1))
  ∧ (∀ (s : State) (r : Request) (p x0 span rise : Word), s.served → r.params = [p, x0, span, rise] → r.target ≤ 31 → bitsOf p 30 2 = 0 → bitsOf p 12 16 = 0 →
    2 ≤ bitsOf p 0 12 → bitsOf p 0 12 ≤ 2048 → badF32 x0 = false → badF32 span = false → badF32 rise = false → 0 < ratOf span →
    (bitOf p 29 = true ∨ ratOf rise = 0) → s.fld (R.camDir_USERS r.target) = 0 → camLoadOpen s = none ∨ camLoadOpen s = some r.target →
    ∃ t, exec (.camLoadBegin r) s = .next (respond r { st := t }) ∧ camLoadOpen t = some r.target ∧ t.fld R.camLoadst_NEXT = 0 ∧
      t.fld (R.camDir_N r.target) = bitsOf p 0 12 ∧ t.flag (R.camDir_PERIODIC r.target) = bitOf p 29 ∧ t.flag (R.camDir_CUBIC r.target) = bitOf p 28 ∧
      t.flag (R.camDir_LOADING r.target) = true ∧ t.flag (R.camDir_VALID r.target) = false ∧
      camW t r.target 2048 = f32Flush x0 ∧ camW t r.target 2049 = f32Flush span ∧ camW t r.target 2050 = f32Flush rise ∧
      (∀ i, i < 2048 → camW t r.target i = 0#32))
  ∧ (∀ (s : State) (r : Request) (p : Word) (pts : List Word), s.served → r.params = p :: pts → pts ≠ [] → pts.any badF32 = false → r.target ≤ 31 →
    bitsOf p 30 2 = 1 → bitsOf p 12 18 = 0 → camLoadOpen s = some r.target → bitsOf p 0 12 = s.fld R.camLoadst_NEXT →
    bitsOf p 0 12 + pts.length ≤ s.fld (R.camDir_N r.target) →
    ∃ t, exec (.camLoadData r) s = .next (respond r { st := t }) ∧ t.fld R.camLoadst_NEXT = bitsOf p 0 12 + pts.length ∧
      (∀ i, i < pts.length → camW t r.target (bitsOf p 0 12 + i) = f32Flush (nth pts i 0#32)) ∧
      (∀ c i, c * 4096 + i < r.target * 4096 + bitsOf p 0 12 ∨ r.target * 4096 + bitsOf p 0 12 + pts.length ≤ c * 4096 + i → camW t c i = camW s c i))
  ∧ (∀ (s : State) (r : Request) (p : Word), s.served → r.params = [p] → r.target ≤ 31 → bitsOf p 30 2 = 2 → bitsOf p 0 30 = 0 →
    camLoadOpen s = some r.target → s.fld (R.camDir_N r.target) ≤ s.fld R.camLoadst_NEXT →
    ∃ t, exec (.camLoadEnd r) s = .next (respond r { st := t }) ∧ t.flag (R.camDir_VALID r.target) = true ∧ t.flag (R.camDir_LOADING r.target) = false ∧
      camLoadOpen t = none ∧ t.store = s.store)

/-- Motion commands that start motion (R256, R258 to R260, R263 to R265): a MOVE and a HOME are accepted in STANDSTILL and a JOG in STANDSTILL
or JOGGING, and wait for the axis's next boundary; a MOVE_NEXT starts from STANDSTILL, and in the states with a target, or behind moves
that are queued, joins the queue.
Each of these completes under the conditions its clauses name: `move`, `moveNext`, `jog` and `home`. -/
def Obligations.Axis_Motion_Starts : Prop :=
  (∀ (s : State) (r : Request) (x : Tick) (m : MoveReq), s.served → r.params.length = 7 → slotCheck s r.target [7, 8] = none → (s.ctx r.target).kind = 8 →
    axisMode s r.target = 0 → (∀ i, i < 4 → limCheck s r.target (3 + i) (r.p (3 + i)) = none) → (axisEff s r.target).st = 1 →
    x = (s.axis r.target).x → m = moveOf r.params x → swRefuses (swLimits (s.cp r.target)) x m.tgt = false → towardLimit s r.target x m.tgt = false →
    exec (.move r) s = .next (respond r (axisAccept s r.target 0x30 r.params))
    ∧ ((s.ctx r.target).queue = [] → exec (.moveNext r) s = .next (respond r (axisAccept s r.target 0x31 r.params))))
  ∧ (∀ (s : State) (r : Request) (x : Tick) (m : MoveReq), s.served → r.params.length = 7 → slotCheck s r.target [7, 8] = none → (s.ctx r.target).kind = 8 →
    axisMode s r.target = 0 → (∀ i, i < 4 → limCheck s r.target (3 + i) (r.p (3 + i)) = none) →
    (axisEff s r.target).st ∈ [2, 6, 7, 8] ∨ ((axisEff s r.target).st = 5 ∧ (axisEff s r.target).ab = false) ∨
      ((axisEff s r.target).st = 1 ∧ (s.ctx r.target).queue ≠ []) →
    x = lastTarget s r.target → m = moveOf r.params x → swRefuses (swLimits (s.cp r.target)) x m.tgt = false → towardLimit s r.target x m.tgt = false →
    (s.ctx r.target).queue.length < 4 →
    exec (.moveNext r) s = .next (respond r { st := setQueue s r.target ((s.ctx r.target).queue ++ [m]) }))
  ∧ (∀ (s : State) (r : Request) (w : Word), s.served → r.params = [w] → slotCheck s r.target [7, 8] = none → (s.ctx r.target).kind = 8 → badF32 w = false →
    absR (ratOf w) ≤ ratOf (s.cw r.target 3) → ¬ (0 < ratOf w ∧ hardLimit s r.target true = true) → ¬ (ratOf w < 0 ∧ hardLimit s r.target false = true) →
    (axisEff s r.target).st = 1 ∨ (axisEff s r.target).st = 3 →
    exec (.jog r) s = .next (respond r (axisAccept s r.target 0x32 [w])))
  ∧ (∀ (s : State) (r : Request) (m : Nat) (ofs : Tick), s.served → r.params.length = 6 → slotCheck s r.target [7, 8] = none → (s.ctx r.target).kind = 8 →
    m = bitsOf (r.p 0) 0 4 → m < 12 → axisMode s r.target = 0 ∨ m = 0 → limCheck s r.target 3 (r.p 3) = none → limCheck s r.target 3 (r.p 4) = none →
    (axisEff s r.target).st = 1 → ofs = join64 (r.p 1) (r.p 2) → swRefuses (swLimits (s.cp r.target)) ofs ofs = false → homeLacks s r.target m = false →
    (homeLatch m = false → exec (.home r) s = .next (respond r (axisAccept s r.target 0x37 (r.params ++ [lo32 s.dt, hi32 s.dt]))))
    ∧ (∀ u, homeLatch m = true → u = bLatch (curBind s r.target) → s.flag (R.latchStat_OWNED u) = false →
      exec (.home r) s = .next (respond r (axisAccept (s.setFlag (R.latchStat_OWNED u) true) r.target 0x37 (r.params ++ [lo32 s.dt, hi32 s.dt])))))

/-- Motion commands that end or change motion (R258, R259, R261, R262, R267): HALT, QUICK_STOP and ABORT_MOVE wait for the axis's next
boundary where they change its state and are accepted without effect where they do not, and so does RESUME; new limits are words of the
context at once and in force from the boundary; a new position, a homing timeout, and the axis pass.
Each of these completes under the conditions its clauses name: `halt`, `quickStop`, `abortMove`, `resume`, `setLimits`, `setPosition`,
`homeTimeout` and `axisPass`. -/
def Obligations.Axis_Stops_And_Settings : Prop :=
  (∀ (s : State) (r : Request), s.served → r.params = [] → slotCheck s r.target [7, 8] = none →
    ((axisEff s r.target).st ∈ [2, 3, 4, 10] → exec (.halt r) s = .next (respond r (axisAccept s r.target 0x33 [])))
    ∧ ((axisEff s r.target).st ∈ [1, 5, 6, 7, 8] → exec (.halt r) s = .next (respond r { st := s }))
    ∧ ((axisEff s r.target).st ∈ [2, 3, 4, 5, 10] → exec (.quickStop r) s = .next (respond r (axisAccept s r.target 0x34 [])))
    ∧ ((axisEff s r.target).st ∈ [1, 6, 7, 8] → exec (.quickStop r) s = .next (respond r { st := s }))
    ∧ ((axisEff s r.target).st ≠ 1 → exec (.abortMove r) s = .next (respond r (axisAccept s r.target 0x39 [])))
    ∧ ((axisEff s r.target).st = 1 → exec (.abortMove r) s = .next (respond r { st := s })))
  ∧ (∀ (s : State) (r : Request), s.served → r.params = [] → slotCheck s r.target [7, 8] = none →
    ((axisEff s r.target).st ∈ [1, 2, 3] → exec (.resume r) s = .next (respond r { st := s }))
    ∧ ((axisEff s r.target).st = 6 ∨ ((axisEff s r.target).st = 5 ∧ (axisEff s r.target).ab = false) ∨ ((axisEff s r.target).st = 9 ∧ faultGone s r.target = true) →
      (∀ m ∈ (s.axis r.target).tgt, towardLimit s r.target (s.axis r.target).x m.tgt = false) →
      ((s.axis r.target).tgt = none → (s.axis r.target).jog.any (fun w =>
        (decide (0 < ratOf w) && hardLimit s r.target true) || (decide (ratOf w < 0) && hardLimit s r.target false)) = false) →
      exec (.resume r) s = .next (respond r (axisAccept s r.target 0x35 []))))
  ∧ (∀ (s u : State) (r : Request) (mask : Word) (vals : List Word) (ws : List (Nat × Word)), s.served → r.params = mask :: vals →
    slotCheck s r.target [7, 8] = none → mask.toNat < 128 → vals.length = (limitWords mask.toNat).length →
    (∀ p ∈ (limitWords mask.toNat).zip vals, p.1 < 27 → badF32 p.2 = false ∧ 0 ≤ ratOf p.2 ∧ (p.1 = 8 ∨ ratOf p.2 ≠ 0)) →
    ws = ((limitWords mask.toNat).zip vals).map (fun p => (p.1, if 27 ≤ p.1 then p.2 else f32Flush p.2)) →
    u = ws.foldl (fun t p => t.setCw r.target p.1 p.2) s → ratOf (u.cw r.target 5) ≤ ratOf (u.cw r.target 7) →
    ((axisEff s r.target).st ≠ 7 ∧ (axisEff s r.target).st ≠ 8) ∨ mask.toNat.testBit 4 = false ∧ mask.toNat.testBit 5 = false →
    exec (.setLimits r) s = .next (respond r (axisAccept u r.target 0x36 (ws.flatMap (fun p => [wd p.1, p.2])))))
  ∧ (∀ (s : State) (r : Request) (lo hi : Word), s.served → r.params = [lo, hi] → slotCheck s r.target [7, 8] = none →
    (axisEff s r.target).st = 0 ∨ (axisEff s r.target).st = 1 →
    exec (.setPosition r) s = .next (respond r (axisAccept s r.target 0x38 [lo, hi])))
  ∧ (∀ (s : State) (slot : Fin 256) (h : HomeS) (t : Tick), (s.axis slot.val).home = some h → h.tmo = some t → axisState s slot.val = 10 →
    (s.axis slot.val).step < 6 →
    exec (.homeTimeout slot) s = .next (addPend ((s.at t).setSt slot.val (.axis { s.axis slot.val with home := some { h with tmo := none } }))
      (s.ctx slot.val).grp (duePass s (s.ctx slot.val).grp (s.ctx slot.val).effDiv (s.ctx slot.val).phase) false (.ctxCmd slot.val 0x137 [])))
  ∧ (∀ (s : State) (slot : Fin 256) (a b : List Run) (r : Run), s.loop.runs = a ++ r :: b → r.slot = slot.val → r.out = none →
    (∀ x ∈ a ++ b, x.slot ≠ slot.val) → (s.ctx slot.val).kind = 7 ∨ (s.ctx slot.val).kind = 8 →
    exec (.axisPass slot) s = .next (s.withRuns (a ++ { r with out := some (Machine.axisPass (passView s r) slot.val r) } :: b)))

/-- Gears and stroke groups (R280 to R283, R292, R294): their commands are accepted for the boundary of the next pass where the table gives
them an effect, and answered without one where it says so.
Each of these completes under the conditions its clauses name: `gearEngage`, `gearDisengage`, `gearRatio`, `strokeStart`, `strokeFeed`,
`strokeHold` and `strokeFlush`. -/
def Obligations.Gears_And_Strokes : Prop :=
  (∀ (s : State) (r : Request) (f : Nat) (ramp : Bool), s.served → r.params.length = 4 → slotCheck s r.target [9, 10] = none → bitsOf (r.p 0) 3 29 = 0 →
    bitsOf (r.p 0) 0 2 < 2 → ramp = (bitsOf (r.p 0) 0 2 == 1) → badF32 (r.p 3) = false → (ramp = true → 0 < ratOf (r.p 3)) → gearEff s r.target = 0 →
    gearFollower s r.target = some f → (axisEff s f).st = 1 → gearBadNow s r.target = none →
    (gMode s r.target = 1 → ramp = false → absR (posRat (s.axis f).x - camPosition s r.target (ratOf (ratioW (s.cp r.target 1) (s.cp r.target 2)))
      (gearRead (inputNow s) s.dt (bMaster (curBind s r.target))).x) ≤ s.cpR f 26) →
    exec (.gearEngage r) s = .next (respond r (axisAccept s r.target 0x40 r.params)))
  ∧ (∀ (s : State) (r : Request) (w : Word), s.served → slotCheck s r.target [9, 10] = none →
    (r.params = [w] → bitsOf w 0 2 = 1 → gearEff s r.target ≠ 0 → gearEff s r.target ≠ 5 →
      exec (.gearDisengage r) s = .next (respond r (axisAccept s r.target 0x41 [w])))
    ∧ (∀ v, r.params = [w, v] → bitsOf w 0 2 = 0 → gMode s r.target ≠ 1 → badF32 v = false → 0 < ratOf v → gearEff s r.target ≠ 0 → gearEff s r.target ≠ 5 →
      exec (.gearDisengage r) s = .next (respond r (axisAccept s r.target 0x41 [w, v])))
    ∧ (r.params = [w] → bitsOf w 0 2 = 2 → gearEff s r.target ≠ 0 → gearEff s r.target ≠ 5 →
      gearEff s r.target = 1 ∨ (∀ f ∈ gearFollower s r.target, ratOf (s.axis f).v = 0) →
      exec (.gearDisengage r) s = .next (respond r (axisAccept s r.target 0x41 [w])))
    ∧ (r.params = [w] → bitsOf w 0 2 = 1 ∨ bitsOf w 0 2 = 2 → gearEff s r.target = 0 → exec (.gearDisengage r) s = .next (respond r { st := s })))
  ∧ (∀ (s : State) (r : Request) (num den rate : Word), s.served → r.params = [num, den, rate] → slotCheck s r.target [9, 10] = none → den ≠ 0#32 →
    badF32 rate = false → 0 ≤ ratOf rate → gearEff s r.target = 0 ∨ gearEff s r.target = 3 →
    exec (.gearRatio r) s = .next (respond r
      (axisAccept ((s.setCw r.target 1 num).setCw r.target 2 den) r.target 0x42 [num, den, rate, wd (gearEff s r.target)])))
  ∧ (∀ (s : State) (r : Request), s.served → r.params = [] → slotCheck s r.target [11] = none →
    (strokeEff s r.target = 0 → strokeReady s r.target (fun k => (axisEff s k).st) = true →
      exec (.strokeStart r) s = .next (respond r (axisAccept s r.target 0x48 [])))
    ∧ (strokeEff s r.target = 1 ∨ strokeEff s r.target = 2 → exec (.strokeStart r) s = .next (respond r { st := s })))
  ∧ (∀ (s : State) (r : Request) (w : Word), s.served → r.params = [w] → slotCheck s r.target [11] = none → outF32 0 2 w = false →
    exec (.strokeFeed r) s = .next (respond r (axisAccept s r.target 0x49 [w])))
  ∧ (∀ (s : State) (r : Request) (w : Word), s.served → r.params = [w] → slotCheck s r.target [11] = none →
    (bitOf w 0 = true → strokeEff s r.target = 1 ∨ strokeEff s r.target = 2 → exec (.strokeHold r) s = .next (respond r (axisAccept s r.target 0x4A [w])))
    ∧ (bitOf w 0 = false → strokeEff s r.target = 3 ∨ strokeEff s r.target = 4 → exec (.strokeHold r) s = .next (respond r (axisAccept s r.target 0x4A [w])))
    ∧ (bitOf w 0 = true → strokeEff s r.target ∈ [0, 3, 4] → exec (.strokeHold r) s = .next (respond r { st := s }))
    ∧ (bitOf w 0 = false → strokeEff s r.target ∈ [0, 1, 2] → exec (.strokeHold r) s = .next (respond r { st := s })))
  ∧ (∀ (s : State) (r : Request), s.served → r.params = [] → slotCheck s r.target [11] = none → strokeEff s r.target ∈ [0, 2, 4, 6] →
    exec (.strokeFlush r) s = .next (respond r (axisAccept s r.target 0x4B [])))

/-- Heartbeats, link and silence of the field interface (R362, R363, R373): what each die does at a heartbeat, after a link
timeout and at the end of the SILENCE window.
Each of these completes under the conditions its clauses name: `logicHeartbeatSend`, `fieldHeartbeatReceive`, `logicHeartbeatReceive`,
`fieldLinkTimeout` and `fieldSilenceExpiry`. -/
def Obligations.Field_Link : Prop :=
  (∀ s : State, coreRuns s = true → exec .logicHeartbeatSend s = .next (s.withField { s.field with sent := some s.field.mark, mark := false }))
  ∧ (∀ (s u : State) (new : Bool), s.field.sent = some new →
    u = s.withField { s.field with sent := none, ans := some s.field.moved, moved := 0#32, silent := false } →
    exec .fieldHeartbeatReceive s = .next (fioLevels (fioRefresh (if new then fioChannelsReset u else u))))
  ∧ (∀ (s : State) (mv : Word), coreRuns s = true → s.field.ans = some mv →
    ∃ t, exec .logicHeartbeatReceive s = .next t ∧ t.field = { s.field with ans := none, run := min 4 (s.field.run + 1) } ∧
      (fioLink t = true ↔ fioLink s = true ∨ 3 ≤ s.field.run) ∧ (fioLink s = false → 3 ≤ s.field.run → t.reg R.fieldIn = s.field.raw) ∧
      t.evt.occ = s.evt.occ ++ (if mv = 0#32 then [] else [{ ev := 213, inst := 0, detail := mv }]) ++
        (if fioLink s = false ∧ 3 ≤ s.field.run then [{ ev := 212, inst := 0, detail := 1#32 }] else []))
  ∧ (∀ s : State, fioLink s = true →
    ∃ t, exec .fieldLinkTimeout s = .next t ∧ fioLink t = false ∧ t.reg R.fieldIn = 0#32 ∧ t.field = { s.field with run := 0 } ∧
      t.evt.occ = s.evt.occ ++ [{ ev := 212, inst := 0, detail := 0#32 }])
  ∧ (∀ s : State, s.field.silent = false →
    ∃ t, exec .fieldSilenceExpiry s = .next t ∧ t.field.silent = true ∧ t.field.heldOn = maskOf (fioOn s) ∧ t.evt = s.evt ∧
      t.field.moved = maskOf (fioOn s) ^^^ maskOf (fioOn t) ∧ ∀ n, n < 32 → fioOut s n = true → t.flag (R.fieldChst_SAFE_HELD n) = true)

/-- Inputs, outputs and supply of the field interface (R365, R366, R369, R370, R374, R375): an accepted edge shows its level, time and
SEEN; a fault latches and switches off; the supply limits are told; FIO_SET commands the channels it names, pairs and contactor
monitors following, and FIO_CONFIG configures one, its output off first where it is an output no longer.
Each of these completes under the conditions its clauses name: `fieldInputEdge`, `chatterWindowEnd`, `outputOvercurrent`, `outputThermal`,
`bankOvercurrent`, `vfieldMeasurement`, `fioSet` and `fioConfig`. -/
def Obligations.Field_Channels : Prop :=
  (∀ (s v : State) (n : Fin 32) (level : Bool) (t : Tick), v = huskFollow (s.at t) n.val level t → bitOf v.field.raw n.val = !level → fioLink v = true →
    (fioOut v n.val = false → tbValid v = true →
      ∃ u, exec (.fieldInputEdge n level t) s = .next u ∧ bitOf (u.reg R.fieldIn) n.val = level ∧ tblGet u.field.edgeAt n.val 0 = t ∧
        u.flag (R.fieldChst_SEEN n.val) = true ∧ (∀ m, m < 32 → m ≠ n.val → bitOf u.field.raw m = bitOf v.field.raw m))
    ∧ (fioOut v n.val = true → exec (.fieldInputEdge n level t) s = .next (fioLevels (v.withField { v.field with raw := withBits v.field.raw n.val 1 (b2n level) }))))
  ∧ (∀ (s : State) (n : Fin 32), exec (.chatterWindowEnd n) s = .next (s.withField { s.field with win := tblDel s.field.win n.val }))
  ∧ (∀ (s : State) (n : Fin 32), fioOut s n.val = true → fioOn s n.val = true →
    (∃ t, exec (.outputOvercurrent n) s = .next t ∧ t.flag (R.fieldChst_OVERCUR n.val) = true ∧ fioOn t n.val = false ∧ t.field = s.field ∧
      t.evt.occ = s.evt.occ ++ [{ ev := 209, inst := n.val, detail := 1#32 }])
    ∧ (∃ t, exec (.outputThermal n) s = .next t ∧ t.flag (R.fieldChst_THERMAL n.val) = true ∧ fioOn t n.val = false ∧ t.field = s.field ∧
      t.evt.occ = s.evt.occ ++ [{ ev := 209, inst := n.val, detail := 2#32 }]))
  ∧ (∀ (s : State) (b : Fin 4) (mA : BitVec 16), s.fld ⟨R.fieldStat, 24 + b.val, 1⟩ = 0 →
    ∃ t, exec (.bankOvercurrent b mA) s = .next t ∧ t.fld ⟨R.fieldStat, 24 + b.val, 1⟩ = 1 ∧ (∀ n, n < 32 → n / 8 = b.val → fioOn t n = false) ∧
      t.evt.occ = s.evt.occ ++ [{ ev := 210, inst := b.val, detail := wd mA.toNat }])
  ∧ (∀ (s : State) (v : BitVec 16) (banks : List (BitVec 16)) (uv ov : Bool), uv = (if s.flag R.fieldStat_UV then decide (v.toNat ≤ 1550) else decide (v.toNat < 1450)) →
    ov = (if s.flag R.fieldStat_OV then decide (3300 ≤ v.toNat) else decide (3400 < v.toNat)) →
    ∃ t, exec (.vfieldMeasurement v banks) s = .next t ∧ t.flag R.fieldStat_UV = uv ∧ t.flag R.fieldStat_OV = ov ∧ t.fld R.fieldStat_VFIELD = v.toNat % 2 ^ R.fieldStat_VFIELD.w ∧
      (∀ n, n < 32 → t.flag (R.fieldChst_ON n) = fioOn t n) ∧ (uv = true ∨ ov = true → ∀ n, fioOn t n = false) ∧
      t.evt.occ = s.evt.occ ++ (if s.flag R.fieldStat_UV = uv ∧ s.flag R.fieldStat_OV = ov then [] else
        [{ ev := 211, inst := 0, detail := if uv then 1#32 else if ov then 2#32 else 0#32 }]))
  ∧ (∀ (s : State) (r : Request), s.served → r.target ≤ 31 ∨ r.target = 0xFFFF → r.params.length = (if r.target = 0xFFFF then 2 else 1) → fioLink s = true →
    (∀ e ∈ fioNamed r, pairOfB s e.1 = none ∧ onApplied s e = false ∧ fioOut s e.1 = true ∧ (e.2 = true → fioLatched s e.1 = false)) →
    exec (.fioSet r) s = .next (respond r { st := fioRefresh ((fioNamed r).foldl fioApply s) }))
  ∧ (∀ (s u : State) (r : Request) (cfg chat : Word), s.served → r.params = [cfg, chat] → r.target ≤ 31 → fioLink s = true → cfg &&& 0x010FFFFF#32 = 0#32 →
    bitsOf cfg 20 4 ≤ 6 → bitsOf cfg 28 2 ≠ 3 → (bitsOf chat 16 8 = 0 → bitsOf chat 24 8 = 0) → (safeMode s = 1 ∨ safeMode s = 2 → setNames s r.target = false) →
    (bitOf cfg 31 = true → fioInUse s r.target = false) →
    u = (((if fioOut s r.target = true ∧ bitOf cfg 31 = false then contFollow (fioCommand s r.target false) r.target false else s).setReg (R.fieldCfg r.target) cfg).setReg
      (R.fieldChat r.target) chat) →
    exec (.fioConfig r) s = .next (respond r { st := fioRefresh (u.withField { u.field with win := tblDel u.field.win r.target }) }))

/-- STO inputs, contactors and safe outputs (R328, R329, R336, R338, R344 to R347): a change is seen by each view on its own, an off pulse
shorter than STO_FILT ignored by Scribe and by Husk; inputs that differ too long latch cause 2 on either side; a contactor that does not
follow within its window is a fault, as Scribe and Husk each find it, one that follows inside it ends the window; wrong readbacks are an
output fault.
Each of these completes under the conditions its clauses name: `stoInputChange`, `stoDiscrepancyExpiry`, `contactorWindowExpiry`,
`contactorFeedbackChange`, `safeTestPulse` and `huskReadbackTimeout`. -/
def Obligations.Safe_Inputs_And_Outputs : Prop :=
  (∀ (s : State) (a b : StoLevel), exec (.stoInputChange 0 a b) s = .next (s.setReg R.fieldSto (wd (b2n b.on * 2 + b2n a.on))))
  ∧ (∀ (s : State) (a b : StoLevel) (x y : Bool), x = (a.on || (s.safe.a && decide (a.w < bitsOf (setW s 1) 16 8 * 50000))) → y = (b.on || (s.safe.b && decide (b.w < bitsOf (setW s 1) 16 8 * 50000))) →
    exec (.stoInputChange 1 a b) s = .next (s.withSafe { s.safe with a := x, b := y, disc := discNext s.safe.disc x y }))
  ∧ (∀ (s : State) (a b : StoLevel) (x y : Bool) (h : HuskS), h = s.safe.husk → x = (a.on || (h.a && decide (a.w < bitsOf (huskW s 1) 16 8 * 50000))) →
    y = (b.on || (h.b && decide (b.w < bitsOf (huskW s 1) 16 8 * 50000))) →
    exec (.stoInputChange 2 a b) s = .next (if h.on then huskSto (s.setHusk { h with a := x, b := y, disc := discNext h.disc x y }) else s))
  ∧ (∀ s : State, (∀ d, s.safe.disc = some d → bitOf s.safe.latched 2 = false →
      ∃ t, exec (.stoDiscrepancyExpiry false) s = .next t ∧ bitOf t.safe.latched 2 = true ∧ t.regs = s.regs ∧
        t.evt.occ = s.evt.occ ++ [{ ev := 194, inst := 0, detail := wd d }])
    ∧ (s.safe.husk.disc.isSome = true → exec (.stoDiscrepancyExpiry true) s = .next (huskLock s 2)))
  ∧ (∀ (s : State) (n : Fin 4) (code : Nat), contEn s n.val = true → s.fld (R.safeCont_STATE n.val) = 2 → code = (if s.flag (R.safeCont_CMD n.val) then 1 else 2) →
    (s.flag (R.safeCont_FB n.val) = s.flag (R.safeCont_CMD n.val) →
      exec (.contactorWindowExpiry n false) s = .next (s.setFld (R.safeCont_STATE n.val) (b2n (s.flag (R.safeCont_CMD n.val)))))
    ∧ (s.flag (R.safeCont_FB n.val) ≠ s.flag (R.safeCont_CMD n.val) →
      ∃ t, exec (.contactorWindowExpiry n false) s = .next t ∧ t.fld (R.safeCont_STATE n.val) = 3 ∧ t.fld (R.safeCont_FAULT n.val) = code ∧
        (bitOf t.safe.latched 8 = true ↔ contReact s n.val ≠ 0 ∨ bitOf s.safe.latched 8 = true) ∧
        t.evt.occ = s.evt.occ ++ [{ ev := 197, inst := n.val, detail := wd code }]))
  ∧ (∀ (s u : State) (n : Fin 4) (on : Bool) (t : Tick), s.safe.husk.win.find? (fun e => e.1 == n.val) = some (n.val, on, t) →
    u = s.setHusk { s.safe.husk with win := s.safe.husk.win.filter (fun x => x.1 != n.val) } →
    exec (.contactorWindowExpiry n true) s = .next (if nth s.safe.husk.fb n.val false = on then u else huskContFault u n.val))
  ∧ (∀ (s v w : State) (n : Fin 4) (closed cmd : Bool) (t : Tick) (dt : Nat), v = s.at t → coreRuns v = true → contEn v n.val = true → v.flag (R.safeCont_FB n.val) = !closed →
    cmd = v.flag (R.safeCont_CMD n.val) → dt = (t - nth v.safe.tc n.val 0).toNat → w = v.setFlag (R.safeCont_FB n.val) closed →
    (v.fld (R.safeCont_STATE n.val) = 2 → closed = cmd → dt < contT (setW v (9 + 2 * n.val)) cmd → exec (.contactorFeedbackChange n closed t) s = .next (huskSee
        ((w.setFld (R.safeCont_STATE n.val) (b2n closed)).setFld (R.safeCont_LAST_MS n.val) (min 65535 (dt / msTicks))) n.val closed t))
    ∧ (v.fld (R.safeCont_STATE n.val) = 2 → closed ≠ cmd → dt < contT (setW v (9 + 2 * n.val)) cmd →
      exec (.contactorFeedbackChange n closed t) s = .next (huskSee w n.val closed t))
    ∧ (v.fld (R.safeCont_STATE n.val) < 2 → exec (.contactorFeedbackChange n closed t) s = .next (huskSee (contFault w n.val 3) n.val closed t)))
  ∧ (∀ (s : State) (n : Fin 4) (closed : Bool) (t : Tick), coreRuns (s.at t) = false →
    exec (.contactorFeedbackChange n closed t) s = .next (huskSee (s.at t) n.val closed t))
  ∧ (∀ (s : State) (p : Fin 4) (chB : Bool) (c i : Nat), pairEn s p.val = true → pairApplied s p.val = false → c = (if chB then pairB s p.val else pairA s p.val) →
    i = 2 * p.val + b2n chB → fioOn s c = true → s.safe.wrong.length = 8 →
    (∃ t, exec (.safeTestPulse p chB true true) s = .next t ∧ nth t.safe.wrong i 0 = 0 ∧ t.evt = s.evt ∧ t.field = s.field)
    ∧ (∀ x y : Bool, (x && y) = false → nth s.safe.wrong i 0 = 0 → exec (.safeTestPulse p chB x y) s = .next (s.withSafe { s.safe with wrong := setAt s.safe.wrong i 1 }))
    ∧ (∀ x y : Bool, (x && y) = false → 1 ≤ nth s.safe.wrong i 0 →
      ∃ t, exec (.safeTestPulse p chB x y) s = .next t ∧ t.flag (R.safeOut_FAULT p.val) = true ∧ pairApplied t p.val = true ∧ bitOf t.safe.latched 9 = true))
  ∧ (∀ (s : State) (p : Fin 4) (w : Word), huskUp s = true → w = huskW s (16 + 2 * p.val) → bitOf s.safe.husk.word3 p.val = true → bitOf w 31 = true →
    bitOf s.field.raw (bitsOf w 24 3) = true ∨ bitOf s.field.raw (bitsOf w 16 3) = true →
    exec (.huskReadbackTimeout p) s = .next ((huskLock s 9).raise 198 p.val 3#32))

/-- Scribe's cycle and the cross-check (R331 to R335, R337, R339 to R341): a cycle samples at its instant, takes the state its decision gives and puts
out its frame; a valid frame is taken on each side, a lost one counted; silence latches cause 7 with event 196 code 5, on either side; the
end of BRK_T in SS1 leads to STO; a level of SLS comes into force.
Each of these completes under the conditions its clauses name: `scribeCycle`, `scribeXcheckFrame`, `huskXcheckFrame`, `xcheckTimeout`,
`brkTExpiry` and `slsLevelEffective`. -/
def Obligations.Scribe_And_Cross_Check : Prop :=
  (∀ (s : State) (t : Tick) (husk : List Int), coreRuns s = true →
    ∃ u, exec (.scribeCycle t husk) s = .next u ∧ u = Machine.scribeCycle (s.at t) t husk ∧ u.safe.seq = ((s.at t).safe.seq + 1) % 65536 ∧
      u.safe.toHusk = some u.safe.mine ∧ u.safe.ack = false ∧ u.safe.single = false)
  ∧ (∀ (s : State) (f : List Word), coreRuns s = true → s.safe.toScribe = some f → frameOk f = true →
    ∃ t, exec (.scribeXcheckFrame true) s = .next t ∧ t.safe.hf = f ∧ t.safe.toScribe = none ∧ t.safe.first = false ∧ t.safe.silent = false ∧
      t.fld R.safeXc_FRAMES = (s.fld R.safeXc_FRAMES + 1) % 2 ^ R.safeXc_FRAMES.w ∧ t.field = s.field ∧ t.loop = s.loop)
  ∧ (∀ (s u : State) (f : List Word), coreRuns s = true → s.safe.toScribe = some f → frameOk f = true → s.safe.first = false →
    bitsOf (nth f 1 0#32) 24 4 = bitsOf (nth s.safe.hf 1 0#32) 24 4 → bitsOf (nth f 1 0#32) 24 4 ≠ 0 → bitsOf (nth f 1 0#32) 24 4 ≠ 6 → bitOf (nth s.safe.mine 1 0#32) 24 = false →
    u = s.withSafe { s.safe with toScribe := none } →
    exec (.scribeXcheckFrame true) s = .next (scribeCompare (takeHuskCauses
      ((u.cntWrap R.safeXc_FRAMES).withSafe { u.safe with hf := f, first := false, silent := false }) (nth f 3 0#32)) f))
  ∧ (∀ (s : State) (ok : Bool), coreRuns s = true →
    (s.safe.toScribe = none → exec (.scribeXcheckFrame ok) s = .next (s.cntSat R.safeXc_LOST))
    ∧ (∀ f, s.safe.toScribe = some f → ok = false ∨ frameOk f = false →
      exec (.scribeXcheckFrame ok) s = .next (State.cntSat (s.withSafe { s.safe with toScribe := none }) R.safeXc_LOST)))
  ∧ (∀ (s u v : State) (f : List Word), s.safe.toHusk = some f → u = s.withSafe { s.safe with toHusk := none } → v = huskAct (huskContactors u f) f →
    (frameOk f = true → huskUp s = true → s.safe.husk.st = 0 ∨ v.safe.husk.st = 4 → exec (.huskXcheckFrame true) s = .next v)
    ∧ (frameOk f = true → huskUp s = true → s.safe.husk.st ≠ 0 → v.safe.husk.st ≠ 4 → exec (.huskXcheckFrame true) s = .next (huskCompare v f))
    ∧ (∀ ok, ok = false ∨ frameOk f = false ∨ huskUp s = false → exec (.huskXcheckFrame ok) s = .next u))
  ∧ (∀ s : State, (coreRuns s = true → s.safe.first = false → s.safe.single = false → bitOf s.safe.latched 7 = false →
      ∃ t, exec (.xcheckTimeout false) s = .next t ∧ t.safe.silent = true ∧ bitOf t.safe.latched 7 = true ∧ t.regs = s.regs ∧
        t.evt.occ = s.evt.occ ++ [{ ev := 196, inst := 0, detail := 5#32 }])
    ∧ (s.safe.husk.st ≠ 0 → s.safe.husk.st ≠ 4 → exec (.xcheckTimeout true) s = .next (huskLock s 7)))
  ∧ (∀ s : State, safeMode s = 2 → s.safe.stopped = true ∨ safeAxes s = [] →
    ∃ t, exec .brkTExpiry s = .next t ∧ safeMode t = 0 ∧ t.safe.ssEnd = true ∧ t.safe.stopped = false ∧ t.safe.armed = false ∧
      s.evt.occ ++ [{ ev := 192, inst := 0, detail := wd 32 }] <+: t.evt.occ)
  ∧ (∀ (s : State) (a : Fin 8), (s.sax a.val).pend ≠ 0 →
    exec (.slsLevelEffective a) s = .next ((s.setFld (R.safeAx_SLS a.val) (s.sax a.val).pend).setSax a.val { s.sax a.val with pend := 0 }))

/-- Husk (R188, R331, R339, R342, R343, R354, R356, R481): a change of its enable reaches the nibs with event 41; its own times and failures take
torque away and lock it, but a backstop that meets Scribe's STO decision is STO without a fault; the enable follows GEN_SETTLE; power comes and goes.
Each of these completes under the conditions its clauses name: `huskEnableChange`, `genSettleExpiry`, `ss1BackstopExpiry`,
`huskCounterFault`, `singleChannelTimeout`, `huskSelfTestFailure`, `vhuskPowerUp` and `vhuskLoss`. -/
def Obligations.Husk_Times_And_Failures : Prop :=
  (∀ (s : State) (on : Bool), huskEn s = !on →
    ∃ t, exec (.huskEnableChange on) s = .next t ∧ huskEn t = on ∧ { ev := 41, inst := 0, detail := wd (b2n on) } ∈ t.evt.occ)
  ∧ (∀ s : State, huskUp s = true → s.safe.husk.gen = true → s.safe.husk.settle = true →
    exec .genSettleExpiry s = .next (huskEnable (s.setHusk { s.safe.husk with settle := false }) true))
  ∧ (∀ (s : State) (f : Option (List Word)), s.safe.husk.on = true → s.safe.husk.st = 3 → f = s.safe.toHusk →
    (f.any (fun w => frameOk w && bitOf (nth w 1 0#32) 27) = false → exec .ss1BackstopExpiry s = .next ((huskLock s 15).raise 206 0 0#32))
    ∧ (f.any (fun w => frameOk w && bitOf (nth w 1 0#32) 27) = true →
      ∃ t, exec .ss1BackstopExpiry s = .next t ∧ t.safe.husk.st = 1 ∧ t.safe.husk.gen = false ∧ huskEn t = false ∧ t.safe.husk.cause = s.safe.husk.cause))
  ∧ (∀ (s : State) (c : Fin 8) (v : Bool), huskUp s = true → (hcTol (huskW s) c.val).isSome = true →
    exec (.huskCounterFault c v) s = .next ((huskLock s 7).raise 207 c.val (wd (1 + b2n v))))
  ∧ (∀ s : State, s.safe.husk.on = true → s.safe.husk.st = 4 → exec .singleChannelTimeout s = .next ((huskLock s 13).raise 203 0 2#32))
  ∧ (∀ s : State, s.safe.husk.on = true →
    ∃ t, exec .huskSelfTestFailure s = .next t ∧ t.safe.husk.st = 6 ∧ t.safe.husk.gen = false ∧ huskEn t = false)
  ∧ (∀ s : State, s.safe.husk.on = false →
    ∃ t, exec .vhuskPowerUp s = .next t ∧ t.safe.husk.on = true ∧ t.safe.husk.st = 0 ∧ t.safe.husk.cause = 0#32 ∧ t.safe.husk.gen = false ∧
      t.safe.husk.set = s.safe.husk.set ∧ t.regs = s.regs)
  ∧ (∀ s : State, ∃ t, exec .vhuskLoss s = .next t ∧ t.safe.husk.on = false ∧ t.safe.husk.gen = false ∧ huskEn t = false)

/-- The telegram and the safety commands (R348 to R350, R352, R355, R356): the first valid copy and the next in turn are accepted, a stale one
counted and one that comes as the window ends is the first after the expiry; the watchdog's end removes the request with event 200; a path
without copies is lost with event 199; a set is staged; its confirmation waits for Scribe, which as it judges it (in its next cycle, R356) puts the set in force in both channels;
an acknowledgement waits for that cycle too.
Each of these completes under the conditions its clauses name: `telegramCopy`, `telegramWatchdogExpiry`, `telegramPathLoss`,
`safeStageWrite`, `safeParamStage`, `safeParamConfirm` and `safeAck`. -/
def Obligations.Telegram_And_Safety_Commands : Prop :=
  (∀ (s v w : State) (p : Fin 2) (o : Origin) (bytes : List Byte) (t : Tick) (d : Nat), v = s.at t → telEn v = true → v.safe.single = false → coreRuns v = true →
    telHears v p.val = true → w = pathGood v p.val → d = (bitsOf (nth (bytesWords bytes) 1 0#32) 0 16 + 65536 - bitsOf (nth v.safe.telLast 1 0#32) 0 16) % 65536 →
    (telValid v bytes = false → exec (.telegramCopy p o bytes t) s = .next (State.cntSat (v.withSafe { v.safe with good := setAt v.safe.good p.val 0 }) R.safeTel_REJECTS))
    ∧ (telValid v bytes = true → v.safe.telOn = false → exec (.telegramCopy p o bytes t) s = .next (telAccept w p.val o (bytesWords bytes) 0))
    ∧ (telValid v bytes = true → v.safe.telOn = true → (t - v.safe.tAcc).toNat < bitsOf (setW v 4) 0 8 * msTicks → 1 ≤ d → d ≤ 4 →
      exec (.telegramCopy p o bytes t) s = .next (telAccept w p.val o (bytesWords bytes) (d - 1)))
    ∧ (telValid v bytes = true → v.safe.telOn = true → (t - v.safe.tAcc).toNat < bitsOf (setW v 4) 0 8 * msTicks → 4 < d ∨ (d = 0 ∧ p.val = v.safe.telPath) →
      exec (.telegramCopy p o bytes t) s = .next (w.cntSat R.safeTel_REJECTS))
    ∧ (telValid v bytes = true → bitsOf (setW v 4) 0 8 * msTicks ≤ (t - v.safe.tAcc).toNat →
      exec (.telegramCopy p o bytes t) s = .next (telAccept (telWatchdog w) p.val o (bytesWords bytes) 0)))
  ∧ (∀ s : State, telEn s = true → s.safe.telOn = true → s.safe.single = false →
    ∃ t, exec .telegramWatchdogExpiry s = .next t ∧ t.safe.telOn = false ∧ bitOf t.safe.latched 4 = true ∧ t.regs = s.regs ∧
      t.evt.occ = s.evt.occ ++ [{ ev := 200, inst := 0, detail := wd (s.fld R.safeTel_COUNT) }])
  ∧ (∀ (s : State) (p : Fin 2), telEn s = true → nth s.safe.lost p.val false = false → s.safe.lost.length = 2 →
    ∃ t, exec (.telegramPathLoss p) s = .next t ∧ nth t.safe.lost p.val false = true ∧ t.flag (pathFlag p.val) = false ∧
      t.evt.occ = s.evt.occ ++ [{ ev := 199, inst := p.val, detail := 1#32 }])
  ∧ (∀ (s : State) (w : Fin 138) (v : Word), ∃ t, exec (.safeStageWrite w v) s = .next t ∧ t.reg (R.safeStage w.val) = v ∧ t.safe.stg = none ∧
      t.reg R.safeStgS = 0#32 ∧ t.reg R.safeStgH = 0#32 ∧ t.safe.set = s.safe.set ∧ t.evt = s.evt)
  ∧ (∀ (s : State) (r : Request), s.served → r.target = 0 → r.params = [] → s.safe.single = false → huskUp s = true → setBad s (stagedSet s) = none →
    ∃ t, exec (.safeParamStage r) s = .next (respond r { st := t, data := [crcS (stagedSet s), crcH (stagedSet s)] }) ∧ t.safe.stg = some (stagedSet s) ∧
      t.reg R.safeStgS = crcS (stagedSet s) ∧ t.reg R.safeStgH = crcH (stagedSet s) ∧ t.evt.occ = s.evt.occ ++ [{ ev := 202, inst := 0, detail := 1#32 }])
  ∧ (∀ (s : State) (r : Request) (ws : List Word), s.served → r.target = 0 → r.params = [crcS ws, crcH ws] → s.safe.single = false → s.safe.stg = some ws →
    safeMode s = 0 ∨ (∀ w, w < 136 → (nth ws w 0#32 ^^^ nth (s.safe.set.getD []) w 0#32) &&& ~~~(lMask w) = 0#32) → s.safe.conf = [] →
    ∃ t, exec (.safeParamConfirm r) s = .next t ∧ t = s.withSafe { s.safe with conf := [r] } ∧ confirmJudge t = respond r { st := setTake (stageEmpty s) ws })
  ∧ (∀ (s : State) (r : Request), s.served → r.target = 0 → r.params = [] → s.safe.single = false → ackStatus s = stOK →
    exec (.safeAck r) s = .next (respond r { st := (s.withSafe { s.safe with ack := true }) }))

/-- System time (R386 to R388, R391, R392, R397, R443): TIME_SET steps to the named instant; TIME_ADJUST steps, slews or sets the rate; a slew
that has been absorbed ends; the servo takes a sample, holds over, and moves the timebase, as a standby does with its fabric time; TIME.CFG
and SNAP act at once.
Each of these completes under the conditions its clauses name: `timeSet`, `timeAdjustOffset`, `timeAdjustRate`, `timeSlewDone`,
`ptpOffsetSample`, `ptpHoldoverTimeout`, `timebaseDiscipline`, `timeCfgWrite` and `timeSnap`. -/
def Obligations.System_Time : Prop :=
  (∀ (s : State) (r : Request) (lo hi ns fr : Word), s.served → r.target = 0 → r.params = [lo, hi, ns, fr] → nodeRuns s 5 = true → ns.toNat < 1000000000 →
    bitsOf hi 16 16 = 0 → bitsOf fr 16 16 = 0 → s.fld R.timeCfg_SRC = 0 →
    exec (.timeSet r) s = .next (respond r { st := stValid (stepTo s (stOf (hi.toNat * 2 ^ 32 + lo.toNat) ns.toNat fr.toNat)) }))
  ∧ (∀ (s : State) (r : Request) (v : Word), s.served → r.target = 0 → r.params = [0#32, v] → nodeRuns s 5 = true → s.fld R.timeCfg_SRC = 0 →
    exec (.timeAdjustOffset r) s = .next (respond r { st := if (s.reg R.timeThr).toNat ≤ v.toInt.natAbs then stepBy s v.toInt else slewBegin s v.toInt }))
  ∧ (∀ (s : State) (r : Request) (v : Word), s.served → r.target = 0 → r.params = [1#32, v] → nodeRuns s 5 = true → s.fld R.timeCfg_SRC = 0 →
    -128000000 ≤ v.toInt → v.toInt ≤ 128000000 →
    ∃ t, exec (.timeAdjustRate r) s = .next (respond r { st := t }) ∧ t.reg R.timeRate = v ∧ t.net.slew = none ∧ t.net.dtB = s.dt ∧ t.net.stB = stAt s s.dt ∧
      t.evt = s.evt)
  ∧ (∀ (s : State) (old : Word) (e : Tick), s.net.slew = some (old, e) →
    ∃ t, exec .timeSlewDone s = .next t ∧ t.net.slew = none ∧ t.reg R.timeRate = wdInt (rateClamp old.toInt) ∧ t.net.dtB = (s.at e).dt ∧
      t.net.stB = stAt (s.at e) (s.at e).dt)
  ∧ (∀ (s v : State) (p : Fin 2) (parent : Tick) (x : PtpSync) (d : PtpDelay) (o m : Int) (utc : Word) (t : Tick), v = s.at t →
    m = ((d.t2 - d.t1) + (d.t4 - d.t3)) / 2 → o = (x.t2 - x.t1) - m → reedServes v = true → ptpPort v p.val = true → tbValid v = true →
    nodeRuns v 5 = true →
    exec (.ptpOffsetSample p parent x d utc t) s = .next (servo (((newParent v p.val parent).setRegs
      [(R.timeOffset, nsWord o), (R.timeMpd, nsWord m), (R.timeUtcofs, utc &&& 0x1FFFF#32)]).setFld R.timeStat_SLAVE_PORT p.val) o))
  ∧ (∀ s : State, s.fld R.timeStat_STATE = 1 ∨ s.fld R.timeStat_STATE = 2 →
    ∃ t, exec .ptpHoldoverTimeout s = .next t ∧ t.fld R.timeStat_STATE = 3 ∧ t.reg R.timeRate = wdInt (ratePpb s.net.integ) ∧
      t.evt.occ = s.evt.occ ++ [{ ev := 216, inst := 0, detail := wd (s.fld R.timeStat_STATE * 16 + 3) }])
  ∧ (∀ (s : State) (sb on : Bool) (lim m : Rat), s.flag R.clkStat_TPLL_LOCK = true → sb = (s.fld R.sheafCfg_ROLE == 2) → on = (s.flag R.timeCfg_DISC || sb) →
    lim = (s.fld R.timeCfg_DISC_LIM * 10000 : Nat) →
    m = clampR (-100) 100 ((if on then clampR (-lim) lim (s.net.disc - if sb then s.sward.frate * 1000000000 else s.net.integ) else 0) - s.net.disc) →
    (sb = false → on = true → s.fld R.timeStat_STATE = 1 ∨ s.fld R.timeStat_STATE = 2) →
    (m = 0 → exec .timebaseDiscipline s = .next s)
    ∧ (m ≠ 0 → ∃ t, exec .timebaseDiscipline s = .next t ∧ t.net.disc = s.net.disc + m ∧ t.net.integ = s.net.integ + m ∧
      t.flag R.timeStat_DISC_ACT = (s.net.disc + m != 0) ∧ t.reg R.timeRate = wdInt (rateClamp (ratePpb (((s.reg R.timeRate).toInt : Rat) / 256 + m))) ∧
      t.sward.frate = s.sward.frate + (if sb then m / 1000000000 else 0) ∧ t.evt = s.evt))
  ∧ (∀ (s : State) (w : Word), regReady s R.timeCfg = true → bitsOf w 30 2 ≠ 3 → 2 ≤ bitsOf w 9 4 → bitsOf w 9 4 ≤ 10 → bitsOf w 6 3 ≤ 5 →
    ∃ t, exec (.timeCfgWrite w) s = .next t ∧ t.reg R.timeCfg = w &&& ~~~0x3F#32 ∧ t.fld R.timeStat_STATE = (if bitsOf w 30 2 = 0 then 4 else 0) ∧
      t.net.good = 0 ∧ t.net.bad = 0 ∧ t.net.slew = none)
  ∧ (∀ s : State, regReady s R.timeCtrl = true →
    ∃ t, exec .timeSnap s = .next t ∧ t.reg64 R.timeSnapDtLo = s.dt ∧ t.reg R.timeSnapSec = wdInt (stAt s s.dt / 65536 / 1000000000) ∧
      t.reg R.timeSnapNs = wdInt (stAt s s.dt / 65536 % 1000000000) ∧ t.net = s.net ∧ t.evt = s.evt)

/-- Ports and pulse outputs (R379 to R385, R389, R393, R394, R396): a received frame is filtered, dropped for want of room, or counted and
handed on by its type; a link change is told; a management access starts and ends; a PTP message goes out where the configuration
asks for it; an output is programmed or stopped, and its next edge fixed when it is 10 µs away.
Each of these completes under the conditions its clauses name: `ethFrameReceive`, `ethLinkChange`, `ethMdioAccess`, `ethMdioDone`,
`ptpSendInterval`, `pulseProgram` and `pulseEdgeFix`. -/
def Obligations.Ethernet_And_Pulses : Prop :=
  (∀ (s v u : State) (p : Fin 2) (bytes : List Byte) (t : Tick) (off : Nat), v = s.at t → ethUp v p.val = true → off = (if beAt bytes 12 2 = 0x8100 then 18 else 14) →
    off ≤ bytes.length → bytes.length ≤ 1518 → (beAt bytes 12 2 = 0x8100 → beAt bytes 14 2 % 4096 = v.fld (R.ethCfg_VID p.val)) →
    ethGroups.contains (beAt bytes 0 6) = true ∨ beAt bytes 0 6 = ethMac v p.val → u = v.cntWrap (R.ethCnt_RX_FRAMES p.val) →
    (beAt bytes (off - 2) 2 = 0x0806 → exec (.ethFrameReceive p bytes true t) s = .next (arpReceive u p.val (beAt bytes 6 6) (bytes.drop off)))
    ∧ (beAt bytes (off - 2) 2 = 0x0800 → exec (.ethFrameReceive p bytes true t) s = .next (ipReceive u p.val (beAt bytes 6 6)
        (if beAt bytes 12 2 = 0x8100 then some (beAt bytes 14 2 / 8192) else none) (bytes.drop off) t))
    ∧ (beAt bytes (off - 2) 2 = 0x88F7 → exec (.ethFrameReceive p bytes true t) s = .next (ptpReceive u p.val true (bytes.drop off) t))
    ∧ (beAt bytes (off - 2) 2 ∉ [0x0806, 0x0800, 0x88F7] → exec (.ethFrameReceive p bytes true t) s = .next (u.cntSat (R.ethDrops_FILTERED p.val)))
    ∧ (∀ w : State, w = (v.cntSat (R.ethDrops_RX_DROPS p.val)).setFlag (R.ethStat_RX_DROP p.val) true →
      exec (.ethFrameReceive p bytes false t) s = .next (w.raiseLim 225 p.val (wd (w.fld (R.ethDrops_RX_DROPS p.val))) (100 * msTicks))))
  ∧ (∀ (s v : State) (p : Fin 2) (bytes : List Byte) (room : Bool) (t : Tick), v = s.at t → ethUp v p.val = true →
    bytes.length < 14 ∨ 1518 < bytes.length ∨ (beAt bytes 0 6 ≠ ethMac v p.val ∧ ethGroups.contains (beAt bytes 0 6) = false) →
    exec (.ethFrameReceive p bytes room t) s = .next (v.cntSat (R.ethDrops_FILTERED p.val)))
  ∧ (∀ (s : State) (p : Fin 2) (up slow : Bool), nodeRuns s (17 + p.val) = true →
    ∃ t, exec (.ethLinkChange p up slow) s = .next t ∧ t.flag (R.ethStat_LINK p.val) = up ∧ t.flag (R.ethStat_SPD_SEEN p.val) = slow ∧
      t.evt.occ = s.evt.occ ++ (if s.flag (R.ethStat_LINK p.val) = up then [] else [{ ev := 224, inst := p.val, detail := wd (b2n up) }]))
  ∧ (∀ (s : State) (p : Fin 2) (w : Word), regReady s (R.ethMdio p.val) = true → s.flag (R.ethMdio_BUSY p.val) = false →
    ∃ t, exec (.ethMdioAccess p w) s = .next t ∧ t.flag (R.ethMdio_BUSY p.val) = true ∧
      t.reg (R.ethMdio p.val) &&& 0x23FFFFFF#32 = w &&& 0x23FFFFFF#32 ∧ (∀ a, a ≠ R.ethMdio p.val → t.reg a = s.reg a) ∧ t.evt = s.evt)
  ∧ (∀ (s : State) (p : Fin 2) (d : BitVec 16), s.flag (R.ethMdio_BUSY p.val) = true →
    ∃ t, exec (.ethMdioDone p d) s = .next t ∧ t.flag (R.ethMdio_BUSY p.val) = false ∧
      t.fld (R.ethMdio_DATA p.val) = (if s.flag (R.ethMdio_READ p.val) then d.toNat else s.fld (R.ethMdio_DATA p.val)) ∧
      (∀ a, a ≠ R.ethMdio p.val → t.reg a = s.reg a) ∧ t.evt = s.evt)
  ∧ (∀ (s v : State) (p : Fin 2) (t : Tick), v = s.at t → reedServes v = true → ptpPort v p.val = true → ethUp v p.val = true →
    (ptpMaster v p.val = true → exec (.ptpSendInterval p 0 t) s = .next (ptpSend v p.val 0) ∧ exec (.ptpSendInterval p 1 t) s = .next (ptpSend v p.val 11))
    ∧ (ptpMaster v p.val = false → ptpP2p v p.val = false → exec (.ptpSendInterval p 2 t) s = .next (ptpSend v p.val 1))
    ∧ (ptpP2p v p.val = true → exec (.ptpSendInterval p 3 t) s = .next (ptpSend v p.val 2) ∧ exec (.ptpSendInterval p 4 t) s = .next (ptpSend v p.val 3)))
  ∧ (∀ (s : State) (r : Request), s.served → r.params.length = 7 → nodeRuns s 5 = true → r.target ≤ 3 → pulseBad r = false →
    (bitOf (r.p 0) 31 = false → exec (.pulseProgram r) s = .next (respond r { st := (pulseStop s r.target).setPulse r.target {} }))
    ∧ (bitOf (r.p 0) 31 = true → bitOf (r.p 0) 30 = true ∨ s.flag R.timeStat_ST_VALID = true →
      (r.p 4 = 0#32 → s.dt.toInt + (us10 : Int) ≤ (if bitOf (r.p 0) 30 then BitVec.ofInt 64 (pulseStart r) else dtOf s (pulseStart r)).toInt) →
      exec (.pulseProgram r) s = .next (respond r { st := pulseSet s r.target r })))
  ∧ (∀ (s v : State) (i : Fin 4) (t : Tick) (x : Pulse) (r : Tick), v = s.at t → v.flag (R.timePstat_ENABLED i.val) = true → v.flag (R.timePstat_HELD i.val) = false →
    x = v.pulse i.val → x.rise = none → r = pulseRise v i.val x.k →
    (v.dt.toInt + (us10 : Int) < r.toInt → exec (.pulseEdgeFix i t) s = .next v)
    ∧ (r.toInt ≤ v.dt.toInt + (us10 : Int) → v.dt.toInt ≤ r.toInt → x.notBefore.toInt ≤ r.toInt →
      exec (.pulseEdgeFix i t) s = .next (v.setPulse i.val { x with rise := some r }))
    ∧ (r.toInt ≤ v.dt.toInt + (us10 : Int) → r.toInt < v.dt.toInt ∨ r.toInt < x.notBefore.toInt →
      exec (.pulseEdgeFix i t) s = .next (pulseSync (v.setPulse i.val { x with notBefore := v.dt + tk us10 }) false i.val)))
  ∧ (∀ (s v u : State) (i : Fin 4) (t : Tick) (x : Pulse) (r f : Tick), v = s.at t → v.flag (R.timePstat_ENABLED i.val) = true → v.flag (R.timePstat_HELD i.val) = false →
    x = v.pulse i.val → x.rise = some r → f = pulseDt v i.val (x.start + (x.k : Int) * x.per + x.wid) → f.toInt ≤ v.dt.toInt + (us10 : Int) →
    u = (v.setPulse i.val { x with rise := none, last := some (r, if f.toInt < v.dt.toInt then v.dt else f), k := x.k + 1, left := x.left.map (· - 1) }).cntWrap (R.timePdone_VALUE i.val) →
    (x.left = none → exec (.pulseEdgeFix i t) s = .next u)
    ∧ (∀ n, x.left = some (n + 2) → exec (.pulseEdgeFix i t) s = .next (u.setReg (R.timePleft i.val) (wd (n + 1))))
    ∧ (∀ w : State, x.left = some 1 → w = u.setReg (R.timePleft i.val) 0#32 →
      exec (.pulseEdgeFix i t) s = .next ((pulseStop w i.val).raise 219 i.val (wd (w.fld (R.timePdone_VALUE i.val) % 65536)))))

/-- Modes and error states of the CAN controllers (R401 to R403): a write of CTRL puts a mode into effect, SLEEP once the frame on the bus has
ended; recovery is asked for and completes; a bus error raises REC and decides the error state; a dominant line is told.
Each of these completes under the conditions its clauses name: `canCtrlWrite`, `canRecover`, `canBusoffRecoveryDone`, `canBusError` and
`canDominantTimeout`. -/
def Obligations.Can_Modes_And_Errors : Prop :=
  (∀ (s u v : State) (n : Fin 4) (w new : Word), regReady s (R.canCtrl n.val) = true → 16 ≤ bitsOf w 8 8 →
    (bitOf w 26 = true → bitOf (s.reg (R.canCtrl n.val)) 26 = true ∨ canRspClash s n.val = false) → (bitOf w 28 = true → s.fld (R.canDbt_DBRP n.val) ≤ 1) →
    new = mergeBits (s.reg (R.canCtrl n.val)) w 0xFF00FF00#32 →
    new &&& 0x3FFFFFFF#32 = s.reg (R.canCtrl n.val) &&& 0x3FFFFFFF#32 ∨ bitsOf (s.reg (R.canCtrl n.val)) 30 2 = 0 →
    u = s.setReg (R.canCtrl n.val) new → v = (if bitOf w 23 = true ∧ canErr u n.val = 2 then u.setCanN n.val { u.canN n.val with recov := true } else u) →
    (bitsOf w 30 2 ≠ 3 ∨ (v.canN n.val).cur = none → exec (.canCtrlWrite n w) s = .next (canSetMode v n.val (bitsOf w 30 2)))
    ∧ (bitsOf w 30 2 = 3 → (v.canN n.val).cur ≠ none → exec (.canCtrlWrite n w) s = .next (v.setCanN n.val { v.canN n.val with sleep := true })))
  ∧ (∀ (s : State) (n : Fin 4), regReady s (R.canCtrl n.val) = true → canErr s n.val = 2 → 16 ≤ bitsOf (s.reg (R.canCtrl n.val)) 8 8 →
    (bitOf (s.reg (R.canCtrl n.val)) 28 = true → s.fld (R.canDbt_DBRP n.val) ≤ 1) → n.val < s.can.n.length →
    ∃ t, exec (.canRecover n) s = .next t ∧ (t.canN n.val).recov = true ∧ canErr t n.val = 2 ∧ t.reg (R.canCtrl n.val) = s.reg (R.canCtrl n.val))
  ∧ (∀ (s : State) (n : Fin 4), canErr s n.val = 2 → (s.canN n.val).recov = true →
    ∃ t, exec (.canBusoffRecoveryDone n) s = .next t ∧ canErr t n.val = 0 ∧ t.fld (R.canStat_TEC n.val) = 0 ∧ t.fld (R.canStat_REC n.val) = 0 ∧
      t.evt.occ = s.evt.occ ++ [{ ev := 233, inst := n.val, detail := 0#32 }])
  ∧ (∀ (s : State) (n : Fin 4) (heavy : Bool) (rec_ st : Nat), canOnBus s n.val = true → rec_ = min 255 ((s.canN n.val).rec_ + (if heavy then 8 else 1)) →
    st = (if 255 < (s.canN n.val).tec then 2 else if 127 < (s.canN n.val).tec ∨ 127 < rec_ then 1 else 0) →
    ∃ t, exec (.canBusError n heavy) s = .next t ∧ canErr t n.val = st ∧ t.fld (R.canStat_REC n.val) = rec_ ∧ t.fld (R.canStat_TEC n.val) = min (s.canN n.val).tec 255 ∧
      t.fld (R.canCnt_ERRORS n.val) = satInc (R.canCnt_ERRORS n.val).w (s.fld (R.canCnt_ERRORS n.val)) ∧
      t.evt.occ = s.evt.occ ++ (if st = canErr s n.val then [] else [{ ev := 233, inst := n.val, detail := wd st }]))
  ∧ (∀ (s : State) (n : Fin 4), canOnBus s n.val = true →
    (∃ t, exec (.canDominantTimeout n true) s = .next t ∧ canErr t n.val = 2 ∧ t.flag (R.canStat_STUCK_TX n.val) = true ∧
      t.evt.occ = s.evt.occ ++ [{ ev := 235, inst := n.val, detail := 1#32 }, { ev := 233, inst := n.val, detail := 2#32 }])
    ∧ (s.flag (R.canStat_RX_DOM n.val) = false → exec (.canDominantTimeout n false) s = .next ((s.setFlag (R.canStat_RX_DOM n.val) true).raise 235 n.val 2#32))
    ∧ (s.flag (R.canStat_RX_DOM n.val) = true → exec (.canDominantTimeout n false) s = .next s))

/-- Messages of the CAN controllers (R402, R404 to R407): a slot takes a message and answers its number; a cancellation acts at once, at the end of
the attempt, or on the next occurrence of a window; the winner's start of frame goes out; the end of an attempt sends, repeats or
gives up its message and moves the counters; a received frame is counted, and kept or filtered.
Each of these completes under the conditions its clauses name: `canTx`, `canCancel`, `canTxStart`, `canTxDone` and `canFrameReceive`. -/
def Obligations.Can_Messages : Prop :=
  (∀ (s : State) (r : Request) (i : Nat), s.served → 2 ≤ r.params.length → r.target ≤ 3 → nodeRuns s (9 + r.target) = true → canTxBad s r.target r = false →
    s.fld (R.canCtrl_MODE r.target) ≠ 0 → canTxSlot s r.target r = some i →
    exec (.canTx r) s = .next (respond r { st := canSlotShow (s.setCanSlotS r.target i { msg := some (canTxMsg r) }) r.target i, data := [wd i] }))
  ∧ (∀ (s : State) (r : Request) (w : Word) (n i : Nat), s.served → r.params = [w] → n = r.target → i = bitsOf w 0 4 → n ≤ 3 → nodeRuns s (9 + n) = true → bitsOf w 4 28 = 0 →
    ((s.canSlotS n i).msg = none → exec (.canCancel r) s = .next (respond r { st := s }))
    ∧ (∀ m, (s.canSlotS n i).msg = some m →
      ((s.canN n).cur = some i → exec (.canCancel r) s = .next (respond r { st := s.setFlag (R.canSlot_CANCEL_PEND n i) true, data := [1#32] }))
      ∧ ((s.canN n).cur ≠ some i → canBound s n i = true → exec (.canCancel r) s = .next (respond r
          { st := canOutcome (s.setCanSlotS n i { s.canSlotS n i with skip := true }) n i m 2 true, data := [0#32] }))
      ∧ ((s.canN n).cur ≠ some i → canBound s n i = false →
        exec (.canCancel r) s = .next (respond r { st := canOutcome (canFree s n i) n i m 2 true, data := [0#32] }))))
  ∧ (∀ (s u : State) (n : Fin 4) (t : Tick), canOnBus (s.at t) n.val = true → canMode (s.at t) n.val = 1 → ((s.at t).canN n.val).cur = none →
    ((s.at t).canN n.val).sleep = false → u = (s.at t).setFlag (R.canStat_RX_DOM n.val) false →
    (canNext (s.at t) n.val t = none → exec (.canTxStart n t) s = .next u)
    ∧ (∀ (i : Nat) (m : CanMsg) (v : State), canNext (s.at t) n.val t = some (i, m) →
      v = u.setCanN n.val { u.canN n.val with cur := some i, curMsg := some m, due := (u.canN n.val).due.filter (· != i), ref := (u.canN n.val).ref && i != 17 } →
      exec (.canTxStart n t) s = .next (if i < 16 then canSlotShow v n.val i else v)))
  ∧ (∀ (s u v : State) (n : Fin 4) (k : Fin 3) (i : Nat) (m : CanMsg) (tdc : List Nat) (x : CanN) (bad : Bool), x = s.canN n.val → x.cur = some i → x.curMsg = some m →
    u = s.setCanN n.val { x with cur := none, curMsg := none, ref := x.ref || (i == 17 && k.val != 0 && canRunning s n.val) } →
    v = (canTdcStep u n.val m tdc).1 → bad = (canTdcStep u n.val m tdc).2 →
    (bad = false → k = 1 → exec (.canTxDone n k tdc) s = .next (canFrameEnd (if i < 16 then canSlotEnd v n.val i m false else v) n.val))
    ∧ (∀ w : State, bad = false → k = 0 → w = v.withCan { v.can with sent := (n.val, i, m) :: v.can.sent } →
      exec (.canTxDone n k tdc) s = .next (canFrameEnd (canCounters (if i < 16 then canSlotEnd w n.val i m true else if i = 16 then ringDrop w (12 + n.val) else w)
        n.val (x.tec - 1) x.rec_) n.val))
    ∧ (k = 2 ∨ bad = true →
      exec (.canTxDone n k tdc) s = .next (canFrameEnd (canCounters ((if i < 16 then canSlotEnd v n.val i m false else v).cntSat (R.canCnt_ERRORS n.val))
        n.val (x.tec + 8) x.rec_) n.val)))
  ∧ (∀ (s v w : State) (n : Fin 4) (ide fdf brs esi rtr : Bool) (id : BitVec 29) (dlc : Fin 16) (data bytes : List Byte) (t : Tick), v = s.at t → canOnBus v n.val = true →
    (fdf = true → v.flag (R.canCtrl_FDEN n.val) = true) → bytes = (if rtr then [] else data.take (dlcLen dlc.val fdf)) →
    w = canRxGood ((v.setFlag (R.canStat_RX_DOM n.val) false).cntWrap (R.canCnt_RX_FRAMES n.val)) n.val →
    (∃ u, exec (.canFrameReceive n ide fdf brs esi rtr id dlc data t) s = .next u ∧
      u.fld (R.canCnt_RX_FRAMES n.val) = (v.fld (R.canCnt_RX_FRAMES n.val) + 1) % 2 ^ (R.canCnt_RX_FRAMES n.val).w ∧ u.flag (R.canStat_RX_DOM n.val) = false)
    ∧ (¬ (fdf = false ∧ rtr = false ∧ 1 ≤ dlc.val ∧ ide = v.flag (R.canTtref_IDE n.val) ∧ id.toNat = v.fld (R.canTtref_ID n.val)) →
      ¬ (v.flag (R.canCtrl_CMD_EN n.val) = true ∧ ide = v.flag (R.canCmdid_IDE n.val) ∧ id.toNat = v.fld (R.canCmdid_ID n.val)) →
      (∀ k, canFilter w n.val ide id.toNat = some k → w.fld (R.canFltA_ACT n.val k) = 1 →
        exec (.canFrameReceive n ide fdf brs esi rtr id dlc data t) s = .next (canFrameEnd
          (ringPut w (60 + n.val) (canEntry ide fdf brs esi rtr id.toNat dlc.val k bytes t) { words := 20 }).1 n.val))
      ∧ (canFilter w n.val ide id.toNat = none → w.flag (R.canCtrl_ACCEPT_ALL n.val) = true →
        exec (.canFrameReceive n ide fdf brs esi rtr id dlc data t) s = .next (canFrameEnd
          (ringPut w (60 + n.val) (canEntry ide fdf brs esi rtr id.toNat dlc.val 63 bytes t) { words := 20 }).1 n.val))
      ∧ (canFilter w n.val ide id.toNat = none → w.flag (R.canCtrl_ACCEPT_ALL n.val) = false →
        exec (.canFrameReceive n ide fdf brs esi rtr id dlc data t) s = .next (canFrameEnd (w.cntSat (R.canCnt_FILTERED n.val)) n.val))))

/-- The time-triggered schedule (R406, R409 to R411): it starts and stops; a master begins a cycle and sends its reference message, a slave
follows one and loses SYNC without one; a window opens with the message that is due in it and closes, a message that did not begin missed.
Each of these completes under the conditions its clauses name: `canScheduleStart`, `canScheduleStop`, `canCycleStart`,
`canReferenceReceive`, `canReferenceTimeout`, `canWindowStart` and `canWindowEnd`. -/
def Obligations.Can_Schedule : Prop :=
  (∀ (s : State) (r : Request), s.served → r.params = [1#32] → r.target ≤ 3 → nodeRuns s (9 + r.target) = true → findNat 32 (ttwFails s r.target) = none →
    canRunning s r.target = false → canRole s r.target ≠ 0 → s.fld (R.canCtrl_MODE r.target) = 1 →
    ∃ t, exec (.canScheduleStart r) s = .next (respond r { st := t }) ∧ canRunning t r.target = true ∧ t.fld (R.canTtstat_CYCLE r.target) = 0 ∧
      t.flag (R.canTtstat_SYNC r.target) = false ∧ t.evt = s.evt)
  ∧ (∀ (s : State) (r : Request), s.served → r.params = [0#32] → r.target ≤ 3 → nodeRuns s (9 + r.target) = true →
    ∃ t, exec (.canScheduleStop r) s = .next (respond r { st := t }) ∧ canRunning t r.target = false ∧ t.flag (R.canTtstat_SYNC r.target) = false ∧ t.evt = s.evt)
  ∧ (∀ (s v : State) (n : Fin 4) (t : Tick), v = s.at t → canRunning v n.val = true → canRole v n.val = 1 → canOnBus v n.val = true → canMode v n.val = 1 →
    exec (.canCycleStart n t) s = .next (canTxStart (canCycle v n.val
      (if (v.canN n.val).begun then (v.fld (R.canTtstat_CYCLE n.val) + 1) % 2 ^ v.fld (R.canTtcfg_NCYC_LOG2 n.val) else 0) t true) n.val t))
  ∧ (∀ (s v : State) (n : Fin 4) (cnt : BitVec 8) (t : Tick), v = s.at t → canRunning v n.val = true → canRole v n.val = 2 → canOnBus v n.val = true →
    ∃ u, exec (.canReferenceReceive n cnt t) s = .next u ∧ u.flag (R.canTtstat_SYNC n.val) = true ∧
      u.fld (R.canTtstat_CYCLE n.val) = cnt.toNat % 2 ^ v.fld (R.canTtcfg_NCYC_LOG2 n.val) % 2 ^ (R.canTtstat_CYCLE n.val).w ∧
      u.evt.occ = v.evt.occ ++ (if v.flag (R.canTtstat_SYNC n.val) = false then [{ ev := 236, inst := n.val, detail := 1#32 }]
        else if (canRefLate v n.val).toInt ≤ t.toInt then [{ ev := 236, inst := n.val, detail := 2#32 }, { ev := 236, inst := n.val, detail := 1#32 }] else []))
  ∧ (∀ (s : State) (n : Fin 4), canRunning s n.val = true → canRole s n.val = 2 → s.flag (R.canTtstat_SYNC n.val) = true →
    ∃ u, exec (.canReferenceTimeout n) s = .next u ∧ u.flag (R.canTtstat_SYNC n.val) = false ∧ (u.canN n.val).open_ = [] ∧ (u.canN n.val).due = [] ∧
      u.evt.occ = s.evt.occ ++ [{ ev := 236, inst := n.val, detail := 2#32 }])
  ∧ (∀ (s u : State) (n : Fin 4) (w : Fin 32) (i : Nat), ttGoverns s n.val = true → (s.canN n.val).begun = true → s.flag (R.canTtwA_EN n.val w.val) = true →
    ttwIn s n.val w.val (s.fld (R.canTtstat_CYCLE n.val)) = true → (s.canN n.val).open_.contains w.val = false → i = s.fld (R.canTtwA_SLOT n.val w.val) →
    u = (s.at (ttwStart s n.val w.val)).setCanN n.val { s.canN n.val with open_ := (s.canN n.val).open_ ++ [w.val] } →
    (s.flag (R.canTtwA_TYPE n.val w.val) = true ∨ ((u.canSlotS n.val i).skip = false ∧ (u.canSlotS n.val i).msg = none) → exec (.canWindowStart n w) s = .next u)
    ∧ (s.flag (R.canTtwA_TYPE n.val w.val) = false → (u.canSlotS n.val i).skip = true →
      exec (.canWindowStart n w) s = .next (u.setCanSlotS n.val i { u.canSlotS n.val i with skip := false }))
    ∧ (s.flag (R.canTtwA_TYPE n.val w.val) = false → (u.canSlotS n.val i).skip = false → (u.canSlotS n.val i).msg ≠ none →
      exec (.canWindowStart n w) s = .next (u.setCanN n.val { u.canN n.val with due := (u.canN n.val).due ++ [i] })))
  ∧ (∀ (s u v : State) (n : Fin 4) (w : Fin 32) (i : Nat), (s.canN n.val).open_.contains w.val = true → i = s.fld (R.canTtwA_SLOT n.val w.val) →
    u = (s.at (ttwEnd s n.val w.val)).setCanN n.val { s.canN n.val with open_ := (s.canN n.val).open_.filter (· != w.val), due := if ttwExcl s n.val w.val then (s.canN n.val).due.filter (· != i) else (s.canN n.val).due } →
    v = (u.cntSat (R.canTtstat_MISSED n.val)).raiseLim 236 n.val 3#32 (100 * msTicks) →
    (ttwExcl s n.val w.val = false ∨ (s.canN n.val).due.contains i = false → exec (.canWindowEnd n w) s = .next u)
    ∧ (∀ m, ttwExcl s n.val w.val = true → (s.canN n.val).due.contains i = true → (v.canSlotS n.val i).msg = some m →
      exec (.canWindowEnd n w) s = .next (canOutcome v n.val i m 4 false)))

/-- Ports and registers of the Sward (R417 to R419, R425, R426, R429, R433, R437): training and HELLO bring a port UP; a LEAVE hushes it, a
loss of signal or too many errors take it DOWN; credits come and go; the link delay is measured; SWARD_JOIN trains and
SWARD_LEAVE leaves, gracefully or at once; the node address is taken while every port is DOWN, a reservation within the port's
bandwidth, and the tail of the host receive buffer frees what it passes.
Each of these completes under the conditions its clauses name: `swardTrainingDone`, `helloReceive`, `leaveReceive`, `swardLossOfSignal`,
`swardSymbolErrorLimit`, `credReceive`, `credSend`, `dreqSend`, `dreqReceive`, `drspReceive`, `swardJoin`, `swardLeave`, `swardNodeWrite`,
`swardResWrite` and `swardHrxtailWrite`. -/
def Obligations.Sward_Ports : Prop :=
  (∀ (s : State) (p : Fin 4), swLive s p.val = true → swState s p.val = 1 →
    exec (.swardTrainingDone p) s = .next (swUp (swSent (s.setSwPort p.val { s.swPort p.val with helloSent := true }) p.val (swOwnHello s p.val)) p.val))
  ∧ (∀ (s u v : State) (p nport : Fin 4) (addr : BitVec 18) (hops : Fin 16) (c2 c3 : BitVec 16), swLive s p.val = true →
    u = ((s.setFld (R.swardPstat_NEIGH p.val) addr.toNat).setFld (R.swardPstat_NPORT p.val) nport.val).setFld (R.swardPstat_NHOPS p.val) hops.val →
    v = (if s.fld (R.swardPstat_NEIGH p.val) = addr.toNat then u else u.raise 246 p.val (wd addr.toNat)) →
    (swState s p.val = 1 → exec (.helloReceive p addr nport hops c2 c3) s = .next (swUp (((v.setFld (R.swardCred_C2 p.val) c2.toNat).setFld (R.swardCred_C3 p.val) c3.toNat).setSwPort p.val
      { v.swPort p.val with helloGot := true }) p.val))
    ∧ (swState s p.val = 2 → exec (.helloReceive p addr nport hops c2 c3) s = .next (swUpstream v)))
  ∧ (∀ (s : State) (p : Fin 4), swCarries s p.val = true → exec (.leaveReceive p) s = .next (s.setSwPort p.val { s.swPort p.val with hush := true }))
  ∧ (∀ (s : State) (p : Fin 4), swState s p.val ≠ 0 → exec (.swardLossOfSignal p) s = .next (swDown s p.val) ∧ swState (swDown s p.val) p.val = 0)
  ∧ (∀ (s u v : State) (p : Fin 4) (n : BitVec 16) (e : Nat), swLive s p.val = true → swState s p.val ≠ 0 → e = (s.swPort p.val).errs + n.toNat →
    u = (s.setFld (R.swardCnt_SYMERR p.val) (satAdd 16 (s.fld (R.swardCnt_SYMERR p.val)) n.toNat)).setSwPort p.val { s.swPort p.val with errs := e } →
    v = (if n = 0 then u else u.raiseLim 241 p.val (wd e) (100 * msTicks)) →
    exec (.swardSymbolErrorLimit p n) s = .next (if 32 < e then swDown v p.val else v))
  ∧ (∀ (s : State) (p : Fin 4) (bulk : Bool) (k : BitVec 8), swCarries s p.val = true →
    exec (.credReceive p bulk k) s = .next (s.setFld (swCredField p.val (if bulk then 3 else 2)) (satAdd 16 (s.fld (swCredField p.val (if bulk then 3 else 2))) k.toNat)))
  ∧ (∀ (s v : State) (p : Fin 4) (t : Tick) (a b : Nat) (ca cb : Bool), v = s.at t → swCarries v p.val = true → (v.swPort p.val).hush = false → (v.swPort p.val).owed = [a, b] →
    p.val < v.sward.ports.length → ca = (a != 0 && (decide (8 ≤ a) || decide (usTicks ≤ (v.dt - nth (v.swPort p.val).owedAt 0 0).toNat))) →
    cb = (b != 0 && (decide (8 ≤ b) || decide (usTicks ≤ (v.dt - nth (v.swPort p.val).owedAt 1 0).toNat))) →
    ∃ u, exec (.credSend p t) s = .next u ∧ (u.swPort p.val).owed = [if ca then a - min a 255 else a, if cb then b - min b 255 else b] ∧ u.regs = v.regs ∧
      u.sward.sets = (if cb then [(p.val, .cred 3 (min b 255))] else []) ++ (if ca then [(p.val, .cred 2 (min a 255))] else []) ++ v.sward.sets)
  ∧ (∀ (s v : State) (p : Fin 4) (t : Tick), v = s.at t → swState v p.val = 2 → swLive v p.val = true →
    exec (.dreqSend p t) s = .next (swSet (v.setSwPort p.val { v.swPort p.val with
      tag := ((v.swPort p.val).tag + 1) % 256, dreqAt := some t }) p.val (.dreq (((v.swPort p.val).tag + 1) % 256)))
    ∧ (∀ (tag : BitVec 8) (arr : Tick), exec (.dreqReceive p tag arr t) s = .next (swSet v p.val (.drsp tag.toNat ((t - arr).toNat % 65536)))))
  ∧ (∀ (s v : State) (p : Fin 4) (turn : BitVec 16) (t t0 : Tick) (tag : BitVec 8) (ds : List Int), v = s.at t → swState v p.val = 2 → swLive v p.val = true →
    (v.swPort p.val).dreqAt = some t0 → (v.swPort p.val).tag = tag.toNat → ds = (((t - t0).toInt - (turn.toNat : Int)) / 2 :: (v.swPort p.val).delays).take 16 →
    exec (.drspReceive p tag turn t) s = .next ((v.setSwPort p.val { v.swPort p.val with dreqAt := none, delays := ds }).setReg (R.swardDelay p.val)
      (wdInt (ds.foldl (· + ·) 0 / (ds.length : Int)))))
  ∧ (∀ (s : State) (r : Request), s.served → r.params = [] → r.target ≤ 3 → nodeRuns s (21 + r.target) = true → swNode s ≠ 0 →
    exec (.swardJoin r) s = .next (respond r { st := if swState s r.target = 0 then swSetState s r.target 1 else s }))
  ∧ (∀ (s : State) (r : Request) (w : Word), s.served → r.params = [w] → r.target ≤ 3 → bitsOf w 1 31 = 0 → nodeRuns s (21 + r.target) = true →
    (bitOf w 0 = true → exec (.swardLeave r) s = .next (respond r { st := if swState s r.target = 0 then s else swDown s r.target }))
    ∧ (bitOf w 0 = false → swState s r.target = 2 → swLive s r.target = true → exec (.swardLeave r) s = .next (respond r
        { st := swSent (swSetState s r.target 3) r.target { cls := 2, dst := swLocal, svc := 0, src := swNode s, payload := [2 <<< 24] } }))
    ∧ (bitOf w 0 = false → swState s r.target = 2 → swLive s r.target = false → exec (.swardLeave r) s = .next (respond r { st := swSetState s r.target 3 }))
    ∧ (bitOf w 0 = false → swState s r.target ≠ 2 → exec (.swardLeave r) s = .next (respond r { st := if swState s r.target = 1 then swDown s r.target else s })))
  ∧ (∀ (s : State) (w : Word), bitsOf w 0 18 ≠ swLocal → (List.range 4).all (fun p => swState s p == 0) = true →
    ∃ t, exec (.swardNodeWrite w) s = .next t ∧ swNode t = bitsOf w 0 18 ∧ t.flag R.swardNode_ROOT = bitOf w 31 ∧ (bitOf w 31 = true → t.sward.dtB = 0 ∧ t.sward.ftB = 0))
  ∧ (∀ (s : State) (p : Fin 4) (c : Fin 3) (w : Word) (a : Nat → Nat), regReady s (R.swardRes0 p.val) = true →
    a = (fun i => if i = 0 then R.swardRes0 p.val else if i = 1 then R.swardRes1 p.val else R.swardRes2 p.val) →
    bitsOf w 0 19 + sumNat (((List.range 3).filter (· != c.val)).map (fun i => bitsOf (s.reg (a i)) 0 19)) ≤ 270000 →
    exec (.swardResWrite p c w) s = .next (s.setReg (a c.val) (wd (bitsOf w 0 19))))
  ∧ (∀ (s : State) (w : Word),
    (∀ k, hrxCut (s.fld R.swardHrxtail_TAIL) (bitsOf w 0 16) s.sward.ents 0 = some k →
      exec (.swardHrxtailWrite w) s = .next (State.setReg (s.withSward { s.sward with ents := s.sward.ents.drop k }) R.swardHrxtail (w &&& 0xFFFF#32)))
    ∧ (hrxCut (s.fld R.swardHrxtail_TAIL) (bitsOf w 0 16) s.sward.ents 0 = none → exec (.swardHrxtailWrite w) s = .next s))

/-- Frames and streams of the Sward (R66, R420 to R425, R427, R428, R430, R431, R434, R435, R437): a frame that arrives is counted and goes where its
address says, a damaged one is dropped with its reason; the frame that qualifies first leaves, one that waited too long is dropped; streams
resend, acknowledge and are forgotten; routes are staged and take effect at an epoch; marks move fabric time; EVENT frames reach the
latch units.
Each of these completes under the conditions its clauses name: `swardFrameReceive`, `swardTransmit`, `swardWaitDrop`,
`e2eRetransmitTimeout`, `e2eAckSend`, `streamForget`, `eventFrameReceive`, `swardRoute`, `swardEpochBoundary` and `epochMarkReceive`. -/
def Obligations.Sward_Frames : Prop :=
  (∀ (s v u : State) (p : Fin 4) (ws : List Word) (t : Tick) (f : SwFrame) (len : Nat) (good : Prop), v = s.at t → swCarries v p.val = true → f = swFrameOf ws →
    len = bitsOf (nth ws 1 0#32) 0 9 → u = v.cntWrap (R.swardFrames_FRAMES p.val) →
    good = (4 ≤ ws.length ∧ crc32c (ws.take 3) = nth ws 3 0#32 ∧ swClassOk f.svc f.cls = true ∧ len ≤ 259 ∧ bitsOf (nth ws 0 0#32) 0 3 = 0 ∧ bitsOf (nth ws 1 0#32) 9 9 = 0) →
    exec (.swardFrameReceive p ws true t) s = .next (v.cntSat (R.swardCnt_ABORTS p.val))
    ∧ (¬ good → exec (.swardFrameReceive p ws false t) s = .next (swDrop u p.val f.cls 5))
    ∧ (good → ws.length ≠ len + 5 ∨ crc32c ws.dropLast ≠ nth ws (ws.length - 1) 0#32 →
      exec (.swardFrameReceive p ws false t) s = .next (swOwe (swDrop u p.val f.cls 6) p.val f))
    ∧ (good → ws.length = len + 5 → crc32c ws.dropLast = nth ws (ws.length - 1) 0#32 →
      exec (.swardFrameReceive p ws false t) s = .next (if f.svc = 0 then swOwe (swHere u p.val f t) p.val f else if f.svc = 1 then
          swForward (u.withSward { u.sward with via := (f.src, p.val) :: u.sward.via.filter (·.1 != f.src) }) p.val f t else swForward u p.val f t)))
  ∧ (∀ (s v u : State) (p : Fin 4) (t : Tick), v = s.at t → swCarries v p.val = true → (v.swPort p.val).hush = false →
    u = swFillTokens (swWaitDrop (if swState v p.val = 2 then swPull v p.val else v) p.val) p.val →
    (swPick u p.val = none → exec (.swardTransmit p t) s = .next u)
    ∧ (∀ (c : Nat) (bucket : Bool) (q : SwQ) (rest : List SwQ) (x y : State), swPick u p.val = some (c, bucket) → nth (u.swPort p.val).queues c [] = q :: rest →
      x = u.setSwPort p.val { u.swPort p.val with queues := setAt (u.swPort p.val).queues c rest, tok := if bucket then setAt (u.swPort p.val).tok c (nth (u.swPort p.val).tok c 0 - (swCharge q.f : Rat)) else (u.swPort p.val).tok } →
      y = (if c < 2 then x else x.setFld (swCredField p.val c) (x.fld (swCredField p.val c) - swCredits q.f)) →
      (q.from_ = none → exec (.swardTransmit p t) s = .next (swSent (swFillAck y q.f).1 p.val (swFillAck y q.f).2))
      ∧ (∀ i, q.from_ = some i → exec (.swardTransmit p t) s = .next (swOwe (swSent (swFillAck y q.f).1 p.val (swFillAck y q.f).2) i q.f))))
  ∧ (∀ (s : State) (p : Fin 4) (q0 q1 q2 q3 : List SwQ), (s.swPort p.val).queues = [q0, q1, q2, q3] → p.val < s.sward.ports.length →
    ∃ t, exec (.swardWaitDrop p) s = .next t ∧ (t.swPort p.val).queues = [q0.filter (fun e => (s.dt - e.since).toNat < swWait), q1.filter (fun e => (s.dt - e.since).toNat < swWait), q2, q3] ∧
      (∀ i, i ≠ p.val → t.swPort i = s.swPort i) ∧ t.loop = s.loop ∧
      (∀ q, q0 = [q] → q1 = [] → swWait ≤ (s.dt - q.since).toNat → q.f.cls = 0 → t.fld (R.swardDrops_D0 p.val) = satInc (R.swardDrops_D0 p.val).w (s.fld (R.swardDrops_D0 p.val))))
  ∧ (∀ (s v : State) (peer : BitVec 18) (bulk : Bool) (cls : Nat) (x : SwTx), cls = (if bulk then 3 else 2) → swTxOf s peer.toNat cls = some x → x.una ≠ [] →
    v = s.at (x.since + tk (2 * msTicks)) →
    (x.resends < 8 → ∃ t, exec (.e2eRetransmitTimeout peer bulk) s = .next t ∧ swTxOf t peer.toNat cls = some { x with resends := x.resends + 1, since := v.dt, last := v.dt } ∧
      t.evt = v.evt ∧ t.regs = v.regs)
    ∧ (8 ≤ x.resends → ∃ t, exec (.e2eRetransmitTimeout peer bulk) s = .next t ∧ swTxOf t peer.toNat cls = none ∧
      t.evt.occ = v.evt.occ ++ [{ ev := 243, inst := cls, detail := wd peer.toNat }] ∧ t.regs = v.regs))
  ∧ (∀ (s : State) (peer : BitVec 18) (bulk : Bool) (cls : Nat) (x : SwRx) (d : Tick), cls = (if bulk then 3 else 2) → swRxOf s peer.toNat cls = some x → x.due = some d →
    exec (.e2eAckSend peer bulk) s = .next (swPutRx (if swState s x.port = 2 then
        swOut s x.port { cls := 2, dst := peer.toNat, svc := 0, src := swNode s, ack := x.got, payload := [wd cls] } true else s) { x with due := none, last := s.dt }))
  ∧ (∀ (s : State) (peer : BitVec 18) (bulk : Bool) (cls : Nat), cls = (if bulk then 3 else 2) →
    (∀ x, swRxOf s peer.toNat cls = some x → ∃ t, exec (.streamForget peer bulk true) s = .next t ∧ swRxOf t peer.toNat cls = none ∧ t.sward.tx = s.sward.tx ∧ t.evt = s.evt)
    ∧ (∀ x, swTxOf s peer.toNat cls = some x → ∃ t, exec (.streamForget peer bulk false) s = .next t ∧ swTxOf t peer.toNat cls = none ∧ t.sward.rx = s.sward.rx ∧ t.evt = s.evt))
  ∧ (∀ (s : State) (ev : Fin 256) (ft : Tick) (us : List Nat), swHears s = true → us = (List.range 64).filter (fun u =>
      s.fld (R.latchCfg_SRCK u) == 3 && s.fld (R.latchCfg_SRC u) == ev.val && s.flag (R.latchCfg_EN u)) →
    (s.flag R.swardFtstat_FT_LOCK = false →
      ∃ t, exec (.eventFrameReceive ev ft) s = .next t ∧ t.regs = s.regs ∧ t.fdbk = s.fdbk ∧ t.evt.occ = s.evt.occ ++ us.map (fun u => { ev := 147, inst := u, detail := 1#32 }))
    ∧ (s.flag R.swardFtstat_FT_LOCK = true → us = [] → exec (.eventFrameReceive ev ft) s = .next s)
    ∧ (∀ u, s.flag R.swardFtstat_FT_LOCK = true → us = [u] →
      exec (.eventFrameReceive ev ft) s = .next (latchInstant s u true (dtOfFt s ft - tk (s.fld (R.latchDly_LDLY u))))))
  ∧ (∀ (s u : State) (r : Request) (a b : Word) (op addr plen ports : Nat) (now : List (Nat × Nat × Nat)), s.served → r.target = 0 → r.params = [a, b] → op = bitsOf a 30 2 →
    addr = bitsOf a 0 18 → plen = bitsOf b 8 5 → ports = bitsOf b 0 5 → op ≠ 3 → bitsOf a 18 12 = 0 → bitsOf b 13 19 = 0 → bitsOf b 5 3 = 0 → plen ≤ 18 →
    addr % 2 ^ (18 - plen) = 0 → (op = 0 → ports ≠ 0) → now = swApply (swEntries s) s.sward.staged →
    (op = 0 → now.any (fun e => e.1 == addr && e.2.1 == plen) = true ∨ now.length < 1024) →
    u = State.setFld (s.withSward { s.sward with staged := s.sward.staged ++ [(op, addr, plen, ports)] }) R.swardRstat_STAGED (s.sward.staged.length + 1) →
    (r.ackAtApply = false ∨ r.noReply = true → exec (.swardRoute r) s = .next (respond r { st := u }))
    ∧ (r.ackAtApply = true → r.noReply = false → exec (.swardRoute r) s = .next ((portHeld u r).withSward { (portHeld u r).sward with waits := (portHeld u r).sward.waits ++ [r] })))
  ∧ (∀ (s : State) (t : Tick), ∃ u, exec (.swardEpochBoundary t) s = .next u ∧ u.reg R.swardEpoch = wdInt (roundI (ftExact (s.at t) t / (epochTicks : Rat))) ∧
    u.sward.staged = [] ∧ u.sward.waits = [] ∧ u.fld R.swardRstat_STAGED = 0)
  ∧ (∀ (s v : State) (p : Fin 4) (e late : BitVec 16) (t : Tick) (want o : Rat), v = s.at t → v.flag R.swardNode_ROOT = false → v.fld R.swardFtstat_UPPORT = p.val → swCarries v p.val = true →
    want = ((((if v.sward.marked then epochNear (ftExact v t) e.toNat else (e.toNat : Int)) * epochTicks + late.toNat : Int)) : Rat) + ((v.reg (R.swardDelay p.val)).toNat : Rat) →
    o = ftExact v t - want →
    ∃ u, exec (.epochMarkReceive p e late t) s = .next u ∧ u.sward.marked = true ∧ u.sward.dtB = t ∧ u.clk.epoch = true ∧ u.sward.none_ = 0 ∧
      (v.sward.marked = false ∨ 16000 ≤ absR o → u.sward.ftB = want ∧ u.sward.frate = v.sward.frate) ∧
      (v.sward.marked = true → absR o < 16000 → u.sward.ftB = ftExact v t - o / 2 ∧
        u.sward.frate = clampR (-(200 / 1000000)) (200 / 1000000) (v.sward.frate - o / (2 * msTicks : Nat))))

/-- The Sheaf (R438, R439, R441 to R443, R446): a module takes a role; departures and joins are decided at a Sheaf epoch; status frames and beacons are sent
and taken; a silent member departs; links and mirrors arrive; the standby takes over when its peer's lead is gone.
Each of these completes under the conditions its clauses name: `sheafRole`, `sheafEpoch`, `sheafBeaconSend`, `sheafBeaconReceive`,
`sheafStatusReceive`, `sheafDepartureTimeout`, `linkDataReceive`, `mirrorReceive` and `takeoverCheck`. -/
def Obligations.Sheaf_Works : Prop :=
  (∀ (s : State) (r : Request) (a b : Word) (role base mst : Nat), s.served → r.target = 0 → r.params = [a, b] → role = bitsOf a 30 2 → base = bitsOf a 0 18 → mst = bitsOf b 0 18 →
    bitsOf a 18 12 = 0 → bitsOf b 18 14 = 0 → base % 16 = 0 → swNode s = base + sheafSlot s → (2 ≤ role → base ≤ mst ∧ mst ≤ base + 15 ∧ mst ≠ swNode s) →
    (∀ g, g < 8 → grpState s g = 0) → s.flag R.nibSync_IN_EN = false → (role = 2 → s.flag R.timeCfg_DISC = false) →
    (role = 1 ∨ role = 2 → (s.grp 0).p ≠ 0 ∧ tg0Committed s none = true) →
    ∃ t, exec (.sheafRole r) s = .next (respond r { st := t }) ∧ sheafRole t = role ∧ t.flag R.sheafStat_LEAD = decide (role = 1) ∧
      (role = 0 → sheafState s = 2 → t.sheaf.leaving = true ∧ sheafState t = 2) ∧ (role = 0 → sheafState s ≠ 2 → sheafState t = 0) ∧
      (role = 1 → sheafState t = 2 ∧ t.fld R.sheafMaster_MASTER = swNode s ∧ t.fld R.sheafCfg_BASE = base ∧ t.flag R.swardNode_ROOT = true) ∧
      (2 ≤ role → sheafState t = 1 ∧ t.fld R.sheafMaster_MASTER = mst ∧ t.fld R.sheafCfg_BASE = base ∧ t.fld R.sheafStat_MEMBERS = 0))
  ∧ (∀ s : State, s.fld R.swardEpoch_EPOCH % 16 = 0 →
    (s.sheaf.leaving = true → sheafState s = 2 → ∃ t, exec .sheafEpoch s = .next t ∧ t = sheafDepart s ∧ sheafState t = 0 ∧ t.fld R.sheafStat_MEMBERS = 0 ∧
      t.sheaf.users = [] ∧ t.sheaf.leaving = false)
    ∧ (∀ u : State, s.sheaf.leaving = false → sheafRole s = 1 → sheafState s = 2 → u = s.sheaf.leaves.foldl sheafDrop s →
      exec .sheafEpoch s = .next ((s.sheaf.joins.filter (fun e => !s.sheaf.leaves.contains e.1)).foldl (fun t e => sheafJoin t e.1 e.2)
        (u.withSheaf { u.sheaf with joins := [], leaves := [] })))
    ∧ (sheafState s ≠ 2 → exec .sheafEpoch s = .next s))
  ∧ (∀ s : State, (sheafRole s = 1 → sheafState s = 2 → ∃ t, exec .sheafBeaconSend s = .next t ∧ t.sheaf = s.sheaf ∧ t.loop = s.loop)
    ∧ (2 ≤ sheafRole s → sheafState s = 1 ∨ sheafState s = 2 → ∃ t, exec .sheafBeaconSend s = .next t ∧ t.loop = s.loop ∧
      t.sheaf = (if sheafState s = 1 ∧ sheafAligned s = true then { s.sheaf with joinSent := true } else s.sheaf)))
  ∧ (∀ (s : State) (src : BitVec 18) (took : Bool) (members : BitVec 16) (answer : Option Bool) (grps : List (Fin 8 × Word × Tick)), 2 ≤ sheafRole s →
    sheafState s = 1 ∨ sheafState s = 2 → src.toNat = s.fld R.sheafMaster_MASTER ∨ took = true →
    ∃ t, exec (.sheafBeaconReceive src took members answer grps) s = .next t ∧ t.fld R.sheafMaster_MASTER = src.toNat ∧ t.sheaf.beaconAt = some s.dt ∧
      t.sheaf.beacon = grps.map (fun e => (e.1.val, e.2.1.toNat, e.2.2)) ∧
      sheafState t = (if sheafState s = 1 ∧ s.sheaf.joinSent = true then (match answer with | some true => 2 | some false => 0 | none => 1) else sheafState s) ∧
      (sheafState s = 2 ∨ s.sheaf.joinSent = false ∨ answer ≠ some true → t.fld R.sheafStat_MEMBERS = members.toNat))
  ∧ (∀ (s : State) (slot : Fin 16) (join standby leave : Bool) (links : List (BitVec 16)) (mine : List Nat), sheafState s = 2 →
    mine = ((links.map (·.toNat)).filter (fun v => v / 256 == sheafSlot s + 1)).map (· % 256) →
    ∃ t, exec (.sheafStatusReceive slot join standby leave links) s = .next t ∧ t.regs = s.regs ∧ t.evt = s.evt ∧
      t.sheaf.users = s.sheaf.users.filter (fun e => e.1 != slot.val) ++ mine.eraseDups.map (fun k => (slot.val, k)) ∧
      (sheafRole s = 1 → t.sheaf.joins = (if join then s.sheaf.joins.filter (fun e => e.1 != slot.val) ++ [(slot.val, standby)] else s.sheaf.joins) ∧
        (leave = true → slot.val ∈ t.sheaf.leaves) ∧ (sheafMember s slot.val = true → (slot.val, s.dt) ∈ t.sheaf.seen)))
  ∧ (∀ (s : State) (slot : Fin 16), sheafState s = 2 →
    (∀ e, sheafRole s = 1 → s.sheaf.seen.find? (fun e => e.1 == slot.val) = some e → exec (.sheafDepartureTimeout slot) s = .next (sheafDrop (s.at (e.2 + tk msTicks)) slot.val))
    ∧ (∀ t, sheafRole s = 3 → sheafNode s slot.val = s.fld R.sheafMaster_MASTER → s.sheaf.beaconAt = some t →
      exec (.sheafDepartureTimeout slot) s = .next (sheafDepart (s.at (t + tk msTicks)))))
  ∧ (∀ (s : State) (v : BitVec 16) (ft t : Tick) (per : Word) (out : List Word), sheafState (s.at t) = 2 → 256 ≤ v.toNat → v.toNat ≤ 0x10FF →
    v.toNat / 256 - 1 ≠ sheafSlot (s.at t) →
    ∃ u, exec (.linkDataReceive v ft per out t) s = .next u ∧ u.sheaf.remote.find? (fun r => r.v == v.toNat) =
      some { v := v.toNat, ft := ft, at_ := (s.at t).dt, per := per.toNat, out := lo32 (dtOfFt (s.at t) ft) :: hi32 (dtOfFt (s.at t) ft) :: out.drop 2 } ∧ u.regs = (s.at t).regs)
  ∧ (∀ (s : State) (p : Fin 2) (g : Fin 8) (seq : Word) (state : Fin 3) (ctxs : List (Fin 256 × List Word)) (nibs : List (Fin 72 × Word × Word × Word)) (t : Tick),
    sheafRole (s.at t) = 2 → sheafState (s.at t) = 2 →
    ∃ u, exec (.mirrorReceive p g seq state ctxs nibs t) s = .next u ∧ u.regs = (s.at t).regs ∧
      { port := p.val, grp := g.val, seq := seq, state := state.val, ctxs := ctxs.map (fun e => (e.1.val, e.2)), nibs := nibs.map (fun e => (e.1.val, e.2)), at_ := t } ∈ u.sheaf.mirrors)
  ∧ (∀ (s : State) (high : Bool), (s.sheaf.check = none → exec (.takeoverCheck high) s = .next (s.setFlag R.sheafStat_PEER_LEAD (!high)))
    ∧ (∀ b, s.sheaf.check = some b → sheafRole s = 2 → sheafState s = 2 →
      (∃ t, exec (.takeoverCheck true) s = .next t ∧ sheafRole t = 1 ∧ t.flag R.sheafStat_LEAD = true ∧ t.sheaf.check = none ∧ t.sheaf.took = true ∧
        t.fld R.sheafMaster_MASTER = swNode s ∧ t.reg64 R.sheafTakedtLo = b + tk usTicks)
      ∧ (∃ t, exec (.takeoverCheck false) s = .next t ∧ sheafRole t = 2 ∧ t.sheaf.check = none ∧ t.sheaf.peerTold = true ∧
        t.evt.occ = s.evt.occ ++ [{ ev := 250, inst := 0, detail := 1#32 }])))

/-- A step takes the command at the front of the queue and runs it on the state with the queue's rest. With none waiting one edge tick
passes (the model's choice, log entry 2): DT counts it while the timebase is valid (R62), and nothing else happens but the Ethernet
queues that drain. -/
def Obligations.Step_Takes_The_Front : Prop :=
  (∀ (c : Instr) (cs : List Instr) (s : State), s.pending = c :: cs → step s = exec c (s.withPending cs))
  ∧ (∀ s : State, s.pending = [] → step s = .next (tick s))
  ∧ (∀ s : State, s.flag R.clkStat_TB_VALID = false → tick s = s)

/-- The machine right after reset: no command waits, every register holds its reset word, no field is in force that differs from it,
Reed is held, DT is 0 (R62), no context, run or pending change exists, Husk is in INIT with its general output low (R343), and the
invariant of Husk's output holds. -/
def Obligations.Reset_Meets_The_Invariant : Prop :=
  State.reset.pending = [] ∧ (∀ a, State.reset.reg a = resetWord a) ∧ (∀ a, State.reset.frc a = resetWord a)
  ∧ State.reset.reed = .held ∧ State.reset.dt = 0 ∧ State.reset.loop.runs = [] ∧ State.reset.loop.pend = [] ∧ (∀ n, (State.reset.ctx n).kind = 0)
  ∧ (∀ n, ringEnts State.reset n = []) ∧ State.reset.safe.husk.st = 0 ∧ State.reset.safe.husk.gen = false ∧ State.reset.genHeld

/-- Husk's general output is never high on its own: in every state that keeps the rule (GEN_A and GEN_B high only with Husk powered, in
PERMIT or SS1, or in a single-channel interval entered from one of them: R331, R343), every step leaves a state that keeps it,
whatever command runs. -/
def Obligations.Husk_Output_Stays_Permitted : Prop :=
  ∀ s t : State, s.genHeld → step s = .next t → t.genHeld

/-- Every command completes in every state, without a fault or a refusal, and leaves the queue of waiting commands as it is. -/
def Obligations.Every_Command_Completes : Prop :=
  ∀ (c : Instr) (s : State), ∃ t, exec c s = .next t ∧ t.pending = s.pending

/-- A nib never drives both of its outputs active (R175). Within a plan the activity of one output and that of the other lie a dead time apart:
that of the rise, DTR, or that of the fall, DTF, as in force when the plan was made (R176); a transition's two edges move together to lie
within the period; and where the outputs change over at a period's start, the dead time holds there too. -/
def Obligations.Half_Bridge_Never_Shorts : Prop :=
  (∀ (s : State) (n : Nat) (h l : Bool), gateLevels s n = some (h, l) →
    ¬ (h ≠ s.flag (R.nibCfg_POL_H n) ∧ l ≠ s.flag (R.nibCfg_POL_L n)))
  ∧ (∀ (p : GatePlan) (x y : Nat), (p.levels x).1 = true → (p.levels y).2 = true →
    (∃ r, p.rise = some r ∧ y + r.2 < x) ∨ (∃ f, p.fall = some f ∧ x + f.2 < y))
  ∧ (∀ (s : State) (n lo on off len : Nat), (planRise s n lo on len).2 = nibDtr s n ∧ (planFall s n lo off len).2 = nibDtf s n)
  ∧ (∀ (lo d len : Nat) (x : Int), ((lo : Int) ≤ x → x + d < len → (transPlan lo x d len).1 = x.toNat)
    ∧ (x < lo → lo + d < len → (transPlan lo x d len).1 = lo)
    ∧ (d < len → (len : Int) ≤ max (lo : Int) x + d → (transPlan lo x d len).1 = len - 1 - d))
  ∧ (∀ (s : State) (n : Nat) (base : Tick) (full : Bool) (rise fall : Option (Nat × Nat)), s.flag (R.nibNstat_HIZ n) = false → (s.nibS n).idle = false →
    ((nibLevels s n (base - 1)).1 = true → ∀ x, ((planStart s n base full rise fall).levels x).2 = true → nibDtf s n ≤ x)
    ∧ ((nibLevels s n (base - 1)).2 = true → ∀ x, ((planStart s n base full rise fall).levels x).1 = true → nibDtr s n ≤ x))

/-- The first carrier zero of a group lies on the grid Φ + n × P, after now, and no grid point lies between (R19). -/
def Obligations.First_Carrier_Zero : Prop :=
  ∀ (phi p : Nat) (now : Tick), 0 < p → phi < p → now.toNat + p < 2 ^ 64 →
    now < firstZero phi p now ∧ (∃ n : Nat, (firstZero phi p now).toNat = phi + n * p)
    ∧ (∀ n : Nat, now.toNat < phi + n * p → (firstZero phi p now).toNat ≤ phi + n * p)

/-- Words stored into a ring read back as they were stored, round the ring's end, and ring memory outside the ring keeps its words
(R101, R102, R107). -/
def Obligations.Ring_Words_Round_Trip : Prop :=
  ∀ (s : State) (n off : Nat) (ws : List Word), ws.length ≤ ringSize s n →
    ringCopyOut (ringCopyIn s n off ws) n off ws.length = ws
    ∧ (∀ a, a < ringBase s n ∨ ringBase s n + ringSize s n ≤ a → ringMemGet (ringCopyIn s n off ws) a = ringMemGet s a)
    ∧ (ringCopyIn s n off ws).regs = s.regs

/-- KEEP_WRITE (R128): a word above 1,023 is refused with RANGE, one of the device's own with REFUSED_STATE; a word of the host that is
not busy is written with P0 and its wear count after the write is answered. A register run that reaches the word writes it too. -/
def Obligations.Keep_Write_Rule : Prop :=
  (∀ (s : State) (r : Request) (w : Word), s.served → r.params = [w] → 1023 < r.target →
    exec (.keepWrite r) s = .next (respond r { st := s, status := stRANGE }))
  ∧ (∀ (s : State) (r : Request) (w : Word), s.served → r.params = [w] → 960 ≤ r.target → r.target ≤ 1023 →
    exec (.keepWrite r) s = .next (respond r { st := s, status := stREFUSED_STATE }))
  ∧ (∀ (s : State) (r : Request) (w : Word), s.served → r.params = [w] → r.target < 960 → keepBusy s r.target = false →
    ∃ u st, exec (.keepWrite r) s = .next (respond r { st := u, status := st, data := [wd (u.fld (R.keepWear_COUNT r.target))] }) ∧
      (st = stOK ∨ st = stWORN) ∧ u.keep.busy = s.keep.busy ++ [(r.target, w)] ∧ u.keep.wait = s.keep.wait)
  ∧ (∀ (s : State) (n : Fin 1024) (w : Word), n.val < 960 → keepBusy s n.val = false →
    (serving s = true → ∃ u, exec (.keepWordRegWrite n w) s = .next u ∧ u.keep.busy = s.keep.busy ++ [(n.val, w)] ∧ u.keep.wait = s.keep.wait)
    ∧ (regWrite s (R.keepWord n.val) w).st.keep.busy = s.keep.busy ++ [(n.val, w)])

/-- EVT.TEST (R458): GO raises the named event with instance 0xFFFF and detail 0; the record carries TEST; a reserved event number is
refused with BAD_PARAM; a test occurrence reaches the event registers and the event rings and nothing else in any block. -/
def Obligations.Event_Test_Rule : Prop :=
  (∀ (s : State) (w : Word), bitOf w 31 = true → evDefined (bitsOf w 0 8) = true →
    exec (.evtTest w) s = .next (s.raiseAll [{ ev := bitsOf w 0 8, inst := 0xFFFF, detail := 0#32, test := true }]))
  ∧ (∀ (s : State) (w : Word), bitOf w 31 = true → evDefined (bitsOf w 0 8) = false →
    exec (.evtTest w) s = .next s ∧ regWrite s R.evtTest w = { st := s, status := stBAD_PARAM })
  ∧ (∀ (dt : Tick) (inst ev count : Nat) (detail : Word) (noclk coal test : Bool),
    bitOf (nth (evtRecord dt inst detail ev noclk coal test count) 3 0#32) 21 = test)
  ∧ (∀ (s : State) (o : Occ), o.test = true →
    (∀ a, (a < 0x020000 ∨ 0x020800 ≤ a) → (a < 0x300200 ∨ 0x300280 ≤ a) → (evtOne s o).reg a = s.reg a)
    ∧ (evtOne s o).force = s.force ∧ (evtOne s o).dt = s.dt ∧ (evtOne s o).phase = s.phase ∧ (evtOne s o).reed = s.reed ∧ (evtOne s o).clk = s.clk
    ∧ (evtOne s o).loop = s.loop ∧ (evtOne s o).sense = s.sense ∧ (evtOne s o).nib = s.nib ∧ (evtOne s o).ink = s.ink ∧ (evtOne s o).fdbk = s.fdbk
    ∧ (evtOne s o).field = s.field ∧ (evtOne s o).safe = s.safe ∧ (evtOne s o).store = s.store ∧ (evtOne s o).can = s.can ∧ (evtOne s o).sward = s.sward
    ∧ (evtOne s o).sheaf = s.sheaf ∧ (evtOne s o).net = s.net ∧ (evtOne s o).nvm = s.nvm ∧ (evtOne s o).keep = s.keep ∧ (evtOne s o).boot = s.boot
    ∧ (evtOne s o).pending = s.pending)

/-- The fallback of R65: when the active source fails, the first other source among crystal, REF_IN and RC that is enabled and qualified
takes over, and the device coasts where there is none. What comes first is the failure itself: counted, disqualified and told. -/
def Obligations.Fallback_Choice : Prop :=
  ∀ (s u : State) (a : Fin 3), clkRuns s = true → clkEnabled s a.val = true → clkFreqJudged s a.val = true →
    u = (clkSetQual (s.cntSat (clkFailsFld a.val)) a.val false).raise 8 a.val (wd 2) → clkActive u = a.val → u.flag R.clkStat_NOFALLBACK = false →
    exec (.sourceFrequencyFail a) s = .next (tbSettle (
      if a.val ≠ 0 ∧ clkEnabled u 0 = true ∧ clkQual u 0 = true then clkSwitch u 0
      else if a.val ≠ 1 ∧ clkEnabled u 1 = true ∧ clkQual u 1 = true then clkSwitch u 1
      else if a.val ≠ 2 ∧ clkEnabled u 2 = true ∧ clkQual u 2 = true then clkSwitch u 2
      else clkCoast u))

/-- Answering a request (R74, R78, R79) changes no register but those of the port's reply ring 8 + p and its port word, and, where port 1
or 2 sends the reply as a datagram, the drop counter and the drop flag of its Ethernet port; and it leaves every other part of
the machine than the event unit, the command interface and the Ethernet queues as the request's execution left it. -/
def Obligations.Reply_Frame : Prop :=
  ∀ (r : Request) (x : Res),
    (∀ a, (a < 0x300000 + 0x20 * (8 + r.port.val) ∨ 0x300000 + 0x20 * (8 + r.port.val) + 0x20 ≤ a) → a ≠ R.ringPort r.port.val →
      (r.port.val = 1 ∨ r.port.val = 2 → a ≠ R.ethDrops (r.port.val - 1) ∧ a ≠ R.ethStat (r.port.val - 1)) →
      (respond r x).reg a = x.st.reg a)
    ∧ (respond r x).force = x.st.force ∧ (respond r x).dt = x.st.dt ∧ (respond r x).phase = x.st.phase ∧ (respond r x).reed = x.st.reed
    ∧ (respond r x).clk = x.st.clk ∧ (respond r x).loop = x.st.loop ∧ (respond r x).sense = x.st.sense ∧ (respond r x).nib = x.st.nib
    ∧ (respond r x).ink = x.st.ink ∧ (respond r x).fdbk = x.st.fdbk ∧ (respond r x).field = x.st.field ∧ (respond r x).safe = x.st.safe
    ∧ (respond r x).store = x.st.store ∧ (respond r x).can = x.st.can ∧ (respond r x).sward = x.st.sward ∧ (respond r x).sheaf = x.st.sheaf
    ∧ (respond r x).nvm = x.st.nvm ∧ (respond r x).keep = x.st.keep ∧ (respond r x).boot = x.st.boot ∧ (respond r x).free = x.st.free
    ∧ (respond r x).pending = x.st.pending

/-- The arbiter takes the occurrences of one edge tick in ascending event number, then ascending instance, each of them once (R455). -/
def Obligations.Arbiter_Order : Prop :=
  ∀ l : List Occ, (occSort l).Perm l ∧ (occSort l).Pairwise (fun a b => a.ev < b.ev ∨ (a.ev = b.ev ∧ a.inst ≤ b.inst))

/-- The pace floor by the table of R33, rows in millivolts and columns in degrees. -/
def Obligations.Pace_Floor_Table : Prop :=
  ∀ mv tj : Nat, 600 ≤ mv → tj ≤ 150 →
    (mv < 650 → paceFloor mv tj = if tj ≤ 105 then 2350 else if tj ≤ 125 then 2450 else 2600)
    ∧ (650 ≤ mv → mv < 700 → paceFloor mv tj = if tj ≤ 105 then 2100 else if tj ≤ 125 then 2200 else 2330)
    ∧ (700 ≤ mv → mv < 750 → paceFloor mv tj = if tj ≤ 105 then 1900 else if tj ≤ 125 then 1990 else 2110)
    ∧ (750 ≤ mv → mv < 800 → paceFloor mv tj = if tj ≤ 105 then 1740 else if tj ≤ 125 then 1820 else 1930)
    ∧ (800 ≤ mv → paceFloor mv tj = if tj ≤ 105 then 1610 else if tj ≤ 125 then 1690 else 1790)

/-- The window over ring memory (R107): word w reads at 0x34_0000 + 4 × w and the read changes nothing; a write leaves the whole state
as it is. -/
def Obligations.Ring_Memory_Window : Prop :=
  (∀ (s : State) (w : Nat), w < 65536 → regRead s (0x340000 + 4 * w) = { st := s, val := ringMemGet s w })
  ∧ (∀ (s : State) (a : BitVec 24) (x : Word), 0x340000 ≤ a.toNat → a.toNat < 0x380000 → exec (.registerWrite a x) s = .next s)

/-- The commands of the host port, rings, time, networks, Inkwell, field die (an input's edge apart), keep memory, storage and telegram leave the motor side alone:
the values in force, contexts and passes, the sensing front end, the nib bank, the feedback channels, maps and cams. -/
def Obligations.Motor_Side_Untouched : Prop :=
  ∀ (c : Instr) (s t : State), offMotor c = true → exec c s = .next t → t.motorSide = s.motorSide

end
end

