-- ==== Sys2Proof/Laws/FrameOps.lean ====
section
/-! SUPPORT. Frames of the operations over rings, events, replies, register fields and Inkwell: they leave the queue of waiting commands alone, and Husk's power, state and
general output. One lemma an operation. -/

namespace Sys2Proof.Machine

open Sys2Proof

section

set_option linter.unusedTactic false
set_option linter.unreachableTactic false

/-- The queue of waiting commands, and Husk's power, state, state before a single-channel interval, and general output. -/
def State.queueHusk (s : State) : List Instr × Bool × Nat × Nat × Bool := (s.pending, s.safe.husk.on, s.safe.husk.st, s.safe.husk.prev, s.safe.husk.gen)

/-- What `State.queueHusk` is. -/
abbrev QueueHusk := List Instr × Bool × Nat × Nat × Bool

theorem keeps_ite {c : Prop} [Decidable c] {a b : State} {k : QueueHusk} (ha : a.queueHusk = k) (hb : b.queueHusk = k) : (if c then a else b).queueHusk = k := by
  split <;> assumption
theorem keeps_iteR {c : Prop} [Decidable c] {a b : Res} {k : QueueHusk} (ha : a.st.queueHusk = k) (hb : b.st.queueHusk = k) : (if c then a else b).st.queueHusk = k := by
  split <;> assumption
theorem keeps_ite1 {α : Type} {c : Prop} [Decidable c] {a b : State × α} {k : QueueHusk} (ha : a.1.queueHusk = k) (hb : b.1.queueHusk = k) :
    (if c then a else b).1.queueHusk = k := by
  split <;> assumption
theorem keeps_ite2 {α : Type} {c : Prop} [Decidable c] {a b : α × State} {k : QueueHusk} (ha : a.2.queueHusk = k) (hb : b.2.queueHusk = k) :
    (if c then a else b).2.queueHusk = k := by
  split <;> assumption
theorem keeps_foldl {α : Type} {f : State → α → State} {l : List α} {s : State} {k : QueueHusk} (h : ∀ t x, (f t x).queueHusk = t.queueHusk) (hs : s.queueHusk = k) :
    (l.foldl f s).queueHusk = k := (foldl_keep f State.queueHusk h l s).trans hs
theorem keeps_foldl1 {α β : Type} {f : State × β → α → State × β} {l : List α} {s : State × β} {k : QueueHusk} (h : ∀ t x, (f t x).1.queueHusk = t.1.queueHusk)
    (hs : s.1.queueHusk = k) : (l.foldl f s).1.queueHusk = k := (foldl_keep f (fun t => t.1.queueHusk) h l s).trans hs
theorem keeps_foldl2 {α β : Type} {f : β × State → α → β × State} {l : List α} {s : β × State} {k : QueueHusk} (h : ∀ t x, (f t x).2.queueHusk = t.2.queueHusk)
    (hs : s.2.queueHusk = k) : (l.foldl f s).2.queueHusk = k := (foldl_keep f (fun t => t.2.queueHusk) h l s).trans hs
theorem withRegs_keeps (s : State) (x : Tbl Word) : (s.withRegs x).queueHusk = s.queueHusk := rfl
theorem withForce_keeps (s : State) (x : Tbl Word) : (s.withForce x).queueHusk = s.queueHusk := rfl
theorem withDt_keeps (s : State) (x : Tick) : (s.withDt x).queueHusk = s.queueHusk := rfl
theorem withEvt_keeps (s : State) (x : EvtS) : (s.withEvt x).queueHusk = s.queueHusk := rfl
theorem withCmd_keeps (s : State) (x : CmdS) : (s.withCmd x).queueHusk = s.queueHusk := rfl
theorem withPhase_keeps (s : State) (x : Phase) : (s.withPhase x).queueHusk = s.queueHusk := rfl
theorem withReed_keeps (s : State) (x : ReedSt) : (s.withReed x).queueHusk = s.queueHusk := rfl
theorem withClk_keeps (s : State) (x : ClkS) : (s.withClk x).queueHusk = s.queueHusk := rfl
theorem withLoop_keeps (s : State) (x : LoopS) : (s.withLoop x).queueHusk = s.queueHusk := rfl
theorem withSense_keeps (s : State) (x : SenseS) : (s.withSense x).queueHusk = s.queueHusk := rfl
theorem withNib_keeps (s : State) (x : NibB) : (s.withNib x).queueHusk = s.queueHusk := rfl
theorem withInk_keeps (s : State) (x : InkS) : (s.withInk x).queueHusk = s.queueHusk := rfl
theorem withFdbk_keeps (s : State) (x : FdbkS) : (s.withFdbk x).queueHusk = s.queueHusk := rfl
theorem withField_keeps (s : State) (x : FieldS) : (s.withField x).queueHusk = s.queueHusk := rfl
theorem withStore_keeps (s : State) (x : StoreS) : (s.withStore x).queueHusk = s.queueHusk := rfl
theorem withNet_keeps (s : State) (x : NetS) : (s.withNet x).queueHusk = s.queueHusk := rfl
theorem withCan_keeps (s : State) (x : CanS) : (s.withCan x).queueHusk = s.queueHusk := rfl
theorem withSward_keeps (s : State) (x : SwardS) : (s.withSward x).queueHusk = s.queueHusk := rfl
theorem withSheaf_keeps (s : State) (x : SheafS) : (s.withSheaf x).queueHusk = s.queueHusk := rfl
theorem withNvm_keeps (s : State) (x : NvmS) : (s.withNvm x).queueHusk = s.queueHusk := rfl
theorem withKeep_keeps (s : State) (x : KeepS) : (s.withKeep x).queueHusk = s.queueHusk := rfl
theorem withBoot_keeps (s : State) (x : BootS) : (s.withBoot x).queueHusk = s.queueHusk := rfl
theorem withFree_keeps (s : State) (x : Nat) : (s.withFree x).queueHusk = s.queueHusk := rfl
theorem withSafe_keeps (s : State) (x : SafeS) (h : x.husk = s.safe.husk) : (s.withSafe x).queueHusk = s.queueHusk := by simp [State.queueHusk, h]
theorem setReg_keeps (s : State) (a : Nat) (x : Word) : (s.setReg a x).queueHusk = s.queueHusk := rfl
theorem setRegs_keeps (s : State) (l : List (Nat × Word)) : (s.setRegs l).queueHusk = s.queueHusk := by
  exact keeps_foldl (fun t x => setReg_keeps t _ _) rfl
theorem CmdOnly.queueHusk {s t : State} (h : CmdOnly s t) : t.queueHusk = s.queueHusk := by simp [State.queueHusk, h.pending, h.safe]
theorem ringSetEnts_keeps (s : State) (n : Nat) (es : List Ent) : (ringSetEnts s n es).queueHusk = s.queueHusk := (CmdOnly.ringSetEnts s n es).queueHusk
theorem ringStore_keeps (s : State) (n : Nat) (ws : List Word) (e : Ent) : (ringStore s n ws e).queueHusk = s.queueHusk := (CmdOnly.ringStore s n ws e).queueHusk
theorem ringDrop_keeps (s : State) (n : Nat) : (ringDrop s n).queueHusk = s.queueHusk := (CmdOnly.ringDrop s n).queueHusk
theorem ring253_keeps (s : State) (n : Nat) : (ring253 s n).queueHusk = s.queueHusk := (CmdOnly.ring253 s n).queueHusk
theorem ringLose_keeps (s : State) (n k : Nat) : (ringLose s n k).queueHusk = s.queueHusk := (CmdOnly.ringLose s n k).queueHusk
theorem netTx_keeps (s : State) (p : Nat) (f : NetFrame) : (netTx s p f).queueHusk = s.queueHusk := (CmdOnly.netTx s p f).queueHusk
theorem udpCarry_keeps (s : State) (p : Nat) : (udpCarry s p).queueHusk = s.queueHusk := (CmdOnly.udpCarry s p).queueHusk
theorem cmdError_keeps (s : State) (p o st q : Nat) : (cmdError s p o st q).queueHusk = s.queueHusk := (CmdOnly.cmdError s p o st q).queueHusk
theorem sendReply_keeps (s : State) (r : Request) (ran : Bool) (st stamp : Nat) (data : List Word) : (sendReply s r ran st stamp data).queueHusk = s.queueHusk := (CmdOnly.sendReply s r ran st stamp data).queueHusk
theorem answer_keeps (s : State) (r : Request) (busy resv ran : Bool) (st stamp : Nat) (data : List Word) : (answer s r busy resv ran st stamp data).queueHusk = s.queueHusk := (CmdOnly.answer s r busy resv ran st stamp data).queueHusk
theorem replyFlush_keeps (n : Nat) (s : State) (p : Nat) : (replyFlush n s p).queueHusk = s.queueHusk := (CmdOnly.replyFlush n s p).queueHusk
theorem replyPut_keeps (s : State) (p : Nat) (e : Reply) : (replyPut s p e).queueHusk = s.queueHusk := (CmdOnly.replyPut s p e).queueHusk
theorem portHeld_keeps (s : State) (r : Request) : (portHeld s r).queueHusk = s.queueHusk := (CmdOnly.portHeld s r).queueHusk
theorem ringCopyIn_keeps (s : State) (n off : Nat) (ws : List Word) : (ringCopyIn s n off ws).queueHusk = s.queueHusk := (CmdOnly.ringCopyIn n ws s off).queueHusk
theorem ringMakeRoom_keeps (s : State) (n need fuel k : Nat) : (ringMakeRoom s n need fuel k).1.queueHusk = s.queueHusk := (CmdOnly.ringMakeRoom n need fuel s k).queueHusk
theorem ringPut_keeps (s : State) (n : Nat) (ws : List Word) (e : Ent) : (ringPut s n ws e).1.queueHusk = s.queueHusk := (CmdOnly.ringPut s n ws e).queueHusk
theorem netDrain_keeps (s : State) (p fuel : Nat) : (netDrain s p fuel).queueHusk = s.queueHusk := (CmdOnly.netDrain p fuel s).queueHusk
theorem respond_keeps (r : Request) (x : Res) : (respond r x).queueHusk = x.st.queueHusk := (CmdOnly.respond r x).queueHusk
theorem keeps_iteO {c : Prop} [Decidable c] {a b : Option Res} {d : Res} {k : QueueHusk} (ha : (a.getD d).st.queueHusk = k) (hb : (b.getD d).st.queueHusk = k) :
    ((if c then a else b).getD d).st.queueHusk = k := by
  split <;> assumption
theorem keeps_some {x d : Res} {k : QueueHusk} (h : x.st.queueHusk = k) : ((some x).getD d).st.queueHusk = k := h
theorem keeps_none {d : Res} {k : QueueHusk} (h : d.st.queueHusk = k) : ((none : Option Res).getD d).st.queueHusk = k := h

/-- What an operation leaves alone keeps the invariant of the general output. -/
theorem genHeld_of_keeps {s t : State} (h : t.queueHusk = s.queueHusk) (hs : s.genHeld) : t.genHeld := by
  simp only [State.queueHusk, Prod.mk.injEq] at h
  obtain ⟨-, h1, h2, h3, h4⟩ := h
  simpa only [State.genHeld, h1, h2, h3, h4] using hs

/-- What an operation leaves alone includes the queue. -/
theorem pending_of_keeps {s t : State} (h : t.queueHusk = s.queueHusk) : t.pending = s.pending := congrArg Prod.fst h
theorem State.setFld_keeps (s : State) (f : RF) (v : Nat) : (State.setFld s f v).queueHusk = s.queueHusk := by
  unfold State.setFld
  with_reducible repeat' first | rfl | refine (setReg_keeps ..).trans ?_
theorem State.setFlag_keeps (s : State) (f : RF) (b : Bool) : (State.setFlag s f b).queueHusk = s.queueHusk := by
  unfold State.setFlag
  with_reducible repeat' first | rfl | refine (State.setFld_keeps ..).trans ?_
theorem State.setFrc_keeps (s : State) (a : Nat) (x : Word) : (State.setFrc s a x).queueHusk = s.queueHusk := by
  unfold State.setFrc
  with_reducible repeat' first | rfl | refine (withForce_keeps ..).trans ?_
theorem State.cntSat_keeps (s : State) (f : RF) : (State.cntSat s f).queueHusk = s.queueHusk := by
  unfold State.cntSat
  with_reducible repeat' first | rfl | refine (State.setFld_keeps ..).trans ?_
theorem State.cntWrap_keeps (s : State) (f : RF) : (State.cntWrap s f).queueHusk = s.queueHusk := by
  unfold State.cntWrap
  with_reducible repeat' first | rfl | refine (State.setFld_keeps ..).trans ?_
theorem State.setReg64_keeps (s : State) (a : Nat) (x : Tick) : (State.setReg64 s a x).queueHusk = s.queueHusk := by
  unfold State.setReg64
  with_reducible repeat' first | rfl | refine (setReg_keeps ..).trans ?_
theorem State.fresh_keeps (s : State) : (State.fresh s).2.queueHusk = s.queueHusk := by
  unfold State.fresh
  with_reducible repeat' first | rfl | refine (withFree_keeps ..).trans ?_
theorem State.at_keeps (s : State) (t : Tick) : (State.at s t).queueHusk = s.queueHusk := by
  unfold State.at
  with_reducible repeat' first | rfl | refine keeps_ite ?_ ?_ | refine (withDt_keeps ..).trans ?_
theorem State.raise_keeps (s : State) (ev inst : Nat) (detail : Word) : (State.raise s ev inst detail).queueHusk = s.queueHusk := by
  unfold State.raise
  with_reducible repeat' first | rfl | refine (withEvt_keeps ..).trans ?_ | extract_lets
theorem State.raiseAll_keeps (s : State) (l : List Occ) : (State.raiseAll s l).queueHusk = s.queueHusk := by
  unfold State.raiseAll
  with_reducible repeat' first | rfl | refine (withEvt_keeps ..).trans ?_ | extract_lets
theorem rateMark_keeps (s : State) (ev inst : Nat) : (rateMark s ev inst).queueHusk = s.queueHusk := by
  unfold rateMark
  with_reducible repeat' first | rfl | refine (withEvt_keeps ..).trans ?_ | extract_lets
theorem State.raiseLim_keeps (s : State) (ev inst : Nat) (detail : Word) (lim : Nat) : (State.raiseLim s ev inst detail lim).queueHusk = s.queueHusk := by
  unfold State.raiseLim
  with_reducible repeat' first | rfl | refine keeps_ite ?_ ?_ | refine (State.raise_keeps ..).trans ?_ | refine (rateMark_keeps ..).trans ?_
theorem ringMemPut_keeps (s : State) (w : Nat) (x : Word) : (ringMemPut s w x).queueHusk = s.queueHusk := by
  unfold ringMemPut
  with_reducible repeat' first | rfl | refine (withCmd_keeps ..).trans ?_ | extract_lets
theorem ringClear_keeps (s : State) (n : Nat) : (ringClear s n).queueHusk = s.queueHusk := by
  unfold ringClear
  with_reducible repeat' first | rfl | refine (State.setFld_keeps ..).trans ?_ | refine (ringSetEnts_keeps ..).trans ?_
theorem State.setNetPort_keeps (s : State) (p : Nat) (x : NetPort) : (State.setNetPort s p x).queueHusk = s.queueHusk := by
  unfold State.setNetPort
  with_reducible repeat' first | rfl | refine (withNet_keeps ..).trans ?_ | extract_lets
theorem State.setSwPort_keeps (s : State) (p : Nat) (x : SwPort) : (State.setSwPort s p x).queueHusk = s.queueHusk := by
  unfold State.setSwPort
  with_reducible repeat' first | rfl | refine (withSward_keeps ..).trans ?_ | extract_lets
theorem swQueue_keeps (s : State) (p : Nat) (q : SwQ) : (swQueue s p q).queueHusk = s.queueHusk := by
  unfold swQueue
  with_reducible repeat' first | rfl | refine (State.setSwPort_keeps ..).trans ?_ | extract_lets
theorem State.setPort_keeps (s : State) (p : Nat) (x : Port) : (State.setPort s p x).queueHusk = s.queueHusk := by
  unfold State.setPort
  with_reducible repeat' first | rfl | refine (withCmd_keeps ..).trans ?_ | extract_lets
theorem hrdyUpdate_keeps (s : State) (ready : Bool) : (hrdyUpdate s ready).queueHusk = s.queueHusk := by
  unfold hrdyUpdate
  with_reducible repeat' first | rfl | refine (State.setFlag_keeps ..).trans ?_
theorem refuse_keeps (s : State) (status : Nat) : (refuse s status).st.queueHusk = s.queueHusk := rfl
theorem discardRequest_keeps (s : State) (r : Request) : (discardRequest s r).queueHusk = s.queueHusk := by
  unfold discardRequest
  with_reducible repeat' first | rfl | refine (State.setPort_keeps ..).trans ?_
theorem serveReg_keeps (r : Request) (s : State) (form : Bool) (f : State → Res) (h : (f s).st.queueHusk = s.queueHusk) : (serveReg r s form f).queueHusk = s.queueHusk := by
  unfold serveReg
  repeat' first | with_reducible rfl | with_reducible refine keeps_ite ?_ ?_ | exact (respond_keeps r _).trans h | exact respond_keeps r _
theorem serveReed_keeps (r : Request) (s : State) (form : Bool) (f : State → Res) (h : (f s).st.queueHusk = s.queueHusk) : (serveReed r s form f).queueHusk = s.queueHusk := by
  unfold serveReed
  repeat' first | with_reducible rfl | with_reducible refine keeps_ite ?_ ?_ | exact (respond_keeps r _).trans h | exact respond_keeps r _ | exact (cmdError_keeps ..).trans (discardRequest_keeps ..)
theorem State.setCtx_keeps (s : State) (n : Nat) (c : Ctx) : (State.setCtx s n c).queueHusk = s.queueHusk := by
  unfold State.setCtx
  with_reducible repeat' first | rfl | refine (withLoop_keeps ..).trans ?_ | extract_lets
theorem State.setGrp_keeps (s : State) (g : Nat) (x : GrpS) : (State.setGrp s g x).queueHusk = s.queueHusk := by
  unfold State.setGrp
  with_reducible repeat' first | rfl | refine (withLoop_keeps ..).trans ?_ | extract_lets
theorem State.setCw_keeps (s : State) (slot w : Nat) (x : Word) : (State.setCw s slot w x).queueHusk = s.queueHusk := by
  unfold State.setCw
  with_reducible repeat' first | rfl | refine (setReg_keeps ..).trans ?_
theorem addPend_keeps (s : State) (g : Nat) (due : Option Word) (zero : Bool) (ch : Change) : (addPend s g due zero ch).queueHusk = s.queueHusk := by
  unfold addPend
  with_reducible repeat' first | rfl | refine (withLoop_keeps ..).trans ?_ | extract_lets
theorem orRefuse_keeps {s : State} {c : Option Nat} {x : Res} {k : QueueHusk} (hx : x.st.queueHusk = k) (hs : s.queueHusk = k) : (orRefuse s c x).st.queueHusk = k := by
  cases c <;> assumption
theorem evtRingPut_keeps (s : State) (n : Nat) (dt : Tick) (noclk : Bool) (rec4 : List Word) : (evtRingPut s n dt noclk rec4).queueHusk = s.queueHusk := by
  unfold evtRingPut
  with_reducible repeat' first | rfl | refine keeps_ite ?_ ?_ | refine (ringLose_keeps ..).trans ?_ | refine (ringMakeRoom_keeps ..).trans ?_ | refine (ringStore_keeps ..).trans ?_ | refine (withCmd_keeps ..).trans ?_ | extract_lets
theorem evtWrite_keeps (s : State) (ev : Nat) (dt : Tick) (rec4 : List Word) : (evtWrite s ev dt rec4).queueHusk = s.queueHusk := by
  unfold evtWrite
  with_reducible repeat' first | rfl | refine keeps_ite ?_ ?_ | refine keeps_foldl ?_ ?_ | intro _ _ | refine (State.cntWrap_keeps ..).trans ?_ | refine (evtRingPut_keeps ..).trans ?_ | extract_lets
theorem holdOpen_keeps (s : State) (ev : Nat) (t : Tick) (coal : Bool) : (holdOpen s ev t coal).queueHusk = s.queueHusk := by
  unfold holdOpen
  with_reducible repeat' first | rfl | refine keeps_ite ?_ ?_ | refine (withEvt_keeps ..).trans ?_ | extract_lets
theorem holdEnd_keeps (s : State) (ev : Nat) : (holdEnd s ev).queueHusk = s.queueHusk := by
  unfold holdEnd
  with_reducible repeat' first | rfl | refine (evtWrite_keeps ..).trans ?_ | refine (holdOpen_keeps ..).trans ?_ | refine (withEvt_keeps ..).trans ?_ | extract_lets | split
theorem irqUpdate_keeps (s : State) : (irqUpdate s).queueHusk = s.queueHusk := by
  unfold irqUpdate
  with_reducible repeat' first | rfl | refine keeps_ite ?_ ?_ | refine keeps_iteR ?_ ?_ | refine keeps_ite1 ?_ ?_ | refine keeps_ite2 ?_ ?_ | refine keeps_foldl ?_ ?_ | refine keeps_foldl1 ?_ ?_ | refine keeps_foldl2 ?_ ?_ | refine keeps_iteO ?_ ?_ | refine keeps_some ?_ | refine keeps_none ?_ | assumption | intro _ _ | intro _ | (guard_target =~ (_ : HuskS) = _; with_unfolding_all rfl) | refine (State.setFlag_keeps ..).trans ?_ | refine (State.setFld_keeps ..).trans ?_ | extract_lets | split | dsimp +zetaDelta only
theorem evtTake_keeps (s : State) (o : Occ) : (evtTake s o).queueHusk = s.queueHusk := by
  unfold evtTake
  with_reducible repeat' first | rfl | refine keeps_ite ?_ ?_ | refine keeps_iteR ?_ ?_ | refine keeps_ite1 ?_ ?_ | refine keeps_ite2 ?_ ?_ | refine keeps_foldl ?_ ?_ | refine keeps_foldl1 ?_ ?_ | refine keeps_foldl2 ?_ ?_ | refine keeps_iteO ?_ ?_ | refine keeps_some ?_ | refine keeps_none ?_ | assumption | intro _ _ | intro _ | (guard_target =~ (_ : HuskS) = _; with_unfolding_all rfl) | refine (State.cntSat_keeps ..).trans ?_ | refine (State.setFlag_keeps ..).trans ?_ | refine (evtWrite_keeps ..).trans ?_ | refine (holdEnd_keeps ..).trans ?_ | refine (holdOpen_keeps ..).trans ?_ | refine (withEvt_keeps ..).trans ?_ | extract_lets | split | dsimp +zetaDelta only
theorem dirSet_keeps (s : State) (slot : Nat) : (dirSet s slot).queueHusk = s.queueHusk := by
  unfold dirSet
  with_reducible repeat' first | rfl | refine keeps_ite ?_ ?_ | refine (setReg_keeps ..).trans ?_ | extract_lets
theorem loopRefresh_keeps (s : State) : (loopRefresh s).queueHusk = s.queueHusk := by
  unfold loopRefresh
  with_reducible repeat' first | rfl | refine keeps_foldl ?_ ?_ | intro _ _ | refine (State.setFld_keeps ..).trans ?_ | extract_lets
theorem setEnvelope_keeps (s : State) (mv tj : Nat) : (setEnvelope s mv tj).queueHusk = s.queueHusk := by
  unfold setEnvelope
  with_reducible repeat' first | rfl | refine (State.setFld_keeps ..).trans ?_ | extract_lets
theorem writeNow_keeps (s : State) (r : RegRow) (a : Nat) (w : Word) : (writeNow s r a w).queueHusk = s.queueHusk := by
  unfold writeNow
  with_reducible repeat' first | rfl | refine (setReg_keeps ..).trans ?_
theorem writeShadow_keeps (s : State) (a : Nat) (mask w : Word) (g : Nat) (zero : Bool) : (writeShadow s a mask w g zero).st.queueHusk = s.queueHusk := by
  unfold writeShadow
  with_reducible repeat' first | rfl | refine keeps_iteR ?_ ?_ | refine keeps_ite ?_ ?_ | refine (addPend_keeps ..).trans ?_ | refine (setReg_keeps ..).trans ?_ | extract_lets
theorem plainWrite_keeps (s : State) (a : Nat) (w : Word) (g : Nat) (zero : Bool) : (plainWrite s a w g zero).st.queueHusk = s.queueHusk := by
  unfold plainWrite
  with_reducible repeat' first | rfl | refine (refuse_keeps ..).trans ?_ | refine (writeNow_keeps ..).trans ?_ | refine (writeShadow_keeps ..).trans ?_ | extract_lets | split
theorem plainNow_keeps (s : State) (a : Nat) (w : Word) : (plainNow s a w).st.queueHusk = s.queueHusk := by
  unfold plainNow
  with_reducible repeat' first | rfl | refine (refuse_keeps ..).trans ?_ | refine (writeNow_keeps ..).trans ?_ | extract_lets | split
theorem checked_keeps {s : State} {b : Bool} {st : Nat} {x : Res} {k : QueueHusk} (hx : x.st.queueHusk = k) (hs : s.queueHusk = k) : (checked s b st x).st.queueHusk = k := by
  cases b <;> assumption
theorem regRowWrite_keeps {s : State} {a : Nat} {x : Res} {k : QueueHusk} (hx : x.st.queueHusk = k) (hs : s.queueHusk = k) : (regRowWrite s a x).queueHusk = k := by
  unfold regRowWrite
  exact keeps_ite hx hs
theorem Res.also_keeps {x : Res} {f : State → Res} (h : ∀ t, (f t).st.queueHusk = t.queueHusk) : (x.also f).st.queueHusk = x.st.queueHusk := h _
theorem State.setInkS_keeps (s : State) (q : Nat) (x : InkSess) : (State.setInkS s q x).queueHusk = s.queueHusk := by
  unfold State.setInkS
  with_reducible repeat' first | rfl | refine (withInk_keeps ..).trans ?_ | extract_lets
theorem inkSetState_keeps (s : State) (q st : Nat) : (inkSetState s q st).queueHusk = s.queueHusk := by
  unfold inkSetState
  with_reducible repeat' first | rfl | refine keeps_ite ?_ ?_ | refine (State.raise_keeps ..).trans ?_ | refine (State.setFld_keeps ..).trans ?_ | extract_lets
theorem inkPutRec_keeps (s : State) (q : Nat) (r : InkRec) : (inkPutRec s q r).queueHusk = s.queueHusk := by
  unfold inkPutRec
  with_reducible repeat' first | rfl | refine (State.setInkS_keeps ..).trans ?_ | extract_lets
theorem stagePeak_keeps (s : State) : (stagePeak s).queueHusk = s.queueHusk := (State.setFld_keeps ..).trans (withFree_keeps ..)
theorem freshWords_keeps (n : Nat) (s : State) : (freshWords n s).2.queueHusk = s.queueHusk := by
  induction n generalizing s with
  | zero => rfl
  | succ n ih => exact (ih _).trans (State.fresh_keeps s)
theorem spoilOut_keeps (ch : Nat) (gone : List Tick) (l : List (List Word)) (s : State) : (spoilOut ch gone l s).2.queueHusk = s.queueHusk := by
  induction l generalizing s with
  | nil => rfl
  | cons e es ih =>
    unfold spoilOut
    split
    · exact (ih _).trans (freshWords_keeps ..)
    · exact ih _
theorem inkOverwrite_keeps (s : State) (q n ch : Nat) (gone : List Tick) : (inkOverwrite s q n ch gone).queueHusk = s.queueHusk := by
  unfold inkOverwrite
  with_reducible repeat' first | rfl | refine keeps_ite ?_ ?_ | refine keeps_foldl ?_ ?_ | intro _ _ | refine (State.setFld_keeps ..).trans ?_ | refine (spoilOut_keeps ..).trans ?_ | refine (withInk_keeps ..).trans ?_ | extract_lets
theorem inkStep_keeps (s : State) (kind src period : Nat) (t : Tick) (f : List Byte → List Byte) : (inkStep s kind src period t f).queueHusk = s.queueHusk := by
  unfold inkStep
  with_reducible repeat' first | rfl | refine keeps_ite ?_ ?_ | refine (inkOverwrite_keeps ..).trans ?_ | refine (inkPutRec_keeps ..).trans ?_ | refine (stagePeak_keeps ..).trans ?_ | extract_lets | split
theorem inkGap_keeps (s : State) (detail : Nat) (p : Nat → Bool) : (inkGap s detail p).queueHusk = s.queueHusk := by
  unfold inkGap
  with_reducible repeat' first | rfl | refine keeps_ite ?_ ?_ | refine keeps_foldl ?_ ?_ | intro _ _ | refine (State.raise_keeps ..).trans ?_ | refine (State.setFld_keeps ..).trans ?_ | refine (inkPutRec_keeps ..).trans ?_ | extract_lets | split
theorem nibLog_keeps (s : State) (n code : Nat) (t : Tick) (eps : Word) : (nibLog s n code t eps).queueHusk = s.queueHusk := by
  unfold nibLog
  with_reducible repeat' first | rfl | refine keeps_ite ?_ ?_ | refine (State.cntSat_keeps ..).trans ?_ | refine (inkStep_keeps ..).trans ?_ | refine (withInk_keeps ..).trans ?_ | extract_lets | split
theorem inkFlag_keeps (s : State) (q : Nat) (r : InkRec) (f : Nat) : (inkFlag s q r f).queueHusk = s.queueHusk := by
  unfold inkFlag
  with_reducible repeat' first | rfl | refine (State.setFld_keeps ..).trans ?_ | refine (inkPutRec_keeps ..).trans ?_ | extract_lets
theorem inkTrigger_keeps (s : State) (q : Nat) (t : Tick) (forced : Bool) : (inkTrigger s q t forced).queueHusk = s.queueHusk := by
  unfold inkTrigger
  with_reducible repeat' first | rfl | refine keeps_ite ?_ ?_ | refine (State.raise_keeps ..).trans ?_ | refine (State.setReg64_keeps ..).trans ?_ | refine (inkFlag_keeps ..).trans ?_ | refine (inkSetState_keeps ..).trans ?_ | extract_lets | split
theorem inkMet_keeps (s : State) (q : Nat) (t : Tick) : (inkMet s q t).queueHusk = s.queueHusk := by
  unfold inkMet
  with_reducible repeat' first | rfl | refine keeps_ite ?_ ?_ | refine (State.cntSat_keeps ..).trans ?_ | refine (State.raiseLim_keeps ..).trans ?_ | refine (inkTrigger_keeps ..).trans ?_ | extract_lets
theorem inkValue1_keeps (s : State) (q : Nat) (t : Tick) (v : Rat) : (inkValue1 s q t v).queueHusk = s.queueHusk := by
  unfold inkValue1
  with_reducible repeat' first | rfl | refine keeps_ite ?_ ?_ | refine (State.setInkS_keeps ..).trans ?_ | refine (inkMet_keeps ..).trans ?_ | extract_lets | split
theorem inkValue_keeps (s : State) (skind src : Nat) (t : Tick) (w : Word) : (inkValue s skind src t w).queueHusk = s.queueHusk := by
  unfold inkValue
  with_reducible repeat' first | rfl | refine keeps_ite ?_ ?_ | refine keeps_foldl ?_ ?_ | intro _ _ | refine (inkValue1_keeps ..).trans ?_
theorem inkEvent_keeps (s : State) (ev : Nat) (detail : Word) (t : Tick) : (inkEvent s ev detail t).queueHusk = s.queueHusk := by
  unfold inkEvent
  with_reducible repeat' first | rfl | refine keeps_ite ?_ ?_ | refine keeps_foldl ?_ ?_ | intro _ _ | refine (inkMet_keeps ..).trans ?_ | extract_lets | split
theorem inkArmRec_keeps (s : State) (q n : Nat) (st : Nat) : (inkArmRec s q n st).queueHusk = s.queueHusk := by
  unfold inkArmRec
  with_reducible repeat' first | rfl | refine (State.setFld_keeps ..).trans ?_ | refine (State.setInkS_keeps ..).trans ?_ | refine (inkSetState_keeps ..).trans ?_ | extract_lets
theorem inkReadAbandon_keeps (s : State) (p : InkRead → Bool) : (inkReadAbandon s p).queueHusk = s.queueHusk := by
  unfold inkReadAbandon
  with_reducible repeat' first | rfl | refine keeps_foldl ?_ ?_ | intro _ _ | refine (State.raise_keeps ..).trans ?_ | refine (withInk_keeps ..).trans ?_ | extract_lets
theorem opInkArm_keeps (r : Request) (s : State) : (opInkArm r s).st.queueHusk = s.queueHusk := by
  unfold opInkArm
  with_reducible repeat' first | rfl | refine keeps_iteR ?_ ?_ | refine keeps_ite ?_ ?_ | refine keeps_foldl ?_ ?_ | intro _ _ | refine (State.setFld_keeps ..).trans ?_ | refine (State.setInkS_keeps ..).trans ?_ | refine (inkArmRec_keeps ..).trans ?_ | refine (inkReadAbandon_keeps ..).trans ?_ | refine (refuse_keeps ..).trans ?_ | extract_lets
theorem opInkForce_keeps (r : Request) (s : State) : (opInkForce r s).st.queueHusk = s.queueHusk := by
  unfold opInkForce
  with_reducible repeat' first | rfl | refine keeps_iteR ?_ ?_ | refine keeps_ite ?_ ?_ | refine (inkTrigger_keeps ..).trans ?_ | refine (refuse_keeps ..).trans ?_ | extract_lets | split
theorem inkRecEnd_keeps (s : State) (q : Nat) (partial_ : Bool) : (inkRecEnd s q partial_).queueHusk = s.queueHusk := by
  unfold inkRecEnd
  with_reducible repeat' first | rfl | refine keeps_ite ?_ ?_ | refine (State.raise_keeps ..).trans ?_ | refine (State.setFlag_keeps ..).trans ?_ | refine (inkFlag_keeps ..).trans ?_ | extract_lets | split
theorem opInkStop_keeps (r : Request) (s : State) : (opInkStop r s).st.queueHusk = s.queueHusk := by
  unfold opInkStop
  with_reducible repeat' first | rfl | refine keeps_iteR ?_ ?_ | refine keeps_ite ?_ ?_ | refine (inkRecEnd_keeps ..).trans ?_ | refine (inkSetState_keeps ..).trans ?_ | refine (refuse_keeps ..).trans ?_ | extract_lets | split
theorem inkRecordComplete_keeps (s : State) (q : Nat) : (inkRecordComplete s q).queueHusk = s.queueHusk := by
  unfold inkRecordComplete
  with_reducible repeat' first | rfl | refine keeps_ite ?_ ?_ | refine (inkArmRec_keeps ..).trans ?_ | refine (inkPutRec_keeps ..).trans ?_ | refine (inkRecEnd_keeps ..).trans ?_ | refine (inkSetState_keeps ..).trans ?_ | extract_lets | split
theorem inkAutoExpiry_keeps (s : State) (q : Nat) : (inkAutoExpiry s q).queueHusk = s.queueHusk := by
  unfold inkAutoExpiry
  with_reducible repeat' first | rfl | refine keeps_ite ?_ ?_ | refine (State.at_keeps ..).trans ?_ | refine (inkTrigger_keeps ..).trans ?_ | extract_lets
theorem inkFail_keeps (s : State) : (inkFail s).queueHusk = s.queueHusk := by
  unfold inkFail
  with_reducible repeat' first | rfl | refine keeps_ite ?_ ?_ | refine keeps_foldl ?_ ?_ | intro _ _ | refine (State.raise_keeps ..).trans ?_ | refine (State.setFlag_keeps ..).trans ?_ | refine (State.setFld_keeps ..).trans ?_ | refine (State.setInkS_keeps ..).trans ?_ | refine (inkReadAbandon_keeps ..).trans ?_ | refine (inkSetState_keeps ..).trans ?_ | extract_lets
theorem inkPump1_keeps (fuel : Nat) (s : State) (r : InkRead) : (inkPump1 fuel s r).1.queueHusk = s.queueHusk := by
  induction fuel generalizing s r with
  | zero => rfl
  | succ m ih =>
    unfold inkPump1
    repeat' first | with_reducible rfl | with_reducible refine keeps_ite1 ?_ ?_ | (with_reducible refine (ih _ _).trans ?_) | (with_reducible refine (ringStore_keeps ..).trans ?_) | (with_reducible refine (withInk_keeps ..).trans ?_) | (with_reducible refine (netTx_keeps ..).trans ?_) | extract_lets | split
theorem inkPump_keeps (s : State) : (inkPump s).queueHusk = s.queueHusk := by
  unfold inkPump
  with_reducible repeat' first | rfl | refine keeps_foldl ?_ ?_ | intro _ _ | refine (inkPump1_keeps ..).trans ?_ | refine (withInk_keeps ..).trans ?_ | extract_lets
theorem opInkRead_keeps (r : Request) (s : State) : (opInkRead r s).st.queueHusk = s.queueHusk := by
  unfold opInkRead
  with_reducible repeat' first | rfl | refine keeps_iteR ?_ ?_ | refine keeps_ite ?_ ?_ | refine (inkPump_keeps ..).trans ?_ | refine (refuse_keeps ..).trans ?_ | refine (withInk_keeps ..).trans ?_ | extract_lets | split
theorem inkRelease_keeps (s : State) (q n : Nat) : (inkRelease s q n).queueHusk = s.queueHusk := by
  unfold inkRelease
  with_reducible repeat' first | rfl | refine keeps_ite ?_ ?_ | refine (State.setFlag_keeps ..).trans ?_ | refine (State.setInkS_keeps ..).trans ?_ | refine (inkArmRec_keeps ..).trans ?_ | extract_lets
theorem inkEccErrors_keeps (s : State) (q single double : Nat) : (inkEccErrors s q single double).queueHusk = s.queueHusk := by
  unfold inkEccErrors
  with_reducible repeat' first | rfl | refine keeps_ite ?_ ?_ | refine (State.raiseLim_keeps ..).trans ?_ | refine (State.raise_keeps ..).trans ?_ | refine (State.setFld_keeps ..).trans ?_ | extract_lets
theorem inkReadDone_keeps (s : State) (q single double : Nat) : (inkReadDone s q single double).queueHusk = s.queueHusk := by
  unfold inkReadDone
  with_reducible repeat' first | rfl | refine keeps_ite ?_ ?_ | refine (State.raise_keeps ..).trans ?_ | refine (inkEccErrors_keeps ..).trans ?_ | refine (inkPump_keeps ..).trans ?_ | refine (inkRelease_keeps ..).trans ?_ | refine (withInk_keeps ..).trans ?_ | extract_lets | split
theorem inkCcfgWrite_keeps (s : State) (c : Nat) (w : Word) : (inkCcfgWrite s c w).st.queueHusk = s.queueHusk := by
  unfold inkCcfgWrite
  with_reducible repeat' first | rfl | refine keeps_iteR ?_ ?_ | refine keeps_ite ?_ ?_ | refine (plainNow_keeps ..).trans ?_ | refine (refuse_keeps ..).trans ?_ | extract_lets | split
theorem inkBlockWrite_keeps (s : State) (a : Nat) (w : Word) {d : Res} (hd : d.st.queueHusk = s.queueHusk) : ((inkBlockWrite s a w).getD d).st.queueHusk = s.queueHusk := by
  unfold inkBlockWrite
  with_reducible repeat' first | rfl | refine keeps_iteO ?_ ?_ | refine keeps_ite ?_ ?_ | refine keeps_iteR ?_ ?_ | refine keeps_some ?_ | refine keeps_none ?_ | assumption | refine (inkCcfgWrite_keeps ..).trans ?_ | refine (plainNow_keeps ..).trans ?_ | refine checked_keeps ?_ ?_ | extract_lets
theorem hostFrameEnd_keeps (s : State) (prev : Nat) (miso : List Word) : (hostFrameEnd s prev miso).queueHusk = s.queueHusk := by
  unfold hostFrameEnd
  with_reducible repeat' first | rfl | refine (withCmd_keeps ..).trans ?_ | extract_lets
theorem hostAbort_keeps (s : State) (miso : List Word) : (hostAbort s miso).queueHusk = s.queueHusk := by
  unfold hostAbort
  with_reducible repeat' first | rfl | refine (State.cntSat_keeps ..).trans ?_ | refine (State.raise_keeps ..).trans ?_ | refine (State.setFlag_keeps ..).trans ?_ | refine (hostFrameEnd_keeps ..).trans ?_
theorem unitArrive_keeps (s : State) (p : Nat) (o : Origin) (bytes : List Byte) : (unitArrive s p o bytes).1.queueHusk = s.queueHusk := by
  unfold unitArrive
  with_reducible repeat' first | rfl | refine keeps_ite1 ?_ ?_ | refine keeps_ite ?_ ?_ | refine (State.cntSat_keeps ..).trans ?_ | refine (ringPut_keeps ..).trans ?_
theorem hostCmdFrame_keeps (s : State) (hdr : Word) (body : List Word) (tailBits : Nat) : (hostCmdFrame s hdr body tailBits).queueHusk = s.queueHusk := by
  unfold hostCmdFrame
  with_reducible repeat' first | rfl | refine keeps_ite ?_ ?_ | refine (State.cntSat_keeps ..).trans ?_ | refine (State.raise_keeps ..).trans ?_ | refine (State.setFlag_keeps ..).trans ?_ | refine (hostAbort_keeps ..).trans ?_ | refine (hostFrameEnd_keeps ..).trans ?_ | refine (hrdyUpdate_keeps ..).trans ?_ | refine (ringLose_keeps ..).trans ?_ | refine (ringStore_keeps ..).trans ?_ | extract_lets
theorem hostStatusFrame_keeps (s : State) (hdr : Word) : (hostStatusFrame s hdr).queueHusk = s.queueHusk := by
  unfold hostStatusFrame
  with_reducible repeat' first | rfl | refine keeps_ite ?_ ?_ | refine (hostAbort_keeps ..).trans ?_ | refine (hostFrameEnd_keeps ..).trans ?_ | extract_lets
theorem hostFetchFrame_keeps (s : State) (hdr : Word) (clocked : Nat) (late : Option Nat) : (hostFetchFrame s hdr clocked late).queueHusk = s.queueHusk := by
  unfold hostFetchFrame
  with_reducible repeat' first | rfl | refine keeps_ite ?_ ?_ | refine (State.cntSat_keeps ..).trans ?_ | refine (State.raise_keeps ..).trans ?_ | refine (State.setFlag_keeps ..).trans ?_ | refine (hostFrameEnd_keeps ..).trans ?_ | refine (hostStatusFrame_keeps ..).trans ?_ | refine (ringDrop_keeps ..).trans ?_ | extract_lets | split
theorem carrierArrive_keeps (s : State) (p : Nat) (o : Origin) (bytes : List Byte) : (carrierArrive s p o bytes).queueHusk = s.queueHusk := by
  unfold carrierArrive
  with_reducible repeat' first | rfl | refine keeps_ite ?_ ?_ | refine (unitArrive_keeps ..).trans ?_
theorem repeatReply_keeps (s : State) (p : Nat) (o : Origin) (d : Done) : (repeatReply s p o d).queueHusk = s.queueHusk := by
  unfold repeatReply
  with_reducible repeat' first | rfl | refine keeps_ite ?_ ?_ | refine (State.cntSat_keeps ..).trans ?_ | refine (ringPut_keeps ..).trans ?_ | refine (udpCarry_keeps ..).trans ?_ | extract_lets
theorem dispatchOne_keeps (s : State) (p : Fin 8) : (dispatchOne s p).queueHusk = s.queueHusk := by
  unfold dispatchOne
  with_reducible repeat' first | rfl | refine keeps_ite ?_ ?_ | refine (State.setPort_keeps ..).trans ?_ | refine (hrdyUpdate_keeps ..).trans ?_ | refine (repeatReply_keeps ..).trans ?_ | refine (ringDrop_keeps ..).trans ?_ | refine (sendReply_keeps ..).trans ?_ | refine (withCmd_keeps ..).trans ?_ | extract_lets | split
theorem heldAnswer_keeps (s : State) (r : Request) (status stamp : Nat) (data : List Word) : (heldAnswer s r status stamp data).queueHusk = s.queueHusk := by
  unfold heldAnswer
  with_reducible repeat' first | rfl | refine (answer_keeps ..).trans ?_
theorem deferredSend_keeps (s0 : State) (p : Nat) : (deferredSend s0 p).queueHusk = s0.queueHusk := by
  unfold deferredSend
  with_reducible repeat' first | rfl | refine keeps_ite ?_ ?_ | refine (answer_keeps ..).trans ?_ | refine (heldAnswer_keeps ..).trans ?_ | refine (replyFlush_keeps ..).trans ?_ | refine (withCmd_keeps ..).trans ?_ | extract_lets | split
theorem ringDropN_keeps (s : State) (n k : Nat) : (ringDropN s n k).queueHusk = s.queueHusk := by
  induction k generalizing s with
  | zero => rfl
  | succ m ih => exact (ih _).trans (ringDrop_keeps s n)
theorem opRingPop_keeps (r : Request) (s : State) : (opRingPop r s).st.queueHusk = s.queueHusk := by
  unfold opRingPop
  with_reducible repeat' first | rfl | refine keeps_iteR ?_ ?_ | refine keeps_ite ?_ ?_ | refine (inkPump_keeps ..).trans ?_ | refine (refuse_keeps ..).trans ?_ | refine (ringDropN_keeps ..).trans ?_ | extract_lets | split
theorem opRingPush_keeps (r : Request) (s : State) : (opRingPush r s).st.queueHusk = s.queueHusk := by
  unfold opRingPush
  with_reducible repeat' first | rfl | refine keeps_iteR ?_ ?_ | refine keeps_ite ?_ ?_ | refine keeps_foldl ?_ ?_ | intro _ _ | refine (refuse_keeps ..).trans ?_ | refine (ringStore_keeps ..).trans ?_ | extract_lets | split
theorem ringLayoutWrite_keeps (s : State) (n : Nat) (wl wc : Option Word) : (ringLayoutWrite s n wl wc).st.queueHusk = s.queueHusk := by
  unfold ringLayoutWrite
  with_reducible repeat' first | rfl | refine keeps_iteR ?_ ?_ | refine keeps_ite ?_ ?_ | refine (State.setFlag_keeps ..).trans ?_ | refine (hrdyUpdate_keeps ..).trans ?_ | refine (refuse_keeps ..).trans ?_ | refine (ringClear_keeps ..).trans ?_ | refine (setReg_keeps ..).trans ?_ | extract_lets | split
theorem ringConfigWrite_keeps (s : State) (n : Nat) (ctrl : Bool) (w : Word) : (ringConfigWrite s n ctrl w).st.queueHusk = s.queueHusk := by
  unfold ringConfigWrite
  with_reducible repeat' first | rfl | refine keeps_iteR ?_ ?_ | refine keeps_ite ?_ ?_ | refine (ringLayoutWrite_keeps ..).trans ?_
theorem pspiXferWrite_keeps (s : State) (n : Nat) (w : Word) : (pspiXferWrite s n w).st.queueHusk = s.queueHusk := by
  unfold pspiXferWrite
  with_reducible repeat' first | rfl | refine keeps_iteR ?_ ?_ | refine keeps_ite ?_ ?_ | refine (refuse_keeps ..).trans ?_ | refine (setReg_keeps ..).trans ?_ | extract_lets
theorem pspiDone_keeps (s : State) (n : Nat) (rx : List Word) : (pspiDone s n rx).queueHusk = s.queueHusk := by
  unfold pspiDone
  with_reducible repeat' first | rfl | refine keeps_ite ?_ ?_ | refine keeps_foldl ?_ ?_ | intro _ _ | refine (State.raise_keeps ..).trans ?_ | refine (State.setFlag_keeps ..).trans ?_ | refine (setReg_keeps ..).trans ?_ | extract_lets
theorem irqcfgWrite_keeps (s : State) (w : Word) : (irqcfgWrite s w).st.queueHusk = s.queueHusk := by
  unfold irqcfgWrite
  with_reducible repeat' first | rfl | refine (setReg_keeps ..).trans ?_
theorem spiBlockWrite_keeps (s : State) (a : Nat) (w : Word) {d : Res} (hd : d.st.queueHusk = s.queueHusk) : ((spiBlockWrite s a w).getD d).st.queueHusk = s.queueHusk := by
  unfold spiBlockWrite
  with_reducible repeat' first | rfl | refine keeps_iteO ?_ ?_ | refine keeps_ite ?_ ?_ | refine keeps_iteR ?_ ?_ | refine keeps_some ?_ | refine keeps_none ?_ | assumption | refine (irqcfgWrite_keeps ..).trans ?_ | refine (pspiXferWrite_keeps ..).trans ?_ | refine (refuse_keeps ..).trans ?_ | refine (setReg_keeps ..).trans ?_ | extract_lets
theorem ringBlockWrite_keeps (s : State) (a : Nat) (w : Word) {d : Res} (hd : d.st.queueHusk = s.queueHusk) : ((ringBlockWrite s a w).getD d).st.queueHusk = s.queueHusk := by
  unfold ringBlockWrite
  with_reducible repeat' first | rfl | refine keeps_iteO ?_ ?_ | refine keeps_ite ?_ ?_ | refine keeps_iteR ?_ ?_ | refine keeps_some ?_ | refine keeps_none ?_ | assumption | refine (ringConfigWrite_keeps ..).trans ?_ | refine (setReg_keeps ..).trans ?_ | extract_lets

end

end Sys2Proof.Machine
end

