-- ==== Sys2Proof/Laws/FrameNib.lean ====
section
/-! SUPPORT. Frames of the operations over Nibs, sensing front end and feedback channels: they leave the queue of waiting commands alone, and Husk's power, state and
general output. One lemma an operation. -/

namespace Sys2Proof.Machine

open Sys2Proof

section

set_option linter.unusedTactic false
set_option linter.unreachableTactic false

theorem State.setNibS_keeps (s : State) (n : Nat) (x : NibS) : (State.setNibS s n x).queueHusk = s.queueHusk := by
  unfold State.setNibS
  with_reducible repeat' first | rfl | refine (withNib_keeps ..).trans ?_ | extract_lets
theorem State.setSetS_keeps (s : State) (k : Nat) (x : SetS) : (State.setSetS s k x).queueHusk = s.queueHusk := by
  unfold State.setSetS
  with_reducible repeat' first | rfl | refine (withNib_keeps ..).trans ?_ | extract_lets
theorem hizRefresh_keeps (s : State) (n : Nat) : (hizRefresh s n).queueHusk = s.queueHusk := by
  unfold hizRefresh
  with_reducible repeat' first | rfl | refine (State.setFlag_keeps ..).trans ?_
theorem hizAll_keeps (s : State) (l : List Nat) : (hizAll s l).queueHusk = s.queueHusk := by
  unfold hizAll
  with_reducible repeat' first | rfl | refine keeps_foldl ?_ ?_ | intro _ _ | refine (hizRefresh_keeps ..).trans ?_
theorem nibStop_keeps (s : State) (n : Nat) : (nibStop s n).queueHusk = s.queueHusk := by
  unfold nibStop
  with_reducible repeat' first | rfl | refine (State.setNibS_keeps ..).trans ?_ | refine (hizRefresh_keeps ..).trans ?_ | extract_lets
theorem nlatchedRefresh_keeps (s : State) (g : Nat) : (nlatchedRefresh s g).queueHusk = s.queueHusk := by
  unfold nlatchedRefresh
  with_reducible repeat' first | rfl | refine (State.setFld_keeps ..).trans ?_
theorem windSet_keeps (s : State) (slot st : Nat) : (windSet s slot st).queueHusk = s.queueHusk := by
  unfold windSet
  with_reducible repeat' first | rfl | refine keeps_ite ?_ ?_ | refine (State.raise_keeps ..).trans ?_ | refine (State.setCw_keeps ..).trans ?_ | extract_lets
theorem setRelease_keeps (s : State) (k : Nat) : (setRelease s k).queueHusk = s.queueHusk := by
  unfold setRelease
  with_reducible repeat' first | rfl | refine (State.setSetS_keeps ..).trans ?_ | refine (hizAll_keeps ..).trans ?_ | extract_lets
theorem windFault_keeps (s : State) (slot cause : Nat) : (windFault s slot cause).queueHusk = s.queueHusk := by
  unfold windFault
  with_reducible repeat' first | rfl | refine keeps_ite ?_ ?_ | refine (State.raise_keeps ..).trans ?_ | refine (State.setCw_keeps ..).trans ?_ | refine (setRelease_keeps ..).trans ?_ | refine (windSet_keeps ..).trans ?_ | extract_lets | split
theorem latchFault_keeps (s : State) (n src : Nat) : (latchFault s n src).queueHusk = s.queueHusk := by
  unfold latchFault
  with_reducible repeat' first | rfl | refine keeps_ite ?_ ?_ | refine (windFault_keeps ..).trans ?_ | extract_lets | split
theorem nibLatch_keeps (s : State) (n src : Nat) : (nibLatch s n src).queueHusk = s.queueHusk := by
  unfold nibLatch
  with_reducible repeat' first | rfl | refine keeps_ite ?_ ?_ | refine (State.cntSat_keeps ..).trans ?_ | refine (State.raise_keeps ..).trans ?_ | refine (State.setFlag_keeps ..).trans ?_ | refine (State.setFld_keeps ..).trans ?_ | refine (State.setNibS_keeps ..).trans ?_ | refine (hizRefresh_keeps ..).trans ?_ | refine (latchFault_keeps ..).trans ?_ | refine (nibLog_keeps ..).trans ?_ | refine (nlatchedRefresh_keeps ..).trans ?_ | refine (withNib_keeps ..).trans ?_ | extract_lets
theorem nibCut_keeps (s : State) (n : Nat) : (nibCut s n).queueHusk = s.queueHusk := by
  unfold nibCut
  with_reducible repeat' first | rfl | refine keeps_ite ?_ ?_ | refine (State.setNibS_keeps ..).trans ?_ | refine (nibLog_keeps ..).trans ?_ | extract_lets
theorem countCut_keeps (s : State) (g n : Nat) : (countCut s g n).queueHusk = s.queueHusk := by
  unfold countCut
  with_reducible repeat' first | rfl | refine (State.cntSat_keeps ..).trans ?_ | refine (State.raiseLim_keeps ..).trans ?_
theorem sourceAct_keeps (s : State) (l : List Nat) (code : Nat) : (sourceAct s l code).queueHusk = s.queueHusk := by
  unfold sourceAct
  with_reducible repeat' first | rfl | refine keeps_ite ?_ ?_ | refine keeps_foldl ?_ ?_ | intro _ _ | refine (countCut_keeps ..).trans ?_ | refine (nibCut_keeps ..).trans ?_ | refine (nibLatch_keeps ..).trans ?_ | extract_lets | split
theorem sourceHold_keeps (s : State) (n : Nat) : (sourceHold s n).queueHusk = s.queueHusk := by
  unfold sourceHold
  with_reducible repeat' first | rfl | refine keeps_ite ?_ ?_ | refine (nibCut_keeps ..).trans ?_ | refine (nibLatch_keeps ..).trans ?_ | extract_lets | split
theorem faultInput_keeps (s : State) (i : Nat) (low : Bool) : (faultInput s i low).queueHusk = s.queueHusk := by
  unfold faultInput
  with_reducible repeat' first | rfl | refine keeps_ite ?_ ?_ | refine (State.setFlag_keeps ..).trans ?_ | refine (sourceAct_keeps ..).trans ?_ | extract_lets
theorem huskEnable_keeps (s : State) (on : Bool) : (huskEnable s on).queueHusk = s.queueHusk := by
  unfold huskEnable
  with_reducible repeat' first | rfl | refine keeps_ite ?_ ?_ | refine (State.raise_keeps ..).trans ?_ | refine (State.setFlag_keeps ..).trans ?_ | refine (hizAll_keeps ..).trans ?_ | refine (sourceAct_keeps ..).trans ?_ | extract_lets
theorem clearLatches_keeps (s : State) (g : Nat) : (clearLatches s g).st.queueHusk = s.queueHusk := by
  unfold clearLatches
  with_reducible repeat' first | rfl | refine keeps_iteR ?_ ?_ | refine keeps_ite ?_ ?_ | refine keeps_foldl ?_ ?_ | intro _ _ | refine (State.raise_keeps ..).trans ?_ | refine (State.setFlag_keeps ..).trans ?_ | refine (State.setFld_keeps ..).trans ?_ | refine (State.setNibS_keeps ..).trans ?_ | refine (hizAll_keeps ..).trans ?_ | refine (nlatchedRefresh_keeps ..).trans ?_ | refine (refuse_keeps ..).trans ?_ | refine (setReg_keeps ..).trans ?_ | extract_lets
theorem logPlan_keeps (s : State) (n : Nat) (base : Tick) (on off : Nat) (rise fall : Bool) : (logPlan s n base on off rise fall).queueHusk = s.queueHusk := by
  unfold logPlan
  with_reducible repeat' first | rfl | refine keeps_ite ?_ ?_ | refine (nibLog_keeps ..).trans ?_ | extract_lets
theorem replan_keeps (s : State) (n : Nat) (rise : Bool) (x : Nat) : (replan s n rise x).queueHusk = s.queueHusk := by
  unfold replan
  with_reducible repeat' first | rfl | refine keeps_ite ?_ ?_ | refine (State.setNibS_keeps ..).trans ?_ | extract_lets | split
theorem echoCorrect_keeps (s : State) (n : Nat) (rise : Bool) (eps : Int) : (echoCorrect s n rise eps).queueHusk = s.queueHusk := by
  unfold echoCorrect
  with_reducible repeat' first | rfl | refine keeps_ite ?_ ?_ | refine (State.raiseLim_keeps ..).trans ?_ | refine (State.setFlag_keeps ..).trans ?_ | refine (setReg_keeps ..).trans ?_ | extract_lets
theorem echoEdge_keeps (s : State) (n : Nat) (rise : Bool) (t : Tick) : (echoEdge s n rise t).queueHusk = s.queueHusk := by
  unfold echoEdge
  with_reducible repeat' first | rfl | refine keeps_ite ?_ ?_ | refine (State.setNibS_keeps ..).trans ?_ | refine (echoCorrect_keeps ..).trans ?_ | refine (nibLog_keeps ..).trans ?_ | refine (replan_keeps ..).trans ?_ | extract_lets | split
theorem echoMiss_keeps (s : State) (n : Nat) (rise : Bool) : (echoMiss s n rise).queueHusk = s.queueHusk := by
  unfold echoMiss
  with_reducible repeat' first | rfl | refine keeps_ite ?_ ?_ | refine (State.cntSat_keeps ..).trans ?_ | refine (State.raise_keeps ..).trans ?_ | refine (State.setFlag_keeps ..).trans ?_ | refine (State.setNibS_keeps ..).trans ?_ | refine (sourceAct_keeps ..).trans ?_ | extract_lets
theorem echoEnd_keeps (s : State) (n : Nat) : (echoEnd s n).queueHusk = s.queueHusk := by
  unfold echoEnd
  with_reducible repeat' first | rfl | refine keeps_ite ?_ ?_ | refine (State.at_keeps ..).trans ?_ | refine (State.setNibS_keeps ..).trans ?_ | refine (echoMiss_keeps ..).trans ?_ | refine (nibLog_keeps ..).trans ?_ | extract_lets | split
theorem accClear_keeps (s : State) (n : Nat) : (accClear s n).queueHusk = s.queueHusk := by
  unfold accClear
  with_reducible repeat' first | rfl | refine keeps_ite ?_ ?_ | refine (State.setNibS_keeps ..).trans ?_ | refine (setReg_keeps ..).trans ?_ | extract_lets
theorem nibResume_keeps (s : State) (n : Nat) : (nibResume s n).queueHusk = s.queueHusk := by
  unfold nibResume
  with_reducible repeat' first | rfl | refine keeps_ite ?_ ?_ | refine (State.setNibS_keeps ..).trans ?_ | refine (hizRefresh_keeps ..).trans ?_ | extract_lets
theorem nibEnter_keeps (s : State) (n : Nat) : (nibEnter s n).queueHusk = s.queueHusk := by
  unfold nibEnter
  with_reducible repeat' first | rfl | refine keeps_ite ?_ ?_ | refine (accClear_keeps ..).trans ?_ | refine (nibResume_keeps ..).trans ?_ | extract_lets
theorem pulseDecide_keeps (s : State) (g n : Nat) : (pulseDecide s g n).queueHusk = s.queueHusk := by
  unfold pulseDecide
  with_reducible repeat' first | rfl | refine keeps_ite ?_ ?_ | refine (State.cntSat_keeps ..).trans ?_ | refine (State.raiseLim_keeps ..).trans ?_ | refine (State.setFlag_keeps ..).trans ?_ | refine (State.setNibS_keeps ..).trans ?_ | refine (hizRefresh_keeps ..).trans ?_ | refine (setReg_keeps ..).trans ?_ | extract_lets
theorem nibZero_keeps (s0 : State) (g n : Nat) : (nibZero s0 g n).queueHusk = s0.queueHusk := by
  unfold nibZero
  with_reducible repeat' first | rfl | refine keeps_ite ?_ ?_ | refine (logPlan_keeps ..).trans ?_ | refine (nibEnter_keeps ..).trans ?_ | refine (nibStop_keeps ..).trans ?_ | refine (pulseDecide_keeps ..).trans ?_ | refine (sourceHold_keeps ..).trans ?_ | extract_lets
theorem nibPeak_keeps (s : State) (g n : Nat) : (nibPeak s g n).queueHusk = s.queueHusk := by
  unfold nibPeak
  with_reducible repeat' first | rfl | refine keeps_ite ?_ ?_ | refine (State.fresh_keeps ..).trans ?_ | refine (State.setNibS_keeps ..).trans ?_ | refine (logPlan_keeps ..).trans ?_ | refine (setReg_keeps ..).trans ?_ | extract_lets | split
theorem chopStart_keeps (s : State) (n : Nat) (t : Tick) : (chopStart s n t).queueHusk = s.queueHusk := by
  unfold chopStart
  with_reducible repeat' first | rfl | refine keeps_ite ?_ ?_ | refine (State.setNibS_keeps ..).trans ?_ | refine (hizRefresh_keeps ..).trans ?_ | refine (logPlan_keeps ..).trans ?_ | refine (sourceHold_keeps ..).trans ?_ | extract_lets | split
theorem chopBoundary_keeps (s0 : State) (n : Nat) (t : Tick) : (chopBoundary s0 n t).queueHusk = s0.queueHusk := by
  unfold chopBoundary
  with_reducible repeat' first | rfl | refine keeps_ite ?_ ?_ | refine (chopStart_keeps ..).trans ?_ | refine (nibEnter_keeps ..).trans ?_ | refine (nibStop_keeps ..).trans ?_ | extract_lets
theorem chopNext_keeps (s : State) (n : Nat) : (chopNext s n).queueHusk = s.queueHusk := by
  unfold chopNext
  with_reducible repeat' first | rfl | refine keeps_ite ?_ ?_ | refine (State.at_keeps ..).trans ?_ | refine (chopStart_keeps ..).trans ?_ | refine (nibStop_keeps ..).trans ?_ | extract_lets | split
theorem setReload_keeps (s : State) (g k : Nat) : (setReload s g k).queueHusk = s.queueHusk := by
  unfold setReload
  with_reducible repeat' first | rfl | refine keeps_ite ?_ ?_ | refine keeps_foldl ?_ ?_ | intro _ _ | refine (State.cntSat_keeps ..).trans ?_ | refine (State.setSetS_keeps ..).trans ?_ | refine (hizAll_keeps ..).trans ?_ | refine (setReg_keeps ..).trans ?_ | extract_lets
theorem setCommit_keeps (s : State) (k : Nat) (seq : Word) (edges : List (Nat × (Nat × Nat))) (host : Bool) : (setCommit s k seq edges host).queueHusk = s.queueHusk := by
  unfold setCommit
  with_reducible repeat' first | rfl | refine keeps_ite ?_ ?_ | refine (State.cntSat_keeps ..).trans ?_ | refine (State.raise_keeps ..).trans ?_ | refine (State.setSetS_keeps ..).trans ?_ | refine (setReg_keeps ..).trans ?_ | extract_lets
theorem edgeCommit_keeps (s : State) (k : Nat) (seq : Word) : (edgeCommit s k seq).st.queueHusk = s.queueHusk := by
  unfold edgeCommit
  with_reducible repeat' first | rfl | refine keeps_iteR ?_ ?_ | refine keeps_ite ?_ ?_ | refine (refuse_keeps ..).trans ?_ | refine (setCommit_keeps ..).trans ?_ | extract_lets | split
theorem opGroupState_keeps (r : Request) (s : State) : (opGroupState r s).st.queueHusk = s.queueHusk := by
  unfold opGroupState
  with_reducible repeat' first | rfl | refine keeps_iteR ?_ ?_ | refine keeps_ite ?_ ?_ | refine (State.setFlag_keeps ..).trans ?_ | refine (State.setFld_keeps ..).trans ?_ | refine (addPend_keeps ..).trans ?_ | refine (refuse_keeps ..).trans ?_ | extract_lets
theorem enterHold_keeps (s : State) (n : Nat) : (enterHold s n).queueHusk = s.queueHusk := by
  unfold enterHold
  with_reducible repeat' first | rfl | refine keeps_ite ?_ ?_ | refine (nibLatch_keeps ..).trans ?_ | refine (sourceHold_keeps ..).trans ?_
theorem groupStateApply_keeps (s : State) (g st : Nat) : (groupStateApply s g st).queueHusk = s.queueHusk := by
  unfold groupStateApply
  with_reducible repeat' first | rfl | refine keeps_ite ?_ ?_ | refine keeps_foldl ?_ ?_ | intro _ _ | refine (State.raise_keeps ..).trans ?_ | refine (State.setFlag_keeps ..).trans ?_ | refine (State.setFld_keeps ..).trans ?_ | refine (State.setNibS_keeps ..).trans ?_ | refine (enterHold_keeps ..).trans ?_ | refine (hizAll_keeps ..).trans ?_ | refine (setReg_keeps ..).trans ?_ | extract_lets | split
theorem carrierStart_keeps (s : State) (g : Nat) : (carrierStart s g).queueHusk = s.queueHusk := by
  unfold carrierStart
  with_reducible repeat' first | rfl | refine keeps_ite ?_ ?_ | refine (State.setGrp_keeps ..).trans ?_ | extract_lets
theorem gperWrite_keeps (s : State) (g : Nat) (w : Word) : (gperWrite s g w).st.queueHusk = s.queueHusk := by
  unfold gperWrite
  with_reducible repeat' first | rfl | refine keeps_iteR ?_ ?_ | refine keeps_ite ?_ ?_ | refine (addPend_keeps ..).trans ?_ | refine (carrierStart_keeps ..).trans ?_ | refine (loopRefresh_keeps ..).trans ?_ | refine (refuse_keeps ..).trans ?_ | refine (setReg_keeps ..).trans ?_ | extract_lets
theorem dropAdj_keeps (s : State) (g : Nat) : (dropAdj s g).queueHusk = s.queueHusk := by
  unfold dropAdj
  with_reducible repeat' first | rfl | refine (withLoop_keeps ..).trans ?_ | extract_lets | split
theorem gadjWrite_keeps (s : State) (g : Nat) (w : Word) : (gadjWrite s g w).st.queueHusk = s.queueHusk := by
  unfold gadjWrite
  with_reducible repeat' first | rfl | refine keeps_iteR ?_ ?_ | refine keeps_ite ?_ ?_ | refine (addPend_keeps ..).trans ?_ | refine (dropAdj_keeps ..).trans ?_ | refine (refuse_keeps ..).trans ?_ | refine (setReg_keeps ..).trans ?_ | extract_lets
theorem syncIn_keeps (s : State) (t : Tick) : (syncIn s t).queueHusk = s.queueHusk := by
  unfold syncIn
  with_reducible repeat' first | rfl | refine keeps_ite ?_ ?_ | refine (State.raise_keeps ..).trans ?_ | refine (State.setFlag_keeps ..).trans ?_ | refine (State.setGrp_keeps ..).trans ?_ | refine (withNib_keeps ..).trans ?_ | extract_lets
theorem syncLoss_keeps (s : State) : (syncLoss s).queueHusk = s.queueHusk := by
  unfold syncLoss
  with_reducible repeat' first | rfl | refine keeps_ite ?_ ?_ | refine (State.raise_keeps ..).trans ?_ | refine (State.setFlag_keeps ..).trans ?_ | refine (State.setGrp_keeps ..).trans ?_ | refine (withNib_keeps ..).trans ?_ | extract_lets
theorem syncZero_keeps (s : State) (g : Nat) : (syncZero s g).queueHusk = s.queueHusk := by
  unfold syncZero
  with_reducible repeat' first | rfl | refine keeps_ite ?_ ?_ | refine (withNib_keeps ..).trans ?_ | extract_lets
theorem syncOut_keeps (s : State) (g : Nat) : (syncOut s g).queueHusk = s.queueHusk := by
  unfold syncOut
  with_reducible repeat' first | rfl | refine keeps_ite ?_ ?_ | refine (withNib_keeps ..).trans ?_ | extract_lets
theorem nibBoundary_keeps (s : State) (g : Nat) (zero : Bool) : (nibBoundary s g zero).queueHusk = s.queueHusk := by
  unfold nibBoundary
  with_reducible repeat' first | rfl | refine keeps_ite ?_ ?_ | refine keeps_foldl ?_ ?_ | intro _ _ | refine (chopBoundary_keeps ..).trans ?_ | refine (nibPeak_keeps ..).trans ?_ | refine (nibZero_keeps ..).trans ?_ | refine (setReload_keeps ..).trans ?_ | refine (syncOut_keeps ..).trans ?_ | refine (syncZero_keeps ..).trans ?_ | extract_lets
theorem setInfo_keeps (s : State) (k : Nat) : (setInfo s k).queueHusk = s.queueHusk := by
  unfold setInfo
  with_reducible repeat' first | rfl | refine (State.setFld_keeps ..).trans ?_ | extract_lets | split
theorem nibCfgWrite_keeps (s : State) (n : Nat) (w : Word) : (nibCfgWrite s n w).st.queueHusk = s.queueHusk := by
  unfold nibCfgWrite
  with_reducible repeat' first | rfl | refine keeps_iteR ?_ ?_ | refine keeps_ite ?_ ?_ | refine keeps_foldl ?_ ?_ | intro _ _ | intro _ | refine (Res.also_keeps ?_).trans ?_ | refine (State.setNibS_keeps ..).trans ?_ | refine (hizRefresh_keeps ..).trans ?_ | refine (nlatchedRefresh_keeps ..).trans ?_ | refine (refuse_keeps ..).trans ?_ | refine (setInfo_keeps ..).trans ?_ | refine (setReg_keeps ..).trans ?_ | refine (writeShadow_keeps ..).trans ?_ | extract_lets
theorem nibRegWrite_keeps (s : State) (n o : Nat) (w : Word) {d : Res} (hd : d.st.queueHusk = s.queueHusk) : ((nibRegWrite s n o w).getD d).st.queueHusk = s.queueHusk := by
  unfold nibRegWrite
  with_reducible repeat' first | rfl | refine keeps_some ?_ | refine keeps_none ?_ | assumption | refine (nibCfgWrite_keeps ..).trans ?_ | refine (plainNow_keeps ..).trans ?_ | refine (plainWrite_keeps ..).trans ?_ | refine checked_keeps ?_ ?_ | extract_lets | split
theorem fltCfgWrite_keeps (s : State) (i a : Nat) (w : Word) : (fltCfgWrite s i a w).st.queueHusk = s.queueHusk := by
  unfold fltCfgWrite
  with_reducible repeat' first | rfl | refine keeps_iteR ?_ ?_ | refine keeps_ite ?_ ?_ | refine (State.setFlag_keeps ..).trans ?_ | refine (faultInput_keeps ..).trans ?_ | refine (plainNow_keeps ..).trans ?_ | extract_lets
theorem nibBlockWrite_keeps (s : State) (a : Nat) (w : Word) {d : Res} (hd : d.st.queueHusk = s.queueHusk) : ((nibBlockWrite s a w).getD d).st.queueHusk = s.queueHusk := by
  unfold nibBlockWrite
  with_reducible repeat' first | rfl | refine keeps_iteO ?_ ?_ | refine keeps_ite ?_ ?_ | refine keeps_iteR ?_ ?_ | refine keeps_some ?_ | refine keeps_none ?_ | assumption | refine (clearLatches_keeps ..).trans ?_ | refine (edgeCommit_keeps ..).trans ?_ | refine (fltCfgWrite_keeps ..).trans ?_ | refine (gadjWrite_keeps ..).trans ?_ | refine (gperWrite_keeps ..).trans ?_ | refine (plainNow_keeps ..).trans ?_ | refine (refuse_keeps ..).trans ?_ | refine (setReg_keeps ..).trans ?_ | refine checked_keeps ?_ ?_ | refine nibRegWrite_keeps _ _ _ _ ?_ | extract_lets | split
theorem State.setChS_keeps (s : State) (c : Nat) (x : ChanS) : (State.setChS s c x).queueHusk = s.queueHusk := by
  unfold State.setChS
  with_reducible repeat' first | rfl | refine (withSense_keeps ..).trans ?_ | extract_lets
theorem rawSteps_keeps (s : State) (c : Nat) (e : Tick) (tm : Nat) (bits : List Bool) : (rawSteps s c e tm bits).queueHusk = s.queueHusk := by
  unfold rawSteps
  with_reducible repeat' first | rfl | refine keeps_foldl ?_ ?_ | intro _ _ | refine (inkStep_keeps ..).trans ?_
theorem sincOutput_keeps (s00 : State) (c : Nat) (bits : List Bool) (e : Tick) : (sincOutput s00 c bits e).queueHusk = s00.queueHusk := by
  unfold sincOutput
  with_reducible repeat' first | rfl | refine keeps_ite ?_ ?_ | refine (State.at_keeps ..).trans ?_ | refine (State.setChS_keeps ..).trans ?_ | refine (State.setFlag_keeps ..).trans ?_ | refine (inkStep_keeps ..).trans ?_ | refine (inkValue_keeps ..).trans ?_ | refine (rawSteps_keeps ..).trans ?_ | extract_lets
theorem senseRebind_keeps (s : State) (c : Nat) : (senseRebind s c).queueHusk = s.queueHusk := by
  unfold senseRebind
  with_reducible repeat' first | rfl | refine keeps_ite ?_ ?_ | refine (State.setChS_keeps ..).trans ?_ | refine (State.setFlag_keeps ..).trans ?_ | refine (State.setFld_keeps ..).trans ?_ | refine (setReg_keeps ..).trans ?_ | extract_lets
theorem senseClose_keeps (s : State) (g : Nat) (t : Tick) : (senseClose s g t).queueHusk = s.queueHusk := by
  unfold senseClose
  with_reducible repeat' first | rfl | refine keeps_ite ?_ ?_ | refine keeps_foldl ?_ ?_ | intro _ _ | refine (withSense_keeps ..).trans ?_ | extract_lets
theorem senseOpen_keeps (s : State) (g : Nat) (t : Tick) : (senseOpen s g t).queueHusk = s.queueHusk := by
  unfold senseOpen
  with_reducible repeat' first | rfl | refine keeps_ite ?_ ?_ | refine keeps_foldl ?_ ?_ | intro _ _ | refine (State.setChS_keeps ..).trans ?_ | extract_lets
theorem senseDrop_keeps (s : State) : (senseDrop s).queueHusk = s.queueHusk := by
  unfold senseDrop
  with_reducible repeat' first | rfl | refine keeps_foldl ?_ ?_ | intro _ _ | refine (State.setChS_keeps ..).trans ?_ | refine (withSense_keeps ..).trans ?_ | extract_lets
theorem pointPost_keeps (s : State) (c : Nat) (t : Tick) : (pointPost s c t).queueHusk = s.queueHusk := by
  unfold pointPost
  with_reducible repeat' first | rfl | refine keeps_ite ?_ ?_ | refine (State.setChS_keeps ..).trans ?_ | refine (setReg_keeps ..).trans ?_ | extract_lets | split
theorem releaseCheck_keeps (s : State) (g : Nat) (t : Tick) : (releaseCheck s g t).queueHusk = s.queueHusk := by
  unfold releaseCheck
  with_reducible repeat' first | rfl | refine keeps_ite ?_ ?_ | refine (State.setGrp_keeps ..).trans ?_ | extract_lets
theorem senseGate_keeps (s : State) : (senseGate s).queueHusk = s.queueHusk := by
  unfold senseGate
  with_reducible repeat' first | rfl | refine keeps_foldl ?_ ?_ | intro _ _ | refine (releaseCheck_keeps ..).trans ?_ | refine (senseDrop_keeps ..).trans ?_ | extract_lets
theorem sensePostRes_keeps (s : State) (c : Nat) (bits : List (Tick × Bool)) (t : Tick) : (sensePostRes s c bits t).queueHusk = s.queueHusk := by
  unfold sensePostRes
  with_reducible repeat' first | rfl | refine keeps_ite ?_ ?_ | refine (State.at_keeps ..).trans ?_ | refine (State.raiseLim_keeps ..).trans ?_ | refine (State.setFlag_keeps ..).trans ?_ | refine (pointPost_keeps ..).trans ?_ | refine (releaseCheck_keeps ..).trans ?_ | refine (setReg_keeps ..).trans ?_ | refine (withSense_keeps ..).trans ?_ | extract_lets | split
theorem ocBits_keeps (s : State) (c : Nat) (bits : List Bool) : (ocBits s c bits).queueHusk = s.queueHusk := by
  unfold ocBits
  with_reducible repeat' first | rfl | refine keeps_ite ?_ ?_ | refine (State.cntSat_keeps ..).trans ?_ | refine (State.raiseLim_keeps ..).trans ?_ | refine (State.setChS_keeps ..).trans ?_ | refine (State.setFlag_keeps ..).trans ?_ | refine (sourceAct_keeps ..).trans ?_ | extract_lets | split
theorem lostPosts_keeps (s : State) (c : Nat) : (lostPosts s c).queueHusk = s.queueHusk := by
  unfold lostPosts
  with_reducible repeat' first | rfl | refine keeps_ite ?_ ?_ | refine (withSense_keeps ..).trans ?_ | extract_lets
theorem lostBits_keeps (s : State) (c : Nat) (bits : List Bool) : (lostBits s c bits).queueHusk = s.queueHusk := by
  unfold lostBits
  with_reducible repeat' first | rfl | refine keeps_ite ?_ ?_ | refine (State.cntSat_keeps ..).trans ?_ | refine (State.raise_keeps ..).trans ?_ | refine (State.setChS_keeps ..).trans ?_ | refine (State.setFlag_keeps ..).trans ?_ | refine (lostPosts_keeps ..).trans ?_ | refine (sourceAct_keeps ..).trans ?_ | refine (withSense_keeps ..).trans ?_ | extract_lets | split
theorem lostBefore_keeps (s : State) (c : Nat) : (lostBefore s c).queueHusk = s.queueHusk := by
  unfold lostBefore
  with_reducible repeat' first | rfl | refine (State.setChS_keeps ..).trans ?_ | extract_lets | split
theorem lostEnd_keeps (s : State) (c : Nat) : (lostEnd s c).queueHusk = s.queueHusk := by
  unfold lostEnd
  with_reducible repeat' first | rfl | refine keeps_ite ?_ ?_ | refine (State.raise_keeps ..).trans ?_ | refine (State.setFlag_keeps ..).trans ?_ | refine (lostBefore_keeps ..).trans ?_
theorem calWrite_keeps (s : State) (w : Word) : (calWrite s w).st.queueHusk = s.queueHusk := by
  unfold calWrite
  with_reducible repeat' first | rfl | refine keeps_iteR ?_ ?_ | refine keeps_ite ?_ ?_ | refine (State.setFlag_keeps ..).trans ?_ | refine (plainNow_keeps ..).trans ?_ | refine (refuse_keeps ..).trans ?_ | refine (withSense_keeps ..).trans ?_ | extract_lets
theorem scanDone_keeps (s : State) (ch : Nat) (rt : Option (Nat × Nat)) : (scanDone s ch rt).1.queueHusk = s.queueHusk := by
  unfold scanDone
  with_reducible repeat' first | rfl | refine (State.setFld_keeps ..).trans ?_ | extract_lets | split
theorem calDone_keeps (s : State) (rt : Option (Nat × Nat)) (sum : Int) : (calDone s rt sum).queueHusk = s.queueHusk := by
  unfold calDone
  with_reducible repeat' first | rfl | refine keeps_ite ?_ ?_ | refine (State.raise_keeps ..).trans ?_ | refine (State.setFlag_keeps ..).trans ?_ | refine (scanDone_keeps ..).trans ?_ | refine (setReg_keeps ..).trans ?_ | refine (withSense_keeps ..).trans ?_ | extract_lets | split
theorem calSwapChan_keeps (s : State) (c : Nat) : (calSwapChan s c).queueHusk = s.queueHusk := by
  unfold calSwapChan
  with_reducible repeat' first | rfl | refine keeps_ite ?_ ?_ | refine (inkGap_keeps ..).trans ?_ | refine (setReg_keeps ..).trans ?_ | extract_lets
theorem calCopy_keeps (s : State) : (calCopy s).queueHusk = s.queueHusk := by
  unfold calCopy
  with_reducible repeat' first | rfl | refine keeps_foldl ?_ ?_ | intro _ _ | refine (setReg_keeps ..).trans ?_
theorem mclkStart_keeps (s : State) (n : Nat) (was now : Bool) : (mclkStart s n was now).queueHusk = s.queueHusk := by
  unfold mclkStart
  with_reducible repeat' first | rfl | refine keeps_ite ?_ ?_ | refine (withSense_keeps ..).trans ?_ | extract_lets
theorem mclkWrite_keeps (s : State) (n : Nat) (w : Word) : (mclkWrite s n w).st.queueHusk = s.queueHusk := by
  unfold mclkWrite
  with_reducible repeat' first | rfl | refine keeps_iteR ?_ ?_ | refine keeps_ite ?_ ?_ | refine (mclkStart_keeps ..).trans ?_ | refine (plainNow_keeps ..).trans ?_ | refine (refuse_keeps ..).trans ?_ | extract_lets
theorem senseCfgWrite_keeps (s : State) (c : Nat) (w : Word) : (senseCfgWrite s c w).st.queueHusk = s.queueHusk := by
  unfold senseCfgWrite
  with_reducible repeat' first | rfl | refine keeps_iteR ?_ ?_ | refine keeps_ite ?_ ?_ | refine (State.setChS_keeps ..).trans ?_ | refine (State.setFlag_keeps ..).trans ?_ | refine (plainNow_keeps ..).trans ?_ | refine (refuse_keeps ..).trans ?_ | extract_lets
theorem ocApply_keeps (s : State) (c : Nat) (w : Word) : (ocApply s c w).queueHusk = s.queueHusk := by
  unfold ocApply
  with_reducible repeat' first | rfl | refine keeps_ite ?_ ?_ | refine (State.setChS_keeps ..).trans ?_ | refine (State.setFrc_keeps ..).trans ?_ | extract_lets
theorem senseOcWrite_keeps (s : State) (c : Nat) (w : Word) : (senseOcWrite s c w).st.queueHusk = s.queueHusk := by
  unfold senseOcWrite
  with_reducible repeat' first | rfl | refine keeps_iteR ?_ ?_ | refine keeps_ite ?_ ?_ | refine (ocApply_keeps ..).trans ?_ | refine (plainWrite_keeps ..).trans ?_ | refine (refuse_keeps ..).trans ?_ | refine (setReg_keeps ..).trans ?_ | extract_lets
theorem senseBlockWrite_keeps (s : State) (a : Nat) (w : Word) {d : Res} (hd : d.st.queueHusk = s.queueHusk) : ((senseBlockWrite s a w).getD d).st.queueHusk = s.queueHusk := by
  unfold senseBlockWrite
  refine keeps_iteO (keeps_some (mclkWrite_keeps ..)) (keeps_iteO (keeps_some (calWrite_keeps ..)) (keeps_iteO ?_ (keeps_iteO ?_ hd)))
  · extract_lets c
    generalize (a - 0x0A0100) % 0x20 = m
    split
    · exact keeps_some (senseCfgWrite_keeps ..)
    · exact keeps_some (senseOcWrite_keeps ..)
    · exact keeps_some (checked_keeps (plainNow_keeps ..) rfl)
    · exact hd
  · extract_lets bad
    exact keeps_some (keeps_iteR rfl (keeps_iteR rfl (plainNow_keeps ..)))
theorem State.setFb_keeps (s : State) (n : Nat) (x : FbS) : (State.setFb s n x).queueHusk = s.queueHusk := by
  unfold State.setFb
  with_reducible repeat' first | rfl | refine (withFdbk_keeps ..).trans ?_ | extract_lets
theorem State.setLu_keeps (s : State) (u : Nat) (x : LatchU) : (State.setLu s u x).queueHusk = s.queueHusk := by
  unfold State.setLu
  with_reducible repeat' first | rfl | refine (withFdbk_keeps ..).trans ?_ | extract_lets
theorem fbSet_keeps (s : State) (n st : Nat) : (fbSet s n st).queueHusk = s.queueHusk := by
  unfold fbSet
  with_reducible repeat' first | rfl | refine keeps_ite ?_ ?_ | refine (State.cntSat_keeps ..).trans ?_ | refine (State.raise_keeps ..).trans ?_ | refine (State.setFlag_keeps ..).trans ?_ | refine (State.setFld_keeps ..).trans ?_ | extract_lets
theorem fbInvalid_keeps (s : State) (n : Nat) : (fbInvalid s n).queueHusk = s.queueHusk := by
  unfold fbInvalid
  with_reducible repeat' first | rfl | refine keeps_ite ?_ ?_ | refine (fbSet_keeps ..).trans ?_
theorem fbSettle_keeps (s : State) (n : Nat) : (fbSettle s n).queueHusk = s.queueHusk := by
  unfold fbSettle
  with_reducible repeat' first | rfl | refine (State.setFb_keeps ..).trans ?_ | refine (fbSet_keeps ..).trans ?_ | extract_lets
theorem histPush_keeps (s : State) (src : Nat) (t pos : Tick) (valid : Bool) : (histPush s src t pos valid).queueHusk = s.queueHusk := by
  unfold histPush
  with_reducible repeat' first | rfl | refine (withFdbk_keeps ..).trans ?_ | extract_lets
theorem fbPostPos_keeps (s : State) (n : Nat) (t pos : Tick) (p : Option Rat) (v : Rat) (is : SampleIs) : (fbPostPos s n t pos p v is).queueHusk = s.queueHusk := by
  unfold fbPostPos
  with_reducible repeat' first | rfl | refine keeps_ite ?_ ?_ | refine (State.setFb_keeps ..).trans ?_ | refine (State.setReg64_keeps ..).trans ?_ | refine (fbInvalid_keeps ..).trans ?_ | refine (fbSet_keeps ..).trans ?_ | refine (histPush_keeps ..).trans ?_ | refine (setReg_keeps ..).trans ?_ | extract_lets
theorem fbPost_keeps (s : State) (n : Nat) (t : Tick) (p v g : Rat) (bad : Bool) : (fbPost s n t p v g bad).queueHusk = s.queueHusk := by
  unfold fbPost
  with_reducible repeat' first | rfl | refine keeps_ite ?_ ?_ | refine (fbPostPos_keeps ..).trans ?_
theorem fbInc_keeps (s : State) (n : Nat) (t : Tick) : (fbInc s n t).queueHusk = s.queueHusk := by
  unfold fbInc
  with_reducible repeat' first | rfl | refine keeps_ite ?_ ?_ | refine (State.setFb_keeps ..).trans ?_ | refine (fbPost_keeps ..).trans ?_ | extract_lets
theorem fbSsiErr_keeps (s : State) (n : Nat) (t : Tick) (ts : Nat) (code : Nat) : (fbSsiErr s n t ts code).queueHusk = s.queueHusk := by
  unfold fbSsiErr
  with_reducible repeat' first | rfl | refine keeps_ite ?_ ?_ | refine (State.cntSat_keeps ..).trans ?_ | refine (State.raiseLim_keeps ..).trans ?_ | refine (State.setFb_keeps ..).trans ?_ | refine (State.setFlag_keeps ..).trans ?_ | refine (fbPostPos_keeps ..).trans ?_ | extract_lets
theorem fbSsi_keeps (s : State) (n : Nat) (t : Tick) (ts : Nat) : (fbSsi s n t ts).queueHusk = s.queueHusk := by
  unfold fbSsi
  with_reducible repeat' first | rfl | refine keeps_ite ?_ ?_ | refine (State.setFb_keeps ..).trans ?_ | refine (fbPost_keeps ..).trans ?_ | refine (fbSsiErr_keeps ..).trans ?_ | extract_lets | split
theorem signalTell_keeps (s : State) (n code : Nat) : (signalTell s n code).queueHusk = s.queueHusk := by
  unfold signalTell
  with_reducible repeat' first | rfl | refine keeps_ite ?_ ?_ | refine (State.raise_keeps ..).trans ?_ | refine (State.setFlag_keeps ..).trans ?_ | extract_lets
theorem fbResolver_keeps (s : State) (n : Nat) (t0 t1 : Tick) (si co : Rat × Rat) : (fbResolver s n t0 t1 si co).queueHusk = s.queueHusk := by
  unfold fbResolver
  with_reducible repeat' first | rfl | refine (State.setFb_keeps ..).trans ?_ | refine (State.setFld_keeps ..).trans ?_ | refine (fbPost_keeps ..).trans ?_ | refine (signalTell_keeps ..).trans ?_ | extract_lets | split
theorem fbSinCos_keeps (s : State) (n : Nat) (t0 t1 : Tick) : (fbSinCos s n t0 t1).queueHusk = s.queueHusk := by
  unfold fbSinCos
  with_reducible repeat' first | rfl | refine keeps_ite ?_ ?_ | refine (State.cntSat_keeps ..).trans ?_ | refine (State.raise_keeps ..).trans ?_ | refine (State.setFb_keeps ..).trans ?_ | refine (State.setFlag_keeps ..).trans ?_ | refine (State.setFld_keeps ..).trans ?_ | refine (fbPost_keeps ..).trans ?_ | refine (signalTell_keeps ..).trans ?_ | extract_lets | split
theorem fbSense_keeps (s : State) (p : SensePost) (bits : List (Tick × Bool)) : (fbSense s p bits).queueHusk = s.queueHusk := by
  unfold fbSense
  with_reducible repeat' first | rfl | refine keeps_ite ?_ ?_ | refine (State.setFb_keeps ..).trans ?_ | refine (fbResolver_keeps ..).trans ?_ | refine (fbSinCos_keeps ..).trans ?_ | extract_lets | split
theorem senseResultPost_keeps (s : State) (c : Nat) (bits : List (Tick × Bool)) (t : Tick) : (senseResultPost s c bits t).queueHusk = s.queueHusk := by
  unfold senseResultPost
  with_reducible repeat' first | rfl | refine (fbSense_keeps ..).trans ?_ | refine (sensePostRes_keeps ..).trans ?_ | extract_lets | split
theorem fdbkBoundary_keeps (s : State) (g : Nat) (t : Tick) (ts : Nat) : (fdbkBoundary s g t ts).queueHusk = s.queueHusk := by
  unfold fdbkBoundary
  with_reducible repeat' first | rfl | refine keeps_ite ?_ ?_ | refine keeps_foldl ?_ ?_ | intro _ _ | refine (State.setFb_keeps ..).trans ?_ | refine (fbInc_keeps ..).trans ?_ | refine (fbSsi_keeps ..).trans ?_ | extract_lets | split
theorem encEdge_keeps (s : State) (n : Nat) (a b : Bool) (t : Tick) : (encEdge s n a b t).queueHusk = s.queueHusk := by
  unfold encEdge
  with_reducible repeat' first | rfl | refine keeps_ite ?_ ?_ | refine (State.cntSat_keeps ..).trans ?_ | refine (State.raiseLim_keeps ..).trans ?_ | refine (State.setFb_keeps ..).trans ?_ | refine (State.setFlag_keeps ..).trans ?_ | refine (fbInvalid_keeps ..).trans ?_ | extract_lets
theorem withSafe_keeps4 (s : State) (x : SafeS) (h1 : x.husk.on = s.safe.husk.on) (h2 : x.husk.st = s.safe.husk.st) (h3 : x.husk.prev = s.safe.husk.prev)
    (h4 : x.husk.gen = s.safe.husk.gen) : (s.withSafe x).queueHusk = s.queueHusk := by simp [State.queueHusk, h1, h2, h3, h4]
theorem huskEdge_keeps (s : State) (n : Nat) (a b : Bool) : (huskEdge s n a b).queueHusk = s.queueHusk := by
  unfold huskEdge
  exact keeps_ite rfl (withSafe_keeps4 _ _ rfl rfl rfl rfl)
theorem zEdge_keeps (s : State) (n : Nat) (t : Tick) : (zEdge s n t).queueHusk = s.queueHusk := by
  unfold zEdge
  with_reducible repeat' first | rfl | refine keeps_ite ?_ ?_ | refine (State.raise_keeps ..).trans ?_ | refine (State.setFb_keeps ..).trans ?_ | refine (State.setFlag_keeps ..).trans ?_ | refine (setReg_keeps ..).trans ?_ | extract_lets
theorem ssiTransfer_keeps (s : State) (n : Nat) (idle : Bool) (line : List (Tick × Bool)) : (ssiTransfer s n idle line).queueHusk = s.queueHusk := by
  unfold ssiTransfer
  with_reducible repeat' first | rfl | refine keeps_ite ?_ ?_ | refine keeps_foldl ?_ ?_ | intro _ _ | refine (State.setFb_keeps ..).trans ?_ | extract_lets | split
theorem fbCfgWrite_keeps (s : State) (n : Nat) (w : Word) : (fbCfgWrite s n w).st.queueHusk = s.queueHusk := by
  unfold fbCfgWrite
  with_reducible repeat' first | rfl | refine keeps_iteR ?_ ?_ | refine keeps_ite ?_ ?_ | refine (State.setFb_keeps ..).trans ?_ | refine (fbSet_keeps ..).trans ?_ | refine (fbSettle_keeps ..).trans ?_ | refine (plainNow_keeps ..).trans ?_ | refine (refuse_keeps ..).trans ?_ | refine (senseRebind_keeps ..).trans ?_ | extract_lets
theorem fbClr_keeps (s : State) (n : Nat) : (fbClr s n).st.queueHusk = s.queueHusk := by
  unfold fbClr
  with_reducible repeat' first | rfl | refine keeps_iteR ?_ ?_ | refine keeps_ite ?_ ?_ | refine (fbSettle_keeps ..).trans ?_ | refine (refuse_keeps ..).trans ?_
theorem fbZarm_keeps (s : State) (n : Nat) : (fbZarm s n).queueHusk = s.queueHusk := by
  unfold fbZarm
  with_reducible repeat' first | rfl | refine keeps_ite ?_ ?_ | refine (State.setFb_keeps ..).trans ?_ | extract_lets
theorem fbCtrlWrite_keeps (s : State) (n : Nat) (w : Word) : (fbCtrlWrite s n w).st.queueHusk = s.queueHusk := by
  unfold fbCtrlWrite
  with_reducible repeat' first | rfl | refine keeps_iteR ?_ ?_ | refine keeps_ite ?_ ?_ | refine (fbClr_keeps ..).trans ?_ | refine (fbZarm_keeps ..).trans ?_ | extract_lets
theorem excWrite_keeps (s : State) (e : Nat) (w : Word) : (excWrite s e w).st.queueHusk = s.queueHusk := by
  unfold excWrite
  with_reducible repeat' first | rfl | refine keeps_iteR ?_ ?_ | refine keeps_ite ?_ ?_ | refine (plainNow_keeps ..).trans ?_ | refine (refuse_keeps ..).trans ?_ | refine (withFdbk_keeps ..).trans ?_ | extract_lets
theorem latchCapture_keeps (s : State) (u : Nat) (t : Tick) : (latchCapture s u t).queueHusk = s.queueHusk := by
  unfold latchCapture
  with_reducible repeat' first | rfl | refine keeps_ite ?_ ?_ | refine (State.raise_keeps ..).trans ?_ | refine (State.setFlag_keeps ..).trans ?_ | refine (State.setLu_keeps ..).trans ?_ | extract_lets
theorem latchInstant_keeps (s : State) (u : Nat) (sel : Bool) (t : Tick) : (latchInstant s u sel t).queueHusk = s.queueHusk := by
  unfold latchInstant
  with_reducible repeat' first | rfl | refine keeps_ite ?_ ?_ | refine (State.cntSat_keeps ..).trans ?_ | refine (State.raiseLim_keeps ..).trans ?_ | refine (latchCapture_keeps ..).trans ?_ | extract_lets | split
theorem latchEdge_keeps (s : State) (u : Nat) (rising : Bool) (ts : Tick) : (latchEdge s u rising ts).queueHusk = s.queueHusk := by
  unfold latchEdge
  with_reducible repeat' first | rfl | refine (latchInstant_keeps ..).trans ?_
theorem latchFrom_keeps (s : State) (k i : Nat) (rising : Bool) (ts : Tick) : (latchFrom s k i rising ts).queueHusk = s.queueHusk := by
  unfold latchFrom
  with_reducible repeat' first | rfl | refine keeps_foldl ?_ ?_ | intro _ _ | refine (latchEdge_keeps ..).trans ?_
theorem latchPin_keeps (s : State) (pin : Nat) (rising : Bool) (ts : Tick) (w : Nat) : (latchPin s pin rising ts w).queueHusk = s.queueHusk := by
  unfold latchPin
  with_reducible repeat' first | rfl | refine keeps_foldl ?_ ?_ | intro _ _ | refine (latchEdge_keeps ..).trans ?_
theorem latchTime_keeps (s : State) (u : Nat) : (latchTime s u).queueHusk = s.queueHusk := by
  unfold latchTime
  with_reducible repeat' first | rfl | refine keeps_ite ?_ ?_ | refine (State.at_keeps ..).trans ?_ | refine (latchCapture_keeps ..).trans ?_ | extract_lets
theorem latchEnd_keeps (s : State) (u : Nat) : (latchEnd s u).queueHusk = s.queueHusk := by
  unfold latchEnd
  with_reducible repeat' first | rfl | refine keeps_ite ?_ ?_ | refine (State.at_keeps ..).trans ?_ | refine (State.raise_keeps ..).trans ?_ | refine (State.setFlag_keeps ..).trans ?_
theorem latchComplete_keeps (s : State) (u : Nat) : (latchComplete s u).queueHusk = s.queueHusk := by
  unfold latchComplete
  with_reducible repeat' first | rfl | refine keeps_ite ?_ ?_ | refine keeps_iteR ?_ ?_ | refine keeps_ite1 ?_ ?_ | refine keeps_ite2 ?_ ?_ | refine keeps_foldl ?_ ?_ | refine keeps_foldl1 ?_ ?_ | refine keeps_foldl2 ?_ ?_ | refine keeps_iteO ?_ ?_ | refine keeps_some ?_ | refine keeps_none ?_ | assumption | intro _ _ | intro _ | (guard_target =~ (_ : HuskS) = _; with_unfolding_all rfl) | refine (State.cntWrap_keeps ..).trans ?_ | refine (State.raiseLim_keeps ..).trans ?_ | refine (State.raise_keeps ..).trans ?_ | refine (State.setFlag_keeps ..).trans ?_ | refine (State.setFld_keeps ..).trans ?_ | refine (State.setLu_keeps ..).trans ?_ | refine (State.setReg64_keeps ..).trans ?_ | extract_lets | split | dsimp only
theorem latchCtrlWrite_keeps (s : State) (u : Nat) (w : Word) : (latchCtrlWrite s u w).st.queueHusk = s.queueHusk := by
  unfold latchCtrlWrite
  with_reducible repeat' first | rfl | refine keeps_iteR ?_ ?_ | refine keeps_ite ?_ ?_ | refine (State.setFlag_keeps ..).trans ?_ | refine (refuse_keeps ..).trans ?_ | extract_lets
theorem latchRegWrite_keeps (s : State) (u o : Nat) (w : Word) {d : Res} (hd : d.st.queueHusk = s.queueHusk) : ((latchRegWrite s u o w).getD d).st.queueHusk = s.queueHusk := by
  unfold latchRegWrite
  with_reducible repeat' first | rfl | refine keeps_iteO ?_ ?_ | refine keeps_ite ?_ ?_ | refine keeps_iteR ?_ ?_ | refine keeps_some ?_ | refine keeps_none ?_ | assumption | refine (latchCtrlWrite_keeps ..).trans ?_ | refine (plainNow_keeps ..).trans ?_ | refine (refuse_keeps ..).trans ?_ | extract_lets
theorem fdbkBlockWrite_keeps (s : State) (a : Nat) (w : Word) {d : Res} (hd : d.st.queueHusk = s.queueHusk) : ((fdbkBlockWrite s a w).getD d).st.queueHusk = s.queueHusk := by
  unfold fdbkBlockWrite
  refine keeps_iteO (latchRegWrite_keeps _ _ _ _ hd) (keeps_iteO (keeps_some (excWrite_keeps ..)) ?_)
  extract_lets n v
  generalize a % 0x40 = m
  split
  · exact keeps_some (fbCfgWrite_keeps ..)
  · exact keeps_some (keeps_iteR rfl (keeps_iteR rfl (plainNow_keeps ..)))
  · exact keeps_some (checked_keeps (writeShadow_keeps ..) rfl)
  · exact keeps_some (keeps_iteR rfl (keeps_iteR rfl (plainNow_keeps ..)))
  · exact keeps_some (checked_keeps (plainNow_keeps ..) rfl)
  · exact keeps_some (writeShadow_keeps ..)
  · exact keeps_some (writeShadow_keeps ..)
  · exact keeps_some (fbCtrlWrite_keeps ..)
  · exact hd
theorem fdbkGate_keeps (s : State) (on : Bool) : (fdbkGate s on).queueHusk = s.queueHusk := by
  unfold fdbkGate
  with_reducible repeat' first | rfl | refine keeps_ite ?_ ?_ | refine keeps_foldl ?_ ?_ | intro _ _ | refine (fbSet_keeps ..).trans ?_ | refine (fbSettle_keeps ..).trans ?_

end

end Sys2Proof.Machine
end

