-- ==== Sys2Proof/Laws/FrameAxis.lean ====
section
/-! SUPPORT. Frames of the operations over stored tables, windings, axes, gears, strokes and filters: they leave the queue of waiting commands alone, and Husk's power, state and
general output. One lemma an operation. -/

namespace Sys2Proof.Machine

open Sys2Proof

section

set_option linter.unusedTactic false
set_option linter.unreachableTactic false

theorem setMapW_keeps (s : State) (m i : Nat) (x : Word) : (setMapW s m i x).queueHusk = s.queueHusk := by
  unfold setMapW
  with_reducible repeat' first | rfl | refine (withStore_keeps ..).trans ?_ | extract_lets
theorem setMapHalf_keeps (s : State) (m copy n h : Nat) : (setMapHalf s m copy n h).queueHusk = s.queueHusk := by
  unfold setMapHalf
  with_reducible repeat' first | rfl | refine (setMapW_keeps ..).trans ?_
theorem mapMove_keeps (s : State) (m n : Nat) (delta step span : Rat) : (mapMove s m n delta step span).1.queueHusk = s.queueHusk := by
  unfold mapMove
  with_reducible repeat' first | rfl | refine keeps_ite1 ?_ ?_ | refine keeps_ite ?_ ?_ | refine (setMapHalf_keeps ..).trans ?_ | extract_lets
theorem mapSwapWords_keeps (s : State) (m : Nat) (a b n : Nat) : (mapSwapWords s m a b n).queueHusk = s.queueHusk := by
  unfold mapSwapWords
  with_reducible repeat' first | rfl | refine keeps_foldl ?_ ?_ | intro _ _ | refine (setMapW_keeps ..).trans ?_
theorem mapSwap_keeps (s : State) (m : Nat) : (mapSwap s m).queueHusk = s.queueHusk := by
  unfold mapSwap
  with_reducible repeat' first | rfl | refine keeps_foldl ?_ ?_ | intro _ _ | refine (State.setFlag_keeps ..).trans ?_ | refine (State.setFld_keeps ..).trans ?_ | refine (mapSwapWords_keeps ..).trans ?_ | refine (setMapW_keeps ..).trans ?_ | extract_lets
theorem storeUsers_keeps (s : State) : (storeUsers s).queueHusk = s.queueHusk := by
  unfold storeUsers
  with_reducible repeat' first | rfl | refine keeps_foldl ?_ ?_ | intro _ _ | refine (State.setFld_keeps ..).trans ?_ | extract_lets
theorem mtpaRebuild_keeps (s : State) (m : Nat) : (mtpaRebuild s m).queueHusk = s.queueHusk := by
  unfold mtpaRebuild
  with_reducible repeat' first | rfl | refine keeps_ite ?_ ?_ | refine keeps_foldl ?_ ?_ | intro _ _ | refine (setMapW_keeps ..).trans ?_ | extract_lets | split
theorem mtpaApply_keeps (s : State) (m : Nat) : (mtpaApply s m).queueHusk = s.queueHusk := by
  unfold mtpaApply
  with_reducible repeat' first | rfl | refine keeps_ite ?_ ?_ | refine (mtpaRebuild_keeps ..).trans ?_ | refine (setMapW_keeps ..).trans ?_ | extract_lets
theorem mtpaRequest_keeps (s : State) (m : Nat) : (mtpaRequest s m).queueHusk = s.queueHusk := by
  unfold mtpaRequest
  with_reducible repeat' first | rfl | refine keeps_foldl ?_ ?_ | intro _ _ | refine (addPend_keeps ..).trans ?_ | refine (mtpaRebuild_keeps ..).trans ?_ | extract_lets | split
theorem mapWindowWrite_keeps (s : State) (a : Nat) (w : Word) : (mapWindowWrite s a w).st.queueHusk = s.queueHusk := by
  unfold mapWindowWrite
  with_reducible repeat' first | rfl | refine keeps_iteR ?_ ?_ | refine keeps_ite ?_ ?_ | refine (refuse_keeps ..).trans ?_ | refine (setMapW_keeps ..).trans ?_ | extract_lets
theorem setCamW_keeps (s : State) (c i : Nat) (x : Word) : (setCamW s c i x).queueHusk = s.queueHusk := by
  unfold setCamW
  with_reducible repeat' first | rfl | refine (withStore_keeps ..).trans ?_ | extract_lets
theorem camBegin_keeps (s : State) (c : Nat) (r : Request) : (camBegin s c r).st.queueHusk = s.queueHusk := by
  unfold camBegin
  with_reducible repeat' first | rfl | refine keeps_iteR ?_ ?_ | refine keeps_ite ?_ ?_ | refine keeps_foldl ?_ ?_ | intro _ _ | refine (State.setFlag_keeps ..).trans ?_ | refine (State.setFld_keeps ..).trans ?_ | refine (refuse_keeps ..).trans ?_ | refine (setCamW_keeps ..).trans ?_ | refine (setReg_keeps ..).trans ?_ | extract_lets
theorem opCamLoadBegin_keeps (r : Request) (s : State) : (opCamLoadBegin r s).st.queueHusk = s.queueHusk := by
  unfold opCamLoadBegin
  with_reducible repeat' first | rfl | refine keeps_iteR ?_ ?_ | refine keeps_ite ?_ ?_ | refine (camBegin_keeps ..).trans ?_ | refine (refuse_keeps ..).trans ?_
theorem opCamLoadData_keeps (r : Request) (s : State) : (opCamLoadData r s).st.queueHusk = s.queueHusk := by
  unfold opCamLoadData
  with_reducible repeat' first | rfl | refine keeps_iteR ?_ ?_ | refine keeps_ite ?_ ?_ | refine keeps_foldl ?_ ?_ | intro _ _ | refine (State.setFld_keeps ..).trans ?_ | refine (refuse_keeps ..).trans ?_ | refine (setCamW_keeps ..).trans ?_ | extract_lets
theorem opCamLoadEnd_keeps (r : Request) (s : State) : (opCamLoadEnd r s).st.queueHusk = s.queueHusk := by
  unfold opCamLoadEnd
  with_reducible repeat' first | rfl | refine keeps_iteR ?_ ?_ | refine keeps_ite ?_ ?_ | refine (State.setFlag_keeps ..).trans ?_ | refine (refuse_keeps ..).trans ?_ | extract_lets
theorem camLoad_keeps (r : Request) (s : State) : (camLoad r s).st.queueHusk = s.queueHusk := by
  unfold camLoad
  with_reducible repeat' first | rfl | refine keeps_iteR ?_ ?_ | refine keeps_ite ?_ ?_ | refine (opCamLoadBegin_keeps ..).trans ?_ | refine (opCamLoadData_keeps ..).trans ?_ | refine (opCamLoadEnd_keeps ..).trans ?_ | refine (refuse_keeps ..).trans ?_ | extract_lets | split
theorem camAbandon_keeps (s : State) : (camAbandon s).queueHusk = s.queueHusk := by
  unfold camAbandon
  with_reducible repeat' first | rfl | refine (State.setFlag_keeps ..).trans ?_ | refine (setReg_keeps ..).trans ?_ | extract_lets | split
theorem State.setSt_keeps (s : State) (slot : Nat) (x : CtxState) : (State.setSt s slot x).queueHusk = s.queueHusk := by
  unfold State.setSt
  with_reducible repeat' first | rfl | refine (State.setCtx_keeps ..).trans ?_ | extract_lets
theorem passView_keeps (s : State) (r : Run) : (passView s r).queueHusk = s.queueHusk := by
  unfold passView
  with_reducible repeat' first | rfl | refine (State.setCtx_keeps ..).trans ?_ | refine (State.setCw_keeps ..).trans ?_
theorem passRow_keeps (s : State) (slot : Nat) (kinds : List Nat) (f : State → Nat → Run → PassOut) : (passRow s slot kinds f).queueHusk = s.queueHusk := by
  unfold passRow
  with_reducible repeat' first | rfl | refine keeps_ite ?_ ?_ | refine (passView_keeps ..).trans ?_ | refine (withLoop_keeps ..).trans ?_ | extract_lets
theorem opWindingEnable_keeps (r : Request) (s : State) : (opWindingEnable r s).st.queueHusk = s.queueHusk := by
  unfold opWindingEnable
  with_reducible repeat' first | rfl | refine keeps_iteR ?_ ?_ | refine keeps_ite ?_ ?_ | refine (addPend_keeps ..).trans ?_ | refine (refuse_keeps ..).trans ?_ | refine orRefuse_keeps ?_ ?_ | extract_lets
theorem opWindingDisable_keeps (r : Request) (s : State) : (opWindingDisable r s).st.queueHusk = s.queueHusk := by
  unfold opWindingDisable
  with_reducible repeat' first | rfl | refine keeps_iteR ?_ ?_ | refine keeps_ite ?_ ?_ | refine (addPend_keeps ..).trans ?_ | refine (refuse_keeps ..).trans ?_ | refine orRefuse_keeps ?_ ?_ | extract_lets
theorem identEnd_keeps (s : State) (slot res : Nat) : (identEnd s slot res).queueHusk = s.queueHusk := by
  unfold identEnd
  with_reducible repeat' first | rfl | refine (State.raise_keeps ..).trans ?_ | refine (State.setSt_keeps ..).trans ?_ | extract_lets
theorem windRelease_keeps (s : State) (slot : Nat) : (windRelease s slot).queueHusk = s.queueHusk := by
  unfold windRelease
  with_reducible repeat' first | rfl | refine (State.setSt_keeps ..).trans ?_ | refine (setRelease_keeps ..).trans ?_ | refine (windSet_keeps ..).trans ?_ | extract_lets | split
theorem windEnableApply_keeps (s : State) (slot : Nat) : (windEnableApply s slot).queueHusk = s.queueHusk := by
  unfold windEnableApply
  with_reducible repeat' first | rfl | refine keeps_ite ?_ ?_ | refine keeps_foldl ?_ ?_ | intro _ _ | refine (State.setSt_keeps ..).trans ?_ | refine (nibResume_keeps ..).trans ?_ | refine (windSet_keeps ..).trans ?_ | extract_lets | split
theorem windDisableApply_keeps (s : State) (slot mode : Nat) : (windDisableApply s slot mode).queueHusk = s.queueHusk := by
  unfold windDisableApply
  with_reducible repeat' first | rfl | refine keeps_ite ?_ ?_ | refine (State.setSt_keeps ..).trans ?_ | refine (windRelease_keeps ..).trans ?_ | refine (windSet_keeps ..).trans ?_ | extract_lets
theorem windFrames_keeps (s : State) (g : Nat) : (windFrames s g).queueHusk = s.queueHusk := by
  unfold windFrames
  with_reducible repeat' first | rfl | refine keeps_ite ?_ ?_ | refine keeps_foldl ?_ ?_ | intro _ _ | refine (State.setSt_keeps ..).trans ?_ | extract_lets
theorem prechargeEnd_keeps (s : State) (slot : Nat) : (prechargeEnd s slot).queueHusk = s.queueHusk := by
  unfold prechargeEnd
  with_reducible repeat' first | rfl | refine keeps_ite ?_ ?_ | refine (State.setSt_keeps ..).trans ?_ | refine (windSet_keeps ..).trans ?_
theorem rampEnd_keeps (s : State) (slot : Nat) : (rampEnd s slot).queueHusk = s.queueHusk := by
  unfold rampEnd
  with_reducible repeat' first | rfl | refine keeps_ite ?_ ?_ | refine (windRelease_keeps ..).trans ?_
theorem opIdentRun_keeps (r : Request) (s : State) : (opIdentRun r s).st.queueHusk = s.queueHusk := by
  unfold opIdentRun
  with_reducible repeat' first | rfl | refine keeps_iteR ?_ ?_ | refine keeps_ite ?_ ?_ | refine (State.setSt_keeps ..).trans ?_ | refine (refuse_keeps ..).trans ?_ | extract_lets | split
theorem identHeader_keeps (s : State) (grid m : Nat) (scale : Word) : (identHeader s grid m scale).queueHusk = s.queueHusk := by
  unfold identHeader
  with_reducible repeat' first | rfl | refine keeps_foldl ?_ ?_ | intro _ _ | refine (setMapW_keeps ..).trans ?_
theorem identDone_keeps (s : State) (slot : Nat) (res : Word) (scales : List (Nat × Word)) (cells : List (Nat × Nat × BitVec 16)) : (identDone s slot res scales cells).queueHusk = s.queueHusk := by
  unfold identDone
  with_reducible repeat' first | rfl | refine keeps_ite ?_ ?_ | refine keeps_foldl ?_ ?_ | intro _ _ | refine (State.setCw_keeps ..).trans ?_ | refine (addPend_keeps ..).trans ?_ | refine (identEnd_keeps ..).trans ?_ | refine (identHeader_keeps ..).trans ?_ | refine (setMapHalf_keeps ..).trans ?_ | extract_lets | split
theorem machBoundary_keeps (s : State) (g : Nat) : (machBoundary s g).queueHusk = s.queueHusk := by
  unfold machBoundary
  with_reducible repeat' first | rfl | refine keeps_ite ?_ ?_ | refine keeps_foldl ?_ ?_ | intro _ _ | refine (State.raise_keeps ..).trans ?_ | refine (State.setSt_keeps ..).trans ?_ | extract_lets
theorem movesApply_keeps (s : State) (g : Nat) : (movesApply s g).queueHusk = s.queueHusk := by
  unfold movesApply
  with_reducible repeat' first | rfl | refine keeps_ite ?_ ?_ | refine keeps_foldl ?_ ?_ | intro _ _ | refine (State.cntSat_keeps ..).trans ?_ | refine (State.raiseLim_keeps ..).trans ?_ | refine (mapMove_keeps ..).trans ?_ | refine (withLoop_keeps ..).trans ?_ | extract_lets
theorem movesDrop_keeps (s : State) (m : Nat) : (movesDrop s m).queueHusk = s.queueHusk := by
  unfold movesDrop
  with_reducible repeat' first | rfl | refine (withLoop_keeps ..).trans ?_ | extract_lets
theorem gearSet_keeps (s : State) (slot st : Nat) (cause : Option Nat) : (gearSet s slot st cause).queueHusk = s.queueHusk := by
  unfold gearSet
  with_reducible repeat' first | rfl | refine keeps_ite ?_ ?_ | refine (State.cntSat_keeps ..).trans ?_ | refine (State.raise_keeps ..).trans ?_ | refine (State.setSt_keeps ..).trans ?_ | extract_lets
theorem strokeSet_keeps (s : State) (slot st : Nat) : (strokeSet s slot st).queueHusk = s.queueHusk := by
  unfold strokeSet
  with_reducible repeat' first | rfl | refine keeps_ite ?_ ?_ | refine (State.raise_keeps ..).trans ?_ | refine (State.setSt_keeps ..).trans ?_ | extract_lets
theorem producerLost_keeps (s : State) (slot : Nat) : (producerLost s slot).queueHusk = s.queueHusk := by
  unfold producerLost
  with_reducible repeat' first | rfl | refine keeps_ite ?_ ?_ | refine (State.raise_keeps ..).trans ?_ | refine (gearSet_keeps ..).trans ?_ | refine (strokeSet_keeps ..).trans ?_ | extract_lets
theorem axisSet_keeps (s : State) (slot st : Nat) : (axisSet s slot st).queueHusk = s.queueHusk := by
  unfold axisSet
  with_reducible repeat' first | rfl | refine keeps_ite ?_ ?_ | refine (State.raise_keeps ..).trans ?_ | refine (State.setSt_keeps ..).trans ?_ | refine (producerLost_keeps ..).trans ?_ | extract_lets
theorem motShow_keeps (s : State) (slot : Nat) : (motShow s slot).queueHusk = s.queueHusk := by
  unfold motShow
  with_reducible repeat' first | rfl | refine keeps_foldl ?_ ?_ | intro _ _ | refine (State.setFld_keeps ..).trans ?_ | extract_lets | split
theorem axisAccept_keeps (s : State) (slot op : Nat) (ws : List Word) : (axisAccept s slot op ws).st.queueHusk = s.queueHusk := by
  unfold axisAccept
  with_reducible repeat' first | rfl | refine (addPend_keeps ..).trans ?_ | extract_lets
theorem setQueue_keeps (s : State) (slot : Nat) (q : List MoveReq) : (setQueue s slot q).queueHusk = s.queueHusk := by
  unfold setQueue
  with_reducible repeat' first | rfl | refine (State.setCtx_keeps ..).trans ?_ | extract_lets
theorem axisTable_keeps (s : State) (slot op : Nat) (ws : List Word) (qs : Bool) : (axisTable s slot op ws qs).st.queueHusk = s.queueHusk := by
  unfold axisTable
  with_reducible repeat' first | rfl | refine keeps_iteR ?_ ?_ | refine keeps_ite ?_ ?_ | refine (axisAccept_keeps ..).trans ?_ | refine (refuse_keeps ..).trans ?_ | extract_lets
theorem opMove_keeps (op : Nat) (r : Request) (s : State) : (opMove op r s).st.queueHusk = s.queueHusk := by
  unfold opMove
  with_reducible repeat' first | rfl | refine keeps_iteR ?_ ?_ | refine keeps_ite ?_ ?_ | refine (axisAccept_keeps ..).trans ?_ | refine (refuse_keeps ..).trans ?_ | refine (setQueue_keeps ..).trans ?_ | refine orRefuse_keeps ?_ ?_ | extract_lets
theorem opJog_keeps (r : Request) (s : State) : (opJog r s).st.queueHusk = s.queueHusk := by
  unfold opJog
  with_reducible repeat' first | rfl | refine keeps_iteR ?_ ?_ | refine keeps_ite ?_ ?_ | refine (axisTable_keeps ..).trans ?_ | refine (refuse_keeps ..).trans ?_ | refine orRefuse_keeps ?_ ?_ | extract_lets
theorem opStop_keeps (op : Nat) (r : Request) (s : State) : (opStop op r s).st.queueHusk = s.queueHusk := by
  unfold opStop
  with_reducible repeat' first | rfl | refine (axisTable_keeps ..).trans ?_ | refine orRefuse_keeps ?_ ?_
theorem opResume_keeps (r : Request) (s : State) : (opResume r s).st.queueHusk = s.queueHusk := by
  unfold opResume
  with_reducible repeat' first | rfl | refine keeps_iteR ?_ ?_ | refine keeps_ite ?_ ?_ | refine (axisTable_keeps ..).trans ?_ | refine (refuse_keeps ..).trans ?_ | refine orRefuse_keeps ?_ ?_ | extract_lets | split
theorem opSetLimits_keeps (r : Request) (s : State) : (opSetLimits r s).st.queueHusk = s.queueHusk := by
  unfold opSetLimits
  with_reducible repeat' first | rfl | refine keeps_iteR ?_ ?_ | refine keeps_ite ?_ ?_ | refine keeps_foldl ?_ ?_ | intro _ _ | refine (State.setCw_keeps ..).trans ?_ | refine (axisAccept_keeps ..).trans ?_ | refine (refuse_keeps ..).trans ?_ | refine orRefuse_keeps ?_ ?_ | extract_lets
theorem opSetPosition_keeps (r : Request) (s : State) : (opSetPosition r s).st.queueHusk = s.queueHusk := by
  unfold opSetPosition
  with_reducible repeat' first | rfl | refine (axisTable_keeps ..).trans ?_ | refine orRefuse_keeps ?_ ?_
theorem opHome_keeps (r : Request) (s : State) : (opHome r s).st.queueHusk = s.queueHusk := by
  unfold opHome
  with_reducible repeat' first | rfl | refine keeps_iteR ?_ ?_ | refine keeps_ite ?_ ?_ | refine (State.setFlag_keeps ..).trans ?_ | refine (axisAccept_keeps ..).trans ?_ | refine (refuse_keeps ..).trans ?_ | refine orRefuse_keeps ?_ ?_ | extract_lets
theorem latchGive_keeps (s : State) (u : Nat) : (latchGive s u).queueHusk = s.queueHusk := by
  unfold latchGive
  with_reducible repeat' first | rfl | refine (State.setFlag_keeps ..).trans ?_
theorem homeFail_keeps (s : State) (slot cause : Nat) : (homeFail s slot cause).queueHusk = s.queueHusk := by
  unfold homeFail
  with_reducible repeat' first | rfl | refine keeps_ite ?_ ?_ | refine (State.raise_keeps ..).trans ?_ | refine (State.setSt_keeps ..).trans ?_ | refine (latchGive_keeps ..).trans ?_ | extract_lets | split
theorem homeTimeout_keeps (s : State) (slot : Nat) : (homeTimeout s slot).queueHusk = s.queueHusk := by
  unfold homeTimeout
  with_reducible repeat' first | rfl | refine keeps_ite ?_ ?_ | refine (State.at_keeps ..).trans ?_ | refine (State.setSt_keeps ..).trans ?_ | refine (addPend_keeps ..).trans ?_ | extract_lets | split
theorem planTake_keeps (s : State) (slot : Nat) (p : AxPlan) (m : MoveReq) (fresh : Bool) : (planTake s slot p m fresh).queueHusk = s.queueHusk := by
  unfold planTake
  with_reducible repeat' first | rfl | refine keeps_ite ?_ ?_ | refine (State.fresh_keeps ..).trans ?_ | refine (State.raise_keeps ..).trans ?_ | refine (State.setSt_keeps ..).trans ?_ | refine (setQueue_keeps ..).trans ?_ | extract_lets
theorem startMove_keeps (s : State) (slot : Nat) (t : Tick) (m : MoveReq) (fresh : Bool) : (startMove s slot t m fresh).queueHusk = s.queueHusk := by
  unfold startMove
  with_reducible repeat' first | rfl | refine (State.fresh_keeps ..).trans ?_ | refine (State.setSt_keeps ..).trans ?_ | refine (axisSet_keeps ..).trans ?_ | refine (planTake_keeps ..).trans ?_ | extract_lets
theorem startJog_keeps (s : State) (slot : Nat) (t : Tick) (w : Word) : (startJog s slot t w).queueHusk = s.queueHusk := by
  unfold startJog
  with_reducible repeat' first | rfl | refine (State.setSt_keeps ..).trans ?_ | refine (axisSet_keeps ..).trans ?_ | refine (planTake_keeps ..).trans ?_ | extract_lets
theorem resumeKept_keeps (s : State) (slot : Nat) (t : Tick) : (resumeKept s slot t).queueHusk = s.queueHusk := by
  unfold resumeKept
  with_reducible repeat' first | rfl | refine keeps_ite ?_ ?_ | refine (axisSet_keeps ..).trans ?_ | refine (startJog_keeps ..).trans ?_ | refine (startMove_keeps ..).trans ?_ | extract_lets | split
theorem startStop_keeps (s : State) (slot : Nat) (t : Tick) (st : Nat) (ab : Bool) : (startStop s slot t st ab).queueHusk = s.queueHusk := by
  unfold startStop
  with_reducible repeat' first | rfl | refine keeps_ite ?_ ?_ | refine (State.setSt_keeps ..).trans ?_ | refine (axisSet_keeps ..).trans ?_ | extract_lets
theorem discardMoves_keeps (s : State) (slot : Nat) : (discardMoves s slot).queueHusk = s.queueHusk := by
  unfold discardMoves
  with_reducible repeat' first | rfl | refine (State.setSt_keeps ..).trans ?_ | refine (setQueue_keeps ..).trans ?_ | extract_lets
theorem startHome_keeps (s : State) (slot : Nat) (ws : List Word) : (startHome s slot ws).queueHusk = s.queueHusk := by
  unfold startHome
  with_reducible repeat' first | rfl | refine keeps_ite ?_ ?_ | refine (State.setSt_keeps ..).trans ?_ | refine (axisSet_keeps ..).trans ?_ | extract_lets
theorem forceLimits_keeps (s : State) (slot : Nat) (ws : List Word) : (forceLimits s slot ws).queueHusk = s.queueHusk := by
  induction s, ws using forceLimits.induct slot with
  | case1 s i v rest ih => exact ih.trans (State.setFrc_keeps ..)
  | case2 s ws h => unfold forceLimits; split <;> first | rfl | exact absurd rfl (h _ _ _)
theorem wantReplan_keeps (s : State) (slot : Nat) : (wantReplan s slot).queueHusk = s.queueHusk := by
  unfold wantReplan
  with_reducible repeat' first | rfl | refine keeps_ite ?_ ?_ | refine (State.setSt_keeps ..).trans ?_ | refine (replan_keeps ..).trans ?_ | extract_lets
theorem axisApply_keeps (s : State) (slot op : Nat) (ws : List Word) (t : Tick) : (axisApply s slot op ws t).1.queueHusk = s.queueHusk := by
  unfold axisApply
  with_reducible repeat' first | rfl | refine keeps_ite1 ?_ ?_ | refine keeps_ite ?_ ?_ | refine (State.raise_keeps ..).trans ?_ | refine (State.setSt_keeps ..).trans ?_ | refine (axisSet_keeps ..).trans ?_ | refine (discardMoves_keeps ..).trans ?_ | refine (forceLimits_keeps ..).trans ?_ | refine (homeFail_keeps ..).trans ?_ | refine (latchGive_keeps ..).trans ?_ | refine (resumeKept_keeps ..).trans ?_ | refine (startHome_keeps ..).trans ?_ | refine (startJog_keeps ..).trans ?_ | refine (startMove_keeps ..).trans ?_ | refine (startStop_keeps ..).trans ?_ | refine (wantReplan_keeps ..).trans ?_ | extract_lets | split
theorem axisReplan_keeps (s : State) (slot : Nat) (t : Tick) : (axisReplan s slot t).queueHusk = s.queueHusk := by
  unfold axisReplan
  with_reducible repeat' first | rfl | refine keeps_ite ?_ ?_ | refine (State.setSt_keeps ..).trans ?_ | refine (replan_keeps ..).trans ?_ | refine (startJog_keeps ..).trans ?_ | refine (startMove_keeps ..).trans ?_ | extract_lets | split
theorem axisBoundary_keeps (s : State) (slot : Nat) (t : Tick) : (axisBoundary s slot t).queueHusk = s.queueHusk := by
  unfold axisBoundary
  with_reducible repeat' first | rfl | refine keeps_ite ?_ ?_ | refine (State.setSt_keeps ..).trans ?_ | refine (axisReplan_keeps ..).trans ?_ | refine (replan_keeps ..).trans ?_ | refine (setQueue_keeps ..).trans ?_ | refine (startMove_keeps ..).trans ?_ | extract_lets | split
theorem opGearEngage_keeps (r : Request) (s : State) : (opGearEngage r s).st.queueHusk = s.queueHusk := by
  unfold opGearEngage
  with_reducible repeat' first | rfl | refine keeps_iteR ?_ ?_ | refine keeps_ite ?_ ?_ | refine (axisAccept_keeps ..).trans ?_ | refine (refuse_keeps ..).trans ?_ | refine orRefuse_keeps ?_ ?_ | extract_lets | split
theorem opGearDisengage_keeps (r : Request) (s : State) : (opGearDisengage r s).st.queueHusk = s.queueHusk := by
  unfold opGearDisengage
  with_reducible repeat' first | rfl | refine keeps_iteR ?_ ?_ | refine keeps_ite ?_ ?_ | refine (axisAccept_keeps ..).trans ?_ | refine (refuse_keeps ..).trans ?_ | refine orRefuse_keeps ?_ ?_ | extract_lets | split
theorem opGearRatio_keeps (r : Request) (s : State) : (opGearRatio r s).st.queueHusk = s.queueHusk := by
  unfold opGearRatio
  with_reducible repeat' first | rfl | refine keeps_iteR ?_ ?_ | refine keeps_ite ?_ ?_ | refine (State.setCw_keeps ..).trans ?_ | refine (axisAccept_keeps ..).trans ?_ | refine (refuse_keeps ..).trans ?_ | refine orRefuse_keeps ?_ ?_ | extract_lets
theorem heldRefuse_keeps (s : State) (ticket : Nat) (stamp : Nat) : (heldRefuse s ticket stamp).queueHusk = s.queueHusk := by
  unfold heldRefuse
  with_reducible repeat' first | rfl | refine keeps_ite ?_ ?_ | refine (withCmd_keeps ..).trans ?_ | extract_lets
theorem gearHold_keeps (s : State) (slot ticket : Nat) : (gearHold s slot ticket).queueHusk = s.queueHusk := by
  unfold gearHold
  with_reducible repeat' first | rfl | refine keeps_ite ?_ ?_ | refine (withCmd_keeps ..).trans ?_ | extract_lets
theorem gearAnswer_keeps (s : State) (slot ticket : Nat) (refused : Option Nat) : (gearAnswer s slot ticket refused).queueHusk = s.queueHusk := by
  unfold gearAnswer
  with_reducible repeat' first | rfl | refine keeps_ite ?_ ?_ | refine (heldRefuse_keeps ..).trans ?_ | refine (withCmd_keeps ..).trans ?_ | extract_lets | split
theorem gearApply_keeps (s : State) (slot op : Nat) (ws : List Word) (ticket : Nat) : (gearApply s slot op ws ticket).1.queueHusk = s.queueHusk := by
  unfold gearApply
  with_reducible repeat' first | rfl | refine keeps_ite1 ?_ ?_ | refine keeps_ite ?_ ?_ | refine (State.setCtx_keeps ..).trans ?_ | refine (State.setFrc_keeps ..).trans ?_ | refine (State.setSt_keeps ..).trans ?_ | refine (axisSet_keeps ..).trans ?_ | refine (gearHold_keeps ..).trans ?_ | refine (gearSet_keeps ..).trans ?_ | extract_lets | split
theorem strokeTable_keeps (s : State) (slot op : Nat) (ws : List Word) : (strokeTable s slot op ws).st.queueHusk = s.queueHusk := by
  unfold strokeTable
  with_reducible repeat' first | rfl | refine keeps_iteR ?_ ?_ | refine keeps_ite ?_ ?_ | refine (axisAccept_keeps ..).trans ?_ | refine (refuse_keeps ..).trans ?_ | extract_lets
theorem opStrokeStart_keeps (r : Request) (s : State) : (opStrokeStart r s).st.queueHusk = s.queueHusk := by
  unfold opStrokeStart
  with_reducible repeat' first | rfl | refine keeps_iteR ?_ ?_ | refine keeps_ite ?_ ?_ | refine (refuse_keeps ..).trans ?_ | refine (strokeTable_keeps ..).trans ?_ | refine orRefuse_keeps ?_ ?_
theorem opStrokeFeed_keeps (r : Request) (s : State) : (opStrokeFeed r s).st.queueHusk = s.queueHusk := by
  unfold opStrokeFeed
  with_reducible repeat' first | rfl | refine keeps_iteR ?_ ?_ | refine keeps_ite ?_ ?_ | refine (refuse_keeps ..).trans ?_ | refine (strokeTable_keeps ..).trans ?_ | refine orRefuse_keeps ?_ ?_
theorem opStrokeHold_keeps (r : Request) (s : State) : (opStrokeHold r s).st.queueHusk = s.queueHusk := by
  unfold opStrokeHold
  with_reducible repeat' first | rfl | refine (strokeTable_keeps ..).trans ?_ | refine orRefuse_keeps ?_ ?_
theorem opStrokeFlush_keeps (r : Request) (s : State) : (opStrokeFlush r s).st.queueHusk = s.queueHusk := by
  unfold opStrokeFlush
  with_reducible repeat' first | rfl | refine (strokeTable_keeps ..).trans ?_ | refine orRefuse_keeps ?_ ?_
theorem strokeApply_keeps (s : State) (slot op : Nat) (ws : List Word) : (strokeApply s slot op ws).1.queueHusk = s.queueHusk := by
  unfold strokeApply
  with_reducible repeat' first | rfl | refine keeps_ite1 ?_ ?_ | refine keeps_ite ?_ ?_ | refine keeps_foldl ?_ ?_ | intro _ _ | refine (State.setCtx_keeps ..).trans ?_ | refine (State.setSt_keeps ..).trans ?_ | refine (axisSet_keeps ..).trans ?_ | refine (ringClear_keeps ..).trans ?_ | refine (strokeSet_keeps ..).trans ?_ | extract_lets | split
theorem filterRefresh_keeps (s : State) (slot : Nat) : (filterRefresh s slot).queueHusk = s.queueHusk := by
  unfold filterRefresh
  with_reducible repeat' first | rfl | refine keeps_ite ?_ ?_ | refine keeps_foldl ?_ ?_ | intro _ _ | refine (State.setCw_keeps ..).trans ?_ | refine (State.setFrc_keeps ..).trans ?_ | extract_lets

end

end Sys2Proof.Machine
end

