-- ==== Sys2Proof/Laws/FrameSafe.lean ====
section
/-! SUPPORT. Frames of the operations over field die and safety channels (Husk's own operations apart): they leave the queue of waiting commands alone, and Husk's power, state and
general output. One lemma an operation. -/

namespace Sys2Proof.Machine

open Sys2Proof

section

set_option linter.unusedTactic false
set_option linter.unreachableTactic false

theorem fioRefresh_keeps (s : State) : (fioRefresh s).queueHusk = s.queueHusk := by
  unfold fioRefresh
  with_reducible repeat' first | rfl | refine keeps_foldl ?_ ?_ | intro _ _ | refine (State.setFlag_keeps ..).trans ?_ | refine (setReg_keeps ..).trans ?_ | extract_lets
theorem fioLevels_keeps (s : State) : (fioLevels s).queueHusk = s.queueHusk := by
  unfold fioLevels
  with_reducible repeat' first | rfl | refine keeps_ite ?_ ?_ | refine keeps_foldl ?_ ?_ | intro _ _ | refine (State.setFlag_keeps ..).trans ?_ | refine (setReg_keeps ..).trans ?_ | extract_lets
theorem fioCommand_keeps (s : State) (n : Nat) (on : Bool) : (fioCommand s n on).queueHusk = s.queueHusk := by
  unfold fioCommand
  with_reducible repeat' first | rfl | refine keeps_ite ?_ ?_ | refine (State.setFlag_keeps ..).trans ?_ | refine (State.setFld_keeps ..).trans ?_ | extract_lets
theorem fioChannelsReset_keeps (s : State) : (fioChannelsReset s).queueHusk = s.queueHusk := by
  unfold fioChannelsReset
  with_reducible repeat' first | rfl | refine keeps_foldl ?_ ?_ | intro _ _ | refine (setReg_keeps ..).trans ?_ | refine (withField_keeps ..).trans ?_ | extract_lets
theorem fieldHeartbeat_keeps (s : State) : (fieldHeartbeat s).queueHusk = s.queueHusk := by
  unfold fieldHeartbeat
  with_reducible repeat' first | rfl | refine keeps_ite ?_ ?_ | refine (fioChannelsReset_keeps ..).trans ?_ | refine (fioLevels_keeps ..).trans ?_ | refine (fioRefresh_keeps ..).trans ?_ | refine (withField_keeps ..).trans ?_ | extract_lets | split
theorem logicHeartbeat_keeps (s : State) : (logicHeartbeat s).queueHusk = s.queueHusk := by
  unfold logicHeartbeat
  with_reducible repeat' first | rfl | refine keeps_ite ?_ ?_ | refine (State.raise_keeps ..).trans ?_ | refine (State.setFlag_keeps ..).trans ?_ | refine (fioLevels_keeps ..).trans ?_ | refine (withField_keeps ..).trans ?_ | extract_lets | split
theorem linkTimeout_keeps (s : State) : (linkTimeout s).queueHusk = s.queueHusk := by
  unfold linkTimeout
  with_reducible repeat' first | rfl | refine keeps_ite ?_ ?_ | refine (State.raise_keeps ..).trans ?_ | refine (State.setFlag_keeps ..).trans ?_ | refine (fioLevels_keeps ..).trans ?_ | refine (withField_keeps ..).trans ?_ | extract_lets
theorem silenceBegin_keeps (s : State) : (silenceBegin s).queueHusk = s.queueHusk := by
  unfold silenceBegin
  with_reducible repeat' first | rfl | refine keeps_ite ?_ ?_ | refine (fioRefresh_keeps ..).trans ?_ | refine (withField_keeps ..).trans ?_ | extract_lets
theorem chatterEdge_keeps (s : State) (n : Nat) : (chatterEdge s n).queueHusk = s.queueHusk := by
  unfold chatterEdge
  with_reducible repeat' first | rfl | refine keeps_ite ?_ ?_ | refine (State.cntSat_keeps ..).trans ?_ | refine (State.raise_keeps ..).trans ?_ | refine (withField_keeps ..).trans ?_ | extract_lets
theorem fieldEdge_keeps (s : State) (n : Nat) (level : Bool) (t : Tick) : (fieldEdge s n level t).queueHusk = s.queueHusk := by
  unfold fieldEdge
  with_reducible repeat' first | rfl | refine keeps_ite ?_ ?_ | refine (State.cntWrap_keeps ..).trans ?_ | refine (State.raise_keeps ..).trans ?_ | refine (State.setFlag_keeps ..).trans ?_ | refine (chatterEdge_keeps ..).trans ?_ | refine (fioLevels_keeps ..).trans ?_ | refine (latchFrom_keeps ..).trans ?_ | refine (withField_keeps ..).trans ?_ | extract_lets
theorem setHusk_keeps (s : State) (x : HuskS) (h1 : x.on = s.safe.husk.on) (h2 : x.st = s.safe.husk.st) (h3 : x.prev = s.safe.husk.prev)
    (h4 : x.gen = s.safe.husk.gen) : (s.setHusk x).queueHusk = s.queueHusk := by simp [State.queueHusk, State.setHusk, h1, h2, h3, h4]
theorem huskWindow_keeps (s : State) (n : Nat) (on : Bool) (t : Tick) : (huskWindow s n on t).queueHusk = s.queueHusk := by
  unfold huskWindow
  with_reducible repeat' first | rfl | refine (setHusk_keeps _ _ ?_ ?_ ?_ ?_).trans ?_ | extract_lets
theorem huskFollow_keeps (s : State) (c : Nat) (on : Bool) (t : Tick) : (huskFollow s c on t).queueHusk = s.queueHusk := by
  unfold huskFollow
  with_reducible repeat' first | rfl | refine keeps_ite ?_ ?_ | refine keeps_foldl ?_ ?_ | intro _ _ | refine (huskWindow_keeps ..).trans ?_ | extract_lets
theorem chatterNext_keeps (s : State) (n : Nat) : (chatterNext s n).queueHusk = s.queueHusk := by
  unfold chatterNext
  with_reducible repeat' first | rfl | refine (withField_keeps ..).trans ?_ | extract_lets
theorem outFault_keeps (s : State) (n code : Nat) : (outFault s n code).queueHusk = s.queueHusk := by
  unfold outFault
  with_reducible repeat' first | rfl | refine keeps_ite ?_ ?_ | refine (State.cntSat_keeps ..).trans ?_ | refine (State.raise_keeps ..).trans ?_ | refine (State.setFlag_keeps ..).trans ?_ | refine (fioRefresh_keeps ..).trans ?_ | extract_lets
theorem bankFault_keeps (s : State) (b mA : Nat) : (bankFault s b mA).queueHusk = s.queueHusk := by
  unfold bankFault
  with_reducible repeat' first | rfl | refine keeps_ite ?_ ?_ | refine (State.raise_keeps ..).trans ?_ | refine (State.setFld_keeps ..).trans ?_ | refine (fioRefresh_keeps ..).trans ?_
theorem vfield_keeps (s : State) (v : Nat) (banks : List (BitVec 16)) : (vfield s v banks).queueHusk = s.queueHusk := by
  unfold vfield
  with_reducible repeat' first | rfl | refine keeps_ite ?_ ?_ | refine keeps_foldl ?_ ?_ | intro _ _ | refine (State.raise_keeps ..).trans ?_ | refine (State.setFlag_keeps ..).trans ?_ | refine (State.setFld_keeps ..).trans ?_ | refine (fioRefresh_keeps ..).trans ?_ | extract_lets | split
theorem fieldBlockWrite_keeps (s : State) (a : Nat) (w : Word) {d : Res} (hd : d.st.queueHusk = s.queueHusk) : ((fieldBlockWrite s a w).getD d).st.queueHusk = s.queueHusk := by
  unfold fieldBlockWrite
  with_reducible repeat' first | rfl | refine keeps_iteO ?_ ?_ | refine keeps_ite ?_ ?_ | refine keeps_iteR ?_ ?_ | refine keeps_some ?_ | refine keeps_none ?_ | assumption | refine (plainNow_keeps ..).trans ?_ | refine checked_keeps ?_ ?_
theorem safeCfgFault_keeps (s : State) (on : Bool) : (safeCfgFault s on).queueHusk = s.queueHusk := by
  unfold safeCfgFault
  with_reducible repeat' first | rfl | refine keeps_ite ?_ ?_ | refine (State.raise_keeps ..).trans ?_ | refine (State.setFlag_keeps ..).trans ?_
theorem State.setSax_keeps (s : State) (a : Nat) (x : SafeAx) : (State.setSax s a x).queueHusk = s.queueHusk := by
  unfold State.setSax
  with_reducible repeat' first | rfl | refine (withSafe_keeps _ _ ?_).trans ?_ | extract_lets
theorem contCommand_keeps (s : State) (n : Nat) (on : Bool) : (contCommand s n on).queueHusk = s.queueHusk := by
  unfold contCommand
  with_reducible repeat' first | rfl | refine (State.setFlag_keeps ..).trans ?_ | refine (State.setFld_keeps ..).trans ?_ | refine (withSafe_keeps _ _ ?_).trans ?_ | extract_lets
theorem contFollow_keeps (s : State) (c : Nat) (on : Bool) : (contFollow s c on).queueHusk = s.queueHusk := by
  unfold contFollow
  with_reducible repeat' first | rfl | refine keeps_ite ?_ ?_ | refine keeps_foldl ?_ ?_ | intro _ _ | refine (contCommand_keeps ..).trans ?_
theorem scribeLatch_keeps (s : State) (bit : Nat) (soft : Bool) : (scribeLatch s bit soft).queueHusk = s.queueHusk := by
  unfold scribeLatch
  with_reducible repeat' first | rfl | refine keeps_ite ?_ ?_ | refine (withSafe_keeps _ _ ?_).trans ?_ | extract_lets
theorem contFault_keeps (s : State) (n code : Nat) : (contFault s n code).queueHusk = s.queueHusk := by
  unfold contFault
  with_reducible repeat' first | rfl | refine (State.raise_keeps ..).trans ?_ | refine (State.setFld_keeps ..).trans ?_ | refine (scribeLatch_keeps ..).trans ?_ | extract_lets | split
theorem contExpire_keeps (s : State) (n : Nat) : (contExpire s n).queueHusk = s.queueHusk := by
  unfold contExpire
  with_reducible repeat' first | rfl | refine keeps_ite ?_ ?_ | refine (State.setFld_keeps ..).trans ?_ | refine (contFault_keeps ..).trans ?_ | extract_lets
theorem contSee_keeps (s : State) (n : Nat) (closed : Bool) (t : Tick) : (contSee s n closed t).queueHusk = s.queueHusk := by
  unfold contSee
  with_reducible repeat' first | rfl | refine keeps_ite ?_ ?_ | refine (State.setFlag_keeps ..).trans ?_ | refine (State.setFld_keeps ..).trans ?_ | refine (contExpire_keeps ..).trans ?_ | refine (contFault_keeps ..).trans ?_ | extract_lets
theorem pairApply_keeps (s : State) (p : Nat) : (pairApply s p).queueHusk = s.queueHusk := by
  unfold pairApply
  with_reducible repeat' first | rfl | refine keeps_ite ?_ ?_ | refine keeps_foldl ?_ ?_ | intro _ _ | refine (State.setFlag_keeps ..).trans ?_ | refine (contFollow_keeps ..).trans ?_ | refine (fioCommand_keeps ..).trans ?_ | refine (fioRefresh_keeps ..).trans ?_ | extract_lets
theorem pairsApply_keeps (s : State) (f : Nat → Bool) : (pairsApply s f).queueHusk = s.queueHusk := by
  unfold pairsApply
  with_reducible repeat' first | rfl | refine keeps_ite ?_ ?_ | refine keeps_foldl ?_ ?_ | intro _ _ | refine (pairApply_keeps ..).trans ?_
theorem testPulse_keeps (s : State) (p : Nat) (chB good : Bool) : (testPulse s p chB good).queueHusk = s.queueHusk := by
  unfold testPulse
  with_reducible repeat' first | rfl | refine keeps_ite ?_ ?_ | refine (State.cntWrap_keeps ..).trans ?_ | refine (State.raise_keeps ..).trans ?_ | refine (State.setFlag_keeps ..).trans ?_ | refine (pairApply_keeps ..).trans ?_ | refine (scribeLatch_keeps ..).trans ?_ | refine (withSafe_keeps _ _ ?_).trans ?_ | extract_lets
theorem axViolate_keeps (s : State) (a code : Nat) : (axViolate s a code).queueHusk = s.queueHusk := by
  unfold axViolate
  with_reducible repeat' first | rfl | refine keeps_ite ?_ ?_ | refine (State.raise_keeps ..).trans ?_ | refine (State.setFld_keeps ..).trans ?_ | refine (State.setSax_keeps ..).trans ?_ | refine (scribeLatch_keeps ..).trans ?_ | extract_lets
theorem axSample_keeps (s : State) (a : Nat) : (axSample s a).queueHusk = s.queueHusk := by
  unfold axSample
  with_reducible repeat' first | rfl | refine keeps_ite ?_ ?_ | refine (State.setSax_keeps ..).trans ?_ | refine (setReg_keeps ..).trans ?_ | extract_lets
theorem quickStop_keeps (s : State) (a : Nat) : (quickStop s a).queueHusk = s.queueHusk := by
  unfold quickStop
  with_reducible repeat' first | rfl | refine keeps_ite ?_ ?_ | refine (axisTable_keeps ..).trans ?_ | extract_lets
theorem axMonitor_keeps (s : State) (t : Tick) (a : Nat) : (axMonitor s t a).queueHusk = s.queueHusk := by
  unfold axMonitor
  extract_lets s0 x st slow s1 s2 _ s3 lv s4
  have h0 : s0.queueHusk = s.queueHusk := keeps_ite (axViolate_keeps ..) rfl
  have h1 : s1.queueHusk = s.queueHusk := (State.setSax_keeps ..).trans h0
  have h2 : s2.queueHusk = s.queueHusk := keeps_ite ((axViolate_keeps ..).trans h1) h1
  have h3 : s3.queueHusk = s.queueHusk := by
    refine keeps_ite (keeps_ite ((axViolate_keeps ..).trans h2) (keeps_ite ?_ h2)) (keeps_ite (keeps_ite ((axViolate_keeps ..).trans h2) h2) h2)
    exact (State.setSax_keeps ..).trans ((State.setFld_keeps ..).trans h2)
  have h4 : s4.queueHusk = s.queueHusk := keeps_ite ((axViolate_keeps ..).trans h3) h3
  split
  · exact keeps_ite ((axViolate_keeps ..).trans h4) ((State.setSax_keeps ..).trans h4)
  · exact keeps_ite ((axViolate_keeps ..).trans h4) ((State.setSax_keeps ..).trans h4)
  · exact h4
theorem axSelect_keeps (s : State) (a nib : Nat) : (axSelect s a nib).queueHusk = s.queueHusk := by
  unfold axSelect
  with_reducible repeat' first | rfl | refine keeps_ite ?_ ?_ | refine (State.setFld_keeps ..).trans ?_ | refine (State.setSax_keeps ..).trans ?_ | refine (quickStop_keeps ..).trans ?_ | extract_lets
theorem telSelect_keeps (s : State) : (telSelect s).queueHusk = s.queueHusk := by
  unfold telSelect
  with_reducible repeat' first | rfl | refine keeps_ite ?_ ?_ | refine keeps_foldl ?_ ?_ | intro _ _ | refine (axSelect_keeps ..).trans ?_
theorem slsEffective_keeps (s : State) (a : Nat) : (slsEffective s a).queueHusk = s.queueHusk := by
  unfold slsEffective
  with_reducible repeat' first | rfl | refine keeps_ite ?_ ?_ | refine (State.setFld_keeps ..).trans ?_ | refine (State.setSax_keeps ..).trans ?_ | extract_lets
theorem groupsOff_keeps (s : State) : (groupsOff s).queueHusk = s.queueHusk := by
  unfold groupsOff
  with_reducible repeat' first | rfl | refine keeps_ite ?_ ?_ | refine keeps_foldl ?_ ?_ | intro _ _ | refine (State.setFlag_keeps ..).trans ?_ | refine (State.setFld_keeps ..).trans ?_ | refine (addPend_keeps ..).trans ?_
theorem scribeTake_keeps (s : State) (new : Nat) (t : Tick) : (scribeTake s new t).queueHusk = s.queueHusk := by
  unfold scribeTake
  with_reducible repeat' first | rfl | refine keeps_ite ?_ ?_ | refine keeps_foldl ?_ ?_ | intro _ _ | refine (State.raise_keeps ..).trans ?_ | refine (State.setFlag_keeps ..).trans ?_ | refine (State.setFld_keeps ..).trans ?_ | refine (State.setSax_keeps ..).trans ?_ | refine (groupsOff_keeps ..).trans ?_ | refine (pairsApply_keeps ..).trans ?_ | refine (quickStop_keeps ..).trans ?_ | refine (withSafe_keeps _ _ ?_).trans ?_ | extract_lets | split
theorem telOut_keeps (s : State) (p : Nat) (o : Origin) (ws : List Word) : (telOut s p o ws).queueHusk = s.queueHusk := by
  unfold telOut
  with_reducible repeat' first | rfl | refine keeps_ite ?_ ?_ | refine (netTx_keeps ..).trans ?_ | refine (swQueue_keeps ..).trans ?_ | extract_lets | split
theorem telSend1_keeps (s : State) : (telSend1 s).queueHusk = s.queueHusk := by
  unfold telSend1
  with_reducible repeat' first | rfl | refine (telOut_keeps ..).trans ?_ | refine (withSafe_keeps _ _ ?_).trans ?_ | extract_lets
theorem telSend_keeps (s : State) : (telSend s).queueHusk = s.queueHusk := by
  unfold telSend
  with_reducible repeat' first | rfl | refine keeps_foldl ?_ ?_ | intro _ _ | refine (telSend1_keeps ..).trans ?_ | refine (withSafe_keeps _ _ ?_).trans ?_ | extract_lets
theorem contStart_keeps (s : State) (old : List Word) (n : Nat) : (contStart s old n).queueHusk = s.queueHusk := by
  unfold contStart
  with_reducible repeat' first | rfl | refine keeps_ite ?_ ?_ | refine (State.setFlag_keeps ..).trans ?_ | refine (State.setFld_keeps ..).trans ?_ | extract_lets
theorem setInForce_keeps (s : State) (ws : List Word) : (setInForce s ws).queueHusk = s.queueHusk := by
  unfold setInForce
  with_reducible repeat' first | rfl | refine keeps_ite ?_ ?_ | refine keeps_foldl ?_ ?_ | intro _ _ | refine (State.setFld_keeps ..).trans ?_ | refine (contStart_keeps ..).trans ?_ | refine (setReg_keeps ..).trans ?_ | refine (setRegs_keeps ..).trans ?_ | refine (withSafe_keeps _ _ ?_).trans ?_ | extract_lets
theorem stageEmpty_keeps (s : State) : (stageEmpty s).queueHusk = s.queueHusk := by
  unfold stageEmpty
  with_reducible repeat' first | rfl | refine (setReg_keeps ..).trans ?_ | refine (withSafe_keeps _ _ ?_).trans ?_ | extract_lets
theorem setTake_keeps (s : State) (ws : List Word) : (setTake s ws).queueHusk = s.queueHusk := by
  unfold setTake
  exact (State.raise_keeps ..).trans ((safeCfgFault_keeps ..).trans ((setInForce_keeps ..).trans (withSafe_keeps4 _ _ rfl rfl rfl rfl)))
theorem opSafeConfirm_keeps (r : Request) (s : State) : (opSafeConfirm r s).st.queueHusk = s.queueHusk := by
  unfold opSafeConfirm
  with_reducible repeat' first | rfl | refine keeps_iteR ?_ ?_ | refine keeps_ite ?_ ?_ | refine (State.raise_keeps ..).trans ?_ | refine (refuse_keeps ..).trans ?_ | refine (setTake_keeps ..).trans ?_ | refine (stageEmpty_keeps ..).trans ?_ | extract_lets | split
theorem confirmJudge_keeps (s : State) : (confirmJudge s).queueHusk = s.queueHusk := by
  unfold confirmJudge
  with_reducible repeat' first | rfl | refine keeps_foldl ?_ ?_ | intro _ _ | refine (opSafeConfirm_keeps ..).trans ?_ | refine (respond_keeps ..).trans ?_ | refine (withSafe_keeps _ _ ?_).trans ?_ | extract_lets
theorem tellCauses_keeps (s : State) : (tellCauses s).queueHusk = s.queueHusk := by
  unfold tellCauses
  with_reducible repeat' first | rfl | refine keeps_ite ?_ ?_ | refine keeps_foldl ?_ ?_ | intro _ _ | refine (State.raise_keeps ..).trans ?_ | refine (withSafe_keeps _ _ ?_).trans ?_ | extract_lets
theorem scribeSample_keeps (s : State) (husk : List Int) : (scribeSample s husk).queueHusk = s.queueHusk := by
  unfold scribeSample
  exact keeps_foldl (fun t a => axSample_keeps ..) (withSafe_keeps4 _ _ rfl rfl rfl rfl)
theorem scribeRegs_keeps (s : State) : (scribeRegs s).queueHusk = s.queueHusk := by
  unfold scribeRegs
  with_reducible repeat' first | rfl | refine keeps_ite ?_ ?_ | refine keeps_foldl ?_ ?_ | intro _ _ | refine (State.setFlag_keeps ..).trans ?_ | refine (State.setFld_keeps ..).trans ?_ | refine (setReg_keeps ..).trans ?_ | refine (withSafe_keeps _ _ ?_).trans ?_ | extract_lets
theorem scribeResume_keeps (s : State) : (scribeResume s).queueHusk = s.queueHusk := by
  unfold scribeResume
  with_reducible repeat' first | rfl | refine keeps_ite ?_ ?_ | refine (State.raise_keeps ..).trans ?_ | refine (withSafe_keeps _ _ ?_).trans ?_ | extract_lets
theorem scribeMonitor_keeps (s : State) (t : Tick) : (scribeMonitor s t).queueHusk = s.queueHusk := by
  unfold scribeMonitor
  with_reducible repeat' first | rfl | refine keeps_ite ?_ ?_ | refine keeps_foldl ?_ ?_ | intro _ _ | refine (axMonitor_keeps ..).trans ?_ | refine (pairsApply_keeps ..).trans ?_ | refine (withSafe_keeps _ _ ?_).trans ?_ | extract_lets
theorem sbcApply_keeps (s : State) : (sbcApply s).queueHusk = s.queueHusk := by
  unfold sbcApply
  with_reducible repeat' first | rfl | refine keeps_ite ?_ ?_ | refine keeps_foldl ?_ ?_ | intro _ _ | refine (State.setFlag_keeps ..).trans ?_ | refine (pairApply_keeps ..).trans ?_ | refine (pairsApply_keeps ..).trans ?_
theorem ackArm_keeps (s : State) : (ackArm s).queueHusk = s.queueHusk := by
  unfold ackArm
  with_reducible repeat' first | rfl | refine keeps_ite ?_ ?_ | refine (State.raise_keeps ..).trans ?_ | refine (withSafe_keeps _ _ ?_).trans ?_ | extract_lets
theorem scribeCycle_keeps (s : State) (t : Tick) (husk : List Int) : (scribeCycle s t husk).queueHusk = s.queueHusk := by
  unfold scribeCycle
  with_reducible repeat' first | rfl | refine keeps_ite ?_ ?_ | refine (State.raise_keeps ..).trans ?_ | refine (ackArm_keeps ..).trans ?_ | refine (confirmJudge_keeps ..).trans ?_ | refine (sbcApply_keeps ..).trans ?_ | refine (scribeMonitor_keeps ..).trans ?_ | refine (scribeRegs_keeps ..).trans ?_ | refine (scribeResume_keeps ..).trans ?_ | refine (scribeSample_keeps ..).trans ?_ | refine (scribeTake_keeps ..).trans ?_ | refine (telSelect_keeps ..).trans ?_ | refine (telSend_keeps ..).trans ?_ | refine (tellCauses_keeps ..).trans ?_ | refine (withSafe_keeps _ _ ?_).trans ?_ | extract_lets
theorem brkExpiry_keeps (s : State) : (brkExpiry s).queueHusk = s.queueHusk := by
  unfold brkExpiry
  with_reducible repeat' first | rfl | refine keeps_ite ?_ ?_ | refine (State.setFld_keeps ..).trans ?_ | refine (scribeTake_keeps ..).trans ?_ | refine (withSafe_keeps _ _ ?_).trans ?_ | extract_lets
theorem takeHuskCauses_keeps (s : State) (c : Word) : (takeHuskCauses s c).queueHusk = s.queueHusk := by
  unfold takeHuskCauses
  with_reducible repeat' first | rfl | refine keeps_ite ?_ ?_ | refine keeps_foldl ?_ ?_ | intro _ _ | refine (State.raise_keeps ..).trans ?_ | refine (scribeLatch_keeps ..).trans ?_ | extract_lets
theorem scribeCompare_keeps (s : State) (f : List Word) : (scribeCompare s f).queueHusk = s.queueHusk := by
  unfold scribeCompare
  with_reducible repeat' first | rfl | refine keeps_ite ?_ ?_ | refine keeps_foldl ?_ ?_ | intro _ _ | refine (State.raise_keeps ..).trans ?_ | refine (State.setFld_keeps ..).trans ?_ | refine (scribeLatch_keeps ..).trans ?_ | refine (withSafe_keeps _ _ ?_).trans ?_ | extract_lets
theorem scribeReceive_keeps (s : State) (ok : Bool) : (scribeReceive s ok).queueHusk = s.queueHusk := by
  unfold scribeReceive
  with_reducible repeat' first | rfl | refine keeps_ite ?_ ?_ | refine keeps_iteR ?_ ?_ | refine keeps_ite1 ?_ ?_ | refine keeps_ite2 ?_ ?_ | refine keeps_foldl ?_ ?_ | refine keeps_foldl1 ?_ ?_ | refine keeps_foldl2 ?_ ?_ | refine keeps_iteO ?_ ?_ | refine keeps_some ?_ | refine keeps_none ?_ | assumption | intro _ _ | intro _ | (guard_target =~ (_ : HuskS) = _; with_unfolding_all rfl) | refine (State.cntSat_keeps ..).trans ?_ | refine (State.cntWrap_keeps ..).trans ?_ | refine (State.raise_keeps ..).trans ?_ | refine (scribeCompare_keeps ..).trans ?_ | refine (scribeLatch_keeps ..).trans ?_ | refine (takeHuskCauses_keeps ..).trans ?_ | refine (withSafe_keeps _ _ ?_).trans ?_ | extract_lets | split | dsimp only
theorem huskContactors_keeps (s : State) (f : List Word) : (huskContactors s f).queueHusk = s.queueHusk := by
  unfold huskContactors
  with_reducible repeat' first | rfl | refine keeps_ite ?_ ?_ | refine keeps_foldl ?_ ?_ | intro _ _ | refine (setHusk_keeps _ _ ?_ ?_ ?_ ?_).trans ?_ | extract_lets
theorem genSettle_keeps (s : State) : (genSettle s).queueHusk = s.queueHusk := by
  unfold genSettle
  with_reducible repeat' first | rfl | refine keeps_ite ?_ ?_ | refine (huskEnable_keeps ..).trans ?_ | refine (setHusk_keeps _ _ ?_ ?_ ?_ ?_).trans ?_ | extract_lets
theorem pathGood_keeps (s : State) (p : Nat) : (pathGood s p).queueHusk = s.queueHusk := by
  unfold pathGood
  with_reducible repeat' first | rfl | refine keeps_ite ?_ ?_ | refine (State.raise_keeps ..).trans ?_ | refine (State.setFlag_keeps ..).trans ?_ | refine (withSafe_keeps _ _ ?_).trans ?_ | extract_lets
theorem telReact_keeps (s : State) (bit : Nat) : (telReact s bit).queueHusk = s.queueHusk := by
  unfold telReact
  with_reducible repeat' first | rfl | refine (scribeLatch_keeps ..).trans ?_
theorem telAccept_keeps (s : State) (p : Nat) (o : Origin) (ws : List Word) (gap : Nat) : (telAccept s p o ws gap).queueHusk = s.queueHusk := by
  unfold telAccept
  with_reducible repeat' first | rfl | refine keeps_ite ?_ ?_ | refine keeps_foldl ?_ ?_ | intro _ _ | refine (State.setFld_keeps ..).trans ?_ | refine (contCommand_keeps ..).trans ?_ | refine (withSafe_keeps _ _ ?_).trans ?_ | extract_lets
theorem telWatchdog_keeps (s : State) : (telWatchdog s).queueHusk = s.queueHusk := by
  unfold telWatchdog
  with_reducible repeat' first | rfl | refine keeps_ite ?_ ?_ | refine (State.raise_keeps ..).trans ?_ | refine (telReact_keeps ..).trans ?_ | refine (withSafe_keeps _ _ ?_).trans ?_ | extract_lets
theorem telExpire_keeps (s : State) (t : Tick) : (telExpire s t).queueHusk = s.queueHusk := by
  unfold telExpire
  with_reducible repeat' first | rfl | refine keeps_ite ?_ ?_ | refine (telWatchdog_keeps ..).trans ?_
theorem telJudge_keeps (s : State) (p : Nat) (o : Origin) (ws : List Word) : (telJudge s p o ws).queueHusk = s.queueHusk := by
  unfold telJudge
  with_reducible repeat' first | rfl | refine keeps_ite ?_ ?_ | refine (State.cntSat_keeps ..).trans ?_ | refine (State.raise_keeps ..).trans ?_ | refine (telAccept_keeps ..).trans ?_ | refine (telReact_keeps ..).trans ?_ | refine (withSafe_keeps _ _ ?_).trans ?_ | extract_lets
theorem telCopy_keeps (s : State) (p : Nat) (o : Origin) (bytes : List Byte) (t : Tick) : (telCopy s p o bytes t).queueHusk = s.queueHusk := by
  unfold telCopy
  with_reducible repeat' first | rfl | refine keeps_ite ?_ ?_ | refine (State.cntSat_keeps ..).trans ?_ | refine (pathGood_keeps ..).trans ?_ | refine (telExpire_keeps ..).trans ?_ | refine (telJudge_keeps ..).trans ?_ | refine (withSafe_keeps _ _ ?_).trans ?_ | extract_lets
theorem pathLoss_keeps (s : State) (p : Nat) : (pathLoss s p).queueHusk = s.queueHusk := by
  unfold pathLoss
  with_reducible repeat' first | rfl | refine keeps_ite ?_ ?_ | refine (State.raise_keeps ..).trans ?_ | refine (State.setFlag_keeps ..).trans ?_ | refine (withSafe_keeps _ _ ?_).trans ?_ | extract_lets
theorem safeStageWrite_keeps (s : State) (w : Nat) (v : Word) : (safeStageWrite s w v).st.queueHusk = s.queueHusk := by
  unfold safeStageWrite
  with_reducible repeat' first | rfl | refine (setReg_keeps ..).trans ?_ | refine (stageEmpty_keeps ..).trans ?_
theorem safeBlockWrite_keeps (s : State) (a : Nat) (w : Word) {d : Res} (hd : d.st.queueHusk = s.queueHusk) : ((safeBlockWrite s a w).getD d).st.queueHusk = s.queueHusk := by
  unfold safeBlockWrite
  with_reducible repeat' first | rfl | refine keeps_iteO ?_ ?_ | refine keeps_ite ?_ ?_ | refine keeps_iteR ?_ ?_ | refine keeps_some ?_ | refine keeps_none ?_ | assumption | refine (safeStageWrite_keeps ..).trans ?_
theorem opSafeStage_keeps (_r : Request) (s : State) : (opSafeStage _r s).st.queueHusk = s.queueHusk := by
  unfold opSafeStage
  with_reducible repeat' first | rfl | refine keeps_iteR ?_ ?_ | refine keeps_ite ?_ ?_ | refine (State.raise_keeps ..).trans ?_ | refine (refuse_keeps ..).trans ?_ | refine (setReg_keeps ..).trans ?_ | refine (setRegs_keeps ..).trans ?_ | refine (withSafe_keeps _ _ ?_).trans ?_ | extract_lets | split
theorem safeConfirm_keeps (r : Request) (s : State) : (safeConfirm r s).queueHusk = s.queueHusk := by
  unfold safeConfirm
  with_reducible repeat' first | rfl | refine keeps_ite ?_ ?_ | refine (opSafeConfirm_keeps ..).trans ?_ | refine (serveReed_keeps _ _ _ _ ?_).trans ?_ | refine (withSafe_keeps _ _ ?_).trans ?_ | extract_lets
theorem opSafeAck_keeps (_r : Request) (s : State) : (opSafeAck _r s).st.queueHusk = s.queueHusk := by
  unfold opSafeAck
  with_reducible repeat' first | rfl | refine keeps_iteR ?_ ?_ | refine keeps_ite ?_ ?_ | refine (refuse_keeps ..).trans ?_ | refine (withSafe_keeps _ _ ?_).trans ?_ | extract_lets
theorem fioApply_keeps (s : State) (e : Nat × Bool) : (fioApply s e).queueHusk = s.queueHusk := by
  unfold fioApply
  with_reducible repeat' first | rfl | refine keeps_foldl ?_ ?_ | intro _ _ | refine (contFollow_keeps ..).trans ?_ | refine (fioCommand_keeps ..).trans ?_ | extract_lets | split
theorem opFioSet_keeps (r : Request) (s : State) : (opFioSet r s).st.queueHusk = s.queueHusk := by
  unfold opFioSet
  with_reducible repeat' first | rfl | refine keeps_iteR ?_ ?_ | refine keeps_ite ?_ ?_ | refine keeps_foldl ?_ ?_ | intro _ _ | refine (fioApply_keeps ..).trans ?_ | refine (fioRefresh_keeps ..).trans ?_ | refine (refuse_keeps ..).trans ?_ | extract_lets
theorem opFioConfig_keeps (r : Request) (s : State) : (opFioConfig r s).st.queueHusk = s.queueHusk := by
  unfold opFioConfig
  with_reducible repeat' first | rfl | refine keeps_iteR ?_ ?_ | refine keeps_ite ?_ ?_ | refine (contFollow_keeps ..).trans ?_ | refine (fioCommand_keeps ..).trans ?_ | refine (fioRefresh_keeps ..).trans ?_ | refine (refuse_keeps ..).trans ?_ | refine (setReg_keeps ..).trans ?_ | refine (withField_keeps ..).trans ?_ | extract_lets

end

end Sys2Proof.Machine
end

