-- ==== Sys2Proof/Laws/FrameNet.lean ====
section
/-! SUPPORT. Frames of the operations over time, Ethernet, CAN, Sward and Sheaf: they leave the queue of waiting commands alone, and Husk's power, state and
general output. One lemma an operation. -/

namespace Sys2Proof.Machine

open Sys2Proof

section

set_option linter.unusedTactic false
set_option linter.unreachableTactic false

theorem stRebase_keeps (s : State) : (stRebase s).queueHusk = s.queueHusk := by
  unfold stRebase
  with_reducible repeat' first | rfl | refine (withNet_keeps ..).trans ?_ | extract_lets
theorem setRate_keeps (s : State) (r : Int) : (setRate s r).queueHusk = s.queueHusk := by
  unfold setRate
  with_reducible repeat' first | rfl | refine (setReg_keeps ..).trans ?_ | refine (stRebase_keeps ..).trans ?_
theorem State.setPulse_keeps (s : State) (i : Nat) (x : Pulse) : (State.setPulse s i x).queueHusk = s.queueHusk := by
  unfold State.setPulse
  with_reducible repeat' first | rfl | refine (withNet_keeps ..).trans ?_ | extract_lets
theorem pulseSkip_keeps (s : State) (i n : Nat) (ev : Bool) : (pulseSkip s i n ev).queueHusk = s.queueHusk := by
  unfold pulseSkip
  with_reducible repeat' first | rfl | refine keeps_ite ?_ ?_ | refine (State.raise_keeps ..).trans ?_ | refine (State.setFld_keeps ..).trans ?_ | extract_lets
theorem pulseStop_keeps (s : State) (i : Nat) : (pulseStop s i).queueHusk = s.queueHusk := by
  unfold pulseStop
  with_reducible repeat' first | rfl | refine (State.setFlag_keeps ..).trans ?_ | refine (setReg_keeps ..).trans ?_
theorem pulseSync_keeps (s : State) (ev : Bool) (i : Nat) : (pulseSync s ev i).queueHusk = s.queueHusk := by
  unfold pulseSync
  with_reducible repeat' first | rfl | refine keeps_ite ?_ ?_ | refine (State.setFlag_keeps ..).trans ?_ | refine (State.setPulse_keeps ..).trans ?_ | refine (pulseSkip_keeps ..).trans ?_ | refine (pulseStop_keeps ..).trans ?_ | extract_lets | split
theorem pulsesHold_keeps (s : State) : (pulsesHold s).queueHusk = s.queueHusk := by
  unfold pulsesHold
  with_reducible repeat' first | rfl | refine keeps_ite ?_ ?_ | refine keeps_foldl ?_ ?_ | intro _ _ | refine (State.setPulse_keeps ..).trans ?_ | refine (pulseSync_keeps ..).trans ?_ | extract_lets
theorem pulsesStep_keeps (s : State) : (pulsesStep s).queueHusk = s.queueHusk := by
  unfold pulsesStep
  with_reducible repeat' first | rfl | refine keeps_ite ?_ ?_ | refine keeps_foldl ?_ ?_ | intro _ _ | refine (State.setPulse_keeps ..).trans ?_ | refine (pulseSync_keeps ..).trans ?_ | extract_lets
theorem pulseSet_keeps (s : State) (i : Nat) (r : Request) : (pulseSet s i r).queueHusk = s.queueHusk := by
  unfold pulseSet
  with_reducible repeat' first | rfl | refine keeps_ite ?_ ?_ | refine (State.setPulse_keeps ..).trans ?_ | refine (pulseSync_keeps ..).trans ?_ | refine (setReg_keeps ..).trans ?_ | refine (setRegs_keeps ..).trans ?_ | extract_lets
theorem opPulse_keeps (r : Request) (s : State) : (opPulse r s).st.queueHusk = s.queueHusk := by
  unfold opPulse
  with_reducible repeat' first | rfl | refine keeps_iteR ?_ ?_ | refine keeps_ite ?_ ?_ | refine (State.setPulse_keeps ..).trans ?_ | refine (pulseSet_keeps ..).trans ?_ | refine (pulseStop_keeps ..).trans ?_ | refine (refuse_keeps ..).trans ?_ | extract_lets
theorem pulseFix_keeps (s : State) (i : Nat) : (pulseFix s i).queueHusk = s.queueHusk := by
  unfold pulseFix
  with_reducible repeat' first | rfl | refine keeps_ite ?_ ?_ | refine keeps_iteR ?_ ?_ | refine keeps_ite1 ?_ ?_ | refine keeps_ite2 ?_ ?_ | refine keeps_foldl ?_ ?_ | refine keeps_foldl1 ?_ ?_ | refine keeps_foldl2 ?_ ?_ | refine keeps_iteO ?_ ?_ | refine keeps_some ?_ | refine keeps_none ?_ | assumption | intro _ _ | intro _ | (guard_target =~ (_ : HuskS) = _; with_unfolding_all rfl) | refine (State.cntWrap_keeps ..).trans ?_ | refine (State.raise_keeps ..).trans ?_ | refine (State.setPulse_keeps ..).trans ?_ | refine (pulseStop_keeps ..).trans ?_ | refine (pulseSync_keeps ..).trans ?_ | refine (setReg_keeps ..).trans ?_ | extract_lets | split | dsimp +zetaDelta only
theorem slewEnd_keeps (s : State) : (slewEnd s).queueHusk = s.queueHusk := by
  unfold slewEnd
  with_reducible repeat' first | rfl | refine (setRate_keeps ..).trans ?_ | refine (withNet_keeps ..).trans ?_ | extract_lets | split
theorem stepTo_keeps (s : State) (x : Int) : (stepTo s x).queueHusk = s.queueHusk := by
  unfold stepTo
  with_reducible repeat' first | rfl | refine (State.cntSat_keeps ..).trans ?_ | refine (State.raise_keeps ..).trans ?_ | refine (State.setFlag_keeps ..).trans ?_ | refine (pulsesStep_keeps ..).trans ?_ | refine (slewEnd_keeps ..).trans ?_ | refine (withNet_keeps ..).trans ?_ | extract_lets
theorem stepBy_keeps (s : State) (ns : Int) : (stepBy s ns).queueHusk = s.queueHusk := by
  unfold stepBy
  with_reducible repeat' first | rfl | refine (slewEnd_keeps ..).trans ?_ | refine (stepTo_keeps ..).trans ?_
theorem stValid_keeps (s : State) : (stValid s).queueHusk = s.queueHusk := by
  unfold stValid
  with_reducible repeat' first | rfl | refine (State.setFlag_keeps ..).trans ?_ | refine (pulsesHold_keeps ..).trans ?_
theorem timeState_keeps (s : State) (st : Nat) : (timeState s st).queueHusk = s.queueHusk := by
  unfold timeState
  with_reducible repeat' first | rfl | refine keeps_ite ?_ ?_ | refine (State.raise_keeps ..).trans ?_ | refine (State.setFld_keeps ..).trans ?_ | refine (withNet_keeps ..).trans ?_ | extract_lets
theorem opTimeSet_keeps (r : Request) (s : State) : (opTimeSet r s).st.queueHusk = s.queueHusk := by
  unfold opTimeSet
  with_reducible repeat' first | rfl | refine keeps_iteR ?_ ?_ | refine keeps_ite ?_ ?_ | refine (refuse_keeps ..).trans ?_ | refine (stValid_keeps ..).trans ?_ | refine (stepTo_keeps ..).trans ?_
theorem slewBegin_keeps (s : State) (ns : Int) : (slewBegin s ns).queueHusk = s.queueHusk := by
  unfold slewBegin
  with_reducible repeat' first | rfl | refine keeps_ite ?_ ?_ | refine (setRate_keeps ..).trans ?_ | refine (slewEnd_keeps ..).trans ?_ | refine (withNet_keeps ..).trans ?_ | extract_lets
theorem opTimeAdjust_keeps (r : Request) (s : State) : (opTimeAdjust r s).st.queueHusk = s.queueHusk := by
  unfold opTimeAdjust
  with_reducible repeat' first | rfl | refine keeps_iteR ?_ ?_ | refine keeps_ite ?_ ?_ | refine (refuse_keeps ..).trans ?_ | refine (setRate_keeps ..).trans ?_ | refine (slewBegin_keeps ..).trans ?_ | refine (stepBy_keeps ..).trans ?_ | refine (withNet_keeps ..).trans ?_ | extract_lets
theorem slewDone_keeps (s : State) : (slewDone s).queueHusk = s.queueHusk := by
  unfold slewDone
  with_reducible repeat' first | rfl | refine (State.at_keeps ..).trans ?_ | refine (slewEnd_keeps ..).trans ?_ | extract_lets | split
theorem newParent_keeps (s : State) (p : Nat) (parent : Tick) : (newParent s p parent).queueHusk = s.queueHusk := by
  unfold newParent
  with_reducible repeat' first | rfl | refine keeps_ite ?_ ?_ | refine (State.fresh_keeps ..).trans ?_ | refine (State.raise_keeps ..).trans ?_ | refine (State.setReg64_keeps ..).trans ?_ | refine (timeState_keeps ..).trans ?_ | refine (withNet_keeps ..).trans ?_ | extract_lets
theorem lockCount_keeps (s : State) (o : Int) : (lockCount s o).queueHusk = s.queueHusk := by
  unfold lockCount
  with_reducible repeat' first | rfl | refine keeps_ite ?_ ?_ | refine (timeState_keeps ..).trans ?_ | refine (withNet_keeps ..).trans ?_ | extract_lets
theorem servo_keeps (s : State) (o : Int) : (servo s o).queueHusk = s.queueHusk := by
  unfold servo
  with_reducible repeat' first | rfl | refine keeps_ite ?_ ?_ | refine (lockCount_keeps ..).trans ?_ | refine (setRate_keeps ..).trans ?_ | refine (slewEnd_keeps ..).trans ?_ | refine (stValid_keeps ..).trans ?_ | refine (stepTo_keeps ..).trans ?_ | refine (timeState_keeps ..).trans ?_ | refine (withNet_keeps ..).trans ?_ | extract_lets
theorem ptpSample_keeps (s : State) (p : Nat) (parent : Tick) (x : PtpSync) (d : PtpDelay) (utc : Word) : (ptpSample s p parent x d utc).queueHusk = s.queueHusk := by
  unfold ptpSample
  with_reducible repeat' first | rfl | refine keeps_ite ?_ ?_ | refine (State.setFld_keeps ..).trans ?_ | refine (newParent_keeps ..).trans ?_ | refine (servo_keeps ..).trans ?_ | refine (setRegs_keeps ..).trans ?_ | extract_lets
theorem holdover_keeps (s : State) : (holdover s).queueHusk = s.queueHusk := by
  unfold holdover
  with_reducible repeat' first | rfl | refine keeps_ite ?_ ?_ | refine (setRate_keeps ..).trans ?_ | refine (timeState_keeps ..).trans ?_
theorem discipline_keeps (s : State) : (discipline s).queueHusk = s.queueHusk := by
  unfold discipline
  with_reducible repeat' first | rfl | refine keeps_ite ?_ ?_ | refine (State.setFlag_keeps ..).trans ?_ | refine (setRate_keeps ..).trans ?_ | refine (withNet_keeps ..).trans ?_ | refine (withSward_keeps ..).trans ?_ | extract_lets
theorem timeCfgWrite_keeps (s : State) (w : Word) : (timeCfgWrite s w).st.queueHusk = s.queueHusk := by
  unfold timeCfgWrite
  with_reducible repeat' first | rfl | refine keeps_iteR ?_ ?_ | refine keeps_ite ?_ ?_ | refine (refuse_keeps ..).trans ?_ | refine (setReg_keeps ..).trans ?_ | refine (slewEnd_keeps ..).trans ?_ | refine (timeState_keeps ..).trans ?_ | refine (withNet_keeps ..).trans ?_ | extract_lets
theorem timeSnap_keeps (s : State) : (timeSnap s).queueHusk = s.queueHusk := by
  unfold timeSnap
  with_reducible repeat' first | rfl | refine (State.setReg64_keeps ..).trans ?_ | refine (setRegs_keeps ..).trans ?_ | extract_lets
theorem timeLost_keeps (s : State) : (timeLost s).queueHusk = s.queueHusk := by
  unfold timeLost
  with_reducible repeat' first | rfl | refine (State.setFlag_keeps ..).trans ?_ | refine (pulsesHold_keeps ..).trans ?_
theorem timeBack_keeps (s : State) : (timeBack s).queueHusk = s.queueHusk := by
  unfold timeBack
  with_reducible repeat' first | rfl | refine keeps_ite ?_ ?_ | refine (pulsesHold_keeps ..).trans ?_ | refine (timeState_keeps ..).trans ?_
theorem timeBlockWrite_keeps (s : State) (a : Nat) (w : Word) {d : Res} (hd : d.st.queueHusk = s.queueHusk) : ((timeBlockWrite s a w).getD d).st.queueHusk = s.queueHusk := by
  unfold timeBlockWrite
  with_reducible repeat' first | rfl | refine keeps_iteO ?_ ?_ | refine keeps_ite ?_ ?_ | refine keeps_iteR ?_ ?_ | refine keeps_some ?_ | refine keeps_none ?_ | assumption | refine (refuse_keeps ..).trans ?_ | refine (setReg_keeps ..).trans ?_ | refine (timeCfgWrite_keeps ..).trans ?_ | refine (timeSnap_keeps ..).trans ?_
theorem ethFilter_keeps (s : State) (p : Nat) : (ethFilter s p).queueHusk = s.queueHusk := by
  unfold ethFilter
  with_reducible repeat' first | rfl | refine (State.cntSat_keeps ..).trans ?_
theorem ptpStamp_keeps (s : State) (p : Nat) (t : Tick) (tx : Bool) : (ptpStamp s p t tx).1.queueHusk = s.queueHusk := by
  unfold ptpStamp
  with_reducible repeat' first | rfl | refine keeps_ite1 ?_ ?_ | refine keeps_ite ?_ ?_ | refine (State.raise_keeps ..).trans ?_ | refine (State.setFlag_keeps ..).trans ?_ | refine (State.setNetPort_keeps ..).trans ?_ | extract_lets
theorem ptpPut_keeps (s : State) (p kind : Nat) (stamp : Option Int) : (ptpPut s p kind stamp).queueHusk = s.queueHusk := by
  unfold ptpPut
  with_reducible repeat' first | rfl | refine keeps_ite ?_ ?_ | refine (netTx_keeps ..).trans ?_ | extract_lets
theorem ptpSend_keeps (s : State) (p kind : Nat) : (ptpSend s p kind).queueHusk = s.queueHusk := by
  unfold ptpSend
  with_reducible repeat' first | rfl | refine keeps_ite ?_ ?_ | refine (ptpPut_keeps ..).trans ?_ | refine (ptpStamp_keeps ..).trans ?_ | extract_lets | split
theorem ptpInterval_keeps (s : State) (p kind : Nat) : (ptpInterval s p kind).queueHusk = s.queueHusk := by
  unfold ptpInterval
  with_reducible repeat' first | rfl | refine keeps_ite ?_ ?_ | refine (ptpSend_keeps ..).trans ?_ | extract_lets | split
theorem ptpReceive_keeps (s : State) (p : Nat) (raw : Bool) (body : List Byte) (t : Tick) : (ptpReceive s p raw body t).queueHusk = s.queueHusk := by
  unfold ptpReceive
  with_reducible repeat' first | rfl | refine keeps_ite ?_ ?_ | refine (ethFilter_keeps ..).trans ?_ | refine (ptpPut_keeps ..).trans ?_ | refine (ptpSend_keeps ..).trans ?_ | refine (ptpStamp_keeps ..).trans ?_ | extract_lets
theorem udpReceive_keeps (s : State) (p : Nat) (src : Nat) (tag : Option Nat) (ip : Word) (sum : Nat) (body : List Byte) (t : Tick) : (udpReceive s p src tag ip sum body t).queueHusk = s.queueHusk := by
  unfold udpReceive
  with_reducible repeat' first | rfl | refine keeps_ite ?_ ?_ | refine (carrierArrive_keeps ..).trans ?_ | refine (ethFilter_keeps ..).trans ?_ | refine (ptpReceive_keeps ..).trans ?_ | refine (telCopy_keeps ..).trans ?_ | extract_lets
theorem ipReceive_keeps (s : State) (p : Nat) (src : Nat) (tag : Option Nat) (body : List Byte) (t : Tick) : (ipReceive s p src tag body t).queueHusk = s.queueHusk := by
  unfold ipReceive
  with_reducible repeat' first | rfl | refine keeps_ite ?_ ?_ | refine (ethFilter_keeps ..).trans ?_ | refine (netTx_keeps ..).trans ?_ | refine (udpReceive_keeps ..).trans ?_ | extract_lets
theorem arpReceive_keeps (s : State) (p : Nat) (src : Nat) (body : List Byte) : (arpReceive s p src body).queueHusk = s.queueHusk := by
  unfold arpReceive
  with_reducible repeat' first | rfl | refine keeps_ite ?_ ?_ | refine (netTx_keeps ..).trans ?_
theorem ethReceive_keeps (s : State) (p : Nat) (bytes : List Byte) (room : Bool) (t : Tick) : (ethReceive s p bytes room t).queueHusk = s.queueHusk := by
  unfold ethReceive
  with_reducible repeat' first | rfl | refine keeps_ite ?_ ?_ | refine (State.cntSat_keeps ..).trans ?_ | refine (State.cntWrap_keeps ..).trans ?_ | refine (State.raiseLim_keeps ..).trans ?_ | refine (State.setFlag_keeps ..).trans ?_ | refine (arpReceive_keeps ..).trans ?_ | refine (ethFilter_keeps ..).trans ?_ | refine (ipReceive_keeps ..).trans ?_ | refine (ptpReceive_keeps ..).trans ?_ | extract_lets
theorem ethLink_keeps (s : State) (p : Nat) (up slow : Bool) : (ethLink s p up slow).queueHusk = s.queueHusk := by
  unfold ethLink
  with_reducible repeat' first | rfl | refine keeps_ite ?_ ?_ | refine (State.raise_keeps ..).trans ?_ | refine (State.setFlag_keeps ..).trans ?_ | extract_lets
theorem mdioWrite_keeps (s : State) (p : Nat) (w : Word) : (mdioWrite s p w).st.queueHusk = s.queueHusk := by
  unfold mdioWrite
  with_reducible repeat' first | rfl | refine keeps_iteR ?_ ?_ | refine keeps_ite ?_ ?_ | refine (refuse_keeps ..).trans ?_ | refine (setReg_keeps ..).trans ?_ | extract_lets
theorem mdioDone_keeps (s : State) (p : Nat) (data : Nat) : (mdioDone s p data).queueHusk = s.queueHusk := by
  unfold mdioDone
  with_reducible repeat' first | rfl | refine keeps_ite ?_ ?_ | refine (State.setFlag_keeps ..).trans ?_ | refine (State.setFld_keeps ..).trans ?_ | extract_lets
theorem ethBlockWrite_keeps (s : State) (a : Nat) (w : Word) {d : Res} (hd : d.st.queueHusk = s.queueHusk) : ((ethBlockWrite s a w).getD d).st.queueHusk = s.queueHusk := by
  unfold ethBlockWrite
  with_reducible repeat' first | rfl | refine keeps_iteO ?_ ?_ | refine keeps_ite ?_ ?_ | refine keeps_iteR ?_ ?_ | refine keeps_some ?_ | refine keeps_none ?_ | assumption | refine (State.setNetPort_keeps ..).trans ?_ | refine (mdioWrite_keeps ..).trans ?_ | refine (refuse_keeps ..).trans ?_ | refine (setReg_keeps ..).trans ?_ | extract_lets
theorem netPump_keeps (s : State) : (netPump s).queueHusk = s.queueHusk := by
  unfold netPump
  with_reducible repeat' first | rfl | refine (inkPump_keeps ..).trans ?_ | refine (udpCarry_keeps ..).trans ?_
theorem State.setCanN_keeps (s : State) (n : Nat) (x : CanN) : (State.setCanN s n x).queueHusk = s.queueHusk := by
  unfold State.setCanN
  with_reducible repeat' first | rfl | refine (withCan_keeps ..).trans ?_ | extract_lets
theorem State.setCanSlotS_keeps (s : State) (n i : Nat) (x : CanSlot) : (State.setCanSlotS s n i x).queueHusk = s.queueHusk := by
  unfold State.setCanSlotS
  with_reducible repeat' first | rfl | refine (State.setCanN_keeps ..).trans ?_ | extract_lets
theorem canSlotShow_keeps (s : State) (n i : Nat) : (canSlotShow s n i).queueHusk = s.queueHusk := by
  unfold canSlotShow
  with_reducible repeat' first | rfl | refine keeps_ite ?_ ?_ | refine (State.setFld_keeps ..).trans ?_ | extract_lets | split
theorem canSlotsShow_keeps (s : State) (n : Nat) : (canSlotsShow s n).queueHusk = s.queueHusk := by
  unfold canSlotsShow
  with_reducible repeat' first | rfl | refine keeps_foldl ?_ ?_ | intro _ _ | refine (canSlotShow_keeps ..).trans ?_
theorem canOutcome_keeps (s : State) (n i : Nat) (m : CanMsg) (code : Nat) (cancelled : Bool) : (canOutcome s n i m code cancelled).queueHusk = s.queueHusk := by
  unfold canOutcome
  with_reducible repeat' first | rfl | refine keeps_ite ?_ ?_ | refine (State.raise_keeps ..).trans ?_
theorem canFree_keeps (s : State) (n i : Nat) : (canFree s n i).queueHusk = s.queueHusk := by
  unfold canFree
  with_reducible repeat' first | rfl | refine (State.setCanSlotS_keeps ..).trans ?_ | refine (State.setFlag_keeps ..).trans ?_ | refine (canSlotShow_keeps ..).trans ?_ | extract_lets
theorem canCounters_keeps (s : State) (n tec rec_ : Nat) : (canCounters s n tec rec_).queueHusk = s.queueHusk := by
  unfold canCounters
  with_reducible repeat' first | rfl | refine keeps_ite ?_ ?_ | refine (State.raise_keeps ..).trans ?_ | refine (State.setCanN_keeps ..).trans ?_ | refine (State.setFld_keeps ..).trans ?_ | refine (canSlotsShow_keeps ..).trans ?_ | extract_lets
theorem canBusError_keeps (s : State) (n : Nat) (heavy : Bool) : (canBusError s n heavy).queueHusk = s.queueHusk := by
  unfold canBusError
  with_reducible repeat' first | rfl | refine keeps_ite ?_ ?_ | refine (State.cntSat_keeps ..).trans ?_ | refine (canCounters_keeps ..).trans ?_
theorem canRxGood_keeps (s : State) (n : Nat) : (canRxGood s n).queueHusk = s.queueHusk := by
  unfold canRxGood
  with_reducible repeat' first | rfl | refine keeps_ite ?_ ?_ | refine (State.fresh_keeps ..).trans ?_ | refine (canCounters_keeps ..).trans ?_ | extract_lets
theorem canSetMode_keeps (s : State) (n m : Nat) : (canSetMode s n m).queueHusk = s.queueHusk := by
  unfold canSetMode
  with_reducible repeat' first | rfl | refine keeps_ite ?_ ?_ | refine (State.raise_keeps ..).trans ?_ | refine (State.setCanN_keeps ..).trans ?_ | refine (State.setFld_keeps ..).trans ?_ | refine (canSlotsShow_keeps ..).trans ?_ | extract_lets
theorem canFrameEnd_keeps (s : State) (n : Nat) : (canFrameEnd s n).queueHusk = s.queueHusk := by
  unfold canFrameEnd
  with_reducible repeat' first | rfl | refine keeps_ite ?_ ?_ | refine (canSetMode_keeps ..).trans ?_
theorem canCtrlWrite_keeps (s : State) (n : Nat) (w : Word) : (canCtrlWrite s n w).st.queueHusk = s.queueHusk := by
  unfold canCtrlWrite
  with_reducible repeat' first | rfl | refine keeps_iteR ?_ ?_ | refine keeps_ite ?_ ?_ | refine (State.setCanN_keeps ..).trans ?_ | refine (canSetMode_keeps ..).trans ?_ | refine (refuse_keeps ..).trans ?_ | refine (setReg_keeps ..).trans ?_ | extract_lets
theorem canRecovered_keeps (s : State) (n : Nat) : (canRecovered s n).queueHusk = s.queueHusk := by
  unfold canRecovered
  with_reducible repeat' first | rfl | refine keeps_ite ?_ ?_ | refine (canCounters_keeps ..).trans ?_
theorem canDominant_keeps (s : State) (n : Nat) (own : Bool) : (canDominant s n own).queueHusk = s.queueHusk := by
  unfold canDominant
  with_reducible repeat' first | rfl | refine keeps_ite ?_ ?_ | refine (State.raise_keeps ..).trans ?_ | refine (State.setFlag_keeps ..).trans ?_ | refine (canCounters_keeps ..).trans ?_
theorem opCanTx_keeps (r : Request) (s : State) : (opCanTx r s).st.queueHusk = s.queueHusk := by
  unfold opCanTx
  with_reducible repeat' first | rfl | refine keeps_iteR ?_ ?_ | refine keeps_ite ?_ ?_ | refine (State.setCanSlotS_keeps ..).trans ?_ | refine (canSlotShow_keeps ..).trans ?_ | refine (refuse_keeps ..).trans ?_ | extract_lets | split
theorem opCanCancel_keeps (r : Request) (s : State) : (opCanCancel r s).st.queueHusk = s.queueHusk := by
  unfold opCanCancel
  with_reducible repeat' first | rfl | refine keeps_iteR ?_ ?_ | refine keeps_ite ?_ ?_ | refine (State.setCanSlotS_keeps ..).trans ?_ | refine (State.setFlag_keeps ..).trans ?_ | refine (canFree_keeps ..).trans ?_ | refine (canOutcome_keeps ..).trans ?_ | refine (refuse_keeps ..).trans ?_ | extract_lets | split
theorem canTxStart_keeps (s : State) (n : Nat) (t : Tick) : (canTxStart s n t).queueHusk = s.queueHusk := by
  unfold canTxStart
  with_reducible repeat' first | rfl | refine keeps_ite ?_ ?_ | refine (State.setCanN_keeps ..).trans ?_ | refine (State.setFlag_keeps ..).trans ?_ | refine (canSlotShow_keeps ..).trans ?_ | extract_lets | split
theorem canTdcStep_keeps (s : State) (n : Nat) (m : CanMsg) (tdc : List Nat) : (canTdcStep s n m tdc).1.queueHusk = s.queueHusk := by
  unfold canTdcStep
  with_reducible repeat' first | rfl | refine keeps_ite1 ?_ ?_ | refine keeps_ite ?_ ?_ | refine (State.raise_keeps ..).trans ?_ | refine (State.setFlag_keeps ..).trans ?_ | refine (State.setFld_keeps ..).trans ?_ | extract_lets | split
theorem canSlotEnd_keeps (s : State) (n i : Nat) (m : CanMsg) (ok : Bool) : (canSlotEnd s n i m ok).queueHusk = s.queueHusk := by
  unfold canSlotEnd
  with_reducible repeat' first | rfl | refine keeps_ite ?_ ?_ | refine (State.setFlag_keeps ..).trans ?_ | refine (canFree_keeps ..).trans ?_ | refine (canOutcome_keeps ..).trans ?_ | refine (canSlotShow_keeps ..).trans ?_ | extract_lets
theorem canAttemptOver_keeps (s : State) (n i res : Nat) : (canAttemptOver s n i res).queueHusk = s.queueHusk := by
  unfold canAttemptOver
  with_reducible repeat' first | rfl | refine (State.setCanN_keeps ..).trans ?_ | extract_lets
theorem canTxDone_keeps (s : State) (n res : Nat) (tdc : List Nat) : (canTxDone s n res tdc).queueHusk = s.queueHusk := by
  unfold canTxDone
  with_reducible repeat' first | rfl | refine keeps_ite ?_ ?_ | refine (State.cntSat_keeps ..).trans ?_ | refine (canAttemptOver_keeps ..).trans ?_ | refine (canCounters_keeps ..).trans ?_ | refine (canFrameEnd_keeps ..).trans ?_ | refine (canSlotEnd_keeps ..).trans ?_ | refine (canTdcStep_keeps ..).trans ?_ | refine (ringDrop_keeps ..).trans ?_ | refine (withCan_keeps ..).trans ?_ | extract_lets | split
theorem opCanSchedule_keeps (r : Request) (s : State) : (opCanSchedule r s).st.queueHusk = s.queueHusk := by
  unfold opCanSchedule
  with_reducible repeat' first | rfl | refine keeps_iteR ?_ ?_ | refine keeps_ite ?_ ?_ | refine (State.setCanN_keeps ..).trans ?_ | refine (State.setFlag_keeps ..).trans ?_ | refine (State.setFld_keeps ..).trans ?_ | refine (canSlotsShow_keeps ..).trans ?_ | refine (refuse_keeps ..).trans ?_ | extract_lets | split
theorem canCycle_keeps (s : State) (n c : Nat) (t : Tick) (ref : Bool) : (canCycle s n c t ref).queueHusk = s.queueHusk := by
  unfold canCycle
  with_reducible repeat' first | rfl | refine (State.setCanN_keeps ..).trans ?_ | refine (State.setFld_keeps ..).trans ?_ | extract_lets
theorem canCycleStart_keeps (s : State) (n : Nat) (t : Tick) : (canCycleStart s n t).queueHusk = s.queueHusk := by
  unfold canCycleStart
  with_reducible repeat' first | rfl | refine keeps_ite ?_ ?_ | refine (canCycle_keeps ..).trans ?_ | refine (canTxStart_keeps ..).trans ?_ | extract_lets
theorem canSync_keeps (s : State) (n : Nat) (on : Bool) : (canSync s n on).queueHusk = s.queueHusk := by
  unfold canSync
  with_reducible repeat' first | rfl | refine keeps_ite ?_ ?_ | refine (State.raise_keeps ..).trans ?_ | refine (State.setFlag_keeps ..).trans ?_
theorem canReference_keeps (s : State) (n cnt : Nat) (t : Tick) : (canReference s n cnt t).queueHusk = s.queueHusk := by
  unfold canReference
  with_reducible repeat' first | rfl | refine keeps_ite ?_ ?_ | refine (canCycle_keeps ..).trans ?_ | refine (canSync_keeps ..).trans ?_ | extract_lets
theorem canRefTimeout_keeps (s : State) (n : Nat) : (canRefTimeout s n).queueHusk = s.queueHusk := by
  unfold canRefTimeout
  with_reducible repeat' first | rfl | refine keeps_ite ?_ ?_ | refine (State.at_keeps ..).trans ?_ | refine (State.setCanN_keeps ..).trans ?_ | refine (canSync_keeps ..).trans ?_ | extract_lets
theorem canWinStart_keeps (s : State) (n w : Nat) : (canWinStart s n w).queueHusk = s.queueHusk := by
  unfold canWinStart
  with_reducible repeat' first | rfl | refine keeps_ite ?_ ?_ | refine (State.at_keeps ..).trans ?_ | refine (State.setCanN_keeps ..).trans ?_ | refine (State.setCanSlotS_keeps ..).trans ?_ | extract_lets
theorem canWinEnd_keeps (s : State) (n w : Nat) : (canWinEnd s n w).queueHusk = s.queueHusk := by
  unfold canWinEnd
  with_reducible repeat' first | rfl | refine keeps_ite ?_ ?_ | refine (State.at_keeps ..).trans ?_ | refine (State.cntSat_keeps ..).trans ?_ | refine (State.raiseLim_keeps ..).trans ?_ | refine (State.setCanN_keeps ..).trans ?_ | refine (canOutcome_keeps ..).trans ?_ | extract_lets | split
theorem canReceive_keeps (s : State) (n : Nat) (ide fdf brs esi rtr : Bool) (id dlc : Nat) (data : List Byte) (t : Tick) : (canReceive s n ide fdf brs esi rtr id dlc data t).queueHusk = s.queueHusk := by
  unfold canReceive
  with_reducible repeat' first | rfl | refine keeps_ite ?_ ?_ | refine (State.cntSat_keeps ..).trans ?_ | refine (State.cntWrap_keeps ..).trans ?_ | refine (State.setFlag_keeps ..).trans ?_ | refine (canFrameEnd_keeps ..).trans ?_ | refine (canReference_keeps ..).trans ?_ | refine (canRxGood_keeps ..).trans ?_ | refine (carrierArrive_keeps ..).trans ?_ | refine (ringPut_keeps ..).trans ?_ | extract_lets | split
theorem canWake_keeps (s : State) (n : Nat) (sel : Bool) : (canWake s n sel).queueHusk = s.queueHusk := by
  unfold canWake
  with_reducible repeat' first | rfl | refine keeps_ite ?_ ?_ | refine (State.raise_keeps ..).trans ?_ | refine (State.setFld_keeps ..).trans ?_ | refine (canSetMode_keeps ..).trans ?_ | extract_lets
theorem canReset_keeps (s : State) (n : Nat) : (canReset s n).queueHusk = s.queueHusk := by
  unfold canReset
  with_reducible repeat' first | rfl | refine keeps_foldl ?_ ?_ | intro _ _ | refine (canOutcome_keeps ..).trans ?_ | refine (ringClear_keeps ..).trans ?_ | refine (withCan_keeps ..).trans ?_ | refine (withRegs_keeps ..).trans ?_ | extract_lets | split
theorem canBlockWrite_keeps (s : State) (a : Nat) (w : Word) {d : Res} (hd : d.st.queueHusk = s.queueHusk) : ((canBlockWrite s a w).getD d).st.queueHusk = s.queueHusk := by
  unfold canBlockWrite
  with_reducible repeat' first | rfl | refine keeps_iteO ?_ ?_ | refine keeps_ite ?_ ?_ | refine keeps_iteR ?_ ?_ | refine keeps_some ?_ | refine keeps_none ?_ | assumption | refine (canCtrlWrite_keeps ..).trans ?_ | refine (canSlotsShow_keeps ..).trans ?_ | refine (refuse_keeps ..).trans ?_ | refine (writeNow_keeps ..).trans ?_ | extract_lets | split
theorem swDrop_keeps (s : State) (p cls reason : Nat) : (swDrop s p cls reason).queueHusk = s.queueHusk := by
  unfold swDrop
  with_reducible repeat' first | rfl | refine (State.cntSat_keeps ..).trans ?_ | refine (State.raiseLim_keeps ..).trans ?_ | extract_lets | split
theorem swUpstream_keeps (s : State) : (swUpstream s).queueHusk = s.queueHusk := by
  unfold swUpstream
  with_reducible repeat' first | rfl | refine keeps_ite ?_ ?_ | refine keeps_iteR ?_ ?_ | refine keeps_ite1 ?_ ?_ | refine keeps_ite2 ?_ ?_ | refine keeps_foldl ?_ ?_ | refine keeps_foldl1 ?_ ?_ | refine keeps_foldl2 ?_ ?_ | refine keeps_iteO ?_ ?_ | refine keeps_some ?_ | refine keeps_none ?_ | assumption | intro _ _ | intro _ | (guard_target =~ (_ : HuskS) = _; with_unfolding_all rfl) | refine (State.setFld_keeps ..).trans ?_ | extract_lets | split | dsimp +zetaDelta only
theorem swOwe_keeps (s : State) (p : Nat) (f : SwFrame) : (swOwe s p f).queueHusk = s.queueHusk := by
  unfold swOwe
  with_reducible repeat' first | rfl | refine keeps_ite ?_ ?_ | refine (State.setSwPort_keeps ..).trans ?_ | extract_lets
theorem swSetState_keeps (s : State) (p st : Nat) : (swSetState s p st).queueHusk = s.queueHusk := by
  unfold swSetState
  with_reducible repeat' first | rfl | refine keeps_ite ?_ ?_ | refine (State.raise_keeps ..).trans ?_ | refine (State.setFld_keeps ..).trans ?_ | refine (swUpstream_keeps ..).trans ?_
theorem swDown_keeps (s : State) (p : Nat) : (swDown s p).queueHusk = s.queueHusk := by
  unfold swDown
  with_reducible repeat' first | rfl | refine keeps_foldl ?_ ?_ | intro _ _ | refine (State.cntSat_keeps ..).trans ?_ | refine (State.setSwPort_keeps ..).trans ?_ | refine (setReg_keeps ..).trans ?_ | refine (swOwe_keeps ..).trans ?_ | refine (swSetState_keeps ..).trans ?_ | extract_lets | split
theorem swUp_keeps (s : State) (p : Nat) : (swUp s p).queueHusk = s.queueHusk := by
  unfold swUp
  with_reducible repeat' first | rfl | refine keeps_ite ?_ ?_ | refine (State.setSwPort_keeps ..).trans ?_ | refine (swSetState_keeps ..).trans ?_ | extract_lets
theorem swHello_keeps (s : State) (p addr nport hops c2 c3 : Nat) : (swHello s p addr nport hops c2 c3).queueHusk = s.queueHusk := by
  unfold swHello
  with_reducible repeat' first | rfl | refine keeps_ite ?_ ?_ | refine (State.raise_keeps ..).trans ?_ | refine (State.setFld_keeps ..).trans ?_ | refine (State.setSwPort_keeps ..).trans ?_ | refine (swUp_keeps ..).trans ?_ | refine (swUpstream_keeps ..).trans ?_ | extract_lets
theorem swSent_keeps (s : State) (p : Nat) (f : SwFrame) : (swSent s p f).queueHusk = s.queueHusk := by
  unfold swSent
  with_reducible repeat' first | rfl | refine (withSward_keeps ..).trans ?_ | extract_lets
theorem swTrained_keeps (s : State) (p : Nat) : (swTrained s p).queueHusk = s.queueHusk := by
  unfold swTrained
  with_reducible repeat' first | rfl | refine keeps_ite ?_ ?_ | refine (State.setSwPort_keeps ..).trans ?_ | refine (swSent_keeps ..).trans ?_ | refine (swUp_keeps ..).trans ?_ | extract_lets
theorem swLeaveGot_keeps (s : State) (p : Nat) : (swLeaveGot s p).queueHusk = s.queueHusk := by
  unfold swLeaveGot
  with_reducible repeat' first | rfl | refine keeps_ite ?_ ?_ | refine (State.setSwPort_keeps ..).trans ?_ | extract_lets
theorem swErrors_keeps (s : State) (p n : Nat) : (swErrors s p n).queueHusk = s.queueHusk := by
  unfold swErrors
  with_reducible repeat' first | rfl | refine keeps_ite ?_ ?_ | refine (State.raiseLim_keeps ..).trans ?_ | refine (State.setFld_keeps ..).trans ?_ | refine (State.setSwPort_keeps ..).trans ?_ | refine (swDown_keeps ..).trans ?_ | extract_lets
theorem swWriteTable_keeps (s : State) (t : List (Nat × Nat × Nat)) : (swWriteTable s t).queueHusk = s.queueHusk := by
  unfold swWriteTable
  with_reducible repeat' first | rfl | refine keeps_foldl ?_ ?_ | intro _ _ | refine (setReg_keeps ..).trans ?_ | refine (withRegs_keeps ..).trans ?_ | extract_lets
theorem opSwardRoute_keeps (r : Request) (s : State) : (opSwardRoute r s).st.queueHusk = s.queueHusk := by
  unfold opSwardRoute
  with_reducible repeat' first | rfl | refine keeps_iteR ?_ ?_ | refine keeps_ite ?_ ?_ | refine (State.setFld_keeps ..).trans ?_ | refine (refuse_keeps ..).trans ?_ | refine (withSward_keeps ..).trans ?_ | extract_lets
theorem swPutTx_keeps (s : State) (x : SwTx) : (swPutTx s x).queueHusk = s.queueHusk := by
  unfold swPutTx
  with_reducible repeat' first | rfl | refine (withSward_keeps ..).trans ?_ | extract_lets
theorem swPutRx_keeps (s : State) (x : SwRx) : (swPutRx s x).queueHusk = s.queueHusk := by
  unfold swPutRx
  with_reducible repeat' first | rfl | refine (withSward_keeps ..).trans ?_ | extract_lets
theorem swOut_keeps (s : State) (p : Nat) (f : SwFrame) (pinned : Bool) : (swOut s p f pinned).queueHusk = s.queueHusk := by
  unfold swOut
  with_reducible repeat' first | rfl | refine (swQueue_keeps ..).trans ?_
theorem swStream_keeps (s : State) (f : SwFrame) (pin : Option Nat) : (swStream s f pin).queueHusk = s.queueHusk := by
  unfold swStream
  with_reducible repeat' first | rfl | refine keeps_ite ?_ ?_ | refine keeps_iteR ?_ ?_ | refine keeps_ite1 ?_ ?_ | refine keeps_ite2 ?_ ?_ | refine keeps_foldl ?_ ?_ | refine keeps_foldl1 ?_ ?_ | refine keeps_foldl2 ?_ ?_ | refine keeps_iteO ?_ ?_ | refine keeps_some ?_ | refine keeps_none ?_ | assumption | intro _ _ | intro _ | (guard_target =~ (_ : HuskS) = _; with_unfolding_all rfl) | refine (swDrop_keeps ..).trans ?_ | refine (swOut_keeps ..).trans ?_ | refine (swPutTx_keeps ..).trans ?_ | extract_lets | split | dsimp +zetaDelta only
theorem swSend_keeps (s : State) (f : SwFrame) : (swSend s f).queueHusk = s.queueHusk := by
  unfold swSend
  with_reducible repeat' first | rfl | refine keeps_ite ?_ ?_ | refine keeps_foldl ?_ ?_ | intro _ _ | refine (swDrop_keeps ..).trans ?_ | refine (swOut_keeps ..).trans ?_ | extract_lets | split
theorem swAcked_keeps (s : State) (peer cls ack : Nat) : (swAcked s peer cls ack).queueHusk = s.queueHusk := by
  unfold swAcked
  with_reducible repeat' first | rfl | refine keeps_ite ?_ ?_ | refine (swPutTx_keeps ..).trans ?_ | extract_lets | split
theorem swResend_keeps (s : State) (peer cls : Nat) : (swResend s peer cls).queueHusk = s.queueHusk := by
  unfold swResend
  with_reducible repeat' first | rfl | refine keeps_ite ?_ ?_ | refine keeps_iteR ?_ ?_ | refine keeps_ite1 ?_ ?_ | refine keeps_ite2 ?_ ?_ | refine keeps_foldl ?_ ?_ | refine keeps_foldl1 ?_ ?_ | refine keeps_foldl2 ?_ ?_ | refine keeps_iteO ?_ ?_ | refine keeps_some ?_ | refine keeps_none ?_ | assumption | intro _ _ | intro _ | (guard_target =~ (_ : HuskS) = _; with_unfolding_all rfl) | refine (State.at_keeps ..).trans ?_ | refine (State.raise_keeps ..).trans ?_ | refine (swOut_keeps ..).trans ?_ | refine (swPutTx_keeps ..).trans ?_ | refine (withSward_keeps ..).trans ?_ | extract_lets | split | dsimp +zetaDelta only
theorem swAckSend_keeps (s : State) (peer cls : Nat) : (swAckSend s peer cls).queueHusk = s.queueHusk := by
  unfold swAckSend
  with_reducible repeat' first | rfl | refine keeps_ite ?_ ?_ | refine (swOut_keeps ..).trans ?_ | refine (swPutRx_keeps ..).trans ?_ | extract_lets | split
theorem swForget_keeps (s : State) (peer cls : Nat) (rx : Bool) : (swForget s peer cls rx).queueHusk = s.queueHusk := by
  unfold swForget
  with_reducible repeat' first | rfl | refine keeps_ite ?_ ?_ | refine (State.at_keeps ..).trans ?_ | refine (withSward_keeps ..).trans ?_ | extract_lets | split
theorem ftLock_keeps (s : State) (on : Bool) : (ftLock s on).queueHusk = s.queueHusk := by
  unfold ftLock
  with_reducible repeat' first | rfl | refine keeps_ite ?_ ?_ | refine (State.raise_keeps ..).trans ?_ | refine (State.setFlag_keeps ..).trans ?_
theorem ftMark_keeps (s : State) (p e late : Nat) (t : Tick) : (ftMark s p e late t).queueHusk = s.queueHusk := by
  unfold ftMark
  with_reducible repeat' first | rfl | refine keeps_ite ?_ ?_ | refine (State.setFld_keeps ..).trans ?_ | refine (ftLock_keeps ..).trans ?_ | refine (withSward_keeps ..).trans ?_ | extract_lets
theorem epochSeen_keeps (s : State) (p : Nat) : (epochSeen s p).queueHusk = s.queueHusk := by
  unfold epochSeen
  with_reducible repeat' first | rfl | refine keeps_ite ?_ ?_ | refine (withClk_keeps ..).trans ?_ | extract_lets
theorem eventFrame_keeps (s : State) (ev : Nat) (ft : Tick) : (eventFrame s ev ft).queueHusk = s.queueHusk := by
  unfold eventFrame
  with_reducible repeat' first | rfl | refine keeps_ite ?_ ?_ | refine keeps_foldl ?_ ?_ | intro _ _ | refine (State.raise_keeps ..).trans ?_ | refine (latchInstant_keeps ..).trans ?_
theorem evForward_keeps (s : State) (ev : Nat) (dt : Tick) : (evForward s ev dt).queueHusk = s.queueHusk := by
  unfold evForward
  with_reducible repeat' first | rfl | refine keeps_ite ?_ ?_ | refine keeps_foldl ?_ ?_ | intro _ _ | refine (eventFrame_keeps ..).trans ?_ | refine (swSend_keeps ..).trans ?_ | extract_lets | split
theorem hrxPut_keeps (s : State) (f : SwFrame) : (hrxPut s f).1.queueHusk = s.queueHusk := by
  unfold hrxPut
  with_reducible repeat' first | rfl | refine keeps_ite1 ?_ ?_ | refine keeps_ite ?_ ?_ | refine keeps_foldl ?_ ?_ | intro _ _ | refine (State.cntSat_keeps ..).trans ?_ | refine (State.setFld_keeps ..).trans ?_ | refine (withSward_keeps ..).trans ?_ | extract_lets
theorem hrxTailWrite_keeps (s : State) (w : Word) : (hrxTailWrite s w).st.queueHusk = s.queueHusk := by
  unfold hrxTailWrite
  with_reducible repeat' first | rfl | refine (refuse_keeps ..).trans ?_ | refine (setReg_keeps ..).trans ?_ | refine (withSward_keeps ..).trans ?_ | extract_lets | split
theorem swDeliver_keeps (s : State) (p : Nat) (f : SwFrame) (t : Tick) : (swDeliver s p f t).1.queueHusk = s.queueHusk := by
  unfold swDeliver
  with_reducible repeat' first | rfl | refine keeps_ite1 ?_ ?_ | refine keeps_ite ?_ ?_ | refine (carrierArrive_keeps ..).trans ?_ | refine (eventFrame_keeps ..).trans ?_ | refine (hrxPut_keeps ..).trans ?_ | refine (swAcked_keeps ..).trans ?_ | refine (telCopy_keeps ..).trans ?_ | refine (withSward_keeps ..).trans ?_ | extract_lets | split
theorem swHere_keeps (s : State) (p : Nat) (f : SwFrame) (t : Tick) : (swHere s p f t).queueHusk = s.queueHusk := by
  unfold swHere
  with_reducible repeat' first | rfl | refine keeps_ite ?_ ?_ | refine (swAcked_keeps ..).trans ?_ | refine (swDeliver_keeps ..).trans ?_ | refine (swPutRx_keeps ..).trans ?_ | extract_lets | split
theorem swForward_keeps (s : State) (p : Nat) (f : SwFrame) (t : Tick) : (swForward s p f t).queueHusk = s.queueHusk := by
  unfold swForward
  with_reducible repeat' first | rfl | refine keeps_ite ?_ ?_ | refine keeps_foldl ?_ ?_ | intro _ _ | refine (swDrop_keeps ..).trans ?_ | refine (swHere_keeps ..).trans ?_ | refine (swOwe_keeps ..).trans ?_ | refine (swQueue_keeps ..).trans ?_ | extract_lets | split
theorem swReceive_keeps (s : State) (p : Nat) (ws : List Word) (abort : Bool) (t : Tick) : (swReceive s p ws abort t).queueHusk = s.queueHusk := by
  unfold swReceive
  with_reducible repeat' first | rfl | refine keeps_ite ?_ ?_ | refine (State.cntSat_keeps ..).trans ?_ | refine (State.cntWrap_keeps ..).trans ?_ | refine (swDrop_keeps ..).trans ?_ | refine (swForward_keeps ..).trans ?_ | refine (swHere_keeps ..).trans ?_ | refine (swOwe_keeps ..).trans ?_ | refine (withSward_keeps ..).trans ?_ | extract_lets
theorem swWaitDrop_keeps (s : State) (p : Nat) : (swWaitDrop s p).queueHusk = s.queueHusk := by
  unfold swWaitDrop
  with_reducible repeat' first | rfl | refine keeps_foldl ?_ ?_ | intro _ _ | refine (State.setSwPort_keeps ..).trans ?_ | refine (swDrop_keeps ..).trans ?_ | extract_lets
theorem swPullReplies_keeps (n : Nat) (s : State) : (swPullReplies n s).queueHusk = s.queueHusk := by
  induction n generalizing s with
  | zero => rfl
  | succ m ih =>
    unfold swPullReplies
    repeat' first | with_reducible rfl | with_reducible refine keeps_ite ?_ ?_ | (with_reducible refine (ih _).trans ?_) | (with_reducible refine (swStream_keeps ..).trans ?_) | (with_reducible refine (ringDrop_keeps ..).trans ?_) | extract_lets | split
theorem swPullHost_keeps (s : State) (p c : Nat) : (swPullHost s p c).queueHusk = s.queueHusk := by
  unfold swPullHost
  with_reducible repeat' first | rfl | refine keeps_ite ?_ ?_ | refine (ringDrop_keeps ..).trans ?_ | refine (swDrop_keeps ..).trans ?_ | refine (swOut_keeps ..).trans ?_ | refine (swStream_keeps ..).trans ?_ | extract_lets | split
theorem swPullInk_keeps (n : Nat) (s : State) : (swPullInk n s).queueHusk = s.queueHusk := by
  induction n generalizing s with
  | zero => rfl
  | succ m ih =>
    unfold swPullInk
    repeat' first | with_reducible rfl | with_reducible refine keeps_ite ?_ ?_ | (with_reducible refine (ih _).trans ?_) | (with_reducible refine (swDrop_keeps ..).trans ?_) | (with_reducible refine (ringStore_keeps ..).trans ?_) | (with_reducible refine (withInk_keeps ..).trans ?_) | extract_lets | split
theorem swPull_keeps (s : State) (p : Nat) : (swPull s p).queueHusk = s.queueHusk := by
  unfold swPull
  with_reducible repeat' first | rfl | refine keeps_foldl ?_ ?_ | intro _ _ | refine (inkPump_keeps ..).trans ?_ | refine (swPullHost_keeps ..).trans ?_ | refine (swPullInk_keeps ..).trans ?_ | refine (swPullReplies_keeps ..).trans ?_ | extract_lets
theorem swFillTokens_keeps (s : State) (p : Nat) : (swFillTokens s p).queueHusk = s.queueHusk := by
  unfold swFillTokens
  with_reducible repeat' first | rfl | refine (State.setSwPort_keeps ..).trans ?_ | extract_lets
theorem swFillAck_keeps (s : State) (f : SwFrame) : (swFillAck s f).1.queueHusk = s.queueHusk := by
  unfold swFillAck
  with_reducible repeat' first | rfl | refine keeps_ite1 ?_ ?_ | refine keeps_ite ?_ ?_ | refine (swPutRx_keeps ..).trans ?_ | extract_lets | split
theorem swTransmit_keeps (s : State) (p : Nat) : (swTransmit s p).queueHusk = s.queueHusk := by
  unfold swTransmit
  refine keeps_ite rfl ?_
  extract_lets s1
  have h1 : s1.queueHusk = s.queueHusk := (swFillTokens_keeps ..).trans ((swWaitDrop_keeps ..).trans (keeps_ite (swPull_keeps ..) rfl))
  split
  · exact h1
  · split
    · exact h1
    · extract_lets s2 s3 a s4
      have h2 : s2.queueHusk = s.queueHusk := (State.setSwPort_keeps ..).trans h1
      have h3 : s3.queueHusk = s.queueHusk := keeps_ite h2 ((State.setFld_keeps ..).trans h2)
      have h4 : s4.queueHusk = s.queueHusk := (swSent_keeps ..).trans ((swFillAck_keeps ..).trans h3)
      split
      · exact (swOwe_keeps ..).trans h4
      · exact h4
theorem swCredit_keeps (s : State) (p cls k : Nat) : (swCredit s p cls k).queueHusk = s.queueHusk := by
  unfold swCredit
  with_reducible repeat' first | rfl | refine keeps_ite ?_ ?_ | refine (State.setFld_keeps ..).trans ?_
theorem swSet_keeps (s : State) (p : Nat) (x : SwSet) : (swSet s p x).queueHusk = s.queueHusk := by
  unfold swSet
  with_reducible repeat' first | rfl | refine (withSward_keeps ..).trans ?_ | extract_lets
theorem swCredSend_keeps (s : State) (p : Nat) : (swCredSend s p).queueHusk = s.queueHusk := by
  unfold swCredSend
  with_reducible repeat' first | rfl | refine keeps_ite ?_ ?_ | refine keeps_foldl ?_ ?_ | intro _ _ | refine (State.setSwPort_keeps ..).trans ?_ | refine (swSet_keeps ..).trans ?_ | extract_lets
theorem dreqSend_keeps (s : State) (p : Nat) (t : Tick) : (dreqSend s p t).queueHusk = s.queueHusk := by
  unfold dreqSend
  with_reducible repeat' first | rfl | refine keeps_ite ?_ ?_ | refine (State.setSwPort_keeps ..).trans ?_ | refine (swSet_keeps ..).trans ?_ | extract_lets
theorem dreqAnswer_keeps (s : State) (p tag : Nat) (arr t : Tick) : (dreqAnswer s p tag arr t).queueHusk = s.queueHusk := by
  unfold dreqAnswer
  with_reducible repeat' first | rfl | refine keeps_ite ?_ ?_ | refine (swSet_keeps ..).trans ?_
theorem drspTake_keeps (s : State) (p tag turn : Nat) (t : Tick) : (drspTake s p tag turn t).queueHusk = s.queueHusk := by
  unfold drspTake
  with_reducible repeat' first | rfl | refine keeps_ite ?_ ?_ | refine keeps_foldl ?_ ?_ | intro _ _ | refine (State.setSwPort_keeps ..).trans ?_ | refine (setReg_keeps ..).trans ?_ | extract_lets | split
theorem swRequeue_keeps (s : State) (p : Nat) : (swRequeue s p).queueHusk = s.queueHusk := by
  unfold swRequeue
  with_reducible repeat' first | rfl | refine keeps_foldl ?_ ?_ | intro _ _ | refine (State.setSwPort_keeps ..).trans ?_ | refine (swDrop_keeps ..).trans ?_ | refine (swOwe_keeps ..).trans ?_ | extract_lets | split
theorem swResApply_keeps (s : State) (p : Nat) : (swResApply s p).queueHusk = s.queueHusk := by
  unfold swResApply
  with_reducible repeat' first | rfl | refine keeps_foldl ?_ ?_ | intro _ _ | refine (State.setFrc_keeps ..).trans ?_ | refine (swFillTokens_keeps ..).trans ?_
theorem swReplies_keeps (s : State) : (swReplies s).queueHusk = s.queueHusk := by
  unfold swReplies
  with_reducible repeat' first | rfl | refine keeps_foldl ?_ ?_ | intro _ _ | refine (heldAnswer_keeps ..).trans ?_ | refine (withSward_keeps ..).trans ?_ | extract_lets
theorem swEpoch_keeps (s : State) (t : Tick) : (swEpoch s t).queueHusk = s.queueHusk := by
  unfold swEpoch
  with_reducible repeat' first | rfl | refine keeps_ite ?_ ?_ | refine keeps_foldl ?_ ?_ | intro _ _ | refine (State.raise_keeps ..).trans ?_ | refine (State.setFld_keeps ..).trans ?_ | refine (State.setSwPort_keeps ..).trans ?_ | refine (ftLock_keeps ..).trans ?_ | refine (setReg_keeps ..).trans ?_ | refine (swDown_keeps ..).trans ?_ | refine (swReplies_keeps ..).trans ?_ | refine (swRequeue_keeps ..).trans ?_ | refine (swResApply_keeps ..).trans ?_ | refine (swSet_keeps ..).trans ?_ | refine (swWriteTable_keeps ..).trans ?_ | refine (withSward_keeps ..).trans ?_ | extract_lets
theorem opSwardJoin_keeps (r : Request) (s : State) : (opSwardJoin r s).st.queueHusk = s.queueHusk := by
  unfold opSwardJoin
  with_reducible repeat' first | rfl | refine keeps_iteR ?_ ?_ | refine keeps_ite ?_ ?_ | refine (refuse_keeps ..).trans ?_ | refine (swSetState_keeps ..).trans ?_ | extract_lets
theorem opSwardLeave_keeps (r : Request) (s : State) : (opSwardLeave r s).st.queueHusk = s.queueHusk := by
  unfold opSwardLeave
  with_reducible repeat' first | rfl | refine keeps_iteR ?_ ?_ | refine keeps_ite ?_ ?_ | refine (refuse_keeps ..).trans ?_ | refine (swDown_keeps ..).trans ?_ | refine (swSent_keeps ..).trans ?_ | refine (swSetState_keeps ..).trans ?_ | extract_lets
theorem swSetRoot_keeps (s : State) (on : Bool) : (swSetRoot s on).queueHusk = s.queueHusk := by
  unfold swSetRoot
  with_reducible repeat' first | rfl | refine keeps_ite ?_ ?_ | refine (State.setFlag_keeps ..).trans ?_ | refine (swUpstream_keeps ..).trans ?_ | refine (withSward_keeps ..).trans ?_ | extract_lets
theorem swNodeWrite_keeps (s : State) (w : Word) : (swNodeWrite s w).st.queueHusk = s.queueHusk := by
  unfold swNodeWrite
  with_reducible repeat' first | rfl | refine keeps_iteR ?_ ?_ | refine keeps_ite ?_ ?_ | refine (State.setFld_keeps ..).trans ?_ | refine (refuse_keeps ..).trans ?_ | refine (swSetRoot_keeps ..).trans ?_
theorem swResWrite_keeps (s : State) (p c : Nat) (w : Word) : (swResWrite s p c w).st.queueHusk = s.queueHusk := by
  unfold swResWrite
  with_reducible repeat' first | rfl | refine keeps_iteR ?_ ?_ | refine keeps_ite ?_ ?_ | refine keeps_foldl ?_ ?_ | intro _ _ | refine (refuse_keeps ..).trans ?_ | refine (setReg_keeps ..).trans ?_ | extract_lets | split
theorem swReset_keeps (s : State) (p : Nat) : (swReset s p).queueHusk = s.queueHusk := by
  unfold swReset
  with_reducible repeat' first | rfl | refine keeps_ite ?_ ?_ | refine (swDown_keeps ..).trans ?_ | refine (swSetState_keeps ..).trans ?_ | refine (withForce_keeps ..).trans ?_ | refine (withRegs_keeps ..).trans ?_ | extract_lets
theorem swardBlockWrite_keeps (s : State) (a : Nat) (w : Word) {d : Res} (hd : d.st.queueHusk = s.queueHusk) : ((swardBlockWrite s a w).getD d).st.queueHusk = s.queueHusk := by
  unfold swardBlockWrite
  with_reducible repeat' first | rfl | refine keeps_iteO ?_ ?_ | refine keeps_ite ?_ ?_ | refine keeps_iteR ?_ ?_ | refine keeps_some ?_ | refine keeps_none ?_ | assumption | refine (hrxTailWrite_keeps ..).trans ?_ | refine (swNodeWrite_keeps ..).trans ?_ | refine (swResWrite_keeps ..).trans ?_ | extract_lets
theorem sheafSetMember_keeps (s : State) (slot : Nat) (on : Bool) : (sheafSetMember s slot on).queueHusk = s.queueHusk := by
  unfold sheafSetMember
  with_reducible repeat' first | rfl | refine keeps_ite ?_ ?_ | refine (State.setFlag_keeps ..).trans ?_
theorem sheafTake_keeps (s : State) (st : Nat) : (sheafTake s st).queueHusk = s.queueHusk := by
  unfold sheafTake
  with_reducible repeat' first | rfl | refine keeps_ite ?_ ?_ | refine (State.raise_keeps ..).trans ?_ | refine (State.setFld_keeps ..).trans ?_ | extract_lets
theorem sheafRelease_keeps (s : State) : (sheafRelease s).queueHusk = s.queueHusk := by
  unfold sheafRelease
  with_reducible repeat' first | rfl | refine keeps_ite ?_ ?_ | refine (State.setFlag_keeps ..).trans ?_ | refine (groupsOff_keeps ..).trans ?_ | refine (sheafTake_keeps ..).trans ?_
theorem farStale_keeps (s : State) (v : Nat) : (farStale s v).queueHusk = s.queueHusk := by
  unfold farStale
  with_reducible repeat' first | rfl | refine keeps_ite ?_ ?_ | refine keeps_foldl ?_ ?_ | intro _ _ | refine (State.raise_keeps ..).trans ?_ | refine (withSheaf_keeps ..).trans ?_ | extract_lets | split
theorem farAge_keeps (s : State) (v : Nat) : (farAge s v).queueHusk = s.queueHusk := by
  unfold farAge
  with_reducible repeat' first | rfl | refine keeps_ite ?_ ?_ | refine (farStale_keeps ..).trans ?_ | extract_lets | split
theorem linkCut_keeps (s : State) (g : Nat) (m : Option Nat) : (linkCut s g m).queueHusk = s.queueHusk := by
  unfold linkCut
  with_reducible repeat' first | rfl | refine keeps_ite ?_ ?_ | refine keeps_foldl ?_ ?_ | intro _ _ | refine (farStale_keeps ..).trans ?_
theorem cutLinks_keeps (s : State) (m : Option Nat) : (cutLinks s m).queueHusk = s.queueHusk := by
  unfold cutLinks
  with_reducible repeat' first | rfl | refine keeps_foldl ?_ ?_ | intro _ _ | refine (addPend_keeps ..).trans ?_ | refine (linkCut_keeps ..).trans ?_
theorem linkData_keeps (s : State) (v : Nat) (ft : Tick) (per : Nat) (out : List Word) : (linkData s v ft per out).queueHusk = s.queueHusk := by
  unfold linkData
  with_reducible repeat' first | rfl | refine keeps_ite ?_ ?_ | refine (withSheaf_keeps ..).trans ?_ | extract_lets
theorem linkSend_keeps (s : State) (slot : Nat) (t : Tick) : (linkSend s slot t).queueHusk = s.queueHusk := by
  unfold linkSend
  with_reducible repeat' first | rfl | refine keeps_ite ?_ ?_ | refine keeps_foldl ?_ ?_ | intro _ _ | refine (swSend_keeps ..).trans ?_ | extract_lets
theorem sheafDepart_keeps (s : State) : (sheafDepart s).queueHusk = s.queueHusk := by
  unfold sheafDepart
  with_reducible repeat' first | rfl | refine keeps_foldl ?_ ?_ | intro _ _ | refine (State.cntSat_keeps ..).trans ?_ | refine (State.setFld_keeps ..).trans ?_ | refine (addPend_keeps ..).trans ?_ | refine (cutLinks_keeps ..).trans ?_ | refine (sheafTake_keeps ..).trans ?_ | refine (withSheaf_keeps ..).trans ?_ | extract_lets
theorem sheafDrop_keeps (s : State) (slot : Nat) : (sheafDrop s slot).queueHusk = s.queueHusk := by
  unfold sheafDrop
  with_reducible repeat' first | rfl | refine keeps_ite ?_ ?_ | refine (State.cntSat_keeps ..).trans ?_ | refine (State.raise_keeps ..).trans ?_ | refine (cutLinks_keeps ..).trans ?_ | refine (sheafSetMember_keeps ..).trans ?_ | refine (withSheaf_keeps ..).trans ?_ | extract_lets
theorem opSheafRole_keeps (r : Request) (s : State) : (opSheafRole r s).st.queueHusk = s.queueHusk := by
  unfold opSheafRole
  with_reducible repeat' first | rfl | refine keeps_iteR ?_ ?_ | refine keeps_ite ?_ ?_ | refine (State.setFlag_keeps ..).trans ?_ | refine (State.setFld_keeps ..).trans ?_ | refine (refuse_keeps ..).trans ?_ | refine (sheafSetMember_keeps ..).trans ?_ | refine (sheafTake_keeps ..).trans ?_ | refine (swSetRoot_keeps ..).trans ?_ | refine (withSheaf_keeps ..).trans ?_ | extract_lets
theorem sheafAnswer_keeps (s : State) (slot : Nat) (ok : Bool) : (sheafAnswer s slot ok).queueHusk = s.queueHusk := by
  unfold sheafAnswer
  with_reducible repeat' first | rfl | refine (swSend_keeps ..).trans ?_
theorem sheafJoin_keeps (s : State) (slot : Nat) (standby : Bool) : (sheafJoin s slot standby).queueHusk = s.queueHusk := by
  unfold sheafJoin
  with_reducible repeat' first | rfl | refine keeps_ite ?_ ?_ | refine (State.raise_keeps ..).trans ?_ | refine (sheafAnswer_keeps ..).trans ?_ | refine (sheafSetMember_keeps ..).trans ?_ | refine (withSheaf_keeps ..).trans ?_ | extract_lets
theorem sheafEpoch_keeps (s : State) : (sheafEpoch s).queueHusk = s.queueHusk := by
  unfold sheafEpoch
  with_reducible repeat' first | rfl | refine keeps_ite ?_ ?_ | refine keeps_foldl ?_ ?_ | intro _ _ | refine (sheafDepart_keeps ..).trans ?_ | refine (sheafDrop_keeps ..).trans ?_ | refine (sheafJoin_keeps ..).trans ?_ | refine (withSheaf_keeps ..).trans ?_ | extract_lets
theorem sheafBeaconSend_keeps (s : State) : (sheafBeaconSend s).queueHusk = s.queueHusk := by
  unfold sheafBeaconSend
  with_reducible repeat' first | rfl | refine keeps_ite ?_ ?_ | refine keeps_foldl ?_ ?_ | intro _ _ | refine (swSend_keeps ..).trans ?_ | refine (withSheaf_keeps ..).trans ?_ | extract_lets
theorem sheafBeacon_keeps (s : State) (src : Nat) (took : Bool) (members : Nat) (answer : Option Bool) (grps : List (Nat × Nat × Tick)) : (sheafBeacon s src took members answer grps).queueHusk = s.queueHusk := by
  unfold sheafBeacon
  with_reducible repeat' first | rfl | refine keeps_ite ?_ ?_ | refine keeps_foldl ?_ ?_ | intro _ _ | refine (State.raise_keeps ..).trans ?_ | refine (State.setFld_keeps ..).trans ?_ | refine (answer_keeps ..).trans ?_ | refine (cutLinks_keeps ..).trans ?_ | refine (sheafSetMember_keeps ..).trans ?_ | refine (sheafTake_keeps ..).trans ?_ | refine (withSheaf_keeps ..).trans ?_ | extract_lets | split
theorem sheafStatus_keeps (s : State) (slot : Nat) (join standby leave : Bool) (links : List Nat) : (sheafStatus s slot join standby leave links).queueHusk = s.queueHusk := by
  unfold sheafStatus
  with_reducible repeat' first | rfl | refine keeps_ite ?_ ?_ | refine (withSheaf_keeps ..).trans ?_ | extract_lets
theorem sheafTimeout_keeps (s : State) (slot : Nat) : (sheafTimeout s slot).queueHusk = s.queueHusk := by
  unfold sheafTimeout
  with_reducible repeat' first | rfl | refine keeps_ite ?_ ?_ | refine (State.at_keeps ..).trans ?_ | refine (sheafDepart_keeps ..).trans ?_ | refine (sheafDrop_keeps ..).trans ?_ | extract_lets | split
theorem sheafAlign_keeps (s : State) (g : Nat) : (sheafAlign s g).queueHusk = s.queueHusk := by
  unfold sheafAlign
  with_reducible repeat' first | rfl | refine keeps_ite ?_ ?_ | refine (State.setFlag_keeps ..).trans ?_ | refine (State.setGrp_keeps ..).trans ?_ | refine (withSheaf_keeps ..).trans ?_ | extract_lets | split
theorem mirrorTake_keeps (s : State) (m : Mirror) : (mirrorTake s m).queueHusk = s.queueHusk := by
  unfold mirrorTake
  with_reducible repeat' first | rfl | refine keeps_ite ?_ ?_ | refine (withSheaf_keeps ..).trans ?_ | extract_lets
theorem mirrorApply_keeps (s : State) (m : Mirror) : (mirrorApply s m).queueHusk = s.queueHusk := by
  unfold mirrorApply
  with_reducible repeat' first | rfl | refine keeps_ite ?_ ?_ | refine keeps_foldl ?_ ?_ | intro _ _ | refine (State.setCw_keeps ..).trans ?_ | refine (groupStateApply_keeps ..).trans ?_ | refine (setReg_keeps ..).trans ?_ | extract_lets
theorem sheafMirror_keeps (s : State) (g : Nat) (t : Tick) : (sheafMirror s g t).queueHusk = s.queueHusk := by
  unfold sheafMirror
  with_reducible repeat' first | rfl | refine keeps_ite ?_ ?_ | refine keeps_iteR ?_ ?_ | refine keeps_ite1 ?_ ?_ | refine keeps_ite2 ?_ ?_ | refine keeps_foldl ?_ ?_ | refine keeps_foldl1 ?_ ?_ | refine keeps_foldl2 ?_ ?_ | refine keeps_iteO ?_ ?_ | refine keeps_some ?_ | refine keeps_none ?_ | assumption | intro _ _ | intro _ | (guard_target =~ (_ : HuskS) = _; with_unfolding_all rfl) | refine (State.cntSat_keeps ..).trans ?_ | refine (State.raise_keeps ..).trans ?_ | refine (State.setFlag_keeps ..).trans ?_ | refine (mirrorApply_keeps ..).trans ?_ | refine (withSheaf_keeps ..).trans ?_ | extract_lets | split | dsimp +zetaDelta only
theorem takeover_keeps (s : State) (peerHigh : Bool) : (takeover s peerHigh).queueHusk = s.queueHusk := by
  unfold takeover
  with_reducible repeat' first | rfl | refine keeps_ite ?_ ?_ | refine (State.at_keeps ..).trans ?_ | refine (State.cntSat_keeps ..).trans ?_ | refine (State.raise_keeps ..).trans ?_ | refine (State.setFlag_keeps ..).trans ?_ | refine (State.setFld_keeps ..).trans ?_ | refine (State.setReg64_keeps ..).trans ?_ | refine (cutLinks_keeps ..).trans ?_ | refine (sheafSetMember_keeps ..).trans ?_ | refine (swSetRoot_keeps ..).trans ?_ | refine (withSheaf_keeps ..).trans ?_ | extract_lets | split
theorem leadSees_keeps (s : State) (slot : Nat) : (leadSees s slot).queueHusk = s.queueHusk := by
  unfold leadSees
  with_reducible repeat' first | rfl | refine keeps_ite ?_ ?_ | refine (withSheaf_keeps ..).trans ?_ | extract_lets
theorem leadCheck_keeps (s : State) : (leadCheck s).queueHusk = s.queueHusk := by
  unfold leadCheck
  with_reducible repeat' first | rfl | refine keeps_ite ?_ ?_ | refine (sheafRelease_keeps ..).trans ?_ | refine (withSheaf_keeps ..).trans ?_ | extract_lets
theorem mirrorSend_keeps (s : State) (g : Nat) : (mirrorSend s g).queueHusk = s.queueHusk := by
  unfold mirrorSend
  with_reducible repeat' first | rfl | refine keeps_ite ?_ ?_ | refine keeps_foldl ?_ ?_ | intro _ _ | refine (swOut_keeps ..).trans ?_ | extract_lets | split
theorem sheafNoClock_keeps (s : State) : (sheafNoClock s).queueHusk = s.queueHusk := by
  unfold sheafNoClock
  with_reducible repeat' first | rfl | refine (sheafRelease_keeps ..).trans ?_

end

end Sys2Proof.Machine
end

