-- ==== Sys2Proof/Laws/FrameLoop.lean ====
section
/-! SUPPORT. Frames of the operations over clock, keep memory, firmware, contexts, passes, boundaries and the register engine: they leave the queue of waiting commands alone, and Husk's power, state and
general output. One lemma an operation. -/

namespace Sys2Proof.Machine

open Sys2Proof

section

set_option linter.unusedTactic false
set_option linter.unreachableTactic false

theorem clkSetQual_keeps (s : State) (src : Nat) (on : Bool) : (clkSetQual s src on).queueHusk = s.queueHusk := by
  unfold clkSetQual
  with_reducible repeat' first | rfl | refine (State.setFlag_keeps ..).trans ?_
theorem clkSetAlive_keeps (s : State) (src : Nat) (on : Bool) : (clkSetAlive s src on).queueHusk = s.queueHusk := by
  unfold clkSetAlive
  with_reducible repeat' first | rfl | refine (withClk_keeps ..).trans ?_ | extract_lets
theorem boundsGone_keeps (s : State) : (boundsGone s).queueHusk = s.queueHusk := by
  unfold boundsGone
  with_reducible repeat' first | rfl | refine keeps_ite ?_ ?_ | refine (withCmd_keeps ..).trans ?_ | refine (withLoop_keeps ..).trans ?_ | extract_lets
theorem tbLost_keeps (s : State) : (tbLost s).queueHusk = s.queueHusk := by
  unfold tbLost
  with_reducible repeat' first | rfl | refine (State.cntSat_keeps ..).trans ?_ | refine (State.raise_keeps ..).trans ?_ | refine (State.setFlag_keeps ..).trans ?_ | refine (boundsGone_keeps ..).trans ?_ | refine (inkGap_keeps ..).trans ?_ | refine (senseDrop_keeps ..).trans ?_ | refine (sheafNoClock_keeps ..).trans ?_ | refine (sourceAct_keeps ..).trans ?_ | refine (timeLost_keeps ..).trans ?_ | extract_lets
theorem tbBack_keeps (s : State) : (tbBack s).queueHusk = s.queueHusk := by
  unfold tbBack
  with_reducible repeat' first | rfl | refine keeps_ite ?_ ?_ | refine keeps_foldl ?_ ?_ | intro _ _ | refine (State.raise_keeps ..).trans ?_ | refine (State.setFlag_keeps ..).trans ?_ | refine (State.setGrp_keeps ..).trans ?_ | refine (nibStop_keeps ..).trans ?_ | refine (timeBack_keeps ..).trans ?_ | refine (withClk_keeps ..).trans ?_ | refine (withDt_keeps ..).trans ?_ | extract_lets
theorem tbSettle_keeps (s : State) : (tbSettle s).queueHusk = s.queueHusk := by
  unfold tbSettle
  with_reducible repeat' first | rfl | refine keeps_ite ?_ ?_ | refine (tbBack_keeps ..).trans ?_ | refine (tbLost_keeps ..).trans ?_ | extract_lets
theorem clkSwitched_keeps (s : State) (old new : Nat) (forced : Bool) : (clkSwitched s old new forced).queueHusk = s.queueHusk := by
  unfold clkSwitched
  with_reducible repeat' first | rfl | refine keeps_ite ?_ ?_ | refine (State.raise_keeps ..).trans ?_ | refine (State.setFlag_keeps ..).trans ?_ | refine (State.setFld_keeps ..).trans ?_ | refine (withClk_keeps ..).trans ?_ | extract_lets
theorem clkSwitch_keeps (s0 : State) (new : Nat) : (clkSwitch s0 new).queueHusk = s0.queueHusk := by
  unfold clkSwitch
  with_reducible repeat' first | rfl | refine keeps_ite ?_ ?_ | refine (State.setFld_keeps ..).trans ?_ | refine (clkSwitched_keeps ..).trans ?_ | refine (withClk_keeps ..).trans ?_ | extract_lets
theorem clkCoast_keeps (s : State) : (clkCoast s).queueHusk = s.queueHusk := by
  unfold clkCoast
  with_reducible repeat' first | rfl | refine keeps_ite ?_ ?_ | refine keeps_foldl ?_ ?_ | intro _ _ | refine (State.raise_keeps ..).trans ?_ | refine (State.setFlag_keeps ..).trans ?_ | refine (State.setFld_keeps ..).trans ?_ | refine (withClk_keeps ..).trans ?_ | extract_lets
theorem clkFail_keeps (s : State) (src detail : Nat) : (clkFail s src detail).queueHusk = s.queueHusk := by
  unfold clkFail
  with_reducible repeat' first | rfl | refine keeps_ite ?_ ?_ | refine (State.cntSat_keeps ..).trans ?_ | refine (State.raise_keeps ..).trans ?_ | refine (clkCoast_keeps ..).trans ?_ | refine (clkSetQual_keeps ..).trans ?_ | refine (clkSwitch_keeps ..).trans ?_ | refine (tbSettle_keeps ..).trans ?_ | extract_lets | split
theorem clkEdge_keeps (s : State) (c : SourceChange) : (clkEdge s c).queueHusk = s.queueHusk := by
  unfold clkEdge
  with_reducible repeat' first | rfl | refine keeps_ite ?_ ?_ | refine (clkSetAlive_keeps ..).trans ?_
theorem clkStart_keeps (s : State) (src : Nat) : (clkStart s src).queueHusk = s.queueHusk := by
  unfold clkStart
  with_reducible repeat' first | rfl | refine (clkSwitch_keeps ..).trans ?_ | refine (withClk_keeps ..).trans ?_ | extract_lets
theorem clkQualified_keeps (s : State) (src : Nat) : (clkQualified s src).queueHusk = s.queueHusk := by
  unfold clkQualified
  with_reducible repeat' first | rfl | refine keeps_ite ?_ ?_ | refine (State.setFlag_keeps ..).trans ?_ | refine (clkSetAlive_keeps ..).trans ?_ | refine (clkSetQual_keeps ..).trans ?_ | refine (clkStart_keeps ..).trans ?_ | refine (clkSwitch_keeps ..).trans ?_ | refine (tbSettle_keeps ..).trans ?_ | extract_lets | split
theorem pllLocked_keeps (s : State) (i : Nat) : (pllLocked s i).queueHusk = s.queueHusk := by
  unfold pllLocked
  with_reducible repeat' first | rfl | refine keeps_ite ?_ ?_ | refine (State.raise_keeps ..).trans ?_ | refine (State.setFlag_keeps ..).trans ?_ | extract_lets
theorem pllLost_keeps (s : State) (i : Nat) : (pllLost s i).queueHusk = s.queueHusk := by
  unfold pllLost
  with_reducible repeat' first | rfl | refine keeps_ite ?_ ?_ | refine (State.setFlag_keeps ..).trans ?_ | refine (tbSettle_keeps ..).trans ?_ | extract_lets
theorem clkRevert_keeps (s : State) (src : Nat) : (clkRevert s src).queueHusk = s.queueHusk := by
  unfold clkRevert
  with_reducible repeat' first | rfl | refine keeps_ite ?_ ?_ | refine (clkSwitch_keeps ..).trans ?_ | refine (tbSettle_keeps ..).trans ?_
theorem trimStop_keeps (s : State) : (trimStop s).queueHusk = s.queueHusk := by
  unfold trimStop
  with_reducible repeat' first | rfl | refine (State.setFlag_keeps ..).trans ?_ | refine (withClk_keeps ..).trans ?_ | extract_lets
theorem trimMeasure_keeps (s : State) (err : Int) : (trimMeasure s err).queueHusk = s.queueHusk := by
  unfold trimMeasure
  with_reducible repeat' first | rfl | refine keeps_ite ?_ ?_ | refine (State.setFlag_keeps ..).trans ?_ | refine (State.setFld_keeps ..).trans ?_ | refine (trimStop_keeps ..).trans ?_ | refine (withClk_keeps ..).trans ?_ | extract_lets
theorem clkCtrlWrite_keeps (s : State) (w : Word) : (clkCtrlWrite s w).st.queueHusk = s.queueHusk := by
  unfold clkCtrlWrite
  with_reducible repeat' first | rfl | refine keeps_iteR ?_ ?_ | refine keeps_ite ?_ ?_ | refine keeps_foldl ?_ ?_ | intro _ _ | refine (clkSetQual_keeps ..).trans ?_ | refine (refuse_keeps ..).trans ?_ | refine (setReg_keeps ..).trans ?_ | extract_lets
theorem clkSelWrite_keeps (s : State) (w : Word) : (clkSelWrite s w).st.queueHusk = s.queueHusk := by
  unfold clkSelWrite
  with_reducible repeat' first | rfl | refine keeps_iteR ?_ ?_ | refine keeps_ite ?_ ?_ | refine (clkSwitch_keeps ..).trans ?_ | refine (refuse_keeps ..).trans ?_ | refine (tbSettle_keeps ..).trans ?_ | extract_lets
theorem clkRctrimWrite_keeps (s : State) (w : Word) : (clkRctrimWrite s w).st.queueHusk = s.queueHusk := by
  unfold clkRctrimWrite
  with_reducible repeat' first | rfl | refine keeps_iteR ?_ ?_ | refine keeps_ite ?_ ?_ | refine (refuse_keeps ..).trans ?_ | refine (setReg_keeps ..).trans ?_ | refine (trimStop_keeps ..).trans ?_ | extract_lets
theorem clkGateWrite_keeps (s : State) (w : Word) : (clkGateWrite s w).st.queueHusk = s.queueHusk := by
  unfold clkGateWrite
  with_reducible repeat' first | rfl | refine keeps_iteR ?_ ?_ | refine keeps_ite ?_ ?_ | refine keeps_foldl ?_ ?_ | intro _ _ | refine (State.setFlag_keeps ..).trans ?_ | refine (fdbkGate_keeps ..).trans ?_ | refine (refuse_keeps ..).trans ?_ | refine (senseGate_keeps ..).trans ?_ | refine (setReg_keeps ..).trans ?_ | extract_lets | split
theorem clkBlockWrite_keeps (s : State) (a : Nat) (w : Word) {d : Res} (hd : d.st.queueHusk = s.queueHusk) : ((clkBlockWrite s a w).getD d).st.queueHusk = s.queueHusk := by
  unfold clkBlockWrite
  with_reducible repeat' first | rfl | refine keeps_iteO ?_ ?_ | refine keeps_ite ?_ ?_ | refine keeps_iteR ?_ ?_ | refine keeps_some ?_ | refine keeps_none ?_ | assumption | refine (clkCtrlWrite_keeps ..).trans ?_ | refine (clkGateWrite_keeps ..).trans ?_ | refine (clkRctrimWrite_keeps ..).trans ?_ | refine (clkSelWrite_keeps ..).trans ?_
theorem keepRead_keeps (s : State) (n : Nat) : (keepRead s n).2.2.queueHusk = s.queueHusk := by
  unfold keepRead
  split
  · rfl
  · split <;> rfl
theorem keepStart_keeps (s : State) (n : Nat) (v : Word) : (keepStart s n v).1.queueHusk = s.queueHusk := by
  unfold keepStart
  with_reducible repeat' first | rfl | refine keeps_ite1 ?_ ?_ | refine keeps_ite ?_ ?_ | refine (State.raise_keeps ..).trans ?_ | refine (State.setFlag_keeps ..).trans ?_ | refine (State.setFld_keeps ..).trans ?_ | refine (withKeep_keeps ..).trans ?_ | extract_lets
theorem keepQueue_keeps (s : State) (n : Nat) (v : Word) : (keepQueue s n v).1.queueHusk = s.queueHusk := by
  unfold keepQueue
  with_reducible repeat' first | rfl | refine keeps_ite1 ?_ ?_ | refine keeps_ite ?_ ?_ | refine (keepStart_keeps ..).trans ?_ | refine (withKeep_keeps ..).trans ?_ | extract_lets
theorem opKeepWrite_keeps (r : Request) (s : State) : (opKeepWrite r s).st.queueHusk = s.queueHusk := by
  unfold opKeepWrite
  with_reducible repeat' first | rfl | refine keeps_iteR ?_ ?_ | refine keeps_ite ?_ ?_ | refine (keepStart_keeps ..).trans ?_ | refine (refuse_keeps ..).trans ?_ | extract_lets
theorem keepPersist_keeps (s : State) (n ecc : Nat) : (keepPersist s n ecc).queueHusk = s.queueHusk := by
  unfold keepPersist
  with_reducible repeat' first | rfl | refine keeps_ite ?_ ?_ | refine (State.setFlag_keeps ..).trans ?_ | refine (keepStart_keeps ..).trans ?_ | refine (setReg_keeps ..).trans ?_ | refine (withKeep_keeps ..).trans ?_ | extract_lets | split
theorem keepBump_keeps (s : State) (n k : Nat) : (keepBump s n k).queueHusk = s.queueHusk := by
  unfold keepBump
  with_reducible repeat' first | rfl | refine (keepQueue_keeps ..).trans ?_
theorem keepFlush_keeps (s : State) : (keepFlush s).queueHusk = s.queueHusk := by
  unfold keepFlush
  with_reducible repeat' first | rfl | refine keeps_ite ?_ ?_ | refine (keepBump_keeps ..).trans ?_ | refine (withKeep_keeps ..).trans ?_ | refine (withNib_keeps ..).trans ?_ | extract_lets
theorem fwPut_keeps (s : State) (b i : Nat) (w : Word) : (fwPut s b i w).queueHusk = s.queueHusk := by
  unfold fwPut
  with_reducible repeat' first | rfl | refine (withNvm_keeps ..).trans ?_ | extract_lets
theorem fwErase_keeps (s : State) (b : Nat) : (fwErase s b).queueHusk = s.queueHusk := by
  unfold fwErase
  with_reducible repeat' first | rfl | refine (withNvm_keeps ..).trans ?_ | extract_lets
theorem fwAbandon_keeps (s : State) (detail : Nat) : (fwAbandon s detail).queueHusk = s.queueHusk := by
  unfold fwAbandon
  with_reducible repeat' first | rfl | refine (State.raise_keeps ..).trans ?_ | refine (State.setFlag_keeps ..).trans ?_ | refine (State.setFld_keeps ..).trans ?_ | refine (fwErase_keeps ..).trans ?_ | refine (setReg_keeps ..).trans ?_ | refine (withBoot_keeps ..).trans ?_ | extract_lets
theorem opFwStageBegin_keeps (r : Request) (s : State) : (opFwStageBegin r s).st.queueHusk = s.queueHusk := by
  unfold opFwStageBegin
  with_reducible repeat' first | rfl | refine keeps_iteR ?_ ?_ | refine keeps_ite ?_ ?_ | refine (State.setFlag_keeps ..).trans ?_ | refine (State.setFld_keeps ..).trans ?_ | refine (fwErase_keeps ..).trans ?_ | refine (refuse_keeps ..).trans ?_ | refine (setReg_keeps ..).trans ?_ | refine (withBoot_keeps ..).trans ?_ | extract_lets
theorem fwPuts_keeps (s : State) (b i : Nat) (ws : List Word) : (fwPuts s b i ws).queueHusk = s.queueHusk := by
  induction ws generalizing s i with
  | nil => rfl
  | cons w ws ih => exact (ih _ _).trans (fwPut_keeps ..)
theorem opFwStageData_keeps (r : Request) (s : State) : (opFwStageData r s).st.queueHusk = s.queueHusk := by
  unfold opFwStageData
  with_reducible repeat' first | rfl | refine keeps_iteR ?_ ?_ | refine keeps_ite ?_ ?_ | refine (State.setFld_keeps ..).trans ?_ | refine (fwPuts_keeps ..).trans ?_ | refine (refuse_keeps ..).trans ?_ | refine (withBoot_keeps ..).trans ?_ | extract_lets | split
theorem opFwStageEnd_keeps (r : Request) (s : State) : (opFwStageEnd r s).st.queueHusk = s.queueHusk := by
  unfold opFwStageEnd
  with_reducible repeat' first | rfl | refine keeps_iteR ?_ ?_ | refine keeps_ite ?_ ?_ | refine (refuse_keeps ..).trans ?_ | refine (withBoot_keeps ..).trans ?_ | extract_lets | split
theorem fwStageVerified_keeps (s : State) : (fwStageVerified s).queueHusk = s.queueHusk := by
  unfold fwStageVerified
  with_reducible repeat' first | rfl | refine keeps_ite ?_ ?_ | refine (State.raise_keeps ..).trans ?_ | refine (State.setFlag_keeps ..).trans ?_ | refine (setReg_keeps ..).trans ?_ | refine (withBoot_keeps ..).trans ?_ | extract_lets | split
theorem fwExchange_keeps (s : State) (kind : Nat) : (fwExchange s kind).queueHusk = s.queueHusk := by
  unfold fwExchange
  with_reducible repeat' first | rfl | refine keeps_ite ?_ ?_ | refine (State.setFld_keeps ..).trans ?_ | refine (withBoot_keeps ..).trans ?_ | refine (withReed_keeps ..).trans ?_ | extract_lets
theorem fwRecovery_keeps (s : State) (enter : Bool) : (fwRecovery s enter).queueHusk = s.queueHusk := by
  unfold fwRecovery
  with_reducible repeat' first | rfl | refine keeps_ite ?_ ?_ | refine (State.setFlag_keeps ..).trans ?_ | refine (withBoot_keeps ..).trans ?_ | refine (withPhase_keeps ..).trans ?_ | extract_lets
theorem fwResume_keeps (s : State) : (fwResume s).queueHusk = s.queueHusk := by
  unfold fwResume
  with_reducible repeat' first | rfl | refine keeps_ite ?_ ?_ | refine (State.raise_keeps ..).trans ?_ | refine (State.setFlag_keeps ..).trans ?_ | refine (fwRecovery_keeps ..).trans ?_ | refine (keepBump_keeps ..).trans ?_ | refine (withBoot_keeps ..).trans ?_ | refine (withReed_keeps ..).trans ?_ | extract_lets | split
theorem swapPassed_keeps (s : State) (ticket stamp : Nat) : (swapPassed s ticket stamp).queueHusk = s.queueHusk := by
  unfold swapPassed
  with_reducible repeat' first | rfl | refine keeps_ite ?_ ?_ | refine (withCmd_keeps ..).trans ?_ | extract_lets
theorem opFwSwitch_keeps (r : Request) (s : State) : (opFwSwitch r s).st.queueHusk = s.queueHusk := by
  unfold opFwSwitch
  with_reducible repeat' first | rfl | refine keeps_iteR ?_ ?_ | refine keeps_ite ?_ ?_ | refine (addPend_keeps ..).trans ?_ | refine (fwExchange_keeps ..).trans ?_ | refine (refuse_keeps ..).trans ?_ | refine (withBoot_keeps ..).trans ?_ | extract_lets | split
theorem fwFallback_keeps (s : State) (cause : Nat) : (fwFallback s cause).queueHusk = s.queueHusk := by
  unfold fwFallback
  with_reducible repeat' first | rfl | refine keeps_ite ?_ ?_ | refine (addPend_keeps ..).trans ?_ | refine (fwExchange_keeps ..).trans ?_ | refine (withBoot_keeps ..).trans ?_ | extract_lets
theorem opFwConfirm_keeps (r : Request) (s : State) : (opFwConfirm r s).st.queueHusk = s.queueHusk := by
  unfold opFwConfirm
  with_reducible repeat' first | rfl | refine keeps_iteR ?_ ?_ | refine keeps_ite ?_ ?_ | refine (State.raise_keeps ..).trans ?_ | refine (State.setFlag_keeps ..).trans ?_ | refine (State.setFld_keeps ..).trans ?_ | refine (keepBump_keeps ..).trans ?_ | refine (keepQueue_keeps ..).trans ?_ | refine (refuse_keeps ..).trans ?_ | refine (withBoot_keeps ..).trans ?_ | extract_lets | split
theorem opFwRevert_keeps (r : Request) (s : State) : (opFwRevert r s).st.queueHusk = s.queueHusk := by
  unfold opFwRevert
  with_reducible repeat' first | rfl | refine keeps_iteR ?_ ?_ | refine keeps_ite ?_ ?_ | refine (fwFallback_keeps ..).trans ?_ | refine (refuse_keeps ..).trans ?_ | extract_lets | split
theorem fwSwitchAbandon_keeps (s : State) : (fwSwitchAbandon s).queueHusk = s.queueHusk := by
  unfold fwSwitchAbandon
  with_reducible repeat' first | rfl | refine keeps_ite ?_ ?_ | refine (State.raise_keeps ..).trans ?_ | refine (withBoot_keeps ..).trans ?_ | refine (withCmd_keeps ..).trans ?_ | refine (withLoop_keeps ..).trans ?_ | extract_lets | split
theorem scribeSwitch_keeps (s : State) : (scribeSwitch s).queueHusk = s.queueHusk := by
  unfold scribeSwitch
  with_reducible repeat' first | rfl | refine (State.raise_keeps ..).trans ?_ | refine (State.setFlag_keeps ..).trans ?_ | refine (withSafe_keeps _ _ ?_).trans ?_ | extract_lets
theorem opFwScribe_keeps (r : Request) (s : State) : (opFwScribe r s).st.queueHusk = s.queueHusk := by
  unfold opFwScribe
  with_reducible repeat' first | rfl | refine keeps_iteR ?_ ?_ | refine keeps_ite ?_ ?_ | refine (refuse_keeps ..).trans ?_ | refine (scribeSwitch_keeps ..).trans ?_ | extract_lets | split
theorem ctxParam_keeps (s : State) (slot off : Nat) (ws : List Word) : (ctxParam s slot off ws).st.queueHusk = s.queueHusk := by
  unfold ctxParam
  with_reducible repeat' first | rfl | refine keeps_iteR ?_ ?_ | refine keeps_ite ?_ ?_ | refine keeps_foldl ?_ ?_ | intro _ _ | refine (State.setCw_keeps ..).trans ?_ | refine (addPend_keeps ..).trans ?_ | refine (refuse_keeps ..).trans ?_ | refine orRefuse_keeps ?_ ?_ | extract_lets | split
theorem opCtxParam_keeps (r : Request) (s : State) : (opCtxParam r s).st.queueHusk = s.queueHusk := by
  unfold opCtxParam
  with_reducible repeat' first | rfl | refine keeps_iteR ?_ ?_ | refine keeps_ite ?_ ?_ | refine (ctxParam_keeps ..).trans ?_ | refine (refuse_keeps ..).trans ?_ | refine orRefuse_keeps ?_ ?_
theorem ctxWordsApply_keeps (s : State) (slot off : Nat) (ws : List Word) : (ctxWordsApply s slot off ws).queueHusk = s.queueHusk := by
  unfold ctxWordsApply
  with_reducible repeat' first | rfl | refine keeps_ite ?_ ?_ | refine keeps_foldl ?_ ?_ | intro _ _ | refine (State.setFrc_keeps ..).trans ?_ | refine (State.setSt_keeps ..).trans ?_ | refine (filterRefresh_keeps ..).trans ?_ | refine (storeUsers_keeps ..).trans ?_ | refine (wantReplan_keeps ..).trans ?_ | extract_lets | split
theorem clearMotion_keeps (s : State) (kind num : Nat) : (clearMotion s kind num).queueHusk = s.queueHusk := by
  unfold clearMotion
  with_reducible repeat' first | rfl | refine keeps_ite ?_ ?_ | refine keeps_foldl ?_ ?_ | intro _ _ | refine (setReg_keeps ..).trans ?_
theorem ctxMake_keeps (s : State) (slot num : Nat) (p : Word) : (ctxMake s slot num p).queueHusk = s.queueHusk := by
  unfold ctxMake
  with_reducible repeat' first | rfl | refine keeps_ite ?_ ?_ | refine keeps_foldl ?_ ?_ | intro _ _ | refine (State.setCtx_keeps ..).trans ?_ | refine (State.setCw_keeps ..).trans ?_ | refine (State.setFlag_keeps ..).trans ?_ | refine (State.setFld_keeps ..).trans ?_ | refine (State.setFrc_keeps ..).trans ?_ | refine (clearMotion_keeps ..).trans ?_ | refine (dirSet_keeps ..).trans ?_ | refine (filterRefresh_keeps ..).trans ?_ | extract_lets | split
theorem opCtxCreate_keeps (r : Request) (s : State) : (opCtxCreate r s).st.queueHusk = s.queueHusk := by
  unfold opCtxCreate
  with_reducible repeat' first | rfl | refine keeps_iteR ?_ ?_ | refine keeps_ite ?_ ?_ | refine (ctxMake_keeps ..).trans ?_ | refine (refuse_keeps ..).trans ?_ | extract_lets | split
theorem dropChanges_keeps (s : State) (slot stamp : Nat) : (dropChanges s slot stamp).queueHusk = s.queueHusk := by
  unfold dropChanges
  with_reducible repeat' first | rfl | refine keeps_ite ?_ ?_ | refine (withCmd_keeps ..).trans ?_ | refine (withLoop_keeps ..).trans ?_ | extract_lets
theorem dropAngles_keeps (s : State) (slot : Nat) : (dropAngles s slot).queueHusk = s.queueHusk := by
  unfold dropAngles
  with_reducible repeat' first | rfl | refine keeps_ite ?_ ?_ | refine keeps_foldl ?_ ?_ | intro _ _ | refine (State.setCtx_keeps ..).trans ?_ | refine (withLoop_keeps ..).trans ?_ | extract_lets | split
theorem ownRefresh_keeps (s : State) : (ownRefresh s).queueHusk = s.queueHusk := by
  unfold ownRefresh
  with_reducible repeat' first | rfl | refine keeps_foldl ?_ ?_ | intro _ _ | refine (State.setFlag_keeps ..).trans ?_ | refine (State.setFld_keeps ..).trans ?_ | extract_lets
theorem ctxFree_keeps (s : State) (slot stamp : Nat) : (ctxFree s slot stamp).queueHusk = s.queueHusk := by
  unfold ctxFree
  with_reducible repeat' first | rfl | refine keeps_ite ?_ ?_ | refine keeps_foldl ?_ ?_ | intro _ _ | refine (State.setCtx_keeps ..).trans ?_ | refine (State.setCw_keeps ..).trans ?_ | refine (State.setFrc_keeps ..).trans ?_ | refine (clearMotion_keeps ..).trans ?_ | refine (dirSet_keeps ..).trans ?_ | refine (dropAngles_keeps ..).trans ?_ | refine (dropChanges_keeps ..).trans ?_ | refine (identEnd_keeps ..).trans ?_ | refine (latchGive_keeps ..).trans ?_ | refine (loopRefresh_keeps ..).trans ?_ | refine (ownRefresh_keeps ..).trans ?_ | refine (senseRebind_keeps ..).trans ?_ | refine (storeUsers_keeps ..).trans ?_ | refine (windRelease_keeps ..).trans ?_ | refine (withLoop_keeps ..).trans ?_ | extract_lets | split
theorem opCtxDelete_keeps (r : Request) (s : State) : (opCtxDelete r s).st.queueHusk = s.queueHusk := by
  unfold opCtxDelete
  with_reducible repeat' first | rfl | refine keeps_iteR ?_ ?_ | refine keeps_ite ?_ ?_ | refine (addPend_keeps ..).trans ?_ | refine (ctxFree_keeps ..).trans ?_ | refine (refuse_keeps ..).trans ?_ | refine orRefuse_keeps ?_ ?_ | extract_lets
theorem opCtxBind_keeps (r : Request) (s : State) : (opCtxBind r s).st.queueHusk = s.queueHusk := by
  unfold opCtxBind
  with_reducible repeat' first | rfl | refine keeps_iteR ?_ ?_ | refine keeps_ite ?_ ?_ | refine (addPend_keeps ..).trans ?_ | refine (refuse_keeps ..).trans ?_ | refine orRefuse_keeps ?_ ?_ | extract_lets
theorem bindApply_keeps (s : State) (slot : Nat) (ws : List Word) : (bindApply s slot ws).queueHusk = s.queueHusk := by
  unfold bindApply
  with_reducible repeat' first | rfl | refine keeps_ite ?_ ?_ | refine keeps_foldl ?_ ?_ | intro _ _ | refine (State.setCtx_keeps ..).trans ?_ | refine (State.setSt_keeps ..).trans ?_ | refine (loopRefresh_keeps ..).trans ?_ | refine (ownRefresh_keeps ..).trans ?_ | refine (senseRebind_keeps ..).trans ?_ | refine (setRelease_keeps ..).trans ?_ | refine (storeUsers_keeps ..).trans ?_ | extract_lets
theorem opAdmit_keeps (r : Request) (s : State) : (opAdmit r s).st.queueHusk = s.queueHusk := by
  unfold opAdmit
  with_reducible repeat' first | rfl | refine keeps_iteR ?_ ?_ | refine keeps_ite ?_ ?_ | refine keeps_foldl ?_ ?_ | intro _ _ | refine (State.raise_keeps ..).trans ?_ | refine (addPend_keeps ..).trans ?_ | refine (loopRefresh_keeps ..).trans ?_ | refine (refuse_keeps ..).trans ?_ | refine (setEnvelope_keeps ..).trans ?_ | extract_lets
theorem paceMeasure_keeps (s : State) (ps : Nat) : (paceMeasure s ps).queueHusk = s.queueHusk := by
  unfold paceMeasure
  with_reducible repeat' first | rfl | refine keeps_ite ?_ ?_ | refine (State.raise_keeps ..).trans ?_ | refine (State.setFlag_keeps ..).trans ?_ | refine (State.setFld_keeps ..).trans ?_ | refine (withLoop_keeps ..).trans ?_ | extract_lets
theorem shedPend_keeps (s : State) (level : Nat) : (shedPend s level).queueHusk = s.queueHusk := by
  unfold shedPend
  with_reducible repeat' first | rfl | refine keeps_ite ?_ ?_ | refine keeps_foldl ?_ ?_ | intro _ _ | refine (withLoop_keeps ..).trans ?_ | extract_lets
theorem shedRise_keeps (s : State) : (shedRise s).queueHusk = s.queueHusk := by
  unfold shedRise
  with_reducible repeat' first | rfl | refine keeps_ite ?_ ?_ | refine (State.cntSat_keeps ..).trans ?_ | refine (State.raise_keeps ..).trans ?_ | refine (State.setFld_keeps ..).trans ?_ | refine (shedPend_keeps ..).trans ?_ | refine (withLoop_keeps ..).trans ?_ | extract_lets
theorem shedFall_keeps (s : State) : (shedFall s).queueHusk = s.queueHusk := by
  unfold shedFall
  with_reducible repeat' first | rfl | refine keeps_ite ?_ ?_ | refine (State.raise_keeps ..).trans ?_ | refine (State.setFld_keeps ..).trans ?_ | refine (shedPend_keeps ..).trans ?_ | refine (withLoop_keeps ..).trans ?_ | extract_lets
theorem shedApply_keeps (s : State) (g : Nat) : (shedApply s g).queueHusk = s.queueHusk := by
  unfold shedApply
  with_reducible repeat' first | rfl | refine keeps_ite ?_ ?_ | refine keeps_foldl ?_ ?_ | intro _ _ | refine (State.setCtx_keeps ..).trans ?_ | refine (State.setCw_keeps ..).trans ?_ | refine (dirSet_keeps ..).trans ?_ | refine (inkGap_keeps ..).trans ?_ | extract_lets
theorem envelopeMeasure_keeps (s : State) (mv tj : BitVec 16) : (envelopeMeasure s mv tj).queueHusk = s.queueHusk := by
  unfold envelopeMeasure
  with_reducible repeat' first | rfl | refine keeps_ite ?_ ?_ | refine (State.raiseLim_keeps ..).trans ?_
theorem loopCtrlWrite_keeps (s : State) (w : Word) : (loopCtrlWrite s w).st.queueHusk = s.queueHusk := by
  unfold loopCtrlWrite
  with_reducible repeat' first | rfl | refine keeps_iteR ?_ ?_ | refine keeps_ite ?_ ?_ | refine keeps_foldl ?_ ?_ | intro _ _ | refine (State.setFld_keeps ..).trans ?_ | refine (setReg_keeps ..).trans ?_ | extract_lets
theorem passStart_keeps (s : State) : (passStart s).queueHusk = s.queueHusk := by
  unfold passStart
  with_reducible repeat' first | rfl | refine keeps_ite ?_ ?_ | refine keeps_foldl ?_ ?_ | intro _ _ | refine (State.setGrp_keeps ..).trans ?_ | refine (farAge_keeps ..).trans ?_ | refine (withLoop_keeps ..).trans ?_ | extract_lets | split
theorem linkSkip_keeps (s0 : State) (g : Nat) : (linkSkip s0 g).queueHusk = s0.queueHusk := by
  unfold linkSkip
  with_reducible repeat' first | rfl | refine keeps_ite ?_ ?_ | refine keeps_foldl ?_ ?_ | intro _ _ | refine (State.at_keeps ..).trans ?_ | refine (State.raise_keeps ..).trans ?_ | refine (State.setGrp_keeps ..).trans ?_ | extract_lets | split
theorem transApply_keeps (s : State) (e : Nat × Nat × Nat) : (transApply s e).queueHusk = s.queueHusk := by
  unfold transApply
  with_reducible repeat' first | rfl | refine keeps_ite ?_ ?_ | refine (axisSet_keeps ..).trans ?_ | refine (gearSet_keeps ..).trans ?_ | refine (strokeSet_keeps ..).trans ?_ | refine (windSet_keeps ..).trans ?_ | extract_lets | split
theorem latchTake_keeps (s : State) (u src edge slot : Nat) : (latchTake s u src edge slot).queueHusk = s.queueHusk := by
  unfold latchTake
  with_reducible repeat' first | rfl | refine (State.setFlag_keeps ..).trans ?_ | refine (State.setFld_keeps ..).trans ?_ | refine (State.setLu_keeps ..).trans ?_ | refine (setRegs_keeps ..).trans ?_ | extract_lets
theorem actApply_keeps (r : Run) (s : State) (x : PassAct) : (actApply r s x).queueHusk = s.queueHusk := by
  cases x
  case latchArm u src edge slot => exact latchTake_keeps ..
  case latchFree u => exact latchGive_keeps ..
  case zarm ch => exact fbZarm_keeps ..
  case disable k => exact keeps_foldl (fun _ _ => rfl) rfl
  case hist src p v => exact histPush_keeps ..
  case gearDone ticket done => exact gearAnswer_keeps ..
  case force off ws =>
    unfold actApply
    refine keeps_foldl (fun t i => ?_) rfl
    with_reducible exact State.setFrc_keeps ..
  case inkAxis n x => unfold actApply; with_reducible exact inkStep_keeps ..
  case ringDrop n => exact ringDrop_keeps ..
  case inkValue k src w => exact inkValue_keeps ..
  case inkProbe slot a b => unfold actApply; with_reducible exact inkStep_keeps ..
theorem passFault_keeps (s : State) (slot : Nat) (fault : Option Nat) : (passFault s slot fault).queueHusk = s.queueHusk := by
  unfold passFault
  with_reducible repeat' first | rfl | refine keeps_ite ?_ ?_ | refine (State.raise_keeps ..).trans ?_ | refine (State.setCw_keeps ..).trans ?_ | refine (gearSet_keeps ..).trans ?_ | refine (setCommit_keeps ..).trans ?_ | refine (windFault_keeps ..).trans ?_ | refine (windSet_keeps ..).trans ?_ | extract_lets | split
theorem commitWords_keeps (s : State) (slot : Nat) (ws : List (Nat × Word)) : (commitWords s slot ws).queueHusk = s.queueHusk := by
  unfold commitWords
  with_reducible repeat' first | rfl | refine keeps_ite ?_ ?_ | refine keeps_foldl ?_ ?_ | intro _ _ | refine (State.setCw_keeps ..).trans ?_
theorem commitEdges_keeps (s : State) (slot : Nat) (e : Option EdgeSet) : (commitEdges s slot e).queueHusk = s.queueHusk := by
  unfold commitEdges
  with_reducible repeat' first | rfl | refine keeps_ite ?_ ?_ | refine (setCommit_keeps ..).trans ?_ | extract_lets | split
theorem commitOut_keeps (s : State) (r : Run) (o : PassOut) : (commitOut s r o).queueHusk = s.queueHusk := by
  unfold commitOut
  with_reducible repeat' first | rfl | refine keeps_ite ?_ ?_ | refine keeps_foldl ?_ ?_ | intro _ _ | refine (State.raiseLim_keeps ..).trans ?_ | refine (State.raise_keeps ..).trans ?_ | refine (State.setCtx_keeps ..).trans ?_ | refine (State.setFld_keeps ..).trans ?_ | refine (actApply_keeps ..).trans ?_ | refine (commitEdges_keeps ..).trans ?_ | refine (commitWords_keeps ..).trans ?_ | refine (leadSees_keeps ..).trans ?_ | refine (linkSend_keeps ..).trans ?_ | refine (motShow_keeps ..).trans ?_ | refine (passFault_keeps ..).trans ?_ | refine (transApply_keeps ..).trans ?_ | refine (withLoop_keeps ..).trans ?_ | extract_lets
theorem passCommit_keeps (s : State) (slot : Nat) : (passCommit s slot).queueHusk = s.queueHusk := by
  unfold passCommit
  with_reducible repeat' first | rfl | refine keeps_ite ?_ ?_ | refine (commitOut_keeps ..).trans ?_ | refine (mirrorSend_keeps ..).trans ?_ | refine (withLoop_keeps ..).trans ?_ | extract_lets | split
theorem passLate_keeps (s : State) (g slot : Nat) : (passLate s g slot).queueHusk = s.queueHusk := by
  unfold passLate
  with_reducible repeat' first | rfl | refine keeps_ite ?_ ?_ | refine (State.cntSat_keeps ..).trans ?_ | refine (State.raise_keeps ..).trans ?_ | refine (State.setCtx_keeps ..).trans ?_ | refine (sourceAct_keeps ..).trans ?_ | refine (windFault_keeps ..).trans ?_ | extract_lets | split
theorem passDeadline_keeps (s0 : State) (g : Nat) : (passDeadline s0 g).queueHusk = s0.queueHusk := by
  unfold passDeadline
  with_reducible repeat' first | rfl | refine keeps_ite ?_ ?_ | refine keeps_foldl ?_ ?_ | intro _ _ | refine (State.at_keeps ..).trans ?_ | refine (State.setGrp_keeps ..).trans ?_ | refine (mirrorSend_keeps ..).trans ?_ | refine (passLate_keeps ..).trans ?_ | refine (withLoop_keeps ..).trans ?_ | extract_lets
theorem rdNone_keeps (s : State) : (rdNone s).st.queueHusk = s.queueHusk := rfl
theorem keeps_iteRd {c : Prop} [Decidable c] {a b : Rd} {k : QueueHusk} (ha : a.st.queueHusk = k) (hb : b.st.queueHusk = k) : (if c then a else b).st.queueHusk = k := by
  split <;> assumption
theorem regRead_keeps (s : State) (a : Nat) : (regRead s a).st.queueHusk = s.queueHusk := by
  unfold regRead
  extract_lets i k
  have hk : k.2.2.queueHusk = s.queueHusk := keepRead_keeps ..
  clear_value k
  generalize regRow a = o
  repeat refine keeps_iteRd (by first | exact keeps_iteRd rfl rfl | rfl) ?_
  cases o with
  | none => rfl
  | some r =>
    repeat refine keeps_iteRd (by first | exact hk | rfl) ?_
    rfl
theorem portRead_keeps (s : State) (p a : Nat) : (portRead s p a).st.queueHusk = s.queueHusk := by
  unfold portRead
  repeat' first | with_reducible rfl | with_reducible refine keeps_iteRd ?_ ?_ | (with_reducible refine (regRead_keeps ..).trans ?_) | (with_reducible refine (withCmd_keeps ..).trans ?_) | extract_lets | split | dsimp only
theorem readRun_keeps (f : State → Nat → Rd) (h : ∀ t a, (f t a).st.queueHusk = t.queueHusk) (s : State) (l : List Nat) : (readRun f s l).1.queueHusk = s.queueHusk := by
  induction l generalizing s with
  | nil => rfl
  | cons a l ih => exact (ih _).trans (h s a)
theorem regApply_keeps (s : State) (g a : Nat) (mask val : Word) : (regApply s g a mask val).queueHusk = s.queueHusk := by
  unfold regApply
  with_reducible repeat' first | rfl | refine keeps_ite ?_ ?_ | refine keeps_foldl ?_ ?_ | intro _ _ | refine (State.setFrc_keeps ..).trans ?_ | refine (State.setGrp_keeps ..).trans ?_ | refine (State.setNibS_keeps ..).trans ?_ | refine (filterRefresh_keeps ..).trans ?_ | refine (ocApply_keeps ..).trans ?_ | extract_lets
theorem commitApply_keeps (s : State) (g slot : Nat) (t : Tick) : (commitApply s g slot t).queueHusk = s.queueHusk := by
  unfold commitApply
  with_reducible repeat' first | rfl | refine keeps_ite ?_ ?_ | refine (State.setCtx_keeps ..).trans ?_ | refine (dirSet_keeps ..).trans ?_ | refine (filterRefresh_keeps ..).trans ?_ | refine (loopRefresh_keeps ..).trans ?_ | refine (shedApply_keeps ..).trans ?_ | refine (storeUsers_keeps ..).trans ?_ | extract_lets
theorem calSwapped_keeps (s : State) (index kind : Nat) : (calSwapped s index kind).queueHusk = s.queueHusk := by
  unfold calSwapped
  with_reducible repeat' first | rfl | refine (State.raise_keeps ..).trans ?_
theorem calMapApply_keeps (s : State) (m : Nat) : (calMapApply s m).queueHusk = s.queueHusk := by
  unfold calMapApply
  with_reducible repeat' first | rfl | refine keeps_ite ?_ ?_ | refine (State.setFlag_keeps ..).trans ?_ | refine (calSwapped_keeps ..).trans ?_ | refine (mapSwap_keeps ..).trans ?_ | refine (movesDrop_keeps ..).trans ?_ | refine (setMapW_keeps ..).trans ?_ | extract_lets
theorem calSenseApply_keeps (s : State) (c : Nat) : (calSenseApply s c).queueHusk = s.queueHusk := by
  unfold calSenseApply
  with_reducible repeat' first | rfl | refine keeps_ite ?_ ?_ | refine (calSwapChan_keeps ..).trans ?_ | refine (calSwapped_keeps ..).trans ?_ | refine (withSense_keeps ..).trans ?_ | extract_lets
theorem ctxCmdApply_keeps (s : State) (slot op : Nat) (ws : List Word) (t : Tick) (ticket : Nat) : (ctxCmdApply s slot op ws t ticket).1.queueHusk = s.queueHusk := by
  unfold ctxCmdApply
  with_reducible repeat' first | rfl | refine (axisApply_keeps ..).trans ?_ | refine (gearApply_keeps ..).trans ?_ | refine (strokeApply_keeps ..).trans ?_ | extract_lets | split
theorem changeApply_keeps (s0 : State) (p : Pend) (seq : Word) (t : Tick) : (changeApply s0 p seq t).queueHusk = s0.queueHusk := by
  unfold changeApply
  with_reducible repeat' first | rfl | refine keeps_ite ?_ ?_ | refine (State.setFld_keeps ..).trans ?_ | refine (bindApply_keeps ..).trans ?_ | refine (calMapApply_keeps ..).trans ?_ | refine (calSenseApply_keeps ..).trans ?_ | refine (commitApply_keeps ..).trans ?_ | refine (ctxCmdApply_keeps ..).trans ?_ | refine (ctxFree_keeps ..).trans ?_ | refine (ctxWordsApply_keeps ..).trans ?_ | refine (fwExchange_keeps ..).trans ?_ | refine (groupStateApply_keeps ..).trans ?_ | refine (heldRefuse_keeps ..).trans ?_ | refine (linkCut_keeps ..).trans ?_ | refine (loopRefresh_keeps ..).trans ?_ | refine (mtpaApply_keeps ..).trans ?_ | refine (regApply_keeps ..).trans ?_ | refine (shedApply_keeps ..).trans ?_ | refine (swapPassed_keeps ..).trans ?_ | refine (windDisableApply_keeps ..).trans ?_ | refine (windEnableApply_keeps ..).trans ?_ | refine (withLoop_keeps ..).trans ?_ | extract_lets | split
theorem changesApply_keeps (s : State) (g : Nat) (seq : Word) (zero : Bool) (t : Tick) : (changesApply s g seq zero t).queueHusk = s.queueHusk := by
  unfold changesApply
  with_reducible repeat' first | rfl | refine keeps_foldl ?_ ?_ | intro _ _ | refine (changeApply_keeps ..).trans ?_ | extract_lets
theorem groupHalts_keeps (s : State) (g : Nat) : (groupHalts s g).queueHusk = s.queueHusk := by
  unfold groupHalts
  with_reducible repeat' first | rfl | refine keeps_ite ?_ ?_ | refine keeps_foldl ?_ ?_ | intro _ _ | refine (State.setChS_keeps ..).trans ?_ | refine (State.setGrp_keeps ..).trans ?_ | refine (nibStop_keeps ..).trans ?_ | refine (withCmd_keeps ..).trans ?_ | refine (withLoop_keeps ..).trans ?_ | extract_lets
theorem snapsTake_keeps (s : State) (g : Nat) (seq : Word) : (snapsTake s g seq).queueHusk = s.queueHusk := by
  unfold snapsTake
  refine keeps_foldl (fun t x => ?_) rfl
  refine (withCmd_keeps ..).trans (readRun_keeps _ (fun u a => ?_) _ _)
  split
  · exact portRead_keeps ..
  · exact regRead_keeps ..
theorem heldPass_keeps (s : State) (g : Nat) (seq : Word) : (heldPass s g seq).queueHusk = s.queueHusk := by
  unfold heldPass
  with_reducible repeat' first | rfl | refine (withCmd_keeps ..).trans ?_ | extract_lets
theorem frameOpen_keeps (s : State) (g : Nat) (seq : Word) (zero : Bool) (t : Tick) (ts : Nat) : (frameOpen s g seq zero t ts).queueHusk = s.queueHusk := by
  unfold frameOpen
  with_reducible repeat' first | rfl | refine keeps_ite ?_ ?_ | refine keeps_foldl ?_ ?_ | intro _ _ | refine (State.setGrp_keeps ..).trans ?_ | refine (axisBoundary_keeps ..).trans ?_ | refine (fdbkBoundary_keeps ..).trans ?_ | refine (heldPass_keeps ..).trans ?_ | refine (machBoundary_keeps ..).trans ?_ | refine (mirrorSend_keeps ..).trans ?_ | refine (movesApply_keeps ..).trans ?_ | refine (nibBoundary_keeps ..).trans ?_ | refine (releaseCheck_keeps ..).trans ?_ | refine (senseOpen_keeps ..).trans ?_ | refine (sheafAlign_keeps ..).trans ?_ | refine (snapsTake_keeps ..).trans ?_ | extract_lets
theorem frameBoundary_keeps (s0 : State) (g : Nat) : (frameBoundary s0 g).queueHusk = s0.queueHusk := by
  unfold frameBoundary
  with_reducible repeat' first | rfl | refine keeps_ite ?_ ?_ | refine keeps_foldl ?_ ?_ | intro _ _ | refine (State.at_keeps ..).trans ?_ | refine (State.setGrp_keeps ..).trans ?_ | refine (State.setNibS_keeps ..).trans ?_ | refine (changesApply_keeps ..).trans ?_ | refine (frameOpen_keeps ..).trans ?_ | refine (groupHalts_keeps ..).trans ?_ | refine (heldPass_keeps ..).trans ?_ | refine (leadCheck_keeps ..).trans ?_ | refine (nibStop_keeps ..).trans ?_ | refine (passDeadline_keeps ..).trans ?_ | refine (senseClose_keeps ..).trans ?_ | refine (setReg_keeps ..).trans ?_ | refine (sheafMirror_keeps ..).trans ?_ | refine (snapsTake_keeps ..).trans ?_ | refine (windFrames_keeps ..).trans ?_ | extract_lets | split
theorem opCalSwap_keeps (r : Request) (s : State) : (opCalSwap r s).st.queueHusk = s.queueHusk := by
  unfold opCalSwap
  with_reducible repeat' first | rfl | refine keeps_iteR ?_ ?_ | refine keeps_ite ?_ ?_ | refine keeps_foldl ?_ ?_ | intro _ _ | refine (State.setFlag_keeps ..).trans ?_ | refine (addPend_keeps ..).trans ?_ | refine (calSwapChan_keeps ..).trans ?_ | refine (calSwapped_keeps ..).trans ?_ | refine (mapSwap_keeps ..).trans ?_ | refine (refuse_keeps ..).trans ?_ | extract_lets | split
theorem evtOne_keeps (s : State) (o : Occ) : (evtOne s o).queueHusk = s.queueHusk := by
  unfold evtOne
  with_reducible repeat' first | rfl | refine keeps_ite ?_ ?_ | refine (evForward_keeps ..).trans ?_ | refine (evtTake_keeps ..).trans ?_ | refine (inkEvent_keeps ..).trans ?_ | extract_lets
theorem evtDrain_keeps (s : State) : (evtDrain s).queueHusk = s.queueHusk := by
  unfold evtDrain
  with_reducible repeat' first | rfl | refine keeps_foldl ?_ ?_ | intro _ _ | refine (evtOne_keeps ..).trans ?_ | refine (irqUpdate_keeps ..).trans ?_ | refine (withEvt_keeps ..).trans ?_ | extract_lets
theorem holdoffEnd_keeps (s : State) (e : Nat) : (holdoffEnd s e).queueHusk = s.queueHusk := by
  unfold holdoffEnd
  with_reducible repeat' first | rfl | refine keeps_ite ?_ ?_ | refine (State.at_keeps ..).trans ?_ | refine (holdEnd_keeps ..).trans ?_ | refine (irqUpdate_keeps ..).trans ?_ | extract_lets | split
theorem evtStatWrite_keeps (s : State) (i : Nat) (w : Word) : (evtStatWrite s i w).st.queueHusk = s.queueHusk := by
  unfold evtStatWrite
  with_reducible repeat' first | rfl | refine (irqUpdate_keeps ..).trans ?_ | refine (setReg_keeps ..).trans ?_
theorem evtTestWrite_keeps (s : State) (w : Word) : (evtTestWrite s w).st.queueHusk = s.queueHusk := by
  unfold evtTestWrite
  with_reducible repeat' first | rfl | refine keeps_iteR ?_ ?_ | refine keeps_ite ?_ ?_ | refine (State.raiseAll_keeps ..).trans ?_ | refine (refuse_keeps ..).trans ?_ | extract_lets
theorem evtCfgWrite_keeps (s : State) (e : Nat) (w : Word) : (evtCfgWrite s e w).st.queueHusk = s.queueHusk := by
  unfold evtCfgWrite
  with_reducible repeat' first | rfl | refine keeps_iteR ?_ ?_ | refine keeps_ite ?_ ?_ | refine (irqUpdate_keeps ..).trans ?_ | refine (refuse_keeps ..).trans ?_ | refine (setReg_keeps ..).trans ?_
theorem evtBlockWrite_keeps (s : State) (a : Nat) (w : Word) {d : Res} (hd : d.st.queueHusk = s.queueHusk) : ((evtBlockWrite s a w).getD d).st.queueHusk = s.queueHusk := by
  unfold evtBlockWrite
  with_reducible repeat' first | rfl | refine keeps_iteO ?_ ?_ | refine keeps_ite ?_ ?_ | refine keeps_iteR ?_ ?_ | refine keeps_some ?_ | refine keeps_none ?_ | assumption | refine (State.setFld_keeps ..).trans ?_ | refine (evtCfgWrite_keeps ..).trans ?_ | refine (evtStatWrite_keeps ..).trans ?_ | refine (evtTestWrite_keeps ..).trans ?_ | refine (irqUpdate_keeps ..).trans ?_ | extract_lets
theorem railMeasure_keeps (s : State) (i mv : Nat) : (railMeasure s i mv).queueHusk = s.queueHusk := by
  unfold railMeasure
  with_reducible repeat' first | rfl | refine keeps_ite ?_ ?_ | refine (State.raiseLim_keeps ..).trans ?_ | refine (withBoot_keeps ..).trans ?_ | extract_lets
theorem caseMeasure_keeps (s : State) (c : BitVec 16) : (caseMeasure s c).queueHusk = s.queueHusk := by
  unfold caseMeasure
  with_reducible repeat' first | rfl | refine keeps_ite ?_ ?_ | refine (State.raiseLim_keeps ..).trans ?_ | refine (withBoot_keeps ..).trans ?_ | refine (withKeep_keeps ..).trans ?_ | extract_lets
theorem keepRegWrite_keeps (s : State) (n : Nat) (w : Word) : (keepRegWrite s n w).st.queueHusk = s.queueHusk := by
  unfold keepRegWrite
  with_reducible repeat' first | rfl | refine keeps_iteR ?_ ?_ | refine keeps_ite ?_ ?_ | refine (keepQueue_keeps ..).trans ?_ | extract_lets
theorem blockWrite_keeps (s : State) (a : Nat) (w : Word) {d : Res} (hd : d.st.queueHusk = s.queueHusk) : ((blockWrite s a w).getD d).st.queueHusk = s.queueHusk := by
  unfold blockWrite
  with_reducible repeat' first | rfl | refine keeps_iteO ?_ ?_ | refine keeps_ite ?_ ?_ | refine keeps_iteR ?_ ?_ | refine keeps_some ?_ | refine keeps_none ?_ | assumption | refine (keepRegWrite_keeps ..).trans ?_ | refine (loopCtrlWrite_keeps ..).trans ?_ | refine canBlockWrite_keeps _ _ _ ?_ | refine clkBlockWrite_keeps _ _ _ ?_ | refine ethBlockWrite_keeps _ _ _ ?_ | refine evtBlockWrite_keeps _ _ _ ?_ | refine fdbkBlockWrite_keeps _ _ _ ?_ | refine fieldBlockWrite_keeps _ _ _ ?_ | refine inkBlockWrite_keeps _ _ _ ?_ | refine nibBlockWrite_keeps _ _ _ ?_ | refine ringBlockWrite_keeps _ _ _ ?_ | refine safeBlockWrite_keeps _ _ _ ?_ | refine senseBlockWrite_keeps _ _ _ ?_ | refine spiBlockWrite_keeps _ _ _ ?_ | refine swardBlockWrite_keeps _ _ _ ?_ | refine timeBlockWrite_keeps _ _ _ ?_ | extract_lets | split
theorem regWrite_keeps (s : State) (a : Nat) (w : Word) : (regWrite s a w).st.queueHusk = s.queueHusk := by
  unfold regWrite
  repeat' first | with_reducible rfl | with_reducible refine keeps_iteR ?_ ?_ | (with_reducible refine (refuse_keeps ..).trans ?_) | (with_reducible refine (ctxParam_keeps ..).trans ?_) | (with_reducible refine (mapWindowWrite_keeps ..).trans ?_) | (with_reducible refine blockWrite_keeps _ _ _ ?_) | (with_reducible refine (plainNow_keeps ..).trans ?_) | extract_lets | split
theorem registerWrite_keeps (s : State) (a : Nat) (w : Word) : (registerWrite s a w).queueHusk = s.queueHusk := by
  unfold registerWrite
  with_reducible repeat' first | rfl | refine keeps_ite ?_ ?_ | refine (regWrite_keeps ..).trans ?_ | refine regRowWrite_keeps ?_ ?_ | extract_lets
theorem opReadReg_keeps (r : Request) (s : State) : (opReadReg r s).st.queueHusk = s.queueHusk := by
  unfold opReadReg
  repeat' first | with_reducible rfl | with_reducible refine keeps_iteR ?_ ?_ | (with_reducible refine (refuse_keeps ..).trans ?_) | extract_lets | exact readRun_keeps _ (fun u a => portRead_keeps ..) _ _
theorem holdSnap_keeps (r : Request) (s : State) (addrs : List Nat) : (holdSnap r s addrs).queueHusk = s.queueHusk := by
  unfold holdSnap
  with_reducible repeat' first | rfl | refine (portHeld_keeps ..).trans ?_ | refine (withCmd_keeps ..).trans ?_ | extract_lets
theorem opReadSnapshot_keeps (r : Request) (s : State) : (opReadSnapshot r s).st.queueHusk = s.queueHusk := by
  unfold opReadSnapshot
  with_reducible repeat' first | rfl | refine keeps_iteR ?_ ?_ | refine keeps_ite ?_ ?_ | refine (refuse_keeps ..).trans ?_
theorem partWrite_keeps (s : State) (e : Nat × List Word) : (partWrite s e).st.queueHusk = s.queueHusk := by
  unfold partWrite
  repeat' first | with_reducible rfl | with_reducible refine keeps_iteR ?_ ?_ | (with_reducible refine (refuse_keeps ..).trans ?_) | (with_reducible refine (ctxParam_keeps ..).trans ?_) | (with_reducible refine (regWrite_keeps ..).trans ?_) | (with_reducible refine (ringLayoutWrite_keeps ..).trans ?_) | extract_lets
theorem runWrite_keeps (s : State) (l : List (Nat × List Word)) : (runWrite s l).st.queueHusk = s.queueHusk := by
  induction l generalizing s with
  | nil => rfl
  | cons e l ih =>
    unfold runWrite
    extract_lets x y
    refine keeps_iteR (partWrite_keeps ..) ?_
    exact (ih _).trans (partWrite_keeps ..)
theorem opWriteReg_keeps (r : Request) (s : State) : (opWriteReg r s).st.queueHusk = s.queueHusk := by
  unfold opWriteReg
  repeat' first | with_reducible rfl | with_reducible refine keeps_iteR ?_ ?_ | (with_reducible refine (refuse_keeps ..).trans ?_) | (with_reducible refine (runWrite_keeps ..).trans ?_) | extract_lets
theorem opModifyReg_keeps (r : Request) (s : State) : (opModifyReg r s).st.queueHusk = s.queueHusk := by
  unfold opModifyReg
  extract_lets a old x
  have h1 : old.st.queueHusk = s.queueHusk := regRead_keeps ..
  have h2 : x.st.queueHusk = s.queueHusk := (partWrite_keeps ..).trans h1
  exact keeps_iteR rfl (keeps_iteR rfl (keeps_iteR h1 (keeps_iteR rfl h2)))

end

end Sys2Proof.Machine
end

