-- ==== Sys2Proof/Laws/FrameBoot.lean ====
section
/-! SUPPORT. Frames of the operations over configuration, start-up and resets: they leave the queue of waiting commands alone, and Husk's power, state and
general output. One lemma an operation. -/

namespace Sys2Proof.Machine

open Sys2Proof

section

set_option linter.unusedTactic false
set_option linter.unreachableTactic false

theorem setBankImage_keeps (s : State) (b : Nat) (img : List Word) : (setBankImage s b img).queueHusk = s.queueHusk := by
  unfold setBankImage
  with_reducible repeat' first | rfl | refine keeps_ite ?_ ?_ | refine (withNvm_keeps ..).trans ?_ | extract_lets
theorem cfgCommand_keeps (r : Request) (s : State) : (cfgCommand r s).st.queueHusk = s.queueHusk := by
  unfold cfgCommand
  with_reducible repeat' first | rfl | refine keeps_iteR ?_ ?_ | refine keeps_ite ?_ ?_ | refine (camLoad_keeps ..).trans ?_ | refine (opAdmit_keeps ..).trans ?_ | refine (opCanSchedule_keeps ..).trans ?_ | refine (opCtxBind_keeps ..).trans ?_ | refine (opCtxCreate_keeps ..).trans ?_ | refine (opCtxDelete_keeps ..).trans ?_ | refine (opCtxParam_keeps ..).trans ?_ | refine (opFioConfig_keeps ..).trans ?_ | refine (opGearRatio_keeps ..).trans ?_ | refine (opModifyReg_keeps ..).trans ?_ | refine (opPulse_keeps ..).trans ?_ | refine (opSetLimits_keeps ..).trans ?_ | refine (opSheafRole_keeps ..).trans ?_ | refine (opSwardRoute_keeps ..).trans ?_ | refine (opWriteReg_keeps ..).trans ?_ | refine (refuse_keeps ..).trans ?_ | extract_lets | split
theorem entryApply_keeps (b : Nat) (s : State) (e : CfgEntry) : (entryApply b s e).st.queueHusk = s.queueHusk := by
  cases e <;> unfold entryApply <;> repeat' first | with_reducible rfl | with_reducible refine keeps_iteR ?_ ?_ | (with_reducible refine (refuse_keeps ..).trans ?_) | (with_reducible refine (opWriteReg_keeps ..).trans ?_) | (with_reducible refine (cfgCommand_keeps ..).trans ?_) | extract_lets
theorem replay_keeps (b : Nat) (s : State) (i : Nat) (l : List CfgEntry) : (replay b s i l).1.queueHusk = s.queueHusk := by
  induction l generalizing s i with
  | nil => rfl
  | cons e l ih =>
    unfold replay
    extract_lets x
    refine keeps_ite1 rfl ?_
    exact (ih _ _).trans ((withCmd_keeps ..).trans (entryApply_keeps ..))
theorem defaultReg_keeps (s : State) (a : Nat) : (defaultReg s a).queueHusk = s.queueHusk := by
  unfold defaultReg
  with_reducible repeat' first | rfl | refine keeps_ite ?_ ?_ | refine (State.setFrc_keeps ..).trans ?_ | refine (regWrite_keeps ..).trans ?_ | refine (setReg_keeps ..).trans ?_ | extract_lets
theorem defaultRegs_keeps (s : State) (p : Nat → Bool) : (defaultRegs s p).queueHusk = s.queueHusk := by
  unfold defaultRegs
  with_reducible repeat' first | rfl | refine keeps_foldl ?_ ?_ | intro _ _ | refine (defaultReg_keeps ..).trans ?_
theorem defaultClock_keeps (s : State) : (defaultClock s).queueHusk = s.queueHusk := by
  unfold defaultClock
  with_reducible repeat' first | rfl | refine keeps_ite ?_ ?_ | refine keeps_foldl ?_ ?_ | intro _ _ | refine (State.setFlag_keeps ..).trans ?_ | refine (State.setFld_keeps ..).trans ?_ | refine (clkSetQual_keeps ..).trans ?_ | refine (fdbkGate_keeps ..).trans ?_ | refine (senseGate_keeps ..).trans ?_ | refine (setReg_keeps ..).trans ?_ | extract_lets
theorem defaultRing_keeps (s : State) (n : Nat) : (defaultRing s n).queueHusk = s.queueHusk := by
  unfold defaultRing
  with_reducible repeat' first | rfl | refine keeps_ite ?_ ?_ | refine (ringClear_keeps ..).trans ?_ | refine (setReg_keeps ..).trans ?_ | extract_lets
theorem defaultLoop_keeps (s : State) : (defaultLoop s).queueHusk = s.queueHusk := by
  unfold defaultLoop
  with_reducible repeat' first | rfl | refine keeps_ite ?_ ?_ | refine keeps_foldl ?_ ?_ | intro _ _ | refine (addPend_keeps ..).trans ?_ | refine (loopRefresh_keeps ..).trans ?_ | refine (setEnvelope_keeps ..).trans ?_ | extract_lets
theorem defaultGroup_keeps (s : State) (g : Nat) : (defaultGroup s g).queueHusk = s.queueHusk := by
  unfold defaultGroup
  with_reducible repeat' first | rfl | refine keeps_ite ?_ ?_ | refine (State.setFrc_keeps ..).trans ?_ | refine (addPend_keeps ..).trans ?_ | refine (setReg_keeps ..).trans ?_ | extract_lets
theorem defaultContext_keeps (s : State) (k : Nat) : (defaultContext s k).queueHusk = s.queueHusk := by
  unfold defaultContext
  with_reducible repeat' first | rfl | refine keeps_ite ?_ ?_ | refine (addPend_keeps ..).trans ?_ | refine (ctxFree_keeps ..).trans ?_ | extract_lets
theorem inkReset_keeps (s : State) : (inkReset s).queueHusk = s.queueHusk := by
  unfold inkReset
  with_reducible repeat' first | rfl | refine keeps_foldl ?_ ?_ | intro _ _ | refine (State.setFld_keeps ..).trans ?_ | refine (State.setInkS_keeps ..).trans ?_ | refine (inkReadAbandon_keeps ..).trans ?_ | refine (inkSetState_keeps ..).trans ?_ | refine (withInk_keeps ..).trans ?_ | extract_lets
theorem defaultChannel_keeps (s : State) (n : Nat) : (defaultChannel s n).queueHusk = s.queueHusk := by
  unfold defaultChannel
  with_reducible repeat' first | rfl | refine keeps_ite ?_ ?_ | refine (contFollow_keeps ..).trans ?_ | refine (fioCommand_keeps ..).trans ?_ | refine (fioRefresh_keeps ..).trans ?_ | refine (setReg_keeps ..).trans ?_ | refine (withField_keeps ..).trans ?_ | extract_lets
theorem blockDefault_keeps (s : State) (b : Nat) : (blockDefault s b).queueHusk = s.queueHusk := by
  unfold blockDefault
  with_reducible repeat' first | rfl | refine keeps_ite ?_ ?_ | refine keeps_foldl ?_ ?_ | intro _ _ | refine (State.setFlag_keeps ..).trans ?_ | refine (State.setFld_keeps ..).trans ?_ | refine (State.setPulse_keeps ..).trans ?_ | refine (calCopy_keeps ..).trans ?_ | refine (canReset_keeps ..).trans ?_ | refine (defaultChannel_keeps ..).trans ?_ | refine (defaultClock_keeps ..).trans ?_ | refine (defaultContext_keeps ..).trans ?_ | refine (defaultGroup_keeps ..).trans ?_ | refine (defaultLoop_keeps ..).trans ?_ | refine (defaultRegs_keeps ..).trans ?_ | refine (defaultRing_keeps ..).trans ?_ | refine (hrdyUpdate_keeps ..).trans ?_ | refine (inkReset_keeps ..).trans ?_ | refine (irqUpdate_keeps ..).trans ?_ | refine (loopRefresh_keeps ..).trans ?_ | refine (pulseStop_keeps ..).trans ?_ | refine (sheafTake_keeps ..).trans ?_ | refine (swDown_keeps ..).trans ?_ | refine (swWriteTable_keeps ..).trans ?_ | refine (withSward_keeps ..).trans ?_ | extract_lets | split
theorem blockFail_keeps (s : State) (b reason : Nat) (at_ : Option (Nat × Nat)) : (blockFail s b reason at_).queueHusk = s.queueHusk := by
  unfold blockFail
  with_reducible repeat' first | rfl | refine keeps_ite ?_ ?_ | refine (State.raise_keeps ..).trans ?_ | refine (State.setFld_keeps ..).trans ?_ | refine (blockDefault_keeps ..).trans ?_ | refine (setReg_keeps ..).trans ?_ | extract_lets | split
theorem blockApply_keeps (img : List Word) (s : State) (b : Nat) : (blockApply img s b).queueHusk = s.queueHusk := by
  unfold blockApply
  with_reducible repeat' first | rfl | refine keeps_ite ?_ ?_ | refine (blockDefault_keeps ..).trans ?_ | refine (blockFail_keeps ..).trans ?_ | refine (calCopy_keeps ..).trans ?_ | refine (replay_keeps ..).trans ?_ | extract_lets | split
theorem safeApply_keeps (img : List Word) (s : State) : (safeApply img s).queueHusk = s.queueHusk := by
  unfold safeApply
  with_reducible repeat' first | rfl | refine keeps_ite ?_ ?_ | refine (blockApply_keeps ..).trans ?_ | refine (safeCfgFault_keeps ..).trans ?_ | refine (setInForce_keeps ..).trans ?_ | refine (setRegs_keeps ..).trans ?_ | extract_lets
theorem oneApply_keeps (img : List Word) (t : State) (b : Nat) : (oneApply img t b).queueHusk = t.queueHusk := by
  unfold oneApply
  with_reducible repeat' first | rfl | refine keeps_ite ?_ ?_ | refine (State.setFld_keeps ..).trans ?_ | refine (blockApply_keeps ..).trans ?_ | refine (blockDefault_keeps ..).trans ?_ | refine (safeApply_keeps ..).trans ?_ | refine (safeCfgFault_keeps ..).trans ?_ | extract_lets
theorem blocksApply_keeps (img : List Word) (s : State) (l : List Nat) : (blocksApply img s l).1.queueHusk = s.queueHusk := by
  induction l generalizing s with
  | nil => rfl
  | cons b l ih =>
    unfold blocksApply
    extract_lets d
    have hd : d.queueHusk = s.queueHusk := keeps_ite (blockDefault_keeps ..) rfl
    exact keeps_ite1 hd ((ih _).trans ((oneApply_keeps ..).trans hd))
theorem applyBegin_keeps (s : State) : (applyBegin s).queueHusk = s.queueHusk := by
  unfold applyBegin
  with_reducible repeat' first | rfl | refine (State.setFld_keeps ..).trans ?_ | refine (setReg_keeps ..).trans ?_
theorem applyEnd_keeps (s : State) (inst : Nat) : (applyEnd s inst).queueHusk = s.queueHusk := by
  unfold applyEnd
  with_reducible repeat' first | rfl | refine (State.raise_keeps ..).trans ?_
theorem bootApply_keeps (s : State) : (bootApply s).queueHusk = s.queueHusk := by
  unfold bootApply
  with_reducible repeat' first | rfl | refine (State.setFlag_keeps ..).trans ?_ | refine (State.setFld_keeps ..).trans ?_ | refine (applyBegin_keeps ..).trans ?_ | refine (applyEnd_keeps ..).trans ?_ | refine (blocksApply_keeps ..).trans ?_ | refine (setReg_keeps ..).trans ?_ | refine (withBoot_keeps ..).trans ?_ | extract_lets | split
theorem loadApply_keeps (s : State) (mask src : Nat) : (loadApply s mask src).queueHusk = s.queueHusk := by
  unfold loadApply
  with_reducible repeat' first | rfl | refine keeps_ite ?_ ?_ | refine (State.setFlag_keeps ..).trans ?_ | refine (applyEnd_keeps ..).trans ?_ | refine (blocksApply_keeps ..).trans ?_ | refine (withBoot_keeps ..).trans ?_ | refine (withReed_keeps ..).trans ?_ | extract_lets | split
theorem opCfgLoad_keeps (r : Request) (s : State) : (opCfgLoad r s).st.queueHusk = s.queueHusk := by
  unfold opCfgLoad
  with_reducible repeat' first | rfl | refine keeps_iteR ?_ ?_ | refine keeps_ite ?_ ?_ | refine (State.setFlag_keeps ..).trans ?_ | refine (applyBegin_keeps ..).trans ?_ | refine (refuse_keeps ..).trans ?_ | refine (withBoot_keeps ..).trans ?_ | refine (withReed_keeps ..).trans ?_ | extract_lets
theorem mapRestore_keeps (s : State) (e : Nat × Word × List Word) : (mapRestore s e).queueHusk = s.queueHusk := by
  unfold mapRestore
  with_reducible repeat' first | rfl | refine keeps_ite ?_ ?_ | refine keeps_foldl ?_ ?_ | intro _ _ | refine (State.raise_keeps ..).trans ?_ | refine (State.setFlag_keeps ..).trans ?_ | refine (State.setFld_keeps ..).trans ?_ | refine (setMapW_keeps ..).trans ?_ | extract_lets
theorem camRestore_keeps (s : State) (e : Nat × Word × List Word) : (camRestore s e).queueHusk = s.queueHusk := by
  unfold camRestore
  with_reducible repeat' first | rfl | refine keeps_ite ?_ ?_ | refine keeps_foldl ?_ ?_ | intro _ _ | refine (State.raise_keeps ..).trans ?_ | refine (setCamW_keeps ..).trans ?_ | refine (setReg_keeps ..).trans ?_ | extract_lets
theorem capture_keeps (s : State) : (capture s).queueHusk = s.queueHusk := by
  unfold capture
  with_reducible repeat' first | rfl | refine keeps_ite ?_ ?_ | refine keeps_foldl ?_ ?_ | intro _ _ | refine (setReg_keeps ..).trans ?_ | extract_lets
theorem opCfgSave_keeps (r : Request) (s : State) : (opCfgSave r s).st.queueHusk = s.queueHusk := by
  unfold opCfgSave
  with_reducible repeat' first | rfl | refine keeps_iteR ?_ ?_ | refine keeps_ite ?_ ?_ | refine (State.setFlag_keeps ..).trans ?_ | refine (capture_keeps ..).trans ?_ | refine (refuse_keeps ..).trans ?_ | refine (withBoot_keeps ..).trans ?_ | extract_lets
theorem saveFail_keeps (s : State) (p b : Nat) : (saveFail s p b).queueHusk = s.queueHusk := by
  unfold saveFail
  with_reducible repeat' first | rfl | refine keeps_ite ?_ ?_ | refine (setBankImage_keeps ..).trans ?_ | refine (withNvm_keeps ..).trans ?_ | extract_lets
theorem saveGood_keeps (s : State) (p b : Nat) (img : List Word) : (saveGood s p b img).queueHusk = s.queueHusk := by
  unfold saveGood
  with_reducible repeat' first | rfl | refine keeps_ite ?_ ?_ | refine (State.setFlag_keeps ..).trans ?_ | refine (State.setFld_keeps ..).trans ?_ | refine (keepBump_keeps ..).trans ?_ | refine (setBankImage_keeps ..).trans ?_ | refine (setReg_keeps ..).trans ?_ | refine (withNvm_keeps ..).trans ?_ | extract_lets
theorem cfgSaved_keeps (s : State) (res : Nat) : (cfgSaved s res).queueHusk = s.queueHusk := by
  unfold cfgSaved
  with_reducible repeat' first | rfl | refine keeps_ite ?_ ?_ | refine (State.raise_keeps ..).trans ?_ | refine (State.setFlag_keeps ..).trans ?_ | refine (saveFail_keeps ..).trans ?_ | refine (saveGood_keeps ..).trans ?_ | refine (withBoot_keeps ..).trans ?_ | extract_lets | split
theorem keepReset_keeps (s : State) (lost : List (Fin 1024)) : (keepReset s lost).queueHusk = s.queueHusk := by
  unfold keepReset
  with_reducible repeat' first | rfl | refine keeps_ite ?_ ?_ | refine keeps_foldl ?_ ?_ | intro _ _ | refine (setReg_keeps ..).trans ?_ | refine (withKeep_keeps ..).trans ?_ | extract_lets
theorem nvmReset_keeps (s : State) : (nvmReset s).queueHusk = s.queueHusk := by
  unfold nvmReset
  with_reducible repeat' first | rfl | refine keeps_ite ?_ ?_ | refine keeps_iteR ?_ ?_ | refine keeps_ite1 ?_ ?_ | refine keeps_ite2 ?_ ?_ | refine keeps_foldl ?_ ?_ | refine keeps_foldl1 ?_ ?_ | refine keeps_foldl2 ?_ ?_ | refine keeps_iteO ?_ ?_ | refine keeps_some ?_ | refine keeps_none ?_ | assumption | intro _ _ | intro _ | (guard_target =~ (_ : HuskS) = _; with_unfolding_all rfl) | refine (fwErase_keeps ..).trans ?_ | refine (saveFail_keeps ..).trans ?_ | refine (withBoot_keeps ..).trans ?_ | extract_lets | split | dsimp +zetaDelta only
theorem coreReset_keeps (s : State) (c : Nat) (l : List (Fin 1024)) : (coreReset s c l).queueHusk = s.queueHusk := by
  unfold coreReset
  extract_lets t x
  have h : t.queueHusk = s.queueHusk := (nvmReset_keeps ..).trans (keepReset_keeps ..)
  exact (fioLevels_keeps ..).trans h
theorem resetRelease_keeps (s : State) (straps : BitVec 8) : (resetRelease s straps).queueHusk = s.queueHusk := by
  unfold resetRelease
  with_reducible repeat' first | rfl | refine keeps_ite ?_ ?_ | refine keeps_foldl ?_ ?_ | intro _ _ | refine (State.setFld_keeps ..).trans ?_ | refine (keepBump_keeps ..).trans ?_ | refine (setReg_keeps ..).trans ?_ | refine (withBoot_keeps ..).trans ?_ | refine (withPhase_keeps ..).trans ?_ | extract_lets
theorem recoveryEntry_keeps (s : State) : (recoveryEntry s).queueHusk = s.queueHusk := by
  unfold recoveryEntry
  with_reducible repeat' first | rfl | refine (State.setFlag_keeps ..).trans ?_
theorem firmwareLoaded_keeps (s : State) : (firmwareLoaded s).queueHusk = s.queueHusk := by
  unfold firmwareLoaded
  with_reducible repeat' first | rfl | refine keeps_ite ?_ ?_ | refine keeps_foldl ?_ ?_ | intro _ _ | refine (State.raise_keeps ..).trans ?_ | refine (State.setFlag_keeps ..).trans ?_ | refine (State.setFld_keeps ..).trans ?_ | refine (keepBump_keeps ..).trans ?_ | refine (keepRead_keeps ..).trans ?_ | refine (recoveryEntry_keeps ..).trans ?_ | refine (setReg_keeps ..).trans ?_ | refine (withBoot_keeps ..).trans ?_ | refine (withReed_keeps ..).trans ?_ | extract_lets
theorem raiseOwed_keeps (s : State) : (raiseOwed s).queueHusk = s.queueHusk := by
  unfold raiseOwed
  with_reducible repeat' first | rfl | refine (State.raise_keeps ..).trans ?_ | refine (withBoot_keeps ..).trans ?_ | refine (withCan_keeps ..).trans ?_ | extract_lets | split
theorem commandReady_keeps (s : State) (us : Word) : (commandReady s us).queueHusk = s.queueHusk := by
  unfold commandReady
  with_reducible repeat' first | rfl | refine keeps_ite ?_ ?_ | refine (State.raise_keeps ..).trans ?_ | refine (evtDrain_keeps ..).trans ?_ | refine (hrdyUpdate_keeps ..).trans ?_ | refine (raiseOwed_keeps ..).trans ?_ | refine (setReg_keeps ..).trans ?_ | refine (withPhase_keeps ..).trans ?_ | refine (withReed_keeps ..).trans ?_ | extract_lets
theorem ethReset_keeps (s : State) (p : Nat) : (ethReset s p).queueHusk = s.queueHusk := by
  unfold ethReset
  with_reducible repeat' first | rfl | refine (State.setNetPort_keeps ..).trans ?_ | refine (setReg_keeps ..).trans ?_ | refine (withRegs_keeps ..).trans ?_ | extract_lets
theorem filterClear_keeps (s : State) (p : Nat) : (filterClear s p).queueHusk = s.queueHusk := by
  unfold filterClear
  with_reducible repeat' first | rfl | refine (State.setPort_keeps ..).trans ?_ | extract_lets
theorem blockReset_keeps (s0 : State) (n : Nat) : (blockReset s0 n).queueHusk = s0.queueHusk := by
  unfold blockReset
  with_reducible repeat' first | rfl | refine keeps_ite ?_ ?_ | refine (State.raise_keeps ..).trans ?_ | refine (State.setFlag_keeps ..).trans ?_ | refine (canReset_keeps ..).trans ?_ | refine (ethReset_keeps ..).trans ?_ | refine (filterClear_keeps ..).trans ?_ | refine (inkReset_keeps ..).trans ?_ | refine (swReset_keeps ..).trans ?_ | refine (withBoot_keeps ..).trans ?_ | refine (withReed_keeps ..).trans ?_ | extract_lets | split
theorem opResetBlock_keeps (r : Request) (s : State) : (opResetBlock r s).st.queueHusk = s.queueHusk := by
  unfold opResetBlock
  with_reducible repeat' first | rfl | refine keeps_iteR ?_ ?_ | refine keeps_ite ?_ ?_ | refine (blockReset_keeps ..).trans ?_ | refine (refuse_keeps ..).trans ?_ | extract_lets
theorem reedRestarted_keeps (s : State) : (reedRestarted s).queueHusk = s.queueHusk := by
  unfold reedRestarted
  with_reducible repeat' first | rfl | refine keeps_ite ?_ ?_ | refine (camAbandon_keeps ..).trans ?_ | refine (fwAbandon_keeps ..).trans ?_ | refine (fwFallback_keeps ..).trans ?_ | refine (withCmd_keeps ..).trans ?_ | refine (withReed_keeps ..).trans ?_ | extract_lets
theorem opDormant_keeps (_r : Request) (s : State) : (opDormant _r s).st.queueHusk = s.queueHusk := by
  unfold opDormant
  with_reducible repeat' first | rfl | refine keeps_iteR ?_ ?_ | refine keeps_ite ?_ ?_ | refine (refuse_keeps ..).trans ?_
theorem wakeReset_keeps (s : State) : (wakeReset s).queueHusk = s.queueHusk := by
  unfold wakeReset
  with_reducible repeat' first | rfl | refine (coreReset_keeps ..).trans ?_
theorem wake_keeps (s : State) (src inst : Nat) (rising : Bool) : (wake s src inst rising).queueHusk = s.queueHusk := by
  unfold wake
  with_reducible repeat' first | rfl | refine keeps_ite ?_ ?_ | refine (wakeReset_keeps ..).trans ?_ | refine (withBoot_keeps ..).trans ?_ | extract_lets
theorem canWakeDetect_keeps (s : State) (n : Nat) (sel : Bool) (dom : Nat) (ide : Bool) (id dlc : Nat) (data : List Byte) : (canWakeDetect s n sel dom ide id dlc data).queueHusk = s.queueHusk := by
  unfold canWakeDetect
  with_reducible repeat' first | rfl | refine keeps_ite ?_ ?_ | refine (canWake_keeps ..).trans ?_ | refine (wakeReset_keeps ..).trans ?_ | refine (withCan_keeps ..).trans ?_ | extract_lets
theorem tick_keeps (s : State) : (tick s).queueHusk = s.queueHusk := by
  unfold tick
  with_reducible repeat' first | rfl | refine keeps_ite ?_ ?_ | refine (netPump_keeps ..).trans ?_ | refine (withDt_keeps ..).trans ?_

end

end Sys2Proof.Machine
end

