-- ==== Sys2Proof/Laws/MotorOps.lean ====
section
/-! SUPPORT. The operations over rings, events, replies, registers, Inkwell, latch units, the field die and the safety channels that leave the
motor side alone: the values in force, contexts and passes, the sensing front end, the nib bank, the feedback channels, maps and cams.
One lemma an operation. -/

namespace Sys2Proof.Machine

open Sys2Proof

section

set_option linter.unusedTactic false
set_option linter.unreachableTactic false

/-- What `State.motorSide` is. -/
abbrev MotorSide := Tbl Word × LoopS × SenseS × NibB × FdbkS × StoreS

theorem offMotor_ite {c : Prop} [Decidable c] {a b : State} {k : MotorSide} (ha : a.motorSide = k) (hb : b.motorSide = k) : (if c then a else b).motorSide = k := by
  split <;> assumption
theorem offMotor_iteR {c : Prop} [Decidable c] {a b : Res} {k : MotorSide} (ha : a.st.motorSide = k) (hb : b.st.motorSide = k) : (if c then a else b).st.motorSide = k := by
  split <;> assumption
theorem offMotor_ite1 {α : Type} {c : Prop} [Decidable c] {a b : State × α} {k : MotorSide} (ha : a.1.motorSide = k) (hb : b.1.motorSide = k) :
    (if c then a else b).1.motorSide = k := by
  split <;> assumption
theorem offMotor_ite2 {α : Type} {c : Prop} [Decidable c] {a b : α × State} {k : MotorSide} (ha : a.2.motorSide = k) (hb : b.2.motorSide = k) :
    (if c then a else b).2.motorSide = k := by
  split <;> assumption
theorem offMotor_foldl {α : Type} {f : State → α → State} {l : List α} {s : State} {k : MotorSide} (h : ∀ t x, (f t x).motorSide = t.motorSide) (hs : s.motorSide = k) :
    (l.foldl f s).motorSide = k := (foldl_keep f State.motorSide h l s).trans hs
theorem offMotor_foldl1 {α β : Type} {f : State × β → α → State × β} {l : List α} {s : State × β} {k : MotorSide} (h : ∀ t x, (f t x).1.motorSide = t.1.motorSide)
    (hs : s.1.motorSide = k) : (l.foldl f s).1.motorSide = k := (foldl_keep f (fun t => t.1.motorSide) h l s).trans hs
theorem offMotor_foldl2 {α β : Type} {f : β × State → α → β × State} {l : List α} {s : β × State} {k : MotorSide} (h : ∀ t x, (f t x).2.motorSide = t.2.motorSide)
    (hs : s.2.motorSide = k) : (l.foldl f s).2.motorSide = k := (foldl_keep f (fun t => t.2.motorSide) h l s).trans hs
theorem withRegs_offMotor (s : State) (x : Tbl Word) : (s.withRegs x).motorSide = s.motorSide := rfl
theorem withDt_offMotor (s : State) (x : Tick) : (s.withDt x).motorSide = s.motorSide := rfl
theorem withEvt_offMotor (s : State) (x : EvtS) : (s.withEvt x).motorSide = s.motorSide := rfl
theorem withCmd_offMotor (s : State) (x : CmdS) : (s.withCmd x).motorSide = s.motorSide := rfl
theorem withPhase_offMotor (s : State) (x : Phase) : (s.withPhase x).motorSide = s.motorSide := rfl
theorem withReed_offMotor (s : State) (x : ReedSt) : (s.withReed x).motorSide = s.motorSide := rfl
theorem withClk_offMotor (s : State) (x : ClkS) : (s.withClk x).motorSide = s.motorSide := rfl
theorem withInk_offMotor (s : State) (x : InkS) : (s.withInk x).motorSide = s.motorSide := rfl
theorem withField_offMotor (s : State) (x : FieldS) : (s.withField x).motorSide = s.motorSide := rfl
theorem withNet_offMotor (s : State) (x : NetS) : (s.withNet x).motorSide = s.motorSide := rfl
theorem withCan_offMotor (s : State) (x : CanS) : (s.withCan x).motorSide = s.motorSide := rfl
theorem withSward_offMotor (s : State) (x : SwardS) : (s.withSward x).motorSide = s.motorSide := rfl
theorem withSheaf_offMotor (s : State) (x : SheafS) : (s.withSheaf x).motorSide = s.motorSide := rfl
theorem withNvm_offMotor (s : State) (x : NvmS) : (s.withNvm x).motorSide = s.motorSide := rfl
theorem withKeep_offMotor (s : State) (x : KeepS) : (s.withKeep x).motorSide = s.motorSide := rfl
theorem withBoot_offMotor (s : State) (x : BootS) : (s.withBoot x).motorSide = s.motorSide := rfl
theorem withFree_offMotor (s : State) (x : Nat) : (s.withFree x).motorSide = s.motorSide := rfl
theorem withSafe_offMotor (s : State) (x : SafeS) : (s.withSafe x).motorSide = s.motorSide := rfl
theorem setReg_offMotor (s : State) (a : Nat) (x : Word) : (s.setReg a x).motorSide = s.motorSide := rfl
theorem setRegs_offMotor (s : State) (l : List (Nat × Word)) : (s.setRegs l).motorSide = s.motorSide := by
  exact offMotor_foldl (fun t x => setReg_offMotor t _ _) rfl
theorem CmdOnly.motorSide {s t : State} (h : CmdOnly s t) : t.motorSide = s.motorSide := by simp [State.motorSide, h.force, h.loop, h.sense, h.nib, h.fdbk, h.store]
theorem ringSetEnts_offMotor (s : State) (n : Nat) (es : List Ent) : (ringSetEnts s n es).motorSide = s.motorSide := (CmdOnly.ringSetEnts s n es).motorSide
theorem ringStore_offMotor (s : State) (n : Nat) (ws : List Word) (e : Ent) : (ringStore s n ws e).motorSide = s.motorSide := (CmdOnly.ringStore s n ws e).motorSide
theorem ringDrop_offMotor (s : State) (n : Nat) : (ringDrop s n).motorSide = s.motorSide := (CmdOnly.ringDrop s n).motorSide
theorem ring253_offMotor (s : State) (n : Nat) : (ring253 s n).motorSide = s.motorSide := (CmdOnly.ring253 s n).motorSide
theorem ringLose_offMotor (s : State) (n k : Nat) : (ringLose s n k).motorSide = s.motorSide := (CmdOnly.ringLose s n k).motorSide
theorem netTx_offMotor (s : State) (p : Nat) (f : NetFrame) : (netTx s p f).motorSide = s.motorSide := (CmdOnly.netTx s p f).motorSide
theorem udpCarry_offMotor (s : State) (p : Nat) : (udpCarry s p).motorSide = s.motorSide := (CmdOnly.udpCarry s p).motorSide
theorem cmdError_offMotor (s : State) (p o st q : Nat) : (cmdError s p o st q).motorSide = s.motorSide := (CmdOnly.cmdError s p o st q).motorSide
theorem sendReply_offMotor (s : State) (r : Request) (ran : Bool) (st stamp : Nat) (data : List Word) : (sendReply s r ran st stamp data).motorSide = s.motorSide := (CmdOnly.sendReply s r ran st stamp data).motorSide
theorem answer_offMotor (s : State) (r : Request) (busy resv ran : Bool) (st stamp : Nat) (data : List Word) : (answer s r busy resv ran st stamp data).motorSide = s.motorSide := (CmdOnly.answer s r busy resv ran st stamp data).motorSide
theorem replyFlush_offMotor (n : Nat) (s : State) (p : Nat) : (replyFlush n s p).motorSide = s.motorSide := (CmdOnly.replyFlush n s p).motorSide
theorem replyPut_offMotor (s : State) (p : Nat) (e : Reply) : (replyPut s p e).motorSide = s.motorSide := (CmdOnly.replyPut s p e).motorSide
theorem portHeld_offMotor (s : State) (r : Request) : (portHeld s r).motorSide = s.motorSide := (CmdOnly.portHeld s r).motorSide
theorem ringCopyIn_offMotor (s : State) (n off : Nat) (ws : List Word) : (ringCopyIn s n off ws).motorSide = s.motorSide := (CmdOnly.ringCopyIn n ws s off).motorSide
theorem ringMakeRoom_offMotor (s : State) (n need fuel k : Nat) : (ringMakeRoom s n need fuel k).1.motorSide = s.motorSide := (CmdOnly.ringMakeRoom n need fuel s k).motorSide
theorem ringPut_offMotor (s : State) (n : Nat) (ws : List Word) (e : Ent) : (ringPut s n ws e).1.motorSide = s.motorSide := (CmdOnly.ringPut s n ws e).motorSide
theorem netDrain_offMotor (s : State) (p fuel : Nat) : (netDrain s p fuel).motorSide = s.motorSide := (CmdOnly.netDrain p fuel s).motorSide
theorem respond_offMotor (r : Request) (x : Res) : (respond r x).motorSide = x.st.motorSide := (CmdOnly.respond r x).motorSide
theorem offMotor_iteO {c : Prop} [Decidable c] {a b : Option Res} {d : Res} {k : MotorSide} (ha : (a.getD d).st.motorSide = k) (hb : (b.getD d).st.motorSide = k) :
    ((if c then a else b).getD d).st.motorSide = k := by
  split <;> assumption
theorem offMotor_some {x d : Res} {k : MotorSide} (h : x.st.motorSide = k) : ((some x).getD d).st.motorSide = k := h
theorem offMotor_none {d : Res} {k : MotorSide} (h : d.st.motorSide = k) : ((none : Option Res).getD d).st.motorSide = k := h
theorem State.setFld_offMotor (s : State) (f : RF) (v : Nat) : (State.setFld s f v).motorSide = s.motorSide := by
  unfold State.setFld
  with_reducible repeat' first | rfl | refine (setReg_offMotor ..).trans ?_
theorem State.setFlag_offMotor (s : State) (f : RF) (b : Bool) : (State.setFlag s f b).motorSide = s.motorSide := by
  unfold State.setFlag
  with_reducible repeat' first | rfl | refine (State.setFld_offMotor ..).trans ?_
theorem State.cntSat_offMotor (s : State) (f : RF) : (State.cntSat s f).motorSide = s.motorSide := by
  unfold State.cntSat
  with_reducible repeat' first | rfl | refine (State.setFld_offMotor ..).trans ?_
theorem State.cntWrap_offMotor (s : State) (f : RF) : (State.cntWrap s f).motorSide = s.motorSide := by
  unfold State.cntWrap
  with_reducible repeat' first | rfl | refine (State.setFld_offMotor ..).trans ?_
theorem State.setReg64_offMotor (s : State) (a : Nat) (x : Tick) : (State.setReg64 s a x).motorSide = s.motorSide := by
  unfold State.setReg64
  with_reducible repeat' first | rfl | refine (setReg_offMotor ..).trans ?_
theorem State.fresh_offMotor (s : State) : (State.fresh s).2.motorSide = s.motorSide := by
  unfold State.fresh
  with_reducible repeat' first | rfl | refine (withFree_offMotor ..).trans ?_
theorem State.at_offMotor (s : State) (t : Tick) : (State.at s t).motorSide = s.motorSide := by
  unfold State.at
  with_reducible repeat' first | rfl | refine offMotor_ite ?_ ?_ | refine (withDt_offMotor ..).trans ?_
theorem State.raise_offMotor (s : State) (ev inst : Nat) (detail : Word) : (State.raise s ev inst detail).motorSide = s.motorSide := by
  unfold State.raise
  with_reducible repeat' first | rfl | refine (withEvt_offMotor ..).trans ?_ | extract_lets
theorem State.raiseAll_offMotor (s : State) (l : List Occ) : (State.raiseAll s l).motorSide = s.motorSide := by
  unfold State.raiseAll
  with_reducible repeat' first | rfl | refine (withEvt_offMotor ..).trans ?_ | extract_lets
theorem rateMark_offMotor (s : State) (ev inst : Nat) : (rateMark s ev inst).motorSide = s.motorSide := by
  unfold rateMark
  with_reducible repeat' first | rfl | refine (withEvt_offMotor ..).trans ?_ | extract_lets
theorem State.raiseLim_offMotor (s : State) (ev inst : Nat) (detail : Word) (lim : Nat) : (State.raiseLim s ev inst detail lim).motorSide = s.motorSide := by
  unfold State.raiseLim
  with_reducible repeat' first | rfl | refine offMotor_ite ?_ ?_ | refine (State.raise_offMotor ..).trans ?_ | refine (rateMark_offMotor ..).trans ?_
theorem ringMemPut_offMotor (s : State) (w : Nat) (x : Word) : (ringMemPut s w x).motorSide = s.motorSide := by
  unfold ringMemPut
  with_reducible repeat' first | rfl | refine (withCmd_offMotor ..).trans ?_ | extract_lets
theorem ringClear_offMotor (s : State) (n : Nat) : (ringClear s n).motorSide = s.motorSide := by
  unfold ringClear
  with_reducible repeat' first | rfl | refine (State.setFld_offMotor ..).trans ?_ | refine (ringSetEnts_offMotor ..).trans ?_
theorem State.setNetPort_offMotor (s : State) (p : Nat) (x : NetPort) : (State.setNetPort s p x).motorSide = s.motorSide := by
  unfold State.setNetPort
  with_reducible repeat' first | rfl | refine (withNet_offMotor ..).trans ?_ | extract_lets
theorem State.setSwPort_offMotor (s : State) (p : Nat) (x : SwPort) : (State.setSwPort s p x).motorSide = s.motorSide := by
  unfold State.setSwPort
  with_reducible repeat' first | rfl | refine (withSward_offMotor ..).trans ?_ | extract_lets
theorem swQueue_offMotor (s : State) (p : Nat) (q : SwQ) : (swQueue s p q).motorSide = s.motorSide := by
  unfold swQueue
  with_reducible repeat' first | rfl | refine (State.setSwPort_offMotor ..).trans ?_ | extract_lets
theorem State.setPort_offMotor (s : State) (p : Nat) (x : Port) : (State.setPort s p x).motorSide = s.motorSide := by
  unfold State.setPort
  with_reducible repeat' first | rfl | refine (withCmd_offMotor ..).trans ?_ | extract_lets
theorem hrdyUpdate_offMotor (s : State) (ready : Bool) : (hrdyUpdate s ready).motorSide = s.motorSide := by
  unfold hrdyUpdate
  with_reducible repeat' first | rfl | refine (State.setFlag_offMotor ..).trans ?_
theorem refuse_offMotor (s : State) (status : Nat) : (refuse s status).st.motorSide = s.motorSide := rfl
theorem discardRequest_offMotor (s : State) (r : Request) : (discardRequest s r).motorSide = s.motorSide := by
  unfold discardRequest
  with_reducible repeat' first | rfl | refine (State.setPort_offMotor ..).trans ?_
theorem serveReg_offMotor (r : Request) (s : State) (form : Bool) (f : State → Res) (h : (f s).st.motorSide = s.motorSide) : (serveReg r s form f).motorSide = s.motorSide := by
  unfold serveReg
  repeat' first | with_reducible rfl | with_reducible refine offMotor_ite ?_ ?_ | exact (respond_offMotor r _).trans h | exact respond_offMotor r _
theorem serveReed_offMotor (r : Request) (s : State) (form : Bool) (f : State → Res) (h : (f s).st.motorSide = s.motorSide) : (serveReed r s form f).motorSide = s.motorSide := by
  unfold serveReed
  repeat' first | with_reducible rfl | with_reducible refine offMotor_ite ?_ ?_ | exact (respond_offMotor r _).trans h | exact respond_offMotor r _ | exact (cmdError_offMotor ..).trans (discardRequest_offMotor ..)
theorem evtRingPut_offMotor (s : State) (n : Nat) (dt : Tick) (noclk : Bool) (rec4 : List Word) : (evtRingPut s n dt noclk rec4).motorSide = s.motorSide := by
  unfold evtRingPut
  with_reducible repeat' first | rfl | refine offMotor_ite ?_ ?_ | refine (ringLose_offMotor ..).trans ?_ | refine (ringMakeRoom_offMotor ..).trans ?_ | refine (ringStore_offMotor ..).trans ?_ | refine (withCmd_offMotor ..).trans ?_ | extract_lets
theorem evtWrite_offMotor (s : State) (ev : Nat) (dt : Tick) (rec4 : List Word) : (evtWrite s ev dt rec4).motorSide = s.motorSide := by
  unfold evtWrite
  with_reducible repeat' first | rfl | refine offMotor_ite ?_ ?_ | refine offMotor_foldl ?_ ?_ | intro _ _ | refine (State.cntWrap_offMotor ..).trans ?_ | refine (evtRingPut_offMotor ..).trans ?_ | extract_lets
theorem holdOpen_offMotor (s : State) (ev : Nat) (t : Tick) (coal : Bool) : (holdOpen s ev t coal).motorSide = s.motorSide := by
  unfold holdOpen
  with_reducible repeat' first | rfl | refine offMotor_ite ?_ ?_ | refine (withEvt_offMotor ..).trans ?_ | extract_lets
theorem holdEnd_offMotor (s : State) (ev : Nat) : (holdEnd s ev).motorSide = s.motorSide := by
  unfold holdEnd
  with_reducible repeat' first | rfl | refine (evtWrite_offMotor ..).trans ?_ | refine (holdOpen_offMotor ..).trans ?_ | refine (withEvt_offMotor ..).trans ?_ | extract_lets | split
theorem irqUpdate_offMotor (s : State) : (irqUpdate s).motorSide = s.motorSide := by
  unfold irqUpdate
  with_reducible repeat' first | rfl | refine offMotor_ite ?_ ?_ | refine offMotor_iteR ?_ ?_ | refine offMotor_ite1 ?_ ?_ | refine offMotor_ite2 ?_ ?_ | refine offMotor_foldl ?_ ?_ | refine offMotor_foldl1 ?_ ?_ | refine offMotor_foldl2 ?_ ?_ | refine offMotor_iteO ?_ ?_ | refine offMotor_some ?_ | refine offMotor_none ?_ | assumption | intro _ _ | intro _ | (guard_target =~ (_ : HuskS) = _; with_unfolding_all rfl) | refine (State.setFlag_offMotor ..).trans ?_ | refine (State.setFld_offMotor ..).trans ?_ | extract_lets | split | dsimp +zetaDelta only
theorem regRowWrite_offMotor {s : State} {a : Nat} {x : Res} {k : MotorSide} (hx : x.st.motorSide = k) (hs : s.motorSide = k) : (regRowWrite s a x).motorSide = k := by
  unfold regRowWrite
  exact offMotor_ite hx hs
theorem State.setInkS_offMotor (s : State) (q : Nat) (x : InkSess) : (State.setInkS s q x).motorSide = s.motorSide := by
  unfold State.setInkS
  with_reducible repeat' first | rfl | refine (withInk_offMotor ..).trans ?_ | extract_lets
theorem inkSetState_offMotor (s : State) (q st : Nat) : (inkSetState s q st).motorSide = s.motorSide := by
  unfold inkSetState
  with_reducible repeat' first | rfl | refine offMotor_ite ?_ ?_ | refine (State.raise_offMotor ..).trans ?_ | refine (State.setFld_offMotor ..).trans ?_ | extract_lets
theorem inkPutRec_offMotor (s : State) (q : Nat) (r : InkRec) : (inkPutRec s q r).motorSide = s.motorSide := by
  unfold inkPutRec
  with_reducible repeat' first | rfl | refine (State.setInkS_offMotor ..).trans ?_ | extract_lets
theorem inkFlag_offMotor (s : State) (q : Nat) (r : InkRec) (f : Nat) : (inkFlag s q r f).motorSide = s.motorSide := by
  unfold inkFlag
  with_reducible repeat' first | rfl | refine (State.setFld_offMotor ..).trans ?_ | refine (inkPutRec_offMotor ..).trans ?_ | extract_lets
theorem inkTrigger_offMotor (s : State) (q : Nat) (t : Tick) (forced : Bool) : (inkTrigger s q t forced).motorSide = s.motorSide := by
  unfold inkTrigger
  with_reducible repeat' first | rfl | refine offMotor_ite ?_ ?_ | refine (State.raise_offMotor ..).trans ?_ | refine (State.setReg64_offMotor ..).trans ?_ | refine (inkFlag_offMotor ..).trans ?_ | refine (inkSetState_offMotor ..).trans ?_ | extract_lets | split
theorem inkArmRec_offMotor (s : State) (q n : Nat) (st : Nat) : (inkArmRec s q n st).motorSide = s.motorSide := by
  unfold inkArmRec
  with_reducible repeat' first | rfl | refine (State.setFld_offMotor ..).trans ?_ | refine (State.setInkS_offMotor ..).trans ?_ | refine (inkSetState_offMotor ..).trans ?_ | extract_lets
theorem inkReadAbandon_offMotor (s : State) (p : InkRead → Bool) : (inkReadAbandon s p).motorSide = s.motorSide := by
  unfold inkReadAbandon
  with_reducible repeat' first | rfl | refine offMotor_foldl ?_ ?_ | intro _ _ | refine (State.raise_offMotor ..).trans ?_ | refine (withInk_offMotor ..).trans ?_ | extract_lets
theorem opInkArm_offMotor (r : Request) (s : State) : (opInkArm r s).st.motorSide = s.motorSide := by
  unfold opInkArm
  with_reducible repeat' first | rfl | refine offMotor_iteR ?_ ?_ | refine offMotor_ite ?_ ?_ | refine offMotor_foldl ?_ ?_ | intro _ _ | refine (State.setFld_offMotor ..).trans ?_ | refine (State.setInkS_offMotor ..).trans ?_ | refine (inkArmRec_offMotor ..).trans ?_ | refine (inkReadAbandon_offMotor ..).trans ?_ | refine (refuse_offMotor ..).trans ?_ | extract_lets
theorem opInkForce_offMotor (r : Request) (s : State) : (opInkForce r s).st.motorSide = s.motorSide := by
  unfold opInkForce
  with_reducible repeat' first | rfl | refine offMotor_iteR ?_ ?_ | refine offMotor_ite ?_ ?_ | refine (inkTrigger_offMotor ..).trans ?_ | refine (refuse_offMotor ..).trans ?_ | extract_lets | split
theorem inkRecEnd_offMotor (s : State) (q : Nat) (partial_ : Bool) : (inkRecEnd s q partial_).motorSide = s.motorSide := by
  unfold inkRecEnd
  with_reducible repeat' first | rfl | refine offMotor_ite ?_ ?_ | refine (State.raise_offMotor ..).trans ?_ | refine (State.setFlag_offMotor ..).trans ?_ | refine (inkFlag_offMotor ..).trans ?_ | extract_lets | split
theorem opInkStop_offMotor (r : Request) (s : State) : (opInkStop r s).st.motorSide = s.motorSide := by
  unfold opInkStop
  with_reducible repeat' first | rfl | refine offMotor_iteR ?_ ?_ | refine offMotor_ite ?_ ?_ | refine (inkRecEnd_offMotor ..).trans ?_ | refine (inkSetState_offMotor ..).trans ?_ | refine (refuse_offMotor ..).trans ?_ | extract_lets | split
theorem inkRecordComplete_offMotor (s : State) (q : Nat) : (inkRecordComplete s q).motorSide = s.motorSide := by
  unfold inkRecordComplete
  with_reducible repeat' first | rfl | refine offMotor_ite ?_ ?_ | refine (inkArmRec_offMotor ..).trans ?_ | refine (inkPutRec_offMotor ..).trans ?_ | refine (inkRecEnd_offMotor ..).trans ?_ | refine (inkSetState_offMotor ..).trans ?_ | extract_lets | split
theorem inkAutoExpiry_offMotor (s : State) (q : Nat) : (inkAutoExpiry s q).motorSide = s.motorSide := by
  unfold inkAutoExpiry
  with_reducible repeat' first | rfl | refine offMotor_ite ?_ ?_ | refine (State.at_offMotor ..).trans ?_ | refine (inkTrigger_offMotor ..).trans ?_ | extract_lets
theorem inkFail_offMotor (s : State) : (inkFail s).motorSide = s.motorSide := by
  unfold inkFail
  with_reducible repeat' first | rfl | refine offMotor_ite ?_ ?_ | refine offMotor_foldl ?_ ?_ | intro _ _ | refine (State.raise_offMotor ..).trans ?_ | refine (State.setFlag_offMotor ..).trans ?_ | refine (State.setFld_offMotor ..).trans ?_ | refine (State.setInkS_offMotor ..).trans ?_ | refine (inkReadAbandon_offMotor ..).trans ?_ | refine (inkSetState_offMotor ..).trans ?_ | extract_lets
theorem inkPump1_offMotor (fuel : Nat) (s : State) (r : InkRead) : (inkPump1 fuel s r).1.motorSide = s.motorSide := by
  induction fuel generalizing s r with
  | zero => rfl
  | succ m ih =>
    unfold inkPump1
    repeat' first | with_reducible rfl | with_reducible refine offMotor_ite1 ?_ ?_ | (with_reducible refine (ih _ _).trans ?_) | (with_reducible refine (ringStore_offMotor ..).trans ?_) | (with_reducible refine (withInk_offMotor ..).trans ?_) | (with_reducible refine (netTx_offMotor ..).trans ?_) | extract_lets | split
theorem inkPump_offMotor (s : State) : (inkPump s).motorSide = s.motorSide := by
  unfold inkPump
  with_reducible repeat' first | rfl | refine offMotor_foldl ?_ ?_ | intro _ _ | refine (inkPump1_offMotor ..).trans ?_ | refine (withInk_offMotor ..).trans ?_ | extract_lets
theorem opInkRead_offMotor (r : Request) (s : State) : (opInkRead r s).st.motorSide = s.motorSide := by
  unfold opInkRead
  with_reducible repeat' first | rfl | refine offMotor_iteR ?_ ?_ | refine offMotor_ite ?_ ?_ | refine (inkPump_offMotor ..).trans ?_ | refine (refuse_offMotor ..).trans ?_ | refine (withInk_offMotor ..).trans ?_ | extract_lets | split
theorem inkRelease_offMotor (s : State) (q n : Nat) : (inkRelease s q n).motorSide = s.motorSide := by
  unfold inkRelease
  with_reducible repeat' first | rfl | refine offMotor_ite ?_ ?_ | refine (State.setFlag_offMotor ..).trans ?_ | refine (State.setInkS_offMotor ..).trans ?_ | refine (inkArmRec_offMotor ..).trans ?_ | extract_lets
theorem inkEccErrors_offMotor (s : State) (q single double : Nat) : (inkEccErrors s q single double).motorSide = s.motorSide := by
  unfold inkEccErrors
  with_reducible repeat' first | rfl | refine offMotor_ite ?_ ?_ | refine (State.raiseLim_offMotor ..).trans ?_ | refine (State.raise_offMotor ..).trans ?_ | refine (State.setFld_offMotor ..).trans ?_ | extract_lets
theorem inkReadDone_offMotor (s : State) (q single double : Nat) : (inkReadDone s q single double).motorSide = s.motorSide := by
  unfold inkReadDone
  with_reducible repeat' first | rfl | refine offMotor_ite ?_ ?_ | refine (State.raise_offMotor ..).trans ?_ | refine (inkEccErrors_offMotor ..).trans ?_ | refine (inkPump_offMotor ..).trans ?_ | refine (inkRelease_offMotor ..).trans ?_ | refine (withInk_offMotor ..).trans ?_ | extract_lets | split
theorem hostFrameEnd_offMotor (s : State) (prev : Nat) (miso : List Word) : (hostFrameEnd s prev miso).motorSide = s.motorSide := by
  unfold hostFrameEnd
  with_reducible repeat' first | rfl | refine (withCmd_offMotor ..).trans ?_ | extract_lets
theorem hostAbort_offMotor (s : State) (miso : List Word) : (hostAbort s miso).motorSide = s.motorSide := by
  unfold hostAbort
  with_reducible repeat' first | rfl | refine (State.cntSat_offMotor ..).trans ?_ | refine (State.raise_offMotor ..).trans ?_ | refine (State.setFlag_offMotor ..).trans ?_ | refine (hostFrameEnd_offMotor ..).trans ?_
theorem unitArrive_offMotor (s : State) (p : Nat) (o : Origin) (bytes : List Byte) : (unitArrive s p o bytes).1.motorSide = s.motorSide := by
  unfold unitArrive
  with_reducible repeat' first | rfl | refine offMotor_ite1 ?_ ?_ | refine offMotor_ite ?_ ?_ | refine (State.cntSat_offMotor ..).trans ?_ | refine (ringPut_offMotor ..).trans ?_
theorem hostCmdFrame_offMotor (s : State) (hdr : Word) (body : List Word) (tailBits : Nat) : (hostCmdFrame s hdr body tailBits).motorSide = s.motorSide := by
  unfold hostCmdFrame
  with_reducible repeat' first | rfl | refine offMotor_ite ?_ ?_ | refine (State.cntSat_offMotor ..).trans ?_ | refine (State.raise_offMotor ..).trans ?_ | refine (State.setFlag_offMotor ..).trans ?_ | refine (hostAbort_offMotor ..).trans ?_ | refine (hostFrameEnd_offMotor ..).trans ?_ | refine (hrdyUpdate_offMotor ..).trans ?_ | refine (ringLose_offMotor ..).trans ?_ | refine (ringStore_offMotor ..).trans ?_ | extract_lets
theorem hostStatusFrame_offMotor (s : State) (hdr : Word) : (hostStatusFrame s hdr).motorSide = s.motorSide := by
  unfold hostStatusFrame
  with_reducible repeat' first | rfl | refine offMotor_ite ?_ ?_ | refine (hostAbort_offMotor ..).trans ?_ | refine (hostFrameEnd_offMotor ..).trans ?_ | extract_lets
theorem hostFetchFrame_offMotor (s : State) (hdr : Word) (clocked : Nat) (late : Option Nat) : (hostFetchFrame s hdr clocked late).motorSide = s.motorSide := by
  unfold hostFetchFrame
  with_reducible repeat' first | rfl | refine offMotor_ite ?_ ?_ | refine (State.cntSat_offMotor ..).trans ?_ | refine (State.raise_offMotor ..).trans ?_ | refine (State.setFlag_offMotor ..).trans ?_ | refine (hostFrameEnd_offMotor ..).trans ?_ | refine (hostStatusFrame_offMotor ..).trans ?_ | refine (ringDrop_offMotor ..).trans ?_ | extract_lets | split
theorem carrierArrive_offMotor (s : State) (p : Nat) (o : Origin) (bytes : List Byte) : (carrierArrive s p o bytes).motorSide = s.motorSide := by
  unfold carrierArrive
  with_reducible repeat' first | rfl | refine offMotor_ite ?_ ?_ | refine (unitArrive_offMotor ..).trans ?_
theorem repeatReply_offMotor (s : State) (p : Nat) (o : Origin) (d : Done) : (repeatReply s p o d).motorSide = s.motorSide := by
  unfold repeatReply
  with_reducible repeat' first | rfl | refine offMotor_ite ?_ ?_ | refine (State.cntSat_offMotor ..).trans ?_ | refine (ringPut_offMotor ..).trans ?_ | refine (udpCarry_offMotor ..).trans ?_ | extract_lets
theorem dispatchOne_offMotor (s : State) (p : Fin 8) : (dispatchOne s p).motorSide = s.motorSide := by
  unfold dispatchOne
  with_reducible repeat' first | rfl | refine offMotor_ite ?_ ?_ | refine (State.setPort_offMotor ..).trans ?_ | refine (hrdyUpdate_offMotor ..).trans ?_ | refine (repeatReply_offMotor ..).trans ?_ | refine (ringDrop_offMotor ..).trans ?_ | refine (sendReply_offMotor ..).trans ?_ | refine (withCmd_offMotor ..).trans ?_ | extract_lets | split
theorem heldAnswer_offMotor (s : State) (r : Request) (status stamp : Nat) (data : List Word) : (heldAnswer s r status stamp data).motorSide = s.motorSide := by
  unfold heldAnswer
  with_reducible repeat' first | rfl | refine (answer_offMotor ..).trans ?_
theorem deferredSend_offMotor (s0 : State) (p : Nat) : (deferredSend s0 p).motorSide = s0.motorSide := by
  unfold deferredSend
  with_reducible repeat' first | rfl | refine offMotor_ite ?_ ?_ | refine (answer_offMotor ..).trans ?_ | refine (heldAnswer_offMotor ..).trans ?_ | refine (replyFlush_offMotor ..).trans ?_ | refine (withCmd_offMotor ..).trans ?_ | extract_lets | split
theorem ringDropN_offMotor (s : State) (n k : Nat) : (ringDropN s n k).motorSide = s.motorSide := by
  induction k generalizing s with
  | zero => rfl
  | succ m ih => exact (ih _).trans (ringDrop_offMotor s n)
theorem opRingPop_offMotor (r : Request) (s : State) : (opRingPop r s).st.motorSide = s.motorSide := by
  unfold opRingPop
  with_reducible repeat' first | rfl | refine offMotor_iteR ?_ ?_ | refine offMotor_ite ?_ ?_ | refine (inkPump_offMotor ..).trans ?_ | refine (refuse_offMotor ..).trans ?_ | refine (ringDropN_offMotor ..).trans ?_ | extract_lets | split
theorem opRingPush_offMotor (r : Request) (s : State) : (opRingPush r s).st.motorSide = s.motorSide := by
  unfold opRingPush
  with_reducible repeat' first | rfl | refine offMotor_iteR ?_ ?_ | refine offMotor_ite ?_ ?_ | refine offMotor_foldl ?_ ?_ | intro _ _ | refine (refuse_offMotor ..).trans ?_ | refine (ringStore_offMotor ..).trans ?_ | extract_lets | split
theorem ringLayoutWrite_offMotor (s : State) (n : Nat) (wl wc : Option Word) : (ringLayoutWrite s n wl wc).st.motorSide = s.motorSide := by
  unfold ringLayoutWrite
  with_reducible repeat' first | rfl | refine offMotor_iteR ?_ ?_ | refine offMotor_ite ?_ ?_ | refine (State.setFlag_offMotor ..).trans ?_ | refine (hrdyUpdate_offMotor ..).trans ?_ | refine (refuse_offMotor ..).trans ?_ | refine (ringClear_offMotor ..).trans ?_ | refine (setReg_offMotor ..).trans ?_ | extract_lets | split
theorem ringConfigWrite_offMotor (s : State) (n : Nat) (ctrl : Bool) (w : Word) : (ringConfigWrite s n ctrl w).st.motorSide = s.motorSide := by
  unfold ringConfigWrite
  with_reducible repeat' first | rfl | refine offMotor_iteR ?_ ?_ | refine offMotor_ite ?_ ?_ | refine (ringLayoutWrite_offMotor ..).trans ?_
theorem pspiXferWrite_offMotor (s : State) (n : Nat) (w : Word) : (pspiXferWrite s n w).st.motorSide = s.motorSide := by
  unfold pspiXferWrite
  with_reducible repeat' first | rfl | refine offMotor_iteR ?_ ?_ | refine offMotor_ite ?_ ?_ | refine (refuse_offMotor ..).trans ?_ | refine (setReg_offMotor ..).trans ?_ | extract_lets
theorem pspiDone_offMotor (s : State) (n : Nat) (rx : List Word) : (pspiDone s n rx).motorSide = s.motorSide := by
  unfold pspiDone
  with_reducible repeat' first | rfl | refine offMotor_ite ?_ ?_ | refine offMotor_foldl ?_ ?_ | intro _ _ | refine (State.raise_offMotor ..).trans ?_ | refine (State.setFlag_offMotor ..).trans ?_ | refine (setReg_offMotor ..).trans ?_ | extract_lets
theorem irqcfgWrite_offMotor (s : State) (w : Word) : (irqcfgWrite s w).st.motorSide = s.motorSide := by
  unfold irqcfgWrite
  with_reducible repeat' first | rfl | refine (setReg_offMotor ..).trans ?_
theorem latchEnd_offMotor (s : State) (u : Nat) : (latchEnd s u).motorSide = s.motorSide := by
  unfold latchEnd
  with_reducible repeat' first | rfl | refine offMotor_ite ?_ ?_ | refine (State.at_offMotor ..).trans ?_ | refine (State.raise_offMotor ..).trans ?_ | refine (State.setFlag_offMotor ..).trans ?_
theorem latchCtrlWrite_offMotor (s : State) (u : Nat) (w : Word) : (latchCtrlWrite s u w).st.motorSide = s.motorSide := by
  unfold latchCtrlWrite
  with_reducible repeat' first | rfl | refine offMotor_iteR ?_ ?_ | refine offMotor_ite ?_ ?_ | refine (State.setFlag_offMotor ..).trans ?_ | refine (refuse_offMotor ..).trans ?_ | extract_lets
theorem fioRefresh_offMotor (s : State) : (fioRefresh s).motorSide = s.motorSide := by
  unfold fioRefresh
  with_reducible repeat' first | rfl | refine offMotor_foldl ?_ ?_ | intro _ _ | refine (State.setFlag_offMotor ..).trans ?_ | refine (setReg_offMotor ..).trans ?_ | extract_lets
theorem fioLevels_offMotor (s : State) : (fioLevels s).motorSide = s.motorSide := by
  unfold fioLevels
  with_reducible repeat' first | rfl | refine offMotor_ite ?_ ?_ | refine offMotor_foldl ?_ ?_ | intro _ _ | refine (State.setFlag_offMotor ..).trans ?_ | refine (setReg_offMotor ..).trans ?_ | extract_lets
theorem fioCommand_offMotor (s : State) (n : Nat) (on : Bool) : (fioCommand s n on).motorSide = s.motorSide := by
  unfold fioCommand
  with_reducible repeat' first | rfl | refine offMotor_ite ?_ ?_ | refine (State.setFlag_offMotor ..).trans ?_ | refine (State.setFld_offMotor ..).trans ?_ | extract_lets
theorem fioChannelsReset_offMotor (s : State) : (fioChannelsReset s).motorSide = s.motorSide := by
  unfold fioChannelsReset
  with_reducible repeat' first | rfl | refine offMotor_foldl ?_ ?_ | intro _ _ | refine (setReg_offMotor ..).trans ?_ | refine (withField_offMotor ..).trans ?_ | extract_lets
theorem fieldHeartbeat_offMotor (s : State) : (fieldHeartbeat s).motorSide = s.motorSide := by
  unfold fieldHeartbeat
  with_reducible repeat' first | rfl | refine offMotor_ite ?_ ?_ | refine (fioChannelsReset_offMotor ..).trans ?_ | refine (fioLevels_offMotor ..).trans ?_ | refine (fioRefresh_offMotor ..).trans ?_ | refine (withField_offMotor ..).trans ?_ | extract_lets | split
theorem logicHeartbeat_offMotor (s : State) : (logicHeartbeat s).motorSide = s.motorSide := by
  unfold logicHeartbeat
  with_reducible repeat' first | rfl | refine offMotor_ite ?_ ?_ | refine (State.raise_offMotor ..).trans ?_ | refine (State.setFlag_offMotor ..).trans ?_ | refine (fioLevels_offMotor ..).trans ?_ | refine (withField_offMotor ..).trans ?_ | extract_lets | split
theorem linkTimeout_offMotor (s : State) : (linkTimeout s).motorSide = s.motorSide := by
  unfold linkTimeout
  with_reducible repeat' first | rfl | refine offMotor_ite ?_ ?_ | refine (State.raise_offMotor ..).trans ?_ | refine (State.setFlag_offMotor ..).trans ?_ | refine (fioLevels_offMotor ..).trans ?_ | refine (withField_offMotor ..).trans ?_ | extract_lets
theorem silenceBegin_offMotor (s : State) : (silenceBegin s).motorSide = s.motorSide := by
  unfold silenceBegin
  with_reducible repeat' first | rfl | refine offMotor_ite ?_ ?_ | refine (fioRefresh_offMotor ..).trans ?_ | refine (withField_offMotor ..).trans ?_ | extract_lets
theorem State.setHusk_offMotor (s : State) (h : HuskS) : (State.setHusk s h).motorSide = s.motorSide := by
  unfold State.setHusk
  with_reducible repeat' first | rfl | refine (withSafe_offMotor ..).trans ?_ | extract_lets
theorem chatterNext_offMotor (s : State) (n : Nat) : (chatterNext s n).motorSide = s.motorSide := by
  unfold chatterNext
  with_reducible repeat' first | rfl | refine (withField_offMotor ..).trans ?_ | extract_lets
theorem outFault_offMotor (s : State) (n code : Nat) : (outFault s n code).motorSide = s.motorSide := by
  unfold outFault
  with_reducible repeat' first | rfl | refine offMotor_ite ?_ ?_ | refine (State.cntSat_offMotor ..).trans ?_ | refine (State.raise_offMotor ..).trans ?_ | refine (State.setFlag_offMotor ..).trans ?_ | refine (fioRefresh_offMotor ..).trans ?_ | extract_lets
theorem bankFault_offMotor (s : State) (b mA : Nat) : (bankFault s b mA).motorSide = s.motorSide := by
  unfold bankFault
  with_reducible repeat' first | rfl | refine offMotor_ite ?_ ?_ | refine (State.raise_offMotor ..).trans ?_ | refine (State.setFld_offMotor ..).trans ?_ | refine (fioRefresh_offMotor ..).trans ?_
theorem vfield_offMotor (s : State) (v : Nat) (banks : List (BitVec 16)) : (vfield s v banks).motorSide = s.motorSide := by
  unfold vfield
  with_reducible repeat' first | rfl | refine offMotor_ite ?_ ?_ | refine offMotor_foldl ?_ ?_ | intro _ _ | refine (State.raise_offMotor ..).trans ?_ | refine (State.setFlag_offMotor ..).trans ?_ | refine (State.setFld_offMotor ..).trans ?_ | refine (fioRefresh_offMotor ..).trans ?_ | extract_lets | split
theorem safeCfgFault_offMotor (s : State) (on : Bool) : (safeCfgFault s on).motorSide = s.motorSide := by
  unfold safeCfgFault
  with_reducible repeat' first | rfl | refine offMotor_ite ?_ ?_ | refine (State.raise_offMotor ..).trans ?_ | refine (State.setFlag_offMotor ..).trans ?_
theorem State.setSax_offMotor (s : State) (a : Nat) (x : SafeAx) : (State.setSax s a x).motorSide = s.motorSide := by
  unfold State.setSax
  with_reducible repeat' first | rfl | refine (withSafe_offMotor ..).trans ?_ | extract_lets
theorem contCommand_offMotor (s : State) (n : Nat) (on : Bool) : (contCommand s n on).motorSide = s.motorSide := by
  unfold contCommand
  with_reducible repeat' first | rfl | refine (State.setFlag_offMotor ..).trans ?_ | refine (State.setFld_offMotor ..).trans ?_ | refine (withSafe_offMotor ..).trans ?_ | extract_lets
theorem contFollow_offMotor (s : State) (c : Nat) (on : Bool) : (contFollow s c on).motorSide = s.motorSide := by
  unfold contFollow
  with_reducible repeat' first | rfl | refine offMotor_ite ?_ ?_ | refine offMotor_foldl ?_ ?_ | intro _ _ | refine (contCommand_offMotor ..).trans ?_
theorem scribeLatch_offMotor (s : State) (bit : Nat) (soft : Bool) : (scribeLatch s bit soft).motorSide = s.motorSide := by
  unfold scribeLatch
  with_reducible repeat' first | rfl | refine offMotor_ite ?_ ?_ | refine (withSafe_offMotor ..).trans ?_ | extract_lets
theorem pairApply_offMotor (s : State) (p : Nat) : (pairApply s p).motorSide = s.motorSide := by
  unfold pairApply
  with_reducible repeat' first | rfl | refine offMotor_ite ?_ ?_ | refine offMotor_foldl ?_ ?_ | intro _ _ | refine (State.setFlag_offMotor ..).trans ?_ | refine (contFollow_offMotor ..).trans ?_ | refine (fioCommand_offMotor ..).trans ?_ | refine (fioRefresh_offMotor ..).trans ?_ | extract_lets
theorem testPulse_offMotor (s : State) (p : Nat) (chB good : Bool) : (testPulse s p chB good).motorSide = s.motorSide := by
  unfold testPulse
  with_reducible repeat' first | rfl | refine offMotor_ite ?_ ?_ | refine (State.cntWrap_offMotor ..).trans ?_ | refine (State.raise_offMotor ..).trans ?_ | refine (State.setFlag_offMotor ..).trans ?_ | refine (pairApply_offMotor ..).trans ?_ | refine (scribeLatch_offMotor ..).trans ?_ | refine (withSafe_offMotor ..).trans ?_ | extract_lets
theorem slsEffective_offMotor (s : State) (a : Nat) : (slsEffective s a).motorSide = s.motorSide := by
  unfold slsEffective
  with_reducible repeat' first | rfl | refine offMotor_ite ?_ ?_ | refine (State.setFld_offMotor ..).trans ?_ | refine (State.setSax_offMotor ..).trans ?_ | extract_lets
theorem contStart_offMotor (s : State) (old : List Word) (n : Nat) : (contStart s old n).motorSide = s.motorSide := by
  unfold contStart
  with_reducible repeat' first | rfl | refine offMotor_ite ?_ ?_ | refine (State.setFlag_offMotor ..).trans ?_ | refine (State.setFld_offMotor ..).trans ?_ | extract_lets
theorem setInForce_offMotor (s : State) (ws : List Word) : (setInForce s ws).motorSide = s.motorSide := by
  unfold setInForce
  with_reducible repeat' first | rfl | refine offMotor_ite ?_ ?_ | refine offMotor_foldl ?_ ?_ | intro _ _ | refine (State.setFld_offMotor ..).trans ?_ | refine (contStart_offMotor ..).trans ?_ | refine (setReg_offMotor ..).trans ?_ | refine (setRegs_offMotor ..).trans ?_ | refine (withSafe_offMotor ..).trans ?_ | extract_lets
theorem stageEmpty_offMotor (s : State) : (stageEmpty s).motorSide = s.motorSide := by
  unfold stageEmpty
  with_reducible repeat' first | rfl | refine (setReg_offMotor ..).trans ?_ | refine (withSafe_offMotor ..).trans ?_ | extract_lets
theorem setTake_offMotor (s : State) (ws : List Word) : (setTake s ws).motorSide = s.motorSide := by
  unfold setTake
  with_reducible repeat' first | rfl | refine (State.raise_offMotor ..).trans ?_ | refine (State.setHusk_offMotor ..).trans ?_ | refine (safeCfgFault_offMotor ..).trans ?_ | refine (setInForce_offMotor ..).trans ?_ | extract_lets
theorem opSafeConfirm_offMotor (r : Request) (s : State) : (opSafeConfirm r s).st.motorSide = s.motorSide := by
  unfold opSafeConfirm
  with_reducible repeat' first | rfl | refine offMotor_iteR ?_ ?_ | refine offMotor_ite ?_ ?_ | refine (State.raise_offMotor ..).trans ?_ | refine (refuse_offMotor ..).trans ?_ | refine (setTake_offMotor ..).trans ?_ | refine (stageEmpty_offMotor ..).trans ?_ | extract_lets | split
theorem takeHuskCauses_offMotor (s : State) (c : Word) : (takeHuskCauses s c).motorSide = s.motorSide := by
  unfold takeHuskCauses
  with_reducible repeat' first | rfl | refine offMotor_ite ?_ ?_ | refine offMotor_foldl ?_ ?_ | intro _ _ | refine (State.raise_offMotor ..).trans ?_ | refine (scribeLatch_offMotor ..).trans ?_ | extract_lets
theorem scribeCompare_offMotor (s : State) (f : List Word) : (scribeCompare s f).motorSide = s.motorSide := by
  unfold scribeCompare
  with_reducible repeat' first | rfl | refine offMotor_ite ?_ ?_ | refine offMotor_foldl ?_ ?_ | intro _ _ | refine (State.raise_offMotor ..).trans ?_ | refine (State.setFld_offMotor ..).trans ?_ | refine (scribeLatch_offMotor ..).trans ?_ | refine (withSafe_offMotor ..).trans ?_ | extract_lets
theorem scribeReceive_offMotor (s : State) (ok : Bool) : (scribeReceive s ok).motorSide = s.motorSide := by
  unfold scribeReceive
  with_reducible repeat' first | rfl | refine offMotor_ite ?_ ?_ | refine (State.cntSat_offMotor ..).trans ?_ | refine (State.cntWrap_offMotor ..).trans ?_ | refine (State.raise_offMotor ..).trans ?_ | refine (scribeCompare_offMotor ..).trans ?_ | refine (scribeLatch_offMotor ..).trans ?_ | refine (takeHuskCauses_offMotor ..).trans ?_ | refine (withSafe_offMotor ..).trans ?_ | extract_lets | split
theorem pathGood_offMotor (s : State) (p : Nat) : (pathGood s p).motorSide = s.motorSide := by
  unfold pathGood
  with_reducible repeat' first | rfl | refine offMotor_ite ?_ ?_ | refine (State.raise_offMotor ..).trans ?_ | refine (State.setFlag_offMotor ..).trans ?_ | refine (withSafe_offMotor ..).trans ?_ | extract_lets
theorem telReact_offMotor (s : State) (bit : Nat) : (telReact s bit).motorSide = s.motorSide := by
  unfold telReact
  with_reducible repeat' first | rfl | refine (scribeLatch_offMotor ..).trans ?_
theorem telAccept_offMotor (s : State) (p : Nat) (o : Origin) (ws : List Word) (gap : Nat) : (telAccept s p o ws gap).motorSide = s.motorSide := by
  unfold telAccept
  with_reducible repeat' first | rfl | refine offMotor_ite ?_ ?_ | refine offMotor_foldl ?_ ?_ | intro _ _ | refine (State.setFld_offMotor ..).trans ?_ | refine (contCommand_offMotor ..).trans ?_ | refine (withSafe_offMotor ..).trans ?_ | extract_lets
theorem telWatchdog_offMotor (s : State) : (telWatchdog s).motorSide = s.motorSide := by
  unfold telWatchdog
  with_reducible repeat' first | rfl | refine offMotor_ite ?_ ?_ | refine (State.raise_offMotor ..).trans ?_ | refine (telReact_offMotor ..).trans ?_ | refine (withSafe_offMotor ..).trans ?_ | extract_lets
theorem telExpire_offMotor (s : State) (t : Tick) : (telExpire s t).motorSide = s.motorSide := by
  unfold telExpire
  with_reducible repeat' first | rfl | refine offMotor_ite ?_ ?_ | refine (telWatchdog_offMotor ..).trans ?_
theorem telJudge_offMotor (s : State) (p : Nat) (o : Origin) (ws : List Word) : (telJudge s p o ws).motorSide = s.motorSide := by
  unfold telJudge
  with_reducible repeat' first | rfl | refine offMotor_ite ?_ ?_ | refine (State.cntSat_offMotor ..).trans ?_ | refine (State.raise_offMotor ..).trans ?_ | refine (telAccept_offMotor ..).trans ?_ | refine (telReact_offMotor ..).trans ?_ | refine (withSafe_offMotor ..).trans ?_ | extract_lets
theorem telCopy_offMotor (s : State) (p : Nat) (o : Origin) (bytes : List Byte) (t : Tick) : (telCopy s p o bytes t).motorSide = s.motorSide := by
  unfold telCopy
  with_reducible repeat' first | rfl | refine offMotor_ite ?_ ?_ | refine (State.cntSat_offMotor ..).trans ?_ | refine (pathGood_offMotor ..).trans ?_ | refine (telExpire_offMotor ..).trans ?_ | refine (telJudge_offMotor ..).trans ?_ | refine (withSafe_offMotor ..).trans ?_ | extract_lets
theorem pathLoss_offMotor (s : State) (p : Nat) : (pathLoss s p).motorSide = s.motorSide := by
  unfold pathLoss
  with_reducible repeat' first | rfl | refine offMotor_ite ?_ ?_ | refine (State.raise_offMotor ..).trans ?_ | refine (State.setFlag_offMotor ..).trans ?_ | refine (withSafe_offMotor ..).trans ?_ | extract_lets
theorem safeStageWrite_offMotor (s : State) (w : Nat) (v : Word) : (safeStageWrite s w v).st.motorSide = s.motorSide := by
  unfold safeStageWrite
  with_reducible repeat' first | rfl | refine (setReg_offMotor ..).trans ?_ | refine (stageEmpty_offMotor ..).trans ?_
theorem opSafeStage_offMotor (_r : Request) (s : State) : (opSafeStage _r s).st.motorSide = s.motorSide := by
  unfold opSafeStage
  with_reducible repeat' first | rfl | refine offMotor_iteR ?_ ?_ | refine offMotor_ite ?_ ?_ | refine (State.raise_offMotor ..).trans ?_ | refine (refuse_offMotor ..).trans ?_ | refine (setReg_offMotor ..).trans ?_ | refine (setRegs_offMotor ..).trans ?_ | refine (withSafe_offMotor ..).trans ?_ | extract_lets | split
theorem safeConfirm_offMotor (r : Request) (s : State) : (safeConfirm r s).motorSide = s.motorSide := by
  unfold safeConfirm
  with_reducible repeat' first | rfl | refine offMotor_ite ?_ ?_ | refine (opSafeConfirm_offMotor ..).trans ?_ | refine (serveReed_offMotor _ _ _ _ ?_).trans ?_ | refine (withSafe_offMotor ..).trans ?_ | extract_lets
theorem opSafeAck_offMotor (_r : Request) (s : State) : (opSafeAck _r s).st.motorSide = s.motorSide := by
  unfold opSafeAck
  with_reducible repeat' first | rfl | refine offMotor_iteR ?_ ?_ | refine offMotor_ite ?_ ?_ | refine (refuse_offMotor ..).trans ?_ | refine (withSafe_offMotor ..).trans ?_ | extract_lets
theorem fioApply_offMotor (s : State) (e : Nat × Bool) : (fioApply s e).motorSide = s.motorSide := by
  unfold fioApply
  with_reducible repeat' first | rfl | refine offMotor_foldl ?_ ?_ | intro _ _ | refine (contFollow_offMotor ..).trans ?_ | refine (fioCommand_offMotor ..).trans ?_ | extract_lets | split
theorem opFioSet_offMotor (r : Request) (s : State) : (opFioSet r s).st.motorSide = s.motorSide := by
  unfold opFioSet
  with_reducible repeat' first | rfl | refine offMotor_iteR ?_ ?_ | refine offMotor_ite ?_ ?_ | refine offMotor_foldl ?_ ?_ | intro _ _ | refine (fioApply_offMotor ..).trans ?_ | refine (fioRefresh_offMotor ..).trans ?_ | refine (refuse_offMotor ..).trans ?_ | extract_lets
theorem opFioConfig_offMotor (r : Request) (s : State) : (opFioConfig r s).st.motorSide = s.motorSide := by
  unfold opFioConfig
  with_reducible repeat' first | rfl | refine offMotor_iteR ?_ ?_ | refine offMotor_ite ?_ ?_ | refine (contFollow_offMotor ..).trans ?_ | refine (fioCommand_offMotor ..).trans ?_ | refine (fioRefresh_offMotor ..).trans ?_ | refine (refuse_offMotor ..).trans ?_ | refine (setReg_offMotor ..).trans ?_ | refine (withField_offMotor ..).trans ?_ | extract_lets

end

end Sys2Proof.Machine
end

