-- ==== Sys2Proof/Laws/MotorNet.lean ====
section
/-! SUPPORT. The operations over time, Ethernet, CAN, Sward, Sheaf, clock, keep memory, firmware and configuration that leave the
motor side alone: the values in force, contexts and passes, the sensing front end, the nib bank, the feedback channels, maps and cams.
One lemma an operation. -/

namespace Sys2Proof.Machine

open Sys2Proof

section

set_option linter.unusedTactic false
set_option linter.unreachableTactic false

theorem stRebase_offMotor (s : State) : (stRebase s).motorSide = s.motorSide := by
  unfold stRebase
  with_reducible repeat' first | rfl | refine (withNet_offMotor ..).trans ?_ | extract_lets
theorem setRate_offMotor (s : State) (r : Int) : (setRate s r).motorSide = s.motorSide := by
  unfold setRate
  with_reducible repeat' first | rfl | refine (setReg_offMotor ..).trans ?_ | refine (stRebase_offMotor ..).trans ?_
theorem State.setPulse_offMotor (s : State) (i : Nat) (x : Pulse) : (State.setPulse s i x).motorSide = s.motorSide := by
  unfold State.setPulse
  with_reducible repeat' first | rfl | refine (withNet_offMotor ..).trans ?_ | extract_lets
theorem pulseSkip_offMotor (s : State) (i n : Nat) (ev : Bool) : (pulseSkip s i n ev).motorSide = s.motorSide := by
  unfold pulseSkip
  with_reducible repeat' first | rfl | refine offMotor_ite ?_ ?_ | refine (State.raise_offMotor ..).trans ?_ | refine (State.setFld_offMotor ..).trans ?_ | extract_lets
theorem pulseStop_offMotor (s : State) (i : Nat) : (pulseStop s i).motorSide = s.motorSide := by
  unfold pulseStop
  with_reducible repeat' first | rfl | refine (State.setFlag_offMotor ..).trans ?_ | refine (setReg_offMotor ..).trans ?_
theorem pulseSync_offMotor (s : State) (ev : Bool) (i : Nat) : (pulseSync s ev i).motorSide = s.motorSide := by
  unfold pulseSync
  with_reducible repeat' first | rfl | refine offMotor_ite ?_ ?_ | refine (State.setFlag_offMotor ..).trans ?_ | refine (State.setPulse_offMotor ..).trans ?_ | refine (pulseSkip_offMotor ..).trans ?_ | refine (pulseStop_offMotor ..).trans ?_ | extract_lets | split
theorem pulsesHold_offMotor (s : State) : (pulsesHold s).motorSide = s.motorSide := by
  unfold pulsesHold
  with_reducible repeat' first | rfl | refine offMotor_ite ?_ ?_ | refine offMotor_foldl ?_ ?_ | intro _ _ | refine (State.setPulse_offMotor ..).trans ?_ | refine (pulseSync_offMotor ..).trans ?_ | extract_lets
theorem pulsesStep_offMotor (s : State) : (pulsesStep s).motorSide = s.motorSide := by
  unfold pulsesStep
  with_reducible repeat' first | rfl | refine offMotor_ite ?_ ?_ | refine offMotor_foldl ?_ ?_ | intro _ _ | refine (State.setPulse_offMotor ..).trans ?_ | refine (pulseSync_offMotor ..).trans ?_ | extract_lets
theorem pulseSet_offMotor (s : State) (i : Nat) (r : Request) : (pulseSet s i r).motorSide = s.motorSide := by
  unfold pulseSet
  with_reducible repeat' first | rfl | refine offMotor_ite ?_ ?_ | refine (State.setPulse_offMotor ..).trans ?_ | refine (pulseSync_offMotor ..).trans ?_ | refine (setReg_offMotor ..).trans ?_ | refine (setRegs_offMotor ..).trans ?_ | extract_lets
theorem opPulse_offMotor (r : Request) (s : State) : (opPulse r s).st.motorSide = s.motorSide := by
  unfold opPulse
  with_reducible repeat' first | rfl | refine offMotor_iteR ?_ ?_ | refine offMotor_ite ?_ ?_ | refine (State.setPulse_offMotor ..).trans ?_ | refine (pulseSet_offMotor ..).trans ?_ | refine (pulseStop_offMotor ..).trans ?_ | refine (refuse_offMotor ..).trans ?_ | extract_lets
theorem pulseFix_offMotor (s : State) (i : Nat) : (pulseFix s i).motorSide = s.motorSide := by
  unfold pulseFix
  with_reducible repeat' first | rfl | refine offMotor_ite ?_ ?_ | refine offMotor_iteR ?_ ?_ | refine offMotor_ite1 ?_ ?_ | refine offMotor_ite2 ?_ ?_ | refine offMotor_foldl ?_ ?_ | refine offMotor_foldl1 ?_ ?_ | refine offMotor_foldl2 ?_ ?_ | refine offMotor_iteO ?_ ?_ | refine offMotor_some ?_ | refine offMotor_none ?_ | assumption | intro _ _ | intro _ | (guard_target =~ (_ : HuskS) = _; with_unfolding_all rfl) | refine (State.cntWrap_offMotor ..).trans ?_ | refine (State.raise_offMotor ..).trans ?_ | refine (State.setPulse_offMotor ..).trans ?_ | refine (pulseStop_offMotor ..).trans ?_ | refine (pulseSync_offMotor ..).trans ?_ | refine (setReg_offMotor ..).trans ?_ | extract_lets | split | dsimp +zetaDelta only
theorem slewEnd_offMotor (s : State) : (slewEnd s).motorSide = s.motorSide := by
  unfold slewEnd
  with_reducible repeat' first | rfl | refine (setRate_offMotor ..).trans ?_ | refine (withNet_offMotor ..).trans ?_ | extract_lets | split
theorem stepTo_offMotor (s : State) (x : Int) : (stepTo s x).motorSide = s.motorSide := by
  unfold stepTo
  with_reducible repeat' first | rfl | refine (State.cntSat_offMotor ..).trans ?_ | refine (State.raise_offMotor ..).trans ?_ | refine (State.setFlag_offMotor ..).trans ?_ | refine (pulsesStep_offMotor ..).trans ?_ | refine (slewEnd_offMotor ..).trans ?_ | refine (withNet_offMotor ..).trans ?_ | extract_lets
theorem stepBy_offMotor (s : State) (ns : Int) : (stepBy s ns).motorSide = s.motorSide := by
  unfold stepBy
  with_reducible repeat' first | rfl | refine (slewEnd_offMotor ..).trans ?_ | refine (stepTo_offMotor ..).trans ?_
theorem stValid_offMotor (s : State) : (stValid s).motorSide = s.motorSide := by
  unfold stValid
  with_reducible repeat' first | rfl | refine (State.setFlag_offMotor ..).trans ?_ | refine (pulsesHold_offMotor ..).trans ?_
theorem timeState_offMotor (s : State) (st : Nat) : (timeState s st).motorSide = s.motorSide := by
  unfold timeState
  with_reducible repeat' first | rfl | refine offMotor_ite ?_ ?_ | refine (State.raise_offMotor ..).trans ?_ | refine (State.setFld_offMotor ..).trans ?_ | refine (withNet_offMotor ..).trans ?_ | extract_lets
theorem opTimeSet_offMotor (r : Request) (s : State) : (opTimeSet r s).st.motorSide = s.motorSide := by
  unfold opTimeSet
  with_reducible repeat' first | rfl | refine offMotor_iteR ?_ ?_ | refine offMotor_ite ?_ ?_ | refine (refuse_offMotor ..).trans ?_ | refine (stValid_offMotor ..).trans ?_ | refine (stepTo_offMotor ..).trans ?_
theorem slewBegin_offMotor (s : State) (ns : Int) : (slewBegin s ns).motorSide = s.motorSide := by
  unfold slewBegin
  with_reducible repeat' first | rfl | refine offMotor_ite ?_ ?_ | refine (setRate_offMotor ..).trans ?_ | refine (slewEnd_offMotor ..).trans ?_ | refine (withNet_offMotor ..).trans ?_ | extract_lets
theorem opTimeAdjust_offMotor (r : Request) (s : State) : (opTimeAdjust r s).st.motorSide = s.motorSide := by
  unfold opTimeAdjust
  with_reducible repeat' first | rfl | refine offMotor_iteR ?_ ?_ | refine offMotor_ite ?_ ?_ | refine (refuse_offMotor ..).trans ?_ | refine (setRate_offMotor ..).trans ?_ | refine (slewBegin_offMotor ..).trans ?_ | refine (stepBy_offMotor ..).trans ?_ | refine (withNet_offMotor ..).trans ?_ | extract_lets
theorem slewDone_offMotor (s : State) : (slewDone s).motorSide = s.motorSide := by
  unfold slewDone
  with_reducible repeat' first | rfl | refine (State.at_offMotor ..).trans ?_ | refine (slewEnd_offMotor ..).trans ?_ | extract_lets | split
theorem newParent_offMotor (s : State) (p : Nat) (parent : Tick) : (newParent s p parent).motorSide = s.motorSide := by
  unfold newParent
  with_reducible repeat' first | rfl | refine offMotor_ite ?_ ?_ | refine (State.fresh_offMotor ..).trans ?_ | refine (State.raise_offMotor ..).trans ?_ | refine (State.setReg64_offMotor ..).trans ?_ | refine (timeState_offMotor ..).trans ?_ | refine (withNet_offMotor ..).trans ?_ | extract_lets
theorem lockCount_offMotor (s : State) (o : Int) : (lockCount s o).motorSide = s.motorSide := by
  unfold lockCount
  with_reducible repeat' first | rfl | refine offMotor_ite ?_ ?_ | refine (timeState_offMotor ..).trans ?_ | refine (withNet_offMotor ..).trans ?_ | extract_lets
theorem servo_offMotor (s : State) (o : Int) : (servo s o).motorSide = s.motorSide := by
  unfold servo
  with_reducible repeat' first | rfl | refine offMotor_ite ?_ ?_ | refine (lockCount_offMotor ..).trans ?_ | refine (setRate_offMotor ..).trans ?_ | refine (slewEnd_offMotor ..).trans ?_ | refine (stValid_offMotor ..).trans ?_ | refine (stepTo_offMotor ..).trans ?_ | refine (timeState_offMotor ..).trans ?_ | refine (withNet_offMotor ..).trans ?_ | extract_lets
theorem ptpSample_offMotor (s : State) (p : Nat) (parent : Tick) (x : PtpSync) (d : PtpDelay) (utc : Word) : (ptpSample s p parent x d utc).motorSide = s.motorSide := by
  unfold ptpSample
  with_reducible repeat' first | rfl | refine offMotor_ite ?_ ?_ | refine (State.setFld_offMotor ..).trans ?_ | refine (newParent_offMotor ..).trans ?_ | refine (servo_offMotor ..).trans ?_ | refine (setRegs_offMotor ..).trans ?_ | extract_lets
theorem holdover_offMotor (s : State) : (holdover s).motorSide = s.motorSide := by
  unfold holdover
  with_reducible repeat' first | rfl | refine offMotor_ite ?_ ?_ | refine (setRate_offMotor ..).trans ?_ | refine (timeState_offMotor ..).trans ?_
theorem discipline_offMotor (s : State) : (discipline s).motorSide = s.motorSide := by
  unfold discipline
  with_reducible repeat' first | rfl | refine offMotor_ite ?_ ?_ | refine (State.setFlag_offMotor ..).trans ?_ | refine (setRate_offMotor ..).trans ?_ | refine (withNet_offMotor ..).trans ?_ | refine (withSward_offMotor ..).trans ?_ | extract_lets
theorem timeCfgWrite_offMotor (s : State) (w : Word) : (timeCfgWrite s w).st.motorSide = s.motorSide := by
  unfold timeCfgWrite
  with_reducible repeat' first | rfl | refine offMotor_iteR ?_ ?_ | refine offMotor_ite ?_ ?_ | refine (refuse_offMotor ..).trans ?_ | refine (setReg_offMotor ..).trans ?_ | refine (slewEnd_offMotor ..).trans ?_ | refine (timeState_offMotor ..).trans ?_ | refine (withNet_offMotor ..).trans ?_ | extract_lets
theorem timeSnap_offMotor (s : State) : (timeSnap s).motorSide = s.motorSide := by
  unfold timeSnap
  with_reducible repeat' first | rfl | refine (State.setReg64_offMotor ..).trans ?_ | refine (setRegs_offMotor ..).trans ?_ | extract_lets
theorem ethFilter_offMotor (s : State) (p : Nat) : (ethFilter s p).motorSide = s.motorSide := by
  unfold ethFilter
  with_reducible repeat' first | rfl | refine (State.cntSat_offMotor ..).trans ?_
theorem ptpStamp_offMotor (s : State) (p : Nat) (t : Tick) (tx : Bool) : (ptpStamp s p t tx).1.motorSide = s.motorSide := by
  unfold ptpStamp
  with_reducible repeat' first | rfl | refine offMotor_ite1 ?_ ?_ | refine offMotor_ite ?_ ?_ | refine (State.raise_offMotor ..).trans ?_ | refine (State.setFlag_offMotor ..).trans ?_ | refine (State.setNetPort_offMotor ..).trans ?_ | extract_lets
theorem ptpPut_offMotor (s : State) (p kind : Nat) (stamp : Option Int) : (ptpPut s p kind stamp).motorSide = s.motorSide := by
  unfold ptpPut
  with_reducible repeat' first | rfl | refine offMotor_ite ?_ ?_ | refine (netTx_offMotor ..).trans ?_ | extract_lets
theorem ptpSend_offMotor (s : State) (p kind : Nat) : (ptpSend s p kind).motorSide = s.motorSide := by
  unfold ptpSend
  with_reducible repeat' first | rfl | refine offMotor_ite ?_ ?_ | refine (ptpPut_offMotor ..).trans ?_ | refine (ptpStamp_offMotor ..).trans ?_ | extract_lets | split
theorem ptpInterval_offMotor (s : State) (p kind : Nat) : (ptpInterval s p kind).motorSide = s.motorSide := by
  unfold ptpInterval
  with_reducible repeat' first | rfl | refine offMotor_ite ?_ ?_ | refine (ptpSend_offMotor ..).trans ?_ | extract_lets | split
theorem ptpReceive_offMotor (s : State) (p : Nat) (raw : Bool) (body : List Byte) (t : Tick) : (ptpReceive s p raw body t).motorSide = s.motorSide := by
  unfold ptpReceive
  with_reducible repeat' first | rfl | refine offMotor_ite ?_ ?_ | refine (ethFilter_offMotor ..).trans ?_ | refine (ptpPut_offMotor ..).trans ?_ | refine (ptpSend_offMotor ..).trans ?_ | refine (ptpStamp_offMotor ..).trans ?_ | extract_lets
theorem udpReceive_offMotor (s : State) (p : Nat) (src : Nat) (tag : Option Nat) (ip : Word) (sum : Nat) (body : List Byte) (t : Tick) : (udpReceive s p src tag ip sum body t).motorSide = s.motorSide := by
  unfold udpReceive
  with_reducible repeat' first | rfl | refine offMotor_ite ?_ ?_ | refine (carrierArrive_offMotor ..).trans ?_ | refine (ethFilter_offMotor ..).trans ?_ | refine (ptpReceive_offMotor ..).trans ?_ | refine (telCopy_offMotor ..).trans ?_ | extract_lets
theorem ipReceive_offMotor (s : State) (p : Nat) (src : Nat) (tag : Option Nat) (body : List Byte) (t : Tick) : (ipReceive s p src tag body t).motorSide = s.motorSide := by
  unfold ipReceive
  with_reducible repeat' first | rfl | refine offMotor_ite ?_ ?_ | refine (ethFilter_offMotor ..).trans ?_ | refine (netTx_offMotor ..).trans ?_ | refine (udpReceive_offMotor ..).trans ?_ | extract_lets
theorem arpReceive_offMotor (s : State) (p : Nat) (src : Nat) (body : List Byte) : (arpReceive s p src body).motorSide = s.motorSide := by
  unfold arpReceive
  with_reducible repeat' first | rfl | refine offMotor_ite ?_ ?_ | refine (netTx_offMotor ..).trans ?_
theorem ethReceive_offMotor (s : State) (p : Nat) (bytes : List Byte) (room : Bool) (t : Tick) : (ethReceive s p bytes room t).motorSide = s.motorSide := by
  unfold ethReceive
  with_reducible repeat' first | rfl | refine offMotor_ite ?_ ?_ | refine (State.cntSat_offMotor ..).trans ?_ | refine (State.cntWrap_offMotor ..).trans ?_ | refine (State.raiseLim_offMotor ..).trans ?_ | refine (State.setFlag_offMotor ..).trans ?_ | refine (arpReceive_offMotor ..).trans ?_ | refine (ethFilter_offMotor ..).trans ?_ | refine (ipReceive_offMotor ..).trans ?_ | refine (ptpReceive_offMotor ..).trans ?_ | extract_lets
theorem ethLink_offMotor (s : State) (p : Nat) (up slow : Bool) : (ethLink s p up slow).motorSide = s.motorSide := by
  unfold ethLink
  with_reducible repeat' first | rfl | refine offMotor_ite ?_ ?_ | refine (State.raise_offMotor ..).trans ?_ | refine (State.setFlag_offMotor ..).trans ?_ | extract_lets
theorem mdioWrite_offMotor (s : State) (p : Nat) (w : Word) : (mdioWrite s p w).st.motorSide = s.motorSide := by
  unfold mdioWrite
  with_reducible repeat' first | rfl | refine offMotor_iteR ?_ ?_ | refine offMotor_ite ?_ ?_ | refine (refuse_offMotor ..).trans ?_ | refine (setReg_offMotor ..).trans ?_ | extract_lets
theorem mdioDone_offMotor (s : State) (p : Nat) (data : Nat) : (mdioDone s p data).motorSide = s.motorSide := by
  unfold mdioDone
  with_reducible repeat' first | rfl | refine offMotor_ite ?_ ?_ | refine (State.setFlag_offMotor ..).trans ?_ | refine (State.setFld_offMotor ..).trans ?_ | extract_lets
theorem State.setCanN_offMotor (s : State) (n : Nat) (x : CanN) : (State.setCanN s n x).motorSide = s.motorSide := by
  unfold State.setCanN
  with_reducible repeat' first | rfl | refine (withCan_offMotor ..).trans ?_ | extract_lets
theorem State.setCanSlotS_offMotor (s : State) (n i : Nat) (x : CanSlot) : (State.setCanSlotS s n i x).motorSide = s.motorSide := by
  unfold State.setCanSlotS
  with_reducible repeat' first | rfl | refine (State.setCanN_offMotor ..).trans ?_ | extract_lets
theorem canSlotShow_offMotor (s : State) (n i : Nat) : (canSlotShow s n i).motorSide = s.motorSide := by
  unfold canSlotShow
  with_reducible repeat' first | rfl | refine offMotor_ite ?_ ?_ | refine (State.setFld_offMotor ..).trans ?_ | extract_lets | split
theorem canSlotsShow_offMotor (s : State) (n : Nat) : (canSlotsShow s n).motorSide = s.motorSide := by
  unfold canSlotsShow
  with_reducible repeat' first | rfl | refine offMotor_foldl ?_ ?_ | intro _ _ | refine (canSlotShow_offMotor ..).trans ?_
theorem canOutcome_offMotor (s : State) (n i : Nat) (m : CanMsg) (code : Nat) (cancelled : Bool) : (canOutcome s n i m code cancelled).motorSide = s.motorSide := by
  unfold canOutcome
  with_reducible repeat' first | rfl | refine offMotor_ite ?_ ?_ | refine (State.raise_offMotor ..).trans ?_
theorem canFree_offMotor (s : State) (n i : Nat) : (canFree s n i).motorSide = s.motorSide := by
  unfold canFree
  with_reducible repeat' first | rfl | refine (State.setCanSlotS_offMotor ..).trans ?_ | refine (State.setFlag_offMotor ..).trans ?_ | refine (canSlotShow_offMotor ..).trans ?_ | extract_lets
theorem canCounters_offMotor (s : State) (n tec rec_ : Nat) : (canCounters s n tec rec_).motorSide = s.motorSide := by
  unfold canCounters
  with_reducible repeat' first | rfl | refine offMotor_ite ?_ ?_ | refine (State.raise_offMotor ..).trans ?_ | refine (State.setCanN_offMotor ..).trans ?_ | refine (State.setFld_offMotor ..).trans ?_ | refine (canSlotsShow_offMotor ..).trans ?_ | extract_lets
theorem canBusError_offMotor (s : State) (n : Nat) (heavy : Bool) : (canBusError s n heavy).motorSide = s.motorSide := by
  unfold canBusError
  with_reducible repeat' first | rfl | refine offMotor_ite ?_ ?_ | refine (State.cntSat_offMotor ..).trans ?_ | refine (canCounters_offMotor ..).trans ?_
theorem canRxGood_offMotor (s : State) (n : Nat) : (canRxGood s n).motorSide = s.motorSide := by
  unfold canRxGood
  with_reducible repeat' first | rfl | refine offMotor_ite ?_ ?_ | refine (State.fresh_offMotor ..).trans ?_ | refine (canCounters_offMotor ..).trans ?_ | extract_lets
theorem canSetMode_offMotor (s : State) (n m : Nat) : (canSetMode s n m).motorSide = s.motorSide := by
  unfold canSetMode
  with_reducible repeat' first | rfl | refine offMotor_ite ?_ ?_ | refine (State.raise_offMotor ..).trans ?_ | refine (State.setCanN_offMotor ..).trans ?_ | refine (State.setFld_offMotor ..).trans ?_ | refine (canSlotsShow_offMotor ..).trans ?_ | extract_lets
theorem canFrameEnd_offMotor (s : State) (n : Nat) : (canFrameEnd s n).motorSide = s.motorSide := by
  unfold canFrameEnd
  with_reducible repeat' first | rfl | refine offMotor_ite ?_ ?_ | refine (canSetMode_offMotor ..).trans ?_
theorem canCtrlWrite_offMotor (s : State) (n : Nat) (w : Word) : (canCtrlWrite s n w).st.motorSide = s.motorSide := by
  unfold canCtrlWrite
  with_reducible repeat' first | rfl | refine offMotor_iteR ?_ ?_ | refine offMotor_ite ?_ ?_ | refine (State.setCanN_offMotor ..).trans ?_ | refine (canSetMode_offMotor ..).trans ?_ | refine (refuse_offMotor ..).trans ?_ | refine (setReg_offMotor ..).trans ?_ | extract_lets
theorem canRecovered_offMotor (s : State) (n : Nat) : (canRecovered s n).motorSide = s.motorSide := by
  unfold canRecovered
  with_reducible repeat' first | rfl | refine offMotor_ite ?_ ?_ | refine (canCounters_offMotor ..).trans ?_
theorem canDominant_offMotor (s : State) (n : Nat) (own : Bool) : (canDominant s n own).motorSide = s.motorSide := by
  unfold canDominant
  with_reducible repeat' first | rfl | refine offMotor_ite ?_ ?_ | refine (State.raise_offMotor ..).trans ?_ | refine (State.setFlag_offMotor ..).trans ?_ | refine (canCounters_offMotor ..).trans ?_
theorem opCanTx_offMotor (r : Request) (s : State) : (opCanTx r s).st.motorSide = s.motorSide := by
  unfold opCanTx
  with_reducible repeat' first | rfl | refine offMotor_iteR ?_ ?_ | refine offMotor_ite ?_ ?_ | refine (State.setCanSlotS_offMotor ..).trans ?_ | refine (canSlotShow_offMotor ..).trans ?_ | refine (refuse_offMotor ..).trans ?_ | extract_lets | split
theorem opCanCancel_offMotor (r : Request) (s : State) : (opCanCancel r s).st.motorSide = s.motorSide := by
  unfold opCanCancel
  with_reducible repeat' first | rfl | refine offMotor_iteR ?_ ?_ | refine offMotor_ite ?_ ?_ | refine (State.setCanSlotS_offMotor ..).trans ?_ | refine (State.setFlag_offMotor ..).trans ?_ | refine (canFree_offMotor ..).trans ?_ | refine (canOutcome_offMotor ..).trans ?_ | refine (refuse_offMotor ..).trans ?_ | extract_lets | split
theorem canTxStart_offMotor (s : State) (n : Nat) (t : Tick) : (canTxStart s n t).motorSide = s.motorSide := by
  unfold canTxStart
  with_reducible repeat' first | rfl | refine offMotor_ite ?_ ?_ | refine (State.setCanN_offMotor ..).trans ?_ | refine (State.setFlag_offMotor ..).trans ?_ | refine (canSlotShow_offMotor ..).trans ?_ | extract_lets | split
theorem canTdcStep_offMotor (s : State) (n : Nat) (m : CanMsg) (tdc : List Nat) : (canTdcStep s n m tdc).1.motorSide = s.motorSide := by
  unfold canTdcStep
  with_reducible repeat' first | rfl | refine offMotor_ite1 ?_ ?_ | refine offMotor_ite ?_ ?_ | refine (State.raise_offMotor ..).trans ?_ | refine (State.setFlag_offMotor ..).trans ?_ | refine (State.setFld_offMotor ..).trans ?_ | extract_lets | split
theorem canSlotEnd_offMotor (s : State) (n i : Nat) (m : CanMsg) (ok : Bool) : (canSlotEnd s n i m ok).motorSide = s.motorSide := by
  unfold canSlotEnd
  with_reducible repeat' first | rfl | refine offMotor_ite ?_ ?_ | refine (State.setFlag_offMotor ..).trans ?_ | refine (canFree_offMotor ..).trans ?_ | refine (canOutcome_offMotor ..).trans ?_ | refine (canSlotShow_offMotor ..).trans ?_ | extract_lets
theorem canAttemptOver_offMotor (s : State) (n i res : Nat) : (canAttemptOver s n i res).motorSide = s.motorSide := by
  unfold canAttemptOver
  with_reducible repeat' first | rfl | refine (State.setCanN_offMotor ..).trans ?_ | extract_lets
theorem canTxDone_offMotor (s : State) (n res : Nat) (tdc : List Nat) : (canTxDone s n res tdc).motorSide = s.motorSide := by
  unfold canTxDone
  with_reducible repeat' first | rfl | refine offMotor_ite ?_ ?_ | refine (State.cntSat_offMotor ..).trans ?_ | refine (canAttemptOver_offMotor ..).trans ?_ | refine (canCounters_offMotor ..).trans ?_ | refine (canFrameEnd_offMotor ..).trans ?_ | refine (canSlotEnd_offMotor ..).trans ?_ | refine (canTdcStep_offMotor ..).trans ?_ | refine (ringDrop_offMotor ..).trans ?_ | refine (withCan_offMotor ..).trans ?_ | extract_lets | split
theorem opCanSchedule_offMotor (r : Request) (s : State) : (opCanSchedule r s).st.motorSide = s.motorSide := by
  unfold opCanSchedule
  with_reducible repeat' first | rfl | refine offMotor_iteR ?_ ?_ | refine offMotor_ite ?_ ?_ | refine (State.setCanN_offMotor ..).trans ?_ | refine (State.setFlag_offMotor ..).trans ?_ | refine (State.setFld_offMotor ..).trans ?_ | refine (canSlotsShow_offMotor ..).trans ?_ | refine (refuse_offMotor ..).trans ?_ | extract_lets | split
theorem canCycle_offMotor (s : State) (n c : Nat) (t : Tick) (ref : Bool) : (canCycle s n c t ref).motorSide = s.motorSide := by
  unfold canCycle
  with_reducible repeat' first | rfl | refine (State.setCanN_offMotor ..).trans ?_ | refine (State.setFld_offMotor ..).trans ?_ | extract_lets
theorem canCycleStart_offMotor (s : State) (n : Nat) (t : Tick) : (canCycleStart s n t).motorSide = s.motorSide := by
  unfold canCycleStart
  with_reducible repeat' first | rfl | refine offMotor_ite ?_ ?_ | refine (canCycle_offMotor ..).trans ?_ | refine (canTxStart_offMotor ..).trans ?_ | extract_lets
theorem canSync_offMotor (s : State) (n : Nat) (on : Bool) : (canSync s n on).motorSide = s.motorSide := by
  unfold canSync
  with_reducible repeat' first | rfl | refine offMotor_ite ?_ ?_ | refine (State.raise_offMotor ..).trans ?_ | refine (State.setFlag_offMotor ..).trans ?_
theorem canReference_offMotor (s : State) (n cnt : Nat) (t : Tick) : (canReference s n cnt t).motorSide = s.motorSide := by
  unfold canReference
  with_reducible repeat' first | rfl | refine offMotor_ite ?_ ?_ | refine (canCycle_offMotor ..).trans ?_ | refine (canSync_offMotor ..).trans ?_ | extract_lets
theorem canRefTimeout_offMotor (s : State) (n : Nat) : (canRefTimeout s n).motorSide = s.motorSide := by
  unfold canRefTimeout
  with_reducible repeat' first | rfl | refine offMotor_ite ?_ ?_ | refine (State.at_offMotor ..).trans ?_ | refine (State.setCanN_offMotor ..).trans ?_ | refine (canSync_offMotor ..).trans ?_ | extract_lets
theorem canWinStart_offMotor (s : State) (n w : Nat) : (canWinStart s n w).motorSide = s.motorSide := by
  unfold canWinStart
  with_reducible repeat' first | rfl | refine offMotor_ite ?_ ?_ | refine (State.at_offMotor ..).trans ?_ | refine (State.setCanN_offMotor ..).trans ?_ | refine (State.setCanSlotS_offMotor ..).trans ?_ | extract_lets
theorem canWinEnd_offMotor (s : State) (n w : Nat) : (canWinEnd s n w).motorSide = s.motorSide := by
  unfold canWinEnd
  with_reducible repeat' first | rfl | refine offMotor_ite ?_ ?_ | refine (State.at_offMotor ..).trans ?_ | refine (State.cntSat_offMotor ..).trans ?_ | refine (State.raiseLim_offMotor ..).trans ?_ | refine (State.setCanN_offMotor ..).trans ?_ | refine (canOutcome_offMotor ..).trans ?_ | extract_lets | split
theorem canReceive_offMotor (s : State) (n : Nat) (ide fdf brs esi rtr : Bool) (id dlc : Nat) (data : List Byte) (t : Tick) : (canReceive s n ide fdf brs esi rtr id dlc data t).motorSide = s.motorSide := by
  unfold canReceive
  with_reducible repeat' first | rfl | refine offMotor_ite ?_ ?_ | refine (State.cntSat_offMotor ..).trans ?_ | refine (State.cntWrap_offMotor ..).trans ?_ | refine (State.setFlag_offMotor ..).trans ?_ | refine (canFrameEnd_offMotor ..).trans ?_ | refine (canReference_offMotor ..).trans ?_ | refine (canRxGood_offMotor ..).trans ?_ | refine (carrierArrive_offMotor ..).trans ?_ | refine (ringPut_offMotor ..).trans ?_ | extract_lets | split
theorem swDrop_offMotor (s : State) (p cls reason : Nat) : (swDrop s p cls reason).motorSide = s.motorSide := by
  unfold swDrop
  with_reducible repeat' first | rfl | refine (State.cntSat_offMotor ..).trans ?_ | refine (State.raiseLim_offMotor ..).trans ?_ | extract_lets | split
theorem swUpstream_offMotor (s : State) : (swUpstream s).motorSide = s.motorSide := by
  unfold swUpstream
  with_reducible repeat' first | rfl | refine offMotor_ite ?_ ?_ | refine offMotor_iteR ?_ ?_ | refine offMotor_ite1 ?_ ?_ | refine offMotor_ite2 ?_ ?_ | refine offMotor_foldl ?_ ?_ | refine offMotor_foldl1 ?_ ?_ | refine offMotor_foldl2 ?_ ?_ | refine offMotor_iteO ?_ ?_ | refine offMotor_some ?_ | refine offMotor_none ?_ | assumption | intro _ _ | intro _ | (guard_target =~ (_ : HuskS) = _; with_unfolding_all rfl) | refine (State.setFld_offMotor ..).trans ?_ | extract_lets | split | dsimp +zetaDelta only
theorem swOwe_offMotor (s : State) (p : Nat) (f : SwFrame) : (swOwe s p f).motorSide = s.motorSide := by
  unfold swOwe
  with_reducible repeat' first | rfl | refine offMotor_ite ?_ ?_ | refine (State.setSwPort_offMotor ..).trans ?_ | extract_lets
theorem swSetState_offMotor (s : State) (p st : Nat) : (swSetState s p st).motorSide = s.motorSide := by
  unfold swSetState
  with_reducible repeat' first | rfl | refine offMotor_ite ?_ ?_ | refine (State.raise_offMotor ..).trans ?_ | refine (State.setFld_offMotor ..).trans ?_ | refine (swUpstream_offMotor ..).trans ?_
theorem swDown_offMotor (s : State) (p : Nat) : (swDown s p).motorSide = s.motorSide := by
  unfold swDown
  with_reducible repeat' first | rfl | refine offMotor_foldl ?_ ?_ | intro _ _ | refine (State.cntSat_offMotor ..).trans ?_ | refine (State.setSwPort_offMotor ..).trans ?_ | refine (setReg_offMotor ..).trans ?_ | refine (swOwe_offMotor ..).trans ?_ | refine (swSetState_offMotor ..).trans ?_ | extract_lets | split
theorem swUp_offMotor (s : State) (p : Nat) : (swUp s p).motorSide = s.motorSide := by
  unfold swUp
  with_reducible repeat' first | rfl | refine offMotor_ite ?_ ?_ | refine (State.setSwPort_offMotor ..).trans ?_ | refine (swSetState_offMotor ..).trans ?_ | extract_lets
theorem swHello_offMotor (s : State) (p addr nport hops c2 c3 : Nat) : (swHello s p addr nport hops c2 c3).motorSide = s.motorSide := by
  unfold swHello
  with_reducible repeat' first | rfl | refine offMotor_ite ?_ ?_ | refine (State.raise_offMotor ..).trans ?_ | refine (State.setFld_offMotor ..).trans ?_ | refine (State.setSwPort_offMotor ..).trans ?_ | refine (swUp_offMotor ..).trans ?_ | refine (swUpstream_offMotor ..).trans ?_ | extract_lets
theorem swSent_offMotor (s : State) (p : Nat) (f : SwFrame) : (swSent s p f).motorSide = s.motorSide := by
  unfold swSent
  with_reducible repeat' first | rfl | refine (withSward_offMotor ..).trans ?_ | extract_lets
theorem swTrained_offMotor (s : State) (p : Nat) : (swTrained s p).motorSide = s.motorSide := by
  unfold swTrained
  with_reducible repeat' first | rfl | refine offMotor_ite ?_ ?_ | refine (State.setSwPort_offMotor ..).trans ?_ | refine (swSent_offMotor ..).trans ?_ | refine (swUp_offMotor ..).trans ?_ | extract_lets
theorem swLeaveGot_offMotor (s : State) (p : Nat) : (swLeaveGot s p).motorSide = s.motorSide := by
  unfold swLeaveGot
  with_reducible repeat' first | rfl | refine offMotor_ite ?_ ?_ | refine (State.setSwPort_offMotor ..).trans ?_ | extract_lets
theorem swErrors_offMotor (s : State) (p n : Nat) : (swErrors s p n).motorSide = s.motorSide := by
  unfold swErrors
  with_reducible repeat' first | rfl | refine offMotor_ite ?_ ?_ | refine (State.raiseLim_offMotor ..).trans ?_ | refine (State.setFld_offMotor ..).trans ?_ | refine (State.setSwPort_offMotor ..).trans ?_ | refine (swDown_offMotor ..).trans ?_ | extract_lets
theorem opSwardRoute_offMotor (r : Request) (s : State) : (opSwardRoute r s).st.motorSide = s.motorSide := by
  unfold opSwardRoute
  with_reducible repeat' first | rfl | refine offMotor_iteR ?_ ?_ | refine offMotor_ite ?_ ?_ | refine (State.setFld_offMotor ..).trans ?_ | refine (refuse_offMotor ..).trans ?_ | refine (withSward_offMotor ..).trans ?_ | extract_lets
theorem swPutTx_offMotor (s : State) (x : SwTx) : (swPutTx s x).motorSide = s.motorSide := by
  unfold swPutTx
  with_reducible repeat' first | rfl | refine (withSward_offMotor ..).trans ?_ | extract_lets
theorem swPutRx_offMotor (s : State) (x : SwRx) : (swPutRx s x).motorSide = s.motorSide := by
  unfold swPutRx
  with_reducible repeat' first | rfl | refine (withSward_offMotor ..).trans ?_ | extract_lets
theorem swOut_offMotor (s : State) (p : Nat) (f : SwFrame) (pinned : Bool) : (swOut s p f pinned).motorSide = s.motorSide := by
  unfold swOut
  with_reducible repeat' first | rfl | refine (swQueue_offMotor ..).trans ?_
theorem swStream_offMotor (s : State) (f : SwFrame) (pin : Option Nat) : (swStream s f pin).motorSide = s.motorSide := by
  unfold swStream
  with_reducible repeat' first | rfl | refine offMotor_ite ?_ ?_ | refine offMotor_iteR ?_ ?_ | refine offMotor_ite1 ?_ ?_ | refine offMotor_ite2 ?_ ?_ | refine offMotor_foldl ?_ ?_ | refine offMotor_foldl1 ?_ ?_ | refine offMotor_foldl2 ?_ ?_ | refine offMotor_iteO ?_ ?_ | refine offMotor_some ?_ | refine offMotor_none ?_ | assumption | intro _ _ | intro _ | (guard_target =~ (_ : HuskS) = _; with_unfolding_all rfl) | refine (swDrop_offMotor ..).trans ?_ | refine (swOut_offMotor ..).trans ?_ | refine (swPutTx_offMotor ..).trans ?_ | extract_lets | split | dsimp +zetaDelta only
theorem swSend_offMotor (s : State) (f : SwFrame) : (swSend s f).motorSide = s.motorSide := by
  unfold swSend
  with_reducible repeat' first | rfl | refine offMotor_ite ?_ ?_ | refine offMotor_foldl ?_ ?_ | intro _ _ | refine (swDrop_offMotor ..).trans ?_ | refine (swOut_offMotor ..).trans ?_ | extract_lets | split
theorem swResend_offMotor (s : State) (peer cls : Nat) : (swResend s peer cls).motorSide = s.motorSide := by
  unfold swResend
  with_reducible repeat' first | rfl | refine offMotor_ite ?_ ?_ | refine offMotor_iteR ?_ ?_ | refine offMotor_ite1 ?_ ?_ | refine offMotor_ite2 ?_ ?_ | refine offMotor_foldl ?_ ?_ | refine offMotor_foldl1 ?_ ?_ | refine offMotor_foldl2 ?_ ?_ | refine offMotor_iteO ?_ ?_ | refine offMotor_some ?_ | refine offMotor_none ?_ | assumption | intro _ _ | intro _ | (guard_target =~ (_ : HuskS) = _; with_unfolding_all rfl) | refine (State.at_offMotor ..).trans ?_ | refine (State.raise_offMotor ..).trans ?_ | refine (swOut_offMotor ..).trans ?_ | refine (swPutTx_offMotor ..).trans ?_ | refine (withSward_offMotor ..).trans ?_ | extract_lets | split | dsimp +zetaDelta only
theorem swAckSend_offMotor (s : State) (peer cls : Nat) : (swAckSend s peer cls).motorSide = s.motorSide := by
  unfold swAckSend
  with_reducible repeat' first | rfl | refine offMotor_ite ?_ ?_ | refine (swOut_offMotor ..).trans ?_ | refine (swPutRx_offMotor ..).trans ?_ | extract_lets | split
theorem swForget_offMotor (s : State) (peer cls : Nat) (rx : Bool) : (swForget s peer cls rx).motorSide = s.motorSide := by
  unfold swForget
  with_reducible repeat' first | rfl | refine offMotor_ite ?_ ?_ | refine (State.at_offMotor ..).trans ?_ | refine (withSward_offMotor ..).trans ?_ | extract_lets | split
theorem ftLock_offMotor (s : State) (on : Bool) : (ftLock s on).motorSide = s.motorSide := by
  unfold ftLock
  with_reducible repeat' first | rfl | refine offMotor_ite ?_ ?_ | refine (State.raise_offMotor ..).trans ?_ | refine (State.setFlag_offMotor ..).trans ?_
theorem ftMark_offMotor (s : State) (p e late : Nat) (t : Tick) : (ftMark s p e late t).motorSide = s.motorSide := by
  unfold ftMark
  with_reducible repeat' first | rfl | refine offMotor_ite ?_ ?_ | refine (State.setFld_offMotor ..).trans ?_ | refine (ftLock_offMotor ..).trans ?_ | refine (withSward_offMotor ..).trans ?_ | extract_lets
theorem epochSeen_offMotor (s : State) (p : Nat) : (epochSeen s p).motorSide = s.motorSide := by
  unfold epochSeen
  with_reducible repeat' first | rfl | refine offMotor_ite ?_ ?_ | refine (withClk_offMotor ..).trans ?_ | extract_lets
theorem hrxTailWrite_offMotor (s : State) (w : Word) : (hrxTailWrite s w).st.motorSide = s.motorSide := by
  unfold hrxTailWrite
  with_reducible repeat' first | rfl | refine (refuse_offMotor ..).trans ?_ | refine (setReg_offMotor ..).trans ?_ | refine (withSward_offMotor ..).trans ?_ | extract_lets | split
theorem swWaitDrop_offMotor (s : State) (p : Nat) : (swWaitDrop s p).motorSide = s.motorSide := by
  unfold swWaitDrop
  with_reducible repeat' first | rfl | refine offMotor_foldl ?_ ?_ | intro _ _ | refine (State.setSwPort_offMotor ..).trans ?_ | refine (swDrop_offMotor ..).trans ?_ | extract_lets
theorem swPullReplies_offMotor (n : Nat) (s : State) : (swPullReplies n s).motorSide = s.motorSide := by
  induction n generalizing s with
  | zero => rfl
  | succ m ih =>
    unfold swPullReplies
    repeat' first | with_reducible rfl | with_reducible refine offMotor_ite ?_ ?_ | (with_reducible refine (ih _).trans ?_) | (with_reducible refine (swStream_offMotor ..).trans ?_) | (with_reducible refine (ringDrop_offMotor ..).trans ?_) | extract_lets | split
theorem swPullHost_offMotor (s : State) (p c : Nat) : (swPullHost s p c).motorSide = s.motorSide := by
  unfold swPullHost
  with_reducible repeat' first | rfl | refine offMotor_ite ?_ ?_ | refine (ringDrop_offMotor ..).trans ?_ | refine (swDrop_offMotor ..).trans ?_ | refine (swOut_offMotor ..).trans ?_ | refine (swStream_offMotor ..).trans ?_ | extract_lets | split
theorem swPullInk_offMotor (n : Nat) (s : State) : (swPullInk n s).motorSide = s.motorSide := by
  induction n generalizing s with
  | zero => rfl
  | succ m ih =>
    unfold swPullInk
    repeat' first | with_reducible rfl | with_reducible refine offMotor_ite ?_ ?_ | (with_reducible refine (ih _).trans ?_) | (with_reducible refine (swDrop_offMotor ..).trans ?_) | (with_reducible refine (ringStore_offMotor ..).trans ?_) | (with_reducible refine (withInk_offMotor ..).trans ?_) | extract_lets | split
theorem swPull_offMotor (s : State) (p : Nat) : (swPull s p).motorSide = s.motorSide := by
  unfold swPull
  with_reducible repeat' first | rfl | refine offMotor_foldl ?_ ?_ | intro _ _ | refine (inkPump_offMotor ..).trans ?_ | refine (swPullHost_offMotor ..).trans ?_ | refine (swPullInk_offMotor ..).trans ?_ | refine (swPullReplies_offMotor ..).trans ?_ | extract_lets
theorem swFillTokens_offMotor (s : State) (p : Nat) : (swFillTokens s p).motorSide = s.motorSide := by
  unfold swFillTokens
  with_reducible repeat' first | rfl | refine (State.setSwPort_offMotor ..).trans ?_ | extract_lets
theorem swFillAck_offMotor (s : State) (f : SwFrame) : (swFillAck s f).1.motorSide = s.motorSide := by
  unfold swFillAck
  with_reducible repeat' first | rfl | refine offMotor_ite1 ?_ ?_ | refine offMotor_ite ?_ ?_ | refine (swPutRx_offMotor ..).trans ?_ | extract_lets | split
theorem swTransmit_offMotor (s : State) (p : Nat) : (swTransmit s p).motorSide = s.motorSide := by
  unfold swTransmit
  refine offMotor_ite rfl ?_
  extract_lets s1
  have h1 : s1.motorSide = s.motorSide := (swFillTokens_offMotor ..).trans ((swWaitDrop_offMotor ..).trans (offMotor_ite (swPull_offMotor ..) rfl))
  split
  · exact h1
  · split
    · exact h1
    · extract_lets s2 s3 a s4
      have h2 : s2.motorSide = s.motorSide := (State.setSwPort_offMotor ..).trans h1
      have h3 : s3.motorSide = s.motorSide := offMotor_ite h2 ((State.setFld_offMotor ..).trans h2)
      have h4 : s4.motorSide = s.motorSide := (swSent_offMotor ..).trans ((swFillAck_offMotor ..).trans h3)
      split
      · exact (swOwe_offMotor ..).trans h4
      · exact h4
theorem swCredit_offMotor (s : State) (p cls k : Nat) : (swCredit s p cls k).motorSide = s.motorSide := by
  unfold swCredit
  with_reducible repeat' first | rfl | refine offMotor_ite ?_ ?_ | refine (State.setFld_offMotor ..).trans ?_
theorem swSet_offMotor (s : State) (p : Nat) (x : SwSet) : (swSet s p x).motorSide = s.motorSide := by
  unfold swSet
  with_reducible repeat' first | rfl | refine (withSward_offMotor ..).trans ?_ | extract_lets
theorem swCredSend_offMotor (s : State) (p : Nat) : (swCredSend s p).motorSide = s.motorSide := by
  unfold swCredSend
  with_reducible repeat' first | rfl | refine offMotor_ite ?_ ?_ | refine offMotor_foldl ?_ ?_ | intro _ _ | refine (State.setSwPort_offMotor ..).trans ?_ | refine (swSet_offMotor ..).trans ?_ | extract_lets
theorem dreqSend_offMotor (s : State) (p : Nat) (t : Tick) : (dreqSend s p t).motorSide = s.motorSide := by
  unfold dreqSend
  with_reducible repeat' first | rfl | refine offMotor_ite ?_ ?_ | refine (State.setSwPort_offMotor ..).trans ?_ | refine (swSet_offMotor ..).trans ?_ | extract_lets
theorem dreqAnswer_offMotor (s : State) (p tag : Nat) (arr t : Tick) : (dreqAnswer s p tag arr t).motorSide = s.motorSide := by
  unfold dreqAnswer
  with_reducible repeat' first | rfl | refine offMotor_ite ?_ ?_ | refine (swSet_offMotor ..).trans ?_
theorem drspTake_offMotor (s : State) (p tag turn : Nat) (t : Tick) : (drspTake s p tag turn t).motorSide = s.motorSide := by
  unfold drspTake
  with_reducible repeat' first | rfl | refine offMotor_ite ?_ ?_ | refine offMotor_foldl ?_ ?_ | intro _ _ | refine (State.setSwPort_offMotor ..).trans ?_ | refine (setReg_offMotor ..).trans ?_ | extract_lets | split
theorem opSwardJoin_offMotor (r : Request) (s : State) : (opSwardJoin r s).st.motorSide = s.motorSide := by
  unfold opSwardJoin
  with_reducible repeat' first | rfl | refine offMotor_iteR ?_ ?_ | refine offMotor_ite ?_ ?_ | refine (refuse_offMotor ..).trans ?_ | refine (swSetState_offMotor ..).trans ?_ | extract_lets
theorem opSwardLeave_offMotor (r : Request) (s : State) : (opSwardLeave r s).st.motorSide = s.motorSide := by
  unfold opSwardLeave
  with_reducible repeat' first | rfl | refine offMotor_iteR ?_ ?_ | refine offMotor_ite ?_ ?_ | refine (refuse_offMotor ..).trans ?_ | refine (swDown_offMotor ..).trans ?_ | refine (swSent_offMotor ..).trans ?_ | refine (swSetState_offMotor ..).trans ?_ | extract_lets
theorem swSetRoot_offMotor (s : State) (on : Bool) : (swSetRoot s on).motorSide = s.motorSide := by
  unfold swSetRoot
  with_reducible repeat' first | rfl | refine offMotor_ite ?_ ?_ | refine (State.setFlag_offMotor ..).trans ?_ | refine (swUpstream_offMotor ..).trans ?_ | refine (withSward_offMotor ..).trans ?_ | extract_lets
theorem swNodeWrite_offMotor (s : State) (w : Word) : (swNodeWrite s w).st.motorSide = s.motorSide := by
  unfold swNodeWrite
  with_reducible repeat' first | rfl | refine offMotor_iteR ?_ ?_ | refine offMotor_ite ?_ ?_ | refine (State.setFld_offMotor ..).trans ?_ | refine (refuse_offMotor ..).trans ?_ | refine (swSetRoot_offMotor ..).trans ?_
theorem swResWrite_offMotor (s : State) (p c : Nat) (w : Word) : (swResWrite s p c w).st.motorSide = s.motorSide := by
  unfold swResWrite
  with_reducible repeat' first | rfl | refine offMotor_iteR ?_ ?_ | refine offMotor_ite ?_ ?_ | refine offMotor_foldl ?_ ?_ | intro _ _ | refine (refuse_offMotor ..).trans ?_ | refine (setReg_offMotor ..).trans ?_ | extract_lets | split
theorem sheafSetMember_offMotor (s : State) (slot : Nat) (on : Bool) : (sheafSetMember s slot on).motorSide = s.motorSide := by
  unfold sheafSetMember
  with_reducible repeat' first | rfl | refine offMotor_ite ?_ ?_ | refine (State.setFlag_offMotor ..).trans ?_
theorem sheafTake_offMotor (s : State) (st : Nat) : (sheafTake s st).motorSide = s.motorSide := by
  unfold sheafTake
  with_reducible repeat' first | rfl | refine offMotor_ite ?_ ?_ | refine (State.raise_offMotor ..).trans ?_ | refine (State.setFld_offMotor ..).trans ?_ | extract_lets
theorem linkData_offMotor (s : State) (v : Nat) (ft : Tick) (per : Nat) (out : List Word) : (linkData s v ft per out).motorSide = s.motorSide := by
  unfold linkData
  with_reducible repeat' first | rfl | refine offMotor_ite ?_ ?_ | refine (withSheaf_offMotor ..).trans ?_ | extract_lets
theorem opSheafRole_offMotor (r : Request) (s : State) : (opSheafRole r s).st.motorSide = s.motorSide := by
  unfold opSheafRole
  with_reducible repeat' first | rfl | refine offMotor_iteR ?_ ?_ | refine offMotor_ite ?_ ?_ | refine (State.setFlag_offMotor ..).trans ?_ | refine (State.setFld_offMotor ..).trans ?_ | refine (refuse_offMotor ..).trans ?_ | refine (sheafSetMember_offMotor ..).trans ?_ | refine (sheafTake_offMotor ..).trans ?_ | refine (swSetRoot_offMotor ..).trans ?_ | refine (withSheaf_offMotor ..).trans ?_ | extract_lets
theorem sheafBeaconSend_offMotor (s : State) : (sheafBeaconSend s).motorSide = s.motorSide := by
  unfold sheafBeaconSend
  with_reducible repeat' first | rfl | refine offMotor_ite ?_ ?_ | refine offMotor_foldl ?_ ?_ | intro _ _ | refine (swSend_offMotor ..).trans ?_ | refine (withSheaf_offMotor ..).trans ?_ | extract_lets
theorem sheafStatus_offMotor (s : State) (slot : Nat) (join standby leave : Bool) (links : List Nat) : (sheafStatus s slot join standby leave links).motorSide = s.motorSide := by
  unfold sheafStatus
  with_reducible repeat' first | rfl | refine offMotor_ite ?_ ?_ | refine (withSheaf_offMotor ..).trans ?_ | extract_lets
theorem mirrorTake_offMotor (s : State) (m : Mirror) : (mirrorTake s m).motorSide = s.motorSide := by
  unfold mirrorTake
  with_reducible repeat' first | rfl | refine offMotor_ite ?_ ?_ | refine (withSheaf_offMotor ..).trans ?_ | extract_lets
theorem clkSetQual_offMotor (s : State) (src : Nat) (on : Bool) : (clkSetQual s src on).motorSide = s.motorSide := by
  unfold clkSetQual
  with_reducible repeat' first | rfl | refine (State.setFlag_offMotor ..).trans ?_
theorem clkSwitched_offMotor (s : State) (old new : Nat) (forced : Bool) : (clkSwitched s old new forced).motorSide = s.motorSide := by
  unfold clkSwitched
  with_reducible repeat' first | rfl | refine offMotor_ite ?_ ?_ | refine (State.raise_offMotor ..).trans ?_ | refine (State.setFlag_offMotor ..).trans ?_ | refine (State.setFld_offMotor ..).trans ?_ | refine (withClk_offMotor ..).trans ?_ | extract_lets
theorem clkSwitch_offMotor (s0 : State) (new : Nat) : (clkSwitch s0 new).motorSide = s0.motorSide := by
  unfold clkSwitch
  with_reducible repeat' first | rfl | refine offMotor_ite ?_ ?_ | refine (State.setFld_offMotor ..).trans ?_ | refine (clkSwitched_offMotor ..).trans ?_ | refine (withClk_offMotor ..).trans ?_ | extract_lets
theorem clkStart_offMotor (s : State) (src : Nat) : (clkStart s src).motorSide = s.motorSide := by
  unfold clkStart
  with_reducible repeat' first | rfl | refine (clkSwitch_offMotor ..).trans ?_ | refine (withClk_offMotor ..).trans ?_ | extract_lets
theorem trimStop_offMotor (s : State) : (trimStop s).motorSide = s.motorSide := by
  unfold trimStop
  with_reducible repeat' first | rfl | refine (State.setFlag_offMotor ..).trans ?_ | refine (withClk_offMotor ..).trans ?_ | extract_lets
theorem trimMeasure_offMotor (s : State) (err : Int) : (trimMeasure s err).motorSide = s.motorSide := by
  unfold trimMeasure
  with_reducible repeat' first | rfl | refine offMotor_ite ?_ ?_ | refine (State.setFlag_offMotor ..).trans ?_ | refine (State.setFld_offMotor ..).trans ?_ | refine (trimStop_offMotor ..).trans ?_ | refine (withClk_offMotor ..).trans ?_ | extract_lets
theorem clkCtrlWrite_offMotor (s : State) (w : Word) : (clkCtrlWrite s w).st.motorSide = s.motorSide := by
  unfold clkCtrlWrite
  with_reducible repeat' first | rfl | refine offMotor_iteR ?_ ?_ | refine offMotor_ite ?_ ?_ | refine offMotor_foldl ?_ ?_ | intro _ _ | refine (clkSetQual_offMotor ..).trans ?_ | refine (refuse_offMotor ..).trans ?_ | refine (setReg_offMotor ..).trans ?_ | extract_lets
theorem clkRctrimWrite_offMotor (s : State) (w : Word) : (clkRctrimWrite s w).st.motorSide = s.motorSide := by
  unfold clkRctrimWrite
  with_reducible repeat' first | rfl | refine offMotor_iteR ?_ ?_ | refine offMotor_ite ?_ ?_ | refine (refuse_offMotor ..).trans ?_ | refine (setReg_offMotor ..).trans ?_ | refine (trimStop_offMotor ..).trans ?_ | extract_lets
theorem keepRead_offMotor (s : State) (n : Nat) : (keepRead s n).2.2.motorSide = s.motorSide := by
  unfold keepRead
  split
  · rfl
  · split <;> rfl
theorem keepStart_offMotor (s : State) (n : Nat) (v : Word) : (keepStart s n v).1.motorSide = s.motorSide := by
  unfold keepStart
  with_reducible repeat' first | rfl | refine offMotor_ite1 ?_ ?_ | refine offMotor_ite ?_ ?_ | refine (State.raise_offMotor ..).trans ?_ | refine (State.setFlag_offMotor ..).trans ?_ | refine (State.setFld_offMotor ..).trans ?_ | refine (withKeep_offMotor ..).trans ?_ | extract_lets
theorem keepQueue_offMotor (s : State) (n : Nat) (v : Word) : (keepQueue s n v).1.motorSide = s.motorSide := by
  unfold keepQueue
  with_reducible repeat' first | rfl | refine offMotor_ite1 ?_ ?_ | refine offMotor_ite ?_ ?_ | refine (keepStart_offMotor ..).trans ?_ | refine (withKeep_offMotor ..).trans ?_ | extract_lets
theorem opKeepWrite_offMotor (r : Request) (s : State) : (opKeepWrite r s).st.motorSide = s.motorSide := by
  unfold opKeepWrite
  with_reducible repeat' first | rfl | refine offMotor_iteR ?_ ?_ | refine offMotor_ite ?_ ?_ | refine (keepStart_offMotor ..).trans ?_ | refine (refuse_offMotor ..).trans ?_ | extract_lets
theorem keepPersist_offMotor (s : State) (n ecc : Nat) : (keepPersist s n ecc).motorSide = s.motorSide := by
  unfold keepPersist
  with_reducible repeat' first | rfl | refine offMotor_ite ?_ ?_ | refine (State.setFlag_offMotor ..).trans ?_ | refine (keepStart_offMotor ..).trans ?_ | refine (setReg_offMotor ..).trans ?_ | refine (withKeep_offMotor ..).trans ?_ | extract_lets | split
theorem keepBump_offMotor (s : State) (n k : Nat) : (keepBump s n k).motorSide = s.motorSide := by
  unfold keepBump
  with_reducible repeat' first | rfl | refine (keepQueue_offMotor ..).trans ?_
theorem fwPut_offMotor (s : State) (b i : Nat) (w : Word) : (fwPut s b i w).motorSide = s.motorSide := by
  unfold fwPut
  with_reducible repeat' first | rfl | refine (withNvm_offMotor ..).trans ?_ | extract_lets
theorem fwErase_offMotor (s : State) (b : Nat) : (fwErase s b).motorSide = s.motorSide := by
  unfold fwErase
  with_reducible repeat' first | rfl | refine (withNvm_offMotor ..).trans ?_ | extract_lets
theorem fwAbandon_offMotor (s : State) (detail : Nat) : (fwAbandon s detail).motorSide = s.motorSide := by
  unfold fwAbandon
  with_reducible repeat' first | rfl | refine (State.raise_offMotor ..).trans ?_ | refine (State.setFlag_offMotor ..).trans ?_ | refine (State.setFld_offMotor ..).trans ?_ | refine (fwErase_offMotor ..).trans ?_ | refine (setReg_offMotor ..).trans ?_ | refine (withBoot_offMotor ..).trans ?_ | extract_lets
theorem opFwStageBegin_offMotor (r : Request) (s : State) : (opFwStageBegin r s).st.motorSide = s.motorSide := by
  unfold opFwStageBegin
  with_reducible repeat' first | rfl | refine offMotor_iteR ?_ ?_ | refine offMotor_ite ?_ ?_ | refine (State.setFlag_offMotor ..).trans ?_ | refine (State.setFld_offMotor ..).trans ?_ | refine (fwErase_offMotor ..).trans ?_ | refine (refuse_offMotor ..).trans ?_ | refine (setReg_offMotor ..).trans ?_ | refine (withBoot_offMotor ..).trans ?_ | extract_lets
theorem fwPuts_offMotor (s : State) (b i : Nat) (ws : List Word) : (fwPuts s b i ws).motorSide = s.motorSide := by
  induction ws generalizing s i with
  | nil => rfl
  | cons w ws ih => exact (ih _ _).trans (fwPut_offMotor ..)
theorem opFwStageData_offMotor (r : Request) (s : State) : (opFwStageData r s).st.motorSide = s.motorSide := by
  unfold opFwStageData
  with_reducible repeat' first | rfl | refine offMotor_iteR ?_ ?_ | refine offMotor_ite ?_ ?_ | refine (State.setFld_offMotor ..).trans ?_ | refine (fwPuts_offMotor ..).trans ?_ | refine (refuse_offMotor ..).trans ?_ | refine (withBoot_offMotor ..).trans ?_ | extract_lets | split
theorem opFwStageEnd_offMotor (r : Request) (s : State) : (opFwStageEnd r s).st.motorSide = s.motorSide := by
  unfold opFwStageEnd
  with_reducible repeat' first | rfl | refine offMotor_iteR ?_ ?_ | refine offMotor_ite ?_ ?_ | refine (refuse_offMotor ..).trans ?_ | refine (withBoot_offMotor ..).trans ?_ | extract_lets | split
theorem fwStageVerified_offMotor (s : State) : (fwStageVerified s).motorSide = s.motorSide := by
  unfold fwStageVerified
  with_reducible repeat' first | rfl | refine offMotor_ite ?_ ?_ | refine (State.raise_offMotor ..).trans ?_ | refine (State.setFlag_offMotor ..).trans ?_ | refine (setReg_offMotor ..).trans ?_ | refine (withBoot_offMotor ..).trans ?_ | extract_lets | split
theorem fwRecovery_offMotor (s : State) (enter : Bool) : (fwRecovery s enter).motorSide = s.motorSide := by
  unfold fwRecovery
  with_reducible repeat' first | rfl | refine offMotor_ite ?_ ?_ | refine (State.setFlag_offMotor ..).trans ?_ | refine (withBoot_offMotor ..).trans ?_ | refine (withPhase_offMotor ..).trans ?_ | extract_lets
theorem fwResume_offMotor (s : State) : (fwResume s).motorSide = s.motorSide := by
  unfold fwResume
  with_reducible repeat' first | rfl | refine offMotor_ite ?_ ?_ | refine (State.raise_offMotor ..).trans ?_ | refine (State.setFlag_offMotor ..).trans ?_ | refine (fwRecovery_offMotor ..).trans ?_ | refine (keepBump_offMotor ..).trans ?_ | refine (withBoot_offMotor ..).trans ?_ | refine (withReed_offMotor ..).trans ?_ | extract_lets | split
theorem opFwConfirm_offMotor (r : Request) (s : State) : (opFwConfirm r s).st.motorSide = s.motorSide := by
  unfold opFwConfirm
  with_reducible repeat' first | rfl | refine offMotor_iteR ?_ ?_ | refine offMotor_ite ?_ ?_ | refine (State.raise_offMotor ..).trans ?_ | refine (State.setFlag_offMotor ..).trans ?_ | refine (State.setFld_offMotor ..).trans ?_ | refine (keepBump_offMotor ..).trans ?_ | refine (keepQueue_offMotor ..).trans ?_ | refine (refuse_offMotor ..).trans ?_ | refine (withBoot_offMotor ..).trans ?_ | extract_lets | split
theorem scribeSwitch_offMotor (s : State) : (scribeSwitch s).motorSide = s.motorSide := by
  unfold scribeSwitch
  with_reducible repeat' first | rfl | refine (State.raise_offMotor ..).trans ?_ | refine (State.setFlag_offMotor ..).trans ?_ | refine (withSafe_offMotor ..).trans ?_ | extract_lets
theorem opFwScribe_offMotor (r : Request) (s : State) : (opFwScribe r s).st.motorSide = s.motorSide := by
  unfold opFwScribe
  with_reducible repeat' first | rfl | refine offMotor_iteR ?_ ?_ | refine offMotor_ite ?_ ?_ | refine (refuse_offMotor ..).trans ?_ | refine (scribeSwitch_offMotor ..).trans ?_ | extract_lets | split
theorem envelopeMeasure_offMotor (s : State) (mv tj : BitVec 16) : (envelopeMeasure s mv tj).motorSide = s.motorSide := by
  unfold envelopeMeasure
  with_reducible repeat' first | rfl | refine offMotor_ite ?_ ?_ | refine (State.raiseLim_offMotor ..).trans ?_
theorem loopCtrlWrite_offMotor (s : State) (w : Word) : (loopCtrlWrite s w).st.motorSide = s.motorSide := by
  unfold loopCtrlWrite
  with_reducible repeat' first | rfl | refine offMotor_iteR ?_ ?_ | refine offMotor_ite ?_ ?_ | refine offMotor_foldl ?_ ?_ | intro _ _ | refine (State.setFld_offMotor ..).trans ?_ | refine (setReg_offMotor ..).trans ?_ | extract_lets
theorem rdNone_offMotor (s : State) : (rdNone s).st.motorSide = s.motorSide := rfl
theorem offMotor_iteRd {c : Prop} [Decidable c] {a b : Rd} {k : MotorSide} (ha : a.st.motorSide = k) (hb : b.st.motorSide = k) : (if c then a else b).st.motorSide = k := by
  split <;> assumption
theorem regRead_offMotor (s : State) (a : Nat) : (regRead s a).st.motorSide = s.motorSide := by
  unfold regRead
  extract_lets i k
  have hk : k.2.2.motorSide = s.motorSide := keepRead_offMotor ..
  clear_value k
  generalize regRow a = o
  repeat refine offMotor_iteRd (by first | exact offMotor_iteRd rfl rfl | rfl) ?_
  cases o with
  | none => rfl
  | some r =>
    repeat refine offMotor_iteRd (by first | exact hk | rfl) ?_
    rfl
theorem portRead_offMotor (s : State) (p a : Nat) : (portRead s p a).st.motorSide = s.motorSide := by
  unfold portRead
  repeat' first | with_reducible rfl | with_reducible refine offMotor_iteRd ?_ ?_ | (with_reducible refine (regRead_offMotor ..).trans ?_) | (with_reducible refine (withCmd_offMotor ..).trans ?_) | extract_lets | split | dsimp only
theorem readRun_offMotor (f : State → Nat → Rd) (h : ∀ t a, (f t a).st.motorSide = t.motorSide) (s : State) (l : List Nat) : (readRun f s l).1.motorSide = s.motorSide := by
  induction l generalizing s with
  | nil => rfl
  | cons a l ih => exact (ih _).trans (h s a)
theorem holdoffEnd_offMotor (s : State) (e : Nat) : (holdoffEnd s e).motorSide = s.motorSide := by
  unfold holdoffEnd
  with_reducible repeat' first | rfl | refine offMotor_ite ?_ ?_ | refine (State.at_offMotor ..).trans ?_ | refine (holdEnd_offMotor ..).trans ?_ | refine (irqUpdate_offMotor ..).trans ?_ | extract_lets | split
theorem evtStatWrite_offMotor (s : State) (i : Nat) (w : Word) : (evtStatWrite s i w).st.motorSide = s.motorSide := by
  unfold evtStatWrite
  with_reducible repeat' first | rfl | refine (irqUpdate_offMotor ..).trans ?_ | refine (setReg_offMotor ..).trans ?_
theorem evtTestWrite_offMotor (s : State) (w : Word) : (evtTestWrite s w).st.motorSide = s.motorSide := by
  unfold evtTestWrite
  with_reducible repeat' first | rfl | refine offMotor_iteR ?_ ?_ | refine offMotor_ite ?_ ?_ | refine (State.raiseAll_offMotor ..).trans ?_ | refine (refuse_offMotor ..).trans ?_ | extract_lets
theorem railMeasure_offMotor (s : State) (i mv : Nat) : (railMeasure s i mv).motorSide = s.motorSide := by
  unfold railMeasure
  with_reducible repeat' first | rfl | refine offMotor_ite ?_ ?_ | refine (State.raiseLim_offMotor ..).trans ?_ | refine (withBoot_offMotor ..).trans ?_ | extract_lets
theorem caseMeasure_offMotor (s : State) (c : BitVec 16) : (caseMeasure s c).motorSide = s.motorSide := by
  unfold caseMeasure
  with_reducible repeat' first | rfl | refine offMotor_ite ?_ ?_ | refine (State.raiseLim_offMotor ..).trans ?_ | refine (withBoot_offMotor ..).trans ?_ | refine (withKeep_offMotor ..).trans ?_ | extract_lets
theorem opReadReg_offMotor (r : Request) (s : State) : (opReadReg r s).st.motorSide = s.motorSide := by
  unfold opReadReg
  repeat' first | with_reducible rfl | with_reducible refine offMotor_iteR ?_ ?_ | (with_reducible refine (refuse_offMotor ..).trans ?_) | extract_lets | exact readRun_offMotor _ (fun u a => portRead_offMotor ..) _ _
theorem holdSnap_offMotor (r : Request) (s : State) (addrs : List Nat) : (holdSnap r s addrs).motorSide = s.motorSide := by
  unfold holdSnap
  with_reducible repeat' first | rfl | refine (portHeld_offMotor ..).trans ?_ | refine (withCmd_offMotor ..).trans ?_ | extract_lets
theorem opReadSnapshot_offMotor (r : Request) (s : State) : (opReadSnapshot r s).st.motorSide = s.motorSide := by
  unfold opReadSnapshot
  with_reducible repeat' first | rfl | refine offMotor_iteR ?_ ?_ | refine offMotor_ite ?_ ?_ | refine (refuse_offMotor ..).trans ?_
theorem setBankImage_offMotor (s : State) (b : Nat) (img : List Word) : (setBankImage s b img).motorSide = s.motorSide := by
  unfold setBankImage
  with_reducible repeat' first | rfl | refine offMotor_ite ?_ ?_ | refine (withNvm_offMotor ..).trans ?_ | extract_lets
theorem applyBegin_offMotor (s : State) : (applyBegin s).motorSide = s.motorSide := by
  unfold applyBegin
  with_reducible repeat' first | rfl | refine (State.setFld_offMotor ..).trans ?_ | refine (setReg_offMotor ..).trans ?_
theorem opCfgLoad_offMotor (r : Request) (s : State) : (opCfgLoad r s).st.motorSide = s.motorSide := by
  unfold opCfgLoad
  with_reducible repeat' first | rfl | refine offMotor_iteR ?_ ?_ | refine offMotor_ite ?_ ?_ | refine (State.setFlag_offMotor ..).trans ?_ | refine (applyBegin_offMotor ..).trans ?_ | refine (refuse_offMotor ..).trans ?_ | refine (withBoot_offMotor ..).trans ?_ | refine (withReed_offMotor ..).trans ?_ | extract_lets
theorem capture_offMotor (s : State) : (capture s).motorSide = s.motorSide := by
  unfold capture
  with_reducible repeat' first | rfl | refine offMotor_ite ?_ ?_ | refine offMotor_foldl ?_ ?_ | intro _ _ | refine (setReg_offMotor ..).trans ?_ | extract_lets
theorem opCfgSave_offMotor (r : Request) (s : State) : (opCfgSave r s).st.motorSide = s.motorSide := by
  unfold opCfgSave
  with_reducible repeat' first | rfl | refine offMotor_iteR ?_ ?_ | refine offMotor_ite ?_ ?_ | refine (State.setFlag_offMotor ..).trans ?_ | refine (capture_offMotor ..).trans ?_ | refine (refuse_offMotor ..).trans ?_ | refine (withBoot_offMotor ..).trans ?_ | extract_lets
theorem saveFail_offMotor (s : State) (p b : Nat) : (saveFail s p b).motorSide = s.motorSide := by
  unfold saveFail
  with_reducible repeat' first | rfl | refine offMotor_ite ?_ ?_ | refine (setBankImage_offMotor ..).trans ?_ | refine (withNvm_offMotor ..).trans ?_ | extract_lets
theorem saveGood_offMotor (s : State) (p b : Nat) (img : List Word) : (saveGood s p b img).motorSide = s.motorSide := by
  unfold saveGood
  with_reducible repeat' first | rfl | refine offMotor_ite ?_ ?_ | refine (State.setFlag_offMotor ..).trans ?_ | refine (State.setFld_offMotor ..).trans ?_ | refine (keepBump_offMotor ..).trans ?_ | refine (setBankImage_offMotor ..).trans ?_ | refine (setReg_offMotor ..).trans ?_ | refine (withNvm_offMotor ..).trans ?_ | extract_lets
theorem cfgSaved_offMotor (s : State) (res : Nat) : (cfgSaved s res).motorSide = s.motorSide := by
  unfold cfgSaved
  with_reducible repeat' first | rfl | refine offMotor_ite ?_ ?_ | refine (State.raise_offMotor ..).trans ?_ | refine (State.setFlag_offMotor ..).trans ?_ | refine (saveFail_offMotor ..).trans ?_ | refine (saveGood_offMotor ..).trans ?_ | refine (withBoot_offMotor ..).trans ?_ | extract_lets | split
theorem resetRelease_offMotor (s : State) (straps : BitVec 8) : (resetRelease s straps).motorSide = s.motorSide := by
  unfold resetRelease
  with_reducible repeat' first | rfl | refine offMotor_ite ?_ ?_ | refine offMotor_foldl ?_ ?_ | intro _ _ | refine (State.setFld_offMotor ..).trans ?_ | refine (keepBump_offMotor ..).trans ?_ | refine (setReg_offMotor ..).trans ?_ | refine (withBoot_offMotor ..).trans ?_ | refine (withPhase_offMotor ..).trans ?_ | extract_lets
theorem recoveryEntry_offMotor (s : State) : (recoveryEntry s).motorSide = s.motorSide := by
  unfold recoveryEntry
  with_reducible repeat' first | rfl | refine (State.setFlag_offMotor ..).trans ?_
theorem firmwareLoaded_offMotor (s : State) : (firmwareLoaded s).motorSide = s.motorSide := by
  unfold firmwareLoaded
  with_reducible repeat' first | rfl | refine offMotor_ite ?_ ?_ | refine offMotor_foldl ?_ ?_ | intro _ _ | refine (State.raise_offMotor ..).trans ?_ | refine (State.setFlag_offMotor ..).trans ?_ | refine (State.setFld_offMotor ..).trans ?_ | refine (keepBump_offMotor ..).trans ?_ | refine (keepRead_offMotor ..).trans ?_ | refine (recoveryEntry_offMotor ..).trans ?_ | refine (setReg_offMotor ..).trans ?_ | refine (withBoot_offMotor ..).trans ?_ | refine (withReed_offMotor ..).trans ?_ | extract_lets

end

end Sys2Proof.Machine
end

