-- ==== Sys2Proof/WellFormed.lean ====
section
/-! DEFINITION. The operands a command may have. The types bound most of them; a request is well formed where its words are
those of its opcode with as many parameters as COUNT says (R73, R76), and what arrives from outside has the length its carrier gives it. -/

namespace Sys2Proof

/-- The words of a request of an opcode: COUNT gives its parameters, at most 256 (R73, R76). -/
def Request.wf (opcode : Nat) (r : Request) : Bool :=
  r.h0.toNat / 16777216 == opcode && r.h1.toNat % 65536 == r.params.length && decide (r.params.length ≤ 256)

/-- A command's operands have the form its row gives them. -/
def Instr.wf (i : Instr) : Bool :=
  match i with
  | .resetRelease _ => true
  | .supplyMonitorReset _ => true
  | .commandReady _ => true
  | .wake _ _ _ => true
  | .sourceMissingEdge _ => true
  | .sourceFrequencyFail _ => true
  | .sourceQualified _ => true
  | .pllLock _ => true
  | .pllLockLoss _ => true
  | .rcTrimMeasure _ => true
  | .clockRevert _ => true
  | .clkCtrlWrite _ => true
  | .clkSelWrite _ => true
  | .clkRctrimWrite _ => true
  | .clkGateWrite _ => true
  | .paceMeasurement fs => fs.length == 10
  | .envelopeMeasurement _ _ => true
  | .frameBoundary _ => true
  | .senseResultPost _ _ _ => true
  | .windingPass _ => true
  | .chopperPass _ => true
  | .steppingPass _ => true
  | .machinePass _ => true
  | .observerPass _ => true
  | .axisPass _ => true
  | .gearPass _ => true
  | .strokeTick _ => true
  | .filterPass _ => true
  | .probePass _ => true
  | .passCommit _ => true
  | .linkSkipInstant _ => true
  | .passDeadline _ => true
  | .prechargeEnd _ => true
  | .rampEnd _ => true
  | .mtpaRebuild _ => true
  | .hostSpiCmdFrame _ _ tailBits => decide (tailBits < 32)
  | .hostSpiFetchFrame _ _ _ => true
  | .hostSpiStatusFrame _ => true
  | .udpCommandDatagram _ _ _ _ => true
  | .swardCommandFrame _ _ => true
  | .canCommandFrame _ _ _ => true
  | .deferredReplySend _ => true
  | .nop r => r.wf 0x01
  | .identify r => r.wf 0x02
  | .readReg r => r.wf 0x03
  | .writeReg r => r.wf 0x04
  | .modifyReg r => r.wf 0x05
  | .readSnapshot r => r.wf 0x06
  | .ctxCreate r => r.wf 0x10
  | .ctxDelete r => r.wf 0x11
  | .ctxBind r => r.wf 0x12
  | .ctxParam r => r.wf 0x13
  | .admitRq r => r.wf 0x14
  | .groupState r => r.wf 0x20
  | .windingEnable r => r.wf 0x21
  | .windingDisable r => r.wf 0x22
  | .identRun r => r.wf 0x23
  | .identDone _ _ _ => true
  | .move r => r.wf 0x30
  | .moveNext r => r.wf 0x31
  | .jog r => r.wf 0x32
  | .halt r => r.wf 0x33
  | .quickStop r => r.wf 0x34
  | .resume r => r.wf 0x35
  | .setLimits r => r.wf 0x36
  | .home r => r.wf 0x37
  | .setPosition r => r.wf 0x38
  | .abortMove r => r.wf 0x39
  | .homeTimeout _ => true
  | .gearEngage r => r.wf 0x40
  | .gearDisengage r => r.wf 0x41
  | .gearRatio r => r.wf 0x42
  | .camLoadBegin r => r.wf 0x43
  | .camLoadData r => r.wf 0x43
  | .camLoadEnd r => r.wf 0x43
  | .strokeStart r => r.wf 0x48
  | .strokeFeed r => r.wf 0x49
  | .strokeHold r => r.wf 0x4A
  | .strokeFlush r => r.wf 0x4B
  | .inkArm r => r.wf 0x50
  | .inkForce r => r.wf 0x51
  | .inkStop r => r.wf 0x52
  | .inkRead r => r.wf 0x53
  | .inkReadDone _ _ _ => true
  | .inkAutoExpiry _ => true
  | .inkRecordComplete _ => true
  | .timeSet r => r.wf 0x60
  | .timeAdjustOffset r => r.wf 0x61
  | .timeAdjustRate r => r.wf 0x61
  | .pulseProgram r => r.wf 0x62
  | .pulseEdgeFix _ _ => true
  | .fioSet r => r.wf 0x70
  | .fioConfig r => r.wf 0x71
  | .keepWrite r => r.wf 0x80
  | .keepWordRegWrite _ _ => true
  | .keepWritePersist _ _ => true
  | .cfgSave r => r.wf 0x81
  | .cfgSaved _ => true
  | .cfgLoad r => r.wf 0x82
  | .fwStageBegin r => r.wf 0x83
  | .fwStageData r => r.wf 0x83
  | .fwStageEnd r => r.wf 0x83
  | .fwSwitchSwitch r => r.wf 0x84
  | .fwSwitchConfirm r => r.wf 0x84
  | .fwSwitchRevert r => r.wf 0x84
  | .fwSwitchScribe r => r.wf 0x84
  | .calSwap r => r.wf 0x85
  | .dormant r => r.wf 0xF0
  | .resetBlock r => r.wf 0xF1
  | .safeParamStage r => r.wf 0x90
  | .safeParamConfirm r => r.wf 0x91
  | .safeAck r => r.wf 0x92
  | .swardRoute r => r.wf 0xA0
  | .swardJoin r => r.wf 0xA1
  | .swardLeave r => r.wf 0xA2
  | .sheafRole r => r.wf 0xA8
  | .canTx r => r.wf 0xB0
  | .canCancel r => r.wf 0xB1
  | .canScheduleStart r => r.wf 0xB2
  | .canScheduleStop r => r.wf 0xB2
  | .ringPop r => r.wf 0xC0
  | .ringPush r => r.wf 0xC1
  | .ringConfigWrite _ _ _ => true
  | .ringOverflowReport _ => true
  | .pspiTransferStart _ _ => true
  | .pspiTransferDone _ _ => true
  | .spiIrqcfgWrite _ => true
  | .senseMclkWrite _ _ => true
  | .senseCalScan _ => true
  | .senseCalOffset _ => true
  | .senseCalDone _ _ => true
  | .overcurrentTrip _ _ => true
  | .modulatorLost _ _ => true
  | .modulatorRecovered _ => true
  | .nibEdgeCommit _ _ => true
  | .nibGperWrite _ _ => true
  | .nibClearLatches _ => true
  | .nibGadjWrite _ _ => true
  | .faultInputAssert _ _ => true
  | .huskEnableChange _ => true
  | .echoEdge _ _ _ => true
  | .echoWindowEnd _ => true
  | .chopperPeriodStart _ => true
  | .syncInEdge _ => true
  | .encoderEdge _ _ _ _ => true
  | .zEdge _ _ => true
  | .ssiTransfer _ _ _ _ => true
  | .fdbkClr _ => true
  | .fdbkZarm _ => true
  | .latchArm _ => true
  | .latchDisarm _ => true
  | .latchEdge _ _ _ => true
  | .latchTimeCompare _ => true
  | .latchWindowEnd _ => true
  | .latchCaptureComplete _ => true
  | .scribeCycle _ husk => husk.length == 8
  | .scribeXcheckFrame _ => true
  | .huskXcheckFrame _ => true
  | .xcheckTimeout _ => true
  | .stoInputChange _ _ _ => true
  | .stoDiscrepancyExpiry _ => true
  | .slsLevelEffective _ => true
  | .contactorWindowExpiry _ _ => true
  | .contactorFeedbackChange _ _ _ => true
  | .safeTestPulse _ _ _ _ => true
  | .huskReadbackTimeout _ => true
  | .telegramCopy _ _ _ _ => true
  | .telegramPathLoss _ => true
  | .huskCounterFault _ _ => true
  | .safeStageWrite _ _ => true
  | .fieldInputEdge _ _ _ => true
  | .chatterWindowEnd _ => true
  | .outputOvercurrent _ => true
  | .outputThermal _ => true
  | .bankOvercurrent _ _ => true
  | .vfieldMeasurement _ banks => banks.length == 4
  | .ethFrameReceive _ bytes _ _ => decide (bytes.length ≤ 1518)
  | .ethLinkChange _ _ _ => true
  | .ethMdioAccess _ _ => true
  | .ethMdioDone _ _ => true
  | .ptpOffsetSample _ _ _ _ _ _ => true
  | .ptpSendInterval _ _ _ => true
  | .timeCfgWrite _ => true
  | .canFrameReceive _ _ _ _ _ _ _ _ data _ => decide (data.length ≤ 64)
  | .canTxDone _ _ _ => true
  | .canCtrlWrite _ _ => true
  | .canRecover _ => true
  | .canDominantTimeout _ _ => true
  | .canCycleStart _ _ => true
  | .canReferenceReceive _ _ _ => true
  | .canReferenceTimeout _ => true
  | .canWindowStart _ _ => true
  | .canWindowEnd _ _ => true
  | .canWakeDetect _ _ _ _ _ _ data => decide (data.length ≤ 8)
  | .swardFrameReceive _ _ _ _ => true
  | .swardTransmit _ _ => true
  | .credReceive _ _ _ => true
  | .credSend _ _ => true
  | .helloReceive _ _ _ _ _ _ => true
  | .swardTrainingDone _ => true
  | .leaveReceive _ => true
  | .swardLossOfSignal _ => true
  | .swardSymbolErrorLimit _ _ => true
  | .dreqSend _ _ => true
  | .dreqReceive _ _ _ _ => true
  | .drspReceive _ _ _ _ => true
  | .epochMarkReceive _ _ _ _ => true
  | .swardEpochBoundary _ => true
  | .swardWaitDrop _ => true
  | .e2eRetransmitTimeout _ _ => true
  | .e2eAckSend _ _ => true
  | .streamForget _ _ _ => true
  | .eventFrameReceive _ _ => true
  | .swardNodeWrite _ => true
  | .swardResWrite _ _ _ => true
  | .swardHrxtailWrite _ => true
  | .sheafBeaconReceive _ _ _ _ _ => true
  | .sheafStatusReceive _ _ _ _ _ => true
  | .sheafDepartureTimeout _ => true
  | .linkDataReceive v _ _ out _ => decide (out.length ≤ 64) && decide (v.toNat ≤ 0x10FF)
  | .mirrorReceive _ _ _ _ _ _ _ => true
  | .takeoverCheck _ => true
  | .holdoffWindowEnd _ => true
  | .evtStatClear _ _ => true
  | .evtTest _ => true
  | .supplyMeasurement mv => mv.length == 5
  | .caseTempMeasurement _ => true
  | .registerWrite _ _ => true
  | .resetAssert _ _ => true
  | .sinc3Output _ _ _ => true
  | .canTxStart _ _ => true
  | .canBusoffRecoveryDone _ => true
  | .canBusError _ _ => true
  | .crystalWaitExpiry => true
  | .firmwareBankLoaded => true
  | .configBlocksApply => true
  | .mapCamRestore => true
  | .muxForcedSwitch => true
  | .delayLineCalibrated => true
  | .delayLineSwap => true
  | .shedLevelRise => true
  | .shedLevelFall => true
  | .loopClrLate => true
  | .loopClrWorst => true
  | .passStart => true
  | .requestDispatch => true
  | .inkInterfaceFailure => true
  | .niblogTokenRefill => true
  | .timeSlewDone => true
  | .keepHourlyCount => true
  | .keepCounterFlush => true
  | .fwStageVerified => true
  | .fwStageTimeout => true
  | .reedResume => true
  | .fwSwitchAbandon => true
  | .trialExpiry => true
  | .moduleResetDelay => true
  | .syncInLoss => true
  | .ss1BackstopExpiry => true
  | .brkTExpiry => true
  | .genSettleExpiry => true
  | .telegramWatchdogExpiry => true
  | .singleChannelTimeout => true
  | .huskSelfTestFailure => true
  | .vhuskPowerUp => true
  | .vhuskLoss => true
  | .logicHeartbeatSend => true
  | .fieldHeartbeatReceive => true
  | .logicHeartbeatReceive => true
  | .fieldLinkTimeout => true
  | .fieldSilenceExpiry => true
  | .ptpHoldoverTimeout => true
  | .timebaseDiscipline => true
  | .timeSnap => true
  | .sheafEpoch => true
  | .sheafBeaconSend => true
  | .eventArbitration => true
  | .reedRestartComplete => true

end Sys2Proof
end

