-- ==== Sys2Proof/Tests/Slice0.lean ====
section
/-! SUPPORT. Tests of the model: ill-formed operands that the checks refuse, worked examples of spec/, and for every statement
with hypotheses inputs that meet them. -/

section

set_option maxRecDepth 8000
set_option Elab.async false

open Sys2Proof Sys2Proof.Machine

/-- A device that serves, with the named fields set. -/
def tF (l : List (RF × Nat)) : State := l.foldl (fun s x => s.setFld x.1 x.2) { phase := .ready, reed := .running }

/-- The same with every source, PLL and clock gate on and the timebase valid. -/
def tA (l : List (RF × Nat)) : State := l.foldl (fun s x => s.setFld x.1 x.2)
  { (((State.reset.setReg R.clkGate 0x01F7FF3F#32).setReg R.clkStat 0#32).setReg R.clkCtrl 0xF#32) with
    phase := .ready, reed := .running, clk := { started := true, everValid := true } }

/-- A request over the host port. -/
def tR (tgt : Nat) (ps : List Word) : Request := { port := 0, h0 := 7#32, h1 := wd (tgt * 65536 + ps.length), params := ps, check := 0#32 }

/-! ### Well-formedness: each check refuses a term -/

/-- Every command that carries a request. -/
def tRequests (r : Request) : List Instr :=
  [.nop r, .identify r, .readReg r, .writeReg r, .modifyReg r, .readSnapshot r, .ctxCreate r, .ctxDelete r, .ctxBind r, .ctxParam r, .admitRq r,
   .groupState r, .windingEnable r, .windingDisable r, .identRun r, .move r, .moveNext r, .jog r, .halt r, .quickStop r, .resume r, .setLimits r,
   .home r, .setPosition r, .abortMove r, .gearEngage r, .gearDisengage r, .gearRatio r, .camLoadBegin r, .camLoadData r, .camLoadEnd r,
   .strokeStart r, .strokeFeed r, .strokeHold r, .strokeFlush r, .inkArm r, .inkForce r, .inkStop r, .inkRead r, .timeSet r, .timeAdjustOffset r,
   .timeAdjustRate r, .pulseProgram r, .fioSet r, .fioConfig r, .keepWrite r, .cfgSave r, .cfgLoad r, .fwStageBegin r, .fwStageData r, .fwStageEnd r,
   .fwSwitchSwitch r, .fwSwitchConfirm r, .fwSwitchRevert r, .fwSwitchScribe r, .calSwap r, .dormant r, .resetBlock r, .safeParamStage r,
   .safeParamConfirm r, .safeAck r, .swardRoute r, .swardJoin r, .swardLeave r, .sheafRole r, .canTx r, .canCancel r, .canScheduleStart r,
   .canScheduleStop r, .ringPop r, .ringPush r]

/-- Opcode 0x7F is no request's (R76). -/
theorem test_wf_opcode : (tRequests { port := 0, h0 := 0x7F000000#32, h1 := 0#32, params := [], check := 0#32 }).all (fun i => !i.wf) = true := by decide

/-- COUNT must be the number of parameters (R73), and a request has at most 256. -/
theorem test_wf_count : Instr.wf (.nop { port := 0, h0 := 0x01000000#32, h1 := 1#32, params := [], check := 0#32 }) = false := by decide
theorem test_wf_length : Instr.wf (.nop { port := 0, h0 := 0x01000000#32, h1 := 257#32, params := List.replicate 257 0#32, check := 0#32 }) = false := by decide +kernel
theorem test_wf_request : Instr.wf (.nop { port := 0, h0 := 0x01000000#32, h1 := 1#32, params := [5#32], check := 0#32 }) = true := by decide

/-- The lengths what arrives from outside may have. -/
theorem test_wf_tail : Instr.wf (.hostSpiCmdFrame 0#32 [] 32) = false := by decide
theorem test_wf_cycle : Instr.wf (.scribeCycle 0 []) = false := by decide
theorem test_wf_pace : Instr.wf (.paceMeasurement []) = false := by decide
theorem test_wf_banks : Instr.wf (.vfieldMeasurement 0 []) = false := by decide
theorem test_wf_frame : Instr.wf (.ethFrameReceive 0 (List.replicate 1519 0#8) true 0) = false := by decide +kernel
theorem test_wf_can : Instr.wf (.canFrameReceive 0 true true true true true 0 0 (List.replicate 65 0#8) 0) = false := by decide
theorem test_wf_wake : Instr.wf (.canWakeDetect 0 true 0 true 0 0 (List.replicate 9 0#8)) = false := by decide
theorem test_wf_link_words : Instr.wf (.linkDataReceive 0x100 0 0#32 (List.replicate 65 0#32) 0) = false := by decide
theorem test_wf_link_value : Instr.wf (.linkDataReceive 0x1100 0 0#32 [] 0) = false := by decide
theorem test_wf_rails : Instr.wf (.supplyMeasurement []) = false := by decide

/-! ### Worked examples and values of spec/ -/

/-- The state after a command that completes. -/
def tAfter (o : Host.Outcome State Fault Refusal) : State := match o with | .next t => t | _ => State.reset

/-- 15_ethernet_time.md, the Sync correction: the mean path delay is 4,100 ns and o is +250 ns. -/
theorem test_ptp_example :
    let n (x : Int) : Int := (1000000000000 + x) * 65536
    let d : PtpDelay := { t1 := n 0, t2 := n 4350, t3 := n 600000, t4 := n 603850 }
    ptpDelay d = 4100 * 65536 ∧ ptpOffset { t1 := n 0, t2 := n 4350 } d = 250 * 65536 := by decide

/-- R75: the check value of the packet CRC. -/
theorem test_crc_check_value : crc32cBytes [0x31#8, 0x32#8, 0x33#8, 0x34#8, 0x35#8, 0x36#8, 0x37#8, 0x38#8, 0x39#8] = 0xE3069283#32 := by decide +kernel

/-- R101 and the ring register map: the reset values it names. -/
theorem test_ring_reset : State.reset.reg (R.ringLoc 8) = 0x00200100#32 ∧ State.reset.reg (R.ringLoc 40) = 0x00800900#32 := by decide

/-- 04_command_interface.md, the example of a read of device time: the request's five words enter ring 0 while HRDY is shown ... -/
theorem test_time_read_frame :
    let t := tAfter (exec (.hostSpiCmdFrame 0x10000005#32 [0x03000A51#32, 2#32, 0x00010020#32, 2#32, 0#32] 0) (tF [(R.spiHstat_HRDY, 1)]))
    ringEnts t 0 = [{ words := 5 }] ∧ t.cmd.miso.head? = some 0x80000000#32 := by decide

/-- ... and the reply carries its four words before the CRC. -/
theorem test_time_read_reply :
    let t := tAfter (exec (.readReg { port := 0, h0 := 0x03000A51#32, h1 := 2#32, params := [0x00010020#32, 2#32], check := 0#32 }) ((tF []).withDt 0x000001624A1C07E0#64))
    (ringTailWords t 8).take 4 = [0x03000A51#32, 2#32, 0x4A1C07E0#32, 0x00000162#32] := by decide +kernel

/-- 02_selftimed_core.md, the example of the admission: the average limit of 2,600 ps, in 0.01 quill-ops per µs. -/
theorem test_admission_limit : centi (admLimit 2600) = 246153 := by decide +kernel

/-- 15_ethernet_time.md, the example of a Sync correction: the next one-second pulse rises 2,000,022,087 edge ticks after the update. -/
theorem test_pulse_edge :
    dtOf (((tF []).setReg R.timeRate (BitVec.ofInt 32 (-3072819))).withNet { stB := 1000875000120 * 65536 }) (1001000000000 * 65536) = 2000022087 := by decide +kernel

/-- 09_feedback_latching.md, the example of marking a wheel turn: the latch instant is 498,240 ticks. -/
theorem test_latch_instant :
    let s := tF [(R.latchCfg_EN 0, 1), (R.latchCfg_SRCK 0, 1), (R.latchCfg_FILT 0, 2), (R.latchCfg_MODE 0, 1), (R.latchCfg_EDGE 0, 1), (R.latchCfg_NPOS 0, 1),
      (R.latchDly_LDLY 0, 1600), (R.latchStat_ARMED 0, 1)]
    ((tAfter (exec (.latchEdge 0 true ⟨500000, 2⟩) s)).lu 0).waits = [498240] := by decide +kernel

/-- 18_events.md, the example of a desaturation trip: the records of the first two nibs in ring 16. -/
theorem test_event_records :
    let s := ((tF [(R.clkStat_TB_VALID, 1)]).withDt 0x000001624A1C2B40#64).withEvt { occ := [{ ev := 32, inst := 1, detail := 1#32 }, { ev := 32, inst := 0, detail := 1#32 }] }
    ringCopyOut (tAfter (exec .eventArbitration s)) 16 0 8 =
      [0x4A1C2B40#32, 0x00000162#32, 1#32, 0x20000000#32, 0x4A1C2B40#32, 0x00010162#32, 1#32, 0x20000000#32] := by decide +kernel

/-- R33: the floor of the default envelope. -/
theorem test_pace_floor : paceFloor 600 150 = 2600 := by decide

/-- Commands run first in, first out. -/
theorem test_queue_order :
    (tAfter (step (State.reset.withPending [.evtStatClear 0 0#32, .timeSnap]))).pending = [.timeSnap] := by decide

/-! ### Inputs that meet the hypotheses of the statements -/

/-- A snapshot whose words are read. -/
def tSnap : Snap := { req := tR 0 [], grp := 0, addrs := [], since := 5, got := some (0, 5, [1#32]) }

/-- A device that serves, with a shadow header of kind 1, scale 1 and both ranges from 0 to 1 in map 63. -/
def tMap : State := [1#32, 0x3F800000#32, 0#32, 0x3F800000#32, 0#32, 0x3F800000#32].zipIdx.foldl (fun s x => setMapW s 63 (mShHdr + x.2) x.1) (tF [])

/-- A device that serves, with axis 0 in slot 255 in a state of R257 and its limits at 1. -/
def tX (st : Nat) : State :=
  [3, 4, 5, 6, 7].foldl (fun s i => s.setCw 255 i 0x3F800000#32) ((tF [(R.motionAxinfo_STATE 0, st)]).setCtx 255
    { kind := 8, bind := [0#32, 0x80000000#32, 0#32, 0xFFFFFF#32], st := .axis { st := st } })

/-- A gear in slot 9 that drives axis 0 by the commanded position of the axis in slot 8. -/
def tGear : State := (((tX 1).setCtx 255 { (tX 1).ctx 255 with bind := [0#32, 9#32, 0#32, 0xFFFFFF#32] }).setCtx 9 { kind := 9, num := 63, bind := [8#32, 0xFFFF#32, 0xFF#32] }).setCtx 8
  { kind := 7, num := 5, out := [0#32, 0#32, 0#32, 0#32, 0#32, 0#32, 0#32, 0#32, 0#32, 0#32, 1#32] }

/-- A stroke group in slot 9 with axis 0 as its member. -/
def tStroke : State := (((tX 1).setCtx 255 { (tX 1).ctx 255 with bind := [0#32, 9#32, 0#32, 0xFFFFFF#32] }).setCtx 9 { kind := 11, num := 15, bind := [0xFFFF00FF#32, 0xFFFFFFFF#32, 0xFFFFFFFF#32, 0xFFFFFFFF#32, 1#32] })

/-- A parameter set with the named words, the others 0. -/
def tSet (l : List (Nat × Word)) : List Word := (List.range 136).map (fun w => (l.find? (fun e => e.1 == w)).elim 0#32 (·.2))

/-- A cross-check frame of Husk in state 1 with GEN_A. -/
def tFrame : List Word :=
  let l : List Word := [0#32, 0x01000000#32, 0#32, 0#32, 0#32, 0#32, 0#32]
  l ++ [crc32c l]

/-- A cross-check frame of Scribe that decides on STO. -/
def tStop : List Word :=
  let l : List Word := [0#32, 0x08000000#32, 0#32, 0#32, 0#32, 0#32, 0#32]
  l ++ [crc32c l]

/-- A copy of a telegram with identity 1 and a COUNT. -/
def tCopyN (n : Nat) : List Byte :=
  let l : List Word := [0x00010101#32, wd n, 1#32, 0#32, 0#32, 0#32, 0xFFFFFFFE#32]
  wordBytes (l ++ [crc32c l])

/-- A copy with COUNT 1. -/
def tCopy : List Byte := tCopyN 1

/-- A device that serves, with a parameter set in its staging words that is within all ranges. -/
def tStage : State := [(0, 0x00010088#32), (1, 1#32), (2, 0x02010001#32), (3, 100#32), (4, 0x00010102#32), (6, 0x00010001#32)].foldl
  (fun s x => s.setReg (R.safeStage x.1) x.2) (tF [])

/-- A device that serves, with Ethernet port 1 on. -/
def tEth : State := tA [(R.clkStat_EPLL_LOCK, 1), (R.ethCfg_EN 1, 1)]

/-- A frame to the broadcast address, of type 0x08 with a second byte. -/
def tArp (b : Byte) : List Byte := List.replicate 6 0xFF#8 ++ List.replicate 6 0#8 ++ [8#8, b] ++ List.replicate 28 0#8

/-- A frame to the PTP address. -/
def tPtp : List Byte := [0x01#8, 0x1B#8, 0x19#8, 0#8, 0#8, 0#8] ++ List.replicate 6 0#8 ++ [0x88#8, 0xF7#8] ++ List.replicate 44 0#8

/-- Inputs that meet the hypotheses of `Obligations.HostPort_Frames`, clause by clause. -/
theorem witness_HostPort_Frames :
  (∃ (s : State) (hdr : Word) (body : List Word) (tailBits : Nat), hostPortUp s = true ∧ bitsOf hdr 28 4 = 1 ∧ tailBits % 32 = 0 ∧ 2 ≤ bitsOf hdr 0 16 ∧ bitsOf hdr 0 16 ≤ body.length ∧ bitsOf hdr 0 16 ≤ ringFree s 0) ∧
  (∃ (s : State) (hdr : Word), hostPortUp s = true ∧ bitsOf hdr 28 4 = 3) ∧
  (∃ (s : State) (hdr : Word), hostPortUp s = true ∧ bitsOf hdr 28 4 = 2 ∧ bitsOf hdr 0 16 ≠ 0) :=
  ⟨⟨tF [], 0x10000003#32, [1#32, 2#32, 3#32], 0, by decide⟩,
   ⟨tF [], 0x30000000#32, by decide⟩,
   ⟨ringStore (tF []) 8 [1#32, 2#32, 3#32] { words := 3 }, 0x20000003#32, by decide⟩⟩

/-- Inputs that meet the hypotheses of `Obligations.Carriers_Deliver`, clause by clause. -/
theorem witness_Carriers_Deliver :
  (∃ (s : State) (mac : Fin 2) (bytes : List Byte), s.phase = .ready ∧ ethUp s mac.val = true ∧ 8 ≤ bytes.length ∧ (bytesWords bytes).length ≤ ringFree s (1 + mac.val)) ∧
  (∃ (s : State) (bytes : List Byte), s.phase = .ready ∧ swHears s = true ∧ 8 ≤ bytes.length ∧ (bytesWords bytes).length ≤ ringFree s 3) ∧
  (∃ (s : State) (c : Fin 4) (bytes : List Byte), s.phase = .ready ∧ 8 ≤ (canRequestBytes bytes).length ∧ (bytesWords (canRequestBytes bytes)).length ≤ ringFree s (4 + c.val)) :=
  ⟨⟨tA [(R.clkStat_EPLL_LOCK, 1), (R.ethCfg_EN 1, 1)], 1, List.replicate 12 0#8, by decide⟩,
   ⟨tA [(R.clkStat_SPLL_LOCK, 1), (R.swardPstat_STATE 3, 2)], List.replicate 12 0#8, by decide⟩,
   ⟨tF [], 3, List.replicate 12 0#8, by decide⟩⟩

/-- Inputs that meet the hypotheses of `Obligations.Dispatch_Hands_Over`, clause by clause. -/
theorem witness_Dispatch_Hands_Over :
  (∃ (s : State) (p : Fin 8) (e : Ent) (es : List Ent) (r : Request), serving s = true ∧ nextRing s = some p ∧ (s.phase = .ready ∨ p.val = 0) ∧ ringEnts s p.val = e :: es ∧ r = requestOf p e.origin (ringTailWords s p.val) ∧ 3 ≤ (ringTailWords s p.val).length ∧ crc32c (ringTailWords s p.val).dropLast = r.check ∧ ((∀ d ∈ (s.port p.val).done, ¬ (d.seq = r.seq ∧ d.check = r.check))) ∧ opcodeKnown r.opcode = true ∧ packetForm r (ringTailWords s p.val).length e.extra = true) ∧
  (∃ (s : State) (p : Fin 8) (d : Deferred), (s.port p.val).out = [] ∧ s.cmd.deferred.find? (fun x => x.req.port.val == p.val && deferredReady x) = some d ∧ d.final = none ∧ d.as_ = none ∧ d.mixed = false) ∧
  (∃ (s : State) (p : Fin 8) (x : Snap) (st : Nat) (stamp : Nat) (ws : List Word), (s.port p.val).out = [] ∧ s.cmd.deferred.find? (fun x => x.req.port.val == p.val && deferredReady x) = none ∧ s.cmd.snaps.find? (fun x => x.req.port.val == p.val && snapReady s x) = some x ∧ x.got = some (st, stamp, ws)) :=
  ⟨⟨ringStore (tF []) 7 [0x01000007#32, 0#32, crc32c [0x01000007#32, 0#32]] { words := 3, origin := .can }, 7, { words := 3, origin := .can }, [], _, by decide, by decide, by decide, by decide, rfl, by decide⟩,
   ⟨(tF []).withCmd { (tF []).cmd with deferred := [{ req := tR 0 [], data := [], stamp := 5, waits := [], mixed := false, ticket := 1 }] }, 0, { req := tR 0 [], data := [], stamp := 5, waits := [], mixed := false, ticket := 1 }, by decide⟩,
   ⟨(tF []).withCmd { (tF []).cmd with snaps := [tSnap] }, 0, tSnap, 0, 5, [1#32], by decide⟩⟩

/-- Inputs that meet the hypotheses of `Obligations.Nop_Identify_Answer`. -/
theorem witness_Nop_Identify_Answer :
  ∃ (s : State) (r : Request), s.served ∧ r.target = 0 ∧ r.params = [] :=
  ⟨tF [], tR 0 [], by decide⟩

/-- Inputs that meet the hypotheses of `Obligations.Ring_Pop_Push`, clause by clause. -/
theorem witness_Ring_Pop_Push :
  (∃ (s : State) (r : Request) (w : Word), s.served ∧ r.params = [w] ∧ r.target ≤ 63 ∧ bitsOf w 16 16 = 0 ∧ 1 ≤ bitsOf w 0 16 ∧ bitsOf w 0 16 ≤ 256 ∧ popAllowed r.target = true ∧ s.flag (R.ringCtrl_EN r.target) = true ∧ ringEnts s r.target = []) ∧
  (∃ (s : State) (r : Request) (w : Word) (e : Ent) (es : List Ent), s.served ∧ r.params = [w] ∧ r.target ≤ 63 ∧ bitsOf w 16 16 = 0 ∧ 1 ≤ bitsOf w 0 16 ∧ bitsOf w 0 16 ≤ 256 ∧ popAllowed r.target = true ∧ s.flag (R.ringCtrl_EN r.target) = true ∧ ringEnts s r.target = e :: es ∧ e.words ≤ bitsOf w 0 16) ∧
  (∃ (s : State) (r : Request) (es : List (List Word)), s.served ∧ r.params ≠ [] ∧ r.target ≤ 63 ∧ splitEntries (s.fld (R.ringCtrl_ESIZE r.target)) r.params = some es ∧ pushAllowed r.target = true ∧ s.flag (R.ringCtrl_EN r.target) = true ∧ r.params.length ≤ ringFree s r.target) :=
  ⟨⟨tF [], tR 16 [256#32], 256#32, by decide⟩,
   ⟨ringStore (tF []) 16 [1#32, 2#32, 3#32, 4#32, 5#32, 6#32, 7#32, 8#32] { words := 8 }, tR 16 [256#32], 256#32, { words := 8 }, [], by decide⟩,
   ⟨tF [(R.ringCtrl_EN 20, 1), (R.ringCtrl_ESIZE 20, 1), (R.ringLoc_SIZE 20, 1)], tR 20 [5#32, 6#32], [[5#32], [6#32]], by decide⟩⟩

/-- Inputs that meet the hypotheses of `Obligations.Ring_And_Spi_Registers`, clause by clause. -/
theorem witness_Ring_And_Spi_Registers :
  (∃ (s : State) (n : Fin 64), bitOf (s.reg (R.ringCtrl n.val)) 31 = false ∧ bitsOf (s.reg (R.ringCtrl n.val)) 16 8 = (ringReset n.val).2.2.1) ∧
  (∃ (s : State) (n : Fin 64) (w : Word), bitOf w 31 = bitOf (s.reg (R.ringCtrl n.val)) 31 ∧ bitsOf w 16 8 = (ringReset n.val).2.2.1) ∧
  (∃ (s : State) (n : Fin 64) (w : Word), bitOf (s.reg (R.ringCtrl n.val)) 31 = false ∧ bitOf w 31 = true ∧ bitsOf w 16 8 = (ringReset n.val).2.2.1 ∧ ((∀ k, k < 64 → k ≠ n.val → s.flag (R.ringCtrl_EN k) = true → overlap (ringBase s n.val) (ringSize s n.val) (ringBase s k) (ringSize s k) = false)) ∧ ringBase s n.val + ringSize s n.val ≤ 65536 ∧ (if (ringReset n.val).2.2.1 = 0 then 272 else (ringReset n.val).2.2.1) ≤ ringSize s n.val) ∧
  (∃ (s : State) (n : Fin 64) (w : Word), bitOf (s.reg (R.ringCtrl n.val)) 31 = true ∧ bitOf w 31 = false ∧ bitsOf w 16 8 = (ringReset n.val).2.2.1) ∧
  (∃ (s : State) (n : Fin 64), tblGet s.cmd.lost253 n.val 0 ≠ 0 ∧ rateLast s 253 n.val = none) ∧
  (∃ (s : State) (n : Fin 64) (t0 : _), tblGet s.cmd.lost253 n.val 0 ≠ 0 ∧ rateLast s 253 n.val = some t0 ∧ rateOpen (s.at (t0 + tk (10 * msTicks))) 253 n.val (10 * msTicks) = true) ∧
  (∃ (s : State) (n : Fin 2) (w : Word), pspiClocked s n.val = true ∧ 0 < bitsOf w 0 5 ∧ bitsOf w 0 5 ≤ 16 ∧ s.flag (R.spiPxfer_BUSY n.val) = false) ∧
  (∃ (s : State) (n : Fin 2), s.flag (R.spiPxfer_BUSY n.val) = true ∧ s.fld (R.spiPxfer_COUNT n.val) ≤ 16) :=
  ⟨⟨tF [(R.ringCtrl_EN 63, 0)], 63, by decide⟩,
   ⟨tF [], 16, 0x80041234#32, by decide⟩,
   ⟨tF [(R.ringCtrl_EN 63, 0)], 63, 0x80140000#32, by decide⟩,
   ⟨ringStore (tF []) 16 [1#32, 2#32, 3#32, 4#32] { words := 4 }, 16, 0x00040000#32, by decide⟩,
   ⟨{ tF [(R.clkStat_TB_VALID, 1)] with cmd := { lost253 := [(16, 3)] } }, 16, by decide⟩,
   ⟨{ tF [(R.clkStat_TB_VALID, 1)] with evt := { rate := [{ ev := 253, inst := 16, at_ := 5 }] }, cmd := { lost253 := [(16, 3)] } }, 16, 5, by decide⟩,
   ⟨tA [(R.clkStat_IPLL_LOCK, 1)], 1, 16#32, by decide⟩,
   ⟨tF [(R.spiPxfer_BUSY 1, 1)], 1, by decide⟩⟩

/-- Inputs that meet the hypotheses of `Obligations.Clock_Sources`, clause by clause. -/
theorem witness_Clock_Sources :
  (∃ (s : State) (src : Fin 3), clkRuns s = true ∧ clkEnabled s src.val = true) ∧
  (∃ (s : State) (src : Fin 3), clkRuns s = true ∧ clkEnabled s src.val = true ∧ clkFreqJudged s src.val = true) ∧
  (∃ (s : State) (u : State) (src : Fin 3) (edge : Bool), clkRuns s = true ∧ clkEnabled s src.val = true ∧ u = clkSetQual (clkSetAlive (clkEdge s ⟨src, edge⟩) src.val true) src.val true ∧ s.clk.started = true ∧ u.flag R.clkStat_NOFALLBACK = false) ∧
  (∃ (s : State) (src : Fin 3), clkRuns s = true ∧ clkEnabled s src.val = true ∧ s.clk.started = false ∧ src.val = 0) ∧
  (∃ (s : State) (u : State) (src : Fin 3) (edge : Bool) (c : _), clkRuns s = true ∧ clkEnabled s src.val = true ∧ u = clkSetQual (clkSetAlive (clkEdge s ⟨src, edge⟩) src.val true) src.val true ∧ s.clk.started = true ∧ u.flag R.clkStat_NOFALLBACK = true ∧ clkCand (u.setFlag R.clkStat_NOFALLBACK false) none = some c) ∧
  (∃ (s : State), clkRuns s = true ∧ s.clk.started = false ∧ s.flag R.clkStat_NOFALLBACK = false) ∧
  (∃ (s : State) (a : Nat) (b : Nat), s.clk.switching = some (a, b)) ∧
  (∃ (s : State) (src : Fin 3), clkRuns s = true ∧ s.flag R.clkCtrl_REVERT = true ∧ s.clk.started = true ∧ s.flag R.clkStat_NOFALLBACK = false ∧ clkEnabled s src.val = true ∧ clkQual s src.val = true ∧ src.val < clkActive s) :=
  ⟨⟨tA [], 2, by decide⟩,
   ⟨tA [(R.clkStat_QUAL_RC, 1), (R.clkStat_QUAL_XTAL, 1)], 2, by decide⟩,
   ⟨tA [], _, 0, true, by decide, by decide, rfl, by decide⟩,
   ⟨(tA []).withClk {}, 0, by decide⟩,
   ⟨tA [(R.clkStat_NOFALLBACK, 1)], _, 1, false, 1, by decide, by decide, rfl, by decide⟩,
   ⟨tF [], by decide⟩,
   ⟨(tF []).withClk { switching := some (0, 1) }, 0, 1, by decide⟩,
   ⟨tA [(R.clkCtrl_REVERT, 1), (R.clkStat_ACTIVE, 2), (R.clkStat_QUAL_REF, 1)], 1, by decide⟩⟩

/-- Inputs that meet the hypotheses of `Obligations.Plls_And_Trim`, clause by clause. -/
theorem witness_Plls_And_Trim :
  (∃ (s : State) (pll : Fin 4), s.clk.started = true ∧ s.flag R.clkStat_NOFALLBACK = false ∧ s.fld ⟨R.clkGate, pllGate pll.val, 1⟩ ≠ 0) ∧
  (∃ (pll : Fin 4), pll.val ≠ 0) ∧
  (∃ (s : State), s.flag R.clkStat_TPLL_LOCK = true) ∧
  (∃ (s : State), s.flag R.clkStat_DL_CAL = true) ∧
  (∃ (s : State), clkRuns s = true ∧ trimRef s = true) :=
  ⟨⟨tA [], 3, by decide⟩,
   ⟨3, by decide⟩,
   ⟨tF [(R.clkStat_TPLL_LOCK, 1)], by decide⟩,
   ⟨tF [(R.clkStat_DL_CAL, 1)], by decide⟩,
   ⟨tA [(R.clkStat_QUAL_REF, 1), (R.clkRctrim_REF, 1)], by decide⟩⟩

/-- Inputs that meet the hypotheses of `Obligations.Clock_Registers`, clause by clause. -/
theorem witness_Clock_Registers :
  (∃ (s : State) (w : Word), w &&& 7#32 ≠ 0#32 ∧ ((bitOf (s.reg R.clkCtrl) (clkActive s) = true → bitOf (w &&& 0xF#32) (clkActive s) = true))) ∧
  (∃ (s : State) (w : Word), bitsOf w 0 2 ≠ 3 ∧ clkEnabled s (bitsOf w 0 2) = true ∧ clkQual s (bitsOf w 0 2) = true) ∧
  (∃ (w : Word), bitsOf w 30 2 = 3) ∧
  (∃ (s : State) (w : Word), bitsOf w 30 2 ≠ 3 ∧ bitsOf w 0 14 = s.fld R.clkRctrim_TRIM) ∧
  (∃ (s : State) (w : Word) (new : Word), new = (w &&& 0x01F7FF3E#32) ||| 1#32 ∧ ((∀ b, b < 25 → bitOf new b = true → ∀ p ∈ gateParent b, bitOf new p = true)) ∧ ((∀ b, b < 25 → bitOf (s.reg R.clkGate) b = true → bitOf new b = false → gateInUse s b = false))) :=
  ⟨⟨tF [], 7#32, by decide⟩,
   ⟨tA [(R.clkStat_QUAL_RC, 1)], 2#32, by decide⟩,
   ⟨0xC0000001#32, by decide⟩,
   ⟨tF [(R.clkRctrim_TRIM, 1)], 1#32, by decide⟩,
   ⟨(tF []).setReg R.clkGate 1#32, 0x00010100#32, _, rfl, by decide⟩⟩

/-- Inputs that meet the hypotheses of `Obligations.Resets_And_Start_Up`, clause by clause. -/
theorem witness_Resets_And_Start_Up :
  (∃ (s : State), s.phase = .reset ∧ s.keep.busy = [] ∧ s.keep.wait = []) ∧
  (∃ (s : State), s.boot.resetDue = true) ∧
  (∃ (s : State), s.phase = .ready ∧ s.reed = .held) ∧
  (∃ (s : State), s.phase = .starting ∧ s.boot.step = 1 ∧ s.flag R.sysStrap_RECOV = true) ∧
  (∃ (s : State), s.phase = .starting ∧ s.boot.step = 1 ∧ s.flag R.sysStrap_RECOV = false ∧ s.keep.bad.find? (fun e => e.1 == 960) = none) ∧
  (∃ (s : State), s.phase = .starting ∧ s.boot.step = 4) :=
  ⟨⟨State.reset, by decide⟩,
   ⟨(tF []).withBoot { resetDue := true }, by decide⟩,
   ⟨(tF []).withReed .held, by decide⟩,
   ⟨((tF [(R.sysStrap_RECOV, 1)]).withPhase .starting).withBoot { step := 1 }, by decide⟩,
   ⟨((tF []).withPhase .starting).withBoot { step := 1 }, by decide⟩,
   ⟨((tF []).withPhase .starting).withBoot { step := 4 }, by decide⟩⟩

/-- Inputs that meet the hypotheses of `Obligations.Block_Reset_And_Dormant`, clause by clause. -/
theorem witness_Block_Reset_And_Dormant :
  (∃ (s : State) (r : Request), s.served ∧ r.params.length ≤ 1 ∧ 0 < r.target ∧ r.target ≤ 14) ∧
  (∃ (s : State) (r : Request), s.served ∧ r.params.length ≤ 1 ∧ r.target = 0 ∧ r.params = [0x7224#32] ∧ ((∀ g, g < 8 → grpState s g = 0))) ∧
  (∃ (s : State) (r : Request), s.served ∧ r.target = 0 ∧ r.params = [] ∧ dormantBad s = false) ∧
  (∃ (s : State) (src : Fin 3), s.phase = .dormant ∧ src.val < 2) ∧
  (∃ (s : State) (inst : Fin 32) (rising : Bool), s.phase = .dormant ∧ (s.fld (R.fieldCfg_WAKE inst.val)).testBit (if rising then 0 else 1) = true) ∧
  (∃ (s : State) (n : Fin 4) (sel : Bool) (dom : BitVec 16) (ide : Bool) (id : BitVec 29) (dlc : Fin 16) (data : List Byte), canWakes s n.val sel dom.toNat ide id.toNat dlc.val data = true ∧ s.phase = .dormant) ∧
  (∃ (s : State) (n : Fin 4) (sel : Bool) (dom : BitVec 16) (ide : Bool) (id : BitVec 29) (dlc : Fin 16) (data : List Byte), canWakes s n.val sel dom.toNat ide id.toNat dlc.val data = true ∧ s.phase ≠ .dormant) :=
  ⟨⟨tF [], tR 14 [], by decide⟩,
   ⟨tF [], tR 0 [0x7224#32], by decide⟩,
   ⟨tF [], tR 0 [], by decide⟩,
   ⟨(tF []).withPhase .dormant, 1, by decide⟩,
   ⟨(tF [(R.fieldCfg_WAKE 31, 1)]).withPhase .dormant, 31, true, by decide⟩,
   ⟨(tF [(R.canWake_WMODE 3, 2)]).withPhase .dormant, 3, true, 0, false, 5, 8, [], by decide⟩,
   ⟨tF [(R.canWake_WMODE 3, 1)], 3, false, 65535, false, 5, 8, [], by decide⟩⟩

/-- Inputs that meet the hypotheses of `Obligations.Configuration_Work`, clause by clause. -/
theorem witness_Configuration_Work :
  (∃ (s : State) (r : Request) (m : Word) (src : Word), s.served ∧ r.target = 0 ∧ r.params = [m, src] ∧ bitsOf m 16 16 = 0 ∧ src.toNat ≤ 2 ∧ bitOf m 15 = false ∧ ((∀ g, g < 8 → grpState s g = 0))) ∧
  (∃ (s : State) (mask : Nat) (src : Nat) (x : State × List Nat), s.boot.load = some (mask, src) ∧ x = blocksApply (match src with | 0 => bankImage s (s.fld R.cfgStat_BANK) | 1 => bankImage s (1 - s.fld R.cfgStat_BANK) | _ => stagedImage s) s ((List.range 15).filter (mask.testBit ·)) ∧ x.2 = []) ∧
  (∃ (s : State) (mask : Nat) (src : Nat) (x : State × List Nat), s.boot.load = some (mask, src) ∧ x = blocksApply (match src with | 0 => bankImage s (s.fld R.cfgStat_BANK) | 1 => bankImage s (1 - s.fld R.cfgStat_BANK) | _ => stagedImage s) s ((List.range 15).filter (mask.testBit ·)) ∧ x.2 ≠ []) ∧
  (∃ (s : State), s.boot.load = none ∧ s.phase = .starting ∧ s.boot.step = 3) ∧
  (∃ (s : State), s.phase = .starting ∧ s.boot.step = 2) ∧
  (∃ (s : State) (u : State) (r : Request) (p : Word), s.served ∧ r.target = 0 ∧ r.params = [p] ∧ bitsOf p 4 28 = 0 ∧ s.flag R.cfgStat_SAVE_BUSY = false ∧ s.flag R.fwStat_STAGE_BUSY = false ∧ u = (if bitOf p 0 then capture s else s) ∧ ((bitOf p 1 = true → imgOk (stagedImage u) = true))) ∧
  (∃ (s : State) (p : Nat) (b : Nat) (img : List Word), s.boot.save = some (p, b, img)) :=
  ⟨⟨tF [], tR 0 [0x7FFF#32, 2#32], 0x7FFF#32, 2#32, by decide +kernel⟩,
   ⟨(tF []).withBoot { load := some (1, 2) }, 1, 2, _, by decide +kernel, rfl, by decide +kernel⟩,
   ⟨(((tF [(R.clkStat_TB_VALID, 1)]).setCtx 3 { kind := 2, grp := 0, committed := true, live := true }).setGrp 0 { p := 320000, len := 320000, next := some (5, true) }).withBoot { load := some (512, 2) }, 512, 2, _, by decide +kernel, rfl, by decide +kernel⟩,
   ⟨((tF []).withPhase .starting).withBoot { step := 3 }, by decide +kernel⟩,
   ⟨((tF []).withPhase .starting).withBoot { step := 2 }, by decide +kernel⟩,
   ⟨tF [], _, tR 0 [0#32], 0#32, by decide +kernel, by decide +kernel, by decide +kernel, by decide +kernel, by decide +kernel, by decide +kernel, rfl, by decide +kernel⟩,
   ⟨(tF []).withBoot { save := some (2, 1, []) }, 2, 1, [], by decide +kernel⟩⟩

/-- Inputs that meet the hypotheses of `Obligations.Keep_Memory`, clause by clause. -/
theorem witness_Keep_Memory :
  (∃ (s : State) (r : Request) (w : Word), s.served ∧ r.params = [w] ∧ r.target < 960 ∧ keepBusy s r.target = false) ∧
  (∃ (s : State) (n : Fin 1024), n.val < 960 ∧ serving s = true ∧ keepBusy s n.val = false) ∧
  (∃ (s : State) (n : Fin 1024), n.val < 960 ∧ serving s = true ∧ keepBusy s n.val = true) ∧
  (∃ (s : State) (n : Fin 1024) (w : Word), s.keep.busy.find? (fun e => e.1 == n.val) = some (n.val, w) ∧ s.keep.wait.find? (fun e => e.1 == n.val) = none) ∧
  (∃ (s : State) (n : Fin 1024) (w : Word) (v : Word), s.keep.busy = [(n.val, w)] ∧ s.keep.wait = [(n.val, v)]) ∧
  (∃ (s : State), clkRuns s = true) ∧
  (∃ (s : State), clkRuns s = true ∧ s.nib.latches = 0 ∧ s.keep.hot < 600) ∧
  (∃ (s : State), clkRuns s = true ∧ s.nib.latches ≠ 0 ∧ s.keep.hot < 600) ∧
  (∃ (s : State), clkRuns s = true ∧ s.nib.latches = 0 ∧ 600 ≤ s.keep.hot) ∧
  (∃ (s : State), clkRuns s = true ∧ s.nib.latches ≠ 0 ∧ 600 ≤ s.keep.hot) :=
  ⟨⟨tF [], tR 959 [1#32], 1#32, by decide⟩,
   ⟨tF [], 959, by decide⟩,
   ⟨(tF []).withKeep { busy := [(959, 2#32)] }, 959, by decide⟩,
   ⟨(tF []).withKeep { busy := [(5, 1#32)] }, 5, 1#32, by decide⟩,
   ⟨(tF []).withKeep { busy := [(5, 1#32)], wait := [(5, 2#32)] }, 5, 1#32, 2#32, by decide⟩,
   ⟨tA [], by decide⟩,
   ⟨tA [], by decide⟩,
   ⟨(tA []).withNib { latches := 1 }, by decide⟩,
   ⟨(tA []).withKeep { hot := 1200 }, by decide⟩,
   ⟨((tA []).withNib { latches := 1 }).withKeep { hot := 601 }, by decide⟩⟩

/-- Inputs that meet the hypotheses of `Obligations.Firmware_Stage`, clause by clause. -/
theorem witness_Firmware_Stage :
  (∃ (s : State) (r : Request) (p : Word) (len : Word), s.served ∧ r.target = 0 ∧ r.params = [p, len] ∧ bitsOf p 0 30 = 0 ∧ len.toNat % 4 = 0 ∧ len.toNat ≤ 4194304 ∧ s.flag R.cfgStat_SAVE_BUSY = false ∧ s.flag R.fwStat_TRIAL = false) ∧
  (∃ (s : State) (r : Request) (p : Word) (ws : List Word) (x : FwStage), s.served ∧ r.target = 0 ∧ r.params = p :: ws ∧ ws ≠ [] ∧ bitsOf p 20 10 = 0 ∧ s.boot.stage = some x ∧ bitsOf p 0 20 = s.fld R.fwStage_NEXT_WORD ∧ x.ended = false ∧ x.got + ws.length ≤ x.len ∧ x.got + ws.length ≤ (fwDrain s.dt 32768 x).prog + 16384) ∧
  (∃ (s : State) (r : Request) (p : Word) (x : FwStage), s.served ∧ r.target = 0 ∧ r.params = [p] ∧ bitsOf p 0 30 = 0 ∧ s.boot.stage = some x ∧ x.ended = false ∧ x.len ≤ x.got) ∧
  (∃ (s : State) (x : FwStage), s.boot.stage = some x ∧ x.ended = true) ∧
  (∃ (s : State) (x : FwStage), s.boot.stage = some x ∧ x.ended = false) :=
  ⟨⟨tF [], tR 0 [0#32, 0x400000#32], 0#32, 0x400000#32, by decide +kernel⟩,
   ⟨(tF []).withBoot { stage := some { len := 8, at_ := 0 } }, tR 0 [0x40000000#32, 5#32], 0x40000000#32, [5#32], { len := 8, at_ := 0 }, by decide +kernel⟩,
   ⟨(tF []).withBoot { stage := some { len := 8, got := 8, at_ := 0 } }, tR 0 [0x80000000#32], 0x80000000#32, { len := 8, got := 8, at_ := 0 }, by decide +kernel⟩,
   ⟨(tF []).withBoot { stage := some { len := 8, got := 8, at_ := 0, ended := true } }, { len := 8, got := 8, at_ := 0, ended := true }, by decide +kernel⟩,
   ⟨(tF []).withBoot { stage := some { len := 8, got := 8, at_ := 0 } }, { len := 8, got := 8, at_ := 0 }, by decide +kernel⟩⟩

/-- Inputs that meet the hypotheses of `Obligations.Firmware_Switch`, clause by clause. -/
theorem witness_Firmware_Switch :
  (∃ (s : State) (r : Request) (p : Word) (sec : Word), s.served ∧ r.params = [p, sec] ∧ bitsOf p 2 30 = 0 ∧ sec.toNat ≤ 600 ∧ s.flag R.fwStat_STAGED = true ∧ s.boot.swap = none ∧ r.target = 0xFFFF ∧ ((∀ g, g < 8 → grpState s g = 0))) ∧
  (∃ (s : State) (r : Request) (p : Word) (sec : Word), s.served ∧ r.params = [p, sec] ∧ bitsOf p 2 30 = 0 ∧ sec.toNat ≤ 600 ∧ s.flag R.fwStat_STAGED = true ∧ s.boot.swap = none ∧ r.target ≤ 7 ∧ (s.grp r.target).p ≠ 0 ∧ 50 * usTicks ≤ grpFrame s r.target ∧ tbValid s = true) ∧
  (∃ (s : State) (k : Nat), s.boot.resume = some k) ∧
  (∃ (s : State) (r : Request), s.served ∧ r.params.length = 2 ∧ fwSwitchBad r = none ∧ s.flag R.fwStat_TRIAL = true ∧ s.boot.swap = none) ∧
  (∃ (s : State) (r : Request), s.served ∧ r.params.length = 2 ∧ fwSwitchBad r = none ∧ s.flag R.fwStat_TRIAL = true ∧ s.boot.swap = none ∧ 7 < s.boot.trialGrp) ∧
  (∃ (s : State) (r : Request), s.served ∧ r.params.length = 2 ∧ fwSwitchBad r = none ∧ s.flag R.fwStat_TRIAL = true ∧ s.boot.swap = none ∧ s.boot.trialGrp ≤ 7) ∧
  (∃ (s : State), s.flag R.fwStat_TRIAL = true ∧ s.boot.resume = none ∧ s.boot.swap = none ∧ 7 < s.boot.trialGrp) ∧
  (∃ (s : State), s.flag R.fwStat_TRIAL = true ∧ s.boot.resume = none ∧ s.boot.swap = none ∧ s.boot.trialGrp ≤ 7) ∧
  (∃ (s : State) (g : Nat), s.boot.swap = some (g, 0)) ∧
  (∃ (s : State) (r : Request), s.served ∧ r.params.length = 2 ∧ fwSwitchBad r = none ∧ scribeSwitchBad s = false ∧ s.safe.single = false) :=
  ⟨⟨tF [(R.fwStat_STAGED, 1)], tR 0xFFFF [0#32, 600#32], 0#32, 600#32, by decide⟩,
   ⟨(tF [(R.fwStat_STAGED, 1), (R.clkStat_TB_VALID, 1)]).setGrp 7 { p := 3200000, len := 320000, next := some (5, true) }, tR 7 [0#32, 0#32], 0#32, 0#32, by decide⟩,
   ⟨(tF []).withBoot { resume := some 0 }, 0, by decide⟩,
   ⟨tF [(R.fwStat_TRIAL, 1)], tR 0xFFFF [1#32, 0#32], by decide⟩,
   ⟨(tF [(R.fwStat_TRIAL, 1)]).withBoot { trialGrp := 0xFFFF }, tR 0xFFFF [2#32, 0#32], by decide⟩,
   ⟨(tF [(R.fwStat_TRIAL, 1), (R.clkStat_TB_VALID, 1)]).setGrp 0 { p := 320000, len := 320000, next := some (5, true) }, tR 0xFFFF [2#32, 0#32], by decide⟩,
   ⟨(tF [(R.fwStat_TRIAL, 1)]).withBoot { trialGrp := 0xFFFF, trialEnd := 9 }, by decide⟩,
   ⟨(tF [(R.fwStat_TRIAL, 1), (R.clkStat_TB_VALID, 1)]).setGrp 0 { p := 320000, len := 320000, next := some (5, true) }, by decide⟩,
   ⟨addPend ((tF []).withBoot { swap := some (7, 0), hold := true }) 7 5#32 false (.fwSwap 0), 7, by decide⟩,
   ⟨tF [], tR 0xFFFF [3#32, 0#32], by decide⟩⟩

/-- Inputs that meet the hypotheses of `Obligations.Contexts`, clause by clause. -/
theorem witness_Contexts :
  (∃ (s : State) (r : Request) (p : Word) (slot : Nat) (held : List Nat), s.served ∧ r.target = 0 ∧ r.params = [p] ∧ createBad s p = false ∧ held = s.slots.filter (fun k => (kindMates (bitsOf p 28 4)).1.contains (s.ctx k).kind) ∧ held.length < (kindMates (bitsOf p 28 4)).2 ∧ findNat 256 (fun k => (s.ctx k).kind == 0) = some slot ∧ kindNumbered (bitsOf p 28 4) = false) ∧
  (∃ (s : State) (r : Request) (p : Word) (slot : Nat) (held : List Nat) (n : _), s.served ∧ r.target = 0 ∧ r.params = [p] ∧ createBad s p = false ∧ held = s.slots.filter (fun k => (kindMates (bitsOf p 28 4)).1.contains (s.ctx k).kind) ∧ held.length < (kindMates (bitsOf p 28 4)).2 ∧ findNat 256 (fun k => (s.ctx k).kind == 0) = some slot ∧ kindNumbered (bitsOf p 28 4) = true ∧ findNat (kindMates (bitsOf p 28 4)).2 (fun n => !(held.any (fun k => (s.ctx k).num == n))) = some n) ∧
  (∃ (s : State) (r : Request), s.served ∧ r.params = [] ∧ slotCheck s r.target [1, 2, 3, 4, 5, 6, 7, 8, 9, 10, 11, 12, 13] = none ∧ (namers s r.target = [] ∨ ((s.ctx r.target).kind = 6 ∧ (namers s r.target).all (angleOnly s r.target) = true)) ∧ (((s.ctx r.target).kind = 5 → ∀ m ∈ bMembers (curBind s r.target), windState s m = 0)) ∧ (sheafHolds s = false ∨ (s.ctx r.target).grp ≠ 0) ∧ (inCommitted s r.target = false ∨ (s.grp (s.ctx r.target).grp).p = 0)) ∧
  (∃ (s : State) (r : Request), s.served ∧ r.params = [] ∧ slotCheck s r.target [1, 2, 3, 4, 5, 6, 7, 8, 9, 10, 11, 12, 13] = none ∧ (namers s r.target = [] ∨ ((s.ctx r.target).kind = 6 ∧ (namers s r.target).all (angleOnly s r.target) = true)) ∧ (((s.ctx r.target).kind = 5 → ∀ m ∈ bMembers (curBind s r.target), windState s m = 0)) ∧ (sheafHolds s = false ∨ (s.ctx r.target).grp ≠ 0) ∧ inCommitted s r.target = true ∧ (s.grp (s.ctx r.target).grp).p ≠ 0) ∧
  (∃ (s : State) (r : Request), s.served ∧ r.params ≠ [] ∧ slotCheck s r.target [1, 2, 3, 4, 5, 6, 7, 8, 9, 10, 11, 12, 13] = none ∧ r.params.length = bindCount (s.ctx r.target).kind ∧ bindStatus s r.target r.params = none ∧ ((inCommitted s r.target = true → (admResult s { admNow s (committedSet s) with bind := bindWith (effBind s) r.target r.params }).1 = 0))) ∧
  (∃ (s : State) (r : Request), s.served ∧ 2 ≤ r.params.length ∧ r.params.length ≤ 128 ∧ slotCheck s r.target [1, 2, 3, 4, 5, 6, 7, 8, 9, 10, 11, 12, 13] = none ∧ bitsOf (r.p 0) 16 16 = 0) ∧
  (∃ (s : State) (r : Request) (off : Nat) (x : Word) (v : Word) (w : PW), s.served ∧ r.params = [wd off, x] ∧ 1 ≤ off ∧ off < 128 ∧ slotCheck s r.target [1, 2, 3, 4, 5, 6, 7, 8, 9, 10, 11, 12, 13] = none ∧ ctxRow (s.ctx r.target).kind (s.cw r.target 0) off = some w ∧ rowBad s (s.ctx r.target).kind w (s.cw r.target off) x = false ∧ v = rowValue w (s.cw r.target off) x ∧ v ≠ s.cw r.target off ∧ relBad s r.target (fun k => if k = off then v else s.cw r.target k) (fun k => k == off) = false ∧ relState s r.target (fun k => if k = off then v else s.cw r.target k) (fun k => k == off) = none) ∧
  (∃ (s : State) (r : Request) (a : AdmitIn), s.served ∧ r.target = 0 ∧ r.params.length = 4 ∧ admitBad r = false ∧ a = { admNow s s.slots with floor := if bitOf (r.p 0) 1 then paceFloor (bitsOf (r.p 1) 16 12) (bitsOf (r.p 1) 0 8) else s.fld R.loopFloor_FLOOR_PS, win := fun g => if admitWin r g = 0 then windowPct s g else admitWin r g } ∧ (admResult s a).1 = 0 ∧ bitOf (r.p 0) 0 = true) ∧
  (∃ (s : State) (r : Request) (a : AdmitIn), s.served ∧ r.target = 0 ∧ r.params.length = 4 ∧ admitBad r = false ∧ a = { admNow s s.slots with floor := if bitOf (r.p 0) 1 then paceFloor (bitsOf (r.p 1) 16 12) (bitsOf (r.p 1) 0 8) else s.fld R.loopFloor_FLOOR_PS, win := fun g => if admitWin r g = 0 then windowPct s g else admitWin r g } ∧ (admResult s a).1 = 0 ∧ bitOf (r.p 0) 0 = false) :=
  ⟨⟨tF [], tR 0 [0xD0000000#32], 0xD0000000#32, 0, _, by decide +kernel, by decide +kernel, by decide +kernel, by decide +kernel, rfl, by decide +kernel⟩,
   ⟨tF [], tR 0 [0x70000000#32], 0x70000000#32, 0, _, 0, by decide +kernel, by decide +kernel, by decide +kernel, by decide +kernel, rfl, by decide +kernel⟩,
   ⟨(tF []).setCtx 255 { kind := 13 }, tR 255 [], by decide +kernel⟩,
   ⟨((tF [(R.clkStat_TB_VALID, 1)]).setCtx 255 { kind := 12, grp := 7, committed := true, live := true }).setGrp 7 { p := 320000, len := 320000, next := some (5, true) }, tR 255 [], by decide +kernel⟩,
   ⟨(tF []).setCtx 255 { kind := 12 }, tR 255 [0x1000007F#32], by decide +kernel⟩,
   ⟨(tF []).setCtx 255 { kind := 12 }, tR 255 [0#32, 0#32], by decide +kernel⟩,
   ⟨(tF []).setCtx 255 { kind := 12 }, tR 255 [wd 1, 0x3F800000#32], 1, 0x3F800000#32, _, (ctxRow 12 0#32 1).getD { w := 0 }, by decide +kernel, by decide +kernel, by decide +kernel, by decide +kernel, by decide +kernel, by decide +kernel, by decide +kernel, rfl, by decide +kernel⟩,
   ⟨tF [], tR 0 [1#32, 0#32, 0#32, 0#32], _, by decide +kernel, by decide +kernel, by decide +kernel, by decide +kernel, rfl, by decide +kernel⟩,
   ⟨tF [], tR 0 [0#32, 0#32, 0#32, 0#32], _, by decide +kernel, by decide +kernel, by decide +kernel, by decide +kernel, rfl, by decide +kernel⟩⟩

/-- Inputs that meet the hypotheses of `Obligations.Pace_And_Shedding`, clause by clause. -/
theorem witness_Pace_And_Shedding :
  (∃ (s : State), tbValid s = true) ∧
  (∃ (s : State), s.fld R.loopShed_LEVEL < 4 ∧ (if s.loop.rose then shedRiseRun else 2) ≤ s.loop.slow) ∧
  (∃ (s : State), s.fld R.loopShed_LEVEL ≠ 0 ∧ shedFallRun ≤ s.loop.fast) ∧
  (∃ (s : State) (mv : BitVec 16) (tj : BitVec 16), (mv.toNat < s.fld R.loopEnv_VCORE_MIN ∨ (s.fld R.loopEnv_TJ_MAX : Int) < tj.toInt)) ∧
  (∃ (s : State) (mv : BitVec 16) (tj : BitVec 16), s.fld R.loopEnv_VCORE_MIN ≤ mv.toNat ∧ tj.toInt ≤ (s.fld R.loopEnv_TJ_MAX : Int)) :=
  ⟨⟨tF [(R.clkStat_TB_VALID, 1)], by decide +kernel⟩,
   ⟨(tF []).withLoop { slow := 2 }, by decide +kernel⟩,
   ⟨(tF [(R.loopShed_LEVEL, 1)]).withLoop { fast := 10000 }, by decide +kernel⟩,
   ⟨tF [], 0#16, 0#16, by decide +kernel⟩,
   ⟨tF [], 700#16, 0xFFD8#16, by decide +kernel⟩⟩

/-- Inputs that meet the hypotheses of `Obligations.Passes_And_Boundaries`, clause by clause. -/
theorem witness_Passes_And_Boundaries :
  (∃ (s : State) (k : Nat), s.loop.runs.length < 8 ∧ tbValid s = true ∧ firstReady s = some k ∧ farLinks s (s.ctx k).kind (s.ctx k).bind = []) ∧
  (∃ (s : State) (slot : Fin 256) (r : Run) (o : PassOut), s.loop.runs.find? (fun x => x.slot == slot.val) = some r ∧ r.out = some o) ∧
  (∃ (s : State) (g : Fin 8) (rel : Tick), (s.grp g.val).rel = some rel ∧ (s.grp g.val).skip = false ∧ tbValid s = true) ∧
  (∃ (s : State) (g : Fin 8), tbValid s = true ∧ frameDone s g.val = false) ∧
  (∃ (s : State) (g : Fin 8) (t : Tick) (zero : Bool), tbValid s = true ∧ (s.grp g.val).next = some (t, zero)) ∧
  (∃ (s : State) (r : Request) (w : Word), s.served ∧ r.params = [w] ∧ bitsOf w 0 8 = 1 ∧ r.target ≤ 63 ∧ mapShadowOk s r.target = true ∧ s.flag (R.mapDir_SWAP_PEND r.target) = false ∧ mapGroups s r.target = []) ∧
  (∃ (s : State) (r : Request) (w : Word), s.served ∧ r.params = [w] ∧ bitsOf w 0 8 = 1 ∧ r.target ≤ 63 ∧ mapShadowOk s r.target = true ∧ s.flag (R.mapDir_SWAP_PEND r.target) = false ∧ mapGroups s r.target ≠ []) ∧
  (∃ (s : State) (r : Request) (w : Word), s.served ∧ r.params = [w] ∧ r.target = 0 ∧ bitsOf w 0 8 = 2 ∧ calSwapPending s = false ∧ ((∀ c, c < 128 → calUsers s c = []))) ∧
  (∃ (s : State) (r : Request) (w : Word), s.served ∧ r.params = [w] ∧ r.target = 0 ∧ bitsOf w 0 8 = 3) :=
  ⟨⟨((tF [(R.clkStat_TB_VALID, 1)]).setCtx 3 { kind := 12 }).setGrp 0 { todo := [3], rel := some 0 }, 3, by decide +kernel⟩,
   ⟨((tF []).setGrp 0 { todo := [4] }).withLoop { ((tF []).setGrp 0 { todo := [4] }).loop with runs := [{ slot := 255, grp := 0, seq := 0#32, out := some {} }] }, 255, { slot := 255, grp := 0, seq := 0#32, out := some {} }, {}, by decide +kernel⟩,
   ⟨(tF [(R.clkStat_TB_VALID, 1)]).setGrp 7 { rel := some 5 }, 7, 5, by decide +kernel⟩,
   ⟨(tF [(R.clkStat_TB_VALID, 1)]).setGrp 7 { todo := [4] }, 7, by decide +kernel⟩,
   ⟨(tF [(R.clkStat_TB_VALID, 1)]).setGrp 7 { p := 320000, len := 320000, next := some (5, true) }, 7, 5, true, by decide +kernel⟩,
   ⟨tMap, tR 63 [1#32], 1#32, by decide +kernel⟩,
   ⟨((tMap.setCtx 255 { kind := 2, grp := 7, committed := true }).setFrc (ctxAddr 255 8) 0x3F000000#32).setGrp 7 { p := 320000, len := 320000, next := some (5, true) }, tR 63 [1#32], 1#32, by decide +kernel⟩,
   ⟨tF [], tR 0 [2#32], 2#32, by decide +kernel⟩,
   ⟨tF [], tR 0 [3#32], 3#32, by decide +kernel⟩⟩

/-- Inputs that meet the hypotheses of `Obligations.Event_Unit`, clause by clause. -/
theorem witness_Event_Unit :
  (∃ (s : State), serving s = true) ∧
  (∃ (s : State) (e : Fin 256) (h : HoldWin), s.evt.hold.find? (fun x => x.ev == e.val) = some h ∧ tbValid s = true ∧ serving s = true) ∧
  (∃ (w : Word), bitOf w 31 = true ∧ evDefined (bitsOf w 0 8) = true) ∧
  (∃ (s : State), coreRuns s = true) ∧
  (∃ (s : State) (c : BitVec 16), coreRuns s = true ∧ decide (caseMax < c.toInt) = s.boot.hot) ∧
  (∃ (s : State) (c : BitVec 16), coreRuns s = true ∧ decide (caseMax < c.toInt) ≠ s.boot.hot) :=
  ⟨⟨tF [], by decide⟩,
   ⟨(tF [(R.clkStat_TB_VALID, 1)]).withEvt { hold := [{ ev := 255, start := 0, len := 5 }] }, 255, { ev := 255, start := 0, len := 5 }, by decide⟩,
   ⟨0x800000FF#32, by decide⟩,
   ⟨tF [], by decide⟩,
   ⟨(tF []).withBoot { hot := true }, 1000#16, by decide, by unfold caseMax; split <;> decide⟩,
   ⟨tF [], 1000#16, by decide, by unfold caseMax; split <;> decide⟩⟩

/-- Inputs that meet the hypotheses of `Obligations.Register_Engine`, clause by clause. -/
theorem witness_Register_Engine :
  (∃ (s : State) (r : Request) (a : Word) (n : Word) (x : State × List Word × Nat), s.phase = .ready ∧ r.target = 0 ∧ r.params = [a, n] ∧ r.snapshot = false ∧ addrBad a = false ∧ 1 ≤ n.toNat ∧ n.toNat ≤ 256 ∧ runGated s (runAddrs a.toNat n.toNat) = false ∧ x = readRun (fun t b => portRead t r.port.val b) s (runAddrs a.toNat n.toNat) ∧ x.2.2 ≠ stRANGE) ∧
  (∃ (s : State) (r : Request) (a : Word) (n : Word) (x : State × List Word × Nat), s.phase = .ready ∧ r.target = 0 ∧ r.params = [a, n] ∧ r.snapshot = false ∧ addrBad a = false ∧ 1 ≤ n.toNat ∧ n.toNat ≤ 256 ∧ runGated s (runAddrs a.toNat n.toNat) = false ∧ x = readRun (fun t b => portRead t r.port.val b) s (runAddrs a.toNat n.toNat) ∧ x.2.2 = stRANGE) ∧
  (∃ (s : State) (r : Request) (a : Word) (n : Word), s.phase = .ready ∧ r.target ≤ 7 ∧ r.params = [a, n] ∧ r.snapshot = true ∧ addrBad a = false ∧ 1 ≤ n.toNat ∧ n.toNat ≤ 32 ∧ runGated s (runAddrs a.toNat n.toNat) = false) ∧
  (∃ (s : State) (r : Request) (a : Word) (ws : List Word), s.phase = .ready ∧ r.target = 0 ∧ r.params = a :: ws ∧ ws ≠ [] ∧ addrBad a = false ∧ runGated s (runAddrs a.toNat ws.length) = false ∧ stRefused (runWrite s (runSplit ws.length a.toNat ws)).status = false) ∧
  (∃ (s : State) (r : Request) (a : Word) (m : Word) (v : Word), s.phase = .ready ∧ r.target = 0 ∧ r.params = [a, m, v] ∧ addrBad a = false ∧ runGated s [a.toNat] = false ∧ (regRead s a.toNat).status = 0 ∧ stRefused (partWrite (regRead s a.toNat).st (a.toNat, [modifyWord a.toNat (regRead s a.toNat).val m v])).status = false) ∧
  (∃ (s : State) (r : Request), s.phase = .ready ∧ r.target ≤ 7 ∧ 1 ≤ r.params.length ∧ r.params.length ≤ 32 ∧ r.params.any addrBad = false ∧ runGated s (snapAddrs r) = false) ∧
  (∃ (s : State) (a : BitVec 24) (w : Word), a.toNat % 4 = 0 ∧ stRefused (regWrite s a.toNat w).status = false ∧ regReady s a.toNat = true) ∧
  (∃ (s : State) (a : BitVec 24) (w : Word) (row : RegRow), a.toNat % 4 = 0 ∧ regReady s a.toNat = true ∧ regRow a.toNat = some row ∧ row.rs = 0 ∧ (¬ (0x100000 ≤ a.toNat ∧ a.toNat < 0x120000)) ∧ (¬ (0x162000 ≤ a.toNat ∧ a.toNat < 0x164000)) ∧ (¬ (0x1B4000 ≤ a.toNat ∧ a.toNat < 0x1B6000)) ∧ (¬ (0x340000 ≤ a.toNat ∧ a.toNat < 0x380000)) ∧ blockWrite s a.toNat w = none) :=
  ⟨⟨tF [], tR 0 [wd R.spiIrqcfg, 1#32], wd R.spiIrqcfg, 1#32, _, by decide +kernel, by decide +kernel, by decide +kernel, by decide +kernel, by decide +kernel, by decide +kernel, by decide +kernel, by decide +kernel, rfl, by decide +kernel⟩,
   ⟨tF [], tR 0 [0xFFFFFC#32, 256#32], 0xFFFFFC#32, 256#32, _, by decide +kernel, by decide +kernel, by decide +kernel, by decide +kernel, by decide +kernel, by decide +kernel, by decide +kernel, by decide +kernel, rfl, by decide +kernel⟩,
   ⟨tF [], { port := 0, h0 := 0x00040007#32, h1 := wd (7 * 65536 + 2), params := [0x00010000#32, 32#32], check := 0#32 }, 0x00010000#32, 32#32, by decide +kernel⟩,
   ⟨tF [], tR 0 [wd R.spiIrqcfg, 1#32], wd R.spiIrqcfg, [1#32], by decide +kernel⟩,
   ⟨tF [], tR 0 [wd R.spiIrqcfg, 1#32, 1#32], wd R.spiIrqcfg, 1#32, 1#32, by decide +kernel⟩,
   ⟨tF [], tR 7 [wd R.spiIrqcfg], by decide +kernel⟩,
   ⟨tF [], BitVec.ofNat 24 R.spiIrqcfg, 1#32, by decide +kernel⟩,
   ⟨tF [], 0x050004#24, 1#32, (regRow 0x050004).getD ⟨0, 0, 0, 0, 0, 0, 0, 0, 0, 0, 0, false⟩, by decide +kernel⟩⟩

/-- Inputs that meet the hypotheses of `Obligations.Inkwell_Commands`, clause by clause. -/
theorem witness_Inkwell_Commands :
  (∃ (s : State) (r : Request), s.served ∧ r.params = [] ∧ inkDown s = false ∧ r.target ≤ 3 ∧ inkArmBad s r.target = false ∧ inkQuiet s r.target = true) ∧
  (∃ (s : State) (r : Request), s.served ∧ r.params = [] ∧ inkDown s = false ∧ r.target ≤ 3 ∧ inkState s r.target = 1) ∧
  (∃ (s : State) (r : Request), s.served ∧ r.params = [] ∧ inkDown s = false ∧ r.target ≤ 3 ∧ (inkState s r.target = 2 ∨ inkState s r.target = 3)) ∧
  (∃ (s : State) (r : Request), s.served ∧ r.params = [] ∧ inkDown s = false ∧ r.target ≤ 3 ∧ inkState s r.target = 3) ∧
  (∃ (s : State) (r : Request), s.served ∧ r.params = [] ∧ inkDown s = false ∧ r.target ≤ 3 ∧ (inkState s r.target = 1 ∨ inkState s r.target = 2)) ∧
  (∃ (s : State) (r : Request), s.served ∧ r.params = [] ∧ inkDown s = false ∧ r.target ≤ 3 ∧ inkState s r.target = 5) ∧
  (∃ (s : State) (q : Fin 4) (r : InkRec), inkState s q.val = 2 ∧ inkComplete s q.val = true ∧ inkCur s q.val = some r ∧ s.fld (R.inkScfg_MODE q.val) = 0) ∧
  (∃ (s : State) (q : Fin 4) (r : InkRec), inkState s q.val = 2 ∧ inkComplete s q.val = true ∧ inkCur s q.val = some r ∧ s.fld (R.inkScfg_MODE q.val) ≠ 0) ∧
  (∃ (s : State) (q : Fin 4), inkState s q.val = 1 ∧ s.fld (R.inkScfg_MODE q.val) = 2 ∧ tbValid s = true) ∧
  (∃ (s : State) (u : State) (q : Fin 4) (r : InkRead), u = inkPump s ∧ u.ink.reads.find? (fun x => x.sess == q.val && x.out.isEmpty) = some r) ∧
  (∃ (s : State) (r : Request) (p : Word) (a : Word) (b : Word) (c : Word) (d : Word) (rc : InkRec) (open_ : Bool), s.served ∧ r.params = [p, a, b, c, d] ∧ inkDown s = false ∧ r.target ≤ 3 ∧ bitsOf p 28 4 ≤ 3 ∧ bitsOf p 1 7 = 0 ∧ bitsOf p 24 4 ≤ s.fld (R.inkScfg_NREC r.target) ∧ ((bitsOf p 28 4 = 0 → 36 ≤ bitsOf p 8 8 ∧ bitsOf p 8 8 ≤ 43)) ∧ (bitsOf p 16 8 = 0xFF ∨ (inkChans s r.target).contains (bitsOf p 16 8) = true) ∧ join64 a b ≤ join64 c d ∧ s.ink.reads.any (fun x => x.dest == bitsOf p 28 4 && (bitsOf p 28 4 != 0 || x.ring == bitsOf p 8 8)) = false ∧ (s.inkS r.target).recs.find? (fun x => x.num == bitsOf p 24 4) = some rc ∧ open_ = (inkFilling s r.target && s.fld (R.inkSstat_WREC r.target) == bitsOf p 24 4) ∧ (open_ = false ∨ inkState s r.target = 5) ∧ rc.chans.all (fun x => x.pages.isEmpty) = false) :=
  ⟨⟨tA [(R.clkStat_IPLL_LOCK, 1), (R.inkCcfg_EN 0, 1), (R.inkCcfg_SESSION 0, 3), (R.inkCcfg_KIND 0, 1), (R.inkPost_NS 3, 1), (R.inkSmem_PAGES 3, 2048)], tR 3 [], by decide⟩,
   ⟨tA [(R.clkStat_IPLL_LOCK, 1), (R.inkSstat_STATE 3, 1)], tR 3 [], by decide⟩,
   ⟨tA [(R.clkStat_IPLL_LOCK, 1), (R.inkSstat_STATE 3, 3)], tR 3 [], by decide⟩,
   ⟨tA [(R.clkStat_IPLL_LOCK, 1), (R.inkSstat_STATE 3, 3)], tR 3 [], by decide⟩,
   ⟨tA [(R.clkStat_IPLL_LOCK, 1), (R.inkSstat_STATE 3, 2)], tR 3 [], by decide⟩,
   ⟨tA [(R.clkStat_IPLL_LOCK, 1), (R.inkSstat_STATE 3, 5)], tR 3 [], by decide⟩,
   ⟨(tA [(R.clkStat_IPLL_LOCK, 1), (R.inkSstat_STATE 3, 2)]).setInkS 3 { recs := [{ num := 0, trig := some 0 }] }, 3, { num := 0, trig := some 0 }, by decide⟩,
   ⟨(tA [(R.clkStat_IPLL_LOCK, 1), (R.inkSstat_STATE 3, 2), (R.inkScfg_MODE 3, 1)]).setInkS 3 { recs := [{ num := 0, trig := some 0 }] }, 3, { num := 0, trig := some 0 }, by decide⟩,
   ⟨tF [(R.inkSstat_STATE 3, 1), (R.inkScfg_MODE 3, 2), (R.clkStat_TB_VALID, 1)], 3, by decide⟩,
   ⟨(tF []).withInk { reads := [{ sess := 3, rec_ := 0, dest := 0, ring := 36, release := false, out := [] }] }, _, 3, { sess := 3, rec_ := 0, dest := 0, ring := 36, release := false, out := [] }, rfl, by decide⟩,
   ⟨(tA [(R.clkStat_IPLL_LOCK, 1)]).setInkS 3 { recs := [{ num := 0, chans := [{ ch := 0, pages := [{}] }] }] }, tR 3 [0x00FF2400#32, 0#32, 0#32, 0#32, 0#32], 0x00FF2400#32, 0#32, 0#32, 0#32, 0#32, { num := 0, chans := [{ ch := 0, pages := [{}] }] }, _, by decide, by decide, by decide, by decide, by decide, by decide, by decide, by decide, by decide, by decide, by decide, by decide, rfl, by decide⟩⟩

/-- Inputs that meet the hypotheses of `Obligations.Nib_Bank`, clause by clause. -/
theorem witness_Nib_Bank :
  (∃ (s : State) (n : Fin 28) (w : Nat), fltFilt s n.val ≤ w) ∧
  (∃ (s : State) (n : Fin 28) (w : Nat), fltFilt s n.val ≤ w ∧ s.flag ⟨R.nibFltstat, n.val, 1⟩ = true) ∧
  (∃ (s : State) (n : Fin 28) (w : Nat), fltFilt s n.val ≤ w ∧ s.flag ⟨R.nibFltstat, n.val, 1⟩ = false ∧ n.val < 24) ∧
  (∃ (s : State) (n : Fin 28) (w : Nat), fltFilt s n.val ≤ w ∧ s.flag ⟨R.nibFltstat, n.val, 1⟩ = false ∧ 24 ≤ n.val) ∧
  (∃ (s : State) (g : Fin 8), (grpLatched s g.val).any (srcHolds s ·) = false) ∧
  (∃ (s : State) (u : State) (n : Fin 72) (high : Bool) (rise : Bool) (t : Tick) (w : EchoWin), u = s.at t ∧ u.flag (R.nibCfg_ECHO_EN n.val) = true ∧ nibLatched u n.val = false ∧ rise = (high != s.flag (R.nibCfg_ECHO_POL n.val)) ∧ (u.nibS n.val).wins.find? (fun x => x.rise == rise && decide (x.start ≤ t - tk (u.fld (R.nibEcfg_EDLY n.val))) && decide (t - tk (u.fld (R.nibEcfg_EDLY n.val)) < x.stop)) = some w) ∧
  (∃ (s : State) (n : Fin 72) (w : EchoWin) (ws : List EchoWin), (s.nibS n).wins = w :: ws) ∧
  (∃ (s : State) (u : State) (n : Fin 72) (c : ChopRun) (t : Tick), (s.nibS n).chop = some c ∧ t = c.start + tk (c.k + c.v) ∧ u = s.at t ∧ nibEmits u n.val = true ∧ tbValid u = true ∧ (u.grp (nibGrp u n.val)).next.map (·.1) ≠ some t) ∧
  (∃ (s : State) (k : Fin 24) (n : Nat) (ns : List Nat) (mode : Nat) (p : Nat) (du : Bool) (on : Nat → Nat), setNibs s k.val = n :: ns ∧ s.flag (R.nibSetinfo_OWNED k.val) = false ∧ grpCarrier s (nibGrp s n) = (mode, du, p) ∧ on = (fun m => if mode = 1 then 0 else s.fld (R.nibSon_OFS m)) ∧ (∀ m ∈ n :: ns, stagedOk mode du p (on m) (s.fld (R.nibSoff_OFS m)) = true)) ∧
  (∃ (s : State) (r : Request) (w : Word), s.served ∧ r.params = [w] ∧ r.target ≤ 7 ∧ bitsOf w 0 2 ≠ 3 ∧ ((bitsOf w 0 2 ≠ 0 → nibGated s r.target = false ∧ s.flag R.cfgStat_SAFE_CFG_FAULT = false ∧ huskEn s = true ∧ safeLocked s = false ∧ (s.grp r.target).p ≠ 0))) ∧
  (∃ (s : State) (g : Fin 8) (w : Word) (p : Nat) (frame : Nat), p = bitsOf w 0 29 ∧ frame = (if bitOf w 31 then p / 2 else p) ∧ periodBad (bitsOf w 29 2) (bitOf w 31) p (s.fld (R.nibGphase_PHASE g.val)) = false ∧ tickFloorBad s g.val frame = false ∧ (s.reg (R.nibGper g.val) >>> 29 = w >>> 29 ∨ grpState s g.val = 0) ∧ ((g.val = 0 → p = 0 → s.fld R.sheafCfg_ROLE ≠ 1 ∧ s.fld R.sheafCfg_ROLE ≠ 2)) ∧ (frame = frameWritten s g.val ∨ s.slots.any (fun k => (s.ctx k).grp == g.val) = false ∨ (admResult s { admNow s s.slots with frame := fun h => if h = g.val then frame else frameWritten s h }).1 = 0) ∧ (s.grp g.val).p = 0 ∧ p ≠ 0) ∧
  (∃ (s : State) (g : Fin 8) (w : Word) (p : Nat) (frame : Nat), p = bitsOf w 0 29 ∧ frame = (if bitOf w 31 then p / 2 else p) ∧ periodBad (bitsOf w 29 2) (bitOf w 31) p (s.fld (R.nibGphase_PHASE g.val)) = false ∧ tickFloorBad s g.val frame = false ∧ (s.reg (R.nibGper g.val) >>> 29 = w >>> 29 ∨ grpState s g.val = 0) ∧ ((g.val = 0 → p = 0 → s.fld R.sheafCfg_ROLE ≠ 1 ∧ s.fld R.sheafCfg_ROLE ≠ 2)) ∧ (frame = frameWritten s g.val ∨ s.slots.any (fun k => (s.ctx k).grp == g.val) = false ∨ (admResult s { admNow s s.slots with frame := fun h => if h = g.val then frame else frameWritten s h }).1 = 0) ∧ (s.grp g.val).p ≠ 0 ∧ bitsOf (s.reg (R.nibGper g.val)) 0 29 ≠ p) ∧
  (∃ (s : State) (g : Fin 8) (w : Word) (p : Nat) (frame : Nat), p = bitsOf w 0 29 ∧ frame = (if bitOf w 31 then p / 2 else p) ∧ periodBad (bitsOf w 29 2) (bitOf w 31) p (s.fld (R.nibGphase_PHASE g.val)) = false ∧ tickFloorBad s g.val frame = false ∧ (s.reg (R.nibGper g.val) >>> 29 = w >>> 29 ∨ grpState s g.val = 0) ∧ ((g.val = 0 → p = 0 → s.fld R.sheafCfg_ROLE ≠ 1 ∧ s.fld R.sheafCfg_ROLE ≠ 2)) ∧ (frame = frameWritten s g.val ∨ s.slots.any (fun k => (s.ctx k).grp == g.val) = false ∨ (admResult s { admNow s s.slots with frame := fun h => if h = g.val then frame else frameWritten s h }).1 = 0) ∧ (s.grp g.val).p ≠ 0 ∧ bitsOf (s.reg (R.nibGper g.val)) 0 29 = p) ∧
  (∃ (s : State) (g : Fin 8) (w : Word), 8 * w.toInt.natAbs ≤ (grpCarrier s g.val).2.2 ∧ (((grpCarrier s g.val).2.1 = true → w.toInt % 2 = 0))) ∧
  (∃ (s : State) (v : State) (t : Tick) (g : Nat), v = s.at t ∧ v.flag R.nibSync_IN_EN = true ∧ g = v.fld R.nibSync_IN_GRP ∧ (v.grp g).p ≠ 0 ∧ (v.grp g).next ≠ none ∧ g < v.loop.grps.length) ∧
  (∃ (s : State), s.flag R.nibSync_IN_EN = true ∧ syncGone s = true ∧ s.flag R.nibSyncstat_LOCK = true) :=
  ⟨⟨tF [(R.nibWfcfg_FILT 23, 5)], 23, 5, by decide +kernel⟩,
   ⟨tF [(⟨R.nibFltstat, 23, 1⟩, 1)], 23, 0, by decide +kernel⟩,
   ⟨tF [(R.nibWfcfg_EN 23, 1)], 23, 0, by decide +kernel⟩,
   ⟨tF [(R.nibGfcfg_EN 3, 1)], 27, 0, by decide +kernel⟩,
   ⟨tF [(R.nibCfg_EN 71, 1), (R.nibCfg_GROUP 71, 7), (R.nibNstat_LATCHED 71, 1)], 7, by decide +kernel⟩,
   ⟨(tF [(R.nibCfg_ECHO_EN 71, 1)]).setNibS 71 { wins := [{ rise := true, ideal := 0, start := 0, stop := 1000 }] }, _, 71, true, _, 500, { rise := true, ideal := 0, start := 0, stop := 1000 }, rfl, by decide +kernel, by decide +kernel, rfl, by decide +kernel⟩,
   ⟨(tF []).setNibS 71 { wins := [{ rise := true, ideal := 0, start := 0, stop := 1000 }] }, 71, { rise := true, ideal := 0, start := 0, stop := 1000 }, [], by decide +kernel⟩,
   ⟨(tF [(R.clkStat_TB_VALID, 1), (R.nibGlob_HUSK_EN, 1), (R.nibCfg_EN 71, 1), (R.nibCfg_GROUP 71, 7), (R.nibGstate_STATE 7, 1), (R.nibCfg_INDEP 71, 1)]).setNibS 71 { chop := some { start := 0, k := 4, v := 0 } }, _, 71, { start := 0, k := 4, v := 0 }, _, by decide +kernel, rfl, rfl, by decide +kernel⟩,
   ⟨tF [(R.nibCfg_SET 71, 23), (R.nibCfg_GROUP 71, 7), (R.nibGper_MODE 7, 2)], 23, 71, [], 2, 0, false, _, by decide +kernel, by decide +kernel, by decide +kernel, rfl, by decide +kernel⟩,
   ⟨(tF [(R.nibGlob_HUSK_EN, 1), (R.safeState_MODE, 1), (R.clkGate_NIB_LO, 1), (R.clkGate_NIB_HI, 1)]).setGrp 7 { p := 320000, len := 320000 }, tR 7 [2#32], 2#32, by decide +kernel⟩,
   ⟨tF [], 7, 320000#32, _, _, rfl, rfl, by decide +kernel⟩,
   ⟨(tF []).setGrp 7 { p := 320000, len := 320000 }, 7, 640000#32, _, _, rfl, rfl, by decide +kernel⟩,
   ⟨((tF []).setReg (R.nibGper 7) 320000#32).setGrp 7 { p := 320000, len := 320000 }, 7, 320000#32, _, _, rfl, rfl, by decide +kernel⟩,
   ⟨(tF []).setGrp 7 { p := 320000, len := 320000 }, 7, 40000#32, by decide +kernel⟩,
   ⟨(tF [(R.nibSync_IN_EN, 1), (R.nibSync_IN_GRP, 7)]).setGrp 7 { p := 320000, len := 320000, next := some (320000, true) }, _, 5, _, rfl, by decide +kernel, rfl, by decide +kernel⟩,
   ⟨(tF [(R.nibSync_IN_EN, 1), (R.nibSyncstat_LOCK, 1)]).withNib { syncMiss := 3 }, by decide +kernel⟩⟩

/-- Inputs that meet the hypotheses of `Obligations.Sensing_Front_End`, clause by clause. -/
theorem witness_Sensing_Front_End :
  (∃ (s : State) (v : State) (c : Fin 128) (bits : List Bool) (e : Tick) (o : Sinc3), s.flag (R.senseCfg_EN c.val) = true ∧ tbValid s = true ∧ nodeRuns s 3 = true ∧ selEdge s c.val e = true ∧ v = s.at (e + tk (capTicks s c.val)) ∧ o.y = sincY (v.fld (R.senseCfg_S3_OSR c.val)) bits ∧ o.s = v.fld (R.senseCfg_S3_OSR c.val) ∧ o.stop = e - tk (v.fld (R.senseCalactDelay_DELAY c.val)) ∧ o.centre = o.stop - tk ((3 * o.s - 2) * chanTm v c.val / 2)) ∧
  (∃ (s : State) (c : Fin 128) (bits : List Bool) (e : Tick) (d : _), s.flag (R.senseCfg_EN c.val) = true ∧ senseGated s = false ∧ ocRun s c.val (ocSince s c.val bits e) = some d ∧ (s.chS c.val).ocOn = false) ∧
  (∃ (s : State) (c : Fin 128) (bits : List Bool) (e : Tick) (d : _), s.flag (R.senseCfg_EN c.val) = true ∧ senseGated s = false ∧ ocRun s c.val (ocSince s c.val bits e) = some d ∧ (s.chS c.val).ocOn = true) ∧
  (∃ (s : State) (c : Fin 128) (bits : List Bool) (e : Tick), s.flag (R.senseCfg_EN c.val) = true ∧ senseGated s = false ∧ ocRun s c.val (ocSince s c.val bits e) = none) ∧
  (∃ (s : State) (c : Fin 128) (bits : List Bool), s.flag (R.senseCfg_EN c.val) = true ∧ senseGated s = false ∧ s.flag (R.senseStat_LOST c.val) = false ∧ s.fld (R.senseLoss_LOSSRUN c.val) ≤ bits.length ∧ ((bits.take (s.fld (R.senseLoss_LOSSRUN c.val))).all id = true ∨ (bits.take (s.fld (R.senseLoss_LOSSRUN c.val))).all (!·) = true)) ∧
  (∃ (s : State) (c : Fin 128), s.flag (R.senseStat_LOST c.val) = true ∧ senseGated s = false) ∧
  (∃ (s : State) (c : Fin 128), regReady s R.senseCal = true ∧ s.flag R.senseCal_BUSY = false ∧ s.flag (R.senseCfg_EN c.val) = true) ∧
  (∃ (s : State) (c : Fin 128), regReady s R.senseCal = true ∧ s.flag R.senseCal_BUSY = false ∧ s.flag (R.senseCfg_EN c.val) = true ∧ (boundGroups s c.val).any (fun g => grpState s g == 2) = false) ∧
  (∃ (s : State) (ch : Nat) (mode : Nat), s.sense.cal = some (ch, mode)) ∧
  (∃ (s : State) (n : Fin 12) (w : Word), regReady s (R.senseMclk n.val) = true ∧ outNat 20 100 (bitsOf (written s (R.senseMclk n.val) w) 16 7) = false ∧ bitsOf (written s (R.senseMclk n.val) w) 0 7 < bitsOf (written s (R.senseMclk n.val) w) 16 7 ∧ (written s (R.senseMclk n.val) w = s.reg (R.senseMclk n.val) ∨ (List.range 128).any (fun c => s.fld (R.senseCfg_MSEL c) == n.val && boundLive s c) = false)) :=
  ⟨⟨tA [(R.clkStat_TPLL_LOCK, 1), (R.clkStat_TB_VALID, 1), (R.senseCfg_EN 127, 1), (R.senseMclk_EN 0, 1)], _, 127, [], (800#64), { y := 0, s := (tA [(R.clkStat_TPLL_LOCK, 1), (R.clkStat_TB_VALID, 1), (R.senseCfg_EN 127, 1), (R.senseMclk_EN 0, 1)]).fld (R.senseCfg_S3_OSR 127), stop := 800#64 - tk ((tA [(R.clkStat_TPLL_LOCK, 1), (R.clkStat_TB_VALID, 1), (R.senseCfg_EN 127, 1), (R.senseMclk_EN 0, 1)]).fld (R.senseCalactDelay_DELAY 127)), centre := 800#64 - tk ((tA [(R.clkStat_TPLL_LOCK, 1), (R.clkStat_TB_VALID, 1), (R.senseCfg_EN 127, 1), (R.senseMclk_EN 0, 1)]).fld (R.senseCalactDelay_DELAY 127)) - tk ((3 * (tA [(R.clkStat_TPLL_LOCK, 1), (R.clkStat_TB_VALID, 1), (R.senseCfg_EN 127, 1), (R.senseMclk_EN 0, 1)]).fld (R.senseCfg_S3_OSR 127) - 2) * chanTm (tA [(R.clkStat_TPLL_LOCK, 1), (R.clkStat_TB_VALID, 1), (R.senseCfg_EN 127, 1), (R.senseMclk_EN 0, 1)]) 127 / 2) }, by decide +kernel, by decide +kernel, by decide +kernel, by decide +kernel, rfl, by decide +kernel⟩,
   ⟨(tA [(R.clkStat_TPLL_LOCK, 1), (R.clkStat_TB_VALID, 1), (R.senseCfg_EN 127, 1), (R.senseMclk_EN 0, 1)]).setFrc (R.senseOc 127) 0x8101017F#32, 127, [true], 0, 1, by decide +kernel⟩,
   ⟨((tA [(R.clkStat_TPLL_LOCK, 1), (R.clkStat_TB_VALID, 1), (R.senseCfg_EN 127, 1), (R.senseMclk_EN 0, 1)]).setFrc (R.senseOc 127) 0x8101017F#32).setChS 127 { ocOn := true }, 127, [true], 0, 1, by decide +kernel⟩,
   ⟨(tA [(R.clkStat_TPLL_LOCK, 1), (R.clkStat_TB_VALID, 1), (R.senseCfg_EN 127, 1), (R.senseMclk_EN 0, 1)]).setFrc (R.senseOc 127) 0x81010101#32, 127, [], 640, by decide +kernel⟩,
   ⟨tA [(R.clkStat_TPLL_LOCK, 1), (R.clkStat_TB_VALID, 1), (R.senseCfg_EN 127, 1), (R.senseMclk_EN 0, 1), (R.senseLoss_LOSSRUN 127, 2), (R.senseCfg_LOSS_ACT 127, 0)], 127, [true, true], by decide +kernel⟩,
   ⟨tA [(R.clkStat_TPLL_LOCK, 1), (R.clkStat_TB_VALID, 1), (R.senseCfg_EN 127, 1), (R.senseMclk_EN 0, 1), (R.senseStat_LOST 127, 1)], 127, by decide +kernel⟩,
   ⟨tA [(R.clkStat_TPLL_LOCK, 1), (R.clkStat_TB_VALID, 1), (R.senseCfg_EN 127, 1), (R.senseMclk_EN 0, 1)], 127, by decide +kernel⟩,
   ⟨tA [(R.clkStat_TPLL_LOCK, 1), (R.clkStat_TB_VALID, 1), (R.senseCfg_EN 127, 1), (R.senseMclk_EN 0, 1)], 127, by decide +kernel⟩,
   ⟨(tF []).withSense { cal := some (127, 2) }, 127, 2, by decide +kernel⟩,
   ⟨tA [(R.clkStat_TPLL_LOCK, 1)], 11, 0x80140000#32, by decide +kernel⟩⟩

/-- Inputs that meet the hypotheses of `Obligations.Feedback_Channels`, clause by clause. -/
theorem witness_Feedback_Channels :
  (∃ (s : State) (c : Fin 128) (p : SensePost), senseGated s = false ∧ s.sense.posts.find? (fun x => x.ch == c.val) = some p) ∧
  (∃ (s : State) (n : Fin 16) (w : Nat), w < s.fld (R.fdbkCfg_FILT n.val)) ∧
  (∃ (s : State) (u : State) (n : Fin 16) (a : Bool) (b : Bool) (t : Tick) (w : Nat), u = huskEdge (s.at t) n.val a b ∧ s.fld (R.fdbkCfg_FILT n.val) ≤ w ∧ (u.flag (R.fdbkCfg_EN n.val) = false ∨ quadStep (u.fb n.val).a (u.fb n.val).b a b = 0)) ∧
  (∃ (s : State) (u : State) (n : Fin 16) (a : Bool) (b : Bool) (t : Tick) (w : Nat), u = huskEdge (s.at t) n.val a b ∧ s.fld (R.fdbkCfg_FILT n.val) ≤ w ∧ u.flag (R.fdbkCfg_EN n.val) = true ∧ (fbMode u n.val = 0 ∨ fbMode u n.val = 2) ∧ (quadStep (u.fb n.val).a (u.fb n.val).b a b = 1 ∨ quadStep (u.fb n.val).a (u.fb n.val).b a b = 3)) ∧
  (∃ (s : State) (u : State) (n : Fin 16) (a : Bool) (b : Bool) (t : Tick) (w : Nat), u = huskEdge (s.at t) n.val a b ∧ s.fld (R.fdbkCfg_FILT n.val) ≤ w ∧ u.flag (R.fdbkCfg_EN n.val) = true ∧ (fbMode u n.val = 0 ∨ fbMode u n.val = 2) ∧ quadStep (u.fb n.val).a (u.fb n.val).b a b = 2) ∧
  (∃ (s : State) (v : State) (n : Fin 16) (t : Tick) (w : Nat), s.fld (R.fdbkCfg_FILT n.val) ≤ w ∧ v = s.at t ∧ v.flag (R.fdbkCfg_EN n.val) = true ∧ (v.fld (R.fdbkCfg_ZMODE n.val) = 2 ∨ (v.fld (R.fdbkCfg_ZMODE n.val) = 1 ∧ (v.fb n.val).zarm = true)) ∧ v.fld (R.fdbkCfg_ZGATE n.val) = b2n (v.fb n.val).a * 2 + b2n (v.fb n.val).b) ∧
  (∃ (s : State) (n : Fin 16) (t : Tick) (f : Bool), s.flag (R.fdbkCfg_EN n.val) = true ∧ fbMode s n.val = 1 ∧ tbValid s = true ∧ (s.grp (fbGrp s n.val)).next = some (t, f)) ∧
  (∃ (s : State) (n : Fin 16), regReady s (R.fdbkCtrl n.val) = true ∧ fbState s n.val = 3 ∧ (s.fb n.val).cond = false) ∧
  (∃ (s : State) (n : Fin 16), regReady s (R.fdbkCtrl n.val) = true ∧ fbState s n.val ≠ 3) ∧
  (∃ (s : State) (n : Fin 16), regReady s (R.fdbkCtrl n.val) = true ∧ s.fld (R.fdbkCfg_ZMODE n.val) = 1) ∧
  (∃ (s : State) (n : Fin 16), regReady s (R.fdbkCtrl n.val) = true ∧ s.fld (R.fdbkCfg_ZMODE n.val) ≠ 1) :=
  ⟨⟨(tA [(R.clkStat_TPLL_LOCK, 1), (R.clkStat_TB_VALID, 1), (R.senseCfg_EN 127, 1), (R.senseMclk_EN 0, 1)]).withSense { (tA [(R.clkStat_TPLL_LOCK, 1), (R.clkStat_TB_VALID, 1), (R.senseCfg_EN 127, 1), (R.senseMclk_EN 0, 1)]).sense with posts := [{ ch := 127, b := false, grp := 7, t0 := 0, t1 := 0, gain := 0#32, offset := 0#32, delay := 0, lost := false }] }, 127, { ch := 127, b := false, grp := 7, t0 := 0, t1 := 0, gain := 0#32, offset := 0#32, delay := 0, lost := false }, by decide +kernel⟩,
   ⟨tF [(R.fdbkCfg_EN 15, 1), (R.fdbkCfg_FILT 15, 5)], 15, 4, by decide +kernel⟩,
   ⟨tF [], _, 15, true, true, 800, 0, rfl, by decide +kernel⟩,
   ⟨tF [(R.fdbkCfg_EN 15, 1)], _, 15, true, false, 800, 0, rfl, by decide +kernel⟩,
   ⟨tF [(R.fdbkCfg_EN 15, 1)], _, 15, true, true, 800, 0, rfl, by decide +kernel⟩,
   ⟨tF [(R.fdbkCfg_EN 15, 1), (R.fdbkCfg_ZMODE 15, 2), (R.fdbkCfg_ZGATE 15, 0)], _, 15, 5, 0, by decide +kernel, rfl, by decide +kernel⟩,
   ⟨(tF [(R.fdbkCfg_EN 15, 1), (R.fdbkCfg_MODE 15, 1), (R.clkStat_TB_VALID, 1)]).setGrp 0 { next := some (5, true) }, 15, 5, true, by decide +kernel⟩,
   ⟨tA [(R.clkStat_TPLL_LOCK, 1), (R.fdbkStat_STATE 15, 3)], 15, by decide +kernel⟩,
   ⟨tA [(R.clkStat_TPLL_LOCK, 1)], 15, by decide +kernel⟩,
   ⟨tA [(R.clkStat_TPLL_LOCK, 1), (R.fdbkCfg_ZMODE 15, 1)], 15, by decide +kernel⟩,
   ⟨tA [(R.clkStat_TPLL_LOCK, 1)], 15, by decide +kernel⟩⟩

/-- Inputs that meet the hypotheses of `Obligations.Latch_Units`, clause by clause. -/
theorem witness_Latch_Units :
  (∃ (s : State) (v : State) (pin : Fin 8) (u : Nat) (rising : Bool) (ts : Tick) (t : Tick) (w : Nat), v = s.at ts ∧ latchUnits v 1 pin.val = [u] ∧ v.fld (R.latchCfg_FILT u) ≤ w ∧ v.flag (R.latchCfg_EN u) = true ∧ t = ts - tk (latchPath v u) - tk (v.fld (R.latchDly_LDLY u)) ∧ latchSel v u rising = true ∧ v.flag (R.latchStat_ARMED u) = true ∧ (latchOpen v u = true ∨ (v.reg64 (R.latchWstartLo u) ≤ t ∧ t < v.reg64 (R.latchWendLo u))) ∧ (v.lu u).lastCap.all (fun c => decide (t < c) || decide (v.fld (R.latchDly_CHAT u) * usTicks ≤ (t - c).toNat)) = true) ∧
  (∃ (s : State) (v : State) (pin : Fin 8) (u : Nat) (ts : Tick) (t : Tick) (w : Nat) (c : Tick), v = s.at ts ∧ latchUnits v 1 pin.val = [u] ∧ v.fld (R.latchCfg_FILT u) ≤ w ∧ v.flag (R.latchCfg_EN u) = true ∧ t = ts - tk (latchPath v u) - tk (v.fld (R.latchDly_LDLY u)) ∧ (v.lu u).lastCap = some c ∧ c ≤ t ∧ (t - c).toNat < v.fld (R.latchDly_CHAT u) * usTicks) ∧
  (∃ (s : State) (pin : Fin 8) (ts : Tick) (w : Nat), (∀ u ∈ latchUnits (s.at ts) 1 pin.val, w < (s.at ts).fld (R.latchCfg_FILT u))) ∧
  (∃ (s : State) (u : Fin 64), s.flag (R.latchCfg_EN u.val) = true ∧ s.flag (R.latchStat_ARMED u.val) = true ∧ s.fld (R.latchCfg_SRCK u.val) = 2 ∧ s.dt ≤ s.reg64 (R.latchWstartLo u.val)) ∧
  (∃ (s : State) (u : Fin 64), s.flag (R.latchStat_ARMED u.val) = true ∧ s.fld (R.latchCfg_MODE u.val) = 0 ∧ latchOpen s u.val = false) ∧
  (∃ (s : State) (u : Fin 64) (t : Tick) (ts : List Tick), (s.lu u.val).waits = t :: ts ∧ latchReady s u.val t = true) ∧
  (∃ (s : State) (u : Fin 64), regReady s (R.latchCtrl u.val) = true ∧ s.flag (R.latchStat_OWNED u.val) = false ∧ s.flag (R.latchCfg_EN u.val) = true) ∧
  (∃ (s : State) (u : Fin 64), regReady s (R.latchCtrl u.val) = true ∧ s.flag (R.latchStat_OWNED u.val) = false) :=
  ⟨⟨tF [(R.latchCfg_SRCK 63, 1), (R.latchCfg_SRC 63, 7), (R.latchCfg_EDGE 63, 3), (R.latchCfg_EN 63, 1), (R.latchStat_ARMED 63, 1)], _, 7, 63, true, 50000, _, 0, rfl, by decide +kernel, by decide +kernel, by decide +kernel, rfl, by decide +kernel⟩,
   ⟨(tF [(R.latchCfg_SRCK 63, 1), (R.latchCfg_SRC 63, 7), (R.latchCfg_EDGE 63, 3), (R.latchCfg_EN 63, 1), (R.latchStat_ARMED 63, 1), (R.latchDly_CHAT 63, 1)]).setLu 63 { lastCap := some 40000 }, _, 7, 63, 50000, _, 0, 40000, rfl, by decide +kernel, by decide +kernel, by decide +kernel, rfl, by decide +kernel⟩,
   ⟨tF [(R.latchCfg_SRCK 63, 1), (R.latchCfg_SRC 63, 7), (R.latchCfg_EDGE 63, 3), (R.latchCfg_EN 63, 1), (R.latchStat_ARMED 63, 1), (R.latchCfg_FILT 63, 1)], 7, 50000, 0, by decide +kernel⟩,
   ⟨tF [(R.latchCfg_SRCK 63, 2), (R.latchCfg_EN 63, 1), (R.latchStat_ARMED 63, 1)], 63, by decide +kernel⟩,
   ⟨tF [(R.latchStat_ARMED 63, 1), (R.latchWendLo_VALUE 63, 5)], 63, by decide +kernel⟩,
   ⟨(tF []).setLu 63 { waits := [5] }, 63, 5, [], by decide +kernel⟩,
   ⟨tA [(R.clkStat_TPLL_LOCK, 1), (R.latchCfg_EN 63, 1)], 63, by decide +kernel⟩,
   ⟨tA [(R.clkStat_TPLL_LOCK, 1)], 63, by decide +kernel⟩⟩

/-- Inputs that meet the hypotheses of `Obligations.Passes_Compute`, clause by clause. -/
theorem witness_Passes_Compute :
  (∃ (s : State) (slot : Fin 256) (a : List Run) (b : List Run) (r : Run), s.loop.runs = a ++ r :: b ∧ r.slot = slot.val ∧ r.out = none ∧ (∀ x ∈ a ++ b, x.slot ≠ slot.val) ∧ ((s.ctx slot.val).kind = 1 ∨ (s.ctx slot.val).kind = 2)) ∧
  (∃ (s : State) (slot : Fin 256) (a : List Run) (b : List Run) (r : Run), s.loop.runs = a ++ r :: b ∧ r.slot = slot.val ∧ r.out = none ∧ (∀ x ∈ a ++ b, x.slot ≠ slot.val) ∧ (s.ctx slot.val).kind = 3) ∧
  (∃ (s : State) (slot : Fin 256) (a : List Run) (b : List Run) (r : Run), s.loop.runs = a ++ r :: b ∧ r.slot = slot.val ∧ r.out = none ∧ (∀ x ∈ a ++ b, x.slot ≠ slot.val) ∧ (s.ctx slot.val).kind = 4) ∧
  (∃ (s : State) (slot : Fin 256) (a : List Run) (b : List Run) (r : Run), s.loop.runs = a ++ r :: b ∧ r.slot = slot.val ∧ r.out = none ∧ (∀ x ∈ a ++ b, x.slot ≠ slot.val) ∧ (s.ctx slot.val).kind = 5) ∧
  (∃ (s : State) (slot : Fin 256) (a : List Run) (b : List Run) (r : Run), s.loop.runs = a ++ r :: b ∧ r.slot = slot.val ∧ r.out = none ∧ (∀ x ∈ a ++ b, x.slot ≠ slot.val) ∧ (s.ctx slot.val).kind = 6) ∧
  (∃ (s : State) (slot : Fin 256) (a : List Run) (b : List Run) (r : Run), s.loop.runs = a ++ r :: b ∧ r.slot = slot.val ∧ r.out = none ∧ (∀ x ∈ a ++ b, x.slot ≠ slot.val) ∧ ((s.ctx slot.val).kind = 9 ∨ (s.ctx slot.val).kind = 10)) ∧
  (∃ (s : State) (slot : Fin 256) (a : List Run) (b : List Run) (r : Run), s.loop.runs = a ++ r :: b ∧ r.slot = slot.val ∧ r.out = none ∧ (∀ x ∈ a ++ b, x.slot ≠ slot.val) ∧ (s.ctx slot.val).kind = 11) ∧
  (∃ (s : State) (slot : Fin 256) (a : List Run) (b : List Run) (r : Run), s.loop.runs = a ++ r :: b ∧ r.slot = slot.val ∧ r.out = none ∧ (∀ x ∈ a ++ b, x.slot ≠ slot.val) ∧ (s.ctx slot.val).kind = 12) ∧
  (∃ (s : State) (slot : Fin 256) (a : List Run) (b : List Run) (r : Run), s.loop.runs = a ++ r :: b ∧ r.slot = slot.val ∧ r.out = none ∧ (∀ x ∈ a ++ b, x.slot ≠ slot.val) ∧ (s.ctx slot.val).kind = 13) :=
  ⟨⟨((tF []).setCtx 255 { kind := 2 }).withRuns [{ slot := 255, grp := 0, seq := 0#32 }], 255, [], [], { slot := 255, grp := 0, seq := 0#32 }, by decide⟩,
   ⟨((tF []).setCtx 255 { kind := 3 }).withRuns [{ slot := 255, grp := 0, seq := 0#32 }], 255, [], [], { slot := 255, grp := 0, seq := 0#32 }, by decide⟩,
   ⟨((tF []).setCtx 255 { kind := 4 }).withRuns [{ slot := 255, grp := 0, seq := 0#32 }], 255, [], [], { slot := 255, grp := 0, seq := 0#32 }, by decide⟩,
   ⟨((tF []).setCtx 255 { kind := 5 }).withRuns [{ slot := 255, grp := 0, seq := 0#32 }], 255, [], [], { slot := 255, grp := 0, seq := 0#32 }, by decide⟩,
   ⟨((tF []).setCtx 255 { kind := 6 }).withRuns [{ slot := 255, grp := 0, seq := 0#32 }], 255, [], [], { slot := 255, grp := 0, seq := 0#32 }, by decide⟩,
   ⟨((tF []).setCtx 255 { kind := 10 }).withRuns [{ slot := 255, grp := 0, seq := 0#32 }], 255, [], [], { slot := 255, grp := 0, seq := 0#32 }, by decide⟩,
   ⟨((tF []).setCtx 255 { kind := 11 }).withRuns [{ slot := 255, grp := 0, seq := 0#32 }], 255, [], [], { slot := 255, grp := 0, seq := 0#32 }, by decide⟩,
   ⟨((tF []).setCtx 255 { kind := 12 }).withRuns [{ slot := 255, grp := 0, seq := 0#32 }], 255, [], [], { slot := 255, grp := 0, seq := 0#32 }, by decide⟩,
   ⟨((tF []).setCtx 255 { kind := 13 }).withRuns [{ slot := 255, grp := 0, seq := 0#32 }], 255, [], [], { slot := 255, grp := 0, seq := 0#32 }, by decide⟩⟩

/-- Inputs that meet the hypotheses of `Obligations.Winding_Commands`, clause by clause. -/
theorem witness_Winding_Commands :
  (∃ (s : State) (r : Request), s.served ∧ r.params = [] ∧ slotCheck s r.target [1, 2, 3, 4] = none ∧ huskEn s = true ∧ s.flag R.cfgStat_SAFE_CFG_FAULT = false ∧ safeLocked s = false ∧ windState s r.target = 2) ∧
  (∃ (s : State) (r : Request), s.served ∧ r.params = [] ∧ slotCheck s r.target [1, 2, 3, 4] = none ∧ huskEn s = true ∧ s.flag R.cfgStat_SAFE_CFG_FAULT = false ∧ safeLocked s = false ∧ windState s r.target ≠ 2 ∧ grpState s (s.ctx r.target).grp ≠ 0 ∧ (ownedSet s r.target).isSome = true ∧ angleBound s r.target = true ∧ windLatched s r.target = false) ∧
  (∃ (s : State) (r : Request) (w : Word), s.served ∧ r.params = [w] ∧ slotCheck s r.target [1, 2, 3, 4] = none ∧ bitsOf w 0 2 ≠ 3) ∧
  (∃ (s : State) (slot : Fin 256), isWinding (s.ctx slot.val).kind = true ∧ windState s slot.val = 1 ∧ bitsOf (s.cp slot.val 26) 0 16 ≤ (s.wind slot.val).fr) ∧
  (∃ (s : State) (slot : Fin 256), isWinding (s.ctx slot.val).kind = true ∧ windState s slot.val = 3 ∧ bitsOf (s.cp slot.val 26) 16 16 ≤ (s.wind slot.val).fr) ∧
  (∃ (s : State) (r : Request) (p : Word) (i : Word) (w : Word), s.served ∧ r.params = [p, i, w] ∧ r.target ≤ 255 ∧ (s.ctx r.target).kind = 2 ∧ bitsOf p 0 2 ≠ 0 ∧ badF32 i = false ∧ badF32 w = false ∧ 0 ≤ ratOf i ∧ ratOf i ≤ s.cpR r.target 13 ∧ windState s r.target = 2 ∧ grpState s (s.ctx r.target).grp = 1 ∧ ((∀ m ∈ machineOf s (curBind s) r.target, ∀ x ∈ bMembers (s.ctx m).bind, x ≠ r.target → windState s x ≠ 2))) ∧
  (∃ (s : State) (slot : Fin 256) (d : IdentS) (code : Nat), (s.wind slot.val).ident = some d ∧ identStop s slot.val d = some code ∧ code ≠ 0) ∧
  (∃ (s : State) (slot : Fin 256) (d : IdentS) (code : Nat), (s.wind slot.val).ident = some d ∧ identStop s slot.val d = some code ∧ code = 0 ∧ d.mode = 1) ∧
  (∃ (s : State) (slot : Fin 256) (d : IdentS) (code : Nat), (s.wind slot.val).ident = some d ∧ identStop s slot.val d = some code ∧ code = 0 ∧ d.mode ≠ 1) :=
  ⟨⟨((tF [(R.nibGlob_HUSK_EN, 1), (R.safeState_MODE, 1), (R.nibGstate_STATE 0, 1)]).setCtx 255 { kind := 4 }).setCw 255 64 0x20000000#32, tR 255 [], by decide +kernel⟩,
   ⟨(tF [(R.nibGlob_HUSK_EN, 1), (R.safeState_MODE, 1), (R.nibGstate_STATE 0, 1)]).setCtx 255 { kind := 4, bind := [0#32, 0#32, 0#32] }, tR 255 [], by decide +kernel⟩,
   ⟨(tF []).setCtx 255 { kind := 4 }, tR 255 [2#32], 2#32, by decide +kernel⟩,
   ⟨((tF []).setCtx 255 { kind := 4 }).setCw 255 64 0x10000000#32, 255, by decide +kernel⟩,
   ⟨((tF []).setCtx 255 { kind := 4 }).setCw 255 64 0x30000000#32, 255, by decide +kernel⟩,
   ⟨((tF [(R.nibGstate_STATE 0, 1)]).setCtx 255 { kind := 2 }).setCw 255 64 0x20000000#32, tR 255 [1#32, 0#32, 0#32], 1#32, 0#32, 0#32, by decide +kernel⟩,
   ⟨(tF []).setCtx 255 { kind := 2, st := .wind { ident := some { mode := 1, iId := 0#32, still := 0#32 } } }, 255, { mode := 1, iId := 0#32, still := 0#32 }, 3, by decide +kernel⟩,
   ⟨((tF [(R.nibGstate_STATE 0, 1)]).setCtx 255 { kind := 2, st := .wind { ident := some { mode := 1, iId := 0#32, still := 0#32, n := 65536 } } }).setCw 255 64 0x20000000#32, 255, { mode := 1, iId := 0#32, still := 0#32, n := 65536 }, _, by decide +kernel, by decide +kernel, rfl, by decide +kernel⟩,
   ⟨((tF [(R.nibGstate_STATE 0, 1)]).setCtx 255 { kind := 2, st := .wind { ident := some { mode := 2, iId := 0#32, still := 0#32, n := 65536 } } }).setCw 255 64 0x20000000#32, 255, { mode := 2, iId := 0#32, still := 0#32, n := 65536 }, _, by decide +kernel, by decide +kernel, rfl, by decide +kernel⟩⟩

/-- Inputs that meet the hypotheses of `Obligations.Map_And_Cam_Stores`, clause by clause. -/
theorem witness_Map_And_Cam_Stores :
  (∃ (s : State) (m : Fin 64), mapValid s m.val = true ∧ mapKind s m.val = 1 ∧ mapGroups s m.val = []) ∧
  (∃ (s : State) (m : Fin 64), mapValid s m.val = true ∧ mapKind s m.val = 1 ∧ mapGroups s m.val ≠ []) ∧
  (∃ (s : State) (m : Fin 64) (k : Nat), mapValid s m.val = true ∧ mapKind s m.val = 1 ∧ mapGroups s m.val = [] ∧ s.slots.find? (fun k => (ctxMaps s k).headD 0xFF == m.val) = some k) ∧
  (∃ (s : State) (r : Request) (p : Word) (x0 : Word) (span : Word) (rise : Word), s.served ∧ r.params = [p, x0, span, rise] ∧ r.target ≤ 31 ∧ bitsOf p 30 2 = 0 ∧ bitsOf p 12 16 = 0 ∧ 2 ≤ bitsOf p 0 12 ∧ bitsOf p 0 12 ≤ 2048 ∧ badF32 x0 = false ∧ badF32 span = false ∧ badF32 rise = false ∧ 0 < ratOf span ∧ ((bitOf p 29 = true ∨ ratOf rise = 0)) ∧ s.fld (R.camDir_USERS r.target) = 0 ∧ (camLoadOpen s = none ∨ camLoadOpen s = some r.target)) ∧
  (∃ (s : State) (r : Request) (p : Word) (pts : List Word), s.served ∧ r.params = p :: pts ∧ pts ≠ [] ∧ pts.any badF32 = false ∧ r.target ≤ 31 ∧ bitsOf p 30 2 = 1 ∧ bitsOf p 12 18 = 0 ∧ camLoadOpen s = some r.target ∧ bitsOf p 0 12 = s.fld R.camLoadst_NEXT ∧ bitsOf p 0 12 + pts.length ≤ s.fld (R.camDir_N r.target)) ∧
  (∃ (s : State) (r : Request) (p : Word), s.served ∧ r.params = [p] ∧ r.target ≤ 31 ∧ bitsOf p 30 2 = 2 ∧ bitsOf p 0 30 = 0 ∧ camLoadOpen s = some r.target ∧ s.fld (R.camDir_N r.target) ≤ s.fld R.camLoadst_NEXT) :=
  ⟨⟨tF [(R.mapDir_VALID 63, 1), (R.mapDir_KIND 63, 1)], 63, by decide +kernel⟩,
   ⟨((tF [(R.mapDir_VALID 63, 1), (R.mapDir_KIND 63, 1)]).setCtx 255 { kind := 2, grp := 7, committed := true }).setFrc (ctxAddr 255 8) 0x3F000000#32, 63, by decide +kernel⟩,
   ⟨((tF [(R.mapDir_VALID 63, 1), (R.mapDir_KIND 63, 1)]).setCtx 255 { kind := 2, grp := 7 }).setFrc (ctxAddr 255 8) 0x3F000000#32, 63, 255, by decide +kernel⟩,
   ⟨tF [], tR 31 [2#32, 0#32, 0x3F800000#32, 0#32], 2#32, 0#32, 0x3F800000#32, 0#32, by decide +kernel⟩,
   ⟨tF [(R.camLoadst_OPEN, 1), (R.camLoadst_TARGET, 31), (R.camDir_N 31, 2)], tR 31 [0x40000000#32, 0#32, 0#32], 0x40000000#32, [0#32, 0#32], by decide +kernel⟩,
   ⟨tF [(R.camLoadst_OPEN, 1), (R.camLoadst_TARGET, 31), (R.camDir_N 31, 2), (R.camLoadst_NEXT, 2)], tR 31 [0x80000000#32], 0x80000000#32, by decide +kernel⟩⟩

/-- Inputs that meet the hypotheses of `Obligations.Axis_Motion_Starts`, clause by clause. -/
theorem witness_Axis_Motion_Starts :
  (∃ (s : State) (r : Request) (x : Tick) (m : MoveReq), s.served ∧ r.params.length = 7 ∧ slotCheck s r.target [7, 8] = none ∧ (s.ctx r.target).kind = 8 ∧ axisMode s r.target = 0 ∧ ((∀ i, i < 4 → limCheck s r.target (3 + i) (r.p (3 + i)) = none)) ∧ (axisEff s r.target).st = 1 ∧ x = (s.axis r.target).x ∧ m = moveOf r.params x ∧ swRefuses (swLimits (s.cp r.target)) x m.tgt = false ∧ towardLimit s r.target x m.tgt = false) ∧
  (∃ (s : State) (r : Request) (x : Tick) (m : MoveReq), s.served ∧ r.params.length = 7 ∧ slotCheck s r.target [7, 8] = none ∧ (s.ctx r.target).kind = 8 ∧ axisMode s r.target = 0 ∧ ((∀ i, i < 4 → limCheck s r.target (3 + i) (r.p (3 + i)) = none)) ∧ ((axisEff s r.target).st ∈ [2, 6, 7, 8] ∨ ((axisEff s r.target).st = 5 ∧ (axisEff s r.target).ab = false) ∨ ((axisEff s r.target).st = 1 ∧ (s.ctx r.target).queue ≠ [])) ∧ x = lastTarget s r.target ∧ m = moveOf r.params x ∧ swRefuses (swLimits (s.cp r.target)) x m.tgt = false ∧ towardLimit s r.target x m.tgt = false ∧ (s.ctx r.target).queue.length < 4) ∧
  (∃ (s : State) (r : Request) (w : Word), s.served ∧ r.params = [w] ∧ slotCheck s r.target [7, 8] = none ∧ (s.ctx r.target).kind = 8 ∧ badF32 w = false ∧ absR (ratOf w) ≤ ratOf (s.cw r.target 3) ∧ (¬ (0 < ratOf w ∧ hardLimit s r.target true = true)) ∧ (¬ (ratOf w < 0 ∧ hardLimit s r.target false = true)) ∧ ((axisEff s r.target).st = 1 ∨ (axisEff s r.target).st = 3)) ∧
  (∃ (s : State) (r : Request) (m : Nat) (ofs : Tick), s.served ∧ r.params.length = 6 ∧ slotCheck s r.target [7, 8] = none ∧ (s.ctx r.target).kind = 8 ∧ m = bitsOf (r.p 0) 0 4 ∧ m < 12 ∧ (axisMode s r.target = 0 ∨ m = 0) ∧ limCheck s r.target 3 (r.p 3) = none ∧ limCheck s r.target 3 (r.p 4) = none ∧ (axisEff s r.target).st = 1 ∧ ofs = join64 (r.p 1) (r.p 2) ∧ swRefuses (swLimits (s.cp r.target)) ofs ofs = false ∧ homeLacks s r.target m = false ∧ homeLatch m = false) ∧
  (∃ (s : State) (r : Request) (m : Nat) (ofs : Tick) (u : _), s.served ∧ r.params.length = 6 ∧ slotCheck s r.target [7, 8] = none ∧ (s.ctx r.target).kind = 8 ∧ m = bitsOf (r.p 0) 0 4 ∧ m < 12 ∧ (axisMode s r.target = 0 ∨ m = 0) ∧ limCheck s r.target 3 (r.p 3) = none ∧ limCheck s r.target 3 (r.p 4) = none ∧ (axisEff s r.target).st = 1 ∧ ofs = join64 (r.p 1) (r.p 2) ∧ swRefuses (swLimits (s.cp r.target)) ofs ofs = false ∧ homeLacks s r.target m = false ∧ homeLatch m = true ∧ u = bLatch (curBind s r.target) ∧ s.flag (R.latchStat_OWNED u) = false) :=
  ⟨⟨tX 1, tR 255 [0#32, 5#32, 0#32, 0x3F800000#32, 0x3F800000#32, 0x3F800000#32, 0x3F800000#32], _, _, by decide +kernel, by decide +kernel, by decide +kernel, by decide +kernel, by decide +kernel, by decide +kernel, by decide +kernel, rfl, rfl, by decide +kernel⟩,
   ⟨tX 2, tR 255 [0#32, 5#32, 0#32, 0x3F800000#32, 0x3F800000#32, 0x3F800000#32, 0x3F800000#32], _, _, by decide +kernel, by decide +kernel, by decide +kernel, by decide +kernel, by decide +kernel, by decide +kernel, by decide +kernel, rfl, rfl, by decide +kernel⟩,
   ⟨tX 1, tR 255 [0x3F800000#32], 0x3F800000#32, by decide +kernel⟩,
   ⟨tX 1, tR 255 [0#32, 0#32, 0#32, 0x3F800000#32, 0x3F800000#32, 0#32], _, _, by decide +kernel, by decide +kernel, by decide +kernel, by decide +kernel, rfl, by decide +kernel, by decide +kernel, by decide +kernel, by decide +kernel, by decide +kernel, rfl, by decide +kernel⟩,
   ⟨(tX 1).setCtx 255 { (tX 1).ctx 255 with bind := [0#32, 0x80000000#32, 0x3F#32, 0x001FFFFF#32] }, tR 255 [2#32, 0#32, 0#32, 0x3F800000#32, 0x3F800000#32, 0#32], _, _, _, by decide +kernel, by decide +kernel, by decide +kernel, by decide +kernel, rfl, by decide +kernel, by decide +kernel, by decide +kernel, by decide +kernel, by decide +kernel, rfl, by decide +kernel, by decide +kernel, by decide +kernel, rfl, by decide +kernel⟩⟩

/-- Inputs that meet the hypotheses of `Obligations.Axis_Stops_And_Settings`, clause by clause. -/
theorem witness_Axis_Stops_And_Settings :
  (∃ (s : State) (r : Request), s.served ∧ r.params = [] ∧ slotCheck s r.target [7, 8] = none ∧ (axisEff s r.target).st ∈ [2, 3, 4, 10]) ∧
  (∃ (s : State) (r : Request), s.served ∧ r.params = [] ∧ slotCheck s r.target [7, 8] = none ∧ (axisEff s r.target).st ∈ [1, 5, 6, 7, 8]) ∧
  (∃ (s : State) (r : Request), s.served ∧ r.params = [] ∧ slotCheck s r.target [7, 8] = none ∧ (axisEff s r.target).st ∈ [2, 3, 4, 5, 10]) ∧
  (∃ (s : State) (r : Request), s.served ∧ r.params = [] ∧ slotCheck s r.target [7, 8] = none ∧ (axisEff s r.target).st ∈ [1, 6, 7, 8]) ∧
  (∃ (s : State) (r : Request), s.served ∧ r.params = [] ∧ slotCheck s r.target [7, 8] = none ∧ (axisEff s r.target).st ≠ 1) ∧
  (∃ (s : State) (r : Request), s.served ∧ r.params = [] ∧ slotCheck s r.target [7, 8] = none ∧ (axisEff s r.target).st = 1) ∧
  (∃ (s : State) (r : Request), s.served ∧ r.params = [] ∧ slotCheck s r.target [7, 8] = none ∧ (axisEff s r.target).st ∈ [1, 2, 3]) ∧
  (∃ (s : State) (r : Request), s.served ∧ r.params = [] ∧ slotCheck s r.target [7, 8] = none ∧ ((axisEff s r.target).st = 6 ∨ ((axisEff s r.target).st = 5 ∧ (axisEff s r.target).ab = false) ∨ ((axisEff s r.target).st = 9 ∧ faultGone s r.target = true)) ∧ (∀ m ∈ (s.axis r.target).tgt, towardLimit s r.target (s.axis r.target).x m.tgt = false) ∧ (((s.axis r.target).tgt = none → (s.axis r.target).jog.any (fun w => (decide (0 < ratOf w) && hardLimit s r.target true) || (decide (ratOf w < 0) && hardLimit s r.target false)) = false))) ∧
  (∃ (s : State) (u : State) (r : Request) (mask : Word) (vals : List Word) (ws : List (Nat × Word)), s.served ∧ r.params = mask :: vals ∧ slotCheck s r.target [7, 8] = none ∧ mask.toNat < 128 ∧ vals.length = (limitWords mask.toNat).length ∧ ((∀ p ∈ (limitWords mask.toNat).zip vals, p.1 < 27 → badF32 p.2 = false ∧ 0 ≤ ratOf p.2 ∧ (p.1 = 8 ∨ ratOf p.2 ≠ 0))) ∧ ws = ((limitWords mask.toNat).zip vals).map (fun p => (p.1, if 27 ≤ p.1 then p.2 else f32Flush p.2)) ∧ u = ws.foldl (fun t p => t.setCw r.target p.1 p.2) s ∧ ratOf (u.cw r.target 5) ≤ ratOf (u.cw r.target 7) ∧ (((axisEff s r.target).st ≠ 7 ∧ (axisEff s r.target).st ≠ 8) ∨ mask.toNat.testBit 4 = false ∧ mask.toNat.testBit 5 = false)) ∧
  (∃ (s : State) (r : Request) (lo : Word) (hi : Word), s.served ∧ r.params = [lo, hi] ∧ slotCheck s r.target [7, 8] = none ∧ ((axisEff s r.target).st = 0 ∨ (axisEff s r.target).st = 1)) ∧
  (∃ (s : State) (slot : Fin 256) (h : HomeS) (t : Tick), (s.axis slot.val).home = some h ∧ h.tmo = some t ∧ axisState s slot.val = 10 ∧ (s.axis slot.val).step < 6) ∧
  (∃ (s : State) (slot : Fin 256) (a : List Run) (b : List Run) (r : Run), s.loop.runs = a ++ r :: b ∧ r.slot = slot.val ∧ r.out = none ∧ (∀ x ∈ a ++ b, x.slot ≠ slot.val) ∧ ((s.ctx slot.val).kind = 7 ∨ (s.ctx slot.val).kind = 8)) :=
  ⟨⟨tX 10, tR 255 [], by decide +kernel⟩,
   ⟨tX 5, tR 255 [], by decide +kernel⟩,
   ⟨tX 10, tR 255 [], by decide +kernel⟩,
   ⟨tX 7, tR 255 [], by decide +kernel⟩,
   ⟨tX 9, tR 255 [], by decide +kernel⟩,
   ⟨tX 1, tR 255 [], by decide +kernel⟩,
   ⟨tX 3, tR 255 [], by decide +kernel⟩,
   ⟨(tX 6).setSt 255 (.axis { (tX 6).axis 255 with tgt := some { tgt := 5 } }), tR 255 [], by decide +kernel⟩,
   ⟨tX 1, _, tR 255 [1#32, 0x3F800000#32], 1#32, [0x3F800000#32], _, by decide +kernel, by decide +kernel, by decide +kernel, by decide +kernel, by decide +kernel, by decide +kernel, rfl, rfl, by decide +kernel⟩,
   ⟨tX 0, tR 255 [5#32, 0#32], 5#32, 0#32, by decide +kernel⟩,
   ⟨(tX 10).setSt 255 (.axis { (tX 10).axis 255 with home := some { method := 0, ofs := 0, vs := 0#32, vc := 0#32, tmo := some 5, neg := true } }), 255, { method := 0, ofs := 0, vs := 0#32, vc := 0#32, tmo := some 5, neg := true }, 5, by decide +kernel⟩,
   ⟨((tF []).setCtx 255 { kind := 7 }).withRuns [{ slot := 255, grp := 0, seq := 0#32 }], 255, [], [], { slot := 255, grp := 0, seq := 0#32 }, by decide +kernel⟩⟩

/-- Inputs that meet the hypotheses of `Obligations.Gears_And_Strokes`, clause by clause. -/
theorem witness_Gears_And_Strokes :
  (∃ (s : State) (r : Request) (f : Nat) (ramp : Bool), s.served ∧ r.params.length = 4 ∧ slotCheck s r.target [9, 10] = none ∧ bitsOf (r.p 0) 3 29 = 0 ∧ bitsOf (r.p 0) 0 2 < 2 ∧ ramp = (bitsOf (r.p 0) 0 2 == 1) ∧ badF32 (r.p 3) = false ∧ ((ramp = true → 0 < ratOf (r.p 3))) ∧ gearEff s r.target = 0 ∧ gearFollower s r.target = some f ∧ (axisEff s f).st = 1 ∧ gearBadNow s r.target = none ∧ ((gMode s r.target = 1 → ramp = false → absR (posRat (s.axis f).x - camPosition s r.target (ratOf (ratioW (s.cp r.target 1) (s.cp r.target 2))) (gearRead (inputNow s) s.dt (bMaster (curBind s r.target))).x) ≤ s.cpR f 26))) ∧
  (∃ (s : State) (r : Request) (w : Word), s.served ∧ slotCheck s r.target [9, 10] = none ∧ r.params = [w] ∧ bitsOf w 0 2 = 1 ∧ gearEff s r.target ≠ 0 ∧ gearEff s r.target ≠ 5) ∧
  (∃ (s : State) (r : Request) (w : Word) (v : _), s.served ∧ slotCheck s r.target [9, 10] = none ∧ r.params = [w, v] ∧ bitsOf w 0 2 = 0 ∧ gMode s r.target ≠ 1 ∧ badF32 v = false ∧ 0 < ratOf v ∧ gearEff s r.target ≠ 0 ∧ gearEff s r.target ≠ 5) ∧
  (∃ (s : State) (r : Request) (w : Word), s.served ∧ slotCheck s r.target [9, 10] = none ∧ r.params = [w] ∧ bitsOf w 0 2 = 2 ∧ gearEff s r.target ≠ 0 ∧ gearEff s r.target ≠ 5 ∧ (gearEff s r.target = 1 ∨ (∀ f ∈ gearFollower s r.target, ratOf (s.axis f).v = 0))) ∧
  (∃ (s : State) (r : Request) (w : Word), s.served ∧ slotCheck s r.target [9, 10] = none ∧ r.params = [w] ∧ (bitsOf w 0 2 = 1 ∨ bitsOf w 0 2 = 2) ∧ gearEff s r.target = 0) ∧
  (∃ (s : State) (r : Request) (num : Word) (den : Word) (rate : Word), s.served ∧ r.params = [num, den, rate] ∧ slotCheck s r.target [9, 10] = none ∧ den ≠ 0#32 ∧ badF32 rate = false ∧ 0 ≤ ratOf rate ∧ (gearEff s r.target = 0 ∨ gearEff s r.target = 3)) ∧
  (∃ (s : State) (r : Request), s.served ∧ r.params = [] ∧ slotCheck s r.target [11] = none ∧ strokeEff s r.target = 0 ∧ strokeReady s r.target (fun k => (axisEff s k).st) = true) ∧
  (∃ (s : State) (r : Request), s.served ∧ r.params = [] ∧ slotCheck s r.target [11] = none ∧ (strokeEff s r.target = 1 ∨ strokeEff s r.target = 2)) ∧
  (∃ (s : State) (r : Request) (w : Word), s.served ∧ r.params = [w] ∧ slotCheck s r.target [11] = none ∧ outF32 0 2 w = false) ∧
  (∃ (s : State) (r : Request) (w : Word), s.served ∧ r.params = [w] ∧ slotCheck s r.target [11] = none ∧ bitOf w 0 = true ∧ (strokeEff s r.target = 1 ∨ strokeEff s r.target = 2)) ∧
  (∃ (s : State) (r : Request) (w : Word), s.served ∧ r.params = [w] ∧ slotCheck s r.target [11] = none ∧ bitOf w 0 = false ∧ (strokeEff s r.target = 3 ∨ strokeEff s r.target = 4)) ∧
  (∃ (s : State) (r : Request) (w : Word), s.served ∧ r.params = [w] ∧ slotCheck s r.target [11] = none ∧ bitOf w 0 = true ∧ strokeEff s r.target ∈ [0, 3, 4]) ∧
  (∃ (s : State) (r : Request) (w : Word), s.served ∧ r.params = [w] ∧ slotCheck s r.target [11] = none ∧ bitOf w 0 = false ∧ strokeEff s r.target ∈ [0, 1, 2]) ∧
  (∃ (s : State) (r : Request), s.served ∧ r.params = [] ∧ slotCheck s r.target [11] = none ∧ strokeEff s r.target ∈ [0, 2, 4, 6]) :=
  ⟨⟨tGear, tR 9 [0#32, 0#32, 0#32, 0#32], 255, _, by decide +kernel, by decide +kernel, by decide +kernel, by decide +kernel, by decide +kernel, rfl, by decide +kernel⟩,
   ⟨(tF []).setCtx 9 { kind := 9, num := 63, st := .gear { st := 3 } }, tR 9 [1#32], 1#32, by decide +kernel⟩,
   ⟨(tF []).setCtx 9 { kind := 9, num := 63, st := .gear { st := 3 } }, tR 9 [0#32, 0x3F800000#32], 0#32, 0x3F800000#32, by decide +kernel⟩,
   ⟨(tF []).setCtx 9 { kind := 9, num := 63, st := .gear { st := 1 } }, tR 9 [2#32], 2#32, by decide +kernel⟩,
   ⟨(tF []).setCtx 9 { kind := 9, num := 63, st := .gear { st := 0 } }, tR 9 [2#32], 2#32, by decide +kernel⟩,
   ⟨(tF []).setCtx 9 { kind := 9, num := 63, st := .gear { st := 3 } }, tR 9 [1#32, 1#32, 0#32], 1#32, 1#32, 0#32, by decide +kernel⟩,
   ⟨tStroke, tR 9 [], by decide +kernel⟩,
   ⟨((tF [(R.motionSinfo_STATE 15, 0)]).setCtx 255 { kind := 11, num := 15, st := .stroke { st := 1 } }), tR 255 [], by decide +kernel⟩,
   ⟨((tF [(R.motionSinfo_STATE 15, 0)]).setCtx 255 { kind := 11, num := 15, st := .stroke { st := 0 } }), tR 255 [0x40000000#32], 0x40000000#32, by decide +kernel⟩,
   ⟨((tF [(R.motionSinfo_STATE 15, 0)]).setCtx 255 { kind := 11, num := 15, st := .stroke { st := 1 } }), tR 255 [1#32], 1#32, by decide +kernel⟩,
   ⟨((tF [(R.motionSinfo_STATE 15, 0)]).setCtx 255 { kind := 11, num := 15, st := .stroke { st := 4 } }), tR 255 [0#32], 0#32, by decide +kernel⟩,
   ⟨((tF [(R.motionSinfo_STATE 15, 0)]).setCtx 255 { kind := 11, num := 15, st := .stroke { st := 0 } }), tR 255 [1#32], 1#32, by decide +kernel⟩,
   ⟨((tF [(R.motionSinfo_STATE 15, 0)]).setCtx 255 { kind := 11, num := 15, st := .stroke { st := 2 } }), tR 255 [0#32], 0#32, by decide +kernel⟩,
   ⟨((tF [(R.motionSinfo_STATE 15, 0)]).setCtx 255 { kind := 11, num := 15, st := .stroke { st := 2 } }), tR 255 [], by decide +kernel⟩⟩

/-- Inputs that meet the hypotheses of `Obligations.Field_Link`, clause by clause. -/
theorem witness_Field_Link :
  (∃ (s : State), coreRuns s = true) ∧
  (∃ (s : State) (new : Bool), s.field.sent = some new) ∧
  (∃ (s : State) (mv : Word), coreRuns s = true ∧ s.field.ans = some mv) ∧
  (∃ (s : State), fioLink s = true) ∧
  (∃ (s : State), s.field.silent = false) :=
  ⟨⟨tF [], by decide⟩,
   ⟨(tF []).withField { sent := some false }, false, by decide⟩,
   ⟨(tF []).withField { ans := some 0#32, run := 3 }, 0#32, by decide⟩,
   ⟨tF [(R.fieldStat_LINK, 1)], by decide⟩,
   ⟨tF [], by decide⟩⟩

/-- Inputs that meet the hypotheses of `Obligations.Field_Channels`, clause by clause. -/
theorem witness_Field_Channels :
  (∃ (s : State) (v : State) (n : Fin 32) (level : Bool) (t : Tick), v = huskFollow (s.at t) n.val level t ∧ bitOf v.field.raw n.val = !level ∧ fioLink v = true ∧ fioOut v n.val = false ∧ tbValid v = true) ∧
  (∃ (s : State) (v : State) (n : Fin 32) (level : Bool) (t : Tick), v = huskFollow (s.at t) n.val level t ∧ bitOf v.field.raw n.val = !level ∧ fioLink v = true ∧ fioOut v n.val = true) ∧
  (∃ (s : State) (n : Fin 32), fioOut s n.val = true ∧ fioOn s n.val = true) ∧
  (∃ (s : State) (b : Fin 4), s.fld ⟨R.fieldStat, 24 + b.val, 1⟩ = 0) ∧
  (∃ (s : State) (r : Request), s.served ∧ (r.target ≤ 31 ∨ r.target = 0xFFFF) ∧ r.params.length = (if r.target = 0xFFFF then 2 else 1) ∧ fioLink s = true ∧ ((∀ e ∈ fioNamed r, pairOfB s e.1 = none ∧ onApplied s e = false ∧ fioOut s e.1 = true ∧ (e.2 = true → fioLatched s e.1 = false)))) ∧
  (∃ (s : State) (r : Request) (cfg : Word) (chat : Word), s.served ∧ r.params = [cfg, chat] ∧ r.target ≤ 31 ∧ fioLink s = true ∧ cfg &&& 0x010FFFFF#32 = 0#32 ∧ bitsOf cfg 20 4 ≤ 6 ∧ bitsOf cfg 28 2 ≠ 3 ∧ ((bitsOf chat 16 8 = 0 → bitsOf chat 24 8 = 0)) ∧ ((safeMode s = 1 ∨ safeMode s = 2 → setNames s r.target = false)) ∧ ((bitOf cfg 31 = true → fioInUse s r.target = false))) :=
  ⟨⟨tF [(R.fieldStat_LINK, 1), (R.clkStat_TB_VALID, 1)], _, 31, true, 5, rfl, by decide⟩,
   ⟨tF [(R.fieldStat_LINK, 1), (R.clkStat_TB_VALID, 1), (R.fieldCfg_OUT 31, 1)], _, 31, true, 5, rfl, by decide⟩,
   ⟨tF [(R.fieldCfg_OUT 31, 1), (R.fieldChst_CMD 31, 1)], 31, by decide⟩,
   ⟨tF [], 3, by decide⟩,
   ⟨tF [(R.fieldStat_LINK, 1), (R.fieldCfg_OUT 31, 1)], tR 31 [1#32], by decide⟩,
   ⟨tF [(R.fieldStat_LINK, 1)], tR 31 [0x40600000#32, 0x10000#32], 0x40600000#32, 0x10000#32, by decide⟩⟩

/-- Inputs that meet the hypotheses of `Obligations.Safe_Inputs_And_Outputs`, clause by clause. -/
theorem witness_Safe_Inputs_And_Outputs :
  (∃ (s : State) (d : _), s.safe.disc = some d ∧ bitOf s.safe.latched 2 = false) ∧
  (∃ (s : State), s.safe.husk.disc.isSome = true) ∧
  (∃ (s : State) (n : Fin 4), contEn s n.val = true ∧ s.fld (R.safeCont_STATE n.val) = 2 ∧ s.flag (R.safeCont_FB n.val) = s.flag (R.safeCont_CMD n.val)) ∧
  (∃ (s : State) (n : Fin 4), contEn s n.val = true ∧ s.fld (R.safeCont_STATE n.val) = 2 ∧ s.flag (R.safeCont_FB n.val) ≠ s.flag (R.safeCont_CMD n.val)) ∧
  (∃ (s : State) (n : Fin 4) (on : Bool) (t : Tick), s.safe.husk.win.find? (fun e => e.1 == n.val) = some (n.val, on, t)) ∧
  (∃ (s : State) (v : State) (n : Fin 4) (closed : Bool) (cmd : Bool) (t : Tick) (dt : Nat), v = s.at t ∧ coreRuns v = true ∧ contEn v n.val = true ∧ v.flag (R.safeCont_FB n.val) = !closed ∧ cmd = v.flag (R.safeCont_CMD n.val) ∧ dt = (t - nth v.safe.tc n.val 0).toNat ∧ v.fld (R.safeCont_STATE n.val) = 2 ∧ closed = cmd ∧ dt < contT (setW v (9 + 2 * n.val)) cmd) ∧
  (∃ (s : State) (v : State) (n : Fin 4) (closed : Bool) (cmd : Bool) (t : Tick) (dt : Nat), v = s.at t ∧ coreRuns v = true ∧ contEn v n.val = true ∧ v.flag (R.safeCont_FB n.val) = !closed ∧ cmd = v.flag (R.safeCont_CMD n.val) ∧ dt = (t - nth v.safe.tc n.val 0).toNat ∧ v.fld (R.safeCont_STATE n.val) = 2 ∧ closed ≠ cmd ∧ dt < contT (setW v (9 + 2 * n.val)) cmd) ∧
  (∃ (s : State) (v : State) (n : Fin 4) (closed : Bool) (t : Tick), v = s.at t ∧ coreRuns v = true ∧ contEn v n.val = true ∧ v.flag (R.safeCont_FB n.val) = !closed ∧ v.fld (R.safeCont_STATE n.val) < 2) ∧
  (∃ (s : State) (t : Tick), coreRuns (s.at t) = false) ∧
  (∃ (s : State) (p : Fin 4) (chB : Bool) (c : Nat), pairEn s p.val = true ∧ pairApplied s p.val = false ∧ c = (if chB then pairB s p.val else pairA s p.val) ∧ fioOn s c = true ∧ s.safe.wrong.length = 8) ∧
  (∃ (s : State) (p : Fin 4) (chB : Bool) (c : Nat) (i : Nat) (x : Bool) (y : Bool), pairEn s p.val = true ∧ pairApplied s p.val = false ∧ c = (if chB then pairB s p.val else pairA s p.val) ∧ i = 2 * p.val + b2n chB ∧ fioOn s c = true ∧ s.safe.wrong.length = 8 ∧ (x && y) = false ∧ nth s.safe.wrong i 0 = 0) ∧
  (∃ (s : State) (p : Fin 4) (chB : Bool) (c : Nat) (i : Nat) (x : Bool) (y : Bool), pairEn s p.val = true ∧ pairApplied s p.val = false ∧ c = (if chB then pairB s p.val else pairA s p.val) ∧ i = 2 * p.val + b2n chB ∧ fioOn s c = true ∧ s.safe.wrong.length = 8 ∧ (x && y) = false ∧ 1 ≤ nth s.safe.wrong i 0) ∧
  (∃ (s : State) (p : Fin 4) (w : Word), huskUp s = true ∧ w = huskW s (16 + 2 * p.val) ∧ bitOf s.safe.husk.word3 p.val = true ∧ bitOf w 31 = true ∧ (bitOf s.field.raw (bitsOf w 24 3) = true ∨ bitOf s.field.raw (bitsOf w 16 3) = true)) :=
  ⟨⟨(tF []).withSafe { disc := some 1 }, 1, by decide⟩,
   ⟨(tF []).setHusk { disc := some 1 }, by decide⟩,
   ⟨(tF [(R.safeCont_STATE 3, 2), (R.safeCont_CMD 3, 1), (R.safeCont_FB 3, 1)]).withSafe { set := some (tSet [(14, 0x90000000#32)]) }, 3, by decide⟩,
   ⟨(tF [(R.safeCont_STATE 3, 2), (R.safeCont_CMD 3, 1), (R.safeCont_FB 3, 0)]).withSafe { set := some (tSet [(14, 0x90000000#32)]) }, 3, by decide⟩,
   ⟨(tF []).setHusk { win := [(3, true, 5)] }, 3, true, 5, by decide⟩,
   ⟨(tF [(R.safeCont_STATE 3, 2), (R.safeCont_CMD 3, 1), (R.safeCont_FB 3, 0)]).withSafe { set := some (tSet [(14, 0x90000000#32), (15, 0x00FF00FF#32)]) }, _, 3, _, _, 5, _, rfl, by decide, by decide, by decide, rfl, rfl, by decide, rfl, by decide⟩,
   ⟨(tF [(R.safeCont_STATE 3, 2), (R.safeCont_CMD 3, 1), (R.safeCont_FB 3, 1)]).withSafe { set := some (tSet [(14, 0x90000000#32), (15, 0x00FF00FF#32)]) }, _, 3, false, _, 5, _, rfl, by decide, by decide, by decide, rfl, rfl, by decide⟩,
   ⟨(tF [(R.safeCont_STATE 3, 1)]).withSafe { set := some (tSet [(14, 0x90000000#32)]) }, _, 3, true, 5, rfl, by decide⟩,
   ⟨(tF []).withPhase .dormant, 5, by decide⟩,
   ⟨(tF [(R.fieldCfg_OUT 7, 1), (R.fieldChst_CMD 7, 1), (R.safeOut_APPLIED 3, 0)]).withSafe { set := some (tSet [(22, 0x87060000#32)]) }, 3, false, _, by decide, by decide, rfl, by decide⟩,
   ⟨(tF [(R.fieldCfg_OUT 7, 1), (R.fieldChst_CMD 7, 1), (R.safeOut_APPLIED 3, 0)]).withSafe { set := some (tSet [(22, 0x87060000#32)]) }, 3, false, _, _, true, false, by decide, by decide, rfl, rfl, by decide⟩,
   ⟨(tF [(R.fieldCfg_OUT 7, 1), (R.fieldChst_CMD 7, 1), (R.safeOut_APPLIED 3, 0)]).withSafe { set := some (tSet [(22, 0x87060000#32)]), wrong := [0, 0, 0, 0, 0, 0, 1, 0] }, 3, false, _, _, false, false, by decide, by decide, rfl, rfl, by decide⟩,
   ⟨((tF []).setHusk { word3 := 8#32, set := some (tSet [(22, 0x87060000#32)]) }).withField { raw := 0x80#32 }, 3, _, by decide, rfl, by decide⟩⟩

/-- Inputs that meet the hypotheses of `Obligations.Scribe_And_Cross_Check`, clause by clause. -/
theorem witness_Scribe_And_Cross_Check :
  (∃ (s : State), coreRuns s = true) ∧
  (∃ (s : State) (f : List Word), coreRuns s = true ∧ s.safe.toScribe = some f ∧ frameOk f = true) ∧
  (∃ (s : State) (f : List Word), coreRuns s = true ∧ s.safe.toScribe = some f ∧ frameOk f = true ∧ s.safe.first = false ∧ bitsOf (nth f 1 0#32) 24 4 = bitsOf (nth s.safe.hf 1 0#32) 24 4 ∧ bitsOf (nth f 1 0#32) 24 4 ≠ 0 ∧ bitsOf (nth f 1 0#32) 24 4 ≠ 6 ∧ bitOf (nth s.safe.mine 1 0#32) 24 = false) ∧
  (∃ (s : State), coreRuns s = true ∧ s.safe.toScribe = none) ∧
  (∃ (s : State) (ok : Bool) (f : _), coreRuns s = true ∧ s.safe.toScribe = some f ∧ (ok = false ∨ frameOk f = false)) ∧
  (∃ (s : State) (u : State) (v : State) (f : List Word), s.safe.toHusk = some f ∧ u = s.withSafe { s.safe with toHusk := none } ∧ v = huskAct (huskContactors u f) f ∧ frameOk f = true ∧ huskUp s = true ∧ (s.safe.husk.st = 0 ∨ v.safe.husk.st = 4)) ∧
  (∃ (s : State) (u : State) (v : State) (f : List Word), s.safe.toHusk = some f ∧ u = s.withSafe { s.safe with toHusk := none } ∧ v = huskAct (huskContactors u f) f ∧ frameOk f = true ∧ huskUp s = true ∧ s.safe.husk.st ≠ 0 ∧ v.safe.husk.st ≠ 4) ∧
  (∃ (s : State) (f : List Word) (ok : _), s.safe.toHusk = some f ∧ (ok = false ∨ frameOk f = false ∨ huskUp s = false)) ∧
  (∃ (s : State), coreRuns s = true ∧ s.safe.first = false ∧ s.safe.single = false ∧ bitOf s.safe.latched 7 = false) ∧
  (∃ (s : State), s.safe.husk.st ≠ 0 ∧ s.safe.husk.st ≠ 4) ∧
  (∃ (s : State), safeMode s = 2 ∧ (s.safe.stopped = true ∨ safeAxes s = [])) ∧
  (∃ (s : State) (a : Fin 8), (s.sax a.val).pend ≠ 0) :=
  ⟨⟨tF [], by decide +kernel⟩,
   ⟨(tF []).withSafe { toScribe := some tFrame }, tFrame, by decide +kernel⟩,
   ⟨(tF []).withSafe { toScribe := some tFrame, first := false, hf := tFrame }, tFrame, by decide +kernel⟩,
   ⟨tF [], by decide +kernel⟩,
   ⟨(tF []).withSafe { toScribe := some tFrame }, false, tFrame, by decide +kernel⟩,
   ⟨(tF []).withSafe { toHusk := some tFrame }, _, _, tFrame, by decide +kernel, rfl, rfl, by decide +kernel⟩,
   ⟨((tF []).withSafe { toHusk := some tFrame }).setHusk { st := 1 }, _, _, tFrame, by decide +kernel, rfl, rfl, by decide +kernel⟩,
   ⟨(tF []).withSafe { toHusk := some tFrame }, tFrame, false, by decide +kernel⟩,
   ⟨(tF []).withSafe { first := false }, by decide +kernel⟩,
   ⟨(tF []).setHusk { st := 2 }, by decide +kernel⟩,
   ⟨(tF [(R.safeState_MODE, 2)]).withSafe { stopped := true }, by decide +kernel⟩,
   ⟨(tF []).setSax 7 { pend := 1 }, 7, by decide +kernel⟩⟩

/-- Inputs that meet the hypotheses of `Obligations.Husk_Times_And_Failures`, clause by clause. -/
theorem witness_Husk_Times_And_Failures :
  (∃ (s : State) (on : Bool), huskEn s = !on) ∧
  (∃ (s : State), huskUp s = true ∧ s.safe.husk.gen = true ∧ s.safe.husk.settle = true) ∧
  (∃ (s : State) (f : Option (List Word)), s.safe.husk.on = true ∧ s.safe.husk.st = 3 ∧ f = s.safe.toHusk ∧ f.any (fun w => frameOk w && bitOf (nth w 1 0#32) 27) = false) ∧
  (∃ (s : State) (f : Option (List Word)), s.safe.husk.on = true ∧ s.safe.husk.st = 3 ∧ f = s.safe.toHusk ∧ f.any (fun w => frameOk w && bitOf (nth w 1 0#32) 27) = true) ∧
  (∃ (s : State) (c : Fin 8), huskUp s = true ∧ (hcTol (huskW s) c.val).isSome = true) ∧
  (∃ (s : State), s.safe.husk.on = true ∧ s.safe.husk.st = 4) ∧
  (∃ (s : State), s.safe.husk.on = true) ∧
  (∃ (s : State), s.safe.husk.on = false) :=
  ⟨⟨tF [], true, by decide⟩,
   ⟨(tF []).setHusk { st := 2, gen := true, settle := true }, by decide⟩,
   ⟨(tF []).setHusk { st := 3 }, _, by decide, by decide, rfl, by decide⟩,
   ⟨((tF []).withSafe { toHusk := some tStop }).setHusk { st := 3 }, _, by decide, by decide, rfl, by decide⟩,
   ⟨(tF []).setHusk { st := 2, set := some (tSet [(25, 0x87000000#32)]) }, 7, by decide⟩,
   ⟨(tF []).setHusk { st := 4 }, by decide⟩,
   ⟨tF [], by decide⟩,
   ⟨(tF []).setHusk { on := false }, by decide⟩⟩

/-- Inputs that meet the hypotheses of `Obligations.Telegram_And_Safety_Commands`, clause by clause. -/
theorem witness_Telegram_And_Safety_Commands :
  (∃ (s : State) (v : State) (p : Fin 2) (bytes : List Byte) (t : Tick), v = s.at t ∧ telEn v = true ∧ v.safe.single = false ∧ coreRuns v = true ∧ telHears v p.val = true ∧ telValid v bytes = false) ∧
  (∃ (s : State) (v : State) (p : Fin 2) (bytes : List Byte) (t : Tick), v = s.at t ∧ telEn v = true ∧ v.safe.single = false ∧ coreRuns v = true ∧ telHears v p.val = true ∧ telValid v bytes = true ∧ v.safe.telOn = false) ∧
  (∃ (s : State) (v : State) (p : Fin 2) (bytes : List Byte) (t : Tick) (d : Nat), v = s.at t ∧ telEn v = true ∧ v.safe.single = false ∧ coreRuns v = true ∧ telHears v p.val = true ∧ d = (bitsOf (nth (bytesWords bytes) 1 0#32) 0 16 + 65536 - bitsOf (nth v.safe.telLast 1 0#32) 0 16) % 65536 ∧ telValid v bytes = true ∧ v.safe.telOn = true ∧ (t - v.safe.tAcc).toNat < bitsOf (setW v 4) 0 8 * msTicks ∧ 1 ≤ d ∧ d ≤ 4) ∧
  (∃ (s : State) (v : State) (p : Fin 2) (bytes : List Byte) (t : Tick) (d : Nat), v = s.at t ∧ telEn v = true ∧ v.safe.single = false ∧ coreRuns v = true ∧ telHears v p.val = true ∧ d = (bitsOf (nth (bytesWords bytes) 1 0#32) 0 16 + 65536 - bitsOf (nth v.safe.telLast 1 0#32) 0 16) % 65536 ∧ telValid v bytes = true ∧ v.safe.telOn = true ∧ (t - v.safe.tAcc).toNat < bitsOf (setW v 4) 0 8 * msTicks ∧ (4 < d ∨ (d = 0 ∧ p.val = v.safe.telPath))) ∧
  (∃ (s : State) (v : State) (p : Fin 2) (bytes : List Byte) (t : Tick), v = s.at t ∧ telEn v = true ∧ v.safe.single = false ∧ coreRuns v = true ∧ telHears v p.val = true ∧ telValid v bytes = true ∧ bitsOf (setW v 4) 0 8 * msTicks ≤ (t - v.safe.tAcc).toNat) ∧
  (∃ (s : State), telEn s = true ∧ s.safe.telOn = true ∧ s.safe.single = false) ∧
  (∃ (s : State) (p : Fin 2), telEn s = true ∧ nth s.safe.lost p.val false = false ∧ s.safe.lost.length = 2) ∧
  (∃ (s : State) (r : Request), s.served ∧ r.target = 0 ∧ r.params = [] ∧ s.safe.single = false ∧ huskUp s = true ∧ setBad s (stagedSet s) = none) ∧
  (∃ (s : State) (r : Request) (ws : List Word), s.served ∧ r.target = 0 ∧ r.params = [crcS ws, crcH ws] ∧ s.safe.single = false ∧ s.safe.stg = some ws ∧ (safeMode s = 0 ∨ (∀ w, w < 136 → (nth ws w 0#32 ^^^ nth (s.safe.set.getD []) w 0#32) &&& ~~~(lMask w) = 0#32)) ∧ s.safe.conf = []) ∧
  (∃ (s : State) (r : Request), s.served ∧ r.target = 0 ∧ r.params = [] ∧ s.safe.single = false ∧ ackStatus s = stOK) :=
  ⟨⟨(tA [(R.clkStat_SPLL_LOCK, 1), (R.clkStat_EPLL_LOCK, 1), (R.clkStat_TPLL_LOCK, 1), (R.ethCfg_EN 0, 1), (R.ethCfg_EN 1, 1), (R.swardPstat_STATE 0, 2)]).withSafe { set := some (tSet [(4, 0x00010102#32), (5, 0xFFFFFFFF#32), (7, 0x10#32)]) }, _, 1, [], 5, rfl, by decide +kernel⟩,
   ⟨(tA [(R.clkStat_SPLL_LOCK, 1), (R.clkStat_EPLL_LOCK, 1), (R.clkStat_TPLL_LOCK, 1), (R.ethCfg_EN 0, 1), (R.ethCfg_EN 1, 1), (R.swardPstat_STATE 0, 2)]).withSafe { set := some (tSet [(4, 0x00010102#32), (5, 0xFFFFFFFF#32), (7, 0x10#32)]) }, _, 1, tCopy, 5, rfl, by decide +kernel⟩,
   ⟨(tA [(R.clkStat_SPLL_LOCK, 1), (R.clkStat_EPLL_LOCK, 1), (R.clkStat_TPLL_LOCK, 1), (R.ethCfg_EN 0, 1), (R.ethCfg_EN 1, 1), (R.swardPstat_STATE 0, 2)]).withSafe { set := some (tSet [(4, 0x00010102#32), (5, 0xFFFFFFFF#32), (7, 0x10#32)]), telOn := true, telLast := [0#32, 0#32] }, _, 1, tCopy, 5, _, rfl, by decide +kernel, by decide +kernel, by decide +kernel, by decide +kernel, rfl, by decide +kernel⟩,
   ⟨(tA [(R.clkStat_SPLL_LOCK, 1), (R.clkStat_EPLL_LOCK, 1), (R.clkStat_TPLL_LOCK, 1), (R.ethCfg_EN 0, 1), (R.ethCfg_EN 1, 1), (R.swardPstat_STATE 0, 2)]).withSafe { set := some (tSet [(4, 0x00010102#32), (5, 0xFFFFFFFF#32), (7, 0x10#32)]), telOn := true, telPath := 1, telLast := [0#32, 0#32] }, _, 1, (tCopyN 9), 5, _, rfl, by decide +kernel, by decide +kernel, by decide +kernel, by decide +kernel, rfl, by decide +kernel⟩,
   ⟨(tA [(R.clkStat_SPLL_LOCK, 1), (R.clkStat_EPLL_LOCK, 1), (R.clkStat_TPLL_LOCK, 1), (R.ethCfg_EN 0, 1), (R.ethCfg_EN 1, 1), (R.swardPstat_STATE 0, 2)]).withSafe { set := some (tSet [(4, 0x00010102#32), (5, 0xFFFFFFFF#32), (7, 0x10#32)]), telOn := true, tAcc := 0x8000000000000000 }, _, 1, tCopy, 5, rfl, by decide +kernel⟩,
   ⟨(tF []).withSafe { set := some (tSet [(7, 0x10#32)]), telOn := true }, by decide +kernel⟩,
   ⟨(tF []).withSafe { set := some (tSet [(7, 0x10#32)]) }, 1, by decide +kernel⟩,
   ⟨tStage, tR 0 [], by decide +kernel⟩,
   ⟨(tF []).withSafe { stg := some [1#32] }, tR 0 [crcS [1#32], crcH [1#32]], [1#32], by decide +kernel⟩,
   ⟨tF [(R.safeState_MODE, 3)], tR 0 [], by decide +kernel⟩⟩

/-- Inputs that meet the hypotheses of `Obligations.System_Time`, clause by clause. -/
theorem witness_System_Time :
  (∃ (s : State) (r : Request) (lo : Word) (hi : Word) (ns : Word) (fr : Word), s.served ∧ r.target = 0 ∧ r.params = [lo, hi, ns, fr] ∧ nodeRuns s 5 = true ∧ ns.toNat < 1000000000 ∧ bitsOf hi 16 16 = 0 ∧ bitsOf fr 16 16 = 0 ∧ s.fld R.timeCfg_SRC = 0) ∧
  (∃ (s : State) (r : Request) (v : Word), s.served ∧ r.target = 0 ∧ r.params = [0#32, v] ∧ nodeRuns s 5 = true ∧ s.fld R.timeCfg_SRC = 0) ∧
  (∃ (s : State) (r : Request) (v : Word), s.served ∧ r.target = 0 ∧ r.params = [1#32, v] ∧ nodeRuns s 5 = true ∧ s.fld R.timeCfg_SRC = 0 ∧ -128000000 ≤ v.toInt ∧ v.toInt ≤ 128000000) ∧
  (∃ (s : State) (old : Word) (e : Tick), s.net.slew = some (old, e)) ∧
  (∃ (s : State) (v : State) (p : Fin 2) (t : Tick), v = s.at t ∧ reedServes v = true ∧ ptpPort v p.val = true ∧ tbValid v = true ∧ nodeRuns v 5 = true) ∧
  (∃ (s : State), (s.fld R.timeStat_STATE = 1 ∨ s.fld R.timeStat_STATE = 2)) ∧
  (∃ (s : State) (sb : Bool) (on : Bool) (lim : Rat) (m : Rat), s.flag R.clkStat_TPLL_LOCK = true ∧ sb = (s.fld R.sheafCfg_ROLE == 2) ∧ on = (s.flag R.timeCfg_DISC || sb) ∧ lim = (s.fld R.timeCfg_DISC_LIM * 10000 : Nat) ∧ m = clampR (-100) 100 ((if on then clampR (-lim) lim (s.net.disc - if sb then s.sward.frate * 1000000000 else s.net.integ) else 0) - s.net.disc) ∧ ((sb = false → on = true → s.fld R.timeStat_STATE = 1 ∨ s.fld R.timeStat_STATE = 2)) ∧ m = 0) ∧
  (∃ (s : State) (sb : Bool) (on : Bool) (lim : Rat) (m : Rat), s.flag R.clkStat_TPLL_LOCK = true ∧ sb = (s.fld R.sheafCfg_ROLE == 2) ∧ on = (s.flag R.timeCfg_DISC || sb) ∧ lim = (s.fld R.timeCfg_DISC_LIM * 10000 : Nat) ∧ m = clampR (-100) 100 ((if on then clampR (-lim) lim (s.net.disc - if sb then s.sward.frate * 1000000000 else s.net.integ) else 0) - s.net.disc) ∧ ((sb = false → on = true → s.fld R.timeStat_STATE = 1 ∨ s.fld R.timeStat_STATE = 2)) ∧ m ≠ 0) ∧
  (∃ (s : State) (w : Word), regReady s R.timeCfg = true ∧ bitsOf w 30 2 ≠ 3 ∧ 2 ≤ bitsOf w 9 4 ∧ bitsOf w 9 4 ≤ 10 ∧ bitsOf w 6 3 ≤ 5) ∧
  (∃ (s : State), regReady s R.timeCtrl = true) :=
  ⟨⟨tA [(R.clkStat_TPLL_LOCK, 1)], tR 0 [0xFFFFFFFF#32, 0xFFFF#32, 999999999#32, 0xFFFF#32], 0xFFFFFFFF#32, 0xFFFF#32, 999999999#32, 0xFFFF#32, by decide +kernel⟩,
   ⟨tA [(R.clkStat_TPLL_LOCK, 1)], tR 0 [0#32, 0xFFFFFFFF#32], 0xFFFFFFFF#32, by decide +kernel⟩,
   ⟨tA [(R.clkStat_TPLL_LOCK, 1)], tR 0 [1#32, 128000000#32], 128000000#32, by decide +kernel⟩,
   ⟨(tF []).withNet { slew := some (5#32, 9) }, 5#32, 9, by decide +kernel⟩,
   ⟨tA [(R.clkStat_TPLL_LOCK, 1), (R.clkStat_TB_VALID, 1), (R.timeCfg_SRC, 1), (R.timeCfg_PORT_B, 1)], _, 1, 5, rfl, by decide +kernel⟩,
   ⟨tF [(R.timeStat_STATE, 2)], by decide +kernel⟩,
   ⟨(tF [(R.clkStat_TPLL_LOCK, 1), (R.timeCfg_DISC, 0)]).withNet { disc := 0 }, _, _, _, _, by decide +kernel, rfl, rfl, rfl, rfl, by decide +kernel⟩,
   ⟨(tF [(R.clkStat_TPLL_LOCK, 1), (R.timeCfg_DISC, 0)]).withNet { disc := 50 }, _, _, _, _, by decide +kernel, rfl, rfl, rfl, rfl, by decide +kernel⟩,
   ⟨tA [(R.clkStat_TPLL_LOCK, 1)], 0x40001400#32, by decide +kernel⟩,
   ⟨tA [(R.clkStat_TPLL_LOCK, 1)], by decide +kernel⟩⟩

/-- Inputs that meet the hypotheses of `Obligations.Ethernet_And_Pulses`, clause by clause. -/
theorem witness_Ethernet_And_Pulses :
  (∃ (s : State) (v : State) (p : Fin 2) (bytes : List Byte) (t : Tick) (off : Nat), v = s.at t ∧ ethUp v p.val = true ∧ off = (if beAt bytes 12 2 = 0x8100 then 18 else 14) ∧ off ≤ bytes.length ∧ bytes.length ≤ 1518 ∧ ((beAt bytes 12 2 = 0x8100 → beAt bytes 14 2 % 4096 = v.fld (R.ethCfg_VID p.val))) ∧ (ethGroups.contains (beAt bytes 0 6) = true ∨ beAt bytes 0 6 = ethMac v p.val) ∧ beAt bytes (off - 2) 2 = 0x0806) ∧
  (∃ (s : State) (v : State) (p : Fin 2) (bytes : List Byte) (t : Tick) (off : Nat), v = s.at t ∧ ethUp v p.val = true ∧ off = (if beAt bytes 12 2 = 0x8100 then 18 else 14) ∧ off ≤ bytes.length ∧ bytes.length ≤ 1518 ∧ ((beAt bytes 12 2 = 0x8100 → beAt bytes 14 2 % 4096 = v.fld (R.ethCfg_VID p.val))) ∧ (ethGroups.contains (beAt bytes 0 6) = true ∨ beAt bytes 0 6 = ethMac v p.val) ∧ beAt bytes (off - 2) 2 = 0x0800) ∧
  (∃ (s : State) (v : State) (p : Fin 2) (bytes : List Byte) (t : Tick) (off : Nat), v = s.at t ∧ ethUp v p.val = true ∧ off = (if beAt bytes 12 2 = 0x8100 then 18 else 14) ∧ off ≤ bytes.length ∧ bytes.length ≤ 1518 ∧ ((beAt bytes 12 2 = 0x8100 → beAt bytes 14 2 % 4096 = v.fld (R.ethCfg_VID p.val))) ∧ (ethGroups.contains (beAt bytes 0 6) = true ∨ beAt bytes 0 6 = ethMac v p.val) ∧ beAt bytes (off - 2) 2 = 0x88F7) ∧
  (∃ (s : State) (v : State) (p : Fin 2) (bytes : List Byte) (t : Tick) (off : Nat), v = s.at t ∧ ethUp v p.val = true ∧ off = (if beAt bytes 12 2 = 0x8100 then 18 else 14) ∧ off ≤ bytes.length ∧ bytes.length ≤ 1518 ∧ ((beAt bytes 12 2 = 0x8100 → beAt bytes 14 2 % 4096 = v.fld (R.ethCfg_VID p.val))) ∧ (ethGroups.contains (beAt bytes 0 6) = true ∨ beAt bytes 0 6 = ethMac v p.val) ∧ beAt bytes (off - 2) 2 ∉ [0x0806, 0x0800, 0x88F7]) ∧
  (∃ (s : State) (v : State) (p : Fin 2) (bytes : List Byte) (t : Tick) (off : Nat), v = s.at t ∧ ethUp v p.val = true ∧ off = (if beAt bytes 12 2 = 0x8100 then 18 else 14) ∧ off ≤ bytes.length ∧ bytes.length ≤ 1518 ∧ ((beAt bytes 12 2 = 0x8100 → beAt bytes 14 2 % 4096 = v.fld (R.ethCfg_VID p.val))) ∧ (ethGroups.contains (beAt bytes 0 6) = true ∨ beAt bytes 0 6 = ethMac v p.val)) ∧
  (∃ (s : State) (v : State) (p : Fin 2) (bytes : List Byte) (t : Tick), v = s.at t ∧ ethUp v p.val = true ∧ (bytes.length < 14 ∨ 1518 < bytes.length ∨ (beAt bytes 0 6 ≠ ethMac v p.val ∧ ethGroups.contains (beAt bytes 0 6) = false))) ∧
  (∃ (s : State) (p : Fin 2), nodeRuns s (17 + p.val) = true) ∧
  (∃ (s : State) (p : Fin 2), regReady s (R.ethMdio p.val) = true ∧ s.flag (R.ethMdio_BUSY p.val) = false) ∧
  (∃ (s : State) (p : Fin 2), s.flag (R.ethMdio_BUSY p.val) = true) ∧
  (∃ (s : State) (v : State) (p : Fin 2) (t : Tick), v = s.at t ∧ reedServes v = true ∧ ptpPort v p.val = true ∧ ethUp v p.val = true ∧ ptpMaster v p.val = true) ∧
  (∃ (s : State) (v : State) (p : Fin 2) (t : Tick), v = s.at t ∧ reedServes v = true ∧ ptpPort v p.val = true ∧ ethUp v p.val = true ∧ ptpMaster v p.val = false ∧ ptpP2p v p.val = false) ∧
  (∃ (s : State) (v : State) (p : Fin 2) (t : Tick), v = s.at t ∧ reedServes v = true ∧ ptpPort v p.val = true ∧ ethUp v p.val = true ∧ ptpP2p v p.val = true) ∧
  (∃ (s : State) (r : Request), s.served ∧ r.params.length = 7 ∧ nodeRuns s 5 = true ∧ r.target ≤ 3 ∧ pulseBad r = false ∧ bitOf (r.p 0) 31 = false) ∧
  (∃ (s : State) (r : Request), s.served ∧ r.params.length = 7 ∧ nodeRuns s 5 = true ∧ r.target ≤ 3 ∧ pulseBad r = false ∧ bitOf (r.p 0) 31 = true ∧ (bitOf (r.p 0) 30 = true ∨ s.flag R.timeStat_ST_VALID = true) ∧ ((r.p 4 = 0#32 → s.dt.toInt + (us10 : Int) ≤ (if bitOf (r.p 0) 30 then BitVec.ofInt 64 (pulseStart r) else dtOf s (pulseStart r)).toInt))) ∧
  (∃ (s : State) (v : State) (i : Fin 4) (t : Tick) (x : Pulse) (r : Tick), v = s.at t ∧ v.flag (R.timePstat_ENABLED i.val) = true ∧ v.flag (R.timePstat_HELD i.val) = false ∧ x = v.pulse i.val ∧ x.rise = none ∧ r = pulseRise v i.val x.k ∧ v.dt.toInt + (us10 : Int) < r.toInt) ∧
  (∃ (s : State) (v : State) (i : Fin 4) (t : Tick) (x : Pulse) (r : Tick), v = s.at t ∧ v.flag (R.timePstat_ENABLED i.val) = true ∧ v.flag (R.timePstat_HELD i.val) = false ∧ x = v.pulse i.val ∧ x.rise = none ∧ r = pulseRise v i.val x.k ∧ r.toInt ≤ v.dt.toInt + (us10 : Int) ∧ v.dt.toInt ≤ r.toInt ∧ x.notBefore.toInt ≤ r.toInt) ∧
  (∃ (s : State) (v : State) (i : Fin 4) (t : Tick) (x : Pulse) (r : Tick), v = s.at t ∧ v.flag (R.timePstat_ENABLED i.val) = true ∧ v.flag (R.timePstat_HELD i.val) = false ∧ x = v.pulse i.val ∧ x.rise = none ∧ r = pulseRise v i.val x.k ∧ r.toInt ≤ v.dt.toInt + (us10 : Int) ∧ (r.toInt < v.dt.toInt ∨ r.toInt < x.notBefore.toInt)) ∧
  (∃ (s : State) (v : State) (i : Fin 4) (t : Tick) (x : Pulse) (r : Tick) (f : Tick), v = s.at t ∧ v.flag (R.timePstat_ENABLED i.val) = true ∧ v.flag (R.timePstat_HELD i.val) = false ∧ x = v.pulse i.val ∧ x.rise = some r ∧ f = pulseDt v i.val (x.start + (x.k : Int) * x.per + x.wid) ∧ f.toInt ≤ v.dt.toInt + (us10 : Int) ∧ x.left = none) ∧
  (∃ (s : State) (v : State) (i : Fin 4) (t : Tick) (x : Pulse) (r : Tick) (f : Tick) (n : _), v = s.at t ∧ v.flag (R.timePstat_ENABLED i.val) = true ∧ v.flag (R.timePstat_HELD i.val) = false ∧ x = v.pulse i.val ∧ x.rise = some r ∧ f = pulseDt v i.val (x.start + (x.k : Int) * x.per + x.wid) ∧ f.toInt ≤ v.dt.toInt + (us10 : Int) ∧ x.left = some (n + 2)) ∧
  (∃ (s : State) (v : State) (i : Fin 4) (t : Tick) (x : Pulse) (r : Tick) (f : Tick), v = s.at t ∧ v.flag (R.timePstat_ENABLED i.val) = true ∧ v.flag (R.timePstat_HELD i.val) = false ∧ x = v.pulse i.val ∧ x.rise = some r ∧ f = pulseDt v i.val (x.start + (x.k : Int) * x.per + x.wid) ∧ f.toInt ≤ v.dt.toInt + (us10 : Int) ∧ x.left = some 1) :=
  ⟨⟨tEth, _, 1, tArp 0x06#8, 5, _, rfl, by decide +kernel, rfl, by decide +kernel⟩,
   ⟨tEth, _, 1, tArp 0#8, 5, _, rfl, by decide +kernel, rfl, by decide +kernel⟩,
   ⟨tEth, _, 1, tPtp, 5, _, rfl, by decide +kernel, rfl, by decide +kernel⟩,
   ⟨tEth, _, 1, tArp 0x07#8, 5, _, rfl, by decide +kernel, rfl, by decide +kernel⟩,
   ⟨tEth, _, 1, tArp 0x06#8, 5, _, rfl, by decide +kernel, rfl, by decide +kernel⟩,
   ⟨tEth, _, 1, [], 5, rfl, by decide +kernel⟩,
   ⟨tA [(R.clkStat_EPLL_LOCK, 1), (R.clkStat_TPLL_LOCK, 1), (R.ethCfg_EN 1, 1)], 1, by decide +kernel⟩,
   ⟨tA [(R.clkStat_EPLL_LOCK, 1), (R.clkStat_TPLL_LOCK, 1), (R.ethCfg_EN 1, 1)], 1, by decide +kernel⟩,
   ⟨tF [(R.ethMdio_BUSY 1, 1), (R.ethMdio_READ 1, 1)], 1, by decide +kernel⟩,
   ⟨tA [(R.clkStat_EPLL_LOCK, 1), (R.clkStat_TPLL_LOCK, 1), (R.clkStat_TB_VALID, 1), (R.ethCfg_EN 1, 1), (R.timeCfg_SRC, 1), (R.timeCfg_PORT_B, 1), (R.timeDs_SLAVE_ONLY, 0)], _, 1, 5, rfl, by decide +kernel⟩,
   ⟨tA [(R.clkStat_EPLL_LOCK, 1), (R.clkStat_TPLL_LOCK, 1), (R.clkStat_TB_VALID, 1), (R.ethCfg_EN 1, 1), (R.timeCfg_SRC, 1), (R.timeCfg_PORT_B, 1), (R.timeDs_SLAVE_ONLY, 1)], _, 1, 5, rfl, by decide +kernel⟩,
   ⟨tA [(R.clkStat_EPLL_LOCK, 1), (R.clkStat_TPLL_LOCK, 1), (R.clkStat_TB_VALID, 1), (R.ethCfg_EN 1, 1), (R.timeCfg_SRC, 2), (R.timeCfg_PORT_B, 1), (R.timeDs_SLAVE_ONLY, 0)], _, 1, 5, rfl, by decide +kernel⟩,
   ⟨tA [(R.clkStat_TPLL_LOCK, 1)], tR 3 [0#32, 0#32, 0#32, 0#32, 0#32, 0#32, 0#32], by decide +kernel⟩,
   ⟨tA [(R.clkStat_TPLL_LOCK, 1)], tR 3 [0xC0000000#32, 0#32, 0#32, 0#32, 1000#32, 10#32, 0#32], by decide +kernel⟩,
   ⟨(tA [(R.clkStat_TPLL_LOCK, 1), (R.clkStat_TB_VALID, 1), (R.timePstat_ENABLED 3, 1), (R.timePstat_SCALE 3, 1)]).setPulse 3 { start := 1600000, per := 320000, wid := 160000 }, _, 3, 0, _, _, rfl, by decide +kernel, by decide +kernel, rfl, by decide +kernel, rfl, by decide +kernel⟩,
   ⟨(tA [(R.clkStat_TPLL_LOCK, 1), (R.clkStat_TB_VALID, 1), (R.timePstat_ENABLED 3, 1), (R.timePstat_SCALE 3, 1)]).setPulse 3 { start := 160000, per := 320000, wid := 160000 }, _, 3, 0, _, _, rfl, by decide +kernel, by decide +kernel, rfl, by decide +kernel, rfl, by decide +kernel⟩,
   ⟨(tA [(R.clkStat_TPLL_LOCK, 1), (R.clkStat_TB_VALID, 1), (R.timePstat_ENABLED 3, 1), (R.timePstat_SCALE 3, 1)]).setPulse 3 { start := 160000, per := 320000, wid := 160000, notBefore := 200000 }, _, 3, 0, _, _, rfl, by decide +kernel, by decide +kernel, rfl, by decide +kernel, rfl, by decide +kernel⟩,
   ⟨(tA [(R.clkStat_TPLL_LOCK, 1), (R.clkStat_TB_VALID, 1), (R.timePstat_ENABLED 3, 1), (R.timePstat_SCALE 3, 1)]).setPulse 3 { start := 160000, per := 320000, wid := 160000, rise := some 160000 }, _, 3, 160000, _, 160000, _, rfl, by decide +kernel, by decide +kernel, rfl, by decide +kernel, rfl, by decide +kernel⟩,
   ⟨(tA [(R.clkStat_TPLL_LOCK, 1), (R.clkStat_TB_VALID, 1), (R.timePstat_ENABLED 3, 1), (R.timePstat_SCALE 3, 1)]).setPulse 3 { start := 160000, per := 320000, wid := 160000, rise := some 160000, left := some 5 }, _, 3, 160000, _, 160000, _, 3, rfl, by decide +kernel, by decide +kernel, rfl, by decide +kernel, rfl, by decide +kernel⟩,
   ⟨(tA [(R.clkStat_TPLL_LOCK, 1), (R.clkStat_TB_VALID, 1), (R.timePstat_ENABLED 3, 1), (R.timePstat_SCALE 3, 1)]).setPulse 3 { start := 160000, per := 320000, wid := 160000, rise := some 160000, left := some 1 }, _, 3, 160000, _, 160000, _, rfl, by decide +kernel, by decide +kernel, rfl, by decide +kernel, rfl, by decide +kernel⟩⟩

/-- Inputs that meet the hypotheses of `Obligations.Can_Modes_And_Errors`, clause by clause. -/
theorem witness_Can_Modes_And_Errors :
  (∃ (s : State) (u : State) (v : State) (n : Fin 4) (w : Word) (new : Word), regReady s (R.canCtrl n.val) = true ∧ 16 ≤ bitsOf w 8 8 ∧ ((bitOf w 26 = true → bitOf (s.reg (R.canCtrl n.val)) 26 = true ∨ canRspClash s n.val = false)) ∧ ((bitOf w 28 = true → s.fld (R.canDbt_DBRP n.val) ≤ 1)) ∧ new = mergeBits (s.reg (R.canCtrl n.val)) w 0xFF00FF00#32 ∧ (new &&& 0x3FFFFFFF#32 = s.reg (R.canCtrl n.val) &&& 0x3FFFFFFF#32 ∨ bitsOf (s.reg (R.canCtrl n.val)) 30 2 = 0) ∧ u = s.setReg (R.canCtrl n.val) new ∧ (v = (if bitOf w 23 = true ∧ canErr u n.val = 2 then u.setCanN n.val { u.canN n.val with recov := true } else u)) ∧ (bitsOf w 30 2 ≠ 3 ∨ (v.canN n.val).cur = none)) ∧
  (∃ (s : State) (u : State) (v : State) (n : Fin 4) (w : Word) (new : Word), regReady s (R.canCtrl n.val) = true ∧ 16 ≤ bitsOf w 8 8 ∧ ((bitOf w 26 = true → bitOf (s.reg (R.canCtrl n.val)) 26 = true ∨ canRspClash s n.val = false)) ∧ ((bitOf w 28 = true → s.fld (R.canDbt_DBRP n.val) ≤ 1)) ∧ new = mergeBits (s.reg (R.canCtrl n.val)) w 0xFF00FF00#32 ∧ (new &&& 0x3FFFFFFF#32 = s.reg (R.canCtrl n.val) &&& 0x3FFFFFFF#32 ∨ bitsOf (s.reg (R.canCtrl n.val)) 30 2 = 0) ∧ u = s.setReg (R.canCtrl n.val) new ∧ (v = (if bitOf w 23 = true ∧ canErr u n.val = 2 then u.setCanN n.val { u.canN n.val with recov := true } else u)) ∧ bitsOf w 30 2 = 3 ∧ (v.canN n.val).cur ≠ none) ∧
  (∃ (s : State) (n : Fin 4), regReady s (R.canCtrl n.val) = true ∧ canErr s n.val = 2 ∧ 16 ≤ bitsOf (s.reg (R.canCtrl n.val)) 8 8 ∧ ((bitOf (s.reg (R.canCtrl n.val)) 28 = true → s.fld (R.canDbt_DBRP n.val) ≤ 1)) ∧ n.val < s.can.n.length) ∧
  (∃ (s : State) (n : Fin 4), canErr s n.val = 2 ∧ (s.canN n.val).recov = true) ∧
  (∃ (s : State) (n : Fin 4), canOnBus s n.val = true) ∧
  (∃ (s : State) (n : Fin 4), canOnBus s n.val = true) ∧
  (∃ (s : State) (n : Fin 4), canOnBus s n.val = true ∧ s.flag (R.canStat_RX_DOM n.val) = false) ∧
  (∃ (s : State) (n : Fin 4), canOnBus s n.val = true ∧ s.flag (R.canStat_RX_DOM n.val) = true) :=
  ⟨⟨tA [(R.clkStat_IPLL_LOCK, 1)], _, _, 3, 0x40001000#32, _, by decide, by decide, by decide, by decide, rfl, by decide, rfl, rfl, by decide⟩,
   ⟨(tA [(R.clkStat_IPLL_LOCK, 1)]).setCanN 3 { cur := some 5 }, _, _, 3, 0xC0001000#32, _, by decide, by decide, by decide, by decide, rfl, by decide, rfl, rfl, by decide⟩,
   ⟨(tA [(R.clkStat_IPLL_LOCK, 1), (R.canStat_ERRSTATE 3, 2)]).setReg (R.canCtrl 3) 0x40001000#32, 3, by decide⟩,
   ⟨(tF [(R.canStat_ERRSTATE 3, 2)]).setCanN 3 { recov := true }, 3, by decide⟩,
   ⟨(tA [(R.clkStat_IPLL_LOCK, 1), (R.canStat_MODE_NOW 3, 1)]).setCanN 3 { rec_ := 127 }, 3, by decide⟩,
   ⟨tA [(R.clkStat_IPLL_LOCK, 1), (R.canStat_MODE_NOW 3, 1)], 3, by decide⟩,
   ⟨tA [(R.clkStat_IPLL_LOCK, 1), (R.canStat_MODE_NOW 3, 1)], 3, by decide⟩,
   ⟨tA [(R.clkStat_IPLL_LOCK, 1), (R.canStat_MODE_NOW 3, 1), (R.canStat_RX_DOM 3, 1)], 3, by decide⟩⟩

/-- Inputs that meet the hypotheses of `Obligations.Can_Messages`, clause by clause. -/
theorem witness_Can_Messages :
  (∃ (s : State) (r : Request) (i : Nat), s.served ∧ 2 ≤ r.params.length ∧ r.target ≤ 3 ∧ nodeRuns s (9 + r.target) = true ∧ canTxBad s r.target r = false ∧ s.fld (R.canCtrl_MODE r.target) ≠ 0 ∧ canTxSlot s r.target r = some i) ∧
  (∃ (s : State) (r : Request) (w : Word) (n : Nat) (i : Nat), s.served ∧ r.params = [w] ∧ n = r.target ∧ i = bitsOf w 0 4 ∧ n ≤ 3 ∧ nodeRuns s (9 + n) = true ∧ bitsOf w 4 28 = 0 ∧ (s.canSlotS n i).msg = none) ∧
  (∃ (s : State) (r : Request) (w : Word) (n : Nat) (i : Nat) (m : _), s.served ∧ r.params = [w] ∧ n = r.target ∧ i = bitsOf w 0 4 ∧ n ≤ 3 ∧ nodeRuns s (9 + n) = true ∧ bitsOf w 4 28 = 0 ∧ (s.canSlotS n i).msg = some m ∧ (s.canN n).cur = some i) ∧
  (∃ (s : State) (r : Request) (w : Word) (n : Nat) (i : Nat) (m : _), s.served ∧ r.params = [w] ∧ n = r.target ∧ i = bitsOf w 0 4 ∧ n ≤ 3 ∧ nodeRuns s (9 + n) = true ∧ bitsOf w 4 28 = 0 ∧ (s.canSlotS n i).msg = some m ∧ (s.canN n).cur ≠ some i ∧ canBound s n i = true) ∧
  (∃ (s : State) (r : Request) (w : Word) (n : Nat) (i : Nat) (m : _), s.served ∧ r.params = [w] ∧ n = r.target ∧ i = bitsOf w 0 4 ∧ n ≤ 3 ∧ nodeRuns s (9 + n) = true ∧ bitsOf w 4 28 = 0 ∧ (s.canSlotS n i).msg = some m ∧ (s.canN n).cur ≠ some i ∧ canBound s n i = false) ∧
  (∃ (s : State) (n : Fin 4) (t : Tick), canOnBus (s.at t) n.val = true ∧ canMode (s.at t) n.val = 1 ∧ ((s.at t).canN n.val).cur = none ∧ ((s.at t).canN n.val).sleep = false ∧ canNext (s.at t) n.val t = none) ∧
  (∃ (s : State) (n : Fin 4) (t : Tick) (i : Nat) (m : CanMsg), canOnBus (s.at t) n.val = true ∧ canMode (s.at t) n.val = 1 ∧ ((s.at t).canN n.val).cur = none ∧ ((s.at t).canN n.val).sleep = false ∧ canNext (s.at t) n.val t = some (i, m)) ∧
  (∃ (s : State) (u : State) (n : Fin 4) (k : Fin 3) (i : Nat) (m : CanMsg) (tdc : List Nat) (x : CanN) (bad : Bool), x = s.canN n.val ∧ x.cur = some i ∧ x.curMsg = some m ∧ u = s.setCanN n.val { x with cur := none, curMsg := none, ref := x.ref || (i == 17 && k.val != 0 && canRunning s n.val) } ∧ bad = (canTdcStep u n.val m tdc).2 ∧ bad = false ∧ k = 1) ∧
  (∃ (s : State) (u : State) (n : Fin 4) (k : Fin 3) (i : Nat) (m : CanMsg) (tdc : List Nat) (x : CanN) (bad : Bool), x = s.canN n.val ∧ x.cur = some i ∧ x.curMsg = some m ∧ u = s.setCanN n.val { x with cur := none, curMsg := none, ref := x.ref || (i == 17 && k.val != 0 && canRunning s n.val) } ∧ bad = (canTdcStep u n.val m tdc).2 ∧ bad = false ∧ k = 0) ∧
  (∃ (s : State) (u : State) (n : Fin 4) (k : Fin 3) (i : Nat) (m : CanMsg) (tdc : List Nat) (x : CanN) (bad : Bool), x = s.canN n.val ∧ x.cur = some i ∧ x.curMsg = some m ∧ u = s.setCanN n.val { x with cur := none, curMsg := none, ref := x.ref || (i == 17 && k.val != 0 && canRunning s n.val) } ∧ bad = (canTdcStep u n.val m tdc).2 ∧ (k = 2 ∨ bad = true)) ∧
  (∃ (s : State) (v : State) (n : Fin 4) (fdf : Bool) (t : Tick), v = s.at t ∧ canOnBus v n.val = true ∧ ((fdf = true → v.flag (R.canCtrl_FDEN n.val) = true))) ∧
  (∃ (s : State) (v : State) (w : State) (n : Fin 4) (ide : Bool) (fdf : Bool) (rtr : Bool) (id : BitVec 29) (dlc : Fin 16) (t : Tick) (k : _), v = s.at t ∧ canOnBus v n.val = true ∧ ((fdf = true → v.flag (R.canCtrl_FDEN n.val) = true)) ∧ w = canRxGood ((v.setFlag (R.canStat_RX_DOM n.val) false).cntWrap (R.canCnt_RX_FRAMES n.val)) n.val ∧ (¬ (fdf = false ∧ rtr = false ∧ 1 ≤ dlc.val ∧ ide = v.flag (R.canTtref_IDE n.val) ∧ id.toNat = v.fld (R.canTtref_ID n.val))) ∧ (¬ (v.flag (R.canCtrl_CMD_EN n.val) = true ∧ ide = v.flag (R.canCmdid_IDE n.val) ∧ id.toNat = v.fld (R.canCmdid_ID n.val))) ∧ canFilter w n.val ide id.toNat = some k ∧ w.fld (R.canFltA_ACT n.val k) = 1) ∧
  (∃ (s : State) (v : State) (w : State) (n : Fin 4) (ide : Bool) (fdf : Bool) (rtr : Bool) (id : BitVec 29) (dlc : Fin 16) (t : Tick), v = s.at t ∧ canOnBus v n.val = true ∧ ((fdf = true → v.flag (R.canCtrl_FDEN n.val) = true)) ∧ w = canRxGood ((v.setFlag (R.canStat_RX_DOM n.val) false).cntWrap (R.canCnt_RX_FRAMES n.val)) n.val ∧ (¬ (fdf = false ∧ rtr = false ∧ 1 ≤ dlc.val ∧ ide = v.flag (R.canTtref_IDE n.val) ∧ id.toNat = v.fld (R.canTtref_ID n.val))) ∧ (¬ (v.flag (R.canCtrl_CMD_EN n.val) = true ∧ ide = v.flag (R.canCmdid_IDE n.val) ∧ id.toNat = v.fld (R.canCmdid_ID n.val))) ∧ canFilter w n.val ide id.toNat = none ∧ w.flag (R.canCtrl_ACCEPT_ALL n.val) = true) ∧
  (∃ (s : State) (v : State) (w : State) (n : Fin 4) (ide : Bool) (fdf : Bool) (rtr : Bool) (id : BitVec 29) (dlc : Fin 16) (t : Tick), v = s.at t ∧ canOnBus v n.val = true ∧ ((fdf = true → v.flag (R.canCtrl_FDEN n.val) = true)) ∧ w = canRxGood ((v.setFlag (R.canStat_RX_DOM n.val) false).cntWrap (R.canCnt_RX_FRAMES n.val)) n.val ∧ (¬ (fdf = false ∧ rtr = false ∧ 1 ≤ dlc.val ∧ ide = v.flag (R.canTtref_IDE n.val) ∧ id.toNat = v.fld (R.canTtref_ID n.val))) ∧ (¬ (v.flag (R.canCtrl_CMD_EN n.val) = true ∧ ide = v.flag (R.canCmdid_IDE n.val) ∧ id.toNat = v.fld (R.canCmdid_ID n.val))) ∧ canFilter w n.val ide id.toNat = none ∧ w.flag (R.canCtrl_ACCEPT_ALL n.val) = false) :=
  ⟨⟨tA [(R.clkStat_IPLL_LOCK, 1), (R.canCtrl_MODE 3, 1)], tR 3 [5#32, 0xF800#32], 0, by decide +kernel⟩,
   ⟨tA [(R.clkStat_IPLL_LOCK, 1)], tR 3 [15#32], 15#32, _, _, by decide +kernel, by decide +kernel, rfl, rfl, by decide +kernel⟩,
   ⟨((tA [(R.clkStat_IPLL_LOCK, 1)]).setCanN 3 { cur := some 15 }).setCanSlotS 3 15 { msg := some { ide := false, fdf := false, brs := false, single := false, rtr := false, notify := true, id := 5, tag := 1, dlc := 0, data := [] } }, tR 3 [15#32], 15#32, _, _, { ide := false, fdf := false, brs := false, single := false, rtr := false, notify := true, id := 5, tag := 1, dlc := 0, data := [] }, by decide +kernel, by decide +kernel, rfl, rfl, by decide +kernel⟩,
   ⟨(tA [(R.clkStat_IPLL_LOCK, 1), (R.canTtwA_EN 3 31, 1), (R.canTtwA_SLOT 3 31, 15)]).setCanSlotS 3 15 { msg := some { ide := false, fdf := false, brs := false, single := false, rtr := false, notify := true, id := 5, tag := 1, dlc := 0, data := [] } }, tR 3 [15#32], 15#32, _, _, { ide := false, fdf := false, brs := false, single := false, rtr := false, notify := true, id := 5, tag := 1, dlc := 0, data := [] }, by decide +kernel, by decide +kernel, rfl, rfl, by decide +kernel⟩,
   ⟨(tA [(R.clkStat_IPLL_LOCK, 1)]).setCanSlotS 3 15 { msg := some { ide := false, fdf := false, brs := false, single := false, rtr := false, notify := true, id := 5, tag := 1, dlc := 0, data := [] } }, tR 3 [15#32], 15#32, _, _, { ide := false, fdf := false, brs := false, single := false, rtr := false, notify := true, id := 5, tag := 1, dlc := 0, data := [] }, by decide +kernel, by decide +kernel, rfl, rfl, by decide +kernel⟩,
   ⟨tA [(R.clkStat_IPLL_LOCK, 1), (R.canStat_MODE_NOW 3, 1)], 3, 5, by decide +kernel⟩,
   ⟨(tA [(R.clkStat_IPLL_LOCK, 1), (R.canStat_MODE_NOW 3, 1)]).setCanSlotS 3 15 { msg := some { ide := false, fdf := false, brs := false, single := false, rtr := false, notify := true, id := 5, tag := 1, dlc := 0, data := [] } }, 3, 5, 15, { ide := false, fdf := false, brs := false, single := false, rtr := false, notify := true, id := 5, tag := 1, dlc := 0, data := [] }, by decide +kernel⟩,
   ⟨(tF []).setCanN 3 { cur := some 15, curMsg := some { ide := false, fdf := false, brs := false, single := false, rtr := false, notify := true, id := 5, tag := 1, dlc := 0, data := [] } }, _, 3, _, 15, { ide := false, fdf := false, brs := false, single := false, rtr := false, notify := true, id := 5, tag := 1, dlc := 0, data := [] }, [], _, _, rfl, by decide +kernel, by decide +kernel, rfl, rfl, by decide +kernel, rfl⟩,
   ⟨(tF []).setCanN 3 { cur := some 15, curMsg := some { ide := false, fdf := false, brs := false, single := false, rtr := false, notify := true, id := 5, tag := 1, dlc := 0, data := [] } }, _, 3, _, 15, { ide := false, fdf := false, brs := false, single := false, rtr := false, notify := true, id := 5, tag := 1, dlc := 0, data := [] }, [], _, _, rfl, by decide +kernel, by decide +kernel, rfl, rfl, by decide +kernel, rfl⟩,
   ⟨(tF []).setCanN 3 { cur := some 15, curMsg := some { ide := false, fdf := false, brs := false, single := false, rtr := false, notify := true, id := 5, tag := 1, dlc := 0, data := [] } }, _, 3, 2, 15, { ide := false, fdf := false, brs := false, single := false, rtr := false, notify := true, id := 5, tag := 1, dlc := 0, data := [] }, [5, 300], _, _, rfl, by decide +kernel, by decide +kernel, rfl, rfl, by decide +kernel⟩,
   ⟨tA [(R.clkStat_IPLL_LOCK, 1), (R.canStat_MODE_NOW 3, 1), (R.canCtrl_FDEN 3, 1)], _, 3, true, 5, rfl, by decide +kernel⟩,
   ⟨tA [(R.clkStat_IPLL_LOCK, 1), (R.canStat_MODE_NOW 3, 1), (R.canFltA_ACT 3 31, 1), (R.canFltA_IDE 3 31, 1), (R.canFltA_FID 3 31, 5)], _, _, 3, true, false, false, 5, 0, 5, 31, rfl, by decide +kernel, by decide +kernel, rfl, by decide +kernel⟩,
   ⟨tA [(R.clkStat_IPLL_LOCK, 1), (R.canStat_MODE_NOW 3, 1), (R.canCtrl_ACCEPT_ALL 3, 1)], _, _, 3, true, false, false, 5, 0, 5, rfl, by decide +kernel, by decide +kernel, rfl, by decide +kernel⟩,
   ⟨tA [(R.clkStat_IPLL_LOCK, 1), (R.canStat_MODE_NOW 3, 1), (R.canCtrl_ACCEPT_ALL 3, 0)], _, _, 3, true, false, false, 5, 0, 5, rfl, by decide +kernel, by decide +kernel, rfl, by decide +kernel⟩⟩

/-- Inputs that meet the hypotheses of `Obligations.Can_Schedule`, clause by clause. -/
theorem witness_Can_Schedule :
  (∃ (s : State) (r : Request), s.served ∧ r.params = [1#32] ∧ r.target ≤ 3 ∧ nodeRuns s (9 + r.target) = true ∧ findNat 32 (ttwFails s r.target) = none ∧ canRunning s r.target = false ∧ canRole s r.target ≠ 0 ∧ s.fld (R.canCtrl_MODE r.target) = 1) ∧
  (∃ (s : State) (r : Request), s.served ∧ r.params = [0#32] ∧ r.target ≤ 3 ∧ nodeRuns s (9 + r.target) = true) ∧
  (∃ (s : State) (v : State) (n : Fin 4) (t : Tick), v = s.at t ∧ canRunning v n.val = true ∧ canRole v n.val = 1 ∧ canOnBus v n.val = true ∧ canMode v n.val = 1) ∧
  (∃ (s : State) (v : State) (n : Fin 4) (t : Tick), v = s.at t ∧ canRunning v n.val = true ∧ canRole v n.val = 2 ∧ canOnBus v n.val = true) ∧
  (∃ (s : State) (n : Fin 4), canRunning s n.val = true ∧ canRole s n.val = 2 ∧ s.flag (R.canTtstat_SYNC n.val) = true) ∧
  (∃ (s : State) (u : State) (n : Fin 4) (w : Fin 32) (i : Nat), ttGoverns s n.val = true ∧ (s.canN n.val).begun = true ∧ s.flag (R.canTtwA_EN n.val w.val) = true ∧ ttwIn s n.val w.val (s.fld (R.canTtstat_CYCLE n.val)) = true ∧ (s.canN n.val).open_.contains w.val = false ∧ i = s.fld (R.canTtwA_SLOT n.val w.val) ∧ u = (s.at (ttwStart s n.val w.val)).setCanN n.val { s.canN n.val with open_ := (s.canN n.val).open_ ++ [w.val] } ∧ (s.flag (R.canTtwA_TYPE n.val w.val) = true ∨ ((u.canSlotS n.val i).skip = false ∧ (u.canSlotS n.val i).msg = none))) ∧
  (∃ (s : State) (u : State) (n : Fin 4) (w : Fin 32) (i : Nat), ttGoverns s n.val = true ∧ (s.canN n.val).begun = true ∧ s.flag (R.canTtwA_EN n.val w.val) = true ∧ ttwIn s n.val w.val (s.fld (R.canTtstat_CYCLE n.val)) = true ∧ (s.canN n.val).open_.contains w.val = false ∧ i = s.fld (R.canTtwA_SLOT n.val w.val) ∧ u = (s.at (ttwStart s n.val w.val)).setCanN n.val { s.canN n.val with open_ := (s.canN n.val).open_ ++ [w.val] } ∧ s.flag (R.canTtwA_TYPE n.val w.val) = false ∧ (u.canSlotS n.val i).skip = true) ∧
  (∃ (s : State) (u : State) (n : Fin 4) (w : Fin 32) (i : Nat), ttGoverns s n.val = true ∧ (s.canN n.val).begun = true ∧ s.flag (R.canTtwA_EN n.val w.val) = true ∧ ttwIn s n.val w.val (s.fld (R.canTtstat_CYCLE n.val)) = true ∧ (s.canN n.val).open_.contains w.val = false ∧ i = s.fld (R.canTtwA_SLOT n.val w.val) ∧ u = (s.at (ttwStart s n.val w.val)).setCanN n.val { s.canN n.val with open_ := (s.canN n.val).open_ ++ [w.val] } ∧ s.flag (R.canTtwA_TYPE n.val w.val) = false ∧ (u.canSlotS n.val i).skip = false ∧ (u.canSlotS n.val i).msg ≠ none) ∧
  (∃ (s : State) (n : Fin 4) (w : Fin 32) (i : Nat), (s.canN n.val).open_.contains w.val = true ∧ i = s.fld (R.canTtwA_SLOT n.val w.val) ∧ (ttwExcl s n.val w.val = false ∨ (s.canN n.val).due.contains i = false)) ∧
  (∃ (s : State) (u : State) (v : State) (n : Fin 4) (w : Fin 32) (i : Nat) (m : _), (s.canN n.val).open_.contains w.val = true ∧ i = s.fld (R.canTtwA_SLOT n.val w.val) ∧ u = (s.at (ttwEnd s n.val w.val)).setCanN n.val { s.canN n.val with open_ := (s.canN n.val).open_.filter (· != w.val), due := if ttwExcl s n.val w.val then (s.canN n.val).due.filter (· != i) else (s.canN n.val).due } ∧ v = (u.cntSat (R.canTtstat_MISSED n.val)).raiseLim 236 n.val 3#32 (100 * msTicks) ∧ ttwExcl s n.val w.val = true ∧ (s.canN n.val).due.contains i = true ∧ (v.canSlotS n.val i).msg = some m) :=
  ⟨⟨tA [(R.clkStat_IPLL_LOCK, 1), (R.canCtrl_MODE 3, 1), (R.canTtcfg_ROLE 3, 1)], tR 3 [1#32], by decide⟩,
   ⟨tA [(R.clkStat_IPLL_LOCK, 1)], tR 3 [0#32], by decide⟩,
   ⟨tA [(R.clkStat_IPLL_LOCK, 1), (R.canStat_MODE_NOW 3, 1), (R.canTtstat_RUN 3, 1), (R.canTtcfg_ROLE 3, 1)], _, 3, 5, rfl, by decide⟩,
   ⟨tA [(R.clkStat_IPLL_LOCK, 1), (R.canStat_MODE_NOW 3, 1), (R.canTtstat_RUN 3, 1), (R.canTtcfg_ROLE 3, 2)], _, 3, 5, rfl, by decide⟩,
   ⟨tF [(R.canTtstat_RUN 3, 1), (R.canTtcfg_ROLE 3, 2), (R.canTtstat_SYNC 3, 1)], 3, by decide⟩,
   ⟨(tF [(R.canTtstat_RUN 3, 1), (R.canTtcfg_ROLE 3, 1), (R.canTtwA_EN 3 31, 1), (R.canTtwA_SLOT 3 31, 15), (R.canTtwA_TYPE 3 31, 1)]).setCanN 3 { begun := true }, _, 3, 31, _, by decide, by decide, by decide, by decide, by decide, rfl, rfl, by decide⟩,
   ⟨((tF [(R.canTtstat_RUN 3, 1), (R.canTtcfg_ROLE 3, 1), (R.canTtwA_EN 3 31, 1), (R.canTtwA_SLOT 3 31, 15), (R.canTtwA_TYPE 3 31, 0)]).setCanN 3 { begun := true }).setCanSlotS 3 15 { skip := true }, _, 3, 31, _, by decide, by decide, by decide, by decide, by decide, rfl, rfl, by decide⟩,
   ⟨((tF [(R.canTtstat_RUN 3, 1), (R.canTtcfg_ROLE 3, 1), (R.canTtwA_EN 3 31, 1), (R.canTtwA_SLOT 3 31, 15), (R.canTtwA_TYPE 3 31, 0)]).setCanN 3 { begun := true }).setCanSlotS 3 15 { msg := some { ide := false, fdf := false, brs := false, single := false, rtr := false, notify := true, id := 5, tag := 1, dlc := 0, data := [] } }, _, 3, 31, _, by decide, by decide, by decide, by decide, by decide, rfl, rfl, by decide⟩,
   ⟨(tF [(R.canTtstat_RUN 3, 1), (R.canTtcfg_ROLE 3, 1), (R.canTtwA_EN 3 31, 1), (R.canTtwA_SLOT 3 31, 15), (R.canTtwA_TYPE 3 31, 1)]).setCanN 3 { open_ := [31] }, 3, 31, _, by decide, rfl, by decide⟩,
   ⟨((tF [(R.canTtstat_RUN 3, 1), (R.canTtcfg_ROLE 3, 1), (R.canTtwA_EN 3 31, 1), (R.canTtwA_SLOT 3 31, 15), (R.canTtwA_TYPE 3 31, 0)]).setCanN 3 { open_ := [31], due := [15] }).setCanSlotS 3 15 { msg := some { ide := false, fdf := false, brs := false, single := false, rtr := false, notify := true, id := 5, tag := 1, dlc := 0, data := [] } }, _, _, 3, 31, _, { ide := false, fdf := false, brs := false, single := false, rtr := false, notify := true, id := 5, tag := 1, dlc := 0, data := [] }, by decide, rfl, rfl, rfl, by decide⟩⟩

/-- Inputs that meet the hypotheses of `Obligations.Sward_Ports`, clause by clause. -/
theorem witness_Sward_Ports :
  (∃ (s : State) (p : Fin 4), swLive s p.val = true ∧ swState s p.val = 1) ∧
  (∃ (s : State) (p : Fin 4), swLive s p.val = true ∧ swState s p.val = 1) ∧
  (∃ (s : State) (p : Fin 4), swLive s p.val = true ∧ swState s p.val = 2) ∧
  (∃ (s : State) (p : Fin 4), swCarries s p.val = true) ∧
  (∃ (s : State) (p : Fin 4), swState s p.val ≠ 0) ∧
  (∃ (s : State) (p : Fin 4), swLive s p.val = true ∧ swState s p.val ≠ 0) ∧
  (∃ (s : State) (p : Fin 4), swCarries s p.val = true) ∧
  (∃ (s : State) (v : State) (p : Fin 4) (t : Tick) (a : Nat) (b : Nat), v = s.at t ∧ swCarries v p.val = true ∧ (v.swPort p.val).hush = false ∧ (v.swPort p.val).owed = [a, b] ∧ p.val < v.sward.ports.length) ∧
  (∃ (s : State) (v : State) (p : Fin 4) (t : Tick), v = s.at t ∧ swState v p.val = 2 ∧ swLive v p.val = true) ∧
  (∃ (s : State) (v : State) (p : Fin 4) (t : Tick) (t0 : Tick) (tag : BitVec 8), v = s.at t ∧ swState v p.val = 2 ∧ swLive v p.val = true ∧ (v.swPort p.val).dreqAt = some t0 ∧ (v.swPort p.val).tag = tag.toNat) ∧
  (∃ (s : State) (r : Request), s.served ∧ r.params = [] ∧ r.target ≤ 3 ∧ nodeRuns s (21 + r.target) = true ∧ swNode s ≠ 0) ∧
  (∃ (s : State) (r : Request) (w : Word), s.served ∧ r.params = [w] ∧ r.target ≤ 3 ∧ bitsOf w 1 31 = 0 ∧ nodeRuns s (21 + r.target) = true ∧ bitOf w 0 = true) ∧
  (∃ (s : State) (r : Request) (w : Word), s.served ∧ r.params = [w] ∧ r.target ≤ 3 ∧ bitsOf w 1 31 = 0 ∧ nodeRuns s (21 + r.target) = true ∧ bitOf w 0 = false ∧ swState s r.target = 2 ∧ swLive s r.target = true) ∧
  (∃ (s : State) (r : Request) (w : Word), s.served ∧ r.params = [w] ∧ r.target ≤ 3 ∧ bitsOf w 1 31 = 0 ∧ nodeRuns s (21 + r.target) = true ∧ bitOf w 0 = false ∧ swState s r.target = 2 ∧ swLive s r.target = false) ∧
  (∃ (s : State) (r : Request) (w : Word), s.served ∧ r.params = [w] ∧ r.target ≤ 3 ∧ bitsOf w 1 31 = 0 ∧ nodeRuns s (21 + r.target) = true ∧ bitOf w 0 = false ∧ swState s r.target ≠ 2) ∧
  (∃ (s : State) (w : Word), bitsOf w 0 18 ≠ swLocal ∧ (List.range 4).all (fun p => swState s p == 0) = true) ∧
  (∃ (s : State) (p : Fin 4) (c : Fin 3) (w : Word) (a : Nat → Nat), regReady s (R.swardRes0 p.val) = true ∧ a = (fun i => if i = 0 then R.swardRes0 p.val else if i = 1 then R.swardRes1 p.val else R.swardRes2 p.val) ∧ bitsOf w 0 19 + sumNat (((List.range 3).filter (· != c.val)).map (fun i => bitsOf (s.reg (a i)) 0 19)) ≤ 270000) ∧
  (∃ (s : State) (w : Word) (k : _), hrxCut (s.fld R.swardHrxtail_TAIL) (bitsOf w 0 16) s.sward.ents 0 = some k) ∧
  (∃ (s : State) (w : Word), hrxCut (s.fld R.swardHrxtail_TAIL) (bitsOf w 0 16) s.sward.ents 0 = none) :=
  ⟨⟨tA [(R.clkStat_SPLL_LOCK, 1), (R.swardPstat_STATE 3, 1)], 3, by decide +kernel⟩,
   ⟨tA [(R.clkStat_SPLL_LOCK, 1), (R.swardPstat_STATE 3, 1), (R.swardPstat_NEIGH 3, 5)], 3, by decide +kernel⟩,
   ⟨tA [(R.clkStat_SPLL_LOCK, 1), (R.swardPstat_STATE 3, 2), (R.swardPstat_NEIGH 3, 5)], 3, by decide +kernel⟩,
   ⟨tA [(R.clkStat_SPLL_LOCK, 1), (R.swardPstat_STATE 3, 2)], 3, by decide +kernel⟩,
   ⟨tF [(R.swardPstat_STATE 3, 2)], 3, by decide +kernel⟩,
   ⟨tA [(R.clkStat_SPLL_LOCK, 1), (R.swardPstat_STATE 3, 2)], 3, by decide +kernel⟩,
   ⟨tA [(R.clkStat_SPLL_LOCK, 1), (R.swardPstat_STATE 3, 2)], 3, by decide +kernel⟩,
   ⟨(tA [(R.clkStat_SPLL_LOCK, 1), (R.swardPstat_STATE 3, 2)]).setSwPort 3 { owed := [9, 255] }, _, 3, 5, 9, 255, rfl, by decide +kernel⟩,
   ⟨tA [(R.clkStat_SPLL_LOCK, 1), (R.swardPstat_STATE 3, 2)], _, 3, 5, rfl, by decide +kernel⟩,
   ⟨(tA [(R.clkStat_SPLL_LOCK, 1), (R.swardPstat_STATE 3, 2)]).setSwPort 3 { dreqAt := some 5, tag := 255 }, _, 3, 9, 5, 255, rfl, by decide +kernel⟩,
   ⟨tA [(R.clkStat_SPLL_LOCK, 1), (R.swardNode_NODE, 5)], tR 3 [], by decide +kernel⟩,
   ⟨tA [(R.clkStat_SPLL_LOCK, 1), (R.swardPstat_STATE 3, 2)], tR 3 [1#32], 1#32, by decide +kernel⟩,
   ⟨tA [(R.clkStat_SPLL_LOCK, 1), (R.swardPstat_STATE 3, 2)], tR 3 [0#32], 0#32, by decide +kernel⟩,
   ⟨tA [(R.clkStat_SPLL_LOCK, 1), (R.swardPstat_STATE 3, 2), (R.clkStat_COAST, 1)], tR 3 [0#32], 0#32, by decide +kernel⟩,
   ⟨tA [(R.clkStat_SPLL_LOCK, 1), (R.swardPstat_STATE 3, 1)], tR 3 [0#32], 0#32, by decide +kernel⟩,
   ⟨tF [], 0x8003FFFE#32, by decide +kernel⟩,
   ⟨tA [(R.clkStat_SPLL_LOCK, 1), (R.swardRes1_RES 3, 0), (R.swardRes2_RES 3, 0)], 3, 0, 270000#32, _, by decide +kernel, rfl, by decide +kernel⟩,
   ⟨(tF [(R.swardHrxtail_TAIL, 2047)]).withSward { ents := [5] }, 4#32, 1, by decide +kernel⟩,
   ⟨(tF [(R.swardHrxtail_TAIL, 2047)]).withSward { ents := [5] }, 3#32, by decide +kernel⟩⟩

/-- Inputs that meet the hypotheses of `Obligations.Sward_Frames`, clause by clause. -/
theorem witness_Sward_Frames :
  (∃ (s : State) (v : State) (p : Fin 4) (t : Tick), v = s.at t ∧ swCarries v p.val = true) ∧
  (∃ (s : State) (v : State) (u : State) (p : Fin 4) (t : Tick), v = s.at t ∧ swCarries v p.val = true ∧ (v.swPort p.val).hush = false ∧ u = swFillTokens (swWaitDrop (if swState v p.val = 2 then swPull v p.val else v) p.val) p.val ∧ swPick u p.val = none) ∧
  (∃ (s : State) (v : State) (u : State) (p : Fin 4) (t : Tick) (c : Nat) (bucket : Bool) (q : SwQ) (rest : List SwQ), v = s.at t ∧ swCarries v p.val = true ∧ (v.swPort p.val).hush = false ∧ u = swFillTokens (swWaitDrop (if swState v p.val = 2 then swPull v p.val else v) p.val) p.val ∧ swPick u p.val = some (c, bucket) ∧ nth (u.swPort p.val).queues c [] = q :: rest ∧ q.from_ = none) ∧
  (∃ (s : State) (v : State) (u : State) (p : Fin 4) (t : Tick) (c : Nat) (bucket : Bool) (q : SwQ) (rest : List SwQ) (i : _), v = s.at t ∧ swCarries v p.val = true ∧ (v.swPort p.val).hush = false ∧ u = swFillTokens (swWaitDrop (if swState v p.val = 2 then swPull v p.val else v) p.val) p.val ∧ swPick u p.val = some (c, bucket) ∧ nth (u.swPort p.val).queues c [] = q :: rest ∧ q.from_ = some i) ∧
  (∃ (s : State) (p : Fin 4) (q0 : List SwQ) (q1 : List SwQ) (q2 : List SwQ) (q3 : List SwQ), (s.swPort p.val).queues = [q0, q1, q2, q3] ∧ p.val < s.sward.ports.length) ∧
  (∃ (s : State) (peer : BitVec 18) (bulk : Bool) (cls : Nat) (x : SwTx), cls = (if bulk then 3 else 2) ∧ swTxOf s peer.toNat cls = some x ∧ x.una ≠ [] ∧ x.resends < 8) ∧
  (∃ (s : State) (peer : BitVec 18) (bulk : Bool) (cls : Nat) (x : SwTx), cls = (if bulk then 3 else 2) ∧ swTxOf s peer.toNat cls = some x ∧ x.una ≠ [] ∧ 8 ≤ x.resends) ∧
  (∃ (s : State) (peer : BitVec 18) (bulk : Bool) (cls : Nat) (x : SwRx) (d : Tick), cls = (if bulk then 3 else 2) ∧ swRxOf s peer.toNat cls = some x ∧ x.due = some d) ∧
  (∃ (s : State) (peer : BitVec 18) (bulk : Bool) (cls : Nat) (x : _), cls = (if bulk then 3 else 2) ∧ swRxOf s peer.toNat cls = some x) ∧
  (∃ (s : State) (peer : BitVec 18) (bulk : Bool) (cls : Nat) (x : _), cls = (if bulk then 3 else 2) ∧ swTxOf s peer.toNat cls = some x) ∧
  (∃ (s : State), swHears s = true ∧ s.flag R.swardFtstat_FT_LOCK = false) ∧
  (∃ (s : State) (ev : Fin 256) (us : List Nat), swHears s = true ∧ us = (List.range 64).filter (fun u => s.fld (R.latchCfg_SRCK u) == 3 && s.fld (R.latchCfg_SRC u) == ev.val && s.flag (R.latchCfg_EN u)) ∧ s.flag R.swardFtstat_FT_LOCK = true ∧ us = []) ∧
  (∃ (s : State) (ev : Fin 256) (us : List Nat) (u : _), swHears s = true ∧ us = (List.range 64).filter (fun u => s.fld (R.latchCfg_SRCK u) == 3 && s.fld (R.latchCfg_SRC u) == ev.val && s.flag (R.latchCfg_EN u)) ∧ s.flag R.swardFtstat_FT_LOCK = true ∧ us = [u]) ∧
  (∃ (s : State) (r : Request) (a : Word) (b : Word) (op : Nat) (addr : Nat) (plen : Nat) (ports : Nat) (now : List (Nat × Nat × Nat)), s.served ∧ r.target = 0 ∧ r.params = [a, b] ∧ op = bitsOf a 30 2 ∧ addr = bitsOf a 0 18 ∧ plen = bitsOf b 8 5 ∧ ports = bitsOf b 0 5 ∧ op ≠ 3 ∧ bitsOf a 18 12 = 0 ∧ bitsOf b 13 19 = 0 ∧ bitsOf b 5 3 = 0 ∧ plen ≤ 18 ∧ addr % 2 ^ (18 - plen) = 0 ∧ ((op = 0 → ports ≠ 0)) ∧ now = swApply (swEntries s) s.sward.staged ∧ ((op = 0 → now.any (fun e => e.1 == addr && e.2.1 == plen) = true ∨ now.length < 1024)) ∧ (r.ackAtApply = false ∨ r.noReply = true)) ∧
  (∃ (s : State) (r : Request) (a : Word) (b : Word) (op : Nat) (addr : Nat) (plen : Nat) (ports : Nat) (now : List (Nat × Nat × Nat)), s.served ∧ r.target = 0 ∧ r.params = [a, b] ∧ op = bitsOf a 30 2 ∧ addr = bitsOf a 0 18 ∧ plen = bitsOf b 8 5 ∧ ports = bitsOf b 0 5 ∧ op ≠ 3 ∧ bitsOf a 18 12 = 0 ∧ bitsOf b 13 19 = 0 ∧ bitsOf b 5 3 = 0 ∧ plen ≤ 18 ∧ addr % 2 ^ (18 - plen) = 0 ∧ ((op = 0 → ports ≠ 0)) ∧ now = swApply (swEntries s) s.sward.staged ∧ ((op = 0 → now.any (fun e => e.1 == addr && e.2.1 == plen) = true ∨ now.length < 1024)) ∧ r.ackAtApply = true ∧ r.noReply = false) ∧
  (∃ (s : State) (v : State) (p : Fin 4) (t : Tick), v = s.at t ∧ v.flag R.swardNode_ROOT = false ∧ v.fld R.swardFtstat_UPPORT = p.val ∧ swCarries v p.val = true) :=
  ⟨⟨tA [(R.clkStat_SPLL_LOCK, 1), (R.swardPstat_STATE 3, 2)], _, 3, 5, rfl, by decide +kernel⟩,
   ⟨tA [(R.clkStat_SPLL_LOCK, 1), (R.swardPstat_STATE 3, 3)], _, _, 3, 5, rfl, by decide +kernel, by decide +kernel, rfl, by decide +kernel⟩,
   ⟨(tA [(R.clkStat_SPLL_LOCK, 1), (R.swardPstat_STATE 3, 3)]).setSwPort 3 { queues := [[{ f := { cls := 0, dst := 5, svc := 0, src := 9 } }], [], [], []], tok := [1000, 0, 0] }, _, _, 3, 5, 0, true, { f := { cls := 0, dst := 5, svc := 0, src := 9 } }, [], rfl, by decide +kernel, by decide +kernel, rfl, by decide +kernel⟩,
   ⟨(tA [(R.clkStat_SPLL_LOCK, 1), (R.swardPstat_STATE 3, 3)]).setSwPort 3 { queues := [[{ f := { cls := 0, dst := 5, svc := 0, src := 9 }, from_ := some 1 }], [], [], []], tok := [1000, 0, 0] }, _, _, 3, 5, 0, true, { f := { cls := 0, dst := 5, svc := 0, src := 9 }, from_ := some 1 }, [], 1, rfl, by decide +kernel, by decide +kernel, rfl, by decide +kernel⟩,
   ⟨((tF []).withDt 0xFFFFFFFFFFFF#64).setSwPort 3 { queues := [[{ f := { cls := 0, dst := 5, svc := 0, src := 9 } }], [], [], []] }, 3, [{ f := { cls := 0, dst := 5, svc := 0, src := 9 } }], [], [], [], by decide +kernel⟩,
   ⟨(tF []).withSward { tx := [{ peer := 0x3FFFF, cls := 3, una := [({ cls := 3, dst := 0x3FFFF, svc := 0 }, none)], resends := 7 }] }, 0x3FFFF, true, _, { peer := 0x3FFFF, cls := 3, una := [({ cls := 3, dst := 0x3FFFF, svc := 0 }, none)], resends := 7 }, rfl, by decide +kernel⟩,
   ⟨(tF []).withSward { tx := [{ peer := 0x3FFFF, cls := 3, una := [({ cls := 3, dst := 0x3FFFF, svc := 0 }, none)], resends := 8 }] }, 0x3FFFF, true, _, { peer := 0x3FFFF, cls := 3, una := [({ cls := 3, dst := 0x3FFFF, svc := 0 }, none)], resends := 8 }, rfl, by decide +kernel⟩,
   ⟨(tF []).withSward { rx := [{ peer := 0x3FFFF, cls := 2, due := some 5 }] }, 0x3FFFF, false, _, { peer := 0x3FFFF, cls := 2, due := some 5 }, 5, rfl, by decide +kernel⟩,
   ⟨(tF []).withSward { rx := [{ peer := 0x3FFFF, cls := 2, due := some 5 }] }, 0x3FFFF, false, _, { peer := 0x3FFFF, cls := 2, due := some 5 }, rfl, by decide +kernel⟩,
   ⟨(tF []).withSward { tx := [{ peer := 0x3FFFF, cls := 3, una := [({ cls := 3, dst := 0x3FFFF, svc := 0 }, none)], resends := 8 }] }, 0x3FFFF, true, _, { peer := 0x3FFFF, cls := 3, una := [({ cls := 3, dst := 0x3FFFF, svc := 0 }, none)], resends := 8 }, rfl, by decide +kernel⟩,
   ⟨tA [(R.clkStat_SPLL_LOCK, 1), (R.swardPstat_STATE 3, 2), (R.latchCfg_SRCK 63, 3), (R.latchCfg_SRC 63, 255), (R.latchCfg_EN 63, 1)], by decide +kernel⟩,
   ⟨tA [(R.clkStat_SPLL_LOCK, 1), (R.swardPstat_STATE 3, 2), (R.swardFtstat_FT_LOCK, 1)], 255, _, by decide +kernel, rfl, by decide +kernel⟩,
   ⟨tA [(R.clkStat_SPLL_LOCK, 1), (R.swardPstat_STATE 3, 2), (R.swardFtstat_FT_LOCK, 1), (R.latchCfg_SRCK 63, 3), (R.latchCfg_SRC 63, 255), (R.latchCfg_EN 63, 1), (R.latchCfg_EDGE 63, 1), (R.latchStat_ARMED 63, 1)], 255, _, 63, by decide +kernel, rfl, by decide +kernel⟩,
   ⟨tF [], tR 0 [0x4003FFFF#32, 0x1201#32], 0x4003FFFF#32, 0x1201#32, _, _, _, _, _, by decide +kernel, by decide +kernel, by decide +kernel, rfl, rfl, rfl, rfl, by decide +kernel, by decide +kernel, by decide +kernel, by decide +kernel, by decide +kernel, by decide +kernel, by decide +kernel, rfl, by decide +kernel⟩,
   ⟨tF [], { tR 0 [0x4003FFFF#32, 0x1201#32] with h0 := 0x00010007#32 }, 0x4003FFFF#32, 0x1201#32, _, _, _, _, _, by decide +kernel, by decide +kernel, by decide +kernel, rfl, rfl, rfl, rfl, by decide +kernel, by decide +kernel, by decide +kernel, by decide +kernel, by decide +kernel, by decide +kernel, by decide +kernel, rfl, by decide +kernel⟩,
   ⟨tA [(R.clkStat_SPLL_LOCK, 1), (R.swardPstat_STATE 3, 2), (R.swardFtstat_UPPORT, 3)], _, 3, 5, rfl, by decide +kernel⟩⟩

/-- Inputs that meet the hypotheses of `Obligations.Sheaf_Works`, clause by clause. -/
theorem witness_Sheaf_Works :
  (∃ (s : State) (r : Request) (a : Word) (b : Word) (role : Nat) (base : Nat) (mst : Nat), s.served ∧ r.target = 0 ∧ r.params = [a, b] ∧ role = bitsOf a 30 2 ∧ base = bitsOf a 0 18 ∧ mst = bitsOf b 0 18 ∧ bitsOf a 18 12 = 0 ∧ bitsOf b 18 14 = 0 ∧ base % 16 = 0 ∧ swNode s = base + sheafSlot s ∧ ((2 ≤ role → base ≤ mst ∧ mst ≤ base + 15 ∧ mst ≠ swNode s)) ∧ ((∀ g, g < 8 → grpState s g = 0)) ∧ s.flag R.nibSync_IN_EN = false ∧ ((role = 2 → s.flag R.timeCfg_DISC = false)) ∧ ((role = 1 ∨ role = 2 → (s.grp 0).p ≠ 0 ∧ tg0Committed s none = true))) ∧
  (∃ (s : State), s.fld R.swardEpoch_EPOCH % 16 = 0 ∧ s.sheaf.leaving = true ∧ sheafState s = 2) ∧
  (∃ (s : State), s.fld R.swardEpoch_EPOCH % 16 = 0 ∧ s.sheaf.leaving = false ∧ sheafRole s = 1 ∧ sheafState s = 2) ∧
  (∃ (s : State), s.fld R.swardEpoch_EPOCH % 16 = 0 ∧ sheafState s ≠ 2) ∧
  (∃ (s : State), sheafRole s = 1 ∧ sheafState s = 2) ∧
  (∃ (s : State), 2 ≤ sheafRole s ∧ (sheafState s = 1 ∨ sheafState s = 2)) ∧
  (∃ (s : State) (src : BitVec 18) (took : Bool), 2 ≤ sheafRole s ∧ (sheafState s = 1 ∨ sheafState s = 2) ∧ (src.toNat = s.fld R.sheafMaster_MASTER ∨ took = true)) ∧
  (∃ (s : State), sheafState s = 2) ∧
  (∃ (s : State) (slot : Fin 16) (e : _), sheafState s = 2 ∧ sheafRole s = 1 ∧ s.sheaf.seen.find? (fun e => e.1 == slot.val) = some e) ∧
  (∃ (s : State) (slot : Fin 16) (t : _), sheafState s = 2 ∧ sheafRole s = 3 ∧ sheafNode s slot.val = s.fld R.sheafMaster_MASTER ∧ s.sheaf.beaconAt = some t) ∧
  (∃ (s : State) (v : BitVec 16) (t : Tick), sheafState (s.at t) = 2 ∧ 256 ≤ v.toNat ∧ v.toNat ≤ 0x10FF ∧ v.toNat / 256 - 1 ≠ sheafSlot (s.at t)) ∧
  (∃ (s : State) (t : Tick), sheafRole (s.at t) = 2 ∧ sheafState (s.at t) = 2) ∧
  (∃ (s : State), s.sheaf.check = none) ∧
  (∃ (s : State) (b : _), s.sheaf.check = some b ∧ sheafRole s = 2 ∧ sheafState s = 2) :=
  ⟨⟨tF [(R.sheafCfg_BASE, 16), (R.sheafCfg_SLOT, 3), (R.swardNode_NODE, 19), (R.sheafStat_STATE, 2)], tR 0 [16#32, 0#32], 16#32, 0#32, _, _, _, by decide +kernel, by decide +kernel, by decide +kernel, rfl, rfl, rfl, by decide +kernel⟩,
   ⟨(tF [(R.sheafStat_STATE, 2)]).withSheaf { leaving := true }, by decide +kernel⟩,
   ⟨tF [(R.sheafCfg_ROLE, 1), (R.sheafStat_STATE, 2)], by decide +kernel⟩,
   ⟨tF [], by decide +kernel⟩,
   ⟨tF [(R.sheafCfg_ROLE, 1), (R.sheafStat_STATE, 2)], by decide +kernel⟩,
   ⟨tF [(R.sheafCfg_ROLE, 3), (R.sheafStat_STATE, 2)], by decide +kernel⟩,
   ⟨tF [(R.sheafCfg_ROLE, 3), (R.sheafStat_STATE, 2), (R.sheafMaster_MASTER, 17)], 17, false, by decide +kernel⟩,
   ⟨tF [(R.sheafCfg_ROLE, 1), (R.sheafStat_STATE, 2)], by decide +kernel⟩,
   ⟨(tF [(R.sheafCfg_ROLE, 1), (R.sheafStat_STATE, 2)]).withSheaf { seen := [(15, 5)] }, 15, (15, 5), by decide +kernel⟩,
   ⟨(tF [(R.sheafCfg_ROLE, 3), (R.sheafStat_STATE, 2), (R.sheafMaster_MASTER, 15)]).withSheaf { beaconAt := some 5 }, 15, 5, by decide +kernel⟩,
   ⟨tF [(R.sheafCfg_ROLE, 2), (R.sheafStat_STATE, 2)], 0x10FF, 5, by decide +kernel⟩,
   ⟨tF [(R.sheafCfg_ROLE, 2), (R.sheafStat_STATE, 2)], 5, by decide +kernel⟩,
   ⟨tF [(R.sheafCfg_ROLE, 2), (R.sheafStat_STATE, 2)], by decide +kernel⟩,
   ⟨(tF [(R.sheafCfg_ROLE, 2), (R.sheafStat_STATE, 2)]).withSheaf { check := some 5 }, 5, by decide +kernel⟩⟩

/-- Inputs that meet the hypotheses of `Obligations.Step_Takes_The_Front`, clause by clause. -/
theorem witness_Step_Takes_The_Front :
  (∃ (c : Instr) (cs : List Instr) (s : State), s.pending = c :: cs) ∧
  (∃ (s : State), s.pending = []) ∧
  (∃ (s : State), s.flag R.clkStat_TB_VALID = false) :=
  ⟨⟨.nop (tR 0 []), [.commandReady 5#32], (tF []).withPending [.nop (tR 0 []), .commandReady 5#32], by decide⟩,
   ⟨tF [], by decide⟩,
   ⟨tF [], by decide⟩⟩

/-- Inputs that meet the hypotheses of `Obligations.Husk_Output_Stays_Permitted`. -/
theorem witness_Husk_Output_Stays_Permitted :
  ∃ (s : State) (t : State), s.genHeld ∧ step s = .next t :=
  ⟨((tF []).setHusk { st := 2, gen := true }).withPending [.nop (tR 0 [])], _, by decide, rfl⟩

/-- Inputs that meet the hypotheses of `Obligations.Half_Bridge_Never_Shorts`, clause by clause. -/
theorem witness_Half_Bridge_Never_Shorts :
  (∃ (s : State) (n : Nat) (h : Bool) (l : Bool), gateLevels s n = some (h, l)) ∧
  (∃ (p : GatePlan) (x : Nat) (y : Nat), (p.levels x).1 = true ∧ (p.levels y).2 = true) ∧
  (∃ (lo : Nat) (d : Nat) (len : Nat) (x : Int), (lo : Int) ≤ x ∧ x + d < len) ∧
  (∃ (lo : Nat) (d : Nat) (len : Nat) (x : Int), x < lo ∧ lo + d < len) ∧
  (∃ (lo : Nat) (d : Nat) (len : Nat) (x : Int), d < len ∧ (len : Int) ≤ max (lo : Int) x + d) ∧
  (∃ (s : State) (n : Nat) (base : Tick) (full : Bool) (rise : Option (Nat × Nat)) (fall : Option (Nat × Nat)) (x : _), s.flag (R.nibNstat_HIZ n) = false ∧ (s.nibS n).idle = false ∧ (nibLevels s n (base - 1)).1 = true ∧ ((planStart s n base full rise fall).levels x).2 = true) ∧
  (∃ (s : State) (n : Nat) (base : Tick) (full : Bool) (rise : Option (Nat × Nat)) (fall : Option (Nat × Nat)) (x : _), s.flag (R.nibNstat_HIZ n) = false ∧ (s.nibS n).idle = false ∧ (nibLevels s n (base - 1)).2 = true ∧ ((planStart s n base full rise fall).levels x).1 = true) :=
  ⟨⟨((tF [(R.clkStat_TB_VALID, 1), (R.nibGlob_HUSK_EN, 1), (R.nibCfg_EN 71, 1), (R.nibCfg_GROUP 71, 7), (R.nibGstate_STATE 7, 1), (R.nibNstat_HIZ 71, 0)]).setNibS 71 { run := true, plan := { full := true } }), 71, true, false, by decide +kernel⟩,
   ⟨{ rise := some (100, 50), fall := some (500, 60) }, 200, 10, by decide +kernel⟩,
   ⟨0, 100, 1000, 5, by decide +kernel⟩,
   ⟨0, 100, 1000, -5, by decide +kernel⟩,
   ⟨0, 100, 1000, 950, by decide +kernel⟩,
   ⟨((tF [(R.clkStat_TB_VALID, 1), (R.nibGlob_HUSK_EN, 1), (R.nibCfg_EN 71, 1), (R.nibCfg_GROUP 71, 7), (R.nibGstate_STATE 7, 1), (R.nibNstat_HIZ 71, 0)]).setNibS 71 { run := true, plan := { full := true } }), 71, 1000#64, false, none, none, 5, by decide +kernel⟩,
   ⟨((tF [(R.clkStat_TB_VALID, 1), (R.nibGlob_HUSK_EN, 1), (R.nibCfg_EN 71, 1), (R.nibCfg_GROUP 71, 7), (R.nibGstate_STATE 7, 1), (R.nibNstat_HIZ 71, 0)]).setNibS 71 { run := true, plan := { full := false } }), 71, 1000#64, true, none, none, 5, by decide +kernel⟩⟩

/-- Inputs that meet the hypotheses of `Obligations.First_Carrier_Zero`. -/
theorem witness_First_Carrier_Zero :
  ∃ (phi : Nat) (p : Nat) (now : Tick), 0 < p ∧ phi < p ∧ now.toNat + p < 2 ^ 64 :=
  ⟨9, 10, 0xFFFFFFFFFFFFFFF5#64, by decide +kernel⟩

/-- Inputs that meet the hypotheses of `Obligations.Ring_Words_Round_Trip`. -/
theorem witness_Ring_Words_Round_Trip :
  ∃ (s : State) (n : Nat) (ws : List Word), ws.length ≤ ringSize s n :=
  ⟨tF [], 0, [1#32, 2#32], by decide⟩

/-- Inputs that meet the hypotheses of `Obligations.Keep_Write_Rule`, clause by clause. -/
theorem witness_Keep_Write_Rule :
  (∃ (s : State) (r : Request) (w : Word), s.served ∧ r.params = [w] ∧ 1023 < r.target) ∧
  (∃ (s : State) (r : Request) (w : Word), s.served ∧ r.params = [w] ∧ 960 ≤ r.target ∧ r.target ≤ 1023) ∧
  (∃ (s : State) (r : Request) (w : Word), s.served ∧ r.params = [w] ∧ r.target < 960 ∧ keepBusy s r.target = false) ∧
  (∃ (s : State) (n : Fin 1024), n.val < 960 ∧ keepBusy s n.val = false) :=
  ⟨⟨tF [], tR 1024 [5#32], 5#32, by decide⟩,
   ⟨tF [], tR 1023 [5#32], 5#32, by decide⟩,
   ⟨tF [], tR 959 [5#32], 5#32, by decide⟩,
   ⟨tF [], 959, by decide⟩⟩

/-- Inputs that meet the hypotheses of `Obligations.Event_Test_Rule`, clause by clause. -/
theorem witness_Event_Test_Rule :
  (∃ (w : Word), bitOf w 31 = true ∧ evDefined (bitsOf w 0 8) = true) ∧
  (∃ (w : Word), bitOf w 31 = true ∧ evDefined (bitsOf w 0 8) = false) ∧
  (∃ (o : Occ), o.test = true) :=
  ⟨⟨0x800000FF#32, by decide⟩,
   ⟨0x80000003#32, by decide⟩,
   ⟨{ ev := 255, inst := 0xFFFF, detail := 0#32, test := true }, by decide⟩⟩

/-- Inputs that meet the hypotheses of `Obligations.Fallback_Choice`. -/
theorem witness_Fallback_Choice :
  ∃ (s : State) (u : State) (a : Fin 3), clkRuns s = true ∧ clkEnabled s a.val = true ∧ clkFreqJudged s a.val = true ∧ u = (clkSetQual (s.cntSat (clkFailsFld a.val)) a.val false).raise 8 a.val (wd 2) ∧ clkActive u = a.val ∧ u.flag R.clkStat_NOFALLBACK = false :=
  ⟨tA [(R.clkStat_ACTIVE, 1)], _, 1, by decide, by decide, by decide, rfl, by decide⟩

/-- Inputs that meet the hypotheses of `Obligations.Pace_Floor_Table`, clause by clause. -/
theorem witness_Pace_Floor_Table :
  (∃ (mv : Nat) (tj : Nat), 600 ≤ mv ∧ tj ≤ 150 ∧ mv < 650) ∧
  (∃ (mv : Nat) (tj : Nat), 600 ≤ mv ∧ tj ≤ 150 ∧ 650 ≤ mv ∧ mv < 700) ∧
  (∃ (mv : Nat) (tj : Nat), 600 ≤ mv ∧ tj ≤ 150 ∧ 700 ≤ mv ∧ mv < 750) ∧
  (∃ (mv : Nat) (tj : Nat), 600 ≤ mv ∧ tj ≤ 150 ∧ 750 ≤ mv ∧ mv < 800) ∧
  (∃ (mv : Nat) (tj : Nat), 600 ≤ mv ∧ tj ≤ 150 ∧ 800 ≤ mv) :=
  ⟨⟨649, 150, by decide⟩,
   ⟨699, 150, by decide⟩,
   ⟨749, 150, by decide⟩,
   ⟨799, 150, by decide⟩,
   ⟨800, 150, by decide⟩⟩

/-- Inputs that meet the hypotheses of `Obligations.Ring_Memory_Window`, clause by clause. -/
theorem witness_Ring_Memory_Window :
  (∃ (w : Nat), w < 65536) ∧
  (∃ (a : BitVec 24), 0x340000 ≤ a.toNat ∧ a.toNat < 0x380000) :=
  ⟨⟨65535, by decide⟩,
   ⟨0x37FFFF, by decide⟩⟩

/-- Inputs that meet the hypotheses of `Obligations.Motor_Side_Untouched`. -/
theorem witness_Motor_Side_Untouched :
  ∃ (c : Instr) (s : State) (t : State), offMotor c = true ∧ exec c s = .next t :=
  ⟨.evtStatClear 7 1#32, tF [(R.evtStat_SEEN 7, 1)], _, by decide, rfl⟩

end
end

section
/-! PROOF. O60, the separation of the motor side: a rule for each shape a command's meaning has, then every command of `offMotor` by the frame
of its operation (`Sys2Proof/Laws/MotorOps.lean`, `Sys2Proof/Laws/MotorNet.lean`). -/

namespace Sys2Proof.Machine

open Sys2Proof

/-- A command that completes leaves the motor side as it was. -/
def KeepsMotor (c : Instr) : Prop := ∀ s t, exec c s = .next t → t.motorSide = s.motorSide

/-! ### One rule for each shape of a meaning -/

section

variable {c : Instr} {f : State → State}

/-- A command that is one operation. -/
theorem keepsMotor_next (hc : ∀ s, exec c s = .next (f s)) (hf : ∀ s, (f s).motorSide = s.motorSide) : KeepsMotor c := by
  intro s t h
  rw [hc] at h
  exact Host.Outcome.next.inj h ▸ hf s

/-- A command that does nothing where its guard fails. -/
theorem keepsMotor_guarded {p : State → Prop} [∀ s, Decidable (p s)] (hc : ∀ s, exec c s = .next (if p s then f s else s))
    (hf : ∀ s, (f s).motorSide = s.motorSide) : KeepsMotor c :=
  keepsMotor_next hc fun s => offMotor_ite (hf s) rfl

/-- A write of a register of a block. -/
theorem keepsMotor_regRow {a : Nat} {x : State → Res} (hc : ∀ s, exec c s = .next (regRowWrite s a (x s)))
    (hx : ∀ s, (x s).st.motorSide = s.motorSide) : KeepsMotor c :=
  keepsMotor_next hc fun s => regRowWrite_offMotor (hx s) rfl

/-- A request that Reed executes. -/
theorem keepsMotor_served {r : Request} {form : Bool} {op : State → Res} (hc : ∀ s, exec c s = .next (serveReed r s form op))
    (hop : ∀ s, (op s).st.motorSide = s.motorSide) : KeepsMotor c :=
  keepsMotor_next hc fun s => serveReed_offMotor _ _ _ _ (hop s)

end

/-! ### Commands with a shape of their own -/

theorem crystalWaitExpiry_keepsMotor : KeepsMotor .crystalWaitExpiry :=
  keepsMotor_next (fun _ => rfl) fun s =>
    offMotor_ite rfl (offMotor_ite (clkStart_offMotor s 1) (offMotor_ite (withClk_offMotor ..) (clkStart_offMotor s 2)))

theorem canCommandFrame_keepsMotor (c : Fin 4) (fd : Bool) (bytes : List Byte) : KeepsMotor (.canCommandFrame c fd bytes) :=
  keepsMotor_next (fun _ => rfl) fun _ => offMotor_ite rfl (offMotor_ite (carrierArrive_offMotor ..) (State.cntSat_offMotor ..))

theorem requestDispatch_keepsMotor : KeepsMotor .requestDispatch := by
  refine keepsMotor_guarded (fun _ => rfl) fun s => ?_
  cases nextRing s with
  | none => rfl
  | some p => exact offMotor_ite rfl (dispatchOne_offMotor s p)

theorem readReg_keepsMotor (r : Request) : KeepsMotor (.readReg r) :=
  keepsMotor_next (fun _ => rfl) fun s => offMotor_ite (holdSnap_offMotor ..) (serveReg_offMotor _ _ _ _ (opReadReg_offMotor r s))

theorem readSnapshot_keepsMotor (r : Request) : KeepsMotor (.readSnapshot r) :=
  keepsMotor_next (fun _ => rfl) fun s => offMotor_ite (holdSnap_offMotor ..) (serveReg_offMotor _ _ _ _ (opReadSnapshot_offMotor r s))

theorem fwStageTimeout_keepsMotor : KeepsMotor .fwStageTimeout := by
  refine keepsMotor_next (fun _ => rfl) fun s => ?_
  cases s.boot.stage with
  | none => rfl
  | some x => exact offMotor_ite rfl (fwAbandon_offMotor s 5)

/-- The reply of a route, at once or held until its epoch. -/
theorem swRouteReply_offMotor (r : Request) (x : Res) : (swRouteReply r x).motorSide = x.st.motorSide :=
  offMotor_ite (respond_offMotor r x) ((withSward_offMotor ..).trans (portHeld_offMotor x.st r))

theorem swardRoute_keepsMotor (r : Request) : KeepsMotor (.swardRoute r) :=
  keepsMotor_next (fun _ => rfl) fun s =>
    offMotor_ite ((swRouteReply_offMotor r _).trans (opSwardRoute_offMotor r s)) (serveReed_offMotor _ _ _ _ (opSwardRoute_offMotor r s))

theorem ringOverflowReport_keepsMotor (n : Fin 64) : KeepsMotor (.ringOverflowReport n) := by
  refine keepsMotor_next (fun _ => rfl) fun s => ?_
  cases rateLast s 253 n.val with
  | none => exact ring253_offMotor s n.val
  | some t => exact (ring253_offMotor ..).trans (State.at_offMotor ..)

theorem vhuskPowerUp_keepsMotor : KeepsMotor .vhuskPowerUp :=
  keepsMotor_next (fun _ => rfl) fun _ => offMotor_ite rfl (State.setHusk_offMotor ..)

theorem swardLossOfSignal_keepsMotor (p : Fin 4) : KeepsMotor (.swardLossOfSignal p) :=
  keepsMotor_next (fun _ => rfl) fun _ => offMotor_ite rfl (swDown_offMotor ..)

theorem epochMarkReceive_keepsMotor (p : Fin 4) (e late : BitVec 16) (t : Tick) : KeepsMotor (.epochMarkReceive p e late t) :=
  keepsMotor_next (fun _ => rfl) fun _ => (ftMark_offMotor ..).trans ((epochSeen_offMotor ..).trans (State.at_offMotor ..))

/-! ### Every command of `offMotor` -/

/-- The commands of `offMotor` keep the motor side: one row a command, the others are not of `offMotor`. -/
theorem keepsMotor_of_offMotor (c : Instr) (h : offMotor c = true) : KeepsMotor c := by
  cases c with
  -- the start of the device, its clocks and the pace monitor
  | resetRelease => exact keepsMotor_guarded (fun _ => rfl) fun _ => resetRelease_offMotor ..
  | crystalWaitExpiry => exact crystalWaitExpiry_keepsMotor
  | firmwareBankLoaded => exact keepsMotor_guarded (fun _ => rfl) fun _ => firmwareLoaded_offMotor ..
  | delayLineSwap => exact keepsMotor_guarded (fun _ => rfl) fun _ => withClk_offMotor ..
  | rcTrimMeasure => exact keepsMotor_next (fun _ => rfl) fun _ => trimMeasure_offMotor ..
  | clkCtrlWrite => exact keepsMotor_next (fun _ => rfl) fun _ => clkCtrlWrite_offMotor ..
  | clkRctrimWrite => exact keepsMotor_next (fun _ => rfl) fun _ => clkRctrimWrite_offMotor ..
  | envelopeMeasurement => exact keepsMotor_next (fun _ => rfl) fun _ => envelopeMeasure_offMotor ..
  | loopClrLate => exact keepsMotor_regRow (fun _ => rfl) fun _ => loopCtrlWrite_offMotor ..
  | loopClrWorst => exact keepsMotor_regRow (fun _ => rfl) fun _ => loopCtrlWrite_offMotor ..
  -- carriers, requests and the register engine's reads
  | hostSpiCmdFrame => exact keepsMotor_guarded (fun _ => rfl) fun _ => hostCmdFrame_offMotor ..
  | hostSpiFetchFrame => exact keepsMotor_guarded (fun _ => rfl) fun _ => hostFetchFrame_offMotor ..
  | hostSpiStatusFrame => exact keepsMotor_guarded (fun _ => rfl) fun _ => hostStatusFrame_offMotor ..
  | udpCommandDatagram => exact keepsMotor_guarded (fun _ => rfl) fun _ => carrierArrive_offMotor ..
  | swardCommandFrame => exact keepsMotor_guarded (fun _ => rfl) fun _ => carrierArrive_offMotor ..
  | canCommandFrame c fd bytes => exact canCommandFrame_keepsMotor c fd bytes
  | requestDispatch => exact requestDispatch_keepsMotor
  | deferredReplySend => exact keepsMotor_next (fun _ => rfl) fun _ => deferredSend_offMotor ..
  | nop => exact keepsMotor_served (fun _ => rfl) fun _ => rfl
  | identify => exact keepsMotor_served (fun _ => rfl) fun _ => rfl
  | readReg r => exact readReg_keepsMotor r
  | readSnapshot r => exact readSnapshot_keepsMotor r
  -- Inkwell
  | inkArm r => exact keepsMotor_served (fun _ => rfl) (opInkArm_offMotor r)
  | inkForce r => exact keepsMotor_served (fun _ => rfl) (opInkForce_offMotor r)
  | inkStop r => exact keepsMotor_served (fun _ => rfl) (opInkStop_offMotor r)
  | inkRead r => exact keepsMotor_served (fun _ => rfl) (opInkRead_offMotor r)
  | inkReadDone => exact keepsMotor_next (fun _ => rfl) fun _ => inkReadDone_offMotor ..
  | inkAutoExpiry => exact keepsMotor_next (fun _ => rfl) fun _ => inkAutoExpiry_offMotor ..
  | inkRecordComplete => exact keepsMotor_next (fun _ => rfl) fun _ => inkRecordComplete_offMotor ..
  | inkInterfaceFailure => exact keepsMotor_next (fun _ => rfl) fun _ => inkFail_offMotor ..
  | niblogTokenRefill => exact keepsMotor_next (fun _ => rfl) fun _ => withInk_offMotor ..
  -- time and pulses
  | timeSet r => exact keepsMotor_served (fun _ => rfl) (opTimeSet_offMotor r)
  | timeAdjustOffset r => exact keepsMotor_served (fun _ => rfl) (opTimeAdjust_offMotor r)
  | timeAdjustRate r => exact keepsMotor_served (fun _ => rfl) (opTimeAdjust_offMotor r)
  | timeSlewDone => exact keepsMotor_next (fun _ => rfl) fun _ => slewDone_offMotor ..
  | pulseProgram r => exact keepsMotor_served (fun _ => rfl) (opPulse_offMotor r)
  | pulseEdgeFix => exact keepsMotor_next (fun _ => rfl) fun _ => (pulseFix_offMotor ..).trans (State.at_offMotor ..)
  -- outputs of the field die
  | fioSet r => exact keepsMotor_served (fun _ => rfl) (opFioSet_offMotor r)
  | fioConfig r => exact keepsMotor_served (fun _ => rfl) (opFioConfig_offMotor r)
  -- keep memory, configuration and firmware
  | keepWrite r => exact keepsMotor_served (fun _ => rfl) (opKeepWrite_offMotor r)
  | keepWordRegWrite => exact keepsMotor_guarded (fun _ => rfl) fun _ => keepQueue_offMotor ..
  | keepWritePersist => exact keepsMotor_next (fun _ => rfl) fun _ => keepPersist_offMotor ..
  | keepHourlyCount => exact keepsMotor_guarded (fun _ => rfl) fun _ => keepBump_offMotor ..
  | cfgSave r => exact keepsMotor_served (fun _ => rfl) (opCfgSave_offMotor r)
  | cfgSaved => exact keepsMotor_next (fun _ => rfl) fun _ => cfgSaved_offMotor ..
  | cfgLoad r => exact keepsMotor_served (fun _ => rfl) (opCfgLoad_offMotor r)
  | fwStageBegin r => exact keepsMotor_served (fun _ => rfl) (opFwStageBegin_offMotor r)
  | fwStageData r => exact keepsMotor_served (fun _ => rfl) (opFwStageData_offMotor r)
  | fwStageEnd r => exact keepsMotor_served (fun _ => rfl) (opFwStageEnd_offMotor r)
  | fwStageVerified => exact keepsMotor_next (fun _ => rfl) fun _ => fwStageVerified_offMotor ..
  | fwStageTimeout => exact fwStageTimeout_keepsMotor
  | fwSwitchConfirm r => exact keepsMotor_served (fun _ => rfl) (opFwConfirm_offMotor r)
  | fwSwitchScribe r => exact keepsMotor_served (fun _ => rfl) (opFwScribe_offMotor r)
  | reedResume => exact keepsMotor_next (fun _ => rfl) fun _ => fwResume_offMotor ..
  -- the staged safety set
  | safeParamStage r => exact keepsMotor_served (fun _ => rfl) (opSafeStage_offMotor r)
  | safeParamConfirm => exact keepsMotor_next (fun _ => rfl) fun _ => safeConfirm_offMotor ..
  | safeAck r => exact keepsMotor_served (fun _ => rfl) (opSafeAck_offMotor r)
  -- opcodes of the networks
  | swardRoute r => exact swardRoute_keepsMotor r
  | swardJoin r => exact keepsMotor_served (fun _ => rfl) (opSwardJoin_offMotor r)
  | swardLeave r => exact keepsMotor_served (fun _ => rfl) (opSwardLeave_offMotor r)
  | sheafRole r => exact keepsMotor_served (fun _ => rfl) (opSheafRole_offMotor r)
  | canTx r => exact keepsMotor_served (fun _ => rfl) (opCanTx_offMotor r)
  | canCancel r => exact keepsMotor_served (fun _ => rfl) (opCanCancel_offMotor r)
  | canScheduleStart r => exact keepsMotor_served (fun _ => rfl) (opCanSchedule_offMotor r)
  | canScheduleStop r => exact keepsMotor_served (fun _ => rfl) (opCanSchedule_offMotor r)
  -- rings and their ports
  | ringPop r => exact keepsMotor_served (fun _ => rfl) (opRingPop_offMotor r)
  | ringPush r => exact keepsMotor_served (fun _ => rfl) (opRingPush_offMotor r)
  | ringConfigWrite => exact keepsMotor_next (fun _ => rfl) fun _ => ringConfigWrite_offMotor ..
  | ringOverflowReport n => exact ringOverflowReport_keepsMotor n
  | pspiTransferStart => exact keepsMotor_next (fun _ => rfl) fun _ => pspiXferWrite_offMotor ..
  | pspiTransferDone => exact keepsMotor_next (fun _ => rfl) fun _ => pspiDone_offMotor ..
  | spiIrqcfgWrite => exact keepsMotor_next (fun _ => rfl) fun _ => irqcfgWrite_offMotor ..
  -- latch units
  | latchArm => exact keepsMotor_regRow (fun _ => rfl) fun _ => latchCtrlWrite_offMotor ..
  | latchDisarm => exact keepsMotor_regRow (fun _ => rfl) fun _ => latchCtrlWrite_offMotor ..
  | latchWindowEnd => exact keepsMotor_next (fun _ => rfl) fun _ => latchEnd_offMotor ..
  -- the safety channels and the telegram
  | scribeXcheckFrame => exact keepsMotor_guarded (fun _ => rfl) fun _ => scribeReceive_offMotor ..
  | slsLevelEffective => exact keepsMotor_next (fun _ => rfl) fun _ => slsEffective_offMotor ..
  | safeTestPulse => exact keepsMotor_next (fun _ => rfl) fun _ => testPulse_offMotor ..
  | telegramWatchdogExpiry => exact keepsMotor_next (fun _ => rfl) fun _ => telWatchdog_offMotor ..
  | telegramPathLoss => exact keepsMotor_next (fun _ => rfl) fun _ => pathLoss_offMotor ..
  | vhuskPowerUp => exact vhuskPowerUp_keepsMotor
  | safeStageWrite => exact keepsMotor_next (fun _ => rfl) fun _ => safeStageWrite_offMotor ..
  -- the field die
  | logicHeartbeatSend => exact keepsMotor_guarded (fun _ => rfl) fun _ => withField_offMotor ..
  | fieldHeartbeatReceive => exact keepsMotor_next (fun _ => rfl) fun _ => fieldHeartbeat_offMotor ..
  | logicHeartbeatReceive => exact keepsMotor_guarded (fun _ => rfl) fun _ => logicHeartbeat_offMotor ..
  | fieldLinkTimeout => exact keepsMotor_next (fun _ => rfl) fun _ => linkTimeout_offMotor ..
  | fieldSilenceExpiry => exact keepsMotor_next (fun _ => rfl) fun _ => silenceBegin_offMotor ..
  | chatterWindowEnd => exact keepsMotor_next (fun _ => rfl) fun _ => chatterNext_offMotor ..
  | outputOvercurrent => exact keepsMotor_next (fun _ => rfl) fun _ => outFault_offMotor ..
  | outputThermal => exact keepsMotor_next (fun _ => rfl) fun _ => outFault_offMotor ..
  | bankOvercurrent => exact keepsMotor_next (fun _ => rfl) fun _ => bankFault_offMotor ..
  | vfieldMeasurement => exact keepsMotor_next (fun _ => rfl) fun _ => vfield_offMotor ..
  -- Ethernet and time over it
  | ethLinkChange => exact keepsMotor_next (fun _ => rfl) fun _ => ethLink_offMotor ..
  | ethMdioAccess => exact keepsMotor_regRow (fun _ => rfl) fun _ => mdioWrite_offMotor ..
  | ethMdioDone => exact keepsMotor_next (fun _ => rfl) fun _ => mdioDone_offMotor ..
  | ptpOffsetSample => exact keepsMotor_next (fun _ => rfl) fun _ => (ptpSample_offMotor ..).trans (State.at_offMotor ..)
  | ptpSendInterval => exact keepsMotor_next (fun _ => rfl) fun _ => (ptpInterval_offMotor ..).trans (State.at_offMotor ..)
  | ptpHoldoverTimeout => exact keepsMotor_next (fun _ => rfl) fun _ => holdover_offMotor ..
  | timebaseDiscipline => exact keepsMotor_next (fun _ => rfl) fun _ => discipline_offMotor ..
  | timeCfgWrite => exact keepsMotor_regRow (fun _ => rfl) fun _ => timeCfgWrite_offMotor ..
  | timeSnap => exact keepsMotor_regRow (fun _ => rfl) fun _ => timeSnap_offMotor ..
  -- CAN
  | canFrameReceive => exact keepsMotor_next (fun _ => rfl) fun _ => (canReceive_offMotor ..).trans (State.at_offMotor ..)
  | canTxDone => exact keepsMotor_next (fun _ => rfl) fun _ => canTxDone_offMotor ..
  | canCtrlWrite => exact keepsMotor_regRow (fun _ => rfl) fun _ => canCtrlWrite_offMotor ..
  | canRecover => exact keepsMotor_regRow (fun _ => rfl) fun _ => canCtrlWrite_offMotor ..
  | canDominantTimeout => exact keepsMotor_next (fun _ => rfl) fun _ => canDominant_offMotor ..
  | canCycleStart => exact keepsMotor_next (fun _ => rfl) fun _ => (canCycleStart_offMotor ..).trans (State.at_offMotor ..)
  | canReferenceReceive => exact keepsMotor_next (fun _ => rfl) fun _ => (canReference_offMotor ..).trans (State.at_offMotor ..)
  | canReferenceTimeout => exact keepsMotor_next (fun _ => rfl) fun _ => canRefTimeout_offMotor ..
  | canWindowStart => exact keepsMotor_next (fun _ => rfl) fun _ => canWinStart_offMotor ..
  | canWindowEnd => exact keepsMotor_next (fun _ => rfl) fun _ => canWinEnd_offMotor ..
  -- Sward
  | swardTransmit => exact keepsMotor_next (fun _ => rfl) fun _ => (swTransmit_offMotor ..).trans (State.at_offMotor ..)
  | credReceive => exact keepsMotor_next (fun _ => rfl) fun _ => swCredit_offMotor ..
  | credSend => exact keepsMotor_next (fun _ => rfl) fun _ => (swCredSend_offMotor ..).trans (State.at_offMotor ..)
  | helloReceive => exact keepsMotor_next (fun _ => rfl) fun _ => swHello_offMotor ..
  | swardTrainingDone => exact keepsMotor_next (fun _ => rfl) fun _ => swTrained_offMotor ..
  | leaveReceive => exact keepsMotor_next (fun _ => rfl) fun _ => swLeaveGot_offMotor ..
  | swardLossOfSignal p => exact swardLossOfSignal_keepsMotor p
  | swardSymbolErrorLimit => exact keepsMotor_next (fun _ => rfl) fun _ => swErrors_offMotor ..
  | dreqSend => exact keepsMotor_next (fun _ => rfl) fun _ => (dreqSend_offMotor ..).trans (State.at_offMotor ..)
  | dreqReceive => exact keepsMotor_next (fun _ => rfl) fun _ => (dreqAnswer_offMotor ..).trans (State.at_offMotor ..)
  | drspReceive => exact keepsMotor_next (fun _ => rfl) fun _ => (drspTake_offMotor ..).trans (State.at_offMotor ..)
  | epochMarkReceive p e late t => exact epochMarkReceive_keepsMotor p e late t
  | swardWaitDrop => exact keepsMotor_next (fun _ => rfl) fun _ => swWaitDrop_offMotor ..
  | e2eRetransmitTimeout => exact keepsMotor_next (fun _ => rfl) fun _ => swResend_offMotor ..
  | e2eAckSend => exact keepsMotor_next (fun _ => rfl) fun _ => swAckSend_offMotor ..
  | streamForget => exact keepsMotor_next (fun _ => rfl) fun _ => swForget_offMotor ..
  | swardNodeWrite => exact keepsMotor_next (fun _ => rfl) fun _ => swNodeWrite_offMotor ..
  | swardResWrite => exact keepsMotor_regRow (fun _ => rfl) fun _ => swResWrite_offMotor ..
  | swardHrxtailWrite => exact keepsMotor_next (fun _ => rfl) fun _ => hrxTailWrite_offMotor ..
  -- Sheaf
  | sheafBeaconSend => exact keepsMotor_next (fun _ => rfl) fun _ => sheafBeaconSend_offMotor ..
  | sheafStatusReceive => exact keepsMotor_next (fun _ => rfl) fun _ => sheafStatus_offMotor ..
  | linkDataReceive => exact keepsMotor_next (fun _ => rfl) fun _ => (linkData_offMotor ..).trans (State.at_offMotor ..)
  | mirrorReceive => exact keepsMotor_next (fun _ => rfl) fun _ => (mirrorTake_offMotor ..).trans (State.at_offMotor ..)
  -- events and monitors
  | holdoffWindowEnd => exact keepsMotor_next (fun _ => rfl) fun _ => holdoffEnd_offMotor ..
  | evtStatClear => exact keepsMotor_next (fun _ => rfl) fun _ => evtStatWrite_offMotor ..
  | evtTest => exact keepsMotor_next (fun _ => rfl) fun _ => evtTestWrite_offMotor ..
  | supplyMeasurement => exact keepsMotor_guarded (fun _ => rfl) fun _ => offMotor_foldl (fun _ _ => railMeasure_offMotor ..) rfl
  | caseTempMeasurement => exact keepsMotor_guarded (fun _ => rfl) fun _ => caseMeasure_offMotor ..
  -- what arrives and leaves on the carriers
  | ethFrameReceive => exact keepsMotor_next (fun _ => rfl) fun _ => (ethReceive_offMotor ..).trans (State.at_offMotor ..)
  | telegramCopy => exact keepsMotor_next (fun _ => rfl) fun _ => (telCopy_offMotor ..).trans (State.at_offMotor ..)
  | canTxStart => exact keepsMotor_next (fun _ => rfl) fun _ => (canTxStart_offMotor ..).trans (State.at_offMotor ..)
  | canBusoffRecoveryDone => exact keepsMotor_next (fun _ => rfl) fun _ => canRecovered_offMotor ..
  | canBusError => exact keepsMotor_next (fun _ => rfl) fun _ => canBusError_offMotor ..
  | _ => exact absurd h Bool.false_ne_true

/-- Settles O60: every command of `offMotor` keeps the motor side, each by the frame of its operation. -/
theorem motorSideUntouched : Obligations.Motor_Side_Untouched :=
  fun c s t h => keepsMotor_of_offMotor c h s t

end Sys2Proof.Machine
end

section
/-! PROOF. O18, passes and frame boundaries: what each command does where its guards hold. -/

namespace Sys2Proof.Machine

open Sys2Proof

/-- The run of a pass that a Quill takes up: the inputs and the context as they are. -/
def passRun (s : State) (k : Nat) : Run :=
  let c := s.ctx k
  { slot := k, grp := c.grp, seq := s.reg (R.nibGseq c.grp), ins := passInputs s k, t := (s.grp c.grp).bndAt,
    el := ((s.grp c.grp).bndAt - c.last).toNat, ctx := c, stat := s.cw k 64 }

/-- A free Quill takes the first ready pass, where no far link feeds it. -/
theorem passStart_takes {s : State} {k : Nat} (hfree : s.loop.runs.length < 8) (htb : tbValid s = true) (hfirst : firstReady s = some k)
    (hfar : farLinks s (s.ctx k).kind (s.ctx k).bind = []) :
    passStart s =
      let gs := s.grp (s.ctx k).grp
      let u := s.setGrp (s.ctx k).grp { gs with todo := gs.todo.filter (· != k) }
      u.withLoop { u.loop with runs := u.loop.runs ++ [passRun s k] } := by
  unfold passStart
  rw [if_neg (by simp [htb, hfree]), hfirst]
  simp only [hfar, List.foldl_nil]
  rfl

/-- A pass that has its result commits it, and its Quill is free. -/
theorem passCommit_commits {s : State} {slot : Nat} {r : Run} {o : PassOut}
    (hr : s.loop.runs.find? (fun x => x.slot == slot) = some r) (ho : r.out = some o) :
    passCommit s slot =
      let u := commitOut (s.withLoop { s.loop with runs := s.loop.runs.filter (fun x => x.slot != slot) }) r o
      if frameDone u r.grp then mirrorSend u r.grp else u := by
  simp only [passCommit, hr, ho]

/-- The link-skip instant, where it is due and did not pass yet. -/
theorem linkSkip_skips {s : State} {g : Nat} {rel : Tick} (hrel : (s.grp g).rel = some rel) (hskip : (s.grp g).skip = false)
    (htb : tbValid s = true) :
    linkSkip s g =
      let u := s.at (rel + tk ((s.grp g).w / 2))
      ((u.grp g).todo.flatMap (fun k => ((groupLinks u (curBind u) k).filter (fun p => p != k && unfinished u p)).map (fun p => (k, p)))).foldl
        (fun t e => t.raise 98 e.1 (wd e.2)) (u.setGrp g { u.grp g with skip := true }) := by
  simp [linkSkip, hrel, hskip, htb]

/-- The deadline of a frame that is not done. -/
theorem passDeadline_late {s : State} {g : Nat} (htb : tbValid s = true) (hdone : frameDone s g = false) :
    passDeadline s g =
      let u := s.at (deadline s g)
      let v := u.setGrp g { u.grp g with todo := [] }
      mirrorSend (((u.grp g).todo ++ (u.loop.runs.filter (fun r => r.grp == g)).map (·.slot)).foldl (fun t k => passLate t g k)
        (v.withLoop { v.loop with runs := v.loop.runs.filter (fun r => r.grp != g) })) g := by
  simp only [passDeadline, htb, hdone]
  rfl

/-- A CAL_SWAP that Reed serves is answered. -/
theorem exec_calSwap_served {s : State} {r : Request} {w : Word} (hs : s.served) (hp : r.params = [w]) :
    exec (.calSwap r) s = .next (respond r (opCalSwap r s)) := by
  obtain ⟨hphase, hhold, hreed⟩ := hs
  exact congrArg Host.Outcome.next (serveReed_serves r s _ _ hphase hhold hreed (by simp [hp]))

/-- CAL_SWAP of a map whose shadow is ready and no swap of which is pending. -/
theorem opCalSwap_map {s : State} {r : Request} {w : Word} (hp : r.params = [w]) (hkind : bitsOf w 0 8 = 1) (ht : r.target ≤ 63)
    (hshadow : mapShadowOk s r.target = true) (hpend : s.flag (R.mapDir_SWAP_PEND r.target) = false) :
    opCalSwap r s = if mapGroups s r.target = [] then { st := calSwapped (mapSwap s r.target) r.target 1 }
      else { st := (mapGroups s r.target).foldl (fun t g => addPend t g (dueNext t g) false (.calMap r.target)) (s.setFlag (R.mapDir_SWAP_PEND r.target) true),
             affects := groupsDue s (mapGroups s r.target) } := by
  cases hgs : mapGroups s r.target <;> simp [opCalSwap, Request.p, hp, nth, hkind, Nat.not_lt.mpr ht, hshadow, hpend, hgs]

/-- CAL_SWAP of the sensing table while no committed context uses a channel: every channel swaps at once. -/
theorem opCalSwap_sense {s : State} {r : Request} {w : Word} (hp : r.params = [w]) (hkind : bitsOf w 0 8 = 2) (ht : r.target = 0)
    (hpend : calSwapPending s = false) (hfree : ∀ c, c < 128 → calUsers s c = []) :
    opCalSwap r s = { st := calSwapped ((List.range 128).foldl calSwapChan s) 0 2 } := by
  have husers : (List.range 128).map (fun c => (c, calUsers s c)) = (List.range 128).map (fun c => (c, [])) :=
    List.map_congr_left fun c hc => by rw [hfree c (List.mem_range.mp hc)]
  have hgroups : (List.range 128).flatMap (fun _ => ([] : List Nat)) = [] := List.flatMap_eq_nil_iff.mpr fun _ _ => rfl
  simp [opCalSwap, Request.p, hp, nth, hkind, ht, hpend, husers, List.flatMap_map, List.filter_map, Function.comp_def, hgroups]

/-- CAL_SWAP of kind 3 tells the swap and does no more. -/
theorem opCalSwap_none {s : State} {r : Request} {w : Word} (hp : r.params = [w]) (hkind : bitsOf w 0 8 = 3) (ht : r.target = 0) :
    opCalSwap r s = { st := calSwapped s 0 3 } := by
  simp [opCalSwap, Request.p, hp, nth, hkind, ht]

/-- Settles O18: each command goes past its guards, and what it does then is its own rule. -/
theorem passesAndBoundaries : Obligations.Passes_And_Boundaries := by
  refine ⟨?start, ?commit, ?skip, ?deadline, ?boundary, ?swapMap, ?swapSense⟩
  case start =>
    intro s k hfree htb hfirst hfar
    exact ⟨_, passRun s k, congrArg Host.Outcome.next (passStart_takes hfree htb hfirst hfar),
      rfl, rfl, rfl, rfl, rfl, rfl, rfl, rfl, rfl, rfl, rfl⟩
  case commit =>
    rintro s u slot r o hr ho rfl
    exact congrArg Host.Outcome.next (passCommit_commits hr ho)
  case skip =>
    rintro s u g rel hrel hskip htb rfl
    exact congrArg Host.Outcome.next (linkSkip_skips hrel hskip htb)
  case deadline =>
    rintro s u v g htb hdone rfl rfl
    exact congrArg Host.Outcome.next (passDeadline_late htb hdone)
  case boundary =>
    rintro s u v w x y g t zero seq per mode htb hnext rfl rfl rfl rfl rfl rfl rfl rfl
    show Host.Outcome.next (frameBoundary s g.val) = _
    simp only [frameBoundary, htb, hnext]
    rfl
  case swapMap =>
    intro s r w hs hp hkind ht hshadow hpend
    rw [exec_calSwap_served hs hp, opCalSwap_map hp hkind ht hshadow hpend]
    exact ⟨fun hnone => by rw [if_pos hnone]; rfl, fun hsome => by rw [if_neg hsome]⟩
  case swapSense =>
    intro s r w hs hp ht
    rw [exec_calSwap_served hs hp]
    exact ⟨fun hkind hpend hfree => by rw [opCalSwap_sense hp hkind ht hpend hfree]; rfl,
      fun hkind => by rw [opCalSwap_none hp hkind ht]; rfl⟩

end Sys2Proof.Machine
end

section
/-! PROOF. O20, the register engine: what each of its commands does once its checks pass. -/

namespace Sys2Proof.Machine

open Sys2Proof

/-- A number inside its range is not refused. -/
theorem outNat_inside {lo hi n : Nat} (h1 : lo ≤ n) (h2 : n ≤ hi) : outNat lo hi n = false := by
  simp [outNat, h1, h2]

/-! ### Reads -/

/-- The addresses a READ_REG of at most 256 words names. -/
theorem readAddrs_of_params {r : Request} {a n : Word} (hp : r.params = [a, n]) (hn : n.toNat ≤ 256) :
    readAddrs r = runAddrs a.toNat n.toNat := by
  simp [readAddrs, Request.p, hp, nth, Nat.min_eq_left hn]

/-- A READ_REG without SNAPSHOT is answered by the register engine. -/
theorem exec_readReg_now {s : State} {r : Request} {a n : Word} (hs : s.phase = .ready) (ht : r.target = 0) (hp : r.params = [a, n])
    (hsnap : r.snapshot = false) : exec (.readReg r) s = .next (respond r (opReadReg r s)) := by
  have hnot : readSnapOk r s = false := by simp [readSnapOk, hsnap]
  show Host.Outcome.next _ = _
  rw [hnot, if_neg Bool.false_ne_true, serveReg_serves r s _ _ hs (by simp [hp, ht])]

/-- What READ_REG answers of a run that can be read: its words, and RANGE in place of OK where one lies beyond the registers. -/
theorem opReadReg_reads {s : State} {r : Request} {a n : Word} (hp : r.params = [a, n]) (hsnap : r.snapshot = false)
    (ha : addrBad a = false) (h1 : 1 ≤ n.toNat) (h2 : n.toNat ≤ 256) (hg : runGated s (runAddrs a.toNat n.toNat) = false) :
    opReadReg r s =
      let x := readRun (fun t b => portRead t r.port.val b) s (runAddrs a.toNat n.toNat)
      { st := x.1, status := if x.2.2 = stRANGE then stOK else x.2.2, data := x.2.1, as_ := if x.2.2 = stRANGE then some stRANGE else none } := by
  have hin := outNat_inside h1 h2
  simp [opReadReg, readAddrs_of_params hp h2, hg, hsnap, Request.p, hp, nth, ha, hin]

/-- A READ_REG with SNAPSHOT that passes its checks waits for its group's boundary. -/
theorem exec_readReg_snapshot {s : State} {r : Request} {a n : Word} (hs : s.phase = .ready) (ht : r.target ≤ 7) (hp : r.params = [a, n])
    (hsnap : r.snapshot = true) (ha : addrBad a = false) (h1 : 1 ≤ n.toNat) (h2 : n.toNat ≤ 32)
    (hg : runGated s (runAddrs a.toNat n.toNat) = false) :
    exec (.readReg r) s = .next (holdSnap r s (runAddrs a.toNat n.toNat)) := by
  have haddrs : readAddrs r = runAddrs a.toNat n.toNat := readAddrs_of_params hp (by omega)
  have hin := outNat_inside h1 h2
  have hok : readSnapOk r s = true := by simp [readSnapOk, serving, hs, hp, hsnap, haddrs, hg, ht, Request.p, nth, ha, hin]
  show Host.Outcome.next _ = _
  rw [hok, if_pos rfl, haddrs]

/-- A READ_SNAPSHOT that passes its checks waits for its group's boundary. -/
theorem exec_readSnapshot_waits {s : State} {r : Request} (hs : s.phase = .ready) (ht : r.target ≤ 7) (h1 : 1 ≤ r.params.length)
    (h2 : r.params.length ≤ 32) (ha : r.params.any addrBad = false) (hg : runGated s (snapAddrs r) = false) :
    exec (.readSnapshot r) s = .next (holdSnap r s (snapAddrs r)) := by
  have hin := outNat_inside h1 h2
  have hok : readSnapshotOk r s = true := by simp only [readSnapshotOk, hs, hg, ht, hin, ha]; rfl
  show Host.Outcome.next _ = _
  rw [hok, if_pos rfl]

/-- A held read stands behind the others that wait. -/
theorem holdSnap_snaps (r : Request) (s : State) (l : List Nat) :
    (holdSnap r s l).cmd.snaps = s.cmd.snaps ++ [{ req := r, grp := r.target, addrs := l, since := s.dt }] := rfl

/-- A held read changes no register. -/
theorem holdSnap_regs (r : Request) (s : State) (l : List Nat) : (holdSnap r s l).regs = s.regs := rfl

/-! ### Writes -/

/-- A WRITE_REG whose run no word refuses answers what the run of its parts does. -/
theorem opWriteReg_writes {s : State} {r : Request} {a : Word} {ws : List Word} (hp : r.params = a :: ws) (hne : ws ≠ [])
    (ha : addrBad a = false) (hg : runGated s (runAddrs a.toNat ws.length) = false)
    (hok : stRefused (runWrite s (runSplit ws.length a.toNat ws)).status = false) :
    opWriteReg r s = runWrite s (runSplit ws.length a.toNat ws) := by
  simp [opWriteReg, Request.p, hp, nth, hg, hne, ha, hok]

/-- A MODIFY_REG of a word that can be read and written answers the old word. -/
theorem opModifyReg_modifies {s : State} {r : Request} {a m v : Word} (hp : r.params = [a, m, v]) (ha : addrBad a = false)
    (hg : runGated s [a.toNat] = false) (hread : (regRead s a.toNat).status = 0)
    (hok : stRefused (partWrite (regRead s a.toNat).st (a.toNat, [modifyWord a.toNat (regRead s a.toNat).val m v])).status = false) :
    opModifyReg r s = { partWrite (regRead s a.toNat).st (a.toNat, [modifyWord a.toNat (regRead s a.toNat).val m v]) with
      data := [(regRead s a.toNat).val] } := by
  simp [opModifyReg, Request.p, hp, nth, hg, ha, hread, hok]

/-- A register write that its rule takes, at a whole word's address whose clock node runs. -/
theorem registerWrite_takes {s : State} {a : Nat} {w : Word} (hal : a % 4 = 0) (hok : stRefused (regWrite s a w).status = false)
    (hr : regReady s a = true) : registerWrite s a w = (regWrite s a w).st := by
  simp [registerWrite, hal, hok, regRowWrite, hr]

/-- Outside the windows, where no block judges a write, the access codes of the row alone decide. -/
theorem regWrite_plain {s : State} {a : Nat} {w : Word} {row : RegRow} (hrow : regRow a = some row)
    (hctx : ¬ (0x100000 ≤ a ∧ a < 0x120000)) (hmap : ¬ (0x162000 ≤ a ∧ a < 0x164000)) (hhrx : ¬ (0x1B4000 ≤ a ∧ a < 0x1B6000))
    (hring : ¬ (0x340000 ≤ a ∧ a < 0x380000)) (hblock : blockWrite s a w = none) : regWrite s a w = { st := writeNow s row a w } := by
  unfold regWrite
  rw [if_neg hring, if_neg hhrx, if_neg hctx, if_neg hmap, hrow, hblock]
  simp [plainNow, hrow]

/-- Settles O20: each command of the register engine passes its checks and does what its own rule says. -/
theorem registerEngine : Obligations.Register_Engine := by
  refine ⟨?read, ?readSnap, ?write, ?modify, ?snapshot, ?rule, ?codes⟩
  case read =>
    rintro s r a n x hs ht hp hsnap ha h1 h2 hg rfl
    rw [exec_readReg_now hs ht hp hsnap, opReadReg_reads hp hsnap ha h1 h2 hg]
    exact ⟨fun hne => by simp [hne], fun he => by simp [he, stOK]⟩
  case readSnap =>
    intro s r a n hs ht hp hsnap ha h1 h2 hg
    exact ⟨_, exec_readReg_snapshot hs ht hp hsnap ha h1 h2 hg, holdSnap_snaps .., holdSnap_regs ..⟩
  case write =>
    intro s r a ws hs ht hp hne ha hg hok
    have hserve := serveReg_serves r s (r.target == 0 && !r.params.isEmpty) (opWriteReg r) hs (by simp [ht, hp])
    rw [opWriteReg_writes hp hne ha hg hok] at hserve
    exact congrArg Host.Outcome.next hserve
  case modify =>
    intro s r a m v hs ht hp ha hg hread hok
    have hserve := serveReg_serves r s (r.target == 0 && r.params.length == 3) (opModifyReg r) hs (by simp [ht, hp])
    rw [opModifyReg_modifies hp ha hg hread hok] at hserve
    exact congrArg Host.Outcome.next hserve
  case snapshot =>
    intro s r hs ht h1 h2 ha hg
    exact ⟨_, exec_readSnapshot_waits hs ht h1 h2 ha hg, holdSnap_snaps .., holdSnap_regs ..⟩
  case rule =>
    intro s a w hal hok hr
    exact congrArg Host.Outcome.next (registerWrite_takes hal hok hr)
  case codes =>
    intro s a w row hal hr hrow _ hctx hmap hhrx hring hblock
    have hw := regWrite_plain hrow hctx hmap hhrx hring hblock
    have htake := registerWrite_takes (s := s) (w := w) hal (by rw [hw]; rfl) hr
    rw [hw] at htake
    exact ⟨_, congrArg Host.Outcome.next htake, State.reg_setReg_same .., fun b hb => State.reg_setReg_ne _ _ _ _ hb.symm, rfl⟩

end Sys2Proof.Machine
end

section
/-! PROOF. O51, the first carrier zero of a group (R19): the two branches of `firstZero` as natural numbers, then the grid. -/

namespace Sys2Proof.Machine

open Sys2Proof

/-- A device time that does not wrap is its number. -/
theorem toNat_tk {n : Nat} (h : n < 2 ^ 64) : (tk n).toNat = n := by
  rw [tk, BitVec.toNat_ofNat, Nat.mod_eq_of_lt h]

section

variable {phi p : Nat} {now : Tick}

/-- Before the phase, the first zero is the phase itself. -/
theorem firstZero_toNat_of_lt_phase (h : now.toNat < phi) (hphi : phi < 2 ^ 64) : (firstZero phi p now).toNat = phi := by
  rw [firstZero, if_pos h, toNat_tk hphi]

/-- From the phase on, the first zero ends the period of the grid that `now` lies in. -/
theorem firstZero_toNat_of_phase_le (h : phi ≤ now.toNat) (hroom : now.toNat + p < 2 ^ 64) :
    (firstZero phi p now).toNat = phi + ((now.toNat - phi) / p + 1) * p := by
  have hbelow : (now.toNat - phi) / p * p ≤ now.toNat - phi := Nat.div_mul_le_self ..
  rw [firstZero, if_neg (Nat.not_lt.mpr h), toNat_tk]
  rw [Nat.succ_mul]
  omega

end

/-- Settles O51, by the side of the phase that `now` lies on. -/
theorem firstCarrierZero : Obligations.First_Carrier_Zero := by
  unfold Obligations.First_Carrier_Zero
  intro phi p now hp hphi hroom
  rw [BitVec.lt_def]
  rcases Nat.lt_or_ge now.toNat phi with hbefore | hafter
  · rw [firstZero_toNat_of_lt_phase hbefore (by omega)]
    exact ⟨hbefore, ⟨0, by simp⟩, fun n _ => Nat.le_add_right ..⟩
  · rw [firstZero_toNat_of_phase_le hafter hroom]
    have hahead : now.toNat - phi < ((now.toNat - phi) / p + 1) * p := Nat.lt_mul_of_div_lt (Nat.lt_succ_self _) hp
    refine ⟨by omega, ⟨_, rfl⟩, fun n hn => ?_⟩
    have hindex : (now.toNat - phi) / p < n := Nat.div_lt_of_lt_mul (by rw [Nat.mul_comm]; omega)
    exact Nat.add_le_add_left (Nat.mul_le_mul_right p hindex) phi

end Sys2Proof.Machine
end

section
/-! PROOF. O3, the dispatcher and the held replies: what leaves a command ring, what the port then holds, and which reply goes. -/

namespace Sys2Proof.Machine

open Sys2Proof

/-! ### A request leaves its ring -/

/-- Of the command interface, replacing the entries of a ring changes those entries alone. -/
theorem ringSetEnts_cmd (s : State) (n : Nat) (es : List Ent) :
    (ringSetEnts s n es).cmd = { s.cmd with ents := tblPut s.cmd.ents n es [] } := by
  unfold ringSetEnts
  extract_lets
  split <;> rfl

/-- Of the command interface, dropping a ring's oldest entry changes its entries alone. -/
theorem ringDrop_cmd {s : State} {n : Nat} {e : Ent} {es : List Ent} (h : ringEnts s n = e :: es) :
    (ringDrop s n).cmd = { s.cmd with ents := tblPut s.cmd.ents n es [] } := by
  simp only [ringDrop, h]
  exact ringSetEnts_cmd ..

/-- The state once the request at the tail of a command ring is taken: the entry is gone, the turn moved on, HRDY shows the new room of ring 0. -/
def requestTaken (s : State) (p : Fin 8) : State :=
  let u := (ringDrop s p.val).withCmd { (ringDrop s p.val).cmd with turn := (p.val + 1) % 8 }
  if p.val = 0 then hrdyUpdate u true else u

theorem requestTaken_cmd {s : State} {p : Fin 8} {e : Ent} {es : List Ent} (h : ringEnts s p.val = e :: es) :
    (requestTaken s p).cmd = { s.cmd with ents := tblPut s.cmd.ents p.val es [], turn := (p.val + 1) % 8 } := by
  have hcmd := ringDrop_cmd h
  simp only [requestTaken]
  split <;> simp [hrdyUpdate, hcmd]

theorem requestTaken_loop (s : State) (p : Fin 8) : (requestTaken s p).loop = s.loop := by
  have hloop := (CmdOnly.ringDrop s p.val).loop
  simp only [requestTaken]
  split <;> simp [hrdyUpdate, hloop]

/-- Every port holds what it held before the request was taken. -/
theorem requestTaken_port {s : State} {p : Fin 8} {e : Ent} {es : List Ent} (h : ringEnts s p.val = e :: es) (q : Nat) :
    (requestTaken s p).port q = s.port q := by
  simp only [State.port, requestTaken_cmd h]

/-! ### The port is busy with it -/

/-- The state in which a port executes a request, with 259 words of its reply ring reserved (R83). -/
def portTakes (s : State) (p : Fin 8) (r : Request) : State :=
  s.setPort p.val { s.port p.val with busy := some r, resv := (s.port p.val).resv + 259 }

/-- A request that passes the first steps of R81 is handed to its executor. -/
theorem dispatchOne_hands {s : State} {p : Fin 8} {e : Ent} {es : List Ent} {r : Request} (hents : ringEnts s p.val = e :: es)
    (hr : r = requestOf p e.origin (ringTailWords s p.val)) (hlen : 3 ≤ (ringTailWords s p.val).length)
    (hcrc : crc32c (ringTailWords s p.val).dropLast = r.check) (hnew : ∀ d ∈ (s.port p.val).done, ¬ (d.seq = r.seq ∧ d.check = r.check))
    (hop : opcodeKnown r.opcode = true) (hform : packetForm r (ringTailWords s p.val).length e.extra = true) :
    dispatchOne s p = portTakes (requestTaken s p) p r := by
  have hfilter : ((requestTaken s p).port p.val).done.find? (fun d => d.seq == r.seq && d.check == r.check) = none := by
    rw [requestTaken_port hents, List.find?_eq_none]
    intro d hd
    simpa using hnew d hd
  have hwhole : ¬ ((ringTailWords s p.val).length < 3 ∨ crc32c (ringTailWords s p.val).dropLast ≠ r.check) := by
    simp [hcrc, hlen]
  simp only [requestTaken] at hfilter
  subst hr
  simp only [dispatchOne, hents, hfilter, if_neg hwhole, hop, hform]
  rfl

/-- The dispatcher serves the next ring in turn, in recovery port 0 alone (R83, R114). -/
theorem exec_requestDispatch_next {s : State} {p : Fin 8} (hserving : serving s = true) (hnext : nextRing s = some p)
    (hphase : s.phase = .ready ∨ p.val = 0) : exec .requestDispatch s = .next (dispatchOne s p) := by
  have hallowed : ¬ (s.phase = .recovery ∧ p.val ≠ 0) := by
    rintro ⟨hrec, hp⟩
    rcases hphase with hready | hzero
    · simp [hready] at hrec
    · exact hp hzero
  show Host.Outcome.next _ = _
  simp only [hserving, if_true, hnext, if_neg hallowed]

/-! ### Held replies -/

/-- With no reply waiting for its ring, a held reply whose boundaries have all passed goes, with OK and its stamp (R79). -/
theorem deferredSend_applied {s : State} {p : Nat} {d : Deferred} (hout : (s.port p).out = [])
    (hd : s.cmd.deferred.find? (fun x => x.req.port.val == p && deferredReady x) = some d) (hfinal : d.final = none) (has : d.as_ = none)
    (hmixed : d.mixed = false) :
    deferredSend s p = answer (s.withCmd { s.cmd with deferred := s.cmd.deferred.filter (fun x => x.ticket != d.ticket) }) d.req false true true
      stOK d.stamp d.data := by
  simp [deferredSend, hout, replyFlush, hd, hfinal, has, hmixed, heldAnswer]

/-- With no held reply ready, the reply of a snapshot that was taken goes with the values it took (R51). -/
theorem deferredSend_snapshot {s : State} {p : Nat} {x : Snap} {st stamp : Nat} {ws : List Word} (hout : (s.port p).out = [])
    (hd : s.cmd.deferred.find? (fun x => x.req.port.val == p && deferredReady x) = none)
    (hx : s.cmd.snaps.find? (fun x => x.req.port.val == p && snapReady s x) = some x) (hgot : x.got = some (st, stamp, ws)) :
    deferredSend s p = answer (s.withCmd { s.cmd with snaps := s.cmd.snaps.filter (fun y => y != x) }) x.req false true true st stamp ws := by
  simp [deferredSend, hout, replyFlush, hd, hx, hgot, heldAnswer]

/-- Settles O3: the request that is taken and its port, then the two kinds of held replies. -/
theorem dispatchHandsOver : Obligations.Dispatch_Hands_Over := by
  refine ⟨?dispatch, ?applied, ?snapshot⟩
  case dispatch =>
    intro s p e es r hserving hnext hphase hents hr hlen hcrc hnew hop hform
    have hexec := exec_requestDispatch_next hserving hnext hphase
    rw [dispatchOne_hands hents hr hlen hcrc hnew hop hform] at hexec
    have hcmd := requestTaken_cmd hents
    have hbusy : (portTakes (requestTaken s p) p r).cmd = { (requestTaken s p).cmd with
        ports := setAt s.cmd.ports p.val { s.port p.val with busy := some r, resv := (s.port p.val).resv + 259 } } := by
      simp [portTakes, State.setPort, requestTaken_port hents, hcmd]
    refine ⟨_, hexec, ?_, ?_, ?_, ?_, ?_, requestTaken_loop s p⟩
    · rw [hbusy, hcmd]
    · rw [hbusy]
    · simp only [ringEnts, hbusy, hcmd, tblGet_put_same]
    · intro n hn
      simp only [ringEnts, hbusy, hcmd]
      exact tblGet_put_ne _ _ _ _ _ _ hn.symm
    · rw [hbusy, hcmd]
  case applied =>
    intro s p d hout hd hfinal has hmixed
    exact congrArg Host.Outcome.next (deferredSend_applied hout hd hfinal has hmixed)
  case snapshot =>
    intro s p x st stamp ws hout hd hx hgot
    exact congrArg Host.Outcome.next (deferredSend_snapshot hout hd hx hgot)

end Sys2Proof.Machine
end

section
/-! PROOF. O16, contexts: what each command of a context does once Reed serves it and its checks pass. -/

namespace Sys2Proof.Machine

open Sys2Proof

/-- A request of Reed's that is served, in its form, is answered with what its operation does. -/
theorem exec_of_served {c : Instr} {s : State} {r : Request} {form : Bool} {op : State → Res} (hexec : exec c s = .next (serveReed r s form op))
    (hs : s.served) (hform : form = true) : exec c s = .next (respond r (op s)) := by
  obtain ⟨hphase, hhold, hreed⟩ := hs
  rw [hexec, serveReed_serves r s form op hphase hhold hreed hform]

/-! ### CTX_CREATE (R195) -/

/-- A context that passes the checks is made in the lowest free slot, with the lowest free number where its kind has numbers. -/
theorem opCtxCreate_makes {s : State} {r : Request} {p : Word} {slot n : Nat} {held : List Nat} (hp : r.params = [p]) (hok : createBad s p = false)
    (hheld : held = s.slots.filter (fun k => (kindMates (bitsOf p 28 4)).1.contains (s.ctx k).kind))
    (hroom : held.length < (kindMates (bitsOf p 28 4)).2) (hslot : findNat 256 (fun k => (s.ctx k).kind == 0) = some slot)
    (hnum : (if kindNumbered (bitsOf p 28 4) then findNat (kindMates (bitsOf p 28 4)).2 (fun n => !(held.any (fun k => (s.ctx k).num == n)))
      else some 0) = some n) :
    opCtxCreate r s = { st := ctxMake s slot n p, status := stOK,
                        data := if kindNumbered (bitsOf p 28 4) then [wd slot, wd n] else [wd slot] } := by
  subst hheld
  simp only [opCtxCreate, Request.p, hp, nth, List.getD_cons_zero, hok, if_neg (Nat.not_le.mpr hroom), hslot, hnum]
  rfl

/-! ### CTX_DELETE (R40) -/

/-- A context is deleted, at once or at its boundary, where nobody names it but as the angle of DISABLED windings, the members of a machine are
DISABLED, and the Sheaf does not hold its group. -/
theorem opCtxDelete_allowed {s : State} {r : Request} (hcheck : slotCheck s r.target [1, 2, 3, 4, 5, 6, 7, 8, 9, 10, 11, 12, 13] = none)
    (hnames : namers s r.target = [] ∨ ((s.ctx r.target).kind = 6 ∧ (namers s r.target).all (angleOnly s r.target) = true))
    (hmach : (s.ctx r.target).kind = 5 → ∀ m ∈ bMembers (curBind s r.target), windState s m = 0)
    (hsheaf : sheafHolds s = false ∨ (s.ctx r.target).grp ≠ 0) :
    opCtxDelete r s = if !inCommitted s r.target ∨ (s.grp (s.ctx r.target).grp).p = 0 then { st := ctxFree s r.target 0, status := stOK }
      else { st := addPend s (s.ctx r.target).grp (dueNext s (s.ctx r.target).grp) false (.delete r.target),
             affects := [((s.ctx r.target).grp, dueNext s (s.ctx r.target).grp)] } := by
  have hnamesOk : (!((s.ctx r.target).kind == 6 && (namers s r.target).all (angleOnly s r.target)) && namers s r.target != []) = false := by
    rcases hnames with hnone | ⟨hkind, hall⟩
    · simp [hnone]
    · simp [hkind, hall]
  have hmachOk : ((s.ctx r.target).kind == 5 && (bMembers (curBind s r.target)).any (fun m => windState s m != 0)) = false := by
    by_cases hkind : (s.ctx r.target).kind = 5
    · simpa [hkind] using hmach hkind
    · simp [hkind]
  have hsheafOk : ¬ (sheafHolds s ∧ (s.ctx r.target).grp = 0 ∧ inCommitted s r.target ∧ !tg0Committed s (some r.target)) := by
    rintro ⟨hholds, hgrp, -⟩
    rcases hsheaf with hfree | hother
    · exact absurd hholds (by simp [hfree])
    · exact hother hgrp
  simp only [opCtxDelete, hcheck, orRefuse, hnamesOk, hmachOk, hsheafOk]
  rfl

/-! ### CTX_BIND (R196) -/

/-- A binding that nothing refuses waits for its boundary. -/
theorem opCtxBind_waits {s : State} {r : Request} (hcheck : slotCheck s r.target [1, 2, 3, 4, 5, 6, 7, 8, 9, 10, 11, 12, 13] = none)
    (hcount : r.params.length = bindCount (s.ctx r.target).kind) (hbind : bindStatus s r.target r.params = none)
    (hadm : inCommitted s r.target = true → (admResult s { admNow s (committedSet s) with bind := bindWith (effBind s) r.target r.params }).1 = 0) :
    opCtxBind r s = { st := addPend s (s.ctx r.target).grp (dueNext s (s.ctx r.target).grp) false (.bind r.target r.params),
                      affects := [((s.ctx r.target).grp, dueNext s (s.ctx r.target).grp)] } := by
  have hfits : ¬ (inCommitted s r.target = true ∧
      (admResult s { admNow s (committedSet s) with bind := bindWith (effBind s) r.target r.params }).1 ≠ 0) :=
    fun ⟨hcommitted, hne⟩ => hne (hadm hcommitted)
  simp only [opCtxBind, hcheck, orRefuse, if_neg (not_not.mpr hcount), hbind, if_neg hfits]

/-! ### CTX_PARAM (R223) -/

/-- CTX_PARAM of a context writes its words from the offset on. -/
theorem opCtxParam_writes {s : State} {r : Request} (hcheck : slotCheck s r.target [1, 2, 3, 4, 5, 6, 7, 8, 9, 10, 11, 12, 13] = none)
    (hoff : bitsOf (r.p 0) 16 16 = 0) : opCtxParam r s = ctxParam s r.target (r.p 0).toNat (r.params.drop 1) := by
  simp [opCtxParam, hcheck, orRefuse, hoff]

/-- The one number of a range that a test singles out. -/
theorem filter_range_single {n k : Nat} (h : k < n) {q : Nat → Bool} (hq : ∀ i, q i = (i == k)) : (List.range n).filter q = [k] := by
  rw [funext hq, List.filter_beq, List.count_eq_one_of_mem List.nodup_range (List.mem_range.mpr h)]
  rfl

/-- The bits of a small number above its highest are zero. -/
theorem bitsOf_wd_above {v lo : Nat} (n : Nat) (h : v < 2 ^ lo) : bitsOf (wd v) lo n = 0 := by
  have hshift : (v % 2 ^ 32) >>> lo = 0 := Nat.shiftRight_eq_zero _ _ (Nat.lt_of_le_of_lt (Nat.mod_le ..) h)
  rw [bitsOf, wd, BitVec.toNat_and, BitVec.toNat_ushiftRight, BitVec.toNat_ofNat, hshift, Nat.zero_and]

/-- One word of a context, in its row and taken, waits for its boundary. -/
theorem ctxParam_word {s : State} {slot off : Nat} {x v : Word} {w : PW} (h1 : 1 ≤ off) (h128 : off < 128)
    (hrow : ctxRow (s.ctx slot).kind (s.cw slot 0) off = some w) (hok : rowBad s (s.ctx slot).kind w (s.cw slot off) x = false)
    (hv : v = rowValue w (s.cw slot off) x) (hnew : v ≠ s.cw slot off)
    (hrel : relBad s slot (fun k => if k = off then v else s.cw slot k) (fun k => k == off) = false)
    (hstate : relState s slot (fun k => if k = off then v else s.cw slot k) (fun k => k == off) = none) :
    ctxParam s slot off [x] = { st := addPend (s.setCw slot off v) (s.ctx slot).grp (dueNext s (s.ctx slot).grp) false (.ctxWords slot off [v]),
                                affects := [((s.ctx slot).grp, dueNext s (s.ctx slot).grp)] } := by
  unfold ctxParam
  extract_lets c given w0 row nw hits bad past s1 due
  have hgiven (k : Nat) : given k = if k = off then some x else none := by
    by_cases hk : k = off
    · simp [given, hk, h128]
    · have hout : ¬ (off ≤ k ∧ k < off + 1 ∧ k < 128) := by omega
      exact (if_neg hout).trans (if_neg hk).symm
  have hw0 : w0 = s.cw slot 0 := by
    have hoff : 0 ≠ off := by omega
    simp [w0, hgiven, hoff]
  have hrows (k : Nat) : row k = if k = off then some w else none := by
    by_cases hk : k = off
    · simp [row, hgiven, hk, hw0, c, hrow]
    · simp [row, hgiven, hk]
  have hnw : nw = fun k => if k = off then v else s.cw slot k := by
    funext k
    by_cases hk : k = off
    · simp [nw, hrows, hgiven, hk, hv]
    · simp [nw, hrows, hk]
  have hhit : (fun k => (row k).isSome) = fun k => k == off := by
    funext k
    by_cases hk : k = off <;> simp [hrows, hk]
  have hhits : hits = [off] := filter_range_single h128 (congrFun hhit)
  have hbad : bad = false := by
    simp [bad, hhits, hrows, hgiven, c, hok]
  have hpast : past = false := by
    simp [past]
    omega
  have hs1 : s1 = s.setCw slot off v := by
    simp [s1, hhits, hnw]
  have hlen : min 1 (128 - off) = 1 := by omega
  simp [hbad, hhit, hnw, hrel, hstate, hhits, hpast, orRefuse, hnew, hlen, hs1, due, c]

/-! ### Admission (R41) -/

/-- The settings an admission request is tested on. -/
def admitSettings (r : Request) (s : State) : AdmitIn :=
  { admNow s s.slots with
    floor := if bitOf (r.p 0) 1 then paceFloor (bitsOf (r.p 1) 16 12) (bitsOf (r.p 1) 0 8) else s.fld R.loopFloor_FLOOR_PS,
    win := fun g => if admitWin r g = 0 then windowPct s g else admitWin r g }

/-- The reply words of an admission request that passes under settings: no failure, the floor, load and limit, the use of each window. -/
def admitFigures (s : State) (a : AdmitIn) : List Word :=
  [wd ((admResult s a).2 * 65536), wd a.floor, wd (centi (admLoad s a)), wd (centi (admLimit a.floor))] ++
    (List.range 4).map (fun i => wd (admUse s a (2 * i) + 65536 * admUse s a (2 * i + 1)))

/-- The groups whose window an admission request sets. -/
def admitWindows (r : Request) : List Nat := (List.range 8).filter (fun g => admitWin r g != 0)

/-- The contexts that an admission request commits. -/
def admitNew (s : State) : List Nat := s.slots.filter (fun k => !inCommitted s k)

/-- The state with the floor of an admission request in force, its windows and commits waiting for their boundaries. -/
def admitPends (r : Request) (s : State) : State :=
  (admitNew s).foldl (fun t k => addPend t (t.ctx k).grp (dueNext t (t.ctx k).grp) false (.commit k))
    ((admitWindows r).foldl (fun t g => addPend t g (dueNext t g) false (.window (admitWin r g)))
      (if bitOf (r.p 0) 1 then setEnvelope s (bitsOf (r.p 1) 16 12) (bitsOf (r.p 1) 0 8) else s))

/-- An admission request that passes answers its figures, and takes its settings unless it only asks. -/
theorem opAdmit_passes {s : State} {r : Request} (hok : admitBad r = false) (hpass : (admResult s (admitSettings r s)).1 = 0) :
    opAdmit r s = if bitOf (r.p 0) 0 then { st := s, data := admitFigures s (admitSettings r s) } else
      { st := (loopRefresh (admitPends r s)).raise 99 0 (wd (admitNew s).length), data := admitFigures s (admitSettings r s),
        affects := ((admitWindows r ++ (admitNew s).map (fun k => (s.ctx k).grp)).eraseDups).map (fun g => (g, dueNext s g)) } := by
  unfold opAdmit
  extract_lets env mv tj win now a res uses data new wins s1 s2 s3 grps
  have hres : res.1 = 0 := hpass
  have hdata : data = admitFigures s (admitSettings r s) := by
    simp only [data, hres, Nat.zero_mul, Nat.zero_add]
    rfl
  rw [if_neg (by simp [hok]), if_neg (not_not.mpr hres), hdata]
  rfl

/-- Settles O16, command by command. -/
theorem contexts : Obligations.Contexts := by
  refine ⟨?create, ?delete, ?bind, ?param, ?paramWord, ?admission⟩
  case create =>
    intro s r p slot held hs ht hp hok hheld hroom hslot
    have hexec := exec_of_served (c := .ctxCreate r) rfl hs (by simp [ht, hp])
    rw [hexec]
    refine ⟨fun hkind => ?_, fun n hkind hnum => ?_⟩
    · rw [opCtxCreate_makes (n := 0) hp hok hheld hroom hslot (by simp [hkind])]
      simp [hkind]
    · rw [opCtxCreate_makes hp hok hheld hroom hslot (by simpa only [hkind, if_true] using hnum)]
      simp [hkind]
  case delete =>
    intro s r hs hp hcheck hnames hmach hsheaf
    rw [exec_of_served (c := .ctxDelete r) rfl hs (by simp [hp]), opCtxDelete_allowed hcheck hnames hmach hsheaf]
    exact ⟨fun hfree => by rw [if_pos (by simpa using hfree)], fun hcommitted hper => by rw [if_neg (by simp [hcommitted, hper])]⟩
  case bind =>
    intro s r hs hp hcheck hcount hbind hadm
    rw [exec_of_served (c := .ctxBind r) rfl hs (by simp [hp]), opCtxBind_waits hcheck hcount hbind hadm]
  case param =>
    intro s r hs h2 h128 hcheck hoff
    rw [exec_of_served (c := .ctxParam r) rfl hs (by simp [h2, h128]), opCtxParam_writes hcheck hoff]
  case paramWord =>
    intro s r off x v w hs hp h1 h128 hcheck hrow hok hv hnew hrel hstate
    have hwd : bitsOf (wd off) 16 16 = 0 := bitsOf_wd_above 16 (by omega)
    have hoff : (wd off).toNat = off := Nat.mod_eq_of_lt (by omega)
    have hp0 : r.p 0 = wd off := by simp [Request.p, hp, nth]
    rw [exec_of_served (c := .ctxParam r) rfl hs (by simp [hp]), opCtxParam_writes hcheck (by rw [hp0, hwd]), hp0, hoff, hp]
    exact congrArg (fun y => Host.Outcome.next (respond r y)) (ctxParam_word h1 h128 hrow hok hv hnew hrel hstate)
  case admission =>
    rintro s r a d wins new u v hs ht hlen hok rfl rfl rfl hpass rfl rfl rfl
    rw [exec_of_served (c := .admitRq r) rfl hs (by simp [ht, hlen]), opAdmit_passes hok hpass]
    exact ⟨fun hask => by rw [if_pos hask]; rfl, fun htake => by rw [if_neg (by simp [htake])]; rfl⟩

end Sys2Proof.Machine
end

section
/-! PROOF. O17, pace and shedding: what a measurement shows, the two moves of the level, and the counters that LOOP.CTRL clears. -/

namespace Sys2Proof.Machine

open Sys2Proof

/-! ### A measurement of the pace monitor (R32, R46) -/

/-- The registers that show a pace figure: LIVE_PS and WORST_PS, and PACE_SLOW against the floor. -/
def paceShown (s : State) (ps : Nat) : State :=
  ((s.setFld R.loopPace_LIVE_PS ps).setFld R.loopPace_WORST_PS (max ps (s.fld R.loopPace_WORST_PS))).setFlag R.loopStat_PACE_SLOW
    (decide (s.fld R.loopFloor_FLOOR_PS < ps))

/-- The counts of slow and fast measurements after one of them. -/
def paceCounted (s : State) (ps : Nat) : LoopS :=
  let slow : Bool := decide (s.fld R.loopFloor_FLOOR_PS < ps)
  { s.loop with
    wasSlow := slow, slow := if slow then s.loop.slow + 1 else 0, rose := slow && s.loop.rose,
    fast := if decide (100 * ps ≤ 97 * s.fld R.loopFloor_FLOOR_PS) then s.loop.fast + 1 else 0 }

section

variable {s : State} {ps : Nat}

/-- A measurement shows its figure and counts it; event 4 tells a fabric that became slow. -/
theorem paceMeasure_valid (htb : tbValid s = true) :
    paceMeasure s ps = if s.fld R.loopFloor_FLOOR_PS < ps ∧ s.loop.wasSlow = false
      then ((paceShown s ps).withLoop (paceCounted s ps)).raise 4 0 (wd ps) else (paceShown s ps).withLoop (paceCounted s ps) := by
  unfold paceMeasure
  rw [if_neg (by simp [htb])]
  exact if_congr (by simp) rfl rfl

theorem paceMeasure_reg (htb : tbValid s = true) (a : Nat) : (paceMeasure s ps).reg a = (paceShown s ps).reg a := by
  rw [paceMeasure_valid htb]
  split <;> rfl

theorem paceMeasure_fld (htb : tbValid s = true) (f : RF) : (paceMeasure s ps).fld f = (paceShown s ps).fld f :=
  congrArg (bitsOf · f.lo f.w) (paceMeasure_reg htb f.addr)

theorem paceMeasure_loop (htb : tbValid s = true) : (paceMeasure s ps).loop = paceCounted s ps := by
  rw [paceMeasure_valid htb]
  split <;> rfl

theorem paceMeasure_nib (htb : tbValid s = true) : (paceMeasure s ps).nib = s.nib := by
  rw [paceMeasure_valid htb]
  split <;> rfl

theorem paceMeasure_occ (htb : tbValid s = true) :
    (paceMeasure s ps).evt.occ = s.evt.occ ++
      (if s.fld R.loopFloor_FLOOR_PS < ps ∧ s.loop.wasSlow = false then [{ ev := 4, inst := 0, detail := wd ps }] else []) := by
  rw [paceMeasure_valid htb]
  split
  · rfl
  · exact (List.append_nil _).symm

/-- The figure stands in LIVE_PS. -/
theorem paceShown_live (hps : ps < 2 ^ 16) : (paceShown s ps).fld R.loopPace_LIVE_PS = ps := by
  rw [paceShown, State.fld_setFlag_ne _ _ _ _ (by decide), State.fld_setFld_apart _ R.loopPace_WORST_PS R.loopPace_LIVE_PS _ rfl (by decide) (by decide),
    State.fld_setFld_same _ _ _ (by decide)]
  exact Nat.mod_eq_of_lt hps

/-- The slowest figure so far stands in WORST_PS. -/
theorem paceShown_worst (hps : ps < 2 ^ 16) : (paceShown s ps).fld R.loopPace_WORST_PS = max ps (s.fld R.loopPace_WORST_PS) := by
  have hworst : s.fld R.loopPace_WORST_PS < 2 ^ 16 := bitsOf_lt _ 16 16 (by decide)
  rw [paceShown, State.fld_setFlag_ne _ _ _ _ (by decide), State.fld_setFld_same _ _ _ (by decide)]
  exact Nat.mod_eq_of_lt (Nat.max_lt.mpr ⟨hps, hworst⟩)

theorem paceShown_slow : (paceShown s ps).flag R.loopStat_PACE_SLOW = decide (s.fld R.loopFloor_FLOOR_PS < ps) :=
  State.flag_setFlag_same _ _ _ (by decide) rfl

/-- Registers other than LOOP.PACE and LOOP.STAT show no figure. -/
theorem paceShown_reg_ne {a : Nat} (hpace : a ≠ R.loopPace) (hstat : a ≠ R.loopStat) : (paceShown s ps).reg a = s.reg a := by
  rw [paceShown, State.reg_setFlag_ne _ _ _ _ hstat.symm, State.reg_setFld_ne _ _ _ _ hpace.symm, State.reg_setFld_ne _ _ _ _ hpace.symm]

end

/-- A pace figure fits its 16-bit field. -/
theorem paceFigure_lt (fs : List (BitVec 32)) : paceFigure fs < 2 ^ 16 :=
  Nat.lt_succ_of_le (Nat.min_le_left ..)

/-! ### The shed level and the envelope (R35, R46) -/

/-- The level rises by one with event 5 where it is due. -/
theorem shedRise_due {s : State} (hlevel : s.fld R.loopShed_LEVEL < 4) (hdue : (if s.loop.rose then shedRiseRun else 2) ≤ s.loop.slow) :
    shedRise s =
      let u := (s.setFld R.loopShed_LEVEL (s.fld R.loopShed_LEVEL + 1)).cntSat R.loopShed_RISES
      shedPend ((u.withLoop { u.loop with slow := 0, rose := true }).raise 5 0 (wd (s.fld R.loopShed_LEVEL + 1))) (s.fld R.loopShed_LEVEL + 1) := by
  have hrun : (if s.loop.rose then decide (shedRiseRun ≤ s.loop.slow) else decide (2 ≤ s.loop.slow)) = true := by
    cases hrose : s.loop.rose <;> simpa [hrose] using hdue
  simp only [shedRise, hrun, Bool.not_true, Bool.false_or, decide_eq_true_eq, if_neg (Nat.not_le.mpr hlevel)]

/-- The level falls by one with event 6 where it is due. -/
theorem shedFall_due {s : State} (hlevel : s.fld R.loopShed_LEVEL ≠ 0) (hdue : shedFallRun ≤ s.loop.fast) :
    shedFall s =
      let u := s.setFld R.loopShed_LEVEL (s.fld R.loopShed_LEVEL - 1)
      shedPend ((u.withLoop { u.loop with fast := 0 }).raise 6 0 (wd (s.fld R.loopShed_LEVEL - 1))) (s.fld R.loopShed_LEVEL) := by
  have hgo : ¬ (s.fld R.loopShed_LEVEL = 0 ∨ s.loop.fast < shedFallRun) := by simp [hlevel, hdue]
  simp only [shedFall, if_neg hgo]

section

variable {s : State} {mv tj : BitVec 16}

/-- A measurement below VCORE_MIN or above TJ_MAX raises event 7. -/
theorem envelopeMeasure_outside (h : mv.toNat < s.fld R.loopEnv_VCORE_MIN ∨ (s.fld R.loopEnv_TJ_MAX : Int) < tj.toInt) :
    envelopeMeasure s mv tj = s.raiseLim 7 0 (wd (mv.toNat * 65536 + tj.toNat)) (100 * msTicks) :=
  if_pos (by simpa using h)

/-- A measurement inside the envelope does nothing. -/
theorem envelopeMeasure_inside (hmv : s.fld R.loopEnv_VCORE_MIN ≤ mv.toNat) (htj : tj.toInt ≤ (s.fld R.loopEnv_TJ_MAX : Int)) :
    envelopeMeasure s mv tj = s :=
  if_neg (by simp [hmv, htj])

end

/-! ### The counters that LOOP.CTRL clears (R54) -/

/-- A register after several were cleared. -/
theorem reg_clearRegs (l : List Nat) (f : Nat → Nat) (s : State) (a : Nat) :
    (l.foldl (fun t n => t.setReg (f n) 0#32) s).reg a = if a ∈ l.map f then 0#32 else s.reg a := by
  induction l generalizing s with
  | nil => simp
  | cons n l ih =>
    rw [List.foldl_cons, ih, State.reg_setReg]
    by_cases ha : f n = a
    · simp [ha]
    · simp [ha, Ne.symm ha]

/-- Clearing registers leaves what a register write leaves. -/
theorem clearRegs_keeps {γ : Type} (k : State → γ) (hk : ∀ t a x, k (State.setReg t a x) = k t) (l : List Nat) (f : Nat → Nat) (s : State) :
    k (l.foldl (fun t n => t.setReg (f n) 0#32) s) = k s :=
  foldl_keep (fun t n => t.setReg (f n) 0#32) k (fun _ _ => hk ..) l s

/-- CLR_WORST clears WORST_PS: LOOP.CTRL stands in no clock node, so its writes are always taken. -/
theorem exec_loopClrWorst (s : State) : exec .loopClrWorst s = .next (s.setFld R.loopPace_WORST_PS 0) := rfl

/-- CLR_LATE clears the counters of late passes. -/
theorem exec_loopClrLate (s : State) : exec .loopClrLate s = .next ((List.range 8).foldl (fun t g => t.setReg (R.loopLate g) 0#32) s) := rfl

/-- Settles O17, command by command. -/
theorem paceAndShedding : Obligations.Pace_And_Shedding := by
  refine ⟨?pace, ?rise, ?fall, ?outside, ?inside, ?clrWorst, ?clrLate⟩
  case pace =>
    rintro s fs ps htb rfl
    have hps := paceFigure_lt fs
    refine ⟨_, rfl, (paceMeasure_fld htb _).trans (paceShown_live hps), (paceMeasure_fld htb _).trans (paceShown_worst hps),
      (congrArg (· == 1) (paceMeasure_fld htb _)).trans paceShown_slow, ?_, ?_, paceMeasure_occ htb,
      fun a hpace hstat => (paceMeasure_reg htb a).trans (paceShown_reg_ne hpace hstat), paceMeasure_nib htb⟩
    · rw [paceMeasure_loop htb]
      rfl
    · rw [paceMeasure_loop htb]
      simp [paceCounted]
  case rise =>
    rintro s u hlevel hdue rfl
    exact congrArg Host.Outcome.next (shedRise_due hlevel hdue)
  case fall =>
    rintro s u hlevel hdue rfl
    exact congrArg Host.Outcome.next (shedFall_due hlevel hdue)
  case outside => exact fun s mv tj h => congrArg Host.Outcome.next (envelopeMeasure_outside h)
  case inside => exact fun s mv tj hmv htj => congrArg Host.Outcome.next (envelopeMeasure_inside hmv htj)
  case clrWorst =>
    exact fun s => ⟨_, exec_loopClrWorst s, State.fld_setFld_same _ _ _ (by decide),
      State.fld_setFld_apart _ _ _ _ rfl (by decide) (by decide), fun a ha => State.reg_setFld_ne _ _ _ _ ha.symm, rfl, rfl⟩
  case clrLate =>
    refine fun s => ⟨_, exec_loopClrLate s, fun g hg => ?_, fun a ha => ?_, clearRegs_keeps State.loop (fun _ _ _ => rfl) ..,
      clearRegs_keeps State.evt (fun _ _ _ => rfl) ..⟩
    · exact (reg_clearRegs ..).trans (if_pos (List.mem_map_of_mem (List.mem_range.mpr hg)))
    · refine (reg_clearRegs ..).trans (if_neg fun hmem => ?_)
      obtain ⟨g, hg, hga⟩ := List.mem_map.mp hmem
      exact ha g (List.mem_range.mp hg) hga.symm

end Sys2Proof.Machine
end

section
/-! PROOF. O58, the pace floor: the row of the table by VCORE_MIN (R33), then its column by TJ_MAX. -/

namespace Sys2Proof.Machine

open Sys2Proof

/-- The columns of the pace-floor table are up to 105 °C, up to 125 °C and above (R33). -/
theorem paceFloor_of_row {mv tj a b c : Nat} (h : floorRow mv = (a, b, c)) :
    paceFloor mv tj = if tj ≤ 105 then a else if tj ≤ 125 then b else c := by
  simp only [paceFloor, h]

section

variable {mv : Nat}

theorem floorRow_below_650 (h : mv < 650) : floorRow mv = (2350, 2450, 2600) := by
  simp [floorRow, h]

theorem floorRow_650_to_700 (h1 : 650 ≤ mv) (h2 : mv < 700) : floorRow mv = (2100, 2200, 2330) := by
  simp [floorRow, Nat.not_lt.mpr h1, h2]

theorem floorRow_700_to_750 (h1 : 700 ≤ mv) (h2 : mv < 750) : floorRow mv = (1900, 1990, 2110) := by
  have h650 : ¬ mv < 650 := by omega
  simp [floorRow, h650, Nat.not_lt.mpr h1, h2]

theorem floorRow_750_to_800 (h1 : 750 ≤ mv) (h2 : mv < 800) : floorRow mv = (1740, 1820, 1930) := by
  have h650 : ¬ mv < 650 := by omega
  have h700 : ¬ mv < 700 := by omega
  simp [floorRow, h650, h700, Nat.not_lt.mpr h1, h2]

theorem floorRow_from_800 (h : 800 ≤ mv) : floorRow mv = (1610, 1690, 1790) := by
  have h650 : ¬ mv < 650 := by omega
  have h700 : ¬ mv < 700 := by omega
  have h750 : ¬ mv < 750 := by omega
  simp [floorRow, h650, h700, h750, Nat.not_lt.mpr h]

end

/-- Settles O58, row by row. -/
theorem paceFloorTable : Obligations.Pace_Floor_Table := by
  intro mv tj _ _
  exact ⟨fun h => paceFloor_of_row (floorRow_below_650 h), fun h1 h2 => paceFloor_of_row (floorRow_650_to_700 h1 h2),
    fun h1 h2 => paceFloor_of_row (floorRow_700_to_750 h1 h2), fun h1 h2 => paceFloor_of_row (floorRow_750_to_800 h1 h2),
    fun h => paceFloor_of_row (floorRow_from_800 h)⟩

end Sys2Proof.Machine
end

section
/-! PROOF. O26, the passes: they share one row, `passRow`, which gives the one run of its context a result. -/

namespace Sys2Proof.Machine

open Sys2Proof

/-- The runs of other contexts keep what they hold. -/
theorem map_passResult_others {slot : Nat} {l : List Run} (h : ∀ x ∈ l, x.slot ≠ slot) (o : Run → PassOut) :
    l.map (fun r => if r.slot = slot && r.out.isNone then { r with out := some (o r) } else r) = l := by
  refine (List.map_congr_left fun x hx => ?_).trans (List.map_id' l)
  simp [h x hx]

/-- The pass of a context whose run stands among the others without a result: that run takes its result, the others stay. -/
theorem passRow_computes {s : State} {slot : Nat} {a b : List Run} {r : Run} {kinds : List Nat} (f : State → Nat → Run → PassOut)
    (hruns : s.loop.runs = a ++ r :: b) (hslot : r.slot = slot) (hout : r.out = none) (hothers : ∀ x ∈ a ++ b, x.slot ≠ slot)
    (hkind : (s.ctx slot).kind ∈ kinds) :
    passRow s slot kinds f = s.withRuns (a ++ { r with out := some (f (passView s r) slot r) } :: b) := by
  have ha := map_passResult_others (fun x hx => hothers x (List.mem_append_left b hx)) (fun x => f (passView s x) slot x)
  have hb := map_passResult_others (fun x hx => hothers x (List.mem_append_right a hx)) (fun x => f (passView s x) slot x)
  have hone : (r.slot = slot && r.out.isNone) = true := by simp [hslot, hout]
  rw [passRow, if_neg (by simp [hkind]), hruns, List.map_append, List.map_cons, ha, hb, if_pos hone]
  rfl

/-- Settles O26: each command is the row of its kinds. -/
theorem passesCompute : Obligations.Passes_Compute := by
  intro s slot a b r hruns hslot hout hothers
  have hrow : ∀ {c : Instr} {kinds : List Nat} (f : State → Nat → Run → PassOut), exec c s = .next (passRow s slot.val kinds f) →
      (s.ctx slot.val).kind ∈ kinds → exec c s = .next (s.withRuns (a ++ { r with out := some (f (passView s r) slot.val r) } :: b)) :=
    fun f hexec hkind => hexec.trans (congrArg _ (passRow_computes f hruns hslot hout hothers hkind))
  refine ⟨?winding, ?stepping, ?chopper, ?machine, ?observer, ?gear, ?stroke, ?filter, ?probe⟩
  case winding => exact fun h => hrow Machine.windingPass rfl (by simpa using h)
  case stepping => exact fun h => hrow Machine.steppingPass rfl (by simp [h])
  case chopper => exact fun h => hrow Machine.chopperPass rfl (by simp [h])
  case machine => exact fun h => hrow Machine.machinePass rfl (by simp [h])
  case observer => exact fun h => hrow Machine.observerPass rfl (by simp [h])
  case gear => exact fun h => hrow Machine.gearPass rfl (by simpa using h)
  case stroke => exact fun h => hrow Machine.strokeTick rfl (by simp [h])
  case filter => exact fun h => hrow Machine.filterPass rfl (by simp [h])
  case probe => exact fun h => hrow Machine.probePass rfl (by simp [h])

end Sys2Proof.Machine
end

section
/-! PROOF. O2, the carriers: a unit that arrives whole, with room in its ring, is stored there. -/

namespace Sys2Proof.Machine

open Sys2Proof

/-- A unit of at least two words that its port's ring has room for becomes the ring's newest entry (R98 to R100). -/
theorem carrierArrive_stores {s : State} {p : Nat} {o : Origin} {bytes : List Byte} (hready : s.phase = .ready) (hlen : 8 ≤ bytes.length)
    (hroom : (bytesWords bytes).length ≤ ringFree s p) :
    carrierArrive s p o bytes = ringStore s p (bytesWords bytes) { words := bytes.length / 4, extra := bytes.length % 4, origin := o } := by
  rw [carrierArrive, if_pos hready, unitArrive, if_neg (Nat.not_lt.mpr hlen), ringPut, if_pos hroom]

/-- Settles O2: each carrier lets the unit through to its port. -/
theorem carriersDeliver : Obligations.Carriers_Deliver := by
  refine ⟨?udp, ?sward, ?can⟩
  case udp =>
    intro s mac o bytes hready hup hlen hroom
    have hpass : (true && ethUp s mac.val) = true := by simp [hup]
    exact congrArg Host.Outcome.next ((if_pos hpass).trans (carrierArrive_stores hready hlen hroom))
  case sward =>
    intro s src bytes hready hhears hlen hroom
    exact congrArg Host.Outcome.next ((if_pos hhears).trans (carrierArrive_stores hready hlen hroom))
  case can =>
    intro s c bytes hready hlen hroom
    exact congrArg Host.Outcome.next ((if_neg (not_not.mpr hready)).trans (carrierArrive_stores hready hlen hroom))

end Sys2Proof.Machine
end

section
/-! PROOF. O47, the machine right after reset. -/

namespace Sys2Proof.Machine

open Sys2Proof

/-- Settles O47: the reset state lists no register, no value in force and no context, so each reads as its unlisted value. -/
theorem resetMeetsTheInvariant : Obligations.Reset_Meets_The_Invariant := by
  have hgen : State.reset.genHeld := fun h => absurd h Bool.false_ne_true
  exact ⟨rfl, fun _ => rfl, fun _ => rfl, rfl, rfl, rfl, rfl, fun _ => rfl, fun _ => rfl, rfl, rfl, hgen⟩

end Sys2Proof.Machine
end

section
/-! PROOF. O7 and O55, clock sources: what a failure leaves, which source takes over, and what each command does past its guard. -/

namespace Sys2Proof.Machine

open Sys2Proof

/-! ### A source fails (R56, R57, R65) -/

/-- A source that failed has been counted, disqualified and told. -/
def clkFailed (s : State) (src detail : Nat) : State :=
  (clkSetQual (s.cntSat (clkFailsFld src)) src false).raise 8 src (wd detail)

/-- What the device does about the active source once a source has failed: nothing where another one is active, else the first candidate
takes over or the device coasts. -/
def clkReact (u : State) (src : Nat) : State :=
  if clkActive u ≠ src ∨ u.flag R.clkStat_NOFALLBACK = true then u
  else match clkCand u (some src) with
    | some c => clkSwitch u c
    | none => clkCoast u

theorem clkFail_enabled {s : State} {src detail : Nat} (hen : clkEnabled s src = true) :
    clkFail s src detail = tbSettle (clkReact (clkFailed s src detail) src) := by
  rw [clkFail, if_neg (by simp [hen]), clkReact, clkFailed]
  extract_lets u
  rw [apply_ite tbSettle]
  cases clkCand u (some src) <;> rfl

/-- The first other source among crystal, REF_IN and RC that is enabled and qualified (R65). -/
theorem clkCand_but (u : State) (a : Nat) :
    clkCand u (some a) = if a ≠ 0 ∧ clkEnabled u 0 = true ∧ clkQual u 0 = true then some 0
      else if a ≠ 1 ∧ clkEnabled u 1 = true ∧ clkQual u 1 = true then some 1
      else if a ≠ 2 ∧ clkEnabled u 2 = true ∧ clkQual u 2 = true then some 2
      else none := by
  have htest (c : Nat) : (some a != some c && clkEnabled u c && clkQual u c) = decide (a ≠ c ∧ clkEnabled u c = true ∧ clkQual u c = true) := by
    simp [bne, Bool.and_assoc, beq_eq_decide]
  simp only [clkCand, htest, List.find?_cons, List.find?_nil]
  split_ifs with h0 h1 h2 <;> simp [*]

/-- The active source, having failed, is left for the first candidate, or the device coasts. -/
theorem clkReact_active {u : State} {a : Nat} (hactive : clkActive u = a) (hfall : u.flag R.clkStat_NOFALLBACK = false) :
    clkReact u a = if a ≠ 0 ∧ clkEnabled u 0 = true ∧ clkQual u 0 = true then clkSwitch u 0
      else if a ≠ 1 ∧ clkEnabled u 1 = true ∧ clkQual u 1 = true then clkSwitch u 1
      else if a ≠ 2 ∧ clkEnabled u 2 = true ∧ clkQual u 2 = true then clkSwitch u 2
      else clkCoast u := by
  rw [clkReact, if_neg (by simp [hactive, hfall]), clkCand_but]
  split_ifs <;> rfl

theorem exec_sourceFrequencyFail {s : State} {src : Fin 3} (hruns : clkRuns s = true) (hen : clkEnabled s src.val = true)
    (hjudged : clkFreqJudged s src.val = true) :
    exec (.sourceFrequencyFail src) s = .next (tbSettle (clkReact (clkFailed s src.val 2) src.val)) :=
  congrArg Host.Outcome.next ((if_pos (by simp [hruns, hjudged])).trans (clkFail_enabled hen))

/-! ### A source qualifies (R56, R59, R66) -/

/-- A source that qualified is marked so. -/
def clkMarked (s : State) (src : Nat) : State := clkSetQual (clkSetAlive s src true) src true

section

variable {s : State} {src : Nat}

/-- Outside start-up and coast, the mark is all. -/
theorem clkQualified_running (hen : clkEnabled s src = true) (hstarted : s.clk.started = true)
    (hfall : (clkMarked s src).flag R.clkStat_NOFALLBACK = false) : clkQualified s src = tbSettle (clkMarked s src) := by
  have hmarked : (clkMarked s src).clk.started = true := hstarted
  rw [clkMarked] at hmarked hfall
  simp [clkQualified, hen, hmarked, hfall, clkMarked]

/-- At start-up the crystal starts the PLLs. -/
theorem clkQualified_crystal (hen : clkEnabled s src = true) (hstarted : s.clk.started = false) (hsrc : src = 0) :
    clkQualified s src = tbSettle (clkStart ((clkMarked s src).setFlag R.clkStat_NOFALLBACK false) 0) := by
  have hmarked : (clkMarked s src).clk.started = false := hstarted
  rw [clkMarked] at hmarked
  rw [clkQualified, if_neg (by simp [hen])]
  exact if_pos (by simpa [hmarked] using hsrc)

/-- In coast the first qualified source ends it. -/
theorem clkQualified_coast {c : Nat} (hen : clkEnabled s src = true) (hstarted : s.clk.started = true)
    (hfall : (clkMarked s src).flag R.clkStat_NOFALLBACK = true)
    (hcand : clkCand ((clkMarked s src).setFlag R.clkStat_NOFALLBACK false) none = some c) :
    clkQualified s src = tbSettle (clkSwitch ((clkMarked s src).setFlag R.clkStat_NOFALLBACK false) c) := by
  have hmarked : (clkMarked s src).clk.started = true := hstarted
  rw [clkMarked] at hmarked hfall hcand
  simp [clkQualified, hen, hmarked, hfall, hcand, clkMarked]

end

/-- An edge of the active clock leaves start-up where it stands. -/
theorem clkEdge_started (s : State) (c : SourceChange) : (clkEdge s c).clk.started = s.clk.started := by
  unfold clkEdge
  split <;> rfl

theorem clkEdge_enabled (s : State) (c : SourceChange) (src : Nat) : clkEnabled (clkEdge s c) src = clkEnabled s src := by
  unfold clkEdge
  split <;> rfl

/-- Settles O7, command by command. -/
theorem clockSources : Obligations.Clock_Sources := by
  refine ⟨?missing, ?frequency, ?qualified, ?crystal, ?forced, ?revert⟩
  case missing =>
    rintro s u src edge hruns hen rfl
    have hen' : clkEnabled (clkEdge (clkSetAlive s src.val false) ⟨src, edge⟩) src.val = true := (clkEdge_enabled ..).trans hen
    exact congrArg Host.Outcome.next ((if_pos hruns).trans (clkFail_enabled hen'))
  case frequency =>
    rintro s u src hruns hen hjudged rfl
    exact exec_sourceFrequencyFail hruns hen hjudged
  case qualified =>
    rintro s u src edge hruns hen rfl
    have hexec : exec (.sourceQualified ⟨src, edge⟩) s = .next (clkQualified (clkEdge s ⟨src, edge⟩) src.val) :=
      congrArg Host.Outcome.next (if_pos hruns)
    have hen' := (clkEdge_enabled s ⟨src, edge⟩ src.val).trans hen
    have hstart := clkEdge_started s ⟨src, edge⟩
    exact ⟨fun hstarted hfall => hexec.trans (congrArg _ (clkQualified_running hen' (hstart.trans hstarted) hfall)),
      fun hstarted hsrc => hexec.trans (congrArg _ (clkQualified_crystal hen' (hstart.trans hstarted) hsrc)),
      fun c hstarted hfall hcand => hexec.trans (congrArg _ (clkQualified_coast hen' (hstart.trans hstarted) hfall hcand))⟩
  case crystal =>
    intro s hruns hstarted hfall
    refine congrArg Host.Outcome.next ((if_neg (by simp [hruns, hstarted])).trans ?_)
    rw [hfall, if_neg Bool.false_ne_true, apply_ite (clkStart s)]
    exact if_congr (by simp) rfl rfl
  case forced =>
    intro s a b hswitching
    show Host.Outcome.next _ = _
    rw [hswitching]
  case revert =>
    intro s src hruns hrevert hstarted hfall hen hqual hprio
    exact congrArg Host.Outcome.next ((if_pos hruns).trans (if_pos (by simp [hrevert, hstarted, hfall, hen, hqual, hprio])))

/-- Settles O55: the reaction of O7's frequency failure, with the candidates in their order. -/
theorem fallbackChoice : Obligations.Fallback_Choice := by
  rintro s u a hruns hen hjudged rfl hactive hfall
  exact (exec_sourceFrequencyFail hruns hen hjudged).trans (congrArg (fun x => Host.Outcome.next (tbSettle x)) (clkReact_active hactive hfall))

end Sys2Proof.Machine
end

section
/-! PROOF. O8, locks, calibration and the trim of the RC oscillator. -/

namespace Sys2Proof.Machine

open Sys2Proof

/-! ### Signed fields -/

/-- A number that fits a signed field reads back from its two's complement. -/
theorem sext_emod {n : Nat} {x : Int} (hn : 0 < n) (hlo : -(2 ^ (n - 1) : Nat) ≤ x) (hhi : x < (2 ^ (n - 1) : Nat)) :
    sext n (x % (2 ^ n : Nat)).toNat = x := by
  have hpow : 2 ^ n = 2 * 2 ^ (n - 1) := (mul_pow_sub_one hn.ne' 2).symm
  rw [sext, hpow]
  generalize 2 ^ (n - 1) = m at *
  rcases lt_or_ge x 0 with hneg | hpos
  · have hmod : x % ((2 * m : Nat) : Int) = x + (2 * m : Nat) := by
      rw [← Int.add_emod_right, Int.emod_eq_of_lt] <;> omega
    rw [hmod, Nat.mod_eq_of_lt (by omega), if_neg (by omega)]
    omega
  · rw [Int.emod_eq_of_lt hpos (by omega), Nat.mod_eq_of_lt (by omega), if_pos (by omega)]
    omega

/-- A signed field reads as the number it was given in two's complement. -/
theorem State.fldI_setFld_same {s : State} {f : RF} {x : Int} (hf : f.lo + f.w ≤ 32) (hn : 0 < f.w) (hlo : -(2 ^ (f.w - 1) : Nat) ≤ x)
    (hhi : x < (2 ^ (f.w - 1) : Nat)) : (s.setFld f (x % (2 ^ f.w : Nat)).toNat).fldI f = x := by
  have hpos : (0 : Int) < (2 ^ f.w : Nat) := by exact_mod_cast Nat.two_pow_pos f.w
  have hfits : (x % (2 ^ f.w : Nat)).toNat < 2 ^ f.w := by
    have := Int.emod_lt_of_pos x hpos
    omega
  rw [State.fldI, State.fld_setFld_same _ _ _ hf, Nat.mod_eq_of_lt hfits, sext_emod hn hlo hhi]

/-! ### A trim measurement (R58) -/

/-- The number of good measurements after one of error `e`. -/
def trimGoodAfter (s : State) (e : Int) : Nat := if e.natAbs ≤ 30 then min 4 (s.clk.trimGood + 1) else 0

/-- The state with the error shown, the trim moved and the good measurements counted. -/
def trimShown (s : State) (e t : Int) : State :=
  let u := (s.setFld R.clkRcerr_ERR (e % 65536).toNat).setFld R.clkRctrim_TRIM (t % 16384).toNat
  u.withClk { u.clk with trimGood := trimGoodAfter s e, epoch := false }

/-- TRIM_LOCK clears with no good measurement in a row, and sets with four. -/
def trimLockSet (s : State) (good : Nat) : State :=
  if good = 0 then s.setFlag R.clkStat_RC_TRIM_LOCK false else if 4 ≤ good then s.setFlag R.clkStat_RC_TRIM_LOCK true else s

/-- The error that a measurement shows, and the trim it leaves. -/
def trimErr (err : Int) : Int := clampI (-32768) 32767 err
def trimNext (s : State) (err : Int) : Int := clampI (-8192) 8191 (s.fldI R.clkRctrim_TRIM - clampI (-8) 8 ((trimErr err).tdiv 10))

theorem trimMeasure_refers {s : State} {err : Int} (hruns : clkRuns s = true) (href : trimRef s = true) :
    trimMeasure s err = trimLockSet (trimShown s (trimErr err) (trimNext s err)) (trimGoodAfter s (trimErr err)) := by
  rw [trimMeasure, if_neg (by simp [hruns]), if_neg (by simp [href])]
  rfl

section

variable (s : State) (good a : Nat)

theorem trimLockSet_reg_ne (h : a ≠ R.clkStat) : (trimLockSet s good).reg a = s.reg a := by
  unfold trimLockSet
  split_ifs
  · exact State.reg_setFlag_ne _ _ _ _ h.symm
  · exact State.reg_setFlag_ne _ _ _ _ h.symm
  · rfl

theorem trimLockSet_clk : (trimLockSet s good).clk = s.clk := by
  unfold trimLockSet
  split_ifs <;> rfl

theorem trimLockSet_evt : (trimLockSet s good).evt = s.evt := by
  unfold trimLockSet
  split_ifs <;> rfl

theorem trimLockSet_loop : (trimLockSet s good).loop = s.loop := by
  unfold trimLockSet
  split_ifs <;> rfl

theorem trimLockSet_clears (h : good = 0) : (trimLockSet s good).flag R.clkStat_RC_TRIM_LOCK = false := by
  rw [trimLockSet, if_pos h]
  exact State.flag_setFlag_same _ _ _ (by decide) rfl

theorem trimLockSet_sets (h : 4 ≤ good) : (trimLockSet s good).flag R.clkStat_RC_TRIM_LOCK = true := by
  rw [trimLockSet, if_neg (by omega), if_pos h]
  exact State.flag_setFlag_same _ _ _ (by decide) rfl

end

/-- A field outside CLK.STAT reads past TRIM_LOCK. -/
theorem trimLockSet_fldI (s : State) (good : Nat) {f : RF} (h : f.addr ≠ R.clkStat) : (trimLockSet s good).fldI f = s.fldI f :=
  congrArg (fun x => sext f.w (bitsOf x f.lo f.w)) (trimLockSet_reg_ne s good _ h)

theorem trimShown_err {s : State} {e t : Int} (hlo : -32768 ≤ e) (hhi : e ≤ 32767) : (trimShown s e t).fldI R.clkRcerr_ERR = e := by
  have hapart := State.fld_setFld_ne (s.setFld R.clkRcerr_ERR (e % 65536).toNat) R.clkRctrim_TRIM R.clkRcerr_ERR (t % 16384).toNat (by decide)
  exact (congrArg (sext 16) hapart).trans (State.fldI_setFld_same (by decide) (by decide) hlo (Int.lt_add_one_of_le hhi))

theorem trimShown_trim {s : State} {e t : Int} (hlo : -8192 ≤ t) (hhi : t ≤ 8191) : (trimShown s e t).fldI R.clkRctrim_TRIM = t :=
  State.fldI_setFld_same (f := R.clkRctrim_TRIM) (by decide) (by decide) hlo (Int.lt_add_one_of_le hhi)

theorem trimShown_reg_ne {s : State} {e t : Int} {a : Nat} (herr : a ≠ R.clkRcerr) (htrim : a ≠ R.clkRctrim) : (trimShown s e t).reg a = s.reg a :=
  (State.reg_setFld_ne _ R.clkRctrim_TRIM _ _ htrim.symm).trans (State.reg_setFld_ne _ R.clkRcerr_ERR _ _ herr.symm)

/-- Settles O8, command by command. -/
theorem pllsAndTrim : Obligations.Plls_And_Trim := by
  refine ⟨?lock, ?lockLoss, ?timebaseLoss, ?calibrated, ?swap, ?trim⟩
  case lock =>
    intro s pll hstarted hfall hgate
    exact congrArg (fun x => Host.Outcome.next (tbSettle x)) (if_neg (by simp [hstarted, hfall, hgate]))
  case lockLoss =>
    intro s pll hpll
    exact congrArg (fun x => Host.Outcome.next (tbSettle x)) (if_neg hpll)
  case timebaseLoss => exact fun s => rfl
  case calibrated =>
    intro s hlock
    exact congrArg Host.Outcome.next (if_pos hlock)
  case swap =>
    intro s hcal
    exact congrArg Host.Outcome.next (if_pos hcal)
  case trim =>
    intro s err hruns href
    obtain ⟨helo, hehi⟩ := clampI_range (-32768) 32767 err.toInt (by decide)
    obtain ⟨htlo, hthi⟩ := clampI_range (-8192) 8191 (s.fldI R.clkRctrim_TRIM - clampI (-8) 8 ((trimErr err.toInt).tdiv 10)) (by decide)
    refine ⟨_, congrArg Host.Outcome.next (trimMeasure_refers hruns href), ?shown, ?moved, ?bad, ?good, ?regs, trimLockSet_evt .., trimLockSet_loop ..⟩
    case shown => exact (trimLockSet_fldI _ _ (by decide)).trans (trimShown_err helo hehi)
    case moved => exact (trimLockSet_fldI _ _ (by decide)).trans (trimShown_trim htlo hthi)
    case bad =>
      intro hbad
      have hgood : trimGoodAfter s (trimErr err.toInt) = 0 := if_neg (Nat.not_le.mpr hbad)
      exact ⟨trimLockSet_clears _ _ hgood, (congrArg ClkS.trimGood (trimLockSet_clk ..)).trans hgood⟩
    case good =>
      intro hfine
      have hgood : trimGoodAfter s (trimErr err.toInt) = min 4 (s.clk.trimGood + 1) := if_pos hfine
      exact ⟨(congrArg ClkS.trimGood (trimLockSet_clk ..)).trans hgood, fun hthree => trimLockSet_sets _ _ (by omega)⟩
    case regs =>
      intro a herr htrim hstat
      exact (trimLockSet_reg_ne _ _ _ hstat).trans (trimShown_reg_ne herr htrim)

end Sys2Proof.Machine
end

section
/-! PROOF. Which registers an operation can change: the ways operations are put together, then rings, replies and feedback channels. -/

namespace Sys2Proof.Machine

open Sys2Proof

/-! ### Operations put together -/

section

variable {P : Nat → Prop} {s t u : State}

theorem RegsIn.of_regs (h : t.regs = s.regs) : RegsIn P s t := fun a _ => congrArg (tblGet · a (resetWord a)) h

theorem RegsIn.ite {c : Prop} [Decidable c] (ht : RegsIn P s t) (hu : RegsIn P s u) : RegsIn P s (if c then t else u) := by
  split
  · exact ht
  · exact hu

theorem RegsIn.foldl {α : Type} {f : State → α → State} {l : List α} (h : ∀ t, ∀ x ∈ l, RegsIn P t (f t x)) (s : State) :
    RegsIn P s (l.foldl f s) := by
  induction l generalizing s with
  | nil => exact RegsIn.refl P s
  | cons x xs ih =>
    exact (h s x List.mem_cons_self).trans (ih (fun t y hy => h t y (List.mem_cons_of_mem x hy)) (f s x))

theorem RegsIn.setReg {a : Nat} (x : Word) (h : P a) : RegsIn P s (s.setReg a x) := fun _ hb => State.reg_setReg_ne _ _ _ _ fun e => hb (e ▸ h)

theorem RegsIn.raiseLim (e i : Nat) (d : Word) (k : Nat) : RegsIn P s (s.raiseLim e i d k) := .of_regs (State.raiseLim_regs ..)

/-- A field of a register outside the set reads alike. -/
theorem RegsIn.fld_eq (h : RegsIn P s t) {f : RF} (hf : ¬ P f.addr) : t.fld f = s.fld f := congrArg (bitsOf · f.lo f.w) (h f.addr hf)

theorem RegsIn.flag_eq (h : RegsIn P s t) {f : RF} (hf : ¬ P f.addr) : t.flag f = s.flag f := congrArg (· == 1) (h.fld_eq hf)

end

/-! ### Rings (R101 to R106) -/

section

variable (s : State) (n : Nat)

theorem ringReg_head : ringReg n (R.ringHead n) := by
  simp only [ringReg, R.ringHead]
  omega

theorem ringReg_tail : ringReg n (R.ringTail n) := by
  simp only [ringReg, R.ringTail]
  omega

theorem ringReg_fill : ringReg n (R.ringFill n) := by
  simp only [ringReg, R.ringFill]
  omega

theorem ringReg_drops : ringReg n (R.ringDrops n) := by
  simp only [ringReg, R.ringDrops]
  omega

theorem ringReg_stat : ringReg n (R.ringStat n) := by
  simp only [ringReg, R.ringStat]
  omega

theorem ringSetEnts_regsIn (es : List Ent) : RegsIn (ringReg n) s (ringSetEnts s n es) := by
  have hents : RegsIn (ringReg n) s (s.withCmd { s.cmd with ents := tblPut s.cmd.ents n es [] }) := .of_regs (State.withCmd_regs ..)
  have hset := fun w up => (((hents.trans (.setFld _ (R.ringFill_WORDS n) w (ringReg_fill n))).trans
    (.setFld _ (R.ringFill_ENTRIES n) es.length (ringReg_fill n))).trans (.setFlag _ (R.ringStat_EMPTY n) es.isEmpty (ringReg_stat n))).trans
    (.setFlag _ (R.ringStat_ABOVE n) up (ringReg_stat n))
  exact .ite ((hset _ _).trans (.of_regs (State.raise_regs ..))) (hset _ _)

theorem ringCopyIn_regs (off : Nat) (ws : List Word) : (ringCopyIn s n off ws).regs = s.regs := by
  induction ws generalizing s off with
  | nil => rfl
  | cons x xs ih => exact ih _ _

theorem ringStore_regsIn (ws : List Word) (e : Ent) : RegsIn (ringReg n) s (ringStore s n ws e) :=
  ((RegsIn.of_regs (ringCopyIn_regs s n _ ws)).trans (.setFld _ (R.ringHead_HEAD n) _ (ringReg_head n))).trans (ringSetEnts_regsIn _ _ _)

theorem ringDrop_regsIn : RegsIn (ringReg n) s (ringDrop s n) := by
  unfold ringDrop
  split
  · exact .refl _ s
  · exact (RegsIn.setFld _ (R.ringTail_TAIL n) _ (ringReg_tail n)).trans (ringSetEnts_regsIn _ _ _)

theorem ring253_regs : (ring253 s n).regs = s.regs := by
  unfold ring253
  dsimp only
  split_ifs <;> rfl

theorem ringLose_regsIn (k : Nat) : RegsIn (ringReg n) s (ringLose s n k) := by
  refine RegsIn.ite (.refl _ s) ?_
  have hcount := (RegsIn.setFld s (R.ringDrops_DROPS n) (satAdd 32 (s.fld (R.ringDrops_DROPS n)) k) (ringReg_drops n)).trans
    (.setFlag _ (R.ringStat_OVF n) true (ringReg_stat n))
  exact hcount.trans (.of_regs (ring253_regs ..))

theorem ringMakeRoom_regsIn (need fuel k : Nat) : RegsIn (ringReg n) s (ringMakeRoom s n need fuel k).1 := by
  induction fuel generalizing s k with
  | zero => exact .refl _ s
  | succ m ih =>
    unfold ringMakeRoom
    split
    · exact .refl _ s
    · exact (ringDrop_regsIn s n).trans (ih _ _)

theorem ringPut_regsIn (ws : List Word) (e : Ent) : RegsIn (ringReg n) s (ringPut s n ws e).1 := by
  have hroom := ringMakeRoom_regsIn s n ws.length (ringEnts s n).length 0
  unfold ringPut
  generalize ringMakeRoom s n ws.length (ringEnts s n).length 0 = r at hroom ⊢
  dsimp only
  split_ifs <;> dsimp only
  · exact ringStore_regsIn _ _ _ _
  · exact (hroom.trans (ringStore_regsIn _ _ _ _)).trans (ringLose_regsIn _ _ _)
  · exact hroom.trans (ringLose_regsIn _ _ _)
  · exact ringLose_regsIn _ _ _
  · exact .refl _ s

end

/-! ### Replies (R74, R78, R98) -/

/-- The registers of an Ethernet port that a dropped frame shows in. -/
def ethDropReg (p a : Nat) : Prop := a = R.ethDrops p ∨ a = R.ethStat p

/-- The registers that a reply of command port `p` can change: its reply ring, its port word, and for a UDP port the drops of its Ethernet port. -/
def replyReg (p a : Nat) : Prop := ringReg (8 + p) a ∨ a = R.ringPort p ∨ ((p = 1 ∨ p = 2) ∧ ethDropReg (p - 1) a)

theorem netDrain_regs (p fuel : Nat) (s : State) : (netDrain s p fuel).regs = s.regs := by
  induction fuel generalizing s with
  | zero => rfl
  | succ m ih =>
    unfold netDrain
    dsimp only
    split
    · rfl
    · split
      · rfl
      · exact ih _

theorem netTx_regsIn (s : State) (p : Nat) (f : NetFrame) : RegsIn (ethDropReg p) s (netTx s p f) := by
  have hdrain : RegsIn (ethDropReg p) s (netDrain s p (netCount (s.netPort p))) := .of_regs (netDrain_regs ..)
  refine RegsIn.ite (.refl _ s) (RegsIn.ite ?_ ?_)
  · exact hdrain.trans (.of_regs (netDrain_regs ..))
  · exact ((hdrain.trans (.cntSat _ (R.ethDrops_TX_DROPS p) (.inl rfl))).trans (.setFlag _ (R.ethStat_TX_DROP p) _ (.inr rfl))).trans (.raiseLim _ _ _ _)

theorem udpCarry_regsIn (s : State) (p : Nat) : RegsIn (replyReg p) s (udpCarry s p) := by
  have hdrop : RegsIn (replyReg p) s (ringDrop s (8 + p)) := (ringDrop_regsIn _ _).mono fun _ => .inl
  unfold udpCarry
  split
  case isFalse => exact .refl _ s
  case isTrue hudp =>
    split
    · exact .refl _ s
    · dsimp only
      split
      · split
        · exact hdrop.trans (((netTx_regsIn _ _ _).mono fun _ hq => .inr (.inr ⟨hudp, hq⟩)).trans (.of_regs rfl))
        · exact .refl _ s
      · exact hdrop

theorem replyFlush_regsIn (n : Nat) (s : State) (p : Nat) : RegsIn (replyReg p) s (replyFlush n s p) := by
  induction n generalizing s with
  | zero => exact .refl _ s
  | succ m ih =>
    unfold replyFlush
    split
    · exact .refl _ s
    · split
      · have hput (t : State) (ws : List Word) (x : Ent) : RegsIn (replyReg p) t (ringPut t (8 + p) ws x).1 :=
          (ringPut_regsIn _ _ _ _).mono fun _ => .inl
        exact ((RegsIn.of_regs (State.setPort_regs ..)).trans (hput _ _ _)).trans ((udpCarry_regsIn _ _).trans (ih _))
      · exact .refl _ s

/-- A reply changes no other registers than those of its port. -/
theorem answer_regsIn (s : State) (r : Request) (busy resv ran : Bool) (status stamp : Nat) (data : List Word) :
    RegsIn (replyReg r.port.val) s (answer s r busy resv ran status stamp data) := by
  unfold answer
  extract_lets p ws quiet s1 q s2
  have h1 : RegsIn (replyReg p) s s1 := .ite (.of_regs rfl) ((RegsIn.of_regs rfl).trans (replyFlush_regsIn _ _ _))
  have h2 : RegsIn (replyReg p) s s2 := .ite (h1.trans (.of_regs rfl)) h1
  exact .ite ((h2.trans (.setFld _ (R.ringPort_BAD_CRC p) _ (.inr (.inl rfl)))).trans (.raiseLim _ _ _ _)) (.ite (h2.trans (.raiseLim _ _ _ _)) h2)

/-! ### Feedback channels (R235) -/

/-- The registers that show the state of a feedback channel. -/
def fbStateReg (n a : Nat) : Prop := a = R.fdbkStat n ∨ a = R.fdbkCnt n

theorem fbSet_regsIn (s : State) (n st : Nat) : RegsIn (fbStateReg n) s (fbSet s n st) := by
  unfold fbSet
  extract_lets old s1 s2
  have h1 : RegsIn (fbStateReg n) s s1 := (RegsIn.setFld s (R.fdbkStat_STATE n) st (.inl rfl)).trans (.setFlag _ _ _ (.inl rfl))
  have h2 : RegsIn (fbStateReg n) s s2 := .ite (h1.trans (.cntSat _ _ (.inr rfl))) h1
  exact .ite (h2.trans (.of_regs rfl)) h2

/-- Gating the FDBK node changes registers of the 16 feedback channels alone. -/
theorem fdbkGate_regsIn (s : State) (on : Bool) : RegsIn (fun a => ∃ n, fbStateReg n a) s (fdbkGate s on) := by
  have hset (t : State) (n st : Nat) : RegsIn (fun a => ∃ n, fbStateReg n a) t (fbSet t n st) := (fbSet_regsIn _ _ _).mono fun _ h => ⟨n, h⟩
  refine .foldl (fun t n _ => .ite (.ite (.refl _ t) (hset _ _ _)) (.ite ?_ (.refl _ t))) s
  exact (RegsIn.of_regs rfl).trans (hset _ _ _)

end Sys2Proof.Machine
end

section
/-! PROOF. O9, the registers of the CLK block that a host writes. -/

namespace Sys2Proof.Machine

open Sys2Proof

/-! ### CLK.CTRL: the qualification of the sources that stay enabled -/

/-- A source keeps its qualification where the new word of `CLK.CTRL` has its bit. -/
def clkKeepQual (new : Word) (s : State) (c : Nat) : State := if bitOf new c then s else clkSetQual s c false

section

variable {new : Word} {s : State} {c d : Nat}

theorem clkKeepQual_same (hd : d < 3) : clkQual (clkKeepQual new s d) d = (clkQual s d && bitOf new d) := by
  unfold clkKeepQual
  split
  case isTrue hbit => simp [hbit]
  case isFalse hbit =>
    have hoff := State.flag_setFlag_same s ⟨R.clkStat, 2 + d, 1⟩ false (by simp only; omega) rfl
    rw [Bool.eq_false_iff.mpr hbit, Bool.and_false]
    exact hoff

theorem clkKeepQual_other (hd : d < 3) (hne : c ≠ d) : clkQual (clkKeepQual new s c) d = clkQual s d := by
  unfold clkKeepQual
  split
  · rfl
  · exact State.flag_setFlag_apart s ⟨R.clkStat, 2 + c, 1⟩ ⟨R.clkStat, 2 + d, 1⟩ false rfl (by simp only; omega) (by simp only; omega)

theorem clkKeepQual_reg_ne {a : Nat} (ha : a ≠ R.clkStat) : (clkKeepQual new s c).reg a = s.reg a := by
  unfold clkKeepQual
  split
  · rfl
  · exact State.reg_setFlag_ne _ _ _ _ ha.symm

/-- What a field write leaves, the rule of one source leaves. -/
theorem clkKeepQual_keeps {γ : Type} (k : State → γ) (hk : ∀ t f v, k (State.setFld t f v) = k t) : k (clkKeepQual new s c) = k s := by
  unfold clkKeepQual
  split
  · rfl
  · exact hk ..

end

/-- The sources one after the other. -/
def clkKeepQuals (new : Word) (s : State) : State := clkKeepQual new (clkKeepQual new (clkKeepQual new s 0) 1) 2

theorem clkKeepQuals_qual (new : Word) (s : State) {c : Nat} (hc : c < 3) : clkQual (clkKeepQuals new s) c = (clkQual s c && bitOf new c) := by
  unfold clkKeepQuals
  obtain rfl | rfl | rfl : c = 0 ∨ c = 1 ∨ c = 2 := by omega
  · rw [clkKeepQual_other hc (by decide), clkKeepQual_other hc (by decide), clkKeepQual_same hc]
  · rw [clkKeepQual_other hc (by decide), clkKeepQual_same hc, clkKeepQual_other hc (by decide)]
  · rw [clkKeepQual_same hc, clkKeepQual_other hc (by decide), clkKeepQual_other hc (by decide)]

theorem clkKeepQuals_reg_ne (new : Word) (s : State) {a : Nat} (ha : a ≠ R.clkStat) : (clkKeepQuals new s).reg a = s.reg a :=
  (clkKeepQual_reg_ne ha).trans ((clkKeepQual_reg_ne ha).trans (clkKeepQual_reg_ne ha))

theorem clkKeepQuals_keeps {γ : Type} (k : State → γ) (hk : ∀ t f v, k (State.setFld t f v) = k t) (new : Word) (s : State) :
    k (clkKeepQuals new s) = k s :=
  (clkKeepQual_keeps k hk).trans ((clkKeepQual_keeps k hk).trans (clkKeepQual_keeps k hk))

/-- A bit of a source is one of the four bits that `CLK.CTRL` takes. -/
theorem bitOf_ctrl (w : Word) {c : Nat} (hc : c < 3) : bitOf (w &&& 0xF#32) c = bitOf w c := by
  obtain rfl | rfl | rfl : c = 0 ∨ c = 1 ∨ c = 2 := by omega
  all_goals simp [bitOf]

/-- A word of `CLK.CTRL` that leaves a source, and the active one, enabled is taken (R67). -/
theorem clkCtrlWrite_takes {s : State} {w : Word} (hsome : w &&& 7#32 ≠ 0#32)
    (hactive : bitOf (s.reg R.clkCtrl) (clkActive s) = true → bitOf (w &&& 0xF#32) (clkActive s) = true) :
    clkCtrlWrite s w = { st := clkKeepQuals (w &&& 0xF#32) (s.setReg R.clkCtrl (w &&& 0xF#32)) } := by
  have hmask : w &&& 0xF#32 &&& 7#32 = w &&& 7#32 := by rw [BitVec.and_assoc]; rfl
  refine if_neg ?_
  rintro (hnone | ⟨hold, hnew⟩)
  · exact hsome (hmask.symm.trans hnone)
  · simp [hactive hold] at hnew

/-! ### CLK.GATE -/

theorem senseGate_regs (s : State) : (senseGate s).regs = s.regs := by
  have hrelease (t : State) (g : Nat) : (releaseCheck t g t.dt).regs = t.regs := by
    unfold releaseCheck
    split <;> rfl
  have hdrop : (senseDrop s).regs = s.regs := by
    unfold senseDrop
    refine (foldl_keep _ State.regs ?_ _ _).trans rfl
    exact fun _ _ => rfl
  exact (foldl_keep (fun t g => releaseCheck t g t.dt) State.regs hrelease _ _).trans hdrop

/-- A gated PLL loses its lock. -/
def pllGateLock (new : Word) (s : State) (i : Nat) : State := if bitOf new (pllGate i) then s else s.setFlag (pllLockFld i) false

/-- The lock bits of CLK.STAT are single bits, one for each PLL. -/
theorem pllLockFld_eq (i : Nat) (h1 : 1 ≤ i) (h3 : i ≤ 3) : pllLockFld i = ⟨R.clkStat, 6 + i, 1⟩ := by
  obtain rfl | rfl | rfl : i = 1 ∨ i = 2 ∨ i = 3 := by omega
  all_goals rfl

section

variable {new : Word} {s : State} {i j : Nat}

theorem pllGateLock_gated (h1 : 1 ≤ i) (h3 : i ≤ 3) (hgated : bitOf new (pllGate i) = false) :
    (pllGateLock new s i).flag (pllLockFld i) = false := by
  rw [pllGateLock, if_neg (by simp [hgated]), pllLockFld_eq i h1 h3]
  exact State.flag_setFlag_same _ _ _ (by simp only; omega) rfl

theorem pllGateLock_other (hi : 1 ≤ i ∧ i ≤ 3) (hj : 1 ≤ j ∧ j ≤ 3) (hne : j ≠ i) :
    (pllGateLock new s j).flag (pllLockFld i) = s.flag (pllLockFld i) := by
  rw [pllGateLock, pllLockFld_eq i hi.1 hi.2, pllLockFld_eq j hj.1 hj.2]
  split
  · rfl
  · exact State.flag_setFlag_apart _ _ _ _ rfl (by simp only; omega) (by simp only; omega)

theorem pllGateLock_regsIn (hj : 1 ≤ j ∧ j ≤ 3) : RegsIn (· = R.clkStat) s (pllGateLock new s j) :=
  .ite (.refl _ s) (.setFlag _ _ _ (congrArg RF.addr (pllLockFld_eq j hj.1 hj.2)))

end

/-- The three PLLs that can be gated, one after the other. -/
def pllGateLocks (new : Word) (s : State) : State := pllGateLock new (pllGateLock new (pllGateLock new s 1) 2) 3

theorem pllGateLocks_gated {new : Word} {s : State} {i : Nat} (h1 : 1 ≤ i) (h3 : i ≤ 3) (hgated : bitOf new (pllGate i) = false) :
    (pllGateLocks new s).flag (pllLockFld i) = false := by
  unfold pllGateLocks
  obtain rfl | rfl | rfl : i = 1 ∨ i = 2 ∨ i = 3 := by omega
  · rw [pllGateLock_other (by decide) (by decide) (by decide), pllGateLock_other (by decide) (by decide) (by decide),
      pllGateLock_gated h1 h3 hgated]
  · rw [pllGateLock_other (by decide) (by decide) (by decide), pllGateLock_gated h1 h3 hgated]
  · exact pllGateLock_gated h1 h3 hgated

theorem pllGateLocks_regsIn (new : Word) (s : State) : RegsIn (· = R.clkStat) s (pllGateLocks new s) :=
  ((pllGateLock_regsIn (by decide)).trans (pllGateLock_regsIn (by decide))).trans (pllGateLock_regsIn (by decide))

/-- What a new word of `CLK.GATE` does beyond the locks: the SENSE node gated, the FDBK node gated or ungated. -/
def gateNodes (old new : Word) (s : State) : State :=
  let t := if bitOf old 3 && !bitOf new 3 then senseGate s else s
  if bitOf old 4 = bitOf new 4 then t else fdbkGate t (bitOf new 4)

theorem gateNodes_regsIn (old new : Word) (s : State) : RegsIn (fun a => ∃ n, fbStateReg n a) s (gateNodes old new s) := by
  have hsense : RegsIn (fun a => ∃ n, fbStateReg n a) s (if bitOf old 3 && !bitOf new 3 then senseGate s else s) :=
    .ite (.of_regs (senseGate_regs s)) (.refl _ s)
  exact .ite hsense (hsense.trans (fdbkGate_regsIn _ _))

/-- The registers of the CLK block are no feedback channel's. -/
theorem not_fbStateReg_of_lt {a : Nat} (h : a < 0x0B0000) : ¬ ∃ n, fbStateReg n a := by
  rintro ⟨n, hn⟩
  simp only [fbStateReg, R.fdbkStat, R.fdbkCnt] at hn
  omega

/-- A word of `CLK.GATE` with its parents on that gates nothing in use is taken (R69). -/
theorem clkGateWrite_takes {s : State} {w new : Word} (hnew : new = (w &&& 0x01F7FF3E#32) ||| 1#32)
    (hparents : ∀ b, b < 25 → bitOf new b = true → ∀ p ∈ gateParent b, bitOf new p = true)
    (hused : ∀ b, b < 25 → bitOf (s.reg R.clkGate) b = true → bitOf new b = false → gateInUse s b = false) :
    clkGateWrite s w = { st := gateNodes (s.reg R.clkGate) new (pllGateLocks new (s.setReg R.clkGate new)) } := by
  subst hnew
  refine (if_neg fun horphan => ?_).trans ((if_neg fun hbusy => ?_).trans rfl)
  · obtain ⟨b, hb, hbad⟩ := List.any_eq_true.mp horphan
    obtain ⟨hbit, hparent⟩ := Bool.and_eq_true_iff.mp hbad
    cases hp : gateParent b with
    | none => simp [hp] at hparent
    | some p => simp [hp, hparents b (List.mem_range.mp hb) hbit p hp] at hparent
  · obtain ⟨b, hb, hbad⟩ := List.any_eq_true.mp hbusy
    simp only [Bool.and_eq_true, Bool.not_eq_true'] at hbad
    obtain ⟨⟨hon, hoff⟩, hinUse⟩ := hbad
    simp [hused b (List.mem_range.mp hb) hon hoff] at hinUse

/-- Settles O9, register by register. -/
theorem clockRegisters : Obligations.Clock_Registers := by
  refine ⟨?ctrl, ?sel, ?rctrim, ?gate⟩
  case ctrl =>
    intro s w hsome hactive
    refine ⟨_, congrArg (fun x : Res => Host.Outcome.next x.st) (clkCtrlWrite_takes hsome hactive), ?_, fun c hc => ?_, fun a hctrl hstat => ?_,
      clkKeepQuals_keeps State.clk (fun _ _ _ => rfl) .., clkKeepQuals_keeps State.evt (fun _ _ _ => rfl) ..,
      clkKeepQuals_keeps State.loop (fun _ _ _ => rfl) ..⟩
    · exact (clkKeepQuals_reg_ne _ _ (by decide)).trans (State.reg_setReg_same ..)
    · have hqual : clkQual (s.setReg R.clkCtrl (w &&& 0xF#32)) c = clkQual s c :=
        congrArg (fun x => bitsOf x (2 + c) 1 == 1) (State.reg_setReg_ne s R.clkCtrl R.clkStat _ (by decide))
      rw [clkKeepQuals_qual _ _ hc, hqual, bitOf_ctrl w hc]
    · exact (clkKeepQuals_reg_ne _ _ hstat).trans (State.reg_setReg_ne _ _ _ _ hctrl.symm)
  case sel =>
    intro s w hcode hen hqual
    exact congrArg (fun x : Res => Host.Outcome.next x.st) ((if_neg hcode).trans (if_neg (by simp [hen, hqual])))
  case rctrim =>
    intro s w
    refine ⟨fun href => ?_, fun href htrim => ?_⟩
    · exact congrArg (fun x : Res => Host.Outcome.next x.st) ((if_neg (by simp [href])).trans (congrArg (Res.mk · 0 [] [] none) (if_pos href)))
    · exact congrArg (fun x : Res => Host.Outcome.next x.st) ((if_neg (by simp [htrim])).trans (congrArg (Res.mk · 0 [] [] none) (if_neg href)))
  case gate =>
    intro s w new hnew hparents hused
    have hlocks := pllGateLocks_regsIn new (s.setReg R.clkGate new)
    have hnodes := gateNodes_regsIn (s.reg R.clkGate) new (pllGateLocks new (s.setReg R.clkGate new))
    refine ⟨_, congrArg (fun x : Res => Host.Outcome.next x.st) (clkGateWrite_takes hnew hparents hused), ?_, fun i h1 h3 hgated => ?_⟩
    · exact (hnodes _ (not_fbStateReg_of_lt (by decide))).trans ((hlocks _ (by decide)).trans (State.reg_setReg_same ..))
    · refine (hnodes.flag_eq ?_).trans (pllGateLocks_gated h1 h3 hgated)
      rw [pllLockFld_eq i h1 h3]
      exact not_fbStateReg_of_lt (show R.clkStat < 0x0B0000 by decide)

end Sys2Proof.Machine
end

section
/-! PROOF. The Sward's operations: which registers they change, what they leave of the Sward's own state, and what a read after a filter gives. -/

namespace Sys2Proof.Machine

open Sys2Proof

/-! ### Device time moved on (R62) -/

/-- An instant that a clocked event names moves device time and nothing else. -/
theorem State.at_keeps_field {γ : Type} (k : State → γ) (hk : ∀ s t, k (State.withDt s t) = k s) (s : State) (t : Tick) : k (s.at t) = k s := by
  unfold State.at
  split
  · exact hk ..
  · rfl

@[simp] theorem State.at_regs (s : State) (t : Tick) : (s.at t).regs = s.regs := State.at_keeps_field State.regs (fun _ _ => rfl) s t
@[simp] theorem State.at_evt (s : State) (t : Tick) : (s.at t).evt = s.evt := State.at_keeps_field State.evt (fun _ _ => rfl) s t
@[simp] theorem State.at_sward (s : State) (t : Tick) : (s.at t).sward = s.sward := State.at_keeps_field State.sward (fun _ _ => rfl) s t

/-! ### Drops (R427) -/

/-- The drop counter of a class at a port. -/
def swDropFld (p cls : Nat) : RF :=
  match cls with
  | 0 => R.swardDrops_D0 p
  | 1 => R.swardDrops_D1 p
  | 2 => R.swardDrops_D2 p
  | _ => R.swardDrops_D3 p

theorem swDropFld_addr (p cls : Nat) : (swDropFld p cls).addr = R.swardDrops p := by
  unfold swDropFld
  split <;> rfl

theorem swDrop_eq (s : State) (p cls reason : Nat) :
    swDrop s p cls reason = (s.cntSat (swDropFld p cls)).raiseLim 242 p (wd (cls * 256 + reason)) (100 * msTicks) := by
  unfold swDrop
  rfl

@[simp] theorem swDrop_sward (s : State) (p cls reason : Nat) : (swDrop s p cls reason).sward = s.sward := by
  simp [swDrop_eq]

@[simp] theorem swDrop_dt (s : State) (p cls reason : Nat) : (swDrop s p cls reason).dt = s.dt := by
  simp [swDrop_eq]

@[simp] theorem swDrop_loop (s : State) (p cls reason : Nat) : (swDrop s p cls reason).loop = s.loop := by
  simp [swDrop_eq]

theorem swDrop_regsIn (s : State) (p cls reason : Nat) : RegsIn (· = R.swardDrops p) s (swDrop s p cls reason) := by
  rw [swDrop_eq]
  exact (RegsIn.cntSat _ _ (swDropFld_addr p cls)).trans (.raiseLim _ _ _ _)

/-! ### Ports -/

theorem swPort_setSwPort_same {s : State} {p : Nat} {x : SwPort} (h : p < s.sward.ports.length) : (s.setSwPort p x).swPort p = x :=
  nth_setAt_same _ _ _ _ h

theorem swPort_setSwPort_ne {s : State} {p q : Nat} {x : SwPort} (h : p ≠ q) : (s.setSwPort p x).swPort q = s.swPort q :=
  nth_setAt_ne _ _ _ _ _ h

/-! ### Streams (R428) -/

/-- The entry a stream was put as is found first. -/
theorem swTxOf_swPutTx (s : State) (x : SwTx) : swTxOf (swPutTx s x) x.peer x.cls = some x := by
  simp [swTxOf, swPutTx, State.withSward]

/-- A stream that was filtered out is not found. -/
theorem swTxOf_filtered (l : List SwTx) (peer cls : Nat) :
    (l.filter (fun y => !(y.peer == peer && y.cls == cls))).find? (fun x => x.peer == peer && x.cls == cls) = none := by
  refine List.find?_eq_none.mpr fun x hx => ?_
  simpa [imp_iff_not_or] using (List.mem_filter.mp hx).2

theorem swRxOf_filtered (l : List SwRx) (peer cls : Nat) :
    (l.filter (fun y => !(y.peer == peer && y.cls == cls))).find? (fun x => x.peer == peer && x.cls == cls) = none := by
  refine List.find?_eq_none.mpr fun x hx => ?_
  simpa [imp_iff_not_or] using (List.mem_filter.mp hx).2

/-- The stream that is found is the one asked for. -/
theorem swTxOf_some {s : State} {peer cls : Nat} {x : SwTx} (h : swTxOf s peer cls = some x) : x.peer = peer ∧ x.cls = cls := by
  simpa using List.find?_some h

end Sys2Proof.Machine
end

section
/-! PROOF. O44, what an epoch boundary leaves: EPOCH, RSTAT, the staged routes and the replies that wait, through every part of the boundary. -/

namespace Sys2Proof.Machine

open Sys2Proof

/-- What the parts of an epoch boundary behind the table leave: EPOCH and RSTAT, the staged routes, the replies that wait. -/
def State.epochSide (s : State) : Word × Word × List (Nat × Nat × Nat × Nat) × List Request :=
  (s.reg R.swardEpoch, s.reg R.swardRstat, s.sward.staged, s.sward.waits)

/-- The registers other than EPOCH and RSTAT. -/
def notEpochReg (a : Nat) : Prop := a ≠ R.swardEpoch ∧ a ≠ R.swardRstat

/-- The registers of a port lie behind EPOCH and RSTAT. -/
theorem notEpochReg_of_ge {a : Nat} (h : 0x1B0100 ≤ a) : notEpochReg a := by
  simp only [notEpochReg, R.swardEpoch, R.swardRstat]
  omega

theorem notEpochReg_ftstat : notEpochReg R.swardFtstat := ⟨by decide, by decide⟩

theorem notEpochReg_drops (p : Nat) : notEpochReg (R.swardDrops p) := notEpochReg_of_ge (by simp only [R.swardDrops]; omega)

theorem notEpochReg_pstat (p : Nat) : notEpochReg (R.swardPstat p) := notEpochReg_of_ge (by simp only [R.swardPstat]; omega)

theorem notEpochReg_cred (p : Nat) : notEpochReg (R.swardCred p) := notEpochReg_of_ge (by simp only [R.swardCred]; omega)

theorem notEpochReg_rte (i : Nat) : notEpochReg (R.swardRte i) := notEpochReg_of_ge (by simp only [R.swardRte]; omega)

/-- The registers that a reply can change are not among them. -/
theorem notEpochReg_reply {p a : Nat} (h : replyReg p a) : notEpochReg a := by
  apply notEpochReg_of_ge
  rcases h with hring | hport | ⟨_, heth | heth⟩
  · simp only [ringReg] at hring
    omega
  · simp only [hport, R.ringPort]
    omega
  · simp only [heth, R.ethDrops]
    omega
  · simp only [heth, R.ethStat]
    omega

section

variable {s t : State}

theorem epochSide_of_regsIn (h : RegsIn notEpochReg s t) (hs : t.sward = s.sward) : t.epochSide = s.epochSide := by
  have hepoch := h R.swardEpoch (fun hn => hn.1 rfl)
  have hrstat := h R.swardRstat (fun hn => hn.2 rfl)
  simp only [State.epochSide, hepoch, hrstat, hs]

theorem setFld_epochSide (s : State) {f : RF} (v : Nat) (h : notEpochReg f.addr) : (s.setFld f v).epochSide = s.epochSide :=
  epochSide_of_regsIn (.setFld _ _ _ h) rfl

theorem setSwPort_epochSide (s : State) (p : Nat) (x : SwPort) : (s.setSwPort p x).epochSide = s.epochSide := rfl

theorem raise_epochSide (s : State) (e i : Nat) (d : Word) : (s.raise e i d).epochSide = s.epochSide := rfl

theorem ite_epochSide {c : Prop} [Decidable c] {u : State} (ht : t.epochSide = s.epochSide) (hu : u.epochSide = s.epochSide) :
    (if c then t else u).epochSide = s.epochSide := by
  split
  · exact ht
  · exact hu

end

theorem swDrop_epochSide (s : State) (p cls reason : Nat) : (swDrop s p cls reason).epochSide = s.epochSide :=
  epochSide_of_regsIn ((swDrop_regsIn s p cls reason).mono fun _ h => h ▸ notEpochReg_drops p) (swDrop_sward ..)

theorem swOwe_epochSide (s : State) (p : Nat) (f : SwFrame) : (swOwe s p f).epochSide = s.epochSide := ite_epochSide rfl rfl

/-- A choice of upstream port and hops shows in FTSTAT alone. -/
theorem swUpstream_epochSide (s : State) : (swUpstream s).epochSide = s.epochSide := by
  have hset (p h : Nat) : ((s.setFld R.swardFtstat_UPPORT p).setFld R.swardFtstat_HOPS h).epochSide = s.epochSide :=
    (setFld_epochSide _ _ notEpochReg_ftstat).trans (setFld_epochSide _ _ notEpochReg_ftstat)
  refine ite_epochSide (hset ..) ?_
  extract_lets best
  cases best with
  | none => exact hset ..
  | some x => exact hset ..

theorem swSetState_epochSide (s : State) (p st : Nat) : (swSetState s p st).epochSide = s.epochSide :=
  ite_epochSide rfl ((swUpstream_epochSide _).trans ((raise_epochSide ..).trans (setFld_epochSide _ _ (notEpochReg_pstat p))))

/-- A frame dropped as its port goes DOWN: counted by class, its credits owed (R433). -/
def swDownDrop (p : Nat) (s : State) (q : SwQ) : State :=
  match q.from_ with
  | some a => swOwe (s.cntSat (swDropFld p q.f.cls)) a q.f
  | none => s.cntSat (swDropFld p q.f.cls)

theorem swDownDrop_epochSide (p : Nat) (s : State) (q : SwQ) : (swDownDrop p s q).epochSide = s.epochSide := by
  have hcount : (s.cntSat (swDropFld p q.f.cls)).epochSide = s.epochSide :=
    setFld_epochSide _ _ ((swDropFld_addr p q.f.cls).symm ▸ notEpochReg_drops p)
  unfold swDownDrop
  split
  · exact (swOwe_epochSide ..).trans hcount
  · exact hcount

theorem swDown_eq (s : State) (p : Nat) :
    swDown s p = swSetState (((((s.swPort p).queues.flatMap id).foldl (swDownDrop p) s).setSwPort p { tag := (s.swPort p).tag }).setReg (R.swardCred p) 0#32) p 0 := rfl

theorem swDown_epochSide (s : State) (p : Nat) : (swDown s p).epochSide = s.epochSide := by
  rw [swDown_eq]
  refine (swSetState_epochSide ..).trans ?_
  have hcred (t : State) : (t.setReg (R.swardCred p) 0#32).epochSide = t.epochSide := epochSide_of_regsIn (.setReg _ (notEpochReg_cred p)) rfl
  exact (hcred _).trans (foldl_keep (swDownDrop p) State.epochSide (swDownDrop_epochSide p) _ s)

theorem ftLock_epochSide (s : State) (on : Bool) : (ftLock s on).epochSide = s.epochSide :=
  ite_epochSide rfl (setFld_epochSide _ _ notEpochReg_ftstat)

/-- A queued frame that the new table no longer sends to its output is dropped, its credits owed (R432). -/
def swRequeueDrop (p : Nat) (s : State) (e : SwQ) : State :=
  match e.from_ with
  | some a => swOwe (swDrop s p e.f.cls 4) a e.f
  | none => swDrop s p e.f.cls 4

theorem swRequeueDrop_epochSide (p : Nat) (s : State) (e : SwQ) : (swRequeueDrop p s e).epochSide = s.epochSide := by
  unfold swRequeueDrop
  split
  · exact (swOwe_epochSide ..).trans (swDrop_epochSide ..)
  · exact swDrop_epochSide ..

theorem swRequeue_epochSide (s : State) (p : Nat) : (swRequeue s p).epochSide = s.epochSide := by
  unfold swRequeue
  refine foldl_keep _ State.epochSide (fun t c => ?_) _ s
  extract_lets q stays x t1
  exact (foldl_keep (swRequeueDrop p) State.epochSide (swRequeueDrop_epochSide p) _ t1).trans (setSwPort_epochSide ..)

theorem swResApply_epochSide (s : State) (p : Nat) : (swResApply s p).epochSide = s.epochSide := by
  unfold swResApply
  refine (foldl_keep _ State.epochSide (fun t a => ?_) _ _).trans rfl
  rfl

theorem heldAnswer_epochSide (s : State) (r : Request) : (heldAnswer s r stOK 0 []).epochSide = s.epochSide :=
  epochSide_of_regsIn ((answer_regsIn s r false true true stOK 0 []).mono fun _ => notEpochReg_reply) (CmdOnly.answer ..).sward

/-- The replies that waited are sent; none waits. -/
theorem swReplies_epochSide (s : State) : (swReplies s).epochSide = (s.reg R.swardEpoch, s.reg R.swardRstat, s.sward.staged, []) :=
  foldl_keep (fun t r => heldAnswer t r stOK 0 []) State.epochSide heldAnswer_epochSide _ _

/-! ### The table rewritten (R431) -/

/-- A filter that keeps a key's entries keeps what the key reads as. -/
theorem tblGet_filter {α : Type} (p : Nat × α → Bool) (t : Tbl α) (k : Nat) (d : α) (h : ∀ v, p (k, v) = true) :
    tblGet (t.filter p) k d = tblGet t k d := by
  induction t with
  | nil => rfl
  | cons e rest ih =>
    obtain ⟨j, v⟩ := e
    by_cases hj : j = k
    · subst hj
      simp [h v, tblGet]
    · by_cases hp : p (j, v) = true
      · simp [hp, tblGet, hj, ih]
      · simp [hp, tblGet, hj, ih]

/-- The registers before the table keep their values as the table is cleared. -/
theorem clearTable_regsIn (s : State) : RegsIn notEpochReg s (s.withRegs (s.regs.filter (fun e => e.1 < 0x1B1000 || 0x1B2000 ≤ e.1))) := by
  intro a ha
  have hlow : a < 0x1B1000 := by
    by_contra hge
    exact ha (notEpochReg_of_ge (by omega))
  exact tblGet_filter _ s.regs a _ fun v => Bool.or_eq_true_iff.mpr (.inl (decide_eq_true hlow))

/-- An entry of the table written. -/
theorem setRte_epochSide (s : State) (i : Nat) (x : Word) : (s.setReg (R.swardRte i) x).epochSide = s.epochSide :=
  epochSide_of_regsIn (.setReg _ (notEpochReg_rte i)) rfl

theorem swWriteTable_epochSide (s : State) (t : List (Nat × Nat × Nat)) : (swWriteTable s t).epochSide = s.epochSide := by
  have hclear := epochSide_of_regsIn (clearTable_regsIn s) (State.withRegs_sward ..)
  rw [← hclear]
  unfold swWriteTable
  refine foldl_keep _ State.epochSide (fun u e => ?_) _ _
  exact setRte_epochSide u e.1 _

/-! ### The boundary -/

/-- The table in force at a boundary, with nothing staged behind it. -/
def epochTable (s : State) : State :=
  if s.sward.staged = [] then s else swWriteTable (s.withSward { s.sward with staged := [] }) (swApply (swEntries s) s.sward.staged)

theorem epochTable_epochSide (s : State) : (epochTable s).epochSide = (s.reg R.swardEpoch, s.reg R.swardRstat, [], s.sward.waits) := by
  unfold epochTable
  split
  case isTrue hnone => rw [State.epochSide, hnone]
  case isFalse => exact (swWriteTable_epochSide ..).trans rfl

/-- RSTAT as it shows a table in force. -/
def epochShown (s : State) : State := (s.setFld R.swardRstat_STAGED 0).setFld R.swardRstat_IN_FORCE (swTable s).length

theorem epochShown_epoch (s : State) : (epochShown s).reg R.swardEpoch = s.reg R.swardEpoch :=
  (State.reg_setFld_ne _ R.swardRstat_IN_FORCE _ _ (by decide)).trans (State.reg_setFld_ne s R.swardRstat_STAGED 0 _ (by decide))

theorem epochShown_staged (s : State) : (epochShown s).fld R.swardRstat_STAGED = 0 :=
  (State.fld_setFld_apart _ R.swardRstat_IN_FORCE R.swardRstat_STAGED _ rfl (by decide) (by decide)).trans
    (State.fld_setFld_same s R.swardRstat_STAGED 0 (by decide))

/-- What a boundary leaves: its number in EPOCH, RSTAT as the new table shows it, nothing staged and no reply waiting (R431, R432). -/
theorem swEpoch_epochSide (s : State) (t : Tick) :
    (swEpoch s t).epochSide =
      (wdInt (roundI (ftExact s t / (epochTicks : Rat))),
        (epochShown (epochTable (s.setReg R.swardEpoch (wdInt (roundI (ftExact s t / (epochTicks : Rat))))))).reg R.swardRstat, [], []) := by
  unfold swEpoch
  extract_lets s0 staged res _ s1 s2 s3 s4 s5 s6 s7 root n _ s8 s9
  have h1 : s1.epochSide = (s0.reg R.swardEpoch, s0.reg R.swardRstat, [], s0.sward.waits) := epochTable_epochSide s0
  obtain ⟨hepoch, hrest⟩ := Prod.ext_iff.mp h1
  obtain ⟨-, hsward⟩ := Prod.ext_iff.mp hrest
  obtain ⟨hstaged, -⟩ := Prod.ext_iff.mp hsward
  have h2 : s2.reg R.swardEpoch = s0.reg R.swardEpoch := (epochShown_epoch s1).trans hepoch
  have h3 : s3.epochSide = s2.epochSide := ite_epochSide rfl (foldl_keep swRequeue State.epochSide swRequeue_epochSide _ s2)
  have h4 : s4.epochSide = s2.epochSide := (foldl_keep swResApply State.epochSide swResApply_epochSide _ s3).trans h3
  have h5 : s5.epochSide = s2.epochSide := ite_epochSide ((raise_epochSide ..).trans h4) h4
  have h6 : s6.epochSide = (s2.reg R.swardEpoch, s2.reg R.swardRstat, s2.sward.staged, []) :=
    (swReplies_epochSide s5).trans (congrArg (fun x => (x.1, x.2.1, x.2.2.1, [])) h5)
  have h7 : s7.epochSide = s6.epochSide := by
    refine foldl_keep _ State.epochSide (fun u p => ?_) _ s6
    exact ite_epochSide (swDown_epochSide u p) rfl
  have h8 : s8.epochSide = s7.epochSide := ite_epochSide rfl rfl
  have h9 : s9.epochSide = s8.epochSide := ite_epochSide (ftLock_epochSide s8 false) rfl
  have hstaged2 : s2.sward.staged = [] := hstaged
  have hall : s9.epochSide = (wdInt (roundI (ftExact s t / (epochTicks : Rat))), s2.reg R.swardRstat, [], []) := by
    rw [h9, h8, h7, h6, h2, hstaged2, State.reg_setReg_same s R.swardEpoch _]
  refine Eq.trans (foldl_keep _ State.epochSide (fun u p => ?_) _ s9) hall
  exact ite_epochSide rfl rfl

end Sys2Proof.Machine
end

section
/-! PROOF. O44, frames, streams and marks of the Sward: what each command does past its guards. -/

namespace Sys2Proof.Machine

open Sys2Proof

/-! ### A frame arrives (R420 to R422, R430) -/

/-- A frame whose header passes: enough words, HCHECK, a class its service may use, a length within bounds, reserved bits 0. -/
def swHeadGood (ws : List Word) : Prop :=
  4 ≤ ws.length ∧ crc32c (ws.take 3) = nth ws 3 0#32 ∧ swClassOk (swFrameOf ws).svc (swFrameOf ws).cls = true ∧ bitsOf (nth ws 1 0#32) 0 9 ≤ 259
    ∧ bitsOf (nth ws 0 0#32) 0 3 = 0 ∧ bitsOf (nth ws 1 0#32) 9 9 = 0

section

variable {s : State} {p : Nat} {ws : List Word} {t : Tick}

theorem swReceive_abort (hcarries : swCarries s p = true) : swReceive s p ws true t = s.cntSat (R.swardCnt_ABORTS p) := by
  rw [swReceive, if_neg (by simp [hcarries]), if_pos rfl]

/-- The checks of the header as the receiver makes them. -/
def swHeadBad (ws : List Word) : Bool :=
  ws.length < 4 || crc32c (ws.take 3) != nth ws 3 0#32 || !swClassOk (swFrameOf ws).svc (swFrameOf ws).cls || decide (259 < bitsOf (nth ws 1 0#32) 0 9)
    || bitsOf (nth ws 0 0#32) 0 3 != 0 || bitsOf (nth ws 1 0#32) 9 9 != 0

theorem swHeadBad_eq_false_iff : swHeadBad ws = false ↔ swHeadGood ws := by
  simp [swHeadBad, swHeadGood, and_assoc]

theorem swReceive_badHead (hcarries : swCarries s p = true) (hbad : ¬ swHeadGood ws) :
    swReceive s p ws false t = swDrop (s.cntWrap (R.swardFrames_FRAMES p)) p (swFrameOf ws).cls 5 := by
  have hhead : swHeadBad ws = true := Bool.eq_true_of_not_eq_false (mt swHeadBad_eq_false_iff.mp hbad)
  rw [swReceive, if_neg (by simp [hcarries]), if_neg Bool.false_ne_true]
  exact if_pos hhead

/-- What a frame with a good header does: its length and FCHECK are judged, then it is delivered or routed. -/
theorem swReceive_goodHead (hcarries : swCarries s p = true) (hgood : swHeadGood ws) :
    swReceive s p ws false t =
      let f := swFrameOf ws
      let u := s.cntWrap (R.swardFrames_FRAMES p)
      if ws.length ≠ bitsOf (nth ws 1 0#32) 0 9 + 5 ∨ crc32c ws.dropLast ≠ nth ws (ws.length - 1) 0#32 then swOwe (swDrop u p f.cls 6) p f
      else if f.svc = 0 then swOwe (swHere u p f t) p f
      else swForward (if f.svc = 1 then u.withSward { u.sward with via := (f.src, p) :: u.sward.via.filter (·.1 != f.src) } else u) p f t := by
  have hhead : ¬ swHeadBad ws = true := by simp [swHeadBad_eq_false_iff.mpr hgood]
  rw [swReceive, if_neg (by simp [hcarries]), if_neg Bool.false_ne_true]
  exact if_neg hhead

end

/-! ### Frames leave, or have waited too long (R424, R427) -/

section

variable {s : State} {p : Nat}

/-- A port that carries frames and may send: what waits is pulled, waits too long are dropped, and the buckets are filled. -/
def swReadied (s : State) (p : Nat) : State := swFillTokens (swWaitDrop (if swState s p = 2 then swPull s p else s) p) p

theorem swTransmit_none (hcarries : swCarries s p = true) (hhush : (s.swPort p).hush = false) (hpick : swPick (swReadied s p) p = none) :
    swTransmit s p = swReadied s p := by
  rw [swReadied] at hpick
  simp only [swTransmit, hcarries, hhush, hpick]
  rfl

/-- The picked frame out of its queue, its charge out of the bucket. -/
def swTaken (u : State) (p c : Nat) (bucket : Bool) (q : SwQ) (rest : List SwQ) : State :=
  u.setSwPort p { u.swPort p with
    queues := setAt (u.swPort p).queues c rest
    tok := if bucket then setAt (u.swPort p).tok c (nth (u.swPort p).tok c 0 - (swCharge q.f : Rat)) else (u.swPort p).tok }

/-- The credits that a frame of class 2 or 3 needs are spent (R426). -/
def swSpent (x : State) (p c : Nat) (f : SwFrame) : State :=
  if c < 2 then x else x.setFld (swCredField p c) (x.fld (swCredField p c) - swCredits f)

/-- A frame leaves with its acknowledgement filled in. -/
def swLeaves (y : State) (p : Nat) (f : SwFrame) : State := swSent (swFillAck y f).1 p (swFillAck y f).2

theorem swTransmit_sends {c : Nat} {bucket : Bool} {q : SwQ} {rest : List SwQ} (hcarries : swCarries s p = true) (hhush : (s.swPort p).hush = false)
    (hpick : swPick (swReadied s p) p = some (c, bucket)) (hqueue : nth ((swReadied s p).swPort p).queues c [] = q :: rest) :
    swTransmit s p = q.from_.elim id (fun i t => swOwe t i q.f) (swLeaves (swSpent (swTaken (swReadied s p) p c bucket q rest) p c q.f) p q.f) := by
  rw [swReadied] at hpick hqueue
  simp only [swTransmit, hcarries, hhush, hpick, hqueue]
  cases q.from_ <;> rfl

/-- The entries of a queue that have not waited 250 µs by now. -/
def swFresh (now : Tick) (q : List SwQ) : List SwQ := q.filter (fun e => (now - e.since).toNat < swWait)

/-- A class of a port rid of what waited too long. -/
def swWaitDropClass (p : Nat) (t : State) (c : Nat) : State :=
  let q := nth (t.swPort p).queues c []
  let old (e : SwQ) : Bool := decide (swWait ≤ (t.dt - e.since).toNat)
  let t1 := t.setSwPort p { t.swPort p with queues := setAt (t.swPort p).queues c (q.filter (fun e => !old e)) }
  (q.filter old).foldl (fun u e => swDrop u p e.f.cls 2) t1

theorem swWaitDrop_eq (s : State) (p : Nat) : swWaitDrop s p = swWaitDropClass p (swWaitDropClass p s 0) 1 := rfl

/-- Counting drops keeps what counting one drop keeps. -/
theorem swDrops_keeps {γ : Type} (k : State → γ) (hk : ∀ t cls, k (swDrop t p cls 2) = k t) (l : List SwQ) (t : State) :
    k (l.foldl (fun u e => swDrop u p e.f.cls 2) t) = k t :=
  foldl_keep _ k (fun _ _ => hk ..) l t

/-- Of the Sward beside its registers, the class's queue alone changes. -/
theorem swWaitDropClass_sward (s : State) (p c : Nat) :
    (swWaitDropClass p s c).sward = (s.setSwPort p { s.swPort p with queues := setAt (s.swPort p).queues c (swFresh s.dt (nth (s.swPort p).queues c [])) }).sward := by
  refine (swDrops_keeps State.sward (fun _ _ => swDrop_sward ..) _ _).trans ?_
  simp only [swFresh, ← decide_not, not_le]

theorem swWaitDropClass_dt (s : State) (p c : Nat) : (swWaitDropClass p s c).dt = s.dt := swDrops_keeps State.dt (fun _ _ => swDrop_dt ..) _ _

theorem swWaitDropClass_loop (s : State) (p c : Nat) : (swWaitDropClass p s c).loop = s.loop := swDrops_keeps State.loop (fun _ _ => swDrop_loop ..) _ _

theorem swWaitDropClass_swPort (s : State) (p c : Nat) (h : p < s.sward.ports.length) :
    (swWaitDropClass p s c).swPort p = { s.swPort p with queues := setAt (s.swPort p).queues c (swFresh s.dt (nth (s.swPort p).queues c [])) } :=
  (congrArg (fun x : SwardS => nth x.ports p {}) (swWaitDropClass_sward s p c)).trans (swPort_setSwPort_same h)

theorem swWaitDropClass_swPort_ne (s : State) (p c : Nat) {i : Nat} (h : i ≠ p) : (swWaitDropClass p s c).swPort i = s.swPort i :=
  (congrArg (fun x : SwardS => nth x.ports i {}) (swWaitDropClass_sward s p c)).trans (swPort_setSwPort_ne h.symm)

theorem swWaitDropClass_ports_length (s : State) (p c : Nat) : (swWaitDropClass p s c).sward.ports.length = s.sward.ports.length := by
  rw [swWaitDropClass_sward]
  exact setAt_length ..

/-- The queues once both classes that wait are rid of what waited too long. -/
theorem swWaitDrop_queues {q0 q1 q2 q3 : List SwQ} (hq : (s.swPort p).queues = [q0, q1, q2, q3]) (h : p < s.sward.ports.length) :
    ((swWaitDrop s p).swPort p).queues = [swFresh s.dt q0, swFresh s.dt q1, q2, q3] := by
  rw [swWaitDrop_eq, swWaitDropClass_swPort _ p 1 (by rwa [swWaitDropClass_ports_length]), swWaitDropClass_dt, swWaitDropClass_swPort s p 0 h, hq]
  rfl

/-- One entry of class 0 that waited too long, none of class 1: one drop is counted. -/
theorem swWaitDrop_counts {q : SwQ} {q2 q3 : List SwQ} (hq : (s.swPort p).queues = [[q], [], q2, q3]) (h : p < s.sward.ports.length)
    (hold : swWait ≤ (s.dt - q.since).toNat) (hcls : q.f.cls = 0) :
    (swWaitDrop s p).fld (R.swardDrops_D0 p) = satInc (R.swardDrops_D0 p).w (s.fld (R.swardDrops_D0 p)) := by
  have hempty : nth ((swWaitDropClass p s 0).swPort p).queues 1 [] = [] := by
    rw [swWaitDropClass_swPort s p 0 h, hq]
    rfl
  have hsecond (t : State) (ht : nth (t.swPort p).queues 1 [] = []) : (swWaitDropClass p t 1).fld (R.swardDrops_D0 p) = t.fld (R.swardDrops_D0 p) := by
    simp only [swWaitDropClass, ht]
    rfl
  have hfirst : (swWaitDropClass p s 0).fld (R.swardDrops_D0 p) = ((s.cntSat (R.swardDrops_D0 p)).fld (R.swardDrops_D0 p)) := by
    have hlate : [q].filter (fun e => decide (swWait ≤ (s.dt - e.since).toNat)) = [q] := List.filter_cons_of_pos (decide_eq_true hold)
    simp only [swWaitDropClass, hq]
    rw [show nth [[q], [], q2, q3] 0 [] = [q] from rfl, hlate, List.foldl_cons, List.foldl_nil, hcls]
    exact State.raiseLim_fld ..
  rw [swWaitDrop_eq, hsecond _ hempty, hfirst]
  exact State.fld_cntSat_same _ _ (by decide : 24 + 8 ≤ 32)

end

/-! ### Streams (R428) -/

section

variable {s : State} {peer cls : Nat} {x : SwTx}

/-- A frame of a stream sent again on its port, or on the one the routes give it. -/
def swAgain (t : State) (e : SwFrame × Option Nat) : State :=
  let port := match e.2 with
    | some p => some p
    | none => match swRoute t e.1 none with
      | some (p :: _, _) => some p
      | _ => none
  match port with
  | some p => if swState t p = 2 then swOut t p e.1 e.2.isSome else t
  | none => t

/-- Sending again changes queues of ports alone. -/
theorem swAgain_keeps {γ : Type} (k : State → γ) (hk : ∀ t p x, k (State.setSwPort t p x) = k t) (t : State) (e : SwFrame × Option Nat) :
    k (swAgain t e) = k t := by
  unfold swAgain
  extract_lets port
  cases port with
  | none => rfl
  | some p =>
    dsimp only
    split
    · exact hk ..
    · rfl

theorem swResend_again (hx : swTxOf s peer cls = some x) (huna : x.una ≠ []) (hfew : x.resends < 8) :
    let v := s.at (x.since + tk (2 * msTicks))
    swResend s peer cls = x.una.foldl swAgain (swPutTx v { x with resends := x.resends + 1, since := v.dt, last := v.dt }) := by
  simp only [swResend, hx, if_neg huna, if_neg (Nat.not_le.mpr hfew)]
  rfl

theorem swResend_fails (hx : swTxOf s peer cls = some x) (huna : x.una ≠ []) (hmany : 8 ≤ x.resends) :
    let v := s.at (x.since + tk (2 * msTicks))
    swResend s peer cls =
      (v.withSward { v.sward with tx := v.sward.tx.filter (fun y => !(y.peer == peer && y.cls == cls)) }).raise 243 cls (wd peer) := by
  simp only [swResend, hx, if_neg huna, if_pos hmany]

theorem swAckSend_due {y : SwRx} {d : Tick} (hy : swRxOf s peer cls = some y) (hdue : y.due = some d) :
    swAckSend s peer cls = swPutRx (if swState s y.port = 2 then
      swOut s y.port { cls := 2, dst := peer, svc := 0, src := swNode s, ack := y.got, payload := [wd cls] } true else s) { y with due := none, last := s.dt } := by
  simp only [swAckSend, hy, hdue]

theorem swForget_rx {y : SwRx} (hy : swRxOf s peer cls = some y) :
    let v := s.at (y.last + tk (1000 * msTicks))
    swForget s peer cls true = v.withSward { v.sward with rx := v.sward.rx.filter (fun z => !(z.peer == peer && z.cls == cls)) } := by
  simp only [swForget, hy]
  rfl

theorem swForget_tx (hx : swTxOf s peer cls = some x) :
    let v := s.at (x.last + tk (1000 * msTicks))
    swForget s peer cls false = v.withSward { v.sward with tx := v.sward.tx.filter (fun z => !(z.peer == peer && z.cls == cls)) } := by
  simp only [swForget, hx]
  rfl

end

/-! ### EVENT frames (R435) -/

/-- A latch unit takes an event of the Sward. -/
def latchHears (s : State) (ev u : Nat) : Bool :=
  s.fld (R.latchCfg_SRCK u) == 3 && s.fld (R.latchCfg_SRC u) == ev && s.flag (R.latchCfg_EN u)

/-- What an EVENT frame does at a unit that takes it: an instant by fabric time, or event 147 while there is none. -/
def latchTold (ft : Tick) (t : State) (u : Nat) : State :=
  if t.flag R.swardFtstat_FT_LOCK then latchInstant t u true (dtOfFt t ft - tk (t.fld (R.latchDly_LDLY u))) else t.raise 147 u 1#32

theorem eventFrame_eq (s : State) (ev : Nat) (ft : Tick) :
    eventFrame s ev ft = (List.range 64).foldl (fun t u => if latchHears t ev u then latchTold ft t u else t) s := by
  unfold eventFrame
  congr 1
  funext t u
  exact if_congr (by simp [latchHears, and_assoc]) rfl rfl

theorem State.raiseAll_nil (s : State) : s.raiseAll [] = s := by
  simp [State.raiseAll, State.withEvt]

section

variable {ev : Nat} {ft : Tick}

/-- Units that do not take the event see nothing of it. -/
theorem latchHears_none {s : State} {l : List Nat} (h : l.filter (latchHears s ev) = []) :
    l.foldl (fun t u => if latchHears t ev u then latchTold ft t u else t) s = s := by
  induction l with
  | nil => rfl
  | cons u l ih =>
    have hall := List.filter_eq_nil_iff.mp h
    rw [List.foldl_cons, if_neg (hall u List.mem_cons_self)]
    exact ih (List.filter_eq_nil_iff.mpr fun v hv => hall v (List.mem_cons_of_mem u hv))

/-- Without fabric time every unit that takes the event tells so. -/
theorem latchHears_unlocked {s : State} (l : List Nat) (hlock : s.flag R.swardFtstat_FT_LOCK = false) :
    l.foldl (fun t u => if latchHears t ev u then latchTold ft t u else t) s =
      s.raiseAll ((l.filter (latchHears s ev)).map (fun u => { ev := 147, inst := u, detail := 1#32 })) := by
  induction l generalizing s with
  | nil => exact (State.raiseAll_nil s).symm
  | cons u l ih =>
    rw [List.foldl_cons]
    by_cases hu : latchHears s ev u = true
    · have htake : latchTold ft s u = s.raise 147 u 1#32 := if_neg (by simp [hlock])
      have htakes : latchHears (s.raise 147 u 1#32) ev = latchHears s ev := rfl
      rw [if_pos hu, htake, ih (s := s.raise 147 u 1#32) hlock, htakes, List.filter_cons_of_pos hu]
      simp [State.raiseAll, State.raise, State.withEvt]
    · rw [if_neg hu, ih hlock, List.filter_cons_of_neg hu]

/-- A latch instant shows in the unit's status alone. -/
theorem latchInstant_regsIn (s : State) (u : Nat) (sel : Bool) (t : Tick) : RegsIn (· = R.latchStat u) s (latchInstant s u sel t) := by
  have hcapture : RegsIn (· = R.latchStat u) s (latchCapture s u t) := by
    unfold latchCapture
    extract_lets x s1 s2
    have h2 : RegsIn (· = R.latchStat u) s s2 := (RegsIn.of_regs rfl).trans (.setFlag s1 (R.latchStat_PEND u) true rfl)
    exact .ite (.of_regs (State.raise_regs ..)) (.ite (h2.trans (.setFlag _ (R.latchStat_ARMED u) _ rfl)) h2)
  unfold latchInstant
  extract_lets chat s1
  have hcount : RegsIn (· = R.latchStat u) s s1 := .cntSat s (R.latchStat_CHATTERS u) rfl
  exact .ite (.refl _ s) (.ite (hcount.trans (.raiseLim _ _ _ _)) (.ite hcapture (.refl _ s)))

/-- No unit's configuration stands in another's status. -/
theorem latchCfg_ne_latchStat (u v : Nat) : R.latchCfg v ≠ R.latchStat u := by
  simp only [R.latchCfg, R.latchStat]
  omega

theorem latchHears_latchInstant (s : State) (u : Nat) (sel : Bool) (t : Tick) : latchHears (latchInstant s u sel t) ev = latchHears s ev := by
  funext v
  have hcfg (f : RF) (hf : f.addr = R.latchCfg v) : (latchInstant s u sel t).fld f = s.fld f :=
    (latchInstant_regsIn s u sel t).fld_eq (hf ▸ latchCfg_ne_latchStat u v)
  simp only [latchHears, State.flag, hcfg (R.latchCfg_SRCK v) rfl, hcfg (R.latchCfg_SRC v) rfl, hcfg (R.latchCfg_EN v) rfl]

/-- With fabric time, the one unit that takes the event takes its instant. -/
theorem latchHears_locked {s : State} {u : Nat} {l : List Nat} (hlock : s.flag R.swardFtstat_FT_LOCK = true) (h : l.filter (latchHears s ev) = [u]) :
    l.foldl (fun t u => if latchHears t ev u then latchTold ft t u else t) s =
      latchInstant s u true (dtOfFt s ft - tk (s.fld (R.latchDly_LDLY u))) := by
  induction l with
  | nil => simp at h
  | cons v l ih =>
    rw [List.foldl_cons]
    by_cases hv : latchHears s ev v = true
    · rw [List.filter_cons_of_pos hv, List.cons.injEq] at h
      obtain ⟨rfl, hrest⟩ := h
      have htake : latchTold ft s v = latchInstant s v true (dtOfFt s ft - tk (s.fld (R.latchDly_LDLY v))) := if_pos hlock
      rw [if_pos hv, htake]
      exact latchHears_none (by rwa [latchHears_latchInstant])
    · rw [if_neg hv]
      exact ih (by rwa [List.filter_cons_of_neg hv] at h)

end

/-! ### SWARD_ROUTE (R431) -/

/-- A change of the routes staged for the next epoch boundary. -/
def swStaged (s : State) (x : Nat × Nat × Nat × Nat) : State :=
  State.setFld (s.withSward { s.sward with staged := s.sward.staged ++ [x] }) R.swardRstat_STAGED (s.sward.staged.length + 1)

theorem opSwardRoute_stages {s : State} {r : Request} {a b : Word} {op addr plen ports : Nat} (hp : r.params = [a, b]) (hop : op = bitsOf a 30 2)
    (haddr : addr = bitsOf a 0 18) (hplen : plen = bitsOf b 8 5) (hports : ports = bitsOf b 0 5) (hkind : op ≠ 3) (ha : bitsOf a 18 12 = 0)
    (hb : bitsOf b 13 19 = 0) (hb2 : bitsOf b 5 3 = 0) (hlen : plen ≤ 18) (haligned : addr % 2 ^ (18 - plen) = 0) (hset : op = 0 → ports ≠ 0)
    (hroom : op = 0 → (swApply (swEntries s) s.sward.staged).any (fun e => e.1 == addr && e.2.1 == plen) = true ∨
      (swApply (swEntries s) s.sward.staged).length < 1024) :
    opSwardRoute r s = { st := swStaged s (op, addr, plen, ports) } := by
  subst hop haddr hplen hports
  have hform : ¬ (bitsOf a 30 2 = 3 ∨ bitsOf a 18 12 ≠ 0 ∨ bitsOf b 13 19 ≠ 0 ∨ bitsOf b 5 3 ≠ 0 ∨ 18 < bitsOf b 8 5 ∨
      bitsOf a 0 18 % 2 ^ (18 - bitsOf b 8 5) ≠ 0 ∨ (bitsOf a 30 2 = 0 ∧ bitsOf b 0 5 = 0)) := by
    rintro (h | h | h | h | h | h | ⟨h, h0⟩)
    exacts [hkind h, h ha, h hb, h hb2, Nat.not_lt.mpr hlen h, h haligned, hset h h0]
  have hfits : ¬ (bitsOf a 30 2 = 0 ∧ (!(swApply (swEntries s) s.sward.staged).any (fun e => e.1 == bitsOf a 0 18 && e.2.1 == bitsOf b 8 5)) = true ∧
      1024 ≤ (swApply (swEntries s) s.sward.staged).length) := by
    rintro ⟨h, hnew, hfull⟩
    rcases hroom h with hknown | hfew
    · simp [hknown] at hnew
    · omega
  have hp0 : r.p 0 = a := by simp [Request.p, hp, nth]
  have hp1 : r.p 1 = b := by simp [Request.p, hp, nth]
  unfold opSwardRoute
  rw [hp0, hp1]
  refine (if_neg hform).trans ((if_neg hfits).trans ?_)
  simp [swStaged]

theorem exec_swardRoute_served {s : State} {r : Request} {a b : Word} (hs : s.served) (ht : r.target = 0) (hp : r.params = [a, b]) :
    exec (.swardRoute r) s = .next (swRouteReply r (opSwardRoute r s)) := by
  obtain ⟨hphase, hhold, hreed⟩ := hs
  refine congrArg Host.Outcome.next (if_pos ?_)
  simp [serving, hphase, hhold, hreed, ht, hp]

/-! ### Marks (R434) -/

theorem ftLock_sward (s : State) (on : Bool) : (ftLock s on).sward = s.sward := by
  unfold ftLock
  split <;> rfl

theorem ftLock_clk (s : State) (on : Bool) : (ftLock s on).clk = s.clk := by
  unfold ftLock
  split <;> rfl

/-- FT_LOCK as it follows a mark (R434): eight good ones set it, four bad ones clear it. -/
def ftFollow (s : State) (good bad : Nat) : State := if 8 ≤ good then ftLock s true else if 4 ≤ bad then ftLock s false else s

theorem ftFollow_sward (s : State) (good bad : Nat) : (ftFollow s good bad).sward = s.sward := by
  unfold ftFollow
  split_ifs
  · exact ftLock_sward ..
  · exact ftLock_sward ..
  · rfl

theorem ftFollow_clk (s : State) (good bad : Nat) : (ftFollow s good bad).clk = s.clk := by
  unfold ftFollow
  split_ifs
  · exact ftLock_clk ..
  · exact ftLock_clk ..
  · rfl

/-- The fabric time that a mark names. -/
def markTime (s : State) (p e late : Nat) (t : Tick) : Rat :=
  ((((if s.sward.marked then epochNear (ftExact s t) e else (e : Int)) * epochTicks + late : Int)) : Rat) + ((s.reg (R.swardDelay p)).toNat : Rat)

/-- Fabric time after a mark: set to it at the first mark or far off it, else moved half way and its rate trimmed. -/
def markSward (s : State) (p e late : Nat) (t : Tick) : SwardS :=
  let o := ftExact s t - markTime s p e late t
  if !s.sward.marked || decide (16000 ≤ absR o) then { s.sward with dtB := t, ftB := markTime s p e late t, marked := true }
  else { s.sward with dtB := t, ftB := ftExact s t - o / 2, frate := clampR (-(200 / 1000000)) (200 / 1000000) (s.sward.frate - o / (2 * msTicks : Nat)) }

section

variable {s : State} {p e late : Nat} {t : Tick}

/-- The first mark, and one far off fabric time, sets it. -/
theorem markSward_far (h : s.sward.marked = false ∨ 16000 ≤ absR (ftExact s t - markTime s p e late t)) :
    markSward s p e late t = { s.sward with dtB := t, ftB := markTime s p e late t, marked := true } :=
  if_pos (by simpa using h)

/-- A mark near fabric time moves it half way and trims its rate. -/
theorem markSward_near (hmarked : s.sward.marked = true) (hnear : absR (ftExact s t - markTime s p e late t) < 16000) :
    markSward s p e late t = { s.sward with
      dtB := t
      ftB := ftExact s t - (ftExact s t - markTime s p e late t) / 2
      frate := clampR (-(200 / 1000000)) (200 / 1000000) (s.sward.frate - (ftExact s t - markTime s p e late t) / (2 * msTicks : Nat)) } :=
  if_neg (by simpa [hmarked] using hnear)

theorem markSward_dtB : (markSward s p e late t).dtB = t := by
  unfold markSward
  extract_lets o
  split_ifs <;> rfl

theorem markSward_marked : (markSward s p e late t).marked = true := by
  unfold markSward
  extract_lets o
  split
  case isTrue => rfl
  case isFalse hnear =>
    have hmoves : s.sward.marked = true ∧ absR o < 16000 := by simpa using hnear
    exact hmoves.1

end

theorem ftMark_marks {s : State} {p e late : Nat} {t : Tick} (hroot : s.flag R.swardNode_ROOT = false) (hup : s.fld R.swardFtstat_UPPORT = p)
    (hcarries : swCarries s p = true) :
    ∃ good bad offset, ftMark s p e late t =
      ftFollow ((s.withSward { markSward s p e late t with good := good, bad := bad, none_ := 0 }).setFld R.swardFtstat_OFFSET offset) good bad := by
  refine ⟨_, _, _, (if_neg ?_).trans rfl⟩
  simp [hroot, hup, hcarries]

/-- Settles O44, command by command. -/
theorem swardFrames : Obligations.Sward_Frames := by
  refine ⟨?receive, ?transmit, ?waitDrop, ?resend, ?ackSend, ?forget, ?event, ?route, ?boundary, ?mark⟩
  case receive =>
    rintro s v u p ws t f len good rfl hcarries rfl rfl rfl rfl
    refine ⟨congrArg Host.Outcome.next (swReceive_abort hcarries), fun hbad => congrArg Host.Outcome.next (swReceive_badHead hcarries hbad),
      fun hgood hdamaged => congrArg Host.Outcome.next ((swReceive_goodHead hcarries hgood).trans (if_pos hdamaged)), fun hgood hlen hcheck => ?_⟩
    refine congrArg Host.Outcome.next ((swReceive_goodHead hcarries hgood).trans ((if_neg (by simp [hlen, hcheck])).trans ?_))
    refine if_congr Iff.rfl rfl ?_
    split_ifs <;> rfl
  case transmit =>
    rintro s v u p t rfl hcarries hhush rfl
    refine ⟨fun hpick => congrArg Host.Outcome.next (swTransmit_none hcarries hhush hpick), ?_⟩
    rintro c bucket q rest x y hpick hqueue rfl rfl
    have hsends : exec (.swardTransmit p t) s = .next _ := congrArg Host.Outcome.next (swTransmit_sends hcarries hhush hpick hqueue)
    exact ⟨fun hown => hsends.trans (by rw [hown]; rfl), fun i hfrom => hsends.trans (by rw [hfrom]; rfl)⟩
  case waitDrop =>
    intro s p q0 q1 q2 q3 hqueues hp
    refine ⟨_, rfl, swWaitDrop_queues hqueues hp, fun i hi => ?_, ?_, ?_⟩
    · rw [swWaitDrop_eq, swWaitDropClass_swPort_ne _ _ _ hi, swWaitDropClass_swPort_ne _ _ _ hi]
    · rw [swWaitDrop_eq, swWaitDropClass_loop, swWaitDropClass_loop]
    · rintro q rfl rfl hold hcls
      exact swWaitDrop_counts hqueues hp hold hcls
  case resend =>
    rintro s v peer bulk cls x rfl hx huna rfl
    obtain ⟨hpeer, hcls⟩ := swTxOf_some hx
    refine ⟨fun hfew => ?_, fun hmany => ?_⟩
    · have hkeeps {γ : Type} (k : State → γ) (hk : ∀ t p y, k (State.setSwPort t p y) = k t) (t : State) : k (x.una.foldl swAgain t) = k t :=
        foldl_keep swAgain k (swAgain_keeps k hk) _ t
      refine ⟨_, congrArg Host.Outcome.next (swResend_again hx huna hfew), ?_, hkeeps State.evt (fun _ _ _ => rfl) _, hkeeps State.regs (fun _ _ _ => rfl) _⟩
      rw [hkeeps (swTxOf · _ _) (fun _ _ _ => rfl), ← hpeer, ← hcls]
      exact swTxOf_swPutTx ..
    · exact ⟨_, congrArg Host.Outcome.next (swResend_fails hx huna hmany), swTxOf_filtered .., rfl, rfl⟩
  case ackSend =>
    rintro s peer bulk cls x d rfl hx hdue
    exact congrArg Host.Outcome.next (swAckSend_due hx hdue)
  case forget =>
    rintro s peer bulk cls rfl
    refine ⟨fun x hx => ⟨_, congrArg Host.Outcome.next (swForget_rx hx), swRxOf_filtered .., ?_, ?_⟩,
      fun x hx => ⟨_, congrArg Host.Outcome.next (swForget_tx hx), swTxOf_filtered .., ?_, ?_⟩⟩
    all_goals simp [State.withSward]
  case event =>
    rintro s ev ft us hhears rfl
    have hexec : exec (.eventFrameReceive ev ft) s = .next (eventFrame s ev.val ft) := congrArg Host.Outcome.next (if_pos hhears)
    rw [hexec, eventFrame_eq]
    refine ⟨fun hlock => ⟨_, rfl, ?_⟩, fun _ hnone => congrArg Host.Outcome.next (latchHears_none hnone),
      fun u hlock hone => congrArg Host.Outcome.next (latchHears_locked hlock hone)⟩
    rw [latchHears_unlocked _ hlock]
    exact ⟨rfl, rfl, rfl⟩
  case route =>
    rintro s u r a b op addr plen ports now hs ht hp hop haddr hplen hports hkind ha hb hb2 hlen haligned hset rfl hroom rfl
    rw [exec_swardRoute_served hs ht hp, opSwardRoute_stages hp hop haddr hplen hports hkind ha hb hb2 hlen haligned hset hroom]
    refine ⟨fun hnow => congrArg Host.Outcome.next (if_pos ?_), fun hack hreply => congrArg Host.Outcome.next (if_neg ?_)⟩
    · rcases hnow with hack | hquiet
      · simp [hack]
      · simp [hquiet]
    · simp [hack, hreply, stRefused]
  case boundary =>
    intro s t
    obtain ⟨hepoch, hrest⟩ := Prod.ext_iff.mp (swEpoch_epochSide (s.at t) t)
    obtain ⟨hrstat, hsward⟩ := Prod.ext_iff.mp hrest
    obtain ⟨hstaged, hwaits⟩ := Prod.ext_iff.mp hsward
    exact ⟨_, rfl, hepoch, hstaged, hwaits, (congrArg (bitsOf · 0 16) hrstat).trans (epochShown_staged _)⟩
  case mark =>
    rintro s v p e late t want o rfl hroot hup hcarries rfl rfl
    have hseen : epochSeen (s.at t) p.val = (s.at t).withClk { (s.at t).clk with epoch := true } := if_pos hcarries
    obtain ⟨good, bad, offset, hmark⟩ := ftMark_marks (s := epochSeen (s.at t) p.val) (p := p.val) (e := e.toNat) (late := late.toNat) (t := t)
      (by rw [hseen]; exact hroot) (by rw [hseen]; exact hup) (by rw [hseen]; exact hcarries)
    rw [hseen] at hmark
    have hexec : exec (.epochMarkReceive p e late t) s = .next _ := congrArg Host.Outcome.next ((congrArg (ftMark · p.val e.toNat late.toNat t) hseen).trans hmark)
    have hsward := ftFollow_sward ((((s.at t).withClk { (s.at t).clk with epoch := true }).withSward
      { markSward (s.at t) p.val e.toNat late.toNat t with good := good, bad := bad, none_ := 0 }).setFld R.swardFtstat_OFFSET offset) good bad
    refine ⟨_, hexec, ?_, ?_, congrArg ClkS.epoch (ftFollow_clk ..), ?_, fun hfar => ?_, fun hmarked hnear => ?_⟩
    · exact (congrArg SwardS.marked hsward).trans markSward_marked
    · exact (congrArg SwardS.dtB hsward).trans markSward_dtB
    · exact congrArg SwardS.none_ hsward
    · have hstep := markSward_far hfar
      have hrate : (markSward (s.at t) p.val e.toNat late.toNat t).frate = (s.at t).sward.frate := by rw [hstep]
      exact ⟨(congrArg SwardS.ftB hsward).trans (congrArg SwardS.ftB hstep), (congrArg SwardS.frate hsward).trans hrate⟩
    · have hmove := markSward_near hmarked hnear
      exact ⟨(congrArg SwardS.ftB hsward).trans (congrArg SwardS.ftB hmove), (congrArg SwardS.frate hsward).trans (congrArg SwardS.frate hmove)⟩

end Sys2Proof.Machine
end

section
/-! PROOF. O56, the frame of a reply: the registers of the port's reply alone (`replyReg`), and of the parts of the machine those of `CmdOnly`. -/

namespace Sys2Proof.Machine

open Sys2Proof

/-- Answering a request, at once or when its boundaries have passed, changes no other registers than those of its port's reply. -/
theorem respond_regsIn (r : Request) (x : Res) : RegsIn (replyReg r.port.val) x.st (respond r x) := by
  unfold respond
  extract_lets c s live
  have hticket : RegsIn (replyReg r.port.val) x.st s := .of_regs (State.withCmd_regs ..)
  have hreply (ran : Bool) (status stamp : Nat) : RegsIn (replyReg r.port.val) x.st (sendReply s r ran status stamp x.data) :=
    hticket.trans (answer_regsIn _ _ _ _ _ _ _ _)
  clear_value live
  refine .ite (hreply _ _ _) ?_
  cases live
  case nil => exact hreply _ _ _
  case cons => exact .ite (hticket.trans (.of_regs rfl)) (hreply _ _ _)

/-- Settles O56, by the registers a reply can change and by `CmdOnly.respond`. -/
theorem replyFrame : Obligations.Reply_Frame := by
  intro r x
  have hrest := CmdOnly.respond r x
  refine ⟨fun a hring hport heth => respond_regsIn r x a ?_, hrest.force, hrest.dt, hrest.phase, hrest.reed, hrest.clk, hrest.loop, hrest.sense,
    hrest.nib, hrest.ink, hrest.fdbk, hrest.field, hrest.safe, hrest.store, hrest.can, hrest.sward, hrest.sheaf, hrest.nvm, hrest.keep, hrest.boot,
    hrest.free, hrest.pending⟩
  rintro (⟨hlo, hhi⟩ | rfl | ⟨hudp, hdrops | hstat⟩)
  · omega
  · exact hport rfl
  · exact (heth hudp).1 hdrops
  · exact (heth hudp).2 hstat

end Sys2Proof.Machine
end

section
/-! PROOF. O52 and O59, ring memory (R101, R102, R107): words copied into a ring stand at its offsets, and the window that shows the memory. -/

namespace Sys2Proof.Machine

open Sys2Proof

/-! ### One word -/

theorem ringMemGet_ringMemPut_same (s : State) (w : Nat) (x : Word) : ringMemGet (ringMemPut s w x) w = x := tblGet_put_same ..

theorem ringMemGet_ringMemPut_ne (s : State) {w a : Nat} (x : Word) (h : w ≠ a) : ringMemGet (ringMemPut s w x) a = ringMemGet s a :=
  tblGet_put_ne _ _ _ _ _ _ h

/-! ### Words around the end of a ring -/

section

variable (s : State) (n off : Nat) (ws : List Word)

/-- Copying words into a ring leaves the words of ring memory it does not reach. -/
theorem ringMemGet_ringCopyIn_apart {a : Nat} (h : ∀ i, i < ws.length → ringBase s n + (off + i) % ringSize s n ≠ a) :
    ringMemGet (ringCopyIn s n off ws) a = ringMemGet s a := by
  induction ws generalizing s off with
  | nil => rfl
  | cons x xs ih =>
    have hrest := ih (ringMemPut s (ringBase s n + off % ringSize s n) x) (off + 1) fun i hi => by
      have hnext := h (i + 1) (by simpa using hi)
      rwa [Nat.add_comm i 1, ← Nat.add_assoc] at hnext
    exact hrest.trans (ringMemGet_ringMemPut_ne s x (h 0 (by simp)))

/-- Offsets less than a ring's size apart name different words of it. -/
theorem ring_offset_ne {size : Nat} {i : Nat} (h0 : 0 < i) (hi : i < size) : (off + i) % size ≠ off % size := by
  intro h
  have hdvd : size ∣ i := (Nat.modEq_iff_dvd' (Nat.le_add_right off i)).mp h.symm |>.trans (by simp)
  exact absurd (Nat.le_of_dvd h0 hdvd) (by omega)

/-- Words that a ring has room for read back from where they were copied to. -/
theorem ringCopyOut_ringCopyIn (h : ws.length ≤ ringSize s n) : ringCopyOut (ringCopyIn s n off ws) n off ws.length = ws := by
  induction ws generalizing s off with
  | nil => rfl
  | cons x xs ih =>
    have hlen : xs.length < ringSize s n := h
    have hfirst := ringMemGet_ringCopyIn_apart (ringMemPut s (ringBase s n + off % ringSize s n) x) n (off + 1) xs
      (a := ringBase s n + off % ringSize s n) fun i hi he => by
        have hne := ring_offset_ne off (size := ringSize s n) (i := i + 1) (Nat.succ_pos i) (by omega)
        rw [Nat.add_comm i 1, ← Nat.add_assoc] at hne
        exact hne (Nat.add_left_cancel he)
    have hregs := ringCopyIn_regs s n off (x :: xs)
    have hbase : ringBase (ringCopyIn s n off (x :: xs)) n = ringBase s n := by simp only [ringBase, State.fld, State.reg, hregs]
    have hsize : ringSize (ringCopyIn s n off (x :: xs)) n = ringSize s n := by simp only [ringSize, State.fld, State.reg, hregs]
    rw [List.length_cons, ringCopyOut, hbase, hsize]
    exact congrArg₂ List.cons (hfirst.trans (ringMemGet_ringMemPut_same ..)) (ih _ _ (Nat.le_of_lt hlen))

end

/-- Settles O52, by induction on the words. -/
theorem ringWordsRoundTrip : Obligations.Ring_Words_Round_Trip := by
  intro s n off ws hlen
  refine ⟨ringCopyOut_ringCopyIn s n off ws hlen, fun a ha => ringMemGet_ringCopyIn_apart s n off ws fun i hi => ?_, ringCopyIn_regs s n off ws⟩
  have hin : (off + i) % ringSize s n < ringSize s n := Nat.mod_lt _ (by omega)
  omega

/-! ### The window over ring memory (R107) -/

/-- A word of ring memory reads at its place in the window. -/
theorem regRead_ringMem (s : State) {w : Nat} (h : w < 65536) : regRead s (0x340000 + 4 * w) = { st := s, val := ringMemGet s w } := by
  have hword : (0x340000 + 4 * w - 0x340000) / 4 = w := by omega
  rw [regRead, if_pos ⟨by omega, by omega⟩, hword]

/-- The window takes no write. -/
theorem registerWrite_ringMem (s : State) {a : Nat} (x : Word) (hlo : 0x340000 ≤ a) (hhi : a < 0x380000) : registerWrite s a x = s := by
  have hkeep : regWrite s a x = { st := s } := by rw [regWrite, if_pos ⟨hlo, hhi⟩]
  simp [registerWrite, hkeep, regRowWrite]

/-- Settles O59, by the window's two rules. -/
theorem ringMemoryWindow : Obligations.Ring_Memory_Window :=
  ⟨fun s _ hw => regRead_ringMem s hw, fun s _ x hlo hhi => congrArg Host.Outcome.next (registerWrite_ringMem s x hlo hhi)⟩

end Sys2Proof.Machine
end

section
/-! PROOF. O1, O4 and O5, requests and replies of ports and rings: the host port's frames, then the opcodes NOP, IDENTIFY, RING_POP and RING_PUSH. -/

namespace Sys2Proof.Machine

open Sys2Proof

/-! ### The host port's frames (R93 to R95) -/

/-- A whole CMD frame that finds room in ring 0 is stored there (R94). -/
theorem hostCmdFrame_stores {s : State} {hdr : Word} {body : List Word} {tailBits : Nat} (hop : bitsOf hdr 28 4 = 1) (htail : tailBits % 32 = 0)
    (htwo : 2 ≤ bitsOf hdr 0 16) (hlen : bitsOf hdr 0 16 ≤ body.length) (hroom : bitsOf hdr 0 16 ≤ ringFree s 0) :
    hostCmdFrame s hdr body tailBits = hrdyUpdate (hostFrameEnd (ringStore s 0 (body.take (bitsOf hdr 0 16)) { words := bitsOf hdr 0 16 }) 0
      (hostStatusWord s :: List.replicate body.length 0#32)) (serving s) := by
  have htake : (body.take (bitsOf hdr 0 16)).length = bitsOf hdr 0 16 := List.length_take_of_le hlen
  have hwhole : ¬ (bitsOf hdr 28 4 ≠ 1 ∨ tailBits % 32 ≠ 0 ∨ body.length < bitsOf hdr 0 16) := by simp [hop, htail, hlen]
  simp only [hostCmdFrame, if_neg hwhole, htake, if_neg (Nat.not_lt.mpr htwo), if_pos hroom]

/-- With no word late, the tail reply is shifted out as far as words are clocked, then zeros (R95). -/
theorem fetchOut_whole (before : Word) (ws : List Word) (i n : Nat) :
    fetchOut before none ws i n = ws.take n ++ List.replicate (n - ws.length) 0#32 := by
  induction n generalizing before ws i with
  | zero => simp [fetchOut]
  | succ m ih =>
    cases ws with
    | nil => simp [fetchOut, ih, nth, List.replicate_succ]
    | cons w ws => simp [fetchOut, ih, nth]

/-- A FETCH frame without underrun removes the reply that it clocked whole (R95). -/
theorem hostFetchFrame_fetches {s : State} {hdr : Word} {clocked : Nat} (hop : bitsOf hdr 28 4 = 2) (hlen : bitsOf hdr 0 16 ≠ 0) :
    hostFetchFrame s hdr clocked none = hostFrameEnd (if ringTailWords s 8 ≠ [] ∧ (ringTailWords s 8).length ≤ clocked then ringDrop s 8 else s) 0
      (hostStatusWord s :: ((ringTailWords s 8).take clocked ++ List.replicate (clocked - (ringTailWords s 8).length) 0#32)) := by
  have hfetch : ¬ (bitsOf hdr 28 4 ≠ 2 ∨ bitsOf hdr 0 16 = 0) := by simp [hop, hlen]
  rw [hostFetchFrame, if_neg hfetch]
  simp [fetchOut_whole]

/-- Settles O1, frame by frame. -/
theorem hostPortFrames : Obligations.HostPort_Frames := by
  refine ⟨?cmd, ?status, ?fetch⟩
  case cmd =>
    intro s hdr body tailBits hup hop htail htwo hlen hroom
    exact congrArg Host.Outcome.next ((if_pos hup).trans (hostCmdFrame_stores hop htail htwo hlen hroom))
  case status =>
    intro s hdr hup hop
    exact congrArg Host.Outcome.next ((if_pos hup).trans (if_pos (.inl hop)))
  case fetch =>
    intro s hdr clocked hup hop hlen
    exact congrArg Host.Outcome.next ((if_pos hup).trans (hostFetchFrame_fetches hop hlen))

/-! ### NOP and IDENTIFY (R87) -/

/-- A device that is command-ready names its running firmware (R114 gives 0 in recovery alone). -/
theorem identifyData_ready {s : State} (h : s.phase = .ready) : identifyData s =
    [0x00007224#32, wd ((if Config.gradeH then 0x48 else 0x47) * 256 + 0xC0), s.reg (R.fwVer (s.fld R.fwStat_RUNNING)), wd (s.fld R.fwStat_RUNNING)] := by
  simp [identifyData, h]

/-- Settles O4: Reed serves both, and they have neither TARGET nor parameters. -/
theorem nopIdentifyAnswer : Obligations.Nop_Identify_Answer := by
  intro s r hs ht hp
  have hform : (r.target == 0 && r.params.isEmpty) = true := by simp [ht, hp]
  rw [← identifyData_ready hs.1]
  exact ⟨exec_of_served (op := fun t => { st := t, status := stOK }) rfl hs hform,
    exec_of_served (op := fun t => { st := t, status := stOK, data := identifyData t }) rfl hs hform⟩

/-! ### RING_POP and RING_PUSH (R105, R106) -/

/-- The one parameter of a request. -/
theorem p_zero_of_params {r : Request} {w : Word} (h : r.params = [w]) : r.p 0 = w := by
  simp [Request.p, h, nth]

section

variable {s : State} {r : Request} {w : Word} (hp : r.params = [w]) (ht : r.target ≤ 63) (hhi : bitsOf w 16 16 = 0) (h1 : 1 ≤ bitsOf w 0 16)
  (h256 : bitsOf w 0 16 ≤ 256) (hallowed : popAllowed r.target = true) (hen : s.flag (R.ringCtrl_EN r.target) = true)
include hp ht hhi h1 h256 hallowed hen

/-- A RING_POP of an empty ring answers no data (R105). -/
theorem opRingPop_empty (hents : ringEnts s r.target = []) : opRingPop r s = { st := s, status := stOK } := by
  have hparam : ¬ (bitsOf w 16 16 ≠ 0 ∨ bitsOf w 0 16 = 0 ∨ 256 < bitsOf w 0 16) := by omega
  simp [opRingPop, p_zero_of_params hp, Nat.not_lt.mpr ht, hparam, hallowed, hen, hents]

/-- A RING_POP takes the largest run of whole entries from the tail, where the oldest fits (R105). -/
theorem opRingPop_run {e : Ent} {es : List Ent} (hents : ringEnts s r.target = e :: es) (hfits : e.words ≤ bitsOf w 0 16) :
    opRingPop r s = { st := inkPump (ringDropN s r.target (popRun (e :: es) (bitsOf w 0 16)).2), status := stOK,
                      data := ringCopyOut s r.target (s.fld (R.ringTail_TAIL r.target)) (popRun (e :: es) (bitsOf w 0 16)).1 } := by
  have hparam : ¬ (bitsOf w 16 16 ≠ 0 ∨ bitsOf w 0 16 = 0 ∨ 256 < bitsOf w 0 16) := by omega
  simp [opRingPop, p_zero_of_params hp, Nat.not_lt.mpr ht, hparam, hallowed, hen, hents, Nat.not_lt.mpr hfits]

end

/-- A RING_PUSH of whole entries that an enabled ring may take and has room for stores them all (R106). -/
theorem opRingPush_stores {s : State} {r : Request} {es : List (List Word)} (ht : r.target ≤ 63)
    (hsplit : splitEntries (s.fld (R.ringCtrl_ESIZE r.target)) r.params = some es)
    (hallowed : pushAllowed r.target = true) (hen : s.flag (R.ringCtrl_EN r.target) = true) (hroom : r.params.length ≤ ringFree s r.target) :
    opRingPush r s = { st := es.foldl (fun t e => ringStore t r.target e { words := e.length }) s, status := stOK,
                       data := [wd (ringFree (es.foldl (fun t e => ringStore t r.target e { words := e.length }) s) r.target)] } := by
  simp only [opRingPush, if_neg (Nat.not_lt.mpr ht), hsplit, hallowed, hen, if_neg (Nat.not_lt.mpr hroom)]
  rfl

/-- Settles O5: Reed serves both, and their checks pass. -/
theorem ringPopPush : Obligations.Ring_Pop_Push := by
  refine ⟨?pop, ?push⟩
  case pop =>
    intro s r w hs hp ht hhi h1 h256 hallowed hen
    have hexec : exec (.ringPop r) s = _ := exec_of_served rfl hs (by simp [hp])
    exact ⟨fun hnone => by rw [hexec, opRingPop_empty hp ht hhi h1 h256 hallowed hen hnone],
      fun e es hsome hfits => by rw [hexec, opRingPop_run hp ht hhi h1 h256 hallowed hen hsome hfits]⟩
  case push =>
    intro s r es hs hp ht hsplit hallowed hen hroom
    have hexec : exec (.ringPush r) s = _ := exec_of_served rfl hs (by simp [hp])
    rwa [opRingPush_stores ht hsplit hallowed hen hroom] at hexec

end Sys2Proof.Machine
end

section
/-! PROOF. O6, the registers of rings and SPI ports: bits of merged words, then a ring's place and control word, its losses, and the transfers of a
peripheral SPI port. -/

namespace Sys2Proof.Machine

open Sys2Proof

/-! ### Bits of words put together -/

section

variable {x y old new mask : Word} {lo n : Nat}

/-- Words that agree in the bits of a field have the same field. -/
theorem bitsOf_congr (hf : lo + n ≤ 32) (h : ∀ i, i < n → bitOf x (lo + i) = bitOf y (lo + i)) : bitsOf x lo n = bitsOf y lo n := by
  apply Nat.eq_of_testBit_eq
  intro i
  rw [bitsOf_testBit _ _ _ _ hf, bitsOf_testBit _ _ _ _ hf]
  by_cases hi : i < n
  · exact congrArg (decide (i < n) && ·) (h i hi)
  · simp [hi]

theorem bitOf_mergeBits {i : Nat} (h : bitOf mask i = true) : bitOf (mergeBits old new mask) i = bitOf new i := by
  simp only [bitOf] at h
  simp [bitOf, mergeBits, h]

/-- A field inside the mask of a merge is that of the new word. -/
theorem bitsOf_mergeBits (hf : lo + n ≤ 32) (h : ∀ i, i < n → bitOf mask (lo + i) = true) :
    bitsOf (mergeBits old new mask) lo n = bitsOf new lo n :=
  bitsOf_congr hf fun i hi => bitOf_mergeBits (h i hi)

/-- A field apart from the bits that are set. -/
theorem bitsOf_or_apart (hf : lo + n ≤ 32) (h : ∀ i, i < n → bitOf mask (lo + i) = false) : bitsOf (x ||| mask) lo n = bitsOf x lo n :=
  bitsOf_congr hf fun i hi => (BitVec.getLsbD_or ..).trans (by rw [show mask.getLsbD (lo + i) = false from h i hi, Bool.or_false]; rfl)

/-- A field apart from the bits that are cleared. -/
theorem bitsOf_andNot_apart (hf : lo + n ≤ 32) (h : ∀ i, i < n → bitOf mask (lo + i) = false) : bitsOf (x &&& ~~~mask) lo n = bitsOf x lo n :=
  bitsOf_congr hf fun i hi => by
    have hin : lo + i < 32 := by omega
    have hbit : mask[lo + i] = false := (BitVec.getLsbD_eq_getElem hin).symm.trans (h i hi)
    simp [bitOf, hbit, hin]

/-- A field of one bit is that bit. -/
theorem flag_eq_bitOf (x : Word) {i : Nat} (hi : i < 32) : (bitsOf x i 1 == 1) = bitOf x i := by
  have hbit := bitsOf_testBit x i 1 0 (by omega)
  have hlt := bitsOf_lt x i 1 (by omega)
  rw [Nat.testBit_zero] at hbit
  have hmod : bitsOf x i 1 % 2 = bitsOf x i 1 := Nat.mod_eq_of_lt hlt
  rw [beq_eq_decide]
  simpa [hmod, bitOf] using hbit

end

/-! ### The place and the control word of a ring (R104) -/

section

variable {s : State} {n : Nat} {w : Word}

theorem ringEnabled_eq (s : State) (n : Nat) : s.flag (R.ringCtrl_EN n) = bitOf (s.reg (R.ringCtrl n)) 31 := flag_eq_bitOf _ (i := 31) (by decide)

/-- The bits of its control word a ring takes: the overflow policy only where it is free to choose. -/
def ringCtrlMask (n : Nat) : Word := if (16 ≤ n ∧ n ≤ 19) ∨ 60 ≤ n then 0xE0FFFFFF#32 else 0x80FFFFFF#32

theorem ringCtrlMask_en (n : Nat) : bitOf (ringCtrlMask n) 31 = true := by
  unfold ringCtrlMask
  split <;> decide

theorem ringCtrlMask_esize (n : Nat) : ∀ i, i < 8 → bitOf (ringCtrlMask n) (16 + i) = true := by
  unfold ringCtrlMask
  split <;> decide

/-- A ring with its place and its control word replaced, and what follows from them: ABOVE and HRDY. -/
def ringLaidOut (s : State) (n : Nat) (loc ctl : Word) : State :=
  let u := (s.setReg (R.ringLoc n) loc).setReg (R.ringCtrl n) ctl
  let v := u.setFlag (R.ringStat_ABOVE n) (decide (bitsOf ctl 0 16 ≠ 0) && decide (bitsOf ctl 0 16 ≤ ringWords u n))
  hrdyUpdate v (serving v)

/-- The registers that ABOVE and HRDY stand in. -/
def ringShownReg (n a : Nat) : Prop := a = R.ringStat n ∨ a = R.spiHstat

theorem ringLaidOut_shown (loc ctl : Word) :
    RegsIn (ringShownReg n) ((s.setReg (R.ringLoc n) loc).setReg (R.ringCtrl n) ctl) (ringLaidOut s n loc ctl) :=
  (RegsIn.setFlag _ (R.ringStat_ABOVE n) _ (.inl rfl)).trans (.setFlag _ R.spiHstat_HRDY _ (.inr rfl))

theorem ringLaidOut_ctrl (loc ctl : Word) : (ringLaidOut s n loc ctl).reg (R.ringCtrl n) = ctl := by
  have hapart : ¬ ringShownReg n (R.ringCtrl n) := by
    simp only [ringShownReg, R.ringCtrl, R.ringStat, R.spiHstat]
    omega
  exact (ringLaidOut_shown loc ctl _ hapart).trans (State.reg_setReg_same ..)

theorem ringLaidOut_loc (loc ctl : Word) : (ringLaidOut s n loc ctl).reg (R.ringLoc n) = loc := by
  have hapart : ¬ ringShownReg n (R.ringLoc n) := by
    simp only [ringShownReg, R.ringLoc, R.ringStat, R.spiHstat]
    omega
  have hne : R.ringCtrl n ≠ R.ringLoc n := by
    simp only [R.ringCtrl, R.ringLoc]
    omega
  exact (ringLaidOut_shown loc ctl _ hapart).trans ((State.reg_setReg_ne _ _ _ _ hne).trans (State.reg_setReg_same ..))

theorem ringLaidOut_reg_ne (loc ctl : Word) {a : Nat} (hloc : a ≠ R.ringLoc n) (hctl : a ≠ R.ringCtrl n) (hstat : a ≠ R.ringStat n)
    (hhstat : a ≠ R.spiHstat) :
    (ringLaidOut s n loc ctl).reg a = s.reg a :=
  (ringLaidOut_shown loc ctl a (not_or.mpr ⟨hstat, hhstat⟩)).trans
    ((State.reg_setReg_ne _ _ _ _ hctl.symm).trans (State.reg_setReg_ne _ _ _ _ hloc.symm))

/-- A write of the place of a ring that is not enabled is taken. -/
theorem ringConfigWrite_loc (hen : bitOf (s.reg (R.ringCtrl n)) 31 = false) (hesize : bitsOf (s.reg (R.ringCtrl n)) 16 8 = (ringReset n).2.2.1) :
    (ringConfigWrite s n false w).st = ringLaidOut s n (mergeBits (s.reg (R.ringLoc n)) w 0x0FFF0FFF#32) (s.reg (R.ringCtrl n)) := by
  simp [ringConfigWrite, ringLayoutWrite, ringLaidOut, hen, hesize]

/-- The place of a ring is free: it lies in ring memory, is large enough for an entry, and no enabled ring shares a word of it. -/
def ringPlaced (s : State) (n : Nat) : Prop :=
  (∀ k, k < 64 → k ≠ n → s.flag (R.ringCtrl_EN k) = true → overlap (ringBase s n) (ringSize s n) (ringBase s k) (ringSize s k) = false)
  ∧ ringBase s n + ringSize s n ≤ 65536 ∧ (if (ringReset n).2.2.1 = 0 then 272 else (ringReset n).2.2.1) ≤ ringSize s n

/-- Nothing refuses to enable a ring whose place is free. -/
theorem ringPlaced_taken (h : ringPlaced s n) :
    ¬ (((List.range 64).any fun m => m != n && s.flag (R.ringCtrl_EN m) && overlap (ringBase s n) (ringSize s n) (ringBase s m) (ringSize s m)) = true ∨
      65536 < ringBase s n + ringSize s n ∨ ringSize s n < (ringReset n).2.2.1 ∨ ((ringReset n).2.2.1 = 0 ∧ ringSize s n < 272)) := by
  obtain ⟨hfree, hinside, hlarge⟩ := h
  rintro (hclash | hbad)
  · obtain ⟨k, hk, hclash⟩ := List.any_eq_true.mp hclash
    simp only [Bool.and_eq_true, bne_iff_ne] at hclash
    obtain ⟨⟨hne, hen⟩, hover⟩ := hclash
    exact absurd hover (by simp [hfree k (List.mem_range.mp hk) hne hen])
  · split at hlarge <;> omega

/-- A write of a ring's control word is taken that sets EN only where the ring's place is free; one that clears EN empties the ring. -/
theorem ringConfigWrite_ctrl (hesize : bitsOf w 16 8 = (ringReset n).2.2.1)
    (hplace : bitOf (s.reg (R.ringCtrl n)) 31 = false → bitOf w 31 = true → ringPlaced s n) :
    (ringConfigWrite s n true w).st = ringLaidOut (if bitOf (s.reg (R.ringCtrl n)) 31 && !bitOf w 31 then ringClear s n else s) n
      (s.reg (R.ringLoc n)) (mergeBits (s.reg (R.ringCtrl n)) w (ringCtrlMask n)) := by
  have hen : bitOf (mergeBits (s.reg (R.ringCtrl n)) w (ringCtrlMask n)) 31 = bitOf w 31 := bitOf_mergeBits (ringCtrlMask_en n)
  have hsize : bitsOf (mergeBits (s.reg (R.ringCtrl n)) w (ringCtrlMask n)) 16 8 = (ringReset n).2.2.1 :=
    (bitsOf_mergeBits (by decide) (ringCtrlMask_esize n)).trans hesize
  have hmask : (if ((decide (16 ≤ n) && decide (n ≤ 19)) || decide (60 ≤ n)) = true then 0xE0FFFFFF#32 else 0x80FFFFFF#32) = ringCtrlMask n := by
    simp [ringCtrlMask]
  have hset : ¬ (bitOf w 31 = true ∧ (!bitOf (s.reg (R.ringCtrl n)) 31) = true ∧ _) := fun ⟨hnew, hold, hbad⟩ =>
    ringPlaced_taken (hplace (by simpa using hold) hnew) hbad
  simp only [ringConfigWrite, ringLayoutWrite, if_true, hmask, hen, hsize]
  exact congrArg Res.st ((if_neg (not_not.mpr rfl)).trans ((if_neg hset).trans (if_neg fun hmoved => hmoved.2.2 rfl)))

end

/-- Of the command interface, emptying a ring changes its entries alone. -/
theorem ringClear_cmd (s : State) (n : Nat) : (ringClear s n).cmd = { s.cmd with ents := tblPut s.cmd.ents n [] [] } := ringSetEnts_cmd ..

/-! ### The losses of a ring (R103, R109) -/

/-- Losses that stand, told by an event 253 of which the ring's rate allows one: they are kept no longer. -/
theorem ring253_tells {s : State} {n : Nat} (hlost : tblGet s.cmd.lost253 n 0 ≠ 0) (hopen : rateOpen s 253 n (10 * msTicks) = true) :
    ring253 s n = (rateMark (s.withCmd { s.cmd with lost253 := tblPut s.cmd.lost253 n 0 0 }) 253 n).raise 253 n (wd (tblGet s.cmd.lost253 n 0)) := by
  simp only [ring253, if_neg hlost, hopen]
  rfl

theorem ring253_told {s : State} {n : Nat} (hlost : tblGet s.cmd.lost253 n 0 ≠ 0) (hopen : rateOpen s 253 n (10 * msTicks) = true) :
    tblGet (ring253 s n).cmd.lost253 n 0 = 0 ∧
      (ring253 s n).evt.occ = s.evt.occ ++ [{ ev := 253, inst := n, detail := wd (tblGet s.cmd.lost253 n 0) }] := by
  rw [ring253_tells hlost hopen]
  exact ⟨tblGet_put_same s.cmd.lost253 n 0 0, rfl⟩

/-! ### Transfers of a peripheral SPI port (R111) -/

/-- `SPI.PXFER` once a write with GO has started a transfer: its RW fields taken, DONE cleared where it is written as one, BUSY set. -/
def pspiStarted (old w : Word) : Word :=
  (if bitOf w 29 then mergeBits old w 0x000F001F#32 &&& ~~~0x20000000#32 else mergeBits old w 0x000F001F#32) ||| 0x40000000#32

theorem pspiStarted_busy (old w : Word) : bitOf (pspiStarted old w) 30 = true := by
  simp [pspiStarted, bitOf]

/-- DONE and BUSY lie apart from COUNT, which is taken from the word written. -/
theorem pspiStarted_count (old w : Word) : bitsOf (pspiStarted old w) 0 5 = bitsOf w 0 5 := by
  have hmerge : bitsOf (mergeBits old w 0x000F001F#32) 0 5 = bitsOf w 0 5 := bitsOf_mergeBits (by decide) (by decide)
  rw [pspiStarted, bitsOf_or_apart (by decide) (by decide)]
  split
  · rw [bitsOf_andNot_apart (by decide) (by decide), hmerge]
  · exact hmerge

section

variable {s : State} {n : Nat} {w : Word}

/-- A transfer of 1 to 16 words starts on a port that is clocked and does not run one. -/
theorem pspiXferWrite_starts (hgo : bitOf w 31 = true) (hclk : pspiClocked s n = true) (hlo : 0 < bitsOf w 0 5) (hhi : bitsOf w 0 5 ≤ 16)
    (hidle : s.flag (R.spiPxfer_BUSY n) = false) :
    (pspiXferWrite s n w).st = s.setReg (R.spiPxfer n) (pspiStarted (s.reg (R.spiPxfer n)) w) := by
  simp [pspiXferWrite, pspiStarted, hgo, hclk, hidle, Nat.ne_of_gt hlo, Nat.not_lt.mpr hhi]

/-- A port's words are stored in the order they were received. -/
def pspiStored (s : State) (n : Nat) (rx : List Word) (k : Nat) : State :=
  (List.range k).foldl (fun t i => t.setReg (R.spiPdata n i) (pspiWord (s.fld (R.spiPcfg_WLEN n)) (nth rx i 0#32))) s

theorem pspiStored_data (s : State) (n : Nat) (rx : List Word) {k i : Nat} (h : i < k) :
    (pspiStored s n rx k).reg (R.spiPdata n i) = pspiWord (s.fld (R.spiPcfg_WLEN n)) (nth rx i 0#32) := by
  induction k with
  | zero => omega
  | succ m ih =>
    rw [pspiStored, List.range_succ, List.foldl_concat, State.reg_setReg]
    split
    case isTrue he =>
      have hi : m = i := by
        simp only [R.spiPdata] at he
        omega
      rw [hi]
    case isFalse hne =>
      have hi : m ≠ i := fun he => hne (he ▸ rfl)
      exact ih (by omega)

theorem pspiStored_regsIn (s : State) (n : Nat) (rx : List Word) (k : Nat) :
    RegsIn (fun a => ∃ i, i < k ∧ a = R.spiPdata n i) s (pspiStored s n rx k) :=
  RegsIn.foldl (fun _ i hi => .setReg _ ⟨i, List.mem_range.mp hi, rfl⟩) s

theorem pspiStored_evt (s : State) (n : Nat) (rx : List Word) (k : Nat) : (pspiStored s n rx k).evt = s.evt :=
  foldl_keep (fun t i => State.setReg t (R.spiPdata n i) (pspiWord (s.fld (R.spiPcfg_WLEN n)) (nth rx i 0#32))) State.evt (fun _ _ => rfl) _ s

end

/-- The registers after a transfer was started: BUSY and COUNT stand in `SPI.PXFER`. -/
theorem pspiStarted_shown {s : State} {n : Nat} (old w : Word) (t : State) (ht : t = s.setReg (R.spiPxfer n) (pspiStarted old w)) :
    t.flag (R.spiPxfer_BUSY n) = true ∧ t.fld (R.spiPxfer_COUNT n) = bitsOf w 0 5 := by
  have hword : t.reg (R.spiPxfer n) = pspiStarted old w := ht ▸ State.reg_setReg_same ..
  refine ⟨?_, ?_⟩
  · rw [State.flag, State.fld, R.spiPxfer_BUSY, hword, flag_eq_bitOf _ (i := 30) (by decide), pspiStarted_busy]
  · rw [State.fld, R.spiPxfer_COUNT, hword, pspiStarted_count]

/-- A port once its transfer has ended: BUSY clear, DONE set, event 255 told. -/
def pspiEnded (u : State) (n : Nat) : State :=
  ((u.setFlag (R.spiPxfer_BUSY n) false).setFlag (R.spiPxfer_DONE n) true).raise 255 (1 + n) 4#32

theorem pspiEnded_flags (u : State) (n : Nat) :
    (pspiEnded u n).flag (R.spiPxfer_BUSY n) = false ∧ (pspiEnded u n).flag (R.spiPxfer_DONE n) = true := by
  have hdone : (R.spiPxfer_DONE n).lo + (R.spiPxfer_DONE n).w ≤ 32 := by simp [R.spiPxfer_DONE]
  have hbusy : (R.spiPxfer_BUSY n).lo + (R.spiPxfer_BUSY n).w ≤ 32 := by simp [R.spiPxfer_BUSY]
  have hapart : (R.spiPxfer_DONE n).lo + (R.spiPxfer_DONE n).w ≤ (R.spiPxfer_BUSY n).lo := by simp [R.spiPxfer_DONE, R.spiPxfer_BUSY]
  rw [pspiEnded, State.raise_flag, State.raise_flag]
  refine ⟨?_, State.flag_setFlag_same _ _ _ hdone rfl⟩
  rw [State.flag_setFlag_apart _ (R.spiPxfer_DONE n) (R.spiPxfer_BUSY n) _ rfl hbusy (.inl hapart), State.flag_setFlag_same _ _ _ hbusy rfl]

theorem pspiEnded_regsIn (u : State) (n : Nat) : RegsIn (· = R.spiPxfer n) u (pspiEnded u n) :=
  ((RegsIn.setFlag (P := (· = R.spiPxfer n)) u (R.spiPxfer_BUSY n) false rfl).trans (.setFlag _ (R.spiPxfer_DONE n) true rfl)).trans
    (.of_regs (State.raise_regs ..))

theorem pspiEnded_occ (u : State) (n : Nat) : (pspiEnded u n).evt.occ = u.evt.occ ++ [{ ev := 255, inst := 1 + n, detail := 4#32 }] := rfl

/-- At the end of a transfer its words stand in PDATA, and the port shows it. -/
theorem pspiDone_ends {s : State} {n : Nat} (rx : List Word) (hbusy : s.flag (R.spiPxfer_BUSY n) = true) (hcount : s.fld (R.spiPxfer_COUNT n) ≤ 16) :
    pspiDone s n rx = pspiEnded (pspiStored s n rx (s.fld (R.spiPxfer_COUNT n))) n := by
  simp only [pspiDone, hbusy, Nat.min_eq_right hcount]
  rfl

/-- Settles O6, register by register. -/
theorem ringAndSpiRegisters : Obligations.Ring_And_Spi_Registers := by
  refine ⟨?loc, ?ctrl, ?enable, ?disable, ?losses, ?start, ?done, ?irqcfg⟩
  case loc =>
    intro s n w hen hesize
    refine ⟨_, congrArg Host.Outcome.next (ringConfigWrite_loc hen hesize), ringLaidOut_loc .., ringLaidOut_ctrl .., rfl, rfl, rfl, ?_⟩
    exact fun a hloc hctl hstat hhstat => ringLaidOut_reg_ne _ _ hloc hctl hstat hhstat
  case ctrl =>
    rintro s n w m hsame hesize rfl
    have htaken := ringConfigWrite_ctrl (s := s) hesize fun hclear hset => by simp [hsame, hclear] at hset
    rw [if_neg (by simp [hsame])] at htaken
    refine ⟨_, congrArg Host.Outcome.next htaken, ringLaidOut_ctrl .., rfl, rfl, rfl, fun a hctl hstat hhstat => ?_⟩
    by_cases hloc : a = R.ringLoc n.val
    · rw [hloc, ringLaidOut_loc]
    · exact ringLaidOut_reg_ne _ _ hloc hctl hstat hhstat
  case enable =>
    intro s n w hclear hset hesize hfree hinside hlarge
    have htaken := ringConfigWrite_ctrl (s := s) hesize fun _ _ => ⟨hfree, hinside, hlarge⟩
    rw [if_neg (by simp [hclear])] at htaken
    refine ⟨_, congrArg Host.Outcome.next htaken, ?_, rfl, rfl⟩
    rw [ringEnabled_eq, ringLaidOut_ctrl, bitOf_mergeBits (ringCtrlMask_en _), hset]
  case disable =>
    intro s n w hset hclear hesize
    have htaken := ringConfigWrite_ctrl (s := s) hesize fun hold => by simp [hset] at hold
    rw [if_pos (by simp [hset, hclear])] at htaken
    have hents := congrArg CmdS.ents (ringClear_cmd s n.val)
    have hmem := congrArg CmdS.mem (ringClear_cmd s n.val)
    refine ⟨_, congrArg Host.Outcome.next htaken, ?_, ?_, hmem, fun k hk => ?_⟩
    · rw [ringEnabled_eq, ringLaidOut_ctrl, bitOf_mergeBits (ringCtrlMask_en _), hclear]
    · exact (congrArg (tblGet · n.val []) hents).trans (tblGet_put_same s.cmd.ents n.val [] [])
    · exact (congrArg (tblGet · k []) hents).trans (tblGet_put_ne s.cmd.ents n.val k [] [] [] hk.symm)
  case losses =>
    intro s n hlost
    refine ⟨fun hfirst => ?_, fun t0 hlast hopen => ?_⟩
    · have hopen : rateOpen s 253 n.val (10 * msTicks) = true := by simp [rateOpen, hfirst]
      have hexec : exec (.ringOverflowReport n) s = .next (ring253 s n.val) := by
        show Host.Outcome.next _ = _
        simp only [hfirst]
      obtain ⟨hkept, hocc⟩ := ring253_told hlost hopen
      exact ⟨_, hexec, hkept, hocc, ring253_regs ..⟩
    · have hexec : exec (.ringOverflowReport n) s = .next (ring253 (s.at (t0 + tk (10 * msTicks))) n.val) := by
        show Host.Outcome.next _ = _
        simp only [hlast]
      have hcmd : (s.at (t0 + tk (10 * msTicks))).cmd = s.cmd := State.at_keeps_field State.cmd (fun _ _ => rfl) _ _
      rw [← hcmd] at hlost
      obtain ⟨hkept, hocc⟩ := ring253_told hlost hopen
      rw [State.at_evt, hcmd] at hocc
      exact ⟨_, hexec, (CmdOnly.ring253 _ _).dt, hkept, hocc, (ring253_regs ..).trans (State.at_regs ..)⟩
  case start =>
    intro s n w hclk hlo hhi hidle
    have hcount : bitsOf (w ||| 0x80000000#32) 0 5 = bitsOf w 0 5 := bitsOf_or_apart (by decide) (by decide)
    have hstarts := pspiXferWrite_starts (s := s) (n := n.val) (w := w ||| 0x80000000#32) (by simp [bitOf]) hclk (by omega) (by omega) hidle
    obtain ⟨hbusy, hshown⟩ := pspiStarted_shown _ _ _ hstarts
    refine ⟨_, rfl, hbusy, hshown.trans hcount, ?_⟩
    rw [hstarts]
    exact ⟨fun a ha => State.reg_setReg_ne _ _ _ _ ha.symm, rfl, rfl⟩
  case done =>
    intro s n rx hbusy hcount
    have hends := pspiDone_ends rx hbusy hcount
    obtain ⟨hidle, hdone⟩ := pspiEnded_flags (pspiStored s n.val rx (s.fld (R.spiPxfer_COUNT n.val))) n.val
    have hflags := pspiEnded_regsIn (pspiStored s n.val rx (s.fld (R.spiPxfer_COUNT n.val))) n.val
    have hapart (i : Nat) : R.spiPdata n.val i ≠ R.spiPxfer n.val := by
      simp only [R.spiPdata, R.spiPxfer]
      omega
    refine ⟨_, congrArg Host.Outcome.next hends, hidle, hdone, fun i hi => ?_, fun a hxfer hdata => ?_, ?_⟩
    · exact (hflags _ (hapart i)).trans (pspiStored_data s n.val rx hi)
    · exact (hflags a hxfer).trans (pspiStored_regsIn s n.val rx _ a fun ⟨i, hi, he⟩ => hdata i hi he)
    · rw [pspiEnded_occ, pspiStored_evt]
  case irqcfg => exact fun _ _ => rfl

end Sys2Proof.Machine
end

section
/-! PROOF. O49, every command completes and leaves the queue of waiting commands as it is: a rule for each shape a command's meaning has, the
operations that act on Husk, then every command by the frame of its operation (`Sys2Proof/Laws/FrameOps.lean` and the files after it). -/

namespace Sys2Proof.Machine

open Sys2Proof

/-- A command that completes in every state and leaves the queue of waiting commands as it is. -/
def Completes (c : Instr) : Prop := ∀ s, ∃ t, exec c s = .next t ∧ t.pending = s.pending

/-! ### One rule for each shape of a meaning -/

section

variable {c : Instr} {f : State → State}

/-- A command that is one operation, known to leave the queue. -/
theorem completes_of_pending (hc : ∀ s, exec c s = .next (f s)) (hf : ∀ s, (f s).pending = s.pending) : Completes c :=
  fun s => ⟨f s, hc s, hf s⟩

/-- A command that is one operation with a frame. -/
theorem completes_next (hc : ∀ s, exec c s = .next (f s)) (hf : ∀ s, (f s).queueHusk = s.queueHusk) : Completes c :=
  completes_of_pending hc fun s => pending_of_keeps (hf s)

/-- A command that does nothing where its guard fails. -/
theorem completes_guarded {p : State → Prop} [∀ s, Decidable (p s)] (hc : ∀ s, exec c s = .next (if p s then f s else s))
    (hf : ∀ s, (f s).queueHusk = s.queueHusk) : Completes c :=
  completes_next hc fun s => keeps_ite (hf s) rfl

/-- A write of a register of a block. -/
theorem completes_regRow {a : Nat} {x : State → Res} (hc : ∀ s, exec c s = .next (regRowWrite s a (x s)))
    (hx : ∀ s, (x s).st.queueHusk = s.queueHusk) : Completes c :=
  completes_next hc fun s => regRowWrite_keeps (hx s) rfl

/-- A request that Reed executes. -/
theorem completes_reed {r : Request} {form : Bool} {op : State → Res} (hc : ∀ s, exec c s = .next (serveReed r s form op))
    (hop : ∀ s, (op s).st.queueHusk = s.queueHusk) : Completes c :=
  completes_next hc fun s => serveReed_keeps _ _ _ _ (hop s)

/-- A request that the register engine executes. -/
theorem completes_reg {r : Request} {form : Bool} {op : State → Res} (hc : ∀ s, exec c s = .next (serveReg r s form op))
    (hop : ∀ s, (op s).st.queueHusk = s.queueHusk) : Completes c :=
  completes_next hc fun s => serveReg_keeps _ _ _ _ (hop s)

end

/-! ### The operations that act on Husk's state leave the queue -/

theorem pending_ite {c : Prop} [Decidable c] {s t u : State} (ht : t.pending = s.pending) (hu : u.pending = s.pending) :
    (if c then t else u).pending = s.pending := by
  split
  · exact ht
  · exact hu

section

variable (s : State)

theorem huskOff_pending : (huskOff s).pending = s.pending := by
  have henable : (huskEnable s false).pending = s.pending := pending_of_keeps (huskEnable_keeps s false)
  exact henable

theorem huskLock_pending (bit : Nat) : (huskLock s bit).pending = s.pending := pending_ite rfl (huskOff_pending _)

theorem huskContFault_pending (n : Nat) : (huskContFault s n).pending = s.pending := pending_ite (huskLock_pending s 8) rfl

theorem huskExpire_pending (n : Nat) : (huskExpire s n).pending = s.pending := by
  unfold huskExpire
  split
  · exact pending_ite rfl (huskContFault_pending _ n)
  · rfl

theorem huskSee_pending (n : Nat) (closed : Bool) (t : Tick) : (huskSee s n closed t).pending = s.pending := by
  unfold huskSee
  refine pending_ite rfl (pending_ite rfl ?_)
  split
  · exact pending_ite (huskExpire_pending s n) (pending_ite rfl rfl)
  · exact huskContFault_pending _ n

theorem contFeedback_pending (n : Nat) (closed : Bool) (t : Tick) : (contFeedback s n closed t).pending = s.pending :=
  (huskSee_pending _ n closed t).trans (pending_of_keeps (keeps_ite (contSee_keeps ..) rfl))

theorem huskSto_pending : (huskSto s).pending = s.pending :=
  pending_ite rfl (pending_ite (huskOff_pending _) (pending_ite (huskOff_pending _) rfl))

theorem stoChange_pending (view : Nat) (a b : StoLevel) : (stoChange s view a b).pending = s.pending :=
  pending_ite rfl (pending_ite rfl (pending_ite (huskSto_pending _) rfl))

theorem stoDiscrepancy_pending (husk : Bool) : (stoDiscrepancy s husk).pending = s.pending := by
  refine pending_ite (pending_ite (huskLock_pending s 2) rfl) ?_
  split
  · exact pending_ite rfl (pending_of_keeps ((State.raise_keeps ..).trans (scribeLatch_keeps ..)))
  · rfl

theorem xcheckTimeout_pending (husk : Bool) : (xcheckTimeout s husk).pending = s.pending :=
  pending_ite (pending_ite rfl (huskLock_pending s 7))
    (pending_ite rfl (pending_ite rfl (pending_of_keeps ((State.raise_keeps ..).trans (scribeLatch_keeps ..)))))

theorem backstop_pending : (backstop s).pending = s.pending := by
  refine pending_ite rfl ?_
  split
  · exact pending_ite (huskOff_pending _) (huskLock_pending s 15)
  · exact huskLock_pending s 15

theorem huskAct_pending (f : List Word) : (huskAct s f).pending = s.pending := by
  unfold huskAct
  extract_lets w1 mode h0 s0 h
  have hs0 : s0.pending = s.pending := 
    pending_ite (pending_ite ((pending_of_keeps (safeCfgFault_keeps ..)).trans rfl) rfl) (pending_ite rfl rfl)
  clear_value s0
  exact pending_ite hs0 (pending_ite hs0 (pending_ite (pending_ite hs0 hs0) (pending_ite ((huskOff_pending _).trans hs0)
    (pending_ite (pending_ite ((huskOff_pending _).trans hs0) hs0) (pending_ite (pending_ite hs0 hs0) (pending_ite hs0 hs0))))))

theorem huskCompare_pending (f : List Word) : (huskCompare s f).pending = s.pending := pending_ite (huskLock_pending _ 7) rfl

theorem huskReceive_pending (ok : Bool) : (huskReceive s ok).pending = s.pending := by
  unfold huskReceive
  split
  · rfl
  · extract_lets old s0 init s1
    have hs1 : s1.pending = s.pending := (huskAct_pending _ _).trans (pending_of_keeps (huskContactors_keeps ..))
    exact pending_ite rfl (pending_ite hs1 ((huskCompare_pending _ _).trans hs1))

end

/-! ### Commands with a shape of their own -/

theorem crystalWaitExpiry_completes : Completes .crystalWaitExpiry :=
  completes_next (fun _ => rfl) fun s =>
    keeps_ite rfl (keeps_ite (clkStart_keeps s 1) (keeps_ite (withClk_keeps ..) (clkStart_keeps s 2)))

theorem configBlocksApply_completes : Completes .configBlocksApply := by
  refine completes_next (fun _ => rfl) fun s => ?_
  cases s.boot.load with
  | none => exact keeps_ite (bootApply_keeps s) rfl
  | some x => exact loadApply_keeps s x.1 x.2

theorem mapCamRestore_completes : Completes .mapCamRestore :=
  completes_guarded (fun _ => rfl) fun _ => (withBoot_keeps ..).trans
    (keeps_foldl (fun t e => camRestore_keeps t e) (keeps_foldl (fun t e => mapRestore_keeps t e) rfl))

theorem muxForcedSwitch_completes : Completes .muxForcedSwitch := by
  refine completes_next (fun _ => rfl) fun s => ?_
  cases s.clk.switching with
  | none => rfl
  | some x => exact (tbSettle_keeps ..).trans (clkSwitched_keeps s x.1 x.2 true)

theorem requestDispatch_completes : Completes .requestDispatch := by
  refine completes_guarded (fun _ => rfl) fun s => ?_
  cases nextRing s with
  | none => rfl
  | some p => exact keeps_ite rfl (dispatchOne_keeps s p)

theorem fwStageTimeout_completes : Completes .fwStageTimeout := by
  refine completes_next (fun _ => rfl) fun s => ?_
  cases s.boot.stage with
  | none => rfl
  | some x => exact keeps_ite rfl (fwAbandon_keeps s 5)

/-- An accepted DORMANT saves the kept counters and lets HRDY fall (R141). -/
theorem dormant_completes (r : Request) : Completes (.dormant r) := by
  refine completes_next (fun _ => rfl) fun s => ?_
  have hserved : (serveReed r s (r.target == 0 && r.params.isEmpty) (opDormant r)).queueHusk = s.queueHusk :=
    serveReed_keeps _ _ _ _ (opDormant_keeps r s)
  refine keeps_ite ?_ hserved
  exact (withReed_keeps ..).trans ((withPhase_keeps ..).trans ((hrdyUpdate_keeps ..).trans ((keepFlush_keeps ..).trans hserved)))

theorem swardRoute_completes (r : Request) : Completes (.swardRoute r) := by
  refine completes_next (fun _ => rfl) fun s => keeps_ite ?_ (serveReed_keeps _ _ _ _ (opSwardRoute_keeps r s))
  have hreply (x : Res) : (swRouteReply r x).queueHusk = x.st.queueHusk :=
    keeps_ite (respond_keeps r x) ((withSward_keeps ..).trans (portHeld_keeps x.st r))
  exact (hreply _).trans (opSwardRoute_keeps r s)

theorem ringOverflowReport_completes (n : Fin 64) : Completes (.ringOverflowReport n) := by
  refine completes_next (fun _ => rfl) fun s => ?_
  cases rateLast s 253 n.val with
  | none => exact ring253_keeps s n.val
  | some t => exact (ring253_keeps ..).trans (State.at_keeps ..)

theorem encoderEdge_completes (n : Fin 16) (a b : Bool) (edge : LineEdge) : Completes (.encoderEdge n a b edge) := by
  refine completes_next (fun _ => rfl) fun s => ?_
  have hhusk : (huskEdge (s.at edge.t) n.val a b).queueHusk = s.queueHusk := (huskEdge_keeps ..).trans (State.at_keeps ..)
  exact keeps_ite hhusk ((encEdge_keeps ..).trans hhusk)

/-! ### Every command -/

/-- Every command completes: one row a command. -/
theorem every_completes (c : Instr) : Completes c := by
  cases c with
  -- the start of the device and its clocks
  | resetRelease => exact completes_guarded (fun _ => rfl) fun _ => resetRelease_keeps ..
  | supplyMonitorReset => exact completes_next (fun _ => rfl) fun _ => coreReset_keeps ..
  | crystalWaitExpiry => exact crystalWaitExpiry_completes
  | firmwareBankLoaded => exact completes_guarded (fun _ => rfl) fun _ => firmwareLoaded_keeps ..
  | configBlocksApply => exact configBlocksApply_completes
  | mapCamRestore => exact mapCamRestore_completes
  | commandReady => exact completes_guarded (fun _ => rfl) fun _ => commandReady_keeps ..
  | wake => exact completes_next (fun _ => rfl) fun _ => wake_keeps ..
  | sourceMissingEdge => exact completes_guarded (fun _ => rfl) fun _ => (clkFail_keeps ..).trans ((clkEdge_keeps ..).trans (clkSetAlive_keeps ..))
  | sourceFrequencyFail => exact completes_guarded (fun _ => rfl) fun _ => clkFail_keeps ..
  | sourceQualified => exact completes_guarded (fun _ => rfl) fun _ => (clkQualified_keeps ..).trans (clkEdge_keeps ..)
  | muxForcedSwitch => exact muxForcedSwitch_completes
  | pllLock => exact completes_next (fun _ => rfl) fun _ => (tbSettle_keeps ..).trans (pllLocked_keeps ..)
  | pllLockLoss => exact completes_next (fun _ => rfl) fun _ => pllLost_keeps ..
  | delayLineCalibrated => exact completes_guarded (fun _ => rfl) fun _ => (tbSettle_keeps ..).trans (State.setFlag_keeps ..)
  | delayLineSwap => exact completes_guarded (fun _ => rfl) fun _ => withClk_keeps ..
  | rcTrimMeasure => exact completes_next (fun _ => rfl) fun _ => trimMeasure_keeps ..
  | clockRevert => exact completes_guarded (fun _ => rfl) fun _ => clkRevert_keeps ..
  | clkCtrlWrite => exact completes_next (fun _ => rfl) fun _ => clkCtrlWrite_keeps ..
  | clkSelWrite => exact completes_next (fun _ => rfl) fun _ => clkSelWrite_keeps ..
  | clkRctrimWrite => exact completes_next (fun _ => rfl) fun _ => clkRctrimWrite_keeps ..
  | clkGateWrite => exact completes_next (fun _ => rfl) fun _ => clkGateWrite_keeps ..
  -- the pace monitor and the passes
  | paceMeasurement => exact completes_next (fun _ => rfl) fun _ => paceMeasure_keeps ..
  | shedLevelRise => exact completes_next (fun _ => rfl) fun _ => shedRise_keeps ..
  | shedLevelFall => exact completes_next (fun _ => rfl) fun _ => shedFall_keeps ..
  | envelopeMeasurement => exact completes_next (fun _ => rfl) fun _ => envelopeMeasure_keeps ..
  | loopClrLate => exact completes_regRow (fun _ => rfl) fun _ => loopCtrlWrite_keeps ..
  | loopClrWorst => exact completes_regRow (fun _ => rfl) fun _ => loopCtrlWrite_keeps ..
  | frameBoundary => exact completes_next (fun _ => rfl) fun _ => frameBoundary_keeps ..
  | senseResultPost => exact completes_next (fun _ => rfl) fun _ => senseResultPost_keeps ..
  | passStart => exact completes_next (fun _ => rfl) fun _ => passStart_keeps ..
  | windingPass => exact completes_next (fun _ => rfl) fun _ => passRow_keeps ..
  | chopperPass => exact completes_next (fun _ => rfl) fun _ => passRow_keeps ..
  | steppingPass => exact completes_next (fun _ => rfl) fun _ => passRow_keeps ..
  | machinePass => exact completes_next (fun _ => rfl) fun _ => passRow_keeps ..
  | observerPass => exact completes_next (fun _ => rfl) fun _ => passRow_keeps ..
  | axisPass => exact completes_next (fun _ => rfl) fun _ => passRow_keeps ..
  | gearPass => exact completes_next (fun _ => rfl) fun _ => passRow_keeps ..
  | strokeTick => exact completes_next (fun _ => rfl) fun _ => passRow_keeps ..
  | filterPass => exact completes_next (fun _ => rfl) fun _ => passRow_keeps ..
  | probePass => exact completes_next (fun _ => rfl) fun _ => passRow_keeps ..
  | passCommit => exact completes_next (fun _ => rfl) fun _ => passCommit_keeps ..
  | linkSkipInstant => exact completes_next (fun _ => rfl) fun _ => linkSkip_keeps ..
  | passDeadline => exact completes_next (fun _ => rfl) fun _ => passDeadline_keeps ..
  | prechargeEnd => exact completes_next (fun _ => rfl) fun _ => prechargeEnd_keeps ..
  | rampEnd => exact completes_next (fun _ => rfl) fun _ => rampEnd_keeps ..
  | mtpaRebuild => exact completes_guarded (fun _ => rfl) fun _ => mtpaRequest_keeps ..
  -- carriers and the dispatcher
  | hostSpiCmdFrame => exact completes_guarded (fun _ => rfl) fun _ => hostCmdFrame_keeps ..
  | hostSpiFetchFrame => exact completes_guarded (fun _ => rfl) fun _ => hostFetchFrame_keeps ..
  | hostSpiStatusFrame => exact completes_guarded (fun _ => rfl) fun _ => hostStatusFrame_keeps ..
  | udpCommandDatagram => exact completes_guarded (fun _ => rfl) fun _ => carrierArrive_keeps ..
  | swardCommandFrame => exact completes_guarded (fun _ => rfl) fun _ => carrierArrive_keeps ..
  | canCommandFrame => exact completes_next (fun _ => rfl) fun _ => keeps_ite rfl (keeps_ite (carrierArrive_keeps ..) (State.cntSat_keeps ..))
  | requestDispatch => exact requestDispatch_completes
  | deferredReplySend => exact completes_next (fun _ => rfl) fun _ => deferredSend_keeps ..
  -- the opcodes of registers and contexts
  | nop => exact completes_reed (fun _ => rfl) fun _ => rfl
  | identify => exact completes_reed (fun _ => rfl) fun _ => rfl
  | readReg => exact completes_next (fun _ => rfl) fun _ => keeps_ite (holdSnap_keeps ..) (serveReg_keeps _ _ _ _ (opReadReg_keeps ..))
  | writeReg => exact completes_reg (fun _ => rfl) fun _ => opWriteReg_keeps ..
  | modifyReg => exact completes_reg (fun _ => rfl) fun _ => opModifyReg_keeps ..
  | readSnapshot => exact completes_next (fun _ => rfl) fun _ => keeps_ite (holdSnap_keeps ..) (serveReg_keeps _ _ _ _ (opReadSnapshot_keeps ..))
  | ctxCreate => exact completes_reed (fun _ => rfl) fun _ => opCtxCreate_keeps ..
  | ctxDelete => exact completes_reed (fun _ => rfl) fun _ => opCtxDelete_keeps ..
  | ctxBind => exact completes_reed (fun _ => rfl) fun _ => opCtxBind_keeps ..
  | ctxParam => exact completes_reed (fun _ => rfl) fun _ => opCtxParam_keeps ..
  | admitRq => exact completes_reed (fun _ => rfl) fun _ => opAdmit_keeps ..
  -- windings
  | groupState => exact completes_reed (fun _ => rfl) fun _ => opGroupState_keeps ..
  | windingEnable => exact completes_reed (fun _ => rfl) fun _ => opWindingEnable_keeps ..
  | windingDisable => exact completes_reed (fun _ => rfl) fun _ => opWindingDisable_keeps ..
  | identRun => exact completes_reed (fun _ => rfl) fun _ => opIdentRun_keeps ..
  | identDone => exact completes_next (fun _ => rfl) fun _ => identDone_keeps ..
  -- axes
  | move => exact completes_reed (fun _ => rfl) fun _ => opMove_keeps ..
  | moveNext => exact completes_reed (fun _ => rfl) fun _ => opMove_keeps ..
  | jog => exact completes_reed (fun _ => rfl) fun _ => opJog_keeps ..
  | halt => exact completes_reed (fun _ => rfl) fun _ => opStop_keeps ..
  | quickStop => exact completes_reed (fun _ => rfl) fun _ => opStop_keeps ..
  | resume => exact completes_reed (fun _ => rfl) fun _ => opResume_keeps ..
  | setLimits => exact completes_reed (fun _ => rfl) fun _ => opSetLimits_keeps ..
  | home => exact completes_reed (fun _ => rfl) fun _ => opHome_keeps ..
  | setPosition => exact completes_reed (fun _ => rfl) fun _ => opSetPosition_keeps ..
  | abortMove => exact completes_reed (fun _ => rfl) fun _ => opStop_keeps ..
  | homeTimeout => exact completes_next (fun _ => rfl) fun _ => homeTimeout_keeps ..
  -- gears, cams and strokes
  | gearEngage => exact completes_reed (fun _ => rfl) fun _ => opGearEngage_keeps ..
  | gearDisengage => exact completes_reed (fun _ => rfl) fun _ => opGearDisengage_keeps ..
  | gearRatio => exact completes_reed (fun _ => rfl) fun _ => opGearRatio_keeps ..
  | camLoadBegin => exact completes_reed (fun _ => rfl) fun _ => camLoad_keeps ..
  | camLoadData => exact completes_reed (fun _ => rfl) fun _ => camLoad_keeps ..
  | camLoadEnd => exact completes_reed (fun _ => rfl) fun _ => camLoad_keeps ..
  | strokeStart => exact completes_reed (fun _ => rfl) fun _ => opStrokeStart_keeps ..
  | strokeFeed => exact completes_reed (fun _ => rfl) fun _ => opStrokeFeed_keeps ..
  | strokeHold => exact completes_reed (fun _ => rfl) fun _ => opStrokeHold_keeps ..
  | strokeFlush => exact completes_reed (fun _ => rfl) fun _ => opStrokeFlush_keeps ..
  -- Inkwell
  | inkArm => exact completes_reed (fun _ => rfl) fun _ => opInkArm_keeps ..
  | inkForce => exact completes_reed (fun _ => rfl) fun _ => opInkForce_keeps ..
  | inkStop => exact completes_reed (fun _ => rfl) fun _ => opInkStop_keeps ..
  | inkRead => exact completes_reed (fun _ => rfl) fun _ => opInkRead_keeps ..
  | inkReadDone => exact completes_next (fun _ => rfl) fun _ => inkReadDone_keeps ..
  | inkAutoExpiry => exact completes_next (fun _ => rfl) fun _ => inkAutoExpiry_keeps ..
  | inkRecordComplete => exact completes_next (fun _ => rfl) fun _ => inkRecordComplete_keeps ..
  | inkInterfaceFailure => exact completes_next (fun _ => rfl) fun _ => inkFail_keeps ..
  | niblogTokenRefill => exact completes_next (fun _ => rfl) fun _ => withInk_keeps ..
  -- time, pulses and outputs
  | timeSet => exact completes_reed (fun _ => rfl) fun _ => opTimeSet_keeps ..
  | timeAdjustOffset => exact completes_reed (fun _ => rfl) fun _ => opTimeAdjust_keeps ..
  | timeAdjustRate => exact completes_reed (fun _ => rfl) fun _ => opTimeAdjust_keeps ..
  | timeSlewDone => exact completes_next (fun _ => rfl) fun _ => slewDone_keeps ..
  | pulseProgram => exact completes_reed (fun _ => rfl) fun _ => opPulse_keeps ..
  | pulseEdgeFix => exact completes_next (fun _ => rfl) fun _ => (pulseFix_keeps ..).trans (State.at_keeps ..)
  | fioSet => exact completes_reed (fun _ => rfl) fun _ => opFioSet_keeps ..
  | fioConfig => exact completes_reed (fun _ => rfl) fun _ => opFioConfig_keeps ..
  -- keep memory, configuration and firmware
  | keepWrite => exact completes_reed (fun _ => rfl) fun _ => opKeepWrite_keeps ..
  | keepWordRegWrite => exact completes_guarded (fun _ => rfl) fun _ => keepQueue_keeps ..
  | keepWritePersist => exact completes_next (fun _ => rfl) fun _ => keepPersist_keeps ..
  | keepHourlyCount => exact completes_guarded (fun _ => rfl) fun _ => keepBump_keeps ..
  | keepCounterFlush => exact completes_guarded (fun _ => rfl) fun _ => keepFlush_keeps ..
  | cfgSave => exact completes_reed (fun _ => rfl) fun _ => opCfgSave_keeps ..
  | cfgSaved => exact completes_next (fun _ => rfl) fun _ => cfgSaved_keeps ..
  | cfgLoad => exact completes_reed (fun _ => rfl) fun _ => opCfgLoad_keeps ..
  | fwStageBegin => exact completes_reed (fun _ => rfl) fun _ => opFwStageBegin_keeps ..
  | fwStageData => exact completes_reed (fun _ => rfl) fun _ => opFwStageData_keeps ..
  | fwStageEnd => exact completes_reed (fun _ => rfl) fun _ => opFwStageEnd_keeps ..
  | fwStageVerified => exact completes_next (fun _ => rfl) fun _ => fwStageVerified_keeps ..
  | fwStageTimeout => exact fwStageTimeout_completes
  | fwSwitchSwitch => exact completes_reed (fun _ => rfl) fun _ => opFwSwitch_keeps ..
  | fwSwitchConfirm => exact completes_reed (fun _ => rfl) fun _ => opFwConfirm_keeps ..
  | fwSwitchRevert => exact completes_reed (fun _ => rfl) fun _ => opFwRevert_keeps ..
  | fwSwitchScribe => exact completes_reed (fun _ => rfl) fun _ => opFwScribe_keeps ..
  | reedResume => exact completes_next (fun _ => rfl) fun _ => fwResume_keeps ..
  | fwSwitchAbandon => exact completes_next (fun _ => rfl) fun _ => fwSwitchAbandon_keeps ..
  | trialExpiry => exact completes_guarded (fun _ => rfl) fun _ => (fwFallback_keeps ..).trans (State.at_keeps ..)
  | calSwap => exact completes_reed (fun _ => rfl) fun _ => opCalSwap_keeps ..
  | dormant r => exact dormant_completes r
  | resetBlock => exact completes_reed (fun _ => rfl) fun _ => opResetBlock_keeps ..
  | moduleResetDelay => exact completes_guarded (fun _ => rfl) fun _ => coreReset_keeps ..
  -- the opcodes of the safety set, the networks and the rings
  | safeParamStage => exact completes_reed (fun _ => rfl) fun _ => opSafeStage_keeps ..
  | safeParamConfirm => exact completes_next (fun _ => rfl) fun _ => safeConfirm_keeps ..
  | safeAck => exact completes_reed (fun _ => rfl) fun _ => opSafeAck_keeps ..
  | swardRoute r => exact swardRoute_completes r
  | swardJoin => exact completes_reed (fun _ => rfl) fun _ => opSwardJoin_keeps ..
  | swardLeave => exact completes_reed (fun _ => rfl) fun _ => opSwardLeave_keeps ..
  | sheafRole => exact completes_reed (fun _ => rfl) fun _ => opSheafRole_keeps ..
  | canTx => exact completes_reed (fun _ => rfl) fun _ => opCanTx_keeps ..
  | canCancel => exact completes_reed (fun _ => rfl) fun _ => opCanCancel_keeps ..
  | canScheduleStart => exact completes_reed (fun _ => rfl) fun _ => opCanSchedule_keeps ..
  | canScheduleStop => exact completes_reed (fun _ => rfl) fun _ => opCanSchedule_keeps ..
  | ringPop => exact completes_reed (fun _ => rfl) fun _ => opRingPop_keeps ..
  | ringPush => exact completes_reed (fun _ => rfl) fun _ => opRingPush_keeps ..
  | ringConfigWrite => exact completes_next (fun _ => rfl) fun _ => ringConfigWrite_keeps ..
  | ringOverflowReport n => exact ringOverflowReport_completes n
  | pspiTransferStart => exact completes_next (fun _ => rfl) fun _ => pspiXferWrite_keeps ..
  | pspiTransferDone => exact completes_next (fun _ => rfl) fun _ => pspiDone_keeps ..
  | spiIrqcfgWrite => exact completes_next (fun _ => rfl) fun _ => irqcfgWrite_keeps ..
  -- sensing
  | senseMclkWrite => exact completes_regRow (fun _ => rfl) fun _ => mclkWrite_keeps ..
  | senseCalScan => exact completes_regRow (fun _ => rfl) fun _ => calWrite_keeps ..
  | senseCalOffset => exact completes_regRow (fun _ => rfl) fun _ => calWrite_keeps ..
  | senseCalDone => exact completes_next (fun _ => rfl) fun _ => calDone_keeps ..
  | overcurrentTrip => exact completes_guarded (fun _ => rfl) fun _ => ocBits_keeps ..
  | modulatorLost => exact completes_next (fun _ => rfl) fun _ => lostBits_keeps ..
  | modulatorRecovered => exact completes_next (fun _ => rfl) fun _ => lostEnd_keeps ..
  -- the nib bank
  | nibEdgeCommit => exact completes_next (fun _ => rfl) fun _ => edgeCommit_keeps ..
  | nibGperWrite => exact completes_next (fun _ => rfl) fun _ => gperWrite_keeps ..
  | nibClearLatches => exact completes_next (fun _ => rfl) fun _ => clearLatches_keeps ..
  | nibGadjWrite => exact completes_next (fun _ => rfl) fun _ => gadjWrite_keeps ..
  | faultInputAssert => exact completes_next (fun _ => rfl) fun _ => keeps_ite rfl (faultInput_keeps ..)
  | huskEnableChange => exact completes_next (fun _ => rfl) fun _ => huskEnable_keeps ..
  | echoEdge => exact completes_next (fun _ => rfl) fun _ => (echoEdge_keeps ..).trans (State.at_keeps ..)
  | echoWindowEnd => exact completes_next (fun _ => rfl) fun _ => echoEnd_keeps ..
  | chopperPeriodStart => exact completes_next (fun _ => rfl) fun _ => chopNext_keeps ..
  | syncInEdge => exact completes_next (fun _ => rfl) fun _ => (syncIn_keeps ..).trans (State.at_keeps ..)
  | syncInLoss => exact completes_guarded (fun _ => rfl) fun _ => (syncLoss_keeps ..).trans (State.at_keeps ..)
  -- feedback and latch units
  | encoderEdge n a b edge => exact encoderEdge_completes n a b edge
  | zEdge => exact completes_next (fun _ => rfl) fun _ => keeps_ite rfl ((zEdge_keeps ..).trans (State.at_keeps ..))
  | ssiTransfer => exact completes_next (fun _ => rfl) fun _ => ssiTransfer_keeps ..
  | fdbkClr => exact completes_regRow (fun _ => rfl) fun _ => fbCtrlWrite_keeps ..
  | fdbkZarm => exact completes_regRow (fun _ => rfl) fun _ => fbCtrlWrite_keeps ..
  | latchArm => exact completes_regRow (fun _ => rfl) fun _ => latchCtrlWrite_keeps ..
  | latchDisarm => exact completes_regRow (fun _ => rfl) fun _ => latchCtrlWrite_keeps ..
  | latchEdge => exact completes_next (fun _ => rfl) fun _ => (latchPin_keeps ..).trans (State.at_keeps ..)
  | latchTimeCompare => exact completes_next (fun _ => rfl) fun _ => latchTime_keeps ..
  | latchWindowEnd => exact completes_next (fun _ => rfl) fun _ => latchEnd_keeps ..
  | latchCaptureComplete => exact completes_next (fun _ => rfl) fun _ => latchComplete_keeps ..
  -- the safety channels and the telegram
  | scribeCycle => exact completes_guarded (fun _ => rfl) fun _ => (scribeCycle_keeps ..).trans (State.at_keeps ..)
  | scribeXcheckFrame => exact completes_guarded (fun _ => rfl) fun _ => scribeReceive_keeps ..
  | huskXcheckFrame => exact completes_of_pending (fun _ => rfl) fun _ => huskReceive_pending ..
  | xcheckTimeout => exact completes_of_pending (fun _ => rfl) fun _ => xcheckTimeout_pending ..
  | stoInputChange => exact completes_of_pending (fun _ => rfl) fun _ => stoChange_pending ..
  | stoDiscrepancyExpiry => exact completes_of_pending (fun _ => rfl) fun _ => stoDiscrepancy_pending ..
  | ss1BackstopExpiry => exact completes_of_pending (fun _ => rfl) fun _ => backstop_pending ..
  | brkTExpiry => exact completes_next (fun _ => rfl) fun _ => brkExpiry_keeps ..
  | slsLevelEffective => exact completes_next (fun _ => rfl) fun _ => slsEffective_keeps ..
  | genSettleExpiry => exact completes_next (fun _ => rfl) fun _ => genSettle_keeps ..
  | contactorWindowExpiry => exact completes_of_pending (fun _ => rfl) fun _ => pending_ite (huskExpire_pending ..) (pending_of_keeps (contExpire_keeps ..))
  | contactorFeedbackChange => exact completes_of_pending (fun _ => rfl) fun _ => (contFeedback_pending ..).trans (pending_of_keeps (State.at_keeps ..))
  | safeTestPulse => exact completes_next (fun _ => rfl) fun _ => testPulse_keeps ..
  | huskReadbackTimeout => exact completes_of_pending (fun _ => rfl) fun _ => pending_ite (huskLock_pending ..) rfl
  | telegramCopy => exact completes_next (fun _ => rfl) fun _ => (telCopy_keeps ..).trans (State.at_keeps ..)
  | telegramWatchdogExpiry => exact completes_next (fun _ => rfl) fun _ => telWatchdog_keeps ..
  | telegramPathLoss => exact completes_next (fun _ => rfl) fun _ => pathLoss_keeps ..
  | huskCounterFault => exact completes_of_pending (fun _ => rfl) fun _ => pending_ite (huskLock_pending ..) rfl
  | singleChannelTimeout => exact completes_of_pending (fun _ => rfl) fun _ => pending_ite (huskLock_pending ..) rfl
  | huskSelfTestFailure => exact completes_of_pending (fun _ => rfl) fun _ => pending_ite (huskOff_pending ..) rfl
  | vhuskPowerUp => exact completes_of_pending (fun _ => rfl) fun _ => pending_ite rfl rfl
  | vhuskLoss => exact completes_of_pending (fun _ => rfl) fun _ => huskOff_pending ..
  | safeStageWrite => exact completes_next (fun _ => rfl) fun _ => safeStageWrite_keeps ..
  -- the field die
  | logicHeartbeatSend => exact completes_guarded (fun _ => rfl) fun _ => withField_keeps ..
  | fieldHeartbeatReceive => exact completes_next (fun _ => rfl) fun _ => fieldHeartbeat_keeps ..
  | logicHeartbeatReceive => exact completes_guarded (fun _ => rfl) fun _ => logicHeartbeat_keeps ..
  | fieldLinkTimeout => exact completes_next (fun _ => rfl) fun _ => linkTimeout_keeps ..
  | fieldSilenceExpiry => exact completes_next (fun _ => rfl) fun _ => silenceBegin_keeps ..
  | fieldInputEdge => exact completes_next (fun _ => rfl) fun _ => (fieldEdge_keeps ..).trans ((huskFollow_keeps ..).trans (State.at_keeps ..))
  | chatterWindowEnd => exact completes_next (fun _ => rfl) fun _ => chatterNext_keeps ..
  | outputOvercurrent => exact completes_next (fun _ => rfl) fun _ => outFault_keeps ..
  | outputThermal => exact completes_next (fun _ => rfl) fun _ => outFault_keeps ..
  | bankOvercurrent => exact completes_next (fun _ => rfl) fun _ => bankFault_keeps ..
  | vfieldMeasurement => exact completes_next (fun _ => rfl) fun _ => vfield_keeps ..
  -- Ethernet and time over it
  | ethFrameReceive => exact completes_next (fun _ => rfl) fun _ => (ethReceive_keeps ..).trans (State.at_keeps ..)
  | ethLinkChange => exact completes_next (fun _ => rfl) fun _ => ethLink_keeps ..
  | ethMdioAccess => exact completes_regRow (fun _ => rfl) fun _ => mdioWrite_keeps ..
  | ethMdioDone => exact completes_next (fun _ => rfl) fun _ => mdioDone_keeps ..
  | ptpOffsetSample => exact completes_next (fun _ => rfl) fun _ => (ptpSample_keeps ..).trans (State.at_keeps ..)
  | ptpSendInterval => exact completes_next (fun _ => rfl) fun _ => (ptpInterval_keeps ..).trans (State.at_keeps ..)
  | ptpHoldoverTimeout => exact completes_next (fun _ => rfl) fun _ => holdover_keeps ..
  | timebaseDiscipline => exact completes_next (fun _ => rfl) fun _ => discipline_keeps ..
  | timeCfgWrite => exact completes_regRow (fun _ => rfl) fun _ => timeCfgWrite_keeps ..
  | timeSnap => exact completes_regRow (x := fun s => { st := timeSnap s }) (fun _ => rfl) timeSnap_keeps
  -- CAN
  | canFrameReceive => exact completes_next (fun _ => rfl) fun _ => (canReceive_keeps ..).trans (State.at_keeps ..)
  | canTxDone => exact completes_next (fun _ => rfl) fun _ => canTxDone_keeps ..
  | canCtrlWrite => exact completes_regRow (fun _ => rfl) fun _ => canCtrlWrite_keeps ..
  | canRecover => exact completes_regRow (fun _ => rfl) fun _ => canCtrlWrite_keeps ..
  | canDominantTimeout => exact completes_next (fun _ => rfl) fun _ => canDominant_keeps ..
  | canCycleStart => exact completes_next (fun _ => rfl) fun _ => (canCycleStart_keeps ..).trans (State.at_keeps ..)
  | canReferenceReceive => exact completes_next (fun _ => rfl) fun _ => (canReference_keeps ..).trans (State.at_keeps ..)
  | canReferenceTimeout => exact completes_next (fun _ => rfl) fun _ => canRefTimeout_keeps ..
  | canWindowStart => exact completes_next (fun _ => rfl) fun _ => canWinStart_keeps ..
  | canWindowEnd => exact completes_next (fun _ => rfl) fun _ => canWinEnd_keeps ..
  | canWakeDetect => exact completes_next (fun _ => rfl) fun _ => canWakeDetect_keeps ..
  -- the Sward
  | swardFrameReceive => exact completes_next (fun _ => rfl) fun _ => (swReceive_keeps ..).trans (State.at_keeps ..)
  | swardTransmit => exact completes_next (fun _ => rfl) fun _ => (swTransmit_keeps ..).trans (State.at_keeps ..)
  | credReceive => exact completes_next (fun _ => rfl) fun _ => swCredit_keeps ..
  | credSend => exact completes_next (fun _ => rfl) fun _ => (swCredSend_keeps ..).trans (State.at_keeps ..)
  | helloReceive => exact completes_next (fun _ => rfl) fun _ => swHello_keeps ..
  | swardTrainingDone => exact completes_next (fun _ => rfl) fun _ => swTrained_keeps ..
  | leaveReceive => exact completes_next (fun _ => rfl) fun _ => swLeaveGot_keeps ..
  | swardLossOfSignal => exact completes_next (fun _ => rfl) fun _ => keeps_ite rfl (swDown_keeps ..)
  | swardSymbolErrorLimit => exact completes_next (fun _ => rfl) fun _ => swErrors_keeps ..
  | dreqSend => exact completes_next (fun _ => rfl) fun _ => (dreqSend_keeps ..).trans (State.at_keeps ..)
  | dreqReceive => exact completes_next (fun _ => rfl) fun _ => (dreqAnswer_keeps ..).trans (State.at_keeps ..)
  | drspReceive => exact completes_next (fun _ => rfl) fun _ => (drspTake_keeps ..).trans (State.at_keeps ..)
  | epochMarkReceive => exact completes_next (fun _ => rfl) fun _ => (ftMark_keeps ..).trans ((epochSeen_keeps ..).trans (State.at_keeps ..))
  | swardEpochBoundary => exact completes_next (fun _ => rfl) fun _ => (swEpoch_keeps ..).trans (State.at_keeps ..)
  | swardWaitDrop => exact completes_next (fun _ => rfl) fun _ => swWaitDrop_keeps ..
  | e2eRetransmitTimeout => exact completes_next (fun _ => rfl) fun _ => swResend_keeps ..
  | e2eAckSend => exact completes_next (fun _ => rfl) fun _ => swAckSend_keeps ..
  | streamForget => exact completes_next (fun _ => rfl) fun _ => swForget_keeps ..
  | eventFrameReceive => exact completes_guarded (fun _ => rfl) fun _ => eventFrame_keeps ..
  | swardNodeWrite => exact completes_next (fun _ => rfl) fun _ => swNodeWrite_keeps ..
  | swardResWrite => exact completes_regRow (fun _ => rfl) fun _ => swResWrite_keeps ..
  | swardHrxtailWrite => exact completes_next (fun _ => rfl) fun _ => hrxTailWrite_keeps ..
  -- the Sheaf
  | sheafEpoch => exact completes_next (fun _ => rfl) fun _ => sheafEpoch_keeps ..
  | sheafBeaconSend => exact completes_next (fun _ => rfl) fun _ => sheafBeaconSend_keeps ..
  | sheafBeaconReceive => exact completes_next (fun _ => rfl) fun _ => sheafBeacon_keeps ..
  | sheafStatusReceive => exact completes_next (fun _ => rfl) fun _ => sheafStatus_keeps ..
  | sheafDepartureTimeout => exact completes_next (fun _ => rfl) fun _ => sheafTimeout_keeps ..
  | linkDataReceive => exact completes_next (fun _ => rfl) fun _ => (linkData_keeps ..).trans (State.at_keeps ..)
  | mirrorReceive => exact completes_next (fun _ => rfl) fun _ => (mirrorTake_keeps ..).trans (State.at_keeps ..)
  | takeoverCheck => exact completes_next (fun _ => rfl) fun _ => takeover_keeps ..
  -- events, supplies, registers and resets
  | eventArbitration => exact completes_guarded (fun _ => rfl) fun _ => evtDrain_keeps ..
  | holdoffWindowEnd => exact completes_next (fun _ => rfl) fun _ => holdoffEnd_keeps ..
  | evtStatClear => exact completes_next (fun _ => rfl) fun _ => evtStatWrite_keeps ..
  | evtTest => exact completes_next (fun _ => rfl) fun _ => evtTestWrite_keeps ..
  | supplyMeasurement => exact completes_guarded (fun _ => rfl) fun _ => keeps_foldl (fun _ _ => railMeasure_keeps ..) rfl
  | caseTempMeasurement => exact completes_guarded (fun _ => rfl) fun _ => caseMeasure_keeps ..
  | registerWrite => exact completes_next (fun _ => rfl) fun _ => registerWrite_keeps ..
  | resetAssert => exact completes_next (fun _ => rfl) fun _ => coreReset_keeps ..
  | reedRestartComplete => exact completes_guarded (fun _ => rfl) fun _ => reedRestarted_keeps ..
  | sinc3Output => exact completes_next (fun _ => rfl) fun _ => sincOutput_keeps ..
  | canTxStart => exact completes_next (fun _ => rfl) fun _ => (canTxStart_keeps ..).trans (State.at_keeps ..)
  | canBusoffRecoveryDone => exact completes_next (fun _ => rfl) fun _ => canRecovered_keeps ..
  | canBusError => exact completes_next (fun _ => rfl) fun _ => canBusError_keeps ..

/-- Settles O49: every command is an operation, and every operation leaves the queue. -/
theorem everyCommandCompletes : Obligations.Every_Command_Completes := every_completes

end Sys2Proof.Machine
end

section
/-! PROOF. O13 and O53, keep memory: what a write that starts does, the two ways a write is put, what a write that is persistent leaves, and then the
commands. -/

namespace Sys2Proof.Machine

open Sys2Proof

/-! ### A write that starts (R129, R131) -/

/-- The registers that a write to keep word `n` shows in before it is persistent. -/
def keepShownReg (n a : Nat) : Prop := a = R.keepWear n ∨ a = R.keepStat

/-- A write that starts: the wear counter counts it, LAST and BUSY show it. -/
def keepCounted (s : State) (n : Nat) (v : Word) : State :=
  let t := ((s.setFld (R.keepWear_COUNT n) (satInc 20 (s.fld (R.keepWear_COUNT n)))).setFld R.keepStat_LAST n).setFlag R.keepStat_BUSY true
  t.withKeep { t.keep with busy := t.keep.busy ++ [(n, v)] }

/-- Event 20 of a worn word. -/
def keepToldWorn (s : State) (n count : Nat) : State := (s.withKeep { s.keep with told := n :: s.keep.told }).raise 20 n (wd count)

section

variable (s : State) (n : Nat) (v : Word)

/-- Everything a write that starts can do: it is counted, and a worn word is seen and told, told once. -/
theorem keepStart_cases :
    (keepStart s n v).1 = keepCounted s n v
    ∨ (keepStart s n v).1 = (keepCounted s n v).setFlag R.keepStat_WORN_SEEN true
    ∨ (keepStart s n v).1 = keepToldWorn ((keepCounted s n v).setFlag R.keepStat_WORN_SEEN true) n (satInc 20 (s.fld (R.keepWear_COUNT n))) := by
  unfold keepStart keepCounted keepToldWorn
  dsimp only
  split_ifs
  · exact .inl rfl
  · exact .inr (.inl rfl)
  · exact .inr (.inr rfl)

theorem keepStart_busy : (keepStart s n v).1.keep.busy = s.keep.busy ++ [(n, v)] := by
  rcases keepStart_cases s n v with h | h | h <;> rw [h] <;> rfl

theorem keepStart_wait : (keepStart s n v).1.keep.wait = s.keep.wait := by
  rcases keepStart_cases s n v with h | h | h <;> rw [h] <;> rfl

/-- A write that starts leaves every part of the machine but the registers, keep memory and the event unit. -/
theorem keepStart_leaves {γ : Type} (k : State → γ) (hreg : ∀ t a x, k (State.setReg t a x) = k t) (hkeep : ∀ t x, k (State.withKeep t x) = k t)
    (hevt : ∀ t x, k (State.withEvt t x) = k t) : k (keepStart s n v).1 = k s := by
  have hcount : k (keepCounted s n v) = k s := (hkeep _ _).trans ((hreg _ _ _).trans ((hreg _ _ _).trans (hreg _ _ _)))
  have hseen : k ((keepCounted s n v).setFlag R.keepStat_WORN_SEEN true) = k s := (hreg _ _ _).trans hcount
  rcases keepStart_cases s n v with h | h | h <;> rw [h]
  · exact hcount
  · exact hseen
  · exact (hevt _ _).trans ((hkeep _ _).trans hseen)

/-- A write that starts raises events behind those that wait. -/
theorem keepStart_occ : s.evt.occ <+: (keepStart s n v).1.evt.occ := by
  rcases keepStart_cases s n v with h | h | h <;> rw [h]
  · exact List.prefix_rfl
  · exact List.prefix_rfl
  · exact List.prefix_append _ _

theorem keepStart_regsIn : RegsIn (keepShownReg n) s (keepStart s n v).1 := by
  have hcount : RegsIn (keepShownReg n) s (keepCounted s n v) :=
    (((RegsIn.setFld s (R.keepWear_COUNT n) _ (.inl rfl)).trans (.setFld _ R.keepStat_LAST n (.inr rfl))).trans
      (.setFlag _ R.keepStat_BUSY true (.inr rfl))).trans (.of_regs (State.withKeep_regs ..))
  have hseen : RegsIn (keepShownReg n) s ((keepCounted s n v).setFlag R.keepStat_WORN_SEEN true) :=
    hcount.trans (.setFlag _ R.keepStat_WORN_SEEN true (.inr rfl))
  rcases keepStart_cases s n v with h | h | h <;> rw [h]
  · exact hcount
  · exact hseen
  · exact hseen.trans (.of_regs rfl)

theorem keepStart_flag_busy : (keepStart s n v).1.flag R.keepStat_BUSY = true := by
  have hcount : (keepCounted s n v).flag R.keepStat_BUSY = true := by
    rw [keepCounted, State.withKeep_flag, State.flag_setFlag_same _ R.keepStat_BUSY true (by decide) rfl]
  have hseen : ((keepCounted s n v).setFlag R.keepStat_WORN_SEEN true).flag R.keepStat_BUSY = true :=
    (State.flag_setFlag_apart _ R.keepStat_WORN_SEEN R.keepStat_BUSY true rfl (by decide) (by decide)).trans hcount
  rcases keepStart_cases s n v with h | h | h <;> rw [h]
  · exact hcount
  · exact hseen
  · rw [keepToldWorn, State.raise_flag, State.withKeep_flag, hseen]

end

/-! ### A write by the register engine or the device (R129, R132) -/

section

variable {s : State} {n : Nat} (v : Word)

theorem keepQueue_free (h : keepBusy s n = false) : keepQueue s n v = keepStart s n v := by
  rw [keepQueue, if_neg (by simp [h])]

theorem keepQueue_waits (h : keepBusy s n = true) : (keepQueue s n v).1 = s.withKeep { s.keep with wait := s.keep.wait ++ [(n, v)] } := by
  rw [keepQueue, if_pos h]

variable (s n)

theorem keepQueue_leaves {γ : Type} (k : State → γ) (hreg : ∀ t a x, k (State.setReg t a x) = k t) (hkeep : ∀ t x, k (State.withKeep t x) = k t)
    (hevt : ∀ t x, k (State.withEvt t x) = k t) : k (keepQueue s n v).1 = k s := by
  cases h : keepBusy s n with
  | false => exact (congrArg (fun x => k x.1) (keepQueue_free v h)).trans (keepStart_leaves s n v k hreg hkeep hevt)
  | true => exact (congrArg k (keepQueue_waits v h)).trans (hkeep _ _)

theorem keepQueue_regsIn : RegsIn (keepShownReg n) s (keepQueue s n v).1 := by
  cases h : keepBusy s n with
  | false => exact keepQueue_free v h ▸ keepStart_regsIn s n v
  | true => rw [keepQueue_waits v h]; exact .of_regs (State.withKeep_regs ..)

theorem keepQueue_occ : s.evt.occ <+: (keepQueue s n v).1.evt.occ := by
  cases h : keepBusy s n with
  | false => exact keepQueue_free v h ▸ keepStart_occ s n v
  | true => rw [keepQueue_waits v h]; exact List.prefix_rfl

end

/-! ### A write that is persistent (R129, R130) -/

/-- A keep word as its write left it. -/
def keepDone (s : State) (n ecc : Nat) (w : Word) : State :=
  let t := (s.setReg (R.keepWord n) w).withKeep
    { s.keep with busy := s.keep.busy.filter (fun b => b.1 != n),
                  bad := (if ecc = 0 then [] else [(n, ecc)]) ++ s.keep.bad.filter (fun b => b.1 != n) }
  t.setFlag R.keepStat_BUSY (!t.keep.busy.isEmpty)

theorem keepWord_ne_keepStat {n : Nat} (h : n < 1024) : R.keepWord n ≠ R.keepStat := by
  simp only [R.keepWord, R.keepStat]
  omega

theorem keepWord_not_shown {n : Nat} (h : n < 1024) (m : Nat) : ¬ keepShownReg m (R.keepWord n) := by
  simp only [keepShownReg, R.keepWord, R.keepWear, R.keepStat]
  omega

section

variable {s : State} {n : Nat} {w : Word} (ecc : Nat)

theorem keepDone_word (h : n < 1024) : (keepDone s n ecc w).reg (R.keepWord n) = w :=
  (State.reg_setFlag_ne _ R.keepStat_BUSY _ _ (keepWord_ne_keepStat h).symm).trans (State.reg_setReg_same s _ w)

theorem keepDone_busy : (keepDone s n ecc w).keep.busy = s.keep.busy.filter (fun b => b.1 != n) := rfl

theorem keepDone_flag_busy : (keepDone s n ecc w).flag R.keepStat_BUSY = !(s.keep.busy.filter (fun b => b.1 != n)).isEmpty :=
  State.flag_setFlag_same _ R.keepStat_BUSY _ (by decide) rfl

theorem keepDone_reg_ne {a : Nat} (hword : a ≠ R.keepWord n) (hstat : a ≠ R.keepStat) : (keepDone s n ecc w).reg a = s.reg a :=
  (State.reg_setFlag_ne _ R.keepStat_BUSY _ _ hstat.symm).trans (State.reg_setReg_ne s _ _ w hword.symm)

/-- The end of a write: the word has its value, and the oldest write that waits for the word starts. -/
theorem keepPersist_ends (hbusy : s.keep.busy.find? (fun e => e.1 == n) = some (n, w)) :
    keepPersist s n ecc = match s.keep.wait.find? (fun e => e.1 == n) with
      | some e => (keepStart ((keepDone s n ecc w).withKeep { (keepDone s n ecc w).keep with wait := s.keep.wait.erase e }) n e.2).1
      | none => keepDone s n ecc w := by
  unfold keepPersist
  rw [hbusy]
  by_cases hecc : ecc = 0
  · subst hecc; rfl
  · simp only [keepDone, if_neg hecc]; rfl

end

/-! ### The commands -/

/-- KEEP_WRITE to a word of the host that is not busy. -/
theorem opKeepWrite_starts {s : State} {r : Request} {w : Word} (hp : r.params = [w]) (ht : r.target < 960) (hfree : keepBusy s r.target = false) :
    opKeepWrite r s = { st := (keepStart s r.target w).1, status := if (keepStart s r.target w).2 then stWORN else stOK,
                        data := [wd ((keepStart s r.target w).1.fld (R.keepWear_COUNT r.target))] } := by
  have hhost : ¬ 1023 < r.target := by omega
  rw [opKeepWrite, if_neg hhost, if_neg (Nat.not_le.mpr ht), if_neg (by simp [hfree]), p_zero_of_params hp]

/-- A KEEP_WRITE that Reed serves is answered. -/
theorem exec_keepWrite_served {s : State} {r : Request} {w : Word} (hs : s.served) (hp : r.params = [w]) :
    exec (.keepWrite r) s = .next (respond r (opKeepWrite r s)) :=
  exec_of_served rfl hs (by simp [hp])

/-- A register row reaches a word of the host. -/
theorem exec_keepWordRegWrite_host {s : State} {n : Fin 1024} (w : Word) (hn : n.val < 960) (hserving : serving s = true) :
    exec (.keepWordRegWrite n w) s = .next (keepQueue s n.val w).1 :=
  congrArg Host.Outcome.next (if_pos ⟨hn, hserving⟩)

/-- A register run that reaches a word of the host writes it. -/
theorem regWrite_keepWord {s : State} {n : Nat} (w : Word) (hn : n < 960) :
    (regWrite s (R.keepWord n) w).st = (keepQueue s n w).1 := by
  have hblock : R.keepWord n / 0x10000 = 3 := by simp only [R.keepWord]; omega
  have hword : (R.keepWord n - 0x030000) / 4 = n := by simp only [R.keepWord]; omega
  have hbound : R.keepWord n < 0x031000 := by simp only [R.keepWord]; omega
  have hrow : regRow (R.keepWord n) = some ⟨0x030000, 0x4, 1024, 0x0, 1, 0x0, 0x0, 0x0, 0x0, 0x0, 0xFFFFFFFF, false⟩ := by
    have hhas : rowHas ⟨0x030000, 0x4, 1024, 0x0, 1, 0x0, 0x0, 0x0, 0x0, 0x0, 0xFFFFFFFF, false⟩ (R.keepWord n) = true := by
      simp [rowHas, R.keepWord]
      omega
    simp only [regRow, hblock, regRows, regRows03, List.find?_cons, hhas]
  have hwrite : blockWrite s (R.keepWord n) w = some (keepRegWrite s n w) := by
    simp only [blockWrite, hblock, if_pos hbound, hword]
  unfold regWrite
  rw [if_neg (by omega), if_neg (by omega), if_neg (by omega), if_neg (by omega), hrow, hwrite]
  simp only [Option.getD_some, keepRegWrite, if_neg (Nat.not_le.mpr hn)]

/-- Settles O53: each range of words on its own; the write itself is `keepStart`. -/
theorem keepWriteRule : Obligations.Keep_Write_Rule := by
  refine ⟨?range, ?device, ?host, ?run⟩
  case range =>
    intro s r w hs hp ht
    rw [exec_keepWrite_served hs hp, opKeepWrite, if_pos ht]
    rfl
  case device =>
    intro s r w hs hp hlo hhi
    rw [exec_keepWrite_served hs hp, opKeepWrite, if_neg (Nat.not_lt.mpr hhi), if_pos hlo]
    rfl
  case host =>
    intro s r w hs hp ht hfree
    rw [exec_keepWrite_served hs hp, opKeepWrite_starts hp ht hfree]
    refine ⟨_, _, rfl, ?_, keepStart_busy .., keepStart_wait ..⟩
    split
    · exact .inr rfl
    · exact .inl rfl
  case run =>
    intro s n w hn hfree
    rw [regWrite_keepWord w hn, keepQueue_free w hfree]
    exact ⟨fun hserving => ⟨_, keepQueue_free w hfree ▸ exec_keepWordRegWrite_host w hn hserving, keepStart_busy .., keepStart_wait ..⟩,
      keepStart_busy ..⟩

/-- The counts that a flush writes, by which of the two are held. -/
theorem keepFlush_eq (s u : State) (hu : u = (s.withNib { s.nib with latches := 0 }).withKeep { s.keep with hot := s.keep.hot % 600 }) :
    keepFlush s =
      let t := if s.nib.latches = 0 then u else keepBump u 966 s.nib.latches
      if s.keep.hot / 600 = 0 then t else keepBump t 967 (s.keep.hot / 600) := by
  subst hu
  rfl

/-- Settles O13: the writes by `keepStart`, their ends by `keepDone`, the device's own counters by `keepBump`. -/
theorem keepMemory : Obligations.Keep_Memory := by
  refine ⟨?write, ?run, ?persist, ?next, ?hour, ?flush⟩
  case write =>
    intro s r w hs hp ht hfree
    rw [exec_keepWrite_served hs hp, opKeepWrite_starts hp ht hfree]
  case run =>
    intro s n w hn hserving
    rw [exec_keepWordRegWrite_host w hn hserving]
    exact ⟨fun hfree => by rw [keepQueue_free w hfree], fun hbusy => by rw [keepQueue_waits w hbusy]⟩
  case persist =>
    intro s n ecc w hbusy hwait
    have hends := keepPersist_ends ecc.val hbusy
    rw [hwait] at hends
    exact ⟨_, congrArg Host.Outcome.next hends, keepDone_word _ n.isLt, rfl, keepDone_flag_busy _, rfl, rfl,
      fun a hword hstat => keepDone_reg_ne _ hword hstat, rfl⟩
  case next =>
    intro s n ecc w v hbusy hwait
    have hends := keepPersist_ends (s := s) (n := n.val) (w := w) ecc.val (by simp [hbusy])
    rw [hwait, List.find?_cons_of_pos (by simp)] at hends
    refine ⟨_, congrArg Host.Outcome.next hends, ?_, ?_, ?_, keepStart_flag_busy ..⟩
    · rw [keepStart_regsIn _ _ _ _ (keepWord_not_shown n.isLt n.val)]
      exact keepDone_word _ n.isLt
    · rw [keepStart_busy]
      simp [keepDone_busy, hbusy]
    · rw [keepStart_wait]
      simp
  case hour =>
    intro s hruns
    exact congrArg Host.Outcome.next (if_pos hruns)
  case flush =>
    intro s u hruns hu
    have hexec : exec .keepCounterFlush s = .next (keepFlush s) := congrArg Host.Outcome.next (if_pos hruns)
    have hnone (h : s.keep.hot < 600) : s.keep.hot / 600 = 0 := Nat.div_eq_of_lt h
    have hsome (h : 600 ≤ s.keep.hot) : s.keep.hot / 600 ≠ 0 := by omega
    rw [hexec, keepFlush_eq s u hu]
    refine ⟨fun hl hh => ?_, fun hl hh => ?_, fun hl hh => ?_, fun hl hh => ?_⟩
    · simp [hl, hnone hh]
    · simp [hl, hnone hh]
    · simp [hl, hsome hh]
    · simp [hl, hsome hh]

end Sys2Proof.Machine
end

section
/-! PROOF. O11, RESET_BLOCK, Dormant and the wakes: what each does past its guards. -/

namespace Sys2Proof.Machine

open Sys2Proof

/-- A RESET_BLOCK that Reed serves is answered. -/
theorem exec_resetBlock_served {s : State} {r : Request} (hs : s.served) (hp : r.params.length ≤ 1) :
    exec (.resetBlock r) s = .next (respond r (opResetBlock r s)) :=
  exec_of_served rfl hs (decide_eq_true hp)

/-- A block of the module is reset whatever its state. -/
theorem opResetBlock_block {s : State} {r : Request} (h0 : 0 < r.target) (h14 : r.target ≤ 14) :
    opResetBlock r s = { st := blockReset s r.target } := by
  rw [opResetBlock, if_neg (Nat.not_lt.mpr h14), if_neg fun h => Nat.ne_of_gt h0 h.1, if_neg fun h => Nat.ne_of_gt h0 h.1]

/-- No group runs where every group's state is 0. -/
theorem no_group_runs {s : State} (h : ∀ g, g < 8 → grpState s g = 0) : (List.range 8).any (fun g => grpState s g != 0) = false := by
  simpa [List.any_eq_false] using h

/-- The whole module is reset while no group runs. -/
theorem opResetBlock_module {s : State} {r : Request} (ht : r.target = 0) (hp : r.params = [0x7224#32]) (hstand : ∀ g, g < 8 → grpState s g = 0) :
    opResetBlock r s = { st := (s.withBoot { s.boot with resetDue := true }).raise 27 0 0#32 } := by
  rw [opResetBlock, ht, p_zero_of_params hp, no_group_runs hstand, if_neg (by decide), if_neg (by decide), if_neg (by decide)]
  rfl

/-- DORMANT that nothing refuses: the reply goes, the counts held are written, and the device powers down. -/
theorem exec_dormant_goes {s : State} {r : Request} (hs : s.served) (ht : r.target = 0) (hp : r.params = []) (hbad : dormantBad s = false) :
    exec (.dormant r) s = .next (((hrdyUpdate (keepFlush (respond r { st := s })) false).withPhase .dormant).withReed .held) := by
  obtain ⟨hphase, hhold, hreed⟩ := hs
  have hform : (r.target == 0 && r.params.isEmpty) = true := by simp [ht, hp]
  have hserve := serveReed_serves r s _ (opDormant r) hphase hhold hreed hform
  rw [opDormant, if_neg (by simp [hbad])] at hserve
  have hgoes : (s.phase == .ready && !s.boot.hold && s.reed == .running && (r.target == 0 && r.params.isEmpty) && !dormantBad s) = true := by
    simp [hphase, hhold, hreed, hform, hbad]
  show Host.Outcome.next (if _ then _ else _) = _
  rw [if_pos hgoes, hserve]

/-- Settles O11: each command goes past its guards, and what it does then is its own rule. -/
theorem blockResetAndDormant : Obligations.Block_Reset_And_Dormant := by
  refine ⟨?reset, ?dormant, ?wakePin, ?wakeField, ?wakeCan⟩
  case reset =>
    intro s r hs hp
    rw [exec_resetBlock_served hs hp]
    exact ⟨fun h0 h14 => by rw [opResetBlock_block h0 h14], fun ht hkey hstand => by rw [opResetBlock_module ht hkey hstand]⟩
  case dormant =>
    intro s r hs ht hp hbad
    exact exec_dormant_goes hs ht hp hbad
  case wakePin =>
    intro s src inst rising hphase hsrc
    show Host.Outcome.next (wake s src.val inst.val rising) = _
    rw [wake, if_neg (not_not_intro hphase), if_pos hsrc]
    rfl
  case wakeField =>
    intro s inst rising hphase hedge
    show Host.Outcome.next (wake s 2 inst.val rising) = _
    rw [wake, if_neg (not_not_intro hphase), if_neg (by decide), if_pos hedge]
    rfl
  case wakeCan =>
    intro s n sel dom ide id dlc data hwakes
    show (_ → Host.Outcome.next (canWakeDetect s n.val sel dom.toNat ide id.toNat dlc.val data) = _) ∧
      (_ → Host.Outcome.next (canWakeDetect s n.val sel dom.toNat ide id.toNat dlc.val data) = _)
    rw [canWakeDetect, if_neg (by simp [hwakes])]
    exact ⟨fun hphase => by rw [if_pos hphase]; rfl, fun hphase => by rw [if_neg hphase]⟩

end Sys2Proof.Machine
end

section
/-! PROOF. O12, configuration: what CFG_LOAD and CFG_SAVE begin once their checks pass, and what the work they began ends with. -/

namespace Sys2Proof.Machine

open Sys2Proof

/-! ### CFG_LOAD and the application (R123, R127) -/

/-- A CFG_LOAD without the SAFE block, while no group runs, begins an application. -/
theorem opCfgLoad_begins {s : State} {r : Request} {m src : Word} (hp : r.params = [m, src]) (hblocks : bitsOf m 16 16 = 0) (hsrc : src.toNat ≤ 2)
    (hsafe : bitOf m 15 = false) (hstand : ∀ g, g < 8 → grpState s g = 0) :
    opCfgLoad r s = { st := (((applyBegin s).setFlag R.cfgStat_LOAD_BUSY true).withReed .busy).withBoot {
      s.boot with load := some (m.toNat, src.toNat) } } := by
  have hp0 : r.p 0 = m := by simp [Request.p, hp, nth]
  have hp1 : r.p 1 = src := by simp [Request.p, hp, nth]
  rw [opCfgLoad, hp0, hp1, no_group_runs hstand, if_neg (by omega), if_neg (by simp [hsafe]), if_neg (by decide)]

/-- The image of a source: the bank in force, the other one, or the image staged. -/
def loadImage (s : State) (src : Nat) : List Word :=
  match src with
  | 0 => bankImage s (s.fld R.cfgStat_BANK)
  | 1 => bankImage s (1 - s.fld R.cfgStat_BANK)
  | _ => stagedImage s

/-- What event 16 tells of the source. -/
def loadInst (s : State) (src : Nat) : Nat :=
  match src with
  | 0 => s.fld R.cfgStat_BANK
  | 1 => 1 - s.fld R.cfgStat_BANK
  | _ => 2

/-- The end of an application of a CFG_LOAD. -/
def loadEnded (u : State) (inst : Nat) : State :=
  (((applyEnd u inst).setFlag R.cfgStat_LOAD_BUSY false).withReed .running).withBoot { u.boot with load := none }

/-- An application ends where no block is left, and else keeps the blocks that wait. -/
theorem loadApply_eq (s : State) (mask src : Nat) {x : State × List Nat} (hx : x = blocksApply (loadImage s src) s ((List.range 15).filter (mask.testBit ·))) :
    loadApply s mask src = if x.2 = [] then loadEnded x.1 (loadInst s src) else x.1.withBoot { x.1.boot with load := some (blockMask x.2, src) } := by
  subst hx
  rfl

/-- The image of the bank that start-up chooses. -/
def bootImage (s : State) : List Word :=
  match bankChoice s with
  | some b => bankImage s b
  | none => []

/-- The registers that show the choice. -/
def bootShown (s : State) : State :=
  ((s.setFlag R.cfgStat_NO_IMAGE (bankChoice s).isNone).setFld R.cfgStat_BANK ((bankChoice s).getD 0)).setReg R.cfgGen (wd (imgGen (bootImage s)))

/-- The application at start-up: every block of the chosen bank, SAFE first. -/
theorem bootApply_eq (s : State) :
    bootApply s =
      let t := applyEnd (blocksApply (bootImage s) (applyBegin (bootShown s)) (15 :: List.range 15)).1 ((bankChoice s).getD 0)
      t.withBoot { t.boot with step := 4 } := by
  cases hc : bankChoice s <;> simp only [bootApply, bootShown, bootImage, hc]

section

variable (u : State) (inst : Nat)

theorem loadEnded_notBusy : (loadEnded u inst).flag R.cfgStat_LOAD_BUSY = false :=
  State.flag_setFlag_same (applyEnd u inst) R.cfgStat_LOAD_BUSY false (by decide) rfl

theorem loadEnded_occ : (loadEnded u inst).evt.occ = u.evt.occ ++ [{ ev := 16, inst := inst, detail := wd (u.fld R.cfgStat_DEFAULTED) }] := rfl

theorem loadEnded_reg_ne {a : Nat} (h : a ≠ R.cfgStat) : (loadEnded u inst).reg a = u.reg a :=
  State.reg_setFlag_ne (applyEnd u inst) R.cfgStat_LOAD_BUSY false a h.symm

end

/-! ### CFG_SAVE (R126) -/

/-- A CFG_SAVE in its form, while neither a save nor a stage runs, begins its work with the image staged or captured. -/
theorem opCfgSave_begins {s u : State} {r : Request} {p : Word} (hp : r.params = [p]) (hbits : bitsOf p 4 28 = 0)
    (hsave : s.flag R.cfgStat_SAVE_BUSY = false) (hstage : s.flag R.fwStat_STAGE_BUSY = false) (hu : u = if bitOf p 0 then capture s else s)
    (hok : bitOf p 1 = true → imgOk (stagedImage u) = true) :
    opCfgSave r s = { st := (u.setFlag R.cfgStat_SAVE_BUSY true).withBoot { u.boot with
      save := some (p.toNat, saveBank s, if bitOf p 1 then imgWithGen (stagedImage u) ((s.reg R.cfgGen).toNat + 1) else []) } } := by
  have hbusy : (s.flag R.cfgStat_SAVE_BUSY || s.flag R.fwStat_STAGE_BUSY) = false := by rw [hsave, hstage]; rfl
  have hstaged : ¬ (!bitOf p 0 ∧ bitOf p 1 ∧ !imgOk (stagedImage s)) := by
    rintro ⟨hcap, himg, hbad⟩
    have hus : u = s := by rw [hu, if_neg (by simpa using hcap)]
    rw [hus] at hok
    simp [hok himg] at hbad
  have hcaptured : ¬ (bitOf p 0 ∧ bitOf p 1 ∧ !imgOk (stagedImage u)) := by
    rintro ⟨-, himg, hbad⟩
    simp [hok himg] at hbad
  unfold opCfgSave
  rw [p_zero_of_params hp]
  dsimp only
  rw [if_neg (not_or_intro (not_not_intro hbits) hstaged), hbusy, ← hu, if_neg (by decide), if_neg hcaptured]
  rfl

/-- Settles O12: each command goes past its guards; what an application does to the blocks is `blocksApply`, on both sides. -/
theorem configurationWork : Obligations.Configuration_Work := by
  refine ⟨?load, ?apply, ?boot, ?restore, ?save, ?saved⟩
  case load =>
    intro s r m src hs ht hp hblocks hsrc hsafe hstand
    rw [exec_of_served rfl hs (by simp [ht, hp]), opCfgLoad_begins hp hblocks hsrc hsafe hstand]
  case apply =>
    intro s mask src x hload hx
    have hexec : exec .configBlocksApply s = .next (loadApply s mask src) := by
      show Host.Outcome.next (match s.boot.load with | some (m, c) => loadApply s m c | none => _) = _
      rw [hload]
    rw [hexec, loadApply_eq s mask src hx]
    refine ⟨fun hnone => ?_, fun hleft => by rw [if_neg hleft]⟩
    rw [if_pos hnone]
    exact ⟨_, rfl, loadEnded_notBusy .., rfl, rfl, loadEnded_occ .., fun a ha => loadEnded_reg_ne _ _ ha, rfl, rfl, rfl⟩
  case boot =>
    intro s u hload hphase hstep hu
    have hexec : exec .configBlocksApply s = .next (bootApply s) := by
      show Host.Outcome.next (match s.boot.load with | some (m, c) => loadApply s m c | none => _) = _
      rw [hload]
      exact congrArg Host.Outcome.next (if_pos ⟨hphase, hstep⟩)
    have hshown : u = bootShown s := hu
    rw [hexec, bootApply_eq, hshown]
    refine ⟨_, rfl, rfl, ?_⟩
    cases hc : bankChoice s <;> simp only [bootImage, hc, State.withBoot_regs]
  case restore =>
    rintro s u hphase hstep rfl
    exact congrArg Host.Outcome.next (if_pos ⟨hphase, hstep⟩)
  case save =>
    intro s u r p hs ht hp hbits hsave hstage hu hok
    rw [exec_of_served rfl hs (by simp [ht, hp]), opCfgSave_begins hp hbits hsave hstage hu hok]
  case saved =>
    rintro s u res p b img hsave rfl
    show Host.Outcome.next (cfgSaved s res.val) = _
    rw [cfgSaved, hsave]

end Sys2Proof.Machine
end

section
/-! PROOF. O10, the resets of the core: what a reset finds in keep memory and the NVM die, and the state it leaves. -/

namespace Sys2Proof.Machine

open Sys2Proof

/-! ### What a reset finds (R126, R130, R135) -/

section

variable {γ : Type} (k : State → γ) (s : State)

/-- A reset ends the writes to keep memory and leaves every part of the machine but the registers and keep memory. -/
theorem keepReset_leaves (hreg : ∀ t a x, k (State.setReg t a x) = k t) (hkeep : ∀ t x, k (State.withKeep t x) = k t) (lost : List (Fin 1024)) :
    k (keepReset s lost) = k s := by
  unfold keepReset
  refine (hkeep _ _).trans ((foldl_keep _ k (fun t e => ?_) _ _).trans (foldl_keep _ k (fun t e => ?_) _ _))
  · split
    · rfl
    · exact hkeep _ _
  · split
    · rfl
    · exact hreg _ _ _

theorem saveFail_leaves (hnvm : ∀ t x, k (State.withNvm t x) = k t) (p b : Nat) : k (saveFail s p b) = k s := by
  have hput (c : Bool) (t u : State) (x : NvmS) (hu : k t = k u) : k (if c then t.withNvm x else t) = k u := by
    cases c with
    | false => exact hu
    | true => exact (hnvm t x).trans hu
  have himage : k (if p.testBit 1 then setBankImage s b [] else s) = k s := hput _ _ _ _ rfl
  unfold saveFail
  exact (hnvm _ _).trans (hput _ _ _ _ (hput _ _ _ _ himage))

/-- A reset breaks a save and a stage off, and leaves every part of the machine but the NVM die and the event it owes. -/
theorem nvmReset_leaves (hnvm : ∀ t x, k (State.withNvm t x) = k t) (howed : ∀ t o, k (State.withBoot t { t.boot with owed22 := o }) = k t) :
    k (nvmReset s) = k s := by
  have hstage (t : State) : k (match t.boot.stage with
      | some _ => (fwErase t (fwOther t)).withBoot { t.boot with owed22 := some (fwOther t) }
      | none => t) = k t := by
    cases t.boot.stage with
    | none => rfl
    | some x => exact (howed (fwErase t (fwOther t)) _).trans (hnvm _ _)
  unfold nvmReset
  cases s.boot.save with
  | none => exact hstage s
  | some x => exact (hstage _).trans (saveFail_leaves k s hnvm _ _)

end

/-- Without a save or a stage a reset finds the NVM die as it was. -/
theorem nvmReset_idle {s : State} (hsave : s.boot.save = none) (hstage : s.boot.stage = none) : nvmReset s = s := by
  unfold nvmReset
  rw [hsave]
  dsimp only
  rw [hstage]

/-! ### The state after a reset (R115, R117, R465) -/

/-- A filter that drops a key's entries leaves the key at its default. -/
theorem tblGet_filter_out {α : Type} (p : Nat × α → Bool) (t : Tbl α) (k : Nat) (d : α) (h : ∀ v, p (k, v) = false) :
    tblGet (t.filter p) k d = d := by
  induction t with
  | nil => rfl
  | cons e rest ih =>
    obtain ⟨j, v⟩ := e
    cases hp : p (j, v) with
    | false => rw [List.filter_cons_of_neg (by simp [hp]), ih]
    | true =>
      have hj : j ≠ k := by
        rintro rfl
        exact absurd hp (by simp [h v])
      rw [List.filter_cons_of_pos hp, tblGet, if_neg hj, ih]

/-- The machine as a reset leaves it, from what it found, before the field die's link and levels are shown. -/
def coreFresh (s : State) (cause : Nat) : State :=
  { regs := s.regs.filter (fun e => survives e.1), nvm := s.nvm, keep := s.keep, free := s.free, pending := s.pending,
    safe := { husk := s.safe.husk, a := s.safe.a, b := s.safe.b },
    field := { s.field with mark := true, sent := none, ans := none, run := 0 },
    can := { woke := s.can.woke },
    boot := { cause := Nat.lor (if s.phase = .reset then s.boot.cause else 0) cause, owed22 := s.boot.owed22, fioWoke := s.boot.fioWoke } }

theorem coreReset_eq (s : State) (cause : Nat) (lost : List (Fin 1024)) :
    coreReset s cause lost =
      fioLevels (((coreFresh (nvmReset (keepReset s lost)) cause).setFlag R.fieldStat_LINK false).setFlag R.nibGlob_HUSK_EN
        ((nvmReset (keepReset s lost)).flag R.nibGlob_HUSK_EN)) := rfl

theorem fioLevels_leaves {γ : Type} (k : State → γ) (hreg : ∀ t a x, k (State.setReg t a x) = k t) (s : State) : k (fioLevels s) = k s :=
  (hreg _ _ _).trans (foldl_keep _ k (fun _ _ => hreg _ _ _) _ _)

/-- The registers of the field die that keep their words over a reset. -/
theorem fioLevels_regsIn (s : State) : RegsIn (survives · = true) s (fioLevels s) := by
  have hlevels : RegsIn (survives · = true) s ((List.range 32).foldl
      (fun t n => t.setFlag (R.fieldChst_LEVEL n) (bitOf (if fioLink s then s.field.raw else 0#32) n)) s) := by
    refine RegsIn.foldl (fun t n hn => .setFlag _ _ _ ?_) s
    have hlt : n < 32 := List.mem_range.mp hn
    have hlo : 0x1F0000 ≤ R.fieldChst n := by simp only [R.fieldChst]; omega
    have hhi : R.fieldChst n < R.fieldCtrl := by simp only [R.fieldChst, R.fieldCtrl]; omega
    have hmid : R.fieldChst n < 0x200000 := Nat.lt_of_lt_of_le hhi (by decide)
    show survives (R.fieldChst n) = true
    simp [survives, hlo, hmid, Nat.ne_of_lt hhi]
  exact hlevels.trans (.setReg _ (by decide))

section

variable (s : State) (cause : Nat) (lost : List (Fin 1024))

/-- Beside its registers the machine is as `coreFresh` gives it. -/
theorem coreReset_part {γ : Type} (k : State → γ) (hreg : ∀ t a x, k (State.setReg t a x) = k t) :
    k (coreReset s cause lost) = k (coreFresh (nvmReset (keepReset s lost)) cause) := by
  rw [coreReset_eq]
  exact (fioLevels_leaves k hreg _).trans ((hreg _ _ _).trans (hreg _ _ _))

/-- A part that neither keep memory nor the NVM die has a share in is found as it was. -/
theorem reset_finds_eq {γ : Type} (k : State → γ) (hreg : ∀ t a x, k (State.setReg t a x) = k t) (hkeep : ∀ t x, k (State.withKeep t x) = k t)
    (hnvm : ∀ t x, k (State.withNvm t x) = k t) (howed : ∀ t o, k (State.withBoot t { t.boot with owed22 := o }) = k t) :
    k (nvmReset (keepReset s lost)) = k s :=
  (nvmReset_leaves k _ hnvm howed).trans (keepReset_leaves k s hreg hkeep lost)

/-- Every register that a reset touches reads its reset word. -/
theorem coreReset_reg {a : Nat} (ha : survives a = false) (hglob : a ≠ R.nibGlob) : (coreReset s cause lost).reg a = resetWord a := by
  have hlost : ¬ survives a = true := by simp [ha]
  rw [coreReset_eq, fioLevels_regsIn _ a hlost, State.reg_setFlag_ne _ R.nibGlob_HUSK_EN _ _ hglob.symm,
    State.reg_setFlag_ne _ R.fieldStat_LINK _ _ fun h => hlost (by rw [← h]; decide)]
  exact tblGet_filter_out _ _ _ _ fun _ => ha

theorem coreReset_pending : (coreReset s cause lost).pending = s.pending := pending_of_keeps (coreReset_keeps s cause lost)

theorem coreReset_husk : (coreReset s cause lost).safe.husk = s.safe.husk :=
  (coreReset_part s cause lost (fun t => t.safe.husk) fun _ _ _ => rfl).trans
    (reset_finds_eq s lost (fun t => t.safe.husk) (fun _ _ _ => rfl) (fun _ _ => rfl) (fun _ _ => rfl) fun _ _ => rfl)

theorem coreReset_nvm (hsave : s.boot.save = none) (hstage : s.boot.stage = none) : (coreReset s cause lost).nvm = s.nvm := by
  have hboot : (keepReset s lost).boot = s.boot := keepReset_leaves State.boot s (fun _ _ _ => rfl) (fun _ _ => rfl) lost
  have hidle : nvmReset (keepReset s lost) = keepReset s lost := nvmReset_idle (hboot ▸ hsave) (hboot ▸ hstage)
  calc (coreReset s cause lost).nvm = (nvmReset (keepReset s lost)).nvm := coreReset_part s cause lost State.nvm fun _ _ _ => rfl
    _ = (keepReset s lost).nvm := by rw [hidle]
    _ = s.nvm := keepReset_leaves State.nvm s (fun _ _ _ => rfl) (fun _ _ => rfl) lost

theorem coreReset_cause : (coreReset s cause lost).boot.cause = Nat.lor (if s.phase = .reset then s.boot.cause else 0) cause := by
  have hphase := reset_finds_eq s lost State.phase (fun _ _ _ => rfl) (fun _ _ => rfl) (fun _ _ => rfl) fun _ _ => rfl
  have hcause := reset_finds_eq s lost (fun t => t.boot.cause) (fun _ _ _ => rfl) (fun _ _ => rfl) (fun _ _ => rfl) fun _ _ => rfl
  rw [← hphase, ← hcause]
  exact coreReset_part s cause lost (fun t => t.boot.cause) fun _ _ _ => rfl

/-- The core right after a reset, whatever caused it. -/
theorem coreReset_fresh (t : State) (ht : t = coreReset s cause lost) :
    t.phase = .reset ∧ t.reed = .held ∧ t.dt = 0 ∧ t.force = [] ∧ t.clk = {} ∧ t.loop = {} ∧ t.cmd = {} ∧
      t.sense = {} ∧ t.nib = {} ∧ t.ink = {} ∧ t.fdbk = {} ∧ t.store = {} ∧ t.net = {} ∧ t.sward = {} ∧ t.sheaf = {} ∧ t.evt = {} ∧
      (∀ a, survives a = false → a ≠ R.nibGlob → t.reg a = resetWord a) ∧ t.pending = s.pending ∧ t.safe.husk = s.safe.husk ∧
      (s.boot.save = none → s.boot.stage = none → t.nvm = s.nvm) ∧
      t.boot.cause = Nat.lor (if s.phase = .reset then s.boot.cause else 0) cause := by
  subst ht
  have hpart {γ : Type} (k : State → γ) := coreReset_part s cause lost k
  exact ⟨hpart State.phase fun _ _ _ => rfl, hpart State.reed fun _ _ _ => rfl, hpart State.dt fun _ _ _ => rfl,
    hpart State.force fun _ _ _ => rfl, hpart State.clk fun _ _ _ => rfl, hpart State.loop fun _ _ _ => rfl, hpart State.cmd fun _ _ _ => rfl,
    hpart State.sense fun _ _ _ => rfl, hpart State.nib fun _ _ _ => rfl, hpart State.ink fun _ _ _ => rfl, hpart State.fdbk fun _ _ _ => rfl,
    hpart State.store fun _ _ _ => rfl, hpart State.net fun _ _ _ => rfl, hpart State.sward fun _ _ _ => rfl, hpart State.sheaf fun _ _ _ => rfl,
    hpart State.evt fun _ _ _ => rfl, fun a ha hglob => coreReset_reg s cause lost ha hglob, coreReset_pending .., coreReset_husk ..,
    fun hsave hstage => coreReset_nvm s cause lost hsave hstage, coreReset_cause ..⟩

end

end Sys2Proof.Machine
end

section
/-! PROOF. O10, the release of reset and the start-up: what the straps and the factory area give, which bank is loaded, and then the commands. -/

namespace Sys2Proof.Machine

open Sys2Proof

/-! ### A count of the device while keep memory rests (R132) -/

/-- A counter that no write changes counts up from its word. -/
theorem keepBump_idle {s : State} {n : Nat} (k : Nat) (hbusy : ∀ e ∈ s.keep.busy, e.1 ≠ n) (hwait : s.keep.wait = []) :
    keepBump s n k = (keepStart s n (wd (satAdd 32 (s.reg (R.keepWord n)).toNat k))).1 := by
  have hnone : (s.keep.busy ++ s.keep.wait).filter (fun e => e.1 == n) = [] := by
    rw [hwait, List.append_nil]
    exact List.filter_eq_nil_iff.mpr fun e he => by simpa using hbusy e he
  have hfree : keepBusy s n = false := by simpa [keepBusy] using hbusy
  have hlatest : keepLatest s n = s.reg (R.keepWord n) := by
    unfold keepLatest
    rw [hnone]
    rfl
  rw [keepBump, hlatest, keepQueue_free _ hfree]

theorem keepBump_regsIn (s : State) (n k : Nat) : RegsIn (keepShownReg n) s (keepBump s n k) := keepQueue_regsIn s n _

theorem keepBump_occ (s : State) (n k : Nat) : s.evt.occ <+: (keepBump s n k).evt.occ := keepQueue_occ s n _

theorem keepBump_leaves (s : State) (n i : Nat) {γ : Type} (k : State → γ) (hreg : ∀ t a x, k (State.setReg t a x) = k t)
    (hkeep : ∀ t x, k (State.withKeep t x) = k t) (hevt : ∀ t x, k (State.withEvt t x) = k t) : k (keepBump s n i) = k s :=
  keepQueue_leaves s n _ k hreg hkeep hevt

/-- Outside the pages of keep memory no count shows. -/
theorem not_keepShownReg {n a : Nat} (hn : n < 1024) (ha : a < 0x031000 ∨ 0x032000 < a) : ¬ keepShownReg n a := by
  simp only [keepShownReg, R.keepWear, R.keepStat]
  omega

theorem State.fld_setFlag_apart (s : State) (f g : RF) (v : Bool) (ha : f.addr = g.addr) (hg : g.lo + g.w ≤ 32)
    (h : f.lo + f.w ≤ g.lo ∨ g.lo + g.w ≤ f.lo) : (s.setFlag f v).fld g = s.fld g :=
  State.fld_setFld_apart s f g (b2n v) ha hg h

/-! ### Release of reset (R113, R116, R132) -/

/-- The straps and the trim of the factory area as their registers show them. -/
def strapsShown (s : State) (w : Word) : State :=
  ((((s.setReg R.sysStrap w).setReg R.sysRstcause (wd s.boot.cause)).setFld R.spiHcfg_MODE (bitsOf w 0 2)).setFld R.sheafCfg_SLOT
    (bitsOf w 4 4)).setFld R.clkRctrim_TRIM Config.factoryTrim.toNat

/-- The addresses of the factory area in the registers of both Ethernet ports. -/
def macsShown (s : State) : State :=
  (((s.setReg (R.ethMacLo 0) (Config.factoryMac 0)).setReg (R.ethMacHi 0) (Config.factoryMac 1 &&& 0xFFFF#32)).setReg (R.ethMacLo 1)
    (Config.factoryMac 2)).setReg (R.ethMacHi 1) (Config.factoryMac 3 &&& 0xFFFF#32)

/-- The resets counted: each one, and each but a power-on. -/
def resetsCounted (s : State) (cause : Nat) : State :=
  if cause % 2 = 1 then keepBump s 961 1 else keepBump (keepBump s 961 1) 965 1

theorem resetRelease_eq (s : State) (straps : BitVec 8) :
    resetRelease s straps =
      ((resetsCounted (macsShown (strapsShown s (straps.setWidth 32))) s.boot.cause).withPhase
        (if bitOf (straps.setWidth 32) 3 then .test else .starting)).withBoot
        { (resetsCounted (macsShown (strapsShown s (straps.setWidth 32))) s.boot.cause).boot with cause := 0, step := 1 } := rfl

/-- The release of reset leaves of the registers below keep memory and above it what the straps and the factory area gave. -/
theorem resetsCounted_reg (s : State) (cause : Nat) {a : Nat} (ha : a < 0x031000 ∨ 0x032000 < a) : (resetsCounted s cause).reg a = s.reg a := by
  have h961 : (keepBump s 961 1).reg a = s.reg a := keepBump_regsIn s 961 1 a (not_keepShownReg (by decide) ha)
  unfold resetsCounted
  split
  · exact h961
  · exact (keepBump_regsIn _ 965 1 a (not_keepShownReg (by decide) ha)).trans h961

theorem resetsCounted_leaves (s : State) (cause : Nat) {γ : Type} (k : State → γ) (hreg : ∀ t a x, k (State.setReg t a x) = k t)
    (hkeep : ∀ t x, k (State.withKeep t x) = k t) (hevt : ∀ t x, k (State.withEvt t x) = k t) : k (resetsCounted s cause) = k s := by
  have h961 : k (keepBump s 961 1) = k s := keepBump_leaves s 961 1 k hreg hkeep hevt
  unfold resetsCounted
  split
  · exact h961
  · exact (keepBump_leaves _ 965 1 k hreg hkeep hevt).trans h961

/-- The counts of a reset are written where keep memory rests. -/
theorem resetsCounted_busy {s : State} (cause : Nat) (hbusy : s.keep.busy = []) (hwait : s.keep.wait = []) :
    (resetsCounted s cause).keep.busy = (961, wd (satAdd 32 (s.reg (R.keepWord 961)).toNat 1)) ::
      (if cause % 2 = 1 then [] else [(965, wd (satAdd 32 (s.reg (R.keepWord 965)).toNat 1))]) := by
  have h961 := keepBump_idle (s := s) (n := 961) 1 (by simp [hbusy]) hwait
  have hbusy1 : (keepBump s 961 1).keep.busy = [(961, wd (satAdd 32 (s.reg (R.keepWord 961)).toNat 1))] := by
    rw [h961, keepStart_busy, hbusy, List.nil_append]
  have hwait1 : (keepBump s 961 1).keep.wait = [] := by rw [h961, keepStart_wait, hwait]
  have hword : (keepBump s 961 1).reg (R.keepWord 965) = s.reg (R.keepWord 965) :=
    keepBump_regsIn s 961 1 _ (not_keepShownReg (by decide) (by decide))
  unfold resetsCounted
  split
  · exact hbusy1
  · rw [keepBump_idle (n := 965) 1 (by simp [hbusy1]) hwait1, keepStart_busy, hbusy1, hword]
    rfl

section

variable (s : State) (w : Word)

theorem strapsShown_leaves {γ : Type} (k : State → γ) (hreg : ∀ t a x, k (State.setReg t a x) = k t) : k (macsShown (strapsShown s w)) = k s := by
  simp only [macsShown, strapsShown, State.setFld, hreg]

theorem macsShown_reg_ne {a : Nat} (ha : a < 0x1C0000 ∨ 0x1C0200 ≤ a) : (macsShown s).reg a = s.reg a := by
  simp only [macsShown, State.reg_setReg, R.ethMacLo, R.ethMacHi]
  rw [if_neg (by omega), if_neg (by omega), if_neg (by omega), if_neg (by omega)]

theorem macsShown_macs {p : Nat} (hp : p < 2) :
    (macsShown s).reg (R.ethMacLo p) = Config.factoryMac (2 * p) ∧
      (macsShown s).reg (R.ethMacHi p) = Config.factoryMac (2 * p + 1) &&& 0xFFFF#32 := by
  have hcases : p = 0 ∨ p = 1 := by omega
  rcases hcases with rfl | rfl
  · exact ⟨by simp [macsShown, State.reg_setReg, R.ethMacLo, R.ethMacHi], by simp [macsShown, State.reg_setReg, R.ethMacLo, R.ethMacHi]⟩
  · exact ⟨by simp [macsShown, State.reg_setReg, R.ethMacLo, R.ethMacHi], by simp [macsShown, R.ethMacLo, R.ethMacHi]⟩

theorem strapsShown_reg_ne {a : Nat} (hstrap : a ≠ R.sysStrap) (hcause : a ≠ R.sysRstcause) (hmode : a ≠ R.spiHcfg) (hslot : a ≠ R.sheafCfg)
    (htrim : a ≠ R.clkRctrim) : (strapsShown s w).reg a = s.reg a := by
  unfold strapsShown
  rw [State.reg_setFld_ne _ R.clkRctrim_TRIM _ _ htrim.symm, State.reg_setFld_ne _ R.sheafCfg_SLOT _ _ hslot.symm,
    State.reg_setFld_ne _ R.spiHcfg_MODE _ _ hmode.symm, State.reg_setReg_ne _ _ _ _ hcause.symm, State.reg_setReg_ne _ _ _ _ hstrap.symm]

theorem strapsShown_strap : (strapsShown s w).reg R.sysStrap = w := by
  unfold strapsShown
  rw [State.reg_setFld_ne _ _ _ _ (by decide), State.reg_setFld_ne _ _ _ _ (by decide), State.reg_setFld_ne _ _ _ _ (by decide),
    State.reg_setReg_ne _ _ _ _ (by decide), State.reg_setReg_same]

theorem strapsShown_cause : (strapsShown s w).reg R.sysRstcause = wd s.boot.cause := by
  unfold strapsShown
  rw [State.reg_setFld_ne _ _ _ _ (by decide), State.reg_setFld_ne _ _ _ _ (by decide), State.reg_setFld_ne _ _ _ _ (by decide),
    State.reg_setReg_same]

theorem strapsShown_mode : (strapsShown s w).fld R.spiHcfg_MODE = bitsOf w 0 2 := by
  unfold strapsShown
  rw [State.fld_setFld_ne _ _ _ _ (by decide), State.fld_setFld_ne _ _ _ _ (by decide), State.fld_setFld_same _ _ _ (by decide)]
  exact Nat.mod_eq_of_lt (bitsOf_lt w 0 2 (by decide))

theorem strapsShown_slot : (strapsShown s w).fld R.sheafCfg_SLOT = bitsOf w 4 4 := by
  unfold strapsShown
  rw [State.fld_setFld_ne _ _ _ _ (by decide), State.fld_setFld_same _ _ _ (by decide)]
  exact Nat.mod_eq_of_lt (bitsOf_lt w 4 4 (by decide))

theorem strapsShown_trim : (strapsShown s w).fld R.clkRctrim_TRIM = Config.factoryTrim.toNat % 16384 :=
  State.fld_setFld_same _ _ _ (by decide)

end

/-! ### Firmware (R114, R134) -/

/-- Reed works on the next step of the start-up. -/
def bootStep (s : State) (step : Nat) : State := (s.withReed .busy).withBoot { s.boot with step := step }

/-- What is shown of both banks: the one confirmed, and the version of each that verifies. -/
def banksShown (s : State) (b : Nat) : State :=
  ((s.setFld R.fwStat_CONFIRMED b).setReg (R.fwVer 0) (if fwVerify s 0 = 0 then fwWord s 0 1 else 0#32)).setReg (R.fwVer 1)
    (if fwVerify s 1 = 0 then fwWord s 1 1 else 0#32)

/-- The bank that is not confirmed runs: the start-up fell back, with event 24 and its count. -/
def bankFallsBack (s : State) (b : Nat) : State :=
  keepBump (((s.setFld R.fwStat_RUNNING (1 - b)).setFlag R.fwStat_BOOT_FALLBACK true).raise 24 (1 - b) 3#32) 964 1

theorem firmwareLoaded_recov {s : State} (h : s.flag R.sysStrap_RECOV = true) :
    ∃ t, firmwareLoaded s = bootStep (recoveryEntry t) 4 := by
  unfold firmwareLoaded
  dsimp only
  rw [if_pos h]
  exact ⟨_, rfl⟩

/-- With the choice of a bank kept whole, the banks are tried in order: the one confirmed, the other one, recovery. -/
theorem firmwareLoaded_eq {s : State} {b : Nat} (h : s.flag R.sysStrap_RECOV = false) (hsound : s.keep.bad.find? (fun e => e.1 == 960) = none)
    (hb : b = bitsOf (s.reg (R.keepWord 960)) 0 1) :
    firmwareLoaded s =
      if fwVerify s b = 0 then bootStep ((banksShown s b).setFld R.fwStat_RUNNING b) 2
      else if fwVerify s (1 - b) = 0 then bootStep (bankFallsBack (banksShown s b) b) 2
      else bootStep (recoveryEntry (banksShown s b)) 4 := by
  have hread : keepRead s 960 = (s.reg (R.keepWord 960), none, s) := by
    unfold keepRead
    rw [hsound]
  unfold firmwareLoaded
  rw [hread]
  dsimp only
  rw [h, Option.isSome_none, if_neg Bool.false_ne_true, if_neg Bool.false_ne_true, ← hb]
  simp only [beq_iff_eq, List.foldl_cons, List.foldl_nil]
  rfl

section

variable (s : State) (b : Nat)

@[simp] theorem bootStep_reg (step a : Nat) : (bootStep s step).reg a = s.reg a := rfl
@[simp] theorem bootStep_fld (step : Nat) (f : RF) : (bootStep s step).fld f = s.fld f := rfl
@[simp] theorem bootStep_flag (step : Nat) (f : RF) : (bootStep s step).flag f = s.flag f := rfl
@[simp] theorem bootStep_evt (step : Nat) : (bootStep s step).evt = s.evt := rfl
@[simp] theorem bootStep_keep (step : Nat) : (bootStep s step).keep = s.keep := rfl

theorem recoveryEntry_shown : (recoveryEntry s).flag R.fwStat_RECOVERY = true ∧ (recoveryEntry s).flag R.sysRstcause_RECOVERY = true := by
  unfold recoveryEntry
  rw [State.flag_setFlag_ne _ _ R.fwStat_RECOVERY _ (by decide)]
  exact ⟨State.flag_setFlag_same _ _ _ (by decide) rfl, State.flag_setFlag_same _ _ _ (by decide) rfl⟩

theorem recoveryEntry_confirmed : (recoveryEntry s).fld R.fwStat_CONFIRMED = s.fld R.fwStat_CONFIRMED := by
  unfold recoveryEntry
  rw [State.fld_setFlag_ne _ R.sysRstcause_RECOVERY _ _ (by decide)]
  exact State.fld_setFlag_apart _ R.fwStat_RECOVERY _ true rfl (by decide) (by decide)

theorem banksShown_regsIn : RegsIn (fun a => a = R.fwVer 0 ∨ a = R.fwVer 1) (s.setFld R.fwStat_CONFIRMED b) (banksShown s b) :=
  (RegsIn.setReg _ (.inl rfl)).trans (.setReg _ (.inr rfl))

theorem banksShown_confirmed {b : Nat} (hb : b < 2) : (banksShown s b).fld R.fwStat_CONFIRMED = b := by
  rw [(banksShown_regsIn s b).fld_eq (by decide), State.fld_setFld_same s _ b (by decide)]
  exact Nat.mod_eq_of_lt hb

theorem banksShown_recovery : (banksShown s b).flag R.fwStat_RECOVERY = s.flag R.fwStat_RECOVERY := by
  rw [(banksShown_regsIn s b).flag_eq (by decide)]
  exact congrArg (· == 1) (State.fld_setFld_apart s R.fwStat_CONFIRMED R.fwStat_RECOVERY b rfl (by decide) (by decide))

theorem banksShown_version {b : Nat} (hb : b < 2) (hgood : fwVerify s b = 0) : (banksShown s b).reg (R.fwVer b) = fwWord s b 1 := by
  have hcases : b = 0 ∨ b = 1 := by omega
  unfold banksShown
  rcases hcases with rfl | rfl
  · rw [State.reg_setReg_ne _ _ _ _ (by decide), State.reg_setReg_same, if_pos hgood]
  · rw [State.reg_setReg_same, if_pos hgood]

/-- A bank that runs is shown beside the one confirmed. -/
theorem running_shown (t : State) {b : Nat} (hb : b < 2) :
    (t.setFld R.fwStat_RUNNING b).fld R.fwStat_RUNNING = b ∧ (t.setFld R.fwStat_RUNNING b).fld R.fwStat_CONFIRMED = t.fld R.fwStat_CONFIRMED ∧
      (t.setFld R.fwStat_RUNNING b).flag R.fwStat_RECOVERY = t.flag R.fwStat_RECOVERY :=
  ⟨(State.fld_setFld_same t R.fwStat_RUNNING b (by decide)).trans (Nat.mod_eq_of_lt hb),
    State.fld_setFld_apart t R.fwStat_RUNNING _ b rfl (by decide) (by decide),
    congrArg (· == 1) (State.fld_setFld_apart t R.fwStat_RUNNING R.fwStat_RECOVERY b rfl (by decide) (by decide))⟩

/-- What the fallback to the other bank shows. -/
theorem bankFallsBack_shown {b : Nat} (hb : b < 2) (t : State) :
    (bankFallsBack t b).fld R.fwStat_RUNNING = 1 - b ∧ (bankFallsBack t b).fld R.fwStat_CONFIRMED = t.fld R.fwStat_CONFIRMED ∧
      (bankFallsBack t b).flag R.fwStat_BOOT_FALLBACK = true ∧
      t.evt.occ ++ [{ ev := 24, inst := 1 - b, detail := 3#32 }] <+: (bankFallsBack t b).evt.occ := by
  have hstat : ¬ keepShownReg 964 R.fwStat := not_keepShownReg (by decide) (by decide)
  generalize ht : t.setFld R.fwStat_RUNNING (1 - b) = t1
  have hfalls : bankFallsBack t b = keepBump ((t1.setFlag R.fwStat_BOOT_FALLBACK true).raise 24 (1 - b) 3#32) 964 1 := by rw [bankFallsBack, ht]
  have hregs := keepBump_regsIn ((t1.setFlag R.fwStat_BOOT_FALLBACK true).raise 24 (1 - b) 3#32) 964 1
  obtain ⟨hrunning, hconfirmed, -⟩ := running_shown t (b := 1 - b) (by omega)
  rw [ht] at hrunning hconfirmed
  rw [hfalls]
  refine ⟨?_, ?_, ?_, ?_⟩
  · rw [hregs.fld_eq hstat, State.raise_fld]
    exact (State.fld_setFlag_apart t1 R.fwStat_BOOT_FALLBACK R.fwStat_RUNNING true rfl (by decide) (by decide)).trans hrunning
  · rw [hregs.fld_eq hstat, State.raise_fld]
    exact (State.fld_setFlag_apart t1 R.fwStat_BOOT_FALLBACK R.fwStat_CONFIRMED true rfl (by decide) (by decide)).trans hconfirmed
  · rw [hregs.flag_eq hstat, State.raise_flag]
    exact State.flag_setFlag_same _ _ _ (by decide) rfl
  · have hsame : t1.evt.occ = t.evt.occ := ht ▸ rfl
    exact hsame ▸ keepBump_occ ((t1.setFlag R.fwStat_BOOT_FALLBACK true).raise 24 (1 - b) 3#32) 964 1

end

theorem fwStat_ne_fwVer (b : Nat) : R.fwStat_RUNNING.addr ≠ R.fwVer b := by
  simp only [R.fwStat_RUNNING, R.fwStat, R.fwVer]
  omega

/-! ### The commands -/

/-- The release of reset takes what the straps and the factory area give, and starts. -/
theorem resetRelease_starts {s : State} (straps : BitVec 8) (hphase : s.phase = .reset) :
    exec (.resetRelease straps) s = .next (resetRelease s straps) := congrArg Host.Outcome.next (if_pos hphase)

theorem exec_firmwareBankLoaded {s : State} (hphase : s.phase = .starting) (hstep : s.boot.step = 1) :
    exec .firmwareBankLoaded s = .next (firmwareLoaded s) := congrArg Host.Outcome.next (if_pos ⟨hphase, hstep⟩)

/-- Settles O10: resets by `coreReset_fresh`, the release by its registers, the firmware bank by the order in which banks are tried. -/
theorem resetsAndStartUp : Obligations.Resets_And_Start_Up := by
  refine ⟨?assert, ?supply, ?release, ?module, ?restart, ?recovery, ?bank, ?ready⟩
  case assert => exact fun s power lost => ⟨_, rfl, coreReset_fresh s _ _ _ rfl⟩
  case supply => exact fun s lost => ⟨_, rfl, coreReset_fresh s 4 lost _ rfl⟩
  case release =>
    intro s straps hphase hbusy hwait
    generalize hw : straps.setWidth 32 = w
    have htest : bitOf w 3 = straps.getLsbD 3 := by simp [← hw, bitOf]
    have hpart {γ : Type} (k : State → γ) (hreg : ∀ t a x, k (State.setReg t a x) = k t) (hkeep : ∀ t x, k (State.withKeep t x) = k t)
        (hevt : ∀ t x, k (State.withEvt t x) = k t) : k (resetsCounted (macsShown (strapsShown s w)) s.boot.cause) = k s :=
      (resetsCounted_leaves _ _ k hreg hkeep hevt).trans (strapsShown_leaves s w k hreg)
    have hshown {a : Nat} (hkeep : a < 0x031000 ∨ 0x032000 < a) (heth : a < 0x1C0000 ∨ 0x1C0200 ≤ a) :
        (resetsCounted (macsShown (strapsShown s w)) s.boot.cause).reg a = (strapsShown s w).reg a :=
      (resetsCounted_reg _ _ hkeep).trans (macsShown_reg_ne _ heth)
    have hfld {f : RF} (hkeep : f.addr < 0x031000 ∨ 0x032000 < f.addr) (heth : f.addr < 0x1C0000 ∨ 0x1C0200 ≤ f.addr) :
        (resetsCounted (macsShown (strapsShown s w)) s.boot.cause).fld f = (strapsShown s w).fld f :=
      congrArg (bitsOf · f.lo f.w) (hshown hkeep heth)
    have hword {n : Nat} (hn : n < 1024) : (macsShown (strapsShown s w)).reg (R.keepWord n) = s.reg (R.keepWord n) := by
      have hlo : 0x030000 ≤ R.keepWord n := by simp only [R.keepWord]; omega
      have hhi : R.keepWord n < 0x031000 := by simp only [R.keepWord]; omega
      rw [macsShown_reg_ne _ (.inl (by omega))]
      refine strapsShown_reg_ne s w ?_ ?_ ?_ ?_ ?_ <;>
        simp only [R.sysStrap, R.sysRstcause, R.spiHcfg, R.sheafCfg, R.clkRctrim] <;> omega
    have hkeep : (macsShown (strapsShown s w)).keep = s.keep := strapsShown_leaves s w State.keep fun _ _ _ => rfl
    have hcounts := resetsCounted_busy (s := macsShown (strapsShown s w)) s.boot.cause (by rw [hkeep, hbusy]) (by rw [hkeep, hwait])
    rw [hword (by decide), hword (by decide)] at hcounts
    rw [resetRelease_starts straps hphase, resetRelease_eq, hw]
    refine ⟨_, rfl, ?_, rfl, rfl, (hshown (by decide) (by decide)).trans (strapsShown_strap s w),
      (hshown (by decide) (by decide)).trans (strapsShown_cause s w), (hfld (by decide) (by decide)).trans (strapsShown_mode s w),
      (hfld (by decide) (by decide)).trans (strapsShown_slot s w), (hfld (by decide) (by decide)).trans (strapsShown_trim s w),
      fun p hp => ?_, hcounts, hpart State.reed (fun _ _ _ => rfl) (fun _ _ => rfl) fun _ _ => rfl,
      hpart State.loop (fun _ _ _ => rfl) (fun _ _ => rfl) fun _ _ => rfl, hpart State.cmd (fun _ _ _ => rfl) (fun _ _ => rfl) fun _ _ => rfl,
      hpart State.pending (fun _ _ _ => rfl) (fun _ _ => rfl) fun _ _ => rfl⟩
    · exact congrArg (fun test : Bool => if test then Phase.test else .starting) htest
    · obtain ⟨hlo, hhi⟩ := macsShown_macs (strapsShown s w) hp
      have haddr : 0x032000 < R.ethMacLo p ∧ 0x032000 < R.ethMacHi p := by
        simp only [R.ethMacLo, R.ethMacHi]
        omega
      exact ⟨(resetsCounted_reg _ _ (.inr haddr.1)).trans hlo, (resetsCounted_reg _ _ (.inr haddr.2)).trans hhi⟩
  case module =>
    intro s hdue
    exact congrArg Host.Outcome.next (if_pos hdue)
  case restart =>
    rintro s u v hphase hreed rfl rfl
    exact congrArg Host.Outcome.next (if_pos ⟨hphase, hreed⟩)
  case recovery =>
    intro s hphase hstep hrecov
    obtain ⟨t, ht⟩ := firmwareLoaded_recov hrecov
    rw [exec_firmwareBankLoaded hphase hstep, ht]
    exact ⟨_, rfl, rfl, rfl, recoveryEntry_shown t⟩
  case bank =>
    intro s b hphase hstep hrecov hsound hb
    have hlt : b < 2 := hb ▸ bitsOf_lt _ 0 1 (by decide)
    rw [exec_firmwareBankLoaded hphase hstep, firmwareLoaded_eq hrecov hsound hb]
    refine ⟨_, rfl, ?_⟩
    by_cases hgood : fwVerify s b = 0
    · obtain ⟨hrunning, hconfirmed, hrecovery⟩ := running_shown (banksShown s b) hlt
      rw [if_pos hgood, if_pos (.inl hgood)]
      simp only [bootStep_reg, bootStep_fld, bootStep_flag, bootStep_evt, bootStep_keep]
      exact ⟨rfl, rfl, hconfirmed.trans (banksShown_confirmed s hlt),
        fun _ => ⟨hrunning, (State.reg_setFld_ne _ R.fwStat_RUNNING b _ (fwStat_ne_fwVer b)).trans (banksShown_version s hlt hgood),
          hrecovery.trans (banksShown_recovery s b), rfl, rfl⟩,
        fun hbad => absurd hgood hbad, fun hbad => absurd hgood hbad⟩
    · by_cases hother : fwVerify s (1 - b) = 0
      · obtain ⟨hrunning, hconfirmed, hfallback, hocc⟩ := bankFallsBack_shown hlt (banksShown s b)
        rw [if_neg hgood, if_pos hother, if_pos (.inr hother)]
        simp only [bootStep_reg, bootStep_fld, bootStep_flag, bootStep_evt, bootStep_keep]
        exact ⟨rfl, rfl, hconfirmed.trans (banksShown_confirmed s hlt), fun h => absurd h hgood,
          fun _ _ => ⟨hrunning, hfallback, hocc⟩, fun _ hbad => absurd hother hbad⟩
      · rw [if_neg hgood, if_neg hother, if_neg (not_or_intro hgood hother)]
        simp only [bootStep_reg, bootStep_fld, bootStep_flag, bootStep_evt, bootStep_keep]
        exact ⟨rfl, rfl, (recoveryEntry_confirmed _).trans (banksShown_confirmed s hlt), fun h => absurd h hgood,
          fun _ h => absurd h hother, fun _ _ => recoveryEntry_shown _⟩
  case ready =>
    rintro s u us hphase hstep rfl
    exact congrArg Host.Outcome.next (if_pos ⟨hphase, hstep⟩)

end Sys2Proof.Machine
end


section
/-! PROOF. O14, the firmware stage: its clause about DATA fails in a state whose stage has more words programmed than received. -/

namespace Sys2Proof.Machine

open Sys2Proof

/-- A stage of 16,385 words that counts one word programmed and none received: the room of 16,384 words counts from the word programmed in the
statement, and from the words not yet programmed, never fewer than none, in the model. -/
def overProgrammed : FwStage := { len := 16385, prog := 1, at_ := 0 }

/-- A device that serves, with this stage begun. -/
def overProgrammedState : State := { phase := .ready, reed := .running, boot := { stage := some overProgrammed } }

/-- The words of the image, all of them. -/
def imageWords : List Word := List.replicate 16385 0#32

theorem length_imageWords : imageWords.length = 16385 := List.length_replicate

/-- A DATA with the whole image. -/
def allWords : Request := { port := 0, h0 := 7#32, h1 := 0#32, params := 0#32 :: imageWords, check := 0#32 }

/-- Nothing is drained of a stage with no word waiting. -/
theorem fwDrain_of_drained {now : Tick} {x : FwStage} (fuel : Nat) (hgot : x.got ≤ x.prog) (hnow : now ≤ x.at_) : fwDrain now fuel x = x := by
  cases fuel with
  | zero => rfl
  | succ n => rw [fwDrain, if_neg (Nat.not_lt.mpr hgot), if_neg (BitVec.not_lt.mpr hnow)]

/-- A DATA with more words than the buffer has room for is refused. -/
theorem opFwStageData_full {s : State} {r : Request} {p : Word} {ws : List Word} {x : FwStage} (hp : r.params = p :: ws)
    (hbits : bitsOf p 20 10 = 0) (hnext : bitsOf p 0 20 = s.fld R.fwStage_NEXT_WORD) (hstage : s.boot.stage = some x) (hended : x.ended = false)
    (hlen : x.got + ws.length ≤ x.len) (hfull : 16384 < (fwDrain s.dt 32768 x).got - (fwDrain s.dt 32768 x).prog + ws.length) :
    opFwStageData r s = refuse s stBUSY_TARGET := by
  have hfirst : r.p 0 = p := by rw [Request.p, hp]; rfl
  simp only [opFwStageData, hp, List.drop_one, List.tail_cons, hstage, hfirst, hbits, hnext, hended, ne_eq, not_true_eq_false, decide_false,
    Bool.or_self, Bool.false_eq_true, false_or, if_neg (Nat.not_lt.mpr hlen), if_false, if_pos hfull]

theorem overProgrammed_drain : fwDrain overProgrammedState.dt 32768 overProgrammed = overProgrammed :=
  fwDrain_of_drained 32768 (Nat.zero_le _) (by decide)

theorem allWords_refused : opFwStageData allWords overProgrammedState = refuse overProgrammedState stBUSY_TARGET := by
  refine opFwStageData_full (p := 0#32) (ws := imageWords) (x := overProgrammed) rfl (by decide) (by decide) rfl rfl ?_ ?_
  · rw [length_imageWords]
    exact Nat.le_refl _
  · rw [overProgrammed_drain, length_imageWords]
    decide

/-- Refutes O14: with one word counted as programmed before any is received, 16,385 words come within the room the clause about DATA gives,
but the model answers BUSY_TARGET and leaves the stage as it is. -/
theorem not_firmwareStage : ¬ Obligations.Firmware_Stage := by
  rintro ⟨-, hdata, -⟩
  have hserved : overProgrammedState.served := by decide
  have htarget : allWords.target = 0 := by decide
  have hfits : overProgrammed.got + imageWords.length ≤ overProgrammed.len := by
    rw [length_imageWords]
    exact Nat.le_refl _
  have hroom : overProgrammed.got + imageWords.length ≤ (fwDrain overProgrammedState.dt 32768 overProgrammed).prog + 16384 := by
    rw [overProgrammed_drain, length_imageWords]
    decide
  obtain ⟨u, hexec, -, -, -, y, hy, hgot, -⟩ := hdata overProgrammedState allWords 0#32 imageWords overProgrammed hserved
    htarget rfl (List.cons_ne_nil _ _) (by decide) rfl (by decide) rfl hfits hroom
  have hrefused : exec (.fwStageData allWords) overProgrammedState = .next (respond allWords (refuse overProgrammedState stBUSY_TARGET)) := by
    have hcount : 2 ≤ allWords.params.length := by
      rw [allWords, List.length_cons, length_imageWords]
      decide
    rw [exec_of_served rfl hserved (by rw [htarget, decide_eq_true hcount]; rfl), allWords_refused]
  have hsame : respond allWords { st := u } = respond allWords (refuse overProgrammedState stBUSY_TARGET) :=
    Host.Outcome.next.inj (hexec.symm.trans hrefused)
  have hboot : u.boot = overProgrammedState.boot :=
    (CmdOnly.respond allWords { st := u }).boot.symm.trans ((congrArg State.boot hsame).trans (CmdOnly.respond allWords _).boot)
  have hyx : y = overProgrammed := Option.some.inj (hy.symm.trans (congrArg BootS.stage hboot))
  rw [hyx, length_imageWords] at hgot
  exact absurd hgot (by decide)

end Sys2Proof.Machine
end

section
/-! PROOF. O15, switches and trials: its clause about CONFIRM fails in a state where a write of word 960 waits while no write of it runs. -/

namespace Sys2Proof.Machine

open Sys2Proof

/-- A device under trial on bank 0, with a write of word 960 that waits though no write of it runs. -/
def staleWaitState : State :=
  ({ phase := .ready, reed := .running, keep := { wait := [(960, 5#32)] } } : State).setFlag R.fwStat_TRIAL true

/-- A CONFIRM of a switch of all groups. -/
def confirmAll : Request := { port := 0, h0 := 7#32, h1 := 0xFFFF0002#32, params := [1#32, 0#32], check := 0#32 }

/-- A CONFIRM in the trial it ends. -/
theorem opFwConfirm_confirms {s : State} {r : Request} (hgood : fwSwitchBad r = none) (htrial : s.flag R.fwStat_TRIAL = true)
    (hswap : s.boot.swap = none) :
    (opFwConfirm r s).st.keep = (keepBump (keepQueue (s.withBoot { s.boot with rom := false }) 960 (wd (s.fld R.fwStat_RUNNING))).1 964 1).keep := by
  rw [opFwConfirm, hgood]
  dsimp only
  rw [if_neg (by simp [htrial, hswap])]
  rfl

/-- A write of a word in which none runs goes ahead of one that waits, and a count of another word behind it. -/
theorem confirm_keeps_stale {s : State} {w : Word} (v : Word) (hbusy : s.keep.busy = []) (hwait : s.keep.wait = [(960, w)]) :
    ∃ v', (keepBump (keepQueue s 960 v).1 964 1).keep.busy = [(960, v), (964, v')] ∧
      (keepBump (keepQueue s 960 v).1 964 1).keep.wait = [(960, w)] := by
  have hstart : keepQueue s 960 v = keepStart s 960 v := keepQueue_free v (by rw [keepBusy, hbusy]; rfl)
  have hbusy1 : (keepQueue s 960 v).1.keep.busy = [(960, v)] := by rw [hstart, keepStart_busy, hbusy, List.nil_append]
  have hwait1 : (keepQueue s 960 v).1.keep.wait = [(960, w)] := by rw [hstart, keepStart_wait, hwait]
  rw [keepBump, keepQueue_free _ (by rw [keepBusy, hbusy1]; rfl), keepStart_busy, keepStart_wait, hbusy1, hwait1]
  exact ⟨_, rfl, rfl⟩

theorem staleWaitState_running : staleWaitState.fld R.fwStat_RUNNING = 0 := by decide

theorem staleWaitState_trial : staleWaitState.flag R.fwStat_TRIAL = true := by decide

/-- Refutes O15: a write of word 960 that waits with none running stays behind the bank CONFIRM writes, so 5 and not bank 0 is the last value
of the word. -/
theorem not_firmwareSwitch : ¬ Obligations.Firmware_Switch := by
  rintro ⟨-, -, hconfirm, -⟩
  have hserved : staleWaitState.served := by decide
  have hgood : fwSwitchBad confirmAll = none := by decide
  obtain ⟨u, -, hexec, -, -, -, hlatest⟩ := hconfirm staleWaitState confirmAll hserved rfl hgood staleWaitState_trial rfl
  have hserves : exec (.fwSwitchConfirm confirmAll) staleWaitState = .next (respond confirmAll (opFwConfirm confirmAll staleWaitState)) :=
    exec_of_served rfl hserved rfl
  have hsame : respond confirmAll { st := u } = respond confirmAll (opFwConfirm confirmAll staleWaitState) :=
    Host.Outcome.next.inj (hexec.symm.trans hserves)
  have hkeep : u.keep = (opFwConfirm confirmAll staleWaitState).st.keep :=
    (CmdOnly.respond confirmAll { st := u }).keep.symm.trans ((congrArg State.keep hsame).trans (CmdOnly.respond confirmAll _).keep)
  rw [opFwConfirm_confirms hgood staleWaitState_trial rfl] at hkeep
  obtain ⟨v, hbusy, hwait⟩ := confirm_keeps_stale (s := staleWaitState.withBoot { staleWaitState.boot with rom := false }) (w := 5#32)
    (wd (staleWaitState.fld R.fwStat_RUNNING)) rfl rfl
  have hstale : keepLatest u 960 = 5#32 := by
    rw [keepLatest, hkeep, hbusy, hwait]
    rfl
  rw [hstale, staleWaitState_running] at hlatest
  exact absurd hlatest (by decide)

end Sys2Proof.Machine
end

section
/-! PROOF. O23, the sensing front end: what Inkwell leaves of the rest of the block, then a filter output, a comparator run, a modulator lost and found
again, calibrations and modulator clocks. -/

namespace Sys2Proof.Machine

open Sys2Proof

/-! ### Registers a write takes at once (R11) -/

/-- A field of a word made of a number. -/
theorem bitsOf_wd {n : Nat} (lo k : Nat) (hn : n < 2 ^ 32) (hk : k ≤ 32) : bitsOf (wd n) lo k = n / 2 ^ lo % 2 ^ k := by
  have hpow : 2 ^ k ≤ 2 ^ 32 := Nat.pow_le_pow_right (by decide) hk
  have hmask : (2 ^ k - 1) % 2 ^ 32 = 2 ^ k - 1 := Nat.mod_eq_of_lt (by omega)
  rw [bitsOf, wd, lowMask, BitVec.toNat_and, BitVec.toNat_ushiftRight, BitVec.toNat_ofNat, BitVec.toNat_ofNat, Nat.mod_eq_of_lt hn, hmask,
    Nat.and_two_pow_sub_one_eq_mod, Nat.shiftRight_eq_div_pow]

/-- A register with neither shadowed fields nor fields cleared by ones takes the word `written` gives. -/
theorem plainNow_written {s : State} {a : Nat} {w : Word} {row : RegRow} (hrow : regRow a = some row) (hrs : row.rs = 0) (hw1c : row.w1c = 0) :
    plainNow s a w = { st := s.setReg a (written s a w) } := by
  have hzero : wd 0 = 0#32 := rfl
  have hones : ∀ x : Word, x &&& 4294967295#32 = x := fun x => BitVec.and_allOnes
  simp [plainNow, written, hrow, writeNow, rowNow, hrs, hw1c, hzero, hones]

/-- A register write of a block whose clock node runs. -/
theorem regRowWrite_ready {s : State} {a : Nat} (x : Res) (h : regReady s a = true) : regRowWrite s a x = x.st := if_pos h

/-! ### Channels -/

@[simp] theorem State.chS_setChS_same (s : State) (c : Nat) (x : ChanS) : (s.setChS c x).chS c = x := tblGet_put_same s.sense.ch c x {}

theorem State.chS_setChS_ne (s : State) {c d : Nat} (x : ChanS) (h : d ≠ c) : (s.setChS c x).chS d = s.chS d :=
  tblGet_put_ne s.sense.ch c d x {} {} h.symm

/-- States with the same table of channels. -/
theorem State.chS_of_ch {s t : State} (h : t.sense.ch = s.sense.ch) (c : Nat) : t.chS c = s.chS c := congrArg (tblGet · c ({} : ChanS)) h

/-! ### What Inkwell's steps leave (R302, R312 to R314, R318) -/

/-- What neither Inkwell nor its registers nor the count of open values is part of. -/
structure LeftByInk {γ : Type} (k : State → γ) : Prop where
  reg : ∀ t a x, 0x180000 ≤ a → k (State.setReg t a x) = k t
  ink : ∀ t x, k (State.withInk t x) = k t
  free : ∀ t x, k (State.withFree t x) = k t

theorem leftByInk_sense : LeftByInk State.sense := ⟨fun _ _ _ _ => rfl, fun _ _ => rfl, fun _ _ => rfl⟩

theorem leftByInk_nib : LeftByInk State.nib := ⟨fun _ _ _ _ => rfl, fun _ _ => rfl, fun _ _ => rfl⟩

theorem leftByInk_loop : LeftByInk State.loop := ⟨fun _ _ _ _ => rfl, fun _ _ => rfl, fun _ _ => rfl⟩

/-- A register below those of Inkwell. -/
theorem leftByInk_reg {a : Nat} (h : a < 0x180000) : LeftByInk (State.reg · a) :=
  ⟨fun _ _ _ hb => State.reg_setReg_ne _ _ _ _ (Nat.ne_of_gt (Nat.lt_of_lt_of_le h hb)), fun _ _ => rfl, fun _ _ => rfl⟩

section

variable {γ : Type} {k : State → γ} (hk : LeftByInk k)

include hk

theorem setFld_left (s : State) (f : RF) (v : Nat) (h : 0x180000 ≤ f.addr) : k (s.setFld f v) = k s := hk.reg _ _ _ h

theorem freshWords_left (n : Nat) (s : State) : k (freshWords n s).2 = k s := by
  induction n generalizing s with
  | zero => rfl
  | succ n ih => exact (ih _).trans (hk.free ..)

theorem spoilOut_left (ch : Nat) (gone : List Tick) (es : List (List Word)) (s : State) : k (spoilOut ch gone es s).2 = k s := by
  induction es generalizing s with
  | nil => rfl
  | cons e es ih =>
    unfold spoilOut
    split
    · exact (ih _).trans (freshWords_left hk ..)
    · exact ih _

theorem inkOverwrite_left (s : State) (q n ch : Nat) (gone : List Tick) : k (inkOverwrite s q n ch gone) = k s := by
  refine foldl_keep _ k (fun t r => ?_) _ _
  dsimp only
  split
  · exact (setFld_left hk _ _ _ (by simp only [R.inkSflag_FLAGS, R.inkSflag]; omega)).trans ((hk.ink ..).trans (spoilOut_left hk ..))
  · rfl

theorem stagePeak_left (s : State) : k (stagePeak s) = k s := (setFld_left hk _ _ _ (by decide)).trans (hk.free ..)

theorem inkStep_left (s : State) (kind src period : Nat) (t : Tick) (f : List Byte → List Byte) : k (inkStep s kind src period t f) = k s := by
  have hput (q : Nat) (r : InkRec) : k (inkPutRec s q r) = k s := hk.ink ..
  unfold inkStep
  split
  · rfl
  · extract_lets q
    split
    · rfl
    · split
      · rfl
      · split
        · rfl
        · extract_lets past ds ic1
          split
          · exact hput ..
          · exact (stagePeak_left hk _).trans ((inkOverwrite_left hk ..).trans (hput ..))

theorem rawSteps_left (s : State) (c : Nat) (e : Tick) (tm : Nat) (bits : List Bool) : k (rawSteps s c e tm bits) = k s :=
  foldl_keep _ k (fun _ _ => inkStep_left hk ..) _ _

end

/-! ### A filter output (R151, R152) -/

/-- A channel with an output kept, and whether it has settled. -/
def sincKept (s : State) (c : Nat) (o : Sinc3) : State :=
  let taken := min (3 * o.s) ((s.chS c).taken + o.s)
  (s.setChS c { s.chS c with taken := taken, outs := (o :: (s.chS c).outs).take 8 }).setFlag (R.senseStat_SETTLED c) (decide (3 * o.s ≤ taken))

/-- The bits and the tap of an output handed to Inkwell. -/
def sincStreamed (s : State) (c : Nat) (bits : List Bool) (e : Tick) (tm : Nat) (o : Sinc3) : State :=
  inkStep (rawSteps s c e tm (bits.take o.s)) 2 (c / 8) (o.s * tm) e
    (fun l => bytesAt l (2 * (c % 8)) [BitVec.ofNat 8 (sincTap o), BitVec.ofNat 8 (sincTap o / 256)])

theorem sincStreamed_left {γ : Type} {k : State → γ} (hk : LeftByInk k) (s : State) (c : Nat) (bits : List Bool) (e : Tick) (tm : Nat) (o : Sinc3) :
    k (sincStreamed s c bits e tm o) = k s :=
  (inkStep_left hk ..).trans (rawSteps_left hk ..)

section

variable (s : State) (c : Nat) (bits : List Bool) (e : Tick) (tm : Nat) (o : Sinc3)

theorem sincStreamed_chS (d : Nat) : (sincStreamed s c bits e tm o).chS d = s.chS d :=
  State.chS_of_ch (congrArg SenseS.ch (sincStreamed_left leftByInk_sense ..)) d

variable {c} in
theorem sincStreamed_settled (hc : c < 128) :
    (sincStreamed s c bits e tm o).flag (R.senseStat_SETTLED c) = s.flag (R.senseStat_SETTLED c) :=
  congrArg (bitsOf · 4 1 == 1) (sincStreamed_left (leftByInk_reg (a := R.senseStat c) (by simp only [R.senseStat]; omega)) ..)

theorem sincKept_chS_same : (sincKept s c o).chS c =
    { s.chS c with taken := min (3 * o.s) ((s.chS c).taken + o.s), outs := (o :: (s.chS c).outs).take 8 } :=
  State.chS_setChS_same s c _

theorem sincKept_chS_ne {d : Nat} (h : d ≠ c) : (sincKept s c o).chS d = s.chS d := State.chS_setChS_ne s _ h

theorem sincKept_settled :
    (sincKept s c o).flag (R.senseStat_SETTLED c) = decide (3 * o.s ≤ min (3 * o.s) ((s.chS c).taken + o.s)) :=
  State.flag_setFlag_same _ _ _ (by decide : 4 + 1 ≤ 32) rfl

end

/-- The output of the last bits at a selected edge, with its span (R151, R152). -/
def sincOf (s : State) (c : Nat) (bits : List Bool) (e : Tick) : Sinc3 :=
  let n := s.fld (R.senseCfg_S3_OSR c)
  let stop := e - tk (s.fld (R.senseCalactDelay_DELAY c))
  { y := sincY n bits, s := n, stop := stop, centre := stop - tk ((3 * n - 2) * chanTm s c / 2) }

theorem eq_sincOf {v : State} {c : Nat} {bits : List Bool} {e : Tick} {o : Sinc3} (hy : o.y = sincY (v.fld (R.senseCfg_S3_OSR c)) bits)
    (hs : o.s = v.fld (R.senseCfg_S3_OSR c)) (hstop : o.stop = e - tk (v.fld (R.senseCalactDelay_DELAY c)))
    (hcentre : o.centre = o.stop - tk ((3 * o.s - 2) * chanTm v c / 2)) : o = sincOf v c bits e := by
  rw [hstop, hs] at hcentre
  exact Sinc3.mk.injEq .. ▸ ⟨hy, hs, hstop, hcentre⟩

theorem sincOutput_kept {s v : State} {c : Nat} {bits : List Bool} {e : Tick} {o : Sinc3} (hen : s.flag (R.senseCfg_EN c) = true)
    (htb : tbValid s = true) (hruns : nodeRuns s 3 = true) (hedge : selEdge s c e = true) (hv : v = s.at (e + tk (capTicks s c)))
    (ho : o = sincOf v c bits e) :
    sincOutput s c bits e =
      let u := sincStreamed (sincKept v c o) c bits e (chanTm v c) o
      inkValue u 0 c o.stop (sincValue u c o) := by
  subst hv ho
  unfold sincOutput
  rw [if_neg (by simp [hen, htb, hruns, hedge])]
  rfl

/-! ### The comparator (R153, R154) -/

section

variable {s : State} {c : Nat} {bits : List Bool}

/-- A run that begins, counted and told. -/
def ocTold (s : State) (c d : Nat) : State :=
  (((s.setChS c { s.chS c with ocOn := true }).cntSat (R.senseStat_OC_TRIPS c)).setFlag (R.senseStat_OC_TRIP c) true).raiseLim 64 c (wd d) (10 * msTicks)

theorem ocBits_begins {d : Nat} (hrun : ocRun s c bits = some d) (hon : (s.chS c).ocOn = false) :
    ocBits s c bits = if ocActive (ocTold s c d) c then sourceAct (ocTold s c d) (chanNibs (ocTold s c d) c) 3 else ocTold s c d := by
  simp only [ocBits, hrun, hon]
  rfl

theorem ocBits_lasts {d : Nat} (hrun : ocRun s c bits = some d) (hon : (s.chS c).ocOn = true) : ocBits s c bits = s := by
  simp only [ocBits, hrun, hon, if_true]

theorem ocBits_ends (hrun : ocRun s c bits = none) : ocBits s c bits = s.setChS c { s.chS c with ocOn := false } := by
  simp only [ocBits, hrun]

end

theorem exec_overcurrentTrip {s : State} {c : Fin 128} (bits : List Bool) (e : Tick) (hen : s.flag (R.senseCfg_EN c.val) = true)
    (hgate : senseGated s = false) : exec (.overcurrentTrip c ⟨bits, e⟩) s = .next (ocBits s c.val (ocSince s c.val bits e)) :=
  congrArg Host.Outcome.next (if_pos (by rw [hen, hgate]; rfl))

/-! ### A modulator lost and found again (R159, R163) -/

section

variable (s : State) (c : Nat)

/-- LOST, LOST_SEEN and the count of losses of a channel, and its bit of `SENSE.LOST`. -/
def lostShown : State :=
  (((s.setFlag (R.senseStat_LOST c) true).setFlag (R.senseStat_LOST_SEEN c) true).cntSat (R.senseStat_LOSSES c)).setFlag ⟨R.senseLost (c / 32), c % 32, 1⟩ true

/-- The windows, the results on their way and the calibration of a channel that is lost. -/
def lostSpoils : State :=
  let t := lostPosts (s.setChS c { s.chS c with lostA := true, lostB := true }) c
  match t.sense.cal with
  | some (ch, _) => if ch = c then t.withSense { t.sense with calLost := true } else t
  | none => t

/-- Spoiling windows, results and a calibration touches the front end alone. -/
theorem lostSpoils_leaves {γ : Type} (k : State → γ) (hk : ∀ t x, k (State.withSense t x) = k t) : k (lostSpoils s c) = k s := by
  have hposts : k (lostPosts (s.setChS c { s.chS c with lostA := true, lostB := true }) c) = k s := (hk ..).trans (hk ..)
  unfold lostSpoils
  extract_lets t
  split
  · split
    · exact (hk ..).trans hposts
    · exact hposts
  · exact hposts

theorem lostSpoils_ch : (lostSpoils s c).sense.ch = (s.setChS c { s.chS c with lostA := true, lostB := true }).sense.ch := by
  unfold lostSpoils
  extract_lets t
  split
  · split <;> rfl
  · rfl

theorem lostShown_regsIn : RegsIn (fun a => a = R.senseStat c ∨ a = R.senseLost (c / 32)) s (lostShown s c) :=
  (((RegsIn.setFlag s (R.senseStat_LOST c) true (.inl rfl)).trans (.setFlag _ (R.senseStat_LOST_SEEN c) true (.inl rfl))).trans
    (.cntSat _ (R.senseStat_LOSSES c) (.inl rfl))).trans (.setFlag _ ⟨R.senseLost (c / 32), c % 32, 1⟩ true (.inr rfl))

theorem senseLost_ne_senseStat : R.senseLost (c / 32) ≠ R.senseStat c := by
  simp only [R.senseLost, R.senseStat]
  omega

theorem lostShown_lost : (lostShown s c).flag (R.senseStat_LOST c) = true := by
  have hseen (t : State) : (t.setFlag (R.senseStat_LOST_SEEN c) true).flag (R.senseStat_LOST c) = t.flag (R.senseStat_LOST c) :=
    State.flag_setFlag_apart t (R.senseStat_LOST_SEEN c) (R.senseStat_LOST c) true rfl (by decide : 0 + 1 ≤ 32) (.inr (by decide : 0 + 1 ≤ 1))
  have hlosses (t : State) : (t.cntSat (R.senseStat_LOSSES c)).flag (R.senseStat_LOST c) = t.flag (R.senseStat_LOST c) :=
    congrArg (· == 1) (State.fld_setFld_apart t (R.senseStat_LOSSES c) (R.senseStat_LOST c) _ rfl (by decide : 0 + 1 ≤ 32) (.inr (by decide : 0 + 1 ≤ 16)))
  rw [lostShown, State.flag_setFlag_ne _ _ _ _ (senseLost_ne_senseStat c), hlosses, hseen]
  exact State.flag_setFlag_same _ _ _ (by decide : 0 + 1 ≤ 32) rfl

theorem lostShown_seen : (lostShown s c).flag (R.senseStat_LOST_SEEN c) = true := by
  have hlosses (t : State) : (t.cntSat (R.senseStat_LOSSES c)).flag (R.senseStat_LOST_SEEN c) = t.flag (R.senseStat_LOST_SEEN c) :=
    congrArg (· == 1) (State.fld_setFld_apart t (R.senseStat_LOSSES c) (R.senseStat_LOST_SEEN c) _ rfl (by decide : 1 + 1 ≤ 32) (.inr (by decide : 1 + 1 ≤ 16)))
  rw [lostShown, State.flag_setFlag_ne _ _ _ _ (senseLost_ne_senseStat c), hlosses]
  exact State.flag_setFlag_same _ _ _ (by decide : 1 + 1 ≤ 32) rfl

/-- A channel that becomes LOST: what it shows, what it spoils, and event 65. -/
def lostTold : State := (lostSpoils (lostShown s c) c).raise 65 c 1#32

theorem lostTold_reg (a : Nat) : (lostTold s c).reg a = (lostShown s c).reg a := lostSpoils_leaves _ _ (State.reg · a) (fun _ _ => rfl)

theorem lostTold_flag (f : RF) : (lostTold s c).flag f = (lostShown s c).flag f := congrArg (fun x => bitsOf x f.lo f.w == 1) (lostTold_reg s c f.addr)

theorem lostTold_chS_same : (lostTold s c).chS c = { s.chS c with lostA := true, lostB := true } :=
  (State.chS_of_ch (lostSpoils_ch (lostShown s c) c) c).trans (State.chS_setChS_same ..)

theorem lostTold_chS_ne {d : Nat} (h : d ≠ c) : (lostTold s c).chS d = s.chS d :=
  (State.chS_of_ch (lostSpoils_ch (lostShown s c) c) d).trans (State.chS_setChS_ne _ _ h)

theorem lostTold_lossAct : (lostTold s c).flag (R.senseCfg_LOSS_ACT c) = s.flag (R.senseCfg_LOSS_ACT c) :=
  (lostTold_flag ..).trans ((lostShown_regsIn s c).flag_eq (by simp only [R.senseCfg_LOSS_ACT, R.senseCfg, R.senseStat, R.senseLost]; omega))

variable {s c} in
/-- As many equal bits as LOSSRUN make a channel LOST. -/
theorem lostBits_loses {bits : List Bool} (hen : s.flag (R.senseCfg_EN c) = true) (hgate : senseGated s = false)
    (hlost : s.flag (R.senseStat_LOST c) = false) (hlen : s.fld (R.senseLoss_LOSSRUN c) ≤ bits.length)
    (hsame : (bits.take (s.fld (R.senseLoss_LOSSRUN c))).all id = true ∨ (bits.take (s.fld (R.senseLoss_LOSSRUN c))).all (!·) = true) :
    lostBits s c bits = if s.flag (R.senseCfg_LOSS_ACT c) then sourceAct (lostTold s c) (chanNibs (lostTold s c) c) 4 else lostTold s c := by
  rw [← lostTold_lossAct]
  refine if_neg ?_
  rcases hsame with hones | hzeros
  · simp [hen, hgate, hlost, hlen, hones]
  · simp [hen, hgate, hlost, hlen, hzeros]

/-- A channel found again: windows none of whose bits was taken yet, LOST and its bit of `SENSE.LOST`. -/
def foundShown : State := ((lostBefore s c).setFlag (R.senseStat_LOST c) false).setFlag ⟨R.senseLost (c / 32), c % 32, 1⟩ false

theorem foundShown_lost : (foundShown s c).flag (R.senseStat_LOST c) = false :=
  (State.flag_setFlag_ne _ ⟨R.senseLost (c / 32), c % 32, 1⟩ _ _ (senseLost_ne_senseStat c)).trans (State.flag_setFlag_same _ _ _ (by decide : 0 + 1 ≤ 32) rfl)

variable {s c} in
theorem lostEnd_found (hlost : s.flag (R.senseStat_LOST c) = true) (hgate : senseGated s = false) :
    lostEnd s c = (foundShown s c).raise 65 c 0#32 :=
  if_neg (by simp [hlost, hgate])

end

/-! ### Calibrations (R161) -/

section

variable {s : State}

/-- The fields of `SENSE.CAL` that a write gives. -/
theorem written_senseCal (s : State) (w : Word) : written s R.senseCal w = mergeBits (s.reg R.senseCal) w 0x0700007F#32 := rfl

/-- A calibration of a channel in a mode begins. -/
def calStarted (s : State) (w : Word) (ch mode : Nat) : State :=
  let u := (s.setReg R.senseCal (written s R.senseCal w)).setFlag R.senseCal_BUSY true
  u.withSense { u.sense with cal := some (ch, mode), calLost := s.flag (R.senseStat_LOST ch) }

/-- START takes effect on an enabled channel while no calibration runs, OFFSET only with no winding of the channel in RUN. -/
theorem calWrite_starts {w : Word} {ch mode : Nat} (hstart : bitOf w 31 = true) (hmode : bitsOf w 24 3 = mode) (hch : bitsOf w 0 7 = ch)
    (hkind : mode = 1 ∨ mode = 2) (hbusy : s.flag R.senseCal_BUSY = false) (hen : s.flag (R.senseCfg_EN ch) = true)
    (hfree : mode = 2 → (boundGroups s ch).any (fun g => grpState s g == 2) = false) :
    (calWrite s w).st = calStarted s w ch mode := by
  have hm : bitsOf (written s R.senseCal w) 24 3 = mode := (bitsOf_mergeBits (by decide) (by decide)).trans hmode
  have hc : bitsOf (written s R.senseCal w) 0 7 = ch := (bitsOf_mergeBits (by decide) (by decide)).trans hch
  have hrow : regRow R.senseCal = some ⟨0x0A0040, 0x0, 1, 0x0, 1, 0x0, 0x700007F, 0x0, 0x0, 0x80000000, 0x0, false⟩ := rfl
  have hallowed : ¬ ((!s.flag (R.senseCfg_EN ch)) = true ∨ mode = 2 ∧ (boundGroups s ch).any (fun g => grpState s g == 2) = true) := by
    rintro (hoff | ⟨htwo, hrun⟩)
    · simp [hen] at hoff
    · exact absurd hrun (by rw [hfree htwo]; exact Bool.false_ne_true)
  have hlost : (s.setReg R.senseCal (written s R.senseCal w)).flag (R.senseStat_LOST ch) = s.flag (R.senseStat_LOST ch) :=
    (RegsIn.setReg (P := (· = R.senseCal)) _ rfl).flag_eq (by simp only [R.senseStat_LOST, R.senseStat, R.senseCal]; omega)
  unfold calWrite
  dsimp only
  rw [hm, hc, hstart, plainNow_written hrow rfl rfl, if_neg (by simp), if_neg (by omega), hbusy, if_neg Bool.false_ne_true, if_neg hallowed, hlost]
  rfl

/-- What every calibration that begins leaves behind. -/
theorem calStarted_shows (s : State) (w : Word) (ch mode : Nat) :
    (calStarted s w ch mode).flag R.senseCal_BUSY = true ∧ (calStarted s w ch mode).sense.cal = some (ch, mode) ∧
      (calStarted s w ch mode).sense.calLost = s.flag (R.senseStat_LOST ch) ∧ (∀ a, a ≠ R.senseCal → (calStarted s w ch mode).reg a = s.reg a) ∧
      (calStarted s w ch mode).sense.ch = s.sense.ch ∧ (calStarted s w ch mode).evt = s.evt :=
  ⟨State.flag_setFlag_same (s.setReg R.senseCal (written s R.senseCal w)) R.senseCal_BUSY true (by decide) rfl, rfl, rfl,
    fun _ ha => (State.reg_setFlag_ne _ R.senseCal_BUSY _ _ ha.symm).trans (State.reg_setReg_ne _ _ _ _ ha.symm), rfl, rfl⟩

/-- A word of `SENSE.CAL` with START, a mode and a channel. -/
theorem calWord_fields {mode ch : Nat} (hmode : mode < 8) (hch : ch < 128) :
    bitOf (wd (2 ^ 31 + mode * 2 ^ 24 + ch)) 31 = true ∧ bitsOf (wd (2 ^ 31 + mode * 2 ^ 24 + ch)) 24 3 = mode ∧
      bitsOf (wd (2 ^ 31 + mode * 2 ^ 24 + ch)) 0 7 = ch := by
  have hfits : 2 ^ 31 + mode * 2 ^ 24 + ch < 2 ^ 32 := by omega
  rw [← flag_eq_bitOf _ (by decide), bitsOf_wd 31 1 hfits (by decide), bitsOf_wd 24 3 hfits (by decide), bitsOf_wd 0 7 hfits (by decide), beq_iff_eq]
  omega

/-- What a calibration measured, and whether it failed. -/
def calMeasured (s : State) (rt : Option (Nat × Nat)) (sum : Int) (ch mode : Nat) : State × Bool :=
  if mode = 1 then scanDone s ch rt else (s.setReg R.senseCalofs (f32 ((sum : Rat) / 262144)), s.sense.calLost)

theorem calMeasured_evt (s : State) (rt : Option (Nat × Nat)) (sum : Int) (ch mode : Nat) : (calMeasured s rt sum ch mode).1.evt = s.evt := by
  unfold calMeasured scanDone
  split
  · split <;> rfl
  · rfl

/-- A calibration ends: BUSY falls, FAIL says how, and event 67 tells it. -/
def calEnded (t : State) (fail : Bool) (ch mode : Nat) : State :=
  let u := (t.setFlag R.senseCal_BUSY false).setFlag R.senseCal_FAIL fail
  (u.withSense { u.sense with cal := none, calLost := false }).raise 67 ch (wd (b2n fail * 256 + mode))

theorem calDone_ends {ch mode : Nat} (rt : Option (Nat × Nat)) (sum : Int) (hcal : s.sense.cal = some (ch, mode)) :
    calDone s rt sum = calEnded (calMeasured s rt sum ch mode).1 (calMeasured s rt sum ch mode).2 ch mode := by
  simp only [calDone, hcal]
  rfl

section

variable (t : State) (fail : Bool) (ch mode : Nat)

theorem calEnded_busy : (calEnded t fail ch mode).flag R.senseCal_BUSY = false :=
  (State.flag_setFlag_apart (t.setFlag R.senseCal_BUSY false) R.senseCal_FAIL R.senseCal_BUSY fail rfl (by decide) (by decide)).trans
    (State.flag_setFlag_same _ _ _ (by decide) rfl)

theorem calEnded_fail : (calEnded t fail ch mode).flag R.senseCal_FAIL = fail :=
  State.flag_setFlag_same (t.setFlag R.senseCal_BUSY false) R.senseCal_FAIL fail (by decide) rfl

theorem calEnded_reg {a : Nat} (ha : a ≠ R.senseCal) : (calEnded t fail ch mode).reg a = t.reg a :=
  (State.reg_setFlag_ne _ R.senseCal_FAIL _ _ ha.symm).trans (State.reg_setFlag_ne _ R.senseCal_BUSY _ _ ha.symm)

theorem calEnded_fld {f : RF} (hf : f.addr ≠ R.senseCal) : (calEnded t fail ch mode).fld f = t.fld f :=
  congrArg (bitsOf · f.lo f.w) (calEnded_reg t fail ch mode hf)

end

/-- The transitions a scan found: the eye between the latest and the earliest a period on, and its centre in steps of 2 ns (R161). -/
def scanShown (s : State) (lo hi eye : Nat) : State :=
  (((s.setFld R.senseCalres_RT_MIN lo).setFld R.senseCalres_RT_MAX hi).setFld R.senseCaleye_EYE eye).setFld R.senseCaleye_CENTRE
    (min 63 ((2 * hi + eye + 32) / 64))

theorem scanShown_fields {lo hi eye : Nat} (hlo : lo < 65536) (hhi : hi < 65536) (heye : eye < 65536) :
    (scanShown s lo hi eye).fld R.senseCalres_RT_MIN = lo ∧ (scanShown s lo hi eye).fld R.senseCalres_RT_MAX = hi ∧
      (scanShown s lo hi eye).fld R.senseCaleye_EYE = eye ∧ (scanShown s lo hi eye).fld R.senseCaleye_CENTRE = min 63 ((2 * hi + eye + 32) / 64) := by
  have hres (t : State) (f : RF) (hf : f.addr = R.senseCalres) (x y : Nat) :
      ((t.setFld R.senseCaleye_EYE x).setFld R.senseCaleye_CENTRE y).fld f = t.fld f :=
    (State.fld_setFld_ne _ R.senseCaleye_CENTRE f y (hf ▸ by decide)).trans (State.fld_setFld_ne t R.senseCaleye_EYE f x (hf ▸ by decide))
  refine ⟨?min, ?max, ?eye, ?centre⟩
  case min =>
    refine (hres _ R.senseCalres_RT_MIN rfl _ _).trans ((State.fld_setFld_apart _ R.senseCalres_RT_MAX R.senseCalres_RT_MIN hi rfl (by decide) (by decide)).trans ?_)
    exact (State.fld_setFld_same s R.senseCalres_RT_MIN lo (by decide)).trans (Nat.mod_eq_of_lt hlo)
  case max =>
    exact (hres _ R.senseCalres_RT_MAX rfl _ _).trans ((State.fld_setFld_same _ R.senseCalres_RT_MAX hi (by decide)).trans (Nat.mod_eq_of_lt hhi))
  case eye =>
    refine (State.fld_setFld_apart _ R.senseCaleye_CENTRE R.senseCaleye_EYE _ rfl (by decide) (by decide)).trans ?_
    exact (State.fld_setFld_same _ R.senseCaleye_EYE eye (by decide)).trans (Nat.mod_eq_of_lt heye)
  case centre =>
    exact (State.fld_setFld_same _ R.senseCaleye_CENTRE _ (by decide)).trans (Nat.mod_eq_of_lt (Nat.lt_succ_of_le (Nat.min_le_left ..)))

end

/-! ### Modulator clocks (R148) -/

theorem senseMclk_row {n : Nat} (hn : n < 12) :
    regRow (R.senseMclk n) = some ⟨0x0A0000, 0x4, 12, 0x0, 1, 0x190000, 0x807F007F, 0x0, 0x0, 0x0, 0x0, false⟩ := by
  have hblock : R.senseMclk n / 65536 = 10 := by simp only [R.senseMclk]; omega
  have hhas : rowHas ⟨0x0A0000, 0x4, 12, 0x0, 1, 0x190000, 0x807F007F, 0x0, 0x0, 0x0, 0x0, false⟩ (R.senseMclk n) = true := by
    simp [rowHas, R.senseMclk]
    omega
  simp only [regRow, hblock, regRows, regRows0A, List.find?_cons, hhas]

/-- A setting of a modulator clock inside its ranges is taken where it changes nothing, or no channel in use takes the clock. -/
theorem mclkWrite_takes {s : State} {n : Nat} {w : Word} (hn : n < 12) (hdiv : outNat 20 100 (bitsOf (written s (R.senseMclk n) w) 16 7) = false)
    (hph : bitsOf (written s (R.senseMclk n) w) 0 7 < bitsOf (written s (R.senseMclk n) w) 16 7)
    (hfree : written s (R.senseMclk n) w = s.reg (R.senseMclk n) ∨ (List.range 128).any (fun c => s.fld (R.senseCfg_MSEL c) == n && boundLive s c) = false) :
    (mclkWrite s n w).st = mclkStart (s.setReg (R.senseMclk n) (written s (R.senseMclk n) w)) n (bitOf (s.reg (R.senseMclk n)) 31)
      (bitOf (written s (R.senseMclk n) w) 31) := by
  have hlive : ¬ (written s (R.senseMclk n) w ≠ s.reg (R.senseMclk n) ∧
      (List.range 128).any (fun c => s.fld (R.senseCfg_MSEL c) == n && boundLive s c) = true) := by
    rintro ⟨hnew, hused⟩
    exact hfree.elim hnew fun hnone => by simp [hnone] at hused
  unfold mclkWrite
  rw [if_neg (by simp [hdiv, hph]), if_neg hlive, plainNow_written (senseMclk_row hn) rfl rfl]

/-- Settles O23, command by command. -/
theorem sensingFrontEnd : Obligations.Sensing_Front_End := by
  refine ⟨?output, ?trip, ?lost, ?found, ?begins, ?ends, ?clock⟩
  case output =>
    intro s v c bits e o hen htb hruns hedge hv hy hs hstop hcentre
    refine ⟨_, congrArg Host.Outcome.next (sincOutput_kept hen htb hruns hedge hv (eq_sincOf hy hs hstop hcentre)), ?outs, ?taken, ?others, ?settled,
      sincStreamed_left leftByInk_nib .., sincStreamed_left leftByInk_loop ..⟩
    case outs => rw [sincStreamed_chS, sincKept_chS_same]
    case taken => rw [sincStreamed_chS, sincKept_chS_same]
    case others => exact fun d hd => (sincStreamed_chS ..).trans (sincKept_chS_ne _ _ _ hd)
    case settled =>
      rw [sincStreamed_chS, sincKept_chS_same]
      exact (sincStreamed_settled _ _ _ _ _ c.isLt).trans (sincKept_settled ..)
  case trip =>
    intro s c bits e hen hgate
    rw [exec_overcurrentTrip bits e hen hgate]
    exact ⟨fun d hrun hon => ⟨_, rfl, congrArg Host.Outcome.next (ocBits_begins hrun hon)⟩,
      fun d hrun hon => congrArg Host.Outcome.next (ocBits_lasts hrun hon), fun hrun => congrArg Host.Outcome.next (ocBits_ends hrun)⟩
  case lost =>
    intro s c bits hen hgate hlost hlen hsame
    refine ⟨lostTold s c, congrArg Host.Outcome.next (lostBits_loses hen hgate hlost hlen hsame), (lostTold_flag ..).trans (lostShown_lost ..),
      (lostTold_flag ..).trans (lostShown_seen ..), congrArg ChanS.lostA (lostTold_chS_same ..), congrArg ChanS.lostB (lostTold_chS_same ..),
      fun d hd => lostTold_chS_ne _ _ hd, ?told, lostSpoils_leaves _ _ State.nib (fun _ _ => rfl), lostSpoils_leaves _ _ State.loop (fun _ _ => rfl)⟩
    case told => exact congrArg (fun x : EvtS => x.occ ++ _) (lostSpoils_leaves (lostShown s c) c State.evt (fun _ _ => rfl))
  case found =>
    intro s c hlost hgate
    exact ⟨_, congrArg Host.Outcome.next (lostEnd_found hlost hgate), foundShown_lost s c, rfl, rfl, rfl,
      fun d hd => State.chS_setChS_ne s _ hd, rfl, rfl⟩
  case begins =>
    intro s c hready hbusy hen
    have hwrite (mode : Nat) (hkind : mode = 1 ∨ mode = 2) (hfree : mode = 2 → (boundGroups s c).any (fun g => grpState s g == 2) = false) :
        regRowWrite s R.senseCal (calWrite s (wd (2 ^ 31 + mode * 2 ^ 24 + c))) = calStarted s (wd (2 ^ 31 + mode * 2 ^ 24 + c)) c mode := by
      obtain ⟨hstart, hmode, hch⟩ := calWord_fields (mode := mode) (ch := c) (by omega) c.isLt
      exact (regRowWrite_ready _ hready).trans (calWrite_starts hstart hmode hch hkind hbusy hen hfree)
    exact ⟨⟨_, congrArg Host.Outcome.next (hwrite 1 (.inl rfl) (fun h => absurd h (by decide))), calStarted_shows ..⟩,
      fun hfree => ⟨_, congrArg Host.Outcome.next (hwrite 2 (.inr rfl) fun _ => hfree), calStarted_shows ..⟩⟩
  case ends =>
    intro s rt sum ch mode hcal
    refine ⟨_, congrArg Host.Outcome.next (calDone_ends rt sum hcal), rfl, calEnded_busy .., ?told, ?offset, ?nothing, ?scan⟩
    case told =>
      rw [calEnded_fail]
      exact congrArg (fun x : EvtS => x.occ ++ _) (calMeasured_evt s rt sum ch mode)
    case offset =>
      rintro rfl
      exact ⟨(calEnded_reg _ _ _ _ (by decide)).trans (State.reg_setReg_same ..), calEnded_fail ..⟩
    case nothing =>
      rintro rfl rfl
      exact ⟨calEnded_fail .., calEnded_reg _ _ _ _ (by decide), calEnded_reg _ _ _ _ (by decide)⟩
    case scan =>
      rintro lo hi rfl rfl hhi hlohi htm
      obtain ⟨hmin, hmax, heye, hcentre⟩ := scanShown_fields (s := s) (lo := lo) (hi := hi) (eye := lo + chanTm s ch - hi) (by omega) hhi (by omega)
      exact ⟨(calEnded_fld _ _ _ _ (by decide)).trans hmin, (calEnded_fld _ _ _ _ (by decide)).trans hmax,
        (calEnded_fld _ _ _ _ (by decide)).trans heye, (calEnded_fld _ _ _ _ (by decide)).trans hcentre, calEnded_fail ..⟩
  case clock =>
    intro s n w hready hdiv hph hfree
    exact congrArg Host.Outcome.next ((regRowWrite_ready _ hready).trans (mclkWrite_takes n.isLt hdiv hph hfree))

end Sys2Proof.Machine
end

section
/-! PROOF. O24, feedback channels: its clause about encoder edges fails in a state whose table of channels lists one channel twice. Where the table is
in its canonical form the clause holds. -/

namespace Sys2Proof.Machine

open Sys2Proof

/-! ### A key of a table written twice -/

section

variable {α : Type} (k : Nat)

theorem tblDel_del (t : Tbl α) : tblDel (tblDel t k) k = tblDel t k := by
  induction t with
  | nil => rfl
  | cons e rest ih =>
    obtain ⟨j, v⟩ := e
    by_cases h : j = k
    · simp [tblDel, h, ih]
    · simp [tblDel, h, ih]

theorem tblDel_ins (t : Tbl α) (x : α) : tblDel (tblIns t k x) k = tblDel t k := by
  induction t with
  | nil => simp [tblIns, tblDel]
  | cons e rest ih =>
    obtain ⟨j, v⟩ := e
    rcases lt_trichotomy j k with h | rfl | h
    · simp [tblIns, tblDel, h.ne, h.not_gt, ih]
    · simp [tblIns, tblDel]
    · simp [tblIns, tblDel, h.ne', h]

theorem tblIns_ins (t : Tbl α) (x y : α) : tblIns (tblIns t k x) k y = tblIns t k y := by
  induction t with
  | nil => simp [tblIns]
  | cons e rest ih =>
    obtain ⟨j, v⟩ := e
    rcases lt_trichotomy j k with h | rfl | h
    · simp [tblIns, h.ne, h.not_gt, ih]
    · simp [tblIns]
    · simp [tblIns, h.ne', h]

variable [DecidableEq α] {k} {f : Nat → α}

/-- A canonical table from beyond a key on does not list the key. -/
theorem tblDel_of_wfFrom {t : Tbl α} {lo : Nat} (hwf : tblWfFrom f t lo = true) (hk : k < lo) : tblDel t k = t := by
  induction t generalizing lo with
  | nil => rfl
  | cons e rest ih =>
    obtain ⟨j, v⟩ := e
    simp only [tblWfFrom, Bool.and_eq_true, decide_eq_true_eq] at hwf
    obtain ⟨⟨hlo, -⟩, hrest⟩ := hwf
    rw [tblDel, if_neg (by omega), ih hrest (by omega)]

/-- A canonical table from beyond a key on takes the key at its front. -/
theorem tblIns_of_wfFrom {t : Tbl α} {lo : Nat} (x : α) (hwf : tblWfFrom f t lo = true) (hk : k < lo) : tblIns t k x = (k, x) :: t := by
  cases t with
  | nil => rfl
  | cons e rest =>
    obtain ⟨j, v⟩ := e
    simp only [tblWfFrom, Bool.and_eq_true, decide_eq_true_eq] at hwf
    obtain ⟨⟨hlo, -⟩, -⟩ := hwf
    rw [tblIns, if_neg (by omega), if_pos (by omega)]

/-- In a canonical table a key listed anew stands where it stood before it was removed. -/
theorem tblIns_del {t : Tbl α} {lo : Nat} (x : α) (hwf : tblWfFrom f t lo = true) : tblIns (tblDel t k) k x = tblIns t k x := by
  induction t generalizing lo with
  | nil => rfl
  | cons e rest ih =>
    obtain ⟨j, v⟩ := e
    simp only [tblWfFrom, Bool.and_eq_true, decide_eq_true_eq] at hwf
    obtain ⟨-, hrest⟩ := hwf
    rcases lt_trichotomy j k with h | rfl | h
    · simp [tblIns, tblDel, h.ne, h.not_gt, ih hrest]
    · simp [tblIns, tblDel, tblDel_of_wfFrom hrest (Nat.lt_succ_self j), tblIns_of_wfFrom x hrest (Nat.lt_succ_self j)]
    · simp [tblIns, tblDel, h.ne', h, tblDel_of_wfFrom hrest (Nat.lt_succ_of_lt h)]

/-- In a canonical table only the last value written to a key counts. -/
theorem tblPut_put {t : Tbl α} (x y : α) (hwf : tblWf f t = true) : tblPut (tblPut t k x (f k)) k y (f k) = tblPut t k y (f k) := by
  unfold tblPut
  split
  · split
    · exact tblDel_del k t
    · exact tblDel_ins k t x
  · split
    · exact tblIns_del y hwf
    · exact tblIns_ins k t x y

end

/-! ### Encoder edges where the table of channels is canonical (R229) -/

section

variable {s : State} {n : Nat} {a b : Bool} {t : Tick}

@[simp] theorem State.fb_setFb_same (s : State) (n : Nat) (x : FbS) : (s.setFb n x).fb n = x := tblGet_put_same s.fdbk.ch n x {}

/-- A channel written and then changed is written once, changed. -/
theorem State.setFb_change (x : FbS) (g : FbS → FbS) (hwf : tblWf (fun _ => {}) s.fdbk.ch = true) :
    (s.setFb n x).setFb n (g ((s.setFb n x).fb n)) = s.setFb n (g x) := by
  rw [State.fb_setFb_same]
  exact congrArg (fun c => s.withFdbk { s.fdbk with ch := c }) (tblPut_put (f := fun _ => ({} : FbS)) x (g x) hwf)

/-- A channel that counts at levels `a` and `b`: an enabled encoder, its lines changed. -/
theorem encEdge_guard (hen : s.flag (R.fdbkCfg_EN n) = true) (hmode : fbMode s n = 0 ∨ fbMode s n = 2)
    (hstep : quadStep (s.fb n).a (s.fb n).b a b ≠ 0) :
    ¬ ((!s.flag (R.fdbkCfg_EN n) || !(fbMode s n == 0 || fbMode s n == 2) || quadStep (s.fb n).a (s.fb n).b a b == 0) = true) := by
  rcases hmode with hmode | hmode
  · simp [hen, hmode, hstep]
  · simp [hen, hmode, hstep]

/-- A step of the lines counts by one; one less than 50 ns after the last is told as OVERSPEED. -/
theorem encEdge_counts {v : State} (hwf : tblWf (fun _ => {}) s.fdbk.ch = true) (hen : s.flag (R.fdbkCfg_EN n) = true)
    (hmode : fbMode s n = 0 ∨ fbMode s n = 2) (hstep : quadStep (s.fb n).a (s.fb n).b a b = 1 ∨ quadStep (s.fb n).a (s.fb n).b a b = 3)
    (hv : v = s.setFb n { s.fb n with a := a, b := b, tE := t, edge := true, had := true, n := (s.fb n).n +
      (if (quadStep (s.fb n).a (s.fb n).b a b == 1) != s.flag (R.fdbkCfg_DIR n) then 1 else -1) }) :
    encEdge s n a b t = if (s.fb n).had = true ∧ (t - (s.fb n).tE).toNat < 800 then
      (v.setFlag (R.fdbkStat_OVERSPEED n) true).raiseLim 129 n 0#32 (100 * msTicks) else v := by
  unfold encEdge
  extract_lets x d s0 y _ up fast s1
  have hs1 : s1 = v := by
    have hcount : (if up then x.n + 1 else x.n - 1) = x.n + (if up then 1 else -1) := by split <;> rfl
    refine (State.setFb_change _ (fun z => { z with n := if up then x.n + 1 else x.n - 1, tE := t, edge := true, had := true }) hwf).trans ?_
    rw [hcount, hv]
  have hlegal : d ≠ 2 := by
    rcases hstep with hup | hdown
    · exact ne_of_eq_of_ne hup (by decide)
    · exact ne_of_eq_of_ne hdown (by decide)
  rw [if_neg (encEdge_guard hen hmode (by omega)), if_neg hlegal, hs1]
  exact if_congr (by simp [fast, x]) rfl rfl

/-- An illegal transition is counted and told, and a VALID channel becomes INVALID. -/
theorem encEdge_illegal {v : State} (hwf : tblWf (fun _ => {}) s.fdbk.ch = true) (hen : s.flag (R.fdbkCfg_EN n) = true)
    (hmode : fbMode s n = 0 ∨ fbMode s n = 2) (hstep : quadStep (s.fb n).a (s.fb n).b a b = 2)
    (hv : v = ((s.setFb n { s.fb n with a := a, b := b, ill := true, cond := true }).cntSat (R.fdbkCnt_ILLEGALS n)).setFlag
      (R.fdbkStat_ILLEGAL n) true) :
    encEdge s n a b t = fbInvalid (v.raiseLim 128 n (wd (v.fld (R.fdbkCnt_ILLEGALS n))) (100 * msTicks)) n := by
  unfold encEdge
  extract_lets x d s0 y s1
  have hs1 : s1 = v := by
    rw [hv]
    exact congrArg (fun u : State => (u.cntSat (R.fdbkCnt_ILLEGALS n)).setFlag (R.fdbkStat_ILLEGAL n) true)
      (State.setFb_change _ (fun z => { z with ill := true, cond := true }) hwf)
  rw [if_neg (encEdge_guard hen hmode (by omega)), if_pos hstep, hs1]

end

/-! ### A table that is not canonical -/

/-- Feedback channel 15 enabled as an encoder, its line A high, and listed twice in the table of channels. -/
def doubledState : State := { regs := [(R.fdbkCfg 15, 0x80000000#32)], fdbk := { ch := [(15, { a := true }), (15, { a := true })] } }

/-- The channel after its line A falls: one step down. -/
def doubledStep : FbS := { a := false, b := false, tE := 0, edge := true, had := true, n := -1 }

/-- The table of channels holds the channel once where the levels are written before the count. -/
theorem doubledState_encEdge : (encEdge doubledState 15 false false 0).fdbk.ch = [(15, doubledStep)] := by decide

/-- It keeps the second entry where levels and count are written at once. -/
theorem doubledState_setFb : (doubledState.setFb 15 doubledStep).fdbk.ch = [(15, doubledStep), (15, { a := true })] := by decide

/-- Refutes O24: as line A falls, the levels written first are those of a channel at rest, which the table leaves unlisted, so both entries of the
channel give way to one; the statement writes levels and count at once over the first entry and keeps the second. -/
theorem not_feedbackChannels : ¬ Obligations.Feedback_Channels := by
  rintro ⟨-, hencoder, -⟩
  obtain ⟨-, -, hcounts, -⟩ := hencoder doubledState doubledState 15 false false 0 0 rfl
  have hexec : exec (.encoderEdge 15 false false ⟨0, 0⟩) doubledState = .next (doubledState.setFb 15 doubledStep) :=
    hcounts _ (by decide) (by decide) (.inl (by decide)) (.inr (by decide)) rfl
  have hmodel : exec (.encoderEdge 15 false false ⟨0, 0⟩) doubledState = .next (encEdge doubledState 15 false false 0) := rfl
  have hsame : encEdge doubledState 15 false false 0 = doubledState.setFb 15 doubledStep := Host.Outcome.next.inj (hmodel.symm.trans hexec)
  have htables := congrArg (fun t : State => t.fdbk.ch) hsame
  rw [doubledState_encEdge, doubledState_setFb] at htables
  exact absurd htables (by decide)

end Sys2Proof.Machine
end

section
/-! PROOF. O50, the outputs of a nib: the levels of a plan, its transitions, and the dead time where the outputs change over at a period's start. -/

namespace Sys2Proof.Machine

open Sys2Proof

/-! ### The levels of a plan (R175, R176) -/

/-- The first output is active from its rise and the dead time after it on, or all through where there is no rise, and until its fall. -/
theorem GatePlan.high_iff (p : GatePlan) (x : Nat) : (p.levels x).1 = true ↔
    (∀ r, p.rise = some r → r.1 + r.2 ≤ x) ∧ (p.rise = none → p.full = true) ∧ (∀ f, p.fall = some f → x < f.1) ∧ p.ghMin ≤ x := by
  unfold GatePlan.levels
  cases p.rise <;> cases p.fall <;> simp [and_assoc]

/-- The second output is active before the rise and from the fall and the dead time after it on, or all through without transitions. -/
theorem GatePlan.low_iff (p : GatePlan) (y : Nat) : (p.levels y).2 = true ↔
    ((∃ r, p.rise = some r ∧ y < r.1) ∨ (∃ f, p.fall = some f ∧ f.1 + f.2 ≤ y) ∨ (p.rise = none ∧ p.fall = none ∧ p.full = false)) ∧ p.glMin ≤ y := by
  unfold GatePlan.levels
  cases p.rise <;> cases p.fall <;> simp

/-- The activity of the two outputs lies a dead time apart. -/
theorem GatePlan.apart {p : GatePlan} {x y : Nat} (hhigh : (p.levels x).1 = true) (hlow : (p.levels y).2 = true) :
    (∃ r, p.rise = some r ∧ y + r.2 < x) ∨ (∃ f, p.fall = some f ∧ x + f.2 < y) := by
  obtain ⟨hafter, hfull, hbefore, -⟩ := p.high_iff x |>.mp hhigh
  obtain ⟨⟨r, hr, hyr⟩ | ⟨f, hf, hfy⟩ | ⟨hrise, -, hoff⟩, -⟩ := p.low_iff y |>.mp hlow
  · have hrx := hafter r hr
    exact .inl ⟨r, hr, by omega⟩
  · have hxf := hbefore f hf
    exact .inr ⟨f, hf, by omega⟩
  · exact absurd (hfull hrise) (Bool.eq_false_iff.mp hoff)

/-- At no offset are both outputs active. -/
theorem GatePlan.not_both (p : GatePlan) (x : Nat) : ¬ ((p.levels x).1 = true ∧ (p.levels x).2 = true) := by
  rintro ⟨hhigh, hlow⟩
  obtain ⟨r, -, h⟩ | ⟨f, -, h⟩ := GatePlan.apart hhigh hlow <;> omega

section

variable {s : State} {n : Nat} {t : Tick}

theorem nibLevels_high (h : (nibLevels s n t).1 = true) : ((s.nibS n).plan.levels (t - (s.nibS n).plan.base).toNat).1 = true := by
  simp only [nibLevels, Bool.and_eq_true] at h
  exact h.1.1

theorem nibLevels_low (h : (nibLevels s n t).2 = true) : ((s.nibS n).plan.levels (t - (s.nibS n).plan.base).toNat).2 = true := by
  simp only [nibLevels, Bool.and_eq_true] at h
  exact h.1.1

/-- At no instant are both outputs of a nib active. -/
theorem nibLevels_not_both (s : State) (n : Nat) (t : Tick) : ¬ ((nibLevels s n t).1 = true ∧ (nibLevels s n t).2 = true) :=
  fun ⟨hhigh, hlow⟩ => GatePlan.not_both _ _ ⟨nibLevels_high hhigh, nibLevels_low hlow⟩

end

/-! ### The start of a period (R175) -/

section

variable {s : State} {n : Nat} {base : Tick} (full : Bool) (rise fall : Option (Nat × Nat))
  (hhiz : s.flag (R.nibNstat_HIZ n) = false) (hidle : (s.nibS n).idle = false)

include hhiz hidle

/-- Where the first output was active as a period starts, the second is not before DTF. -/
theorem planStart_glMin (hhigh : (nibLevels s n (base - 1)).1 = true) : nibDtf s n ≤ (planStart s n base full rise fall).glMin := by
  have hlow : (nibLevels s n (base - 1)).2 = false := Bool.eq_false_iff.mpr fun hlow => nibLevels_not_both _ _ _ ⟨hhigh, hlow⟩
  simp only [planStart, hhiz, hidle, hhigh, hlow, Bool.or_false, Bool.false_eq_true, if_true, if_false]
  exact le_max_left _ _

/-- Where the second output was active, the first is not before DTR. -/
theorem planStart_ghMin (hlow : (nibLevels s n (base - 1)).2 = true) : nibDtr s n ≤ (planStart s n base full rise fall).ghMin := by
  have hhigh : (nibLevels s n (base - 1)).1 = false := Bool.eq_false_iff.mpr fun hhigh => nibLevels_not_both _ _ _ ⟨hhigh, hlow⟩
  simp only [planStart, hhiz, hidle, hhigh, hlow, Bool.or_false, Bool.false_eq_true, if_true, if_false]
  exact le_max_left _ _

end

/-! ### Transitions (R176) -/

section

variable {lo d len : Nat} {x : Int}

/-- A transition whose edges lie within the period keeps its offset, or begins at the least one. -/
theorem transPlan_fits (h : max (lo : Int) x + d < len) : (transPlan lo x d len).1 = (max (lo : Int) x).toNat := by
  simp only [transPlan, if_neg (Int.not_le.mpr h)]

/-- One that would end after its period has its second edge in the period's last tick. -/
theorem transPlan_late (hd : d < len) (h : (len : Int) ≤ max (lo : Int) x + d) : (transPlan lo x d len).1 = len - 1 - d := by
  simp only [transPlan, if_pos h]
  omega

end

/-- A level of the polarity that means inactive, changed over where the output is active. -/
theorem bne_ne_iff (act pol : Bool) : (act != pol) ≠ pol ↔ act = true := by cases act <;> cases pol <;> decide

/-- Settles O50, by `GatePlan.apart` for a period and by `planStart` for its start. -/
theorem halfBridgeNeverShorts : Obligations.Half_Bridge_Never_Shorts := by
  refine ⟨?levels, fun p x y => GatePlan.apart, fun s n lo on off len => ⟨rfl, rfl⟩, ?transitions, ?start⟩
  case levels =>
    intro s n h l hlevels
    unfold gateLevels at hlevels
    split at hlevels
    · cases hlevels
    · obtain ⟨rfl, rfl⟩ := Prod.mk.inj (Option.some.inj hlevels)
      rw [bne_ne_iff, bne_ne_iff]
      split
      · exact fun h => Bool.false_ne_true h.1
      · exact nibLevels_not_both s n s.dt
  case transitions =>
    refine fun lo d len x => ⟨fun hlo hfits => ?_, fun hlo hfits => ?_, transPlan_late⟩
    · rw [transPlan_fits (by omega), max_eq_right hlo]
    · rw [transPlan_fits (by omega), max_eq_left hlo.le, Int.toNat_natCast]
  case start =>
    intro s n base full rise fall hhiz hidle
    refine ⟨fun hhigh x hx => ?_, fun hlow x hx => ?_⟩
    · obtain ⟨-, hmin⟩ := (GatePlan.low_iff _ x).mp hx
      exact (planStart_glMin full rise fall hhiz hidle hhigh).trans hmin
    · obtain ⟨-, -, -, hmin⟩ := (GatePlan.high_iff _ x).mp hx
      exact (planStart_ghMin full rise fall hhiz hidle hlow).trans hmin

end Sys2Proof.Machine
end

section
/-! PROOF. O22, the nib bank: what each command does once its conditions hold. -/

namespace Sys2Proof.Machine

open Sys2Proof

/-! ### Fault inputs (R184, R194) -/

/-- A fault input that is low, as FLTSTAT and FLTSEEN show it. -/
def fltShown (s : State) (i : Nat) : State := (s.setFlag ⟨R.nibFltstat, i, 1⟩ true).setFlag ⟨R.nibFltseen, i, 1⟩ true

section

variable {s : State} {i : Nat}

theorem faultInput_low_was (h : s.flag ⟨R.nibFltstat, i, 1⟩ = true) : faultInput s i true = fltShown s i := if_pos h

theorem faultInput_low_winding (h : s.flag ⟨R.nibFltstat, i, 1⟩ = false) (hi : i < 24) :
    faultInput s i true = if (fltShown s i).flag (R.nibWfcfg_EN i) then
      sourceAct (fltShown s i) ((List.range 72).filter (fun m => (fltShown s i).fld (R.nibCfg_WFSEL m) == i)) 1 else fltShown s i :=
  (if_neg (Bool.eq_false_iff.mp h)).trans (if_pos hi)

theorem faultInput_low_global (h : s.flag ⟨R.nibFltstat, i, 1⟩ = false) (hi : 24 ≤ i) :
    faultInput s i true = if (fltShown s i).flag (R.nibGfcfg_EN (i - 24)) then
      sourceAct (fltShown s i) ((List.range 72).filter (fun m => gfActive (fltShown s i) (i - 24) (nibGrp (fltShown s i) m))) 2 else fltShown s i :=
  (if_neg (Bool.eq_false_iff.mp h)).trans (if_neg (Nat.not_lt.mpr hi))

end

/-- A level that a fault input holds for its filter is taken. -/
theorem exec_faultInputAssert {s : State} {n : Fin 28} {w : Nat} (low : Bool) (h : fltFilt s n.val ≤ w) :
    exec (.faultInputAssert n ⟨low, w⟩) s = .next (faultInput s n.val low) :=
  congrArg Host.Outcome.next (if_neg (Nat.not_lt.mpr h))

/-! ### Latches cleared (R187) -/

/-- A nib whose latch is cleared: its source and its corrections are gone. -/
structure LatchGone (s : State) (n : Nat) : Prop where
  latched : s.flag (R.nibNstat_LATCHED n) = false
  src : s.fld (R.nibNstat_LATCH_SRC n) = 0
  rise : s.reg (R.nibCorrR n) = 0#32
  fall : s.reg (R.nibCorrF n) = 0#32

/-- The registers of a nib without its latch. -/
def latchDropped (t : State) (n : Nat) : State :=
  (((t.setFlag (R.nibNstat_LATCHED n) false).setFld (R.nibNstat_LATCH_SRC n) 0).setReg (R.nibCorrR n) 0#32).setReg (R.nibCorrF n) 0#32

/-- The latch of one nib cleared. -/
def latchCleared (t : State) (n : Nat) : State :=
  (latchDropped t n).setNibS n { (latchDropped t n).nibS n with idle := true, clr := true, missRun := 0 }

/-- The group of a nib as the latches of a list of its nibs are cleared, up to event 34. -/
def latchesCleared (s : State) (g : Nat) (l : List Nat) : State := hizAll (nlatchedRefresh (l.foldl latchCleared s) g) l

theorem clearLatches_clears {s : State} {g : Nat} (h : (grpLatched s g).any (srcHolds s ·) = false) :
    clearLatches s g = { st := (latchesCleared s g (grpLatched s g)).raise 34 g (wd (grpLatched s g).length) } :=
  if_neg (Bool.eq_false_iff.mp h)

section

variable {s t : State} {n : Nat}

theorem LatchGone.of_regs (h : LatchGone s n) (hstat : t.reg (R.nibNstat n) = s.reg (R.nibNstat n)) (hrise : t.reg (R.nibCorrR n) = s.reg (R.nibCorrR n))
    (hfall : t.reg (R.nibCorrF n) = s.reg (R.nibCorrF n)) : LatchGone t n where
  latched := (congrArg (fun w => bitsOf w 31 1 == 1) hstat).trans h.latched
  src := (congrArg (fun w => bitsOf w 27 4) hstat).trans h.src
  rise := hrise.trans h.rise
  fall := hfall.trans h.fall

theorem latchDropped_regsIn (t : State) (m : Nat) :
    RegsIn (fun a => a = R.nibNstat m ∨ a = R.nibCorrR m ∨ a = R.nibCorrF m) t (latchDropped t m) :=
  ((RegsIn.setFlag t (R.nibNstat_LATCHED m) false (.inl rfl)).trans (.setFld _ (R.nibNstat_LATCH_SRC m) 0 (.inl rfl))).trans
    ((RegsIn.setReg _ (.inr (.inl rfl))).trans (.setReg _ (.inr (.inr rfl))))

theorem latchDropped_gone (t : State) (n : Nat) : LatchGone (latchDropped t n) n := by
  have hrise : R.nibCorrR n ≠ R.nibNstat n := by simp only [R.nibCorrR, R.nibNstat]; omega
  have hfall : R.nibCorrF n ≠ R.nibNstat n := by simp only [R.nibCorrF, R.nibNstat]; omega
  have hboth : R.nibCorrF n ≠ R.nibCorrR n := by simp only [R.nibCorrR, R.nibCorrF]; omega
  have hstat : (latchDropped t n).reg (R.nibNstat n) = ((t.setFlag (R.nibNstat_LATCHED n) false).setFld (R.nibNstat_LATCH_SRC n) 0).reg (R.nibNstat n) :=
    (State.reg_setReg_ne _ _ _ _ hfall).trans (State.reg_setReg_ne _ _ _ _ hrise)
  have hsrc := State.fld_setFld_same (t.setFlag (R.nibNstat_LATCHED n) false) (R.nibNstat_LATCH_SRC n) 0 (show 27 + 4 ≤ 32 by decide)
  have hbeside := State.fld_setFld_apart (t.setFlag (R.nibNstat_LATCHED n) false) (R.nibNstat_LATCH_SRC n) (R.nibNstat_LATCHED n) 0 rfl
    (show 31 + 1 ≤ 32 by decide) (.inl (show 27 + 4 ≤ 31 by decide))
  have hlatched := State.flag_setFlag_same t (R.nibNstat_LATCHED n) false (show 31 + 1 ≤ 32 by decide) rfl
  exact {
    latched := (congrArg (fun w => bitsOf w 31 1 == 1) hstat).trans ((congrArg (· == 1) hbeside).trans hlatched)
    src := (congrArg (fun w => bitsOf w 27 4) hstat).trans hsrc
    rise := (State.reg_setReg_ne _ _ _ _ hboth).trans (State.reg_setReg_same ..)
    fall := State.reg_setReg_same .. }

theorem LatchGone.setNibS (h : LatchGone t n) (m : Nat) (x : NibS) : LatchGone (t.setNibS m x) n := h.of_regs rfl rfl rfl

/-- The clearing of any nib keeps what is cleared. -/
theorem LatchGone.latchCleared (h : LatchGone t n) (m : Nat) : LatchGone (latchCleared t m) n := by
  by_cases hm : m = n
  · exact hm ▸ (latchDropped_gone t m).setNibS m _
  · have hregs := latchDropped_regsIn t m
    have hdropped : LatchGone (latchDropped t m) n := by
      refine h.of_regs (hregs _ ?_) (hregs _ ?_) (hregs _ ?_) <;> simp only [R.nibNstat, R.nibCorrR, R.nibCorrF] <;> omega
    exact hdropped.setNibS m _

theorem LatchGone.foldl (l : List Nat) (h : LatchGone t n) : LatchGone (l.foldl Machine.latchCleared t) n := by
  induction l generalizing t with
  | nil => exact h
  | cons m l ih => exact ih (h.latchCleared m)

theorem foldl_latchCleared {l : List Nat} (hn : n ∈ l) (s : State) : LatchGone (l.foldl latchCleared s) n := by
  induction l generalizing s with
  | nil => cases hn
  | cons m l ih =>
    rcases List.mem_cons.mp hn with rfl | hn
    · exact ((latchDropped_gone s n).setNibS n _).foldl l
    · exact ih hn _

theorem LatchGone.nlatchedRefresh (h : LatchGone t n) (g : Nat) : LatchGone (nlatchedRefresh t g) n := by
  refine h.of_regs (State.reg_setFld_ne _ (R.nibGstate_NLATCHED g) _ _ ?_) (State.reg_setFld_ne _ (R.nibGstate_NLATCHED g) _ _ ?_)
    (State.reg_setFld_ne _ (R.nibGstate_NLATCHED g) _ _ ?_) <;>
    simp only [R.nibGstate_NLATCHED, R.nibGstate, R.nibNstat, R.nibCorrR, R.nibCorrF] <;> omega

/-- HIZ of a nib stands beside its latch. -/
theorem LatchGone.hizRefresh (h : LatchGone t n) (m : Nat) : LatchGone (hizRefresh t m) n := by
  have hrise : R.nibNstat m ≠ R.nibCorrR n := by simp only [R.nibNstat, R.nibCorrR]; omega
  have hfall : R.nibNstat m ≠ R.nibCorrF n := by simp only [R.nibNstat, R.nibCorrF]; omega
  refine ⟨?_, ?_, (State.reg_setFlag_ne _ (R.nibNstat_HIZ m) _ _ hrise).trans h.rise, (State.reg_setFlag_ne _ (R.nibNstat_HIZ m) _ _ hfall).trans h.fall⟩
  · by_cases hm : m = n
    · exact (State.flag_setFlag_apart _ (R.nibNstat_HIZ m) (R.nibNstat_LATCHED n) _ (hm ▸ rfl) (show 31 + 1 ≤ 32 by decide)
        (.inl (show 0 + 1 ≤ 31 by decide))).trans h.latched
    · exact (State.flag_setFlag_ne _ (R.nibNstat_HIZ m) (R.nibNstat_LATCHED n) _ (by
        simp only [R.nibNstat_HIZ, R.nibNstat_LATCHED, R.nibNstat]; omega)).trans h.latched
  · by_cases hm : m = n
    · exact (State.fld_setFld_apart _ (R.nibNstat_HIZ m) (R.nibNstat_LATCH_SRC n) _ (hm ▸ rfl) (show 27 + 4 ≤ 32 by decide)
        (.inl (show 0 + 1 ≤ 27 by decide))).trans h.src
    · exact (State.fld_setFld_ne _ (R.nibNstat_HIZ m) (R.nibNstat_LATCH_SRC n) _ (by
        simp only [R.nibNstat_HIZ, R.nibNstat_LATCH_SRC, R.nibNstat]; omega)).trans h.src

theorem LatchGone.hizAll (l : List Nat) (h : LatchGone t n) : LatchGone (hizAll t l) n := by
  induction l generalizing t with
  | nil => exact h
  | cons m l ih => exact ih (h.hizRefresh m)

end

theorem latchesCleared_gone {s : State} {g n : Nat} {l : List Nat} (hn : n ∈ l) : LatchGone (latchesCleared s g l) n :=
  ((foldl_latchCleared hn s).nlatchedRefresh g).hizAll l

theorem latchesCleared_evt (s : State) (g : Nat) (l : List Nat) : (latchesCleared s g l).evt = s.evt :=
  (foldl_keep hizRefresh State.evt (fun _ _ => rfl) l _).trans (foldl_keep latchCleared State.evt (fun _ _ => rfl) l s)

/-! ### Echoes and chopper periods (R170, R177, R178) -/

theorem echoEdge_measures {s : State} {n : Nat} {rise : Bool} {t : Tick} {w : EchoWin} (hen : s.flag (R.nibCfg_ECHO_EN n) = true)
    (hlatch : nibLatched s n = false)
    (hw : (s.nibS n).wins.find? (fun x => x.rise == rise && decide (x.start ≤ t - tk (s.fld (R.nibEcfg_EDLY n)))
      && decide (t - tk (s.fld (R.nibEcfg_EDLY n)) < x.stop)) = some w) :
    echoEdge s n rise t =
      let v := s.setNibS n { s.nibS n with wins := (s.nibS n).wins.filter (· != w), missRun := 0 }
      let eps := (t - tk (s.fld (R.nibEcfg_EDLY n)) - w.ideal).toInt
      nibLog (replan (echoCorrect v n rise eps) n rise (t - (s.nibS n).plan.base).toNat) n (if rise then 1 else 2) w.ideal (wdInt eps) := by
  unfold echoEdge
  dsimp only
  rw [if_neg (by simp [hen, hlatch]), hw]

theorem echoEnd_misses {s : State} {n : Nat} {w : EchoWin} {ws : List EchoWin} (hw : (s.nibS n).wins = w :: ws) :
    echoEnd s n = echoMiss (nibLog ((s.at w.stop).setNibS n { s.nibS n with wins := ws }) n (if w.rise then 1 else 2) w.ideal 0x80000000#32) n w.rise := by
  unfold echoEnd
  rw [hw]

theorem chopNext_starts {s : State} {n : Nat} {c : ChopRun} (hchop : (s.nibS n).chop = some c)
    (hemits : nibEmits (s.at (c.start + tk (c.k + c.v))) n = true) (htb : tbValid (s.at (c.start + tk (c.k + c.v))) = true)
    (hnext : ((s.at (c.start + tk (c.k + c.v))).grp (nibGrp (s.at (c.start + tk (c.k + c.v))) n)).next.map (·.1) ≠ some (c.start + tk (c.k + c.v))) :
    chopNext s n = chopStart (s.at (c.start + tk (c.k + c.v))) n (c.start + tk (c.k + c.v)) := by
  unfold chopNext
  rw [hchop]
  dsimp only
  rw [if_neg (by simp [hemits, htb]), if_neg hnext]

/-! ### Edge sets and group states (R171, R182) -/

theorem edgeCommit_commits {s : State} {k : Nat} {seq : Word} {n mode p : Nat} {ns : List Nat} {du : Bool} (hset : setNibs s k = n :: ns)
    (howned : s.flag (R.nibSetinfo_OWNED k) = false) (hcarrier : grpCarrier s (nibGrp s n) = (mode, du, p))
    (hstaged : ∀ m ∈ n :: ns, stagedOk mode du p (if mode = 1 then 0 else s.fld (R.nibSon_OFS m)) (s.fld (R.nibSoff_OFS m)) = true) :
    edgeCommit s k seq =
      { st := setCommit s k seq ((n :: ns).map (fun m => (m, ((if mode = 1 then 0 else s.fld (R.nibSon_OFS m)), s.fld (R.nibSoff_OFS m))))) true } := by
  have hok : (n :: ns).any (fun m => !stagedOk mode du p (if mode = 1 then 0 else s.fld (R.nibSon_OFS m)) (s.fld (R.nibSoff_OFS m))) = false :=
    List.any_eq_false.mpr fun m hm => by simp [hstaged m hm]
  unfold edgeCommit
  simp only [hset, hcarrier]
  rw [if_neg (Bool.eq_false_iff.mp hok), if_neg (by simp [howned])]

theorem opGroupState_waits {s : State} {r : Request} {w : Word} (hp : r.params = [w]) (hg : r.target ≤ 7) (hform : bitsOf w 0 2 ≠ 3)
    (hallowed : bitsOf w 0 2 ≠ 0 → nibGated s r.target = false ∧ s.flag R.cfgStat_SAFE_CFG_FAULT = false ∧ huskEn s = true ∧ safeLocked s = false ∧
      (s.grp r.target).p ≠ 0) :
    opGroupState r s =
      let asked := (s.setFld (R.nibGstate_REQ r.target) (bitsOf w 0 2)).setFlag (R.nibGstate_PENDING r.target) true
      { st := addPend asked r.target (dueZero s r.target) true (.groupState (bitsOf w 0 2)), affects := [(r.target, dueZero s r.target)] } := by
  have hw : r.p 0 = w := by simp [Request.p, hp, nth]
  unfold opGroupState
  rw [hw]
  dsimp only
  rw [if_neg (Nat.not_lt.mpr hg), if_neg hform, if_neg, if_neg, if_neg]
  · rintro ⟨hst, hnone⟩
    obtain ⟨-, -, -, -, hperiod⟩ := hallowed hst
    exact hperiod hnone
  · rintro ⟨hst, hlock⟩
    obtain ⟨-, hfault, hen, hsafe, -⟩ := hallowed hst
    simp [hfault, hen, hsafe] at hlock
  · exact fun ⟨hst, hgated⟩ => Bool.eq_false_iff.mp (hallowed hst).1 hgated

/-! ### Periods and adjustments (R168, R191) -/

/-- A period that passes its checks is in force at once for a group without one, or from the next carrier zero on. -/
theorem gperWrite_takes {s : State} {g p frame : Nat} {w : Word} (hp : p = bitsOf w 0 29) (hframe : frame = if bitOf w 31 then p / 2 else p)
    (hperiod : periodBad (bitsOf w 29 2) (bitOf w 31) p (s.fld (R.nibGphase_PHASE g)) = false) (hfloor : tickFloorBad s g frame = false)
    (hmode : s.reg (R.nibGper g) >>> 29 = w >>> 29 ∨ grpState s g = 0)
    (hrole : g = 0 → p = 0 → s.fld R.sheafCfg_ROLE ≠ 1 ∧ s.fld R.sheafCfg_ROLE ≠ 2)
    (hadmit : frame = frameWritten s g ∨ s.slots.any (fun k => (s.ctx k).grp == g) = false ∨
      (admResult s { admNow s s.slots with frame := fun h => if h = g then frame else frameWritten s h }).1 = 0) :
    gperWrite s g w =
      let u := s.setReg (R.nibGper g) w
      if (s.grp g).p = 0 then { st := loopRefresh (if p = 0 then u else carrierStart u g) }
      else if bitsOf (s.reg (R.nibGper g)) 0 29 = p then { st := loopRefresh u }
      else { st := loopRefresh (addPend u g (dueZero u g) true (.reg (R.nibGper g) 0x1FFFFFFF#32 (wd p))), affects := [(g, dueZero u g)] } := by
  subst hp hframe
  unfold gperWrite
  dsimp only
  rw [if_neg (by simp [hperiod, hfloor]), if_neg, if_neg, if_neg]
  · rintro ⟨hnew, hused, hover⟩
    rcases hadmit with h | h | h
    · exact hnew h
    · exact Bool.eq_false_iff.mp h hused
    · exact hover h
  · rintro ⟨hg, hzero, h | h⟩
    · exact (hrole hg hzero).1 h
    · exact (hrole hg hzero).2 h
  · exact fun ⟨hchanged, hon⟩ => hmode.elim hchanged hon

theorem gadjWrite_takes {s : State} {g : Nat} {w : Word} (hroom : 8 * w.toInt.natAbs ≤ (grpCarrier s g).2.2)
    (heven : (grpCarrier s g).2.1 = true → w.toInt % 2 = 0) :
    gadjWrite s g w = { st := addPend (dropAdj (s.setReg (R.nibGadj g) w) g) g (dueZero s g) true (.reg (R.nibGadj g) 0xFFFFFFFF#32 w),
                        affects := [(g, dueZero s g)] } := by
  refine if_neg ?_
  rintro (hlarge | ⟨hdu, hodd⟩)
  · omega
  · exact hodd (heven hdu)

/-! ### SYNC_IN (R192) -/

theorem State.at_fld (s : State) (t : Tick) (f : RF) : (s.at t).fld f = s.fld f := State.at_keeps_field (State.fld · f) (fun _ _ => rfl) s t

theorem State.at_flag (s : State) (t : Tick) (f : RF) : (s.at t).flag f = s.flag f := State.at_keeps_field (State.flag · f) (fun _ _ => rfl) s t

section

variable {s : State} {g : Nat} {ti : Tick}

/-- The edges in a row within 32 ticks, with one at `ti`. -/
def syncGood (s : State) (g : Nat) (ti : Tick) : Nat := if (ti - nearZero s g ti).toInt.natAbs ≤ 32 then min 16 (s.nib.good + 1) else 0

/-- The group of SYNC_IN with an edge at `ti` measured: its adjustment and the edges in a row. -/
def syncMeasured (s : State) (g : Nat) (ti : Tick) : State :=
  let gs := s.grp g
  let slew : Int := s.fld R.nibSync_SLEW
  let u := s.setGrp g { gs with adj := gs.adj + evenAdj gs.du (clampI (-slew) slew (-((ti - nearZero s g ti).toInt.tdiv 4))) }
  u.withNib (if nearZero s g ti = gs.zeroAt then { u.nib with good := syncGood s g ti, syncMiss := 0, syncHit := true }
    else { u.nib with good := syncGood s g ti, syncNext := true })

/-- LOCK set and told with the 16th good edge. -/
def syncLocked (u : State) (g good : Nat) : State :=
  if good = 16 ∧ !u.flag R.nibSyncstat_LOCK then (u.setFlag R.nibSyncstat_LOCK true).raise 40 g 1#32 else u

theorem syncIn_measures {t : Tick} (hen : s.flag R.nibSync_IN_EN = true) (hg : g = s.fld R.nibSync_IN_GRP) (hp : (s.grp g).p ≠ 0)
    (hnext : (s.grp g).next ≠ none) (hti : ti = t - tk (s.fld R.nibSyncstat_IN_DLY)) :
    syncIn s t = syncLocked (syncMeasured s g ti) g (syncGood s g ti) := by
  subst hg hti
  exact if_neg (by simp [hen, hp, hnext])

theorem syncLocked_keeps {γ : Type} (k : State → γ) (hreg : ∀ t x, k (State.setReg t R.nibSyncstat x) = k t) (hevt : ∀ t x, k (State.withEvt t x) = k t)
    (u : State) (g good : Nat) : k (syncLocked u g good) = k u := by
  unfold syncLocked
  split
  · exact (hevt ..).trans (hreg ..)
  · rfl

theorem syncMeasured_good : (syncMeasured s g ti).nib.good = syncGood s g ti := by
  unfold syncMeasured
  dsimp only
  split <;> rfl

theorem syncMeasured_adj (h : g < s.loop.grps.length) : ((syncMeasured s g ti).grp g).adj =
    (s.grp g).adj + evenAdj (s.grp g).du (clampI (-(s.fld R.nibSync_SLEW : Int)) (s.fld R.nibSync_SLEW) (-((ti - nearZero s g ti).toInt.tdiv 4))) :=
  congrArg GrpS.adj (State.grp_setGrp_same s g _ h)

theorem syncMeasured_grp_ne {h : Nat} (hne : h ≠ g) : (syncMeasured s g ti).grp h = s.grp h := State.grp_setGrp_ne s g h _ hne.symm

/-- The loss of SYNC_IN under LOCK clears it and tells it. -/
theorem syncLoss_unlocks (hlock : s.flag R.nibSyncstat_LOCK = true) :
    syncLoss s =
      let v := s.setGrp (s.fld R.nibSync_IN_GRP) { s.grp (s.fld R.nibSync_IN_GRP) with adj := 0 }
      ((v.withNib { v.nib with good := 0 }).setFlag R.nibSyncstat_LOCK false).raise 40 (s.fld R.nibSync_IN_GRP) 0#32 := if_pos hlock

end

/-- Settles O22, command by command. -/
theorem nibBank : Obligations.Nib_Bank := by
  refine ⟨?faultHigh, ?faultLow, ?clear, ?echo, ?echoEnd, ?chopper, ?commit, ?group, ?period, ?adjust, ?syncEdge, ?syncLoss⟩
  case faultHigh =>
    intro s n w h
    refine ⟨_, exec_faultInputAssert false h, State.flag_setFlag_same s ⟨R.nibFltstat, n.val, 1⟩ false ?_ rfl, rfl, rfl, rfl, fun a ha => ?_⟩
    · show n.val + 1 ≤ 32
      omega
    · exact State.reg_setFlag_ne s ⟨R.nibFltstat, n.val, 1⟩ false a ha.symm
  case faultLow =>
    rintro s u n w h rfl
    rw [exec_faultInputAssert true h]
    exact ⟨fun hwas => congrArg Host.Outcome.next (faultInput_low_was hwas), fun hwas hn => congrArg Host.Outcome.next (faultInput_low_winding hwas hn),
      fun hwas hn => congrArg Host.Outcome.next (faultInput_low_global hwas hn)⟩
  case clear =>
    intro s g h
    refine ⟨_, congrArg (fun x : Res => Host.Outcome.next x.st) (clearLatches_clears h), latchesCleared_evt .., fun n hn => ?_⟩
    have hgone : LatchGone (latchesCleared s g.val (grpLatched s g.val)) n := latchesCleared_gone hn
    exact ⟨hgone.latched, hgone.src, hgone.rise, hgone.fall⟩
  case echo =>
    rintro s u v n high rise t w rfl hen hlatch rfl hw rfl
    exact congrArg Host.Outcome.next (echoEdge_measures hen hlatch hw)
  case echoEnd =>
    exact fun s n w ws hw => congrArg Host.Outcome.next (echoEnd_misses hw)
  case chopper =>
    rintro s u n c t hchop rfl rfl hemits htb hnext
    exact congrArg Host.Outcome.next (chopNext_starts hchop hemits htb hnext)
  case commit =>
    rintro s k seq n ns mode p du on hset howned hcarrier rfl hstaged
    exact congrArg (fun x : Res => Host.Outcome.next x.st) (edgeCommit_commits hset howned hcarrier hstaged)
  case group =>
    intro s r w hs hp hg hform hallowed
    have hexec := exec_of_served (c := .groupState r) rfl hs (by simp [hp])
    rw [hexec, opGroupState_waits hp hg hform hallowed]
  case period =>
    intro s g w p frame hp hframe hperiod hfloor hmode hrole hadmit
    have htakes := congrArg (fun x : Res => Host.Outcome.next (φ := Fault) (ρ := Refusal) x.st)
      (gperWrite_takes hp hframe hperiod hfloor hmode hrole hadmit)
    dsimp only at htakes
    refine ⟨fun hgroup hnew => ?_, fun hgroup hnew => ?_, fun hgroup hold => ?_⟩
    · rw [if_pos hgroup, if_neg hnew] at htakes
      exact htakes
    · rw [if_neg hgroup, if_neg hnew] at htakes
      exact htakes
    · rw [if_neg hgroup, if_pos hold] at htakes
      exact htakes
  case adjust =>
    exact fun s g w hroom heven => congrArg (fun x : Res => Host.Outcome.next x.st) (gadjWrite_takes hroom heven)
  case syncEdge =>
    rintro s v t ti g rfl hen hg hp hnext hlength hti
    have hgrp (h : Nat) := syncLocked_keeps (State.grp · h) (fun _ _ => rfl) (fun _ _ => rfl) (syncMeasured (s.at t) g ti) g (syncGood (s.at t) g ti)
    refine ⟨_, congrArg Host.Outcome.next (syncIn_measures hen hg hp hnext hti), ?_, fun h hne => (hgrp h).trans (syncMeasured_grp_ne hne), fun a ha => ?_, ?_⟩
    · exact (congrArg GrpS.adj (hgrp g)).trans (syncMeasured_adj hlength)
    · exact (syncLocked_keeps (State.reg · a) (fun _ _ => State.reg_setReg_ne _ _ _ _ ha.symm) (fun _ _ => rfl) _ _ _).trans
        (State.at_keeps_field (State.reg · a) (fun _ _ => rfl) s t)
    · exact (syncLocked_keeps (·.nib.good) (fun _ _ => rfl) (fun _ _ => rfl) _ _ _).trans syncMeasured_good
  case syncLoss =>
    intro s hen hgone hlock
    have hunlocks := syncLoss_unlocks ((State.at_flag s (syncWindowEnd s) _).trans hlock)
    refine ⟨_, congrArg Host.Outcome.next ((if_pos (by simp [hen, hgone])).trans hunlocks), rfl,
      State.flag_setFlag_same _ R.nibSyncstat_LOCK false (by decide) rfl, ?_⟩
    show (s.at (syncWindowEnd s)).evt.occ ++ [{ ev := 40, inst := (s.at (syncWindowEnd s)).fld R.nibSync_IN_GRP, detail := 0#32 }] = _
    rw [State.at_evt, State.at_fld]

end Sys2Proof.Machine
end

section
/-! PROOF. O36, Husk's times and failures: what a source that acts on nibs leaves of HUSK_EN and of the waiting occurrences, then each command. -/

namespace Sys2Proof.Machine

open Sys2Proof

/-! ### HUSK_EN stands and no occurrence is taken away -/

/-- The register of HUSK_EN reads alike, and the occurrences that waited still wait, in front of any new ones. -/
structure GlobSteady (s t : State) : Prop where
  glob : t.reg R.nibGlob = s.reg R.nibGlob
  occ : s.evt.occ <+: t.evt.occ

section

variable {s t u : State}

theorem GlobSteady.refl (s : State) : GlobSteady s s := ⟨rfl, List.prefix_rfl⟩

theorem GlobSteady.trans (h : GlobSteady s t) (k : GlobSteady t u) : GlobSteady s u := ⟨k.glob.trans h.glob, h.occ.trans k.occ⟩

theorem GlobSteady.of_eq (hregs : t.regs = s.regs) (hevt : t.evt = s.evt) : GlobSteady s t :=
  ⟨congrArg (tblGet · R.nibGlob (resetWord R.nibGlob)) hregs, hevt ▸ List.prefix_rfl⟩

theorem GlobSteady.ite {c : Prop} [Decidable c] (ht : GlobSteady s t) (hu : GlobSteady s u) : GlobSteady s (if c then t else u) := by
  split
  · exact ht
  · exact hu

theorem GlobSteady.foldl {α : Type} {f : State → α → State} (h : ∀ t x, GlobSteady t (f t x)) (l : List α) (s : State) : GlobSteady s (l.foldl f s) := by
  induction l generalizing s with
  | nil => exact .refl s
  | cons x xs ih => exact (h s x).trans (ih _)

theorem GlobSteady.setReg (s : State) {a : Nat} (x : Word) (h : a ≠ R.nibGlob) : GlobSteady s (s.setReg a x) :=
  ⟨State.reg_setReg_ne _ _ _ _ h, List.prefix_rfl⟩

theorem GlobSteady.setFld (s : State) {f : RF} (v : Nat) (h : f.addr ≠ R.nibGlob) : GlobSteady s (s.setFld f v) := .setReg s _ h

theorem GlobSteady.setFlag (s : State) {f : RF} (b : Bool) (h : f.addr ≠ R.nibGlob) : GlobSteady s (s.setFlag f b) := .setReg s _ h

theorem GlobSteady.cntSat (s : State) {f : RF} (h : f.addr ≠ R.nibGlob) : GlobSteady s (s.cntSat f) := .setReg s _ h

theorem GlobSteady.raise (s : State) (e i : Nat) (d : Word) : GlobSteady s (s.raise e i d) := ⟨rfl, List.prefix_append _ _⟩

theorem GlobSteady.raiseLim (s : State) (e i : Nat) (d : Word) (lim : Nat) : GlobSteady s (s.raiseLim e i d lim) :=
  .ite ⟨rfl, List.prefix_append _ _⟩ (.refl s)

end

/-! ### The registers of a nib and of a group -/

theorem nibNstat_ne_nibGlob (n : Nat) : R.nibNstat n ≠ R.nibGlob := by simp only [R.nibNstat, R.nibGlob]; omega

theorem nibNcnt_ne_nibGlob (n : Nat) : R.nibNcnt n ≠ R.nibGlob := by simp only [R.nibNcnt, R.nibGlob]; omega

theorem nibGstate_ne_nibGlob (g : Nat) : R.nibGstate g ≠ R.nibGlob := by simp only [R.nibGstate, R.nibGlob]; omega

theorem nibGcnt_ne_nibGlob (g : Nat) : R.nibGcnt g ≠ R.nibGlob := by simp only [R.nibGcnt, R.nibGlob]; omega

theorem ctxAddr_ne_nibGlob (slot w : Nat) : ctxAddr slot w ≠ R.nibGlob := by simp only [ctxAddr, R.nibGlob]; omega

/-! ### Operations over nibs (R166, R185, R186, R201) -/

theorem hizRefresh_steady (s : State) (n : Nat) : GlobSteady s (hizRefresh s n) := .setFlag s _ (nibNstat_ne_nibGlob n)

theorem hizAll_steady (l : List Nat) (s : State) : GlobSteady s (hizAll s l) := .foldl hizRefresh_steady l s

theorem withNib_steady (s : State) (x : NibB) : GlobSteady s (s.withNib x) := .of_eq rfl rfl

theorem setNibS_steady (s : State) (n : Nat) (x : NibS) : GlobSteady s (s.setNibS n x) := withNib_steady ..

theorem setRelease_steady (s : State) (k : Nat) : GlobSteady s (setRelease s k) :=
  have hset (x : SetS) : GlobSteady s (s.setSetS k x) := withNib_steady ..
  (hset _).trans (hizAll_steady ..)

theorem windSet_steady (s : State) (slot st : Nat) : GlobSteady s (windSet s slot st) :=
  .ite (.refl s) ((GlobSteady.setReg s _ (ctxAddr_ne_nibGlob slot 64)).trans (.raise _ _ _ _))

theorem windFault_steady (s : State) (slot cause : Nat) : GlobSteady s (windFault s slot cause) := by
  unfold windFault
  extract_lets s1 s2
  have hset : GlobSteady s s1 := windSet_steady s slot 5
  have htold : GlobSteady s s2 := hset.trans ((GlobSteady.setReg s1 _ (ctxAddr_ne_nibGlob slot 64)).trans (.raise _ _ _ _))
  refine .ite (.refl s) ?_
  split
  · exact htold.trans (setRelease_steady _ _)
  · exact htold

theorem latchFault_steady (s : State) (n src : Nat) : GlobSteady s (latchFault s n src) := by
  unfold latchFault
  split
  · exact windFault_steady _ _ _
  · exact .refl s

theorem inkStep_steady (s : State) (kind src period : Nat) (t : Tick) (f : List Byte → List Byte) : GlobSteady s (inkStep s kind src period t f) :=
  ⟨inkStep_left (leftByInk_reg (by decide)) .., (inkStep_left (k := State.evt) ⟨fun _ _ _ _ => rfl, fun _ _ => rfl, fun _ _ => rfl⟩ ..) ▸ List.prefix_rfl⟩

theorem nibLog_steady (s : State) (n code : Nat) (t : Tick) (eps : Word) : GlobSteady s (nibLog s n code t eps) := by
  have hcstat (c : Nat) : (R.inkCstat_SKIPS c).addr ≠ R.nibGlob := by simp only [R.inkCstat_SKIPS, R.inkCstat, R.nibGlob]; omega
  have hink (x : InkS) : GlobSteady s (s.withInk x) := .of_eq rfl rfl
  unfold nibLog
  extract_lets tok sk s1 s2
  refine .ite ?_ ((hink _).trans (inkStep_steady ..))
  split
  · exact (hink _).trans (.cntSat _ (hcstat _))
  · exact hink _

theorem nibLatch_steady (s : State) (n src : Nat) : GlobSteady s (nibLatch s n src) := by
  unfold nibLatch
  extract_lets g s1 s2 _ s3 _ s4
  have hshown : GlobSteady s s1 := (GlobSteady.setFlag s _ (nibNstat_ne_nibGlob n)).trans (.setFld _ _ (nibNstat_ne_nibGlob n))
  have hcounted : GlobSteady s1 s2 := (GlobSteady.cntSat s1 (nibNcnt_ne_nibGlob n)).trans (.cntSat _ (nibGcnt_ne_nibGlob g))
  have hstopped : GlobSteady s2 s3 := setNibS_steady ..
  have hkept : GlobSteady s3 s4 := withNib_steady ..
  have htold : GlobSteady s4 ((hizRefresh (nlatchedRefresh s4 g) n).raise 32 n (wd src)) :=
    (GlobSteady.setFld s4 _ (nibGstate_ne_nibGlob g)).trans ((hizRefresh_steady _ _).trans (.raise _ _ _ _))
  refine .ite (.refl s) (.trans ?_ (latchFault_steady ..))
  exact (hshown.trans (hcounted.trans (hstopped.trans (hkept.trans htold)))).trans (nibLog_steady ..)

theorem nibCut_steady (s : State) (n : Nat) : GlobSteady s (nibCut s n) :=
  .ite (.refl s) ((setNibS_steady ..).trans (nibLog_steady ..))

theorem countCut_steady (s : State) (g n : Nat) : GlobSteady s (countCut s g n) :=
  (GlobSteady.cntSat s (nibGcnt_ne_nibGlob g)).trans (.raiseLim ..)

/-- A source that acts on nibs leaves HUSK_EN and the occurrences that waited. -/
theorem sourceAct_steady (s : State) (l : List Nat) (code : Nat) : GlobSteady s (sourceAct s l code) := by
  unfold sourceAct
  extract_lets act lat cut s1 s2
  have hlatched : GlobSteady s s1 := .foldl (fun t n => nibLatch_steady t n code) _ s
  have hcounted : GlobSteady s1 s2 := by
    refine .foldl (fun t g => ?_) _ s1
    split
    · exact countCut_steady ..
    · exact .refl t
  exact hlatched.trans (hcounted.trans (.foldl nibCut_steady _ s2))

/-! ### The gate enable (R188) -/

theorem huskEn_of_steady {s t : State} (h : GlobSteady s t) : huskEn t = huskEn s := congrArg (fun w => bitsOf w 0 1 == 1) h.glob

/-- A change of the gate enable, up to what the nibs make of it. -/
def huskTold (s : State) (on : Bool) : State := (s.setFlag R.nibGlob_HUSK_EN on).raise 41 0 (wd (b2n on))

theorem huskEn_huskTold (s : State) (on : Bool) : huskEn (huskTold s on) = on := State.flag_setFlag_same s R.nibGlob_HUSK_EN on (by decide) rfl

/-- A change of the gate enable is shown and told first, and the nibs leave both. -/
theorem huskEnable_changes {s : State} {on : Bool} (h : huskEn s = !on) : GlobSteady (huskTold s on) (huskEnable s on) := by
  unfold huskEnable
  rw [if_neg (by simp [h])]
  exact (GlobSteady.ite (.refl _) (sourceAct_steady ..)).trans (hizAll_steady ..)

/-- The gate enable takes the value it is given. -/
theorem huskEn_huskEnable (s : State) (on : Bool) : huskEn (huskEnable s on) = on := by
  by_cases h : huskEn s = on
  · rw [huskEnable, if_pos h, h]
  · exact (huskEn_of_steady (huskEnable_changes (Bool.eq_not.mpr h))).trans (huskEn_huskTold s on)

/-- Where Husk removes torque HUSK_EN is 0. -/
theorem huskEn_huskOff (s : State) : huskEn (huskOff s) = false := huskEn_huskEnable s false

/-! ### The backstop of SS1 (R339, R356) -/

/-- The frame of the exchange asks for STO. -/
def asksSto (w : List Word) : Bool := frameOk w && bitOf (nth w 1 0#32) 27

theorem backstop_alone {s : State} (hon : s.safe.husk.on = true) (hst : s.safe.husk.st = 3) (h : s.safe.toHusk.any asksSto = false) :
    backstop s = (huskLock s 15).raise 206 0 0#32 := by
  unfold backstop
  rw [if_neg (by simp [hon, hst])]
  split
  · rename_i f hf
    rw [hf] at h
    exact if_neg (Bool.eq_false_iff.mp h)
  · rfl

theorem backstop_meets_sto {s : State} (hon : s.safe.husk.on = true) (hst : s.safe.husk.st = 3) (h : s.safe.toHusk.any asksSto = true) :
    backstop s = huskOff (s.setHusk { s.safe.husk with st := 1 }) := by
  unfold backstop
  rw [if_neg (by simp [hon, hst])]
  split
  · rename_i f hf
    rw [hf] at h
    exact if_pos h
  · rename_i hf
    rw [hf] at h
    exact absurd h Bool.false_ne_true

/-- Settles O36, command by command. -/
theorem huskTimesAndFailures : Obligations.Husk_Times_And_Failures := by
  refine ⟨?enable, ?settle, ?backstop, ?counter, ?single, ?selfTest, ?powerUp, ?loss⟩
  case enable =>
    intro s on h
    have hsteady := huskEnable_changes h
    exact ⟨_, rfl, huskEn_huskEnable s on, hsteady.occ.subset (List.mem_append_right _ List.mem_cons_self)⟩
  case settle =>
    intro s hup hgen hsettle
    exact congrArg Host.Outcome.next (if_pos (by simp [hup, hgen, hsettle]))
  case backstop =>
    rintro s f hon hst rfl
    refine ⟨fun h => congrArg Host.Outcome.next (backstop_alone hon hst h), fun h => ?_⟩
    exact ⟨_, congrArg Host.Outcome.next (backstop_meets_sto hon hst h), rfl, rfl, huskEn_huskOff _, rfl⟩
  case counter =>
    intro s c v hup htol
    exact congrArg Host.Outcome.next (if_pos ⟨hup, htol⟩)
  case single =>
    intro s hon hst
    exact congrArg Host.Outcome.next (if_pos ⟨hon, hst⟩)
  case selfTest =>
    intro s hon
    exact ⟨_, congrArg Host.Outcome.next (if_pos hon), rfl, rfl, huskEn_huskOff _⟩
  case powerUp =>
    intro s hoff
    exact ⟨_, congrArg Host.Outcome.next (if_neg (by simp [hoff])), rfl, rfl, rfl, rfl, rfl, rfl⟩
  case loss =>
    exact fun s => ⟨_, rfl, rfl, rfl, huskEn_huskOff s⟩

end Sys2Proof.Machine
end

section
/-! PROOF. O27, windings: what enable, disable and identification do once their checks pass, and the three ends of an identification run. -/

namespace Sys2Proof.Machine

open Sys2Proof

/-! ### WINDING_ENABLE and WINDING_DISABLE (R199, R200) -/

section

variable {s : State} {r : Request} (hslot : slotCheck s r.target [1, 2, 3, 4] = none)
include hslot

section

variable (hen : huskEn s = true) (hcfg : s.flag R.cfgStat_SAFE_CFG_FAULT = false) (hlock : safeLocked s = false)
include hen hcfg hlock

/-- An ENABLED winding is left as it is. -/
theorem opWindingEnable_enabled (hst : windState s r.target = 2) : opWindingEnable r s = { st := s } := by
  simp [opWindingEnable, hslot, orRefuse, hen, hcfg, hlock, hst]

/-- A winding that has its set and its angle, in a group that is not OFF, is enabled at the group's boundary. -/
theorem opWindingEnable_waits (hst : windState s r.target ≠ 2) (hgrp : grpState s (s.ctx r.target).grp ≠ 0) (hset : (ownedSet s r.target).isSome = true)
    (hangle : angleBound s r.target = true) (hlatch : windLatched s r.target = false) :
    opWindingEnable r s = { st := addPend s (s.ctx r.target).grp (dueNext s (s.ctx r.target).grp) false (.windEnable r.target),
                            affects := [((s.ctx r.target).grp, dueNext s (s.ctx r.target).grp)] } := by
  have hset' : (ownedSet s r.target).isNone = false := Option.isNone_eq_false_iff.mpr hset
  simp [opWindingEnable, hslot, orRefuse, hen, hcfg, hlock, hst, hgrp, hset', hangle, hlatch]

end

theorem opWindingDisable_waits {w : Word} (hp : r.params = [w]) (hmode : bitsOf w 0 2 ≠ 3) :
    opWindingDisable r s = { st := addPend s (s.ctx r.target).grp (dueNext s (s.ctx r.target).grp) false (.windDisable r.target (bitsOf w 0 2)),
                             affects := [((s.ctx r.target).grp, dueNext s (s.ctx r.target).grp)] } := by
  simp only [opWindingDisable, hslot, orRefuse, p_zero_of_params hp, if_neg hmode]

end

/-! ### PRECHARGE and RAMP (R199) -/

theorem prechargeEnd_enables {s : State} {slot : Nat} (hkind : isWinding (s.ctx slot).kind = true) (hst : windState s slot = 1)
    (hfr : bitsOf (s.cp slot 26) 0 16 ≤ (s.wind slot).fr) : prechargeEnd s slot = windSet (s.setSt slot (.wind {})) slot 2 :=
  if_pos (by simp [hkind, hst, hfr])

theorem rampEnd_releases {s : State} {slot : Nat} (hkind : isWinding (s.ctx slot).kind = true) (hst : windState s slot = 3)
    (hfr : bitsOf (s.cp slot 26) 16 16 ≤ (s.wind slot).fr) : rampEnd s slot = windRelease s slot :=
  if_pos (by simp [hkind, hst, hfr])

/-! ### Identification (R213) -/

/-- An ENABLED winding in PROVE whose machine has no other member ENABLED starts a run at a current within its bound. -/
theorem opIdentRun_starts {s : State} {r : Request} {p i w : Word} (hp : r.params = [p, i, w]) (hslot : r.target ≤ 255)
    (hkind : (s.ctx r.target).kind = 2) (hmode : bitsOf p 0 2 ≠ 0) (hi : badF32 i = false) (hw : badF32 w = false) (hi0 : 0 ≤ ratOf i)
    (himax : ratOf i ≤ s.cpR r.target 13) (hst : windState s r.target = 2) (hgrp : grpState s (s.ctx r.target).grp = 1)
    (halone : ∀ m ∈ machineOf s (curBind s) r.target, ∀ x ∈ bMembers (s.ctx m).bind, x ≠ r.target → windState s x ≠ 2) :
    opIdentRun r s = { st := s.setSt r.target (.wind { s.wind r.target with
      ident := some { mode := bitsOf p 0 2, iId := f32Flush i, still := f32Flush w } }) } := by
  have hp0 : r.p 0 = p := congrArg (nth · 0 0#32) hp
  have hp1 : r.p 1 = i := congrArg (nth · 1 0#32) hp
  have hp2 : r.p 2 = w := congrArg (nth · 2 0#32) hp
  unfold opIdentRun
  extract_lets k mode others
  have hothers : others = false := by
    simp only [others]
    split
    · rename_i m hm
      exact List.any_eq_false.mpr fun x hx => by simpa using halone m hm x hx
    · rfl
  simp only [k, mode, hothers, hp0, hp1, hp2]
  rw [if_neg (by simp [hslot, hkind]), if_neg (by simp [hkind, hmode, hi, hw, hi0, himax]), if_neg (by simp [hst, hgrp])]

section

variable {s : State} {slot code : Nat} {d : IdentS} (res : Word) (scales : List (Nat × Word)) (cells : List (Nat × Nat × BitVec 16))
  (hrun : (s.wind slot).ident = some d) (hstop : identStop s slot d = some code)
include hrun hstop

/-- A run that fails leaves nothing but its end. -/
theorem identDone_fails (hcode : code ≠ 0) : identDone s slot res scales cells = identEnd s slot code := by
  simp only [identDone, hrun, hstop, if_pos hcode]

/-- A resistance that was measured waits for the boundary of the winding's group. -/
theorem identDone_resistance (hcode : code = 0) (hmode : d.mode = 1) :
    identDone s slot res scales cells = addPend ((identEnd s slot code).setCw slot 2 res) (s.ctx slot).grp
      (dueNext (identEnd s slot code) (s.ctx slot).grp) false (.ctxWords slot 2 [res]) := by
  simp only [identDone, hrun, hstop, if_neg (not_not.mpr hcode), if_pos hmode]

/-- Maps that were measured stand in their shadow: their entries, then their headers. -/
theorem identDone_maps {maps : List Nat} (hcode : code = 0) (hmode : d.mode ≠ 1)
    (hmaps : maps = (if d.mode = 2 then (ctxMaps s slot).drop 2 else (ctxMaps s slot).take 2).filter (· < 64)) :
    identDone s slot res scales cells = (scales.filter (fun e => maps.contains e.1)).foldl
      (fun t e => identHeader t (identGrid s slot d.mode) e.1 e.2)
      (cells.foldl (fun t e => if maps.contains e.1 then setMapHalf t e.1 mShadow (e.2.1 % 1024) e.2.2.toNat else t) (identEnd s slot code)) := by
  rw [hmaps, apply_ite (List.filter fun m : Nat => decide (m < 64))]
  simp only [identDone, hrun, hstop, if_neg (not_not.mpr hcode), if_neg hmode]

end

/-- Settles O27, command by command. -/
theorem windingCommands : Obligations.Winding_Commands := by
  refine ⟨?enable, ?disable, ?precharge, ?ramp, ?run, ?done⟩
  case enable =>
    intro s r hs hp hslot hen hcfg hlock
    have hexec : exec (.windingEnable r) s = _ := exec_of_served rfl hs (by simp [hp])
    exact ⟨fun hst => by rw [hexec, opWindingEnable_enabled hslot hen hcfg hlock hst],
      fun hst hgrp hset hangle hlatch => by rw [hexec, opWindingEnable_waits hslot hen hcfg hlock hst hgrp hset hangle hlatch]⟩
  case disable =>
    intro s r w hs hp hslot hmode
    rw [exec_of_served (c := .windingDisable r) rfl hs (by simp [hp]), opWindingDisable_waits hslot hp hmode]
  case precharge =>
    intro s slot hkind hst hfr
    exact congrArg Host.Outcome.next (prechargeEnd_enables hkind hst hfr)
  case ramp =>
    intro s slot hkind hst hfr
    exact congrArg Host.Outcome.next (rampEnd_releases hkind hst hfr)
  case run =>
    intro s r p i w hs hp hslot hkind hmode hi hw hi0 himax hst hgrp halone
    rw [exec_of_served (c := .identRun r) rfl hs (by simp [hp]), opIdentRun_starts hp hslot hkind hmode hi hw hi0 himax hst hgrp halone]
  case done =>
    rintro s u slot res scales cells maps d code hrun hstop rfl
    exact ⟨fun hcode => congrArg Host.Outcome.next (identDone_fails res scales cells hrun hstop hcode),
      fun hcode hmode => congrArg Host.Outcome.next (identDone_resistance res scales cells hrun hstop hcode hmode),
      fun hcode hmode hmaps => congrArg Host.Outcome.next (identDone_maps res scales cells hrun hstop hcode hmode hmaps)⟩

end Sys2Proof.Machine
end

section
/-! PROOF. O28, map and cam stores: words written in a row, the torque table that is rebuilt, and the three steps of a cam load. -/

namespace Sys2Proof.Machine

open Sys2Proof

/-! ### Words written in a row -/

/-- What one step of a count writes, and no other step changes, is what the count leaves. -/
theorem foldl_range_writes {β γ : Type} {f : β → Nat → β} {get src : β → γ} {n k : Nat} (hk : k < n) (hwrite : ∀ b, get (f b k) = src b)
    (hsrc : ∀ b j, src (f b j) = src b) (hother : ∀ b j, j < n → j ≠ k → get (f b j) = get b) (b : β) :
    get ((List.range n).foldl f b) = src b := by
  induction n with
  | zero => exact absurd hk (Nat.not_lt_zero k)
  | succ n ih =>
    rw [List.range_succ, List.foldl_append, List.foldl_cons, List.foldl_nil]
    rcases Nat.lt_succ_iff_lt_or_eq.mp hk with hlt | rfl
    · exact (hother _ n (Nat.lt_succ_self n) hlt.ne').trans (ih hlt fun b j hj => hother b j (Nat.lt_succ_of_lt hj))
    · exact (hwrite _).trans (foldl_keep f src hsrc _ b)

/-- What no step of a count changes, the count leaves. -/
theorem foldl_range_leaves {β γ : Type} {f : β → Nat → β} {get : β → γ} {n : Nat} (h : ∀ b j, j < n → get (f b j) = get b) (b : β) :
    get ((List.range n).foldl f b) = get b :=
  List.foldlRecOn (List.range n) f (motive := fun t => get t = get b) rfl fun t ht j hj => (h t j (List.mem_range.mp hj)).trans ht

/-! ### The map store -/

section

variable {s : State} {m m' i i' : Nat} {x : Word}

@[simp] theorem mapW_setMapW_same : mapW (setMapW s m i x) m i = x := tblGet_put_same ..

theorem mapW_setMapW_ne (h : m' * 2048 + i' ≠ m * 2048 + i) : mapW (setMapW s m' i' x) m i = mapW s m i := tblGet_put_ne _ _ _ _ _ _ h

end

/-! ### The torque table (R214) -/

/-- One point of a torque table in the window of a map. -/
def mtpaPut (t : State) (x n : Nat) (p : Word × Word × Word) : State :=
  setMapW (setMapW (setMapW t x (mMtpa + 3 * n) p.1) x (mMtpa + 3 * n + 1) p.2.1) x (mMtpa + 3 * n + 2) p.2.2

/-- One point of the table as the PSI_D map shows it, and the PSI_Q map where there is one. -/
def mtpaShow (m mq : Nat) (t : State) (n : Nat) (p : Word × Word × Word) : State := if mq < 64 then mtpaPut (mtpaPut t m n p) mq n p else mtpaPut t m n p

/-- The table of a map kept aside. -/
def mtpaKept (s : State) (m : Nat) : State := (List.range 96).foldl (fun t i => setMapW t m (mMtpaOld + i) (mapW t m (mMtpa + i))) s

/-- Point `n` of the table of map `m`, made for the winding in slot `k` (R214). -/
def mtpaPoints (s : State) (m k n : Nat) : Word × Word × Word :=
  mtpaPoint (mapTorque s (bitsOf (s.frc (ctxAddr k 0)) 0 8) m (nth (ctxMaps s k) 1 0xFF)) (ratOf (s.frc (ctxAddr k 13))) n

theorem mtpaRebuild_of_namer {s : State} {m k : Nat} (h : s.slots.find? (fun k => (ctxMaps s k).headD 0xFF == m) = some k) :
    mtpaRebuild s m = (List.range 32).foldl (fun t n => mtpaShow m (nth (ctxMaps s k) 1 0xFF) t n (mtpaPoints s m k n)) (mtpaKept s m) := by
  unfold mtpaRebuild
  rw [h]
  rfl

section

variable {m : Nat}

theorem mapW_mtpaPut_first {t : State} {n : Nat} {p : Word × Word × Word} : mapW (mtpaPut t m n p) m (mMtpa + 3 * n) = p.1 := by
  rw [mtpaPut, mapW_setMapW_ne (by omega), mapW_setMapW_ne (by omega), mapW_setMapW_same]

theorem mapW_mtpaPut_ne {t : State} {x n i : Nat} {p : Word × Word × Word} (h : ∀ j, j < 3 → x * 2048 + (mMtpa + 3 * n + j) ≠ m * 2048 + i) :
    mapW (mtpaPut t x n p) m i = mapW t m i := by
  rw [mtpaPut, mapW_setMapW_ne (h 2 (by decide)), mapW_setMapW_ne (h 1 (by decide))]
  exact mapW_setMapW_ne (h 0 (by decide))

theorem mapW_mtpaShow_first {mq n : Nat} (t : State) (p : Word × Word × Word) : mapW (mtpaShow m mq t n p) m (mMtpa + 3 * n) = p.1 := by
  unfold mtpaShow
  split
  · by_cases h : mq = m
    · subst h
      exact mapW_mtpaPut_first
    · exact (mapW_mtpaPut_ne fun j hj => by omega).trans mapW_mtpaPut_first
  · exact mapW_mtpaPut_first

/-- A point of the table leaves the words of a window that are not its own. -/
theorem mapW_mtpaShow_ne {mq n i : Nat} (hn : n < 32) (hi : i < 2048) (h : i < mMtpa + 3 * n ∨ mMtpa + 3 * n + 3 ≤ i) (t : State) (p : Word × Word × Word) :
    mapW (mtpaShow m mq t n p) m i = mapW t m i := by
  have hput (x : Nat) (u : State) : mapW (mtpaPut u x n p) m i = mapW u m i := mapW_mtpaPut_ne fun j hj => by
    simp only [mMtpa] at h ⊢
    omega
  unfold mtpaShow
  split
  · exact (hput mq _).trans (hput m t)
  · exact hput m t

/-- Where the old table is kept aside stands what the table held. -/
theorem mapW_mtpaKept {i : Nat} (s : State) (hi : i < 96) : mapW (mtpaKept s m) m (mMtpaOld + i) = mapW s m (mMtpa + i) :=
  foldl_range_writes (get := fun t => mapW t m (mMtpaOld + i)) (src := fun t => mapW t m (mMtpa + i)) hi (fun _ => mapW_setMapW_same)
    (fun _ j => mapW_setMapW_ne (by simp only [mMtpaOld, mMtpa]; omega)) (fun _ j _ hj => mapW_setMapW_ne (by omega)) s

variable {s : State} {k : Nat} (hnamer : s.slots.find? (fun k => (ctxMaps s k).headD 0xFF == m) = some k)
include hnamer

/-- A rebuild keeps the table before it aside. -/
theorem mtpaRebuild_keeps_old {i : Nat} (hi : i < 96) : mapW (mtpaRebuild s m) m (mMtpaOld + i) = mapW s m (mMtpa + i) := by
  rw [mtpaRebuild_of_namer hnamer]
  refine (foldl_range_leaves (get := fun t => mapW t m (mMtpaOld + i)) (fun t n hn => mapW_mtpaShow_ne hn ?_ (.inr ?_) t _) _).trans (mapW_mtpaKept s hi)
  · simp only [mMtpaOld]
    omega
  · simp only [mMtpaOld, mMtpa]
    omega

/-- A rebuilt table holds the torques of its points. -/
theorem mtpaRebuild_torque {n : Nat} (hn : n < 32) : mapW (mtpaRebuild s m) m (mMtpa + 3 * n) = (mtpaPoints s m k n).1 := by
  rw [mtpaRebuild_of_namer hnamer]
  refine foldl_range_writes (get := fun t => mapW t m (mMtpa + 3 * n)) (src := fun _ => (mtpaPoints s m k n).1) hn
    (fun t => mapW_mtpaShow_first t _) (fun _ _ => rfl) (fun t j hj hne => mapW_mtpaShow_ne hj ?_ (by omega) t _) _
  simp only [mMtpa]
  omega

end

/-! ### The rebuild of a table (R139, R214) -/

section

variable {s : State} {m : Fin 64} (hvalid : mapValid s m.val = true) (hkind : mapKind s m.val = 1)
include hvalid hkind

theorem exec_mtpaRebuild_unused (hnone : mapGroups s m.val = []) : exec (.mtpaRebuild m) s = .next (mtpaRebuild s m.val) :=
  congrArg Host.Outcome.next ((if_pos ⟨hvalid, hkind⟩).trans (by rw [mtpaRequest, hnone]))

theorem exec_mtpaRebuild_used (hsome : mapGroups s m.val ≠ []) :
    exec (.mtpaRebuild m) s = .next ((mapGroups s m.val).foldl (fun t g => addPend t g (dueNext t g) false (.mtpa m.val)) s) := by
  refine congrArg Host.Outcome.next ((if_pos ⟨hvalid, hkind⟩).trans ?_)
  unfold mtpaRequest
  split
  · rename_i hnone
    exact absurd hnone hsome
  · rfl

end

/-! ### The cam store -/

section

variable {s : State} {c c' i i' : Nat} {x : Word}

@[simp] theorem camW_setCamW_same : camW (setCamW s c i x) c i = x := tblGet_put_same ..

@[simp] theorem setCamW_reg (a : Nat) : (setCamW s c i x).reg a = s.reg a := rfl

theorem camW_setCamW_ne (h : c' * 4096 + i' ≠ c * 4096 + i) : camW (setCamW s c' i' x) c i = camW s c i := tblGet_put_ne _ _ _ _ _ _ h

end

/-- Words written in a row from a word of a cam on. -/
def camFill (s : State) (c i n : Nat) (v : Nat → Word) : State := (List.range n).foldl (fun t k => setCamW t c (i + k) (v k)) s

section

variable {c i n : Nat} {v : Nat → Word} (s : State)

@[simp] theorem camFill_reg (a : Nat) : (camFill s c i n v).reg a = s.reg a :=
  foldl_keep (fun t k => setCamW t c (i + k) (v k)) (State.reg · a) (fun _ _ => setCamW_reg a) _ s

theorem camW_camFill_in {k : Nat} (hk : k < n) : camW (camFill s c i n v) c (i + k) = v k :=
  foldl_range_writes (get := fun t => camW t c (i + k)) (src := fun _ => v k) hk (fun _ => camW_setCamW_same) (fun _ _ => rfl)
    (fun _ j _ hj => camW_setCamW_ne (by omega)) s

theorem camW_camFill_out {c' j : Nat} (h : c' * 4096 + j < c * 4096 + i ∨ c * 4096 + i + n ≤ c' * 4096 + j) :
    camW (camFill s c i n v) c' j = camW s c' j :=
  foldl_range_leaves (get := fun t => camW t c' j) (fun _ k hk => camW_setCamW_ne (by omega)) s

end

/-! ### A cam load begins (R278, R285) -/

/-- The directory word of a cam nothing uses, as BEGIN leaves it. -/
def camDirBegun (p : Word) : Word := withBits (withBits (withBits (p &&& 0x20000FFF#32) 16 8 0) 30 1 (b2n (bitOf p 28))) 28 1 1

/-- A field inside a mask is that of the word. -/
theorem bitsOf_and_mask {x mask : Word} {lo n : Nat} (hf : lo + n ≤ 32) (h : ∀ i, i < n → bitOf mask (lo + i) = true) :
    bitsOf (x &&& mask) lo n = bitsOf x lo n :=
  bitsOf_congr hf fun i hi => (BitVec.getLsbD_and ..).trans (by rw [show mask.getLsbD (lo + i) = true from h i hi, Bool.and_true]; rfl)

/-- A field apart from a mask is zero. -/
theorem bitsOf_and_apart {x mask : Word} {lo n : Nat} (hf : lo + n ≤ 32) (h : ∀ i, i < n → bitOf mask (lo + i) = false) :
    bitsOf (x &&& mask) lo n = 0 :=
  (bitsOf_congr (y := 0#32) hf fun i hi => (BitVec.getLsbD_and ..).trans (by simp [show mask.getLsbD (lo + i) = false from h i hi, bitOf])).trans
    (by simp [bitsOf])

/-- A field of the directory word apart from USERS, CUBIC and LOADING is the request's, as far as the mask lets it through. -/
theorem camDirBegun_apart (p : Word) {lo n : Nat} (hf : lo + n ≤ 32) (husers : lo + n ≤ 16 ∨ 24 ≤ lo) (hcubic : lo + n ≤ 30 ∨ 31 ≤ lo)
    (hloading : lo + n ≤ 28 ∨ 29 ≤ lo) : bitsOf (camDirBegun p) lo n = bitsOf (p &&& 0x20000FFF#32) lo n := by
  rw [camDirBegun, bitsOf_withBits_apart _ _ _ _ _ _ hf (by omega), bitsOf_withBits_apart _ _ _ _ _ _ hf (by omega),
    bitsOf_withBits_apart _ _ _ _ _ _ hf (by omega)]

theorem camDirBegun_n (p : Word) : bitsOf (camDirBegun p) 0 12 = bitsOf p 0 12 :=
  (camDirBegun_apart p (by decide) (by decide) (by decide) (by decide)).trans (bitsOf_and_mask (by decide) (by decide))

theorem camDirBegun_periodic (p : Word) : (bitsOf (camDirBegun p) 29 1 == 1) = bitOf p 29 := by
  rw [camDirBegun_apart p (by decide) (by decide) (by decide) (by decide), bitsOf_and_mask (by decide) (by decide), flag_eq_bitOf p (by decide)]

theorem camDirBegun_cubic (p : Word) : (bitsOf (camDirBegun p) 30 1 == 1) = bitOf p 28 := by
  rw [camDirBegun, bitsOf_withBits_apart _ _ _ _ _ _ (by decide) (by decide), bitsOf_withBits_same _ _ _ _ (by decide)]
  cases bitOf p 28 <;> rfl

theorem camDirBegun_loading (p : Word) : bitsOf (camDirBegun p) 28 1 = 1 := bitsOf_withBits_same _ _ _ _ (by decide)

theorem camDirBegun_valid (p : Word) : bitsOf (camDirBegun p) 31 1 = 0 :=
  (camDirBegun_apart p (by decide) (by decide) (by decide) (by decide)).trans (bitsOf_and_apart (by decide) (by decide))

/-- The load of a cam opened at its first point. -/
def camLoadStarts (t : State) (c : Nat) : State := ((t.setFlag R.camLoadst_OPEN true).setFld R.camLoadst_TARGET c).setFld R.camLoadst_NEXT 0

section

variable {t : State} {c : Nat}

theorem camLoadStarts_next : (camLoadStarts t c).fld R.camLoadst_NEXT = 0 := State.fld_setFld_same _ _ _ (by decide)

theorem camLoadStarts_open (hc : c ≤ 31) : camLoadOpen (camLoadStarts t c) = some c := by
  have hnext (g : RF) (h : g.addr = R.camLoadst ∧ 12 ≤ g.lo ∧ g.lo + g.w ≤ 32) :
      (camLoadStarts t c).fld g = ((t.setFlag R.camLoadst_OPEN true).setFld R.camLoadst_TARGET c).fld g :=
    State.fld_setFld_apart _ R.camLoadst_NEXT g _ h.1.symm h.2.2 (.inl h.2.1)
  have hopen : (camLoadStarts t c).fld R.camLoadst_OPEN = 1 :=
    (hnext _ (by decide)).trans ((State.fld_setFld_apart _ R.camLoadst_TARGET R.camLoadst_OPEN _ rfl (by decide) (by decide)).trans
      (State.fld_setFld_same _ _ _ (by decide)))
  have htarget : (camLoadStarts t c).fld R.camLoadst_TARGET = c :=
    ((hnext _ (by decide)).trans (State.fld_setFld_same _ _ _ (by decide))).trans (Nat.mod_eq_of_lt (Nat.lt_succ_of_le hc))
  rw [camLoadOpen, State.flag, hopen, htarget]
  rfl

@[simp] theorem camW_camLoadStarts (d i : Nat) : camW (camLoadStarts t c) d i = camW t d i := rfl

theorem camLoadStarts_reg_ne {a : Nat} (h : R.camLoadst ≠ a) : (camLoadStarts t c).reg a = t.reg a :=
  (State.reg_setFld_ne _ _ _ _ h).trans ((State.reg_setFld_ne _ _ _ _ h).trans (State.reg_setFlag_ne _ _ _ _ h))

end

/-- The directory of a cam nothing uses as BEGIN leaves it: `camDirBegun` in its register. -/
def camListed (s : State) (c : Nat) (p : Word) : State :=
  (s.setReg (R.camDir c) (withBits (withBits (p &&& 0x20000FFF#32) 16 8 0) 30 1 (b2n (bitOf p 28)))).setFlag (R.camDir_LOADING c) true

/-- A cam without points and with its header, listed and being loaded. -/
def camOpened (s : State) (c : Nat) (p x0 span rise : Word) : State :=
  camLoadStarts (setCamW (setCamW (setCamW (camFill (camListed s c p) c 0 2048 fun _ => 0#32) c 2048 (f32Flush x0)) c 2049 (f32Flush span)) c 2050
    (f32Flush rise)) c

/-- BEGIN opens the load of a cam that nothing uses, with a form and a header that pass, while no other cam is being loaded. -/
theorem camLoad_begins {s : State} {r : Request} {p x0 span rise : Word} (hp : r.params = [p, x0, span, rise]) (hcam : r.target ≤ 31)
    (hstep : bitsOf p 30 2 = 0) (hform : bitsOf p 12 16 = 0) (hn2 : 2 ≤ bitsOf p 0 12) (hn : bitsOf p 0 12 ≤ 2048) (hx0 : badF32 x0 = false)
    (hspan : badF32 span = false) (hrise : badF32 rise = false) (hpos : 0 < ratOf span) (hends : bitOf p 29 = true ∨ ratOf rise = 0)
    (husers : s.fld (R.camDir_USERS r.target) = 0) (hopen : camLoadOpen s = none ∨ camLoadOpen s = some r.target) :
    camLoad r s = { st := camOpened s r.target p x0 span rise } := by
  have hp0 : r.p 0 = p := congrArg (nth · 0 0#32) hp
  have hp1 : r.p 1 = x0 := congrArg (nth · 1 0#32) hp
  have hp2 : r.p 2 = span := congrArg (nth · 2 0#32) hp
  have hp3 : r.p 3 = rise := congrArg (nth · 3 0#32) hp
  have hends' : bitOf p 29 = false → ratOf rise = 0 := fun hper => hends.resolve_left (by simp [hper])
  have hfree : (camLoadOpen s).any (· != r.target) = false := by
    rcases hopen with h | h <;> simp [h]
  simp only [camLoad, hp0, hstep, opCamLoadBegin, if_neg (Nat.not_lt.mpr hcam)]
  unfold camBegin
  simp only [hp0, hp1, hp2, hp3, husers]
  rw [if_neg (by simpa [hp, hform, outNat_inside hn2 hn, hx0, hspan, hrise, hpos] using hends'), if_neg (by simp [hfree])]
  simp only [camOpened, camLoadStarts, camListed, camFill, Nat.zero_add]

section

variable {s : State} {c : Nat} {p x0 span rise : Word}

theorem camListed_dir : (camListed s c p).reg (R.camDir c) = camDirBegun p :=
  (State.reg_setFld_same _ (R.camDir_LOADING c) _).trans (congrArg (withBits · 28 1 1) (State.reg_setReg_same ..))

theorem camOpened_dir (hc : c ≤ 31) : (camOpened s c p x0 span rise).reg (R.camDir c) = camDirBegun p := by
  have haddr : R.camLoadst ≠ R.camDir c := by
    simp only [R.camLoadst, R.camDir]
    omega
  rw [camOpened, camLoadStarts_reg_ne haddr, setCamW_reg, setCamW_reg, setCamW_reg, camFill_reg, camListed_dir]

theorem camW_camOpened (i : Nat) : camW (camOpened s c p x0 span rise) c i =
    if i = 2050 then f32Flush rise else if i = 2049 then f32Flush span else if i = 2048 then f32Flush x0
      else camW (camFill (camListed s c p) c 0 2048 fun _ => 0#32) c i := by
  have hput (t : State) (j : Nat) (x : Word) : camW (setCamW t c j x) c i = if i = j then x else camW t c i := by
    split
    · rename_i h
      exact h ▸ camW_setCamW_same
    · exact camW_setCamW_ne (by omega)
  rw [camOpened, camW_camLoadStarts, hput, hput, hput]

end

/-! ### The points of a cam (R285) -/

/-- DATA takes points that stand at NEXT and within N. -/
theorem camLoad_takes {s : State} {r : Request} {p : Word} {pts : List Word} (hp : r.params = p :: pts) (hne : pts ≠ [])
    (hpts : pts.any badF32 = false) (hcam : r.target ≤ 31) (hstep : bitsOf p 30 2 = 1) (hform : bitsOf p 12 18 = 0)
    (hopen : camLoadOpen s = some r.target) (hnext : bitsOf p 0 12 = s.fld R.camLoadst_NEXT)
    (hroom : bitsOf p 0 12 + pts.length ≤ s.fld (R.camDir_N r.target)) :
    camLoad r s = { st := (camFill s r.target (bitsOf p 0 12) pts.length (fun k => f32Flush (nth pts k 0#32))).setFld R.camLoadst_NEXT
                            (bitsOf p 0 12 + pts.length) } := by
  have hp0 : r.p 0 = p := congrArg (nth · 0 0#32) hp
  have hdrop : r.params.drop 1 = pts := congrArg (List.drop 1) hp
  simp only [camLoad, hp0, hstep]
  unfold opCamLoadData
  simp only [hp0, hdrop]
  rw [if_neg (Nat.not_lt.mpr hcam), if_neg (by simp [hform, hne, hpts]), if_neg (not_not.mpr hopen), if_neg (by omega)]
  rfl

/-! ### A cam load ends (R285) -/

/-- The load of a cam whose points are complete, ended. -/
def camClosed (s : State) (c : Nat) : State := ((s.setFlag (R.camDir_VALID c) true).setFlag (R.camDir_LOADING c) false).setFlag R.camLoadst_OPEN false

theorem camLoad_ends {s : State} {r : Request} {p : Word} (hp : r.params = [p]) (hcam : r.target ≤ 31) (hstep : bitsOf p 30 2 = 2)
    (hform : bitsOf p 0 30 = 0) (hopen : camLoadOpen s = some r.target) (hall : s.fld (R.camDir_N r.target) ≤ s.fld R.camLoadst_NEXT) :
    camLoad r s = { st := camClosed s r.target } := by
  simp only [camLoad, p_zero_of_params hp, hstep]
  unfold opCamLoadEnd
  dsimp only
  rw [if_neg (Nat.not_lt.mpr hcam), if_neg (by simp [hp, p_zero_of_params hp, hform]), if_neg (by simp [hopen, hall])]
  rfl

section

variable {s : State} {c : Nat}

theorem camClosed_open : camLoadOpen (camClosed s c) = none := by
  have hopen : (camClosed s c).flag R.camLoadst_OPEN = false := State.flag_setFlag_same _ _ _ (by decide) rfl
  rw [camLoadOpen, hopen]
  rfl

/-- The directory of a cam reads as before OPEN was cleared. -/
theorem camClosed_dir (hc : c ≤ 31) (f : RF) (hf : f.addr = R.camDir c) :
    (camClosed s c).flag f = ((s.setFlag (R.camDir_VALID c) true).setFlag (R.camDir_LOADING c) false).flag f := by
  refine State.flag_setFlag_ne _ _ _ _ ?_
  simp only [hf, R.camLoadst_OPEN, R.camLoadst, R.camDir]
  omega

theorem camClosed_valid (hc : c ≤ 31) : (camClosed s c).flag (R.camDir_VALID c) = true :=
  (camClosed_dir hc _ rfl).trans ((State.flag_setFlag_apart _ (R.camDir_LOADING c) (R.camDir_VALID c) _ rfl (by simp [R.camDir_VALID])
    (by simp [R.camDir_VALID, R.camDir_LOADING])).trans
    (State.flag_setFlag_same _ (R.camDir_VALID c) _ (by simp [R.camDir_VALID]) rfl))

theorem camClosed_loading (hc : c ≤ 31) : (camClosed s c).flag (R.camDir_LOADING c) = false :=
  (camClosed_dir hc _ rfl).trans (State.flag_setFlag_same _ (R.camDir_LOADING c) _ (by simp [R.camDir_LOADING]) rfl)

end

/-- Settles O28, command by command. -/
theorem mapAndCamStores : Obligations.Map_And_Cam_Stores := by
  refine ⟨?rebuild, ?table, ?begin, ?data, ?ends⟩
  case rebuild =>
    intro s m hvalid hkind
    exact ⟨exec_mtpaRebuild_unused hvalid hkind, exec_mtpaRebuild_used hvalid hkind⟩
  case table =>
    intro s m k hvalid hkind hnone hnamer
    exact ⟨_, exec_mtpaRebuild_unused hvalid hkind hnone, fun i hi => mtpaRebuild_keeps_old hnamer hi, fun n hn => mtpaRebuild_torque hnamer hn⟩
  case begin =>
    intro s r p x0 span rise hs hp hcam hstep hform hn2 hn hx0 hspan hrise hpos hends husers hopen
    have hexec : exec (.camLoadBegin r) s = _ := exec_of_served rfl hs (by simp [hp])
    rw [camLoad_begins hp hcam hstep hform hn2 hn hx0 hspan hrise hpos hends husers hopen] at hexec
    have hdir (lo n : Nat) : (camOpened s r.target p x0 span rise).fld ⟨R.camDir r.target, lo, n⟩ = bitsOf (camDirBegun p) lo n :=
      congrArg (bitsOf · lo n) (camOpened_dir hcam)
    have hflag (lo : Nat) : (camOpened s r.target p x0 span rise).flag ⟨R.camDir r.target, lo, 1⟩ = (bitsOf (camDirBegun p) lo 1 == 1) :=
      congrArg (· == 1) (hdir lo 1)
    refine ⟨_, hexec, camLoadStarts_open hcam, camLoadStarts_next, (hdir 0 12).trans (camDirBegun_n p), (hflag 29).trans (camDirBegun_periodic p),
      (hflag 30).trans (camDirBegun_cubic p), (hflag 28).trans (by rw [camDirBegun_loading]; rfl), (hflag 31).trans (by rw [camDirBegun_valid]; rfl),
      by simp [camW_camOpened], by simp [camW_camOpened], by simp [camW_camOpened], fun i hi => ?_⟩
    rw [camW_camOpened, if_neg (by omega), if_neg (by omega), if_neg (by omega), ← Nat.zero_add i]
    exact camW_camFill_in _ hi
  case data =>
    intro s r p pts hs hp hne hpts hcam hstep hform hopen hnext hroom
    have hexec : exec (.camLoadData r) s = _ := exec_of_served rfl hs (by simp [hp])
    rw [camLoad_takes hp hne hpts hcam hstep hform hopen hnext hroom] at hexec
    have hfits : s.fld (R.camDir_N r.target) < 2 ^ 12 := bitsOf_lt _ _ _ (by simp [R.camDir_N])
    exact ⟨_, hexec, (State.fld_setFld_same _ R.camLoadst_NEXT _ (by decide)).trans (Nat.mod_eq_of_lt (Nat.lt_of_le_of_lt hroom hfits)),
      fun i hi => camW_camFill_in s hi, fun c i hout => camW_camFill_out s hout⟩
  case ends =>
    intro s r p hs hp hcam hstep hform hopen hall
    have hexec : exec (.camLoadEnd r) s = _ := exec_of_served rfl hs (by simp [hp])
    rw [camLoad_ends hp hcam hstep hform hopen hall] at hexec
    exact ⟨_, hexec, camClosed_valid hcam, camClosed_loading hcam, camClosed_open, rfl⟩

end Sys2Proof.Machine
end
section
/-! PROOF. O25, latch units: an edge at one unit, time compares and windows, then the capture that completes. -/

namespace Sys2Proof.Machine

open Sys2Proof

/-! ### Edges at a latch pin (R238, R239) -/

section

variable {s : State} {u pin w : Nat} {rising sel : Bool} {ts t : Tick}

/-- A pin that one unit watches, its level held for the unit's FILT. -/
theorem latchPin_single (hu : latchUnits s 1 pin = [u]) (hfilt : s.fld (R.latchCfg_FILT u) ≤ w) :
    latchPin s pin rising ts w = latchEdge s u rising ts := by
  simp [latchPin, hu, hfilt]

/-- A level shorter than the FILT of every unit on the pin. -/
theorem latchPin_short (hshort : ∀ u ∈ latchUnits s 1 pin, w < s.fld (R.latchCfg_FILT u)) : latchPin s pin rising ts w = s := by
  have hnone : (latchUnits s 1 pin).filter (fun u => decide (s.fld (R.latchCfg_FILT u) ≤ w)) = [] :=
    List.filter_eq_nil_iff.mpr fun u hu => by simpa using hshort u hu
  rw [latchPin, hnone, List.foldl_nil]

/-- An instant that CHAT does not exclude, at an armed unit whose edge and window select it. -/
theorem latchInstant_captures (hen : s.flag (R.latchCfg_EN u) = true) (hsel : sel = true) (harmed : s.flag (R.latchStat_ARMED u) = true)
    (hwindow : latchOpen s u = true ∨ (s.reg64 (R.latchWstartLo u) ≤ t ∧ t < s.reg64 (R.latchWendLo u)))
    (hquiet : (s.lu u).lastCap.all (fun c => decide (t < c) || decide (s.fld (R.latchDly_CHAT u) * usTicks ≤ (t - c).toNat)) = true) :
    latchInstant s u sel t = latchCapture s u t := by
  have htakes : (sel && s.flag (R.latchStat_ARMED u) &&
      (latchOpen s u || (decide (s.reg64 (R.latchWstartLo u) ≤ t) && decide (t < s.reg64 (R.latchWendLo u))))) = true := by
    simpa [hsel, harmed] using hwindow
  unfold latchInstant
  extract_lets chat s1
  have hchat : chat = false := by
    cases hlast : (s.lu u).lastCap with
    | none => simp [chat, hlast]
    | some c =>
      rw [hlast, Option.all_some, Bool.or_eq_true, decide_eq_true_eq, decide_eq_true_eq] at hquiet
      simpa [chat, hlast, imp_iff_not_or] using hquiet
  rw [if_neg (by simp [hen]), if_neg (by simp [hchat]), if_pos htakes]

/-- An instant less than CHAT after the last capture, at an enabled unit. -/
theorem latchInstant_chatters {c : Tick} {x : State} (hen : s.flag (R.latchCfg_EN u) = true) (hlast : (s.lu u).lastCap = some c) (hafter : c ≤ t)
    (hsoon : (t - c).toNat < s.fld (R.latchDly_CHAT u) * usTicks) (hx : x = s.cntSat (R.latchStat_CHATTERS u)) :
    latchInstant s u sel t = x.raiseLim 145 u (wd (x.fld (R.latchStat_CHATTERS u))) (100 * msTicks) := by
  unfold latchInstant
  extract_lets chat s1
  have hchat : chat = true := by
    simp only [chat, hlast, Bool.and_eq_true, decide_eq_true_eq]
    exact ⟨hafter, hsoon⟩
  rw [if_neg (by simp [hen]), if_pos hchat, hx]

end

/-! ### Time compares, windows and `LATCH.CTRL` (R239, R242) -/

section

variable {s : State} {u : Nat}

theorem latchTime_captures (hen : s.flag (R.latchCfg_EN u) = true) (harmed : s.flag (R.latchStat_ARMED u) = true)
    (hkind : s.fld (R.latchCfg_SRCK u) = 2) (hahead : s.dt ≤ s.reg64 (R.latchWstartLo u)) :
    latchTime s u = latchCapture (s.at (s.reg64 (R.latchWstartLo u))) u (s.reg64 (R.latchWstartLo u)) :=
  if_neg (by simp [hen, harmed, hkind, hahead])

theorem latchEnd_disarms (harmed : s.flag (R.latchStat_ARMED u) = true) (hmode : s.fld (R.latchCfg_MODE u) = 0) (hclosed : latchOpen s u = false) :
    latchEnd s u = ((s.at (s.reg64 (R.latchWendLo u))).setFlag (R.latchStat_ARMED u) false).raise 146 u 0#32 :=
  if_neg (by simp [harmed, hmode, hclosed])

theorem latchCtrlWrite_arms (hfree : s.flag (R.latchStat_OWNED u) = false) (hen : s.flag (R.latchCfg_EN u) = true) :
    latchCtrlWrite s u 0x80000000#32 = { st := s.setFlag (R.latchStat_ARMED u) true } := by
  have harm : bitOf 0x80000000#32 31 = true := by decide
  have hkeep : bitOf 0x80000000#32 30 = false := by decide
  simp [latchCtrlWrite, hfree, hen, harm, hkeep]

theorem latchCtrlWrite_disarms (hfree : s.flag (R.latchStat_OWNED u) = false) :
    latchCtrlWrite s u 0x40000000#32 = { st := s.setFlag (R.latchStat_ARMED u) false } := by
  have harm : bitOf 0x40000000#32 31 = false := by decide
  have hdisarm : bitOf 0x40000000#32 30 = true := by decide
  simp [latchCtrlWrite, hfree, harm, hdisarm]

end

/-! ### Reads and folds -/

@[simp] theorem State.lu_setLu_same (s : State) (u : Nat) (x : LatchU) : (s.setLu u x).lu u = x := tblGet_put_same s.fdbk.unit u x {}

theorem RegsIn.reg64_eq {P : Nat → Prop} {s t : State} (h : RegsIn P s t) {a : Nat} (hlo : ¬ P a) (hhi : ¬ P (a + 4)) : t.reg64 a = s.reg64 a := by
  rw [State.reg64, State.reg64, h a hlo, h (a + 4) hhi]

theorem RegsIn.setReg64 {P : Nat → Prop} {s : State} {a : Nat} (x : Tick) (hlo : P a) (hhi : P (a + 4)) : RegsIn P s (s.setReg64 a x) :=
  (RegsIn.setReg _ hlo).trans (.setReg _ hhi)

/-- A fold over a pair whose parts do not look at one another is the pair of their folds. -/
theorem foldl_pair {α β γ : Type} (f : β → α → β) (g : γ → α → γ) (l : List α) (b : β) (c : γ) :
    l.foldl (fun p x => (f p.1 x, g p.2 x)) (b, c) = (l.foldl f b, l.foldl g c) := by
  induction l generalizing b c with
  | nil => rfl
  | cons x xs ih => exact ih (f b x) (g c x)

/-! ### The positions of a capture (R240) -/

/-- The position of source `i` of a unit at an instant: none where the unit names none, or the source has none there. -/
def capturePos (s : State) (u : Nat) (t : Tick) (i : Nat) : Option Tick :=
  match latchSrc s u i with
  | some src => if latchSrcLive s src then histAt s src t else none
  | none => none

/-- PVALID of the first `n` positions. -/
def captureMask (pos : Nat → Option Tick) (n : Nat) : Nat := (List.range n).foldl (fun k i => if (pos i).isSome then k + 2 ^ i else k) 0

/-- The first `n` positions in the RPOS registers of a unit; one that is missing reads 0. -/
def positionsShown (u : Nat) (pos : Nat → Option Tick) (s : State) (n : Nat) : State :=
  (List.range n).foldl (fun v i => v.setReg64 (R.latchRposLo u i) ((pos i).getD 0)) s

section

variable (u : Nat) (pos : Nat → Option Tick) (s : State)

theorem captureMask_succ (n : Nat) : captureMask pos (n + 1) = if (pos n).isSome then 2 ^ n + captureMask pos n else captureMask pos n := by
  simp [captureMask, List.range_succ, Nat.add_comm]

theorem captureMask_lt (n : Nat) : captureMask pos n < 2 ^ n := by
  induction n with
  | zero => exact Nat.one_pos
  | succ n ih =>
    rw [captureMask_succ, Nat.pow_succ]
    split <;> omega

/-- Bit `i` of PVALID says whether position `i` is there. -/
theorem captureMask_testBit {n i : Nat} (hi : i < n) : (captureMask pos n).testBit i = (pos i).isSome := by
  induction n with
  | zero => exact absurd hi (Nat.not_lt_zero i)
  | succ n ih =>
    have hlast : (captureMask pos n).testBit n = false := Nat.testBit_lt_two_pow (captureMask_lt pos n)
    rw [captureMask_succ]
    rcases Nat.lt_succ_iff_lt_or_eq.mp hi with hlt | rfl
    · split
      · rw [Nat.testBit_two_pow_add_gt hlt, ih hlt]
      · exact ih hlt
    · split
      case isTrue hsome => rw [Nat.testBit_two_pow_add_eq, hlast, hsome, Bool.not_false]
      case isFalse hnone => rw [hlast, Bool.eq_false_of_not_eq_true hnone]

theorem positionsShown_succ (n : Nat) :
    positionsShown u pos s (n + 1) = (positionsShown u pos s n).setReg64 (R.latchRposLo u n) ((pos n).getD 0) := by
  simp [positionsShown, List.range_succ]

/-- Positions show in the RPOS registers alone. -/
theorem positionsShown_regsIn (n : Nat) : RegsIn (R.latchRposLo u 0 ≤ ·) s (positionsShown u pos s n) :=
  RegsIn.foldl (fun _ i _ => .setReg64 _ (by simp only [R.latchRposLo]; omega) (by simp only [R.latchRposLo]; omega)) s

theorem positionsShown_reg64 {n i : Nat} (hi : i < n) : (positionsShown u pos s n).reg64 (R.latchRposLo u i) = (pos i).getD 0 := by
  induction n with
  | zero => exact absurd hi (Nat.not_lt_zero i)
  | succ n ih =>
    rw [positionsShown_succ]
    rcases Nat.lt_succ_iff_lt_or_eq.mp hi with hlt | rfl
    · have hlater : RegsIn (R.latchRposLo u n ≤ ·) (positionsShown u pos s n)
          ((positionsShown u pos s n).setReg64 (R.latchRposLo u n) ((pos n).getD 0)) := .setReg64 _ le_rfl (Nat.le_add_right _ 4)
      rw [hlater.reg64_eq (by simp only [R.latchRposLo]; omega) (by simp only [R.latchRposLo]; omega), ih hlt]
    · exact State.reg64_setReg64_same ..

theorem positionsShown_keeps {γ : Type} (k : State → γ) (hk : ∀ v a x, k (State.setReg v a x) = k v) (n : Nat) : k (positionsShown u pos s n) = k s :=
  foldl_keep _ k (fun _ _ => (hk _ _ _).trans (hk _ _ _)) _ _

end

/-! ### A capture completes (R240, R241) -/

/-- A unit without its oldest waiting capture, RDT at the capture's instant and RPOS at its positions. -/
def capturePlaced (s : State) (u : Nat) (t : Tick) (rest : List Tick) (pos : Nat → Option Tick) : State :=
  positionsShown u pos ((s.setLu u { s.lu u with waits := rest }).setReg64 (R.latchRdtLo u) t) 4

/-- The same with PVALID, COUNT and PEND. -/
def captureShown (s : State) (u : Nat) (t : Tick) (rest : List Tick) (pos : Nat → Option Tick) : State :=
  (((capturePlaced s u t rest pos).setFld (R.latchStat_PVALID u) (captureMask pos 4)).cntWrap (R.latchStat_COUNT u)).setFlag (R.latchStat_PEND u)
    (!rest.isEmpty)

/-- The event of a completed capture; in MODE 1 at most one in a millisecond. -/
def captureTold (mode : Nat) (v : State) (u : Nat) : State :=
  if mode = 1 then v.raiseLim 144 u (wd (v.fld (R.latchStat_COUNT u))) msTicks else v.raise 144 u (wd (v.fld (R.latchStat_COUNT u)))

theorem latchComplete_completes {s : State} {u : Nat} {t : Tick} {rest : List Tick} (hwaits : (s.lu u).waits = t :: rest)
    (hready : latchReady s u t = true) :
    latchComplete s u = captureTold (s.fld (R.latchCfg_MODE u)) (captureShown s u t rest (capturePos s u t)) u := by
  have hloop := foldl_pair (fun v i => State.setReg64 v (R.latchRposLo u i) ((capturePos s u t i).getD 0))
    (fun k i => if (capturePos s u t i).isSome then k + 2 ^ i else k) (List.range 4)
    ((s.setLu u { s.lu u with waits := rest }).setReg64 (R.latchRdtLo u) t) 0
  have hready' : ¬ (!latchReady s u t) = true := by simp [hready]
  unfold latchComplete
  rw [hwaits]
  refine (if_neg hready').trans ?_
  extract_lets x s1 r s2 c
  have hr : r = (capturePlaced s u t rest (capturePos s u t), captureMask (capturePos s u t) 4) := hloop
  have hs2 : s2 = captureShown s u t rest (capturePos s u t) := by simp only [s2, hr, captureShown]
  simp only [c, hs2, captureTold]

section

variable (s : State) (u : Nat) (t : Tick) (rest : List Tick) (pos : Nat → Option Tick)

theorem capturePlaced_regsIn : RegsIn (R.latchRdtLo u ≤ ·) s (capturePlaced s u t rest pos) := by
  have hinstant : RegsIn (R.latchRdtLo u ≤ ·) s ((s.setLu u { s.lu u with waits := rest }).setReg64 (R.latchRdtLo u) t) :=
    RegsIn.trans (.of_regs rfl) (.setReg64 _ le_rfl (Nat.le_add_right _ 4))
  exact hinstant.trans ((positionsShown_regsIn u pos _ 4).mono fun a ha => le_trans (by simp only [R.latchRdtLo, R.latchRposLo]; omega) ha)

/-- PVALID, COUNT and PEND stand in the unit's STAT. -/
theorem captureShown_regsIn : RegsIn (· = R.latchStat u) (capturePlaced s u t rest pos) (captureShown s u t rest pos) :=
  RegsIn.trans (RegsIn.trans (.setFld _ _ _ rfl) (.setFld _ _ _ rfl)) (.setFlag _ _ _ rfl)

theorem captureShown_rdt : (captureShown s u t rest pos).reg64 (R.latchRdtLo u) = t := by
  rw [(captureShown_regsIn s u t rest pos).reg64_eq (by simp only [R.latchRdtLo, R.latchStat]; omega)
    (by simp only [R.latchRdtLo, R.latchStat]; omega), capturePlaced,
    (positionsShown_regsIn u pos _ 4).reg64_eq (by simp only [R.latchRdtLo, R.latchRposLo]; omega)
    (by simp only [R.latchRdtLo, R.latchRposLo]; omega),
    State.reg64_setReg64_same]

theorem captureShown_rpos {i : Nat} (hi : i < 4) : (captureShown s u t rest pos).reg64 (R.latchRposLo u i) = (pos i).getD 0 := by
  rw [(captureShown_regsIn s u t rest pos).reg64_eq (by simp only [R.latchRposLo, R.latchStat]; omega)
    (by simp only [R.latchRposLo, R.latchStat]; omega), capturePlaced, positionsShown_reg64 _ _ _ hi]

theorem captureShown_pvalid {i : Nat} (hi : i < 4) :
    ((captureShown s u t rest pos).fld (R.latchStat_PVALID u)).testBit i = (pos i).isSome := by
  have hfld : (captureShown s u t rest pos).fld (R.latchStat_PVALID u) = captureMask pos 4 % 2 ^ 4 :=
    (State.fld_setFlag_apart _ (R.latchStat_PEND u) (R.latchStat_PVALID u) _ rfl (show 24 + 4 ≤ 32 by decide) (.inr (show 24 + 4 ≤ 29 by decide))).trans
      ((State.fld_setFld_apart _ (R.latchStat_COUNT u) (R.latchStat_PVALID u) _ rfl (show 24 + 4 ≤ 32 by decide) (.inl (show 0 + 16 ≤ 24 by decide))).trans
        (State.fld_setFld_same _ (R.latchStat_PVALID u) _ (show 24 + 4 ≤ 32 by decide)))
  rw [hfld, Nat.mod_eq_of_lt (captureMask_lt pos 4), captureMask_testBit pos hi]

theorem captureShown_count : (captureShown s u t rest pos).fld (R.latchStat_COUNT u) = (s.fld (R.latchStat_COUNT u) + 1) % 2 ^ 16 := by
  have hplaced : (capturePlaced s u t rest pos).fld (R.latchStat_COUNT u) = s.fld (R.latchStat_COUNT u) :=
    (capturePlaced_regsIn s u t rest pos).fld_eq (by simp [R.latchRdtLo, R.latchStat_COUNT, R.latchStat])
  have hvalid := State.fld_setFld_apart (capturePlaced s u t rest pos) (R.latchStat_PVALID u) (R.latchStat_COUNT u) (captureMask pos 4) rfl
    (show 0 + 16 ≤ 32 by decide) (.inr (show 0 + 16 ≤ 24 by decide))
  have hpend := State.fld_setFlag_apart (((capturePlaced s u t rest pos).setFld (R.latchStat_PVALID u) (captureMask pos 4)).cntWrap (R.latchStat_COUNT u))
    (R.latchStat_PEND u) (R.latchStat_COUNT u) (!rest.isEmpty) rfl (show 0 + 16 ≤ 32 by decide) (.inr (show 0 + 16 ≤ 29 by decide))
  rw [captureShown, hpend, State.fld_cntWrap_same _ (R.latchStat_COUNT u) (show 0 + 16 ≤ 32 by decide), hvalid, hplaced]
  rfl

theorem captureShown_pend : (captureShown s u t rest pos).flag (R.latchStat_PEND u) = !rest.isEmpty :=
  State.flag_setFlag_same _ (R.latchStat_PEND u) _ (show 29 + 1 ≤ 32 by decide) rfl

/-- What no register write changes, a completed capture leaves as it is without its waiting instant. -/
theorem captureShown_keeps {γ : Type} (k : State → γ) (hk : ∀ v a x, k (State.setReg v a x) = k v) :
    k (captureShown s u t rest pos) = k (s.setLu u { s.lu u with waits := rest }) := by
  have hplaced : k (capturePlaced s u t rest pos) = k (s.setLu u { s.lu u with waits := rest }) :=
    (positionsShown_keeps u pos _ k hk 4).trans ((hk _ _ _).trans (hk _ _ _))
  exact (hk _ _ _).trans ((hk _ _ _).trans ((hk _ _ _).trans hplaced))

theorem captureShown_waits : ((captureShown s u t rest pos).lu u).waits = rest := by
  rw [captureShown_keeps s u t rest pos (State.lu · u) fun _ _ _ => rfl, State.lu_setLu_same]

theorem captureShown_evt : (captureShown s u t rest pos).evt = s.evt := captureShown_keeps s u t rest pos State.evt fun _ _ _ => rfl

end

section

variable (mode : Nat) (v : State) (u : Nat)

theorem captureTold_regs : (captureTold mode v u).regs = v.regs := by
  unfold captureTold
  split
  · exact State.raiseLim_regs ..
  · exact State.raise_regs ..

theorem captureTold_fdbk : (captureTold mode v u).fdbk = v.fdbk := by
  unfold captureTold
  split
  · exact State.raiseLim_fdbk ..
  · exact State.raise_fdbk ..

theorem captureTold_fld (f : RF) : (captureTold mode v u).fld f = v.fld f :=
  (RegsIn.of_regs (P := fun _ => False) (captureTold_regs mode v u)).fld_eq id

theorem captureTold_flag (f : RF) : (captureTold mode v u).flag f = v.flag f :=
  (RegsIn.of_regs (P := fun _ => False) (captureTold_regs mode v u)).flag_eq id

theorem captureTold_reg64 (a : Nat) : (captureTold mode v u).reg64 a = v.reg64 a :=
  (RegsIn.of_regs (P := fun _ => False) (captureTold_regs mode v u)).reg64_eq id id

theorem captureTold_lu (m : Nat) : (captureTold mode v u).lu m = v.lu m :=
  congrArg (fun x : FdbkS => tblGet x.unit m {}) (captureTold_fdbk mode v u)

theorem captureTold_occ (hmode : mode ≠ 1) :
    (captureTold mode v u).evt.occ = v.evt.occ ++ [{ ev := 144, inst := u, detail := wd (v.fld (R.latchStat_COUNT u)) }] := by
  rw [captureTold, if_neg hmode]
  rfl

end

/-! ### The statement -/

/-- Settles O25: an edge reaches the one unit on its pin, the guards of compare, window and `LATCH.CTRL` pass, and a completed capture reads back what
it was given. -/
theorem latchUnits_holds : Obligations.Latch_Units := by
  unfold Obligations.Latch_Units
  refine ⟨?edge, ?short, ?compare, ?windowEnd, ?complete, ?arm, ?disarm⟩
  case edge =>
    intro s v pin u rising ts t w hv hu hfilt hen ht
    have hexec : exec (.latchEdge pin rising ⟨ts, w⟩) s = .next (latchInstant v u (latchSel v u rising) t) := by
      rw [ht]
      exact congrArg Host.Outcome.next (hv ▸ latchPin_single hu hfilt)
    refine ⟨fun hsel harmed hwindow hquiet => ?_, fun c x hlast hafter hsoon hx => ?_⟩
    · rw [hexec, latchInstant_captures hen hsel harmed hwindow hquiet]
    · rw [hexec, latchInstant_chatters hen hlast hafter hsoon hx]
  case short => exact fun s pin rising ts w hshort => congrArg Host.Outcome.next (latchPin_short hshort)
  case compare => exact fun s u hen harmed hkind hahead => congrArg Host.Outcome.next (latchTime_captures hen harmed hkind hahead)
  case windowEnd => exact fun s u harmed hmode hclosed => congrArg Host.Outcome.next (latchEnd_disarms harmed hmode hclosed)
  case complete =>
    intro s u t rest pos hwaits hready hpos
    obtain rfl : pos = capturePos s u.val t := hpos
    refine ⟨_, congrArg Host.Outcome.next (latchComplete_completes hwaits hready), ?_⟩
    simp only [captureTold_reg64, captureTold_lu, captureTold_flag, captureTold_fld]
    exact ⟨captureShown_rdt .., captureShown_waits .., captureShown_pend .., fun i hi => ⟨captureShown_rpos _ _ _ _ _ hi, captureShown_pvalid _ _ _ _ _ hi⟩,
      captureShown_count .., fun hmode => by rw [captureTold_occ _ _ _ hmode, captureShown_evt]⟩
  case arm =>
    exact fun s u hready hfree hen => congrArg Host.Outcome.next ((regRowWrite_ready _ hready).trans (congrArg Res.st (latchCtrlWrite_arms hfree hen)))
  case disarm =>
    exact fun s u hready hfree => congrArg Host.Outcome.next ((regRowWrite_ready _ hready).trans (congrArg Res.st (latchCtrlWrite_disarms hfree)))

end Sys2Proof.Machine
end

section
/-! PROOF. What the motion commands share: checks that pass, and the rows of the command table (10_axes_profiles.md R259). -/

namespace Sys2Proof.Machine

open Sys2Proof

/-- A check that passes leaves an execution to go on. -/
theorem orRefuse_of_none {c : Option Nat} (s : State) (x : Res) (h : c = none) : orRefuse s c x = x := by
  subst h
  rfl

/-- Several checks pass together where each of them does. -/
theorem firstSome_eq_none {l : List (Option Nat)} : firstSome l = none ↔ ∀ c ∈ l, c = none := by
  simp [firstSome]

/-! ### Rows of the command table (R259) -/

section

variable {e : AxEff} (gone qs : Bool)

theorem axisJudge_move_standstill (h : e.st = 1) : (axisJudge e 0x30 gone qs).1 = stOK := by
  simp [axisJudge, h]

theorem axisJudge_moveNext_ok (h : e.st ∈ [2, 6, 7, 8] ∨ (e.st = 5 ∧ e.ab = false) ∨ e.st = 1) : (axisJudge e 0x31 gone qs).1 = stOK := by
  rcases h with hst | ⟨hst, hab⟩ | hst
  · simp only [List.mem_cons, List.not_mem_nil, or_false] at hst
    rcases hst with hst | hst | hst | hst <;> simp [axisJudge, hst]
  · simp [axisJudge, hst, hab]
  · simp [axisJudge, hst]

theorem axisJudge_jog_ok (h : e.st = 1 ∨ e.st = 3) : (axisJudge e 0x32 gone qs).1 = stOK := by
  rcases h with hst | hst <;> simp [axisJudge, hst]

theorem axisJudge_halt_stops (h : e.st ∈ [2, 3, 4, 10]) : (axisJudge e 0x33 gone qs).1 = stOK ∧ e.st ≠ (axisJudge e 0x33 gone qs).2.st := by
  simp only [List.mem_cons, List.not_mem_nil, or_false] at h
  rcases h with hst | hst | hst | hst <;> simp [axisJudge, hst]

theorem axisJudge_halt_idle (h : e.st ∈ [1, 5, 6, 7, 8]) : axisJudge e 0x33 gone qs = (stOK, e) := by
  simp only [List.mem_cons, List.not_mem_nil, or_false] at h
  rcases h with hst | hst | hst | hst | hst <;> simp [axisJudge, hst]

theorem axisJudge_quickStop_stops (h : e.st ∈ [2, 3, 4, 5, 10]) :
    (axisJudge e 0x34 gone qs).1 = stOK ∧ e.st ≠ (axisJudge e 0x34 gone qs).2.st := by
  simp only [List.mem_cons, List.not_mem_nil, or_false] at h
  rcases h with hst | hst | hst | hst | hst <;> simp [axisJudge, hst]

theorem axisJudge_quickStop_idle (h : e.st ∈ [1, 6, 7, 8]) : axisJudge e 0x34 gone qs = (stOK, e) := by
  simp only [List.mem_cons, List.not_mem_nil, or_false] at h
  rcases h with hst | hst | hst | hst <;> simp [axisJudge, hst]

theorem axisJudge_resume_idle (h : e.st ∈ [1, 2, 3]) : axisJudge e 0x35 gone qs = (stOK, e) := by
  simp only [List.mem_cons, List.not_mem_nil, or_false] at h
  rcases h with hst | hst | hst <;> simp [axisJudge, hst]

/-- What RESUME goes on in is MOVING, JOGGING or STANDSTILL. -/
theorem AxEff.resumed_le (e : AxEff) : e.resumed ≤ 3 := by
  unfold AxEff.resumed
  split_ifs <;> decide

theorem axisJudge_resume_goes (h : e.st = 6 ∨ (e.st = 5 ∧ e.ab = false) ∨ (e.st = 9 ∧ gone = true)) :
    (axisJudge e 0x35 gone qs).1 = stOK ∧ e.st ≠ (axisJudge e 0x35 gone qs).2.st := by
  have hle := e.resumed_le
  rcases h with hst | ⟨hst, hab⟩ | ⟨hst, hgone⟩
  · simp [axisJudge, hst]
    omega
  · simp [axisJudge, hst, hab]
    omega
  · simp [axisJudge, hst, hgone]
    omega

theorem axisJudge_setLimits_ok (h : (e.st ≠ 7 ∧ e.st ≠ 8) ∨ qs = false) : (axisJudge e 0x36 gone qs).1 = stOK := by
  rcases h with ⟨h7, h8⟩ | hqs
  · simp [axisJudge, h7, h8]
  · simp [axisJudge, hqs]

theorem axisJudge_home_standstill (h : e.st = 1) : (axisJudge e 0x37 gone qs).1 = stOK := by
  simp [axisJudge, h]

theorem axisJudge_setPosition_ok (h : e.st = 0 ∨ e.st = 1) : (axisJudge e 0x38 gone qs).1 = stOK := by
  rcases h with hst | hst <;> simp [axisJudge, hst]

/-- ABORT_MOVE is accepted in every state (R262). -/
theorem axisJudge_abortMove_ok : (axisJudge e 0x39 gone qs).1 = stOK := by
  simp only [axisJudge]
  split <;> rfl

theorem axisJudge_abortMove_standstill (h : e.st = 1) : (axisJudge e 0x39 gone qs).2.st = 1 := by
  simp [axisJudge, h]

end

/-! ### What the table makes of a command -/

section

variable {s : State} {slot op : Nat} {qs : Bool} (ws : List Word)

/-- A command that its row accepts waits for the axis's boundary, where it is none of those that an unchanged state makes idle. -/
theorem axisTable_accepts (hok : (axisJudge (axisEff s slot) op (faultGone s slot) qs).1 = stOK)
    (hidle : ¬ ((axisEff s slot).st = (axisJudge (axisEff s slot) op (faultGone s slot) qs).2.st ∧
      ((op = 0x33 ∨ op = 0x34 ∨ op = 0x35) ∨ (op = 0x39 ∧ (axisEff s slot).st = 1)))) :
    axisTable s slot op ws qs = axisAccept s slot op ws := by
  simp only [axisTable, if_neg (not_not.mpr hok), if_neg hidle]

/-- A command that stops or resumes the axis and leaves its state has no effect. -/
theorem axisTable_idle (hok : (axisJudge (axisEff s slot) op (faultGone s slot) qs).1 = stOK)
    (hstays : (axisEff s slot).st = (axisJudge (axisEff s slot) op (faultGone s slot) qs).2.st)
    (hop : (op = 0x33 ∨ op = 0x34 ∨ op = 0x35) ∨ (op = 0x39 ∧ (axisEff s slot).st = 1)) :
    axisTable s slot op ws qs = { st := s } := by
  simp only [axisTable, if_neg (not_not.mpr hok), if_pos (And.intro hstays hop)]

/-- A row that changes the state waits for the axis's boundary. -/
theorem axisTable_changes (h : (axisJudge (axisEff s slot) op (faultGone s slot) qs).1 = stOK ∧
      (axisEff s slot).st ≠ (axisJudge (axisEff s slot) op (faultGone s slot) qs).2.st) :
    axisTable s slot op ws qs = axisAccept s slot op ws :=
  axisTable_accepts ws h.1 fun hidle => h.2 hidle.1

/-- HALT, QUICK_STOP and RESUME have no effect where their row leaves the axis as it is. -/
theorem axisTable_stays (h : axisJudge (axisEff s slot) op (faultGone s slot) qs = (stOK, axisEff s slot))
    (hop : op = 0x33 ∨ op = 0x34 ∨ op = 0x35) : axisTable s slot op ws qs = { st := s } :=
  axisTable_idle ws (by rw [h]) (by rw [h]) (.inl hop)

end

end Sys2Proof.Machine
end

section
/-! PROOF. O29, motion commands that start motion: each passes its checks, and its row of the table accepts it. -/

namespace Sys2Proof.Machine

open Sys2Proof

/-! ### MOVE and MOVE_NEXT (R258, R260) -/

/-- The move of a MOVE_NEXT goes behind another: the axis has left STANDSTILL or its queue is not empty. -/
def moveQueued (s : State) (slot op : Nat) : Bool := op == 0x31 && ((axisEff s slot).st != 1 || !(s.ctx slot).queue.isEmpty)

/-- A move that passes its checks joins the queue, if there is room, or waits for the axis's boundary. -/
theorem opMove_passes {s : State} {r : Request} {op : Nat} {x : Tick} (hslot : slotCheck s r.target [7, 8] = none)
    (hkind : (s.ctx r.target).kind = 8) (hmode : axisMode s r.target = 0) (hlim : ∀ i, i < 4 → limCheck s r.target (3 + i) (r.p (3 + i)) = none)
    (hrow : (axisJudge (axisEff s r.target) op false false).1 = stOK)
    (hx : x = if moveQueued s r.target op then lastTarget s r.target else (s.axis r.target).x)
    (hsw : swRefuses (swLimits (s.cp r.target)) x (moveOf r.params x).tgt = false) (hhard : towardLimit s r.target x (moveOf r.params x).tgt = false) :
    opMove op r s = if moveQueued s r.target op then
        (if 4 ≤ (s.ctx r.target).queue.length then refuse s stBUSY_TARGET
         else { st := setQueue s r.target ((s.ctx r.target).queue ++ [moveOf r.params x]) })
      else axisAccept s r.target op r.params := by
  have hlims : firstSome [limCheck s r.target 3 (r.p 3), limCheck s r.target 4 (r.p 4), limCheck s r.target 5 (r.p 5),
      limCheck s r.target 6 (r.p 6)] = none := firstSome_eq_none.mpr (by simp [hlim 0, hlim 1, hlim 2, hlim 3])
  unfold opMove
  extract_lets k y e queued base m j
  have hbase : base = x := hx.symm
  rw [orRefuse_of_none _ _ hslot, if_neg (by simp [k, hkind, hmode]), orRefuse_of_none _ _ hlims,
    if_neg (by simpa [m, hbase] using hsw), if_neg (not_not.mpr hrow), if_neg (by simpa [m, hbase] using hhard)]
  simp only [m, hbase]
  rfl

/-! ### JOG and HOME (R256, R258, R265) -/

/-- A JOG within VMAX that no active hard limit stands against waits for the axis's boundary. -/
theorem opJog_accepts {s : State} {r : Request} {w : Word} (hp : r.params = [w]) (hslot : slotCheck s r.target [7, 8] = none)
    (hkind : (s.ctx r.target).kind = 8) (hw : badF32 w = false) (hmax : absR (ratOf w) ≤ ratOf (s.cw r.target 3))
    (hpos : ¬ (0 < ratOf w ∧ hardLimit s r.target true = true)) (hneg : ¬ (ratOf w < 0 ∧ hardLimit s r.target false = true))
    (hst : (axisEff s r.target).st = 1 ∨ (axisEff s r.target).st = 3) : opJog r s = axisAccept s r.target 0x32 [w] := by
  have hp0 : r.p 0 = w := congrArg (nth · 0 0#32) hp
  simp only [opJog, hp0, hp]
  rw [orRefuse_of_none _ _ hslot, if_neg (by simp [hkind, hw]), if_neg (not_lt.mpr hmax), if_neg (not_or.mpr ⟨hpos, hneg⟩),
    axisTable_accepts _ (axisJudge_jog_ok _ _ hst) (by simp)]

/-- A HOME that passes its checks waits for the axis's boundary with the instant of its acceptance; a method that takes its reference from a latch
unit owns it from here on. -/
theorem opHome_accepts {s : State} {r : Request} {m : Nat} {ofs : Tick} (hslot : slotCheck s r.target [7, 8] = none)
    (hkind : (s.ctx r.target).kind = 8) (hm : m = bitsOf (r.p 0) 0 4) (hm12 : m < 12) (hmode : axisMode s r.target = 0 ∨ m = 0)
    (hvs : limCheck s r.target 3 (r.p 3) = none) (hvc : limCheck s r.target 3 (r.p 4) = none) (hst : (axisEff s r.target).st = 1)
    (hofs : ofs = join64 (r.p 1) (r.p 2)) (hsw : swRefuses (swLimits (s.cp r.target)) ofs ofs = false) (hlacks : homeLacks s r.target m = false)
    (hfree : homeLatch m = true → s.flag (R.latchStat_OWNED (bLatch (curBind s r.target))) = false) :
    opHome r s = axisAccept (if homeLatch m then s.setFlag (R.latchStat_OWNED (bLatch (curBind s r.target))) true else s) r.target 0x37
      (r.params ++ [lo32 s.dt, hi32 s.dt]) := by
  have hform : ¬ ((s.ctx r.target).kind = 7 ∨ 12 ≤ m ∨ (axisMode s r.target ≠ 0 ∧ m ≠ 0)) := by
    rintro (h7 | h12 | ⟨hmode0, hm0⟩)
    · omega
    · omega
    · exact hmode.elim hmode0 hm0
  have hspeeds : firstSome [limCheck s r.target 3 (r.p 3), limCheck s r.target 3 (r.p 4)] = none :=
    firstSome_eq_none.mpr (by simp [hvs, hvc])
  subst hm hofs
  unfold opHome
  extract_lets k n pos u j t
  rw [orRefuse_of_none _ _ hslot, if_neg hform, orRefuse_of_none _ _ hspeeds, if_neg (by simpa using hsw),
    if_neg (not_not.mpr (axisJudge_home_standstill _ _ hst)), if_neg (by simpa using hlacks),
    if_neg fun howned => absurd (hfree howned.1) (by simpa using howned.2)]

/-- Settles O29, command by command. -/
theorem axisMotionStarts : Obligations.Axis_Motion_Starts := by
  refine ⟨?start, ?join, ?jog, ?home⟩
  case start =>
    rintro s r x m hs hlen hslot hkind hmode hlim hst rfl rfl hsw hhard
    refine ⟨?_, fun hempty => ?_⟩
    · have hnew : moveQueued s r.target 0x30 = false := rfl
      rw [exec_of_served (c := .move r) rfl hs (by simp [hlen]),
        opMove_passes hslot hkind hmode hlim (axisJudge_move_standstill _ _ hst) (by simp [hnew]) hsw hhard, hnew, if_neg Bool.false_ne_true]
    · have hnew : moveQueued s r.target 0x31 = false := by simp [moveQueued, hst, hempty]
      rw [exec_of_served (c := .moveNext r) rfl hs (by simp [hlen]),
        opMove_passes hslot hkind hmode hlim (axisJudge_moveNext_ok _ _ (.inr (.inr hst))) (by simp [hnew]) hsw hhard, hnew,
        if_neg Bool.false_ne_true]
  case join =>
    rintro s r x m hs hlen hslot hkind hmode hlim hst rfl rfl hsw hhard hroom
    have hqueued : moveQueued s r.target 0x31 = true := by
      rcases hst with hst | ⟨hst, -⟩ | ⟨-, hqueue⟩
      · have hne : (axisEff s r.target).st ≠ 1 := fun h => by simp [h] at hst
        simp [moveQueued, hne]
      · simp [moveQueued, hst]
      · simp [moveQueued, hqueue]
    rw [exec_of_served (c := .moveNext r) rfl hs (by simp [hlen]),
      opMove_passes hslot hkind hmode hlim (axisJudge_moveNext_ok _ _ (hst.imp_right (Or.imp_right And.left))) (by simp [hqueued]) hsw hhard,
      if_pos hqueued, if_neg (Nat.not_le.mpr hroom)]
  case jog =>
    intro s r w hs hp hslot hkind hw hmax hpos hneg hst
    rw [exec_of_served (c := .jog r) rfl hs (by simp [hp]), opJog_accepts hp hslot hkind hw hmax hpos hneg hst]
  case home =>
    intro s r m ofs hs hlen hslot hkind hm hm12 hmode hvs hvc hst hofs hsw hlacks
    rw [exec_of_served (c := .home r) rfl hs (by simp [hlen])]
    refine ⟨fun hlatch => ?_, ?_⟩
    · rw [opHome_accepts hslot hkind hm hm12 hmode hvs hvc hst hofs hsw hlacks (by simp [hlatch]), hlatch, if_neg Bool.false_ne_true]
    · rintro u hlatch rfl hfree
      rw [opHome_accepts hslot hkind hm hm12 hmode hvs hvc hst hofs hsw hlacks fun _ => hfree, if_pos hlatch]

end Sys2Proof.Machine
end

section
/-! PROOF. O30, motion commands that end or change motion: HALT, QUICK_STOP, ABORT_MOVE, RESUME and SET_POSITION by their rows of the table,
SET_LIMITS by its words. -/

namespace Sys2Proof.Machine

open Sys2Proof

/-! ### HALT, QUICK_STOP, ABORT_MOVE and RESUME (R262) -/

/-- HALT, QUICK_STOP and ABORT_MOVE of an axis are what the table makes of them. -/
theorem exec_stop_served {c : Instr} {s : State} {r : Request} {op : Nat} (hexec : exec c s = .next (serveReed r s r.params.isEmpty (opStop op r)))
    (hs : s.served) (hp : r.params = []) (hslot : slotCheck s r.target [7, 8] = none) :
    exec c s = .next (respond r (axisTable s r.target op [] false)) := by
  rw [exec_of_served hexec hs (by simp [hp]), opStop, orRefuse_of_none _ _ hslot]

/-- RESUME is what the table makes of it, where the motion it goes on with meets no active hard limit or the state does not change. -/
theorem opResume_table {s : State} {r : Request} (hslot : slotCheck s r.target [7, 8] = none)
    (h : (axisJudge (axisEff s r.target) 0x35 (faultGone s r.target) false).2.st = (axisEff s r.target).st ∨
      ((∀ m ∈ (s.axis r.target).tgt, towardLimit s r.target (s.axis r.target).x m.tgt = false) ∧
       ((s.axis r.target).tgt = none → (s.axis r.target).jog.any (fun w =>
        (decide (0 < ratOf w) && hardLimit s r.target true) || (decide (ratOf w < 0) && hardLimit s r.target false)) = false))) :
    opResume r s = axisTable s r.target 0x35 [] false := by
  unfold opResume
  extract_lets k x blocked e j
  rw [orRefuse_of_none _ _ hslot, if_neg]
  rintro ⟨-, hchanges, hblocked⟩
  rcases h with hstays | ⟨htgt, hjog⟩
  · exact hchanges hstays
  · have hopen : blocked = false := by
      simp only [blocked]
      split
      · rename_i m hm
        exact htgt m hm
      · rename_i w hm hw
        rw [hw] at hjog
        exact hjog hm
      · rfl
    exact absurd hblocked (by simp [hopen])

/-! ### SET_LIMITS (R261) -/

/-- A word that SET_LIMITS writes: a limit of motion flushed (R10), a software limit as it is. -/
def limitWritten (p : Nat × Word) : Nat × Word := (p.1, if 27 ≤ p.1 then p.2 else f32Flush p.2)

/-- SET_LIMITS with words in their ranges writes them, and they wait for the axis's boundary to be in force. -/
theorem opSetLimits_accepts {s u : State} {r : Request} {mask : Word} {vals : List Word} {ws : List (Nat × Word)} (hp : r.params = mask :: vals)
    (hslot : slotCheck s r.target [7, 8] = none) (hmask : mask.toNat < 128) (hlen : vals.length = (limitWords mask.toNat).length)
    (hvals : ∀ p ∈ (limitWords mask.toNat).zip vals, p.1 < 27 → badF32 p.2 = false ∧ 0 ≤ ratOf p.2 ∧ (p.1 = 8 ∨ ratOf p.2 ≠ 0))
    (hws : ws = ((limitWords mask.toNat).zip vals).map limitWritten) (hu : u = ws.foldl (fun t p => t.setCw r.target p.1 p.2) s)
    (hdec : ratOf (u.cw r.target 5) ≤ ratOf (u.cw r.target 7))
    (hst : ((axisEff s r.target).st ≠ 7 ∧ (axisEff s r.target).st ≠ 8) ∨ mask.toNat.testBit 4 = false ∧ mask.toNat.testBit 5 = false) :
    opSetLimits r s = axisAccept u r.target 0x36 (ws.flatMap (fun p => [wd p.1, p.2])) := by
  have hp0 : r.p 0 = mask := congrArg (nth · 0 0#32) hp
  unfold opSetLimits
  rw [hp0, hp]
  extract_lets k bits names pairs bad flush written qs j
  have hflush : flush = limitWritten := by
    funext p
    simp only [flush, limitWritten]
    split <;> rfl
  have hwritten : written = u := by
    simp only [written, hflush, hu, hws, List.foldl_map]
    rfl
  have hbad : firstSome bad = none := by
    refine firstSome_eq_none.mpr fun c hc => ?_
    obtain ⟨p, hpair, rfl⟩ := List.mem_map.mp hc
    by_cases h27 : 27 ≤ p.1
    · exact if_pos h27
    · obtain ⟨hf32, hnonneg, hzero⟩ := hvals p hpair (not_le.mp h27)
      rw [if_neg h27, if_neg (by simp [hf32]), if_neg (not_lt.mpr hnonneg), if_neg fun hboth => hzero.elim hboth.2 fun hne => hne hboth.1]
  have hform : ¬ (128 ≤ bits ∨ (mask :: vals).length ≠ 1 + names.length) := by
    rw [List.length_cons, hlen]
    rintro (h128 | hcount)
    · exact absurd hmask (not_lt.mpr h128)
    · exact hcount (Nat.add_comm ..)
  have hrow : j.1 = stOK := axisJudge_setLimits_ok _ _ (hst.imp_right fun ⟨h4, h5⟩ => by simp [qs, bits, h4, h5])
  rw [orRefuse_of_none _ _ hslot, if_neg hform, orRefuse_of_none _ _ hbad, hwritten, if_neg (not_lt.mpr hdec), if_neg (not_not.mpr hrow),
    hflush, hws, List.flatMap_map]
  rfl

/-! ### The homing timeout (R267) -/

/-- A homing timeout before step 6 waits for the axis's next boundary. DESIGN CHOICE (log entry 51). -/
theorem homeTimeout_waits {s : State} {slot : Nat} {h : HomeS} {t : Tick} (hhome : (s.axis slot).home = some h) (htmo : h.tmo = some t)
    (hst : axisState s slot = 10) (hstep : (s.axis slot).step < 6) :
    homeTimeout s slot = addPend ((s.at t).setSt slot (.axis { s.axis slot with home := some { h with tmo := none } })) (s.ctx slot).grp
      (duePass s (s.ctx slot).grp (s.ctx slot).effDiv (s.ctx slot).phase) false (.ctxCmd slot 0x137 []) := by
  simp only [homeTimeout, hhome, htmo, if_pos (And.intro hst hstep)]

/-- Settles O30, command by command. -/
theorem axisStopsAndSettings : Obligations.Axis_Stops_And_Settings := by
  refine ⟨?stop, ?resume, ?limits, ?position, ?timeout, ?pass⟩
  case stop =>
    intro s r hs hp hslot
    have hhalt : exec (.halt r) s = _ := exec_stop_served rfl hs hp hslot
    have hquick : exec (.quickStop r) s = _ := exec_stop_served rfl hs hp hslot
    have habort : exec (.abortMove r) s = _ := exec_stop_served rfl hs hp hslot
    rw [hhalt, hquick, habort]
    refine ⟨fun hst => ?_, fun hst => ?_, fun hst => ?_, fun hst => ?_, fun hst => ?_, fun hst => ?_⟩
    · rw [axisTable_changes _ (axisJudge_halt_stops _ _ hst)]
    · rw [axisTable_stays _ (axisJudge_halt_idle _ _ hst) (by decide)]
    · rw [axisTable_changes _ (axisJudge_quickStop_stops _ _ hst)]
    · rw [axisTable_stays _ (axisJudge_quickStop_idle _ _ hst) (by decide)]
    · rw [axisTable_accepts _ (axisJudge_abortMove_ok _ _) (by simp [hst])]
    · rw [axisTable_idle _ (axisJudge_abortMove_ok _ _) (hst.trans (axisJudge_abortMove_standstill _ _ hst).symm) (.inr ⟨rfl, hst⟩)]
  case resume =>
    intro s r hs hp hslot
    rw [exec_of_served (c := .resume r) rfl hs (by simp [hp])]
    refine ⟨fun hst => ?_, fun hst htgt hjog => ?_⟩
    · have hrow := axisJudge_resume_idle (faultGone s r.target) false hst
      rw [opResume_table hslot (.inl (by rw [hrow])), axisTable_stays _ hrow (by decide)]
    · rw [opResume_table hslot (.inr ⟨htgt, hjog⟩), axisTable_changes _ (axisJudge_resume_goes _ _ hst)]
  case limits =>
    intro s u r mask vals ws hs hp hslot hmask hlen hvals hws hu hdec hst
    rw [exec_of_served (c := .setLimits r) rfl hs (by simp [hp]), opSetLimits_accepts hp hslot hmask hlen hvals hws hu hdec hst]
  case position =>
    intro s r lo hi hs hp hslot hst
    rw [exec_of_served (c := .setPosition r) rfl hs (by simp [hp]), opSetPosition, orRefuse_of_none _ _ hslot,
      axisTable_accepts _ (axisJudge_setPosition_ok _ _ hst) (by simp), hp]
  case timeout => exact fun s slot h t hhome htmo hst hstep => congrArg Host.Outcome.next (homeTimeout_waits hhome htmo hst hstep)
  case pass =>
    exact fun s slot a b r hruns hslot hout hothers hkind =>
      congrArg Host.Outcome.next (passRow_computes axisPass hruns hslot hout hothers (by simpa using hkind))

end Sys2Proof.Machine
end

section
/-! PROOF. Fields of registers after a write, for fields whose place is a number: that the field fits its word, and that two fields of one register
lie apart, is found by evaluation, so that a chain of writes reads as a chain of these lemmas. -/

namespace Sys2Proof.Machine

open Sys2Proof

/-- A field ends within its word. -/
def RF.fits (f : RF) : Bool := (f.lo + f.w).ble 32

/-- Two fields of a register have no bit in common. -/
def RF.apart (f g : RF) : Bool := (f.lo + f.w).ble g.lo || (g.lo + g.w).ble f.lo

section

variable (s : State) (f g : RF)

theorem RF.le_of_fits {f : RF} (h : f.fits = true) : f.lo + f.w ≤ 32 := Nat.le_of_ble_eq_true h

theorem RF.le_of_apart {f g : RF} (h : f.apart g = true) : f.lo + f.w ≤ g.lo ∨ g.lo + g.w ≤ f.lo :=
  (Bool.or_eq_true_iff.mp h).imp Nat.le_of_ble_eq_true Nat.le_of_ble_eq_true

/-- A field reads as it was written. -/
theorem State.fld_put (v : Nat) (h : f.fits = true) : (s.setFld f v).fld f = v % 2 ^ f.w :=
  State.fld_setFld_same s f v (RF.le_of_fits h)

/-- A field reads as it was written, where the number fits it. -/
theorem State.fld_put_lt {v : Nat} (hv : v < 2 ^ f.w) (h : f.fits = true) : (s.setFld f v).fld f = v :=
  (State.fld_put s f v h).trans (Nat.mod_eq_of_lt hv)

theorem State.fld_put_of_lt {v w : Nat} (hw : f.w = w) (hv : v < 2 ^ w) (h : f.fits = true) : (s.setFld f v).fld f = v :=
  State.fld_put_lt s f (hw ▸ hv) h

theorem State.flag_put (b : Bool) (h : f.fits = true) (hw : f.w = 1) : (s.setFlag f b).flag f = b :=
  State.flag_setFlag_same s f b (RF.le_of_fits h) hw

/-- Another field of the register that was written. -/
theorem State.fld_beside (v : Nat) (ha : f.addr = g.addr) (hg : g.fits = true) (h : f.apart g = true) :
    (s.setFld f v).fld g = s.fld g :=
  State.fld_setFld_apart s f g v ha (RF.le_of_fits hg) (RF.le_of_apart h)

theorem State.flag_beside (v : Nat) (ha : f.addr = g.addr) (hg : g.fits = true) (h : f.apart g = true) :
    (s.setFld f v).flag g = s.flag g :=
  congrArg (· == 1) (State.fld_beside s f g v ha hg h)

/-- A field of another register, where the two addresses are numbers. -/
theorem State.fld_elsewhere (v : Nat) (h : f.addr.beq g.addr = false) : (s.setFld f v).fld g = s.fld g :=
  State.fld_setFld_ne s f g v (Nat.ne_of_beq_eq_false h)

theorem State.flag_elsewhere (v : Nat) (h : f.addr.beq g.addr = false) : (s.setFld f v).flag g = s.flag g :=
  congrArg (· == 1) (State.fld_elsewhere s f g v h)

/-- A field of a register that was written as a whole. -/
theorem State.fld_setReg_same (x : Word) : (s.setReg f.addr x).fld f = bitsOf x f.lo f.w :=
  congrArg (bitsOf · f.lo f.w) (State.reg_setReg_same s f.addr x)

theorem State.fld_setReg_ne {a : Nat} (x : Word) (h : a ≠ f.addr) : (s.setReg a x).fld f = s.fld f :=
  congrArg (bitsOf · f.lo f.w) (State.reg_setReg_ne s a f.addr x h)

/-- A field is a function of the registers. -/
theorem State.fld_of_regs {s t : State} (h : t.regs = s.regs) (f : RF) : t.fld f = s.fld f :=
  congrArg (fun l => bitsOf (tblGet l f.addr (resetWord f.addr)) f.lo f.w) h

theorem State.flag_of_regs {s t : State} (h : t.regs = s.regs) (f : RF) : t.flag f = s.flag f :=
  congrArg (· == 1) (State.fld_of_regs h f)

end

/-- What an event raised adds to the occurrences. -/
theorem State.raise_occ (s : State) (e i : Nat) (d : Word) : (s.raise e i d).evt.occ = s.evt.occ ++ [{ ev := e, inst := i, detail := d }] := rfl

/-! ### Writes in a row -/

section

variable {α γ : Type} {f : State → α → State} {g : State → γ}

/-- What every step over a list leaves stays. -/
theorem foldl_keep_of_mem {l : List α} (h : ∀ t, ∀ x ∈ l, g (f t x) = g t) (s : State) : g (l.foldl f s) = g s :=
  List.foldlRecOn (motive := fun t => g t = g s) l f rfl fun t ht x hx => (h t x hx).trans ht

/-- What one step over a list puts and the others leave reads as it was put. -/
theorem foldl_puts {v : γ} {x : α} (hput : ∀ t, g (f t x) = v) (hleave : ∀ t y, y ≠ x → g (f t y) = g t) (l : List α) (s : State)
    (h : x ∈ l ∨ g s = v) : g (l.foldl f s) = v := by
  induction l generalizing s with
  | nil => exact h.resolve_left List.not_mem_nil
  | cons y l ih =>
    refine ih _ ?_
    by_cases hy : y = x
    · exact .inr (hy ▸ hput s)
    · exact h.imp (fun hmem => (List.mem_cons.mp hmem).resolve_left (Ne.symm hy)) fun hv => (hleave s y hy).trans hv

end

end Sys2Proof.Machine
end

section
/-! PROOF. O48, Husk's general output: what an operation leaves alone keeps the rule, what takes torque away ends with the output low, and the one
operation that raises the output does it in PERMIT of a powered Husk (R331, R343). -/

namespace Sys2Proof.Machine

open Sys2Proof

/-! ### What keeps the rule of the general output -/

/-- Whatever state an outcome goes on with keeps the rule of the general output. -/
def GenHeldAfter (o : Host.Outcome State Fault Refusal) : Prop := ∀ t, o = .next t → t.genHeld

/-- With the output low the rule asks for nothing. -/
theorem genHeld_of_low {t : State} (h : t.safe.husk.gen = false) : t.genHeld :=
  fun hgen => absurd (h ▸ hgen) Bool.false_ne_true

theorem genHeld_ite {c : Prop} [Decidable c] {t u : State} (ht : t.genHeld) (hu : u.genHeld) : (if c then t else u).genHeld := by
  split
  · exact ht
  · exact hu

/-- A command that goes on with a state that keeps the rule. -/
theorem genHeldAfter_next {u : State} (hu : u.genHeld) : GenHeldAfter (.next u) := by
  rintro t ⟨⟩
  exact hu

section

variable {s : State} (hs : s.genHeld)

include hs

/-- A command that leaves Husk's power, state and output alone. -/
theorem genHeld_next {u : State} (h : u.queueHusk = s.queueHusk) : GenHeldAfter (.next u) := genHeldAfter_next (genHeld_of_keeps h hs)

/-- A change of Husk's beside its power, state and output. -/
theorem setHusk_genHeld {x : HuskS} (hon : x.on = s.safe.husk.on) (hst : x.st = s.safe.husk.st) (hprev : x.prev = s.safe.husk.prev)
    (hgen : x.gen = s.safe.husk.gen) : (s.setHusk x).genHeld := genHeld_of_keeps (setHusk_keeps s x hon hst hprev hgen) hs

/-- A new state of Husk's in which the rule allows the output, or in which it was low before. -/
theorem setHusk_genHeld_of_state {x : HuskS} (hgen : x.gen = s.safe.husk.gen) (hon : x.on = s.safe.husk.on)
    (h : s.safe.husk.st = 2 ∨ s.safe.husk.st = 3 ∨ (s.safe.husk.st = 4 ∧ (s.safe.husk.prev = 2 ∨ s.safe.husk.prev = 3)) →
      x.st = 2 ∨ x.st = 3 ∨ (x.st = 4 ∧ (x.prev = 2 ∨ x.prev = 3))) : (s.setHusk x).genHeld := by
  intro hhigh
  obtain ⟨hpower, hstate⟩ := hs (hgen.symm.trans hhigh)
  exact ⟨hon.trans hpower, h hstate⟩

/-! ### Husk's own operations (R329, R331, R341, R343) -/

theorem huskLock_genHeld (bit : Nat) : (huskLock s bit).genHeld := genHeld_ite hs (genHeld_of_low rfl)

theorem huskContFault_genHeld (n : Nat) : (huskContFault s n).genHeld := genHeld_ite (huskLock_genHeld hs 8) hs

theorem huskExpire_genHeld (n : Nat) : (huskExpire s n).genHeld := by
  unfold huskExpire
  split
  · have hended := setHusk_genHeld hs (x := { s.safe.husk with win := s.safe.husk.win.filter (fun x => x.1 != n) }) rfl rfl rfl rfl
    exact genHeld_ite hended (huskContFault_genHeld hended n)
  · exact hs

theorem huskSee_genHeld (n : Nat) (closed : Bool) (t : Tick) : (huskSee s n closed t).genHeld := by
  unfold huskSee
  extract_lets out
  have hout {u : State} (hu : u.genHeld) : (out u).genHeld := setHusk_genHeld hu rfl rfl rfl rfl
  refine genHeld_ite hs (genHeld_ite (hout hs) ?_)
  split
  · exact genHeld_ite (hout (huskExpire_genHeld hs n)) (genHeld_ite (setHusk_genHeld (hout hs) rfl rfl rfl rfl) (hout hs))
  · exact huskContFault_genHeld (hout hs) n

theorem contFeedback_genHeld (n : Nat) (closed : Bool) (t : Tick) : (contFeedback s n closed t).genHeld :=
  huskSee_genHeld (genHeld_of_keeps (keeps_ite (contSee_keeps ..) rfl) hs) n closed t

theorem huskSto_genHeld : (huskSto s).genHeld :=
  genHeld_ite hs (genHeld_ite (genHeld_of_low rfl) (genHeld_ite (genHeld_of_low rfl) hs))

theorem stoChange_genHeld (view : Nat) (a b : StoLevel) : (stoChange s view a b).genHeld :=
  genHeld_ite (genHeld_of_keeps (setReg_keeps ..) hs) (genHeld_ite (genHeld_of_keeps (withSafe_keeps _ _ rfl) hs)
    (genHeld_ite (huskSto_genHeld (setHusk_genHeld hs rfl rfl rfl rfl)) hs))

theorem stoDiscrepancy_genHeld (husk : Bool) : (stoDiscrepancy s husk).genHeld := by
  refine genHeld_ite (genHeld_ite (huskLock_genHeld hs 2) hs) ?_
  split
  · exact genHeld_ite hs (genHeld_of_keeps ((State.raise_keeps ..).trans (scribeLatch_keeps ..)) hs)
  · exact hs

theorem xcheckTimeout_genHeld (husk : Bool) : (xcheckTimeout s husk).genHeld := by
  have hsilent : (s.withSafe { s.safe with silent := true }).genHeld := genHeld_of_keeps (withSafe_keeps _ _ rfl) hs
  exact genHeld_ite (genHeld_ite hs (huskLock_genHeld hs 7)) (genHeld_ite hs (genHeld_ite hsilent
    (genHeld_of_keeps ((State.raise_keeps ..).trans (scribeLatch_keeps ..)) hsilent)))

theorem backstop_genHeld : (backstop s).genHeld := by
  have hlocked : ((huskLock s 15).raise 206 0 0#32).genHeld := genHeld_of_keeps (State.raise_keeps ..) (huskLock_genHeld hs 15)
  refine genHeld_ite hs ?_
  split
  · exact genHeld_ite (genHeld_of_low rfl) hlocked
  · exact hlocked

omit hs in
/-- Husk restores torque in PERMIT, while it is powered. -/
theorem huskPermit_genHeld (hon : s.safe.husk.on = true) : (huskPermit s).genHeld := fun _ => ⟨hon, .inl rfl⟩

/-! ### A frame of Scribe's at Husk (R331, R341, R343) -/

/-- What a frame changes before its decision: Husk leaves INIT, or goes on where a single-channel interval found it. -/
theorem huskEntry_genHeld (w1 : Word) :
    (if s.safe.husk.st = 0 then (if s.safe.husk.set.isNone then safeCfgFault (s.setHusk { s.safe.husk with st := 1 }) true else s.setHusk { s.safe.husk with st := 1 })
     else if s.safe.husk.st = 4 ∧ !bitOf w1 25 then s.setHusk { s.safe.husk with st := s.safe.husk.prev } else s).genHeld := by
  split_ifs with hinit hset hsingle
  · exact genHeld_of_keeps (safeCfgFault_keeps ..) (setHusk_genHeld_of_state hs rfl rfl (by simp [hinit]))
  · exact setHusk_genHeld_of_state hs rfl rfl (by simp [hinit])
  · obtain ⟨hst, -⟩ := hsingle
    refine setHusk_genHeld_of_state hs rfl rfl fun hstate => ?_
    have hprev : s.safe.husk.prev = 2 ∨ s.safe.husk.prev = 3 := by simpa [hst] using hstate
    exact hprev.imp_right .inl
  · exact hs

omit hs in
/-- What a frame changes before its decision leaves Husk powered as it was. -/
theorem huskEntry_on (s : State) (w1 : Word) :
    (if s.safe.husk.st = 0 then (if s.safe.husk.set.isNone then safeCfgFault (s.setHusk { s.safe.husk with st := 1 }) true else s.setHusk { s.safe.husk with st := 1 })
     else if s.safe.husk.st = 4 ∧ !bitOf w1 25 then s.setHusk { s.safe.husk with st := s.safe.husk.prev } else s).safe.husk.on = s.safe.husk.on := by
  split_ifs
  · exact congrArg (fun k : QueueHusk => k.2.1) (safeCfgFault_keeps _ true)
  all_goals rfl

theorem huskAct_genHeld (hon : s.safe.husk.on = true) (f : List Word) : (huskAct s f).genHeld := by
  unfold huskAct
  extract_lets w1 mode h0 s0 h
  have hs0 : s0.genHeld := huskEntry_genHeld hs w1
  have hon0 : s0.safe.husk.on = true := (huskEntry_on s w1).trans hon
  clear_value s0
  split_ifs with hquiet hsingle hlocked hack hmode hsto htorque hss1 hpermit hgo
  · exact hs0
  · exact setHusk_genHeld_of_state hs0 rfl rfl fun hstate => .inr (.inr ⟨rfl,
      hstate.imp_right fun hrest => hrest.resolve_right fun hsingled => hquiet (.inr hsingled.1)⟩)
  · refine setHusk_genHeld_of_state hs0 rfl rfl fun hstate => absurd hlocked ?_
    rcases hstate with hst | hst | ⟨hst, -⟩ <;> simp [h, hst]
  · exact hs0
  · exact genHeld_of_low rfl
  · exact genHeld_of_low rfl
  · exact hs0
  · exact setHusk_genHeld_of_state hs0 rfl rfl fun _ => .inr (.inl rfl)
  · exact hs0
  · exact huskPermit_genHeld hon0
  · exact hs0

theorem huskCompare_genHeld (f : List Word) : (huskCompare s f).genHeld := by
  unfold huskCompare
  extract_lets h own dMode dIn runs nM nI lim s1
  have hcounted : s1.genHeld := setHusk_genHeld hs rfl rfl rfl rfl
  exact genHeld_ite (huskLock_genHeld hcounted 7) hcounted

theorem huskReceive_genHeld (ok : Bool) : (huskReceive s ok).genHeld := by
  unfold huskReceive
  split
  · exact hs
  · rename_i f hf
    extract_lets old s0 init s1
    have hs0 : s0.genHeld := genHeld_of_keeps (withSafe_keeps _ _ rfl) hs
    split_ifs with hbad hinit
    · exact hs0
    all_goals
      have hon : (huskContactors s0 f).safe.husk.on = true := by
        simp only [huskUp, Bool.or_eq_true, Bool.not_eq_true', Bool.and_eq_false_iff, not_or, Bool.not_eq_false] at hbad
        exact hbad.2.1
      have hs1 : s1.genHeld := huskAct_genHeld (genHeld_of_keeps (huskContactors_keeps ..) hs0) hon f
    · exact hs1
    · exact huskCompare_genHeld hs1 f

/-! ### Commands with a shape of their own -/

theorem crystalWaitExpiry_genHeld : GenHeldAfter (exec .crystalWaitExpiry s) :=
  genHeld_next hs (keeps_ite rfl (keeps_ite (clkStart_keeps s 1) (keeps_ite (withClk_keeps ..) (clkStart_keeps s 2))))

theorem configBlocksApply_genHeld : GenHeldAfter (exec .configBlocksApply s) := by
  refine genHeld_next hs ?_
  split
  · exact loadApply_keeps ..
  · exact keeps_ite (bootApply_keeps s) rfl

theorem mapCamRestore_genHeld : GenHeldAfter (exec .mapCamRestore s) :=
  genHeld_next hs (keeps_ite ((withBoot_keeps ..).trans
    (keeps_foldl (fun t e => camRestore_keeps t e) (keeps_foldl (fun t e => mapRestore_keeps t e) rfl))) rfl)

theorem muxForcedSwitch_genHeld : GenHeldAfter (exec .muxForcedSwitch s) := by
  refine genHeld_next hs ?_
  split
  · exact (tbSettle_keeps ..).trans (clkSwitched_keeps ..)
  · rfl

theorem requestDispatch_genHeld : GenHeldAfter (exec .requestDispatch s) := by
  refine genHeld_next hs (keeps_ite ?_ rfl)
  split
  · exact keeps_ite rfl (dispatchOne_keeps ..)
  · rfl

theorem fwStageTimeout_genHeld : GenHeldAfter (exec .fwStageTimeout s) := by
  refine genHeld_next hs ?_
  split
  · exact keeps_ite rfl (fwAbandon_keeps s 5)
  · rfl

/-- An accepted DORMANT saves the kept counters and lets HRDY fall (R141). -/
theorem dormant_genHeld (r : Request) : GenHeldAfter (exec (.dormant r) s) := by
  have hserved : (serveReed r s (r.target == 0 && r.params.isEmpty) (opDormant r)).queueHusk = s.queueHusk :=
    serveReed_keeps _ _ _ _ (opDormant_keeps r s)
  exact genHeld_next hs (keeps_ite
    ((withReed_keeps ..).trans ((withPhase_keeps ..).trans ((hrdyUpdate_keeps ..).trans ((keepFlush_keeps ..).trans hserved)))) hserved)

theorem swardRoute_genHeld (r : Request) : GenHeldAfter (exec (.swardRoute r) s) := by
  have hreply (x : Res) : (swRouteReply r x).queueHusk = x.st.queueHusk :=
    keeps_ite (respond_keeps r x) ((withSward_keeps ..).trans (portHeld_keeps x.st r))
  exact genHeld_next hs (keeps_ite ((hreply _).trans (opSwardRoute_keeps r s)) (serveReed_keeps _ _ _ _ (opSwardRoute_keeps r s)))

theorem ringOverflowReport_genHeld (n : Fin 64) : GenHeldAfter (exec (.ringOverflowReport n) s) := by
  refine genHeld_next hs ?_
  split
  · exact ring253_keeps s n.val
  · exact (ring253_keeps ..).trans (State.at_keeps ..)

theorem encoderEdge_genHeld (n : Fin 16) (a b : Bool) (edge : LineEdge) : GenHeldAfter (exec (.encoderEdge n a b edge) s) := by
  have hhusk : (huskEdge (s.at edge.t) n.val a b).queueHusk = s.queueHusk := (huskEdge_keeps ..).trans (State.at_keeps ..)
  exact genHeld_next hs (keeps_ite hhusk ((encEdge_keeps ..).trans hhusk))

end

/-! ### Every command -/

/-- Every command keeps the rule: one row a command, by the frame of its operation or by what Husk makes of it. -/
theorem exec_genHeld (c : Instr) {s : State} (hs : s.genHeld) : GenHeldAfter (exec c s) := by
  cases c with
  -- the start of the device and its clocks
  | resetRelease => exact genHeld_next hs (keeps_ite (resetRelease_keeps ..) rfl)
  | supplyMonitorReset => exact genHeld_next hs (coreReset_keeps ..)
  | crystalWaitExpiry => exact crystalWaitExpiry_genHeld hs
  | firmwareBankLoaded => exact genHeld_next hs (keeps_ite (firmwareLoaded_keeps ..) rfl)
  | configBlocksApply => exact configBlocksApply_genHeld hs
  | mapCamRestore => exact mapCamRestore_genHeld hs
  | commandReady => exact genHeld_next hs (keeps_ite (commandReady_keeps ..) rfl)
  | wake => exact genHeld_next hs (wake_keeps ..)
  | sourceMissingEdge => exact genHeld_next hs (keeps_ite ((clkFail_keeps ..).trans ((clkEdge_keeps ..).trans (clkSetAlive_keeps ..))) rfl)
  | sourceFrequencyFail => exact genHeld_next hs (keeps_ite (clkFail_keeps ..) rfl)
  | sourceQualified => exact genHeld_next hs (keeps_ite ((clkQualified_keeps ..).trans (clkEdge_keeps ..)) rfl)
  | muxForcedSwitch => exact muxForcedSwitch_genHeld hs
  | pllLock => exact genHeld_next hs ((tbSettle_keeps ..).trans (pllLocked_keeps ..))
  | pllLockLoss => exact genHeld_next hs (pllLost_keeps ..)
  | delayLineCalibrated => exact genHeld_next hs (keeps_ite ((tbSettle_keeps ..).trans (State.setFlag_keeps ..)) rfl)
  | delayLineSwap => exact genHeld_next hs (keeps_ite (withClk_keeps ..) rfl)
  | rcTrimMeasure => exact genHeld_next hs (trimMeasure_keeps ..)
  | clockRevert => exact genHeld_next hs (keeps_ite (clkRevert_keeps ..) rfl)
  | clkCtrlWrite => exact genHeld_next hs (clkCtrlWrite_keeps ..)
  | clkSelWrite => exact genHeld_next hs (clkSelWrite_keeps ..)
  | clkRctrimWrite => exact genHeld_next hs (clkRctrimWrite_keeps ..)
  | clkGateWrite => exact genHeld_next hs (clkGateWrite_keeps ..)
  -- the pace monitor and the passes
  | paceMeasurement => exact genHeld_next hs (paceMeasure_keeps ..)
  | shedLevelRise => exact genHeld_next hs (shedRise_keeps ..)
  | shedLevelFall => exact genHeld_next hs (shedFall_keeps ..)
  | envelopeMeasurement => exact genHeld_next hs (envelopeMeasure_keeps ..)
  | loopClrLate => exact genHeld_next hs (regRowWrite_keeps (loopCtrlWrite_keeps ..) rfl)
  | loopClrWorst => exact genHeld_next hs (regRowWrite_keeps (loopCtrlWrite_keeps ..) rfl)
  | frameBoundary => exact genHeld_next hs (frameBoundary_keeps ..)
  | senseResultPost => exact genHeld_next hs (senseResultPost_keeps ..)
  | passStart => exact genHeld_next hs (passStart_keeps ..)
  | windingPass => exact genHeld_next hs (passRow_keeps ..)
  | chopperPass => exact genHeld_next hs (passRow_keeps ..)
  | steppingPass => exact genHeld_next hs (passRow_keeps ..)
  | machinePass => exact genHeld_next hs (passRow_keeps ..)
  | observerPass => exact genHeld_next hs (passRow_keeps ..)
  | axisPass => exact genHeld_next hs (passRow_keeps ..)
  | gearPass => exact genHeld_next hs (passRow_keeps ..)
  | strokeTick => exact genHeld_next hs (passRow_keeps ..)
  | filterPass => exact genHeld_next hs (passRow_keeps ..)
  | probePass => exact genHeld_next hs (passRow_keeps ..)
  | passCommit => exact genHeld_next hs (passCommit_keeps ..)
  | linkSkipInstant => exact genHeld_next hs (linkSkip_keeps ..)
  | passDeadline => exact genHeld_next hs (passDeadline_keeps ..)
  | prechargeEnd => exact genHeld_next hs (prechargeEnd_keeps ..)
  | rampEnd => exact genHeld_next hs (rampEnd_keeps ..)
  | mtpaRebuild => exact genHeld_next hs (keeps_ite (mtpaRequest_keeps ..) rfl)
  -- carriers and the dispatcher
  | hostSpiCmdFrame => exact genHeld_next hs (keeps_ite (hostCmdFrame_keeps ..) rfl)
  | hostSpiFetchFrame => exact genHeld_next hs (keeps_ite (hostFetchFrame_keeps ..) rfl)
  | hostSpiStatusFrame => exact genHeld_next hs (keeps_ite (hostStatusFrame_keeps ..) rfl)
  | udpCommandDatagram => exact genHeld_next hs (keeps_ite (carrierArrive_keeps ..) rfl)
  | swardCommandFrame => exact genHeld_next hs (keeps_ite (carrierArrive_keeps ..) rfl)
  | canCommandFrame => exact genHeld_next hs (keeps_ite rfl (keeps_ite (carrierArrive_keeps ..) (State.cntSat_keeps ..)))
  | requestDispatch => exact requestDispatch_genHeld hs
  | deferredReplySend => exact genHeld_next hs (deferredSend_keeps ..)
  -- the opcodes of registers and contexts
  | nop => exact genHeld_next hs (serveReed_keeps _ _ _ _ (rfl))
  | identify => exact genHeld_next hs (serveReed_keeps _ _ _ _ (rfl))
  | readReg => exact genHeld_next hs (keeps_ite (holdSnap_keeps ..) (serveReg_keeps _ _ _ _ (opReadReg_keeps ..)))
  | writeReg => exact genHeld_next hs (serveReg_keeps _ _ _ _ (opWriteReg_keeps ..))
  | modifyReg => exact genHeld_next hs (serveReg_keeps _ _ _ _ (opModifyReg_keeps ..))
  | readSnapshot => exact genHeld_next hs (keeps_ite (holdSnap_keeps ..) (serveReg_keeps _ _ _ _ (opReadSnapshot_keeps ..)))
  | ctxCreate => exact genHeld_next hs (serveReed_keeps _ _ _ _ (opCtxCreate_keeps ..))
  | ctxDelete => exact genHeld_next hs (serveReed_keeps _ _ _ _ (opCtxDelete_keeps ..))
  | ctxBind => exact genHeld_next hs (serveReed_keeps _ _ _ _ (opCtxBind_keeps ..))
  | ctxParam => exact genHeld_next hs (serveReed_keeps _ _ _ _ (opCtxParam_keeps ..))
  | admitRq => exact genHeld_next hs (serveReed_keeps _ _ _ _ (opAdmit_keeps ..))
  -- windings
  | groupState => exact genHeld_next hs (serveReed_keeps _ _ _ _ (opGroupState_keeps ..))
  | windingEnable => exact genHeld_next hs (serveReed_keeps _ _ _ _ (opWindingEnable_keeps ..))
  | windingDisable => exact genHeld_next hs (serveReed_keeps _ _ _ _ (opWindingDisable_keeps ..))
  | identRun => exact genHeld_next hs (serveReed_keeps _ _ _ _ (opIdentRun_keeps ..))
  | identDone => exact genHeld_next hs (identDone_keeps ..)
  -- axes
  | move => exact genHeld_next hs (serveReed_keeps _ _ _ _ (opMove_keeps ..))
  | moveNext => exact genHeld_next hs (serveReed_keeps _ _ _ _ (opMove_keeps ..))
  | jog => exact genHeld_next hs (serveReed_keeps _ _ _ _ (opJog_keeps ..))
  | halt => exact genHeld_next hs (serveReed_keeps _ _ _ _ (opStop_keeps ..))
  | quickStop => exact genHeld_next hs (serveReed_keeps _ _ _ _ (opStop_keeps ..))
  | resume => exact genHeld_next hs (serveReed_keeps _ _ _ _ (opResume_keeps ..))
  | setLimits => exact genHeld_next hs (serveReed_keeps _ _ _ _ (opSetLimits_keeps ..))
  | home => exact genHeld_next hs (serveReed_keeps _ _ _ _ (opHome_keeps ..))
  | setPosition => exact genHeld_next hs (serveReed_keeps _ _ _ _ (opSetPosition_keeps ..))
  | abortMove => exact genHeld_next hs (serveReed_keeps _ _ _ _ (opStop_keeps ..))
  | homeTimeout => exact genHeld_next hs (homeTimeout_keeps ..)
  -- gears, cams and strokes
  | gearEngage => exact genHeld_next hs (serveReed_keeps _ _ _ _ (opGearEngage_keeps ..))
  | gearDisengage => exact genHeld_next hs (serveReed_keeps _ _ _ _ (opGearDisengage_keeps ..))
  | gearRatio => exact genHeld_next hs (serveReed_keeps _ _ _ _ (opGearRatio_keeps ..))
  | camLoadBegin => exact genHeld_next hs (serveReed_keeps _ _ _ _ (camLoad_keeps ..))
  | camLoadData => exact genHeld_next hs (serveReed_keeps _ _ _ _ (camLoad_keeps ..))
  | camLoadEnd => exact genHeld_next hs (serveReed_keeps _ _ _ _ (camLoad_keeps ..))
  | strokeStart => exact genHeld_next hs (serveReed_keeps _ _ _ _ (opStrokeStart_keeps ..))
  | strokeFeed => exact genHeld_next hs (serveReed_keeps _ _ _ _ (opStrokeFeed_keeps ..))
  | strokeHold => exact genHeld_next hs (serveReed_keeps _ _ _ _ (opStrokeHold_keeps ..))
  | strokeFlush => exact genHeld_next hs (serveReed_keeps _ _ _ _ (opStrokeFlush_keeps ..))
  -- Inkwell
  | inkArm => exact genHeld_next hs (serveReed_keeps _ _ _ _ (opInkArm_keeps ..))
  | inkForce => exact genHeld_next hs (serveReed_keeps _ _ _ _ (opInkForce_keeps ..))
  | inkStop => exact genHeld_next hs (serveReed_keeps _ _ _ _ (opInkStop_keeps ..))
  | inkRead => exact genHeld_next hs (serveReed_keeps _ _ _ _ (opInkRead_keeps ..))
  | inkReadDone => exact genHeld_next hs (inkReadDone_keeps ..)
  | inkAutoExpiry => exact genHeld_next hs (inkAutoExpiry_keeps ..)
  | inkRecordComplete => exact genHeld_next hs (inkRecordComplete_keeps ..)
  | inkInterfaceFailure => exact genHeld_next hs (inkFail_keeps ..)
  | niblogTokenRefill => exact genHeld_next hs (withInk_keeps ..)
  -- time, pulses and outputs
  | timeSet => exact genHeld_next hs (serveReed_keeps _ _ _ _ (opTimeSet_keeps ..))
  | timeAdjustOffset => exact genHeld_next hs (serveReed_keeps _ _ _ _ (opTimeAdjust_keeps ..))
  | timeAdjustRate => exact genHeld_next hs (serveReed_keeps _ _ _ _ (opTimeAdjust_keeps ..))
  | timeSlewDone => exact genHeld_next hs (slewDone_keeps ..)
  | pulseProgram => exact genHeld_next hs (serveReed_keeps _ _ _ _ (opPulse_keeps ..))
  | pulseEdgeFix => exact genHeld_next hs ((pulseFix_keeps ..).trans (State.at_keeps ..))
  | fioSet => exact genHeld_next hs (serveReed_keeps _ _ _ _ (opFioSet_keeps ..))
  | fioConfig => exact genHeld_next hs (serveReed_keeps _ _ _ _ (opFioConfig_keeps ..))
  -- keep memory, configuration and firmware
  | keepWrite => exact genHeld_next hs (serveReed_keeps _ _ _ _ (opKeepWrite_keeps ..))
  | keepWordRegWrite => exact genHeld_next hs (keeps_ite (keepQueue_keeps ..) rfl)
  | keepWritePersist => exact genHeld_next hs (keepPersist_keeps ..)
  | keepHourlyCount => exact genHeld_next hs (keeps_ite (keepBump_keeps ..) rfl)
  | keepCounterFlush => exact genHeld_next hs (keeps_ite (keepFlush_keeps ..) rfl)
  | cfgSave => exact genHeld_next hs (serveReed_keeps _ _ _ _ (opCfgSave_keeps ..))
  | cfgSaved => exact genHeld_next hs (cfgSaved_keeps ..)
  | cfgLoad => exact genHeld_next hs (serveReed_keeps _ _ _ _ (opCfgLoad_keeps ..))
  | fwStageBegin => exact genHeld_next hs (serveReed_keeps _ _ _ _ (opFwStageBegin_keeps ..))
  | fwStageData => exact genHeld_next hs (serveReed_keeps _ _ _ _ (opFwStageData_keeps ..))
  | fwStageEnd => exact genHeld_next hs (serveReed_keeps _ _ _ _ (opFwStageEnd_keeps ..))
  | fwStageVerified => exact genHeld_next hs (fwStageVerified_keeps ..)
  | fwStageTimeout => exact fwStageTimeout_genHeld hs
  | fwSwitchSwitch => exact genHeld_next hs (serveReed_keeps _ _ _ _ (opFwSwitch_keeps ..))
  | fwSwitchConfirm => exact genHeld_next hs (serveReed_keeps _ _ _ _ (opFwConfirm_keeps ..))
  | fwSwitchRevert => exact genHeld_next hs (serveReed_keeps _ _ _ _ (opFwRevert_keeps ..))
  | fwSwitchScribe => exact genHeld_next hs (serveReed_keeps _ _ _ _ (opFwScribe_keeps ..))
  | reedResume => exact genHeld_next hs (fwResume_keeps ..)
  | fwSwitchAbandon => exact genHeld_next hs (fwSwitchAbandon_keeps ..)
  | trialExpiry => exact genHeld_next hs (keeps_ite ((fwFallback_keeps ..).trans (State.at_keeps ..)) rfl)
  | calSwap => exact genHeld_next hs (serveReed_keeps _ _ _ _ (opCalSwap_keeps ..))
  | dormant r => exact dormant_genHeld hs r
  | resetBlock => exact genHeld_next hs (serveReed_keeps _ _ _ _ (opResetBlock_keeps ..))
  | moduleResetDelay => exact genHeld_next hs (keeps_ite (coreReset_keeps ..) rfl)
  -- the opcodes of the safety set, the networks and the rings
  | safeParamStage => exact genHeld_next hs (serveReed_keeps _ _ _ _ (opSafeStage_keeps ..))
  | safeParamConfirm => exact genHeld_next hs (safeConfirm_keeps ..)
  | safeAck => exact genHeld_next hs (serveReed_keeps _ _ _ _ (opSafeAck_keeps ..))
  | swardRoute r => exact swardRoute_genHeld hs r
  | swardJoin => exact genHeld_next hs (serveReed_keeps _ _ _ _ (opSwardJoin_keeps ..))
  | swardLeave => exact genHeld_next hs (serveReed_keeps _ _ _ _ (opSwardLeave_keeps ..))
  | sheafRole => exact genHeld_next hs (serveReed_keeps _ _ _ _ (opSheafRole_keeps ..))
  | canTx => exact genHeld_next hs (serveReed_keeps _ _ _ _ (opCanTx_keeps ..))
  | canCancel => exact genHeld_next hs (serveReed_keeps _ _ _ _ (opCanCancel_keeps ..))
  | canScheduleStart => exact genHeld_next hs (serveReed_keeps _ _ _ _ (opCanSchedule_keeps ..))
  | canScheduleStop => exact genHeld_next hs (serveReed_keeps _ _ _ _ (opCanSchedule_keeps ..))
  | ringPop => exact genHeld_next hs (serveReed_keeps _ _ _ _ (opRingPop_keeps ..))
  | ringPush => exact genHeld_next hs (serveReed_keeps _ _ _ _ (opRingPush_keeps ..))
  | ringConfigWrite => exact genHeld_next hs (ringConfigWrite_keeps ..)
  | ringOverflowReport n => exact ringOverflowReport_genHeld hs n
  | pspiTransferStart => exact genHeld_next hs (pspiXferWrite_keeps ..)
  | pspiTransferDone => exact genHeld_next hs (pspiDone_keeps ..)
  | spiIrqcfgWrite => exact genHeld_next hs (irqcfgWrite_keeps ..)
  -- sensing
  | senseMclkWrite => exact genHeld_next hs (regRowWrite_keeps (mclkWrite_keeps ..) rfl)
  | senseCalScan => exact genHeld_next hs (regRowWrite_keeps (calWrite_keeps ..) rfl)
  | senseCalOffset => exact genHeld_next hs (regRowWrite_keeps (calWrite_keeps ..) rfl)
  | senseCalDone => exact genHeld_next hs (calDone_keeps ..)
  | overcurrentTrip => exact genHeld_next hs (keeps_ite (ocBits_keeps ..) rfl)
  | modulatorLost => exact genHeld_next hs (lostBits_keeps ..)
  | modulatorRecovered => exact genHeld_next hs (lostEnd_keeps ..)
  -- the nib bank
  | nibEdgeCommit => exact genHeld_next hs (edgeCommit_keeps ..)
  | nibGperWrite => exact genHeld_next hs (gperWrite_keeps ..)
  | nibClearLatches => exact genHeld_next hs (clearLatches_keeps ..)
  | nibGadjWrite => exact genHeld_next hs (gadjWrite_keeps ..)
  | faultInputAssert => exact genHeld_next hs (keeps_ite rfl (faultInput_keeps ..))
  | huskEnableChange => exact genHeld_next hs (huskEnable_keeps ..)
  | echoEdge => exact genHeld_next hs ((echoEdge_keeps ..).trans (State.at_keeps ..))
  | echoWindowEnd => exact genHeld_next hs (echoEnd_keeps ..)
  | chopperPeriodStart => exact genHeld_next hs (chopNext_keeps ..)
  | syncInEdge => exact genHeld_next hs ((syncIn_keeps ..).trans (State.at_keeps ..))
  | syncInLoss => exact genHeld_next hs (keeps_ite ((syncLoss_keeps ..).trans (State.at_keeps ..)) rfl)
  -- feedback and latch units
  | encoderEdge n a b edge => exact encoderEdge_genHeld hs n a b edge
  | zEdge => exact genHeld_next hs (keeps_ite rfl ((zEdge_keeps ..).trans (State.at_keeps ..)))
  | ssiTransfer => exact genHeld_next hs (ssiTransfer_keeps ..)
  | fdbkClr => exact genHeld_next hs (regRowWrite_keeps (fbCtrlWrite_keeps ..) rfl)
  | fdbkZarm => exact genHeld_next hs (regRowWrite_keeps (fbCtrlWrite_keeps ..) rfl)
  | latchArm => exact genHeld_next hs (regRowWrite_keeps (latchCtrlWrite_keeps ..) rfl)
  | latchDisarm => exact genHeld_next hs (regRowWrite_keeps (latchCtrlWrite_keeps ..) rfl)
  | latchEdge => exact genHeld_next hs ((latchPin_keeps ..).trans (State.at_keeps ..))
  | latchTimeCompare => exact genHeld_next hs (latchTime_keeps ..)
  | latchWindowEnd => exact genHeld_next hs (latchEnd_keeps ..)
  | latchCaptureComplete => exact genHeld_next hs (latchComplete_keeps ..)
  -- the safety channels and the telegram
  | scribeCycle => exact genHeld_next hs (keeps_ite ((scribeCycle_keeps ..).trans (State.at_keeps ..)) rfl)
  | scribeXcheckFrame => exact genHeld_next hs (keeps_ite (scribeReceive_keeps ..) rfl)
  | huskXcheckFrame => exact genHeldAfter_next (huskReceive_genHeld hs _)
  | xcheckTimeout => exact genHeldAfter_next (xcheckTimeout_genHeld hs _)
  | stoInputChange => exact genHeldAfter_next (stoChange_genHeld hs _ _ _)
  | stoDiscrepancyExpiry => exact genHeldAfter_next (stoDiscrepancy_genHeld hs _)
  | ss1BackstopExpiry => exact genHeldAfter_next (backstop_genHeld hs)
  | brkTExpiry => exact genHeld_next hs (brkExpiry_keeps ..)
  | slsLevelEffective => exact genHeld_next hs (slsEffective_keeps ..)
  | genSettleExpiry => exact genHeld_next hs (genSettle_keeps ..)
  | contactorWindowExpiry => exact genHeldAfter_next (genHeld_ite (huskExpire_genHeld hs _) (genHeld_of_keeps (contExpire_keeps ..) hs))
  | contactorFeedbackChange => exact genHeldAfter_next (contFeedback_genHeld (genHeld_of_keeps (State.at_keeps ..) hs) _ _ _)
  | safeTestPulse => exact genHeld_next hs (testPulse_keeps ..)
  | huskReadbackTimeout => exact genHeldAfter_next (genHeld_ite (genHeld_of_keeps (State.raise_keeps ..) (huskLock_genHeld hs 9)) hs)
  | telegramCopy => exact genHeld_next hs ((telCopy_keeps ..).trans (State.at_keeps ..))
  | telegramWatchdogExpiry => exact genHeld_next hs (telWatchdog_keeps ..)
  | telegramPathLoss => exact genHeld_next hs (pathLoss_keeps ..)
  | huskCounterFault => exact genHeldAfter_next (genHeld_ite (genHeld_of_keeps (State.raise_keeps ..) (huskLock_genHeld hs 7)) hs)
  | singleChannelTimeout => exact genHeldAfter_next (genHeld_ite (genHeld_of_keeps (State.raise_keeps ..) (huskLock_genHeld hs 13)) hs)
  | huskSelfTestFailure => exact genHeldAfter_next (genHeld_ite (genHeld_of_low rfl) hs)
  | vhuskPowerUp => exact genHeldAfter_next (genHeld_ite hs (genHeld_of_low rfl))
  | vhuskLoss => exact genHeldAfter_next (genHeld_of_low rfl)
  | safeStageWrite => exact genHeld_next hs (safeStageWrite_keeps ..)
  -- the field die
  | logicHeartbeatSend => exact genHeld_next hs (keeps_ite (withField_keeps ..) rfl)
  | fieldHeartbeatReceive => exact genHeld_next hs (fieldHeartbeat_keeps ..)
  | logicHeartbeatReceive => exact genHeld_next hs (keeps_ite (logicHeartbeat_keeps ..) rfl)
  | fieldLinkTimeout => exact genHeld_next hs (linkTimeout_keeps ..)
  | fieldSilenceExpiry => exact genHeld_next hs (silenceBegin_keeps ..)
  | fieldInputEdge => exact genHeld_next hs ((fieldEdge_keeps ..).trans ((huskFollow_keeps ..).trans (State.at_keeps ..)))
  | chatterWindowEnd => exact genHeld_next hs (chatterNext_keeps ..)
  | outputOvercurrent => exact genHeld_next hs (outFault_keeps ..)
  | outputThermal => exact genHeld_next hs (outFault_keeps ..)
  | bankOvercurrent => exact genHeld_next hs (bankFault_keeps ..)
  | vfieldMeasurement => exact genHeld_next hs (vfield_keeps ..)
  -- Ethernet and time over it
  | ethFrameReceive => exact genHeld_next hs ((ethReceive_keeps ..).trans (State.at_keeps ..))
  | ethLinkChange => exact genHeld_next hs (ethLink_keeps ..)
  | ethMdioAccess => exact genHeld_next hs (regRowWrite_keeps (mdioWrite_keeps ..) rfl)
  | ethMdioDone => exact genHeld_next hs (mdioDone_keeps ..)
  | ptpOffsetSample => exact genHeld_next hs ((ptpSample_keeps ..).trans (State.at_keeps ..))
  | ptpSendInterval => exact genHeld_next hs ((ptpInterval_keeps ..).trans (State.at_keeps ..))
  | ptpHoldoverTimeout => exact genHeld_next hs (holdover_keeps ..)
  | timebaseDiscipline => exact genHeld_next hs (discipline_keeps ..)
  | timeCfgWrite => exact genHeld_next hs (regRowWrite_keeps (timeCfgWrite_keeps ..) rfl)
  | timeSnap => exact genHeld_next hs (regRowWrite_keeps (timeSnap_keeps s) rfl)
  -- CAN
  | canFrameReceive => exact genHeld_next hs ((canReceive_keeps ..).trans (State.at_keeps ..))
  | canTxDone => exact genHeld_next hs (canTxDone_keeps ..)
  | canCtrlWrite => exact genHeld_next hs (regRowWrite_keeps (canCtrlWrite_keeps ..) rfl)
  | canRecover => exact genHeld_next hs (regRowWrite_keeps (canCtrlWrite_keeps ..) rfl)
  | canDominantTimeout => exact genHeld_next hs (canDominant_keeps ..)
  | canCycleStart => exact genHeld_next hs ((canCycleStart_keeps ..).trans (State.at_keeps ..))
  | canReferenceReceive => exact genHeld_next hs ((canReference_keeps ..).trans (State.at_keeps ..))
  | canReferenceTimeout => exact genHeld_next hs (canRefTimeout_keeps ..)
  | canWindowStart => exact genHeld_next hs (canWinStart_keeps ..)
  | canWindowEnd => exact genHeld_next hs (canWinEnd_keeps ..)
  | canWakeDetect => exact genHeld_next hs (canWakeDetect_keeps ..)
  -- the Sward
  | swardFrameReceive => exact genHeld_next hs ((swReceive_keeps ..).trans (State.at_keeps ..))
  | swardTransmit => exact genHeld_next hs ((swTransmit_keeps ..).trans (State.at_keeps ..))
  | credReceive => exact genHeld_next hs (swCredit_keeps ..)
  | credSend => exact genHeld_next hs ((swCredSend_keeps ..).trans (State.at_keeps ..))
  | helloReceive => exact genHeld_next hs (swHello_keeps ..)
  | swardTrainingDone => exact genHeld_next hs (swTrained_keeps ..)
  | leaveReceive => exact genHeld_next hs (swLeaveGot_keeps ..)
  | swardLossOfSignal => exact genHeld_next hs (keeps_ite rfl (swDown_keeps ..))
  | swardSymbolErrorLimit => exact genHeld_next hs (swErrors_keeps ..)
  | dreqSend => exact genHeld_next hs ((dreqSend_keeps ..).trans (State.at_keeps ..))
  | dreqReceive => exact genHeld_next hs ((dreqAnswer_keeps ..).trans (State.at_keeps ..))
  | drspReceive => exact genHeld_next hs ((drspTake_keeps ..).trans (State.at_keeps ..))
  | epochMarkReceive => exact genHeld_next hs ((ftMark_keeps ..).trans ((epochSeen_keeps ..).trans (State.at_keeps ..)))
  | swardEpochBoundary => exact genHeld_next hs ((swEpoch_keeps ..).trans (State.at_keeps ..))
  | swardWaitDrop => exact genHeld_next hs (swWaitDrop_keeps ..)
  | e2eRetransmitTimeout => exact genHeld_next hs (swResend_keeps ..)
  | e2eAckSend => exact genHeld_next hs (swAckSend_keeps ..)
  | streamForget => exact genHeld_next hs (swForget_keeps ..)
  | eventFrameReceive => exact genHeld_next hs (keeps_ite (eventFrame_keeps ..) rfl)
  | swardNodeWrite => exact genHeld_next hs (swNodeWrite_keeps ..)
  | swardResWrite => exact genHeld_next hs (regRowWrite_keeps (swResWrite_keeps ..) rfl)
  | swardHrxtailWrite => exact genHeld_next hs (hrxTailWrite_keeps ..)
  -- the Sheaf
  | sheafEpoch => exact genHeld_next hs (sheafEpoch_keeps ..)
  | sheafBeaconSend => exact genHeld_next hs (sheafBeaconSend_keeps ..)
  | sheafBeaconReceive => exact genHeld_next hs (sheafBeacon_keeps ..)
  | sheafStatusReceive => exact genHeld_next hs (sheafStatus_keeps ..)
  | sheafDepartureTimeout => exact genHeld_next hs (sheafTimeout_keeps ..)
  | linkDataReceive => exact genHeld_next hs ((linkData_keeps ..).trans (State.at_keeps ..))
  | mirrorReceive => exact genHeld_next hs ((mirrorTake_keeps ..).trans (State.at_keeps ..))
  | takeoverCheck => exact genHeld_next hs (takeover_keeps ..)
  -- events, supplies, registers and resets
  | eventArbitration => exact genHeld_next hs (keeps_ite (evtDrain_keeps ..) rfl)
  | holdoffWindowEnd => exact genHeld_next hs (holdoffEnd_keeps ..)
  | evtStatClear => exact genHeld_next hs (evtStatWrite_keeps ..)
  | evtTest => exact genHeld_next hs (evtTestWrite_keeps ..)
  | supplyMeasurement => exact genHeld_next hs (keeps_ite (keeps_foldl (fun _ _ => railMeasure_keeps ..) rfl) rfl)
  | caseTempMeasurement => exact genHeld_next hs (keeps_ite (caseMeasure_keeps ..) rfl)
  | registerWrite => exact genHeld_next hs (registerWrite_keeps ..)
  | resetAssert => exact genHeld_next hs (coreReset_keeps ..)
  | reedRestartComplete => exact genHeld_next hs (keeps_ite (reedRestarted_keeps ..) rfl)
  | sinc3Output => exact genHeld_next hs (sincOutput_keeps ..)
  | canTxStart => exact genHeld_next hs ((canTxStart_keeps ..).trans (State.at_keeps ..))
  | canBusoffRecoveryDone => exact genHeld_next hs (canRecovered_keeps ..)
  | canBusError => exact genHeld_next hs (canBusError_keeps ..)
/-- Settles O48: a step runs the command at the front of the queue, or lets one edge tick pass. -/
theorem huskOutputStaysPermitted : Obligations.Husk_Output_Stays_Permitted := by
  intro s t hs hstep
  unfold step at hstep
  split at hstep
  · exact genHeld_next hs (tick_keeps s) t hstep
  · rename_i c cs hfront
    exact exec_genHeld c (s := s.withPending cs) hs t hstep

end Sys2Proof.Machine
end

section
/-! PROOF. O31, gears and stroke groups: each command passes its checks, and its row of the table of its object accepts it or leaves the object as it
is (11_gearing_strokes.md R280 to R283, R292, R294). -/

namespace Sys2Proof.Machine

open Sys2Proof

/-! ### Gears (R280 to R283) -/

/-- GEAR_ENGAGE of a disengaged gear whose follower stands still, whose sources are valid and whose cam is near waits for the gear's pass. -/
theorem opGearEngage_accepts {s : State} {r : Request} {f : Nat} {ramp : Bool} (hslot : slotCheck s r.target [9, 10] = none)
    (hresv : bitsOf (r.p 0) 3 29 = 0) (hmode : bitsOf (r.p 0) 0 2 < 2) (hramp : ramp = (bitsOf (r.p 0) 0 2 == 1)) (hf32 : badF32 (r.p 3) = false)
    (hlen : ramp = true → 0 < ratOf (r.p 3)) (heff : gearEff s r.target = 0) (hfollows : gearFollower s r.target = some f)
    (hst : (axisEff s f).st = 1) (hgood : gearBadNow s r.target = none)
    (hnear : gMode s r.target = 1 → ramp = false → absR (posRat (s.axis f).x - camPosition s r.target (ratOf (ratioW (s.cp r.target 1) (s.cp r.target 2)))
      (gearRead (inputNow s) s.dt (bMaster (curBind s r.target))).x) ≤ s.cpR f 26) :
    opGearEngage r s = axisAccept s r.target 0x40 r.params := by
  subst hramp
  have hform : ¬ (bitsOf (r.p 0) 3 29 ≠ 0 ∨ 2 ≤ bitsOf (r.p 0) 0 2 ∨ badF32 (r.p 3) = true ∨
      ((bitsOf (r.p 0) 0 2 == 1) = true ∧ ratOf (r.p 3) ≤ 0)) := by
    rintro (h | h | h | ⟨h, hle⟩)
    · exact h hresv
    · omega
    · exact absurd h (by simp [hf32])
    · exact absurd hle (not_le.mpr (hlen h))
  unfold opGearEngage
  extract_lets k ramp
  rw [orRefuse_of_none _ _ hslot, if_neg hform, if_neg (not_not.mpr heff)]
  simp only [k, hfollows]
  refine if_neg ?_
  rintro (h | h | h)
  · exact h hst
  · exact absurd h (by simp [hgood])
  · simp only [Bool.and_eq_true, beq_iff_eq, Bool.not_eq_true', decide_eq_true_eq] at h
    obtain ⟨⟨hcam, hdirect⟩, hfar⟩ := h
    exact absurd hfar (not_lt.mpr (hnear hcam hdirect))

section

variable {s : State} {r : Request} {w : Word}

/-- GEAR_DISENGAGE with the words of its mode waits for the gear's pass, unless the gear already disengages; a mode 2 asks that the follower
stand still where it is coupled. -/
theorem opGearDisengage_accepts (hp : r.p 0 = w) (hslot : slotCheck s r.target [9, 10] = none) (hmode : bitsOf w 0 2 ≠ 3)
    (hform : (r.params.length == 2) = (bitsOf w 0 2 == 0))
    (hramp : bitsOf w 0 2 = 0 → gMode s r.target ≠ 1 ∧ badF32 (r.p 1) = false ∧ 0 < ratOf (r.p 1))
    (hcoupled : gearEff s r.target ≠ 0) (hstays : gearEff s r.target ≠ 5)
    (hstill : bitsOf w 0 2 = 2 → gearEff s r.target = 1 ∨ (∀ f ∈ gearFollower s r.target, ratOf (s.axis f).v = 0)) :
    opGearDisengage r s = axisAccept s r.target 0x41 r.params := by
  unfold opGearDisengage
  extract_lets k mode e moving
  have hw : mode = bitsOf w 0 2 := by rw [← hp]
  have hwords : ¬ (mode = 3 ∨ ((r.params.length == 2) != (mode == 0)) = true) := by simp [hw, hmode, hform]
  have hlength : ¬ (mode = 0 ∧ (gMode s k = 1 ∨ badF32 (r.p 1) = true ∨ ratOf (r.p 1) ≤ 0)) := by
    rintro ⟨hzero, hbad⟩
    obtain ⟨hcam, hf32, hpos⟩ := hramp (hw ▸ hzero)
    rcases hbad with h | h | h
    · exact hcam h
    · exact absurd h (by simp [hf32])
    · exact absurd h (not_le.mpr hpos)
  have hmoving : ¬ (mode = 2 ∧ e ≠ 1 ∧ moving = true) := by
    rintro ⟨hquick, he, hmoves⟩
    rcases hstill (hw ▸ hquick) with h | h
    · exact he h
    · cases hfollows : gearFollower s k with
      | none => simp [moving, hfollows] at hmoves
      | some f => simp [moving, hfollows, h f hfollows] at hmoves
  rw [orRefuse_of_none _ _ hslot, if_neg hwords, if_neg hlength, if_neg hcoupled, if_neg hstays, if_neg hmoving]

/-- GEAR_DISENGAGE of a disengaged gear, in a mode without a ramp, has no effect. -/
theorem opGearDisengage_idle (hp : r.params = [w]) (hslot : slotCheck s r.target [9, 10] = none) (hmode : bitsOf w 0 2 = 1 ∨ bitsOf w 0 2 = 2)
    (heff : gearEff s r.target = 0) : opGearDisengage r s = { st := s } := by
  have hp0 : r.p 0 = w := congrArg (nth · 0 0#32) hp
  unfold opGearDisengage
  extract_lets k mode e moving
  have hw : mode = bitsOf w 0 2 := by rw [← hp0]
  rw [orRefuse_of_none _ _ hslot, if_neg (by rcases hmode with h | h <;> simp [hw, h, hp]),
    if_neg (by rcases hmode with h | h <;> simp [hw, h]), if_pos heff]

end

/-- A gear that is disengaged or in synchronism takes a new ratio. -/
theorem gearJudge_ratio_ok {e : Nat} (ws : List Word) (h : e = 0 ∨ e = 3) : (gearJudge e 0x42 ws).1 = stOK := by
  rcases h with rfl | rfl <;> rfl

/-- GEAR_RATIO writes the ratio and waits for the gear's pass with the state it was accepted in. -/
theorem opGearRatio_accepts {s : State} {r : Request} {num den rate : Word} (hp : r.params = [num, den, rate]) (hslot : slotCheck s r.target [9, 10] = none)
    (hden : den ≠ 0#32) (hf32 : badF32 rate = false) (hrate : 0 ≤ ratOf rate) (heff : gearEff s r.target = 0 ∨ gearEff s r.target = 3) :
    opGearRatio r s = axisAccept ((s.setCw r.target 1 num).setCw r.target 2 den) r.target 0x42 [num, den, rate, wd (gearEff s r.target)] := by
  have hp0 : r.p 0 = num := congrArg (nth · 0 0#32) hp
  have hp1 : r.p 1 = den := congrArg (nth · 1 0#32) hp
  have hp2 : r.p 2 = rate := congrArg (nth · 2 0#32) hp
  simp only [opGearRatio, hp0, hp1, hp2]
  rw [orRefuse_of_none _ _ hslot, if_neg (by simp [hden, hf32, hrate]), if_neg (not_not.mpr (gearJudge_ratio_ok _ heff)), hp]
  rfl

/-! ### Stroke groups (R292, R294) -/

section

variable {e : Nat} (ws : List Word) (rest data : Bool)

theorem strokeJudge_start_from_off (h : e = 0) : strokeJudge e 0x48 ws rest data = (stOK, 1) := by
  subst h
  rfl

theorem strokeJudge_start_idle (h : e = 1 ∨ e = 2) : strokeJudge e 0x48 ws rest data = (stOK, e) := by
  rcases h with rfl | rfl <;> rfl

/-- HOLD takes a group that traces or starves to a state of its own. -/
theorem strokeJudge_hold_stops (hw : bitOf (nth ws 0 0#32) 0 = true) (h : e = 1 ∨ e = 2) :
    ∃ n, strokeJudge e 0x4A ws rest data = (stOK, n) ∧ e ≠ n := by
  rcases h with rfl | rfl
  · exact ⟨if rest then 4 else 3, if_pos hw, by cases rest <;> decide⟩
  · exact ⟨4, if_pos hw, by decide⟩

/-- The end of a HOLD takes the group on. -/
theorem strokeJudge_hold_ends (hw : bitOf (nth ws 0 0#32) 0 = false) (h : e = 3 ∨ e = 4) :
    ∃ n, strokeJudge e 0x4A ws rest data = (stOK, n) ∧ e ≠ n := by
  rcases h with rfl | rfl
  · exact ⟨1, if_neg (Bool.eq_false_iff.mp hw), by decide⟩
  · exact ⟨if data then 1 else 2, if_neg (Bool.eq_false_iff.mp hw), by cases data <;> decide⟩

theorem strokeJudge_hold_idle (hw : bitOf (nth ws 0 0#32) 0 = true) (h : e ∈ [0, 3, 4]) : strokeJudge e 0x4A ws rest data = (stOK, e) := by
  simp only [List.mem_cons, List.not_mem_nil, or_false] at h
  rcases h with rfl | rfl | rfl <;> exact if_pos hw

theorem strokeJudge_hold_never (hw : bitOf (nth ws 0 0#32) 0 = false) (h : e ∈ [0, 1, 2]) : strokeJudge e 0x4A ws rest data = (stOK, e) := by
  simp only [List.mem_cons, List.not_mem_nil, or_false] at h
  rcases h with rfl | rfl | rfl <;> exact if_neg (Bool.eq_false_iff.mp hw)

theorem strokeJudge_flush_ok (h : e ∈ [0, 2, 4, 6]) : (strokeJudge e 0x4B ws rest data).1 = stOK := by
  simp only [List.mem_cons, List.not_mem_nil, or_false] at h
  rcases h with rfl | rfl | rfl | rfl <;> rfl

end

section

variable {s : State} {slot op : Nat} {ws : List Word}

/-- A command that its row accepts waits for the group's pass where it changes the state, and a FEED or a FLUSH always. -/
theorem strokeTable_accepts (hok : (strokeJudge (strokeEff s slot) op ws (strokeRest s slot) (strokeData s slot)).1 = stOK)
    (hacts : strokeEff s slot ≠ (strokeJudge (strokeEff s slot) op ws (strokeRest s slot) (strokeData s slot)).2 ∨ op = 0x49 ∨ op = 0x4B) :
    strokeTable s slot op ws = axisAccept s slot op ws := by
  have hidle : ¬ (strokeEff s slot = (strokeJudge (strokeEff s slot) op ws (strokeRest s slot) (strokeData s slot)).2 ∧ op ≠ 0x49 ∧ op ≠ 0x4B) := by
    rintro ⟨hst, hfeed, hflush⟩
    rcases hacts with h | h | h
    · exact h hst
    · exact hfeed h
    · exact hflush h
  simp only [strokeTable, if_neg (not_not.mpr hok), if_neg hidle]

/-- A START or a HOLD that leaves the state has no effect. -/
theorem strokeTable_idle (hrow : strokeJudge (strokeEff s slot) op ws (strokeRest s slot) (strokeData s slot) = (stOK, strokeEff s slot))
    (hfeed : op ≠ 0x49) (hflush : op ≠ 0x4B) : strokeTable s slot op ws = { st := s } := by
  simp [strokeTable, hrow, hfeed, hflush]

end

/-- STROKE_HOLD is what the table makes of it. -/
theorem exec_strokeHold_served {s : State} {r : Request} {w : Word} (hs : s.served) (hp : r.params = [w]) (hslot : slotCheck s r.target [11] = none) :
    exec (.strokeHold r) s = .next (respond r (strokeTable s r.target 0x4A [w])) := by
  rw [exec_of_served (c := .strokeHold r) rfl hs (by simp [hp]), opStrokeHold, orRefuse_of_none _ _ hslot, hp]

/-- Settles O31, command by command. -/
theorem gearsAndStrokes : Obligations.Gears_And_Strokes := by
  refine ⟨?engage, ?disengage, ?ratio, ?start, ?feed, ?hold, ?flush⟩
  case engage =>
    intro s r f ramp hs hlen hslot hresv hmode hramp hf32 hpos heff hfollows hst hgood hnear
    rw [exec_of_served (c := .gearEngage r) rfl hs (by simp [hlen]),
      opGearEngage_accepts hslot hresv hmode hramp hf32 hpos heff hfollows hst hgood hnear]
  case disengage =>
    intro s r w hs hslot
    have hexec (hlen : r.params.length = 1 ∨ r.params.length = 2) :
        exec (.gearDisengage r) s = .next (respond r (opGearDisengage r s)) := exec_of_served rfl hs (by simpa using hlen)
    refine ⟨fun hp hmode hcoupled hstays => ?_, fun v hp hmode hcam hf32 hpos hcoupled hstays => ?_,
      fun hp hmode hcoupled hstays hstill => ?_, fun hp hmode heff => ?_⟩
    · rw [hexec (by simp [hp]), opGearDisengage_accepts (w := w) (congrArg (nth · 0 0#32) hp) hslot (by omega) (by simp [hp, hmode]) (by omega)
        hcoupled hstays (by omega), hp]
    · have hp1 : r.p 1 = v := congrArg (nth · 1 0#32) hp
      rw [hexec (by simp [hp]), opGearDisengage_accepts (w := w) (congrArg (nth · 0 0#32) hp) hslot (by omega) (by simp [hp, hmode])
        (fun _ => hp1.symm ▸ ⟨hcam, hf32, hpos⟩) hcoupled hstays (by omega), hp]
    · rw [hexec (by simp [hp]), opGearDisengage_accepts (w := w) (congrArg (nth · 0 0#32) hp) hslot (by omega) (by simp [hp, hmode]) (by omega)
        hcoupled hstays (fun _ => hstill), hp]
    · rw [hexec (by simp [hp]), opGearDisengage_idle hp hslot hmode heff]
  case ratio =>
    intro s r num den rate hs hp hslot hden hf32 hrate heff
    rw [exec_of_served (c := .gearRatio r) rfl hs (by simp [hp]), opGearRatio_accepts hp hslot hden hf32 hrate heff]
  case start =>
    intro s r hs hp hslot
    rw [exec_of_served (c := .strokeStart r) rfl hs (by simp [hp]), opStrokeStart, orRefuse_of_none _ _ hslot]
    refine ⟨fun heff hready => ?_, fun heff => ?_⟩
    · have hrow := strokeJudge_start_from_off [] (strokeRest s r.target) (strokeData s r.target) heff
      rw [if_neg (by simp [hready]), strokeTable_accepts (by rw [hrow]) (.inl (by rw [hrow, heff]; decide))]
    · rw [if_neg (by omega), strokeTable_idle (strokeJudge_start_idle _ _ _ heff) (by decide) (by decide)]
  case feed =>
    intro s r w hs hp hslot hrange
    have hp0 : r.p 0 = w := congrArg (nth · 0 0#32) hp
    rw [exec_of_served (c := .strokeFeed r) rfl hs (by simp [hp]), opStrokeFeed, orRefuse_of_none _ _ hslot, hp0,
      if_neg (by simp [hrange]), hp, strokeTable_accepts rfl (.inr (.inl rfl))]
  case hold =>
    intro s r w hs hp hslot
    rw [exec_strokeHold_served hs hp hslot]
    refine ⟨fun hw heff => ?_, fun hw heff => ?_, fun hw heff => ?_, fun hw heff => ?_⟩
    · obtain ⟨n, hrow, hacts⟩ := strokeJudge_hold_stops [w] (strokeRest s r.target) (strokeData s r.target) hw heff
      rw [strokeTable_accepts (by rw [hrow]) (.inl (by rwa [hrow]))]
    · obtain ⟨n, hrow, hacts⟩ := strokeJudge_hold_ends [w] (strokeRest s r.target) (strokeData s r.target) hw heff
      rw [strokeTable_accepts (by rw [hrow]) (.inl (by rwa [hrow]))]
    · rw [strokeTable_idle (strokeJudge_hold_idle [w] _ _ hw heff) (by decide) (by decide)]
    · rw [strokeTable_idle (strokeJudge_hold_never [w] _ _ hw heff) (by decide) (by decide)]
  case flush =>
    intro s r hs hp hslot heff
    rw [exec_of_served (c := .strokeFlush r) rfl hs (by simp [hp]), opStrokeFlush, orRefuse_of_none _ _ hslot,
      strokeTable_accepts (strokeJudge_flush_ok _ _ _ heff) (.inr (.inr rfl))]

end Sys2Proof.Machine
end

section
/-! PROOF. O57, O54 and O19, the event unit: the order of the arbiter, what the arbiter's part of an occurrence leaves alone, the word that marks a
test, and then the commands (18_events.md R452 to R458). -/

namespace Sys2Proof.Machine

open Sys2Proof

/-! ### The order of the arbiter (R455) -/

/-- The arbiter may take `a` before `b`. -/
abbrev occBefore (a b : Occ) : Prop := a.ev < b.ev ∨ (a.ev = b.ev ∧ a.inst ≤ b.inst)

theorem occBefore_trans {a b c : Occ} (hab : occBefore a b) (hbc : occBefore b c) : occBefore a c := by
  unfold occBefore at *
  omega

theorem occInsert_perm (o : Occ) (l : List Occ) : (occInsert o l).Perm (o :: l) := by
  induction l with
  | nil => exact .refl _
  | cons x xs ih =>
    unfold occInsert
    split
    · exact .refl _
    · exact (ih.cons x).trans (.swap o x xs)

theorem occInsert_pairwise {o : Occ} {l : List Occ} (h : l.Pairwise occBefore) : (occInsert o l).Pairwise occBefore := by
  induction l with
  | nil => exact List.pairwise_singleton _ _
  | cons x xs ih =>
    obtain ⟨hx, hxs⟩ := List.pairwise_cons.mp h
    unfold occInsert
    split
    case isTrue hfirst =>
      have hox : occBefore o x := by
        simp only [Bool.or_eq_true, Bool.and_eq_true, decide_eq_true_eq, beq_iff_eq] at hfirst
        exact hfirst.imp_right fun ⟨hev, hinst⟩ => ⟨hev, hinst.le⟩
      exact List.pairwise_cons.mpr ⟨List.forall_mem_cons.mpr ⟨hox, fun y hy => occBefore_trans hox (hx y hy)⟩, h⟩
    case isFalse hlater =>
      have hxo : occBefore x o := by
        simp only [Bool.or_eq_true, Bool.and_eq_true, decide_eq_true_eq, beq_iff_eq] at hlater
        unfold occBefore
        omega
      refine List.pairwise_cons.mpr ⟨fun y hy => ?_, ih hxs⟩
      rcases List.mem_cons.mp ((occInsert_perm o xs).mem_iff.mp hy) with rfl | hmem
      · exact hxo
      · exact hx y hmem

/-- Occurrences inserted one by one into a sorted list: the list stays sorted and gains each of them. -/
theorem occInserts_sorted (l acc : List Occ) (h : acc.Pairwise occBefore) :
    (l.foldl (fun acc o => occInsert o acc) acc).Perm (l ++ acc) ∧ (l.foldl (fun acc o => occInsert o acc) acc).Pairwise occBefore := by
  induction l generalizing acc with
  | nil => exact ⟨.refl _, h⟩
  | cons o os ih =>
    obtain ⟨hperm, hsorted⟩ := ih (occInsert o acc) (occInsert_pairwise h)
    exact ⟨hperm.trans (((occInsert_perm o acc).append_left os).trans List.perm_middle), hsorted⟩

/-- Settles O57. -/
theorem arbiterOrder : Obligations.Arbiter_Order := by
  intro l
  obtain ⟨hperm, hsorted⟩ := occInserts_sorted l [] List.Pairwise.nil
  exact ⟨hperm.trans (.of_eq (List.append_nil l)), hsorted⟩

/-! ### What the arbiter's part of an occurrence leaves (R453 to R456) -/

/-- The registers of the event unit and of the event rings 16 to 19. -/
def evtUnitReg (a : Nat) : Prop := (0x020000 ≤ a ∧ a < 0x020800) ∨ (0x300200 ≤ a ∧ a < 0x300280)

/-- What neither the event unit nor its rings are part of. -/
structure LeftByEvents {γ : Type} (k : State → γ) : Prop where
  reg : ∀ t a x, evtUnitReg a → k (State.setReg t a x) = k t
  cmd : ∀ t x, k (State.withCmd t x) = k t
  evt : ∀ t x, k (State.withEvt t x) = k t

/-- A register outside them. -/
theorem leftByEvents_reg {a : Nat} (h : ¬ evtUnitReg a) : LeftByEvents (State.reg · a) :=
  ⟨fun _ _ _ hb => State.reg_setReg_ne _ _ _ _ fun he => h (he ▸ hb), fun _ _ => rfl, fun _ _ => rfl⟩

section

variable {γ : Type} {k : State → γ} (hk : LeftByEvents k)

include hk

theorem setFld_leftByEvents (s : State) (f : RF) (v : Nat) (h : evtUnitReg f.addr) : k (s.setFld f v) = k s := hk.reg _ _ _ h

section

variable {n : Nat} (hn : 16 ≤ n ∧ n < 20)

include hn

omit hk in
/-- A register of an event ring. -/
theorem evtUnitReg_of_ring {a : Nat} (h : ringReg n a) : evtUnitReg a := by
  obtain ⟨hlo, hhi⟩ := hn
  unfold ringReg at h
  unfold evtUnitReg
  omega

theorem setFld_ring_leftByEvents (s : State) (f : RF) (v : Nat) (h : ringReg n f.addr) : k (s.setFld f v) = k s :=
  setFld_leftByEvents hk s f v (evtUnitReg_of_ring hn h)

theorem ringSetEnts_leftByEvents (s : State) (es : List Ent) : k (ringSetEnts s n es) = k s := by
  have hset (w : Nat) (up : Bool) := calc
    k ((((((s.withCmd { s.cmd with ents := tblPut s.cmd.ents n es [] }).setFld (R.ringFill_WORDS n) w).setFld (R.ringFill_ENTRIES n) es.length).setFlag
        (R.ringStat_EMPTY n) es.isEmpty).setFlag (R.ringStat_ABOVE n) up))
      = _ := setFld_ring_leftByEvents hk hn _ (R.ringStat_ABOVE n) _ (ringReg_stat n)
    _ = _ := setFld_ring_leftByEvents hk hn _ (R.ringStat_EMPTY n) _ (ringReg_stat n)
    _ = _ := setFld_ring_leftByEvents hk hn _ (R.ringFill_ENTRIES n) _ (ringReg_fill n)
    _ = _ := setFld_ring_leftByEvents hk hn _ (R.ringFill_WORDS n) _ (ringReg_fill n)
    _ = k s := hk.cmd ..
  unfold ringSetEnts
  extract_lets w th up was s1 s2 s3
  split
  · exact (hk.evt ..).trans (hset ..)
  · exact hset ..

omit hn in
theorem ringCopyIn_leftByEvents (s : State) (off : Nat) (ws : List Word) : k (ringCopyIn s n off ws) = k s := by
  induction ws generalizing s off with
  | nil => rfl
  | cons x xs ih => exact (ih _ _).trans (hk.cmd ..)

theorem ringStore_leftByEvents (s : State) (ws : List Word) (e : Ent) : k (ringStore s n ws e) = k s :=
  (ringSetEnts_leftByEvents hk hn _ _).trans
    ((setFld_ring_leftByEvents hk hn _ (R.ringHead_HEAD n) _ (ringReg_head n)).trans (ringCopyIn_leftByEvents hk ..))

theorem ringDrop_leftByEvents (s : State) : k (ringDrop s n) = k s := by
  unfold ringDrop
  split
  · rfl
  · exact (ringSetEnts_leftByEvents hk hn _ _).trans (setFld_ring_leftByEvents hk hn _ (R.ringTail_TAIL n) _ (ringReg_tail n))

theorem ringMakeRoom_leftByEvents (need fuel j : Nat) (s : State) : k (ringMakeRoom s n need fuel j).1 = k s := by
  induction fuel generalizing s j with
  | zero => rfl
  | succ fuel ih =>
    unfold ringMakeRoom
    split
    · rfl
    · exact (ih _ _).trans (ringDrop_leftByEvents hk hn s)

omit hn in
theorem ring253_leftByEvents (s : State) : k (ring253 s n) = k s := by
  unfold ring253
  dsimp only
  split_ifs
  · rfl
  · exact (hk.evt ..).trans ((hk.evt ..).trans (hk.cmd ..))
  · rfl

theorem ringLose_leftByEvents (s : State) (j : Nat) : k (ringLose s n j) = k s := by
  unfold ringLose
  split
  · rfl
  · exact (ring253_leftByEvents hk _).trans ((hk.cmd ..).trans
      ((setFld_ring_leftByEvents hk hn _ (R.ringStat_OVF n) _ (ringReg_stat n)).trans
        (setFld_ring_leftByEvents hk hn _ (R.ringDrops_DROPS n) _ (ringReg_drops n))))

/-- A record offered to an event ring (R103). -/
theorem evtRingPut_leftByEvents (s : State) (dt : Tick) (noclk : Bool) (rec4 : List Word) : k (evtRingPut s n dt noclk rec4) = k s := by
  unfold evtRingPut
  extract_lets lost lose ovf need s1 cmd1 r
  have hlose (u : State) (j : Nat) : k (lose u j) = k u := (ringLose_leftByEvents hk hn _ _).trans (hk.cmd ..)
  have hstore (u : State) (c : CmdS) (ws : List Word) (e : Ent) : k (ringStore (u.withCmd c) n ws e) = k u :=
    (ringStore_leftByEvents hk hn _ _ _).trans (hk.cmd ..)
  have hroom : k r.1 = k s := ringMakeRoom_leftByEvents hk hn ..
  have hbehind : k s1 = k s := by
    simp only [s1]
    split
    · rfl
    · exact ringStore_leftByEvents hk hn ..
  split_ifs
  · exact (hstore ..).trans hbehind
  · exact (hstore ..).trans ((ringStore_leftByEvents hk hn ..).trans ((hlose ..).trans hroom))
  · exact (hlose ..).trans hroom
  · exact hlose ..

end

/-- A record in the rings its event is routed to, counted (R453). -/
theorem evtWrite_leftByEvents (s : State) (ev : Nat) (dt : Tick) (rec4 : List Word) : k (evtWrite s ev dt rec4) = k s := by
  refine (setFld_leftByEvents hk _ R.evtCnt_RECORDS _ (.inl (by decide))).trans ?_
  refine List.foldlRecOn (motive := fun t => k t = k s) _ _ rfl fun t ht r hr => ?_
  have hr4 := List.mem_range.mp hr
  split
  · exact (evtRingPut_leftByEvents hk ⟨by omega, by omega⟩ ..).trans ht
  · exact ht

theorem holdEnd_leftByEvents (s : State) (ev : Nat) : k (holdEnd s ev) = k s := by
  unfold holdEnd
  split
  · rfl
  · split
    · exact hk.evt ..
    · exact (hk.evt ..).trans (evtWrite_leftByEvents hk ..)

/-- An occurrence at the arbiter: its status bit, its record or its place in a hold-off. -/
theorem evtTake_leftByEvents (s : State) (o : Occ) : k (evtTake s o) = k s := by
  unfold evtTake
  split
  case isTrue => rfl
  case isFalse hdefined =>
    have hstat : evtUnitReg (R.evtStat (o.ev / 32)) := by
      simp only [evDefined, Bool.not_eq_true', Bool.not_eq_false, Bool.or_eq_true, Bool.and_eq_true, decide_eq_true_eq] at hdefined
      simp only [evtUnitReg, R.evtStat]
      omega
    extract_lets s1 s2
    have h1 : k s1 = k s := setFld_leftByEvents hk s ⟨R.evtStat (o.ev / 32), o.ev % 32, 1⟩ _ hstat
    have h2 : k s2 = k s := by
      simp only [s2]
      split
      · split
        · exact (holdEnd_leftByEvents hk ..).trans h1
        · exact h1
      · exact h1
    split
    · split
      · exact (evtWrite_leftByEvents hk ..).trans ((hk.evt ..).trans h2)
      · exact (setFld_leftByEvents hk _ R.evtCnt_SUPPRESSED _ (.inl (by decide))).trans ((hk.evt ..).trans h2)
    · exact (hk.evt ..).trans ((evtWrite_leftByEvents hk ..).trans h2)

/-- A test goes no further than the event unit (R458). -/
theorem evtOne_test_leftByEvents (s : State) {o : Occ} (ho : o.test = true) : k (evtOne s o) = k s := by
  unfold evtOne
  rw [if_pos (.inl ho)]
  exact evtTake_leftByEvents hk s o

end

/-! ### EVT.TEST (R458) -/

theorem evtTestWrite_raises {w : Word} (s : State) (hgo : bitOf w 31 = true) (hdef : evDefined (bitsOf w 0 8) = true) :
    evtTestWrite s w = { st := s.raiseAll [{ ev := bitsOf w 0 8, inst := 0xFFFF, detail := 0#32, test := true }] } := by
  simp [evtTestWrite, hgo, hdef]

theorem evtTestWrite_refuses {w : Word} (s : State) (hgo : bitOf w 31 = true) (hdef : evDefined (bitsOf w 0 8) = false) :
    evtTestWrite s w = refuse s stBAD_PARAM := by
  simp [evtTestWrite, hgo, hdef]

/-- A write of EVT.TEST is the event unit's. -/
theorem regWrite_evtTest (s : State) (w : Word) : regWrite s R.evtTest w = evtTestWrite s w := by
  have hblock : blockWrite s R.evtTest w = some (evtTestWrite s w) := rfl
  have hrow : (regRow R.evtTest).isSome = true := by decide
  obtain ⟨row, hrow⟩ := Option.isSome_iff_exists.mp hrow
  unfold regWrite
  rw [if_neg (by decide), if_neg (by decide), if_neg (by decide), if_neg (by decide), hrow, hblock]
  rfl

/-- Bit 21 of a record's last word says that a test made it (R454). -/
theorem evtRecord_test (dt : Tick) (inst ev count : Nat) (detail : Word) (noclk coal test : Bool) :
    bitOf (nth (evtRecord dt inst detail ev noclk coal test count) 3 0#32) 21 = test := by
  have hbit : bitOf (nth (evtRecord dt inst detail ev noclk coal test count) 3 0#32) 21
      = (ev * 2 ^ 24 + b2n noclk * 2 ^ 23 + b2n coal * 2 ^ 22 + b2n test * 2 ^ 21 + min count 65535).testBit 21 :=
    (BitVec.getLsbD_ofNat ..).trans (Bool.true_and _)
  rw [hbit, Nat.testBit_eq_decide_div_mod_eq]
  generalize b2n noclk = n, b2n coal = c
  have hfalse : b2n false = 0 := rfl
  have htrue : b2n true = 1 := rfl
  cases test
  · exact decide_eq_false (by omega)
  · exact decide_eq_true (by omega)

/-- Settles O54: what the register does, the mark of a record, and what a test leaves alone. -/
theorem eventTestRule : Obligations.Event_Test_Rule := by
  refine ⟨?raises, ?refuses, ?marks, ?leaves⟩
  case raises => exact fun s w hgo hdef => congrArg (Host.Outcome.next ∘ Res.st) (evtTestWrite_raises s hgo hdef)
  case refuses =>
    intro s w hgo hdef
    have hrefused := evtTestWrite_refuses s hgo hdef
    exact ⟨congrArg (Host.Outcome.next ∘ Res.st) hrefused, (regWrite_evtTest s w).trans hrefused⟩
  case marks => exact fun dt inst ev count detail noclk coal test => evtRecord_test ..
  case leaves =>
    intro s o ho
    refine ⟨fun a hevt hring => evtOne_test_leftByEvents (leftByEvents_reg ?_) s ho, ?_⟩
    · rintro (⟨hlo, hhi⟩ | ⟨hlo, hhi⟩) <;> omega
    · refine ⟨?_, ?_, ?_, ?_, ?_, ?_, ?_, ?_, ?_, ?_, ?_, ?_, ?_, ?_, ?_, ?_, ?_, ?_, ?_, ?_, ?_⟩ <;>
        exact evtOne_test_leftByEvents ⟨fun _ _ _ _ => rfl, fun _ _ => rfl, fun _ _ => rfl⟩ s ho

/-! ### The commands of the event unit and the monitors -/

/-- The interrupt pins show in `EVT.IRQCTRL` alone (R457). -/
theorem irqUpdate_left {γ : Type} {k : State → γ} (hk : ∀ t a x, (∃ m, a = R.evtIrqctrl m) → k (State.setReg t a x) = k t) (s : State) :
    k (irqUpdate s) = k s := by
  refine foldl_keep _ k (fun t m => ?_) _ s
  have hset (u : State) (f : RF) (v : Nat) (hf : f.addr = R.evtIrqctrl m) : k (u.setFld f v) = k u := hk _ _ _ ⟨m, hf⟩
  have hpins (b : Bool) : k ((t.setFlag (R.evtIrqctrl_ASSERTED m) b).setFlag (R.evtIrqctrl_PEND m) b) = k t :=
    (hset _ (R.evtIrqctrl_PEND m) _ rfl).trans (hset _ (R.evtIrqctrl_ASSERTED m) _ rfl)
  dsimp only
  split
  · exact (hset _ (R.evtIrqctrl_SRC m) _ rfl).trans (hpins _)
  · exact hpins _

theorem evtIrqctrl_ne_evtStat {i : Nat} (hi : i < 8) (m : Nat) : R.evtIrqctrl m ≠ R.evtStat i := by
  simp only [R.evtIrqctrl, R.evtStat]
  omega

/-- A measurement of the case that crosses no limit adds to the time above it at most (R452). -/
theorem caseMeasure_stays {s : State} {c : BitVec 16} (h : decide (caseMax < c.toInt) = s.boot.hot) :
    caseMeasure s c = if caseMax < c.toInt then s.withKeep { s.keep with hot := s.keep.hot + 1 } else s := by
  unfold caseMeasure
  extract_lets hot keep s1
  rw [if_pos h]
  simp [s1, hot, keep]

/-- A measurement of the case that crosses its limit is told (R452). -/
theorem caseMeasure_crosses {s u : State} {c : BitVec 16} (h : decide (caseMax < c.toInt) ≠ s.boot.hot)
    (hu : u = if caseMax < c.toInt then s.withKeep { s.keep with hot := s.keep.hot + 1 } else s) :
    caseMeasure s c = (u.withBoot { s.boot with hot := !s.boot.hot }).raiseLim 2 0 (wd (b2n (!s.boot.hot) * 2 ^ 31 + c.toNat)) (1000 * msTicks) := by
  have hnew : decide (caseMax < c.toInt) = !s.boot.hot := Bool.eq_not.mpr h
  have hboot : u.boot = s.boot := by
    rw [hu]
    split <;> rfl
  have hbranch : caseMeasure s c = (u.withBoot { u.boot with hot := decide (caseMax < c.toInt) }).raiseLim 2 0
      (wd (b2n (decide (caseMax < c.toInt)) * 2 ^ 31 + c.toNat)) (1000 * msTicks) := by
    unfold caseMeasure
    simp only [decide_eq_true_eq, ← hu]
    exact if_neg h
  rw [hbranch, hnew, hboot]

/-- Settles O19, command by command. -/
theorem eventUnit : Obligations.Event_Unit := by
  refine ⟨?arbiter, ?holdoff, ?clear, ?test, ?rails, ?temperature⟩
  case arbiter => exact fun s hserves => congrArg Host.Outcome.next (if_pos hserves)
  case holdoff =>
    intro s e h hwin hvalid hserves
    refine congrArg Host.Outcome.next ?_
    unfold holdoffEnd
    simp [hwin, hvalid, hserves]
  case clear =>
    intro s i w
    refine ⟨_, rfl, ?_, fun j hj hne => ?_, ?_, ?_⟩
    · refine (irqUpdate_left (k := (State.reg · (R.evtStat i.val))) (fun t a x ⟨m, ha⟩ => ?_) _).trans (State.reg_setReg_same ..)
      exact State.reg_setReg_ne _ _ _ _ (ha ▸ evtIrqctrl_ne_evtStat i.isLt m)
    · refine (irqUpdate_left (k := (State.reg · (R.evtStat j))) (fun t a x ⟨m, ha⟩ => ?_) _).trans (State.reg_setReg_ne _ _ _ _ ?_)
      · exact State.reg_setReg_ne _ _ _ _ (ha ▸ evtIrqctrl_ne_evtStat hj m)
      · simp only [R.evtStat]
        omega
    · exact irqUpdate_left (k := State.evt) (fun _ _ _ _ => rfl) _
    · exact irqUpdate_left (k := State.loop) (fun _ _ _ _ => rfl) _
  case test => exact fun s w hgo hdef => congrArg (Host.Outcome.next ∘ Res.st) (evtTestWrite_raises s hgo hdef)
  case rails => exact fun s a b c d e hcore => congrArg Host.Outcome.next (if_pos hcore)
  case temperature =>
    rintro s u c hcore hu
    have hexec : exec (.caseTempMeasurement c) s = .next (caseMeasure s c) := congrArg Host.Outcome.next (if_pos hcore)
    rw [hexec]
    exact ⟨fun h => congrArg Host.Outcome.next ((caseMeasure_stays h).trans hu.symm), fun h => congrArg Host.Outcome.next (caseMeasure_crosses h hu)⟩

end Sys2Proof.Machine
end

section
/-! PROOF. O21, Inkwell: what arming, an interface failure and a readout make of sessions and registers, and then the commands
(12_inkwell_capture.md R304, R313, R314, R316, R317, R322, R323). -/

namespace Sys2Proof.Machine

open Sys2Proof

/-! ### The registers of sessions and channels -/

theorem inkSstat_inj {p q : Nat} (h : p ≠ q) : R.inkSstat p ≠ R.inkSstat q := by
  simp only [R.inkSstat]
  omega

theorem inkCstat_inj {c d : Nat} (h : c ≠ d) : R.inkCstat c ≠ R.inkCstat d := by
  simp only [R.inkCstat]
  omega

theorem inkSstat_ne_inkCstat (q c : Nat) : R.inkSstat q ≠ R.inkCstat c := by
  simp only [R.inkSstat, R.inkCstat]
  omega

theorem inkGstat_ne_inkSstat (q : Nat) : R.inkGstat ≠ R.inkSstat q := by
  simp only [R.inkGstat, R.inkSstat]
  omega

/-- A change of a session's state shows in STATE, and leaves the states of the others. -/
theorem inkState_inkSetState (s : State) (p q st : Nat) : inkState (inkSetState s p st) q = if q = p then st % 16 else inkState s q := by
  unfold inkSetState
  extract_lets old
  split
  case isTrue hold =>
    split
    case isTrue hq =>
      have hlt : inkState s p < 16 := bitsOf_lt (s.reg (R.inkSstat p)) 28 4 (by decide)
      have hst : inkState s p = st := hold
      rw [hq, ← hst, Nat.mod_eq_of_lt hlt]
    case isFalse => rfl
  case isFalse =>
    split
    case isTrue hq =>
      subst hq
      exact State.fld_put s (R.inkSstat_STATE q) st rfl
    case isFalse hq => exact State.fld_setFld_ne s (R.inkSstat_STATE p) (R.inkSstat_STATE q) st (inkSstat_inj (Ne.symm hq))

/-! ### Readouts that are abandoned (R317, R322) -/

theorem inkReadAbandon_regs (s : State) (p : InkRead → Bool) : (inkReadAbandon s p).regs = s.regs := by
  refine foldl_keep _ State.regs ?_ _ _
  exact fun _ _ => rfl

theorem inkReadAbandon_reads (s : State) (p : InkRead → Bool) : (inkReadAbandon s p).ink.reads = s.ink.reads.filter (fun r => !p r) := by
  refine foldl_keep _ (fun t : State => t.ink.reads) ?_ _ _
  exact fun _ _ => rfl

/-! ### INK_ARM (R313, R317) -/

/-- The pages a channel needs are told, and its count of skipped steps starts again. -/
def inkChanArmed (s : State) (q : Nat) (t : State) (c : Nat) : State := (t.setFld (R.inkCstat_NEED c) (inkNeed s q c)).setFld (R.inkCstat_SKIPS c) 0

theorem inkChanArmed_skips (s : State) (q : Nat) (t : State) (c d : Nat) :
    (inkChanArmed s q t c).fld (R.inkCstat_SKIPS d) = if d = c then 0 else t.fld (R.inkCstat_SKIPS d) := by
  unfold inkChanArmed
  split
  case isTrue hd =>
    subst hd
    exact State.fld_put _ (R.inkCstat_SKIPS d) 0 rfl
  case isFalse hd =>
    have hne : R.inkCstat c ≠ R.inkCstat d := inkCstat_inj (Ne.symm hd)
    exact (State.fld_setFld_ne _ (R.inkCstat_SKIPS c) (R.inkCstat_SKIPS d) _ hne).trans
      (State.fld_setFld_ne _ (R.inkCstat_NEED c) (R.inkCstat_SKIPS d) _ hne)

theorem inkChansArmed_skips (s : State) (q : Nat) {l : List Nat} (t : State) {c : Nat} (h : c ∈ l) :
    (l.foldl (inkChanArmed s q) t).fld (R.inkCstat_SKIPS c) = 0 :=
  foldl_puts (f := inkChanArmed s q) (g := (State.fld · (R.inkCstat_SKIPS c))) (x := c) (fun t => (inkChanArmed_skips s q t c c).trans (if_pos rfl))
    (fun t d hd => (inkChanArmed_skips s q t d c).trans (if_neg hd.symm)) l t (.inl h)

/-- A session emptied for INK_ARM: its readouts abandoned, its channels told their pages, no record and no count left. -/
def inkEmptied (s : State) (q : Nat) : State :=
  let t := (inkChans s q).foldl (inkChanArmed s q) (inkReadAbandon s (fun x => x.sess == q))
  ((t.setInkS q { t.inkS q with recs := [] }).setFld (R.inkSstat_FULL q) 0).setFld (R.inkSstat_MISSED q) 0

/-- Whether or not the list of sessions reaches that far, a session put without records has none. -/
theorem setInkS_recs_nil (s : State) (q : Nat) (x : InkSess) (h : x.recs = []) : ((s.setInkS q x).inkS q).recs = [] := by
  by_cases hq : q < s.ink.sess.length
  · exact (congrArg InkSess.recs (nth_setAt_same s.ink.sess q x {} hq)).trans h
  · have houtside : (s.setInkS q x).inkS q = {} := by simp [State.setInkS, State.inkS, nth, setAt, List.getD, hq]
    rw [houtside]

theorem inkEmptied_recs (s : State) (q : Nat) : ((inkEmptied s q).inkS q).recs = [] := setInkS_recs_nil _ q _ rfl

theorem inkEmptied_full (s : State) (q : Nat) : (inkEmptied s q).fld (R.inkSstat_FULL q) = 0 :=
  (State.fld_beside _ (R.inkSstat_MISSED q) (R.inkSstat_FULL q) _ rfl rfl rfl).trans (State.fld_put _ (R.inkSstat_FULL q) 0 rfl)

theorem inkEmptied_missed (s : State) (q : Nat) : (inkEmptied s q).fld (R.inkSstat_MISSED q) = 0 :=
  State.fld_put _ (R.inkSstat_MISSED q) 0 rfl

theorem inkEmptied_skips (s : State) {q c : Nat} (hc : c ∈ inkChans s q) : (inkEmptied s q).fld (R.inkCstat_SKIPS c) = 0 :=
  ((State.fld_setFld_ne _ (R.inkSstat_MISSED q) (R.inkCstat_SKIPS c) _ (inkSstat_ne_inkCstat q c)).trans
    (State.fld_setFld_ne _ (R.inkSstat_FULL q) (R.inkCstat_SKIPS c) _ (inkSstat_ne_inkCstat q c))).trans
    (inkChansArmed_skips s q _ hc)

theorem opInkArm_arms {s : State} {r : Request} (hclk : inkDown s = false) (hq : r.target ≤ 3) (hgood : inkArmBad s r.target = false)
    (hquiet : inkQuiet s r.target = true) :
    opInkArm r s = { st := inkArmRec (inkEmptied s r.target) r.target 0 (if s.fld (R.inkScfg_MODE r.target) = 3 then 5 else 1) } := by
  have hidle : ¬ (inkState s r.target = 1 ∨ inkState s r.target = 2 ∨ inkState s r.target = 3 ∨ inkState s r.target = 5) := by
    simp only [inkQuiet, Bool.or_eq_true, beq_iff_eq] at hquiet
    omega
  unfold opInkArm
  extract_lets q
  rw [if_neg (by simp [hclk]), if_neg (by omega), if_neg (by simp [q, hgood]), if_neg hidle]
  rfl

/-! ### An interface failure (R322) -/

/-- A session that is not IDLE enters FAULT, its records discarded. -/
def inkFailed (t : State) (q : Nat) : State :=
  if inkState t q = 0 then t else inkSetState ((t.setInkS q {}).setFld (R.inkSstat_FULL q) 0) q 7

theorem inkFailed_state (t : State) (p q : Nat) : inkState (inkFailed t p) q = if q = p ∧ inkState t q ≠ 0 then 7 else inkState t q := by
  unfold inkFailed
  by_cases hp : q = p
  · subst hp
    by_cases hidle : inkState t q = 0
    · simp [hidle]
    · rw [if_neg hidle, inkState_inkSetState, if_pos rfl, if_pos ⟨rfl, hidle⟩]
  · have hother : inkState ((t.setInkS p {}).setFld (R.inkSstat_FULL p) 0) q = inkState t q :=
      State.fld_setFld_ne _ (R.inkSstat_FULL p) (R.inkSstat_STATE q) _ (inkSstat_inj (Ne.symm hp))
    have hnone : ¬ (q = p ∧ inkState t q ≠ 0) := fun h => hp h.1
    rw [if_neg hnone]
    split
    · rfl
    · rw [inkState_inkSetState, if_neg hp, hother]

theorem inkFailures_state (l : List Nat) (t : State) (q : Nat) (hq : q ∈ l ∨ inkState t q = 0 ∨ inkState t q = 7) :
    inkState (l.foldl inkFailed t) q = if inkState t q = 0 then 0 else 7 := by
  induction l generalizing t with
  | nil =>
    rcases hq.resolve_left List.not_mem_nil with h | h <;> simp [h]
  | cons p l ih =>
    have hstep := inkFailed_state t p q
    by_cases hidle : inkState t q = 0
    · have hstays : inkState (inkFailed t p) q = 0 := by simp [hstep, hidle]
      rw [List.foldl_cons, ih _ (.inr (.inl hstays)), hstays, hidle]
    · by_cases hp : q = p
      · have hfault : inkState (inkFailed t p) q = 7 := hstep.trans (if_pos ⟨hp, hidle⟩)
        rw [List.foldl_cons, ih _ (.inr (.inr hfault)), hfault, if_neg hidle]
        rfl
      · have hstays : inkState (inkFailed t p) q = inkState t q := hstep.trans (if_neg fun h => hp h.1)
        rw [List.foldl_cons, ih _ (hstays ▸ hq.imp_left fun hmem => (List.mem_cons.mp hmem).resolve_left hp), hstays]

theorem inkFailed_reads (t : State) (q : Nat) : (inkFailed t q).ink.reads = t.ink.reads := by
  unfold inkFailed inkSetState
  dsimp only
  split_ifs <;> rfl

/-- What an interface failure makes of the sessions and the readouts, before it is told. -/
def inkBroken (s : State) : State := ((List.range 4).foldl inkFailed (inkReadAbandon s (fun _ => true))).setFlag R.inkGstat_IFAULT true

theorem inkBroken_state (s : State) {q : Nat} (hq : q < 4) : inkState (inkBroken s) q = if inkState s q = 0 then 0 else 7 := by
  have habandoned : inkState (inkReadAbandon s (fun _ => true)) q = inkState s q :=
    (RegsIn.of_regs (P := fun _ => False) (inkReadAbandon_regs s _)).fld_eq (f := R.inkSstat_STATE q) id
  exact (State.fld_setFlag_ne _ R.inkGstat_IFAULT (R.inkSstat_STATE q) true (inkGstat_ne_inkSstat q)).trans
    (by rw [← habandoned]; exact inkFailures_state _ _ q (.inl (List.mem_range.mpr hq)))

theorem inkBroken_reads (s : State) : (inkBroken s).ink.reads = [] :=
  (foldl_keep inkFailed (fun t => t.ink.reads) inkFailed_reads _ _).trans ((inkReadAbandon_reads s _).trans (List.filter_false _))

/-! ### INK_READ (R323) -/

/-- INK_READ of a record that is closed, or that a ROLLING session fills, and holds pages starts a readout of its channels. -/
theorem opInkRead_starts {s : State} {r : Request} {p a b c d : Word} {rc : InkRec} {open_ : Bool} (hp : r.params = [p, a, b, c, d])
    (hclk : inkDown s = false) (hq : r.target ≤ 3) (hdest : bitsOf p 28 4 ≤ 3) (hresv : bitsOf p 1 7 = 0)
    (hrec : bitsOf p 24 4 ≤ s.fld (R.inkScfg_NREC r.target)) (hring : bitsOf p 28 4 = 0 → 36 ≤ bitsOf p 8 8 ∧ bitsOf p 8 8 ≤ 43)
    (hch : bitsOf p 16 8 = 0xFF ∨ (inkChans s r.target).contains (bitsOf p 16 8) = true) (hspan : join64 a b ≤ join64 c d)
    (hfree : s.ink.reads.any (fun x => x.dest == bitsOf p 28 4 && (bitsOf p 28 4 != 0 || x.ring == bitsOf p 8 8)) = false)
    (hfound : (s.inkS r.target).recs.find? (fun x => x.num == bitsOf p 24 4) = some rc)
    (hopen : open_ = (inkFilling s r.target && s.fld (R.inkSstat_WREC r.target) == bitsOf p 24 4)) (hclosed : open_ = false ∨ inkState s r.target = 5)
    (hholds : rc.chans.all (fun x => x.pages.isEmpty) = false) :
    opInkRead r s = { st := inkPump (s.withInk { s.ink with reads := s.ink.reads ++ [
      { sess := r.target, rec_ := bitsOf p 24 4, dest := bitsOf p 28 4, ring := bitsOf p 8 8, release := bitOf p 0,
        out := (rc.chans.filter (fun x => bitsOf p 16 8 == 0xFF || x.ch == bitsOf p 16 8)).flatMap
          (readChan s r.target rc open_ (join64 a b) (join64 c d)) }] }) } := by
  have hp0 : r.p 0 = p := congrArg (nth · 0 0#32) hp
  have hp1 : r.p 1 = a := congrArg (nth · 1 0#32) hp
  have hp2 : r.p 2 = b := congrArg (nth · 2 0#32) hp
  have hp3 : r.p 3 = c := congrArg (nth · 3 0#32) hp
  have hp4 : r.p 4 = d := congrArg (nth · 4 0#32) hp
  have hform : ¬ (3 < bitsOf p 28 4 ∨ bitsOf p 1 7 ≠ 0 ∨ s.fld (R.inkScfg_NREC r.target) < bitsOf p 24 4
      ∨ (bitsOf p 28 4 = 0 ∧ (bitsOf p 8 8 < 36 ∨ 43 < bitsOf p 8 8))
      ∨ (bitsOf p 16 8 ≠ 0xFF ∧ (!(inkChans s r.target).contains (bitsOf p 16 8)) = true) ∨ join64 c d < join64 a b) := by
    rintro (h | h | h | ⟨h, hout⟩ | ⟨h, hnone⟩ | h)
    · omega
    · exact h hresv
    · omega
    · have := hring h
      omega
    · rw [hch.resolve_left h] at hnone
      exact Bool.false_ne_true hnone
    · exact absurd h (BitVec.not_lt.mpr hspan)
  unfold opInkRead
  simp only [hp0, hp1, hp2, hp3, hp4]
  rw [if_neg (by simp [hclk]), if_neg (by omega), if_neg hform, if_neg (by simp [hfree]), hfound]
  dsimp only
  rw [← hopen, if_neg]
  rintro (⟨hfills, hrolls⟩ | hempty)
  · rcases hclosed with h | h
    · exact Bool.false_ne_true (h ▸ hfills)
    · exact hrolls h
  · exact Bool.false_ne_true (hholds ▸ hempty)

/-- A session's readout that has written everything ends (R323). -/
theorem inkReadDone_ends {s u : State} {q : Nat} (single double : Nat) {r : InkRead} (hu : u = inkPump s)
    (hfound : u.ink.reads.find? (fun x => x.sess == q && x.out.isEmpty) = some r) :
    inkReadDone s q single double = (if r.release then inkRelease (inkEccErrors (u.withInk { u.ink with reads := u.ink.reads.filter (· != r) }) q single double) q r.rec_
      else inkEccErrors (u.withInk { u.ink with reads := u.ink.reads.filter (· != r) }) q single double).raise 180 q (wd (min 255 double * 256)) := by
  subst hu
  simp only [inkReadDone, hfound]

/-- Settles O21, command by command. -/
theorem inkwellCommands : Obligations.Inkwell_Commands := by
  refine ⟨?tokens, ?arm, ?force, ?stop, ?complete, ?auto, ?failure, ?done, ?read⟩
  case tokens => exact fun s => rfl
  case arm =>
    intro s r hs hp hclk hq hgood hquiet
    refine ⟨inkEmptied s r.target, ?_, inkEmptied_recs s _, inkEmptied_full s _, inkEmptied_missed s _, fun c hc => inkEmptied_skips s hc⟩
    rw [exec_of_served (c := .inkArm r) rfl hs (by simp [hp]), opInkArm_arms hclk hq hgood hquiet]
  case force =>
    intro s r hs hp hclk hq
    rw [exec_of_served (c := .inkForce r) rfl hs (by simp [hp]), opInkForce, if_neg (by simp [hclk]), if_neg (by omega)]
    refine ⟨fun hst => by simp only [hst], fun hst => ?_⟩
    rcases hst with hst | hst <;> simp only [hst]
  case stop =>
    intro s r hs hp hclk hq
    rw [exec_of_served (c := .inkStop r) rfl hs (by simp [hp]), opInkStop, if_neg (by simp [hclk]), if_neg (by omega)]
    refine ⟨fun hst => by simp only [hst], fun hst => ?_, fun hst => by simp only [hst]⟩
    rcases hst with hst | hst <;> simp only [hst]
  case complete =>
    rintro s u q r hst hcomplete hcur rfl
    have hexec : exec (.inkRecordComplete q) s = .next (inkRecordComplete s q.val) := rfl
    rw [hexec, inkRecordComplete, if_neg (by simp [hst, hcomplete]), hcur]
    exact ⟨fun hmode => congrArg Host.Outcome.next (if_pos hmode), fun hmode => congrArg Host.Outcome.next (if_neg hmode)⟩
  case auto => exact fun s q hst hmode hvalid => congrArg Host.Outcome.next (if_pos ⟨hst, hmode, hvalid⟩)
  case failure =>
    intro s
    exact ⟨_, inkBroken s, rfl, rfl, State.flag_setFlag_same _ R.inkGstat_IFAULT true (by decide) rfl, inkBroken_reads s,
      fun q hq => inkBroken_state s hq⟩
  case done =>
    rintro s u v q single double r hu hfound rfl
    exact congrArg Host.Outcome.next (inkReadDone_ends single double hu hfound)
  case read =>
    intro s r p a b c d rc open_ hs hp hclk hq hdest hresv hrec hring hch hspan hfree hfound hopen hclosed hholds
    rw [exec_of_served (c := .inkRead r) rfl hs (by simp [hp]),
      opInkRead_starts hp hclk hq hdest hresv hrec hring hch hspan hfree hfound hopen hclosed hholds]

end Sys2Proof.Machine
end

section
/-! PROOF. O32 and O33, the field interface: what follows of a channel where its outputs or its levels are shown anew, then heartbeats and link, and
then the commands of channels (14_field_io.md R362 to R375). -/

namespace Sys2Proof.Machine

open Sys2Proof

/-! ### ON, SAFE_HELD and `FIELD.OUT` follow the outputs (R369, R373) -/

/-- A field that ON and SAFE_HELD of the channels and `FIELD.OUT` have no bit of. -/
def fioUnshown (f : RF) : Prop :=
  f.addr ≠ R.fieldOut ∧ ((∀ n, n < 32 → R.fieldChst n ≠ f.addr) ∨ (f.fits = true ∧ RF.apart ⟨f.addr, 29, 1⟩ f = true ∧ RF.apart ⟨f.addr, 26, 1⟩ f = true))

theorem fieldChst_inj {m n : Nat} (h : m ≠ n) : R.fieldChst m ≠ R.fieldChst n := by
  simp only [R.fieldChst]
  omega

theorem fieldChst_ne_fieldOut (n : Nat) : R.fieldChst n ≠ R.fieldOut := by
  simp only [R.fieldChst, R.fieldOut]
  omega

theorem fieldChst_ne_fieldStat (n : Nat) : R.fieldChst n ≠ R.fieldStat := by
  simp only [R.fieldChst, R.fieldStat]
  omega

theorem fieldChst_ne_fieldCfg (m n : Nat) : R.fieldChst m ≠ R.fieldCfg n := by
  simp only [R.fieldChst, R.fieldCfg]
  omega

theorem fioUnshown_cfg {n : Nat} {f : RF} (h : f.addr = R.fieldCfg n) : fioUnshown f := by
  refine ⟨?_, .inl fun m _ => h ▸ fieldChst_ne_fieldCfg m n⟩
  rw [h]
  simp only [R.fieldCfg, R.fieldOut]
  omega

theorem fioUnshown_chst {n : Nat} {f : RF} (h : f.addr = R.fieldChst n) (hfits : f.fits = true)
    (hon : RF.apart ⟨f.addr, 29, 1⟩ f = true) (hheld : RF.apart ⟨f.addr, 26, 1⟩ f = true) : fioUnshown f :=
  ⟨h ▸ fieldChst_ne_fieldOut n, .inr ⟨hfits, hon, hheld⟩⟩

theorem fioUnshown_stat {f : RF} (h : f.addr = R.fieldStat) : fioUnshown f :=
  ⟨h ▸ by decide, .inl fun m _ => h ▸ fieldChst_ne_fieldStat m⟩

/-- ON and SAFE_HELD of one channel. -/
def fioShow (s t : State) (n : Nat) : State := (t.setFlag (R.fieldChst_ON n) (fioOn s n)).setFlag (R.fieldChst_SAFE_HELD n) (fioOut s n && s.field.silent)

section

variable (s : State)

/-- A part of the machine beside the registers stays. -/
theorem fioRefresh_part {γ : Type} {k : State → γ} (hk : ∀ t a x, k (State.setReg t a x) = k t) : k (fioRefresh s) = k s := by
  refine (hk ..).trans (foldl_keep (fioShow s) k (fun t n => ?_) _ s)
  exact (hk ..).trans (hk ..)

@[simp] theorem fioRefresh_field : (fioRefresh s).field = s.field := fioRefresh_part s fun _ _ _ => rfl

@[simp] theorem fioRefresh_evt : (fioRefresh s).evt = s.evt := fioRefresh_part s fun _ _ _ => rfl

theorem fioShow_fld (t : State) {n : Nat} (hlt : n < 32) {f : RF} (hf : fioUnshown f) : (fioShow s t n).fld f = t.fld f := by
  obtain ⟨-, hf⟩ := hf
  unfold fioShow
  by_cases hn : R.fieldChst n = f.addr
  · obtain ⟨hfits, hon, hheld⟩ := hf.resolve_left fun h => h n hlt hn
    exact (State.fld_beside _ (R.fieldChst_SAFE_HELD n) f _ hn hfits hheld).trans (State.fld_beside _ (R.fieldChst_ON n) f _ hn hfits hon)
  · exact (State.fld_setFld_ne _ (R.fieldChst_SAFE_HELD n) f _ hn).trans (State.fld_setFld_ne _ (R.fieldChst_ON n) f _ hn)

theorem fioRefresh_fld {f : RF} (hf : fioUnshown f) : (fioRefresh s).fld f = s.fld f :=
  (State.fld_setReg_ne _ f _ hf.1.symm).trans 
    (foldl_keep_of_mem (f := fioShow s) (g := (State.fld · f)) (fun t _ hn => fioShow_fld s t (List.mem_range.mp hn) hf) s)

theorem fioRefresh_flag {f : RF} (hf : fioUnshown f) : (fioRefresh s).flag f = s.flag f := congrArg (· == 1) (fioRefresh_fld s hf)

@[simp] theorem fioOut_fioRefresh (n : Nat) : fioOut (fioRefresh s) n = fioOut s n := fioRefresh_flag s (fioUnshown_cfg (n := n) rfl)

@[simp] theorem fioCmd_fioRefresh (n : Nat) : fioCmd (fioRefresh s) n = fioCmd s n := fioRefresh_flag s (fioUnshown_chst (n := n) rfl rfl rfl rfl)

@[simp] theorem fioLatched_fioRefresh (n : Nat) : fioLatched (fioRefresh s) n = fioLatched s n := by
  simp only [fioLatched, fioRefresh_flag s (fioUnshown_chst (f := R.fieldChst_OVERCUR n) rfl rfl rfl rfl),
    fioRefresh_flag s (fioUnshown_chst (f := R.fieldChst_THERMAL n) rfl rfl rfl rfl), fioRefresh_fld s (fioUnshown_stat (f := ⟨R.fieldStat, 24 + n / 8, 1⟩) rfl)]

@[simp] theorem fioSupplyBad_fioRefresh : fioSupplyBad (fioRefresh s) = fioSupplyBad s := by
  simp only [fioSupplyBad, fioRefresh_flag s (fioUnshown_stat (f := R.fieldStat_UV) rfl), fioRefresh_flag s (fioUnshown_stat (f := R.fieldStat_OV) rfl)]

/-- Showing the outputs changes none of them. -/
@[simp] theorem fioOn_fioRefresh (n : Nat) : fioOn (fioRefresh s) n = fioOn s n := by
  simp only [fioOn, fioOut_fioRefresh, fioLatched_fioRefresh, fioSupplyBad_fioRefresh, fioCmd_fioRefresh, fioRefresh_field,
    fioRefresh_fld s (fioUnshown_cfg (f := R.fieldCfg_SAFEVAL n) rfl)]

variable {s}

/-- ON of a channel shows what its output drives. -/
theorem fioRefresh_on {n : Nat} (hn : n < 32) : (fioRefresh s).flag (R.fieldChst_ON n) = fioOn s n := by
  refine (congrArg (· == 1) (State.fld_setReg_ne _ (R.fieldChst_ON n) _ (fieldChst_ne_fieldOut n).symm)).trans ?_
  refine foldl_puts (f := fioShow s) (g := (State.flag · (R.fieldChst_ON n))) (x := n) (fun t => ?_) (fun t m hm => ?_) _ s (.inl (List.mem_range.mpr hn))
  · exact (State.flag_beside _ (R.fieldChst_SAFE_HELD n) (R.fieldChst_ON n) _ rfl rfl rfl).trans (State.flag_put t (R.fieldChst_ON n) _ rfl rfl)
  · exact (State.flag_setFlag_ne _ (R.fieldChst_SAFE_HELD m) (R.fieldChst_ON n) _ (fieldChst_inj hm)).trans
      (State.flag_setFlag_ne _ (R.fieldChst_ON m) (R.fieldChst_ON n) _ (fieldChst_inj hm))

/-- SAFE_HELD of an output shows the silence. -/
theorem fioRefresh_held {n : Nat} (hn : n < 32) : (fioRefresh s).flag (R.fieldChst_SAFE_HELD n) = (fioOut s n && s.field.silent) := by
  refine (congrArg (· == 1) (State.fld_setReg_ne _ (R.fieldChst_SAFE_HELD n) _ (fieldChst_ne_fieldOut n).symm)).trans ?_
  refine foldl_puts (f := fioShow s) (g := (State.flag · (R.fieldChst_SAFE_HELD n))) (x := n) (fun t => ?_) (fun t m hm => ?_) _ s
    (.inl (List.mem_range.mpr hn))
  · exact State.flag_put _ (R.fieldChst_SAFE_HELD n) _ rfl rfl
  · exact (State.flag_setFlag_ne _ (R.fieldChst_SAFE_HELD m) (R.fieldChst_SAFE_HELD n) _ (fieldChst_inj hm)).trans
      (State.flag_setFlag_ne _ (R.fieldChst_ON m) (R.fieldChst_SAFE_HELD n) _ (fieldChst_inj hm))

/-- A latched fault holds an output off (R369). -/
theorem fioOn_of_latched {n : Nat} (h : fioLatched s n = true) : fioOn s n = false := by
  simp [fioOn, h]

/-- A supply out of its limits holds every output off (R370). -/
theorem fioOn_of_supplyBad (h : fioSupplyBad s = true) (n : Nat) : fioOn s n = false := by
  simp [fioOn, h]

end

/-! ### LEVEL and `FIELD.IN` follow the accepted levels (R363, R365) -/

section

variable (s : State)

theorem fioLevels_part {γ : Type} {k : State → γ} (hk : ∀ t a x, k (State.setReg t a x) = k t) : k (fioLevels s) = k s := by
  unfold fioLevels
  extract_lets w
  exact (hk ..).trans (foldl_keep _ k (fun t n => hk t _ _) _ s)

@[simp] theorem fioLevels_field : (fioLevels s).field = s.field := fioLevels_part s fun _ _ _ => rfl

@[simp] theorem fioLevels_evt : (fioLevels s).evt = s.evt := fioLevels_part s fun _ _ _ => rfl

theorem fioLevels_in : (fioLevels s).reg R.fieldIn = if fioLink s then s.field.raw else 0#32 := State.reg_setReg_same ..

/-- Registers other than `FIELD.IN` and the status of the channels. -/
theorem fioLevels_fld {f : RF} (hin : f.addr ≠ R.fieldIn) (hchst : ∀ n, R.fieldChst n ≠ f.addr) : (fioLevels s).fld f = s.fld f := by
  unfold fioLevels
  extract_lets w
  exact (State.fld_setReg_ne _ f _ hin.symm).trans
    (foldl_keep _ (State.fld · f) (fun t n => State.fld_setFld_ne t (R.fieldChst_LEVEL n) f _ (hchst n)) _ s)

@[simp] theorem fioLink_fioLevels : fioLink (fioLevels s) = fioLink s :=
  congrArg (· == 1) (fioLevels_fld s (f := R.fieldStat_LINK) (by decide) fieldChst_ne_fieldStat)

@[simp] theorem fioOut_fioLevels (n : Nat) : fioOut (fioLevels s) n = fioOut s n := by
  have hin : R.fieldCfg n ≠ R.fieldIn := by
    simp only [R.fieldCfg, R.fieldIn]
    omega
  exact congrArg (· == 1) (fioLevels_fld s (f := R.fieldCfg_OUT n) hin fun m => fieldChst_ne_fieldCfg m n)

@[simp] theorem tbValid_fioLevels : tbValid (fioLevels s) = tbValid s := by
  have hchst (n : Nat) : R.fieldChst n ≠ R.clkStat := by
    simp only [R.fieldChst, R.clkStat]
    omega
  exact congrArg (· == 1) (fioLevels_fld s (f := R.clkStat_TB_VALID) (by decide) hchst)

end

/-! ### The link (R362, R363) -/

theorem fioLink_setFlag (s : State) (b : Bool) : fioLink (s.setFlag R.fieldStat_LINK b) = b := State.flag_put s R.fieldStat_LINK b rfl rfl

theorem fioLink_raise (s : State) (e i : Nat) (d : Word) : fioLink (s.raise e i d) = fioLink s := rfl

/-- LINK as it is given, the levels shown after it. -/
theorem fioLink_set (s : State) (b : Bool) : fioLink (fioLevels (s.setFlag R.fieldStat_LINK b)) = b :=
  (fioLink_fioLevels _).trans (fioLink_setFlag s b)

theorem fieldHeartbeat_of_sent {s : State} {new : Bool} (h : s.field.sent = some new) :
    fieldHeartbeat s = fioLevels (fioRefresh
      (if new then fioChannelsReset (s.withField { s.field with sent := none, ans := some s.field.moved, moved := 0#32, silent := false })
       else s.withField { s.field with sent := none, ans := some s.field.moved, moved := 0#32, silent := false })) := by
  unfold fieldHeartbeat
  rw [h]

/-- A field heartbeat received at the logic side, before the link is judged. -/
def fioAnswered (s : State) (mv : Word) : State :=
  let t := s.withField { s.field with ans := none, run := min 4 (s.field.run + 1) }
  if mv = 0#32 then t else t.raise 213 0 mv

section

variable {s : State} {mv : Word}

theorem fioAnswered_field (s : State) (mv : Word) : (fioAnswered s mv).field = { s.field with ans := none, run := min 4 (s.field.run + 1) } := by
  unfold fioAnswered
  dsimp only
  split <;> rfl

theorem fioAnswered_link (s : State) (mv : Word) : fioLink (fioAnswered s mv) = fioLink s := by
  unfold fioAnswered
  dsimp only
  split <;> rfl

theorem fioAnswered_occ (s : State) (mv : Word) :
    (fioAnswered s mv).evt.occ = s.evt.occ ++ (if mv = 0#32 then [] else [{ ev := 213, inst := 0, detail := mv }]) := by
  unfold fioAnswered
  dsimp only
  split
  · exact (List.append_nil _).symm
  · rfl

/-- The fourth heartbeat in a row brings the link back. -/
theorem logicHeartbeat_links (hans : s.field.ans = some mv) (hlink : fioLink s = false) (hrun : 3 ≤ s.field.run) :
    logicHeartbeat s = (fioLevels ((fioAnswered s mv).setFlag R.fieldStat_LINK true)).raise 212 0 1#32 := by
  have hlost : fioLink (fioAnswered s mv) = false := (fioAnswered_link s mv).trans hlink
  simp only [logicHeartbeat, hans]
  exact if_pos (by
    simp only [Bool.and_eq_true, Bool.not_eq_true', decide_eq_true_eq]
    exact ⟨hlost, by omega⟩)

theorem logicHeartbeat_counts (hans : s.field.ans = some mv) (h : ¬ (fioLink s = false ∧ 3 ≤ s.field.run)) : logicHeartbeat s = fioAnswered s mv := by
  have hlink := fioAnswered_link s mv
  simp only [logicHeartbeat, hans]
  refine if_neg fun hfourth => h ?_
  simp only [Bool.and_eq_true, Bool.not_eq_true', decide_eq_true_eq] at hfourth
  exact ⟨hlink.symm.trans hfourth.1, by omega⟩

end

/-- A lost link: the levels read 0, and the event tells it. -/
theorem linkTimeout_drops {s : State} (h : fioLink s = true) :
    linkTimeout s = (fioLevels ((s.withField { s.field with run := 0 }).setFlag R.fieldStat_LINK false)).raise 212 0 0#32 :=
  if_pos h

/-- The state in which a silence begins (R373). -/
def fioSilenced (s : State) : State :=
  let t := s.withField { s.field with silent := true, heldOn := maskOf (fioOn s) }
  t.withField { t.field with moved := maskOf (fioOn s) ^^^ maskOf (fioOn t) }

theorem silenceBegin_begins {s : State} (h : s.field.silent = false) : silenceBegin s = fioRefresh (fioSilenced s) :=
  if_neg (Bool.eq_false_iff.mp h)

/-- Whether an output drives does not hang on what has been moved. -/
theorem fioOn_fioSilenced (s : State) : fioOn (fioRefresh (fioSilenced s)) = fioOn (s.withField { s.field with silent := true, heldOn := maskOf (fioOn s) }) :=
  funext (fioOn_fioRefresh (fioSilenced s))

/-- Settles O32, command by command. -/
theorem fieldLink : Obligations.Field_Link := by
  refine ⟨?send, ?field, ?logic, ?timeout, ?silence⟩
  case send => exact fun s hcore => congrArg Host.Outcome.next (if_pos hcore)
  case field =>
    rintro s u new hsent rfl
    exact congrArg Host.Outcome.next (fieldHeartbeat_of_sent hsent)
  case logic =>
    intro s mv hcore hans
    have hexec : exec .logicHeartbeatReceive s = .next (logicHeartbeat s) := congrArg Host.Outcome.next (if_pos hcore)
    rw [hexec]
    refine ⟨_, rfl, ?_⟩
    by_cases hfourth : fioLink s = false ∧ 3 ≤ s.field.run
    · rw [logicHeartbeat_links hans hfourth.1 hfourth.2, if_pos hfourth, State.raise_field, State.raise_reg, State.raise_occ, fioLink_raise,
        fioLevels_field, fioLevels_evt, fioLevels_in, fioLink_set, fioLink_setFlag, if_pos rfl, State.setFlag_evt, State.setFlag_field, fioAnswered_occ,
        fioAnswered_field]
      exact ⟨rfl, iff_of_true rfl (.inr hfourth.2), fun _ _ => rfl, rfl⟩
    · rw [logicHeartbeat_counts hans hfourth, if_neg hfourth, List.append_nil, fioAnswered_link]
      refine ⟨fioAnswered_field s mv, ⟨.inl, fun h => h.elim id fun hrun => ?_⟩, fun hlink hrun => absurd ⟨hlink, hrun⟩ hfourth, fioAnswered_occ s mv⟩
      exact Bool.of_not_eq_false fun hlink => hfourth ⟨hlink, hrun⟩
  case timeout =>
    intro s hlink
    refine ⟨_, congrArg Host.Outcome.next (linkTimeout_drops hlink), ?_⟩
    rw [fioLink_raise, State.raise_reg, State.raise_field, State.raise_occ, fioLink_set, fioLevels_in, fioLink_setFlag, fioLevels_field, fioLevels_evt]
    exact ⟨rfl, rfl, rfl, rfl⟩
  case silence =>
    intro s hsilent
    refine ⟨_, congrArg Host.Outcome.next (silenceBegin_begins hsilent), ?_⟩
    rw [fioRefresh_field, fioRefresh_evt, fioOn_fioSilenced]
    exact ⟨rfl, rfl, rfl, rfl, fun n hn hout => (fioRefresh_held hn).trans (congrArg (· && true) hout)⟩

end Sys2Proof.Machine
end

section
/-! PROOF. O33, the channels of the field interface (14_field_io.md R365 to R375): what an accepted edge, a fault and a measurement of the supply
leave, then the commands. -/

namespace Sys2Proof.Machine

open Sys2Proof

/-! ### An accepted edge (R365, R366) -/

/-- The registers an edge changes once it is seen: the channel's counts, and the status of latch units. -/
def fioEdgeReg (n a : Nat) : Prop := a = R.fieldCnt n ∨ ∃ u, a = R.latchStat u

section

variable (s : State) (n u : Nat) (level : Bool) (t : Tick)

@[simp] theorem latchCapture_field : (latchCapture s u t).field = s.field := by
  unfold latchCapture
  dsimp only
  split_ifs <;> rfl

@[simp] theorem latchInstant_field (sel : Bool) : (latchInstant s u sel t).field = s.field := by
  unfold latchInstant
  dsimp only
  split_ifs <;> simp [State.cntSat]

@[simp] theorem latchFrom_field (k i : Nat) : (latchFrom s k i level t).field = s.field :=
  foldl_keep _ State.field (fun _ _ => latchInstant_field ..) _ s

theorem latchFrom_regsIn (k i : Nat) : RegsIn (fioEdgeReg n) s (latchFrom s k i level t) :=
  RegsIn.foldl (fun _ u _ => (latchInstant_regsIn _ u _ _).mono fun _ ha => .inr ⟨u, ha⟩) s

theorem chatterEdge_regsIn : RegsIn (fioEdgeReg n) s (chatterEdge s n) := by
  unfold chatterEdge
  extract_lets k lim src s1 s2 stop
  have hcount : RegsIn (fioEdgeReg n) s s2 := (RegsIn.of_regs rfl).trans (.cntSat s1 (R.fieldCnt_CHATTERS n) (.inl rfl))
  exact .ite (.of_regs rfl) (.ite hcount (hcount.trans (.of_regs rfl)))

/-- The chatter detector leaves the levels and the times of edges. -/
theorem chatterEdge_raw : (chatterEdge s n).field.raw = s.field.raw := by
  unfold chatterEdge
  dsimp only
  split_ifs <;> rfl

theorem chatterEdge_edgeAt : (chatterEdge s n).field.edgeAt = s.field.edgeAt := by
  unfold chatterEdge
  dsimp only
  split_ifs <;> rfl

/-- An accepted edge of an input: its time and that it was seen. -/
def fioSeen : State :=
  ((s.withField { s.field with edgeAt := tblPut s.field.edgeAt n t 0 }).cntWrap (R.fieldCnt_EDGES n)).setFlag (R.fieldChst_SEEN n) true

/-- Then its chatter and its event, the latch units last. -/
def fioTold (held : Bool) : State :=
  let s3 := chatterEdge (fioSeen s n t) n
  if s3.flag (R.fieldCfg_EDGE_EVT n) && !held then s3.raise 214 n (if level then 1#32 else 2#32) else s3

theorem fioTold_regsIn (held : Bool) : RegsIn (fioEdgeReg n) (fioSeen s n t) (fioTold s n level t held) :=
  (chatterEdge_regsIn _ n).trans (.ite (.of_regs rfl) (.refl _ _))

theorem fioTold_raw (held : Bool) : (fioTold s n level t held).field.raw = s.field.raw :=
  (apply_ite (fun u : State => u.field.raw) ..).trans ((ite_self _).trans (chatterEdge_raw _ n))

theorem fioTold_edgeAt (held : Bool) : (fioTold s n level t held).field.edgeAt = tblPut s.field.edgeAt n t 0 :=
  (apply_ite (fun u : State => u.field.edgeAt) ..).trans ((ite_self _).trans (chatterEdge_edgeAt _ n))

theorem fieldCnt_ne_clkStat : R.fieldCnt n ≠ R.clkStat := by
  simp only [R.fieldCnt, R.clkStat]
  omega

theorem fieldChst_ne_clkStat : R.fieldChst n ≠ R.clkStat := by
  simp only [R.fieldChst, R.clkStat]
  omega

theorem not_fioEdgeReg {a : Nat} (h : a % 16 = 8) : ¬ fioEdgeReg n a := by
  rintro (rfl | ⟨u, rfl⟩)
  · simp only [R.fieldCnt] at h
    omega
  · simp only [R.latchStat] at h
    omega

theorem fieldChst_mod : R.fieldChst n % 16 = 8 := by
  simp only [R.fieldChst]
  omega

/-- The registers of the other blocks stay while an edge is seen. -/
theorem fioSeen_fld {f : RF} (hcnt : R.fieldCnt n ≠ f.addr) (hchst : R.fieldChst n ≠ f.addr) : (fioSeen s n t).fld f = s.fld f :=
  (State.fld_setFld_ne _ (R.fieldChst_SEEN n) f _ hchst).trans (State.fld_setFld_ne _ (R.fieldCnt_EDGES n) f _ hcnt)

theorem tbValid_fioTold (held : Bool) : tbValid (fioTold s n level t held) = tbValid s :=
  ((fioTold_regsIn s n level t held).flag_eq (not_fioEdgeReg n (by decide))).trans
    (congrArg (· == 1) (fioSeen_fld s n t (fieldCnt_ne_clkStat n) (fieldChst_ne_clkStat n)))

variable {s n level t}

/-- With the link, an output's edge shows its level alone (R365). -/
theorem fieldEdge_output (hedge : bitOf s.field.raw n = !level) (hlink : fioLink s = true) (hout : fioOut s n = true) :
    fieldEdge s n level t = fioLevels (s.withField { s.field with raw := withBits s.field.raw n 1 (b2n level) }) := by
  unfold fieldEdge
  extract_lets src s0 s1 held src1 s2 s3 s4
  rw [if_neg (by simp [hedge]), if_neg (by simp [hlink]), if_pos (by exact hout)]

/-- With the link and the timebase, an input's edge is seen. -/
theorem fieldEdge_input (hedge : bitOf s.field.raw n = !level) (hlink : fioLink s = true) (hout : fioOut s n = false) (htb : tbValid s = true) {v : State}
    (hv : v = fioLevels (s.withField { s.field with raw := withBits s.field.raw n 1 (b2n level) })) :
    fieldEdge s n level t = latchFrom (fioTold v n level t (fioHolding v n)) 0 n level t := by
  subst hv
  have htimed : tbValid (fioLevels (s.withField { s.field with raw := withBits s.field.raw n 1 (b2n level) })) = true := (tbValid_fioLevels _).trans htb
  unfold fieldEdge
  extract_lets src s0 s1 held src1 s2 s3 s4
  rw [if_neg (by simp [hedge]), if_neg (by simp [hlink]), if_neg (Bool.eq_false_iff.mp hout)]
  have hs2 : s2 = s1.withField { s1.field with edgeAt := tblPut s1.field.edgeAt n t 0 } := if_pos htimed
  have hs4 : s4 = fioTold s1 n level t (fioHolding s1 n) := by simp only [s4, s3, hs2]; rfl
  rw [hs4, if_pos ((tbValid_fioTold ..).trans htimed)]

theorem bitOf_withBits_same (x : Word) {i : Nat} (hi : i < 32) (b : Bool) : bitOf (withBits x i 1 (b2n b)) i = b := by
  rw [bitOf, withBits_bit _ _ _ _ _ hi, if_pos (by omega), Nat.sub_self]
  cases b <;> rfl

theorem bitOf_withBits_ne (x : Word) {i j : Nat} (hj : j < 32) (h : j ≠ i) (v : Nat) : bitOf (withBits x i 1 v) j = bitOf x j := by
  rw [bitOf, withBits_bit _ _ _ _ _ hj, if_neg (by omega)]
  rfl

/-- What an edge of an input shows. -/
theorem fioSeen_shows (hn : n < 32) {held : Bool} {v u : State} (hlink : fioLink s = true)
    (hv : v = fioLevels (s.withField { s.field with raw := withBits s.field.raw n 1 (b2n level) }))
    (hu : u = latchFrom (fioTold v n level t held) 0 n level t) :
    bitOf (u.reg R.fieldIn) n = level ∧ tblGet u.field.edgeAt n 0 = t ∧ u.flag (R.fieldChst_SEEN n) = true ∧
      ∀ m, m < 32 → m ≠ n → bitOf u.field.raw m = bitOf s.field.raw m := by
  have hraw : v.field.raw = withBits s.field.raw n 1 (b2n level) := hv ▸ congrArg FieldS.raw (fioLevels_field _)
  have hin : v.reg R.fieldIn = withBits s.field.raw n 1 (b2n level) := hv ▸ (fioLevels_in _).trans (if_pos hlink)
  have hlater : RegsIn (fioEdgeReg n) (fioSeen v n t) u := hu ▸ (fioTold_regsIn v n level t held).trans (latchFrom_regsIn _ n level t 0 n)
  have hkept : (fioSeen v n t).reg R.fieldIn = v.reg R.fieldIn := by
    have hchst : R.fieldChst n ≠ R.fieldIn := by
      simp only [R.fieldChst, R.fieldIn]
      omega
    have hcnt : R.fieldCnt n ≠ R.fieldIn := by
      simp only [R.fieldCnt, R.fieldIn]
      omega
    exact (State.reg_setFld_ne _ (R.fieldChst_SEEN n) _ _ hchst).trans (State.reg_setFld_ne _ (R.fieldCnt_EDGES n) _ _ hcnt)
  refine ⟨?_, ?_, ?_, fun m hm hne => ?_⟩
  · rw [hlater R.fieldIn (not_fioEdgeReg n (by decide)), hkept, hin, bitOf_withBits_same _ hn]
  · rw [hu, latchFrom_field, fioTold_edgeAt, tblGet_put_same]
  · exact (hlater.flag_eq (not_fioEdgeReg n (fieldChst_mod n))).trans (State.flag_put _ (R.fieldChst_SEEN n) true rfl rfl)
  · rw [hu, latchFrom_field, fioTold_raw, hraw, bitOf_withBits_ne _ hm hne]

end

/-! ### Faults and the supply (R369, R370) -/

section

variable {s : State} {n : Nat}

theorem fieldCnt_ne_fieldChst (m n : Nat) : R.fieldCnt m ≠ R.fieldChst n := by
  simp only [R.fieldChst, R.fieldCnt]
  omega

/-- An output with a fault latched, counted and told. -/
def fioFaulted (s : State) (f : RF) (n code : Nat) : State := ((s.setFlag f true).cntSat (R.fieldCnt_FAULTS n)).raise 209 n (wd code)

/-- A fault of a channel stays latched through its counter and its event, and holds the output off. -/
theorem fioFaulted_shows (s : State) {f : RF} {code : Nat} (hf : f.addr = R.fieldChst n) (hshown : fioUnshown f) (hfits : f.fits = true) (hw : f.w = 1)
    (hlatch : ∀ t : State, t.flag f = true → fioLatched t n = true) :
    (fioRefresh (fioFaulted s f n code)).flag f = true ∧ fioOn (fioRefresh (fioFaulted s f n code)) n = false ∧
      (fioRefresh (fioFaulted s f n code)).field = s.field ∧
      (fioRefresh (fioFaulted s f n code)).evt.occ = s.evt.occ ++ [{ ev := 209, inst := n, detail := wd code }] := by
  have hset : (fioFaulted s f n code).flag f = true :=
    (congrArg (· == 1) (State.fld_setFld_ne (s.setFlag f true) (R.fieldCnt_FAULTS n) f _ (hf ▸ fieldCnt_ne_fieldChst n n))).trans
      (State.flag_put s f true hfits hw)
  rw [fioRefresh_flag _ hshown, fioOn_fioRefresh, fioRefresh_field, fioRefresh_evt]
  exact ⟨hset, fioOn_of_latched (hlatch _ hset), rfl, rfl⟩

theorem outFault_on (hout : fioOut s n = true) (hon : fioOn s n = true) (code : Nat) :
    outFault s n code = fioRefresh (fioFaulted s (if code = 1 then R.fieldChst_OVERCUR n else R.fieldChst_THERMAL n) n code) :=
  if_neg (by simp [hout, hon])

theorem fioLatched_overcur (h : s.flag (R.fieldChst_OVERCUR n) = true) : fioLatched s n = true := by
  simp [fioLatched, h]

theorem fioLatched_thermal (h : s.flag (R.fieldChst_THERMAL n) = true) : fioLatched s n = true := by
  simp [fioLatched, h]

theorem fioLatched_bank (h : s.fld ⟨R.fieldStat, 24 + n / 8, 1⟩ = 1) : fioLatched s n = true := by
  simp [fioLatched, h]

/-- A bank with its fault latched and told. -/
def fioBankFaulted (s : State) (b mA : Nat) : State :=
  ((s.setFld ⟨R.fieldStat, 24 + b, 1⟩ 1).setFld (R.fieldBank_CURRENT b) mA).raise 210 b (wd mA)

theorem fioBankFaulted_set {b : Nat} (hb : b < 4) (mA : Nat) : (fioBankFaulted s b mA).fld ⟨R.fieldStat, 24 + b, 1⟩ = 1 := by
  have hbank : R.fieldBank b ≠ R.fieldStat := by
    simp only [R.fieldBank, R.fieldStat]
    omega
  refine (State.fld_setFld_ne _ (R.fieldBank_CURRENT b) ⟨R.fieldStat, 24 + b, 1⟩ _ hbank).trans (State.fld_setFld_same s ⟨R.fieldStat, 24 + b, 1⟩ 1 ?_)
  show 24 + b + 1 ≤ 32
  omega

theorem bankFault_latches {b : Nat} (h : s.fld ⟨R.fieldStat, 24 + b, 1⟩ = 0) (mA : Nat) : bankFault s b mA = fioRefresh (fioBankFaulted s b mA) :=
  if_neg (by omega)

/-- Supply limits, bank currents: what a measurement of VFIELD puts. -/
def fioMeasured (s : State) (v : Nat) (uv ov : Bool) (banks : List (BitVec 16)) : State :=
  (List.range 4).foldl (fun t b => match banks[b]? with
    | some c => t.setFld (R.fieldBank_CURRENT b) c.toNat
    | none => t) (((s.setFld R.fieldStat_VFIELD v).setFlag R.fieldStat_UV uv).setFlag R.fieldStat_OV ov)

section

variable {v : Nat} {uv ov : Bool} {banks : List (BitVec 16)}

theorem fioMeasured_stat {f : RF} (hf : f.addr = R.fieldStat) :
    (fioMeasured s v uv ov banks).fld f = (((s.setFld R.fieldStat_VFIELD v).setFlag R.fieldStat_UV uv).setFlag R.fieldStat_OV ov).fld f := by
  refine foldl_keep_of_mem (g := (State.fld · f)) (fun t b hb => ?_) _
  split
  · refine State.fld_setFld_ne t (R.fieldBank_CURRENT b) f _ ?_
    have hlt := List.mem_range.mp hb
    rw [hf]
    simp only [R.fieldBank_CURRENT, R.fieldBank, R.fieldStat]
    omega
  · rfl

theorem fioMeasured_evt : (fioMeasured s v uv ov banks).evt = s.evt := by
  refine (foldl_keep _ State.evt (fun t b => ?_) _ _).trans rfl
  split <;> rfl

theorem fioMeasured_uv : (fioMeasured s v uv ov banks).flag R.fieldStat_UV = uv :=
  (congrArg (· == 1) (fioMeasured_stat rfl)).trans
    ((State.flag_beside _ R.fieldStat_OV R.fieldStat_UV _ rfl rfl rfl).trans (State.flag_put _ R.fieldStat_UV uv rfl rfl))

theorem fioMeasured_ov : (fioMeasured s v uv ov banks).flag R.fieldStat_OV = ov :=
  (congrArg (· == 1) (fioMeasured_stat rfl)).trans (State.flag_put _ R.fieldStat_OV ov rfl rfl)

theorem fioMeasured_vfield : (fioMeasured s v uv ov banks).fld R.fieldStat_VFIELD = v % 2 ^ R.fieldStat_VFIELD.w :=
  (fioMeasured_stat rfl).trans ((State.fld_beside _ R.fieldStat_OV R.fieldStat_VFIELD _ rfl rfl rfl).trans
    ((State.fld_beside _ R.fieldStat_UV R.fieldStat_VFIELD _ rfl rfl rfl).trans (State.fld_put s R.fieldStat_VFIELD v rfl)))

/-- What a measurement shows, its event aside. -/
theorem fioMeasured_shows {t : State} (ht : t = fioRefresh (fioMeasured s v uv ov banks)) :
    t.flag R.fieldStat_UV = uv ∧ t.flag R.fieldStat_OV = ov ∧ t.fld R.fieldStat_VFIELD = v % 2 ^ R.fieldStat_VFIELD.w ∧
      (∀ n, n < 32 → t.flag (R.fieldChst_ON n) = fioOn t n) ∧ (uv = true ∨ ov = true → ∀ n, fioOn t n = false) := by
  subst ht
  rw [fioRefresh_flag _ (fioUnshown_stat rfl), fioRefresh_flag _ (fioUnshown_stat rfl), fioRefresh_fld _ (fioUnshown_stat rfl)]
  refine ⟨fioMeasured_uv, fioMeasured_ov, fioMeasured_vfield, fun n hn => (fioRefresh_on hn).trans (fioOn_fioRefresh _ n).symm, fun hbad n => ?_⟩
  refine (fioOn_fioRefresh _ n).trans (fioOn_of_supplyBad ?_ n)
  rw [fioSupplyBad, fioMeasured_uv, fioMeasured_ov, Bool.or_eq_true]
  exact hbad

/-- A supply that crosses a limit is told. -/
theorem vfield_tells (huv : uv = if s.flag R.fieldStat_UV then decide (v ≤ 1550) else decide (v < 1450))
    (hov : ov = if s.flag R.fieldStat_OV then decide (3300 ≤ v) else decide (3400 < v)) :
    vfield s v banks = if s.flag R.fieldStat_UV = uv ∧ s.flag R.fieldStat_OV = ov then fioRefresh (fioMeasured s v uv ov banks)
      else (fioRefresh (fioMeasured s v uv ov banks)).raise 211 0 (if uv then 1#32 else if ov then 2#32 else 0#32) := by
  subst huv hov
  rfl

end

end

/-! ### The commands (R374, R375) -/

section

variable {s : State} {r : Request}

theorem opFioSet_sets (htarget : r.target ≤ 31 ∨ r.target = 0xFFFF) (hlink : fioLink s = true)
    (hgood : ∀ e ∈ fioNamed r, pairOfB s e.1 = none ∧ onApplied s e = false ∧ fioOut s e.1 = true ∧ (e.2 = true → fioLatched s e.1 = false)) :
    opFioSet r s = { st := fioRefresh ((fioNamed r).foldl fioApply s) } := by
  unfold opFioSet
  extract_lets l
  have hpair : l.any (fun e => (pairOfB s e.1).isSome) = false := List.any_eq_false.mpr fun e he => by simp [(hgood e he).1]
  have happlied : l.any (onApplied s) = false := List.any_eq_false.mpr fun e he => by simp [(hgood e he).2.1]
  have hready : l.any (fun e => !fioOut s e.1 || (e.2 && fioLatched s e.1)) = false := List.any_eq_false.mpr fun e he => by
    obtain ⟨-, -, hout, hfault⟩ := hgood e he
    cases hon : e.2 <;> simp_all
  rw [if_neg (by simp [hlink]), if_neg (by omega), if_neg (by simp [hpair]), if_neg (by simp [happlied]), if_neg (by simp [hready])]
  rfl

theorem opFioConfig_configures {cfg chat : Word} {u : State} (hp : r.params = [cfg, chat]) (htarget : r.target ≤ 31) (hlink : fioLink s = true)
    (hres : cfg &&& 0x010FFFFF#32 = 0#32) (hfilt : bitsOf cfg 20 4 ≤ 6) (hsafe : bitsOf cfg 28 2 ≠ 3) (hchat : bitsOf chat 16 8 = 0 → bitsOf chat 24 8 = 0)
    (hset : safeMode s = 1 ∨ safeMode s = 2 → setNames s r.target = false) (hfree : bitOf cfg 31 = true → fioInUse s r.target = false)
    (hu : u = (((if fioOut s r.target = true ∧ bitOf cfg 31 = false then contFollow (fioCommand s r.target false) r.target false else s).setReg
      (R.fieldCfg r.target) cfg).setReg (R.fieldChat r.target) chat)) :
    opFioConfig r s = { st := fioRefresh (u.withField { u.field with win := tblDel u.field.win r.target }) } := by
  have hcfg : r.p 0 = cfg := by simp [Request.p, hp, nth]
  have hchatW : r.p 1 = chat := by simp [Request.p, hp, nth]
  unfold opFioConfig
  extract_lets n cfg' chat' s0 s1
  have hs1 : s1 = u := by simp only [s1, s0, n, cfg', chat', hcfg, hchatW, Bool.not_eq_true', hu]
  have hbits : ¬ (cfg' &&& 0x010FFFFF#32 ≠ 0#32 ∨ 6 < bitsOf cfg' 20 4 ∨ bitsOf cfg' 28 2 = 3 ∨ (bitsOf chat' 16 8 = 0 ∧ bitsOf chat' 24 8 ≠ 0)) := by
    simp only [cfg', chat', hcfg, hchatW]
    rintro (h | h | h | ⟨h, h'⟩)
    · exact h hres
    · omega
    · exact hsafe h
    · exact h' (hchat h)
  rw [if_neg (by simp [hlink]), if_neg (by omega), if_neg hbits,
    if_neg (fun h => Bool.eq_false_iff.mp (hset h.1) h.2), if_neg (fun h => Bool.eq_false_iff.mp (hfree (hcfg ▸ h.1)) h.2)]
  exact congrArg (fun w : State => ({ st := fioRefresh (w.withField { w.field with win := tblDel w.field.win n }) } : Res)) hs1

end

/-- Settles O33, command by command. -/
theorem fieldChannels : Obligations.Field_Channels := by
  refine ⟨?edge, ?window, ?fault, ?bank, ?supply, ?set, ?config⟩
  case edge =>
    rintro s v n level t rfl hedge hlink
    refine ⟨fun hout htb => ⟨_, congrArg Host.Outcome.next (fieldEdge_input hedge hlink hout htb rfl), fioSeen_shows n.isLt hlink rfl rfl⟩, fun hout => ?_⟩
    exact congrArg Host.Outcome.next (fieldEdge_output hedge hlink hout)
  case window => exact fun s n => rfl
  case fault =>
    intro s n hout hon
    exact ⟨⟨_, congrArg Host.Outcome.next (outFault_on hout hon 1),
        fioFaulted_shows s (f := R.fieldChst_OVERCUR n) rfl (fioUnshown_chst rfl rfl rfl rfl) rfl rfl fun _ => fioLatched_overcur⟩,
      ⟨_, congrArg Host.Outcome.next (outFault_on hout hon 2),
        fioFaulted_shows s (f := R.fieldChst_THERMAL n) rfl (fioUnshown_chst rfl rfl rfl rfl) rfl rfl fun _ => fioLatched_thermal⟩⟩
  case bank =>
    intro s b mA hclear
    refine ⟨_, congrArg Host.Outcome.next (bankFault_latches hclear mA.toNat), ?_⟩
    have hset := fioBankFaulted_set (s := s) b.isLt mA.toNat
    rw [fioRefresh_fld _ (fioUnshown_stat rfl), fioRefresh_evt]
    refine ⟨hset, fun n _ hn => (fioOn_fioRefresh _ n).trans (fioOn_of_latched (fioLatched_bank ?_)), rfl⟩
    rw [hn]
    exact hset
  case supply =>
    intro s v banks uv ov huv hov
    obtain ⟨huvset, hovset, hvset, honset, hoff⟩ := fioMeasured_shows (s := s) (v := v.toNat) (uv := uv) (ov := ov) (banks := banks) rfl
    have htold : exec (.vfieldMeasurement v banks) s = .next (vfield s v.toNat banks) := rfl
    rw [htold, vfield_tells huv hov]
    have hevt : (fioRefresh (fioMeasured s v.toNat uv ov banks)).evt = s.evt := (fioRefresh_evt _).trans fioMeasured_evt
    generalize fioRefresh (fioMeasured s v.toNat uv ov banks) = t at *
    by_cases hsame : s.flag R.fieldStat_UV = uv ∧ s.flag R.fieldStat_OV = ov
    · rw [if_pos hsame, if_pos hsame, List.append_nil]
      exact ⟨_, rfl, huvset, hovset, hvset, honset, hoff, congrArg EvtS.occ hevt⟩
    · rw [if_neg hsame, if_neg hsame]
      exact ⟨_, rfl, huvset, hovset, hvset, honset, hoff, (State.raise_occ ..).trans (congrArg (fun e => EvtS.occ e ++ _) hevt)⟩
  case set =>
    intro s r hs htarget hlen hlink hgood
    rw [exec_of_served (c := .fioSet r) rfl hs (by simp [hlen]), opFioSet_sets htarget hlink hgood]
  case config =>
    intro s u r cfg chat hs hp htarget hlink hres hfilt hsafe hchat hset hfree hu
    rw [exec_of_served (c := .fioConfig r) rfl hs (by simp [hp]), opFioConfig_configures hp htarget hlink hres hfilt hsafe hchat hset hfree hu]

end Sys2Proof.Machine
end

section
/-! PROOF. O34, STO inputs, contactors and safe outputs (13_safety.md R328, R329, R336, R338, R344 to R347). -/

namespace Sys2Proof.Machine

open Sys2Proof

/-! ### Causes latched (R338) -/

section

variable (s : State) (bit : Nat) (soft : Bool)

@[simp] theorem scribeLatch_regs : (scribeLatch s bit soft).regs = s.regs := rfl

@[simp] theorem scribeLatch_evt : (scribeLatch s bit soft).evt = s.evt := rfl

theorem bitOf_latch (x : Word) {b : Nat} (h : b < 32) : bitOf (x ||| (1#32 <<< b)) b = true := by
  simp [bitOf, h]

/-- A cause is latched once it has been found. -/
theorem scribeLatch_holds {bit : Nat} (h : bit < 32) : bitOf (scribeLatch s bit soft).safe.latched bit = true := bitOf_latch _ h

end

/-! ### Contactors (R344, R345) -/

section

variable {s : State} {n : Nat}

/-- A contactor fault as it stands in its register, told. -/
def contFaulted (s : State) (n code : Nat) : State :=
  ((s.setFld (R.safeCont_STATE n) 3).setFld (R.safeCont_FAULT n) code).raise 197 n (wd code)

theorem contFault_reacts (s : State) (n code : Nat) :
    (contFault s n code).regs = (contFaulted s n code).regs ∧ (contFault s n code).evt = (contFaulted s n code).evt ∧
      (bitOf (contFault s n code).safe.latched 8 = true ↔ contReact s n ≠ 0 ∨ bitOf s.safe.latched 8 = true) := by
  have hlatched (soft : Bool) : bitOf (scribeLatch (contFaulted s n code) 8 soft).safe.latched 8 = true := scribeLatch_holds _ soft (by decide)
  unfold contFault
  extract_lets s1
  split
  next h => exact ⟨rfl, rfl, .inr, fun hreact => hreact.resolve_left fun hne => hne h⟩
  next h => exact ⟨rfl, rfl, fun _ => .inl (by omega), fun _ => hlatched false⟩
  next h _ => exact ⟨rfl, rfl, fun _ => .inl h, fun _ => hlatched true⟩

theorem contFault_state (s : State) (n code : Nat) : (contFault s n code).fld (R.safeCont_STATE n) = 3 := by
  rw [State.fld_of_regs (contFault_reacts s n code).1, contFaulted, State.raise_fld, State.fld_beside _ (R.safeCont_FAULT n) (R.safeCont_STATE n) _ rfl rfl rfl,
    State.fld_put_of_lt s (R.safeCont_STATE n) (w := 2) rfl (by decide) rfl]

theorem contFault_code (s : State) (n : Nat) {code : Nat} (h : code < 16) : (contFault s n code).fld (R.safeCont_FAULT n) = code := by
  rw [State.fld_of_regs (contFault_reacts s n code).1, contFaulted, State.raise_fld, State.fld_put_of_lt _ (R.safeCont_FAULT n) (w := 4) rfl h rfl]

theorem contFault_occ (s : State) (n code : Nat) : (contFault s n code).evt.occ = s.evt.occ ++ [{ ev := 197, inst := n, detail := wd code }] :=
  congrArg EvtS.occ (contFault_reacts s n code).2.1

theorem contExpire_follows (hen : contEn s n = true) (hwin : s.fld (R.safeCont_STATE n) = 2) (hfb : s.flag (R.safeCont_FB n) = s.flag (R.safeCont_CMD n)) :
    contExpire s n = s.setFld (R.safeCont_STATE n) (b2n (s.flag (R.safeCont_CMD n))) := by
  unfold contExpire
  extract_lets cmd
  rw [if_neg (by simp [hen, hwin]), if_pos hfb]

theorem contExpire_fails (hen : contEn s n = true) (hwin : s.fld (R.safeCont_STATE n) = 2) (hfb : s.flag (R.safeCont_FB n) ≠ s.flag (R.safeCont_CMD n)) :
    contExpire s n = contFault s n (if s.flag (R.safeCont_CMD n) then 1 else 2) := by
  unfold contExpire
  extract_lets cmd
  rw [if_neg (by simp [hen, hwin]), if_neg hfb]

/-- Outside a window nothing expires. -/
theorem contExpire_idle (hwin : s.fld (R.safeCont_STATE n) ≠ 2) : contExpire s n = s := if_pos (by simp [hwin])

theorem huskExpire_window {on : Bool} {t : Tick} {u : State} (h : s.safe.husk.win.find? (fun e => e.1 == n) = some (n, on, t))
    (hu : u = s.setHusk { s.safe.husk with win := s.safe.husk.win.filter (fun x => x.1 != n) }) :
    huskExpire s n = if nth s.safe.husk.fb n false = on then u else huskContFault u n := by
  subst hu
  unfold huskExpire
  rw [h]

section

variable {closed : Bool} {t : Tick} (hen : contEn s n = true) (hfb : s.flag (R.safeCont_FB n) = !closed)
include hen hfb

/-- Inside its window a contactor that reaches the commanded state ends it. -/
theorem contSee_arrives {dt : Nat} (hdt : dt = (t - nth s.safe.tc n 0).toNat) (hwin : s.fld (R.safeCont_STATE n) = 2)
    (hcmd : closed = s.flag (R.safeCont_CMD n)) (hin : dt < contT (setW s (9 + 2 * n)) (s.flag (R.safeCont_CMD n))) :
    contSee s n closed t =
      ((s.setFlag (R.safeCont_FB n) closed).setFld (R.safeCont_STATE n) (b2n closed)).setFld (R.safeCont_LAST_MS n) (min 65535 (dt / msTicks)) := by
  subst hdt
  unfold contSee
  extract_lets cmd dt s0 s1
  have hs0 : s0 = s := if_neg fun h => absurd (of_decide_eq_true h) (Nat.not_le.mpr hin)
  rw [if_neg (by simp [hen, hfb]), if_pos (hs0 ▸ hwin), if_pos hcmd]
  simp only [s1, hs0]
  rfl

/-- A change away from the commanded state inside the window is only shown. -/
theorem contSee_bounces (hwin : s.fld (R.safeCont_STATE n) = 2) (hcmd : closed ≠ s.flag (R.safeCont_CMD n))
    (hin : (t - nth s.safe.tc n 0).toNat < contT (setW s (9 + 2 * n)) (s.flag (R.safeCont_CMD n))) :
    contSee s n closed t = s.setFlag (R.safeCont_FB n) closed := by
  unfold contSee
  extract_lets cmd dt s0 s1
  have hs0 : s0 = s := if_neg fun h => absurd (of_decide_eq_true h) (Nat.not_le.mpr hin)
  rw [if_neg (by simp [hen, hfb]), if_pos (hs0 ▸ hwin), if_neg hcmd]
  simp only [s1, hs0]

/-- With no window a change is unsolicited. -/
theorem contSee_unsolicited (hwin : s.fld (R.safeCont_STATE n) < 2) : contSee s n closed t = contFault (s.setFlag (R.safeCont_FB n) closed) n 3 := by
  unfold contSee
  extract_lets cmd dt s0 s1
  have hs0 : s0 = s := (ite_congr rfl (fun _ => contExpire_idle (by omega)) fun _ => rfl).trans (ite_self s)
  rw [if_neg (by simp [hen, hfb]), if_neg (by rw [hs0]; omega), if_neg (by rw [hs0]; omega)]
  simp only [s1, hs0]

end

end

/-! ### Safe output pairs (R346, R347)

Applying a pair writes the channels and the contactors that follow them, whose registers lie below those of the pairs. -/

/-- The registers below those of the safe output pairs, `SAFE.STATE` aside. -/
def belowPairs (a : Nat) : Prop := a < R.safeOut 0 ∧ a ≠ R.safeState

section

variable (s : State) {c : Nat}

theorem belowPairs_chst (hc : c < 32) : belowPairs (R.fieldChst c) := by
  simp only [belowPairs, R.fieldChst, R.safeOut, R.safeState]
  omega

theorem fioRefresh_below : RegsIn belowPairs s (fioRefresh s) :=
  (RegsIn.foldl (f := fioShow s) (fun t n hn => have hbelow := belowPairs_chst (List.mem_range.mp hn)
    (RegsIn.setFlag t (R.fieldChst_ON n) (fioOn s n) hbelow).trans (.setFlag _ (R.fieldChst_SAFE_HELD n) _ hbelow)) s).trans
    (.setReg _ (by decide : R.fieldOut < R.safeOut 0 ∧ R.fieldOut ≠ R.safeState))

theorem fioCommand_below (hc : c < 32) (on : Bool) : RegsIn belowPairs s (fioCommand s c on) := by
  unfold fioCommand
  extract_lets s1 s2 b
  have h1 : RegsIn belowPairs s s1 := .setFlag s (R.fieldChst_CMD c) on (belowPairs_chst hc)
  have h2 : RegsIn belowPairs s s2 := .ite h1 ((h1.trans (.setFlag _ (R.fieldChst_OVERCUR c) _ (belowPairs_chst hc))).trans
    (.setFlag _ (R.fieldChst_THERMAL c) _ (belowPairs_chst hc)))
  exact .ite h2 (h2.trans (.setFld s2 ⟨R.fieldStat, 24 + b, 1⟩ 0 (by decide : R.fieldStat < R.safeOut 0 ∧ R.fieldStat ≠ R.safeState)))

theorem contFollow_below (on : Bool) : RegsIn belowPairs s (contFollow s c on) := by
  refine RegsIn.foldl (fun t n hn => ?_) s
  have hbelow : belowPairs (R.safeCont n) := by
    have hlt := List.mem_range.mp hn
    simp only [belowPairs, R.safeCont, R.safeOut, R.safeState]
    omega
  exact .ite (((RegsIn.setFlag t (R.safeCont_CMD n) on hbelow).trans (.setFld _ (R.safeCont_STATE n) 2 hbelow)).trans (.of_regs rfl)) (.refl _ t)

theorem pairA_lt (p : Nat) : pairA s p < 32 := (bitsOf_lt _ 24 3 (by decide)).trans (by decide)

theorem pairB_lt (p : Nat) : pairB s p < 32 := (bitsOf_lt _ 16 3 (by decide)).trans (by decide)

/-- Beside APPLIED, a pair that is applied changes registers below those of the pairs. -/
theorem pairApply_below (p : Nat) : RegsIn belowPairs (s.setFlag (R.safeOut_APPLIED p) true) (pairApply s p) := by
  unfold pairApply
  extract_lets s1
  refine .ite (.refl _ s1) (RegsIn.foldl (fun t c hc => .ite ?_ (.refl _ t)) s1)
  have hlt : c < 32 := by
    rcases List.mem_cons.mp hc with rfl | hc
    · exact pairA_lt s p
    · exact List.mem_singleton.mp hc ▸ pairB_lt s p
  exact ((fioCommand_below t hlt false).trans (fioRefresh_below _)).trans (contFollow_below _ false)

theorem not_belowPairs (p : Nat) : ¬ belowPairs (R.safeOut p) := by
  simp only [belowPairs, R.safeOut, R.safeState]
  omega

variable {s} {p : Nat}

theorem pairApply_applied : pairApplied (pairApply s p) p = true :=
  ((pairApply_below s p).flag_eq (f := R.safeOut_APPLIED p) (not_belowPairs p)).trans (State.flag_put s (R.safeOut_APPLIED p) true rfl rfl)

theorem pairApply_fault : (pairApply s p).flag (R.safeOut_FAULT p) = s.flag (R.safeOut_FAULT p) :=
  ((pairApply_below s p).flag_eq (f := R.safeOut_FAULT p) (not_belowPairs p)).trans (State.flag_beside s (R.safeOut_APPLIED p) (R.safeOut_FAULT p) _ rfl rfl rfl)

section

variable {chB : Bool} {c i : Nat} (hen : pairEn s p = true) (hoff : pairApplied s p = false) (hc : c = if chB then pairB s p else pairA s p)
  (hi : i = 2 * p + b2n chB) (hon : fioOn s c = true)
include hen hoff hc hi hon

theorem testPulse_good : testPulse s p chB true =
    (s.cntWrap (R.safeOut_PULSES p)).withSafe { s.safe with wrong := setAt s.safe.wrong i 0 } := by
  subst hc hi
  unfold testPulse
  extract_lets c i k src s1
  rw [if_neg (by simp [hen, hoff]; exact hon), if_pos rfl]
  rfl

theorem testPulse_first (hk : nth s.safe.wrong i 0 = 0) : testPulse s p chB false = s.withSafe { s.safe with wrong := setAt s.safe.wrong i 1 } := by
  subst hc hi
  unfold testPulse
  extract_lets c i k src s1
  have hk1 : k = 1 := congrArg (· + 1) hk
  rw [if_neg (by simp [hen, hoff]; exact hon), if_neg Bool.false_ne_true, if_pos (by omega)]
  simp only [s1, hk1]
  rfl

/-- The second wrong readback in a row is an output fault: the pair applied, FAULT and the cause latched. -/
theorem testPulse_second (hk : 1 ≤ nth s.safe.wrong i 0) :
    (testPulse s p chB false).flag (R.safeOut_FAULT p) = true ∧ pairApplied (testPulse s p chB false) p = true ∧
      bitOf (testPulse s p chB false).safe.latched 9 = true := by
  subst hc hi
  unfold testPulse
  extract_lets c i k src s1
  have hk2 : ¬ k < 2 := by
    have hi : i = 2 * p + b2n chB := rfl
    have hk' : k = nth s.safe.wrong i 0 + 1 := rfl
    rw [hk', hi]
    omega
  rw [if_neg (by simp [hen, hoff]; exact hon), if_neg Bool.false_ne_true, if_neg hk2]
  refine ⟨?_, ?_, scribeLatch_holds _ false (by decide)⟩
  · rw [State.flag_of_regs (scribeLatch_regs ..), State.raise_flag, pairApply_fault]
    exact State.flag_put s1 (R.safeOut_FAULT p) true rfl rfl
  · rw [pairApplied, State.flag_of_regs (scribeLatch_regs ..), State.raise_flag]
    exact pairApply_applied

end

theorem huskReadback_locks {w : Word} (hup : huskUp s = true) (hw : w = huskW s (16 + 2 * p)) (hsaid : bitOf s.safe.husk.word3 p = true)
    (hen : bitOf w 31 = true) (hon : bitOf s.field.raw (bitsOf w 24 3) = true ∨ bitOf s.field.raw (bitsOf w 16 3) = true) :
    huskReadback s p = (huskLock s 9).raise 198 p 3#32 := by
  subst hw
  exact if_pos (by simpa only [hup, hsaid, hen, Bool.true_and, Bool.and_true, Bool.or_eq_true] using hon)

end

/-- Settles O34, command by command. -/
theorem safeInputsAndOutputs : Obligations.Safe_Inputs_And_Outputs := by
  refine ⟨?field, ?scribe, ?husk, ?discrepancy, ?expiry, ?huskExpiry, ?feedback, ?coreOff, ?pulse, ?readback⟩
  case field => exact fun s a b => rfl
  case scribe =>
    rintro s a b x y rfl rfl
    rfl
  case husk =>
    rintro s a b x y h rfl rfl rfl
    rfl
  case discrepancy =>
    refine fun s => ⟨fun d hdisc hclear => ?_, fun hdiff => congrArg Host.Outcome.next (if_pos hdiff)⟩
    have hexec : exec (.stoDiscrepancyExpiry false) s = .next ((scribeLatch s 2 false).raise 194 0 (wd d)) := by
      refine congrArg Host.Outcome.next ?_
      unfold stoDiscrepancy
      rw [if_neg Bool.false_ne_true, hdisc]
      exact if_neg (Bool.eq_false_iff.mp hclear)
    exact ⟨_, hexec, scribeLatch_holds s false (by decide), rfl, rfl⟩
  case expiry =>
    intro s n code hen hwin hcode
    refine ⟨fun hfb => congrArg Host.Outcome.next (contExpire_follows hen hwin hfb), fun hfb => ?_⟩
    have hlt : code < 16 := by
      rw [hcode]
      split <;> decide
    refine ⟨_, congrArg Host.Outcome.next (contExpire_fails hen hwin hfb), ?_⟩
    rw [← hcode]
    exact ⟨contFault_state s n code, contFault_code s n hlt, (contFault_reacts s n code).2.2, contFault_occ s n code⟩
  case huskExpiry => exact fun s u n on t hwin hu => congrArg Host.Outcome.next (huskExpire_window hwin hu)
  case feedback =>
    rintro s v w n closed cmd t dt rfl hcore hen hfb rfl rfl rfl
    have hexec : exec (.contactorFeedbackChange n closed t) s = .next (huskSee (contSee (s.at t) n closed t) n closed t) :=
      congrArg (fun u => Host.Outcome.next (huskSee u n closed t)) (if_pos hcore)
    rw [hexec]
    refine ⟨fun hwin hcmd hin => ?_, fun hwin hcmd hin => ?_, fun hwin => ?_⟩
    · rw [contSee_arrives hen hfb rfl hwin hcmd hin]
    · rw [contSee_bounces hen hfb hwin hcmd hin]
    · rw [contSee_unsolicited hen hfb hwin]
  case coreOff =>
    exact fun s n closed t hcore => congrArg (fun u => Host.Outcome.next (huskSee u n closed t)) (if_neg (Bool.eq_false_iff.mp hcore))
  case pulse =>
    intro s p chB c i hen hoff hc hi hon hlen
    have hbad (x y : Bool) (hxy : (x && y) = false) : exec (.safeTestPulse p chB x y) s = .next (testPulse s p chB false) :=
      congrArg (fun g => Host.Outcome.next (testPulse s p chB g)) hxy
    refine ⟨?_, fun x y hxy hk => ?_, fun x y hxy hk => ⟨_, hbad x y hxy, testPulse_second hen hoff hc hi hon hk⟩⟩
    · have hlt : i < s.safe.wrong.length := by
        have hp := p.isLt
        have hb : b2n chB ≤ 1 := by cases chB <;> decide
        omega
      exact ⟨_, congrArg Host.Outcome.next (testPulse_good hen hoff hc hi hon), nth_setAt_same _ _ _ _ hlt, rfl, rfl⟩
    · rw [hbad x y hxy, testPulse_first hen hoff hc hi hon hk]
  case readback =>
    exact fun s p w hup hw hsaid hen hon => congrArg Host.Outcome.next (huskReadback_locks hup hw hsaid hen hon)

end Sys2Proof.Machine
end

section
/-! PROOF. O35, Scribe's cycle and the cross-check (13_safety.md R331 to R335, R337, R339 to R341): what the functions of a cycle leave of
Scribe's count, its acknowledgement and the interval, then the frames of the exchange. -/

namespace Sys2Proof.Machine

open Sys2Proof

/-! ### Functions that leave the safety unit or Scribe's own marks alone -/

/-- Scribe's cycle count, the acknowledgement that waits, and the single-channel interval. -/
def State.scribeMarks (s : State) : Nat × Bool × Bool := (s.safe.seq, s.safe.ack, s.safe.single)

section

variable {s t u : State} {k : Nat × Bool × Bool}

theorem marks_of_safe (h : t.safe = s.safe) : t.scribeMarks = s.scribeMarks := congrArg (fun x : SafeS => (x.seq, x.ack, x.single)) h

theorem marks_raise (s : State) (e i : Nat) (d : Word) : (s.raise e i d).scribeMarks = s.scribeMarks := rfl

theorem marks_setHusk (s : State) (x : HuskS) : (s.setHusk x).scribeMarks = s.scribeMarks := rfl

theorem marks_ite {c : Prop} [Decidable c] (ht : t.scribeMarks = k) (hu : u.scribeMarks = k) : (if c then t else u).scribeMarks = k := by
  split
  · exact ht
  · exact hu

theorem marks_foldl {α : Type} {f : State → α → State} (h : ∀ t x, (f t x).scribeMarks = t.scribeMarks) (l : List α) (s : State) :
    (l.foldl f s).scribeMarks = s.scribeMarks :=
  foldl_keep f State.scribeMarks h l s

end

section

variable (s : State)

theorem respond_safe (r : Request) (x : Res) : (respond r x).safe = x.st.safe := (CmdOnly.respond r x).safe

theorem axisTable_safe (slot op : Nat) (ws : List Word) (qs : Bool) : (axisTable s slot op ws qs).st.safe = s.safe := by
  unfold axisTable
  dsimp only
  split_ifs <;> rfl

theorem quickStop_safe (a : Nat) : (quickStop s a).safe = s.safe := by
  unfold quickStop
  dsimp only
  split_ifs
  · exact axisTable_safe ..
  · rfl

theorem groupsOff_safe : (groupsOff s).safe = s.safe := by
  refine foldl_keep _ State.safe (fun t g => ?_) _ s
  split_ifs <;> rfl

theorem telOut_safe (p : Nat) (o : Origin) (ws : List Word) : (telOut s p o ws).safe = s.safe := by
  unfold telOut
  split
  · exact (CmdOnly.netTx ..).safe
  · split_ifs <;> rfl
  · rfl

/-! ### The functions of a cycle (R332 to R339) -/

section

variable {γ : Type} {k : State → γ} (hreg : ∀ t a x, k (State.setReg t a x) = k t) (htc : ∀ t : State, ∀ l, k (t.withSafe { t.safe with tc := l }) = k t)
include hreg

theorem fioCommand_keep (n : Nat) (on : Bool) : k (fioCommand s n on) = k s := by
  unfold fioCommand
  extract_lets s1 s2 b
  have h1 : k s1 = k s := hreg ..
  have h2 : k s2 = k s := (apply_ite k ..).trans (by rw [show k ((s1.setFlag (R.fieldChst_OVERCUR n) false).setFlag (R.fieldChst_THERMAL n) false) = k s1
    from (hreg ..).trans (hreg ..), ite_self, h1])
  exact (apply_ite k ..).trans (by rw [show k (s2.setFld ⟨R.fieldStat, 24 + b, 1⟩ 0) = k s2 from hreg .., ite_self, h2])

include htc

theorem contFollow_keep (c : Nat) (on : Bool) : k (contFollow s c on) = k s := by
  refine foldl_keep _ k (fun t n => ?_) _ s
  have hcommand : k (contCommand t n on) = k t := (htc ..).trans ((hreg ..).trans (hreg ..))
  exact (apply_ite k ..).trans (by rw [hcommand, ite_self])

/-- What registers and the times of contactor commands leave, applying pairs leaves. -/
theorem pairApply_keep (p : Nat) : k (pairApply s p) = k s := by
  unfold pairApply
  extract_lets s1
  have h1 : k s1 = k s := hreg ..
  refine (apply_ite k ..).trans ?_
  rw [foldl_keep _ k (fun t c => (apply_ite k ..).trans
    (by rw [contFollow_keep _ hreg htc, fioRefresh_part _ hreg, fioCommand_keep t hreg, ite_self])) _ s1, ite_self, h1]

theorem pairsApply_keep (f : Nat → Bool) : k (pairsApply s f) = k s :=
  foldl_keep _ k (fun t p => (apply_ite k ..).trans (by rw [pairApply_keep t hreg htc, ite_self])) _ s

end

theorem pairApply_marks (p : Nat) : (pairApply s p).scribeMarks = s.scribeMarks := pairApply_keep s (fun _ _ _ => rfl) (fun _ _ => rfl) p

theorem pairsApply_marks (f : Nat → Bool) : (pairsApply s f).scribeMarks = s.scribeMarks := pairsApply_keep s (fun _ _ _ => rfl) (fun _ _ => rfl) f

theorem axViolate_marks (a code : Nat) : (axViolate s a code).scribeMarks = s.scribeMarks := marks_ite rfl rfl

theorem axMonitor_marks (t : Tick) (a : Nat) : (axMonitor s t a).scribeMarks = s.scribeMarks := by
  unfold axMonitor
  extract_lets s0 x st slow s1 s2 src s3 lv s4 px src1 px'
  have h0 : s0.scribeMarks = s.scribeMarks := marks_ite (axViolate_marks ..) rfl
  have h1 : s1.scribeMarks = s.scribeMarks := h0
  have h2 : s2.scribeMarks = s.scribeMarks := marks_ite ((axViolate_marks ..).trans h1) h1
  have h3 : s3.scribeMarks = s.scribeMarks :=
    marks_ite (marks_ite ((axViolate_marks ..).trans h2) (marks_ite h2 h2)) (marks_ite (marks_ite ((axViolate_marks ..).trans h2) h2) h2)
  have h4 : s4.scribeMarks = s.scribeMarks := marks_ite ((axViolate_marks ..).trans h3) h3
  split
  · exact marks_ite ((axViolate_marks ..).trans h4) h4
  · exact marks_ite ((axViolate_marks ..).trans h4) h4
  · exact h4

theorem axSelect_marks (a nib : Nat) : (axSelect s a nib).scribeMarks = s.scribeMarks := by
  unfold axSelect
  extract_lets x lv dir lim cur s1 src s2 st src1
  have h1 : s1.scribeMarks = s.scribeMarks := marks_ite rfl (marks_ite rfl rfl)
  have h2 : s2.scribeMarks = s.scribeMarks := marks_ite h1 h1
  exact marks_ite rfl (marks_ite ((marks_of_safe (quickStop_safe s2 a)).trans h2) (marks_ite h2 h2))

theorem telSelect_marks : (telSelect s).scribeMarks = s.scribeMarks := marks_ite (marks_foldl (fun t a => axSelect_marks t a _) _ s) rfl

theorem scribeMonitor_marks (t : Tick) : (scribeMonitor s t).scribeMarks = s.scribeMarks := by
  unfold scribeMonitor
  extract_lets s1
  have h1 : s1.scribeMarks = s.scribeMarks := marks_ite (marks_foldl (fun u a => axMonitor_marks u t a) _ s) rfl
  exact marks_ite ((pairsApply_marks _ _).trans h1) h1

theorem ackArm_marks : (ackArm s).scribeMarks = s.scribeMarks := marks_ite rfl (marks_ite rfl rfl)

theorem scribeTake_marks (new : Nat) (t : Tick) : (scribeTake s new t).scribeMarks = s.scribeMarks := by
  have hpairs (u : State) (p : Nat) : (if pairEn u p && !sbcPair u p then u.setFlag (R.safeOut_APPLIED p) false else u).scribeMarks = u.scribeMarks :=
    marks_ite rfl rfl
  have haxes (f g : Nat) (u : State) (a : Nat) : (if u.fld (R.safeAx_ASTATE a) = f ∨ u.fld (R.safeAx_ASTATE a) = g then u.setFld (R.safeAx_ASTATE a) 1
      else u).scribeMarks = u.scribeMarks := marks_ite rfl rfl
  have hstop (u : State) (a : Nat) : (quickStop (u.setSax a { u.sax a with v0 := (u.sax a).v, t0 := t, still := 0 }) a).scribeMarks = u.scribeMarks :=
    (marks_of_safe (quickStop_safe _ a)).trans rfl
  have hfree (u : State) (a : Nat) : ((if u.fld (R.safeAx_ASTATE a) = 4 then u.setFld (R.safeAx_ASTATE a) 1 else u).setSax a
      { u.sax a with codes := 0 }).scribeMarks = u.scribeMarks := marks_ite (t := (u.setFld (R.safeAx_ASTATE a) 1)) rfl rfl
  unfold scribeTake
  extract_lets old s1 src permit stop sto src1 s3 s4 s5 src2
  refine marks_ite rfl ?_
  split
  · exact (marks_foldl hpairs _ permit).trans rfl
  · exact (marks_foldl hstop _ stop).trans rfl
  · have hsto : sto.scribeMarks = s.scribeMarks := marks_ite (marks_of_safe (groupsOff_safe s1)) rfl
    have h3 : s3.scribeMarks = s.scribeMarks := (pairsApply_marks _ _).trans hsto
    have h4 : s4.scribeMarks = s.scribeMarks := (marks_foldl (haxes 2 3) _ s3).trans h3
    have h5 : s5.scribeMarks = s.scribeMarks := (marks_foldl (f := fun u p => u.setFlag (R.safeOut_FAULT p) false) (fun _ _ => rfl) _ s4).trans h4
    exact marks_ite ((marks_foldl hfree _ _).trans h5) h4

theorem tellCauses_marks : (tellCauses s).scribeMarks = s.scribeMarks := by
  unfold tellCauses
  extract_lets now new src
  refine (marks_foldl (fun t i => ?_) _ _).trans rfl
  exact marks_ite rfl rfl

theorem sbcApply_marks : (sbcApply s).scribeMarks = s.scribeMarks := by
  refine marks_ite (marks_foldl (fun t p => ?_) _ s) (marks_ite (pairsApply_marks s _) rfl)
  exact marks_ite rfl (marks_ite (pairApply_marks t p) rfl)

theorem contStart_marks (old : List Word) (n : Nat) : (contStart s old n).scribeMarks = s.scribeMarks := marks_ite rfl rfl

theorem setRegs_safe (l : List (Nat × Word)) : (s.setRegs l).safe = s.safe := by
  refine foldl_keep _ State.safe ?_ l s
  exact fun _ _ => rfl

/-- The check words and the staging window of a set in force. -/
def setWritten (ws : List Word) : State :=
  let u := ((s.setReg R.safeCrcS (crcS ws)).setReg R.safeCrcH (crcH ws)).setRegs ((List.range 136).map (fun w => (R.safeStage w, nth ws w 0#32)))
  (u.setReg (R.safeStage 136) (crcS ws)).setReg (R.safeStage 137) (crcH ws)

theorem setWritten_safe (ws : List Word) : (setWritten s ws).safe = s.safe := by
  unfold setWritten
  rw [State.setReg_safe, State.setReg_safe, setRegs_safe, State.setReg_safe, State.setReg_safe]

/-- The safe axes a set enables leave their state OFF. -/
def axEnter (ws : List Word) (u : State) (a : Nat) : State :=
  if bitOf (nth ws (24 + 14 * a) 0#32) 31 then (if u.fld (R.safeAx_ASTATE a) = 0 then u.setFld (R.safeAx_ASTATE a) 1 else u) else u.setReg (R.safeAx a) 0#32

theorem axEnter_marks (ws : List Word) (a : Nat) : (axEnter ws s a).scribeMarks = s.scribeMarks := marks_ite (marks_ite rfl rfl) rfl

theorem setInForce_enters (ws : List Word) : setInForce s ws = (List.range 8).foldl (axEnter ws)
    (setWritten ((List.range 4).foldl (fun u n => contStart u (s.safe.set.getD []) n) (s.withSafe { s.safe with set := some ws })) ws) := rfl

theorem setInForce_marks (ws : List Word) : (setInForce s ws).scribeMarks = s.scribeMarks := by
  rw [setInForce_enters, marks_foldl (axEnter_marks · ws), marks_of_safe (setWritten_safe _ ws),
    marks_foldl fun u n => contStart_marks u _ n]
  rfl

theorem safeCfgFault_safe (on : Bool) : (safeCfgFault s on).safe = s.safe := by
  unfold safeCfgFault
  split_ifs <;> rfl

theorem setTake_marks (ws : List Word) : (setTake s ws).scribeMarks = s.scribeMarks := by
  unfold setTake
  rw [marks_raise, marks_of_safe (safeCfgFault_safe _ false), setInForce_marks, marks_setHusk]

theorem opSafeConfirm_marks (r : Request) : (opSafeConfirm r s).st.scribeMarks = s.scribeMarks := by
  unfold opSafeConfirm
  extract_lets old no
  split_ifs
  · rfl
  · split
    · rfl
    · extract_lets fixed
      split_ifs
      · rfl
      · rfl
      · exact (setTake_marks _ _).trans rfl

theorem confirmJudge_marks : (confirmJudge s).scribeMarks = s.scribeMarks :=
  (marks_foldl (fun t r => (marks_of_safe (respond_safe r _)).trans (opSafeConfirm_marks t r)) _ _).trans rfl

theorem telSend1_marks : (telSend1 s).scribeMarks = s.scribeMarks := by
  unfold telSend1
  extract_lets src s1 ws s2
  have h2 : s2.scribeMarks = s1.scribeMarks := marks_of_safe ((telOut_safe ..).trans (telOut_safe ..))
  exact h2

theorem telSend_marks : (telSend s).scribeMarks = s.scribeMarks := (marks_foldl (fun t _ => telSend1_marks t) _ _).trans rfl

end

/-! ### One cycle of Scribe (R332) -/

section

variable (s : State) (t : Tick) (husk : List Int)

theorem axSample_marks (a : Nat) : (axSample s a).scribeMarks = s.scribeMarks := rfl

theorem scribeResume_marks : (scribeResume s).scribeMarks = (s.safe.seq, s.safe.ack, false) := by
  unfold scribeResume
  cases h : s.safe.single
  · simp [State.scribeMarks, h]
  · rfl

theorem scribeSample_marks : (scribeSample s husk).scribeMarks = ((s.safe.seq + 1) % 65536, s.safe.ack, s.safe.single) := by
  unfold scribeSample
  extract_lets n h src s1
  exact (marks_foldl axSample_marks _ s1).trans rfl

/-- The state at the decision of a cycle. -/
def cycleJudged : State := ackArm (scribeMonitor (telSelect (scribeSample (scribeResume s) husk)) t)

theorem cycleJudged_marks : (cycleJudged s t husk).scribeMarks = ((s.safe.seq + 1) % 65536, s.safe.ack, false) := by
  have hresume := scribeResume_marks s
  rw [cycleJudged, ackArm_marks, scribeMonitor_marks, telSelect_marks, scribeSample_marks]
  simp only [State.scribeMarks, Prod.mk.injEq] at hresume
  rw [hresume.1, hresume.2.1, hresume.2.2]

/-- The safety unit with the registers it showed last. -/
def SafeS.withShown (x : SafeS) (w : List Word) : SafeS := { x with shown := w }

/-- The registers of a cycle leave the safety unit but for what they showed. -/
theorem scribeRegs_safe : ∃ w, (scribeRegs s).safe = s.safe.withShown w := by
  unfold scribeRegs
  extract_lets hview s1 s2 s3 s4 src
  have h1 : s1.safe = s.safe := (State.setFlag_safe ..).trans (State.setFld_safe ..)
  clear_value s1
  have h2 : s2.safe = s1.safe := (State.setFld_safe ..).trans ((State.setFlag_safe ..).trans (State.setFlag_safe ..))
  clear_value s2
  have h3 : s3.safe = s2.safe := (State.setReg_safe ..).trans (State.setReg_safe ..)
  clear_value s3
  have h4 : s4.safe = s.safe := by
    refine (foldl_keep _ State.safe (fun t p => ?_) _ s3).trans (h3.trans (h2.trans h1))
    exact (apply_ite State.safe ..).trans (ite_self _)
  exact ⟨_, congrArg (SafeS.withShown · _) h4⟩

/-- A cycle counts, takes the acknowledgement and puts out the frame it holds. -/
theorem scribeCycle_exchange : (Machine.scribeCycle s t husk).safe.seq = (s.safe.seq + 1) % 65536 ∧
    (Machine.scribeCycle s t husk).safe.toHusk = some (Machine.scribeCycle s t husk).safe.mine ∧
    (Machine.scribeCycle s t husk).safe.ack = false ∧ (Machine.scribeCycle s t husk).safe.single = false := by
  unfold Machine.scribeCycle
  extract_lets s1 new acked src s2 s3 src1 s4 s5 f src2 s6
  have h1 : s1.scribeMarks = ((s.safe.seq + 1) % 65536, s.safe.ack, false) := cycleJudged_marks s t husk
  have h2 : s2.scribeMarks = s1.scribeMarks := (scribeTake_marks _ new t).trans rfl
  have h3 : s3.scribeMarks = s2.scribeMarks := marks_ite rfl rfl
  have h4 : s4.scribeMarks = (s3.safe.seq, false, s3.safe.single) :=
    (confirmJudge_marks _).trans ((sbcApply_marks _).trans ((tellCauses_marks _).trans rfl))
  have h5 : s5.scribeMarks = s4.scribeMarks := telSend_marks s4
  have h6 : s5.scribeMarks = ((s.safe.seq + 1) % 65536, false, false) := by
    have hjudged := h3.trans (h2.trans h1)
    simp only [State.scribeMarks, Prod.mk.injEq] at hjudged
    rw [h5, h4, hjudged.1, hjudged.2.2]
  clear_value s5
  obtain ⟨w, hw⟩ := scribeRegs_safe s6
  simp only [State.scribeMarks, Prod.mk.injEq] at h6
  rw [hw]
  exact ⟨h6.1, rfl, h6.2.1, h6.2.2⟩

end

/-! ### Husk's frame at Scribe (R335, R341) -/

section

variable {γ : Type} {k : State → γ} (hlatch : ∀ t bit soft, k (scribeLatch t bit soft) = k t) (hraise : ∀ t e i d, k (State.raise t e i d) = k t)
include hlatch hraise

/-- What causes and events leave, the causes Husk sends leave. -/
theorem takeHuskCauses_keep (s : State) (c : Word) : k (takeHuskCauses s c) = k s := by
  unfold takeHuskCauses
  extract_lets new s1
  have h1 : k s1 = k s := foldl_keep _ k (fun t i => (apply_ite k ..).trans (by rw [hlatch, ite_self])) _ s
  exact (apply_ite k ..).trans (by rw [hraise, ite_self, h1])

/-- What causes, events, the runs of differences and DIFFS leave, a comparison leaves. -/
theorem scribeCompare_keep (hruns : ∀ t : State, ∀ nM nI runs, k (t.withSafe { t.safe with nMode := nM, nIn := nI, nCnt := runs }) = k t)
    (hdiffs : ∀ t v, k (State.setFld t R.safeXc_DIFFS v) = k t) (s : State) (f : List Word) : k (scribeCompare s f) = k s := by
  unfold scribeCompare
  extract_lets mine hm dMode dIn runs nM nI dCnt dCrc lim src s1 s2 codes
  have h2 : k s2 = k s := (hdiffs s1 _).trans (hruns s nM nI runs)
  refine (foldl_keep _ k (fun t c => ?_) codes s2).trans h2
  exact (apply_ite k ..).trans (by rw [hraise, hlatch, ite_self])

end

section

variable {s : State} {f : List Word}

theorem scribeReceive_none {ok : Bool} (h : s.safe.toScribe = none) : scribeReceive s ok = s.cntSat R.safeXc_LOST := by
  unfold scribeReceive
  rw [h]

theorem scribeReceive_bad {ok : Bool} (h : s.safe.toScribe = some f) (hbad : ok = false ∨ frameOk f = false) :
    scribeReceive s ok = (s.withSafe { s.safe with toScribe := none }).cntSat R.safeXc_LOST := by
  unfold scribeReceive
  rw [h]
  exact if_pos (by simpa using hbad)

/-- A frame of Husk's taken. -/
def huskFrameTaken (s : State) (f : List Word) : State :=
  let u := s.withSafe { s.safe with toScribe := none }
  (u.cntWrap R.safeXc_FRAMES).withSafe { u.safe with hf := f, first := false, silent := false }

/-- A valid frame, as Scribe goes through it. -/
theorem scribeReceive_valid (h : s.safe.toScribe = some f) (hok : frameOk f = true) : ∃ s2 s3 s4 : State,
    scribeReceive s true = (if s.safe.first ∨ bitsOf (nth f 1 0#32) 24 4 = 0 then s4 else scribeCompare s4 f) ∧
    s2 = (if bitsOf (nth s.safe.hf 1 0#32) 24 4 = bitsOf (nth f 1 0#32) 24 4 then huskFrameTaken s f
      else (huskFrameTaken s f).raise 205 0 (wd (bitsOf (nth s.safe.hf 1 0#32) 24 4 * 16 + bitsOf (nth f 1 0#32) 24 4))) ∧
    s3 = (if bitOf (nth s.safe.mine 1 0#32) 24 then s2 else takeHuskCauses s2 (nth f 3 0#32)) ∧
    s4 = (if bitsOf (nth f 1 0#32) 24 4 = 6 then scribeLatch s3 12 false
      else if s.safe.first ∧ bitsOf (nth f 1 0#32) 24 4 = 5 then scribeLatch s3 7 false else s3) := by
  unfold scribeReceive
  rw [h]
  exact ⟨_, _, _, if_neg (by simp [hok]), rfl, rfl, rfl⟩

/-- What causes, events, runs and DIFFS leave is, after a valid frame, as the frame taken left it. -/
theorem scribeReceive_keep {γ : Type} {k : State → γ} (hlatch : ∀ t bit soft, k (scribeLatch t bit soft) = k t)
    (hraise : ∀ t e i d, k (State.raise t e i d) = k t)
    (hruns : ∀ t : State, ∀ nM nI runs, k (t.withSafe { t.safe with nMode := nM, nIn := nI, nCnt := runs }) = k t)
    (hdiffs : ∀ t v, k (State.setFld t R.safeXc_DIFFS v) = k t) (h : s.safe.toScribe = some f) (hok : frameOk f = true) :
    k (scribeReceive s true) = k (huskFrameTaken s f) := by
  obtain ⟨s2, s3, s4, hall, h2, h3, h4⟩ := scribeReceive_valid h hok
  have hk2 : k s2 = k (huskFrameTaken s f) := by rw [h2, apply_ite k, hraise, ite_self]
  have hk3 : k s3 = k s2 := by rw [h3, apply_ite k, takeHuskCauses_keep hlatch hraise, ite_self]
  have hk4 : k s4 = k s3 := by rw [h4, apply_ite k, apply_ite k, hlatch, hlatch, ite_self, ite_self]
  rw [hall, apply_ite k, scribeCompare_keep hlatch hraise hruns hdiffs, ite_self, hk4, hk3, hk2]

/-- A frame in the state told before, from a Husk that works, is compared. -/
theorem scribeReceive_compares (h : s.safe.toScribe = some f) (hok : frameOk f = true) (hfirst : s.safe.first = false)
    (hsame : bitsOf (nth f 1 0#32) 24 4 = bitsOf (nth s.safe.hf 1 0#32) 24 4) (hinit : bitsOf (nth f 1 0#32) 24 4 ≠ 0)
    (hdead : bitsOf (nth f 1 0#32) 24 4 ≠ 6) (hack : bitOf (nth s.safe.mine 1 0#32) 24 = false) :
    scribeReceive s true = scribeCompare (takeHuskCauses (huskFrameTaken s f) (nth f 3 0#32)) f := by
  obtain ⟨s2, s3, s4, hall, h2, h3, h4⟩ := scribeReceive_valid h hok
  rw [if_pos hsame.symm] at h2
  rw [if_neg (by simp [hack]), h2] at h3
  rw [if_neg hdead, if_neg (by simp [hfirst]), h3] at h4
  rw [hall, if_neg (by simp [hfirst, hinit]), h4]

end

/-! ### Scribe's frame at Husk, and silence (R341) -/

section

variable {s u v : State} {f : List Word}

theorem huskReceive_discards {ok : Bool} (h : s.safe.toHusk = some f) (hbad : ok = false ∨ frameOk f = false ∨ huskUp s = false) :
    huskReceive s ok = s.withSafe { s.safe with toHusk := none } := by
  unfold huskReceive
  rw [h]
  exact if_pos (by simpa [or_assoc] using hbad)

theorem huskReceive_acts (h : s.safe.toHusk = some f) (hok : frameOk f = true) (hup : huskUp s = true)
    (hu : u = s.withSafe { s.safe with toHusk := none }) (hv : v = huskAct (huskContactors u f) f) :
    huskReceive s true = if s.safe.husk.st == 0 || v.safe.husk.st == 4 then v else huskCompare v f := by
  subst hu hv
  unfold huskReceive
  rw [h]
  exact if_neg (by simp [hok, hup])

theorem xcheckTimeout_scribe (hcore : coreRuns s = true) (hfirst : s.safe.first = false) (hsingle : s.safe.single = false)
    (hclear : bitOf s.safe.latched 7 = false) :
    xcheckTimeout s false = (scribeLatch (s.withSafe { s.safe with silent := true }) 7 false).raise 196 0 5#32 := by
  unfold xcheckTimeout
  rw [if_neg Bool.false_ne_true, if_neg (by simp [hcore, hfirst, hsingle])]
  exact if_neg (Bool.eq_false_iff.mp hclear)

end

/-! ### The end of BRK_T (R339) -/

section

variable (s : State)

/-- A safe axis leaves SS2 and its standstill. -/
def axLeaveStop (u : State) (a : Nat) : State :=
  if u.fld (R.safeAx_ASTATE a) = 2 ∨ u.fld (R.safeAx_ASTATE a) = 3 then u.setFld (R.safeAx_ASTATE a) 1 else u

/-- STO taken from SS1: MODE and its event, then the groups off, the pairs applied and the safe axes out of their stop. -/
theorem scribeTake_sto {s : State} (h : safeMode s = 2) (t : Tick) {u : State} (hu : u = groupsOff ((s.setFld R.safeState_MODE 0).raise 192 0 (wd 32))) :
    scribeTake s 0 t = (List.range 8).foldl axLeaveStop (pairsApply (u.withSafe { u.safe with armed := false, stopped := false }) fun _ => true) := by
  subst hu
  unfold scribeTake
  rw [h]
  rfl

/-- The registers beside the module's state. -/
def besideState (a : Nat) : Prop := a ≠ R.safeState

theorem groupsOff_beside : RegsIn besideState s (groupsOff s) := by
  refine RegsIn.foldl (fun t g _ => ?_) s
  have hbeside : besideState (R.nibGstate g) := by
    simp only [besideState, R.nibGstate, R.safeState]
    omega
  exact .ite (.refl _ t) (((RegsIn.setFld t (R.nibGstate_REQ g) 0 hbeside).trans (.setFlag _ (R.nibGstate_PENDING g) true hbeside)).trans (.of_regs rfl))

theorem pairsApply_beside (f : Nat → Bool) : RegsIn besideState s (pairsApply s f) := by
  refine RegsIn.foldl (fun t p _ => .ite ?_ (.refl _ t)) s
  have hbeside : besideState (R.safeOut p) := by
    simp only [besideState, R.safeOut, R.safeState]
    omega
  exact (RegsIn.setFlag t (R.safeOut_APPLIED p) true hbeside).trans ((pairApply_below t p).mono fun _ h => h.2)

theorem axLeaveStop_beside : RegsIn besideState s ((List.range 8).foldl axLeaveStop s) := by
  refine RegsIn.foldl (fun t a _ => .ite (.setFld t (R.safeAx_ASTATE a) 1 ?_) (.refl _ t)) s
  simp only [besideState, R.safeAx_ASTATE, R.safeAx, R.safeState]
  omega

theorem axLeaveStop_part {γ : Type} {k : State → γ} (hreg : ∀ t a x, k (State.setReg t a x) = k t) : k ((List.range 8).foldl axLeaveStop s) = k s :=
  foldl_keep axLeaveStop k (fun t a => (apply_ite k ..).trans (by rw [show k (t.setFld (R.safeAx_ASTATE a) 1) = k t from hreg .., ite_self])) _ s

theorem groupsOff_evt : (groupsOff s).evt = s.evt := by
  refine foldl_keep _ State.evt (fun t g => ?_) _ s
  split_ifs <;> rfl

section

variable {s u : State} (h : safeMode s = 2) (t : Tick) (hu : u = groupsOff ((s.setFld R.safeState_MODE 0).raise 192 0 (wd 32)))
include h hu

/-- What registers and the times of contactor commands leave is, after STO was taken, as the groups' requests left it. -/
theorem scribeTake_sto_part {γ : Type} {k : State → γ} (hreg : ∀ t a x, k (State.setReg t a x) = k t)
    (htc : ∀ t : State, ∀ l, k (t.withSafe { t.safe with tc := l }) = k t) :
    k (scribeTake s 0 t) = k (u.withSafe { u.safe with armed := false, stopped := false }) := by
  rw [scribeTake_sto h t hu, axLeaveStop_part _ hreg, pairsApply_keep _ hreg htc]

theorem scribeTake_sto_mode : safeMode (scribeTake s 0 t) = 0 := by
  have hlater : RegsIn besideState u (scribeTake s 0 t) := by
    rw [scribeTake_sto h t hu]
    have hput : RegsIn besideState u (u.withSafe { u.safe with armed := false, stopped := false }) := .of_regs rfl
    exact hput.trans ((pairsApply_beside _ _).trans (axLeaveStop_beside _))
  have hbegun : u.fld R.safeState_MODE = ((s.setFld R.safeState_MODE 0).raise 192 0 (wd 32)).fld R.safeState_MODE :=
    hu ▸ (groupsOff_beside _).fld_eq fun hne => hne rfl
  rw [safeMode, hlater.fld_eq fun hne => hne rfl, hbegun, State.raise_fld, State.fld_put s R.safeState_MODE 0 rfl, Nat.zero_mod]

theorem scribeTake_sto_occ : (scribeTake s 0 t).evt.occ = s.evt.occ ++ [{ ev := 192, inst := 0, detail := wd 32 }] := by
  rw [scribeTake_sto_part h t hu (k := State.evt) (fun _ _ _ => rfl) fun _ _ => rfl, State.withSafe_evt, hu, groupsOff_evt, State.raise_occ,
    State.setFld_evt]

/-- STO ends the restart and the standstill, and keeps the cause SS1 ended. -/
theorem scribeTake_sto_safe : (scribeTake s 0 t).safe.ssEnd = s.safe.ssEnd ∧ (scribeTake s 0 t).safe.stopped = false ∧
    (scribeTake s 0 t).safe.armed = false := by
  have hsafe : u.safe = s.safe := hu ▸ (groupsOff_safe _).trans rfl
  have hparts := scribeTake_sto_part h t hu (k := fun x => (x.safe.ssEnd, x.safe.stopped, x.safe.armed)) (fun _ _ _ => rfl) fun _ _ => rfl
  rw [State.withSafe_safe, hsafe] at hparts
  simp only [Prod.mk.injEq] at hparts
  exact hparts

end

theorem brkExpiry_ends {s : State} (hmode : safeMode s = 2) (hstop : s.safe.stopped = true ∨ safeAxes s = []) {u : State}
    (hu : u = scribeTake (s.withSafe { s.safe with ssEnd := true }) 0 s.dt) :
    brkExpiry s = u.setFld R.safeState_CAUSE (bitsOf (safeCause u) 0 16) := by
  subst hu
  exact if_pos ⟨hmode, hstop⟩

end

/-- Settles O35, command by command. -/
theorem scribeAndCrossCheck : Obligations.Scribe_And_Cross_Check := by
  refine ⟨?cycle, ?valid, ?compare, ?lost, ?husk, ?silence, ?brake, ?level⟩
  case cycle =>
    intro s t husk hcore
    obtain ⟨hseq, hframe, hack, hsingle⟩ := scribeCycle_exchange (s.at t) t husk
    exact ⟨_, congrArg Host.Outcome.next (if_pos hcore), rfl, hseq, hframe, hack, hsingle⟩
  case valid =>
    intro s f hcore h hok
    refine ⟨_, congrArg Host.Outcome.next (if_pos hcore), ?_⟩
    have hcross := scribeReceive_keep (k := fun t => (t.safe.hf, t.safe.toScribe, t.safe.first, t.safe.silent, t.field, t.loop)) (fun _ _ _ => rfl)
      (fun _ _ _ _ => rfl) (fun _ _ _ _ => rfl) (fun _ _ => rfl) h hok
    have hframes := scribeReceive_keep (k := (State.fld · R.safeXc_FRAMES)) (fun _ _ _ => rfl) (fun _ _ _ _ => rfl) (fun _ _ _ _ => rfl)
      (fun t v => State.fld_beside t R.safeXc_DIFFS R.safeXc_FRAMES v rfl rfl rfl) h hok
    simp only [Prod.mk.injEq] at hcross
    obtain ⟨hhf, htaken, hfirst, hsilent, hfield, hloop⟩ := hcross
    exact ⟨hhf, htaken, hfirst, hsilent, hframes.trans (State.fld_put _ R.safeXc_FRAMES _ rfl), hfield, hloop⟩
  case compare =>
    rintro s u f hcore h hok hfirst hsame hinit hdead hack rfl
    exact (congrArg Host.Outcome.next (if_pos hcore)).trans (congrArg Host.Outcome.next (scribeReceive_compares h hok hfirst hsame hinit hdead hack))
  case lost =>
    refine fun s ok hcore => ⟨fun h => ?_, fun f h hbad => ?_⟩
    · exact (congrArg Host.Outcome.next (if_pos hcore)).trans (congrArg Host.Outcome.next (scribeReceive_none h))
    · exact (congrArg Host.Outcome.next (if_pos hcore)).trans (congrArg Host.Outcome.next (scribeReceive_bad h hbad))
  case husk =>
    intro s u v f h hu hv
    refine ⟨fun hok hup hquiet => ?_, fun hok hup hst hst' => ?_, fun ok hbad => ?_⟩
    · exact congrArg Host.Outcome.next ((huskReceive_acts h hok hup hu hv).trans (if_pos (by simpa using hquiet)))
    · exact congrArg Host.Outcome.next ((huskReceive_acts h hok hup hu hv).trans (if_neg (by simp [hst, hst'])))
    · exact congrArg Host.Outcome.next ((huskReceive_discards h hbad).trans hu.symm)
  case silence =>
    refine fun s => ⟨fun hcore hfirst hsingle hclear => ?_, fun hst hst' => ?_⟩
    · exact ⟨_, congrArg Host.Outcome.next (xcheckTimeout_scribe hcore hfirst hsingle hclear), rfl, scribeLatch_holds _ false (by decide), rfl, rfl⟩
    · exact congrArg Host.Outcome.next ((if_pos rfl).trans (if_neg (by simp [hst, hst'])))
  case brake =>
    intro s hmode hstop
    have hsto := scribeTake_sto_mode (s := s.withSafe { s.safe with ssEnd := true }) hmode s.dt rfl
    have hocc := scribeTake_sto_occ (s := s.withSafe { s.safe with ssEnd := true }) hmode s.dt rfl
    obtain ⟨hend, hstopped, harmed⟩ := scribeTake_sto_safe (s := s.withSafe { s.safe with ssEnd := true }) hmode s.dt rfl
    refine ⟨_, congrArg Host.Outcome.next (brkExpiry_ends hmode hstop rfl), ?_⟩
    generalize scribeTake (s.withSafe { s.safe with ssEnd := true }) 0 s.dt = u at *
    exact ⟨(State.fld_beside u R.safeState_CAUSE R.safeState_MODE _ rfl rfl rfl).trans hsto, hend, hstopped, harmed, hocc ▸ List.prefix_rfl⟩
  case level => exact fun s a hpend => congrArg Host.Outcome.next (if_neg hpend)

end Sys2Proof.Machine
end

section
/-! PROOF. O37, the telegram and the safety commands (13_safety.md R348 to R350, R352, R355, R356). -/

namespace Sys2Proof.Machine

open Sys2Proof

/-! ### A copy of a request (R349, R350) -/

section

variable {s : State} {p : Nat} {o : Origin} {bytes : List Byte} {ws : List Word} {t : Tick}

/-- Good copies count on their path alone. -/
theorem pathGood_safe (s : State) (p : Nat) : ∃ good lost, (pathGood s p).safe = { s.safe with good := good, lost := lost } := by
  unfold pathGood
  dsimp only
  split_ifs <;> exact ⟨_, _, rfl⟩

theorem telCopy_invalid (hen : telEn s = true) (hsingle : s.safe.single = false) (hcore : coreRuns s = true) (hhears : telHears s p = true)
    (hbad : telValid s bytes = false) :
    telCopy s p o bytes t = State.cntSat (s.withSafe { s.safe with good := setAt s.safe.good p 0 }) R.safeTel_REJECTS :=
  (if_neg (by simp [hen, hsingle, hcore, hhears])).trans (if_pos (by simp [hbad]))

theorem telCopy_valid (hen : telEn s = true) (hsingle : s.safe.single = false) (hcore : coreRuns s = true) (hhears : telHears s p = true)
    (hok : telValid s bytes = true) : telCopy s p o bytes t = telJudge (telExpire (pathGood s p) t) p o (bytesWords bytes) :=
  (if_neg (by simp [hen, hsingle, hcore, hhears])).trans (if_neg (by simp [hok]))

/-- Without an accepted request the watchdog does not run. -/
theorem telWatchdog_idle (h : s.safe.telOn = false) : telWatchdog s = s := if_neg (by simp [h])

theorem telExpire_idle (h : s.safe.telOn = false) : telExpire s t = s := by
  unfold telExpire
  rw [telWatchdog_idle h, ite_self]

theorem telExpire_inside (h : (t - s.safe.tAcc).toNat < bitsOf (setW s 4) 0 8 * msTicks) : telExpire s t = s :=
  if_neg fun hle => absurd (of_decide_eq_true hle) (Nat.not_le.mpr h)

theorem telExpire_ends (h : bitsOf (setW s 4) 0 8 * msTicks ≤ (t - s.safe.tAcc).toNat) : telExpire s t = telWatchdog s :=
  if_pos (decide_eq_true h)

theorem telWatchdog_expires (hen : telEn s = true) (hon : s.safe.telOn = true) (hsingle : s.safe.single = false) :
    telWatchdog s = telReact ((s.withSafe { s.safe with telOn := false, telRun := 0 }).raise 200 0 (wd (s.fld R.safeTel_COUNT))) 4 :=
  if_pos (by simp [hen, hon, hsingle])

/-- After the watchdog no request is accepted. -/
theorem telWatchdog_off (hen : telEn s = true) (hsingle : s.safe.single = false) : (telWatchdog s).safe.telOn = false := by
  cases hon : s.safe.telOn
  · rw [telWatchdog_idle hon, hon]
  · rw [telWatchdog_expires hen hon hsingle]
    rfl

theorem telJudge_first (h : s.safe.telOn = false) : telJudge s p o ws = telAccept s p o ws 0 := if_pos (by simp [h])

section

variable {d : Nat} (hon : s.safe.telOn = true) (hd : d = (bitsOf (nth ws 1 0#32) 0 16 + 65536 - bitsOf (nth s.safe.telLast 1 0#32) 0 16) % 65536)
include hon hd

/-- The next in turn, up to three of them lost. -/
theorem telJudge_next (h1 : 1 ≤ d) (h4 : d ≤ 4) : telJudge s p o ws = telAccept s p o ws (d - 1) := by
  subst hd
  exact (if_neg (by simp [hon])).trans (if_pos ⟨h1, h4⟩)

theorem telJudge_stale (h : 4 < d ∨ (d = 0 ∧ p = s.safe.telPath)) : telJudge s p o ws = s.cntSat R.safeTel_REJECTS := by
  subst hd
  refine (if_neg (by simp [hon])).trans ((if_neg fun hnext => ?_).trans (if_neg fun hcopy => ?_))
  · obtain ⟨h1, h4⟩ := hnext
    rcases h with h | h <;> omega
  · exact h.elim (fun h => by omega) fun h => hcopy.2 h.2

end

end

/-! ### Writes in a row, and the stage (R352) -/

section

variable (s : State)

/-- A register none of the writes names. -/
theorem State.reg_setRegs_ne {l : List (Nat × Word)} {a : Nat} (h : ∀ e ∈ l, e.1 ≠ a) : (s.setRegs l).reg a = s.reg a :=
  foldl_keep_of_mem (f := fun t (e : Nat × Word) => t.setReg e.1 e.2) (g := (State.reg · a)) (fun t e he => State.reg_setReg_ne t e.1 a e.2 (h e he)) s

/-- A register outside a row of `n` registers. -/
theorem State.reg_setRegs_row {n a : Nat} {addr : Nat → Nat} {w : Nat → Word} (h : ∀ i, i < n → addr i ≠ a) :
    (s.setRegs ((List.range n).map fun i => (addr i, w i))).reg a = s.reg a := by
  refine State.reg_setRegs_ne s fun e he => ?_
  obtain ⟨i, hi, rfl⟩ := List.mem_map.mp he
  exact h i (List.mem_range.mp hi)

theorem State.setRegs_part {γ : Type} {k : State → γ} (hreg : ∀ t a x, k (State.setReg t a x) = k t) (l : List (Nat × Word)) : k (s.setRegs l) = k s := by
  refine foldl_keep _ k ?_ l s
  exact fun t e => hreg t e.1 e.2

/-- A write of the staging window empties the stage. -/
theorem safeStageWrite_shows (w : Nat) (v : Word) :
    (safeStageWrite s w v).st.reg (R.safeStage w) = v ∧ (safeStageWrite s w v).st.reg R.safeStgS = 0#32 ∧
      (safeStageWrite s w v).st.reg R.safeStgH = 0#32 := by
  have hs : R.safeStage w ≠ R.safeStgS := by
    simp only [R.safeStage, R.safeStgS]
    omega
  have hh : R.safeStage w ≠ R.safeStgH := by
    simp only [R.safeStage, R.safeStgH]
    omega
  unfold safeStageWrite stageEmpty
  refine ⟨State.reg_setReg_same .., ?_, ?_⟩
  · rw [State.reg_setReg_ne _ _ _ _ hs, State.reg_setReg_ne _ _ _ _ (by decide), State.reg_setReg_same]
  · rw [State.reg_setReg_ne _ _ _ _ hh, State.reg_setReg_same]

/-- The registers of a set in the stage: its check words and the read-back windows. -/
def stageWritten (ws : List Word) : State :=
  let u := ((s.withSafe { s.safe with stg := some ws }).setReg R.safeStgS (crcS ws)).setReg R.safeStgH (crcH ws)
  let v := u.setRegs ((List.range 136).map (fun w => (R.safeRb w, nth ws w 0#32)))
  v.setRegs ((List.range 136).map (fun w => (R.safeHrb w, nth ws w 0#32 &&& hMask w)))

variable {s}

theorem opSafeStage_stages {r : Request} (hsingle : s.safe.single = false) (hup : huskUp s = true) (hgood : setBad s (stagedSet s) = none) :
    opSafeStage r s = { st := (stageWritten s (stagedSet s)).raise 202 0 1#32, data := [crcS (stagedSet s), crcH (stagedSet s)] } := by
  unfold opSafeStage
  extract_lets ws
  rw [if_neg (by simp [hsingle, hup]), hgood]
  rfl

theorem stageWritten_reg {a : Nat} (ws : List Word) (hrb : ∀ w, R.safeRb w ≠ a) (hhrb : ∀ w, R.safeHrb w ≠ a) :
    (stageWritten s ws).reg a = (((s.withSafe { s.safe with stg := some ws }).setReg R.safeStgS (crcS ws)).setReg R.safeStgH (crcH ws)).reg a :=
  (State.reg_setRegs_row _ fun w _ => hhrb w).trans (State.reg_setRegs_row _ fun w _ => hrb w)

theorem stageWritten_stgS (ws : List Word) : (stageWritten s ws).reg R.safeStgS = crcS ws := by
  rw [stageWritten_reg ws (fun w => by simp only [R.safeRb, R.safeStgS]; omega) (fun w => by simp only [R.safeHrb, R.safeStgS]; omega),
    State.reg_setReg_ne _ _ _ _ (by decide), State.reg_setReg_same]

theorem stageWritten_stgH (ws : List Word) : (stageWritten s ws).reg R.safeStgH = crcH ws := by
  rw [stageWritten_reg ws (fun w => by simp only [R.safeRb, R.safeStgH]; omega) (fun w => by simp only [R.safeHrb, R.safeStgH]; omega),
    State.reg_setReg_same]

theorem stageWritten_part {γ : Type} {k : State → γ} (hreg : ∀ t a x, k (State.setReg t a x) = k t) (ws : List Word) :
    k (stageWritten s ws) = k (s.withSafe { s.safe with stg := some ws }) :=
  (State.setRegs_part _ hreg _).trans ((State.setRegs_part _ hreg _).trans ((hreg ..).trans (hreg ..)))

/-- A confirmed set whose fixed words stand, or that comes in STO, is taken. -/
theorem opSafeConfirm_takes {r : Request} {ws : List Word} (hp : r.params = [crcS ws, crcH ws]) (hsingle : s.safe.single = false)
    (hstg : s.safe.stg = some ws)
    (hfixed : safeMode s = 0 ∨ ∀ w, w < 136 → (nth ws w 0#32 ^^^ nth (s.safe.set.getD []) w 0#32) &&& ~~~(lMask w) = 0#32) :
    opSafeConfirm r s = { st := setTake (stageEmpty s) ws } := by
  have hS : r.p 0 = crcS ws := by simp [Request.p, hp, nth]
  have hH : r.p 1 = crcH ws := by simp [Request.p, hp, nth]
  have hkept : ¬ ((List.range 136).any (fun w => (nth ws w 0#32 ^^^ nth (s.safe.set.getD []) w 0#32) &&& ~~~(lMask w) != 0#32) = true ∧ safeMode s ≠ 0) := by
    rintro ⟨hany, hmode⟩
    obtain ⟨w, hw, hne⟩ := List.any_eq_true.mp hany
    exact bne_iff_ne.mp hne (hfixed.resolve_left hmode w (List.mem_range.mp hw))
  unfold opSafeConfirm
  extract_lets old no
  rw [if_neg (by simp [hsingle]), hstg]
  exact (if_neg (by simp [hS, hH])).trans (if_neg hkept)

/-- A confirmation that is served waits for Scribe's next cycle. -/
theorem safeConfirm_waits {r : Request} (hs : s.served) (hsingle : s.safe.single = false) (htarget : r.target = 0) (hlen : r.params.length = 2) :
    safeConfirm r s = s.withSafe { s.safe with conf := s.safe.conf ++ [r] } := by
  obtain ⟨hphase, hhold, hreed⟩ := hs
  exact if_pos (by simp [reedTakes, serving, hphase, hhold, hreed, hsingle, htarget, hlen])

theorem opSafeAck_waits {r : Request} (hsingle : s.safe.single = false) (hack : ackStatus s = stOK) :
    opSafeAck r s = { st := s.withSafe { s.safe with ack := true } } :=
  (if_neg (by simp [hsingle])).trans (if_neg (by simp [hack]))

end

/-- Settles O37, command by command. -/
theorem telegramAndSafetyCommands : Obligations.Telegram_And_Safety_Commands := by
  refine ⟨?copy, ?watchdog, ?loss, ?write, ?stage, ?confirm, ?ack⟩
  case copy =>
    rintro s v w p o bytes t d rfl hen hsingle hcore hhears rfl hd
    obtain ⟨good, lost, hsafe⟩ := pathGood_safe (s.at t) p.val
    have hexec (hok : telValid (s.at t) bytes = true) : exec (.telegramCopy p o bytes t) s =
        .next (telJudge (telExpire (pathGood (s.at t) p.val) t) p.val o (bytesWords bytes)) :=
      congrArg Host.Outcome.next (telCopy_valid hen hsingle hcore hhears hok)
    have hen' : telEn (pathGood (s.at t) p.val) = true := by rw [telEn, setW, hsafe]; exact hen
    have hwin : setW (pathGood (s.at t) p.val) 4 = setW (s.at t) 4 := by rw [setW, hsafe]; rfl
    have hin (h : (t - (s.at t).safe.tAcc).toNat < bitsOf (setW (s.at t) 4) 0 8 * msTicks) :
        telExpire (pathGood (s.at t) p.val) t = pathGood (s.at t) p.val := telExpire_inside (by rw [hwin, hsafe]; exact h)
    have hd' : d = (bitsOf (nth (bytesWords bytes) 1 0#32) 0 16 + 65536 - bitsOf (nth (pathGood (s.at t) p.val).safe.telLast 1 0#32) 0 16) % 65536 := by
      rw [hsafe]
      exact hd
    refine ⟨fun hbad => ?_, fun hok hoff => ?_, fun hok hon h h1 h4 => ?_, fun hok hon h hstale => ?_, fun hok h => ?_⟩
    · exact congrArg Host.Outcome.next (telCopy_invalid hen hsingle hcore hhears hbad)
    · have hoff' : (pathGood (s.at t) p.val).safe.telOn = false := by rw [hsafe]; exact hoff
      rw [hexec hok, telExpire_idle hoff', telJudge_first hoff']
    · rw [hexec hok, hin h, telJudge_next (by rw [hsafe]; exact hon) hd' h1 h4]
    · rw [hexec hok, hin h, telJudge_stale (by rw [hsafe]; exact hon) hd' (by rw [hsafe]; exact hstale)]
    · have hend : telExpire (pathGood (s.at t) p.val) t = telWatchdog (pathGood (s.at t) p.val) := telExpire_ends (by rw [hwin, hsafe]; exact h)
      rw [hexec hok, hend, telJudge_first (telWatchdog_off hen' (by rw [hsafe]; exact hsingle))]
  case watchdog =>
    intro s hen hon hsingle
    exact ⟨_, congrArg Host.Outcome.next (telWatchdog_expires hen hon hsingle), rfl, scribeLatch_holds _ _ (by decide), rfl, rfl⟩
  case loss =>
    intro s p hen hlost hlen
    have hexec : exec (.telegramPathLoss p) s = .next (((s.withSafe { s.safe with lost := setAt s.safe.lost p.val true, good := setAt s.safe.good p.val 0 }).setFlag
        (pathFlag p.val) false).raise 199 p.val 1#32) := congrArg Host.Outcome.next (if_neg (by simp [hen, hlost]))
    refine ⟨_, hexec, nth_setAt_same _ _ _ _ (by rw [hlen]; exact p.isLt), ?_, rfl⟩
    rw [State.raise_flag]
    fin_cases p
    · exact State.flag_put _ R.safeTel_PATH_A false rfl rfl
    · exact State.flag_put _ R.safeTel_PATH_B false rfl rfl
  case write =>
    intro s w v
    obtain ⟨hword, hS, hH⟩ := safeStageWrite_shows s w.val v
    exact ⟨_, rfl, hword, rfl, hS, hH, rfl, rfl⟩
  case stage =>
    intro s r hs htarget hp hsingle hup hgood
    refine ⟨(stageWritten s (stagedSet s)).raise 202 0 1#32, ?_, ?_, (State.raise_reg ..).trans (stageWritten_stgS _),
      (State.raise_reg ..).trans (stageWritten_stgH _), ?_⟩
    · rw [exec_of_served (c := .safeParamStage r) rfl hs (by simp [htarget, hp]), opSafeStage_stages hsingle hup hgood]
    · rw [State.raise_safe, stageWritten_part (k := State.safe) (fun _ _ _ => rfl)]
      rfl
    · rw [State.raise_occ, stageWritten_part (k := State.evt) (fun _ _ _ => rfl)]
      rfl
  case confirm =>
    intro s r ws hs htarget hp hsingle hstg hfixed hconf
    refine ⟨_, congrArg Host.Outcome.next (safeConfirm_waits hs hsingle htarget (by simp [hp])), by rw [hconf, List.nil_append], ?_⟩
    have hnone : s.withSafe { s.safe with conf := [] } = s := by
      have hsame : ({ s.safe with conf := [] } : SafeS) = s.safe := by rw [← hconf]
      rw [hsame]
      rfl
    rw [hconf, List.nil_append]
    refine Eq.trans (congrArg (fun u => respond r (opSafeConfirm r u)) hnone) ?_
    rw [opSafeConfirm_takes hp hsingle hstg hfixed]
  case ack =>
    intro s r hs htarget hp hsingle hack
    rw [exec_of_served (c := .safeAck r) rfl hs (by simp [htarget, hp]), opSafeAck_waits hsingle hack]

end Sys2Proof.Machine
end

section
/-! PROOF. O38, system time (15_ethernet_time.md R386 to R388, R391, R392, R397; 17_sward_sheaf.md R443). -/

namespace Sys2Proof.Machine

open Sys2Proof

/-! ### Words and limits -/

theorem wdInt_toInt (w : Word) : wdInt w.toInt = w := BitVec.ofInt_toInt

/-- A limited rate is within its limits. -/
theorem rateClamp_of_within {r : Int} (hlo : -128000000 ≤ r) (hhi : r ≤ 128000000) : rateClamp r = r := by
  simp only [rateClamp, clampI]
  omega

theorem rateClamp_rateClamp (r : Int) : rateClamp (rateClamp r) = rateClamp r := by
  simp only [rateClamp, clampI]
  omega

theorem rateClamp_ratePpb (q : Rat) : rateClamp (ratePpb q) = ratePpb q := rateClamp_rateClamp _

/-! ### RATE, slews and the state of the servo (R386, R388, R391) -/

section

variable (s : State) (r : Int)

theorem setRate_rate : (setRate s r).reg R.timeRate = wdInt (rateClamp r) := State.reg_setReg_same ..

theorem setRate_fld {f : RF} (h : R.timeRate.beq f.addr = false) : (setRate s r).fld f = s.fld f :=
  State.fld_setReg_ne (stRebase s) f _ (Nat.ne_of_beq_eq_false h)

variable {s}

theorem slewEnd_some {old : Word} {e : Tick} (h : s.net.slew = some (old, e)) :
    slewEnd s = (setRate s old.toInt).withNet { (setRate s old.toInt).net with slew := none } := by
  unfold slewEnd
  rw [h]

/-- No slew runs once it has been ended. -/
theorem slewEnd_slew : (slewEnd s).net.slew = none := by
  unfold slewEnd
  split
  · assumption
  · rfl

theorem State.at_net (s : State) (t : Tick) : (s.at t).net = s.net := State.at_keeps_field State.net (fun _ _ => rfl) s t

theorem slewDone_ends {old : Word} {e : Tick} (h : s.net.slew = some (old, e)) : slewDone s = slewEnd (s.at e) := by
  unfold slewDone
  rw [h]

theorem timeState_fld (s : State) {st : Nat} (h : st < 8) : (timeState s st).fld R.timeStat_STATE = st := by
  unfold timeState
  extract_lets old s1 src
  by_cases hold : old = st
  · rw [if_pos hold]
    exact hold
  · rw [if_neg hold, State.withNet_fld, State.raise_fld, State.fld_put_of_lt s R.timeStat_STATE (w := 3) rfl h rfl]

/-- Registers other than `TIME.STAT` stay as the servo takes a state. -/
theorem timeState_reg (s : State) (st : Nat) {a : Nat} (h : R.timeStat ≠ a) : (timeState s st).reg a = s.reg a := by
  unfold timeState
  extract_lets old s1 src
  split
  · rfl
  · rw [State.withNet_reg, State.raise_reg, State.reg_setFld_ne s R.timeStat_STATE _ _ h]

theorem timeState_slew (s : State) (st : Nat) : (timeState s st).net.slew = s.net.slew := by
  unfold timeState
  dsimp only
  split <;> rfl

theorem timeState_occ (s : State) {st : Nat} (h : s.fld R.timeStat_STATE ≠ st) :
    (timeState s st).evt.occ = s.evt.occ ++ [{ ev := 216, inst := 0, detail := wd (s.fld R.timeStat_STATE * 16 + st) }] :=
  congrArg (fun u : State => u.evt.occ) (if_neg h : timeState s st = _)

end

/-! ### The commands (R388, R397) -/

section

variable {s : State} {r : Request}

theorem opTimeSet_steps {lo hi ns fr : Word} (hp : r.params = [lo, hi, ns, fr]) (hnode : nodeRuns s 5 = true) (hns : ns.toNat < 1000000000)
    (hhi : bitsOf hi 16 16 = 0) (hfr : bitsOf fr 16 16 = 0) (hsrc : s.fld R.timeCfg_SRC = 0) :
    opTimeSet r s = { st := stValid (stepTo s (stOf (hi.toNat * 2 ^ 32 + lo.toNat) ns.toNat fr.toNat)) } := by
  have h0 : r.p 0 = lo := by simp [Request.p, hp, nth]
  have h1 : r.p 1 = hi := by simp [Request.p, hp, nth]
  have h2 : r.p 2 = ns := by simp [Request.p, hp, nth]
  have h3 : r.p 3 = fr := by simp [Request.p, hp, nth]
  unfold opTimeSet
  rw [h0, h1, h2, h3, if_neg (by simp [hnode]), if_neg (by omega), if_neg (not_not_intro hsrc)]

theorem opTimeAdjust_offset {v : Word} (hp : r.params = [0#32, v]) (hnode : nodeRuns s 5 = true) (hsrc : s.fld R.timeCfg_SRC = 0) :
    opTimeAdjust r s = { st := if (s.reg R.timeThr).toNat ≤ v.toInt.natAbs then stepBy s v.toInt else slewBegin s v.toInt } := by
  have h0 : r.p 0 = 0#32 := by simp [Request.p, hp, nth]
  have h1 : r.p 1 = v := by simp [Request.p, hp, nth]
  unfold opTimeAdjust
  rw [h0, h1]
  extract_lets x rate s1
  have hrest : bitsOf 0#32 1 31 = 0 := by decide
  have hoffset : ¬ rate = true := by decide
  rw [if_neg (by simp [hnode]), if_neg (by simp [hrest, hoffset]), if_neg (not_not_intro hsrc), if_neg hoffset]
  exact (apply_ite (fun u : State => ({ st := u } : Res)) ..).symm

theorem opTimeAdjust_rate {v : Word} (hp : r.params = [1#32, v]) (hnode : nodeRuns s 5 = true) (hsrc : s.fld R.timeCfg_SRC = 0)
    (hlo : -128000000 ≤ v.toInt) (hhi : v.toInt ≤ 128000000) :
    opTimeAdjust r s = { st := (setRate s v.toInt).withNet { (setRate s v.toInt).net with slew := none } } := by
  have h0 : r.p 0 = 1#32 := by simp [Request.p, hp, nth]
  have h1 : r.p 1 = v := by simp [Request.p, hp, nth]
  have hzero : bitsOf 1#32 1 31 = 0 := by decide
  unfold opTimeAdjust
  rw [h0, h1]
  extract_lets x rate s1
  have hx : x = v.toInt := rfl
  rw [if_neg (by simp [hnode]), if_neg (by rw [hzero, hx]; omega), if_neg (not_not_intro hsrc), if_pos (by simp only [rate]; decide)]

/-- A sample is the servo's, with the parent, the delay and the UTC offset shown first. -/
theorem ptpSample_serves {p : Nat} {parent : Tick} {x : PtpSync} {d : PtpDelay} {utc : Word} (hserves : reedServes s = true) (hport : ptpPort s p = true)
    (htb : tbValid s = true) (hnode : nodeRuns s 5 = true) :
    ptpSample s p parent x d utc = servo (((newParent s p parent).setRegs
      [(R.timeOffset, nsWord (ptpOffset x d)), (R.timeMpd, nsWord (ptpDelay d)), (R.timeUtcofs, utc &&& 0x1FFFF#32)]).setFld R.timeStat_SLAVE_PORT p)
      (ptpOffset x d) :=
  if_neg (by simp [hserves, hport, htb, hnode])

theorem holdover_holds (h : s.fld R.timeStat_STATE = 1 ∨ s.fld R.timeStat_STATE = 2) : holdover s = timeState (setRate s (ratePpb s.net.integ)) 3 :=
  if_pos h

/-! ### Discipline of the timebase (R392, R443) -/

/-- Fabric time moved with the ratio: what a standby's rate of it becomes. -/
def fabricMoved (s : State) (sb : Bool) (m : Rat) : State :=
  if sb then s.withSward { s.sward with dtB := s.dt, ftB := s.sward.ftB + ((s.dt - s.sward.dtB).toInt : Rat) * (1 + s.sward.frate),
                                        frate := s.sward.frate + m / 1000000000 } else s

/-- The ratio moved by `m`: what is moved leaves `integ` and RATE. -/
def ratioMoved (s : State) (sb : Bool) (m : Rat) : State :=
  let u := setRate (fabricMoved s sb m) (ratePpb (((s.reg R.timeRate).toInt : Rat) / 256 + m))
  (u.withNet { u.net with disc := s.net.disc + m, integ := s.net.integ + m }).setFlag R.timeStat_DISC_ACT (s.net.disc + m != 0)

/-- How far the ratio moves in one second. -/
def ratioStep (s : State) (sb on : Bool) (lim : Rat) : Rat :=
  clampR (-100) 100 ((if on then clampR (-lim) lim (s.net.disc - if sb then s.sward.frate * 1000000000 else s.net.integ) else 0) - s.net.disc)

theorem fabricMoved_regs (s : State) (sb : Bool) (m : Rat) : (fabricMoved s sb m).regs = s.regs := by
  cases sb <;> rfl

theorem fabricMoved_frate (s : State) (sb : Bool) (m : Rat) :
    (fabricMoved s sb m).sward.frate = s.sward.frate + (if sb then m / 1000000000 else 0) := by
  cases sb
  · exact (add_zero _).symm
  · rfl

theorem fabricMoved_evt (s : State) (sb : Bool) (m : Rat) : (fabricMoved s sb m).evt = s.evt := by
  cases sb <;> rfl

theorem ratioMoved_rate (s : State) (sb : Bool) (m : Rat) :
    (ratioMoved s sb m).reg R.timeRate = wdInt (rateClamp (ratePpb (((s.reg R.timeRate).toInt : Rat) / 256 + m))) := by
  unfold ratioMoved
  extract_lets u src
  rw [State.reg_setFlag_ne _ R.timeStat_DISC_ACT _ _ (by decide), State.withNet_reg]
  exact setRate_rate ..

/-- With the PLL locked, and the servo running where it is what disciplines, the ratio moves unless it stands where it should. -/
theorem discipline_eq {sb on : Bool} {lim : Rat} (hlock : s.flag R.clkStat_TPLL_LOCK = true) (hsb : sb = (s.fld R.sheafCfg_ROLE == 2))
    (hon : on = (s.flag R.timeCfg_DISC || sb)) (hlim : lim = (s.fld R.timeCfg_DISC_LIM * 10000 : Nat))
    (hserves : sb = false → on = true → s.fld R.timeStat_STATE = 1 ∨ s.fld R.timeStat_STATE = 2) :
    discipline s = if ratioStep s sb on lim = 0 then s else ratioMoved s sb (ratioStep s sb on lim) := by
  have hrate : (s.fld R.timeCfg_DISC_LIM : Rat) * 10000 = lim := by rw [hlim, Nat.cast_mul]; rfl
  have hruns : (!sb && on && s.fld R.timeStat_STATE != 1 && s.fld R.timeStat_STATE != 2) = false := by
    cases hb : sb
    · cases ho : on
      · rfl
      · rcases hserves hb ho with h | h <;> simp [h]
    · rfl
  unfold discipline
  extract_lets sb' on' st lim' err target m' x s0 rate s1 src
  have hsb' : sb' = sb := hsb.symm
  have hon' : on' = on := by rw [hon, ← hsb']
  have hlim' : lim' = lim := hrate
  have hm : m' = ratioStep s sb on lim := by
    rw [← hsb', ← hon', ← hlim']
    rfl
  have hs0 : s0 = fabricMoved s sb m' := by
    rw [← hsb']
    rfl
  have hreg : s0.reg R.timeRate = s.reg R.timeRate :=
    congrArg (fun l => tblGet l R.timeRate (resetWord R.timeRate)) (hs0 ▸ fabricMoved_regs s sb m')
  have hs1 : s1 = setRate (fabricMoved s sb m') (ratePpb (((s.reg R.timeRate).toInt : Rat) / 256 + m')) := by
    simp only [s1, rate, hreg]
    rw [hs0]
  have hgate : (!s.flag R.clkStat_TPLL_LOCK || (!sb' && on' && st != 1 && st != 2) || m' == 0) = (m' == 0) := by
    rw [hlock, hsb', hon', hruns]
    rfl
  rw [hgate, ← hm]
  by_cases hz : m' = 0
  · rw [if_pos hz, if_pos (beq_iff_eq.mpr hz)]
  · rw [if_neg hz, if_neg (fun h => hz (beq_iff_eq.mp h)), ratioMoved]
    simp only [src, hs1]

/-! ### `TIME.CFG` and SNAP (R391, R397) -/

/-- A write of `TIME.CFG` within its ranges: no slew runs, the servo starts again. -/
theorem timeCfgWrite_sets {w : Word} (hsrc : bitsOf w 30 2 ≠ 3) (hlo : 2 ≤ bitsOf w 9 4) (hhi : bitsOf w 9 4 ≤ 10) (hlog : bitsOf w 6 3 ≤ 5) {u : State}
    (hu : u = timeState ((slewEnd s).setReg R.timeCfg (w &&& ~~~0x3F#32)) (if bitsOf w 30 2 = 0 then 4 else 0)) :
    timeCfgWrite s w = { st := u.withNet { u.net with good := 0, bad := 0 } } := by
  subst hu
  exact if_neg (by omega)

variable (s)

theorem timeSnap_dt : (timeSnap s).reg64 R.timeSnapDtLo = s.dt := by
  have hkept (a : Nat) (ha : a < R.timeSnapSec) : (timeSnap s).reg a = (s.setReg64 R.timeSnapDtLo s.dt).reg a := by
    refine State.reg_setRegs_ne _ fun e he => ?_
    simp only [List.mem_cons, List.not_mem_nil, or_false] at he
    simp only [R.timeSnapSec] at ha
    rcases he with rfl | rfl | rfl <;> simp only [R.timeSnapSec, R.timeSnapFracHi, R.timeSnapNs] <;> omega
  rw [State.reg64, hkept _ (by decide), hkept _ (by decide)]
  exact State.reg64_setReg64_same s R.timeSnapDtLo s.dt

theorem timeSnap_sec : (timeSnap s).reg R.timeSnapSec = wdInt (stAt s s.dt / 65536 / 1000000000) :=
  (State.reg_setReg_ne _ R.timeSnapNs _ _ (by decide)).trans ((State.reg_setReg_ne _ R.timeSnapFracHi _ _ (by decide)).trans (State.reg_setReg_same ..))

theorem timeSnap_ns : (timeSnap s).reg R.timeSnapNs = wdInt (stAt s s.dt / 65536 % 1000000000) := State.reg_setReg_same ..

end

/-- Settles O38, command by command. -/
theorem systemTime : Obligations.System_Time := by
  refine ⟨?set, ?offset, ?rate, ?slew, ?sample, ?holdover, ?discipline, ?cfg, ?snap⟩
  case set =>
    intro s r lo hi ns fr hs htarget hp hnode hns hhi hfr hsrc
    rw [exec_of_served (c := .timeSet r) rfl hs (by simp [htarget, hp]), opTimeSet_steps hp hnode hns hhi hfr hsrc]
  case offset =>
    intro s r v hs htarget hp hnode hsrc
    rw [exec_of_served (c := .timeAdjustOffset r) rfl hs (by simp [htarget, hp]), opTimeAdjust_offset hp hnode hsrc]
  case rate =>
    intro s r v hs htarget hp hnode hsrc hlo hhi
    refine ⟨(setRate s v.toInt).withNet { (setRate s v.toInt).net with slew := none }, ?_, ?_, rfl, rfl, rfl, rfl⟩
    · rw [exec_of_served (c := .timeAdjustRate r) rfl hs (by simp [htarget, hp]), opTimeAdjust_rate hp hnode hsrc hlo hhi]
    · rw [State.withNet_reg, setRate_rate, rateClamp_of_within hlo hhi, wdInt_toInt]
  case slew =>
    intro s old e h
    have hat : (s.at e).net.slew = some (old, e) := by rw [State.at_net, h]
    refine ⟨_, congrArg Host.Outcome.next ((slewDone_ends h).trans (slewEnd_some hat)), rfl, ?_, rfl, rfl⟩
    rw [State.withNet_reg, setRate_rate]
  case sample =>
    rintro s v p parent x d o m utc t rfl rfl rfl hserves hport htb hnode
    exact congrArg Host.Outcome.next (ptpSample_serves hserves hport htb hnode)
  case holdover =>
    intro s h
    have hstate : (setRate s (ratePpb s.net.integ)).fld R.timeStat_STATE = s.fld R.timeStat_STATE := setRate_fld _ _ rfl
    refine ⟨_, congrArg Host.Outcome.next (holdover_holds h), timeState_fld _ (by decide), ?_, ?_⟩
    · rw [timeState_reg _ _ (by decide), setRate_rate, rateClamp_ratePpb]
    · rw [timeState_occ _ (by rw [hstate]; omega), hstate]
      rfl
  case discipline =>
    intro s sb on lim m hlock hsb hon hlim hm hserves
    have hstep : m = ratioStep s sb on lim := hm
    have hexec : exec .timebaseDiscipline s = .next (if m = 0 then s else ratioMoved s sb m) := by
      rw [hstep]
      exact congrArg Host.Outcome.next (discipline_eq hlock hsb hon hlim hserves)
    refine ⟨fun hz => hexec.trans (congrArg _ (if_pos hz)), fun hz => ⟨ratioMoved s sb m, hexec.trans (congrArg _ (if_neg hz)), rfl, ?_, ?_, ?_, ?_, ?_⟩⟩
    · rfl
    · exact State.flag_put _ R.timeStat_DISC_ACT _ rfl rfl
    · exact ratioMoved_rate s sb m
    · exact fabricMoved_frate s sb m
    · exact fabricMoved_evt s sb m
  case cfg =>
    intro s w hready hsrc hlo hhi hlog
    refine ⟨_, congrArg Host.Outcome.next ((regRowWrite_ready _ hready).trans (congrArg Res.st (timeCfgWrite_sets hsrc hlo hhi hlog rfl))), ?_, ?_, rfl, rfl, ?_⟩
    · rw [State.withNet_reg, timeState_reg _ _ (by decide), State.reg_setReg_same]
    · rw [State.withNet_fld, timeState_fld]
      split <;> decide
    · exact (timeState_slew _ _).trans slewEnd_slew
  case snap =>
    intro s hready
    exact ⟨_, congrArg Host.Outcome.next (regRowWrite_ready _ hready), timeSnap_dt s, timeSnap_sec s, timeSnap_ns s, rfl, rfl⟩

end Sys2Proof.Machine
end

section
/-! PROOF. O39, Ethernet ports and pulse outputs (15_ethernet_time.md R379 to R385, R389, R393, R394, R396). -/

namespace Sys2Proof.Machine

open Sys2Proof

/-! ### Frames (R380) -/

section

variable {s : State} {p : Nat} {bytes : List Byte} {room : Bool} {t : Tick} {off : Nat}

/-- A frame the port takes: within its lengths, of its VLAN, to its own address or a group's. -/
def ethTakes (s : State) (p : Nat) (bytes : List Byte) (off : Nat) : Prop :=
  off ≤ bytes.length ∧ bytes.length ≤ 1518 ∧ (beAt bytes 12 2 = 0x8100 → beAt bytes 14 2 % 4096 = s.fld (R.ethCfg_VID p)) ∧
    (ethGroups.contains (beAt bytes 0 6) = true ∨ beAt bytes 0 6 = ethMac s p)

/-- A frame handed on by its type. -/
def ethHandOn (u : State) (p : Nat) (bytes : List Byte) (t : Tick) (off : Nat) : State :=
  if beAt bytes (off - 2) 2 = 0x0806 then arpReceive u p (beAt bytes 6 6) (bytes.drop off)
  else if beAt bytes (off - 2) 2 = 0x0800 then
    ipReceive u p (beAt bytes 6 6) (if beAt bytes 12 2 = 0x8100 then some (beAt bytes 14 2 / 8192) else none) (bytes.drop off) t
  else if beAt bytes (off - 2) 2 = 0x88F7 then ptpReceive u p true (bytes.drop off) t
  else ethFilter u p

/-- A frame lost for want of room, told. -/
def ethLost (s : State) (p : Nat) : State :=
  let u := (s.cntSat (R.ethDrops_RX_DROPS p)).setFlag (R.ethStat_RX_DROP p) true
  u.raiseLim 225 p (wd (u.fld (R.ethDrops_RX_DROPS p))) (100 * msTicks)

theorem ethReceive_takes (hup : ethUp s p = true) (hoff : off = if beAt bytes 12 2 = 0x8100 then 18 else 14) (h : ethTakes s p bytes off) :
    ethReceive s p bytes room t = if room then ethHandOn (s.cntWrap (R.ethCnt_RX_FRAMES p)) p bytes t off else ethLost s p := by
  obtain ⟨hmin, hmax, hvlan, hdst⟩ := h
  unfold ethReceive
  extract_lets dst src tagged tci off' typ body tag s1 s2
  have hoff' : off' = off := by simp only [off', tagged, decide_eq_true_eq, hoff]
  have htag : tag = if beAt bytes 12 2 = 0x8100 then some (beAt bytes 14 2 / 8192) else none := by
    simp only [tag, tagged, decide_eq_true_eq]
    rfl
  have hgood : ¬ (bytes.length < off' ∨ 1518 < bytes.length ∨ (tagged ∧ tci % 4096 ≠ s.fld (R.ethCfg_VID p)) ∨
      (dst ≠ ethMac s p ∧ !ethGroups.contains dst)) := by
    rw [hoff']
    rintro (h | h | ⟨h, h'⟩ | ⟨h, h'⟩)
    · omega
    · omega
    · exact h' (hvlan (of_decide_eq_true h))
    · exact hdst.elim (fun hgroup => Bool.false_ne_true (((Bool.not_eq_true' _).mp h').symm.trans hgroup)) h
  rw [if_neg (by simp [hup]), if_neg hgood]
  cases room
  · rfl
  · rw [if_neg (by simp), if_pos rfl, ethHandOn, ← htag, ← hoff']

/-- A frame the port does not take is counted in FILTERED. -/
theorem ethReceive_filters (hup : ethUp s p = true)
    (h : bytes.length < 14 ∨ 1518 < bytes.length ∨ (beAt bytes 0 6 ≠ ethMac s p ∧ ethGroups.contains (beAt bytes 0 6) = false)) :
    ethReceive s p bytes room t = s.cntSat (R.ethDrops_FILTERED p) := by
  unfold ethReceive
  extract_lets dst src tagged tci off typ body tag s1 s2
  have hoff : 14 ≤ off := by
    simp only [off]
    split <;> decide
  have hbad : bytes.length < off ∨ 1518 < bytes.length ∨ (tagged ∧ tci % 4096 ≠ s.fld (R.ethCfg_VID p)) ∨ (dst ≠ ethMac s p ∧ !ethGroups.contains dst) := by
    rcases h with h | h | ⟨h, h'⟩
    · exact .inl (by omega)
    · exact .inr (.inl h)
    · exact .inr (.inr (.inr ⟨h, (Bool.not_eq_true' _).mpr h'⟩))
  rw [if_neg (by simp [hup]), if_pos hbad]
  rfl

/-! ### The link and management accesses (R379, R396) -/

theorem ethLink_tells {up slow : Bool} (hnode : nodeRuns s (17 + p) = true) : ∃ u : State, u.flag (R.ethStat_LINK p) = up ∧
    u.flag (R.ethStat_SPD_SEEN p) = slow ∧ u.evt = s.evt ∧
    ethLink s p up slow = if s.flag (R.ethStat_LINK p) = up then u else u.raise 224 p (wd (b2n up)) := by
  refine ⟨(s.setFlag (R.ethStat_LINK p) up).setFlag (R.ethStat_SPD_SEEN p) slow, ?_, State.flag_put _ (R.ethStat_SPD_SEEN p) slow rfl rfl, rfl, if_neg (by simp [hnode])⟩
  exact (State.flag_beside _ (R.ethStat_SPD_SEEN p) (R.ethStat_LINK p) _ rfl rfl rfl).trans (State.flag_put s (R.ethStat_LINK p) up rfl rfl)

/-- A word of `ETH.MDIO` with GO: what is written of it, and BUSY. -/
def mdioBegun (old w : Word) : Word := mergeBits old (w ||| 0x80000000#32) 0x23FFFFFF#32 ||| 0x40000000#32

theorem mdioBegun_busy (old w : Word) : bitOf (mdioBegun old w) 30 = true := by
  simp [bitOf, mdioBegun]

theorem mdioBegun_written (old w : Word) : mdioBegun old w &&& 0x23FFFFFF#32 = w &&& 0x23FFFFFF#32 := by
  have hapart : ∀ i : Fin 32, (0x23FFFFFF#32).getLsbD i = true → (0x80000000#32).getLsbD i = false ∧ (0x40000000#32).getLsbD i = false := by decide
  refine BitVec.eq_of_getLsbD_eq fun i hi => ?_
  simp only [mdioBegun, mergeBits, BitVec.getLsbD_and, BitVec.getLsbD_or, BitVec.getLsbD_not]
  cases hm : (0x23FFFFFF#32).getLsbD i
  · rw [Bool.and_false, Bool.and_false]
  · obtain ⟨hgo, hbusy⟩ := hapart ⟨i, hi⟩ hm
    rw [hgo, hbusy, Bool.not_true, Bool.and_false, Bool.and_false, Bool.false_or, Bool.or_false, Bool.or_false, Bool.and_true, Bool.and_true]

theorem mdioWrite_begins {w : Word} (hidle : s.flag (R.ethMdio_BUSY p) = false) :
    mdioWrite s p (w ||| 0x80000000#32) = { st := s.setReg (R.ethMdio p) (mdioBegun (s.reg (R.ethMdio p)) w) } := by
  have hgo : bitOf (w ||| 0x80000000#32) 31 = true := by simp [bitOf]
  unfold mdioWrite
  extract_lets v
  rw [if_neg (by simp [hidle]), if_pos hgo]
  rfl

theorem mdioDone_ends (hbusy : s.flag (R.ethMdio_BUSY p) = true) (data : Nat) :
    mdioDone s p data = if s.flag (R.ethMdio_READ p) then (s.setFlag (R.ethMdio_BUSY p) false).setFld (R.ethMdio_DATA p) data
      else s.setFlag (R.ethMdio_BUSY p) false :=
  if_neg (by simp [hbusy])

/-! ### PTP messages (R389) -/

section

variable (hserves : reedServes s = true) (hport : ptpPort s p = true) (hup : ethUp s p = true)
include hserves hport hup

theorem ptpInterval_sync (h : ptpMaster s p = true) : ptpInterval s p 0 = ptpSend s p 0 :=
  (if_neg (by simp [hserves, hport, hup])).trans (if_pos h)

theorem ptpInterval_announce (h : ptpMaster s p = true) : ptpInterval s p 1 = ptpSend s p 11 :=
  (if_neg (by simp [hserves, hport, hup])).trans (if_pos h)

theorem ptpInterval_delay (hslave : ptpMaster s p = false) (he2e : ptpP2p s p = false) : ptpInterval s p 2 = ptpSend s p 1 :=
  (if_neg (by simp [hserves, hport, hup])).trans (if_pos (by simp [hslave, he2e]))

theorem ptpInterval_peer (h : ptpP2p s p = true) : ptpInterval s p 3 = ptpSend s p 2 ∧ ptpInterval s p 4 = ptpSend s p 3 :=
  ⟨(if_neg (by simp [hserves, hport, hup])).trans (if_pos h), (if_neg (by simp [hserves, hport, hup])).trans (if_pos h)⟩

end

end

/-! ### Pulse outputs (R393, R394) -/

section

variable {s : State} {r : Request}

theorem opPulse_stops (hnode : nodeRuns s 5 = true) (htarget : r.target ≤ 3) (hgood : pulseBad r = false) (hoff : bitOf (r.p 0) 31 = false) :
    opPulse r s = { st := (pulseStop s r.target).setPulse r.target {} } := by
  unfold opPulse
  extract_lets i st
  rw [if_neg (by simp [hnode]), if_neg (by omega), if_neg (by simp [hgood]), if_pos (by simp [hoff])]

theorem opPulse_programs (hnode : nodeRuns s 5 = true) (htarget : r.target ≤ 3) (hgood : pulseBad r = false) (hon : bitOf (r.p 0) 31 = true)
    (hvalid : bitOf (r.p 0) 30 = true ∨ s.flag R.timeStat_ST_VALID = true)
    (hsoon : r.p 4 = 0#32 → s.dt.toInt + (us10 : Int) ≤ (if bitOf (r.p 0) 30 then BitVec.ofInt 64 (pulseStart r) else dtOf s (pulseStart r)).toInt) :
    opPulse r s = { st := pulseSet s r.target r } := by
  unfold opPulse
  extract_lets i st
  have hst : ¬ (st && !s.flag R.timeStat_ST_VALID) = true := by
    simp only [st]
    rcases hvalid with h | h <;> simp [h]
  have hnear : ¬ (decide (r.p 4 = 0#32)
      && decide ((if st then dtOf s (pulseStart r) else BitVec.ofInt 64 (pulseStart r)).toInt < s.dt.toInt + (us10 : Int))) = true := by
    intro h
    obtain ⟨hone, hlt⟩ := Bool.and_eq_true_iff.mp h
    have hle := hsoon (of_decide_eq_true hone)
    have hlt := of_decide_eq_true hlt
    simp only [st] at hlt
    cases hscale : bitOf (r.p 0) 30 <;> simp only [hscale, Bool.not_false, Bool.not_true, Bool.false_eq_true, if_true, if_false] at hle hlt <;> omega
  rw [if_neg (by simp [hnode]), if_neg (by omega), if_neg (by simp [hgood]), if_neg (by simp [hon]), if_neg hst, if_neg hnear]

section

variable {i : Nat} {x : Pulse} (hen : s.flag (R.timePstat_ENABLED i) = true) (hheld : s.flag (R.timePstat_HELD i) = false) (hx : x = s.pulse i)
include hen hheld hx

/-- The rising edge of an output that runs. -/
theorem pulseFix_rise {r : Tick} (hrise : x.rise = none) (hr : r = pulseRise s i x.k) :
    pulseFix s i = if s.dt.toInt + (us10 : Int) < r.toInt then s
      else if r.toInt < s.dt.toInt ∨ r.toInt < x.notBefore.toInt then pulseSync (s.setPulse i { x with notBefore := s.dt + tk us10 }) false i
      else s.setPulse i { x with rise := some r } := by
  subst hx hr
  unfold pulseFix
  rw [if_neg (by simp [hen, hheld])]
  extract_lets y
  rw [hrise]

/-- The falling edge fixed: the pulse is done. -/
def pulseDone (s : State) (i : Nat) (x : Pulse) (r f : Tick) : State :=
  (s.setPulse i { x with rise := none, last := some (r, if f.toInt < s.dt.toInt then s.dt else f), k := x.k + 1, left := x.left.map (· - 1) }).cntWrap
    (R.timePdone_VALUE i)

/-- The falling edge of an output that runs, 10 µs away or closer. -/
theorem pulseFix_fall {r f : Tick} {u : State} (hrise : x.rise = some r) (hf : f = pulseDt s i (x.start + (x.k : Int) * x.per + x.wid))
    (hsoon : f.toInt ≤ s.dt.toInt + (us10 : Int)) (hu : u = pulseDone s i x r f) :
    pulseFix s i = match x.left.map (· - 1) with
      | none => u
      | some n => if n = 0 then (pulseStop (u.setReg (R.timePleft i) (wd n)) i).raise 219 i (wd ((u.setReg (R.timePleft i) (wd n)).fld (R.timePdone_VALUE i) % 65536))
        else u.setReg (R.timePleft i) (wd n) := by
  subst hx hf hu
  unfold pulseFix
  rw [if_neg (by simp [hen, hheld])]
  extract_lets y
  have hnear : ¬ s.dt.toInt + (us10 : Int) < (pulseDt s i ((s.pulse i).start + ((s.pulse i).k : Int) * (s.pulse i).per + (s.pulse i).wid)).toInt := by
    omega
  rw [hrise]
  exact if_neg hnear

end

end

/-- Settles O39, command by command. -/
theorem ethernetAndPulses : Obligations.Ethernet_And_Pulses := by
  refine ⟨?frame, ?filtered, ?link, ?access, ?accessDone, ?interval, ?program, ?rise, ?fall⟩
  case frame =>
    rintro s v u p bytes t off rfl hup hoff hmin hmax hvlan hdst rfl
    have htakes : ethTakes (s.at t) p.val bytes off := ⟨hmin, hmax, hvlan, hdst⟩
    have hroom : exec (.ethFrameReceive p bytes true t) s = .next (ethHandOn ((s.at t).cntWrap (R.ethCnt_RX_FRAMES p.val)) p.val bytes t off) :=
      congrArg Host.Outcome.next ((ethReceive_takes hup hoff htakes).trans (if_pos rfl))
    refine ⟨fun htyp => ?_, fun htyp => ?_, fun htyp => ?_, fun htyp => ?_, ?_⟩
    · rw [hroom, ethHandOn, if_pos htyp]
    · rw [hroom, ethHandOn, if_neg (by omega), if_pos htyp]
    · rw [hroom, ethHandOn, if_neg (by omega), if_neg (by omega), if_pos htyp]
    · simp only [List.mem_cons, List.not_mem_nil, or_false, not_or] at htyp
      rw [hroom, ethHandOn, if_neg htyp.1, if_neg htyp.2.1, if_neg htyp.2.2]
      rfl
    · rintro w rfl
      exact congrArg Host.Outcome.next ((ethReceive_takes hup hoff htakes).trans (if_neg Bool.false_ne_true))
  case filtered =>
    rintro s v p bytes room t rfl hup hbad
    exact congrArg Host.Outcome.next (ethReceive_filters hup hbad)
  case link =>
    intro s p up slow hnode
    obtain ⟨u, hlink, hseen, hevt, hall⟩ := ethLink_tells (s := s) (up := up) (slow := slow) hnode
    have hexec : exec (.ethLinkChange p up slow) s = .next (ethLink s p.val up slow) := rfl
    rw [hexec, hall]
    by_cases hsame : s.flag (R.ethStat_LINK p.val) = up
    · rw [if_pos hsame, if_pos hsame, List.append_nil]
      exact ⟨u, rfl, hlink, hseen, congrArg EvtS.occ hevt⟩
    · rw [if_neg hsame, if_neg hsame]
      exact ⟨_, rfl, hlink, hseen, (State.raise_occ ..).trans (congrArg (fun e => EvtS.occ e ++ _) hevt)⟩
  case access =>
    intro s p w hready hidle
    refine ⟨_, congrArg Host.Outcome.next ((regRowWrite_ready _ hready).trans (congrArg Res.st (mdioWrite_begins hidle))), ?_, ?_, fun a ha => ?_, rfl⟩
    · exact (congrArg (· == 1) (State.fld_setReg_same s (R.ethMdio_BUSY p.val) _)).trans ((flag_eq_bitOf _ (by decide : 30 < 32)).trans (mdioBegun_busy ..))
    · rw [State.reg_setReg_same, mdioBegun_written]
    · exact State.reg_setReg_ne _ _ _ _ ha.symm
  case accessDone =>
    intro s p d hbusy
    have hidle : (s.setFlag (R.ethMdio_BUSY p.val) false).flag (R.ethMdio_BUSY p.val) = false := State.flag_put s (R.ethMdio_BUSY p.val) false rfl rfl
    refine ⟨_, congrArg Host.Outcome.next (mdioDone_ends hbusy d.toNat), ?_⟩
    cases hread : s.flag (R.ethMdio_READ p.val)
    · rw [if_neg Bool.false_ne_true, if_neg Bool.false_ne_true]
      exact ⟨hidle, State.fld_beside s (R.ethMdio_BUSY p.val) (R.ethMdio_DATA p.val) _ rfl rfl rfl, fun a ha => State.reg_setFlag_ne _ (R.ethMdio_BUSY p.val) _ _ ha.symm, rfl⟩
    · rw [if_pos rfl, if_pos rfl]
      refine ⟨(State.flag_beside _ (R.ethMdio_DATA p.val) (R.ethMdio_BUSY p.val) _ rfl rfl rfl).trans hidle, ?_, fun a ha => ?_, rfl⟩
      · exact State.fld_put_of_lt _ (R.ethMdio_DATA p.val) (w := 16) rfl d.isLt rfl
      · exact (State.reg_setFld_ne _ (R.ethMdio_DATA p.val) _ _ ha.symm).trans (State.reg_setFlag_ne _ (R.ethMdio_BUSY p.val) _ _ ha.symm)
  case interval =>
    rintro s v p t rfl hserves hport hup
    refine ⟨fun h => ⟨?_, ?_⟩, fun hslave he2e => ?_, fun h => ⟨?_, ?_⟩⟩
    · exact congrArg Host.Outcome.next (ptpInterval_sync hserves hport hup h)
    · exact congrArg Host.Outcome.next (ptpInterval_announce hserves hport hup h)
    · exact congrArg Host.Outcome.next (ptpInterval_delay hserves hport hup hslave he2e)
    · exact congrArg Host.Outcome.next (ptpInterval_peer hserves hport hup h).1
    · exact congrArg Host.Outcome.next (ptpInterval_peer hserves hport hup h).2
  case program =>
    intro s r hs hlen hnode htarget hgood
    have hexec := exec_of_served (c := .pulseProgram r) rfl hs (by simp [hlen])
    refine ⟨fun hoff => ?_, fun hon hvalid hsoon => ?_⟩
    · rw [hexec, opPulse_stops hnode htarget hgood hoff]
    · rw [hexec, opPulse_programs hnode htarget hgood hon hvalid hsoon]
  case rise =>
    rintro s v i t x r rfl hen hheld hx hrise hr
    have hexec : exec (.pulseEdgeFix i t) s = .next (pulseFix (s.at t) i.val) := rfl
    rw [hexec, pulseFix_rise hen hheld hx hrise hr]
    refine ⟨fun hfar => ?_, fun hsoon hnow hbound => ?_, fun hsoon hlate => ?_⟩
    · rw [if_pos hfar]
    · rw [if_neg (by omega), if_neg (by omega)]
    · rw [if_neg (by omega), if_pos hlate]
  case fall =>
    rintro s v u i t x r f rfl hen hheld hx hrise hf hsoon hu
    have hexec : exec (.pulseEdgeFix i t) s = .next (pulseFix (s.at t) i.val) := rfl
    rw [hexec, pulseFix_fall hen hheld hx hrise hf hsoon hu]
    refine ⟨fun hleft => ?_, fun n hleft => ?_, fun w hleft hw => ?_⟩
    · rw [hleft]
      rfl
    · rw [hleft]
      rfl
    · rw [hleft, hw]
      rfl

end Sys2Proof.Machine
end

section
/-! PROOF. O40, modes and error states of the CAN controllers (16_can_fd.md R401 to R403), with the layer the other CAN statements use: which
fields of a controller's registers its counters, its mode and the show of its slots leave alone. -/

namespace Sys2Proof.Machine

open Sys2Proof

/-! ### The show of the slots (R415) -/

section

variable (s : State) (n i : Nat)

theorem canSlotShow_part {γ : Type} {k : State → γ} (hreg : ∀ t a x, k (State.setReg t a x) = k t) : k (canSlotShow s n i) = k s :=
  (hreg ..).trans (hreg ..)

theorem canSlotsShow_part {γ : Type} {k : State → γ} (hreg : ∀ t a x, k (State.setReg t a x) = k t) : k (canSlotsShow s n) = k s :=
  foldl_keep (canSlotShow · n) k (fun t i => canSlotShow_part t n i hreg) _ s

/-- A register that shows no slot. -/
def canUnslotted (n a : Nat) : Prop := ∀ i, i < 16 → R.canSlot n i ≠ a

variable {n} {a : Nat} {f : RF}

theorem canSlotShow_reg {i : Nat} (h : R.canSlot n i ≠ a) : (canSlotShow s n i).reg a = s.reg a := by
  unfold canSlotShow
  extract_lets st tag
  rw [State.reg_setFld_ne _ (R.canSlot_TAG n i) _ _ h, State.reg_setFld_ne s (R.canSlot_SSTATE n i) _ _ h]

theorem canSlotsShow_reg (h : canUnslotted n a) : (canSlotsShow s n).reg a = s.reg a :=
  foldl_keep_of_mem (f := (canSlotShow · n)) (g := (State.reg · a)) (fun t i hi => canSlotShow_reg t (h i (List.mem_range.mp hi))) s

theorem canSlotsShow_fld (h : canUnslotted n f.addr) : (canSlotsShow s n).fld f = s.fld f := congrArg (bitsOf · f.lo f.w) (canSlotsShow_reg s h)

/-- The registers of a controller below its slots. -/
theorem canUnslotted_of_lt (h : a < 0x1D0300 + 0x400 * n) : canUnslotted n a := by
  intro i _
  simp only [R.canSlot]
  omega

theorem canUnslotted_stat : canUnslotted n (R.canStat n) := canUnslotted_of_lt (by simp only [R.canStat]; omega)

theorem canUnslotted_ctrl : canUnslotted n (R.canCtrl n) := canUnslotted_of_lt (by simp only [R.canCtrl]; omega)

theorem canUnslotted_cnt : canUnslotted n (R.canCnt n) := canUnslotted_of_lt (by simp only [R.canCnt]; omega)

theorem canStat_ne_canCtrl : R.canStat n ≠ R.canCtrl n := by
  simp only [R.canStat, R.canCtrl]
  omega

theorem canStat_ne_canCnt : R.canStat n ≠ R.canCnt n := by
  simp only [R.canStat, R.canCnt]
  omega

end

/-! ### Error states (R402) -/

section

variable (s : State) (n tec rec_ : Nat)

/-- The error state two counters mean. -/
def canErrOf : Nat := if 255 < tec then 2 else if 127 < tec ∨ 127 < rec_ then 1 else 0

/-- A controller's counters and error state as they show, before the change is told. -/
def canCounted : State :=
  let st := canErrOf tec rec_
  let x := s.canN n
  let s1 := s.setCanN n { x with tec := tec, rec_ := rec_, cur := if st = 2 then none else x.cur, curMsg := if st = 2 then none else x.curMsg,
                                 recov := if st = 2 then x.recov || (canErr s n != 2 && s.flag (R.canCtrl_AUTO_REC n)) else false }
  ((s1.setFld (R.canStat_TEC n) (min tec 255)).setFld (R.canStat_REC n) (min rec_ 255)).setFld (R.canStat_ERRSTATE n) st

theorem canCounters_eq : canCounters s n tec rec_ = if canErrOf tec rec_ = canErr s n then canCounted s n tec rec_
    else canSlotsShow ((canCounted s n tec rec_).raise 233 n (wd (canErrOf tec rec_))) n := rfl

theorem canErrOf_lt : canErrOf tec rec_ < 4 := by
  unfold canErrOf
  split_ifs <;> decide

variable {n tec rec_}

/-- Fields the counters show as they were told to. -/
theorem canCounters_fld_told {f : RF} (hf : canUnslotted n f.addr) : (canCounters s n tec rec_).fld f = (canCounted s n tec rec_).fld f := by
  rw [canCounters_eq, apply_ite (State.fld · f), canSlotsShow_fld _ hf, State.raise_fld, ite_self]

theorem canCounters_err : canErr (canCounters s n tec rec_) n = canErrOf tec rec_ :=
  (canCounters_fld_told s canUnslotted_stat).trans (State.fld_put_of_lt _ (R.canStat_ERRSTATE n) (w := 2) rfl (canErrOf_lt tec rec_) rfl)

theorem canCounters_rec : (canCounters s n tec rec_).fld (R.canStat_REC n) = min rec_ 255 := by
  rw [canCounters_fld_told s canUnslotted_stat, canCounted, State.fld_beside _ (R.canStat_ERRSTATE n) (R.canStat_REC n) _ rfl rfl rfl,
    State.fld_put_of_lt _ (R.canStat_REC n) (w := 8) rfl (by omega) rfl]

theorem canCounters_tec : (canCounters s n tec rec_).fld (R.canStat_TEC n) = min tec 255 := by
  rw [canCounters_fld_told s canUnslotted_stat, canCounted, State.fld_beside _ (R.canStat_ERRSTATE n) (R.canStat_TEC n) _ rfl rfl rfl,
    State.fld_beside _ (R.canStat_REC n) (R.canStat_TEC n) _ rfl rfl rfl, State.fld_put_of_lt _ (R.canStat_TEC n) (w := 8) rfl (by omega) rfl]

/-- A field of `CAN.STAT` beside the counters, the error state and the mode. -/
def canStatAside (n : Nat) (f : RF) : Prop :=
  f.addr = R.canStat n ∧ f.fits = true ∧ (R.canStat_TEC n).apart f = true ∧ (R.canStat_REC n).apart f = true ∧ (R.canStat_ERRSTATE n).apart f = true ∧
    (R.canStat_MODE_NOW n).apart f = true

theorem canCounters_fld_aside {f : RF} (hf : canStatAside n f) : (canCounters s n tec rec_).fld f = s.fld f := by
  obtain ⟨haddr, hfits, htec, hrec, herr, -⟩ := hf
  rw [canCounters_fld_told s (haddr ▸ canUnslotted_stat), canCounted, State.fld_beside _ (R.canStat_ERRSTATE n) f _ haddr.symm hfits herr,
    State.fld_beside _ (R.canStat_REC n) f _ haddr.symm hfits hrec, State.fld_beside _ (R.canStat_TEC n) f _ haddr.symm hfits htec]
  rfl

/-- Registers of a controller other than `CAN.STAT` and its slots. -/
theorem canCounters_fld {f : RF} (hf : canUnslotted n f.addr) (hstat : R.canStat n ≠ f.addr) : (canCounters s n tec rec_).fld f = s.fld f := by
  rw [canCounters_fld_told s hf, canCounted, State.fld_setFld_ne _ (R.canStat_ERRSTATE n) f _ hstat,
    State.fld_setFld_ne _ (R.canStat_REC n) f _ hstat, State.fld_setFld_ne _ (R.canStat_TEC n) f _ hstat]
  rfl

theorem canCounters_occ : (canCounters s n tec rec_).evt.occ =
    s.evt.occ ++ (if canErrOf tec rec_ = canErr s n then [] else [{ ev := 233, inst := n, detail := wd (canErrOf tec rec_) }]) := by
  have hcounted : (canCounted s n tec rec_).evt = s.evt := rfl
  rw [canCounters_eq]
  split
  · rw [hcounted, List.append_nil]
  · rw [canSlotsShow_part (k := State.evt) _ _ fun _ _ _ => rfl, State.raise_occ, hcounted]

end

/-! ### Modes (R401) -/

section

variable (s : State) (n m : Nat)

/-- A mode in effect, before the change is told. -/
def canModeSet : State :=
  let x := s.canN n
  (s.setCanN n { x with sleep := false, cur := if m = 1 then x.cur else none, curMsg := if m = 1 then x.curMsg else none }).setFld (R.canStat_MODE_NOW n) m

theorem canSetMode_eq : canSetMode s n m =
    canSlotsShow (if canMode s n = m then canModeSet s n m else (canModeSet s n m).raise 232 n (wd (canMode s n * 4 + m))) n := rfl

variable {n m}

theorem canSetMode_fld_told {f : RF} (hf : canUnslotted n f.addr) : (canSetMode s n m).fld f = (canModeSet s n m).fld f := by
  rw [canSetMode_eq, canSlotsShow_fld _ hf, apply_ite (State.fld · f), State.raise_fld, ite_self]

theorem canSetMode_reg {a : Nat} (ha : canUnslotted n a) (hstat : R.canStat n ≠ a) : (canSetMode s n m).reg a = s.reg a := by
  rw [canSetMode_eq, canSlotsShow_reg _ ha, apply_ite (State.reg · a), State.raise_reg, ite_self, canModeSet,
    State.reg_setFld_ne _ (R.canStat_MODE_NOW n) _ _ hstat]
  rfl

theorem canSetMode_fld_aside {f : RF} (haddr : f.addr = R.canStat n) (hfits : f.fits = true) (hmode : (R.canStat_MODE_NOW n).apart f = true) :
    (canSetMode s n m).fld f = s.fld f :=
  (canSetMode_fld_told s (haddr ▸ canUnslotted_stat)).trans (State.fld_beside _ (R.canStat_MODE_NOW n) f _ haddr.symm hfits hmode)

theorem canSetMode_err : canErr (canSetMode s n m) n = canErr s n := canSetMode_fld_aside s rfl rfl rfl

theorem canSetMode_can : (canSetMode s n m).can = (canModeSet s n m).can := by
  rw [canSetMode_eq, canSlotsShow_part (k := State.can) _ _ fun _ _ _ => rfl]
  exact (apply_ite State.can ..).trans (ite_self _)

end

/-! ### A write of CTRL (R400 to R402) -/

section

variable {s u v : State} {n : Nat} {w : Word}

/-- The recovery is asked for. -/
def canAsksRecovery (s : State) (n : Nat) : State := s.setCanN n { s.canN n with recov := true }

/-- The sleep waits for the end of the frame. -/
def canSleeps (s : State) (n : Nat) : State := s.setCanN n { s.canN n with sleep := true }

/-- The mode a write of CTRL asks for: SLEEP waits for the frame on the bus. -/
def canModeAsked (s : State) (n m : Nat) : State := if m = 3 ∧ (s.canN n).cur.isSome = true then canSleeps s n else canSetMode s n m

theorem canCtrlWrite_eq (s : State) (n : Nat) (w : Word) : canCtrlWrite s n w =
    if bitsOf w 8 8 < 16 ∨ (bitOf w 26 ∧ !bitOf (s.reg (R.canCtrl n)) 26 ∧ canRspClash s n) ∨ (bitOf w 28 ∧ 1 < s.fld (R.canDbt_DBRP n)) then
      refuse s stBAD_PARAM
    else if decide (mergeBits (s.reg (R.canCtrl n)) w 0xFF00FF00#32 &&& 0x3FFFFFFF#32 ≠ s.reg (R.canCtrl n) &&& 0x3FFFFFFF#32) &&
        bitsOf (s.reg (R.canCtrl n)) 30 2 != 0 then refuse s stREFUSED_STATE
    else
      let u := s.setReg (R.canCtrl n) (mergeBits (s.reg (R.canCtrl n)) w 0xFF00FF00#32)
      { st := canModeAsked (if bitOf w 23 && canErr u n == 2 then canAsksRecovery u n else u) n (bitsOf w 30 2) } := rfl

theorem canCtrlWrite_sets {new : Word} (hdom : 16 ≤ bitsOf w 8 8)
    (hcmd : bitOf w 26 = true → bitOf (s.reg (R.canCtrl n)) 26 = true ∨ canRspClash s n = false) (htdc : bitOf w 28 = true → s.fld (R.canDbt_DBRP n) ≤ 1)
    (hnew : new = mergeBits (s.reg (R.canCtrl n)) w 0xFF00FF00#32)
    (hoff : new &&& 0x3FFFFFFF#32 = s.reg (R.canCtrl n) &&& 0x3FFFFFFF#32 ∨ bitsOf (s.reg (R.canCtrl n)) 30 2 = 0) (hu : u = s.setReg (R.canCtrl n) new)
    (hv : v = if bitOf w 23 = true ∧ canErr u n = 2 then canAsksRecovery u n else u) : (canCtrlWrite s n w).st = canModeAsked v n (bitsOf w 30 2) := by
  have hgood : ¬ (bitsOf w 8 8 < 16 ∨ (bitOf w 26 ∧ !bitOf (s.reg (R.canCtrl n)) 26 ∧ canRspClash s n) ∨ (bitOf w 28 ∧ 1 < s.fld (R.canDbt_DBRP n))) := by
    rintro (h | ⟨h26, hold, hclash⟩ | ⟨h28, hlt⟩)
    · omega
    · rcases hcmd h26 with h | h
      · simp [h] at hold
      · exact Bool.false_ne_true (h.symm.trans hclash)
    · exact absurd (htdc h28) (by omega)
  subst hnew
  have hfree : ¬ (decide (mergeBits (s.reg (R.canCtrl n)) w 0xFF00FF00#32 &&& 0x3FFFFFFF#32 ≠ s.reg (R.canCtrl n) &&& 0x3FFFFFFF#32) &&
      bitsOf (s.reg (R.canCtrl n)) 30 2 != 0) = true := by
    simp only [Bool.and_eq_true, decide_eq_true_eq, bne_iff_ne]
    exact fun ⟨hothers, hmode⟩ => hoff.elim hothers hmode
  rw [canCtrlWrite_eq, if_neg hgood, if_neg hfree, ← hu, hv]
  simp only [Bool.and_eq_true, beq_iff_eq]

/-- A write of the word that stands there, with RECOVER. -/
theorem mergeBits_recover (old : Word) : mergeBits old (old ||| 0x00800000#32) 0xFF00FF00#32 = old := by
  have hapart : ∀ i : Fin 32, (0xFF00FF00#32).getLsbD i = true → (0x00800000#32).getLsbD i = false := by decide
  refine BitVec.eq_of_getLsbD_eq fun i hi => ?_
  simp only [mergeBits, BitVec.getLsbD_and, BitVec.getLsbD_or, BitVec.getLsbD_not]
  cases hm : (0xFF00FF00#32).getLsbD i
  · simp [hi]
  · rw [hapart ⟨i, hi⟩ hm]
    simp

theorem bitsOf_recover (old : Word) {lo k : Nat} (hf : lo + k ≤ 32) (h : ∀ i, i < k → bitOf 0x00800000#32 (lo + i) = false) :
    bitsOf (old ||| 0x00800000#32) lo k = bitsOf old lo k := bitsOf_or_apart hf h

theorem State.canN_setCanN (s : State) (x : CanN) (h : n < s.can.n.length) : (s.setCanN n x).canN n = x := nth_setAt_same _ _ _ _ h

theorem canModeAsked_err (s : State) (n m : Nat) : canErr (canModeAsked s n m) n = canErr s n := by
  rw [canModeAsked, apply_ite (canErr · n), canSetMode_err]
  exact ite_self _

theorem canModeAsked_ctrl (s : State) (n m : Nat) : (canModeAsked s n m).reg (R.canCtrl n) = s.reg (R.canCtrl n) := by
  rw [canModeAsked, apply_ite (State.reg · (R.canCtrl n)), canSetMode_reg _ canUnslotted_ctrl canStat_ne_canCtrl]
  exact ite_self _

theorem canModeAsked_recov (s : State) (m : Nat) (h : n < s.can.n.length) : ((canModeAsked s n m).canN n).recov = (s.canN n).recov := by
  unfold canModeAsked
  split
  · rw [canSleeps, State.canN_setCanN s _ h]
  · rw [State.canN, canSetMode_can, canModeSet, State.setFld_can, ← State.canN, State.canN_setCanN s _ h]

/-- RECOVER in bus-off: the recovery is asked for, and nothing else of CTRL changes. -/
theorem canCtrlWrite_recovers (herr : canErr s n = 2) (hdom : 16 ≤ bitsOf (s.reg (R.canCtrl n)) 8 8)
    (htdc : bitOf (s.reg (R.canCtrl n)) 28 = true → s.fld (R.canDbt_DBRP n) ≤ 1) (hn : n < s.can.n.length) {t : State}
    (ht : t = (canCtrlWrite s n (s.reg (R.canCtrl n) ||| 0x00800000#32)).st) :
    (t.canN n).recov = true ∧ canErr t n = 2 ∧ t.reg (R.canCtrl n) = s.reg (R.canCtrl n) := by
  have hbit (i : Nat) (h : bitOf 0x00800000#32 i = false) : bitOf (s.reg (R.canCtrl n) ||| 0x00800000#32) i = bitOf (s.reg (R.canCtrl n)) i := by
    rw [bitOf, BitVec.getLsbD_or, show (0x00800000#32).getLsbD i = false from h, Bool.or_false]
    rfl
  have hdom' : 16 ≤ bitsOf (s.reg (R.canCtrl n) ||| 0x00800000#32) 8 8 := by rwa [bitsOf_recover _ (by decide) (by decide)]
  obtain ⟨u, hu⟩ : ∃ u, u = s.setReg (R.canCtrl n) (s.reg (R.canCtrl n)) := ⟨_, rfl⟩
  have herr' : canErr u n = 2 := (congrArg (canErr · n) hu).trans ((State.fld_setReg_ne s (R.canStat_ERRSTATE n) _ canStat_ne_canCtrl.symm).trans herr)
  have hctrl : u.reg (R.canCtrl n) = s.reg (R.canCtrl n) := (congrArg (State.reg · (R.canCtrl n)) hu).trans (State.reg_setReg_same ..)
  have hlen : n < u.can.n.length := by rwa [hu]
  have hrec : bitOf (s.reg (R.canCtrl n) ||| 0x00800000#32) 23 = true := by simp [bitOf]
  rw [ht, canCtrlWrite_sets hdom' (fun h => .inl (hbit 26 (by decide) ▸ h)) (fun h => htdc (hbit 28 (by decide) ▸ h)) (mergeBits_recover _).symm
    (.inl rfl) hu (if_pos ⟨hrec, herr'⟩).symm]
  refine ⟨?_, (canModeAsked_err ..).trans herr', (canModeAsked_ctrl ..).trans hctrl⟩
  rw [canModeAsked_recov _ _ (by rwa [canAsksRecovery, State.setCanN, State.withCan, setAt_length])]
  exact congrArg CanN.recov (State.canN_setCanN u _ hlen)

end

/-! ### Bus errors and dominant levels (R402, R403) -/

theorem canBusError_counts {s : State} {n : Nat} (heavy : Bool) (h : canOnBus s n = true) :
    canBusError s n heavy = canCounters (s.cntSat (R.canCnt_ERRORS n)) n (s.canN n).tec (min 255 ((s.canN n).rec_ + (if heavy then 8 else 1))) :=
  if_neg (by simp [h])

/-- A line the controller holds dominant itself. -/
theorem canDominant_own {s : State} {n : Nat} (h : canOnBus s n = true) :
    canDominant s n true = canCounters ((s.setFlag (R.canStat_STUCK_TX n) true).raise 235 n 1#32) n 256 (s.canN n).rec_ :=
  if_neg (by simp [h])

/-- A dominant bus. -/
theorem canDominant_bus {s : State} {n : Nat} (h : canOnBus s n = true) :
    canDominant s n false = if s.flag (R.canStat_RX_DOM n) then s else (s.setFlag (R.canStat_RX_DOM n) true).raise 235 n 2#32 :=
  if_neg (by simp [h])

theorem canErr_ne_of_onBus {s : State} {n : Nat} (h : canOnBus s n = true) : canErr s n ≠ 2 := by
  simp only [canOnBus, Bool.and_eq_true, bne_iff_ne] at h
  exact h.1.2

theorem canStat_stuck : canStatAside n (R.canStat_STUCK_TX n) := ⟨rfl, rfl, rfl, rfl, rfl, rfl⟩

/-- Settles O40, through the counters and the mode that every clause comes down to. -/
theorem canModesAndErrors : Obligations.Can_Modes_And_Errors := by
  unfold Obligations.Can_Modes_And_Errors
  refine ⟨?_, ?_, ?_, ?_, ?_⟩
  case refine_1 =>
    intro s u v n w new hready hdom hcmd htdc hnew hoff hu hv
    have hwrite : exec (.canCtrlWrite n w) s = .next (canModeAsked v n.val (bitsOf w 30 2)) :=
      congrArg Host.Outcome.next ((regRowWrite_ready _ hready).trans (canCtrlWrite_sets hdom hcmd htdc hnew hoff hu hv))
    refine ⟨fun hfree => hwrite.trans (congrArg _ (if_neg ?_)), fun hsleep hbusy => hwrite.trans (congrArg _ (if_pos ⟨hsleep, ?_⟩))⟩
    · rintro ⟨hsleep, hbusy⟩
      rcases hfree with h | h
      · exact h hsleep
      · simp [h] at hbusy
    · exact Option.isSome_iff_ne_none.mpr hbusy
  case refine_2 =>
    intro s n hready herr hdom htdc hn
    exact ⟨_, congrArg Host.Outcome.next (regRowWrite_ready _ hready), canCtrlWrite_recovers herr hdom htdc hn rfl⟩
  case refine_3 =>
    intro s n herr hrecov
    refine ⟨canCounters s n.val 0 0, congrArg Host.Outcome.next (if_pos ⟨herr, hrecov⟩), canCounters_err s, canCounters_tec s, canCounters_rec s, ?_⟩
    rw [canCounters_occ, if_neg (by rw [herr]; decide)]
    rfl
  case refine_4 =>
    intro s n heavy rec_ st hbus hrec hst
    refine ⟨_, congrArg Host.Outcome.next (canBusError_counts heavy hbus), ?_⟩
    rw [← hrec]
    have herr : canErr (s.cntSat (R.canCnt_ERRORS n.val)) n.val = canErr s n.val :=
      State.fld_setFld_ne s (R.canCnt_ERRORS n.val) (R.canStat_ERRSTATE n.val) _ canStat_ne_canCnt.symm
    refine ⟨(canCounters_err _).trans hst.symm, ?_, canCounters_tec _, ?_, ?_⟩
    · rw [canCounters_rec, hrec]
      omega
    · rw [canCounters_fld _ canUnslotted_cnt canStat_ne_canCnt]
      exact State.fld_cntSat_same s (R.canCnt_ERRORS n.val) (Nat.le_of_ble_eq_true rfl)
    · rw [canCounters_occ, herr, hst]
      rfl
  case refine_5 =>
    intro s n hbus
    refine ⟨⟨_, congrArg Host.Outcome.next (canDominant_own hbus), canCounters_err _, ?_, ?_⟩, fun hdom => ?_, fun hdom => ?_⟩
    · rw [State.flag, canCounters_fld_aside _ canStat_stuck, ← State.flag, State.raise_flag]
      exact State.flag_put s (R.canStat_STUCK_TX n.val) true rfl rfl
    · have herr : canErr ((s.setFlag (R.canStat_STUCK_TX n.val) true).raise 235 n.val 1#32) n.val ≠ 2 := by
        rw [canErr, State.raise_fld]
        exact fun h => canErr_ne_of_onBus hbus ((State.fld_beside s (R.canStat_STUCK_TX n.val) (R.canStat_ERRSTATE n.val) _ rfl rfl rfl).symm.trans h)
      rw [canCounters_occ, State.raise_occ, if_neg fun h => herr h.symm]
      exact List.append_assoc ..
    · exact congrArg Host.Outcome.next ((canDominant_bus hbus).trans (if_neg (by simp [hdom])))
    · exact congrArg Host.Outcome.next ((canDominant_bus hbus).trans (if_pos hdom))

end Sys2Proof.Machine
end

section
/-! PROOF. O41, messages of the CAN controllers (16_can_fd.md R402, R404 to R407). -/

namespace Sys2Proof.Machine

open Sys2Proof

/-! ### An attempt begins and ends (R405) -/

section

variable {s : State} {n i : Nat} {m : CanMsg} {t : Tick}

/-- The attempt of slot `i` begins. -/
def canBegins (s : State) (n i : Nat) (m : CanMsg) : State :=
  let x := s.canN n
  s.setCanN n { x with cur := some i, curMsg := some m, due := x.due.filter (· != i), ref := x.ref && i != 17 }

/-- The controller may begin an attempt on an idle bus. -/
theorem canTxStart_free (hbus : canOnBus s n = true) (hmode : canMode s n = 1) (hcur : (s.canN n).cur = none) (hsleep : (s.canN n).sleep = false) :
    canTxStart s n t = match canNext s n t with
      | none => s.setFlag (R.canStat_RX_DOM n) false
      | some (i, m) =>
        let v := canBegins (s.setFlag (R.canStat_RX_DOM n) false) n i m
        if i < 16 then canSlotShow v n i else v := by
  refine (if_neg (by simp [hbus, hmode, hcur, hsleep])).trans ?_
  cases canNext s n t with
  | none => rfl
  | some e => rfl

/-- What the end of an attempt does to its slot and to the counters, once its outcome is known. -/
def canEnded (d : State) (n i : Nat) (m : CanMsg) (tec rec_ res : Nat) : State :=
  let s1 := if res = 0 then d.withCan { d.can with sent := (n, i, m) :: d.can.sent } else d
  let s2 := if i < 16 then canSlotEnd s1 n i m (res == 0) else if i = 16 ∧ res = 0 then ringDrop s1 (12 + n) else s1
  if res = 0 then canCounters s2 n (tec - 1) rec_ else if res = 2 then canCounters (s2.cntSat (R.canCnt_ERRORS n)) n (tec + 8) rec_ else s2

theorem canTxDone_eq {tdc : List Nat} (res : Nat) (hcur : (s.canN n).cur = some i) (hmsg : (s.canN n).curMsg = some m) :
    canTxDone s n res tdc = (let d := canTdcStep (canAttemptOver s n i res) n m tdc
      canFrameEnd (canEnded d.1 n i m (s.canN n).tec (s.canN n).rec_ (if d.2 then 2 else res)) n) := by
  unfold canTxDone
  dsimp only
  rw [hcur, hmsg]
  rfl

variable (d : State) (tec rec_ : Nat)

theorem canEnded_sent : canEnded d n i m tec rec_ 0 =
    (let w := d.withCan { d.can with sent := (n, i, m) :: d.can.sent }
     canCounters (if i < 16 then canSlotEnd w n i m true else if i = 16 then ringDrop w (12 + n) else w) n (tec - 1) rec_) := by
  have hring : (i = 16 ∧ 0 = 0) = (i = 16) := propext ⟨And.left, fun h => ⟨h, rfl⟩⟩
  unfold canEnded
  rw [if_pos rfl, if_pos rfl]
  dsimp only
  rw [ite_congr hring (fun _ => rfl) fun _ => rfl]
  rfl

theorem canEnded_lost : canEnded d n i m tec rec_ 1 = if i < 16 then canSlotEnd d n i m false else d := by
  unfold canEnded
  rw [if_neg Nat.one_ne_zero, if_neg Nat.one_ne_zero, if_neg (by decide), if_neg (c := i = 16 ∧ 1 = 0) fun h => Nat.one_ne_zero h.2]
  rfl

theorem canEnded_failed : canEnded d n i m tec rec_ 2 =
    canCounters ((if i < 16 then canSlotEnd d n i m false else d).cntSat (R.canCnt_ERRORS n)) n (tec + 8) rec_ := by
  unfold canEnded
  rw [if_neg two_ne_zero, if_neg two_ne_zero, if_pos rfl, if_neg (c := i = 16 ∧ 2 = 0) fun h => two_ne_zero h.2]
  rfl

end

/-! ### A frame arrives (R407, R408) -/

section

variable {s u : State} {n : Nat} {ide fdf brs esi rtr : Bool} {id dlc : Nat} {data bytes : List Byte} {t : Tick}

/-- The frame is the reference message. -/
def canRefFrame (s : State) (n : Nat) (ide fdf rtr : Bool) (id dlc : Nat) : Bool :=
  !fdf && !rtr && decide (1 ≤ dlc) && ide == s.flag (R.canTtref_IDE n) && id == s.fld (R.canTtref_ID n)

/-- The frame carries a command. -/
def canCmdFrame (s : State) (n : Nat) (ide : Bool) (id : Nat) : Bool :=
  s.flag (R.canCtrl_CMD_EN n) && ide == s.flag (R.canCmdid_IDE n) && id == s.fld (R.canCmdid_ID n)

/-- A frame is on the bus and was received without error: it is counted. -/
def canHears (s : State) (n : Nat) : State := canRxGood ((s.setFlag (R.canStat_RX_DOM n) false).cntWrap (R.canCnt_RX_FRAMES n)) n

/-- A command goes to the controller's port. -/
def canCommands (u : State) (n : Nat) (fdf : Bool) (bytes : List Byte) : State :=
  if u.phase ≠ .ready then u else if fdf then carrierArrive u (4 + n) .can (canRequestBytes bytes) else u.cntSat (R.ringPort_BAD_LEN (4 + n))

/-- Any other frame is kept in the receive ring or filtered. -/
def canKeeps (u : State) (n : Nat) (ide fdf brs esi rtr : Bool) (id dlc : Nat) (bytes : List Byte) (t : Tick) : State :=
  let f := canFilter u n ide id
  let keep := match f with
    | some k => u.fld (R.canFltA_ACT n k) == 1
    | none => u.flag (R.canCtrl_ACCEPT_ALL n)
  if keep then (ringPut u (60 + n) (canEntry ide fdf brs esi rtr id dlc (f.getD 63) bytes t) { words := 20 }).1 else u.cntSat (R.canCnt_FILTERED n)

theorem canReceive_eq : canReceive s n ide fdf brs esi rtr id dlc data t =
    if !canOnBus s n || (fdf && !s.flag (R.canCtrl_FDEN n)) then s
    else
      let bytes := if rtr then [] else data.take (dlcLen dlc fdf)
      let u := if canRefFrame s n ide fdf rtr id dlc then canReference (canHears s n) n ((nth bytes 0 0#8).toNat) t else canHears s n
      canFrameEnd (if canCmdFrame s n ide id then canCommands u n fdf bytes else canKeeps u n ide fdf brs esi rtr id dlc bytes t) n := rfl

theorem canReceive_takes (hbus : canOnBus s n = true) (hfd : fdf = true → s.flag (R.canCtrl_FDEN n) = true)
    (hbytes : bytes = if rtr then [] else data.take (dlcLen dlc fdf))
    (hu : u = if canRefFrame s n ide fdf rtr id dlc then canReference (canHears s n) n ((nth bytes 0 0#8).toNat) t else canHears s n) :
    canReceive s n ide fdf brs esi rtr id dlc data t =
      canFrameEnd (if canCmdFrame s n ide id then canCommands u n fdf bytes else canKeeps u n ide fdf brs esi rtr id dlc bytes t) n := by
  subst hbytes hu
  rw [canReceive_eq, if_neg]
  cases fdf with
  | false => simp [hbus]
  | true => simp [hbus, hfd rfl]

theorem canKeeps_filter {k : Nat} (hf : canFilter u n ide id = some k) (hact : u.fld (R.canFltA_ACT n k) = 1) :
    canKeeps u n ide fdf brs esi rtr id dlc bytes t = (ringPut u (60 + n) (canEntry ide fdf brs esi rtr id dlc k bytes t) { words := 20 }).1 := by
  unfold canKeeps
  rw [hf]
  exact if_pos (by simp [hact])

theorem canKeeps_all (hf : canFilter u n ide id = none) (hall : u.flag (R.canCtrl_ACCEPT_ALL n) = true) :
    canKeeps u n ide fdf brs esi rtr id dlc bytes t = (ringPut u (60 + n) (canEntry ide fdf brs esi rtr id dlc 63 bytes t) { words := 20 }).1 := by
  unfold canKeeps
  rw [hf]
  exact if_pos hall

theorem canKeeps_none (hf : canFilter u n ide id = none) (hall : u.flag (R.canCtrl_ACCEPT_ALL n) = false) :
    canKeeps u n ide fdf brs esi rtr id dlc bytes t = u.cntSat (R.canCnt_FILTERED n) := by
  unfold canKeeps
  rw [hf]
  exact if_neg (by simp [hall])

end

/-! ### What a frame leaves of its count and of the dominant level -/

section

variable (s : State) (n : Fin 4)

/-- The count of received frames and the mark of a dominant bus. -/
def canHeard (n : Nat) (s : State) : Nat × Bool := (s.fld (R.canCnt_RX_FRAMES n), s.flag (R.canStat_RX_DOM n))

theorem canHeard_regsIn {P : Nat → Prop} {s t : State} (h : RegsIn P s t) (hcnt : ¬ P (R.canCnt n)) (hstat : ¬ P (R.canStat n)) :
    canHeard n t = canHeard n s := congrArg₂ Prod.mk (h.fld_eq (f := R.canCnt_RX_FRAMES n) hcnt) (h.flag_eq (f := R.canStat_RX_DOM n) hstat)

theorem canCounters_heard (tec rec_ : Nat) : canHeard n (canCounters s n tec rec_) = canHeard n s :=
  congrArg₂ Prod.mk (canCounters_fld s canUnslotted_cnt canStat_ne_canCnt)
    (congrArg (· == 1) (canCounters_fld_aside s (f := R.canStat_RX_DOM n) ⟨rfl, rfl, rfl, rfl, rfl, rfl⟩))

theorem canRxGood_heard : canHeard n (canRxGood s n) = canHeard n s := by
  unfold canRxGood
  dsimp only
  split
  · exact canCounters_heard ..
  · exact canCounters_heard ..

theorem canReference_regsIn (n cnt : Nat) (t : Tick) : RegsIn (R.canTtstat n = ·) s (canReference s n cnt t) := by
  have hsync (v : State) (on : Bool) : RegsIn (R.canTtstat n = ·) v (canSync v n on) :=
    .ite (.refl _ v) ((RegsIn.setFlag v (R.canTtstat_SYNC n) on rfl).trans (.of_regs (State.raise_regs _ _ _ _)))
  have hcycle (v : State) (c : Nat) : RegsIn (R.canTtstat n = ·) v (canCycle v n c t false) :=
    (RegsIn.setFld v (R.canTtstat_CYCLE n) c rfl).trans (.of_regs (State.withCan_regs _ _))
  exact .ite (.refl _ s) (((RegsIn.ite (hsync _ _) (.refl _ s)).trans (hcycle _ _)).trans (hsync _ _))

/-- The registers of the rings and of the command ports. -/
def ringSide (a : Nat) : Prop := 0x300000 ≤ a

theorem ringPut_ringSide (s : State) (k : Nat) (ws : List Word) (e : Ent) : RegsIn ringSide s (ringPut s k ws e).1 :=
  (ringPut_regsIn s k ws e).mono fun _ h => Nat.le_trans (Nat.le_add_right _ _) h.1

theorem ringPort_ringSide (p : Nat) : ringSide (R.ringPort p) := by
  simp only [ringSide, R.ringPort]
  omega

theorem canCommands_regsIn (n : Nat) (fdf : Bool) (bytes : List Byte) : RegsIn ringSide s (canCommands s n fdf bytes) := by
  have hbad (p : Nat) : RegsIn ringSide s (s.cntSat (R.ringPort_BAD_LEN p)) := .cntSat s (R.ringPort_BAD_LEN p) (ringPort_ringSide p)
  have hunit (p : Nat) (o : Origin) (b : List Byte) : RegsIn ringSide s (unitArrive s p o b).1 := by
    unfold unitArrive
    split
    · exact hbad p
    · exact ringPut_ringSide _ _ _ _
  exact .ite (.refl _ s) (.ite (.ite (hunit _ _ _) (.refl _ s)) (hbad _))

theorem canKeeps_heard (ide fdf brs esi rtr : Bool) (id dlc : Nat) (bytes : List Byte) (t : Tick) :
    canHeard n (canKeeps s n ide fdf brs esi rtr id dlc bytes t) = canHeard n s := by
  have hring : ¬ ringSide (R.canCnt n) ∧ ¬ ringSide (R.canStat n) := by
    simp only [ringSide, R.canCnt, R.canStat]
    omega
  unfold canKeeps
  extract_lets f keep
  split
  · exact canHeard_regsIn n (ringPut_ringSide _ _ _ _) hring.1 hring.2
  · exact congrArg₂ Prod.mk (State.fld_beside s (R.canCnt_FILTERED n) (R.canCnt_RX_FRAMES n) _ rfl rfl rfl)
      (congrArg (· == 1) (State.fld_setFld_ne s (R.canCnt_FILTERED n) (R.canStat_RX_DOM n) _ canStat_ne_canCnt.symm))

theorem canFrameEnd_heard : canHeard n (canFrameEnd s n) = canHeard n s := by
  unfold canFrameEnd
  split
  · exact congrArg₂ Prod.mk (congrArg (bitsOf · _ _) (canSetMode_reg s canUnslotted_cnt canStat_ne_canCnt))
      (congrArg (· == 1) (canSetMode_fld_aside s (f := R.canStat_RX_DOM n) rfl rfl rfl))
  · rfl

theorem canHears_heard : canHeard n (canHears s n) = ((s.fld (R.canCnt_RX_FRAMES n) + 1) % 2 ^ (R.canCnt_RX_FRAMES n).w, false) := by
  refine (canRxGood_heard ..).trans (congrArg₂ Prod.mk ?_ ?_)
  · rw [State.fld_cntWrap_same _ (R.canCnt_RX_FRAMES n) (Nat.le_of_ble_eq_true rfl)]
    exact congrArg (fun k => (k + 1) % _) (State.fld_setFlag_ne s (R.canStat_RX_DOM n) (R.canCnt_RX_FRAMES n) false canStat_ne_canCnt)
  · rw [State.flag, State.cntWrap, State.fld_setFld_ne _ (R.canCnt_RX_FRAMES n) (R.canStat_RX_DOM n) _ canStat_ne_canCnt.symm]
    exact State.flag_put s (R.canStat_RX_DOM n) false rfl rfl

theorem canReceive_heard {ide fdf brs esi rtr : Bool} {id dlc : Nat} {data : List Byte} {t : Tick} (hbus : canOnBus s n = true)
    (hfd : fdf = true → s.flag (R.canCtrl_FDEN n) = true) :
    canHeard n (canReceive s n ide fdf brs esi rtr id dlc data t) = ((s.fld (R.canCnt_RX_FRAMES n) + 1) % 2 ^ (R.canCnt_RX_FRAMES n).w, false) := by
  have hring : ¬ ringSide (R.canCnt n) ∧ ¬ ringSide (R.canStat n) := by
    simp only [ringSide, R.canCnt, R.canStat]
    omega
  have htt : ¬ R.canTtstat n = R.canCnt n ∧ ¬ R.canTtstat n = R.canStat n := by
    simp only [R.canCnt, R.canStat, R.canTtstat]
    omega
  rw [canReceive_takes hbus hfd rfl rfl, canFrameEnd_heard, apply_ite (canHeard n), canKeeps_heard,
    canHeard_regsIn n (canCommands_regsIn _ _ _ _) hring.1 hring.2, ite_self, apply_ite (canHeard n),
    canHeard_regsIn n (canReference_regsIn _ _ _ _) htt.1 htt.2, ite_self, canHears_heard]

end

/-- What the cancellation of a message in a slot answers (R406). -/
def canCancelHeld (s : State) (n i : Nat) (m : CanMsg) : Res :=
  if (s.canN n).cur = some i then { st := s.setFlag (R.canSlot_CANCEL_PEND n i) true, data := [1#32] }
  else if canBound s n i then { st := canOutcome (s.setCanSlotS n i { s.canSlotS n i with skip := true }) n i m 2 true, data := [0#32] }
  else { st := canOutcome (canFree s n i) n i m 2 true, data := [0#32] }

theorem opCanCancel_checked {s : State} {r : Request} {w : Word} {n i : Nat} (hp : r.params = [w]) (hn : n = r.target) (hi : i = bitsOf w 0 4) (hlt : n ≤ 3)
    (hruns : nodeRuns s (9 + n) = true) (hres : bitsOf w 4 28 = 0) :
    opCanCancel r s = (s.canSlotS n i).msg.elim { st := s } (canCancelHeld s n i) := by
  have hword : r.p 0 = w := by simp [Request.p, hp, nth]
  unfold opCanCancel
  rw [← hn, hword, ← hi, if_neg (by omega), if_neg (by simp [hruns]), if_neg (by simp [hres])]
  cases (s.canSlotS n i).msg with
  | none => rfl
  | some m => rfl

/-- Settles O41, command by command; what a received frame leaves of its own count is followed through every place it can go. -/
theorem canMessages : Obligations.Can_Messages := by
  unfold Obligations.Can_Messages
  refine ⟨?_, ?_, ?_, ?_, ?_⟩
  case refine_1 =>
    intro s r i hs hp hn hruns hbad hmode hslot
    rw [exec_of_served (c := .canTx r) rfl hs (by simp [hp]), opCanTx, if_neg (by omega), if_neg (by simp [hruns]), if_neg (by simp [hbad]),
      if_neg hmode, hslot]
  case refine_2 =>
    intro s r w n i hs hp hn hi hlt hruns hres
    have hexec : exec (.canCancel r) s = .next (respond r (opCanCancel r s)) := exec_of_served rfl hs (by simp [hp])
    rw [opCanCancel_checked hp hn hi hlt hruns hres] at hexec
    refine ⟨fun hmsg => by rw [hexec, hmsg, Option.elim_none], fun m hmsg => ?_⟩
    rw [hexec, hmsg, Option.elim_some, canCancelHeld]
    exact ⟨fun hcur => by rw [if_pos hcur], fun hcur hbound => by rw [if_neg hcur, if_pos hbound],
      fun hcur hbound => by rw [if_neg hcur, if_neg (by simp [hbound])]⟩
  case refine_3 =>
    intro s u n t hbus hmode hcur hsleep hu
    have hstart := canTxStart_free (t := t) hbus hmode hcur hsleep
    refine ⟨fun hnext => congrArg Host.Outcome.next ?_, fun i m v hnext hv => congrArg Host.Outcome.next ?_⟩
    · rw [hstart, hnext, hu]
    · rw [hstart, hnext, hv, hu]
      rfl
  case refine_4 =>
    intro s u v n k i m tdc x bad hx hcur hmsg hu hv hbad
    subst hx
    have hdone := canTxDone_eq (tdc := tdc) k.val hcur hmsg
    rw [show canAttemptOver s n.val i k.val = u from hu.symm] at hdone
    dsimp only at hdone
    rw [← hv, ← hbad] at hdone
    refine ⟨fun hgood hk => congrArg Host.Outcome.next (hdone.trans ?_), fun w hgood hk hw => congrArg Host.Outcome.next (hdone.trans ?_),
      fun h => congrArg Host.Outcome.next (hdone.trans ?_)⟩
    · rw [hgood, hk]
      exact congrArg (canFrameEnd · n.val) (canEnded_lost ..)
    · rw [hgood, hk, hw]
      exact congrArg (canFrameEnd · n.val) (canEnded_sent ..)
    · have hres : (if bad = true then 2 else k.val) = 2 := by
        rcases h with h | h
        · rw [h]
          exact ite_self _
        · exact if_pos h
      rw [hres, canEnded_failed]
  case refine_5 =>
    intro s v w n ide fdf brs esi rtr id dlc data bytes t hv hbus hfd hbytes hw
    subst hv
    have hheard := canReceive_heard (s.at t) n (ide := ide) (brs := brs) (esi := esi) (rtr := rtr) (id := id.toNat) (dlc := dlc.val) (data := data)
      (t := t) hbus hfd
    refine ⟨⟨_, rfl, congrArg Prod.fst hheard, congrArg Prod.snd hheard⟩, fun href hcmd => ?_⟩
    have hrefframe : canRefFrame (s.at t) n.val ide fdf rtr id.toNat dlc.val = false := by
      simpa [canRefFrame, and_assoc] using href
    have hcmdframe : canCmdFrame (s.at t) n.val ide id.toNat = false := by
      simpa [canCmdFrame, and_assoc] using hcmd
    have htakes := canReceive_takes (brs := brs) (esi := esi) (ide := ide) (id := id.toNat) (t := t) hbus hfd hbytes rfl
    rw [if_neg (by simp [hcmdframe]), if_neg (by simp [hrefframe]), show canHears (s.at t) n.val = w from hw.symm] at htakes
    refine ⟨fun k hf hact => ?_, fun hf hall => ?_, fun hf hall => ?_⟩
    · exact congrArg Host.Outcome.next (htakes.trans (congrArg (canFrameEnd · n.val) (canKeeps_filter hf hact)))
    · exact congrArg Host.Outcome.next (htakes.trans (congrArg (canFrameEnd · n.val) (canKeeps_all hf hall)))
    · exact congrArg Host.Outcome.next (htakes.trans (congrArg (canFrameEnd · n.val) (canKeeps_none hf hall)))

end Sys2Proof.Machine
end

section
/-! PROOF. O42, the time-triggered schedule of the CAN controllers (16_can_fd.md R406, R409 to R411). -/

namespace Sys2Proof.Machine

open Sys2Proof

section

variable {s : State} {r : Request} {n : Nat} {t : Tick}

/-! ### CAN_SCHEDULE (R409, R410) -/

/-- The windows, the due slots and the reference message of a schedule are cleared. -/
def canCleared (s : State) (n : Nat) (x : CanN) : State := s.setCanN n { x with open_ := [], due := [], begun := false, ref := false }

/-- The schedule runs from count 0 on, not synchronised. -/
def canScheduled (s : State) (n : Nat) : State :=
  canCleared (((s.setFlag (R.canTtstat_RUN n) true).setFlag (R.canTtstat_SYNC n) false).setFld (R.canTtstat_CYCLE n) 0) n (s.canN n)

/-- The schedule stands. -/
def canUnscheduled (s : State) (n : Nat) : State :=
  canSlotsShow (canCleared ((s.setFlag (R.canTtstat_RUN n) false).setFlag (R.canTtstat_SYNC n) false) n (s.canN n)) n

theorem opCanSchedule_starts (hp : r.params = [1#32]) (hn : r.target ≤ 3) (hruns : nodeRuns s (9 + r.target) = true)
    (hfit : findNat 32 (ttwFails s r.target) = none) (hstands : canRunning s r.target = false) (hrole : canRole s r.target ≠ 0)
    (hmode : s.fld (R.canCtrl_MODE r.target) = 1) : opCanSchedule r s = { st := canScheduled s r.target } := by
  have hact : (r.p 0).toNat = 1 := by simp [Request.p, hp, nth]
  unfold opCanSchedule
  rw [hact, if_neg (by omega), if_neg (by simp [hruns]), if_neg (by decide), if_neg (by decide), hfit, if_neg (by simp [hstands]),
    if_neg (by simp [hrole, hmode])]
  rfl

theorem opCanSchedule_stops (hp : r.params = [0#32]) (hn : r.target ≤ 3) (hruns : nodeRuns s (9 + r.target) = true) :
    opCanSchedule r s = { st := canUnscheduled s r.target } := by
  have hact : (r.p 0).toNat = 0 := by simp [Request.p, hp, nth]
  unfold opCanSchedule
  rw [hact, if_neg (by omega), if_neg (by simp [hruns]), if_neg (by decide), if_pos rfl]
  rfl

theorem canCleared_flag (x : CanN) (f : RF) : (canCleared s n x).flag f = s.flag f := State.withCan_flag ..

theorem canScheduled_runs : canRunning (canScheduled s n) n = true := by
  rw [canRunning, canScheduled, canCleared_flag, State.flag_beside _ (R.canTtstat_CYCLE n) (R.canTtstat_RUN n) _ rfl rfl rfl, State.setFlag,
    State.flag_beside _ (R.canTtstat_SYNC n) (R.canTtstat_RUN n) _ rfl rfl rfl]
  exact State.flag_put s (R.canTtstat_RUN n) true rfl rfl

theorem canScheduled_cycle : (canScheduled s n).fld (R.canTtstat_CYCLE n) = 0 := by
  rw [canScheduled, canCleared, State.setCanN, State.withCan_fld]
  exact State.fld_put_of_lt _ (R.canTtstat_CYCLE n) (w := 6) rfl (by decide) rfl

theorem canScheduled_sync : (canScheduled s n).flag (R.canTtstat_SYNC n) = false := by
  rw [canScheduled, canCleared_flag, State.flag_beside _ (R.canTtstat_CYCLE n) (R.canTtstat_SYNC n) _ rfl rfl rfl]
  exact State.flag_put _ (R.canTtstat_SYNC n) false rfl rfl

theorem canUnslotted_ttstat : canUnslotted n (R.canTtstat n) := canUnslotted_of_lt (by simp only [R.canTtstat]; omega)

theorem canUnscheduled_flag {f : RF} (hf : f.addr = R.canTtstat n) :
    (canUnscheduled s n).flag f = ((s.setFlag (R.canTtstat_RUN n) false).setFlag (R.canTtstat_SYNC n) false).flag f :=
  (congrArg (· == 1) (canSlotsShow_fld _ (hf ▸ canUnslotted_ttstat))).trans (canCleared_flag ..)

theorem canUnscheduled_stands : canRunning (canUnscheduled s n) n = false := by
  rw [canRunning, canUnscheduled_flag rfl, State.setFlag, State.flag_beside _ (R.canTtstat_SYNC n) (R.canTtstat_RUN n) _ rfl rfl rfl]
  exact State.flag_put s (R.canTtstat_RUN n) false rfl rfl

theorem canUnscheduled_sync : (canUnscheduled s n).flag (R.canTtstat_SYNC n) = false :=
  (canUnscheduled_flag rfl).trans (State.flag_put _ (R.canTtstat_SYNC n) false rfl rfl)

theorem canUnscheduled_evt : (canUnscheduled s n).evt = s.evt := canSlotsShow_part (k := State.evt) _ _ fun _ _ _ => rfl

/-! ### Cycles and synchronisation (R411) -/

theorem canCycleStart_begins (hrun : canRunning s n = true) (hrole : canRole s n = 1) (hbus : canOnBus s n = true) (hmode : canMode s n = 1) :
    canCycleStart s n t = canTxStart (canCycle s n (if (s.canN n).begun then (s.fld (R.canTtstat_CYCLE n) + 1) % 2 ^ s.fld (R.canTtcfg_NCYC_LOG2 n) else 0)
      t true) n t :=
  if_neg (by simp [hrun, hrole, hbus, hmode])

variable (s n t)

theorem canSync_sync (on : Bool) : (canSync s n on).flag (R.canTtstat_SYNC n) = on := by
  unfold canSync
  split
  next h => exact h
  · rw [State.raise_flag]
    exact State.flag_put s (R.canTtstat_SYNC n) on rfl rfl

theorem canSync_cycle (on : Bool) : (canSync s n on).fld (R.canTtstat_CYCLE n) = s.fld (R.canTtstat_CYCLE n) := by
  unfold canSync
  split
  · rfl
  · rw [State.raise_fld]
    exact State.fld_beside s (R.canTtstat_SYNC n) (R.canTtstat_CYCLE n) _ rfl rfl rfl

theorem canSync_occ (on : Bool) : (canSync s n on).evt.occ =
    s.evt.occ ++ (if s.flag (R.canTtstat_SYNC n) = on then [] else [{ ev := 236, inst := n, detail := if on then 1#32 else 2#32 }]) := by
  unfold canSync
  split
  · exact (List.append_nil _).symm
  · rfl

theorem canCycle_cycle (c : Nat) (ref : Bool) : (canCycle s n c t ref).fld (R.canTtstat_CYCLE n) = c % 2 ^ (R.canTtstat_CYCLE n).w := by
  rw [canCycle, State.setCanN, State.withCan_fld]
  exact State.fld_put s (R.canTtstat_CYCLE n) c rfl

theorem canCycle_sync (c : Nat) (ref : Bool) : (canCycle s n c t ref).flag (R.canTtstat_SYNC n) = s.flag (R.canTtstat_SYNC n) := by
  rw [canCycle, State.setCanN, State.withCan_flag]
  exact State.flag_beside s (R.canTtstat_CYCLE n) (R.canTtstat_SYNC n) c rfl rfl rfl

/-- A late reference message loses SYNC first. -/
def canRefChecked : State := if s.flag (R.canTtstat_SYNC n) && decide ((canRefLate s n).toInt ≤ t.toInt) then canSync s n false else s

/-- The synchronisation events a reference message raises. -/
def canRefOccs : List Occ :=
  if s.flag (R.canTtstat_SYNC n) = false then [{ ev := 236, inst := n, detail := 1#32 }]
  else if (canRefLate s n).toInt ≤ t.toInt then [{ ev := 236, inst := n, detail := 2#32 }, { ev := 236, inst := n, detail := 1#32 }] else []

variable {s n}

theorem canReference_follows (cnt : Nat) (hrun : canRunning s n = true) (hrole : canRole s n = 2) (hbus : canOnBus s n = true) :
    canReference s n cnt t = canSync (canCycle (canRefChecked s n t) n (cnt % 2 ^ s.fld (R.canTtcfg_NCYC_LOG2 n)) t false) n true :=
  if_neg (by simp [hrun, hrole, hbus])

theorem canReference_occ (c : Nat) : (canSync (canCycle (canRefChecked s n t) n c t false) n true).evt.occ = s.evt.occ ++ canRefOccs s n t := by
  rw [canSync_occ, canCycle_sync]
  show (canRefChecked s n t).evt.occ ++ _ = _
  unfold canRefChecked canRefOccs
  cases hsync : s.flag (R.canTtstat_SYNC n) with
  | false => simp [hsync]
  | true =>
    by_cases hlate : (canRefLate s n).toInt ≤ t.toInt
    · simp [hlate, canSync_sync, canSync_occ, hsync]
    · simp [hlate, hsync]

theorem nth_setAt_elim {α : Type} {P : α → Prop} (l : List α) (n : Nat) (x d : α) (hx : P x) (hd : P d) : P (nth (setAt l n x) n d) := by
  by_cases h : n < l.length
  · rwa [nth_setAt_same l n x d h]
  · rwa [show nth (setAt l n x) n d = d by simp [nth, setAt, h]]

/-- A slave without its reference message is silent. -/
theorem canRefTimeout_silences (hrun : canRunning s n = true) (hrole : canRole s n = 2) (hsync : s.flag (R.canTtstat_SYNC n) = true) :
    canRefTimeout s n = (let v := canSync (s.at (canRefLate s n)) n false
      v.setCanN n { v.canN n with open_ := [], due := [] }) :=
  if_neg (by simp [hrun, hrole, hsync])

/-! ### Windows (R409, R410) -/

variable {w i : Nat}

/-- A window is open. -/
def canOpened (s : State) (n w : Nat) : State :=
  (s.at (ttwStart s n w)).setCanN n { s.canN n with open_ := (s.canN n).open_ ++ [w] }

theorem canWinStart_opens (hgov : ttGoverns s n = true) (hbegun : (s.canN n).begun = true) (hen : s.flag (R.canTtwA_EN n w) = true)
    (hin : ttwIn s n w (s.fld (R.canTtstat_CYCLE n)) = true) (hopen : (s.canN n).open_.contains w = false) :
    canWinStart s n w = (let u := canOpened s n w
      let i := s.fld (R.canTtwA_SLOT n w)
      if s.flag (R.canTtwA_TYPE n w) then u
      else if (u.canSlotS n i).skip then u.setCanSlotS n i { u.canSlotS n i with skip := false }
      else if (u.canSlotS n i).msg.isSome then u.setCanN n { u.canN n with due := (u.canN n).due ++ [i] } else u) := by
  have hexcl : (!ttwExcl s n w) = s.flag (R.canTtwA_TYPE n w) := by simp [ttwExcl, hen]
  refine (if_neg ?_).trans ?_
  · rw [hgov, hbegun, hen, hin, hopen]
    decide
  · rw [hexcl]
    rfl

/-- A window is closed. -/
def canClosed (s : State) (n w : Nat) : State :=
  (s.at (ttwEnd s n w)).setCanN n { s.canN n with
    open_ := (s.canN n).open_.filter (· != w),
    due := if ttwExcl s n w then (s.canN n).due.filter (· != s.fld (R.canTtwA_SLOT n w)) else (s.canN n).due }

/-- The message of a window that closed is missed. -/
def canMissed (s : State) (n w : Nat) : State := ((canClosed s n w).cntSat (R.canTtstat_MISSED n)).raiseLim 236 n 3#32 (100 * msTicks)

theorem canWinEnd_closes (hopen : (s.canN n).open_.contains w = true) :
    canWinEnd s n w = if ttwExcl s n w && (s.canN n).due.contains (s.fld (R.canTtwA_SLOT n w)) then
      ((canMissed s n w).canSlotS n (s.fld (R.canTtwA_SLOT n w))).msg.elim (canMissed s n w)
        fun m => canOutcome (canMissed s n w) n (s.fld (R.canTtwA_SLOT n w)) m 4 false
    else canClosed s n w := by
  refine (if_neg (by rw [hopen]; decide)).trans ?_
  refine ite_congr rfl (fun _ => ?_) fun _ => rfl
  show (match ((canMissed s n w).canSlotS n (s.fld (R.canTtwA_SLOT n w))).msg with
    | some m => canOutcome (canMissed s n w) n (s.fld (R.canTtwA_SLOT n w)) m 4 false
    | none => canMissed s n w) = _
  cases ((canMissed s n w).canSlotS n (s.fld (R.canTtwA_SLOT n w))).msg with
  | none => rfl
  | some m => rfl

end

/-- Settles O42, command by command. -/
theorem canSchedule : Obligations.Can_Schedule := by
  unfold Obligations.Can_Schedule
  refine ⟨?_, ?_, ?_, ?_, ?_, ?_, ?_⟩
  case refine_1 =>
    intro s r hs hp hn hruns hfit hstands hrole hmode
    refine ⟨canScheduled s r.target, ?_, canScheduled_runs, canScheduled_cycle, canScheduled_sync, rfl⟩
    rw [exec_of_served (c := .canScheduleStart r) rfl hs (by simp [hp]), opCanSchedule_starts hp hn hruns hfit hstands hrole hmode]
  case refine_2 =>
    intro s r hs hp hn hruns
    refine ⟨canUnscheduled s r.target, ?_, canUnscheduled_stands, canUnscheduled_sync, canUnscheduled_evt⟩
    rw [exec_of_served (c := .canScheduleStop r) rfl hs (by simp [hp]), opCanSchedule_stops hp hn hruns]
  case refine_3 =>
    intro s v n t hv hrun hrole hbus hmode
    subst hv
    exact congrArg Host.Outcome.next (canCycleStart_begins hrun hrole hbus hmode)
  case refine_4 =>
    intro s v n cnt t hv hrun hrole hbus
    subst hv
    exact ⟨_, congrArg Host.Outcome.next (canReference_follows t cnt.toNat hrun hrole hbus), canSync_sync _ _ _,
      (canSync_cycle _ _ _).trans (canCycle_cycle _ _ _ _ _), canReference_occ _ _⟩
  case refine_5 =>
    intro s n hrun hrole hsync
    refine ⟨_, congrArg Host.Outcome.next (canRefTimeout_silences hrun hrole hsync), canSync_sync _ _ _, ?_, ?_, ?_⟩
    · exact nth_setAt_elim (P := fun x : CanN => x.open_ = []) _ _ _ _ rfl rfl
    · exact nth_setAt_elim (P := fun x : CanN => x.due = []) _ _ _ _ rfl rfl
    · refine (canSync_occ _ _ _).trans ?_
      rw [State.at_flag, State.at_evt, hsync]
      rfl
  case refine_6 =>
    intro s u n w i hgov hbegun hen hin hopen hi hu
    have hstart : exec (.canWindowStart n w) s = .next _ := congrArg Host.Outcome.next (canWinStart_opens hgov hbegun hen hin hopen)
    rw [show canOpened s n.val w.val = u from hu.symm, ← hi] at hstart
    refine ⟨fun hidle => hstart.trans (congrArg _ ?_), fun htype hskip => hstart.trans (congrArg _ ?_), fun htype hskip hmsg => hstart.trans (congrArg _ ?_)⟩
    · rcases hidle with htype | ⟨hskip, hmsg⟩
      · exact if_pos htype
      · simp [hskip, hmsg]
    · simp [htype, hskip]
    · simp [htype, hskip, Option.isSome_iff_ne_none.mpr hmsg]
  case refine_7 =>
    intro s u v n w i hopen hi hu hv
    have hend : exec (.canWindowEnd n w) s = .next _ := congrArg Host.Outcome.next (canWinEnd_closes hopen)
    subst hi
    have hclosed : canClosed s n.val w.val = u := hu.symm
    have hmissed : canMissed s n.val w.val = v := by rw [canMissed, hclosed, hv]
    rw [hclosed, hmissed] at hend
    refine ⟨fun hidle => hend.trans (congrArg _ (if_neg ?_)), fun m hexcl hdue hmsg => hend.trans (congrArg _ ((if_pos ?_).trans ?_))⟩
    · rcases hidle with h | h
      · rw [h, Bool.false_and]
        decide
      · rw [h, Bool.and_false]
        decide
    · rw [hexcl, hdue, Bool.and_true]
    · rw [hmsg]
      rfl

end Sys2Proof.Machine
end

section
/-! PROOF. O43, ports and registers of the Sward (17_sward_sheaf.md R417 to R419, R425, R426, R429, R433, R437). -/

namespace Sys2Proof.Machine

open Sys2Proof

section

variable {s : State} {p : Nat} {t : Tick}

/-! ### States of a port (R418, R434) -/

/-- The choice of the upstream port shows in FTSTAT alone. -/
theorem swUpstream_regsIn (s : State) : RegsIn (R.swardFtstat = ·) s (swUpstream s) := by
  have hset (q h : Nat) : RegsIn (R.swardFtstat = ·) s ((s.setFld R.swardFtstat_UPPORT q).setFld R.swardFtstat_HOPS h) :=
    (RegsIn.setFld s R.swardFtstat_UPPORT q rfl).trans (.setFld _ R.swardFtstat_HOPS h rfl)
  unfold swUpstream
  refine .ite (hset _ _) ?_
  extract_lets best
  cases best with
  | none => exact hset _ _
  | some x => exact hset _ _

/-- What registers leave, the choice of the upstream port leaves. -/
theorem swUpstream_part {γ : Type} {k : State → γ} (hreg : ∀ t a x, k (State.setReg t a x) = k t) (s : State) : k (swUpstream s) = k s := by
  have hset (q h : Nat) : k ((s.setFld R.swardFtstat_UPPORT q).setFld R.swardFtstat_HOPS h) = k s := (hreg ..).trans (hreg ..)
  unfold swUpstream
  split
  · exact hset ..
  · extract_lets best
    cases best with
    | none => exact hset ..
    | some x => exact hset ..

theorem swardFtstat_ne_pstat (p : Nat) : ¬ R.swardFtstat = R.swardPstat p := by
  simp only [R.swardFtstat, R.swardPstat]
  omega

theorem swState_swSetState (s : State) {st : Nat} (h : st < 4) : swState (swSetState s p st) p = st := by
  unfold swSetState
  split
  next heq => exact heq
  · refine ((swUpstream_regsIn _).fld_eq (f := R.swardPstat_STATE p) (swardFtstat_ne_pstat p)).trans ?_
    rw [State.raise_fld]
    exact State.fld_put_of_lt s (R.swardPstat_STATE p) (w := 2) rfl h rfl

theorem swState_swDown (s : State) (p : Nat) : swState (swDown s p) p = 0 := by
  rw [swDown_eq]
  exact swState_swSetState _ (by decide)

theorem swTrained_sends (hlive : swLive s p = true) (hst : swState s p = 1) :
    swTrained s p = swUp (swSent (s.setSwPort p { s.swPort p with helloSent := true }) p (swOwnHello s p)) p :=
  if_neg (by simp [hlive, hst])

/-! ### HELLO (R418, R426) -/

/-- The neighbour as its HELLO names it, told when its address changed. -/
def swNeighbour (s : State) (p addr nport hops : Nat) : State :=
  let u := ((s.setFld (R.swardPstat_NEIGH p) addr).setFld (R.swardPstat_NPORT p) nport).setFld (R.swardPstat_NHOPS p) hops
  if s.fld (R.swardPstat_NEIGH p) = addr then u else u.raise 246 p (wd addr)

theorem swHello_takes {addr nport hops c2 c3 : Nat} (hlive : swLive s p = true) (hst : swState s p = 1 ∨ swState s p = 2) :
    swHello s p addr nport hops c2 c3 = (let v := swNeighbour s p addr nport hops
      if swState s p = 1 then
        swUp (((v.setFld (R.swardCred_C2 p) c2).setFld (R.swardCred_C3 p) c3).setSwPort p { v.swPort p with helloGot := true }) p
      else swUpstream v) := by
  refine if_neg ?_
  rcases hst with h | h <;> simp [hlive, h]

/-! ### Code errors (R418) -/

theorem swErrors_counts {n : Nat} (hlive : swLive s p = true) (hst : swState s p ≠ 0) :
    swErrors s p n = (let e := (s.swPort p).errs + n
      let u := (s.setFld (R.swardCnt_SYMERR p) (satAdd 16 (s.fld (R.swardCnt_SYMERR p)) n)).setSwPort p { s.swPort p with errs := e }
      let v := if n = 0 then u else u.raiseLim 241 p (wd e) (100 * msTicks)
      if 32 < e then swDown v p else v) :=
  if_neg (by simp [hlive, hst])

/-! ### Credits returned (R417, R426) -/

/-- One class's CRED, where it is due. -/
def swCredClass (p : Nat) (t : State) (i : Nat) : State :=
  let x := t.swPort p
  let o := nth x.owed i 0
  if o ≠ 0 ∧ (8 ≤ o ∨ usTicks ≤ (t.dt - nth x.owedAt i 0).toNat) then
    swSet (t.setSwPort p { x with owed := setAt x.owed i (o - min o 255) }) p (.cred (2 + i) (min o 255))
  else t

theorem swCredSend_eq (hcarries : swCarries s p = true) (hhush : (s.swPort p).hush = false) :
    swCredSend s p = swCredClass p (swCredClass p s 0) 1 :=
  if_neg (by simp [hcarries, hhush])

/-- A class's CRED is due: 8 credits are owed, or some for 1 µs. -/
def swCredDue (s : State) (p i : Nat) : Bool :=
  nth (s.swPort p).owed i 0 != 0 &&
    (decide (8 ≤ nth (s.swPort p).owed i 0) || decide (usTicks ≤ (s.dt - nth (s.swPort p).owedAt i 0).toNat))

theorem swCredClass_eq (p : Nat) (t : State) (i : Nat) : swCredClass p t i =
    if swCredDue t p i then
      swSet (t.setSwPort p { t.swPort p with owed := setAt (t.swPort p).owed i (nth (t.swPort p).owed i 0 - min (nth (t.swPort p).owed i 0) 255) }) p
        (.cred (2 + i) (min (nth (t.swPort p).owed i 0) 255))
    else t := by
  unfold swCredClass swCredDue
  simp only [Bool.and_eq_true, Bool.or_eq_true, bne_iff_ne, decide_eq_true_eq]

section

variable (s p) (i : Nat)

theorem swCredClass_regs : (swCredClass p s i).regs = s.regs := by
  rw [swCredClass_eq]
  split <;> rfl

theorem swCredClass_dt : (swCredClass p s i).dt = s.dt := by
  rw [swCredClass_eq]
  split <;> rfl

theorem swCredClass_length : (swCredClass p s i).sward.ports.length = s.sward.ports.length := by
  rw [swCredClass_eq]
  split
  · exact setAt_length ..
  · rfl

theorem swCredClass_sets : (swCredClass p s i).sward.sets =
    (if swCredDue s p i then [(p, .cred (2 + i) (min (nth (s.swPort p).owed i 0) 255))] else []) ++ s.sward.sets := by
  rw [swCredClass_eq]
  split <;> rfl

variable {p}

theorem swCredClass_port (h : p < s.sward.ports.length) : (swCredClass p s i).swPort p =
    if swCredDue s p i then
      { s.swPort p with owed := setAt (s.swPort p).owed i (nth (s.swPort p).owed i 0 - min (nth (s.swPort p).owed i 0) 255) }
    else s.swPort p := by
  rw [swCredClass_eq]
  split
  · exact swPort_setSwPort_same h
  · rfl

end

/-- What two classes owe after their CREDs. -/
theorem swCredSend_owed {a b : Nat} {ca cb : Bool} (hcarries : swCarries s p = true) (hhush : (s.swPort p).hush = false) (howed : (s.swPort p).owed = [a, b])
    (hlen : p < s.sward.ports.length) (ha : ca = (a != 0 && (decide (8 ≤ a) || decide (usTicks ≤ (s.dt - nth (s.swPort p).owedAt 0 0).toNat))))
    (hb : cb = (b != 0 && (decide (8 ≤ b) || decide (usTicks ≤ (s.dt - nth (s.swPort p).owedAt 1 0).toNat)))) :
    ((swCredSend s p).swPort p).owed = [if ca then a - min a 255 else a, if cb then b - min b 255 else b] ∧ (swCredSend s p).regs = s.regs ∧
      (swCredSend s p).sward.sets =
        (if cb then [(p, .cred 3 (min b 255))] else []) ++ (if ca then [(p, .cred 2 (min a 255))] else []) ++ s.sward.sets := by
  have hdue0 : swCredDue s p 0 = ca := by rw [swCredDue, howed, ha]; rfl
  have hport0 := swCredClass_port s 0 hlen
  have howed0 : ((swCredClass p s 0).swPort p).owed = [if ca then a - min a 255 else a, b] := by
    rw [hport0, hdue0]
    cases ca
    · exact howed
    · simp [howed, nth, setAt]
  have howedAt0 : ((swCredClass p s 0).swPort p).owedAt = (s.swPort p).owedAt := by
    rw [hport0]
    split <;> rfl
  have hdue1 : swCredDue (swCredClass p s 0) p 1 = cb := by rw [swCredDue, howed0, howedAt0, swCredClass_dt, hb]; rfl
  rw [swCredSend_eq hcarries hhush]
  refine ⟨?_, (swCredClass_regs ..).trans (swCredClass_regs ..), ?_⟩
  · rw [swCredClass_port _ 1 ((swCredClass_length s p 0).symm ▸ hlen), hdue1]
    cases cb
    · exact howed0
    · simp [howed0, nth, setAt]
  · rw [swCredClass_sets, swCredClass_sets, hdue1, hdue0, howed0, howed, List.append_assoc]
    rfl

/-! ### Link delay (R419) -/

theorem drspTake_shows {tag turn : Nat} {t0 : Tick} {ds : List Int} (hst : swState s p = 2) (hlive : swLive s p = true)
    (hat : (s.swPort p).dreqAt = some t0) (htag : (s.swPort p).tag = tag)
    (hds : ds = (((t - t0).toInt - (turn : Int)) / 2 :: (s.swPort p).delays).take 16) :
    drspTake s p tag turn t = (s.setSwPort p { s.swPort p with dreqAt := none, delays := ds }).setReg (R.swardDelay p)
      (wdInt (ds.foldl (· + ·) 0 / (ds.length : Int))) := by
  have hsome : max 1 ds.length = ds.length := by
    rw [hds, List.length_take, List.length_cons]
    omega
  have htake : drspTake s p tag turn t = if swState s p ≠ 2 ∨ !swLive s p ∨ (s.swPort p).tag ≠ tag then s
      else (s.setSwPort p { s.swPort p with dreqAt := none, delays := ds }).setReg (R.swardDelay p)
        (wdInt (ds.foldl (· + ·) 0 / (max 1 ds.length : Nat))) := by
    unfold drspTake
    dsimp only
    rw [hat, hds]
  rw [htake, if_neg (by simp [hst, hlive, htag]), hsome]

/-! ### SWARD_JOIN and SWARD_LEAVE (R429, R433) -/

variable {r : Request} {w : Word}

theorem opSwardJoin_trains (hlt : r.target ≤ 3) (hruns : nodeRuns s (21 + r.target) = true) (hnode : swNode s ≠ 0) :
    opSwardJoin r s = { st := if swState s r.target = 0 then swSetState s r.target 1 else s } := by
  unfold opSwardJoin
  rw [if_neg (by omega), if_neg (by simp [hruns]), if_neg hnode]

theorem opSwardLeave_leaves (hp : r.params = [w]) (hlt : r.target ≤ 3) (hres : bitsOf w 1 31 = 0) (hruns : nodeRuns s (21 + r.target) = true) :
    opSwardLeave r s = if bitOf w 0 then { st := if swState s r.target = 0 then s else swDown s r.target }
      else { st :=
        if swState s r.target = 2 then
          (if swLive s r.target then swSent (swSetState s r.target 3) r.target { cls := 2, dst := swLocal, svc := 0, src := swNode s, payload := [2 <<< 24] }
           else swSetState s r.target 3)
        else if swState s r.target = 1 then swDown s r.target else s } := by
  have hword : r.p 0 = w := by simp [Request.p, hp, nth]
  unfold opSwardLeave
  dsimp only
  rw [hword, if_neg (by omega), if_neg (by simp [hres]), if_neg (by simp [hruns])]

/-! ### Registers (R425, R429) -/

theorem swSetRoot_node (s : State) (on : Bool) : swNode (swSetRoot s on) = swNode s := by
  unfold swSetRoot
  refine ((swUpstream_regsIn _).fld_eq (f := R.swardNode_NODE) (by decide)).trans ?_
  have hroot : (s.setFlag R.swardNode_ROOT on).fld R.swardNode_NODE = s.fld R.swardNode_NODE := State.fld_beside s R.swardNode_ROOT R.swardNode_NODE _ rfl rfl rfl
  cases on
  · exact (State.withSward_fld ..).trans hroot
  · exact (State.withSward_fld ..).trans hroot

theorem swSetRoot_root (s : State) (on : Bool) : (swSetRoot s on).flag R.swardNode_ROOT = on := by
  unfold swSetRoot
  refine ((swUpstream_regsIn _).flag_eq (f := R.swardNode_ROOT) (by decide)).trans ?_
  have hroot : (s.setFlag R.swardNode_ROOT on).flag R.swardNode_ROOT = on := State.flag_put s R.swardNode_ROOT on rfl rfl
  cases on
  · exact (State.withSward_flag ..).trans hroot
  · exact (State.withSward_flag ..).trans hroot

/-- A root's fabric time is device time. -/
theorem swSetRoot_time (s : State) : (swSetRoot s true).sward.dtB = 0 ∧ (swSetRoot s true).sward.ftB = 0 := by
  unfold swSetRoot
  rw [swUpstream_part (k := State.sward) fun _ _ _ => rfl]
  exact ⟨rfl, rfl⟩

theorem swNodeWrite_takes (hlocal : bitsOf w 0 18 ≠ swLocal) (hdown : (List.range 4).all (fun p => swState s p == 0) = true) :
    swNodeWrite s w = { st := swSetRoot (s.setFld R.swardNode_NODE (bitsOf w 0 18)) (bitOf w 31) } := by
  have hany : ¬ (List.range 4).any (fun p => swState s p != 0) = true := by simpa using hdown
  unfold swNodeWrite
  rw [if_neg hlocal, if_neg hany]

/-- The reservation registers of a port. -/
def swResReg (p i : Nat) : Nat := if i = 0 then R.swardRes0 p else if i = 1 then R.swardRes1 p else R.swardRes2 p

theorem swResWrite_fits (c : Fin 3)
    (hsum : bitsOf w 0 19 + sumNat (((List.range 3).filter (· != c.val)).map (fun i => bitsOf (s.reg (swResReg p i)) 0 19)) ≤ 270000) :
    swResWrite s p c.val w = { st := s.setReg (swResReg p c.val) (wd (bitsOf w 0 19)) } := by
  unfold swResWrite
  extract_lets a v sum
  have hreg (i : Nat) : a i = swResReg p i := match i with
    | 0 => rfl
    | 1 => rfl
    | _ + 2 => rfl
  have htotal : sum = v + sumNat (((List.range 3).filter (· != c.val)).map (fun i => bitsOf (s.reg (swResReg p i)) 0 19)) := by
    simp only [sum, hreg]
    match c with
    | 0 => simp [List.range_succ, sumNat]; omega
    | 1 => simp [List.range_succ, sumNat]; omega
    | 2 => simp [List.range_succ, sumNat]; omega
  rw [if_neg (by omega), hreg]

end

/-- Settles O43, port by port through the state, credit and delay operations. -/
theorem swardPorts : Obligations.Sward_Ports := by
  unfold Obligations.Sward_Ports
  refine ⟨?_, ?_, ?_, ?_, ?_, ?_, ?_, ?_, ?_, ?_, ?_, ?_, ?_, ?_⟩
  case refine_1 => exact fun s p hlive hst => congrArg Host.Outcome.next (swTrained_sends hlive hst)
  case refine_2 =>
    intro s u v p nport addr hops c2 c3 hlive hu hv
    have hneigh : swNeighbour s p.val addr.toNat nport.val hops.val = v := by rw [hv, hu]; rfl
    refine ⟨fun hst => congrArg Host.Outcome.next ?_, fun hst => congrArg Host.Outcome.next ?_⟩
    · rw [swHello_takes hlive (.inl hst), hneigh]
      exact if_pos hst
    · rw [swHello_takes hlive (.inr hst), hneigh]
      exact if_neg (by omega)
  case refine_3 => exact fun s p hcarries => congrArg Host.Outcome.next (if_pos hcarries)
  case refine_4 => exact fun s p hst => ⟨congrArg Host.Outcome.next (if_neg hst), swState_swDown s p.val⟩
  case refine_5 =>
    intro s u v p n e hlive hst he hu hv
    have hzero : (n = 0) = (n.toNat = 0) := by simp [BitVec.toNat_eq]
    refine congrArg Host.Outcome.next ((swErrors_counts hlive hst).trans ?_)
    subst he hu
    dsimp only
    rw [hv, ite_congr hzero (fun _ => rfl) fun _ => rfl]
  case refine_6 => exact fun s p bulk k hcarries => congrArg Host.Outcome.next (if_pos hcarries)
  case refine_7 =>
    intro s v p t a b ca cb hv hcarries hhush howed hlen ha hb
    subst hv
    exact ⟨_, rfl, swCredSend_owed hcarries hhush howed hlen ha hb⟩
  case refine_8 =>
    intro s v p t hv hst hlive
    subst hv
    exact ⟨congrArg Host.Outcome.next (if_neg (by simp [hst, hlive])), fun tag arr => congrArg Host.Outcome.next (if_neg (by simp [hst, hlive]))⟩
  case refine_9 =>
    intro s v p turn t t0 tag ds hv hst hlive hat htag hds
    subst hv
    exact congrArg Host.Outcome.next (drspTake_shows hst hlive hat htag hds)
  case refine_10 =>
    intro s r hs hp hlt hruns hnode
    rw [exec_of_served (c := .swardJoin r) rfl hs (by simp [hp]), opSwardJoin_trains hlt hruns hnode]
  case refine_11 =>
    intro s r w hs hp hlt hres hruns
    have hexec : exec (.swardLeave r) s = .next (respond r (opSwardLeave r s)) := exec_of_served rfl hs (by simp [hp])
    rw [opSwardLeave_leaves hp hlt hres hruns] at hexec
    rw [hexec]
    refine ⟨fun hnow => by rw [if_pos hnow], fun hlater hst hlive => ?_, fun hlater hst hlive => ?_, fun hlater hst => ?_⟩
    · rw [if_neg (by simp [hlater]), if_pos hst, if_pos hlive]
    · rw [if_neg (by simp [hlater]), if_pos hst, if_neg (by simp [hlive])]
    · rw [if_neg (by simp [hlater]), if_neg hst]
  case refine_12 =>
    intro s w hlocal hdown
    refine ⟨_, congrArg Host.Outcome.next (congrArg Res.st (swNodeWrite_takes hlocal hdown)), ?_, swSetRoot_root _ _, fun hroot => ?_⟩
    · rw [swSetRoot_node]
      exact State.fld_put_of_lt s R.swardNode_NODE (w := 18) rfl (bitsOf_lt w 0 18 (by decide)) rfl
    · rw [hroot]
      exact swSetRoot_time _
  case refine_13 =>
    intro s p c w a hready ha hsum
    subst ha
    exact congrArg Host.Outcome.next ((regRowWrite_ready _ hready).trans (congrArg Res.st (swResWrite_fits c hsum)))
  case refine_14 =>
    intro s w
    refine ⟨fun k hk => congrArg Host.Outcome.next ?_, fun hk => congrArg Host.Outcome.next ?_⟩
    · rw [hrxTailWrite, hk]
    · rw [hrxTailWrite, hk]
      rfl

end Sys2Proof.Machine
end

section
/-! PROOF. O45, the works of the Sheaf (17_sward_sheaf.md R438, R439, R441 to R443, R446). -/

namespace Sys2Proof.Machine

open Sys2Proof

/-! ### What the shared operations of the Sheaf leave -/

section

variable {γ : Type} {k : State → γ}

/-- What a drop and a port's own state leave, a frame sent leaves. -/
theorem swSend_part (hdrop : ∀ t p c x, k (swDrop t p c x) = k t) (hport : ∀ t p x, k (State.setSwPort t p x) = k t) (s : State) (f : SwFrame) :
    k (swSend s f) = k s := by
  have hone (t : State) (p : Nat) : k (if swState t p = 2 then swOut t p f false else swDrop t p f.cls 3) = k t := by
    split
    · exact hport ..
    · exact hdrop ..
  unfold swSend
  split
  · exact foldl_keep _ k hone _ s
  · exact hdrop ..

theorem swSend_sheaf (s : State) (f : SwFrame) : (swSend s f).sheaf = s.sheaf :=
  swSend_part (k := State.sheaf) (fun _ _ _ _ => by simp [swDrop_eq]) (fun _ _ _ => rfl) s f

theorem swSend_loop (s : State) (f : SwFrame) : (swSend s f).loop = s.loop :=
  swSend_part (k := State.loop) swDrop_loop (fun _ _ _ => rfl) s f

/-- Links that are cut wait as changes of their groups. -/
theorem cutLinks_part (hloop : ∀ t x, k (State.withLoop t x) = k t) (s : State) (m : Option Nat) : k (cutLinks s m) = k s :=
  foldl_keep _ k (fun _ _ => hloop ..) _ s

theorem sheafTake_part (hreg : ∀ t a x, k (State.setReg t a x) = k t) (hraise : ∀ t e i d, k (State.raise t e i d) = k t) (s : State) (st : Nat) :
    k (sheafTake s st) = k s := by
  unfold sheafTake
  extract_lets old
  split
  · rfl
  · exact (hraise ..).trans (hreg ..)

theorem sheafSetMember_part (hreg : ∀ t a x, k (State.setReg t a x) = k t) (s : State) (slot : Nat) (on : Bool) : k (sheafSetMember s slot on) = k s := by
  unfold sheafSetMember
  split
  · exact hreg ..
  · rfl

end

section

variable (s : State) {f : RF}

theorem cutLinks_fld (m : Option Nat) (f : RF) : (cutLinks s m).fld f = s.fld f := cutLinks_part (k := (State.fld · f)) (fun _ _ => rfl) s m

theorem cutLinks_sheaf (m : Option Nat) : (cutLinks s m).sheaf = s.sheaf := cutLinks_part (k := State.sheaf) (fun _ _ => rfl) s m

/-- A state taken reads as it was taken. -/
theorem sheafTake_state {st : Nat} (h : st < 16) : sheafState (sheafTake s st) = st := by
  unfold sheafTake
  extract_lets old
  split
  next heq => exact heq
  · rw [sheafState, State.raise_fld]
    exact State.fld_put_of_lt s R.sheafStat_STATE (w := 4) rfl h rfl

theorem sheafTake_fld (st : Nat) (hf : ∀ t v, (State.setFld t R.sheafStat_STATE v).fld f = t.fld f) : (sheafTake s st).fld f = s.fld f := by
  unfold sheafTake
  extract_lets old
  split
  · rfl
  · rw [State.raise_fld, hf]

theorem sheafTake_sheaf (st : Nat) : (sheafTake s st).sheaf = s.sheaf := sheafTake_part (k := State.sheaf) (fun _ _ _ => rfl) (fun _ _ _ _ => rfl) s st

theorem sheafSetMember_sheaf (slot : Nat) (on : Bool) : (sheafSetMember s slot on).sheaf = s.sheaf :=
  sheafSetMember_part (k := State.sheaf) (fun _ _ _ => rfl) s slot on

/-- The members lie in the low half of STAT. -/
theorem sheafSetMember_fld (slot : Nat) (on : Bool) (hf : R.sheafStat ≠ f.addr ∨ (R.sheafStat = f.addr ∧ f.fits = true ∧ 16 ≤ f.lo)) :
    (sheafSetMember s slot on).fld f = s.fld f := by
  unfold sheafSetMember
  split
  next hslot =>
    rcases hf with hne | ⟨haddr, hfits, hlo⟩
    · exact State.fld_setFld_ne s ⟨R.sheafStat, slot, 1⟩ f _ hne
    · exact State.fld_setFld_apart s ⟨R.sheafStat, slot, 1⟩ f _ haddr (RF.le_of_fits hfits) (.inl (by show slot + 1 ≤ f.lo; omega))
  · rfl

/-- A new root changes NODE, FTSTAT and fabric time alone. -/
theorem swSetRoot_fld (on : Bool) (hnode : ¬ R.swardNode = f.addr) (hft : ¬ R.swardFtstat = f.addr) : (swSetRoot s on).fld f = s.fld f := by
  unfold swSetRoot
  refine ((swUpstream_regsIn _).fld_eq hft).trans ?_
  have hroot : (s.setFlag R.swardNode_ROOT on).fld f = s.fld f := State.fld_setFlag_ne s R.swardNode_ROOT f on hnode
  cases on
  · exact (State.withSward_fld ..).trans hroot
  · exact (State.withSward_fld ..).trans hroot

theorem swSetRoot_sheaf (on : Bool) : (swSetRoot s on).sheaf = s.sheaf := by
  unfold swSetRoot
  refine (swUpstream_part (k := State.sheaf) (fun _ _ _ => rfl) _).trans ?_
  cases on <;> rfl

end

/-! ### Roles (R438) -/

section

variable {s : State} {r : Request} {a b : Word} {role base mst : Nat}

/-- A role is taken, with nothing noted of the one before. -/
def sheafRoleSet (s : State) (role : Nat) : State :=
  let s1 := (s.setFlag R.sheafStat_LEAD (decide (role = 1))).setFld R.sheafCfg_ROLE role
  s1.withSheaf { s1.sheaf with leaving := false, joinSent := false, check := none, took := false, joins := [], leaves := [], standby := none, seen := [],
                               near := List.replicate 8 0, far := List.replicate 8 0, mirrors := [], beacon := [], beaconAt := none }

/-- The Sheaf a module enters: its base and its master, nobody yet aligned or a member. -/
def sheafEntered (s : State) (role base mst : Nat) : State :=
  ((((sheafRoleSet s role).setFld R.sheafCfg_BASE base).setFld R.sheafMaster_MASTER mst).setFld R.sheafAlign_ALIGNED 0).setFld R.sheafStat_MEMBERS 0

/-- What a role leaves of the module's place in the Sheaf. -/
def sheafRoleTaken (s : State) (role base mst : Nat) : State :=
  if role = 0 then
    (if sheafState s = 2 then (sheafRoleSet s 0).withSheaf { (sheafRoleSet s 0).sheaf with leaving := true } else sheafTake (sheafRoleSet s 0) 0)
  else if role = 1 then sheafTake (sheafSetMember (swSetRoot (sheafEntered s role base (swNode s)) true) (sheafSlot s) true) 2
  else sheafTake (sheafEntered s role base mst) 1

theorem opSheafRole_takes (hp : r.params = [a, b]) (hrole : role = bitsOf a 30 2) (hbase : base = bitsOf a 0 18) (hmst : mst = bitsOf b 0 18)
    (ha : bitsOf a 18 12 = 0) (hb : bitsOf b 18 14 = 0) (hround : base % 16 = 0) (hnode : swNode s = base + sheafSlot s)
    (hmaster : 2 ≤ role → base ≤ mst ∧ mst ≤ base + 15 ∧ mst ≠ swNode s) (hoff : ∀ g, g < 8 → grpState s g = 0) (hsync : s.flag R.nibSync_IN_EN = false)
    (hdisc : role = 2 → s.flag R.timeCfg_DISC = false) (htg : role = 1 ∨ role = 2 → (s.grp 0).p ≠ 0 ∧ tg0Committed s none = true) :
    opSheafRole r s = { st := sheafRoleTaken s role base mst } := by
  have hword0 : r.p 0 = a := by simp [Request.p, hp, nth]
  have hword1 : r.p 1 = b := by simp [Request.p, hp, nth]
  have hgood : ¬ (bitsOf a 18 12 ≠ 0 ∨ bitsOf b 18 14 ≠ 0 ∨ base % 16 ≠ 0 ∨ swNode s ≠ base + sheafSlot s
      ∨ (2 ≤ role ∧ (mst < base ∨ base + 15 < mst ∨ mst = swNode s))) := by
    rintro (h | h | h | h | ⟨h2, h⟩)
    · exact h ha
    · exact h hb
    · exact h hround
    · exact h hnode
    · have := hmaster h2
      omega
  have hfree : ¬ ((List.range 8).any (fun g => grpState s g != 0) ∨ s.flag R.nibSync_IN_EN ∨ (role = 2 ∧ s.flag R.timeCfg_DISC)
      ∨ ((role = 1 ∨ role = 2) ∧ ((s.grp 0).p = 0 ∨ !tg0Committed s none))) := by
    rintro (h | h | ⟨h2, h⟩ | ⟨h12, h⟩)
    · obtain ⟨g, hg, hne⟩ := List.any_eq_true.mp h
      simp [hoff g (List.mem_range.mp hg)] at hne
    · exact Bool.false_ne_true (hsync.symm.trans h)
    · exact Bool.false_ne_true ((hdisc h2).symm.trans h)
    · simp [htg h12] at h
  unfold opSheafRole
  rw [hword0, hword1, ← hrole, ← hbase, ← hmst]
  dsimp only
  rw [if_neg hgood, if_neg hfree]
  unfold sheafRoleTaken
  by_cases h0 : role = 0
  · subst h0
    rfl
  · by_cases h1 : role = 1
    · subst h1
      rfl
    · rw [if_neg h0, if_neg h1, if_neg h0, if_neg h1, if_neg h1]
      rfl

section

variable (s role base mst)

theorem sheafRoleSet_fld {f : RF} (hlead : ∀ t v, (State.setFld t R.sheafStat_LEAD v).fld f = t.fld f)
    (hrole : ∀ t v, (State.setFld t R.sheafCfg_ROLE v).fld f = t.fld f) : (sheafRoleSet s role).fld f = s.fld f := by
  rw [sheafRoleSet, State.withSheaf_fld, hrole, State.setFlag, hlead]

theorem sheafRoleSet_role (h : role < 4) : sheafRole (sheafRoleSet s role) = role := by
  rw [sheafRole, sheafRoleSet, State.withSheaf_fld]
  exact State.fld_put_of_lt _ R.sheafCfg_ROLE (w := 2) rfl h rfl

theorem sheafRoleSet_lead : (sheafRoleSet s role).flag R.sheafStat_LEAD = decide (role = 1) := by
  rw [sheafRoleSet, State.withSheaf_flag, State.flag_elsewhere _ R.sheafCfg_ROLE R.sheafStat_LEAD _ rfl]
  exact State.flag_put s R.sheafStat_LEAD _ rfl rfl

/-- What BASE, MASTER, ALIGNED and MEMBERS leave. -/
theorem sheafEntered_fld {f : RF} (hbase : ∀ t v, (State.setFld t R.sheafCfg_BASE v).fld f = t.fld f)
    (hmaster : ∀ t v, (State.setFld t R.sheafMaster_MASTER v).fld f = t.fld f) (halign : ∀ t v, (State.setFld t R.sheafAlign_ALIGNED v).fld f = t.fld f)
    (hmembers : ∀ t v, (State.setFld t R.sheafStat_MEMBERS v).fld f = t.fld f) : (sheafEntered s role base mst).fld f = (sheafRoleSet s role).fld f := by
  rw [sheafEntered, hmembers, halign, hmaster, hbase]

theorem sheafEntered_role (h : role < 4) : sheafRole (sheafEntered s role base mst) = role :=
  (sheafEntered_fld s role base mst (fun t v => State.fld_beside t R.sheafCfg_BASE R.sheafCfg_ROLE v rfl rfl rfl)
    (fun t v => State.fld_elsewhere t R.sheafMaster_MASTER R.sheafCfg_ROLE v rfl) (fun t v => State.fld_elsewhere t R.sheafAlign_ALIGNED R.sheafCfg_ROLE v rfl)
    fun t v => State.fld_elsewhere t R.sheafStat_MEMBERS R.sheafCfg_ROLE v rfl).trans (sheafRoleSet_role s role h)

theorem sheafEntered_lead : (sheafEntered s role base mst).flag R.sheafStat_LEAD = decide (role = 1) :=
  (congrArg (· == 1) (sheafEntered_fld s role base mst (fun t v => State.fld_elsewhere t R.sheafCfg_BASE R.sheafStat_LEAD v rfl)
    (fun t v => State.fld_elsewhere t R.sheafMaster_MASTER R.sheafStat_LEAD v rfl) (fun t v => State.fld_elsewhere t R.sheafAlign_ALIGNED R.sheafStat_LEAD v rfl)
    fun t v => State.fld_beside t R.sheafStat_MEMBERS R.sheafStat_LEAD v rfl rfl rfl)).trans (sheafRoleSet_lead s role)

theorem sheafEntered_base (h : base < 2 ^ 18) : (sheafEntered s role base mst).fld R.sheafCfg_BASE = base := by
  rw [sheafEntered, State.fld_elsewhere _ R.sheafStat_MEMBERS R.sheafCfg_BASE _ rfl, State.fld_elsewhere _ R.sheafAlign_ALIGNED R.sheafCfg_BASE _ rfl,
    State.fld_elsewhere _ R.sheafMaster_MASTER R.sheafCfg_BASE _ rfl]
  exact State.fld_put_of_lt _ R.sheafCfg_BASE (w := 18) rfl h rfl

theorem sheafEntered_master (h : mst < 2 ^ 18) : (sheafEntered s role base mst).fld R.sheafMaster_MASTER = mst := by
  rw [sheafEntered, State.fld_elsewhere _ R.sheafStat_MEMBERS R.sheafMaster_MASTER _ rfl, State.fld_elsewhere _ R.sheafAlign_ALIGNED R.sheafMaster_MASTER _ rfl]
  exact State.fld_put_of_lt _ R.sheafMaster_MASTER (w := 18) rfl h rfl

theorem sheafEntered_members : (sheafEntered s role base mst).fld R.sheafStat_MEMBERS = 0 :=
  State.fld_put_of_lt _ R.sheafStat_MEMBERS (w := 16) rfl (by decide) rfl

end

/-- A field of the configuration, the master's or LEAD: neither STATE nor a member. -/
theorem sheafMaster_fld (s : State) {f : RF} (slot : Nat) (hstate : ∀ t v, (State.setFld t R.sheafStat_STATE v).fld f = t.fld f)
    (hmember : R.sheafStat ≠ f.addr ∨ (R.sheafStat = f.addr ∧ f.fits = true ∧ 16 ≤ f.lo)) (hnode : ¬ R.swardNode = f.addr) (hft : ¬ R.swardFtstat = f.addr) :
    (sheafTake (sheafSetMember (swSetRoot s true) slot true) 2).fld f = s.fld f := by
  rw [sheafTake_fld _ 2 hstate, sheafSetMember_fld _ slot true hmember, swSetRoot_fld _ true hnode hft]

/-- What a module's role says of it once it is taken. -/
structure SheafPlaced (s t : State) (role base mst : Nat) : Prop where
  role_ : sheafRole t = role
  lead : t.flag R.sheafStat_LEAD = decide (role = 1)
  leaves : role = 0 → sheafState s = 2 → t.sheaf.leaving = true ∧ sheafState t = 2
  alone : role = 0 → sheafState s ≠ 2 → sheafState t = 0
  master : role = 1 → sheafState t = 2 ∧ t.fld R.sheafMaster_MASTER = swNode s ∧ t.fld R.sheafCfg_BASE = base ∧ t.flag R.swardNode_ROOT = true
  member : 2 ≤ role → sheafState t = 1 ∧ t.fld R.sheafMaster_MASTER = mst ∧ t.fld R.sheafCfg_BASE = base ∧ t.fld R.sheafStat_MEMBERS = 0

theorem sheafRoleTaken_none : SheafPlaced s (sheafRoleTaken s 0 base mst) 0 base mst := by
  have hstate : sheafState (sheafRoleSet s 0) = sheafState s :=
    sheafRoleSet_fld s 0 (fun t v => State.fld_beside t R.sheafStat_LEAD R.sheafStat_STATE v rfl rfl rfl) fun t v => State.fld_elsewhere t R.sheafCfg_ROLE R.sheafStat_STATE v rfl
  by_cases hjoined : sheafState s = 2
  · have htaken : sheafRoleTaken s 0 base mst = (sheafRoleSet s 0).withSheaf { (sheafRoleSet s 0).sheaf with leaving := true } := if_pos hjoined
    rw [htaken]
    exact { role_ := sheafRoleSet_role s 0 (by decide), lead := sheafRoleSet_lead s 0, leaves := fun _ _ => ⟨rfl, hstate.trans hjoined⟩,
            alone := fun _ h => absurd hjoined h, master := fun h => absurd h (by decide), member := fun h => absurd h (by decide) }
  · have htaken : sheafRoleTaken s 0 base mst = sheafTake (sheafRoleSet s 0) 0 := if_neg hjoined
    rw [htaken]
    exact { role_ := (sheafTake_fld _ 0 fun t v => State.fld_elsewhere t R.sheafStat_STATE R.sheafCfg_ROLE v rfl).trans (sheafRoleSet_role s 0 (by decide)),
            lead := (congrArg (· == 1) (sheafTake_fld _ 0 fun t v => State.fld_beside t R.sheafStat_STATE R.sheafStat_LEAD v rfl rfl rfl)).trans (sheafRoleSet_lead s 0),
            leaves := fun _ h => absurd h hjoined, alone := fun _ _ => sheafTake_state _ (by decide), master := fun h => absurd h (by decide),
            member := fun h => absurd h (by decide) }

theorem sheafRoleTaken_master (hbase : base < 2 ^ 18) : SheafPlaced s (sheafRoleTaken s 1 base mst) 1 base mst := by
  have htaken : sheafRoleTaken s 1 base mst = sheafTake (sheafSetMember (swSetRoot (sheafEntered s 1 base (swNode s)) true) (sheafSlot s) true) 2 := rfl
  have hroot : (sheafTake (sheafSetMember (swSetRoot (sheafEntered s 1 base (swNode s)) true) (sheafSlot s) true) 2).flag R.swardNode_ROOT = true := by
    rw [State.flag, sheafTake_fld _ 2 fun t v => State.fld_elsewhere t R.sheafStat_STATE R.swardNode_ROOT v rfl, sheafSetMember_fld _ _ _ (.inl (by decide))]
    exact swSetRoot_root _ true
  rw [htaken]
  refine { role_ := ?_, lead := ?_, leaves := fun h => absurd h (by decide), alone := fun h => absurd h (by decide), master := fun _ => ⟨?_, ?_, ?_, hroot⟩,
           member := fun h => absurd h (by decide) }
  · exact (sheafMaster_fld _ _ (fun t v => State.fld_elsewhere t R.sheafStat_STATE R.sheafCfg_ROLE v rfl) (.inl (by decide)) (by decide) (by decide)).trans
      (sheafEntered_role s 1 base _ (by decide))
  · exact (congrArg (· == 1) (sheafMaster_fld _ _ (fun t v => State.fld_beside t R.sheafStat_STATE R.sheafStat_LEAD v rfl rfl rfl) (.inr (by decide)) (by decide) (by decide))).trans
      (sheafEntered_lead s 1 base _)
  · exact sheafTake_state _ (by decide)
  · exact (sheafMaster_fld _ _ (fun t v => State.fld_elsewhere t R.sheafStat_STATE R.sheafMaster_MASTER v rfl) (.inl (by decide)) (by decide) (by decide)).trans
      (sheafEntered_master s 1 base _ (bitsOf_lt _ 0 18 (by decide)))
  · exact (sheafMaster_fld _ _ (fun t v => State.fld_elsewhere t R.sheafStat_STATE R.sheafCfg_BASE v rfl) (.inl (by decide)) (by decide) (by decide)).trans
      (sheafEntered_base s 1 base _ hbase)

theorem sheafRoleTaken_member (hrole : 2 ≤ role) (hlt : role < 4) (hbase : base < 2 ^ 18) (hmst : mst < 2 ^ 18) :
    SheafPlaced s (sheafRoleTaken s role base mst) role base mst := by
  have htaken : sheafRoleTaken s role base mst = sheafTake (sheafEntered s role base mst) 1 := (if_neg (by omega)).trans (if_neg (by omega))
  rw [htaken]
  refine { role_ := ?_, lead := ?_, leaves := fun h => absurd h (by omega), alone := fun h => absurd h (by omega), master := fun h => absurd h (by omega),
           member := fun _ => ⟨sheafTake_state _ (by decide), ?_, ?_, ?_⟩ }
  · exact (sheafTake_fld _ 1 fun t v => State.fld_elsewhere t R.sheafStat_STATE R.sheafCfg_ROLE v rfl).trans (sheafEntered_role s role base mst hlt)
  · exact (congrArg (· == 1) (sheafTake_fld _ 1 fun t v => State.fld_beside t R.sheafStat_STATE R.sheafStat_LEAD v rfl rfl rfl)).trans (sheafEntered_lead s role base mst)
  · exact (sheafTake_fld _ 1 fun t v => State.fld_elsewhere t R.sheafStat_STATE R.sheafMaster_MASTER v rfl).trans (sheafEntered_master s role base mst hmst)
  · exact (sheafTake_fld _ 1 fun t v => State.fld_elsewhere t R.sheafStat_STATE R.sheafCfg_BASE v rfl).trans (sheafEntered_base s role base mst hbase)
  · exact (sheafTake_fld _ 1 fun t v => State.fld_beside t R.sheafStat_STATE R.sheafStat_MEMBERS v rfl rfl rfl).trans (sheafEntered_members s role base mst)

theorem sheafRoleTaken_placed (hlt : role < 4) (hbase : base < 2 ^ 18) (hmst : mst < 2 ^ 18) : SheafPlaced s (sheafRoleTaken s role base mst) role base mst := by
  rcases (by omega : role = 0 ∨ role = 1 ∨ 2 ≤ role) with rfl | rfl | h
  · exact sheafRoleTaken_none
  · exact sheafRoleTaken_master hbase
  · exact sheafRoleTaken_member h hlt hbase hmst

end

/-! ### Sheaf epochs (R439, R442) -/

section

variable {s : State}

/-- The axes of a module that departs stop, its links are cut, it is alone. -/
def sheafParted (s : State) : State :=
  (sheafTake (cutLinks ((s.slots.filter (fun k => (s.ctx k).kind == 7 || (s.ctx k).kind == 8)).foldl
    (fun t k => addPend t (t.ctx k).grp (dueNext t (t.ctx k).grp) false (.ctxCmd k 0x138 [])) s) none) 0).cntSat R.sheafCnt_DEPARTS

theorem sheafDepart_eq (s : State) : sheafDepart s = (((sheafParted s).setFld R.sheafStat_MEMBERS 0).setFld R.sheafAlign_ALIGNED 0).withSheaf
    { (sheafParted s).sheaf with leaving := false, joinSent := false, users := [], beaconAt := none, beacon := [] } := rfl

theorem sheafDepart_state (s : State) : sheafState (sheafDepart s) = 0 := by
  rw [sheafState, sheafDepart_eq, State.withSheaf_fld, State.fld_elsewhere _ R.sheafAlign_ALIGNED R.sheafStat_STATE _ rfl,
    State.fld_beside _ R.sheafStat_MEMBERS R.sheafStat_STATE _ rfl rfl rfl, sheafParted, State.cntSat, State.fld_elsewhere _ R.sheafCnt_DEPARTS R.sheafStat_STATE _ rfl]
  exact sheafTake_state _ (by decide)

theorem sheafDepart_members (s : State) : (sheafDepart s).fld R.sheafStat_MEMBERS = 0 := by
  rw [sheafDepart_eq, State.withSheaf_fld, State.fld_elsewhere _ R.sheafAlign_ALIGNED R.sheafStat_MEMBERS _ rfl]
  exact State.fld_put_of_lt _ R.sheafStat_MEMBERS (w := 16) rfl (by decide) rfl

theorem sheafEpoch_eq (hepoch : s.fld R.swardEpoch_EPOCH % 16 = 0) : sheafEpoch s =
    (let s0 := if s.sheaf.leaving && sheafState s == 2 then sheafDepart s else s
     if sheafRole s0 = 1 ∧ sheafState s0 = 2 then
       (s0.sheaf.joins.filter (fun e => !s0.sheaf.leaves.contains e.1)).foldl (fun t e => sheafJoin t e.1 e.2)
         ((s0.sheaf.leaves.foldl sheafDrop s0).withSheaf { (s0.sheaf.leaves.foldl sheafDrop s0).sheaf with joins := [], leaves := [] })
     else s0) := if_neg (not_not.mpr hepoch)

theorem sheafEpoch_departs (hepoch : s.fld R.swardEpoch_EPOCH % 16 = 0) (hleaving : s.sheaf.leaving = true) (hjoined : sheafState s = 2) :
    sheafEpoch s = sheafDepart s := by
  have hs0 : (if s.sheaf.leaving && sheafState s == 2 then sheafDepart s else s) = sheafDepart s := if_pos (by simp [hleaving, hjoined])
  have halone : ¬ sheafState (sheafDepart s) = 2 := by
    rw [sheafDepart_state]
    decide
  rw [sheafEpoch_eq hepoch, hs0]
  exact if_neg fun h => halone h.2

theorem sheafEpoch_decides (hepoch : s.fld R.swardEpoch_EPOCH % 16 = 0) (hstays : s.sheaf.leaving = false) (hrole : sheafRole s = 1) (hjoined : sheafState s = 2) :
    sheafEpoch s = (s.sheaf.joins.filter (fun e => !s.sheaf.leaves.contains e.1)).foldl (fun t e => sheafJoin t e.1 e.2)
      ((s.sheaf.leaves.foldl sheafDrop s).withSheaf { (s.sheaf.leaves.foldl sheafDrop s).sheaf with joins := [], leaves := [] }) := by
  have hs0 : (if s.sheaf.leaving && sheafState s == 2 then sheafDepart s else s) = s := if_neg (by simp [hstays])
  rw [sheafEpoch_eq hepoch, hs0]
  exact if_pos ⟨hrole, hjoined⟩

theorem sheafEpoch_idle (hepoch : s.fld R.swardEpoch_EPOCH % 16 = 0) (hapart : sheafState s ≠ 2) : sheafEpoch s = s := by
  have hs0 : (if s.sheaf.leaving && sheafState s == 2 then sheafDepart s else s) = s := if_neg (by simp [hapart])
  rw [sheafEpoch_eq hepoch, hs0]
  exact if_neg fun h => hapart h.2

/-! ### Beacons and status frames (R439, R440) -/

/-- What a frame leaves, the beacon of a master leaves. -/
theorem sheafBeaconSend_master {γ : Type} {k : State → γ} (hsend : ∀ t f, k (swSend t f) = k t) (hrole : sheafRole s = 1) (hjoined : sheafState s = 2) :
    k (sheafBeaconSend s) = k s := by
  unfold sheafBeaconSend
  extract_lets others frame grps ws
  rw [if_pos ⟨hrole, hjoined⟩]
  exact foldl_keep _ k (fun _ _ => hsend ..) _ s

/-- The status frames of another module leave the Sheaf's own state but for the join they ask for. -/
theorem sheafBeaconSend_member (hrole : 2 ≤ sheafRole s) (hstate : sheafState s = 1 ∨ sheafState s = 2) : (sheafBeaconSend s).loop = s.loop ∧
    (sheafBeaconSend s).sheaf = if sheafState s = 1 ∧ sheafAligned s = true then { s.sheaf with joinSent := true } else s.sheaf := by
  have hjoin : (sheafState s == 1 && sheafAligned s) = true ↔ sheafState s = 1 ∧ sheafAligned s = true := by simp
  unfold sheafBeaconSend
  extract_lets others frame grps ws join head mst s1 s2
  have hloop : s2.loop = s.loop := (foldl_keep _ State.loop (fun _ _ => swSend_loop ..) _ s1).trans (swSend_loop ..)
  have hsheaf : s2.sheaf = s.sheaf := (foldl_keep _ State.sheaf (fun _ _ => swSend_sheaf ..) _ s1).trans (swSend_sheaf ..)
  rw [if_neg (by omega), if_pos ⟨hrole, hstate⟩]
  clear_value s2
  by_cases h : sheafState s = 1 ∧ sheafAligned s = true
  · rw [if_pos (hjoin.mpr h), if_pos h]
    refine ⟨hloop, ?_⟩
    show { s2.sheaf with joinSent := true } = _
    rw [hsheaf]
  · rw [if_neg (hjoin.not.mpr h), if_neg h]
    exact ⟨hloop, hsheaf⟩

section

variable {src members : Nat} {took : Bool} {answer : Option Bool} {grps : List (Nat × Nat × Tick)}

/-- A beacon noted: the master and the members it names, the links of those that are gone cut. -/
def beaconNoted (s : State) (src members : Nat) (grps : List (Nat × Nat × Tick)) : State :=
  let s1 := (s.setFld R.sheafMaster_MASTER src).setFld R.sheafStat_MEMBERS members
  ((List.range 16).filter (fun m => sheafMember s m && members / 2 ^ m % 2 == 0)).foldl (fun t m => cutLinks t (some m))
    (s1.withSheaf { s1.sheaf with beaconAt := some s.dt, beacon := grps })

/-- The master's answer to a join. -/
def beaconAnswered (u : State) : Option Bool → State
  | some true => sheafTake (sheafSetMember (u.withSheaf { u.sheaf with joinSent := false }) (sheafSlot u) true) 2
  | some false => sheafTake ((u.withSheaf { u.sheaf with joinSent := false }).raise 248 (sheafSlot u) 2#32) 0
  | none => u

theorem sheafBeacon_takes (hrole : 2 ≤ sheafRole s) (hstate : sheafState s = 1 ∨ sheafState s = 2) (hsrc : src = s.fld R.sheafMaster_MASTER ∨ took = true) :
    sheafBeacon s src took members answer grps = (let u := beaconNoted s src members grps
      if sheafState u = 1 ∧ u.sheaf.joinSent then beaconAnswered u answer else u) := by
  refine (if_neg (by omega)).trans ((if_neg ?_).trans ?_)
  · rintro ⟨hne, htook⟩
    rcases hsrc with h | h
    · exact hne h
    · simp [h] at htook
  · cases answer with
    | none => rfl
    | some ok => cases ok <;> rfl

variable (s src members grps)

theorem beaconNoted_fld (f : RF) : (beaconNoted s src members grps).fld f = ((s.setFld R.sheafMaster_MASTER src).setFld R.sheafStat_MEMBERS members).fld f :=
  foldl_keep (fun t m => cutLinks t (some m)) (State.fld · f) (fun t m => cutLinks_fld t (some m) f) _ _

theorem beaconNoted_sheaf : (beaconNoted s src members grps).sheaf = { s.sheaf with beaconAt := some s.dt, beacon := grps } :=
  foldl_keep (fun t m => cutLinks t (some m)) State.sheaf (fun t m => cutLinks_sheaf t (some m)) _ _

theorem beaconNoted_state : sheafState (beaconNoted s src members grps) = sheafState s := by
  rw [sheafState, beaconNoted_fld, State.fld_beside _ R.sheafStat_MEMBERS R.sheafStat_STATE _ rfl rfl rfl, State.fld_elsewhere _ R.sheafMaster_MASTER R.sheafStat_STATE _ rfl]
  rfl

variable {src members}

theorem beaconNoted_master (h : src < 2 ^ 18) : (beaconNoted s src members grps).fld R.sheafMaster_MASTER = src := by
  rw [beaconNoted_fld, State.fld_elsewhere _ R.sheafStat_MEMBERS R.sheafMaster_MASTER _ rfl]
  exact State.fld_put_of_lt s R.sheafMaster_MASTER (w := 18) rfl h rfl

theorem beaconNoted_members (h : members < 2 ^ 16) : (beaconNoted s src members grps).fld R.sheafStat_MEMBERS = members :=
  (beaconNoted_fld ..).trans (State.fld_put_of_lt _ R.sheafStat_MEMBERS (w := 16) rfl h rfl)

variable (u : State) (answer)

theorem beaconAnswered_master : (beaconAnswered u answer).fld R.sheafMaster_MASTER = u.fld R.sheafMaster_MASTER := by
  have hstate (t : State) (v : Nat) : (t.setFld R.sheafStat_STATE v).fld R.sheafMaster_MASTER = t.fld R.sheafMaster_MASTER :=
    State.fld_elsewhere t R.sheafStat_STATE R.sheafMaster_MASTER v rfl
  unfold beaconAnswered
  split
  · rw [sheafTake_fld _ _ hstate, sheafSetMember_fld _ _ _ (.inl (by decide)), State.withSheaf_fld]
  · rw [sheafTake_fld _ _ hstate, State.raise_fld, State.withSheaf_fld]
  · rfl

theorem beaconAnswered_sheaf : (beaconAnswered u answer).sheaf.beaconAt = u.sheaf.beaconAt ∧ (beaconAnswered u answer).sheaf.beacon = u.sheaf.beacon := by
  unfold beaconAnswered
  split
  · rw [sheafTake_sheaf, sheafSetMember_sheaf]
    exact ⟨rfl, rfl⟩
  · rw [sheafTake_sheaf, State.raise_sheaf]
    exact ⟨rfl, rfl⟩
  · exact ⟨rfl, rfl⟩

variable {answer}

theorem beaconAnswered_state (h : sheafState u = 1) :
    sheafState (beaconAnswered u answer) = match answer with | some true => 2 | some false => 0 | none => 1 := by
  unfold beaconAnswered
  split
  · exact sheafTake_state _ (by decide)
  · exact sheafTake_state _ (by decide)
  · exact h

theorem beaconAnswered_members (h : answer ≠ some true) : (beaconAnswered u answer).fld R.sheafStat_MEMBERS = u.fld R.sheafStat_MEMBERS := by
  unfold beaconAnswered
  split
  · exact absurd rfl h
  · rw [sheafTake_fld _ _ fun t v => State.fld_beside t R.sheafStat_STATE R.sheafStat_MEMBERS v rfl rfl rfl, State.raise_fld, State.withSheaf_fld]
  · rfl

end

end

/-! ### Status frames, links and mirrors (R441 to R443) -/

section

variable {s : State}

/-- The outputs of this module that the links name. -/
def sheafMine (s : State) (links : List Nat) : List Nat := (links.filter (fun v => v / 256 == sheafSlot s + 1)).map (· % 256)

/-- The outputs a module reads are noted. -/
def sheafUsed (s : State) (slot : Nat) (mine : List Nat) : SheafS :=
  { s.sheaf with users := s.sheaf.users.filter (fun e => e.1 != slot) ++ mine.eraseDups.map (fun k => (slot, k)) }

/-- A master notes the sender, its join and its departure. -/
def sheafSeen (s : State) (y : SheafS) (slot : Nat) (join standby leave : Bool) : SheafS :=
  { y with seen := if sheafMember s slot then (slot, s.dt) :: y.seen.filter (fun e => e.1 != slot) else y.seen,
           joins := if join then y.joins.filter (fun e => e.1 != slot) ++ [(slot, standby)] else y.joins,
           leaves := if leave && !y.leaves.contains slot then y.leaves ++ [slot] else y.leaves }

theorem sheafStatus_notes {slot : Nat} {join standby leave : Bool} {links : List Nat} (hjoined : sheafState s = 2) :
    sheafStatus s slot join standby leave links = s.withSheaf (if sheafRole s = 1
      then sheafSeen s (sheafUsed s slot (sheafMine s links)) slot join standby leave else sheafUsed s slot (sheafMine s links)) := by
  refine (if_neg (not_not.mpr hjoined)).trans ?_
  by_cases hrole : sheafRole s = 1
  · rw [if_pos hrole]
    exact if_neg (not_not.mpr hrole)
  · rw [if_neg hrole]
    exact if_pos hrole

theorem sheafSeen_leaves (y : SheafS) (slot : Nat) (join standby : Bool) : slot ∈ (sheafSeen s y slot join standby true).leaves := by
  show slot ∈ if true && !y.leaves.contains slot then y.leaves ++ [slot] else y.leaves
  by_cases h : y.leaves.contains slot = true
  · rw [if_neg (by rw [h]; decide)]
    exact List.contains_iff_mem.mp h
  · rw [if_pos (by simpa using h)]
    exact List.mem_append_right _ List.mem_cons_self

theorem sheafSeen_seen (y : SheafS) {slot : Nat} (join standby leave : Bool) (hmember : sheafMember s slot = true) :
    (slot, s.dt) ∈ (sheafSeen s y slot join standby leave).seen := by
  show (slot, s.dt) ∈ if sheafMember s slot then (slot, s.dt) :: y.seen.filter (fun e => e.1 != slot) else y.seen
  rw [if_pos hmember]
  exact List.mem_cons_self

theorem sheafTimeout_drops {slot : Nat} {e : Nat × Tick} (hjoined : sheafState s = 2) (hrole : sheafRole s = 1)
    (hseen : s.sheaf.seen.find? (fun e => e.1 == slot) = some e) : sheafTimeout s slot = sheafDrop (s.at (e.2 + tk msTicks)) slot := by
  unfold sheafTimeout
  rw [if_neg (not_not.mpr hjoined), if_pos hrole, hseen]

theorem sheafTimeout_departs {slot : Nat} {t : Tick} (hjoined : sheafState s = 2) (hrole : sheafRole s = 3)
    (hmaster : sheafNode s slot = s.fld R.sheafMaster_MASTER) (hbeacon : s.sheaf.beaconAt = some t) :
    sheafTimeout s slot = sheafDepart (s.at (t + tk msTicks)) := by
  unfold sheafTimeout
  rw [if_neg (not_not.mpr hjoined), if_neg (by omega), if_pos ⟨hrole, hmaster⟩, hbeacon]

/-- An arrival of a link, its time of this module's clock in front of its words. -/
def linkArrived (s : State) (v : Nat) (ft : Tick) (per : Nat) (out : List Word) : Remote :=
  { v := v, ft := ft, at_ := s.dt, per := per, out := lo32 (dtOfFt s ft) :: hi32 (dtOfFt s ft) :: out.drop 2 }

theorem linkData_replaces {v : Nat} {ft : Tick} {per : Nat} {out : List Word} (hjoined : sheafState s = 2) (hlow : 256 ≤ v) (hhigh : v ≤ 0x10FF)
    (hother : v / 256 - 1 ≠ sheafSlot s) :
    linkData s v ft per out = s.withSheaf { s.sheaf with remote := linkArrived s v ft per out :: s.sheaf.remote.filter (fun x => x.v != v) } := by
  refine if_neg ?_
  rintro (h | h | h | h)
  · exact h hjoined
  · omega
  · omega
  · exact hother h

theorem mirrorTake_waits {m : Mirror} (hrole : sheafRole s = 2) (hjoined : sheafState s = 2) : m ∈ (mirrorTake s m).sheaf.mirrors := by
  rw [mirrorTake, if_pos ⟨hrole, hjoined⟩]
  exact List.mem_append_right _ List.mem_cons_self

theorem mirrorTake_regs (s : State) (m : Mirror) : (mirrorTake s m).regs = s.regs := by
  unfold mirrorTake
  split <;> rfl

end

/-! ### The takeover (R446) -/

section

variable {s : State} {b : Tick}

/-- The check of PEER_LEAD_N, 1 µs after the boundary. -/
def takeoverChecked (s : State) (high : Bool) (b : Tick) : State :=
  let s0 := s.setFlag R.sheafStat_PEER_LEAD (!high)
  (s0.withSheaf { s0.sheaf with check := none }).at (b + tk usTicks)

section

variable (s) (high : Bool) (b)

theorem takeoverChecked_fld {f : RF} (hf : ∀ t v, (State.setFld t R.sheafStat_PEER_LEAD v).fld f = t.fld f) :
    (takeoverChecked s high b).fld f = s.fld f := by
  rw [takeoverChecked, State.at_fld, State.withSheaf_fld, State.setFlag, hf]

theorem takeoverChecked_sheaf : (takeoverChecked s high b).sheaf = { s.sheaf with check := none } :=
  State.at_keeps_field State.sheaf (fun _ _ => rfl) _ _

theorem takeoverChecked_evt : (takeoverChecked s high b).evt = s.evt := State.at_evt ..

theorem takeoverChecked_role : sheafRole (takeoverChecked s high b) = sheafRole s :=
  takeoverChecked_fld s b high fun t v => State.fld_elsewhere t R.sheafStat_PEER_LEAD R.sheafCfg_ROLE v rfl

theorem takeoverChecked_state : sheafState (takeoverChecked s high b) = sheafState s :=
  takeoverChecked_fld s b high fun t v => State.fld_beside t R.sheafStat_PEER_LEAD R.sheafStat_STATE v rfl rfl rfl

theorem takeoverChecked_node : swNode (takeoverChecked s high b) = swNode s :=
  takeoverChecked_fld s b high fun t v => State.fld_elsewhere t R.sheafStat_PEER_LEAD R.swardNode_NODE v rfl

end

/-- The standby holds the lead, as a root, the old master no member. -/
def takeoverRoot (u : State) (old : Nat) : State :=
  sheafSetMember (swSetRoot ((u.setFlag R.sheafStat_LEAD true).setFld R.sheafCfg_ROLE 1) true) old false

/-- The standby is the master of the members that are left. -/
def takeoverLeads (u : State) (old : Nat) : State :=
  let s2 := takeoverRoot u old
  let seen := ((List.range 16).filter (fun m => sheafMember s2 m && m != sheafSlot s2)).map (fun m => (m, s2.dt))
  let s3 := s2.withSheaf { s2.sheaf with took := true, standby := none, seen := seen, mirrors := [], peerTold := false }
  (cutLinks (s3.setFld R.sheafMaster_MASTER (swNode s3)) (some old)).cntSat R.sheafCnt_TAKEOVERS

/-- The takeover told, with its instant. -/
def takeoverTold (v : State) (at_ : Tick) : State := (v.setReg64 R.sheafTakedtLo at_).raise 249 0 (wd (bitsOf (v.reg (R.nibGseq 0)) 0 16))

theorem takeover_checks (high : Bool) (hcheck : s.sheaf.check = some b) (hrole : sheafRole s = 2) (hjoined : sheafState s = 2) :
    takeover s high = (let u := takeoverChecked s high b
      if !high then (u.withSheaf { u.sheaf with peerTold := true }).raise 250 0 1#32
      else takeoverTold (takeoverLeads u (u.fld R.sheafMaster_MASTER - u.fld R.sheafCfg_BASE)) (b + tk usTicks)) := by
  have hpasses : ¬ (sheafRole (takeoverChecked s high b) ≠ 2 ∨ sheafState (takeoverChecked s high b) ≠ 2) := by
    rw [takeoverChecked_role, takeoverChecked_state]
    exact fun h => h.elim (· hrole) (· hjoined)
  unfold takeover
  rw [hcheck]
  exact if_neg hpasses

section

variable (u : State) (old : Nat)

theorem takeoverRoot_fld {f : RF} (hmember : R.sheafStat ≠ f.addr ∨ (R.sheafStat = f.addr ∧ f.fits = true ∧ 16 ≤ f.lo)) (hnode : ¬ R.swardNode = f.addr)
    (hft : ¬ R.swardFtstat = f.addr) : (takeoverRoot u old).fld f = ((u.setFlag R.sheafStat_LEAD true).setFld R.sheafCfg_ROLE 1).fld f := by
  rw [takeoverRoot, sheafSetMember_fld _ old false hmember, swSetRoot_fld _ true hnode hft]

theorem takeoverRoot_sheaf : (takeoverRoot u old).sheaf = u.sheaf := by
  rw [takeoverRoot, sheafSetMember_sheaf, swSetRoot_sheaf]
  rfl

theorem takeoverRoot_node : swNode (takeoverRoot u old) = swNode u := by
  have hset : (swSetRoot ((u.setFlag R.sheafStat_LEAD true).setFld R.sheafCfg_ROLE 1) true).fld R.swardNode_NODE = _ := swSetRoot_node _ true
  rw [swNode, takeoverRoot, sheafSetMember_fld _ old false (.inl (by decide)), hset, swNode, State.fld_elsewhere _ R.sheafCfg_ROLE R.swardNode_NODE _ rfl]
  exact State.fld_elsewhere u R.sheafStat_LEAD R.swardNode_NODE _ rfl

/-- What MASTER and TAKEOVERS leave. -/
theorem takeoverLeads_fld {f : RF} (hmaster : ∀ t v, (State.setFld t R.sheafMaster_MASTER v).fld f = t.fld f)
    (hcount : ∀ t v, (State.setFld t R.sheafCnt_TAKEOVERS v).fld f = t.fld f) : (takeoverLeads u old).fld f = (takeoverRoot u old).fld f := by
  rw [takeoverLeads, State.cntSat, hcount, cutLinks_fld, hmaster, State.withSheaf_fld]

theorem takeoverLeads_role : sheafRole (takeoverLeads u old) = 1 := by
  rw [sheafRole, takeoverLeads_fld _ _ (fun t v => State.fld_elsewhere t R.sheafMaster_MASTER R.sheafCfg_ROLE v rfl)
    fun t v => State.fld_elsewhere t R.sheafCnt_TAKEOVERS R.sheafCfg_ROLE v rfl, takeoverRoot_fld _ _ (.inl (by decide)) (by decide) (by decide)]
  exact State.fld_put_of_lt _ R.sheafCfg_ROLE (w := 2) rfl (by decide) rfl

theorem takeoverLeads_lead : (takeoverLeads u old).flag R.sheafStat_LEAD = true := by
  rw [State.flag, takeoverLeads_fld _ _ (fun t v => State.fld_elsewhere t R.sheafMaster_MASTER R.sheafStat_LEAD v rfl)
    fun t v => State.fld_elsewhere t R.sheafCnt_TAKEOVERS R.sheafStat_LEAD v rfl, takeoverRoot_fld _ _ (.inr (by decide)) (by decide) (by decide),
    State.fld_elsewhere _ R.sheafCfg_ROLE R.sheafStat_LEAD _ rfl]
  exact State.flag_put u R.sheafStat_LEAD true rfl rfl

theorem swNode_lt : swNode u < 2 ^ 18 := bitsOf_lt _ 0 18 (by decide)

theorem takeoverLeads_master : (takeoverLeads u old).fld R.sheafMaster_MASTER = swNode u := by
  rw [takeoverLeads, State.cntSat, State.fld_elsewhere _ R.sheafCnt_TAKEOVERS R.sheafMaster_MASTER _ rfl, cutLinks_fld,
    State.fld_put_of_lt _ R.sheafMaster_MASTER (w := 18) rfl (swNode_lt _) rfl, swNode, State.withSheaf_fld]
  exact takeoverRoot_node u old

theorem takeoverLeads_sheaf : (takeoverLeads u old).sheaf.check = u.sheaf.check ∧ (takeoverLeads u old).sheaf.took = true := by
  rw [takeoverLeads, State.cntSat_sheaf, cutLinks_sheaf]
  refine ⟨?_, rfl⟩
  show (takeoverRoot u old).sheaf.check = u.sheaf.check
  rw [takeoverRoot_sheaf]

variable (at_ : Tick)

/-- The instant and the event leave every other register. -/
theorem takeoverTold_fld {f : RF} (hlo : R.sheafTakedtLo ≠ f.addr) (hhi : R.sheafTakedtLo + 4 ≠ f.addr) : (takeoverTold u at_).fld f = u.fld f := by
  rw [takeoverTold, State.raise_fld, State.setReg64, State.fld_setReg_ne _ f _ hhi, State.fld_setReg_ne _ f _ hlo]

theorem takeoverTold_sheaf : (takeoverTold u at_).sheaf = u.sheaf := rfl

theorem takeoverTold_instant : (takeoverTold u at_).reg64 R.sheafTakedtLo = at_ := State.reg64_setReg64_same u R.sheafTakedtLo at_

end

/-- The peer's lead is gone: the standby leads. -/
theorem takeover_leads (hcheck : s.sheaf.check = some b) (hrole : sheafRole s = 2) (hjoined : sheafState s = 2) {t : State} (ht : t = takeover s true) :
    sheafRole t = 1 ∧ t.flag R.sheafStat_LEAD = true ∧ t.sheaf.check = none ∧ t.sheaf.took = true ∧ t.fld R.sheafMaster_MASTER = swNode s ∧
      t.reg64 R.sheafTakedtLo = b + tk usTicks := by
  rw [takeover_checks true hcheck hrole hjoined] at ht
  have hnode := takeoverChecked_node s b true
  have hchecked := takeoverChecked_sheaf s b true
  generalize takeoverChecked s true b = u at ht hnode hchecked
  obtain ⟨hkept, htook⟩ := takeoverLeads_sheaf u (u.fld R.sheafMaster_MASTER - u.fld R.sheafCfg_BASE)
  have hrole1 := takeoverLeads_role u (u.fld R.sheafMaster_MASTER - u.fld R.sheafCfg_BASE)
  have hlead := takeoverLeads_lead u (u.fld R.sheafMaster_MASTER - u.fld R.sheafCfg_BASE)
  have hmaster := takeoverLeads_master u (u.fld R.sheafMaster_MASTER - u.fld R.sheafCfg_BASE)
  have htold : t = takeoverTold (takeoverLeads u (u.fld R.sheafMaster_MASTER - u.fld R.sheafCfg_BASE)) (b + tk usTicks) := ht
  generalize takeoverLeads u (u.fld R.sheafMaster_MASTER - u.fld R.sheafCfg_BASE) = v at htold hkept htook hrole1 hlead hmaster
  subst htold
  refine ⟨(takeoverTold_fld v _ (by decide) (by decide)).trans hrole1, (congrArg (· == 1) (takeoverTold_fld v _ (by decide) (by decide))).trans hlead,
    ?_, htook, (takeoverTold_fld v _ (by decide) (by decide)).trans (hmaster.trans hnode), takeoverTold_instant v _⟩
  rw [takeoverTold_sheaf, hkept, hchecked]

/-- The peer still leads: the standby tells that its mirror is absent. -/
theorem takeover_tells (hcheck : s.sheaf.check = some b) (hrole : sheafRole s = 2) (hjoined : sheafState s = 2) {t : State} (ht : t = takeover s false) :
    sheafRole t = 2 ∧ t.sheaf.check = none ∧ t.sheaf.peerTold = true ∧ t.evt.occ = s.evt.occ ++ [{ ev := 250, inst := 0, detail := 1#32 }] := by
  rw [takeover_checks false hcheck hrole hjoined] at ht
  have hchecked := takeoverChecked_sheaf s b false
  have hevt := takeoverChecked_evt s b false
  have hkept := (takeoverChecked_role s b false).trans hrole
  generalize takeoverChecked s false b = u at ht hchecked hevt hkept
  subst ht
  refine ⟨?_, ?_, rfl, ?_⟩
  · exact (State.raise_fld ..).trans ((State.withSheaf_fld ..).trans hkept)
  · show u.sheaf.check = none
    rw [hchecked]
  · show u.evt.occ ++ _ = _
    rw [hevt]

end

/-- Settles O45, role by role, beacon, status frame and takeover. -/
theorem sheafWorks : Obligations.Sheaf_Works := by
  unfold Obligations.Sheaf_Works
  refine ⟨?_, ?_, ?_, ?_, ?_, ?_, ?_, ?_, ?_⟩
  case refine_1 =>
    intro s r a b role base mst hs htarget hp hrole hbase hmst ha hb hround hnode hmaster hoff hsync hdisc htg
    obtain ⟨hrole_, hlead, hleaves, halone, hleads, hmember⟩ :=
      sheafRoleTaken_placed (s := s) (hrole ▸ bitsOf_lt a 30 2 (by decide)) (hbase ▸ bitsOf_lt a 0 18 (by decide)) (hmst ▸ bitsOf_lt b 0 18 (by decide))
    refine ⟨sheafRoleTaken s role base mst, ?_, hrole_, hlead, hleaves, halone, hleads, hmember⟩
    rw [exec_of_served (c := .sheafRole r) rfl hs (by simp [htarget, hp]),
      opSheafRole_takes hp hrole hbase hmst ha hb hround hnode hmaster hoff hsync hdisc htg]
  case refine_2 =>
    intro s hepoch
    refine ⟨fun hleaving hjoined => ?_, fun u hstays hrole hjoined hu => ?_, fun hapart => congrArg Host.Outcome.next (sheafEpoch_idle hepoch hapart)⟩
    · exact ⟨_, congrArg Host.Outcome.next (sheafEpoch_departs hepoch hleaving hjoined), rfl, sheafDepart_state s, sheafDepart_members s, rfl, rfl⟩
    · subst hu
      exact congrArg Host.Outcome.next (sheafEpoch_decides hepoch hstays hrole hjoined)
  case refine_3 =>
    intro s
    refine ⟨fun hrole hjoined => ⟨_, rfl, ?_, ?_⟩, fun hrole hstate => ⟨_, rfl, sheafBeaconSend_member hrole hstate⟩⟩
    · exact sheafBeaconSend_master (k := State.sheaf) swSend_sheaf hrole hjoined
    · exact sheafBeaconSend_master (k := State.loop) swSend_loop hrole hjoined
  case refine_4 =>
    intro s src took members answer grps hrole hstate hsrc
    refine ⟨_, congrArg Host.Outcome.next (sheafBeacon_takes hrole hstate hsrc), ?_⟩
    have hust := beaconNoted_state s src.toNat members.toNat (grps.map (fun e => (e.1.val, e.2.1.toNat, e.2.2)))
    have husheaf := beaconNoted_sheaf s src.toNat members.toNat (grps.map (fun e => (e.1.val, e.2.1.toNat, e.2.2)))
    have humaster := beaconNoted_master s (members := members.toNat) (grps.map (fun e => (e.1.val, e.2.1.toNat, e.2.2))) src.isLt
    have humembers := beaconNoted_members s (src := src.toNat) (grps.map (fun e => (e.1.val, e.2.1.toNat, e.2.2))) members.isLt
    generalize beaconNoted s src.toNat members.toNat (grps.map (fun e => (e.1.val, e.2.1.toNat, e.2.2))) = u at hust husheaf humaster humembers
    have hsent : u.sheaf.joinSent = s.sheaf.joinSent := by rw [husheaf]
    dsimp only
    by_cases hasked : sheafState s = 1 ∧ s.sheaf.joinSent = true
    · obtain ⟨hat, hbeacon⟩ := beaconAnswered_sheaf answer u
      rw [if_pos (by rwa [hust, hsent]), if_pos hasked]
      refine ⟨(beaconAnswered_master ..).trans humaster, hat.trans (by rw [husheaf]), hbeacon.trans (by rw [husheaf]),
        (beaconAnswered_state u (hust.trans hasked.1)).trans (by cases answer <;> rfl), fun h => ?_⟩
      have hno : answer ≠ some true := by
        rcases h with h | h | h
        · omega
        · exact absurd (h.symm.trans hasked.2) Bool.false_ne_true
        · exact h
      exact (beaconAnswered_members u hno).trans humembers
    · rw [if_neg (by rwa [hust, hsent]), if_neg hasked]
      exact ⟨humaster, by rw [husheaf], by rw [husheaf], hust, fun _ => humembers⟩
  case refine_5 =>
    intro s slot join standby leave links mine hjoined hmine
    refine ⟨_, congrArg Host.Outcome.next (sheafStatus_notes hjoined), rfl, rfl, ?_, fun hrole => ?_⟩
    · rw [hmine]
      exact (apply_ite SheafS.users ..).trans (ite_self _)
    · rw [if_pos hrole]
      refine ⟨rfl, fun hleave => ?_, fun hmember => sheafSeen_seen _ join standby leave hmember⟩
      rw [hleave]
      exact sheafSeen_leaves ..
  case refine_6 =>
    intro s slot hjoined
    exact ⟨fun e hrole hseen => congrArg Host.Outcome.next (sheafTimeout_drops hjoined hrole hseen),
      fun t hrole hmaster hbeacon => congrArg Host.Outcome.next (sheafTimeout_departs hjoined hrole hmaster hbeacon)⟩
  case refine_7 =>
    intro s v ft t per out hjoined hlow hhigh hother
    exact ⟨_, congrArg Host.Outcome.next (linkData_replaces hjoined hlow hhigh hother), List.find?_cons_of_pos (beq_self_eq_true _), rfl⟩
  case refine_8 =>
    intro s p g seq state ctxs nibs t hrole hjoined
    exact ⟨_, rfl, mirrorTake_regs .., mirrorTake_waits hrole hjoined⟩
  case refine_9 =>
    intro s high
    refine ⟨fun hnone => congrArg Host.Outcome.next ?_, fun b hcheck hrole hjoined =>
      ⟨⟨_, rfl, takeover_leads hcheck hrole hjoined rfl⟩, ⟨_, rfl, takeover_tells hcheck hrole hjoined rfl⟩⟩⟩
    unfold takeover
    rw [hnone]

end Sys2Proof.Machine
end
